-- ==== Sys2Proof/Word.lean ====
section
/-! DEFINITION. The word types of the model: registers are 32 bits wide (R8), bytes are 8 bits, and all the rest of the
model counts in `Nat` and `Int`. -/
namespace Sys2Proof

/-- A 32-bit register word (R8), also the carrier of FP32 bit patterns (R128). -/
abbrev Word := BitVec 32

/-- One byte of DRAM, tile SRAM or a message (R5). -/
abbrev Byte := BitVec 8

/-- The word with value `n` modulo 2^32. -/
def w32 (n : Nat) : Word := BitVec.ofNat 32 n

/-- The byte with value `n` modulo 2^8. -/
def b8 (n : Nat) : Byte := BitVec.ofNat 8 n

end Sys2Proof
end

