-- ==== Sys2Proof/Syntax.lean ====
section
/-! DEFINITION. The commands of the module: one constructor of `Instr` per row of the table of operations and events, with
the operands that row's rule names. A command from a register write carries the agent that writes; a descriptor carries its
tile, its thread and its eight words; a mailbox command carries its box and its parameters; an event in the world outside
carries the facts of that event. -/
namespace Sys2Proof

/-- Who makes a register or memory access (R43, R427, R572): a YCT session by slot, the management bus, the Lighthouse
firmware, a tile program, a DMA engine. -/
inductive Agent where
  | session (slot : Nat)
  | j3
  | firmware
  | tileProgram (t : Nat)
  | dma
  deriving DecidableEq, Repr

/-- A source or destination of packets (R57, R61): a tile, or an attachment of an edge router (attachments counted from 0
in the order of the table of R57). -/
inductive MeshUnit where
  | tile (n : Nat)
  | edge (k att : Nat)
  deriving DecidableEq, Repr

/-- What a packet carries beside its header's routing fields (R61): the destination address and the payload bytes. -/
structure PktBody where
  addr : Nat
  data : List Byte
  deriving DecidableEq, Repr

/-- A descriptor (R188): eight 32-bit words. -/
structure Desc where
  w0 : Word
  w1 : Word
  a : Word
  b : Word
  d : Word
  x : Word
  p1 : Word
  w7 : Word
  deriving DecidableEq, Repr

/-- A DMA engine (R401): the edge DMA, or a tile's. -/
inductive DmaEng where
  | edge
  | tile (t : Nat)
  deriving DecidableEq, Repr

/-- A check-value unit (R414): one of the eight edge units, or a tile's. -/
inductive CrcUnit where
  | edge (u : Nat)
  | tile (t : Nat)
  deriving DecidableEq, Repr

/-- Where a message came from: Ethernet source, IP source, UDP port, VLAN (R423, R542). -/
structure Source where
  mac : Nat := 0
  ip : Nat := 0
  port : Nat := 0
  vlan : Nat := 0
  deriving DecidableEq, Repr

/-- What the port knows of a session request that passed checks 1 to 5 of R429: the session's slot, its SEQ, and its
payload length. -/
structure MsgHead where
  slot : Nat
  seq : Nat
  len : Nat
  deriving DecidableEq, Repr

/-- One VLAN tag of a received frame: an S-tag or a C-tag, its VID and PCP (R420, R424). -/
structure VlanTag where
  sTag : Bool := false
  vid : Nat
  pcp : Nat
  deriving DecidableEq, Repr

/-- What the boot ROM finds at the release of a MODULE reset: REFCLK in its window (R46), the non-volatile store readable (R510). -/
structure AtRelease where
  refIn : Bool := false
  nvOk : Bool := true
  deriving DecidableEq, Repr

/-- A received frame (R420, R421, R423, R424, R427, R429): its length, whether its FCS holds, its FEC codewords corrected and uncorrectable, its
tags, outermost first, and EtherType; of an IP packet its source and destination, whether it is a fragment, whether it carries IPv4 options or IPv6
extension headers, its protocol, whether its IP and UDP headers are sound, and its destination port; and the bytes after these headers. -/
structure Frame where
  len : Nat
  fcsOk : Bool
  corrected : Nat := 0
  uncorrected : Nat := 0
  tags : List VlanTag := []
  etherType : Nat
  src : Source
  dst : Nat := 0
  fragment : Bool := false
  options : Bool := false
  proto : Nat := 0
  headersOk : Bool := true
  dstPort : Nat := 0
  data : List Byte
  deriving DecidableEq, Repr

/-- What the port knows of a HELLO that passed checks 1 to 4 of R429: its SEQ and its payload length. -/
structure HelloHead where
  seq : Nat
  len : Nat
  deriving DecidableEq, Repr

/-- The PTP messages that a slave clock receives (R426). -/
inductive PtpKind where
  | announce | sync | followUp | delayResp | other
  deriving DecidableEq, Repr

/-- A received PTP message (R426): its kind, domain, sender's port identity and sequence number, whether its sender is two-step, the time it carries
in ns and its correction in units of 2^-16 ns, the data set of an Announce (priority 1, class, accuracy, variance, priority 2, grandmaster,
steps removed), and the port that a Delay_Resp answers. -/
structure PtpMsg where
  kind : PtpKind
  domain : Nat := 0
  source : Nat
  seq : Nat := 0
  twoStep : Bool := false
  time : Nat := 0
  correction : Int := 0
  dataSet : List Nat := []
  requester : Nat := 0
  deriving DecidableEq, Repr

/-- An OPEN request (R434, R540) that has passed checks 1 to 4 of R429: its bytes before the tag, and the tag. -/
structure OpenReq where
  msg : List Byte
  tag : List Byte
  deriving DecidableEq, Repr

/-- A mark as received (R465). -/
structure Mark where
  tide : Nat
  stop : Bool
  fault : Bool
  beacon : Option (Nat × Nat × Nat)
  demand : Nat
  applied : Nat
  credits : List Nat
  fCoord : Nat
  fCause : Nat
  retried : Bool
  deriving DecidableEq, Repr

/-- A shard as it arrives (R255, R263): its bytes, and the link it came over, 0xFF for one of the host's at a head. -/
structure ShardIn where
  bytes : List Byte
  link : Nat := 0xFF
  deriving DecidableEq, Repr

/-- A shard that downstream does not keep (R264): its number, and whether it was refused, not corrupt. -/
structure NakIn where
  seq : Nat
  refused : Bool := false
  deriving DecidableEq, Repr

/-- Parameters of CHART_RELAY (R261, R581). -/
structure RelayParams where
  role : Nat
  upLink : Nat
  downLink : Nat
  org : Nat × Nat × Nat
  first : Nat
  last : Nat
  placement : List Nat
  deriving DecidableEq, Repr

/-- What the stages of a spring calibration measured (R300): of stage 1, the mean code of RC_0 through each of the 64 converters, in
1/1024 LSB; of stage 2, each column's mean forced-zero code in 1/1024 LSB (256 weight columns, 8 spare columns); of stages 3 and 4, for
each group vector v at +4 and then at -4 (vectors 2v and 2v + 1) the sum of the 16 phase codes of every weight column; of stage 4 too,
the same for all rows at +2, +4 and +8; and the record stage's REF_GAIN and REF_OFFS means in 1/256 code. -/
structure SpringMeas where
  refs : List Int
  offs : List Int
  group : List (List Int)
  check : List (List Int)
  full : List (List Int)
  rg : Int
  ro : Int
  deriving DecidableEq, Repr

/-- Which arrays a calibration command names (R326): one physical array, a tile, or the module. -/
inductive CalScope where
  | array (t a : Nat)
  | tile (t : Nat)
  | module
  deriving DecidableEq, Repr

/-- A calibration request (R326): neap or spring over a scope, or a diode alignment. -/
inductive CalReq where
  | neap (sc : CalScope)
  | spring (sc : CalScope)
  | diode
  deriving DecidableEq, Repr

/-- Repair slots of a matrix in one row group (R324, R326). -/
structure RepairSlot where
  matrix : Nat
  group : Nat
  tile : Nat
  region : Nat
  offset : Nat
  slots : Nat
  deriving DecidableEq, Repr

/-- One part of a key/value page (R335): layer, heads, head dimension, format (0 Shingle-4, 1 Shingle-8), SEG_OFF. -/
structure KvPart where
  layer : Nat
  heads : Nat
  dim : Nat
  fmt8 : Bool
  segOff : Nat
  deriving DecidableEq, Repr

/-- Parameters of KV_CFG (R357): pool base and size in 4 KB units, parts, and the page-list operand (region, offset word) of
each berth and part on its tile. -/
structure KvParams where
  base : Nat
  size : Nat
  parts : List KvPart
  lists : List (Nat × Nat × Nat × Nat)
  deriving DecidableEq, Repr

/-- One patch-table entry (R342). -/
structure Patch where
  tile : Nat
  kind : Nat
  berth : Nat
  t : Nat
  slot : Nat
  tmpl : Nat
  deriving DecidableEq, Repr

/-- Parameters of STEP_CFG (R357): front coordinates, VOCAB, ZERO_ID, template area, patch table, FAULT_POLICY (true: FAIL),
HOLD_TIME in seconds, PARK_LIMIT in tenths of a second; the last three may be absent and then have their defaults. -/
structure StepParams where
  front : Nat × Nat × Nat
  vocab : Nat
  zeroId : Nat
  template : Nat
  patches : List Patch
  failPolicy : Option Bool
  holdTime : Option Nat
  parkLimit : Option Nat
  deriving DecidableEq, Repr

/-- Parameters of KV_ROUTE (R352): origin of the generation slice, SHIP_TMO in ms (20 where it is absent), SHIP_POLICY (true:
REPREFILL). -/
structure RouteParams where
  org : Nat × Nat × Nat
  tmo : Option Nat
  reprefill : Bool
  deriving DecidableEq, Repr

/-- Parameters of CTX_SUBMIT (R357). -/
structure SubmitParams where
  reqId : Nat
  tenant : Nat
  promptLen : Nat
  maxOut : Nat
  sample : Bool
  shipIn : Bool
  shipOut : Bool
  peer : Nat
  invTemp : Word
  seed : Nat
  stop : List Nat
  dlFirst : Nat
  dlGap : Nat
  dlEnd : Nat
  deriving DecidableEq, Repr

/-- The parameters of TENANT_CFG (R358). -/
structure TenantParams where
  enabled : Bool
  weight : Nat
  bkt : Bool
  maxCtx : Nat
  maxPages : Nat
  tokenQuota : Nat
  resvOut : Nat
  drop : Bool
  reuse : Nat
  packId : Nat
  deriving DecidableEq, Repr

/-- One berth of a step plan (R341, R343): kind 0 empty, 1 decode, 2 chunk; its tokens, its random value and inverse
temperature, and the steering pack bound to its tenant as it was placed (R359), 0 for none. -/
structure PlanBerth where
  berth : Nat
  kind : Nat
  ctx : Nat
  tenant : Nat
  start : Nat
  ntok : Nat
  final : Bool
  sample : Bool
  rand : Nat
  invTemp : Word
  tokens : List Nat
  pack : Nat := 0
  deriving DecidableEq, Repr

/-- One change of the prefix tree that the front sends with a plan (R371): a matched node joins a context; a node is made for
a page of a context (its index, the context, page index, key, parent and scope tenant and pack); a node is deleted, moves
to public scope under a new key, or loses its key; a context leaves its pages from one index on, all of them with its leaf tables from
index 0 (R376). -/
inductive PrefixOp where
  | hold (ctx node : Nat)
  | make (node ctx page key : Nat) (parent : Option Nat) (tenant pack : Nat)
  | delete (node : Nat)
  | publish (node key : Nat) (parent : Option Nat)
  | unkey (node : Nat)
  | leave (ctx page : Nat)
  deriving DecidableEq, Repr

/-- What a module's copy of a context's record takes from the front's (R328, R331): the record without the pages, which are each
module's own, and the context it ships to (R357). -/
structure CtxCopy where
  state : Nat
  reason : Nat
  tenant : Nat
  reqId : Nat
  flags : Nat
  promptLen : Nat
  promptRcvd : Nat
  promptDone : Nat
  maxOut : Nat
  outCount : Nat
  reserve : Nat
  invTemp : Word
  rng : Nat
  stop : List Nat
  dlFirst : Nat
  dlGap : Nat
  dlEnd : Nat
  tSubmit : Nat
  tLast : Nat
  berth : Nat
  step : Nat
  lastTokens : List (Nat × Nat)
  peer : Nat
  deriving DecidableEq, Repr

/-- A step plan as a module receives it (R329, R343, R328, R358, R371): step number, berths, the records of the live contexts as the
front holds them, and the tenant and prefix changes it carries. -/
structure StepPlan where
  step : Nat
  berths : List PlanBerth
  ctxs : List (Nat × CtxCopy)
  tenants : List (Nat × TenantParams)
  prefixes : List PrefixOp
  deriving DecidableEq, Repr

/-- Parameters of PREFIX_CFG (R372); without a PREFIX_MAX its default holds. -/
structure PrefixParams where
  nodes : Nat
  h : Nat
  maxFree : Option Nat
  table : Nat
  index : Nat
  deriving DecidableEq, Repr

/-- The other messages between the front and the modules of its slice (R329, R344, R345, R328, R363, R370, R354): a berth's
result (the 16 bytes of R195, and whether its buffer was poisoned), a fault or malformed descriptor in a step, the front's record of a
context, the state, reason, PROMPT_DONE and OUT_COUNT that a module asks of the front for a context whose page is lost, a module's free
page count with the module's coordinates, a module's answer that it lacks a pack, that a module holds every page of an incoming context or
has every page of an outgoing one acknowledged, that a step has retired at a device time with these berths troubled, the front's
PREFIX_CFG, changes of the prefix tree while no step plan can carry them, and that a step used an array marked degraded (R346). -/
inductive SliceMsg where
  | result (berth : Nat) (value : List Byte) (poison : Bool)
  | stepFault (step : Nat)
  | ctxState (ctx : Nat) (copy : CtxCopy)
  | ctxLost (ctx state reason promptDone outCount : Nat)
  | freePages (module count : Nat)
  | packMissing (tenant : Nat)
  | shipped (ctx : Nat)
  | retired (step time : Nat) (troubled : List Nat)
  | prefixCfg (p : PrefixParams)
  | prefixOps (ops : List PrefixOp)
  | degraded (step : Nat)
  deriving DecidableEq, Repr

/-- One entry of STREAM_IN (R350). -/
structure StreamEntry where
  ctx : Nat
  offset : Nat
  final : Bool
  tokens : List Nat
  deriving DecidableEq, Repr

/-- A key/value page shard as received (R353): the link it came over, its header fields, payload, and whether header and CRC
were good. -/
structure PageShard where
  link : Nat
  ctx : Nat
  page : Nat
  tokens : Nat
  last : Bool
  npages : Nat
  firstToken : Nat
  payload : List Byte
  good : Bool
  deriving DecidableEq, Repr

/-- One tile and layer of STEER_CFG (R369). -/
structure SteerEntry where
  tile : Nat
  layer : Nat
  nb : Nat
  listOp : Nat
  slotRegion : Nat
  slots : Nat
  pinned : Bool
  deriving DecidableEq, Repr

/-- Parameters of STEER_CFG (R369, R370): entries, pack store base and size. -/
structure SteerParams where
  entries : List SteerEntry
  base : Nat
  size : Nat
  deriving DecidableEq, Repr

/-- Parameters of METER_CFG (R379 to R381): WINDOW in seconds, TOK_W, ATT_W, P_IDLE in mW, ring address. -/
structure MeterParams where
  window : Nat
  tokW : Nat
  attW : Nat
  pIdle : Nat
  ring : Nat
  deriving DecidableEq, Repr

/-- The error that a sector's codewords carry when the controller reads it (R388): none, one confined to one symbol (corrected), or one
over that many symbols of a codeword. -/
inductive DramErr where
  | none
  | corrected
  | uncorrectable (symbols : Nat)
  deriving DecidableEq, Repr

/-- A flit that arrives (R449, R450): how many of the codewords that carry it the decoder corrected, how many it could not correct,
and its 256 bytes. -/
structure FlitIn where
  corrected : Nat
  uncorrected : Nat
  bytes : List Byte
  deriving DecidableEq, Repr

/-- Parameters of SYSCAL_POINT (R486): input (false VIN, true IIN), point (true HIGH), the reference value in mV or mA, and
what the converters give over the second, in mV or mA before any coefficient is applied: the means of the SAR and of the integrator, and how far
each spreads (RMS). -/
structure SyscalParams where
  current : Bool
  high : Bool
  reference : Int
  sarMean : Int
  intMean : Int
  sarSpread : Nat
  intSpread : Nat
  deriving DecidableEq, Repr

/-- The commands, one per row of the table, in its order. -/
inductive Instr where
  /-- R22. The input rises above 20.0 V, so the standby regulator starts, the always-on and management domains run, and PWR_SEQ_STATUS takes its reset values. -/
  | standbyPowerUp
  /-- R28. The input falls below the standby stop level, so standby power is lost, the always-on and management domains stop, and a latched FAULT ends. -/
  | standbyPowerLoss
  /-- R23. The input crosses the rising undervoltage level while below the overvoltage level, and the 50 ms debounce starts. -/
  | inputInRange
  /-- R23. The input crosses the falling undervoltage level or the rising overvoltage level, so PWR_GOOD deasserts and the main rails go down in reverse order. -/
  | inputOutOfRange (high : Bool)
  /-- R26. The input has stayed in range for 50 ms, and the hot-swap stage starts charging the bulk capacitance. -/
  | debounceExpiry
  /-- R26. The hot-swap switch is fully on, and the sequencer starts rail 0. -/
  | hotSwapOn
  /-- R26. A rail enters its good window, so the next rail starts, or PWR_GOOD rises after rail 9. -/
  | railGood
  /-- R28. A rail has not entered its window 5 ms after its start, which is latched as fault cause 1 with shutdown and FAULT. -/
  | railStartTimeout
  /-- R28. A rail rises above its window, or leaves it after entering it, which is latched as fault cause 2 or 3 with shutdown and FAULT. -/
  | railFault (rail : Nat) (high : Bool)
  /-- R25. A shutdown completes with every main rail off, and the sequencer rests in STANDBY or FAULT. -/
  | railsOff
  /-- R23. The main rails have been off for 10 ms, so an automatic restart may follow the 50 ms rule. -/
  | offTimeExpiry
  /-- R32. The input current exceeds 40 A for 20 us, so the hot-swap switch opens and fault cause 4 is latched. -/
  | inputOvercurrent
  /-- R28. A lid overtemperature is latched as fault cause 5, with shutdown and FAULT. -/
  | lidOvertemp
  /-- R32. Input power exceeds 900 W, so the power alarm edge fires guard cause G1 and the POWER injected sequence. -/
  | powerAlarm
  /-- R29. A write of 1 to PWR_SEQ_STATUS.OFF_REQ takes the rails down and holds the sequencer in STANDBY, or moves it from FAULT to STANDBY. -/
  | offReq (ag : Agent)
  /-- R29. A write of 1 to FAULT_LATCHED clears that bit, FAULT_CAUSE and FAULT_RAIL. -/
  | faultLatchedClear (ag : Agent)
  /-- R43. MOD_RESET_N is held low for 10 us or longer, so the die enters MODULE reset and any power-up in progress is aborted. -/
  | modResetAssert
  /-- R43. MOD_RESET_N is released, ending FAULT or the OFF_REQ hold and starting a new power-up where needed. -/
  | modResetRelease
  /-- R26. The die's MODULE reset is released 1 ms after PWR_GOOD or after the pin, and NV fields load. -/
  | moduleResetRelease (found : AtRelease)
  /-- R26. 4 ms after the die's release, all global registers become reachable. -/
  | registersReady
  /-- R46. A selected REFCLK stops or leaves the plus or minus 50 ppm window, so the die switches to the internal oscillator and sets REF_LOST. -/
  | refLost
  /-- R489. The diode comparator reaches TRIP_LEVEL, so THERMTRIP_N goes low, a fault stop follows, and the tile clocks are gated. -/
  | thermalTrip
  /-- R489. The junction has stayed below REL_LEVEL for 1 s, so the clocks are ungated, programming resumes and THERMTRIP_N rises. -/
  | thermalTripRelease
  /-- R43. SEC_ALARM_N is driven low for 1 us or longer, which raises the EXTERNAL security alarm. -/
  | secAlarmNAssert
  /-- R42. A management bus transfer on J3 accesses a register, and a read returns a status byte. -/
  | mgmtTransfer (legacy write : Bool) (addr data : Nat)
  /-- R42. The I3C dynamic address assignment assigns the module a dynamic address from its provisioned identifier. -/
  | entdaa (dynAddr : Nat)
  /-- R42. The I3C SETDASA sets the dynamic address from static address 0x4C. -/
  | setdasa (dynAddr : Nat)
  /-- R21. Once per hour, the firmware stores the running average of junction temperature in the non-volatile store. -/
  | junctionAvgStore
  /-- R67. A packet enters its source's injection queue and takes its age stamp. -/
  | packetInject (src dst : MeshUnit) (vc tenant : Nat) (body : PktBody) (sys : Bool)
  /-- R62. A router grants an output to a packet under routing and arbitration, and the packet moves one hop. -/
  | packetHop (router outPort : Nat)
  /-- R69. A packet at the head of an edge attachment input is tested against its tenant bucket and crosses, with tokens charged. -/
  | attachmentCross (edge att : Nat)
  /-- R70. A deferred packet becomes eligible once its tenant's bucket holds tokens, and it crosses. -/
  | deferredPacketRelease (edge att tenant : Nat)
  /-- R66. A write to GLB_MESH_CTRL is applied, with MODE and AGE_EN changes refused outside their window. -/
  | meshCtrlWrite (ag : Agent) (word : Nat)
  /-- R97. An array accepts a waiting stroke at a phase boundary once its drive stage, input latch and result buffer allow it. -/
  | strokeIssue (tile arr : Nat)
  /-- R98. A stroke's result record completes in the result buffer, and the array counters and status bits update. -/
  | strokeComplete (tile arr : Nat)
  /-- R106. A reference stroke drives every row at digit +2 on an array whose state accepts it, and is rejected otherwise. -/
  | refStrokeIssue (tile arr : Nat)
  /-- R119. A reference stroke completes, and its three codes are written together to ARR_REF_RESULT. -/
  | refStrokeComplete (tile arr : Nat)
  /-- R111. A VERIFY request puts an UNVERIFIED array into VERIFYING against the named targets. -/
  | arrayVerify (tile arr : Nat) (logical : Option Nat)
  /-- R111. A verify-only pass ends, and the array goes to READY or back to UNVERIFIED. -/
  | arrayVerifyDone (tile arr failing : Nat)
  /-- R267. A PROGRAM request starts verify-then-program of an array, either normally or in place inside a refresh window. -/
  | program (tile arr logical : Nat) (spares : List (Nat × Nat)) (band : Option (Nat × Nat))
  /-- R111. Program-verify ends, and the array goes to READY or SERVING, or to UNVERIFIED with stuck cells. -/
  | programDone (tile arr : Nat) (stuck : List (Nat × Nat × Nat))
  /-- R269. A MAP request schedules a READY array to serve a logical array at the permitted boundary. -/
  | map (tile logical arr : Nat)
  /-- R269. An UNMAP request schedules the withdrawal of a logical array's mapping. -/
  | unmap (tile logical : Nat)
  /-- R272. A SWAP request schedules a shadow to replace the serving array of a logical array. -/
  | swap (tile logical arr : Nat)
  /-- R274. A REMAP request schedules a swap whose outgoing array is then condemned. -/
  | remap (tile logical arr : Nat)
  /-- R299. A SPRING request starts spring calibration of a READY array, or of a serving array in place inside a refresh window. -/
  | spring (tile arr : Nat)
  /-- R302. A spring calibration ends, and its trims are applied or it fails, with reprogramming, condemnation or a suspect mark. -/
  | springDone (tile arr : Nat) (meas : SpringMeas)
  /-- R111. A CONDEMN request moves an array to CONDEMNED and withdraws its map entry. -/
  | condemn (tile arr : Nat)
  /-- R113. A write to ARR_CFG takes effect at the next boundary, or is refused as busy while the array is SERVING or CALIBRATING. -/
  | arrCfgWrite (ag : Agent) (tile arr word : Nat)
  /-- R117. ARR_STATUS.CNT_CLR clears the array counters and ARR_PRED_MAX at the next phase boundary. -/
  | arrCntClr (ag : Agent) (tile arr : Nat)
  /-- R120. ARR_PRED_MAX.CLR sets MAX to zero at the next phase boundary. -/
  | arrPredMaxClr (ag : Agent) (tile arr : Nat)
  /-- R109. A write to ARR_COLMAP assigns a spare column, and is refused when PROG_OK is 0 or COL lies out of range. -/
  | arrColmapWrite (ag : Agent) (tile arr spare word : Nat)
  /-- R163. ENG_ARITH_CTRL.CNT_CLR clears the arithmetic counters and tables at the next tide boundary. -/
  | engArithCntClr (ag : Agent) (tile : Nat)
  /-- R156. A write to ENG_OFFR changes the pending copy of the offset residuals. -/
  | offrWrite (ag : Agent) (tile arr idx word : Nat)
  /-- R176. A thread's next descriptor starts once its ordering, overlap and resource conditions are met. -/
  | descriptorDispatch (tile thread : Nat)
  /-- R175. The dispatcher grants a waiting descriptor its lane groups in class order, using reservation. -/
  | laneGroupGrant (tile : Nat)
  /-- R175. A lane-group grant reaches 256 cycles, and the descriptor re-enters dispatch. -/
  | grantExpiry (tile thread tag : Nat)
  /-- R180. A waiting DRAM request takes a freed request slot under the class floors, caps and ranks. -/
  | dramRequestIssue (tile : Nat)
  /-- R179. A DRAM read returns into tile SRAM, or a write is acknowledged, and the slot frees. -/
  | dramRequestComplete (tile idx : Nat)
  /-- R188. A descriptor retires, applying its FE_DST mark and EVT event. -/
  | descriptorRetire (tile thread tag : Nat)
  /-- R177. The combine pipeline takes a result record once it is complete and frees its buffer entry. -/
  | combineRecordAccept (tile : Nat)
  /-- R580. A QUANT_A unit writes its code block at its scheduled cycle, and the last unit retires the descriptor. -/
  | quantAUnitDone (tile thread tag : Nat)
  /-- R183. After a reset covering the tile, the SRAM zeroing and region invalidation complete, and the tile accepts accesses. -/
  | sramZeroComplete (tile : Nat)
  /-- R184. A write to ENG_RGN applies, is refused as busy while a table runs, or leaves VALID clear on overlap. -/
  | rgnWrite (ag : Agent) (tile rgn : Nat) (limit : Bool) (word : Nat)
  /-- R198. A write to ENG_CTRL.ENABLE starts or stops dispatch from the next boundary, or defers an enable. -/
  | engEnableWrite (ag : Agent) (tile : Nat) (enable : Bool)
  /-- R198. ENG_CTRL.CNT_CLR clears the engine counters at the next tide boundary. -/
  | engCntClr (ag : Agent) (tile : Nat)
  /-- R200. A write of 1 to ENG_FAULT_INFO0.VALID clears all three fault registers and re-arms the latch. -/
  | faultInfoClear (ag : Agent) (tile : Nat)
  /-- R202. ENG_REQ_HWM.CLR sets the high-water mark to zero. -/
  | reqHwmClr (ag : Agent) (tile : Nat)
  /-- R203. A write of ENG_THREAD.CLASS applies while no table runs, and is refused as busy otherwise. -/
  | threadClassWrite (ag : Agent) (tile thread cls : Nat)
  /-- R191. The NOP descriptor does nothing for one cycle. -/
  | nop (tile thread : Nat) (d : Desc)
  /-- R191. The COPY descriptor copies 64-byte units from A to D. -/
  | copy (tile thread : Nat) (d : Desc)
  /-- R191. The FILL descriptor fills D with a repeated 32-bit pattern. -/
  | fill (tile thread : Nat) (d : Desc)
  /-- R191. The LOAD descriptor issues DRAM read requests into tile SRAM and retires on the last return. -/
  | load (tile thread : Nat) (d : Desc)
  /-- R191. The STORE descriptor issues DRAM write requests from tile SRAM. -/
  | store (tile thread : Nat) (d : Desc)
  /-- R214. The BUF_WAIT descriptor waits until a full/empty buffer is full or empty. -/
  | bufWait (tile thread : Nat) (d : Desc)
  /-- R191. The BUF_SET descriptor sets a buffer full or empty, optionally with poison. -/
  | bufSet (tile thread : Nat) (d : Desc)
  /-- R187. The TIDE_END descriptor ends the thread's stream for the tide. -/
  | tideEnd (tile thread : Nat) (d : Desc)
  /-- R191. The EVENT descriptor sends a value with its TAG to the Lighthouse. -/
  | event (tile thread : Nat) (d : Desc)
  /-- R401. The DMA_START descriptor starts a tile DMA channel from a channel descriptor, waiting while the channel is not IDLE. -/
  | dmaStart (tile thread : Nat) (d : Desc)
  /-- R178. The POST descriptor copies a descriptor into the pool queue, waiting while the queue is full. -/
  | post (tile thread : Nat) (d : Desc)
  /-- R133. The ROTATE descriptor applies the randomised Walsh-Hadamard rotation to blocks of 512. -/
  | rotate (tile thread : Nat) (d : Desc)
  /-- R136. The QUANT_A descriptor scales, clamps and quantises rotated blocks into code blocks with outlier rankings. -/
  | quantA (tile thread : Nat) (d : Desc)
  /-- R192. The LOAD_INPUT descriptor writes raw codes and S into a code block. -/
  | loadInput (tile thread : Nat) (d : Desc)
  /-- R194. The STROKE descriptor latches code blocks into arrays and issues strokes. -/
  | stroke (tile thread : Nat) (d : Desc)
  /-- R106. The REF_STROKE descriptor issues reference strokes to physical arrays. -/
  | refStroke (tile thread : Nat) (d : Desc)
  /-- R140. The OUTLIER descriptor fetches golden rows and writes outlier sums into side records. -/
  | outlier (tile thread : Nat) (d : Desc)
  /-- R152. The CORR_Z descriptor computes the low-rank projections z of a row group. -/
  | corrZ (tile thread : Nat) (d : Desc)
  /-- R152. The CORR_B descriptor computes the correction vector from z and factor B. -/
  | corrB (tile thread : Nat) (d : Desc)
  /-- R155. The COMBINE descriptor combines result records or exact values into FP32 partial sums. -/
  | combine (tile thread : Nat) (d : Desc)
  /-- R160. The EXACT descriptor computes exact column values from the golden weights into side records. -/
  | exact (tile thread : Nat) (d : Desc)
  /-- R157. The VSUM descriptor adds vectors in FP32 after decoding. -/
  | vsum (tile thread : Nat) (d : Desc)
  /-- R148. The SQUANT descriptor quantises FP32 values into Shingle panels. -/
  | squant (tile thread : Nat) (d : Desc)
  /-- R147. The SDEQ descriptor decodes Shingle panels to FP32 or BF16. -/
  | sdeq (tile thread : Nat) (d : Desc)
  /-- R191. The LINEAR descriptor computes a vector-matrix product on the engine lanes. -/
  | linear (tile thread : Nat) (d : Desc)
  /-- R191. The ATTN descriptor computes attention over a context's key/value pages. -/
  | attn (tile thread : Nat) (d : Desc)
  /-- R195. The SOFTMAX descriptor computes a softmax with an inverse temperature. -/
  | softmax (tile thread : Nat) (d : Desc)
  /-- R195. The NORM descriptor computes RMS or mean-and-variance normalisation. -/
  | norm (tile thread : Nat) (d : Desc)
  /-- R195. The ACT descriptor applies an activation function. -/
  | act (tile thread : Nat) (d : Desc)
  /-- R191. The EWISE descriptor applies an element-wise operation. -/
  | ewise (tile thread : Nat) (d : Desc)
  /-- R191. The POSROT descriptor applies positional rotation for a token position. -/
  | posrot (tile thread : Nat) (d : Desc)
  /-- R368. The STEER descriptor applies each berth's steering pack scale and bias. -/
  | steer (tile thread : Nat) (d : Desc)
  /-- R191. The KV_WRITE descriptor quantises keys and values and writes them into the context's pages. -/
  | kvWrite (tile thread : Nat) (d : Desc)
  /-- R195. The SELECT descriptor selects a token by greatest value or by sampling. -/
  | select (tile thread : Nat) (d : Desc)
  /-- R309. The SOUND descriptor compares a captured sounding item against the golden recomputation and passes or fails it. -/
  | sound (tile thread : Nat) (d : Desc)
  /-- R212. Once all boundary conditions hold, the tide number and position advance and every boundary action takes effect. -/
  | tideBoundary
  /-- R210. At SC = START - 8, a window's conditions are checked, and SC freezes at START if any fails. -/
  | windowCheck (idx : Nat)
  /-- R210. SC resumes 8 cycles after the last failing window condition is met. -/
  | scResume
  /-- R215. A tide-plane window's last beat lands, and its EMPTY_SRC and FULL_DST flags act. -/
  | tpWindowComplete (idx : Nat)
  /-- R234. A link departure window moves a burst from a boundary tile into the link transmit buffer. -/
  | linkDeparture (idx : Nat)
  /-- R215. A link landing window lands the next burst into a tile buffer, poisoned on error or stream mismatch. -/
  | linkLanding (idx : Nat) (bad : Bool)
  /-- R218. A tide mark arrives, and the module updates the slice gate, beacon, throttle values and credits. -/
  | tideMarkReceive (link : Nat) (m : Mark)
  /-- R221. The slice gate stays closed for GATE_TMO, so GATE_TMO is set and the alert is raised. -/
  | gateTimeout
  /-- R239. TIDE_CMD LOAD starts the loader on the image at TIDE_LOAD_BASE. -/
  | tideLoad (ag : Agent)
  /-- R240. The loader finishes its checks, leaving the table LOADED, or IDLE with a refusal code. -/
  | tableLoadDone
  /-- R243. TIDE_CMD ARM sets up the tiles and starts preload toward the start tide, or is refused when the start tide is too early. -/
  | arm (ag : Agent)
  /-- R239. TIDE_CMD STOP moves a running table to STOPPING, which ends after position T - 1. -/
  | stop (ag : Agent)
  /-- R239. TIDE_CMD STOP_NOW ends the table at the next boundary and abandons the step. -/
  | stopNow (ag : Agent)
  /-- R239. TIDE_CMD CANCEL discards a loaded table. -/
  | cancel (ag : Agent)
  /-- R243. A preload entry's copy completes, with an optional FULL mark. -/
  | preloadEntryDone (tile : Nat)
  /-- R245. A write of TIDE_CTRL.PERIOD applies at the next boundary in IDLE, and is refused as busy otherwise. -/
  | tideCtrlWrite (ag : Agent) (word : Nat)
  /-- R245. TIDE_CTRL.CNT_CLR clears the tide stall counters at the next boundary. -/
  | tideCntClr (ag : Agent)
  /-- R249. A write of the throttle demand takes effect at the next boundary, merged with PWR_FAST during a guard hold. -/
  | tideThrottleWrite (ag : Agent) (word : Nat)
  /-- R216. A VC1 buffer-mark request sets a tile's full/empty region state and poison bit. -/
  | bufferMarkRequest (tile rgn : Nat) (full poison : Bool)
  /-- R216. A packet-plane access to tile SRAM is checked against rights and full/empty state, and performed or refused. -/
  | packetSramAccess (tile : Nat) (write : Bool) (off len : Nat) (data : List Byte)
  /-- R261. The CHART_RELAY command discards any golden copy, unmaps the arrays, enters RECEIVING and configures the chain role. -/
  | chartRelay (box : Nat) (p : RelayParams)
  /-- R261. The CHART_STATUS command returns the relay state, counts and missing shards. -/
  | chartStatus (box : Nat)
  /-- R261. The CHART_ABORT command fails the load with ABORTED and sends RELAY_ABORT along the chain. -/
  | chartAbort (box : Nat)
  /-- R261. The CHART_DISCARD command discards the golden copy, unmaps the arrays and returns to IDLE. -/
  | chartDiscard (box : Nat)
  /-- R261. The GOLDEN_CHECK command recomputes IMG_CRC for every present image and reports mismatches. -/
  | goldenCheck (box : Nat)
  /-- R263. A shard arrives and is checked, kept, forwarded and acknowledged, or answered with a NAK or refusal. -/
  | shardReceive (shard : ShardIn)
  /-- R263. A RELAY_ACK from downstream frees a forwarded shard from the forward buffer. -/
  | relayAck (seq : Nat)
  /-- R264. A RELAY_NAK makes the upstream module resend the shard, or a head pass it to the host, counted as a resend. -/
  | relayNak (nak : NakIn)
  /-- R264. A RELAY_REQ asks for a missing shard to be sent again. -/
  | relayReq (seq : Nat)
  /-- R264. An expected shard has not arrived 50 ms after its predecessor, so it is requested again or the load fails. -/
  | shardTimeout (seq : Nat)
  /-- R265. A RELAY_ABORT from the chain moves a receiving or programming module to FAILED with ABORTED. -/
  | relayAbort (fromDown : Bool)
  /-- R271. A logical array reaches the drift threshold or the refresh interval and joins the refresh queue. -/
  | refreshDue (tile logical : Nat) (byDrift : Bool) (age : Nat)
  /-- R278. A deferral reaches twice the refresh interval, so OVERDUE is set and the exhaustion policy applies. -/
  | refreshOverdue (tile logical : Nat)
  /-- R287. CAL_CTRL.SNAP sets the active trims to their targets at the next boundary, or is ignored on a serving array. -/
  | calSnap (ag : Agent) (tile arr : Nat)
  /-- R289. An array's 65,536-tide count without a reference stroke expires, and it is marked stale. -/
  | refStale (tile arr : Nat)
  /-- R291. The firmware computes a tile's temperature estimate from its reference codes. -/
  | tileEstimate (tile : Nat)
  /-- R292. The firmware sets each tile's offset so that its estimate equals the diode reading. -/
  | tempAlign
  /-- R294. A temperature, drift, refresh or command trigger makes the firmware compute and accept or reject neap values. -/
  | neapTrigger (tile arr : Nat)
  /-- R312. A watch ends 10,000 tides after the failure without a second failure, and the previous FRAC is restored. -/
  | watchExpiry (tile arr : Nat)
  /-- R315. SND_TILE_CTRL.CNT_CLR clears the tile and array sounding counters at the next boundary. -/
  | sndCntClr (ag : Agent) (tile : Nat)
  /-- R324. Once every OUT buffer of the step is FULL, the firmware writes a repair rank slot at the step boundary. -/
  | repairRankWrite (matrix group slot : Nat) (data : List Byte)
  /-- R326. The CAL_CFG command sets NEAP_TRIG, NEAP_RES, QF_LIM and SPRING_DIST. -/
  | calCfg (box neapTrig10 neapRes qfLim springDist : Nat)
  /-- R326. The REFRESH_CFG command sets the drift threshold and the refresh interval. -/
  | refreshCfg (box drift10 hours : Nat)
  /-- R326. The SOUND_CFG command writes the tile sounding settings and seed. -/
  | soundCfg (box : Nat) (tile : Option Nat) (frac k4 sysGain offAllow seed : Nat)
  /-- R326. The UPKEEP_POLICY command sets STOP or DEGRADED and REPAIR_LIM. -/
  | upkeepPolicy (box : Nat) (degraded : Bool) (repairLim100 : Nat)
  /-- R326. The CAL_REQUEST command requests a neap, a spring through refresh, or a diode alignment. -/
  | calRequest (box : Nat) (req : CalReq)
  /-- R326. The UPKEEP_STATUS command returns tile and array upkeep state and the stored reports. -/
  | upkeepStatus (box : Nat) (arrays reports : Bool)
  /-- R326. The REPAIR_SLOTS command gives the repair slot locations of each matrix. -/
  | repairSlots (box : Nat) (slots : List RepairSlot)
  /-- R357. The KV_CFG command configures the page pool, parts and page-list operands. -/
  | kvCfg (box : Nat) (p : KvParams)
  /-- R357. The STEP_CFG command sets the front, vocabulary, templates, patch table and policies. -/
  | stepCfg (box : Nat) (p : StepParams)
  /-- R352. The KV_ROUTE command names the generation slice and the shipping settings. -/
  | kvRoute (box : Nat) (p : RouteParams)
  /-- R357. The CTX_SUBMIT command runs the breakwater and admits a context, returning its number. -/
  | ctxSubmit (box : Nat) (p : SubmitParams)
  /-- R333. The CTX_CANCEL command ends a context DONE with CANCELLED. -/
  | ctxCancel (box ctx : Nat)
  /-- R333. The CTX_PARK command parks a context with reason HOST. -/
  | ctxPark (box ctx : Nat)
  /-- R333. The CTX_RESUME command returns a host-parked context to its previous state. -/
  | ctxResume (box ctx : Nat)
  /-- R357. The CTX_STATUS command returns a context record. -/
  | ctxStatus (box ctx : Nat)
  /-- R333. The CTX_RELEASE command frees a DONE or FAILED record. -/
  | ctxRelease (box ctx : Nat)
  /-- R347. The STEP_LOG command returns the log of the last 64 steps. -/
  | stepLog (box : Nat)
  /-- R357. The KV_STATUS command returns the page counts and the contexts parked for pages. -/
  | kvStatus (box : Nat)
  /-- R339. Before each step, the front fills the berths and sends the step plan. -/
  | stepFill
  /-- R343. A module receives a step plan, forwards it and writes its berth inputs, slots and page lists. -/
  | stepPlanReceive (plan : StepPlan)
  /-- R329. A module receives a slice message from its parent or child and forwards it along the distribution tree. -/
  | sliceMessageReceive (m : SliceMsg)
  /-- R369. A streamed steering pack copy completes, and the berth's IN buffer may be marked. -/
  | steerCopyDone (berth : Nat)
  /-- R344. A berth's OUT buffer becomes FULL, so its SELECT result is sent to the front and OUT is marked EMPTY. -/
  | berthResult (berth : Nat)
  /-- R344. The front retires a berth, delivering the token and updating the context counters and state. -/
  | berthRetire (berth : Nat)
  /-- R330. A context record missing from the cache is fetched and is ready within 2 us. -/
  | contextFetch (ctx : Nat)
  /-- R333. A DONE or FAILED context passes HOLD_TIME and becomes FREE. -/
  | ctxHoldExpiry (ctx : Nat)
  /-- R333. A context parked for pages passes PARK_LIMIT and fails with NO_PAGES. -/
  | parkLimitExpiry (ctx : Nat)
  /-- R350. A STREAM_IN message places prompt tokens by offset, refusing entries with reasons 48 to 51. -/
  | streamIn (m : MsgHead) (entries : List StreamEntry) (ackReq : Bool)
  /-- R353. A prefill module ships a page of a context as a shard to its peer module. -/
  | kvShipPage (ctx page : Nat)
  /-- R354. The generation module stores a good page shard and acknowledges it, or answers a NAK. -/
  | kvPageReceive (m : PageShard)
  /-- R354. A page acknowledgement reaches the sender, and the outgoing context ends SHIPPED once every page is acknowledged. -/
  | kvPageAck (ctx page : Nat)
  /-- R354. A page NAK makes the sender send the page again, counted as a resend. -/
  | kvPageNak (ctx page : Nat)
  /-- R354. A page not received SHIP_TMO after its predecessor is requested again or lost. -/
  | kvShipTimeout (ctx page : Nat)
  /-- R358. The TENANT_CFG command configures a tenant and passes the change to the slice. -/
  | tenantCfg (box tenant : Nat) (p : TenantParams)
  /-- R359. The TENANT_CLOSE command disables the tenant, cancels its contexts, deletes its prefixes and unbinds its pack. -/
  | tenantClose (box tenant : Nat)
  /-- R382. The TENANT_STATUS command returns a tenant's configuration, usage and credits. -/
  | tenantStatus (box tenant : Nat)
  /-- R382. The ADMIT_CFG command sets OVERCOMMIT. -/
  | admitCfg (box overcommit : Nat)
  /-- R369. The STEER_CFG command configures the steering descriptors, slots and pack store. -/
  | steerCfg (box : Nat) (p : SteerParams)
  /-- R370. The STEER_LOAD command checks a staged pack image and stores it. -/
  | steerLoad (box addr : Nat)
  /-- R382. The STEER_DROP command removes a pack that no tenant binds. -/
  | steerDrop (box packId : Nat)
  /-- R372. The PREFIX_CFG command configures the prefix node table and hash index. -/
  | prefixCfg (box : Nat) (p : PrefixParams)
  /-- R375. The PREFIX_PUBLISH command moves a context's first nodes into public scope. -/
  | prefixPublish (box ctx nodes : Nat)
  /-- R375. The PREFIX_FLUSH command deletes a scope's unreferenced nodes. -/
  | prefixFlush (box : Nat) (tenant : Option Nat)
  /-- R382. The PREFIX_STATUS command returns the prefix tree statistics. -/
  | prefixStatus (box : Nat)
  /-- R382. The METER_CFG command sets the metering window, weights, idle power and ring address. -/
  | meterCfg (box : Nat) (p : MeterParams)
  /-- R382. The METER_READ command returns snapshot entries from the ring. -/
  | meterRead (box window first count : Nat)
  /-- R379. Once every step overlapping a converter window has retired, its energy is divided among the tenants. -/
  | energyAttribute (window : Nat)
  /-- R380. A metering window closes at the end of the converter window after its aligned time. -/
  | meterWindowBoundary
  /-- R381. The window's snapshot is written to the ring, and the front sends a METER event. -/
  | snapshotWrite
  /-- R390. A DRAM controller executes a sector read or write, correcting or reporting errors and merging partial writes; `errs` is what
  the code finds in each sector of the access, in address order. -/
  | dramAccess (addr : Nat) (line write : Bool) (data : List (Option Byte)) (errs : List DramErr)
  /-- R387. The controller runs per-bank refresh at the rate that the stack temperature requires. -/
  | dramRefresh (stack : Nat)
  /-- R387. A due catch-up refresh or retraining starts at a permitted tide boundary, and the stack refuses new requests. -/
  | dramEventStart (stack : Nat)
  /-- R222. A DRAM event completes, and the stack accepts requests again. -/
  | dramEventEnd (stack : Nat)
  /-- R391. The scrubber reads a sector and writes it back corrected, or writes the poison pattern. -/
  | scrubSector (addr : Nat) (err : DramErr)
  /-- R392. BOOT_MEM_CTRL.TRAIN requests training of the selected stacks. -/
  | memTrain (ag : Agent)
  /-- R582. BOOT_MEM_CTRL.TEST_GO requests the selected memory test on the selected stacks. -/
  | memTest (ag : Agent)
  /-- R393. A stack's training ends in TRAINED or FAILED. -/
  | memTrainDone (stack code : Nat)
  /-- R394. A stack's memory test ends in READY or FAILED. -/
  | memTestDone (stack code : Nat) (rows : List Nat)
  /-- R396. BOOT_MEM_CTRL.CNT_CLR clears the error counters of both stacks. -/
  | memCntClr (ag : Agent)
  /-- R400. A write of 1 to CE_ADDR or UE_ADDR VALID clears both words. -/
  | errAddrClear (ag : Agent) (stack : Nat) (ue : Bool)
  /-- R412. CH_CMD.START runs the descriptor held in the channel registers. -/
  | chStart (ag : Agent) (eng : DmaEng) (ch : Nat)
  /-- R412. CH_CMD.FETCH loads the descriptor at NEXT and runs it. -/
  | chFetch (ag : Agent) (eng : DmaEng) (ch : Nat)
  /-- R410. CH_CMD.STOP makes a channel STOPPING, so it completes with ABORTED. -/
  | chStop (ag : Agent) (eng : DmaEng) (ch : Nat)
  /-- R406. A DMA engine moves one 128-byte beat for a ready channel under its mode and priority. -/
  | dmaBeat (eng : DmaEng)
  /-- R408. A descriptor's writes are acknowledged, so it marks, counts, sends its event, and fetches NEXT or goes IDLE. -/
  | dmaDescComplete (eng : DmaEng) (ch : Nat)
  /-- R409. A descriptor has waited over 1 ms for its CRC unit, and it ends with BUSY. -/
  | crcBindTimeout (eng : DmaEng) (ch : Nat)
  /-- R410. A write to DMA_CFG applies, or is refused as busy while any channel is active. -/
  | dmaCfgWrite (ag : Agent) (eng : DmaEng) (word : Nat)
  /-- R410. A write to a channel's descriptor registers or CH_CFG applies, or is refused as busy while the channel is not IDLE. -/
  | dmaDescRegWrite (ag : Agent) (eng : DmaEng) (ch reg word : Nat)
  /-- R416. A write to CRC_FEED8 feeds one byte to the unit. -/
  | crcFeed8 (ag : Agent) (un : CrcUnit) (word : Nat)
  /-- R416. A write to CRC_FEED16 feeds two bytes, low byte first. -/
  | crcFeed16 (ag : Agent) (un : CrcUnit) (word : Nat)
  /-- R416. A write to CRC_FEED32 feeds four bytes, low byte first. -/
  | crcFeed32 (ag : Agent) (un : CrcUnit) (word : Nat)
  /-- R417. A write to CRC_VALUE sets the raw state directly, and is refused while the unit is bound. -/
  | crcValueWrite (ag : Agent) (un : CrcUnit) (word : Nat)
  /-- R419. CRC_CMD.INIT initialises the raw state. -/
  | crcInit (ag : Agent) (un : CrcUnit)
  /-- R418. A write to CRC_CFG, CRC_POLY, CRC_INIT or CRC_XOROUT applies, or is refused while the unit is bound. -/
  | crcConfigWrite (ag : Agent) (un : CrcUnit) (reg word : Nat)
  /-- R422. Host port training completes, and the port goes UP. -/
  | hostPortTrained
  /-- R445. HP_CTRL.RETRAIN restarts training of the host port. -/
  | hpRetrain (ag : Agent)
  /-- R421. An Ethernet frame is received and accepted or dropped, with PFC sent at buffer thresholds. -/
  | frameReceive (f : Frame)
  /-- R420. An ARP request for the IPv4 address is answered with a reply. -/
  | arpRequest (src : Source) (target : Nat)
  /-- R420. An IPv6 neighbour solicitation is answered with an advertisement. -/
  | neighborSolicitation (src : Source) (target : Nat)
  /-- R420. An ICMP or ICMPv6 echo request is answered with a reply. -/
  | icmpEcho (src : Source) (dst : Nat) (v6 : Bool) (data : List Byte)
  /-- R425. A received PFC frame pauses or resumes a priority of the transmit queue. -/
  | pfcReceive (prio quanta : Nat)
  /-- R425. Every 100 us while a priority buffer stays above 64 KB, the PFC frame is repeated. -/
  | pfcRepeat (prio : Nat)
  /-- R426. A PTP message is timestamped and disciplines the slave clock. -/
  | ptpMessage (m : PtpMsg) (stamp : Nat)
  /-- R433. A HELLO request negotiates the YCT version and returns identity. -/
  | hello (src : Source) (h : HelloHead) (hostMin hostMax : Nat)
  /-- R434. An OPEN request authenticates, derives the session key and opens a session. -/
  | openSession (src : Source) (id : OpenReq)
  /-- R436. A CLOSE request is answered, and then the session ends. -/
  | close (m : MsgHead)
  /-- R437. A REG_READ request performs one 32-bit read and returns its data. -/
  | regRead (m : MsgHead) (addr : Nat)
  /-- R437. A REG_WRITE request performs one 32-bit write. -/
  | regWrite (m : MsgHead) (addr data : Nat)
  /-- R438. A BULK_OPEN request opens a bulk window over a range. -/
  | bulkOpen (m : MsgHead) (window : Nat) (read : Bool) (addr total : Nat)
  /-- R439. A BULK_DATA message writes a checked payload or reads one, and is answered with NEXT. -/
  | bulkData (m : MsgHead) (window off len : Nat) (data : List Byte) (crc : Nat)
  /-- R439. A BULK_CLOSE request closes a window once its accepted writes complete. -/
  | bulkClose (m : MsgHead) (window : Nat)
  /-- R442. An MBX_POST request posts a request box and binds it to the session. -/
  | mbxPost (m : MsgHead) (box : Nat) (bytes : List Byte)
  /-- R444. A session's EVENT message is sent when full or 20 us after its first record. -/
  | eventFlush (slot : Nat)
  /-- R432. A session without an accepted message for IDLE_TMO ends. -/
  | sessionIdleTimeout (slot : Nat)
  /-- R438. A bulk window without accepted data for 1 s closes. -/
  | bulkWindowTimeout (window : Nat)
  /-- R441. A write of 1 to MBX_DB posts a box. -/
  | mbxDoorbell (ag : Agent) (hi : Bool) (word : Nat)
  /-- R443. A write of 1 to MBX_DONE releases a DONE box to FREE. -/
  | mbxRelease (ag : Agent) (hi : Bool) (word : Nat)
  /-- R441. The firmware takes a POSTED box in doorbell order and starts its command. -/
  | mbxTake
  /-- R441. A command completes, its response box is written, the box becomes DONE and an MBX_DONE event is sent. -/
  | mbxComplete (box : Nat)
  /-- R459. A write of 1 to LNK_CTRL.EN moves a disabled link to DOWN, or defers the enable while it is STOPPING. -/
  | linkEnable (ag : Agent) (link : Nat)
  /-- R459. A write of 0 to LNK_CTRL.EN moves the link to STOPPING. -/
  | linkDisable (ag : Agent) (link : Nat)
  /-- R459. LNK_CTRL.RETRAIN takes the link DOWN and into training at once. -/
  | linkRetrain (ag : Agent) (link : Nat)
  /-- R459. A partner signal appears on all 8 lanes, and the link starts training. -/
  | partnerSignal (link : Nat)
  /-- R459. The lanes lock and FEC aligns, and the link enters IDENTIFY. -/
  | linkTrained (link : Nat)
  /-- R459. Training has failed for 250 ms, and the link goes DOWN with TRAIN_TMO. -/
  | linkTrainTimeout (link : Nat)
  /-- R460. The link sends an IDENTITY flit every 1 us or every 100 us. -/
  | identitySend (link : Nat)
  /-- R460. An IDENTITY flit is stored and the cabling check runs. -/
  | identityReceive (link coord torus port serial : Nat)
  /-- R459. Signal or FEC alignment is lost for over 1 us, and the link goes DOWN. -/
  | linkSignalLoss (link : Nat) (fec : Bool)
  /-- R459. A received DOWN_NOTICE takes the link DOWN. -/
  | downNotice (link : Nat)
  /-- R459. STOPPING completes with DOWN_NOTICE sent and the transmitter off, and the link goes to DISABLED or a deferred DOWN. -/
  | linkStopped (link : Nat)
  /-- R459. An enabled link has seen no partner signal for 1 s, so NO_PARTNER is set. -/
  | noPartnerTimeout (link : Nat)
  /-- R450. A flit is received, its CRC and sequence are checked, and it is delivered or discarded with a NAK. -/
  | flitReceive (link : Nat) (f : FlitIn)
  /-- R452. A NAK makes the transmitter resend from the named flit in order. -/
  | nakReceive (link seq : Nat)
  /-- R452. Every 125 ns until the expected flit arrives, the NAK is repeated. -/
  | nakRepeat (link : Nat)
  /-- R455. A CREDIT control flit updates the partner's free counts. -/
  | creditReceive (link : Nat) (credits : List Nat)
  /-- R454. The transmitter sends its next flit in priority order once credit and the retry window allow. -/
  | flitTransmit (link : Nat)
  /-- R461. A write to GLB_COORD applies from J3 or a DEBUG session, and the links re-identify. -/
  | coordWrite (ag : Agent) (word : Nat)
  /-- R461. A write to GLB_TORUS applies under the same restrictions, and the links re-identify. -/
  | torusWrite (ag : Agent) (word : Nat)
  /-- R461. A write to LNK_PLAN applies under the same restrictions, and the cabling check runs again. -/
  | planWrite (ag : Agent) (link word : Nat)
  /-- R479. At each regular period, both converters start their masked sequences, or drop the start on overrun. -/
  | monRegularStart
  /-- R481. A conversion ends, and its result becomes visible with its calibrated VALUE. -/
  | sarConversionDone (conv raw : Nat)
  /-- R480. A POWER, FAULT, THROTTLE, TEMP or SOFT trigger makes its injected sequence pending, interrupting the regular sequence. -/
  | injectedTrigger (source : Nat)
  /-- R480. A pending injected sequence starts when the running one ends, by priority. -/
  | injectedSequenceStart (conv : Nat)
  /-- R494. MON_CTRL.SOFT triggers the SOFT injected sequence. -/
  | monSoft (ag : Agent)
  /-- R485. A write of the MON_CTRL enables starts or stops converters, deferring an enable during power-down. -/
  | monEnableWrite (ag : Agent) (word : Nat)
  /-- R478. A converter with no conversion pending for 0.2 us powers down. -/
  | sarPowerDown (conv : Nat)
  /-- R483. Each microsecond, the integrators produce a power sample and accumulate energy and guard means. -/
  | intSample (vRaw iRaw : Nat)
  /-- R490. P_1ms has stayed above 750 W for 8,000 us, and guard cause G2 fires. -/
  | guardG2Expiry
  /-- R490. HOLD ms after the last cause clears, the PWR_FAST merge ends. -/
  | guardHoldExpiry
  /-- R483. An integrator window ends, and it reports E_w, means, PMAX and flags. -/
  | intWindowEnd
  /-- R484. The modulators finish settling 50 us after enable, and a short window starts. -/
  | intSettled
  /-- R492. Every 10 ms, the cap loop updates the cap demand from measured power. -/
  | capLoop
  /-- R499. THM_CTRL.READ starts the TEMP sequence for a diode reading. -/
  | thmRead (ag : Agent)
  /-- R488. Every THERM_PERIOD, the firmware sets THM_CTRL.READ. -/
  | thermPeriodTick
  /-- R501. The POWER_CFG command sets the cap, host floor and guard step. -/
  | powerCfg (box cap hostFloor guardStep : Nat)
  /-- R501. The THERM_CFG command sets THERM_PERIOD, WARN and CRIT. -/
  | thermCfg (box period warn crit : Nat)
  /-- R486. The SYSCAL_POINT command averages the readings at a calibration point against a reference value. -/
  | syscalPoint (box : Nat) (p : SyscalParams)
  /-- R486. The SYSCAL_COMMIT command solves and stores the new coefficients, or returns LIMIT. -/
  | syscalCommit (box current : Nat)
  /-- R501. The SYSCAL_RESET command restores the factory coefficients. -/
  | syscalReset (box current : Nat)
  /-- R501. The POWER_STATUS command returns the power, throttle and thermal state. -/
  | powerStatus (box : Nat)
  /-- R504. BOOT_CMD VERIFY copies the staged image into the Lighthouse SRAM and starts its checks. -/
  | verify (ag : Agent)
  /-- R544. Image verification ends in VERIFIED or in WAIT_FW with a failure code. -/
  | fwVerifyDone
  /-- R506. BOOT_CMD APPLY_MAPS applies the defect map and tile map and starts the enabled tiles. -/
  | applyMaps (ag : Agent)
  /-- R507. BOOT_CMD START writes the resume copy, starts the Lighthouse cores and begins the microcode broadcast. -/
  | start (ag : Agent)
  /-- R507. A tile receives its microcode copy, checks its CRC and accepts it, or receives a second copy. -/
  | microcodeReceive (tile : Nat) (crcOk : Bool)
  /-- R507. The firmware reports ready, so STAGE becomes RUNNING, FAILCNT clears and the watchdog is armed. -/
  | fwReady
  /-- R507. The firmware has not reported ready 1 s after START, so the cores halt with FW_INIT. -/
  | fwInitTimeout
  /-- R515. BOOT_START.CLEAR sets FAILCNT to 0. -/
  | bootFailcntClear (ag : Agent)
  /-- R525. RST_CTRL.MODULE requests a MODULE reset with the rails left up. -/
  | resetModuleReq (ag : Agent)
  /-- R525. RST_CTRL.CORE requests a CORE reset. -/
  | resetCoreReq (ag : Agent)
  /-- R525. RST_CTRL.COMPUTE requests a COMPUTE reset. -/
  | resetComputeReq (ag : Agent)
  /-- R525. RST_CTRL.HOSTPORT requests a host port reset. -/
  | resetHostportReq (ag : Agent)
  /-- R525. RST_CTRL.MONITOR requests a Monitor reset. -/
  | resetMonitorReq (ag : Agent)
  /-- R525. RST_CTRL.LINK requests a LINK_k reset. -/
  | resetLinkReq (ag : Agent) (link : Nat)
  /-- R517. After quiesce and the 10 us delay, the requested reset is asserted on its domains. -/
  | resetAssert
  /-- R516. A reset is released after its duration, and its domains restart. -/
  | resetRelease
  /-- R518. A write to RST_TILE resets a tile, or is refused as busy while a table runs. -/
  | tileReset (ag : Agent) (tile : Nat)
  /-- R522. A write of 1 to an RST_PARK bit starts parking a tile. -/
  | tilePark (ag : Agent) (tile : Nat)
  /-- R522. A write of 0 to an RST_PARK bit ungates the tile clock, or defers until the park ends. -/
  | tileUnpark (ag : Agent) (tile : Nat)
  /-- R522. A park completes with the tile clock gated. -/
  | parkComplete (tile : Nat)
  /-- R523. The strandline hold ends at readout or STL_WAIT, and the resume proceeds or WAIT_FW is entered. -/
  | resumeHoldEnd
  /-- R524. The resume copy is verified, and the firmware starts, or CODE RESUME sends the stage to WAIT_FW. -/
  | resumeCopyVerified
  /-- R528. A hang condition persists for window W, and the hang is recorded. -/
  | hangDetect (cause unit : Nat)
  /-- R528. The Lighthouse firmware fails to kick within LH_WDOG, which is detected as a LIGHTHOUSE hang. -/
  | lhWatchdogExpiry
  /-- R534. RST_LH_KICK restarts the Lighthouse watchdog. -/
  | lhKick (ag : Agent)
  /-- R531. At the end of GRACE, the hardware requests a COMPUTE or CORE reset or leaves the hang to the host. -/
  | hangGraceExpiry
  /-- R532. 3,600 s after its last write of 1, the hardware clears REPLAY. -/
  | replayTimeout
  /-- R533. A write of 1 to RST_HANG_STATUS.VALID clears the status and RST_HANG_TIDE. -/
  | hangStatusClear (ag : Agent)
  /-- R535. The HANG_REPORT command returns a stored hang report. -/
  | hangReport (box idx : Nat)
  /-- R539. SEC_KEY_CMD.GO unwraps, checks and writes a key slot, incrementing KEY_CNT. -/
  | keyWrite (ag : Agent) (word : Nat)
  /-- R552. SEC_CTRL.UNLOCK returns a LOCKED device to NORMAL. -/
  | unlock (ag : Agent)
  /-- R556. A write of DEBUG_EN enables debug, or clears it and revokes the DEBUG role. -/
  | debugEnWrite (ag : Agent) (enable : Bool)
  /-- R558. A write to SEC_POLICY applies, with lowering refused outside NORMAL. -/
  | policyWrite (ag : Agent) (word : Nat)
  /-- R545. A write to SEC_SVN_MIN raises the minimum, and a lowering is refused. -/
  | svnMinWrite (ag : Agent) (word : Nat)
  /-- R545. A write to SEC_ROOT_REVOKE permanently revokes a root, unless it is the last one. -/
  | rootRevoke (ag : Agent) (word : Nat)
  /-- R550. An alarm source latches, and the strongest policy response of LOG, LOCK or ERASE runs. -/
  | securityAlarm (src : Nat)
  /-- R550. The erase overwrite of the key store completes, and the state becomes ERASED. -/
  | eraseDone
  /-- R549. 1 ms after the MODULE reset release, the alarm detectors are armed. -/
  | detectorArm
  /-- R546. The ATTEST command builds and signs an attestation report, or returns the cached one or EXHAUSTED. -/
  | attest (box : Nat) (nonce : List Byte)
  /-- R562. The ATTEST_CERT command returns the device certificate. -/
  | attestCert (box : Nat)
  /-- R548. The ATTEST_CFG command sets ATT_MIN for an owner session. -/
  | attestCfg (box attMin : Nat)
  /-- R565. A strandline record is accepted, numbered and queued, or dropped when the queue is full. -/
  | stlRecord (source event domain sub : Nat) (detail : List Nat) (accTime : Bool)
  /-- R567. A queued record is written to the on-die copy and, while the ring is usable, to the ring. -/
  | stlRingWrite
  /-- R569. STL_CTRL.RELEASE releases a frozen on-die copy. -/
  | stlRelease (ag : Agent)
  /-- R570. The STL_READ command writes ring records in SEQ order at OUT_ADDR. -/
  | stlRead (box first count : Nat)
  /-- R576. Setting PTB_CFG.EN arms an injector from the next boundary, or is refused as a reserved encoding. -/
  | ptbArm (ag : Agent) (inj : Nat)
  /-- R579. PTB_CTRL.KILL disarms every injector and writes DONE for each that was armed. -/
  | ptbKill (ag : Agent)
  /-- R11. A write to a register without a row of its own applies by its field types, with reserved encodings refused under R14. -/
  | registerWrite (ag : Agent) (addr word : Nat)
  /-- R26. Management becomes reachable on J3 5 ms after the input first exceeds 20.0 V, which is the moment from which the first transfer fixes I3C or I2C mode. -/
  | managementAlive
  /-- R554. SEC_ALARM_N returns high, so UNLOCK is no longer refused and the next falling edge can latch the EXTERNAL alarm again. -/
  | secAlarmNRelease
  /-- R47. A clock appears on REFCLK within, or disappears from, the plus or minus 50 ppm window while it is not the selected source, changing REF_PRESENT. -/
  | refclkPresenceChange (present : Bool)
  /-- R445. The host port receiver loses alignment or FEC lock, or the link partner signals a fault, setting LOCAL_FAULT or REMOTE_FAULT. -/
  | hostPortLinkFault (localFault remoteFault : Bool)
  /-- R485. A SAR or the integrator pair finishes the power-down that a disable began, and a deferred enable then starts its full start sequence. -/
  | monitorPowerDownDone (unit : Nat)
  deriving DecidableEq, Repr

end Sys2Proof
end

