-- ==== Sys2Proof/Decode.lean ====
section
/-! DEFINITION. The decoder of command words. The command table of the spec gives no row any bits: a command is no word, so no
word spells one. -/
namespace Sys2Proof

/-- The command that a word of `nbits` bits spells by the bits of the table: none, for the table gives none. -/
def decodeTableWord (nbits w : Nat) : Option Instr :=
  match nbits, w with
  | _, _ => none

end Sys2Proof
end

