-- ==== Sys2Proof/Config.lean ====
section
/-! DEFINITION. The FREE VALUES of the model: constants without a body, so that nothing in Lean can evaluate them or prove
a value of them. Each stands for a value the spec does not fix (noise, an unstated format, external mathematics); the log
entry that declares it is named in its docstring. -/
namespace Sys2Proof

/-- The converter noise of one conversion in thousandths of an LSB, by free counter (R124). Log entry 8. -/
opaque Config.noise : Nat → Int

/-- Sources of error of R124, each held within its bound where it is used, by array: integral and differential nonlinearity of a
converter at a code, in thousandths of an LSB; what the factory trim leaves of a converter's reference error, in 1/100000 of full scale
(R283); the offset of a column in a bank in thousandths of an LSB, and its shift per °C; the shift of the array's gain per °C, in
1/100000; the wire nonlinearity of a column at a predictor sum and column sum, in millionths; the programming error of a side of a cell
at a verify, in thousandths of a level step; and the cell's own excess over the mean loss of drift, in thousandths of it. Log entry 8. -/
opaque Config.converterInl : Nat → Nat → Int → Int
opaque Config.converterDnl : Nat → Nat → Int → Int
opaque Config.converterError : Nat → Nat → Int
opaque Config.columnOffset : Nat → Nat → Nat → Int
opaque Config.offsetShift : Nat → Nat → Int
opaque Config.gainShift : Nat → Int
opaque Config.wireBend : Nat → Nat → Nat → Int → Int
opaque Config.cellError : Nat → Nat → Nat → Int
opaque Config.driftSpread : Nat → Nat → Int

/-- The junction temperature at an array in 1/16 °C, by second of its age: a physical quantity that no rule gives (R125, R127). Log
entry 8. -/
opaque Config.junctionTemp : Nat → Nat → Int

/-- Seconds for which the die stood without main power or under the n-th MODULE reset: drift goes on (R87), but no clock of the die
counts them. Log entry 8. -/
opaque Config.offSeconds : Nat → Nat

/-- One byte of DRAM whose contents were lost or left undefined (R393, R395): by generation and address. Log entry 4. -/
opaque Config.lostByte : Nat → Nat → Byte

/-- One level of a cell that a reset interrupted while it was being programmed (R111): anywhere between its old and new
level, here by free counter, row and column. Log entry 9. -/
opaque Config.interruptedLevel : Nat → Nat → Nat → Nat

/-- Number of units in the last place, -2 to 2 once clamped, by which a hardware function approximation differs from the
exact result (R195), by function and operand. Log entry 10. -/
opaque Config.ulpDeviation : Nat → Word → Int

/-- Cycles that an access to a bank of tile SRAM waits for others there (R182), by tile, the time since which accesses are counted, bank,
and the access's number among those at its bank since then. Log entry 64. -/
opaque Config.bankWaits : Nat → Nat → Nat → Nat → Nat

/-- One output word of an operation whose numeric form the spec does not give (ATTN, POSROT, and how block scales enter LINEAR's
sum), by opcode, the words it depends on and output index: the same inputs give the same bits (R130). Log entry 11. -/
opaque Config.unstatedResult : Nat → List Word → Nat → Word

/-- The 48-bit provisioned identifier of I3C (R42), which the spec derives from the serial number without saying how. Log entry
52. -/
opaque Config.provisionedId : Nat → Nat

/-- One byte drawn from the entropy source of R540, by free counter. Log entry 12. -/
opaque Config.entropyByte : Nat → Byte

/-- Whether an XMSS signature verifies under a Baraumir root key, which the manual does not reproduce (R544): root,
parameter set, message, signature. Log entry 13. -/
opaque Config.xmssVerify : Nat → Nat → List Byte → List Byte → Bool

/-- One byte of an XMSS signature made with the device key (R546), by index and message. Log entry 13. -/
opaque Config.xmssSign : Nat → List Byte → Nat → Byte

/-- KMAC256 of NIST SP 800-185 (R540, R541), 32 output bytes, by key, input and customisation string. The standard is not
part of the spec's text, so the function is uninterpreted. Log entry 15. -/
opaque Config.kmac256 : List Byte → List Byte → List Byte → Nat → Byte

/-- The tag of a response that refuses an OPEN, which has no session key (R434; log entry 77): by the message and the byte's index. -/
opaque Config.refusalTag : List Byte → Nat → Byte

/-- SHAKE256 with 32 output bytes (R546). Log entry 15. -/
opaque Config.shake256 : List Byte → Nat → Byte

/-- Factory coefficients of a monitor channel (R481, R486), by converter (2 the integrators, voltage and current) and channel: gain in ppm and
offset in the channel's unit, held in the non-volatile store. Log entry 16. -/
opaque Config.monitorGain : Nat → Nat → Int
opaque Config.monitorOffset : Nat → Nat → Int

/-- Whether the junction is below REL_LEVEL with the count of R489 running, a measurement (R499), by the reference clock's time. Log entry 78. -/
opaque Config.releasing : Nat → Bool

/-- The factory model that turns a diode or temperature code into 1/16 °C (R481), by channel and code. Log entry 16. -/
opaque Config.temperatureModel : Nat → Nat → Int

/-- Factory values of an array's reference columns and of its tile (R291, R295), in thousandths: REF_ABS at 70 °C, REF_ABS codes
per °C, the gain error, and the offset temperature coefficient of a column in LSB per °C. Log entry 16. -/
opaque Config.abs70 : Nat → Int
opaque Config.slope : Nat → Int
opaque Config.gainError : Nat → Int
opaque Config.offsetCoeff : Nat → Nat → Int

/-- One byte of the 16-byte packet header whose bit layout R61 does not give, by the fields it carries and the byte's index; and
a field of a header that came over a link (0 destination address, 1 destination unit, 2 tenant, 3 system flag, 4 payload length). Log entry 17. -/
opaque Config.packetHeader : List Nat → Nat → Byte
opaque Config.packetField : List Byte → Nat → Nat

/-- The temperature in °C that a DRAM stack reads out, a measurement (R397), by stack and device time; and the percentage of a
running training or test that is complete, taken modulo 101. Log entry 35. -/
opaque Config.stackTemp : Nat → Nat → Byte
opaque Config.memProgress : Nat → Nat → Nat

/-- The general-DRAM address at which a chain head receives shards from the host (R581), which the spec does not give. Log entry
34. -/
opaque Config.inbox : Nat

end Sys2Proof
end

