-- ==== Sys2Proof/Machine/Assoc.lean ====
section
/-! DEFINITION. Sparse maps in one canonical form: a list of (key, value) pairs with strictly rising keys that lists no
value equal to the default of its key. Registers, memory and every other indexed state of the model are such lists, so
equal contents are equal data. -/
namespace Sys2Proof.Machine

/-- The value at key `k`, or the default `d` where the key is not listed. -/
def amGet {α : Type} (d : α) (m : List (Nat × α)) (k : Nat) : α :=
  match m with
  | [] => d
  | p :: r => if p.1 = k then p.2 else amGet d r k

/-- The map without key `k`. -/
def amErase {α : Type} (m : List (Nat × α)) (k : Nat) : List (Nat × α) :=
  match m with
  | [] => []
  | p :: r => if p.1 = k then amErase r k else p :: amErase r k

/-- The map with a pair put before the first larger key. -/
def amInsert {α : Type} (m : List (Nat × α)) (k : Nat) (v : α) : List (Nat × α) :=
  match m with
  | [] => [(k, v)]
  | p :: r => if k < p.1 then (k, v) :: p :: r else p :: amInsert r k v

/-- The map with value `v` at key `k`, where `d` is the default of that key: writing the default removes the entry. -/
def amSet {α : Type} [DecidableEq α] (d : α) (m : List (Nat × α)) (k : Nat) (v : α) : List (Nat × α) :=
  if v = d then amErase m k else amInsert (amErase m k) k v

/-- Every key of the map is above `k`. -/
def amAbove {α : Type} (k : Nat) (m : List (Nat × α)) : Bool :=
  m.all (fun p => decide (k < p.1))

/-- The canonical form: keys strictly rising, and no entry equal to the default of its key. -/
def amWf {α : Type} [DecidableEq α] (d : Nat → α) (m : List (Nat × α)) : Bool :=
  match m with
  | [] => true
  | p :: r => amAbove p.1 r && decide (p.2 ≠ d p.1) && amWf d r

/-- The list with `f` applied to the first element that `p` picks. -/
def modFirst {α : Type} (p : α → Bool) (f : α → α) (l : List α) : List α :=
  match l with
  | [] => []
  | x :: r => if p x then f x :: r else x :: modFirst p f r

/-- The list without the first element that `p` picks. -/
def dropPick {α : Type} (p : α → Bool) (l : List α) : List α :=
  match l with
  | [] => []
  | x :: r => if p x then r else x :: dropPick p r

/-- Lexicographic order. -/
def lexLt (a b : List Nat) : Bool :=
  match a, b with
  | x :: r, y :: s => decide (x < y) || (x == y && lexLt r s)
  | [], _ :: _ => true
  | _, [] => false

end Sys2Proof.Machine
end

