-- ==== Sys2Proof/Machine/Bits.lean ====
section
/-! DEFINITION. Bit fields, two's complement, little-endian byte order (R5) and check values of bytes (R414, R415). -/
namespace Sys2Proof.Machine

/-- Bits `lo .. lo + w - 1` of `n`. -/
def bits (n lo w : Nat) : Nat := n / 2 ^ lo % 2 ^ w

/-- Bit `i` of `n` as a truth value. -/
def bit (n i : Nat) : Bool := n / 2 ^ i % 2 = 1

/-- 1 for true, 0 for false. -/
def b2n (b : Bool) : Nat := if b then 1 else 0

/-- `n` with bits `lo .. lo + w - 1` replaced by those of `v`. -/
def setBits (n lo w v : Nat) : Nat :=
  n % 2 ^ lo + (v % 2 ^ w) * 2 ^ lo + n / 2 ^ (lo + w) * 2 ^ (lo + w)

/-- The two's-complement reading of the low `w` bits of `n`. -/
def sx (w n : Nat) : Int := if n % 2 ^ w < 2 ^ (w - 1) then (n % 2 ^ w : Nat) else (n % 2 ^ w : Nat) - (2 ^ w : Nat)

/-- The `w`-bit two's-complement encoding of `i`. -/
def enc (w : Nat) (i : Int) : Nat := (i % (2 ^ w : Nat)).toNat

/-- The number that little-endian bytes spell. -/
def leNat (bs : List Byte) : Nat :=
  match bs with
  | [] => 0
  | b :: r => b.toNat + 256 * leNat r

/-- The low `n` bytes of `v`, least significant first. -/
def natLe (n v : Nat) : List Byte :=
  match n with
  | 0 => []
  | k + 1 => b8 (v % 256) :: natLe k (v / 256)

/-- The low `n` bytes of `v`, most significant first (network byte order, R5). -/
def natBe (n v : Nat) : List Byte := (natLe n v).reverse

/-- The little-endian number in bytes `off .. off + n - 1`. -/
def leAt (bs : List Byte) (off n : Nat) : Nat := leNat ((bs.drop off).take n)

/-- Saturating addition at `2 ^ w - 1`. -/
def satAdd (w a b : Nat) : Nat := min (a + b) (2 ^ w - 1)

/-- `n` zero bytes. -/
def zeros (n : Nat) : List Byte := List.replicate n 0

/-- Integer clamp to `lo .. hi`. -/
def clampI (lo hi x : Int) : Int := if x < lo then lo else if hi < x then hi else x

/-- Rounds the rational `num / den` (`den` > 0) to the nearest integer, ties to even. -/
def roundHalfEven (num : Int) (den : Nat) : Int :=
  let q := Int.fdiv num den
  let r := num - q * den
  if 2 * r < den then q else if (den : Int) < 2 * r then q + 1 else if q % 2 = 0 then q else q + 1

/-- The bit at position `i` set, added to the word `n` when `b` holds. -/
def orBit (n i : Nat) (b : Bool) : Nat := if b then setBits n i 1 1 else n

/-- The indexes below `w` whose bit is set in `n`, rising. -/
def bitsSet (w n : Nat) : List Nat := (List.range w).filter (fun i => bit n i)

/-- One step of the generator of R132. -/
def xorshift32 (x : Nat) : Nat :=
  let a := x ^^^ (x * 2 ^ 13 % 2 ^ 32)
  let b := a ^^^ (a / 2 ^ 17)
  b ^^^ (b * 2 ^ 5 % 2 ^ 32)

/-- The low `n` bits of `v`, reversed (R415). -/
def reflect (v n : Nat) : Nat :=
  (List.range n).foldl (fun r i => if bit v i then r ||| 2 ^ (n - 1 - i) else r) 0

/-- One bit step of a reflected unit. -/
def crcStepR (w poly s : Nat) : Nat := if s % 2 = 1 then (s / 2) ^^^ reflect poly w else s / 2

/-- One bit step of an unreflected unit. -/
def crcStepN (w poly s : Nat) : Nat :=
  if bit s (w - 1) then ((s * 2) ^^^ poly) % 2 ^ w else s * 2 % 2 ^ w

/-- `f` applied `n` times. -/
def iter {α : Type} (n : Nat) (f : α → α) (x : α) : α :=
  match n with
  | 0 => x
  | k + 1 => iter k f (f x)

/-- One byte fed into the raw state (R415). -/
def feedByte (s b w poly : Nat) (refin : Bool) : Nat :=
  if refin then iter 8 (crcStepR w poly) (s ^^^ b) else iter 8 (crcStepN w poly) (s ^^^ (b * 2 ^ (w - 8)))

/-- The check value of a raw state (R415). -/
def crcResult (s w : Nat) (refin refout : Bool) (xorout : Nat) : Nat :=
  (if refin = refout then s else reflect s w) ^^^ xorout

/-- CRC-32C of bytes (R414, SEL 0). -/
def crc32c (bs : List Byte) : Nat :=
  crcResult (bs.foldl (fun s b => feedByte s b.toNat 32 0x1EDC6F41 true) 0xFFFFFFFF) 32 true true 0xFFFFFFFF

end Sys2Proof.Machine
end

