-- ==== Sys2Proof/Machine/RegMap.lean ====
section
/-! DEFINITION. The register map of R75 to R79: where each register of the spec lies, and for each of its fields the bits,
the access type of R11, the reset value of R15 and the encodings that are not reserved (R14). One row per register or
register array, in the order of the chapters; the rule that gives a register is named at its block. A field the spec
types RSV has no entry: it reads zero and ignores writes (R11, R12). -/
namespace Sys2Proof.Machine

/-- How a field answers a write (R11). -/
inductive Acc where
  | ro | rw | w1c | w1s | wo
  deriving DecidableEq, Repr

/-- What a reset covering the block does to a field: `plain` takes the reset value; `kept` keeps its value (held in the
non-volatile store or said to survive, R15, R512, R557); `loaded` is loaded from the non-volatile store (R15, R283, R315). -/
inductive OnReset where
  | plain | kept | loaded
  deriving DecidableEq, Repr

/-- One field of a register: bits `lo .. lo + width - 1`, its type, its reset value and its non-reserved ranges (empty:
every encoding is allowed). -/
structure FieldSpec where
  lo : Nat
  width : Nat
  acc : Acc
  onReset : OnReset
  reset : Nat
  legal : List (Nat × Nat)
  deriving DecidableEq, Repr

/-- A register, or an array of `count` registers `stride` bytes apart, from `base`. -/
structure RegRow where
  base : Nat
  stride : Nat
  count : Nat
  fields : List FieldSpec
  deriving DecidableEq, Repr

/-- A named field of the register at one address. -/
structure Fld where
  addr : Nat
  lo : Nat
  width : Nat
  deriving DecidableEq, Repr

/-- Base of the window of tile `t` (R75). -/
def tileAddr (t : Nat) : Nat := 0x0100000000 + t * 0x01000000

/-- Base of the register block of physical array `a` of tile `t` (R77). -/
def arrAddr (t a : Nat) : Nat := tileAddr t + 0x0C00000 + a * 0x1000

/-- Base of the offset residual words of physical array `a` of tile `t` (R169). -/
def offrAddr (t a : Nat) : Nat := tileAddr t + 0x0920000 + a * 0x200

-- glb R47 R81 R82 R83 R470 R471
def Reg.GLB_CLK_STATUS : Nat := 0x40
def Reg.GLB_CLK_STATUS_REF_LOST : Fld := ⟨Reg.GLB_CLK_STATUS, 2, 1⟩
def Reg.GLB_CLK_STATUS_REF_PRESENT : Fld := ⟨Reg.GLB_CLK_STATUS, 1, 1⟩
def Reg.GLB_CLK_STATUS_REF_SEL : Fld := ⟨Reg.GLB_CLK_STATUS, 0, 1⟩
def Reg.GLB_MESH_CTRL : Nat := 0x100
def Reg.GLB_MESH_CTRL_BKT_EN : Fld := ⟨Reg.GLB_MESH_CTRL, 2, 1⟩
def Reg.GLB_MESH_CTRL_AGE_EN : Fld := ⟨Reg.GLB_MESH_CTRL, 1, 1⟩
def Reg.GLB_MESH_CTRL_MODE : Fld := ⟨Reg.GLB_MESH_CTRL, 0, 1⟩
def Reg.GLB_MESH_STATUS : Nat := 0x104
def Reg.GLB_MESH_STATUS_OLD_COUNT : Fld := ⟨Reg.GLB_MESH_STATUS, 16, 16⟩
def Reg.GLB_MESH_STATUS_DEFER_FULL : Fld := ⟨Reg.GLB_MESH_STATUS, 0, 8⟩
def Reg.GLB_COORD : Nat := 0x200
def Reg.GLB_COORD_VALID : Fld := ⟨Reg.GLB_COORD, 15, 1⟩
def Reg.GLB_COORD_Z : Fld := ⟨Reg.GLB_COORD, 10, 5⟩
def Reg.GLB_COORD_Y : Fld := ⟨Reg.GLB_COORD, 5, 5⟩
def Reg.GLB_COORD_X : Fld := ⟨Reg.GLB_COORD, 0, 5⟩
def Reg.GLB_TORUS : Nat := 0x204
def Reg.GLB_TORUS_SZ : Fld := ⟨Reg.GLB_TORUS, 10, 5⟩
def Reg.GLB_TORUS_SY : Fld := ⟨Reg.GLB_TORUS, 5, 5⟩
def Reg.GLB_TORUS_SX : Fld := ⟨Reg.GLB_TORUS, 0, 5⟩
def Reg.GLB_TBKT_RATE (i : Nat) : Nat := 0x8000 + 8 * i
def Reg.GLB_TBKT_RATE_RATE (i : Nat) : Fld := ⟨Reg.GLB_TBKT_RATE i, 0, 16⟩
def Reg.GLB_TBKT_BURST (i : Nat) : Nat := 0x8004 + 8 * i
def Reg.GLB_TBKT_BURST_BURST (i : Nat) : Fld := ⟨Reg.GLB_TBKT_BURST i, 0, 20⟩
-- boot R509 R511 R512 (always-on, MODULE)
def Reg.BOOT_STAGE : Nat := 0x10000
def Reg.BOOT_STAGE_CODE : Fld := ⟨Reg.BOOT_STAGE, 16, 8⟩
def Reg.BOOT_STAGE_REFUSED : Fld := ⟨Reg.BOOT_STAGE, 8, 1⟩
def Reg.BOOT_STAGE_STAGE : Fld := ⟨Reg.BOOT_STAGE, 0, 4⟩
def Reg.BOOT_CMD : Nat := 0x10004
def Reg.BOOT_CMD_CMD : Fld := ⟨Reg.BOOT_CMD, 0, 4⟩
def Reg.BOOT_FW_ADDR_LO : Nat := 0x10008
def Reg.BOOT_FW_ADDR_LO_ADDR : Fld := ⟨Reg.BOOT_FW_ADDR_LO, 0, 32⟩
def Reg.BOOT_FW_ADDR_HI : Nat := 0x1000c
def Reg.BOOT_FW_ADDR_HI_ADDR : Fld := ⟨Reg.BOOT_FW_ADDR_HI, 0, 16⟩
def Reg.BOOT_FW_LEN : Nat := 0x10010
def Reg.BOOT_FW_LEN_LEN : Fld := ⟨Reg.BOOT_FW_LEN, 0, 24⟩
def Reg.BOOT_FW_ID : Nat := 0x10014
def Reg.BOOT_FW_ID_ID : Fld := ⟨Reg.BOOT_FW_ID, 0, 32⟩
def Reg.BOOT_START : Nat := 0x10020
def Reg.BOOT_START_CLEAR : Fld := ⟨Reg.BOOT_START, 31, 1⟩
def Reg.BOOT_START_REASON : Fld := ⟨Reg.BOOT_START, 16, 8⟩
def Reg.BOOT_START_PWR_FAULT : Fld := ⟨Reg.BOOT_START, 10, 1⟩
def Reg.BOOT_START_PENDING : Fld := ⟨Reg.BOOT_START, 9, 1⟩
def Reg.BOOT_START_LW : Fld := ⟨Reg.BOOT_START, 8, 1⟩
def Reg.BOOT_START_FAILCNT : Fld := ⟨Reg.BOOT_START, 0, 2⟩
def Reg.BOOT_FAILLOG : Nat := 0x10024
def Reg.BOOT_FAILLOG_CODE2 : Fld := ⟨Reg.BOOT_FAILLOG, 16, 8⟩
def Reg.BOOT_FAILLOG_CODE1 : Fld := ⟨Reg.BOOT_FAILLOG, 8, 8⟩
def Reg.BOOT_FAILLOG_CODE0 : Fld := ⟨Reg.BOOT_FAILLOG, 0, 8⟩
-- mem R396-R400
def Reg.BOOT_MEM_CTRL : Nat := 0x18000
def Reg.BOOT_MEM_CTRL_CNT_CLR : Fld := ⟨Reg.BOOT_MEM_CTRL, 31, 1⟩
def Reg.BOOT_MEM_CTRL_TEST : Fld := ⟨Reg.BOOT_MEM_CTRL, 8, 2⟩
def Reg.BOOT_MEM_CTRL_TEST_GO : Fld := ⟨Reg.BOOT_MEM_CTRL, 5, 1⟩
def Reg.BOOT_MEM_CTRL_TRAIN : Fld := ⟨Reg.BOOT_MEM_CTRL, 4, 1⟩
def Reg.BOOT_MEM_CTRL_STACKS : Fld := ⟨Reg.BOOT_MEM_CTRL, 0, 2⟩
def Reg.BOOT_MEM_STATUS (i : Nat) : Nat := 0x18010 + 4 * i
def Reg.BOOT_MEM_STATUS_STATE (i : Nat) : Fld := ⟨Reg.BOOT_MEM_STATUS i, 28, 4⟩
def Reg.BOOT_MEM_STATUS_CODE (i : Nat) : Fld := ⟨Reg.BOOT_MEM_STATUS i, 24, 4⟩
def Reg.BOOT_MEM_STATUS_TEMP (i : Nat) : Fld := ⟨Reg.BOOT_MEM_STATUS i, 16, 8⟩
def Reg.BOOT_MEM_STATUS_PROGRESS (i : Nat) : Fld := ⟨Reg.BOOT_MEM_STATUS i, 8, 8⟩
def Reg.BOOT_MEM_STATUS_REPAIRS (i : Nat) : Fld := ⟨Reg.BOOT_MEM_STATUS i, 0, 8⟩
def Reg.BOOT_MEM_SCRUB : Nat := 0x18020
def Reg.BOOT_MEM_SCRUB_EN : Fld := ⟨Reg.BOOT_MEM_SCRUB, 31, 1⟩
def Reg.BOOT_MEM_SCRUB_PASSES : Fld := ⟨Reg.BOOT_MEM_SCRUB, 8, 16⟩
def Reg.BOOT_MEM_SCRUB_PERIOD : Fld := ⟨Reg.BOOT_MEM_SCRUB, 0, 8⟩
def Reg.BOOT_MEM_CE (i : Nat) : Nat := 0x18100 + 0x80 * i
def Reg.BOOT_MEM_CE_COUNT (i : Nat) : Fld := ⟨Reg.BOOT_MEM_CE i, 0, 32⟩
def Reg.BOOT_MEM_UE (i : Nat) : Nat := 0x18104 + 0x80 * i
def Reg.BOOT_MEM_UE_COUNT (i : Nat) : Fld := ⟨Reg.BOOT_MEM_UE i, 0, 32⟩
def Reg.BOOT_MEM_CE_LIMIT (i : Nat) : Nat := 0x18108 + 0x80 * i
def Reg.BOOT_MEM_CE_LIMIT_LIMIT (i : Nat) : Fld := ⟨Reg.BOOT_MEM_CE_LIMIT i, 0, 16⟩
def Reg.BOOT_MEM_CE_ADDR_LO (i : Nat) : Nat := 0x18110 + 0x80 * i
def Reg.BOOT_MEM_CE_ADDR_LO_ADDR (i : Nat) : Fld := ⟨Reg.BOOT_MEM_CE_ADDR_LO i, 6, 26⟩
def Reg.BOOT_MEM_CE_ADDR_HI (i : Nat) : Nat := 0x18114 + 0x80 * i
def Reg.BOOT_MEM_CE_ADDR_HI_VALID (i : Nat) : Fld := ⟨Reg.BOOT_MEM_CE_ADDR_HI i, 31, 1⟩
def Reg.BOOT_MEM_CE_ADDR_HI_PATTERN (i : Nat) : Fld := ⟨Reg.BOOT_MEM_CE_ADDR_HI i, 30, 1⟩
def Reg.BOOT_MEM_CE_ADDR_HI_SCRUB (i : Nat) : Fld := ⟨Reg.BOOT_MEM_CE_ADDR_HI i, 29, 1⟩
def Reg.BOOT_MEM_CE_ADDR_HI_SYMBOLS (i : Nat) : Fld := ⟨Reg.BOOT_MEM_CE_ADDR_HI i, 24, 5⟩
def Reg.BOOT_MEM_CE_ADDR_HI_ADDR_HI (i : Nat) : Fld := ⟨Reg.BOOT_MEM_CE_ADDR_HI i, 0, 16⟩
def Reg.BOOT_MEM_UE_ADDR_LO (i : Nat) : Nat := 0x18118 + 0x80 * i
def Reg.BOOT_MEM_UE_ADDR_LO_ADDR (i : Nat) : Fld := ⟨Reg.BOOT_MEM_UE_ADDR_LO i, 6, 26⟩
def Reg.BOOT_MEM_UE_ADDR_HI (i : Nat) : Nat := 0x1811c + 0x80 * i
def Reg.BOOT_MEM_UE_ADDR_HI_VALID (i : Nat) : Fld := ⟨Reg.BOOT_MEM_UE_ADDR_HI i, 31, 1⟩
def Reg.BOOT_MEM_UE_ADDR_HI_PATTERN (i : Nat) : Fld := ⟨Reg.BOOT_MEM_UE_ADDR_HI i, 30, 1⟩
def Reg.BOOT_MEM_UE_ADDR_HI_SCRUB (i : Nat) : Fld := ⟨Reg.BOOT_MEM_UE_ADDR_HI i, 29, 1⟩
def Reg.BOOT_MEM_UE_ADDR_HI_SYMBOLS (i : Nat) : Fld := ⟨Reg.BOOT_MEM_UE_ADDR_HI i, 24, 5⟩
def Reg.BOOT_MEM_UE_ADDR_HI_ADDR_HI (i : Nat) : Fld := ⟨Reg.BOOT_MEM_UE_ADDR_HI i, 0, 16⟩
-- rst R525 R526 R527 R533 R534
def Reg.RST_CTRL : Nat := 0x20000
def Reg.RST_CTRL_MODULE : Fld := ⟨Reg.RST_CTRL, 31, 1⟩
def Reg.RST_CTRL_CORE : Fld := ⟨Reg.RST_CTRL, 30, 1⟩
def Reg.RST_CTRL_COMPUTE : Fld := ⟨Reg.RST_CTRL, 29, 1⟩
def Reg.RST_CTRL_HOSTPORT : Fld := ⟨Reg.RST_CTRL, 28, 1⟩
def Reg.RST_CTRL_MONITOR : Fld := ⟨Reg.RST_CTRL, 27, 1⟩
def Reg.RST_CTRL_LINK : Fld := ⟨Reg.RST_CTRL, 0, 6⟩
def Reg.RST_STATUS : Nat := 0x20004
def Reg.RST_STATUS_LAST : Fld := ⟨Reg.RST_STATUS, 16, 8⟩
def Reg.RST_STATUS_TILE_LINK : Fld := ⟨Reg.RST_STATUS, 3, 1⟩
def Reg.RST_STATUS_MONITOR : Fld := ⟨Reg.RST_STATUS, 2, 1⟩
def Reg.RST_STATUS_HOSTPORT : Fld := ⟨Reg.RST_STATUS, 1, 1⟩
def Reg.RST_STATUS_COMPUTE : Fld := ⟨Reg.RST_STATUS, 0, 1⟩
def Reg.RST_CFG : Nat := 0x20008
def Reg.RST_CFG_AUTO_RESUME : Fld := ⟨Reg.RST_CFG, 31, 1⟩
def Reg.RST_CFG_STL_WAIT : Fld := ⟨Reg.RST_CFG, 8, 8⟩
def Reg.RST_CFG_LH_WDOG : Fld := ⟨Reg.RST_CFG, 0, 8⟩
def Reg.RST_TILE (i : Nat) : Nat := 0x20010 + 4 * i
def Reg.RST_TILE_TILE (i : Nat) : Fld := ⟨Reg.RST_TILE i, 0, 32⟩
def Reg.RST_PARK (i : Nat) : Nat := 0x20018 + 4 * i
def Reg.RST_PARK_PARK (i : Nat) : Fld := ⟨Reg.RST_PARK i, 0, 32⟩
def Reg.RST_PARKED (i : Nat) : Nat := 0x20020 + 4 * i
def Reg.RST_PARKED_PARKED (i : Nat) : Fld := ⟨Reg.RST_PARKED i, 0, 32⟩
def Reg.RST_PARK_DEFER (i : Nat) : Nat := 0x20028 + 4 * i
def Reg.RST_PARK_DEFER_DEFER (i : Nat) : Fld := ⟨Reg.RST_PARK_DEFER i, 0, 32⟩
def Reg.RST_HANG_CFG : Nat := 0x20040
def Reg.RST_HANG_CFG_AUTO : Fld := ⟨Reg.RST_HANG_CFG, 31, 1⟩
def Reg.RST_HANG_CFG_REPLAY : Fld := ⟨Reg.RST_HANG_CFG, 30, 1⟩
def Reg.RST_HANG_CFG_RECUR : Fld := ⟨Reg.RST_HANG_CFG, 16, 8⟩
def Reg.RST_HANG_CFG_GRACE : Fld := ⟨Reg.RST_HANG_CFG, 8, 8⟩
def Reg.RST_HANG_CFG_WIN : Fld := ⟨Reg.RST_HANG_CFG, 0, 8⟩
def Reg.RST_HANG_STATUS : Nat := 0x20044
def Reg.RST_HANG_STATUS_VALID : Fld := ⟨Reg.RST_HANG_STATUS, 31, 1⟩
def Reg.RST_HANG_STATUS_MULTI : Fld := ⟨Reg.RST_HANG_STATUS, 30, 1⟩
def Reg.RST_HANG_STATUS_CAUSE : Fld := ⟨Reg.RST_HANG_STATUS, 24, 3⟩
def Reg.RST_HANG_STATUS_ACTION : Fld := ⟨Reg.RST_HANG_STATUS, 14, 2⟩
def Reg.RST_HANG_STATUS_UNIT : Fld := ⟨Reg.RST_HANG_STATUS, 0, 6⟩
def Reg.RST_HANG_TIDE (i : Nat) : Nat := 0x20048 + 4 * i
def Reg.RST_HANG_TIDE_TIDE (i : Nat) : Fld := ⟨Reg.RST_HANG_TIDE i, 0, 32⟩
def Reg.RST_LH_KICK : Nat := 0x20050
def Reg.RST_LH_KICK_KICK : Fld := ⟨Reg.RST_LH_KICK, 0, 1⟩
def Reg.RST_HANG_CNT : Nat := 0x20060
def Reg.RST_HANG_CNT_COUNT : Fld := ⟨Reg.RST_HANG_CNT, 0, 32⟩
def Reg.RST_COMPUTE_CNT : Nat := 0x20064
def Reg.RST_COMPUTE_CNT_COUNT : Fld := ⟨Reg.RST_COMPUTE_CNT, 0, 32⟩
def Reg.RST_CORE_CNT : Nat := 0x20068
def Reg.RST_CORE_CNT_COUNT : Fld := ⟨Reg.RST_CORE_CNT, 0, 32⟩
def Reg.RST_HANG_THREAD (i : Nat) : Nat := 0x20100 + 4 * i
def Reg.RST_HANG_THREAD_TAG (i : Nat) : Fld := ⟨Reg.RST_HANG_THREAD i, 16, 16⟩
def Reg.RST_HANG_THREAD_INFL (i : Nat) : Fld := ⟨Reg.RST_HANG_THREAD i, 8, 4⟩
def Reg.RST_HANG_THREAD_CLASS (i : Nat) : Fld := ⟨Reg.RST_HANG_THREAD i, 4, 2⟩
def Reg.RST_HANG_THREAD_STATE (i : Nat) : Fld := ⟨Reg.RST_HANG_THREAD i, 0, 4⟩
-- pwr R29 R500
def Reg.PWR_SEQ_STATUS : Nat := 0x20800
def Reg.PWR_SEQ_STATUS_OFF_REQ : Fld := ⟨Reg.PWR_SEQ_STATUS, 31, 1⟩
def Reg.PWR_SEQ_STATUS_FAULT_RAIL : Fld := ⟨Reg.PWR_SEQ_STATUS, 12, 4⟩
def Reg.PWR_SEQ_STATUS_FAULT_CAUSE : Fld := ⟨Reg.PWR_SEQ_STATUS, 8, 4⟩
def Reg.PWR_SEQ_STATUS_STATE : Fld := ⟨Reg.PWR_SEQ_STATUS, 4, 4⟩
def Reg.PWR_SEQ_STATUS_UVLO : Fld := ⟨Reg.PWR_SEQ_STATUS, 3, 1⟩
def Reg.PWR_SEQ_STATUS_OVLO : Fld := ⟨Reg.PWR_SEQ_STATUS, 2, 1⟩
def Reg.PWR_SEQ_STATUS_FAULT_LATCHED : Fld := ⟨Reg.PWR_SEQ_STATUS, 1, 1⟩
def Reg.PWR_SEQ_STATUS_PWR_GOOD : Fld := ⟨Reg.PWR_SEQ_STATUS, 0, 1⟩
def Reg.PWR_FAST : Nat := 0x20810
def Reg.PWR_FAST_HOLD : Fld := ⟨Reg.PWR_FAST, 24, 8⟩
def Reg.PWR_FAST_DIV : Fld := ⟨Reg.PWR_FAST, 16, 2⟩
def Reg.PWR_FAST_SKIP : Fld := ⟨Reg.PWR_FAST, 8, 8⟩
def Reg.PWR_FAST_STRETCH : Fld := ⟨Reg.PWR_FAST, 0, 8⟩
def Reg.PWR_GUARD : Nat := 0x20814
def Reg.PWR_GUARD_CAUSE : Fld := ⟨Reg.PWR_GUARD, 8, 3⟩
def Reg.PWR_GUARD_MON : Fld := ⟨Reg.PWR_GUARD, 4, 1⟩
def Reg.PWR_GUARD_G3 : Fld := ⟨Reg.PWR_GUARD, 3, 1⟩
def Reg.PWR_GUARD_G2 : Fld := ⟨Reg.PWR_GUARD, 2, 1⟩
def Reg.PWR_GUARD_G1 : Fld := ⟨Reg.PWR_GUARD, 1, 1⟩
def Reg.PWR_GUARD_ACTIVE : Fld := ⟨Reg.PWR_GUARD, 0, 1⟩
-- tide R245-R251
def Reg.TIDE_CTRL : Nat := 0x30000
def Reg.TIDE_CTRL_CNT_CLR : Fld := ⟨Reg.TIDE_CTRL, 31, 1⟩
def Reg.TIDE_CTRL_PERIOD : Fld := ⟨Reg.TIDE_CTRL, 0, 11⟩
def Reg.TIDE_STATUS : Nat := 0x30004
def Reg.TIDE_STATUS_THROTTLED : Fld := ⟨Reg.TIDE_STATUS, 11, 1⟩
def Reg.TIDE_STATUS_REFUSED : Fld := ⟨Reg.TIDE_STATUS, 10, 1⟩
def Reg.TIDE_STATUS_GATE_TMO : Fld := ⟨Reg.TIDE_STATUS, 9, 1⟩
def Reg.TIDE_STATUS_DIVERGE : Fld := ⟨Reg.TIDE_STATUS, 8, 1⟩
def Reg.TIDE_STATUS_START_LATE : Fld := ⟨Reg.TIDE_STATUS, 7, 1⟩
def Reg.TIDE_STATUS_GATED : Fld := ⟨Reg.TIDE_STATUS, 6, 1⟩
def Reg.TIDE_STATUS_FROZEN : Fld := ⟨Reg.TIDE_STATUS, 5, 1⟩
def Reg.TIDE_STATUS_HOLD : Fld := ⟨Reg.TIDE_STATUS, 4, 1⟩
def Reg.TIDE_STATUS_STATE : Fld := ⟨Reg.TIDE_STATUS, 0, 4⟩
def Reg.TIDE_NUM (i : Nat) : Nat := 0x30008 + 4 * i
def Reg.TIDE_NUM_NUM (i : Nat) : Fld := ⟨Reg.TIDE_NUM i, 0, 32⟩
def Reg.TIDE_POS : Nat := 0x30010
def Reg.TIDE_POS_STEP : Fld := ⟨Reg.TIDE_POS, 14, 18⟩
def Reg.TIDE_POS_POS : Fld := ⟨Reg.TIDE_POS, 0, 14⟩
def Reg.TIDE_LAST : Nat := 0x30014
def Reg.TIDE_LAST_CAUSE : Fld := ⟨Reg.TIDE_LAST, 28, 4⟩
def Reg.TIDE_LAST_LENGTH : Fld := ⟨Reg.TIDE_LAST, 0, 24⟩
def Reg.TIDE_THROTTLE : Nat := 0x30018
def Reg.TIDE_THROTTLE_DIV : Fld := ⟨Reg.TIDE_THROTTLE, 16, 2⟩
def Reg.TIDE_THROTTLE_SKIP : Fld := ⟨Reg.TIDE_THROTTLE, 8, 8⟩
def Reg.TIDE_THROTTLE_STRETCH : Fld := ⟨Reg.TIDE_THROTTLE, 0, 8⟩
def Reg.TIDE_THR_APPLIED : Nat := 0x3001c
def Reg.TIDE_THR_APPLIED_DIV : Fld := ⟨Reg.TIDE_THR_APPLIED, 16, 2⟩
def Reg.TIDE_THR_APPLIED_SKIP : Fld := ⟨Reg.TIDE_THR_APPLIED, 8, 8⟩
def Reg.TIDE_THR_APPLIED_STRETCH : Fld := ⟨Reg.TIDE_THR_APPLIED, 0, 8⟩
def Reg.TIDE_SLICE : Nat := 0x30020
def Reg.TIDE_SLICE_GATE_TMO : Fld := ⟨Reg.TIDE_SLICE, 24, 8⟩
def Reg.TIDE_SLICE_LAG : Fld := ⟨Reg.TIDE_SLICE, 16, 4⟩
def Reg.TIDE_SLICE_MASTER : Fld := ⟨Reg.TIDE_SLICE, 15, 1⟩
def Reg.TIDE_SLICE_LINK_MASK : Fld := ⟨Reg.TIDE_SLICE, 8, 6⟩
def Reg.TIDE_SLICE_DIAM : Fld := ⟨Reg.TIDE_SLICE, 0, 8⟩
def Reg.TIDE_LOAD_BASE : Nat := 0x30024
def Reg.TIDE_LOAD_BASE_BASE : Fld := ⟨Reg.TIDE_LOAD_BASE, 0, 26⟩
def Reg.TIDE_CMD : Nat := 0x30028
def Reg.TIDE_CMD_CMD : Fld := ⟨Reg.TIDE_CMD, 0, 4⟩
def Reg.TIDE_START (i : Nat) : Nat := 0x30030 + 4 * i
def Reg.TIDE_START_START (i : Nat) : Fld := ⟨Reg.TIDE_START i, 0, 32⟩
def Reg.TIDE_LOAD_STATUS : Nat := 0x30038
def Reg.TIDE_LOAD_STATUS_CODE : Fld := ⟨Reg.TIDE_LOAD_STATUS, 27, 5⟩
def Reg.TIDE_LOAD_STATUS_SECTION : Fld := ⟨Reg.TIDE_LOAD_STATUS, 24, 3⟩
def Reg.TIDE_LOAD_STATUS_ENTRY : Fld := ⟨Reg.TIDE_LOAD_STATUS, 0, 24⟩
def Reg.TIDE_LOAD_DETAIL : Nat := 0x3003c
def Reg.TIDE_LOAD_DETAIL_TILE : Fld := ⟨Reg.TIDE_LOAD_DETAIL, 0, 6⟩
def Reg.TIDE_STRETCHED : Nat := 0x30040
def Reg.TIDE_STRETCHED_COUNT : Fld := ⟨Reg.TIDE_STRETCHED, 0, 32⟩
def Reg.TIDE_SKIPPED : Nat := 0x30044
def Reg.TIDE_SKIPPED_COUNT : Fld := ⟨Reg.TIDE_SKIPPED, 0, 32⟩
def Reg.TIDE_MAX : Nat := 0x30048
def Reg.TIDE_MAX_LENGTH : Fld := ⟨Reg.TIDE_MAX, 0, 24⟩
def Reg.TIDE_STALL_STRETCH_LO (i : Nat) : Nat := 0x30100 + 0x10 * i
def Reg.TIDE_STALL_STRETCH_LO_COUNT (i : Nat) : Fld := ⟨Reg.TIDE_STALL_STRETCH_LO i, 0, 32⟩
def Reg.TIDE_STALL_STRETCH_HI (i : Nat) : Nat := 0x30104 + 0x10 * i
def Reg.TIDE_STALL_STRETCH_HI_COUNT (i : Nat) : Fld := ⟨Reg.TIDE_STALL_STRETCH_HI i, 0, 32⟩
def Reg.TIDE_STALL_FREEZE_LO (i : Nat) : Nat := 0x30108 + 0x10 * i
def Reg.TIDE_STALL_FREEZE_LO_COUNT (i : Nat) : Fld := ⟨Reg.TIDE_STALL_FREEZE_LO i, 0, 32⟩
def Reg.TIDE_STALL_FREEZE_HI (i : Nat) : Nat := 0x3010c + 0x10 * i
def Reg.TIDE_STALL_FREEZE_HI_COUNT (i : Nat) : Fld := ⟨Reg.TIDE_STALL_FREEZE_HI i, 0, 32⟩
-- mbx R443
def Reg.MBX_DB (i : Nat) : Nat := 0x48000 + 4 * i
def Reg.MBX_DB_POSTED (i : Nat) : Fld := ⟨Reg.MBX_DB i, 0, 32⟩
def Reg.MBX_DONE (i : Nat) : Nat := 0x48008 + 4 * i
def Reg.MBX_DONE_DONE (i : Nat) : Fld := ⟨Reg.MBX_DONE i, 0, 32⟩
def Reg.MBX_BUSY (i : Nat) : Nat := 0x48010 + 4 * i
def Reg.MBX_BUSY_BUSY (i : Nat) : Fld := ⟨Reg.MBX_BUSY i, 0, 32⟩
def Reg.MBX_OWNER (i : Nat) : Nat := 0x48100 + 4 * i
def Reg.MBX_OWNER_OWNER (i : Nat) : Fld := ⟨Reg.MBX_OWNER i, 0, 8⟩
-- hp R445-R447
def Reg.HP_CTRL : Nat := 0x50000
def Reg.HP_CTRL_RETRAIN : Fld := ⟨Reg.HP_CTRL, 31, 1⟩
def Reg.HP_CTRL_IPV6_EN : Fld := ⟨Reg.HP_CTRL, 1, 1⟩
def Reg.HP_CTRL_IPV4_EN : Fld := ⟨Reg.HP_CTRL, 0, 1⟩
def Reg.HP_STATUS : Nat := 0x50004
def Reg.HP_STATUS_STATE : Fld := ⟨Reg.HP_STATUS, 4, 4⟩
def Reg.HP_STATUS_REMOTE_FAULT : Fld := ⟨Reg.HP_STATUS, 1, 1⟩
def Reg.HP_STATUS_LOCAL_FAULT : Fld := ⟨Reg.HP_STATUS, 0, 1⟩
def Reg.HP_YCT_PORT : Nat := 0x50008
def Reg.HP_YCT_PORT_PORT : Fld := ⟨Reg.HP_YCT_PORT, 0, 16⟩
def Reg.HP_VLAN : Nat := 0x5000c
def Reg.HP_VLAN_TAG_REQ : Fld := ⟨Reg.HP_VLAN, 12, 1⟩
def Reg.HP_VLAN_VID : Fld := ⟨Reg.HP_VLAN, 0, 12⟩
def Reg.HP_PCP : Nat := 0x50010
def Reg.HP_PCP_STREAM : Fld := ⟨Reg.HP_PCP, 12, 3⟩
def Reg.HP_PCP_BULK : Fld := ⟨Reg.HP_PCP, 8, 3⟩
def Reg.HP_PCP_EVENT : Fld := ⟨Reg.HP_PCP, 4, 3⟩
def Reg.HP_PCP_CTRL : Fld := ⟨Reg.HP_PCP, 0, 3⟩
def Reg.HP_PFC : Nat := 0x50014
def Reg.HP_PFC_RX_EN : Fld := ⟨Reg.HP_PFC, 8, 8⟩
def Reg.HP_PFC_TX_EN : Fld := ⟨Reg.HP_PFC, 0, 8⟩
def Reg.HP_SESSION : Nat := 0x50018
def Reg.HP_SESSION_STREAM_VALID : Fld := ⟨Reg.HP_SESSION, 11, 1⟩
def Reg.HP_SESSION_STREAM_SLOT : Fld := ⟨Reg.HP_SESSION, 8, 3⟩
def Reg.HP_SESSION_OPEN : Fld := ⟨Reg.HP_SESSION, 0, 8⟩
def Reg.HP_IPV4 : Nat := 0x50020
def Reg.HP_IPV4_ADDR : Fld := ⟨Reg.HP_IPV4, 0, 32⟩
def Reg.HP_IPV6 (i : Nat) : Nat := 0x50030 + 4 * i
def Reg.HP_IPV6_ADDR (i : Nat) : Fld := ⟨Reg.HP_IPV6 i, 0, 32⟩
def Reg.HP_MAC_LO : Nat := 0x50040
def Reg.HP_MAC_LO_MAC : Fld := ⟨Reg.HP_MAC_LO, 0, 32⟩
def Reg.HP_MAC_HI : Nat := 0x50044
def Reg.HP_MAC_HI_MAC : Fld := ⟨Reg.HP_MAC_HI, 0, 16⟩
-- hp counters R448
def Reg.HP_RX_FRAMES : Nat := 0x50100
def Reg.HP_RX_FRAMES_COUNT : Fld := ⟨Reg.HP_RX_FRAMES, 0, 32⟩
def Reg.HP_RX_DROP_L2 : Nat := 0x50104
def Reg.HP_RX_DROP_L2_COUNT : Fld := ⟨Reg.HP_RX_DROP_L2, 0, 32⟩
def Reg.HP_RX_DROP_NET : Nat := 0x50108
def Reg.HP_RX_DROP_NET_COUNT : Fld := ⟨Reg.HP_RX_DROP_NET, 0, 32⟩
def Reg.HP_RX_DROP_YCT : Nat := 0x5010c
def Reg.HP_RX_DROP_YCT_COUNT : Fld := ⟨Reg.HP_RX_DROP_YCT, 0, 32⟩
def Reg.HP_AUTH_FAIL : Nat := 0x50110
def Reg.HP_AUTH_FAIL_COUNT : Fld := ⟨Reg.HP_AUTH_FAIL, 0, 32⟩
def Reg.HP_REPLAY : Nat := 0x50114
def Reg.HP_REPLAY_COUNT : Fld := ⟨Reg.HP_REPLAY, 0, 32⟩
def Reg.HP_RESENT : Nat := 0x50118
def Reg.HP_RESENT_COUNT : Fld := ⟨Reg.HP_RESENT, 0, 32⟩
def Reg.HP_EVT_LOST : Nat := 0x5011c
def Reg.HP_EVT_LOST_COUNT : Fld := ⟨Reg.HP_EVT_LOST, 0, 32⟩
def Reg.HP_TX_FRAMES : Nat := 0x50120
def Reg.HP_TX_FRAMES_COUNT : Fld := ⟨Reg.HP_TX_FRAMES, 0, 32⟩
def Reg.HP_FEC_CORR : Nat := 0x50124
def Reg.HP_FEC_CORR_COUNT : Fld := ⟨Reg.HP_FEC_CORR, 0, 32⟩
def Reg.HP_FEC_UNCORR : Nat := 0x50128
def Reg.HP_FEC_UNCORR_COUNT : Fld := ⟨Reg.HP_FEC_UNCORR, 0, 32⟩
-- lnk R472-R475
def Reg.LNK_CTRL (i : Nat) : Nat := 0x60000 + 0x1000 * i
def Reg.LNK_CTRL_RETRAIN (i : Nat) : Fld := ⟨Reg.LNK_CTRL i, 31, 1⟩
def Reg.LNK_CTRL_EN (i : Nat) : Fld := ⟨Reg.LNK_CTRL i, 0, 1⟩
def Reg.LNK_STATUS (i : Nat) : Nat := 0x60004 + 0x1000 * i
def Reg.LNK_STATUS_FAULT_RX (i : Nat) : Fld := ⟨Reg.LNK_STATUS i, 19, 1⟩
def Reg.LNK_STATUS_RETRY_LIMIT (i : Nat) : Fld := ⟨Reg.LNK_STATUS i, 18, 1⟩
def Reg.LNK_STATUS_CHECK_CHG (i : Nat) : Fld := ⟨Reg.LNK_STATUS i, 17, 1⟩
def Reg.LNK_STATUS_WENT_DOWN (i : Nat) : Fld := ⟨Reg.LNK_STATUS i, 16, 1⟩
def Reg.LNK_STATUS_CAUSE (i : Nat) : Fld := ⟨Reg.LNK_STATUS i, 12, 4⟩
def Reg.LNK_STATUS_SLICE (i : Nat) : Fld := ⟨Reg.LNK_STATUS i, 11, 1⟩
def Reg.LNK_STATUS_NO_PARTNER (i : Nat) : Fld := ⟨Reg.LNK_STATUS i, 10, 1⟩
def Reg.LNK_STATUS_DEFERRED (i : Nat) : Fld := ⟨Reg.LNK_STATUS i, 9, 1⟩
def Reg.LNK_STATUS_CHECK (i : Nat) : Fld := ⟨Reg.LNK_STATUS i, 4, 4⟩
def Reg.LNK_STATUS_STATE (i : Nat) : Fld := ⟨Reg.LNK_STATUS i, 0, 4⟩
def Reg.LNK_PLAN (i : Nat) : Nat := 0x60008 + 0x1000 * i
def Reg.LNK_PLAN_VALID (i : Nat) : Fld := ⟨Reg.LNK_PLAN i, 31, 1⟩
def Reg.LNK_PLAN_PORT (i : Nat) : Fld := ⟨Reg.LNK_PLAN i, 16, 3⟩
def Reg.LNK_PLAN_COORD (i : Nat) : Fld := ⟨Reg.LNK_PLAN i, 0, 15⟩
def Reg.LNK_PARTNER (i : Nat) : Nat := 0x6000c + 0x1000 * i
def Reg.LNK_PARTNER_VALID (i : Nat) : Fld := ⟨Reg.LNK_PARTNER i, 31, 1⟩
def Reg.LNK_PARTNER_PORT (i : Nat) : Fld := ⟨Reg.LNK_PARTNER i, 16, 3⟩
def Reg.LNK_PARTNER_CVALID (i : Nat) : Fld := ⟨Reg.LNK_PARTNER i, 15, 1⟩
def Reg.LNK_PARTNER_COORD (i : Nat) : Fld := ⟨Reg.LNK_PARTNER i, 0, 15⟩
def Reg.LNK_PARTNER_SERIAL_LO (i : Nat) : Nat := 0x60010 + 0x1000 * i
def Reg.LNK_PARTNER_SERIAL_LO_SERIAL (i : Nat) : Fld := ⟨Reg.LNK_PARTNER_SERIAL_LO i, 0, 32⟩
def Reg.LNK_PARTNER_SERIAL_HI (i : Nat) : Nat := 0x60014 + 0x1000 * i
def Reg.LNK_PARTNER_SERIAL_HI_SERIAL (i : Nat) : Fld := ⟨Reg.LNK_PARTNER_SERIAL_HI i, 0, 32⟩
def Reg.LNK_TX_FLITS_LO (i : Nat) : Nat := 0x60100 + 0x1000 * i
def Reg.LNK_TX_FLITS_LO_COUNT (i : Nat) : Fld := ⟨Reg.LNK_TX_FLITS_LO i, 0, 32⟩
def Reg.LNK_TX_FLITS_HI (i : Nat) : Nat := 0x60104 + 0x1000 * i
def Reg.LNK_TX_FLITS_HI_COUNT (i : Nat) : Fld := ⟨Reg.LNK_TX_FLITS_HI i, 0, 32⟩
def Reg.LNK_RX_FLITS_LO (i : Nat) : Nat := 0x60108 + 0x1000 * i
def Reg.LNK_RX_FLITS_LO_COUNT (i : Nat) : Fld := ⟨Reg.LNK_RX_FLITS_LO i, 0, 32⟩
def Reg.LNK_RX_FLITS_HI (i : Nat) : Nat := 0x6010c + 0x1000 * i
def Reg.LNK_RX_FLITS_HI_COUNT (i : Nat) : Fld := ⟨Reg.LNK_RX_FLITS_HI i, 0, 32⟩
def Reg.LNK_CRC_ERR (i : Nat) : Nat := 0x60110 + 0x1000 * i
def Reg.LNK_CRC_ERR_COUNT (i : Nat) : Fld := ⟨Reg.LNK_CRC_ERR i, 0, 32⟩
def Reg.LNK_FEC_CORR (i : Nat) : Nat := 0x60114 + 0x1000 * i
def Reg.LNK_FEC_CORR_COUNT (i : Nat) : Fld := ⟨Reg.LNK_FEC_CORR i, 0, 32⟩
def Reg.LNK_FEC_UNCORR (i : Nat) : Nat := 0x60118 + 0x1000 * i
def Reg.LNK_FEC_UNCORR_COUNT (i : Nat) : Fld := ⟨Reg.LNK_FEC_UNCORR i, 0, 32⟩
def Reg.LNK_RETRY (i : Nat) : Nat := 0x6011c + 0x1000 * i
def Reg.LNK_RETRY_COUNT (i : Nat) : Fld := ⟨Reg.LNK_RETRY i, 0, 32⟩
def Reg.LNK_DOWN (i : Nat) : Nat := 0x60120 + 0x1000 * i
def Reg.LNK_DOWN_COUNT (i : Nat) : Fld := ⟨Reg.LNK_DOWN i, 0, 32⟩
def Reg.LNK_ROUTE_DROP (i : Nat) : Nat := 0x60124 + 0x1000 * i
def Reg.LNK_ROUTE_DROP_COUNT (i : Nat) : Fld := ⟨Reg.LNK_ROUTE_DROP i, 0, 32⟩
def Reg.LNK_CREDIT_WAIT (i : Nat) : Nat := 0x60128 + 0x1000 * i
def Reg.LNK_CREDIT_WAIT_COUNT (i : Nat) : Fld := ⟨Reg.LNK_CREDIT_WAIT i, 0, 32⟩
-- mon R494-R498
def Reg.MON_CTRL : Nat := 0x70000
def Reg.MON_CTRL_PERIOD : Fld := ⟨Reg.MON_CTRL, 16, 14⟩
def Reg.MON_CTRL_SOFT : Fld := ⟨Reg.MON_CTRL, 4, 1⟩
def Reg.MON_CTRL_EN_INT : Fld := ⟨Reg.MON_CTRL, 2, 1⟩
def Reg.MON_CTRL_EN_B : Fld := ⟨Reg.MON_CTRL, 1, 1⟩
def Reg.MON_CTRL_EN_A : Fld := ⟨Reg.MON_CTRL, 0, 1⟩
def Reg.MON_STATUS : Nat := 0x70004
def Reg.MON_STATUS_MERGED : Fld := ⟨Reg.MON_STATUS, 12, 1⟩
def Reg.MON_STATUS_OVERRUN : Fld := ⟨Reg.MON_STATUS, 11, 1⟩
def Reg.MON_STATUS_PLAUS_FAIL : Fld := ⟨Reg.MON_STATUS, 10, 1⟩
def Reg.MON_STATUS_UNCAL : Fld := ⟨Reg.MON_STATUS, 9, 1⟩
def Reg.MON_STATUS_DEFER : Fld := ⟨Reg.MON_STATUS, 5, 3⟩
def Reg.MON_STATUS_RUN : Fld := ⟨Reg.MON_STATUS, 0, 3⟩
def Reg.MON_RMASK_A : Nat := 0x70010
def Reg.MON_RMASK_A_MASK : Fld := ⟨Reg.MON_RMASK_A, 1, 31⟩
def Reg.MON_RMASK_A_BIT0 : Fld := ⟨Reg.MON_RMASK_A, 0, 1⟩
def Reg.MON_RMASK_B : Nat := 0x70014
def Reg.MON_RMASK_B_MASK : Fld := ⟨Reg.MON_RMASK_B, 1, 31⟩
def Reg.MON_RMASK_B_BIT0 : Fld := ⟨Reg.MON_RMASK_B, 0, 1⟩
def Reg.MON_JSEQ_A (i : Nat) : Nat := 0x70020 + 4 * i
def Reg.MON_JSEQ_A_LEN (i : Nat) : Fld := ⟨Reg.MON_JSEQ_A i, 24, 3⟩
def Reg.MON_JSEQ_A_CH3 (i : Nat) : Fld := ⟨Reg.MON_JSEQ_A i, 15, 5⟩
def Reg.MON_JSEQ_A_CH2 (i : Nat) : Fld := ⟨Reg.MON_JSEQ_A i, 10, 5⟩
def Reg.MON_JSEQ_A_CH1 (i : Nat) : Fld := ⟨Reg.MON_JSEQ_A i, 5, 5⟩
def Reg.MON_JSEQ_A_CH0 (i : Nat) : Fld := ⟨Reg.MON_JSEQ_A i, 0, 5⟩
def Reg.MON_JSEQ_B (i : Nat) : Nat := 0x70040 + 4 * i
def Reg.MON_JSEQ_B_LEN (i : Nat) : Fld := ⟨Reg.MON_JSEQ_B i, 24, 3⟩
def Reg.MON_JSEQ_B_CH3 (i : Nat) : Fld := ⟨Reg.MON_JSEQ_B i, 15, 5⟩
def Reg.MON_JSEQ_B_CH2 (i : Nat) : Fld := ⟨Reg.MON_JSEQ_B i, 10, 5⟩
def Reg.MON_JSEQ_B_CH1 (i : Nat) : Fld := ⟨Reg.MON_JSEQ_B i, 5, 5⟩
def Reg.MON_JSEQ_B_CH0 (i : Nat) : Fld := ⟨Reg.MON_JSEQ_B i, 0, 5⟩
def Reg.MON_RES_A (i : Nat) : Nat := 0x70100 + 4 * i
def Reg.MON_RES_A_VALUE (i : Nat) : Fld := ⟨Reg.MON_RES_A i, 16, 16⟩
def Reg.MON_RES_A_VALID (i : Nat) : Fld := ⟨Reg.MON_RES_A i, 15, 1⟩
def Reg.MON_RES_A_SRC (i : Nat) : Fld := ⟨Reg.MON_RES_A i, 12, 3⟩
def Reg.MON_RES_A_RAW (i : Nat) : Fld := ⟨Reg.MON_RES_A i, 0, 12⟩
def Reg.MON_RES_B (i : Nat) : Nat := 0x70180 + 4 * i
def Reg.MON_RES_B_VALUE (i : Nat) : Fld := ⟨Reg.MON_RES_B i, 16, 16⟩
def Reg.MON_RES_B_VALID (i : Nat) : Fld := ⟨Reg.MON_RES_B i, 15, 1⟩
def Reg.MON_RES_B_SRC (i : Nat) : Fld := ⟨Reg.MON_RES_B i, 12, 3⟩
def Reg.MON_RES_B_RAW (i : Nat) : Fld := ⟨Reg.MON_RES_B i, 0, 12⟩
def Reg.MON_JRES_A (i : Nat) : Nat := 0x70200 + 4 * i
def Reg.MON_JRES_A_VALUE (i : Nat) : Fld := ⟨Reg.MON_JRES_A i, 16, 16⟩
def Reg.MON_JRES_A_VALID (i : Nat) : Fld := ⟨Reg.MON_JRES_A i, 15, 1⟩
def Reg.MON_JRES_A_SRC (i : Nat) : Fld := ⟨Reg.MON_JRES_A i, 12, 3⟩
def Reg.MON_JRES_A_RAW (i : Nat) : Fld := ⟨Reg.MON_JRES_A i, 0, 12⟩
def Reg.MON_JRES_B (i : Nat) : Nat := 0x70210 + 4 * i
def Reg.MON_JRES_B_VALUE (i : Nat) : Fld := ⟨Reg.MON_JRES_B i, 16, 16⟩
def Reg.MON_JRES_B_VALID (i : Nat) : Fld := ⟨Reg.MON_JRES_B i, 15, 1⟩
def Reg.MON_JRES_B_SRC (i : Nat) : Fld := ⟨Reg.MON_JRES_B i, 12, 3⟩
def Reg.MON_JRES_B_RAW (i : Nat) : Fld := ⟨Reg.MON_JRES_B i, 0, 12⟩
def Reg.MON_PLAUS : Nat := 0x70240
def Reg.MON_PLAUS_DIFF : Fld := ⟨Reg.MON_PLAUS, 16, 8⟩
def Reg.MON_PLAUS_SUSPECT : Fld := ⟨Reg.MON_PLAUS, 14, 2⟩
def Reg.MON_PLAUS_LIM : Fld := ⟨Reg.MON_PLAUS, 0, 6⟩
def Reg.MON_INT_CFG : Nat := 0x70300
def Reg.MON_INT_CFG_KIND : Fld := ⟨Reg.MON_INT_CFG, 30, 2⟩
def Reg.MON_INT_CFG_LEN : Fld := ⟨Reg.MON_INT_CFG, 0, 20⟩
def Reg.MON_INT_WIN (i : Nat) : Nat := 0x70308 + 4 * i
def Reg.MON_INT_WIN_K (i : Nat) : Fld := ⟨Reg.MON_INT_WIN i, 0, 32⟩
def Reg.MON_INT_E : Nat := 0x70310
def Reg.MON_INT_E_E : Fld := ⟨Reg.MON_INT_E, 0, 32⟩
def Reg.MON_INT_AVG : Nat := 0x70314
def Reg.MON_INT_AVG_VAVG : Fld := ⟨Reg.MON_INT_AVG, 16, 16⟩
def Reg.MON_INT_AVG_IAVG : Fld := ⟨Reg.MON_INT_AVG, 0, 16⟩
def Reg.MON_INT_PMAX : Nat := 0x70318
def Reg.MON_INT_PMAX_GAP : Fld := ⟨Reg.MON_INT_PMAX, 17, 1⟩
def Reg.MON_INT_PMAX_SHORT : Fld := ⟨Reg.MON_INT_PMAX, 16, 1⟩
def Reg.MON_INT_PMAX_PMAX : Fld := ⟨Reg.MON_INT_PMAX, 0, 16⟩
def Reg.MON_INT_P : Nat := 0x7031c
def Reg.MON_INT_P_P100 : Fld := ⟨Reg.MON_INT_P, 16, 16⟩
def Reg.MON_INT_P_P1 : Fld := ⟨Reg.MON_INT_P, 0, 16⟩
def Reg.MON_ENERGY (i : Nat) : Nat := 0x70320 + 4 * i
def Reg.MON_ENERGY_UJ (i : Nat) : Fld := ⟨Reg.MON_ENERGY i, 0, 32⟩
def Reg.MON_SCAL (i : Nat) : Nat := 0x70400 + 4 * i
def Reg.MON_SCAL_GAIN (i : Nat) : Fld := ⟨Reg.MON_SCAL i, 16, 16⟩
def Reg.MON_SCAL_OFFSET (i : Nat) : Fld := ⟨Reg.MON_SCAL i, 0, 16⟩
-- thm R499
def Reg.THM_CTRL : Nat := 0x80000
def Reg.THM_CTRL_READ : Fld := ⟨Reg.THM_CTRL, 0, 1⟩
def Reg.THM_DIODE : Nat := 0x80004
def Reg.THM_DIODE_VALID : Fld := ⟨Reg.THM_DIODE, 31, 1⟩
def Reg.THM_DIODE_TEMP : Fld := ⟨Reg.THM_DIODE, 0, 16⟩
def Reg.THM_DIODE_TIME (i : Nat) : Nat := 0x80008 + 4 * i
def Reg.THM_DIODE_TIME_NS (i : Nat) : Fld := ⟨Reg.THM_DIODE_TIME i, 0, 32⟩
def Reg.THM_TRIP : Nat := 0x80010
def Reg.THM_TRIP_TRIP : Fld := ⟨Reg.THM_TRIP, 31, 1⟩
def Reg.THM_TRIP_RELEASING : Fld := ⟨Reg.THM_TRIP, 30, 1⟩
def Reg.THM_TRIP_TRIPPED : Fld := ⟨Reg.THM_TRIP, 29, 1⟩
def Reg.THM_TRIP_REL_LEVEL : Fld := ⟨Reg.THM_TRIP, 16, 8⟩
def Reg.THM_TRIP_TRIP_LEVEL : Fld := ⟨Reg.THM_TRIP, 8, 8⟩
def Reg.THM_TRIP_CNT : Nat := 0x80014
def Reg.THM_TRIP_CNT_COUNT : Fld := ⟨Reg.THM_TRIP_CNT, 0, 32⟩
-- sec R557-R561
def Reg.SEC_CTRL : Nat := 0x90000
def Reg.SEC_CTRL_UNLOCK : Fld := ⟨Reg.SEC_CTRL, 31, 1⟩
def Reg.SEC_CTRL_DEBUG_EN : Fld := ⟨Reg.SEC_CTRL, 0, 1⟩
def Reg.SEC_STATUS : Nat := 0x90004
def Reg.SEC_STATUS_STATE : Fld := ⟨Reg.SEC_STATUS, 28, 4⟩
def Reg.SEC_STATUS_AUTH_MAX : Fld := ⟨Reg.SEC_STATUS, 0, 8⟩
def Reg.SEC_ALARM : Nat := 0x90008
def Reg.SEC_ALARM_SRC : Fld := ⟨Reg.SEC_ALARM, 0, 6⟩
def Reg.SEC_POLICY : Nat := 0x9000c
def Reg.SEC_POLICY_POL : Fld := ⟨Reg.SEC_POLICY, 0, 12⟩
def Reg.SEC_AUTH : Nat := 0x90010
def Reg.SEC_AUTH_LIMIT : Fld := ⟨Reg.SEC_AUTH, 0, 4⟩
def Reg.SEC_SLOT (i : Nat) : Nat := 0x90100 + 4 * i
def Reg.SEC_SLOT_DEBUG (i : Nat) : Fld := ⟨Reg.SEC_SLOT i, 2, 1⟩
def Reg.SEC_SLOT_OWNER (i : Nat) : Fld := ⟨Reg.SEC_SLOT i, 1, 1⟩
def Reg.SEC_SLOT_ACTIVE (i : Nat) : Fld := ⟨Reg.SEC_SLOT i, 0, 1⟩
def Reg.SEC_KEY_DATA (i : Nat) : Nat := 0x90200 + 4 * i
def Reg.SEC_KEY_DATA_DATA (i : Nat) : Fld := ⟨Reg.SEC_KEY_DATA i, 0, 32⟩
def Reg.SEC_KEY_CMD : Nat := 0x90220
def Reg.SEC_KEY_CMD_GO : Fld := ⟨Reg.SEC_KEY_CMD, 31, 1⟩
def Reg.SEC_KEY_CMD_RESULT : Fld := ⟨Reg.SEC_KEY_CMD, 8, 4⟩
def Reg.SEC_KEY_CMD_DEBUG : Fld := ⟨Reg.SEC_KEY_CMD, 6, 1⟩
def Reg.SEC_KEY_CMD_OWNER : Fld := ⟨Reg.SEC_KEY_CMD, 5, 1⟩
def Reg.SEC_KEY_CMD_ACTIVE : Fld := ⟨Reg.SEC_KEY_CMD, 4, 1⟩
def Reg.SEC_KEY_CMD_SLOT : Fld := ⟨Reg.SEC_KEY_CMD, 0, 3⟩
def Reg.SEC_KEY_CHK : Nat := 0x90224
def Reg.SEC_KEY_CHK_CHK : Fld := ⟨Reg.SEC_KEY_CHK, 0, 32⟩
def Reg.SEC_KEY_CNT : Nat := 0x90228
def Reg.SEC_KEY_CNT_COUNT : Fld := ⟨Reg.SEC_KEY_CNT, 0, 32⟩
def Reg.SEC_XMSS_LEFT : Nat := 0x90300
def Reg.SEC_XMSS_LEFT_LEFT : Fld := ⟨Reg.SEC_XMSS_LEFT, 0, 21⟩
def Reg.SEC_SVN_MIN : Nat := 0x90304
def Reg.SEC_SVN_MIN_SVN : Fld := ⟨Reg.SEC_SVN_MIN, 0, 32⟩
def Reg.SEC_VERIFY : Nat := 0x90308
def Reg.SEC_VERIFY_DETAIL : Fld := ⟨Reg.SEC_VERIFY, 0, 4⟩
def Reg.SEC_ROOT_REVOKE : Nat := 0x9030c
def Reg.SEC_ROOT_REVOKE_REVOKED : Fld := ⟨Reg.SEC_ROOT_REVOKE, 0, 4⟩
-- stl R574
def Reg.STL_CTRL : Nat := 0xa0000
def Reg.STL_CTRL_RELEASE : Fld := ⟨Reg.STL_CTRL, 31, 1⟩
def Reg.STL_CTRL_EN : Fld := ⟨Reg.STL_CTRL, 0, 1⟩
def Reg.STL_STATUS : Nat := 0xa0004
def Reg.STL_STATUS_RING_VALID : Fld := ⟨Reg.STL_STATUS, 2, 1⟩
def Reg.STL_STATUS_QFULL : Fld := ⟨Reg.STL_STATUS, 1, 1⟩
def Reg.STL_STATUS_FROZEN : Fld := ⟨Reg.STL_STATUS, 0, 1⟩
def Reg.STL_HEAD : Nat := 0xa0008
def Reg.STL_HEAD_COUNT : Fld := ⟨Reg.STL_HEAD, 0, 32⟩
def Reg.STL_RING_FIRST : Nat := 0xa000c
def Reg.STL_RING_FIRST_COUNT : Fld := ⟨Reg.STL_RING_FIRST, 0, 32⟩
def Reg.STL_LOST : Nat := 0xa0010
def Reg.STL_LOST_COUNT : Fld := ⟨Reg.STL_LOST, 0, 32⟩
def Reg.STL_COPY_SEL : Nat := 0xa0020
def Reg.STL_COPY_SEL_INDEX : Fld := ⟨Reg.STL_COPY_SEL, 0, 8⟩
def Reg.STL_COPY_DATA (i : Nat) : Nat := 0xa0040 + 4 * i
def Reg.STL_COPY_DATA_DATA (i : Nat) : Fld := ⟨Reg.STL_COPY_DATA i, 0, 32⟩
def Reg.STL_ALERT : Nat := 0xa0080
def Reg.STL_ALERT_BITS : Fld := ⟨Reg.STL_ALERT, 0, 9⟩
def Reg.STL_ALERT_MASK : Nat := 0xa0084
def Reg.STL_ALERT_MASK_MASK8 : Fld := ⟨Reg.STL_ALERT_MASK, 8, 1⟩
def Reg.STL_ALERT_MASK_MASK : Fld := ⟨Reg.STL_ALERT_MASK, 0, 7⟩
-- ptb R579
def Reg.PTB_CTRL : Nat := 0xb0000
def Reg.PTB_CTRL_KILL : Fld := ⟨Reg.PTB_CTRL, 31, 1⟩
def Reg.PTB_CTRL_ARMED : Fld := ⟨Reg.PTB_CTRL, 0, 6⟩
def Reg.PTB_CFG (i : Nat) : Nat := 0xb0100 + 0x20 * i
def Reg.PTB_CFG_EN (i : Nat) : Fld := ⟨Reg.PTB_CFG i, 0, 1⟩
def Reg.PTB_TARGET (i : Nat) : Nat := 0xb0104 + 0x20 * i
def Reg.PTB_TARGET_TARGET (i : Nat) : Fld := ⟨Reg.PTB_TARGET i, 0, 32⟩
def Reg.PTB_AMOUNT (i : Nat) : Nat := 0xb0108 + 0x20 * i
def Reg.PTB_AMOUNT_AMOUNT (i : Nat) : Fld := ⟨Reg.PTB_AMOUNT i, 0, 16⟩
def Reg.PTB_COUNT (i : Nat) : Nat := 0xb010c + 0x20 * i
def Reg.PTB_COUNT_COUNT (i : Nat) : Fld := ⟨Reg.PTB_COUNT i, 0, 16⟩
def Reg.PTB_FIRED (i : Nat) : Nat := 0xb0110 + 0x20 * i
def Reg.PTB_FIRED_COUNT (i : Nat) : Fld := ⟨Reg.PTB_FIRED i, 0, 32⟩
-- edge dma / crc R412 R413 R419
def Reg.DMA_CFG (b : Nat) : Nat := b + 0
def Reg.DMA_CFG_BUF_MAX (b : Nat) : Fld := ⟨Reg.DMA_CFG b, 16, 9⟩
def Reg.DMA_CFG_MODE (b : Nat) : Fld := ⟨Reg.DMA_CFG b, 0, 1⟩
def Reg.DMA_DONE (b : Nat) : Nat := b + 4
def Reg.DMA_DONE_DONE (b : Nat) : Fld := ⟨Reg.DMA_DONE b, 0, 32⟩
def Reg.DMA_ERR (b : Nat) : Nat := b + 8
def Reg.DMA_ERR_ERR (b : Nat) : Fld := ⟨Reg.DMA_ERR b, 0, 32⟩
def Reg.DMA_ACTIVE (b : Nat) : Nat := b + 0xc
def Reg.DMA_ACTIVE_ACTIVE (b : Nat) : Fld := ⟨Reg.DMA_ACTIVE b, 0, 32⟩
def Reg.DMA_CH_SRC_LO (b i : Nat) : Nat := b + 0x100 + 0x40 * i
def Reg.DMA_CH_SRC_LO_V (b i : Nat) : Fld := ⟨Reg.DMA_CH_SRC_LO b i, 0, 32⟩
def Reg.DMA_CH_SRC_HI (b i : Nat) : Nat := b + 0x104 + 0x40 * i
def Reg.DMA_CH_SRC_HI_V (b i : Nat) : Fld := ⟨Reg.DMA_CH_SRC_HI b i, 0, 32⟩
def Reg.DMA_CH_DST_LO (b i : Nat) : Nat := b + 0x108 + 0x40 * i
def Reg.DMA_CH_DST_LO_V (b i : Nat) : Fld := ⟨Reg.DMA_CH_DST_LO b i, 0, 32⟩
def Reg.DMA_CH_DST_HI (b i : Nat) : Nat := b + 0x10c + 0x40 * i
def Reg.DMA_CH_DST_HI_V (b i : Nat) : Fld := ⟨Reg.DMA_CH_DST_HI b i, 0, 32⟩
def Reg.DMA_CH_LEN (b i : Nat) : Nat := b + 0x110 + 0x40 * i
def Reg.DMA_CH_LEN_V (b i : Nat) : Fld := ⟨Reg.DMA_CH_LEN b i, 0, 32⟩
def Reg.DMA_CH_CTRL (b i : Nat) : Nat := b + 0x114 + 0x40 * i
def Reg.DMA_CH_CTRL_V (b i : Nat) : Fld := ⟨Reg.DMA_CH_CTRL b i, 0, 32⟩
def Reg.DMA_CH_NEXT_LO (b i : Nat) : Nat := b + 0x118 + 0x40 * i
def Reg.DMA_CH_NEXT_LO_V (b i : Nat) : Fld := ⟨Reg.DMA_CH_NEXT_LO b i, 0, 32⟩
def Reg.DMA_CH_NEXT_HI (b i : Nat) : Nat := b + 0x11c + 0x40 * i
def Reg.DMA_CH_NEXT_HI_V (b i : Nat) : Fld := ⟨Reg.DMA_CH_NEXT_HI b i, 0, 32⟩
def Reg.DMA_CH_CMD (b i : Nat) : Nat := b + 0x120 + 0x40 * i
def Reg.DMA_CH_CMD_FETCH (b i : Nat) : Fld := ⟨Reg.DMA_CH_CMD b i, 2, 1⟩
def Reg.DMA_CH_CMD_STOP (b i : Nat) : Fld := ⟨Reg.DMA_CH_CMD b i, 1, 1⟩
def Reg.DMA_CH_CMD_START (b i : Nat) : Fld := ⟨Reg.DMA_CH_CMD b i, 0, 1⟩
def Reg.DMA_CH_CFG (b i : Nat) : Nat := b + 0x124 + 0x40 * i
def Reg.DMA_CH_CFG_PRIO (b i : Nat) : Fld := ⟨Reg.DMA_CH_CFG b i, 0, 2⟩
def Reg.DMA_CH_STATUS (b i : Nat) : Nat := b + 0x128 + 0x40 * i
def Reg.DMA_CH_STATUS_RESULT (b i : Nat) : Fld := ⟨Reg.DMA_CH_STATUS b i, 12, 4⟩
def Reg.DMA_CH_STATUS_STATE (b i : Nat) : Fld := ⟨Reg.DMA_CH_STATUS b i, 0, 4⟩
def Reg.DMA_CH_REMAIN (b i : Nat) : Nat := b + 0x12c + 0x40 * i
def Reg.DMA_CH_REMAIN_COUNT (b i : Nat) : Fld := ⟨Reg.DMA_CH_REMAIN b i, 0, 32⟩
def Reg.DMA_CH_CRC_LAST (b i : Nat) : Nat := b + 0x130 + 0x40 * i
def Reg.DMA_CH_CRC_LAST_VALUE (b i : Nat) : Fld := ⟨Reg.DMA_CH_CRC_LAST b i, 0, 32⟩
def Reg.DMA_CH_DESC_CNT (b i : Nat) : Nat := b + 0x134 + 0x40 * i
def Reg.DMA_CH_DESC_CNT_COUNT (b i : Nat) : Fld := ⟨Reg.DMA_CH_DESC_CNT b i, 0, 32⟩
def Reg.CRC_CFG (b : Nat) : Nat := b + 0
def Reg.CRC_CFG_WIDTH (b : Nat) : Fld := ⟨Reg.CRC_CFG b, 8, 2⟩
def Reg.CRC_CFG_REFOUT (b : Nat) : Fld := ⟨Reg.CRC_CFG b, 5, 1⟩
def Reg.CRC_CFG_REFIN (b : Nat) : Fld := ⟨Reg.CRC_CFG b, 4, 1⟩
def Reg.CRC_CFG_SEL (b : Nat) : Fld := ⟨Reg.CRC_CFG b, 0, 2⟩
def Reg.CRC_POLY (b : Nat) : Nat := b + 4
def Reg.CRC_POLY_POLY (b : Nat) : Fld := ⟨Reg.CRC_POLY b, 0, 32⟩
def Reg.CRC_INIT (b : Nat) : Nat := b + 8
def Reg.CRC_INIT_INIT (b : Nat) : Fld := ⟨Reg.CRC_INIT b, 0, 32⟩
def Reg.CRC_XOROUT (b : Nat) : Nat := b + 0xc
def Reg.CRC_XOROUT_XOROUT (b : Nat) : Fld := ⟨Reg.CRC_XOROUT b, 0, 32⟩
def Reg.CRC_VALUE (b : Nat) : Nat := b + 0x10
def Reg.CRC_VALUE_VALUE (b : Nat) : Fld := ⟨Reg.CRC_VALUE b, 0, 32⟩
def Reg.CRC_RESULT (b : Nat) : Nat := b + 0x14
def Reg.CRC_RESULT_RESULT (b : Nat) : Fld := ⟨Reg.CRC_RESULT b, 0, 32⟩
def Reg.CRC_CMD (b : Nat) : Nat := b + 0x18
def Reg.CRC_CMD_INIT (b : Nat) : Fld := ⟨Reg.CRC_CMD b, 0, 1⟩
def Reg.CRC_STATUS (b : Nat) : Nat := b + 0x1c
def Reg.CRC_STATUS_REFUSED (b : Nat) : Fld := ⟨Reg.CRC_STATUS b, 2, 1⟩
def Reg.CRC_STATUS_BUSY (b : Nat) : Fld := ⟨Reg.CRC_STATUS b, 1, 1⟩
def Reg.CRC_STATUS_BOUND (b : Nat) : Fld := ⟨Reg.CRC_STATUS b, 0, 1⟩
def Reg.CRC_FEED8 (b : Nat) : Nat := b + 0x20
def Reg.CRC_FEED8_DATA (b : Nat) : Fld := ⟨Reg.CRC_FEED8 b, 0, 8⟩
def Reg.CRC_FEED16 (b : Nat) : Nat := b + 0x24
def Reg.CRC_FEED16_DATA (b : Nat) : Fld := ⟨Reg.CRC_FEED16 b, 0, 16⟩
def Reg.CRC_FEED32 (b : Nat) : Nat := b + 0x28
def Reg.CRC_FEED32_DATA (b : Nat) : Fld := ⟨Reg.CRC_FEED32 b, 0, 32⟩
-- tile R197-R205 R163-R169 R270 R276 R293 R315-R317
def Reg.TILE_ID (t : Nat) : Nat := tileAddr t + 0x800000
def Reg.TILE_ID_ENABLED (t : Nat) : Fld := ⟨Reg.TILE_ID t, 31, 1⟩
def Reg.TILE_ID_TILE (t : Nat) : Fld := ⟨Reg.TILE_ID t, 0, 6⟩
def Reg.ENG_CTRL (t : Nat) : Nat := tileAddr t + 0x800004
def Reg.ENG_CTRL_CNT_CLR (t : Nat) : Fld := ⟨Reg.ENG_CTRL t, 31, 1⟩
def Reg.ENG_CTRL_ENABLE (t : Nat) : Fld := ⟨Reg.ENG_CTRL t, 0, 1⟩
def Reg.ENG_STATUS (t : Nat) : Nat := tileAddr t + 0x800008
def Reg.ENG_STATUS_STOPPED (t : Nat) : Fld := ⟨Reg.ENG_STATUS t, 8, 1⟩
def Reg.ENG_STATUS_POOL_FULL (t : Nat) : Fld := ⟨Reg.ENG_STATUS t, 4, 1⟩
def Reg.ENG_STATUS_LATE (t : Nat) : Fld := ⟨Reg.ENG_STATUS t, 3, 1⟩
def Reg.ENG_STATUS_BAD_DESC (t : Nat) : Fld := ⟨Reg.ENG_STATUS t, 2, 1⟩
def Reg.ENG_STATUS_FAULT (t : Nat) : Fld := ⟨Reg.ENG_STATUS t, 1, 1⟩
def Reg.ENG_FAULT_INFO0 (t : Nat) : Nat := tileAddr t + 0x800010
def Reg.ENG_FAULT_INFO0_VALID (t : Nat) : Fld := ⟨Reg.ENG_FAULT_INFO0 t, 31, 1⟩
def Reg.ENG_FAULT_INFO0_KIND (t : Nat) : Fld := ⟨Reg.ENG_FAULT_INFO0 t, 28, 3⟩
def Reg.ENG_FAULT_INFO0_THREAD (t : Nat) : Fld := ⟨Reg.ENG_FAULT_INFO0 t, 22, 6⟩
def Reg.ENG_FAULT_INFO0_OPCODE (t : Nat) : Fld := ⟨Reg.ENG_FAULT_INFO0 t, 8, 8⟩
def Reg.ENG_FAULT_INFO0_REGION (t : Nat) : Fld := ⟨Reg.ENG_FAULT_INFO0 t, 0, 8⟩
def Reg.ENG_FAULT_INFO1 (t : Nat) : Nat := tileAddr t + 0x800014
def Reg.ENG_FAULT_INFO1_OFFSET (t : Nat) : Fld := ⟨Reg.ENG_FAULT_INFO1 t, 0, 24⟩
def Reg.ENG_FAULT_INFO2 (t : Nat) : Nat := tileAddr t + 0x800018
def Reg.ENG_FAULT_INFO2_TAG (t : Nat) : Fld := ⟨Reg.ENG_FAULT_INFO2 t, 0, 16⟩
def Reg.ENG_FAULT_CNT (t : Nat) : Nat := tileAddr t + 0x800020
def Reg.ENG_FAULT_CNT_COUNT (t : Nat) : Fld := ⟨Reg.ENG_FAULT_CNT t, 0, 32⟩
def Reg.ENG_BADDESC_CNT (t : Nat) : Nat := tileAddr t + 0x800024
def Reg.ENG_BADDESC_CNT_COUNT (t : Nat) : Fld := ⟨Reg.ENG_BADDESC_CNT t, 0, 32⟩
def Reg.ENG_LATE_CNT (t : Nat) : Nat := tileAddr t + 0x800028
def Reg.ENG_LATE_CNT_COUNT (t : Nat) : Fld := ⟨Reg.ENG_LATE_CNT t, 0, 32⟩
def Reg.ENG_BANK_WAIT_CNT (t : Nat) : Nat := tileAddr t + 0x80002c
def Reg.ENG_BANK_WAIT_CNT_COUNT (t : Nat) : Fld := ⟨Reg.ENG_BANK_WAIT_CNT t, 0, 32⟩
def Reg.ENG_TIDE_DONE (t : Nat) : Nat := tileAddr t + 0x800030
def Reg.ENG_TIDE_DONE_COUNT (t : Nat) : Fld := ⟨Reg.ENG_TIDE_DONE t, 0, 32⟩
def Reg.ENG_DESC_RETIRED (t i : Nat) : Nat := tileAddr t + 0x800034 + 4 * i
def Reg.ENG_DESC_RETIRED_COUNT (t i : Nat) : Fld := ⟨Reg.ENG_DESC_RETIRED t i, 0, 32⟩
def Reg.ENG_REQ_INFL (t : Nat) : Nat := tileAddr t + 0x800040
def Reg.ENG_REQ_INFL_OUTL (t : Nat) : Fld := ⟨Reg.ENG_REQ_INFL t, 16, 11⟩
def Reg.ENG_REQ_INFL_TOTAL (t : Nat) : Fld := ⟨Reg.ENG_REQ_INFL t, 0, 11⟩
def Reg.ENG_REQ_HWM (t : Nat) : Nat := tileAddr t + 0x800044
def Reg.ENG_REQ_HWM_CLR (t : Nat) : Fld := ⟨Reg.ENG_REQ_HWM t, 31, 1⟩
def Reg.ENG_REQ_HWM_MAX (t : Nat) : Fld := ⟨Reg.ENG_REQ_HWM t, 0, 11⟩
def Reg.ENG_THREAD (t i : Nat) : Nat := tileAddr t + 0x800100 + 4 * i
def Reg.ENG_THREAD_TAG (t i : Nat) : Fld := ⟨Reg.ENG_THREAD t i, 16, 16⟩
def Reg.ENG_THREAD_INFL (t i : Nat) : Fld := ⟨Reg.ENG_THREAD t i, 8, 4⟩
def Reg.ENG_THREAD_CLASS (t i : Nat) : Fld := ⟨Reg.ENG_THREAD t i, 4, 2⟩
def Reg.ENG_THREAD_STATE (t i : Nat) : Fld := ⟨Reg.ENG_THREAD t i, 0, 4⟩
def Reg.ENG_POOL_STATUS (t : Nat) : Nat := tileAddr t + 0x800200
def Reg.ENG_POOL_STATUS_MAX (t : Nat) : Fld := ⟨Reg.ENG_POOL_STATUS t, 16, 9⟩
def Reg.ENG_POOL_STATUS_DEPTH (t : Nat) : Fld := ⟨Reg.ENG_POOL_STATUS t, 0, 9⟩
def Reg.ENG_RGN_BASE (t i : Nat) : Nat := tileAddr t + 0x810000 + 8 * i
def Reg.ENG_RGN_BASE_BASE (t i : Nat) : Fld := ⟨Reg.ENG_RGN_BASE t i, 0, 17⟩
def Reg.ENG_RGN_LIMIT (t i : Nat) : Nat := tileAddr t + 0x810004 + 8 * i
def Reg.ENG_RGN_LIMIT_VALID (t i : Nat) : Fld := ⟨Reg.ENG_RGN_LIMIT t i, 31, 1⟩
def Reg.ENG_RGN_LIMIT_FE (t i : Nat) : Fld := ⟨Reg.ENG_RGN_LIMIT t i, 30, 1⟩
def Reg.ENG_RGN_LIMIT_R (t i : Nat) : Fld := ⟨Reg.ENG_RGN_LIMIT t i, 29, 1⟩
def Reg.ENG_RGN_LIMIT_W (t i : Nat) : Fld := ⟨Reg.ENG_RGN_LIMIT t i, 28, 1⟩
def Reg.ENG_RGN_LIMIT_TP (t i : Nat) : Fld := ⟨Reg.ENG_RGN_LIMIT t i, 27, 1⟩
def Reg.ENG_RGN_LIMIT_PK (t i : Nat) : Fld := ⟨Reg.ENG_RGN_LIMIT t i, 26, 1⟩
def Reg.ENG_RGN_LIMIT_DS (t i : Nat) : Fld := ⟨Reg.ENG_RGN_LIMIT t i, 25, 1⟩
def Reg.ENG_RGN_LIMIT_SIZE (t i : Nat) : Fld := ⟨Reg.ENG_RGN_LIMIT t i, 0, 18⟩
def Reg.TILE_AMAP (t i : Nat) : Nat := tileAddr t + 0x880000 + 4 * i
def Reg.TILE_AMAP_VALID (t i : Nat) : Fld := ⟨Reg.TILE_AMAP t i, 31, 1⟩
def Reg.TILE_AMAP_PEND (t i : Nat) : Fld := ⟨Reg.TILE_AMAP t i, 30, 1⟩
def Reg.TILE_AMAP_NEXT (t i : Nat) : Fld := ⟨Reg.TILE_AMAP t i, 16, 9⟩
def Reg.TILE_AMAP_PHYS (t i : Nat) : Fld := ⟨Reg.TILE_AMAP t i, 0, 9⟩
def Reg.TILE_SPARE (t : Nat) : Nat := tileAddr t + 0x880400
def Reg.TILE_SPARE_EXHAUSTED (t : Nat) : Fld := ⟨Reg.TILE_SPARE t, 31, 1⟩
def Reg.TILE_SPARE_INPLACE (t : Nat) : Fld := ⟨Reg.TILE_SPARE t, 30, 1⟩
def Reg.TILE_SPARE_OVERDUE (t : Nat) : Fld := ⟨Reg.TILE_SPARE t, 29, 1⟩
def Reg.TILE_SPARE_LOST (t : Nat) : Fld := ⟨Reg.TILE_SPARE t, 16, 9⟩
def Reg.TILE_SPARE_SHADOWS (t : Nat) : Fld := ⟨Reg.TILE_SPARE t, 8, 2⟩
def Reg.TILE_SPARE_RESERVE (t : Nat) : Fld := ⟨Reg.TILE_SPARE t, 0, 5⟩
def Reg.SND_TILE_CTRL (t : Nat) : Nat := tileAddr t + 0x880800
def Reg.SND_TILE_CTRL_CNT_CLR (t : Nat) : Fld := ⟨Reg.SND_TILE_CTRL t, 31, 1⟩
def Reg.SND_TILE_CTRL_K4 (t : Nat) : Fld := ⟨Reg.SND_TILE_CTRL t, 16, 6⟩
def Reg.SND_TILE_CTRL_SYS_GAIN (t : Nat) : Fld := ⟨Reg.SND_TILE_CTRL t, 8, 8⟩
def Reg.SND_TILE_CTRL_OFF_ALLOW (t : Nat) : Fld := ⟨Reg.SND_TILE_CTRL t, 4, 4⟩
def Reg.SND_TILE_CTRL_FRAC (t : Nat) : Fld := ⟨Reg.SND_TILE_CTRL t, 0, 4⟩
def Reg.SND_TILE_SEED (t : Nat) : Nat := tileAddr t + 0x880804
def Reg.SND_TILE_SEED_SEED (t : Nat) : Fld := ⟨Reg.SND_TILE_SEED t, 0, 32⟩
def Reg.SND_TILE_STATUS (t : Nat) : Nat := tileAddr t + 0x880808
def Reg.SND_TILE_STATUS_DEPTH (t : Nat) : Fld := ⟨Reg.SND_TILE_STATUS t, 16, 13⟩
def Reg.SND_TILE_STATUS_NO_RING (t : Nat) : Fld := ⟨Reg.SND_TILE_STATUS t, 3, 1⟩
def Reg.SND_TILE_STATUS_NO_THREAD (t : Nat) : Fld := ⟨Reg.SND_TILE_STATUS t, 2, 1⟩
def Reg.SND_TILE_STATUS_RING_FULL (t : Nat) : Fld := ⟨Reg.SND_TILE_STATUS t, 1, 1⟩
def Reg.SND_TILE_STATUS_FAIL (t : Nat) : Fld := ⟨Reg.SND_TILE_STATUS t, 0, 1⟩
def Reg.SND_TILE_UNIT (t : Nat) : Nat := tileAddr t + 0x88080c
def Reg.SND_TILE_UNIT_UNIT (t : Nat) : Fld := ⟨Reg.SND_TILE_UNIT t, 0, 6⟩
def Reg.SND_TILE_CAPT (t : Nat) : Nat := tileAddr t + 0x880810
def Reg.SND_TILE_CAPT_COUNT (t : Nat) : Fld := ⟨Reg.SND_TILE_CAPT t, 0, 32⟩
def Reg.SND_TILE_DONE (t : Nat) : Nat := tileAddr t + 0x880814
def Reg.SND_TILE_DONE_COUNT (t : Nat) : Fld := ⟨Reg.SND_TILE_DONE t, 0, 32⟩
def Reg.SND_TILE_FAIL (t : Nat) : Nat := tileAddr t + 0x880818
def Reg.SND_TILE_FAIL_COUNT (t : Nat) : Fld := ⟨Reg.SND_TILE_FAIL t, 0, 32⟩
def Reg.SND_TILE_SKIP_RING (t : Nat) : Nat := tileAddr t + 0x88081c
def Reg.SND_TILE_SKIP_RING_COUNT (t : Nat) : Fld := ⟨Reg.SND_TILE_SKIP_RING t, 0, 32⟩
def Reg.SND_TILE_SKIP_THREAD (t : Nat) : Nat := tileAddr t + 0x880820
def Reg.SND_TILE_SKIP_THREAD_COUNT (t : Nat) : Fld := ⟨Reg.SND_TILE_SKIP_THREAD t, 0, 32⟩
def Reg.SND_TILE_SKIP_REFRESH (t : Nat) : Nat := tileAddr t + 0x880824
def Reg.SND_TILE_SKIP_REFRESH_COUNT (t : Nat) : Fld := ⟨Reg.SND_TILE_SKIP_REFRESH t, 0, 32⟩
def Reg.SND_TILE_SKIP_POISON (t : Nat) : Nat := tileAddr t + 0x880828
def Reg.SND_TILE_SKIP_POISON_COUNT (t : Nat) : Fld := ⟨Reg.SND_TILE_SKIP_POISON t, 0, 32⟩
def Reg.SND_TILE_COL_EXCL (t : Nat) : Nat := tileAddr t + 0x88082c
def Reg.SND_TILE_COL_EXCL_COUNT (t : Nat) : Fld := ⟨Reg.SND_TILE_COL_EXCL t, 0, 32⟩
def Reg.CAL_TILE_TEMP (t : Nat) : Nat := tileAddr t + 0x880900
def Reg.CAL_TILE_TEMP_LASTCAL (t : Nat) : Fld := ⟨Reg.CAL_TILE_TEMP t, 16, 16⟩
def Reg.CAL_TILE_TEMP_EST (t : Nat) : Fld := ⟨Reg.CAL_TILE_TEMP t, 0, 16⟩
def Reg.ENG_ARITH_CTRL (t : Nat) : Nat := tileAddr t + 0x900000
def Reg.ENG_ARITH_CTRL_CNT_CLR (t : Nat) : Fld := ⟨Reg.ENG_ARITH_CTRL t, 31, 1⟩
def Reg.ENG_ARITH_CTRL_DEF_K16 (t : Nat) : Fld := ⟨Reg.ENG_ARITH_CTRL t, 0, 8⟩
def Reg.ENG_ARITH_STATUS (t : Nat) : Nat := tileAddr t + 0x900004
def Reg.ENG_ARITH_STATUS_NONFINITE (t : Nat) : Fld := ⟨Reg.ENG_ARITH_STATUS t, 7, 1⟩
def Reg.ENG_ARITH_STATUS_RMS_OVF (t : Nat) : Fld := ⟨Reg.ENG_ARITH_STATUS t, 6, 1⟩
def Reg.ENG_ARITH_STATUS_REJECT_SEEN (t : Nat) : Fld := ⟨Reg.ENG_ARITH_STATUS t, 5, 1⟩
def Reg.ENG_ARITH_STATUS_OUTL_DROP (t : Nat) : Fld := ⟨Reg.ENG_ARITH_STATUS t, 4, 1⟩
def Reg.ENG_ARITH_STATUS_RSVD_CODE (t : Nat) : Fld := ⟨Reg.ENG_ARITH_STATUS t, 3, 1⟩
def Reg.ENG_ARITH_STATUS_UNDER (t : Nat) : Fld := ⟨Reg.ENG_ARITH_STATUS t, 2, 1⟩
def Reg.ENG_ARITH_STATUS_SAT (t : Nat) : Fld := ⟨Reg.ENG_ARITH_STATUS t, 1, 1⟩
def Reg.ENG_ARITH_STATUS_POISON_IN (t : Nat) : Fld := ⟨Reg.ENG_ARITH_STATUS t, 0, 1⟩
def Reg.ENG_Q_ZERO_CNT (t : Nat) : Nat := tileAddr t + 0x900010
def Reg.ENG_Q_ZERO_CNT_COUNT (t : Nat) : Fld := ⟨Reg.ENG_Q_ZERO_CNT t, 0, 32⟩
def Reg.ENG_Q_UNDER_CNT (t : Nat) : Nat := tileAddr t + 0x900014
def Reg.ENG_Q_UNDER_CNT_COUNT (t : Nat) : Fld := ⟨Reg.ENG_Q_UNDER_CNT t, 0, 32⟩
def Reg.ENG_Q_SAT_CNT (t : Nat) : Nat := tileAddr t + 0x900018
def Reg.ENG_Q_SAT_CNT_COUNT (t : Nat) : Fld := ⟨Reg.ENG_Q_SAT_CNT t, 0, 32⟩
def Reg.ENG_Q_POISON_CNT (t : Nat) : Nat := tileAddr t + 0x90001c
def Reg.ENG_Q_POISON_CNT_COUNT (t : Nat) : Fld := ⟨Reg.ENG_Q_POISON_CNT t, 0, 32⟩
def Reg.ENG_D_RSVD_CNT (t : Nat) : Nat := tileAddr t + 0x900020
def Reg.ENG_D_RSVD_CNT_COUNT (t : Nat) : Fld := ⟨Reg.ENG_D_RSVD_CNT t, 0, 32⟩
def Reg.ENG_D_POISON_CNT (t : Nat) : Nat := tileAddr t + 0x900024
def Reg.ENG_D_POISON_CNT_COUNT (t : Nat) : Fld := ⟨Reg.ENG_D_POISON_CNT t, 0, 32⟩
def Reg.ENG_A_ZERO_CNT (t : Nat) : Nat := tileAddr t + 0x900028
def Reg.ENG_A_ZERO_CNT_COUNT (t : Nat) : Fld := ⟨Reg.ENG_A_ZERO_CNT t, 0, 32⟩
def Reg.ENG_RMS_OVF_CNT (t : Nat) : Nat := tileAddr t + 0x90002c
def Reg.ENG_RMS_OVF_CNT_COUNT (t : Nat) : Fld := ⟨Reg.ENG_RMS_OVF_CNT t, 0, 32⟩
def Reg.ENG_NONFINITE_CNT (t : Nat) : Nat := tileAddr t + 0x900030
def Reg.ENG_NONFINITE_CNT_COUNT (t : Nat) : Fld := ⟨Reg.ENG_NONFINITE_CNT t, 0, 32⟩
def Reg.ENG_OUTL_FLAG (t i : Nat) : Nat := tileAddr t + 0x900080 + 4 * i
def Reg.ENG_OUTL_FLAG_DROPPED (t i : Nat) : Fld := ⟨Reg.ENG_OUTL_FLAG t i, 0, 32⟩
def Reg.ENG_OUTL_CNT_KEPT (t i : Nat) : Nat := tileAddr t + 0x901000 + 8 * i
def Reg.ENG_OUTL_CNT_KEPT_COUNT (t i : Nat) : Fld := ⟨Reg.ENG_OUTL_CNT_KEPT t i, 0, 32⟩
def Reg.ENG_OUTL_CNT_DROP (t i : Nat) : Nat := tileAddr t + 0x901004 + 8 * i
def Reg.ENG_OUTL_CNT_DROP_COUNT (t i : Nat) : Fld := ⟨Reg.ENG_OUTL_CNT_DROP t i, 0, 32⟩
def Reg.ENG_LAYER_STAT_DROP (t i : Nat) : Nat := tileAddr t + 0x910000 + 0x10 * i
def Reg.ENG_LAYER_STAT_DROP_COUNT (t i : Nat) : Fld := ⟨Reg.ENG_LAYER_STAT_DROP t i, 0, 32⟩
def Reg.ENG_LAYER_STAT_CLIP (t i : Nat) : Nat := tileAddr t + 0x910004 + 0x10 * i
def Reg.ENG_LAYER_STAT_CLIP_COUNT (t i : Nat) : Fld := ⟨Reg.ENG_LAYER_STAT_CLIP t i, 0, 32⟩
def Reg.ENG_LAYER_STAT_LOST (t i : Nat) : Nat := tileAddr t + 0x910008 + 0x10 * i
def Reg.ENG_LAYER_STAT_LOST_COUNT (t i : Nat) : Fld := ⟨Reg.ENG_LAYER_STAT_LOST t i, 0, 32⟩
def Reg.ENG_LAYER_STAT_QSAT (t i : Nat) : Nat := tileAddr t + 0x91000c + 0x10 * i
def Reg.ENG_LAYER_STAT_QSAT_COUNT (t i : Nat) : Fld := ⟨Reg.ENG_LAYER_STAT_QSAT t i, 0, 32⟩
-- ENG_OFFR[a] per array, 0x920000 + 0x200*a (tile space, two indices)
def Reg.ENG_OFFR (t a i : Nat) : Nat := offrAddr t a + 0 + 4 * i
def Reg.ENG_OFFR_COL3 (t a i : Nat) : Fld := ⟨Reg.ENG_OFFR t a i, 24, 8⟩
def Reg.ENG_OFFR_COL2 (t a i : Nat) : Fld := ⟨Reg.ENG_OFFR t a i, 16, 8⟩
def Reg.ENG_OFFR_COL1 (t a i : Nat) : Fld := ⟨Reg.ENG_OFFR t a i, 8, 8⟩
def Reg.ENG_OFFR_COL0 (t a i : Nat) : Fld := ⟨Reg.ENG_OFFR t a i, 0, 8⟩
-- array R114-R121 R284-R288 R313 R314
def Reg.ARR_CFG (t a : Nat) : Nat := arrAddr t a + 0
def Reg.ARR_CFG_GAIN_STEP (t a : Nat) : Fld := ⟨Reg.ARR_CFG t a, 4, 3⟩
def Reg.ARR_CFG_WMODE (t a : Nat) : Fld := ⟨Reg.ARR_CFG t a, 0, 2⟩
def Reg.ARR_CLIFF (t a : Nat) : Nat := arrAddr t a + 4
def Reg.ARR_CLIFF_BUDGET (t a : Nat) : Fld := ⟨Reg.ARR_CLIFF t a, 16, 4⟩
def Reg.ARR_CLIFF_CLIFF (t a : Nat) : Fld := ⟨Reg.ARR_CLIFF t a, 0, 13⟩
def Reg.ARR_STATE (t a : Nat) : Nat := arrAddr t a + 8
def Reg.ARR_STATE_LOGICAL (t a : Nat) : Fld := ⟨Reg.ARR_STATE t a, 8, 8⟩
def Reg.ARR_STATE_IN_PLACE (t a : Nat) : Fld := ⟨Reg.ARR_STATE t a, 4, 1⟩
def Reg.ARR_STATE_STATE (t a : Nat) : Fld := ⟨Reg.ARR_STATE t a, 0, 4⟩
def Reg.ARR_STATUS (t a : Nat) : Nat := arrAddr t a + 0xc
def Reg.ARR_STATUS_CNT_CLR (t a : Nat) : Fld := ⟨Reg.ARR_STATUS t a, 31, 1⟩
def Reg.ARR_STATUS_REJECT (t a : Nat) : Fld := ⟨Reg.ARR_STATUS t a, 5, 1⟩
def Reg.ARR_STATUS_LOST_SPLIT (t a : Nat) : Fld := ⟨Reg.ARR_STATUS t a, 4, 1⟩
def Reg.ARR_STATUS_CLIP (t a : Nat) : Fld := ⟨Reg.ARR_STATUS t a, 3, 1⟩
def Reg.ARR_STATUS_REF_CLIP (t a : Nat) : Fld := ⟨Reg.ARR_STATUS t a, 2, 1⟩
def Reg.ARR_STATUS_BUDGET_SPENT (t a : Nat) : Fld := ⟨Reg.ARR_STATUS t a, 1, 1⟩
def Reg.ARR_STATUS_SPLIT (t a : Nat) : Fld := ⟨Reg.ARR_STATUS t a, 0, 1⟩
def Reg.ARR_STROKE_CNT (t a i : Nat) : Nat := arrAddr t a + 0x10 + 4 * i
def Reg.ARR_STROKE_CNT_COUNT (t a i : Nat) : Fld := ⟨Reg.ARR_STROKE_CNT t a i, 0, 32⟩
def Reg.ARR_SLACK_CNT (t a : Nat) : Nat := arrAddr t a + 0x18
def Reg.ARR_SLACK_CNT_COUNT (t a : Nat) : Fld := ⟨Reg.ARR_SLACK_CNT t a, 0, 32⟩
def Reg.ARR_SPLIT_CNT (t a : Nat) : Nat := arrAddr t a + 0x1c
def Reg.ARR_SPLIT_CNT_COUNT (t a : Nat) : Fld := ⟨Reg.ARR_SPLIT_CNT t a, 0, 32⟩
def Reg.ARR_LOST_SPLIT_CNT (t a : Nat) : Nat := arrAddr t a + 0x20
def Reg.ARR_LOST_SPLIT_CNT_COUNT (t a : Nat) : Fld := ⟨Reg.ARR_LOST_SPLIT_CNT t a, 0, 32⟩
def Reg.ARR_CLIP_CNT (t a : Nat) : Nat := arrAddr t a + 0x24
def Reg.ARR_CLIP_CNT_COUNT (t a : Nat) : Fld := ⟨Reg.ARR_CLIP_CNT t a, 0, 32⟩
def Reg.ARR_REJECT_CNT (t a : Nat) : Nat := arrAddr t a + 0x28
def Reg.ARR_REJECT_CNT_COUNT (t a : Nat) : Fld := ⟨Reg.ARR_REJECT_CNT t a, 0, 32⟩
def Reg.ARR_REF_CNT (t a : Nat) : Nat := arrAddr t a + 0x2c
def Reg.ARR_REF_CNT_COUNT (t a : Nat) : Fld := ⟨Reg.ARR_REF_CNT t a, 0, 32⟩
def Reg.ARR_REF_RESULT (t a : Nat) : Nat := arrAddr t a + 0x30
def Reg.ARR_REF_RESULT_VALID (t a : Nat) : Fld := ⟨Reg.ARR_REF_RESULT t a, 31, 1⟩
def Reg.ARR_REF_RESULT_CLIP (t a : Nat) : Fld := ⟨Reg.ARR_REF_RESULT t a, 30, 1⟩
def Reg.ARR_REF_RESULT_REF_ABS (t a : Nat) : Fld := ⟨Reg.ARR_REF_RESULT t a, 16, 8⟩
def Reg.ARR_REF_RESULT_REF_OFFS (t a : Nat) : Fld := ⟨Reg.ARR_REF_RESULT t a, 8, 8⟩
def Reg.ARR_REF_RESULT_REF_GAIN (t a : Nat) : Fld := ⟨Reg.ARR_REF_RESULT t a, 0, 8⟩
def Reg.ARR_PRED_MAX (t a : Nat) : Nat := arrAddr t a + 0x34
def Reg.ARR_PRED_MAX_CLR (t a : Nat) : Fld := ⟨Reg.ARR_PRED_MAX t a, 31, 1⟩
def Reg.ARR_PRED_MAX_MAX (t a : Nat) : Fld := ⟨Reg.ARR_PRED_MAX t a, 0, 13⟩
def Reg.ARR_COLMAP (t a i : Nat) : Nat := arrAddr t a + 0x40 + 4 * i
def Reg.ARR_COLMAP_VALID (t a i : Nat) : Fld := ⟨Reg.ARR_COLMAP t a i, 31, 1⟩
def Reg.ARR_COLMAP_PROG_OK (t a i : Nat) : Fld := ⟨Reg.ARR_COLMAP t a i, 30, 1⟩
def Reg.ARR_COLMAP_COL (t a i : Nat) : Fld := ⟨Reg.ARR_COLMAP t a i, 0, 8⟩
def Reg.CAL_OFFT (t a i : Nat) : Nat := arrAddr t a + 0x400 + 4 * i
def Reg.CAL_OFFT_COL3 (t a i : Nat) : Fld := ⟨Reg.CAL_OFFT t a i, 24, 6⟩
def Reg.CAL_OFFT_COL2 (t a i : Nat) : Fld := ⟨Reg.CAL_OFFT t a i, 16, 6⟩
def Reg.CAL_OFFT_COL1 (t a i : Nat) : Fld := ⟨Reg.CAL_OFFT t a i, 8, 6⟩
def Reg.CAL_OFFT_COL0 (t a i : Nat) : Fld := ⟨Reg.CAL_OFFT t a i, 0, 6⟩
def Reg.CAL_CREF (t a i : Nat) : Nat := arrAddr t a + 0x540 + 4 * i
def Reg.CAL_CREF_CONV3 (t a i : Nat) : Fld := ⟨Reg.CAL_CREF t a i, 24, 5⟩
def Reg.CAL_CREF_CONV2 (t a i : Nat) : Fld := ⟨Reg.CAL_CREF t a i, 16, 5⟩
def Reg.CAL_CREF_CONV1 (t a i : Nat) : Fld := ⟨Reg.CAL_CREF t a i, 8, 5⟩
def Reg.CAL_CREF_CONV0 (t a i : Nat) : Fld := ⟨Reg.CAL_CREF t a i, 0, 5⟩
def Reg.CAL_GAIN (t a : Nat) : Nat := arrAddr t a + 0x580
def Reg.CAL_GAIN_ACT (t a : Nat) : Fld := ⟨Reg.CAL_GAIN t a, 8, 8⟩
def Reg.CAL_GAIN_TGT (t a : Nat) : Fld := ⟨Reg.CAL_GAIN t a, 0, 8⟩
def Reg.CAL_CTRL (t a : Nat) : Nat := arrAddr t a + 0x584
def Reg.CAL_CTRL_SNAP (t a : Nat) : Fld := ⟨Reg.CAL_CTRL t a, 1, 1⟩
def Reg.CAL_CTRL_HOLD (t a : Nat) : Fld := ⟨Reg.CAL_CTRL t a, 0, 1⟩
def Reg.CAL_STATUS (t a : Nat) : Nat := arrAddr t a + 0x588
def Reg.CAL_STATUS_DIST (t a : Nat) : Fld := ⟨Reg.CAL_STATUS t a, 0, 8⟩
def Reg.CAL_QF (t a : Nat) : Nat := arrAddr t a + 0x58c
def Reg.CAL_QF_SUSPECT (t a : Nat) : Fld := ⟨Reg.CAL_QF t a, 23, 1⟩
def Reg.CAL_QF_REJECTS (t a : Nat) : Fld := ⟨Reg.CAL_QF t a, 16, 4⟩
def Reg.CAL_QF_QF (t a : Nat) : Fld := ⟨Reg.CAL_QF t a, 0, 8⟩
def Reg.CAL_OFFA (t a i : Nat) : Nat := arrAddr t a + 0x600 + 4 * i
def Reg.CAL_OFFA_COL3 (t a i : Nat) : Fld := ⟨Reg.CAL_OFFA t a i, 24, 6⟩
def Reg.CAL_OFFA_COL2 (t a i : Nat) : Fld := ⟨Reg.CAL_OFFA t a i, 16, 6⟩
def Reg.CAL_OFFA_COL1 (t a i : Nat) : Fld := ⟨Reg.CAL_OFFA t a i, 8, 6⟩
def Reg.CAL_OFFA_COL0 (t a i : Nat) : Fld := ⟨Reg.CAL_OFFA t a i, 0, 6⟩
def Reg.CAL_CREFA (t a i : Nat) : Nat := arrAddr t a + 0x740 + 4 * i
def Reg.CAL_CREFA_CONV3 (t a i : Nat) : Fld := ⟨Reg.CAL_CREFA t a i, 24, 5⟩
def Reg.CAL_CREFA_CONV2 (t a i : Nat) : Fld := ⟨Reg.CAL_CREFA t a i, 16, 5⟩
def Reg.CAL_CREFA_CONV1 (t a i : Nat) : Fld := ⟨Reg.CAL_CREFA t a i, 8, 5⟩
def Reg.CAL_CREFA_CONV0 (t a i : Nat) : Fld := ⟨Reg.CAL_CREFA t a i, 0, 5⟩
def Reg.SND_CFG (t a : Nat) : Nat := arrAddr t a + 0x800
def Reg.SND_CFG_SPREAD (t a : Nat) : Fld := ⟨Reg.SND_CFG t a, 16, 8⟩
def Reg.SND_CFG_FRAC (t a : Nat) : Fld := ⟨Reg.SND_CFG t a, 0, 4⟩
def Reg.SND_CAPT (t a : Nat) : Nat := arrAddr t a + 0x804
def Reg.SND_CAPT_COUNT (t a : Nat) : Fld := ⟨Reg.SND_CAPT t a, 0, 32⟩
def Reg.SND_FAIL (t a : Nat) : Nat := arrAddr t a + 0x808
def Reg.SND_FAIL_COUNT (t a : Nat) : Fld := ⟨Reg.SND_FAIL t a, 0, 32⟩
def Reg.SND_SKIP (t a : Nat) : Nat := arrAddr t a + 0x80c
def Reg.SND_SKIP_COUNT (t a : Nat) : Fld := ⟨Reg.SND_SKIP t a, 0, 32⟩
def Reg.SND_LAST (t a : Nat) : Nat := arrAddr t a + 0x810
def Reg.SND_LAST_NUM (t a : Nat) : Fld := ⟨Reg.SND_LAST t a, 0, 32⟩
def Reg.SND_MASK (t a i : Nat) : Nat := arrAddr t a + 0x820 + 4 * i
def Reg.SND_MASK_MASK (t a i : Nat) : Fld := ⟨Reg.SND_MASK t a i, 0, 32⟩
-- mbx boxes R440
def Reg.MBX_REQ (i : Nat) : Nat := 0x40000 + 4 * i
def Reg.MBX_REQ_W (i : Nat) : Fld := ⟨Reg.MBX_REQ i, 0, 32⟩
def Reg.MBX_RSP (i : Nat) : Nat := 0x44000 + 4 * i
def Reg.MBX_RSP_W (i : Nat) : Fld := ⟨Reg.MBX_RSP i, 0, 32⟩

/-- Register rows of the global block 0x0: GLB_CLK_STATUS, GLB_MESH_CTRL, GLB_MESH_STATUS, GLB_COORD, GLB_TORUS, GLB_TBKT_RATE, GLB_TBKT_BURST. The
identity and version registers that R76 puts into this block have no address and no layout in the spec, so the model holds none and
their places read as unmapped (DESIGN CHOICE, log entry 55). -/
def glbRows : List RegRow := [
  ⟨0x40, 0, 1, [⟨2, 1, .w1c, .plain, 0, []⟩, ⟨1, 1, .ro, .plain, 0, []⟩, ⟨0, 1, .ro, .plain, 0, []⟩]⟩,
  ⟨0x100, 0, 1, [⟨2, 1, .rw, .plain, 0, []⟩, ⟨1, 1, .rw, .plain, 1, []⟩, ⟨0, 1, .rw, .plain, 0, []⟩]⟩,
  ⟨0x104, 0, 1, [⟨16, 16, .ro, .plain, 0, []⟩, ⟨0, 8, .w1c, .plain, 0, []⟩]⟩,
  ⟨0x200, 0, 1, [⟨15, 1, .rw, .plain, 0, []⟩, ⟨10, 5, .rw, .plain, 0, []⟩, ⟨5, 5, .rw, .plain, 0, []⟩, ⟨0, 5, .rw, .plain, 0, []⟩]⟩,
  ⟨0x204, 0, 1, [⟨10, 5, .rw, .plain, 0, []⟩, ⟨5, 5, .rw, .plain, 0, []⟩, ⟨0, 5, .rw, .plain, 0, []⟩]⟩,
  ⟨0x8000, 8, 4096, [⟨0, 16, .rw, .plain, 0xffff, [(1, 0xffff)]⟩]⟩,
  ⟨0x8004, 8, 4096, [⟨0, 20, .rw, .plain, 0x4000, [(0x10, 0xfffff)]⟩]⟩]

/-- Register rows of the global block 0x1: BOOT_STAGE, BOOT_CMD, BOOT_FW_ADDR_LO, BOOT_FW_ADDR_HI, BOOT_FW_LEN, BOOT_FW_ID, BOOT_START, BOOT_FAILLOG, BOOT_MEM_CTRL, BOOT_MEM_STATUS, BOOT_MEM_SCRUB, BOOT_MEM_CE, BOOT_MEM_UE, BOOT_MEM_CE_LIMIT, BOOT_MEM_CE_ADDR_LO, BOOT_MEM_CE_ADDR_HI, BOOT_MEM_UE_ADDR_LO, BOOT_MEM_UE_ADDR_HI. -/
def bootRows : List RegRow := [
  ⟨0x10000, 0, 1, [⟨16, 8, .ro, .plain, 0, []⟩, ⟨8, 1, .w1c, .plain, 0, []⟩, ⟨0, 4, .ro, .plain, 0, []⟩]⟩,
  ⟨0x10004, 0, 1, [⟨0, 4, .wo, .plain, 0, []⟩]⟩,
  ⟨0x10008, 0, 1, [⟨0, 32, .rw, .plain, 0, []⟩]⟩,
  ⟨0x1000c, 0, 1, [⟨0, 16, .rw, .plain, 0, []⟩]⟩,
  ⟨0x10010, 0, 1, [⟨0, 24, .rw, .plain, 0, []⟩]⟩,
  ⟨0x10014, 0, 1, [⟨0, 32, .ro, .plain, 0, []⟩]⟩,
  ⟨0x10020, 0, 1, [⟨31, 1, .w1s, .plain, 0, []⟩, ⟨16, 8, .ro, .kept, 0, []⟩, ⟨10, 1, .ro, .kept, 0, []⟩, ⟨9, 1, .ro, .kept, 0, []⟩, ⟨8, 1, .ro, .plain, 0, []⟩, ⟨0, 2, .ro, .kept, 0, []⟩]⟩,
  ⟨0x10024, 0, 1, [⟨16, 8, .ro, .kept, 0, []⟩, ⟨8, 8, .ro, .kept, 0, []⟩, ⟨0, 8, .ro, .kept, 0, []⟩]⟩,
  ⟨0x18000, 0, 1, [⟨31, 1, .w1s, .plain, 0, []⟩, ⟨8, 2, .rw, .plain, 0, [(0, 2)]⟩, ⟨5, 1, .w1s, .plain, 0, []⟩, ⟨4, 1, .w1s, .plain, 0, []⟩, ⟨0, 2, .rw, .plain, 3, []⟩]⟩,
  ⟨0x18010, 4, 2, [⟨28, 4, .ro, .plain, 0, []⟩, ⟨24, 4, .ro, .plain, 0, []⟩, ⟨16, 8, .ro, .plain, 0, []⟩, ⟨8, 8, .ro, .plain, 0, []⟩, ⟨0, 8, .ro, .kept, 0, []⟩]⟩,
  ⟨0x18020, 0, 1, [⟨31, 1, .rw, .plain, 1, []⟩, ⟨8, 16, .ro, .plain, 0, []⟩, ⟨0, 8, .rw, .plain, 0x18, [(1, 0xa8)]⟩]⟩,
  ⟨0x18100, 0x80, 2, [⟨0, 32, .ro, .plain, 0, []⟩]⟩,
  ⟨0x18104, 0x80, 2, [⟨0, 32, .ro, .plain, 0, []⟩]⟩,
  ⟨0x18108, 0x80, 2, [⟨0, 16, .rw, .plain, 0x400, []⟩]⟩,
  ⟨0x18110, 0x80, 2, [⟨6, 26, .ro, .plain, 0, []⟩]⟩,
  ⟨0x18114, 0x80, 2, [⟨31, 1, .w1c, .plain, 0, []⟩, ⟨30, 1, .ro, .plain, 0, []⟩, ⟨29, 1, .ro, .plain, 0, []⟩, ⟨24, 5, .ro, .plain, 0, []⟩, ⟨0, 16, .ro, .plain, 0, []⟩]⟩,
  ⟨0x18118, 0x80, 2, [⟨6, 26, .ro, .plain, 0, []⟩]⟩,
  ⟨0x1811c, 0x80, 2, [⟨31, 1, .w1c, .plain, 0, []⟩, ⟨30, 1, .ro, .plain, 0, []⟩, ⟨29, 1, .ro, .plain, 0, []⟩, ⟨24, 5, .ro, .plain, 0, []⟩, ⟨0, 16, .ro, .plain, 0, []⟩]⟩]

/-- Register rows of the global block 0x2: RST_CTRL, RST_STATUS, RST_CFG, RST_TILE, RST_PARK, RST_PARKED, RST_PARK_DEFER, RST_HANG_CFG, RST_HANG_STATUS, RST_HANG_TIDE, RST_LH_KICK, RST_HANG_CNT, RST_COMPUTE_CNT, RST_CORE_CNT, RST_HANG_THREAD, PWR_SEQ_STATUS, PWR_FAST, PWR_GUARD. -/
def rstPwrRows : List RegRow := [
  ⟨0x20000, 0, 1, [⟨31, 1, .w1s, .plain, 0, []⟩, ⟨30, 1, .w1s, .plain, 0, []⟩, ⟨29, 1, .w1s, .plain, 0, []⟩, ⟨28, 1, .w1s, .plain, 0, []⟩, ⟨27, 1, .w1s, .plain, 0, []⟩, ⟨0, 6, .w1s, .plain, 0, []⟩]⟩,
  ⟨0x20004, 0, 1, [⟨16, 8, .ro, .plain, 1, []⟩, ⟨3, 1, .ro, .plain, 0, []⟩, ⟨2, 1, .ro, .plain, 0, []⟩, ⟨1, 1, .ro, .plain, 0, []⟩, ⟨0, 1, .ro, .plain, 0, []⟩]⟩,
  ⟨0x20008, 0, 1, [⟨31, 1, .rw, .plain, 1, []⟩, ⟨8, 8, .rw, .plain, 0x64, [(1, 0xff)]⟩, ⟨0, 8, .rw, .plain, 0xa, [(1, 0xff)]⟩]⟩,
  ⟨0x20010, 4, 2, [⟨0, 32, .w1s, .plain, 0, []⟩]⟩,
  ⟨0x20018, 4, 2, [⟨0, 32, .rw, .plain, 0, []⟩]⟩,
  ⟨0x20020, 4, 2, [⟨0, 32, .ro, .plain, 0, []⟩]⟩,
  ⟨0x20028, 4, 2, [⟨0, 32, .ro, .plain, 0, []⟩]⟩,
  ⟨0x20040, 0, 1, [⟨31, 1, .rw, .plain, 1, []⟩, ⟨30, 1, .rw, .plain, 0, []⟩, ⟨16, 8, .rw, .plain, 0xa, []⟩, ⟨8, 8, .rw, .plain, 0xa, [(1, 0xff)]⟩, ⟨0, 8, .rw, .plain, 0xa, [(1, 0xff)]⟩]⟩,
  ⟨0x20044, 0, 1, [⟨31, 1, .w1c, .plain, 0, []⟩, ⟨30, 1, .w1c, .plain, 0, []⟩, ⟨24, 3, .ro, .plain, 0, []⟩, ⟨14, 2, .ro, .plain, 0, []⟩, ⟨0, 6, .ro, .plain, 0, []⟩]⟩,
  ⟨0x20048, 4, 2, [⟨0, 32, .ro, .plain, 0, []⟩]⟩,
  ⟨0x20050, 0, 1, [⟨0, 1, .wo, .plain, 0, []⟩]⟩,
  ⟨0x20060, 0, 1, [⟨0, 32, .ro, .plain, 0, []⟩]⟩,
  ⟨0x20064, 0, 1, [⟨0, 32, .ro, .plain, 0, []⟩]⟩,
  ⟨0x20068, 0, 1, [⟨0, 32, .ro, .plain, 0, []⟩]⟩,
  ⟨0x20100, 4, 64, [⟨16, 16, .ro, .plain, 0, []⟩, ⟨8, 4, .ro, .plain, 0, []⟩, ⟨4, 2, .ro, .plain, 0, []⟩, ⟨0, 4, .ro, .plain, 0, []⟩]⟩,
  ⟨0x20800, 0, 1, [⟨31, 1, .w1s, .plain, 0, []⟩, ⟨12, 4, .ro, .plain, 0, []⟩, ⟨8, 4, .ro, .plain, 0, []⟩, ⟨4, 4, .ro, .plain, 1, []⟩, ⟨3, 1, .ro, .plain, 0, []⟩, ⟨2, 1, .ro, .plain, 0, []⟩, ⟨1, 1, .w1c, .plain, 0, []⟩, ⟨0, 1, .ro, .plain, 0, []⟩]⟩,
  ⟨0x20810, 0, 1, [⟨24, 8, .rw, .plain, 0x14, [(1, 0xff)]⟩, ⟨16, 2, .rw, .plain, 0, [(0, 2)]⟩, ⟨8, 8, .rw, .plain, 1, [(1, 0xff)]⟩, ⟨0, 8, .rw, .plain, 0, []⟩]⟩,
  ⟨0x20814, 0, 1, [⟨8, 3, .ro, .plain, 0, []⟩, ⟨4, 1, .w1c, .plain, 0, []⟩, ⟨3, 1, .w1c, .plain, 0, []⟩, ⟨2, 1, .w1c, .plain, 0, []⟩, ⟨1, 1, .w1c, .plain, 0, []⟩, ⟨0, 1, .ro, .plain, 0, []⟩]⟩]

/-- Register rows of the global block 0x3: TIDE_CTRL, TIDE_STATUS, TIDE_NUM, TIDE_POS, TIDE_LAST, TIDE_THROTTLE, TIDE_THR_APPLIED, TIDE_SLICE, TIDE_LOAD_BASE, TIDE_CMD, TIDE_START, TIDE_LOAD_STATUS, TIDE_LOAD_DETAIL, TIDE_STRETCHED, TIDE_SKIPPED, TIDE_MAX, TIDE_STALL_STRETCH_LO, TIDE_STALL_STRETCH_HI, TIDE_STALL_FREEZE_LO, TIDE_STALL_FREEZE_HI. -/
def tideRows : List RegRow := [
  ⟨0x30000, 0, 1, [⟨31, 1, .w1s, .plain, 0, []⟩, ⟨0, 11, .rw, .plain, 0x40, [(0x10, 0x400)]⟩]⟩,
  ⟨0x30004, 0, 1, [⟨11, 1, .ro, .plain, 0, []⟩, ⟨10, 1, .w1c, .plain, 0, []⟩, ⟨9, 1, .w1c, .plain, 0, []⟩, ⟨8, 1, .w1c, .plain, 0, []⟩, ⟨7, 1, .w1c, .plain, 0, []⟩, ⟨6, 1, .ro, .plain, 0, []⟩, ⟨5, 1, .ro, .plain, 0, []⟩, ⟨4, 1, .ro, .plain, 0, []⟩, ⟨0, 4, .ro, .plain, 0, []⟩]⟩,
  ⟨0x30008, 4, 2, [⟨0, 32, .ro, .plain, 0, []⟩]⟩,
  ⟨0x30010, 0, 1, [⟨14, 18, .ro, .plain, 0, []⟩, ⟨0, 14, .ro, .plain, 0, []⟩]⟩,
  ⟨0x30014, 0, 1, [⟨28, 4, .ro, .plain, 0, []⟩, ⟨0, 24, .ro, .plain, 0, []⟩]⟩,
  ⟨0x30018, 0, 1, [⟨16, 2, .rw, .plain, 0, [(0, 2)]⟩, ⟨8, 8, .rw, .plain, 0, []⟩, ⟨0, 8, .rw, .plain, 0, []⟩]⟩,
  ⟨0x3001c, 0, 1, [⟨16, 2, .ro, .plain, 0, []⟩, ⟨8, 8, .ro, .plain, 0, []⟩, ⟨0, 8, .ro, .plain, 0, []⟩]⟩,
  ⟨0x30020, 0, 1, [⟨24, 8, .rw, .plain, 0xa, [(1, 0xff)]⟩, ⟨16, 4, .ro, .plain, 0, []⟩, ⟨15, 1, .ro, .plain, 0, []⟩, ⟨8, 6, .ro, .plain, 0, []⟩, ⟨0, 8, .ro, .plain, 0, []⟩]⟩,
  ⟨0x30024, 0, 1, [⟨0, 26, .rw, .plain, 0, []⟩]⟩,
  ⟨0x30028, 0, 1, [⟨0, 4, .wo, .plain, 0, []⟩]⟩,
  ⟨0x30030, 4, 2, [⟨0, 32, .rw, .plain, 0, []⟩]⟩,
  ⟨0x30038, 0, 1, [⟨27, 5, .ro, .plain, 0, []⟩, ⟨24, 3, .ro, .plain, 0, []⟩, ⟨0, 24, .ro, .plain, 0, []⟩]⟩,
  ⟨0x3003c, 0, 1, [⟨0, 6, .ro, .plain, 0, []⟩]⟩,
  ⟨0x30040, 0, 1, [⟨0, 32, .ro, .plain, 0, []⟩]⟩,
  ⟨0x30044, 0, 1, [⟨0, 32, .ro, .plain, 0, []⟩]⟩,
  ⟨0x30048, 0, 1, [⟨0, 24, .ro, .plain, 0, []⟩]⟩,
  ⟨0x30100, 0x10, 16, [⟨0, 32, .ro, .plain, 0, []⟩]⟩,
  ⟨0x30104, 0x10, 16, [⟨0, 32, .ro, .plain, 0, []⟩]⟩,
  ⟨0x30108, 0x10, 16, [⟨0, 32, .ro, .plain, 0, []⟩]⟩,
  ⟨0x3010c, 0x10, 16, [⟨0, 32, .ro, .plain, 0, []⟩]⟩]

/-- Register rows of the global block 0x4: MBX_DB, MBX_DONE, MBX_BUSY, MBX_OWNER, MBX_REQ, MBX_RSP. -/
def mbxRows : List RegRow := [
  ⟨0x48000, 4, 2, [⟨0, 32, .w1s, .plain, 0, []⟩]⟩,
  ⟨0x48008, 4, 2, [⟨0, 32, .w1c, .plain, 0, []⟩]⟩,
  ⟨0x48010, 4, 2, [⟨0, 32, .ro, .plain, 0, []⟩]⟩,
  ⟨0x48100, 4, 64, [⟨0, 8, .ro, .plain, 0xff, []⟩]⟩,
  ⟨0x40000, 4, 4096, [⟨0, 32, .rw, .plain, 0, []⟩]⟩,
  ⟨0x44000, 4, 4096, [⟨0, 32, .ro, .plain, 0, []⟩]⟩]

/-- Register rows of the global block 0x5: HP_CTRL, HP_STATUS, HP_YCT_PORT, HP_VLAN, HP_PCP, HP_PFC, HP_SESSION, HP_IPV4, HP_IPV6, HP_MAC_LO, HP_MAC_HI, HP_RX_FRAMES, HP_RX_DROP_L2, HP_RX_DROP_NET, HP_RX_DROP_YCT, HP_AUTH_FAIL, HP_REPLAY, HP_RESENT, HP_EVT_LOST, HP_TX_FRAMES, HP_FEC_CORR, HP_FEC_UNCORR. -/
def hpRows : List RegRow := [
  ⟨0x50000, 0, 1, [⟨31, 1, .w1s, .plain, 0, []⟩, ⟨1, 1, .rw, .plain, 0, []⟩, ⟨0, 1, .rw, .plain, 0, []⟩]⟩,
  ⟨0x50004, 0, 1, [⟨4, 4, .ro, .plain, 0, []⟩, ⟨1, 1, .ro, .plain, 0, []⟩, ⟨0, 1, .ro, .plain, 0, []⟩]⟩,
  ⟨0x50008, 0, 1, [⟨0, 16, .rw, .plain, 0xa2e4, [(1, 0xffff)]⟩]⟩,
  ⟨0x5000c, 0, 1, [⟨12, 1, .rw, .plain, 0, []⟩, ⟨0, 12, .rw, .plain, 0, [(0, 0xffe)]⟩]⟩,
  ⟨0x50010, 0, 1, [⟨12, 3, .rw, .plain, 4, []⟩, ⟨8, 3, .rw, .plain, 3, []⟩, ⟨4, 3, .rw, .plain, 5, []⟩, ⟨0, 3, .rw, .plain, 6, []⟩]⟩,
  ⟨0x50014, 0, 1, [⟨8, 8, .rw, .plain, 0, []⟩, ⟨0, 8, .rw, .plain, 0, []⟩]⟩,
  ⟨0x50018, 0, 1, [⟨11, 1, .ro, .plain, 0, []⟩, ⟨8, 3, .ro, .plain, 0, []⟩, ⟨0, 8, .ro, .plain, 0, []⟩]⟩,
  ⟨0x50020, 0, 1, [⟨0, 32, .rw, .plain, 0, []⟩]⟩,
  ⟨0x50030, 4, 4, [⟨0, 32, .rw, .plain, 0, []⟩]⟩,
  ⟨0x50040, 0, 1, [⟨0, 32, .ro, .kept, 1, []⟩]⟩,
  ⟨0x50044, 0, 1, [⟨0, 16, .ro, .kept, 0x200, []⟩]⟩,
  ⟨0x50100, 0, 1, [⟨0, 32, .ro, .plain, 0, []⟩]⟩,
  ⟨0x50104, 0, 1, [⟨0, 32, .ro, .plain, 0, []⟩]⟩,
  ⟨0x50108, 0, 1, [⟨0, 32, .ro, .plain, 0, []⟩]⟩,
  ⟨0x5010c, 0, 1, [⟨0, 32, .ro, .plain, 0, []⟩]⟩,
  ⟨0x50110, 0, 1, [⟨0, 32, .ro, .plain, 0, []⟩]⟩,
  ⟨0x50114, 0, 1, [⟨0, 32, .ro, .plain, 0, []⟩]⟩,
  ⟨0x50118, 0, 1, [⟨0, 32, .ro, .plain, 0, []⟩]⟩,
  ⟨0x5011c, 0, 1, [⟨0, 32, .ro, .plain, 0, []⟩]⟩,
  ⟨0x50120, 0, 1, [⟨0, 32, .ro, .plain, 0, []⟩]⟩,
  ⟨0x50124, 0, 1, [⟨0, 32, .ro, .plain, 0, []⟩]⟩,
  ⟨0x50128, 0, 1, [⟨0, 32, .ro, .plain, 0, []⟩]⟩]

/-- Register rows of the global block 0x6: LNK_CTRL, LNK_STATUS, LNK_PLAN, LNK_PARTNER, LNK_PARTNER_SERIAL_LO, LNK_PARTNER_SERIAL_HI, LNK_TX_FLITS_LO, LNK_TX_FLITS_HI, LNK_RX_FLITS_LO, LNK_RX_FLITS_HI, LNK_CRC_ERR, LNK_FEC_CORR, LNK_FEC_UNCORR, LNK_RETRY, LNK_DOWN, LNK_ROUTE_DROP, LNK_CREDIT_WAIT. -/
def lnkRows : List RegRow := [
  ⟨0x60000, 0x1000, 6, [⟨31, 1, .w1s, .plain, 0, []⟩, ⟨0, 1, .rw, .plain, 0, []⟩]⟩,
  ⟨0x60004, 0x1000, 6, [⟨19, 1, .w1c, .plain, 0, []⟩, ⟨18, 1, .w1c, .plain, 0, []⟩, ⟨17, 1, .w1c, .plain, 0, []⟩, ⟨16, 1, .w1c, .plain, 0, []⟩, ⟨12, 4, .ro, .plain, 0, []⟩, ⟨11, 1, .ro, .plain, 0, []⟩, ⟨10, 1, .ro, .plain, 0, []⟩, ⟨9, 1, .ro, .plain, 0, []⟩, ⟨4, 4, .ro, .plain, 0, []⟩, ⟨0, 4, .ro, .plain, 0, []⟩]⟩,
  ⟨0x60008, 0x1000, 6, [⟨31, 1, .rw, .plain, 0, []⟩, ⟨16, 3, .rw, .plain, 0, [(0, 5)]⟩, ⟨0, 15, .rw, .plain, 0, []⟩]⟩,
  ⟨0x6000c, 0x1000, 6, [⟨31, 1, .ro, .plain, 0, []⟩, ⟨16, 3, .ro, .plain, 0, []⟩, ⟨15, 1, .ro, .plain, 0, []⟩, ⟨0, 15, .ro, .plain, 0, []⟩]⟩,
  ⟨0x60010, 0x1000, 6, [⟨0, 32, .ro, .plain, 0, []⟩]⟩,
  ⟨0x60014, 0x1000, 6, [⟨0, 32, .ro, .plain, 0, []⟩]⟩,
  ⟨0x60100, 0x1000, 6, [⟨0, 32, .ro, .plain, 0, []⟩]⟩,
  ⟨0x60104, 0x1000, 6, [⟨0, 32, .ro, .plain, 0, []⟩]⟩,
  ⟨0x60108, 0x1000, 6, [⟨0, 32, .ro, .plain, 0, []⟩]⟩,
  ⟨0x6010c, 0x1000, 6, [⟨0, 32, .ro, .plain, 0, []⟩]⟩,
  ⟨0x60110, 0x1000, 6, [⟨0, 32, .ro, .plain, 0, []⟩]⟩,
  ⟨0x60114, 0x1000, 6, [⟨0, 32, .ro, .plain, 0, []⟩]⟩,
  ⟨0x60118, 0x1000, 6, [⟨0, 32, .ro, .plain, 0, []⟩]⟩,
  ⟨0x6011c, 0x1000, 6, [⟨0, 32, .ro, .plain, 0, []⟩]⟩,
  ⟨0x60120, 0x1000, 6, [⟨0, 32, .ro, .plain, 0, []⟩]⟩,
  ⟨0x60124, 0x1000, 6, [⟨0, 32, .ro, .plain, 0, []⟩]⟩,
  ⟨0x60128, 0x1000, 6, [⟨0, 32, .ro, .plain, 0, []⟩]⟩]

/-- Register rows of the global block 0x7: MON_CTRL, MON_STATUS, MON_RMASK_A, MON_RMASK_B, MON_JSEQ_A, MON_JSEQ_B, MON_RES_A, MON_RES_B, MON_JRES_A, MON_JRES_B, MON_PLAUS, MON_INT_CFG, MON_INT_WIN, MON_INT_E, MON_INT_AVG, MON_INT_PMAX, MON_INT_P, MON_ENERGY, MON_SCAL. -/
def monRows : List RegRow := [
  ⟨0x70000, 0, 1, [⟨16, 14, .rw, .plain, 0x64, [(0xa, 0x2710)]⟩, ⟨4, 1, .w1s, .plain, 0, []⟩, ⟨2, 1, .rw, .plain, 1, []⟩, ⟨1, 1, .rw, .plain, 1, []⟩, ⟨0, 1, .rw, .plain, 1, []⟩]⟩,
  ⟨0x70004, 0, 1, [⟨12, 1, .w1c, .plain, 0, []⟩, ⟨11, 1, .w1c, .plain, 0, []⟩, ⟨10, 1, .w1c, .plain, 0, []⟩, ⟨9, 1, .ro, .kept, 1, []⟩, ⟨5, 3, .ro, .plain, 0, []⟩, ⟨0, 3, .ro, .plain, 0, []⟩]⟩,
  ⟨0x70010, 0, 1, [⟨1, 31, .rw, .plain, 0x7fffb7ff, []⟩, ⟨0, 1, .ro, .plain, 1, []⟩]⟩,
  ⟨0x70014, 0, 1, [⟨1, 31, .rw, .plain, 0x3fff, []⟩, ⟨0, 1, .ro, .plain, 1, []⟩]⟩,
  ⟨0x70020, 4, 5, [⟨24, 3, .rw, .plain, 0, [(0, 4)]⟩, ⟨15, 5, .rw, .plain, 0, []⟩, ⟨10, 5, .rw, .plain, 0, []⟩, ⟨5, 5, .rw, .plain, 0, []⟩, ⟨0, 5, .rw, .plain, 0, []⟩]⟩,
  ⟨0x70040, 4, 5, [⟨24, 3, .rw, .plain, 0, [(0, 4)]⟩, ⟨15, 5, .rw, .plain, 0, []⟩, ⟨10, 5, .rw, .plain, 0, []⟩, ⟨5, 5, .rw, .plain, 0, []⟩, ⟨0, 5, .rw, .plain, 0, []⟩]⟩,
  ⟨0x70100, 4, 32, [⟨16, 16, .ro, .plain, 0, []⟩, ⟨15, 1, .ro, .plain, 0, []⟩, ⟨12, 3, .ro, .plain, 0, []⟩, ⟨0, 12, .ro, .plain, 0, []⟩]⟩,
  ⟨0x70180, 4, 32, [⟨16, 16, .ro, .plain, 0, []⟩, ⟨15, 1, .ro, .plain, 0, []⟩, ⟨12, 3, .ro, .plain, 0, []⟩, ⟨0, 12, .ro, .plain, 0, []⟩]⟩,
  ⟨0x70200, 4, 4, [⟨16, 16, .ro, .plain, 0, []⟩, ⟨15, 1, .ro, .plain, 0, []⟩, ⟨12, 3, .ro, .plain, 0, []⟩, ⟨0, 12, .ro, .plain, 0, []⟩]⟩,
  ⟨0x70210, 4, 4, [⟨16, 16, .ro, .plain, 0, []⟩, ⟨15, 1, .ro, .plain, 0, []⟩, ⟨12, 3, .ro, .plain, 0, []⟩, ⟨0, 12, .ro, .plain, 0, []⟩]⟩,
  ⟨0x70240, 0, 1, [⟨16, 8, .ro, .plain, 0, []⟩, ⟨14, 2, .ro, .plain, 0, []⟩, ⟨0, 6, .rw, .plain, 8, [(1, 0x3f)]⟩]⟩,
  ⟨0x70300, 0, 1, [⟨30, 2, .rw, .plain, 0, [(0, 2)]⟩, ⟨0, 20, .rw, .plain, 0x4e20, [(0x3e8, 0xf4240)]⟩]⟩,
  ⟨0x70308, 4, 2, [⟨0, 32, .ro, .plain, 0, []⟩]⟩,
  ⟨0x70310, 0, 1, [⟨0, 32, .ro, .plain, 0, []⟩]⟩,
  ⟨0x70314, 0, 1, [⟨16, 16, .ro, .plain, 0, []⟩, ⟨0, 16, .ro, .plain, 0, []⟩]⟩,
  ⟨0x70318, 0, 1, [⟨17, 1, .ro, .plain, 0, []⟩, ⟨16, 1, .ro, .plain, 0, []⟩, ⟨0, 16, .ro, .plain, 0, []⟩]⟩,
  ⟨0x7031c, 0, 1, [⟨16, 16, .ro, .plain, 0, []⟩, ⟨0, 16, .ro, .plain, 0, []⟩]⟩,
  ⟨0x70320, 4, 2, [⟨0, 32, .ro, .plain, 0, []⟩]⟩,
  ⟨0x70400, 4, 4, [⟨16, 16, .ro, .loaded, 0, []⟩, ⟨0, 16, .ro, .loaded, 0, []⟩]⟩]

/-- Register rows of the global block 0x8: THM_CTRL, THM_DIODE, THM_DIODE_TIME, THM_TRIP, THM_TRIP_CNT. -/
def thmRows : List RegRow := [
  ⟨0x80000, 0, 1, [⟨0, 1, .w1s, .plain, 0, []⟩]⟩,
  ⟨0x80004, 0, 1, [⟨31, 1, .ro, .plain, 0, []⟩, ⟨0, 16, .ro, .plain, 0, []⟩]⟩,
  ⟨0x80008, 4, 2, [⟨0, 32, .ro, .plain, 0, []⟩]⟩,
  ⟨0x80010, 0, 1, [⟨31, 1, .ro, .plain, 0, []⟩, ⟨30, 1, .ro, .plain, 0, []⟩, ⟨29, 1, .w1c, .plain, 0, []⟩, ⟨16, 8, .ro, .plain, 0x5f, []⟩, ⟨8, 8, .ro, .plain, 0x73, []⟩]⟩,
  ⟨0x80014, 0, 1, [⟨0, 32, .ro, .plain, 0, []⟩]⟩]

/-- Register rows of the global block 0x9: SEC_CTRL, SEC_STATUS, SEC_ALARM, SEC_POLICY, SEC_AUTH, SEC_SLOT, SEC_KEY_DATA, SEC_KEY_CMD, SEC_KEY_CHK, SEC_KEY_CNT, SEC_XMSS_LEFT, SEC_SVN_MIN, SEC_VERIFY, SEC_ROOT_REVOKE. -/
def secRows : List RegRow := [
  ⟨0x90000, 0, 1, [⟨31, 1, .w1s, .plain, 0, []⟩, ⟨0, 1, .rw, .kept, 0, []⟩]⟩,
  ⟨0x90004, 0, 1, [⟨28, 4, .ro, .kept, 0, []⟩, ⟨0, 8, .ro, .plain, 0, []⟩]⟩,
  ⟨0x90008, 0, 1, [⟨0, 6, .w1c, .plain, 0, []⟩]⟩,
  ⟨0x9000c, 0, 1, [⟨0, 12, .rw, .kept, 0x505, []⟩]⟩,
  ⟨0x90010, 0, 1, [⟨0, 4, .rw, .plain, 5, [(2, 0xf)]⟩]⟩,
  ⟨0x90100, 4, 8, [⟨2, 1, .ro, .kept, 0, []⟩, ⟨1, 1, .ro, .kept, 0, []⟩, ⟨0, 1, .ro, .kept, 0, []⟩]⟩,
  ⟨0x90200, 4, 8, [⟨0, 32, .wo, .plain, 0, []⟩]⟩,
  ⟨0x90220, 0, 1, [⟨31, 1, .w1s, .plain, 0, []⟩, ⟨8, 4, .ro, .plain, 0, []⟩, ⟨6, 1, .rw, .plain, 0, []⟩, ⟨5, 1, .rw, .plain, 0, []⟩, ⟨4, 1, .rw, .plain, 0, []⟩, ⟨0, 3, .rw, .plain, 0, []⟩]⟩,
  ⟨0x90224, 0, 1, [⟨0, 32, .rw, .plain, 0, []⟩]⟩,
  ⟨0x90228, 0, 1, [⟨0, 32, .ro, .kept, 0, []⟩]⟩,
  ⟨0x90300, 0, 1, [⟨0, 21, .ro, .kept, 0x100000, []⟩]⟩,
  ⟨0x90304, 0, 1, [⟨0, 32, .rw, .kept, 0, []⟩]⟩,
  ⟨0x90308, 0, 1, [⟨0, 4, .ro, .plain, 0, []⟩]⟩,
  ⟨0x9030c, 0, 1, [⟨0, 4, .w1s, .kept, 0, []⟩]⟩]

/-- Register rows of the global block 0xa: STL_CTRL, STL_STATUS, STL_HEAD, STL_RING_FIRST, STL_LOST, STL_COPY_SEL, STL_COPY_DATA, STL_ALERT, STL_ALERT_MASK. -/
def stlRows : List RegRow := [
  ⟨0xa0000, 0, 1, [⟨31, 1, .w1s, .plain, 0, []⟩, ⟨0, 1, .rw, .plain, 1, []⟩]⟩,
  ⟨0xa0004, 0, 1, [⟨2, 1, .ro, .plain, 0, []⟩, ⟨1, 1, .w1c, .plain, 0, []⟩, ⟨0, 1, .ro, .plain, 0, []⟩]⟩,
  ⟨0xa0008, 0, 1, [⟨0, 32, .ro, .plain, 0, []⟩]⟩,
  ⟨0xa000c, 0, 1, [⟨0, 32, .ro, .plain, 0, []⟩]⟩,
  ⟨0xa0010, 0, 1, [⟨0, 32, .ro, .plain, 0, []⟩]⟩,
  ⟨0xa0020, 0, 1, [⟨0, 8, .rw, .plain, 0, []⟩]⟩,
  ⟨0xa0040, 4, 16, [⟨0, 32, .ro, .plain, 0, []⟩]⟩,
  ⟨0xa0080, 0, 1, [⟨0, 9, .w1c, .plain, 0, []⟩]⟩,
  ⟨0xa0084, 0, 1, [⟨8, 1, .rw, .plain, 0, []⟩, ⟨0, 7, .rw, .plain, 0, []⟩]⟩]

/-- Register rows of the global block 0xb: PTB_CTRL, PTB_CFG, PTB_TARGET, PTB_AMOUNT, PTB_COUNT, PTB_FIRED. -/
def ptbRows : List RegRow := [
  ⟨0xb0000, 0, 1, [⟨31, 1, .w1s, .plain, 0, []⟩, ⟨0, 6, .ro, .plain, 0, []⟩]⟩,
  ⟨0xb0100, 0x20, 6, [⟨0, 1, .rw, .plain, 0, []⟩]⟩,
  ⟨0xb0104, 0x20, 6, [⟨0, 32, .rw, .plain, 0, []⟩]⟩,
  ⟨0xb0108, 0x20, 6, [⟨0, 16, .rw, .plain, 0, []⟩]⟩,
  ⟨0xb010c, 0x20, 6, [⟨0, 16, .rw, .plain, 0, []⟩]⟩,
  ⟨0xb0110, 0x20, 6, [⟨0, 32, .ro, .plain, 0, []⟩]⟩]

/-- Register rows of the global block 0xc: EDMA_CFG, EDMA_DONE, EDMA_ERR, EDMA_ACTIVE, EDMA_CH_SRC_LO, EDMA_CH_SRC_HI, EDMA_CH_DST_LO, EDMA_CH_DST_HI, EDMA_CH_LEN, EDMA_CH_CTRL, EDMA_CH_NEXT_LO, EDMA_CH_NEXT_HI, EDMA_CH_CMD, EDMA_CH_CFG, EDMA_CH_STATUS, EDMA_CH_REMAIN, EDMA_CH_CRC_LAST, EDMA_CH_DESC_CNT. -/
def edgeDmaRows : List RegRow := [
  ⟨0xc0000, 0, 1, [⟨16, 9, .rw, .plain, 0x80, [(0x10, 0x200)]⟩, ⟨0, 1, .rw, .plain, 0, []⟩]⟩,
  ⟨0xc0004, 0, 1, [⟨0, 32, .w1c, .plain, 0, []⟩]⟩,
  ⟨0xc0008, 0, 1, [⟨0, 32, .w1c, .plain, 0, []⟩]⟩,
  ⟨0xc000c, 0, 1, [⟨0, 32, .ro, .plain, 0, []⟩]⟩,
  ⟨0xc0100, 0x40, 32, [⟨0, 32, .rw, .plain, 0, []⟩]⟩,
  ⟨0xc0104, 0x40, 32, [⟨0, 32, .rw, .plain, 0, []⟩]⟩,
  ⟨0xc0108, 0x40, 32, [⟨0, 32, .rw, .plain, 0, []⟩]⟩,
  ⟨0xc010c, 0x40, 32, [⟨0, 32, .rw, .plain, 0, []⟩]⟩,
  ⟨0xc0110, 0x40, 32, [⟨0, 32, .rw, .plain, 0, []⟩]⟩,
  ⟨0xc0114, 0x40, 32, [⟨0, 32, .rw, .plain, 0, []⟩]⟩,
  ⟨0xc0118, 0x40, 32, [⟨0, 32, .rw, .plain, 0, []⟩]⟩,
  ⟨0xc011c, 0x40, 32, [⟨0, 32, .rw, .plain, 0, []⟩]⟩,
  ⟨0xc0120, 0x40, 32, [⟨2, 1, .w1s, .plain, 0, []⟩, ⟨1, 1, .w1s, .plain, 0, []⟩, ⟨0, 1, .w1s, .plain, 0, []⟩]⟩,
  ⟨0xc0124, 0x40, 32, [⟨0, 2, .rw, .plain, 0, []⟩]⟩,
  ⟨0xc0128, 0x40, 32, [⟨12, 4, .ro, .plain, 0, []⟩, ⟨0, 4, .ro, .plain, 0, []⟩]⟩,
  ⟨0xc012c, 0x40, 32, [⟨0, 32, .ro, .plain, 0, []⟩]⟩,
  ⟨0xc0130, 0x40, 32, [⟨0, 32, .ro, .plain, 0, []⟩]⟩,
  ⟨0xc0134, 0x40, 32, [⟨0, 32, .ro, .plain, 0, []⟩]⟩]

/-- Register rows of the global block 0xd: ECRC_CFG, ECRC_POLY, ECRC_INIT, ECRC_XOROUT, ECRC_VALUE, ECRC_RESULT, ECRC_CMD, ECRC_STATUS, ECRC_FEED8, ECRC_FEED16, ECRC_FEED32. -/
def edgeCrcRows : List RegRow := [
  ⟨0xd0000, 0x100, 8, [⟨8, 2, .rw, .plain, 2, [(0, 2)]⟩, ⟨5, 1, .rw, .plain, 1, []⟩, ⟨4, 1, .rw, .plain, 1, []⟩, ⟨0, 2, .rw, .plain, 0, []⟩]⟩,
  ⟨0xd0004, 0x100, 8, [⟨0, 32, .rw, .plain, 0x1edc6f41, []⟩]⟩,
  ⟨0xd0008, 0x100, 8, [⟨0, 32, .rw, .plain, 0xffffffff, []⟩]⟩,
  ⟨0xd000c, 0x100, 8, [⟨0, 32, .rw, .plain, 0xffffffff, []⟩]⟩,
  ⟨0xd0010, 0x100, 8, [⟨0, 32, .rw, .plain, 0, []⟩]⟩,
  ⟨0xd0014, 0x100, 8, [⟨0, 32, .ro, .plain, 0, []⟩]⟩,
  ⟨0xd0018, 0x100, 8, [⟨0, 1, .w1s, .plain, 0, []⟩]⟩,
  ⟨0xd001c, 0x100, 8, [⟨2, 1, .w1c, .plain, 0, []⟩, ⟨1, 1, .ro, .plain, 0, []⟩, ⟨0, 1, .ro, .plain, 0, []⟩]⟩,
  ⟨0xd0020, 0x100, 8, [⟨0, 8, .wo, .plain, 0, []⟩]⟩,
  ⟨0xd0024, 0x100, 8, [⟨0, 16, .wo, .plain, 0, []⟩]⟩,
  ⟨0xd0028, 0x100, 8, [⟨0, 32, .wo, .plain, 0, []⟩]⟩]

/-- Register rows of tile offset 0x800000: TILE_ID, ENG_CTRL, ENG_STATUS, ENG_FAULT_INFO0, ENG_FAULT_INFO1, ENG_FAULT_INFO2, ENG_FAULT_CNT, ENG_BADDESC_CNT, ENG_LATE_CNT, ENG_BANK_WAIT_CNT, ENG_TIDE_DONE, ENG_DESC_RETIRED, ENG_REQ_INFL, ENG_REQ_HWM, ENG_THREAD, ENG_POOL_STATUS. -/
def tile80Rows : List RegRow := [
  ⟨0x800000, 0, 1, [⟨31, 1, .ro, .kept, 0, []⟩, ⟨0, 6, .ro, .kept, 0, []⟩]⟩,
  ⟨0x800004, 0, 1, [⟨31, 1, .w1s, .plain, 0, []⟩, ⟨0, 1, .rw, .plain, 0, []⟩]⟩,
  ⟨0x800008, 0, 1, [⟨8, 1, .ro, .plain, 1, []⟩, ⟨4, 1, .w1c, .plain, 0, []⟩, ⟨3, 1, .w1c, .plain, 0, []⟩, ⟨2, 1, .w1c, .plain, 0, []⟩, ⟨1, 1, .w1c, .plain, 0, []⟩]⟩,
  ⟨0x800010, 0, 1, [⟨31, 1, .w1c, .plain, 0, []⟩, ⟨28, 3, .ro, .plain, 0, []⟩, ⟨22, 6, .ro, .plain, 0, []⟩, ⟨8, 8, .ro, .plain, 0, []⟩, ⟨0, 8, .ro, .plain, 0, []⟩]⟩,
  ⟨0x800014, 0, 1, [⟨0, 24, .ro, .plain, 0, []⟩]⟩,
  ⟨0x800018, 0, 1, [⟨0, 16, .ro, .plain, 0, []⟩]⟩,
  ⟨0x800020, 0, 1, [⟨0, 32, .ro, .plain, 0, []⟩]⟩,
  ⟨0x800024, 0, 1, [⟨0, 32, .ro, .plain, 0, []⟩]⟩,
  ⟨0x800028, 0, 1, [⟨0, 32, .ro, .plain, 0, []⟩]⟩,
  ⟨0x80002c, 0, 1, [⟨0, 32, .ro, .plain, 0, []⟩]⟩,
  ⟨0x800030, 0, 1, [⟨0, 32, .ro, .plain, 0, []⟩]⟩,
  ⟨0x800034, 4, 2, [⟨0, 32, .ro, .plain, 0, []⟩]⟩,
  ⟨0x800040, 0, 1, [⟨16, 11, .ro, .plain, 0, []⟩, ⟨0, 11, .ro, .plain, 0, []⟩]⟩,
  ⟨0x800044, 0, 1, [⟨31, 1, .wo, .plain, 0, []⟩, ⟨0, 11, .ro, .plain, 0, []⟩]⟩,
  ⟨0x800100, 4, 64, [⟨16, 16, .ro, .plain, 0, []⟩, ⟨8, 4, .ro, .plain, 0, []⟩, ⟨4, 2, .rw, .plain, 0, []⟩, ⟨0, 4, .ro, .plain, 0, []⟩]⟩,
  ⟨0x800200, 0, 1, [⟨16, 9, .ro, .plain, 0, []⟩, ⟨0, 9, .ro, .plain, 0, []⟩]⟩]

/-- Register rows of tile offset 0x810000: ENG_RGN_BASE, ENG_RGN_LIMIT. -/
def tile81Rows : List RegRow := [
  ⟨0x810000, 8, 255, [⟨0, 17, .rw, .plain, 0, []⟩]⟩,
  ⟨0x810004, 8, 255, [⟨31, 1, .rw, .plain, 0, []⟩, ⟨30, 1, .rw, .plain, 0, []⟩, ⟨29, 1, .rw, .plain, 0, []⟩, ⟨28, 1, .rw, .plain, 0, []⟩, ⟨27, 1, .rw, .plain, 0, []⟩, ⟨26, 1, .rw, .plain, 0, []⟩, ⟨25, 1, .rw, .plain, 0, []⟩, ⟨0, 18, .rw, .plain, 0, [(1, 0x20000)]⟩]⟩]

/-- Register rows of tile offset 0x880000: TILE_AMAP, TILE_SPARE, SND_TILE_CTRL, SND_TILE_SEED, SND_TILE_STATUS, SND_TILE_UNIT, SND_TILE_CAPT, SND_TILE_DONE, SND_TILE_FAIL, SND_TILE_SKIP_RING, SND_TILE_SKIP_THREAD, SND_TILE_SKIP_REFRESH, SND_TILE_SKIP_POISON, SND_TILE_COL_EXCL, CAL_TILE_TEMP. -/
def tile88Rows : List RegRow := [
  ⟨0x880000, 4, 256, [⟨31, 1, .ro, .plain, 0, []⟩, ⟨30, 1, .ro, .plain, 0, []⟩, ⟨16, 9, .ro, .plain, 0x1ff, []⟩, ⟨0, 9, .ro, .plain, 0x1ff, []⟩]⟩,
  ⟨0x880400, 0, 1, [⟨31, 1, .ro, .plain, 0, []⟩, ⟨30, 1, .ro, .plain, 0, []⟩, ⟨29, 1, .w1c, .plain, 0, []⟩, ⟨16, 9, .ro, .plain, 0, []⟩, ⟨8, 2, .ro, .plain, 0, []⟩, ⟨0, 5, .ro, .plain, 0, []⟩]⟩,
  ⟨0x880800, 0, 1, [⟨31, 1, .w1s, .plain, 0, []⟩, ⟨16, 6, .rw, .plain, 0x18, [(0xc, 0x3c)]⟩, ⟨8, 8, .rw, .plain, 0x1e, []⟩, ⟨4, 4, .rw, .plain, 4, []⟩, ⟨0, 4, .rw, .plain, 1, [(0, 5)]⟩]⟩,
  ⟨0x880804, 0, 1, [⟨0, 32, .rw, .loaded, 1, [(1, 0xffffffff)]⟩]⟩,
  ⟨0x880808, 0, 1, [⟨16, 13, .ro, .plain, 0, []⟩, ⟨3, 1, .w1c, .plain, 0, []⟩, ⟨2, 1, .w1c, .plain, 0, []⟩, ⟨1, 1, .w1c, .plain, 0, []⟩, ⟨0, 1, .w1c, .plain, 0, []⟩]⟩,
  ⟨0x88080c, 0, 1, [⟨0, 6, .rw, .plain, 0, []⟩]⟩,
  ⟨0x880810, 0, 1, [⟨0, 32, .ro, .plain, 0, []⟩]⟩,
  ⟨0x880814, 0, 1, [⟨0, 32, .ro, .plain, 0, []⟩]⟩,
  ⟨0x880818, 0, 1, [⟨0, 32, .ro, .plain, 0, []⟩]⟩,
  ⟨0x88081c, 0, 1, [⟨0, 32, .ro, .plain, 0, []⟩]⟩,
  ⟨0x880820, 0, 1, [⟨0, 32, .ro, .plain, 0, []⟩]⟩,
  ⟨0x880824, 0, 1, [⟨0, 32, .ro, .plain, 0, []⟩]⟩,
  ⟨0x880828, 0, 1, [⟨0, 32, .ro, .plain, 0, []⟩]⟩,
  ⟨0x88082c, 0, 1, [⟨0, 32, .ro, .plain, 0, []⟩]⟩,
  ⟨0x880900, 0, 1, [⟨16, 16, .rw, .plain, 0, []⟩, ⟨0, 16, .rw, .plain, 0x8000, []⟩]⟩]

/-- Register rows of tile offset 0x900000: ENG_ARITH_CTRL, ENG_ARITH_STATUS, ENG_Q_ZERO_CNT, ENG_Q_UNDER_CNT, ENG_Q_SAT_CNT, ENG_Q_POISON_CNT, ENG_D_RSVD_CNT, ENG_D_POISON_CNT, ENG_A_ZERO_CNT, ENG_RMS_OVF_CNT, ENG_NONFINITE_CNT, ENG_OUTL_FLAG, ENG_OUTL_CNT_KEPT, ENG_OUTL_CNT_DROP. -/
def tile90Rows : List RegRow := [
  ⟨0x900000, 0, 1, [⟨31, 1, .w1s, .plain, 0, []⟩, ⟨0, 8, .rw, .plain, 0x40, [(1, 0xff)]⟩]⟩,
  ⟨0x900004, 0, 1, [⟨7, 1, .w1c, .plain, 0, []⟩, ⟨6, 1, .w1c, .plain, 0, []⟩, ⟨5, 1, .w1c, .plain, 0, []⟩, ⟨4, 1, .w1c, .plain, 0, []⟩, ⟨3, 1, .w1c, .plain, 0, []⟩, ⟨2, 1, .w1c, .plain, 0, []⟩, ⟨1, 1, .w1c, .plain, 0, []⟩, ⟨0, 1, .w1c, .plain, 0, []⟩]⟩,
  ⟨0x900010, 0, 1, [⟨0, 32, .ro, .plain, 0, []⟩]⟩,
  ⟨0x900014, 0, 1, [⟨0, 32, .ro, .plain, 0, []⟩]⟩,
  ⟨0x900018, 0, 1, [⟨0, 32, .ro, .plain, 0, []⟩]⟩,
  ⟨0x90001c, 0, 1, [⟨0, 32, .ro, .plain, 0, []⟩]⟩,
  ⟨0x900020, 0, 1, [⟨0, 32, .ro, .plain, 0, []⟩]⟩,
  ⟨0x900024, 0, 1, [⟨0, 32, .ro, .plain, 0, []⟩]⟩,
  ⟨0x900028, 0, 1, [⟨0, 32, .ro, .plain, 0, []⟩]⟩,
  ⟨0x90002c, 0, 1, [⟨0, 32, .ro, .plain, 0, []⟩]⟩,
  ⟨0x900030, 0, 1, [⟨0, 32, .ro, .plain, 0, []⟩]⟩,
  ⟨0x900080, 4, 8, [⟨0, 32, .w1c, .plain, 0, []⟩]⟩,
  ⟨0x901000, 8, 256, [⟨0, 32, .ro, .plain, 0, []⟩]⟩,
  ⟨0x901004, 8, 256, [⟨0, 32, .ro, .plain, 0, []⟩]⟩]

/-- Register rows of tile offset 0x910000: ENG_LAYER_STAT_DROP, ENG_LAYER_STAT_CLIP, ENG_LAYER_STAT_LOST, ENG_LAYER_STAT_QSAT. -/
def tile91Rows : List RegRow := [
  ⟨0x910000, 0x10, 1024, [⟨0, 32, .ro, .plain, 0, []⟩]⟩,
  ⟨0x910004, 0x10, 1024, [⟨0, 32, .ro, .plain, 0, []⟩]⟩,
  ⟨0x910008, 0x10, 1024, [⟨0, 32, .ro, .plain, 0, []⟩]⟩,
  ⟨0x91000c, 0x10, 1024, [⟨0, 32, .ro, .plain, 0, []⟩]⟩]

/-- Register rows of tile offset 0xa00000: TDMA_CFG, TDMA_DONE, TDMA_ERR, TDMA_ACTIVE, TDMA_CH_SRC_LO, TDMA_CH_SRC_HI, TDMA_CH_DST_LO, TDMA_CH_DST_HI, TDMA_CH_LEN, TDMA_CH_CTRL, TDMA_CH_NEXT_LO, TDMA_CH_NEXT_HI, TDMA_CH_CMD, TDMA_CH_CFG, TDMA_CH_STATUS, TDMA_CH_REMAIN, TDMA_CH_CRC_LAST, TDMA_CH_DESC_CNT. -/
def tileA0Rows : List RegRow := [
  ⟨0xa00000, 0, 1, [⟨16, 9, .rw, .plain, 0x40, [(0x10, 0x80)]⟩, ⟨0, 1, .rw, .plain, 0, []⟩]⟩,
  ⟨0xa00004, 0, 1, [⟨0, 16, .w1c, .plain, 0, []⟩]⟩,
  ⟨0xa00008, 0, 1, [⟨0, 16, .w1c, .plain, 0, []⟩]⟩,
  ⟨0xa0000c, 0, 1, [⟨0, 16, .ro, .plain, 0, []⟩]⟩,
  ⟨0xa00100, 0x40, 16, [⟨0, 32, .rw, .plain, 0, []⟩]⟩,
  ⟨0xa00104, 0x40, 16, [⟨0, 32, .rw, .plain, 0, []⟩]⟩,
  ⟨0xa00108, 0x40, 16, [⟨0, 32, .rw, .plain, 0, []⟩]⟩,
  ⟨0xa0010c, 0x40, 16, [⟨0, 32, .rw, .plain, 0, []⟩]⟩,
  ⟨0xa00110, 0x40, 16, [⟨0, 32, .rw, .plain, 0, []⟩]⟩,
  ⟨0xa00114, 0x40, 16, [⟨0, 32, .rw, .plain, 0, []⟩]⟩,
  ⟨0xa00118, 0x40, 16, [⟨0, 32, .rw, .plain, 0, []⟩]⟩,
  ⟨0xa0011c, 0x40, 16, [⟨0, 32, .rw, .plain, 0, []⟩]⟩,
  ⟨0xa00120, 0x40, 16, [⟨2, 1, .w1s, .plain, 0, []⟩, ⟨1, 1, .w1s, .plain, 0, []⟩, ⟨0, 1, .w1s, .plain, 0, []⟩]⟩,
  ⟨0xa00124, 0x40, 16, [⟨0, 2, .rw, .plain, 0, []⟩]⟩,
  ⟨0xa00128, 0x40, 16, [⟨12, 4, .ro, .plain, 0, []⟩, ⟨0, 4, .ro, .plain, 0, []⟩]⟩,
  ⟨0xa0012c, 0x40, 16, [⟨0, 32, .ro, .plain, 0, []⟩]⟩,
  ⟨0xa00130, 0x40, 16, [⟨0, 32, .ro, .plain, 0, []⟩]⟩,
  ⟨0xa00134, 0x40, 16, [⟨0, 32, .ro, .plain, 0, []⟩]⟩]

/-- Register rows of tile offset 0xb00000: TCRC_CFG, TCRC_POLY, TCRC_INIT, TCRC_XOROUT, TCRC_VALUE, TCRC_RESULT, TCRC_CMD, TCRC_STATUS, TCRC_FEED8, TCRC_FEED16, TCRC_FEED32. -/
def tileB0Rows : List RegRow := [
  ⟨0xb00000, 0, 1, [⟨8, 2, .rw, .plain, 2, [(0, 2)]⟩, ⟨5, 1, .rw, .plain, 1, []⟩, ⟨4, 1, .rw, .plain, 1, []⟩, ⟨0, 2, .rw, .plain, 0, []⟩]⟩,
  ⟨0xb00004, 0, 1, [⟨0, 32, .rw, .plain, 0x1edc6f41, []⟩]⟩,
  ⟨0xb00008, 0, 1, [⟨0, 32, .rw, .plain, 0xffffffff, []⟩]⟩,
  ⟨0xb0000c, 0, 1, [⟨0, 32, .rw, .plain, 0xffffffff, []⟩]⟩,
  ⟨0xb00010, 0, 1, [⟨0, 32, .rw, .plain, 0, []⟩]⟩,
  ⟨0xb00014, 0, 1, [⟨0, 32, .ro, .plain, 0, []⟩]⟩,
  ⟨0xb00018, 0, 1, [⟨0, 1, .w1s, .plain, 0, []⟩]⟩,
  ⟨0xb0001c, 0, 1, [⟨2, 1, .w1c, .plain, 0, []⟩, ⟨1, 1, .ro, .plain, 0, []⟩, ⟨0, 1, .ro, .plain, 0, []⟩]⟩,
  ⟨0xb00020, 0, 1, [⟨0, 8, .wo, .plain, 0, []⟩]⟩,
  ⟨0xb00024, 0, 1, [⟨0, 16, .wo, .plain, 0, []⟩]⟩,
  ⟨0xb00028, 0, 1, [⟨0, 32, .wo, .plain, 0, []⟩]⟩]

/-- Register rows of one array of offset residuals: ENG_OFFR, ENG_OFFR_RSV. -/
def offrRows : List RegRow := [
  ⟨0, 4, 66, [⟨24, 8, .rw, .plain, 0, []⟩, ⟨16, 8, .rw, .plain, 0, []⟩, ⟨8, 8, .rw, .plain, 0, []⟩, ⟨0, 8, .rw, .plain, 0, []⟩]⟩,
  ⟨0x108, 4, 62, []⟩]

/-- Register rows of one physical array: ARR_CFG, ARR_CLIFF, ARR_STATE, ARR_STATUS, ARR_STROKE_CNT, ARR_SLACK_CNT, ARR_SPLIT_CNT, ARR_LOST_SPLIT_CNT, ARR_CLIP_CNT, ARR_REJECT_CNT, ARR_REF_CNT, ARR_REF_RESULT, ARR_PRED_MAX, ARR_COLMAP, CAL_OFFT, CAL_CREF, CAL_GAIN, CAL_CTRL, CAL_STATUS, CAL_QF, CAL_OFFA, CAL_CREFA, SND_CFG, SND_CAPT, SND_FAIL, SND_SKIP, SND_LAST, SND_MASK. -/
def arrRows : List RegRow := [
  ⟨0, 0, 1, [⟨4, 3, .rw, .plain, 0, []⟩, ⟨0, 2, .rw, .plain, 0, [(0, 2)]⟩]⟩,
  ⟨4, 0, 1, [⟨16, 4, .rw, .plain, 0, [(0, 8)]⟩, ⟨0, 13, .rw, .plain, 0x1fff, []⟩]⟩,
  ⟨8, 0, 1, [⟨8, 8, .ro, .plain, 0, []⟩, ⟨4, 1, .ro, .plain, 0, []⟩, ⟨0, 4, .ro, .plain, 0, []⟩]⟩,
  ⟨0xc, 0, 1, [⟨31, 1, .w1s, .plain, 0, []⟩, ⟨5, 1, .w1c, .plain, 0, []⟩, ⟨4, 1, .w1c, .plain, 0, []⟩, ⟨3, 1, .w1c, .plain, 0, []⟩, ⟨2, 1, .w1c, .plain, 0, []⟩, ⟨1, 1, .w1c, .plain, 0, []⟩, ⟨0, 1, .w1c, .plain, 0, []⟩]⟩,
  ⟨0x10, 4, 2, [⟨0, 32, .ro, .plain, 0, []⟩]⟩,
  ⟨0x18, 0, 1, [⟨0, 32, .ro, .plain, 0, []⟩]⟩,
  ⟨0x1c, 0, 1, [⟨0, 32, .ro, .plain, 0, []⟩]⟩,
  ⟨0x20, 0, 1, [⟨0, 32, .ro, .plain, 0, []⟩]⟩,
  ⟨0x24, 0, 1, [⟨0, 32, .ro, .plain, 0, []⟩]⟩,
  ⟨0x28, 0, 1, [⟨0, 32, .ro, .plain, 0, []⟩]⟩,
  ⟨0x2c, 0, 1, [⟨0, 32, .ro, .plain, 0, []⟩]⟩,
  ⟨0x30, 0, 1, [⟨31, 1, .ro, .plain, 0, []⟩, ⟨30, 1, .ro, .plain, 0, []⟩, ⟨16, 8, .ro, .plain, 0, []⟩, ⟨8, 8, .ro, .plain, 0, []⟩, ⟨0, 8, .ro, .plain, 0, []⟩]⟩,
  ⟨0x34, 0, 1, [⟨31, 1, .wo, .plain, 0, []⟩, ⟨0, 13, .ro, .plain, 0, []⟩]⟩,
  ⟨0x40, 4, 8, [⟨31, 1, .rw, .plain, 0, []⟩, ⟨30, 1, .ro, .plain, 0, []⟩, ⟨0, 8, .rw, .plain, 0, []⟩]⟩,
  ⟨0x400, 4, 66, [⟨24, 6, .rw, .loaded, 0, []⟩, ⟨16, 6, .rw, .loaded, 0, []⟩, ⟨8, 6, .rw, .loaded, 0, []⟩, ⟨0, 6, .rw, .loaded, 0, []⟩]⟩,
  ⟨0x540, 4, 16, [⟨24, 5, .rw, .loaded, 0, []⟩, ⟨16, 5, .rw, .loaded, 0, []⟩, ⟨8, 5, .rw, .loaded, 0, []⟩, ⟨0, 5, .rw, .loaded, 0, []⟩]⟩,
  ⟨0x580, 0, 1, [⟨8, 8, .ro, .loaded, 0, []⟩, ⟨0, 8, .rw, .loaded, 0, []⟩]⟩,
  ⟨0x584, 0, 1, [⟨1, 1, .w1s, .plain, 0, []⟩, ⟨0, 1, .rw, .plain, 0, []⟩]⟩,
  ⟨0x588, 0, 1, [⟨0, 8, .ro, .plain, 0, []⟩]⟩,
  ⟨0x58c, 0, 1, [⟨23, 1, .rw, .plain, 0, []⟩, ⟨16, 4, .rw, .plain, 0, []⟩, ⟨0, 8, .rw, .plain, 0, []⟩]⟩,
  ⟨0x600, 4, 66, [⟨24, 6, .ro, .loaded, 0, []⟩, ⟨16, 6, .ro, .loaded, 0, []⟩, ⟨8, 6, .ro, .loaded, 0, []⟩, ⟨0, 6, .ro, .loaded, 0, []⟩]⟩,
  ⟨0x740, 4, 16, [⟨24, 5, .ro, .loaded, 0, []⟩, ⟨16, 5, .ro, .loaded, 0, []⟩, ⟨8, 5, .ro, .loaded, 0, []⟩, ⟨0, 5, .ro, .loaded, 0, []⟩]⟩,
  ⟨0x800, 0, 1, [⟨16, 8, .rw, .plain, 0, []⟩, ⟨0, 4, .rw, .plain, 0, [(0, 8)]⟩]⟩,
  ⟨0x804, 0, 1, [⟨0, 32, .ro, .plain, 0, []⟩]⟩,
  ⟨0x808, 0, 1, [⟨0, 32, .ro, .plain, 0, []⟩]⟩,
  ⟨0x80c, 0, 1, [⟨0, 32, .ro, .plain, 0, []⟩]⟩,
  ⟨0x810, 0, 1, [⟨0, 32, .ro, .plain, 0, []⟩]⟩,
  ⟨0x820, 4, 8, [⟨0, 32, .rw, .plain, 0, []⟩]⟩]

/-- The rows of global block `b` (R76). -/
def globalRows (b : Nat) : List RegRow :=
  match b with
  | 0 => glbRows
  | 1 => bootRows
  | 2 => rstPwrRows
  | 3 => tideRows
  | 4 => mbxRows
  | 5 => hpRows
  | 6 => lnkRows
  | 7 => monRows
  | 8 => thmRows
  | 9 => secRows
  | 10 => stlRows
  | 11 => ptbRows
  | 12 => edgeDmaRows
  | 13 => edgeCrcRows
  | _ => []

/-- The rows of the tile window at offset block `b` (R77). -/
def tileRows (b : Nat) : List RegRow :=
  match b with
  | 0x80 => tile80Rows
  | 0x81 => tile81Rows
  | 0x88 => tile88Rows
  | 0x90 => tile90Rows
  | 0x91 => tile91Rows
  | 0xa0 => tileA0Rows
  | 0xb0 => tileB0Rows
  | _ => []

end Sys2Proof.Machine
end

