-- ==== Sys2Proof/Machine/State.lean ====
section
/-! DEFINITION. The state of the module as plain data: the carrier sequencer outside the die, the die with every register,
buffer, queue and engine the spec gives it, and the queue of commands that wait. Registers are held once, in `Die.regs`;
the records below hold what no register shows. Default values are the values at reset (State.reset). -/
namespace Sys2Proof.Machine

/-- The slave clock of R426: the master it follows (the data set of its Announce and its port) and when it was last heard, in reference
cycles; the times in ns of the last Sync, sent and received; a two-step Sync that waits for its Follow_Up (sequence number, received, correction);
the last delay request (sequence number, sent); the path delay in ns; and that the master's time has yet to be taken over. -/
structure Ptp where
  master : Option (List Nat × Nat) := none
  heard : Nat := 0
  t1 : Int := 0
  t2 : Int := 0
  waitSync : Option (Nat × Int × Int) := none
  reqSeq : Nat := 0
  t3 : Int := 0
  delay : Int := 0
  fresh : Bool := false
  deriving DecidableEq, Repr

/-- The clock of the die. `quarter` is the device time in quarters of a nanosecond (one reference cycle of 4 GHz, R6): it
counts from 0 at the release of the MODULE reset until a PTP master disciplines it (R426). -/
structure Clock where
  quarter : Nat := 0
  synced : Bool := false
  aging : Nat := 0
  offs : Nat := 0
  ptp : Ptp := {}
  deriving DecidableEq, Repr

/-- The non-volatile store apart from the register fields it holds (those are kept or loaded in `Die.regs`): identity,
factory values and key store (R3, R15, R433, R506, R537); `jctSum` and `jctCount` are the sum in 1/16 °C and the number of the
diode readings of the module's service up to the last store (R21). Reset values: log entry 5. -/
structure NvStore where
  gradeB : Bool := false
  tileMap : Nat := 0xFFFFFFFFFFFFFFFF
  stepping : Nat := 0
  serial : Nat := 0x0000000088000001
  mac : Nat := 0x020000000001
  defectMap : List (Nat × Nat) := []
  words : List (Nat × Word) := []
  keys : List (Nat × List Byte) := []
  xmssIndex : Nat := 0
  cert : List Byte := []
  jctSum : Int := 0
  jctCount : Nat := 0
  scalV : Bool := false
  scalI : Bool := false
  deriving DecidableEq, Repr

/-- One event record (R444). -/
structure EvRec where
  kind : Nat
  seq : Nat
  time : Nat
  body : List Byte
  deriving DecidableEq, Repr

/-- A YCT response (R427): opcode, status, the request's SEQ and the payload. -/
structure Resp where
  opcode : Nat
  status : Nat
  reqSeq : Nat
  payload : List Byte
  deriving DecidableEq, Repr

/-- One entry of STREAM_OUT (R351). -/
structure StreamOut where
  ctx : Nat
  index : Nat
  token : Nat
  flags : Nat
  reason : Nat
  time : Nat
  deriving DecidableEq, Repr

/-- What the module sends or answers, newest first in `Die.out`: a network frame (0 ARP, 1 neighbour advertisement, 2 echo
reply, 3 PFC, 4 PTP) and a YCT message, each with its destination, its tag (VID and PCP) and its bytes; an answer on
J3 with its status; the status of a register write made through a command of its own; an in-band interrupt; the provisioned identifier sent
in ENTDAA; a mark; a
flit on a link, its 256 bytes (R450); a relay or slice message to a neighbour over a link (kind and
words); a shard or page over a link; a packet delivered to a unit; an event to the Lighthouse firmware; the answer to a
packet-plane access to tile SRAM; a burst that leaves a link marked as one with an uncorrectable error; and the matrix entries of a
table as its accuracy profile. -/
inductive Out where
  | frame (kind : Nat) (dest : Source) (vlan : Option (Nat × Nat)) (bytes : List Byte)
  | yct (dest : Source) (vlan : Option (Nat × Nat)) (bytes : List Byte)
  | j3 (value status : Nat)
  | status (ag : Agent) (code : Nat)
  | inBand
  | provisioned (id : Nat)
  | mark (link tide : Nat) (stop : Bool) (cause coord : Nat)
  | flit (link : Nat) (bytes : List Byte)
  | linkMsg (link kind : Nat) (words : List Nat)
  | shard (link seq : Nat) (bytes : List Byte)
  | delivered (src dst : MeshUnit) (vc tenant addr : Nat) (data : List Byte)
  | firmware (kind : Nat) (words : List Nat)
  | sram (tile off : Nat) (ok poison : Bool) (bytes : List Byte)
  | poisonBurst (link stream : Nat)
  | profile (entries : List (List Nat))
  deriving DecidableEq, Repr

/-- One strandline record (R563), before it is written out as 64 bytes; `detail` holds its eight words (R572). -/
structure Rec where
  time : Nat
  tide : Nat
  seq : Nat
  source : Nat
  flags : Nat
  event : Nat
  domain : Nat
  sub : Nat
  tDiode : Nat
  vCore : Nat
  detail : List Nat
  deriving DecidableEq, Repr

/-- The strandline controller (R563 to R570): the input queue, oldest first; how many of its records, from the front, the
on-die copy already holds; the on-die copy by index; the records dropped since the last STL 1 record; and whether the ring
has been restarted since its contents were last lost. The counts SEQ, RING_FIRST and LOST are the registers of R574. -/
structure Strand where
  queue : List Rec := []
  copied : Nat := 0
  copy : List (Nat × Rec) := []
  dropped : Nat := 0
  ringLive : Bool := false
  deriving DecidableEq, Repr

/-- An injector's running state beside its registers (R576 to R579): whether it has taken effect at a boundary, and, for
the link injector, arrivals still to discard and the sequence number they concern. -/
structure Injector where
  active : Bool := false
  left : Nat := 0
  seq : Option Nat := none
  deriving DecidableEq, Repr

/-- One open YCT session (R431 to R436, R540). `roles`: bit 0 CONTROL, 1 EVENTS, 2 STREAM, 3 DEBUG. `hiSeq` is the highest
accepted host SEQ and `seen` the accepted ones of the 1,024 below it; `cache` the last 256 responses, newest first;
`hold64` the holding registers of R9: by the address of a high word, its copy. -/
structure Session where
  id : Nat
  keySlot : Nat
  roles : Nat
  idleTmo : Nat
  version : Nat
  src : Source
  key : List Byte
  hiSeq : Nat := 0
  seen : List Nat := []
  devSeq : Nat := 0
  cache : List Resp := []
  events : List EvRec := []
  evtSeq : Nat := 0
  evtLost : Nat := 0
  hold64 : List (Nat × Word) := []
  deriving DecidableEq, Repr

/-- One bulk window (R438, R439): its owner's slot, direction, range, and for writes NEXT. -/
structure Bulk where
  slot : Nat
  read : Bool
  addr : Nat
  total : Nat
  next : Nat := 0
  deriving DecidableEq, Repr

/-- State of a mailbox pair (R441). -/
inductive BoxState where
  | free | posted | busy | done
  deriving DecidableEq, Repr

/-- One mailbox pair beside its 2 x 256 bytes, which are registers (R440, R441): `result` is what the command it runs has
produced so far, result code and bytes; `outBytes` what a command delivers at OUT_ADDR apart from its result. -/
structure Box where
  state : BoxState := .free
  result : Option (Nat × List Byte) := none
  outBytes : List Byte := []
  deriving DecidableEq, Repr

/-- The host port and its protocol engine (R420 to R448): sessions by slot, bulk windows, mailboxes, doorbell order,
the versions chosen by HELLO per source; the frames in the receive buffers, oldest first (priority, bytes of the message, bytes of the frame),
and by priority whether its PFC pause is out and until when, in reference cycles, the link partner has paused it; frames that wait to be sent with
their priority; the next session identifier, the second of device time in which HELLO was last answered and its answers, the DEBUG flag of R546, the
accepted OPEN nonces per key slot (R540), newest first, and the authentication runs (R542), most recent first. -/
structure HostPort where
  sessions : List (Nat × Session) := []
  windows : List (Nat × Bulk) := []
  boxes : List (Nat × Box) := []
  doorbells : List Nat := []
  versions : List (Source × Nat) := []
  rxQueue : List (Nat × Nat × Nat) := []
  pfcSent : List (Nat × Bool) := []
  txPaused : List (Nat × Nat) := []
  txWait : List (Nat × Out) := []
  nextId : Nat := 1
  helloSec : Nat := 0
  helloCount : Nat := 0
  debugSeen : Bool := false
  nonces : List (Nat × List (List Byte)) := []
  runs : List ((Nat × Nat) × Nat) := []
  deriving DecidableEq, Repr

/-- The security block beside its registers (R537 to R562): detectors armed, the response now running (0 none, else
1 LOG, 2 LOCK, 3 ERASE as SEC_POLICY codes them plus one), SEC_ALARM_N held low, ATT_MIN in seconds, the last signed
report and signature with its device time in ns, FW_HASH of the image that last reached RUNNING with its IMAGE_ID,
SVN and ROOT, and the wrapped key words written so far. -/
structure Sec where
  armed : Bool := false
  respRunning : Nat := 0
  extLow : Bool := false
  attMin : Nat := 600
  lastReport : Option (List Byte) := none
  lastSigned : Nat := 0
  fwHash : List Byte := List.replicate 32 0
  fwId : Nat := 0
  fwSvn : Nat := 0
  fwRoot : Nat := 0
  keyData : List (Nat × Word) := []
  deriving DecidableEq, Repr

/-- The carrier sequencer's states (R29). -/
inductive SeqState where
  | off | standby | debounce | charging | sequencing | on | shuttingDown | fault
  deriving DecidableEq, Repr

/-- The carrier outside the die: input stage, hot-swap switch and rail sequencer (R22 to R29, R32, R43, R44). `railsUp` rails,
from rail 0, are in their windows and `starting` is the rail now being started; `debounced` says the input has stayed in
range for 50 ms, `offTimeMet` that the main rails have been off for 10 ms; `toFault` that the running shutdown ends in
FAULT; `resetLow` that MOD_RESET_N is held low; `abortHold` that an assertion aborted a power-up and its release is
awaited; `pendingStart` that a release during a shutdown asks for a new power-up. PWR_SEQ_STATUS is read from here. -/
structure Carrier where
  standby : Bool := true
  seq : SeqState := .standby
  offHold : Bool := false
  faultRail : Nat := 0
  faultCause : Nat := 0
  latched : Bool := false
  uvlo : Bool := true
  ovlo : Bool := false
  debounced : Bool := false
  offTimeMet : Bool := true
  switchOn : Bool := false
  railsUp : Nat := 0
  starting : Option Nat := none
  toFault : Bool := false
  resetLow : Bool := false
  abortHold : Bool := false
  pendingStart : Bool := false
  deriving DecidableEq, Repr

/-- Mode of the management target on J3 (R42). -/
inductive BusMode where
  | undecided | i3c | i2c
  deriving DecidableEq, Repr

/-- The management domain and the discrete signals (R26, R27, R42, R43, R46): management reachable; bus mode and dynamic
address; the die held in MODULE reset; main power present; all registers reachable; THERMTRIP_N low; a clock in the
window on REFCLK; the cause that RST_STATUS.LAST takes at the next release (R526); the holding registers of J3 (R9). -/
structure Mgmt where
  alive : Bool := false
  mode : BusMode := .undecided
  dynAddr : Option Nat := none
  dieReset : Bool := true
  powered : Bool := false
  ready : Bool := false
  tripLow : Bool := false
  refIn : Bool := false
  cause : Nat := 1
  hold64 : List (Nat × Word) := []
  deriving DecidableEq, Repr

/-- Where a packet is (R61 to R63, R69, R70): in its source's injection queue; in the input buffer of router `r` (0 to 63
tile routers, 64 + k EDGE[k]) at input port `port`; at attachment input `att` of EDGE[k]; or in that attachment's deferral
buffer. -/
inductive Place where
  | injection
  | buffer (r port : Nat)
  | attach (k att : Nat)
  | deferred (k att : Nat)
  deriving DecidableEq, Repr

/-- A packet of the packet plane (R61): source and destination units, virtual channel, tenant, system flag, destination
address, payload, age stamp, old bit, and its place; and, for one that came over a Swell link or leaves on one, its route word
(R457), where one is given, the 16 header bytes it came with, and the VC and the flits of receive buffer that it holds (R455). -/
structure Pkt where
  src : MeshUnit
  dst : MeshUnit
  vc : Nat
  tenant : Nat
  sys : Bool
  addr : Nat
  data : List Byte
  route : Option Nat := none
  header : List Byte := []
  held : Option (Nat × Nat) := none
  stamp : Nat
  old : Bool
  place : Place
  deriving DecidableEq, Repr

/-- The packet plane: packets in flight, in order of arrival at their places; round-robin pointers by (router, output,
VC); outputs whose last grant under VC0/VC2 alternation went to VC2; whether the buckets act (R81), their levels by 4096 * edge
router + tenant where a charge or a setting has moved them, whether every other bucket has been filled to the BURST of reset, and the
RATE of each tenant in force where it is not 0xFFFF; and, for injector 1, its target word and the tile cycles for which that output
still grants nothing on that VC (R577). -/
structure Mesh where
  pkts : List Pkt := []
  rr : List (Nat × Nat) := []
  lastVc2 : List (Nat × Bool) := []
  bktOn : Bool := false
  bucket : List (Nat × Int) := []
  bktFull : Bool := false
  rate : List (Nat × Nat) := []
  blockTgt : Nat := 0
  blockLeft : Nat := 0
  deriving DecidableEq, Repr

/-- A stroke latched in an array's input register and waiting for its issue (R97): logical array, input codes, precision,
the STROKE descriptor's thread, TAG and LAYER, and the stroke's number within it (R318). -/
structure StrokeIn where
  logical : Nat
  thread : Nat
  codes : List Int
  aw4 : Bool
  tag : Nat
  layer : Nat
  index : Nat := 0
  deriving DecidableEq, Repr

/-- The trims a bank latches as its drive phase begins (R94): gain, offset and converter reference trims, as their registers hold
them. -/
structure Latch where
  gain : Nat
  off : List Nat
  cref : List Nat
  deriving DecidableEq, Repr

/-- A stroke that has issued and not completed (R96, R99 to R103, R109, R112, R94, R156): the stroke, whether it was
rejected, the decisions of cycle -4, the configuration and column assignment it started with, the number of its phase 0 in the running
phase count (R91) and the trims latched by the bank of each phase that has begun, the residuals active at its issue, its two predictor
sums, the tide, step and position of issue, and a clip that injector 4 puts on a column (its column and sign). -/
structure Flight where
  inp : StrokeIn
  rejected : Bool
  split0 : Bool
  split1 : Bool
  lost0 : Bool
  lost1 : Bool
  p0 : Nat
  p1 : Nat
  wmode : Nat
  gain : Nat
  colmap : List Nat
  first : Nat
  latched : List Latch
  offr : List Nat
  tide : Nat
  step : Nat
  pos : Nat
  clipCol : Option (Nat × Bool) := none
  deriving DecidableEq, Repr

/-- A result record (R98) in a result buffer: its four header words and its column words, with the residual of each column
at issue (R154, R156), the logical array, TAG and LAYER of its stroke. -/
structure Record where
  header : List Nat
  columns : List Nat
  offr : List Int
  logical : Nat
  tag : Nat
  layer : Nat
  deriving DecidableEq, Repr

/-- What the programming domain is doing with an array (R111, R267, R299): a verify-only pass against the level pairs named,
which are listed for the cells whose target is not the manufactured one; a programming request for the golden image of a
logical array, with the cells outside their windows and their targets, the spare columns programmed for weight columns
(spare, column) and the band of an in-place pass (first row, rows); or a spring calibration. Cells are numbered row * 266 +
column. -/
inductive ArrJob where
  | none
  | verify (want : List (Nat × (Nat × Nat)))
  | program (logical : Nat) (targets : List (Nat × (Nat × Nat))) (spares : List (Nat × Nat)) (band : Option (Nat × Nat))
  | spring
  deriving DecidableEq, Repr

/-- One physical array beside its registers. `cells` holds the level pair (Gp, Gn) of every cell that differs from its
manufactured level (R85, R105, R267), by row * 266 + column: 0 to 255 weight, 256 to 263 spare, 264 and 265 reference.
`cfg`, `cliff` and `colmap` are the words in force, which writes change at a tide boundary (R109, R113); `offr` the active
residual words (R156). `budget` is the split budget of this tide, `phases` the running phase count (R91), `drive` the phase boundaries
until the drive stage is free (R97), `seq` the count
of records (R98), `predClr` a pending ARR_PRED_MAX.CLR, `windowOpen` that a refresh window covers the array, `refWaiting` the reference
strokes a descriptor has issued that wait (R107), `refTrims` the first phase number and the first word of converter reference trims of
each reference stroke in flight (R91, R281). Of the cells beside
their levels: by group of 16 rows the device second of the last verify, from which drift counts (R125), how often rows have been
verified (each time puts every cell anywhere in its window, R87), and the cells left outside their windows; and the device second of
the last calibration, none while the factory trims stand (R127). -/
structure Array1 where
  cells : List (Nat × (Nat × Nat)) := []
  cfg : Nat := 0
  cliff : Nat := 0x1FFF
  colmap : List (Nat × Nat) := []
  offr : List (Nat × Nat) := []
  waiting : List StrokeIn := []
  flights : List Flight := []
  results : List Record := []
  refWaiting : Nat := 0
  refFlights : Nat := 0
  refTrims : List (Nat × Nat) := []
  budget : Nat := 0
  phases : Nat := 0
  drive : Nat := 0
  seq : Nat := 0
  predClr : Bool := false
  job : ArrJob := .none
  windowOpen : Bool := false
  verifiedAt : List (Nat × Nat) := []
  epochs : List (Nat × Nat) := []
  loose : List Nat := []
  deriving DecidableEq, Repr

/-- A descriptor that a thread has dispatched and not retired (R175, R176, R188): its thread and words; whether it waits
for lane groups, since when, and how many it holds; whether its DRAM reads have been asked for and how many requests are not
yet completed; whether its operation has been carried out and whether its output is poisoned (R196); code blocks of QUANT_A
still to be written (R580); result records a COMBINE has taken (R177); descriptors a POST has copied or strokes a STROKE has latched (R178, R194);
whether its accesses have been checked, so that each refused one is one fault (R186); for a pool descriptor, the tide it is due (R178); and the device time before which injector 3 keeps it from retiring (R577). -/
structure Exec where
  thread : Nat
  desc : Desc
  waitLg : Bool := false
  since : Nat := 0
  lgs : Nat := 0
  asked : Bool := false
  reqs : Nat := 0
  ran : Bool := false
  poison : Bool := false
  checked : Bool := false
  blocks : List (List Byte) := []
  recs : List Record := []
  units : Nat := 0
  due : Option Nat := none
  lateUntil : Option Nat := none
  id : Nat := 0
  deriving DecidableEq, Repr

/-- Classes of DRAM requests, in rank order (R180). -/
inductive ReqClass where
  | outl | corr | sched | pool | dma | sound
  deriving DecidableEq, Repr

/-- A DRAM request of a tile (R179 to R181): class, thread and TAG of its descriptor, device address, bytes; the data of a
write; for a read into tile SRAM, its address there (a read without one feeds its operation); whether it holds a slot; whether its
stack had accepted it before the DRAM event that runs (R387); and the number of the descriptor that made it, since TAGs may repeat. -/
structure Req where
  cls : ReqClass
  thread : Nat
  tag : Nat
  addr : Nat
  len : Nat
  write : Option (List Byte) := none
  sram : Option Nat := none
  issued : Bool := false
  accepted : Bool := false
  owner : Nat := 0
  deriving DecidableEq, Repr

/-- A pool-queue entry (R178): descriptor and due tide. -/
structure PoolEntry where
  desc : Desc
  due : Option Nat
  deriving DecidableEq, Repr

/-- One tile beside its registers, arrays and SRAM. `fe` holds the full/empty and poison bits of regions that are not
EMPTY and unpoisoned (R183, R214); `streams` the next descriptor's offset in region 0 of each SCHED thread that has not
reached TIDE_END; `execs` the executing descriptors in dispatch order; `pipe` the combine pipeline's queue, by
descriptor number; `reserve` the descriptor that holds the lane-group reservation; `nextId` the number of the next descriptor to start;
`bankSince` the time at which ENG_BANK_WAIT_CNT last started from zero, and `banks` the accesses of 64 bytes made since then in each
of the 32 banks (R182, R201); `rejected` the logical arrays whose unmapped strokes a
COMBINE has still to meet (R194); `late` that a late record was written this tide; `parking`, `parked`, `unparkDue` the clock
gating of R521 and R522; `microOk` the microcode accepted (R507); `dispatching` that threads dispatch, `stopping` and
`enableDeferred` a stop in progress and an enable that waits for its end (R198); the sounding state and a seed to be loaded
(R306); items in the capture ring, by place the stroke's number within its descriptor (R318), and the first of them (R307); and the logical arrays whose next OUTLIER unit has a capacity
of 0 under injector 5 (R577). -/
structure Tile1 where
  ready : Bool := true
  fe : List (Nat × (Bool × Bool)) := []
  streams : List (Nat × Nat) := []
  execs : List Exec := []
  reqs : List Req := []
  pool : List PoolEntry := []
  pipe : List Nat := []
  reserve : Option Nat := none
  rejected : List Nat := []
  late : Bool := false
  parking : Bool := false
  parked : Bool := false
  unparkDue : Bool := false
  microOk : Bool := false
  dispatching : Bool := false
  stopping : Bool := false
  enableDeferred : Bool := false
  sndState : Option Nat := none
  seedPending : Bool := false
  sndHeld : Nat := 0
  sndIndex : List (Nat × Nat) := []
  sndHead : Nat := 0
  noOutl : List Nat := []
  nextId : Nat := 0
  bankSince : Nat := 0
  banks : List Nat := List.replicate 32 0
  deriving DecidableEq, Repr

/-- A preload entry (R232). -/
structure Preload where
  kind : Nat
  mark : Bool
  dst : Nat
  len : Nat
  src : Nat
  deriving DecidableEq, Repr

/-- A tile block (R231): region words (BASE, LIMIT) by region and split budget by logical array. -/
structure TileBlock where
  tile : Nat
  unit : Nat
  regions : List (Nat × Nat)
  budgets : List Nat
  preload : List Preload
  deriving DecidableEq, Repr

/-- A tide-plane window (R233). -/
structure TpWin where
  tile : Nat
  port : Nat
  flags : Nat
  pos : Nat
  start : Nat
  bytes : Nat
  src : Nat
  dst : Nat
  deriving DecidableEq, Repr

/-- A link window (R234). -/
structure LinkWin where
  kind : Nat
  link : Nat
  tile : Nat
  flags : Nat
  pos : Nat
  start : Nat
  bytes : Nat
  buf : Nat
  stream : Nat
  deriving DecidableEq, Repr

/-- A refresh window (R235). -/
structure RefreshWin where
  tile : Nat
  kind : Nat
  first : Nat
  count : Nat
  pos : Nat
  npos : Nat
  deriving DecidableEq, Repr

/-- A matrix entry (R236). -/
structure Matrix where
  id : Nat
  layer : Nat
  flags : Nat
  rank : Nat
  k : Nat
  n : Nat
  deriving DecidableEq, Repr

/-- A berth entry (R237). -/
structure BerthEnt where
  berth : Nat
  inTile : Nat
  outTile : Nat
  inOp : Nat
  outOp : Nat
  deriving DecidableEq, Repr

/-- A loaded tide table (R229 to R237): the header's fields, then its sections. `base` is the image's address, `flags` the
header's FLAGS byte. -/
structure Table where
  base : Nat
  size : Nat
  period : Nat
  slack : Nat
  tides : Nat
  nSched : Nat
  nPool : Nat
  nSound : Nat
  lag : Nat
  decode : Nat
  chunk : Nat
  chunkTok : Nat
  attnBudget : Nat
  ext : Nat × Nat × Nat
  org : Nat × Nat × Nat
  coord : Nat × Nat × Nat
  flags : Nat
  tiles : List TileBlock
  tp : List TpWin
  links : List LinkWin
  refresh : List RefreshWin
  matrices : List Matrix
  berths : List BerthEnt
  deriving DecidableEq, Repr

/-- The latest mark received on a link (R218, R465): tide number, stop and fault flags, and the applied throttle word. -/
structure MarkIn where
  tide : Nat
  stop : Bool
  fault : Bool
  applied : Nat
  retried : Bool
  deriving DecidableEq, Repr

/-- A beacon (R219): the master's tide number, its step phase, and the hop count. -/
structure Beacon where
  tide : Nat
  phase : Nat
  hops : Nat
  deriving DecidableEq, Repr

/-- The tide block beside its registers (R206 to R228, R239, R243, R244). `w` counts tile cycles of this tide and `sc` is
the schedule counter; `divCtr` counts reference cycles within a divided tile cycle; `period` is P in force; `startQ` is the
device time (quarters) at which the tide began. `failed` lists the windows whose check failed (by index, tide-plane windows
first, then link windows), each with its latest cause and the `w` at which its last condition was met; `checked` and `done`
the windows of this position checked and completed; `pert` the windows that injector 0 delays, each with the `w` up to which it
does (R577). `freeze` counts the reference cycles of the freeze that runs and `freezeCause` is the cause of the tide's last
freeze; `unmetCause` is the lowest cause among the boundary conditions unmet at the last cycle that had one unmet,
`lateStates` the cause codes at w = P of the SCHED threads that reach TIDE_END last, by 64 * tile + thread, and `missing` the
slice links whose marks the gate waits for. `skipped` says this tide is a skipped one and `sinceSkip` counts positioned
tides since the last. `steps` counts the steps of the table (R208). `stopNow` asks for IDLE at the next boundary, `stopFlag`
that marks carry the stop flag; `fault` is the cause and the coordinates of a fault stop. `table` is the table last loaded, which stays after a stop for what its last step still returns; `preload` lists the preload entries still
to be copied, each with its tile; `loadBase` is the address of the image that the loader checks, `armTide` the tide of ARM and `start` the start tide S; `dramEvent` says a DRAM event
started in this tide. -/
structure Tide where
  w : Nat := 0
  sc : Nat := 0
  divCtr : Nat := 0
  period : Nat := 4096
  startQ : Nat := 0
  table : Option Table := none
  failed : List (Nat × Nat × Option Nat) := []
  checked : List Nat := []
  done : List Nat := []
  pert : List (Nat × Nat) := []
  freeze : Nat := 0
  freezeCause : Nat := 0
  unmetCause : Option Nat := none
  lateStates : List (Nat × Nat) := []
  missing : List Nat := []
  skipped : Bool := false
  sinceSkip : Nat := 0
  stopNow : Bool := false
  stopFlag : Bool := false
  fault : Option (Nat × Nat) := none
  marks : List (Nat × MarkIn) := []
  beacon : Option Beacon := none
  preload : List (Nat × Preload) := []
  loadBase : Nat := 0
  armTide : Nat := 0
  start : Nat := 0
  dramEvent : Bool := false
  steps : Nat := 0
  deriving DecidableEq, Repr

/-- Relay load and the golden copy (R259 to R265): state and failure code of R262 and R265; the parameters of CHART_RELAY;
expected shards received, kept, forwarded and acknowledged downstream by number; resends in all and per shard; duplicates
(R263); shards that last arrived corrupt; the forward buffer; shards of this module that came before the preamble was
complete; preamble payloads until the preamble is complete; and, once it is, the TARGETs that own an expected shard, MODEL_ID,
CHART_CRC, N_UNITS, the number of preamble shards, the placement in force and the images stored, by 256 * unit + logical. -/
structure Relay where
  state : Nat := 0
  code : Nat := 0
  role : Nat := 0
  upLink : Nat := 0xFF
  downLink : Nat := 0xFF
  org : Nat × Nat × Nat := (0, 0, 0)
  first : Nat := 0
  last : Nat := 0
  explicit : List Nat := []
  got : List Nat := []
  kept : List Nat := []
  forwarded : List Nat := []
  acked : List Nat := []
  resends : Nat := 0
  dups : Nat := 0
  per : List (Nat × Nat) := []
  corrupt : List Nat := []
  fwd : List (Nat × List Byte) := []
  early : List (List Byte) := []
  pre : List (Nat × List Byte) := []
  preDone : Bool := false
  targets : List Nat := []
  nPre : Nat := 0
  modelId : Nat := 0
  chartCrc : Nat := 0
  nUnits : Nat := 0
  placement : List Nat := []
  images : List Nat := []
  deriving DecidableEq, Repr

/-- A pending change of an array map (R269): unmapped at its boundary, mapped, swapped, or swapped with the outgoing array
then condemned. -/
inductive MapKind where
  | unmap | map | swap | remap
  deriving DecidableEq, Repr

/-- The spring record of an array (R295): tile estimate in 1/16 °C, offset trims, offset residuals, gain trim, reference
means in 1/256 code, and the column offset temperature coefficients in 1/1000 LSB per °C where they replace the factory's. -/
structure SpringRec where
  temp : Int
  trims : List Int
  residuals : List Int
  gain : Int
  rg : Int
  ro : Int
  tc : Option (List Int) := none
  deriving DecidableEq, Repr

/-- What the Lighthouse firmware keeps of a physical array (R289 to R297, R306 to R312, R278): the last reference codes,
newest first (REF_GAIN of 256, REF_OFFS of 64), the latest REF_ABS, rg_base in 1/256 code if a spring calibration has been
made, the tide of the last reference stroke, that it is stale, rg_avg at the last accepted calibration, the spring record, a
watch (its end tide and the FRAC to restore), that it has been condemned by sounding and that it serves on under the DEGRADED
policy, that an in-place refresh has begun and not ended, the tide until which soundings are skipped after one, failures
of the calibration in hand and that a full programming is owed after one (R302), that it has been programmed since its last spring
calibration, of a withheld array, that a verify
pass has succeeded, the stuck cells the repair chain has dealt with, the spare columns it has given out (spare, column), the columns
it has taken through steps 2 and 3, the image the cells were last named for (256 * unit + logical), the row at which the next band of
an in-place refresh begins (R277), a
neap calibration that is owed to a refresh or a command, and the earlier spring records since the reset, newest first. -/
structure ArrCal where
  refAbs : Int := 0
  rg : List Int := []
  ro : List Int := []
  rgBase : Option Int := none
  lastRef : Nat := 0
  stale : Bool := false
  rgAccepted : Int := 0
  spring : Option SpringRec := none
  watch : Option (Nat × Nat) := none
  condemned : Bool := false
  degraded : Bool := false
  bandsOpen : Bool := false
  skipUntil : Nat := 0
  springFails : Nat := 0
  reprog : Bool := false
  programmed : Bool := false
  reverified : Bool := false
  stuck : List Nat := []
  plan : List (Nat × Nat) := []
  chained : List Nat := []
  holds : Option Nat := none
  bandNext : Nat := 0
  neapDue : Bool := false
  past : List SpringRec := []
  deriving DecidableEq, Repr

/-- The settings of R326: NEAP_TRIG in 0.1 °C, NEAP_RES in 1/16 LSB, QF_LIM in 1/16 LSB, SPRING_DIST in °C, the drift threshold
in 0.1 %, the refresh interval in hours, the DEGRADED policy, REPAIR_LIM in 0.01 %. -/
structure UpkeepSet where
  neapTrig10 : Nat := 30
  neapRes : Nat := 8
  qfLim : Nat := 4
  springDist : Nat := 30
  drift10 : Nat := 50
  hours : Nat := 72
  degraded : Bool := false
  repairLim100 : Nat := 50
  deriving DecidableEq, Repr

/-- A logical array due for refresh (R271): tile, logical array, its rank (0 returned to the head when its refresh lost its shadow,
R274; 1 suspect, R297; 2 any other), whether drift made it due, the fall of REF_GAIN in 0.01 %, its age in hours. -/
structure Due where
  tile : Nat
  logical : Nat
  rank : Nat := 2
  byDrift : Bool
  fall : Nat
  age : Nat
  deriving DecidableEq, Repr

/-- A claim on the spare pool by a remap (R274): the logical array, the tide of the decision, the array to be condemned if it still
serves, the spare the claim has taken, if one was free, and the array that the repair chain condemned for it (R322). -/
structure Claim where
  tile : Nat
  logical : Nat
  tide : Nat
  outgoing : Option Nat
  spare : Option Nat := none
  repair : Option Nat := none
  deriving DecidableEq, Repr

/-- A repair rank in use (R324): matrix, row group and slot, the physical array (by number in the module) and column it
corrects, the logical array it is for, and whether its slot has been written. -/
structure RankUse where
  matrix : Nat
  group : Nat
  slot : Nat
  arr : Nat
  col : Nat
  logical : Nat
  written : Bool := false
  deriving DecidableEq, Repr

/-- Statistics of a logical array's input codes from its sounding items (R323): items, and per row the sum and the sum of
squares. -/
structure RowStats where
  items : Nat := 0
  sums : List Int := List.replicate 512 0
  squares : List Nat := List.replicate 512 0
  deriving DecidableEq, Repr

/-- Calibration, sounding and wear beside the registers (R289 to R326): per-array records, settings in force and those that
take force at the next tide boundary, tile offsets toff in 1/16 °C, stored reports newest first, how many of the newest still wait
for the readings of R320 and have not been sent, those readings so far (diode, VDD_SOC), and the rate count of R319
(device second, reports sent in it, reports held back), due refreshes, deferrals by 256 * tile + logical with the device second they
began, neighbour adjustments per physical array
(cell, change of level), withheld arrays, the shadows of each tile whose firmware has taken any (R273), rolling refreshes that have
taken a shadow (tile, logical array, shadow; R272), remap claims in order of precedence (R274), repair slots, the row groups of the table armed as (tile, the logical arrays of one group; R324), repair ranks in use,
input statistics by 256 * tile + logical, the firmware's own figures EST and LASTCAL of each tile (R293), sounding settings that take
force at the next tide boundary (tile; SND_TILE_CTRL and SND_TILE_SEED), that the diode has been read on demand since a table last ran,
that an alignment waits for such a reading, that one has been made since relay load completed, and
that a mismatch of temperatures has been reported and an alignment is owed (R292). -/
structure Upkeep where
  cal : List (Nat × ArrCal) := []
  set : UpkeepSet := {}
  next : UpkeepSet := {}
  toff : List (Nat × Int) := []
  reports : List (List Byte) := []
  unsent : Nat := 0
  readings : Option Nat × Option Nat := (none, none)
  rate : Nat × Nat × Nat := (0, 0, 0)
  due : List Due := []
  deferred : List (Nat × Nat) := []
  adjust : List (Nat × List (Nat × Int)) := []
  withheld : List Nat := []
  shadows : List (Nat × List Nat) := []
  refreshes : List (Nat × Nat × Nat) := []
  claims : List Claim := []
  slots : List RepairSlot := []
  groups : List (Nat × List Nat) := []
  ranks : List RankUse := []
  stats : List (Nat × RowStats) := []
  figures : List (Nat × Nat × Nat) := []
  nextSound : List (Nat × Nat × Nat) := []
  diodeFresh : Bool := false
  alignAsk : Bool := false
  aligned : Bool := false
  alignDue : Bool := false
  deriving DecidableEq, Repr

/-- A context (R331): the fields of its record; the state a PARKED one left; its pages and leaf tables by index, as addresses in
4 KB units; the tokens the front holds of its prompt (position, token), and where a FINAL entry ends it; the context it ships to; when it was parked or ended;
the prefix nodes it holds; its last troubled step; that its next token 0 is discarded (R355); a cancel (1), a park (2) or a
table stop (3) that waits for the retirement of its step (R333); shipping: pages sent or received, resends by page, pages
acknowledged, pages in all, token 0, how many other modules hold or have acknowledged every page, the times from which the
timeouts of pages run, and the link the last shard came over; that its pages have gone back after its end (R333); and the last
accrual of its pages (R378). `trouble` counts steps over all runs of the table (R345). -/
structure Ctx where
  state : Nat := 0
  reason : Nat := 0
  tenant : Nat := 0
  reqId : Nat := 0
  flags : Nat := 0
  promptLen : Nat := 0
  promptRcvd : Nat := 0
  promptDone : Nat := 0
  maxOut : Nat := 0
  outCount : Nat := 0
  reserve : Nat := 0
  invTemp : Word := 0
  rng : Nat := 0
  stop : List Nat := []
  dlFirst : Nat := 0
  dlGap : Nat := 0
  dlEnd : Nat := 0
  tSubmit : Nat := 0
  tLast : Nat := 0
  berth : Nat := 0xFFFFFFFF
  step : Nat := 0
  pages : List Nat := []
  leaves : List Nat := []
  lastTokens : List (Nat × Nat) := []
  left : Nat := 0
  prompt : List (Nat × Nat) := []
  promptEnd : Option Nat := none
  peer : Nat := 0xFFFFFFFF
  since : Nat := 0
  nodes : List Nat := []
  trouble : Option Nat := none
  dropFirst : Bool := false
  pend : Nat := 0
  shipGot : List Nat := []
  shipResends : List (Nat × Nat) := []
  shipAcked : List Nat := []
  shipTotal : Nat := 0
  shipToken : Option Nat := none
  shipOthers : Nat := 0
  shipClock : List (Nat × Nat) := []
  shipLink : Option Nat := none
  gone : Bool := false
  accrued : Nat := 0
  deriving DecidableEq, Repr

/-- A berth of a step (R339 to R347): its context's tenant, kind, start, tokens, whether final, and its result once it is in:
token and poison flag; and the steering pack it was placed under. -/
structure Berth where
  berth : Nat
  ctx : Nat
  tenant : Nat
  kind : Nat
  start : Nat
  ntok : Nat
  final : Bool
  result : Option (Nat × Bool) := none
  pack : Nat := 0
  deriving DecidableEq, Repr

/-- A step planned, in flight or in the log (R344, R347, R379): its number; its berths that are not empty, in berth order; the
device times of its boundary into position 0 and of the one after its last position; how many berths have retired, which
of them were troubled, and that all have; whether a fault or malformed descriptor was reported in it, whether it used an array marked
degraded (R346), and whether it belongs to an earlier run of the table. -/
structure StepRec where
  step : Nat
  berths : List Berth
  start : Option Nat := none
  stop : Option Nat := none
  retired : Nat := 0
  troubled : List Nat := []
  done : Bool := false
  faulted : Bool := false
  degraded : Bool := false
  old : Bool := false
  deriving DecidableEq, Repr

/-- Serving state (R327 to R357): contexts by number; accepted configurations; pool pages taken, in 4 KB units; the contexts in
the context cache; steps in flight, oldest first, and the log of the last 64, newest first; step number of the next fill;
berth credits by 2 * tenant + kind (R366); free pages the other modules last returned, by module; tenants whose pack some module
lacks; OVERCOMMIT; the configuration under which parked contexts resume (MODEL_ID with both configurations); berth inputs
that this module has still to write (step and berth; kind 0 an empty one) and the berths whose steering copies run;
STREAM_OUT entries of the step that retires; prefix changes for the next plan; a plan decided that waits for records not in the
cache (R330); by berth, how many results its OUT buffer has given since the table was armed, and the steps whose inputs have begun since
then (R324); the steps of earlier runs (R345); and, on a module beside the front, records already freed whose pages go back with the next
plan (R328, R371). -/
structure Serve where
  ctxs : List (Nat × Ctx) := []
  kv : Option KvParams := none
  stepCfg : Option StepParams := none
  route : Option RouteParams := none
  taken : List Nat := []
  cache : List Nat := []
  steps : List StepRec := []
  log : List StepRec := []
  nextStep : Nat := 0
  credit : List (Nat × Int) := []
  others : List (Nat × Nat) := []
  packMissing : List Nat := []
  overcommit : Nat := 100
  tableId : Option (Nat × Option KvParams × Option StepParams) := none
  inputs : List (Nat × PlanBerth) := []
  steerWait : List Nat := []
  outBuf : List StreamOut := []
  planOps : List PrefixOp := []
  heldPlan : Option StepPlan := none
  outSeen : List (Nat × Nat) := []
  inStep : Nat := 0
  base : Nat := 0
  leaving : List (Nat × Ctx) := []
  deriving DecidableEq, Repr

/-- The counters of a tenant (R377), and its tokens since the last metering boundary (R362, R381). -/
structure Meter where
  berthTides : Nat := 0
  tokensIn : Nat := 0
  tokensOut : Nat := 0
  reused : Nat := 0
  pageUs : Nat := 0
  energy : Nat := 0
  late : Nat := 0
  dropped : Nat := 0
  refusals : Nat := 0
  window : Nat := 0
  deriving DecidableEq, Repr

/-- A prefix node (R372). -/
structure Node where
  key : Nat
  parent : Option Nat
  page : Nat
  refs : Nat
  tenant : Nat
  pack : Nat
  index : Nat
  children : Nat
  keyed : Bool
  lastUse : Nat
  accrued : Nat := 0
  deriving DecidableEq, Repr

/-- A slot of a pinned entry (R369): the entry's index, the slot, the tenant that has it, and the pack whose data it holds, 0 for none. -/
structure Pin where
  entry : Nat
  slot : Nat
  tenant : Nat
  pack : Nat
  deriving DecidableEq, Repr

/-- A stored steering pack (R368, R370): PACK_ID, its offset in the pack store, its bytes, and per entry tile, layer, offset in
the image and bytes. -/
structure Pack where
  id : Nat
  off : Nat
  size : Nat
  entries : List (Nat × Nat × Nat × Nat)
  deriving DecidableEq, Repr

/-- Tenants and metering (R358 to R382): configurations that differ from the default, those the front holds and those in force
at fills, and the changes that wait for the next plan; counters; stored packs; steering configuration and pinned slots; prefix
nodes by index with their configuration and statistics (evictions, lookups, pages matched); metering configuration in
force, next, and of the window before; the start of the window in progress; RESET_TIME; energy windows not yet divided (energy, start, end); a
snapshot that waits to be written (window, start, end) with its counters; the window index and address of each snapshot in the ring
by slot; whether a snapshot has been written since the reset; and the page time in ns, as a fraction, that no counter has yet
taken (R378). -/
structure Tenancy where
  cfg : List (Nat × TenantParams) := []
  acting : List (Nat × TenantParams) := []
  changed : List (Nat × TenantParams) := []
  count : List (Nat × Meter) := []
  packs : List Pack := []
  steer : Option SteerParams := none
  pinned : List Pin := []
  tree : Option PrefixParams := none
  nodes : List (Nat × Node) := []
  evictions : Nat := 0
  lookups : Nat := 0
  matched : Nat := 0
  meter : MeterParams := { window := 60, tokW := 4096, attW := 1, pIdle := 0, ring := 0 }
  meterNext : Option MeterParams := none
  meterOld : MeterParams := { window := 60, tokW := 4096, attW := 1, pIdle := 0, ring := 0 }
  start : Nat := 0
  resetTime : Nat := 0
  energy : List (Nat × Nat × Nat) := []
  snap : Option (Nat × Nat × Nat) := none
  snapCount : List (Nat × Meter) := []
  ring : List (Nat × Nat × Nat) := []
  wrote : Bool := false
  pageRem : Nat × Nat := (0, 1)
  deriving DecidableEq, Repr

/-- A stack beside its registers (R387 to R395, R505, R582): a DRAM event runs; its last event's start in device time;
when its interface was last trained, on the reference clock; a TEST waits for the running TRAIN; corrected errors since the hour began,
that hour, and the hour of the last CE_LIMIT report; banks whose repair is spent. -/
structure Stack where
  event : Bool := false
  lastEvent : Option Nat := none
  lastTrain : Nat := 0
  testAfter : Bool := false
  ceHour : Nat := 0
  hour : Nat := 0
  reported : Option Nat := none
  spent : List Nat := []
  deriving DecidableEq, Repr

/-- A beat that a DMA channel has read and not yet wholly written (R406): its bytes left, whether it is a line read from DRAM, which holds
a request slot (R179), and its place in the order of arrival at its engine. -/
structure Beat where
  left : Nat
  slot : Bool
  ord : Nat
  deriving DecidableEq, Repr

/-- A running descriptor of a DMA channel (R402 to R410): who started the channel, the descriptor, bytes read and not yet
written, with the beats they came in, bytes written, poison met, whether it holds its CRC unit, the check value received so far, its
result so far (R409), and while the channel fetches its descriptor the address it fetches from (R412). -/
structure DmaRun where
  starter : Agent
  src : Nat
  dst : Nat
  len : Nat
  ctrl : Nat
  next : Nat
  read : Nat := 0
  buffer : List (Option Byte) := []
  written : Nat := 0
  poison : Bool := false
  bound : Bool := false
  tail : List Byte := []
  result : Nat := 0
  beats : List Beat := []
  fetch : Option Nat := none
  deriving DecidableEq, Repr

/-- A sequenced flit in a retry buffer (R450 to R452): its number, its KIND byte and its payload. -/
structure TxFlit where
  seq : Nat
  kind : Nat
  bytes : List Byte
  deriving DecidableEq, Repr

/-- A burst in a transmit buffer (R234, R451): stream number, bytes in all, bytes still to leave, and whether its head has left. -/
structure TxBurst where
  stream : Nat
  total : Nat
  data : List Byte
  begun : Bool := false
  deriving DecidableEq, Repr

/-- A burst in a receive buffer (R234, R451): stream number, bytes in all, and those that have arrived. -/
structure RxBurst where
  stream : Nat
  total : Nat
  data : List Byte
  deriving DecidableEq, Repr

/-- A Swell link beside its registers (R449 to R467): the retry buffer, oldest first; the next sequence number to send and the
one expected; the number still to be resent from; whether the receiver waits for a flit after a fault, with the NAKs sent
for it; the device times (quarters) of recent retry events; what the partner has freed of VC0 to VC2 and the burst buffer, what
has been sent against them, and what this receiver has freed and returned; packet flits waiting to leave (4 * VC + 2 * FIRST + LAST,
bytes), oldest first; control flits waiting; the receive buffers; payload bytes that a DMA link stream has still to read; the partner's
TORUS; and the mark that waits to leave. -/
structure Link where
  retry : List TxFlit := []
  txSeq : Nat := 0
  rxSeq : Nat := 0
  resend : Option Nat := none
  waiting : Bool := false
  naks : Nat := 0
  events : List Nat := []
  credit : List Nat := [0, 0, 0, 0]
  sent : List Nat := [0, 0, 0, 0]
  freed : List Nat := [0, 0, 0, 0]
  returned : List Nat := [0, 0, 0, 0]
  txPackets : List (Nat × List Byte) := []
  txBursts : List TxBurst := []
  txMarks : List (List Byte) := []
  control : List (Nat × List Nat) := []
  rxParts : List (Nat × List Byte) := []
  rxBursts : List RxBurst := []
  rxStream : List Byte := []
  lastVc2 : Bool := false
  torus : Nat := 0
  deriving DecidableEq, Repr

/-- The monitor sequencers beside the registers (R478 to R485): the running sequence of a converter (source 0 regular or 1 to
5 injected, channels left), index of the next result, pending injected sources in trigger order, each with the sources run since its
trigger, channels left of an interrupted regular sequence, a regular start that waits, whether it is powered, a power-down in
progress, and the channel-0 result of the running pair. -/
structure Conv where
  run : Option (Nat × List Nat) := none
  index : Nat := 0
  pending : List (Nat × List Nat) := []
  resume : List Nat := []
  regularWaits : Bool := false
  powered : Bool := true
  downing : Bool := false
  pair : Option Int := none
  deriving DecidableEq, Repr

/-- Monitoring, power and heat (R476 to R501): both converters; the pair counts of R482; the integrators: settled, accumulated
energy in nJ remainder, sums of the window, its start in ns, GAP and SHORT, samples of the running millisecond and the last
means (newest first, mW); the guard: run length above 750 W, causes present; the cap loop; the settings of
POWER_CFG and THERM_CFG; the thermal demand; system calibration points by input and point; the integrator setting in force; the throttle demand last written, before
any merge; guard firings; the device time in ns since which no table has run and the input power has stayed below 150 W (R292); and the
clocks of domains 0 to 63 gated by the trip. -/
structure Sense where
  convA : Conv := {}
  convB : Conv := {}
  bad : Nat := 0
  good : Nat := 0
  disturbed : Bool := false
  settled : Bool := false
  intDowning : Bool := false
  acc : Nat := 0
  vSum : Nat := 0
  iSum : Nat := 0
  samples : Nat := 0
  pMax : Nat := 0
  winStart : Nat := 0
  short : Bool := true
  gap : Bool := false
  lastP : List Nat := []
  means : List Nat := []
  g2 : Nat := 0
  g2Fired : Bool := false
  cause : Bool := false
  fired : Bool := false
  cap : Nat := 700
  floor : Nat := 0
  guardStep : Nat := 16
  sCap : Nat := 0
  kCap : Nat := 0
  period : Nat := 10
  warn : Nat := 100
  crit : Nat := 108
  inWarn : Bool := false
  thermStretch : Nat := 0
  thermSkip : Bool := false
  points : List (Nat × Int × Int × Int) := []
  intCfg : Nat × Nat := (0, 20000)
  demand : Nat := 0
  guardCount : Nat := 0
  scalNext : List (Nat × Nat × Nat) := []
  calV : Bool := false
  calI : Bool := false
  hourSum : Int := 0
  hourCount : Nat := 0
  quietSince : Option Nat := none
  gated : Bool := false
  deriving DecidableEq, Repr

/-- A reset asked for and not yet released (R516 to R518): its domain (0 MODULE, 1 CORE, 2 COMPUTE, 3 host port, 4 Monitor,
5 + k LINK_k, 16 + n TILE[n]), its cause in the codes of R526, and whether it has been asserted. -/
structure ResetRun where
  dom : Nat
  cause : Nat
  asserted : Bool := false
  deriving DecidableEq, Repr

/-- Boot and reset beside the registers (R502 to R535): the BOOT_CMD that runs (0 none); whether this start is counted, and
FAILCNT before it; its last failure code; whether a resume copy has been written; bytes verified into the Lighthouse SRAM
(image and signature); tiles whose microcode came once bad; the resets in progress; the hold of R523 running, and whether the reset
was CORE; the watchdog armed; hang history (device second, cause of the reset it made); the hang whose GRACE runs, and one whose
reset has not come yet; links that were enabled at a CORE reset; hang reports of the hang store, newest first; whether both maps
have been applied since the MODULE reset, and whether the microcode broadcast has begun since the last COMPUTE reset; who asked for
the VERIFY that runs; and that a hang report waits for its readings and has not been sent (R530). The Lighthouse SRAM contents are
`image`; the detectors' arming is the security block's. -/
structure Boot where
  running : Nat := 0
  counted : Bool := false
  before : Nat := 0
  lastCode : Nat := 0
  resumeCopy : Bool := false
  image : List Byte := []
  micro : List Nat := []
  resets : List ResetRun := []
  hold : Bool := false
  wasCore : Bool := false
  trainFailed : Bool := false
  watchdog : Bool := false
  hangs : List (Nat × Nat) := []
  grace : Bool := false
  hangOpen : Bool := false
  linksWere : List Nat := []
  reports : List (List Byte) := []
  mapsApplied : Bool := false
  broadcast : Bool := false
  verifier : Option Source := none
  hangUnsent : Bool := false
  deriving DecidableEq, Repr

/-- The die. `regs` holds every register word that differs from its reset value, by address (R8, R15); `mem` the bytes of
DRAM and tile SRAM by device address; `gen0` and `gen1` count how often each stack's contents were lost (log entry 4);
`freeCtr` numbers the free values taken so far (the model's own field, log entry 3); `out` is everything the module has
sent or answered, newest first. -/
structure Die where
  regs : List (Nat × Word) := []
  mem : List Host.Cell := []
  gen0 : Nat := 0
  gen1 : Nat := 0
  freeCtr : Nat := 0
  out : List Out := []
  clock : Clock := {}
  nv : NvStore := {}

  strand : Strand := {}
  injectors : List (Nat × Injector) := []
  host : HostPort := {}
  sec : Sec := {}
  mgmt : Mgmt := {}
  mesh : Mesh := {}
  arrays : List (Nat × Array1) := []
  tiles : List (Nat × Tile1) := []
  tide : Tide := {}
  relay : Relay := {}
  mapPend : List (Nat × MapKind) := []
  upkeep : Upkeep := {}
  serve : Serve := {}
  tenancy : Tenancy := {}
  stack0 : Stack := {}
  stack1 : Stack := {}
  badSectors : List Nat := []
  errSectors : List (Nat × Nat) := []
  dma : List (Nat × DmaRun) := []
  dmaTurn : List (Nat × Nat) := []
  links : List (Nat × Link) := []
  sliceMask : Nat := 0
  sense : Sense := {}
  boot : Boot := {}
  deriving DecidableEq, Repr

/-- The whole machine: the commands that wait, first in, first out; the carrier; the die. -/
structure State where
  pending : List Instr
  carrier : Carrier
  die : Die
  deriving DecidableEq, Repr

/-- Why the machine could stop with a fault. No command of the spec stops the module: every one of them has an effect or
leaves the state as it is, so no meaning raises this (safe). -/
inductive Fault where
  /-- Raised by nobody (safe). -/
  | none
  deriving DecidableEq, Repr

/-- Why a command could be refused by the model. -/
inductive Refusal where
  /-- Raised by an arm of exec whose command has no meaning yet (safe: the machine stops). -/
  | notModelled (mnemonic : String)
  deriving DecidableEq, Repr

/-- The state right after reset: standby power has just come up (R22, R29), the main rails are off, every register holds
its reset value, memory lists nothing and no command waits. -/
def State.reset : State := { pending := [], carrier := {}, die := {} }

end Sys2Proof.Machine
end

