-- ==== Sys2Proof/Machine/Regs.lean ====
section
/-! DEFINITION. Registers (R8 to R15): which register an address names, what it reads after reset, reading and writing words
and fields, what a write does to fields of each type, and what a reset does to the registers it covers. -/
namespace Sys2Proof.Machine

/-- The row of a table that covers address `a`. -/
def findRow (rows : List RegRow) (a : Nat) : Option RegRow :=
  rows.find? (fun r => if r.count ≤ 1 then a == r.base
    else decide (r.base ≤ a) && decide (a < r.base + r.stride * r.count) && (a - r.base) % r.stride == 0)

/-- The fields of the register at device address `a`; none where no register lies (R10, R76, R77). -/
def regSpec (a : Nat) : Option (List FieldSpec) :=
  if a % 4 ≠ 0 then none
  else if a < 0x100000 then (findRow (globalRows (a / 0x10000)) a).map (·.fields)
  else if tileAddr 0 ≤ a ∧ a < tileAddr 64 then
    let o := (a - tileAddr 0) % 0x1000000
    if 0xC00000 ≤ o then
      if (o - 0xC00000) / 0x1000 < 272 then (findRow arrRows (o % 0x1000)).map (·.fields) else none
    else if 0x920000 ≤ o ∧ o < 0x920000 + 272 * 0x200 then (findRow offrRows (o % 0x200)).map (·.fields)
    else (findRow (tileRows (o / 0x10000)) o).map (·.fields)
  else none

/-- Reset words that differ along a register array: ARR_COLMAP[s].COL = 32 s (R121), MON_JSEQ (R495), and, from the
non-volatile store, key slot 0 as it leaves the factory (R538) and the seed of each tile (R315; log entry 5). -/
def resetOverride (a : Nat) : Option Nat :=
  if a = 0x90100 then some 7 else
  if 0x70020 ≤ a ∧ a < 0x70034 then
    match (a - 0x70020) / 4 with
    | 0 => some 0x01000001 | 1 => some 0x0200000C | 2 => some 0x02000001 | 3 => some 0x0100000C | _ => some 0x01000000
  else if 0x70040 ≤ a ∧ a < 0x70054 then
    match (a - 0x70040) / 4 with
    | 0 => some 0x01000001 | 1 => some 0x01000000 | 2 => some 0x01000001 | 3 => some 0 | _ => some 0x01000000
  else if tileAddr 0 ≤ a ∧ a < tileAddr 64 then
    let o := (a - tileAddr 0) % 0x1000000
    if 0xC00000 ≤ o ∧ 0x40 ≤ o % 0x1000 ∧ o % 0x1000 < 0x60 then some (32 * ((o % 0x1000 - 0x40) / 4))
    else if o = 0x880804 then some ((a - tileAddr 0) / 0x1000000 + 1) else none
  else none

/-- The word whose fields hold their reset values (R15). -/
def fieldsReset (fs : List FieldSpec) : Nat := fs.foldl (fun w f => setBits w f.lo f.width f.reset) 0

/-- The reset word of the register at `a`; zero where no register lies. -/
def resetWord (a : Nat) : Word :=
  match resetOverride a with
  | some n => w32 n
  | none =>
    match regSpec a with
    | some fs => w32 (fieldsReset fs)
    | none => 0

/-- The stored word of the register at `a`. -/
def Die.getW (d : Die) (a : Nat) : Word := amGet (resetWord a) d.regs a

/-- The die with word `w` in the register at `a`. -/
def Die.putW (d : Die) (a : Nat) (w : Word) : Die := { d with regs := amSet (resetWord a) d.regs a w }

/-- The value of a field. -/
def Die.get (d : Die) (f : Fld) : Nat := bits (d.getW f.addr).toNat f.lo f.width

/-- The die with value `v` in a field; the other fields of the register stay. -/
def Die.put (d : Die) (f : Fld) (v : Nat) : Die :=
  d.putW f.addr (w32 (setBits (d.getW f.addr).toNat f.lo f.width v))

/-- Whether a one-bit field is set. -/
def Die.on (d : Die) (f : Fld) : Bool := d.get f = 1

/-- The die with a one-bit field set. -/
def Die.raise (d : Die) (f : Fld) : Die := d.put f 1

/-- The die with a field cleared. -/
def Die.clear (d : Die) (f : Fld) : Die := d.put f 0

/-- The die with a field raised by `n`, saturating at its largest value. -/
def Die.bump (d : Die) (f : Fld) (n : Nat) : Die := d.put f (satAdd f.width (d.get f) n)

/-- The die with a field raised by `n`, wrapping. -/
def Die.bumpWrap (d : Die) (f : Fld) (n : Nat) : Die := d.put f ((d.get f + n) % 2 ^ f.width)

/-- The die with the maximum of a field and `n` in the field. -/
def Die.atLeast (d : Die) (f : Fld) (n : Nat) : Die := d.put f (max (d.get f) (min n (2 ^ f.width - 1)))

/-- A 64-bit quantity in two consecutive registers, low word first (R9). -/
def Die.get64 (d : Die) (a : Nat) : Nat := (d.getW a).toNat + (d.getW (a + 4)).toNat * 2 ^ 32

/-- The die with a 64-bit quantity written. -/
def Die.put64 (d : Die) (a v : Nat) : Die := (d.putW a (w32 v)).putW (a + 4) (w32 (v / 2 ^ 32))

/-- The die with a 64-bit wrapping counter raised by `n`. -/
def Die.bump64 (d : Die) (a n : Nat) : Die := d.put64 a (d.get64 a + n)

/-- Whether value `v` is an encoding of the field that is not reserved (R14). -/
def FieldSpec.allows (f : FieldSpec) (v : Nat) : Bool :=
  f.legal.isEmpty || f.legal.any (fun r => decide (r.1 ≤ v) && decide (v ≤ r.2))

/-- What a write of word `w` leaves in one field of `old` (R11, R14). -/
def FieldSpec.write (f : FieldSpec) (old w : Nat) : Nat :=
  let v := bits w f.lo f.width
  let o := bits old f.lo f.width
  match f.acc with
  | .rw => if f.allows v then setBits old f.lo f.width v else old
  | .w1c => setBits old f.lo f.width (o &&& (v ^^^ (2 ^ f.width - 1)))
  | .w1s => setBits old f.lo f.width (o ||| v)
  | .ro => old
  | .wo => old

/-- What a write of `w` leaves in a register that held `old`. -/
def writeFields (fs : List FieldSpec) (old w : Nat) : Nat := fs.foldl (fun o f => f.write o w) old

/-- The fields of a write whose values are reserved encodings (R14). -/
def refusedFields (fs : List FieldSpec) (w : Nat) : List FieldSpec :=
  fs.filter (fun f => match f.acc with | .rw => !(f.allows (bits w f.lo f.width)) | _ => false)

/-- The word a read of the stored word `w` returns: write-only and reserved fields read zero (R11). -/
def readFields (fs : List FieldSpec) (w : Nat) : Nat :=
  fs.foldl (fun o f => match f.acc with | .wo => o | _ => setBits o f.lo f.width (bits w f.lo f.width)) 0

/-- The word a reset leaves (R15): kept fields stay, loaded fields take the non-volatile store's word `nv`, the others their
reset value. -/
def afterReset (fs : List FieldSpec) (reset old nv : Nat) : Nat :=
  fs.foldl (fun o f => match f.onReset with
    | .plain => o
    | .kept => setBits o f.lo f.width (bits old f.lo f.width)
    | .loaded => setBits o f.lo f.width (bits nv f.lo f.width)) reset

/-- The word of the non-volatile store behind the register at `a`. -/
def Die.nvWord (d : Die) (a : Nat) : Word := amGet (resetWord a) d.nv.words a

/-- A register entry after a reset that covers it; none where the register is back at its reset word. -/
def Die.resetEntry (d : Die) (p : Nat × Word) : Option (Nat × Word) :=
  match regSpec p.1 with
  | none => none
  | some fs =>
    let w := w32 (afterReset fs (resetWord p.1).toNat p.2.toNat (d.nvWord p.1).toNat)
    if w = resetWord p.1 then none else some (p.1, w)

/-- Every register whose address `covers` returns to its reset value (R15). -/
def Die.resetRegs (d : Die) (covers : Nat → Bool) : Die :=
  let d1 := { d with regs := d.regs.filterMap (fun p => if covers p.1 then d.resetEntry p else some p) }
  d.nv.words.foldl (fun e p => if covers p.1 then e.putW p.1 (w32 (afterReset ((regSpec p.1).getD [])
    (resetWord p.1).toNat (e.getW p.1).toNat p.2.toNat)) else e) d1

/-- Addresses `lo` to `hi - 1`. -/
def within (lo hi a : Nat) : Bool := decide (lo ≤ a) && decide (a < hi)

/-- The window of tile `t`. -/
def inTile (t a : Nat) : Bool := within (tileAddr t) (tileAddr (t + 1)) a

/-- Stores a word of the non-volatile store and in the register that shows it. -/
def Die.putNv (d : Die) (a : Nat) (w : Word) : Die :=
  ({ d with nv := { d.nv with words := amSet (resetWord a) d.nv.words a w } }).putW a w

end Sys2Proof.Machine
end

