-- ==== Sys2Proof/Machine/Mem.lean ====
section
/-! DEFINITION. The address space (R75 to R78, R384, R385): targets of an address, and the bytes of DRAM and of tile SRAM in
one canonical list. -/
namespace Sys2Proof.Machine

/-- First byte of DRAM. -/
def dramBase : Nat := 0x1000000000
/-- First byte beyond DRAM. -/
def dramEnd : Nat := 0x4000000000
/-- Firmware area (R385). -/
def fwArea : Nat := 0x3F90000000
/-- The strandline ring (R566). -/
def stlRing : Nat := 0x3F9F000000
/-- Context area (R330, R385). -/
def ctxArea : Nat := 0x3FA0000000
/-- Golden-copy region (R259). -/
def goldenBase : Nat := 0x3FB0000000

/-- Whether an address lies in DRAM. -/
def isDram (a : Nat) : Bool := within dramBase dramEnd a

/-- Whether an address lies in general DRAM (R385). -/
def isGeneral (a : Nat) : Bool := within dramBase fwArea a

/-- The stack that holds a DRAM address: bit 12 of the offset (R80, R384). -/
def stackOf (a : Nat) : Nat := (a - dramBase) / 4096 % 2

/-- The tile whose SRAM holds the address. -/
def sramTile (a : Nat) : Option Nat :=
  if tileAddr 0 ≤ a ∧ a < tileAddr 64 ∧ (a - tileAddr 0) % 0x1000000 < 0x800000 then some ((a - tileAddr 0) / 0x1000000)
  else none

/-- What an unlisted byte reads as: SRAM and fresh DRAM zero; DRAM whose contents were lost or overwritten by a memory test, a
free value per loss and address (R393, R395; log entry 4). -/
def Die.memDefault (d : Die) (a : Nat) : Byte :=
  if isDram a then
    let g := if stackOf a = 0 then d.gen0 else d.gen1
    if g = 0 then 0 else Config.lostByte g a
  else 0

/-- One byte of memory. -/
def Die.byteAt (d : Die) (a : Nat) : Byte := amGet (d.memDefault a) d.mem a

/-- The die with one byte of memory written. -/
def Die.setByte (d : Die) (a : Nat) (b : Byte) : Die := { d with mem := amSet (d.memDefault a) d.mem a b }

/-- `n` bytes from address `a`. -/
def Die.bytesAt (d : Die) (a n : Nat) : List Byte := (List.range n).map (fun i => d.byteAt (a + i))

/-- The die with bytes written from address `a` up. -/
def Die.setBytes (d : Die) (a : Nat) (bs : List Byte) : Die :=
  match bs with
  | [] => d
  | b :: r => (d.setByte a b).setBytes (a + 1) r

/-- The die with only the bytes written that are given (byte enables). -/
def Die.setSome (d : Die) (a : Nat) (bs : List (Option Byte)) : Die :=
  match bs with
  | [] => d
  | none :: r => d.setSome (a + 1) r
  | some b :: r => (d.setByte a b).setSome (a + 1) r

/-- The little-endian number in `n` bytes at `a` (R5). -/
def Die.leMem (d : Die) (a n : Nat) : Nat := leNat (d.bytesAt a n)

/-- The die without the memory entries whose addresses `gone` names. -/
def Die.dropMem (d : Die) (gone : Nat → Bool) : Die := { d with mem := d.mem.filter (fun p => !gone p.1) }

/-- All bytes of stack `k` are lost: every one is a free value from now on (R393, R395). -/
def Die.loseStack (d : Die) (k : Nat) : Die :=
  let d1 := d.dropMem (fun a => isDram a && stackOf a == k)
  let d2 := { d1 with badSectors := d1.badSectors.filter (fun a => !(stackOf a == k)),
                      errSectors := d1.errSectors.filter (fun p => !(stackOf p.1 == k)) }
  if k = 0 then { d2 with gen0 := d2.gen0 + 1 } else { d2 with gen1 := d2.gen1 + 1 }

/-- The canonical form of the memory: addresses rising, no entry equal to what an unlisted address reads as. -/
def Memory.wf (d : Die) : Bool := amWf d.memDefault d.mem

end Sys2Proof.Machine
end

