-- ==== Sys2Proof/Machine/Ops.lean ====
section
/-! DEFINITION. Operations the blocks share: how a command acts on the die, indexed parts of the state, device time, what the
module emits, strandline records (R563 to R572), events (R444) and alerts (R573). -/
namespace Sys2Proof.Machine

/-- The first value listed under key `k`. -/
def look {α : Type} (m : List (Nat × α)) (k : Nat) : Option α :=
  match m with
  | [] => none
  | p :: r => if p.1 = k then some p.2 else look r k

/-- The list with value `v` under key `k`, keys rising. -/
def keep {α : Type} (m : List (Nat × α)) (k : Nat) (v : α) : List (Nat × α) := amInsert (amErase m k) k v

/-- The list with `x` in it once more if it was not. -/
def addOnce {α : Type} [DecidableEq α] (l : List α) (x : α) : List α := if l.contains x then l else l ++ [x]

/-- The list without `x`. -/
def without {α : Type} [DecidableEq α] (l : List α) (x : α) : List α := l.filter (fun y => decide (y ≠ x))

/-- Replaces bytes of a list from an offset. -/
def splice (l : List Byte) (off : Nat) (new : List Byte) : List Byte := l.take off ++ new ++ l.drop (off + new.length)

/-- A command to the die: its effect `f` where its conditions `ok` hold, and no effect otherwise (log entry 20). -/
def dieCmd (ok : Die → Bool) (f : Die → Die) (s : State) : Host.Outcome State Fault Refusal :=
  .next (if ok s.die then { s with die := f s.die } else s)

/-- The die has main power and is out of its MODULE reset (R26). -/
def Die.live (d : Die) : Bool := d.mgmt.powered && !d.mgmt.dieReset

/-- A command to a part of the die that works only with main power and out of MODULE reset. -/
def mainCmd (ok : Die → Bool) (f : Die → Die) (s : State) : Host.Outcome State Fault Refusal :=
  dieCmd (fun d => d.live && ok d) f s

/-- Device time in ns (R426). -/
def Die.now (d : Die) : Nat := d.clock.quarter / 4

/-- Tile `t` beside its registers. -/
def Die.tile (d : Die) (t : Nat) : Tile1 := amGet {} d.tiles t
def Die.setTile (d : Die) (t : Nat) (x : Tile1) : Die := { d with tiles := amSet {} d.tiles t x }
def Die.modTile (d : Die) (t : Nat) (f : Tile1 → Tile1) : Die := d.setTile t (f (d.tile t))

/-- Index of physical array `a` of tile `t`. -/
def arrIx (t a : Nat) : Nat := t * 272 + a

/-- Physical array `a` of tile `t` beside its registers. -/
def Die.arr (d : Die) (t a : Nat) : Array1 := amGet {} d.arrays (arrIx t a)
def Die.setArr (d : Die) (t a : Nat) (x : Array1) : Die := { d with arrays := amSet {} d.arrays (arrIx t a) x }
def Die.modArr (d : Die) (t a : Nat) (f : Array1 → Array1) : Die := d.setArr t a (f (d.arr t a))

/-- What the firmware keeps of physical array `a` of tile `t`. -/
def Die.cal (d : Die) (t a : Nat) : ArrCal := amGet {} d.upkeep.cal (arrIx t a)
def Die.modCal (d : Die) (t a : Nat) (f : ArrCal → ArrCal) : Die :=
  { d with upkeep := { d.upkeep with cal := amSet {} d.upkeep.cal (arrIx t a) (f (d.cal t a)) } }

/-- Link `k` beside its registers. -/
def Die.link (d : Die) (k : Nat) : Link := amGet {} d.links k
def Die.modLink (d : Die) (k : Nat) (f : Link → Link) : Die :=
  { d with links := amSet {} d.links k (f (d.link k)) }

/-- Mailbox pair `k` (R440). -/
def Die.box (d : Die) (k : Nat) : Box := amGet {} d.host.boxes k
def Die.setBox (d : Die) (k : Nat) (b : Box) : Die :=
  { d with host := { d.host with boxes := amSet {} d.host.boxes k b } }

/-- The open session in a slot (R432). -/
def Die.session (d : Die) (slot : Nat) : Option Session := look d.host.sessions slot
def Die.putSession (d : Die) (slot : Nat) (x : Session) : Die :=
  { d with host := { d.host with sessions := keep d.host.sessions slot x } }

/-- Stack `k` beside its registers. -/
def Die.stack (d : Die) (k : Nat) : Stack := if k = 0 then d.stack0 else d.stack1
def Die.setStack (d : Die) (k : Nat) (x : Stack) : Die := if k = 0 then { d with stack0 := x } else { d with stack1 := x }

/-- The module emits `o`. -/
def Die.emit (d : Die) (o : Out) : Die := { d with out := o :: d.out }

/-! ### Packets (R57, R60, R61) -/

/-- Payload bytes of a packet. -/
def Pkt.len (p : Pkt) : Nat := p.data.length

/-- The attachment of LINK_k (R57). -/
def linkUnit (k : Nat) : MeshUnit :=
  match k with
  | 0 => .edge 2 1 | 1 => .edge 3 1 | 2 => .edge 4 0 | 3 => .edge 5 0 | 4 => .edge 4 1 | _ => .edge 5 1

/-- The Swell link of an attachment. -/
def unitLink (u : MeshUnit) : Option Nat := (List.range 6).find? (fun k => linkUnit k == u)

/-- The number by which a record names a source: its tile, or 64 + k for an attachment of EDGE[k] (R68 gives no code: DESIGN
CHOICE, log entry 55). -/
def unitNumber (u : MeshUnit) : Nat :=
  match u with
  | .tile n => n
  | .edge k _ => 64 + k

/-- Units that a COMPUTE reset covers: tiles, the Lighthouse, the edge DMA and CRC units. -/
def underCompute (u : MeshUnit) : Bool :=
  match u with
  | .tile _ => true
  | .edge k a => (k == 0 && a ≠ 0) || k == 1

/-- Packets of a source that have not left its injection queue. -/
def Die.injected (d : Die) (u : MeshUnit) : Nat :=
  (d.mesh.pkts.filter (fun p => p.src == u && (match p.place, u with
    | .injection, .tile _ => true
    | .attach k a, .edge k' a' => k == k' && a == a'
    | _, _ => false))).length

/-- Takes a fresh number for a free value (log entry 3). -/
def Die.tick1 (d : Die) : Die := { d with freeCtr := d.freeCtr + 1 }

/-- Status codes of R430. -/
def stOk : Nat := 0
def stAlign : Nat := 1
def stUnmapped : Nat := 2
def stBusy : Nat := 3
def stProtected : Nat := 4
def stNotReady : Nat := 5
def stNoFirmware : Nat := 6
def stVersion : Nat := 7
def stNoSession : Nat := 8
def stLength : Nat := 9
def stOpcode : Nat := 10
def stWindow : Nat := 11
def stCrc : Nat := 12
def stTarget : Nat := 13
def stRole : Nat := 14
def stLowWater : Nat := 15
def stNotFront : Nat := 16
def stSeqEnd : Nat := 17

/-- The writer of a register learns the status of its write (R430, R508). -/
def Die.answer (d : Die) (ag : Agent) (code : Nat) : Die := d.emit (.status ag code)

/-- Agent codes of R572. -/
def agentCode (ag : Agent) : Nat :=
  match ag with
  | .session n => n % 8
  | .j3 => 8
  | .firmware => 9
  | .tileProgram _ => 10
  | .dma => 11

/-- Whether tile `t` is enabled (R3). -/
def Die.enabled (d : Die) (t : Nat) : Bool := decide (t < 64) && bit d.nv.tileMap t

/-- The enabled tiles, rising. -/
def Die.enabledTiles (d : Die) : List Nat := (List.range 64).filter (fun t => d.enabled t)

/-- The fields of `TIDE_STATUS.STATE` (R239): 0 IDLE, 1 LOADING, 2 LOADED, 3 STARTING, 4 RUNNING, 5 STOPPING. -/
def Die.tideState (d : Die) : Nat := d.get Reg.TIDE_STATUS_STATE

/-- A table is STARTING, RUNNING or STOPPING. -/
def Die.armed (d : Die) : Bool := decide (3 ≤ d.tideState)

/-- The tide number (R206, R246). -/
def Die.tideNum (d : Die) : Nat := d.get64 (Reg.TIDE_NUM 0)

/-- The boot stage (R509). -/
def Die.stage (d : Die) : Nat := d.get Reg.BOOT_STAGE_STAGE

/-- The COMPUTE reset, or a reset that contains it, is asserted (R516). -/
def Die.computeHeld (d : Die) : Bool := d.boot.resets.any (fun r => r.asserted && decide (r.dom ≤ 2))

/-- A packet at its source (R61, R65, R67): one of VC0 takes its stamp, and in forerunner mode one marked for VC1 travels on
VC0. -/
def Die.newPkt (d : Die) (src dst : MeshUnit) (vc tenant : Nat) (sys : Bool) (addr : Nat) (data : List Byte) : Pkt :=
  let v := if vc = 1 ∧ d.on Reg.GLB_MESH_CTRL_MODE = true then 0 else vc
  { src := src, dst := dst, vc := v, tenant := tenant, sys := sys, addr := addr, data := data,
    stamp := if v = 0 then d.tideNum % 4096 else 0, old := false,
    place := match src with | .tile _ => .injection | .edge k a => .attach k a }

/-- A packet enters its source's injection queue. -/
def Die.meshIn (d : Die) (p : Pkt) : Die := { d with mesh := { d.mesh with pkts := d.mesh.pkts ++ [p] } }

/-- Bytes cut into the payloads of packets, of at most 1,024 bytes; `n` of them at most (R61). -/
def cutPayloads (n : Nat) (bs : List Byte) : List (List Byte) :=
  match n with
  | 0 => []
  | m + 1 => if bs.isEmpty then [] else bs.take 1024 :: cutPayloads m (bs.drop 1024)

/-- Bytes for a neighbour enter the packet plane toward the attachment of LINK_k (R60, R457); `route` is given where they go further. -/
def Die.toLink (d : Die) (src : MeshUnit) (k vc tenant : Nat) (sys : Bool) (route : Option Nat) (bs : List Byte) : Die :=
  if k < 6 then
    (cutPayloads (bs.length / 1024 + 1) bs).foldl (fun e c =>
      e.meshIn { e.newPkt src (linkUnit k) vc tenant sys 0 c with route := route }) d
  else d

/-- A control message of the Lighthouse to a neighbour leaves on VC1 (R64, R457). The spec gives its bytes no layout, so the output
names its kind and its words (DESIGN CHOICE, log entry 74). -/
def Die.tellLink (d : Die) (k kind : Nat) (words : List Nat) : Die :=
  (d.toLink (.edge 1 0) k 1 0 true none ((kind :: words).map (natLe 8)).flatten).emit (.linkMsg k kind words)

/-- A shard leaves DRAM through the edge DMA on VC0 (R60, R263, R353). -/
def Die.sendShard (d : Die) (k seq : Nat) (sh : List Byte) (tenant : Nat) (sys : Bool) (route : Option Nat) : Die :=
  (d.toLink (.edge 0 1) k 0 tenant sys route sh).emit (.shard k seq sh)

/-- Lighthouse firmware runs (R507, R523). -/
def Die.fwRuns (d : Die) : Bool := decide (d.stage = 6) && !d.computeHeld

/-- Low-water mode (R514). -/
def Die.lowWater (d : Die) : Bool := decide (d.stage = 8)

/-- A stack accepts requests: TRAINED or READY (R392). -/
def Die.stackUp (d : Die) (k : Nat) : Bool :=
  d.get (Reg.BOOT_MEM_STATUS_STATE k) == 2 || d.get (Reg.BOOT_MEM_STATUS_STATE k) == 4

/-- Both stacks accept requests. -/
def Die.dramUp (d : Die) : Bool := d.stackUp 0 && d.stackUp 1

/-- The latest regular VDD_SOC result, from the converter R482 selects. -/
def Die.vCore (d : Die) : Nat :=
  if d.get Reg.MON_PLAUS_SUSPECT = 1 then d.get (Reg.MON_RES_B_VALUE 0) else d.get (Reg.MON_RES_A_VALUE 0)

/-- The latest diode reading, or 0x8000 while none exists (R563). -/
def Die.diode (d : Die) : Nat :=
  if d.on Reg.THM_DIODE_VALID then d.get Reg.THM_DIODE_TEMP else 0x8000

/-! ### Events (R444) -/

/-- Bytes a record takes in the queue: its head and its body padded to 8 bytes. -/
def EvRec.size (r : EvRec) : Nat := 16 + (r.body.length + 7) / 8 * 8

/-- Queues an event for one session; a full queue drops and counts it, and so does a slot without a session. -/
def Die.event (d : Die) (slot kind : Nat) (body : List Byte) : Die :=
  match d.session slot with
  | none => d.bump (⟨Reg.HP_EVT_LOST, 0, 32⟩) 1
  | some x =>
    let r : EvRec := { kind := kind, seq := 0, time := d.now, body := body }
    if (x.events.map EvRec.size).sum + r.size ≤ 65536 then d.putSession slot { x with events := x.events ++ [r] }
    else (d.putSession slot { x with evtLost := x.evtLost + 1 }).bump (⟨Reg.HP_EVT_LOST, 0, 32⟩) 1

/-- The slots of sessions that hold role bit `r` (0 CONTROL, 1 EVENTS, 2 STREAM, 3 DEBUG). -/
def Die.slotsWith (d : Die) (r : Nat) : List Nat :=
  (d.host.sessions.filter (fun p => bit p.2.roles r)).map (·.1)

/-- Queues an event for every session that holds EVENTS; with none it is dropped and counted. -/
def Die.eventAll (d : Die) (kind : Nat) (body : List Byte) : Die :=
  match d.slotsWith 1 with
  | [] => d.bump (⟨Reg.HP_EVT_LOST, 0, 32⟩) 1
  | l => l.foldl (fun e s => e.event s kind body) d

/-! ### Alerts (R573) -/

/-- Alert bits of STL_ALERT. -/
def alPower : Nat := 0
def alThermal : Nat := 1
def alMonitor : Nat := 2
def alDram : Nat := 3
def alLink : Nat := 4
def alHang : Nat := 5
def alGate : Nat := 6
def alSecurity : Nat := 7
def alLost : Nat := 8

/-- Whether STL_ALERT_MASK masks bit `b`; SECURITY is never masked. -/
def Die.alertMasked (d : Die) (b : Nat) : Bool :=
  decide (b ≠ 7) && bit (d.getW Reg.STL_ALERT_MASK).toNat b

/-- Latches alert bit `b`: a new unmasked bit sends an in-band interrupt in I3C mode and an ALERT event. -/
def Die.alert (d : Die) (b : Nat) : Die :=
  let old := d.get Reg.STL_ALERT_BITS
  let d1 := d.put Reg.STL_ALERT_BITS (setBits old b 1 1)
  if bit old b || d.alertMasked b then d1
  else
    let d2 := if d.mgmt.mode == .i3c then d1.emit .inBand else d1
    d2.eventAll 6 (natLe 4 (d1.get Reg.STL_ALERT_BITS))

/-- Whether ALERT_N is low. -/
def Die.alertLow (d : Die) : Bool :=
  (List.range 9).any (fun b => bit (d.get Reg.STL_ALERT_BITS) b && !d.alertMasked b)

/-! ### Strandline records -/

/-- A record's parts (R563), its TIME, TIDE, SEQ, T_DIODE and V_CORE filled in as it is accepted (R564, R565). -/
def Die.mkRec (d : Die) (source event domain sub : Nat) (detail : List Nat) (accTime : Bool) : Rec :=
  { time := d.now, tide := d.tideNum, seq := (d.getW Reg.STL_HEAD).toNat, source := source,
    flags := b2n (d.on Reg.STL_STATUS_FROZEN) + 2 * b2n accTime, event := event, domain := domain, sub := sub,
    tDiode := d.diode, vCore := d.vCore, detail := (detail ++ List.replicate 8 0).take 8 }

/-- Puts a record into the input queue and gives it its SEQ. -/
def Die.accept (d : Die) (r : Rec) : Die :=
  { d with strand := { d.strand with queue := d.strand.queue ++ [r] } }.putW Reg.STL_HEAD (d.getW Reg.STL_HEAD + 1)

/-- Sends a record to the strandline (R567): a full input queue drops it, counts it and raises LOST. -/
def Die.recordT (d : Die) (source event domain sub : Nat) (detail : List Nat) (accTime : Bool) : Die :=
  if d.strand.queue.length < 512 then d.accept (d.mkRec source event domain sub detail accTime)
  else
    let d1 := { d with strand := { d.strand with dropped := d.strand.dropped + 1 } }
    ((d1.bump Reg.STL_LOST_COUNT 1).raise Reg.STL_STATUS_QFULL).alert alLost

/-- Sends a record of class B or C. -/
def Die.record (d : Die) (source event domain sub : Nat) (detail : List Nat) : Die :=
  d.recordT source event domain sub detail false

/-- DETAIL of class A (R572). -/
def detailA (addr word status : Nat) (ag : Agent) (lo width : Nat) : List Nat :=
  [addr % 2 ^ 32, addr / 2 ^ 32, word, status + agentCode ag * 2 ^ 8 + lo * 2 ^ 16 + width * 2 ^ 24]

/-- Sends a record of class A. -/
def Die.recordA (d : Die) (source event domain sub : Nat) (ag : Agent) (addr word status : Nat) : Die :=
  d.record source event domain sub (detailA addr word status ag 0 0)

/-- One record Global 3 for each field whose value a write refuses (R14). The spec names no status for such a write: the model answers
OK, and the record shows OK too, since the write's other fields are applied (DESIGN CHOICE, log entry 68). -/
def Die.recordRefused (d : Die) (ag : Agent) (addr word domain : Nat) (fs : List FieldSpec) : Die :=
  fs.foldl (fun e f => e.record 0x01 3 domain 0xFFFF (detailA addr word stOk ag f.lo f.width)) d

/-- A write refused for the present: nothing but record Global 4 and the busy status (R430, R571). -/
def Die.busy (d : Die) (ag : Agent) (addr word : Nat) : Die :=
  (d.recordA 0x01 4 0xFF 0xFFFF ag addr word stBusy).answer ag stBusy

/-- A plain write of a register: every field as its type says, one record for each reserved encoding, status OK. -/
def Die.plainWrite (d : Die) (ag : Agent) (addr word domain : Nat) : Die :=
  let fs := (regSpec addr).getD []
  ((d.putW addr (w32 (writeFields fs (d.getW addr).toNat word))).recordRefused ag addr word domain
    (refusedFields fs word)).answer ag stOk

/-- Whether an agent may write a block that only DEBUG sessions may (R461, R575 in part). -/
def Die.hasDebug (d : Die) (ag : Agent) : Bool :=
  match ag with
  | .session s => match d.session s with | some x => bit x.roles 3 | none => false
  | _ => false

/-- An owner session (R538). -/
def Die.isOwner (d : Die) (ag : Agent) : Bool :=
  match ag with
  | .session s => match d.session s with
    | some x => d.on (Reg.SEC_SLOT_OWNER x.keySlot) && d.on (Reg.SEC_SLOT_ACTIVE x.keySlot)
    | none => false
  | _ => false

/-- A session that holds CONTROL, J3 once the registers answer, the running firmware, a tile program or a DMA engine: who may
write registers (R27, R43, R428, R508). -/
def Die.mayWrite (d : Die) (ag : Agent) : Bool :=
  match ag with
  | .session s => match d.session s with | some x => bit x.roles 0 | none => false
  | .j3 => d.mgmt.alive && d.mgmt.ready
  | .firmware => d.fwRuns
  | _ => true

/-- The same for registers outside the SEC block and RST_CTRL: a session writes none of them while the security state is not
NORMAL (R551). -/
def Die.mayControl (d : Die) (ag : Agent) : Bool :=
  d.mayWrite ag && (match ag with | .session _ => decide (d.get Reg.SEC_STATUS_STATE = 0) | _ => true)

/-- A reset of the TILE domain `n`, the COMPUTE reset or one that contains it holds the tile, or low-water mode does (R508,
R514, R516). -/
def Die.tileHeld (d : Die) (t : Nat) : Bool :=
  d.computeHeld || d.lowWater || d.boot.resets.any (fun r => r.asserted && r.dom == 16 + t)

/-- A tile that accepts accesses: enabled, its SRAM zeroed, neither parked nor held in reset (R3, R183, R508, R522). -/
def Die.tileAnswers (d : Die) (t : Nat) : Bool :=
  d.enabled t && (d.tile t).ready && !(d.tile t).parked && !d.tileHeld t

/-- What stops a write of the register at `a` in the window of tile `t`: a disabled tile ignores it and records it (R3); a tile
that a reset holds, or whose SRAM is being zeroed, is not ready (R183, R508); a parked one is busy (R522). -/
def Die.windowStop (d : Die) (ag : Agent) (t a w : Nat) : Option Die :=
  if !d.enabled t then some ((d.recordA 0x01 2 t 0xFFFF ag a w stOk).answer ag stOk)
  else if d.tileHeld t || !(d.tile t).ready then some (d.answer ag stNotReady)
  else if (d.tile t).parked then some (d.answer ag stBusy)
  else none

/-- A write of a register in a tile's window: `f`, unless something stops it. -/
def Die.tileWindow (d : Die) (ag : Agent) (t a w : Nat) (f : Die → Die) : Die := (d.windowStop ag t a w).getD (f d)

/-! ### The array map (R269, R270, R324) -/

/-- The physical array that serves logical array `l` (R270). -/
def Die.serving (d : Die) (t l : Nat) : Option Nat :=
  if d.on (Reg.TILE_AMAP_VALID t l) then some (d.get (Reg.TILE_AMAP_PHYS t l)) else none

/-- The logical array that physical array `a` is mapped to. -/
def Die.mappedTo (d : Die) (t a : Nat) : Option Nat := (List.range 256).find? (fun l => d.serving t l == some a)

/-- A repair rank is due to be written: its array serves its matrix, or comes in at the next step boundary (R324). -/
def Die.rankDue (d : Die) (x : RankUse) : Bool :=
  let t := x.arr / 272
  let a := x.arr % 272
  !x.written && ((d.mappedTo t a).isSome || (List.range 256).any (fun l => d.on (Reg.TILE_AMAP_PEND t l) && d.get (Reg.TILE_AMAP_NEXT t l) == a))

/-- A command that writes a register of tile `t`: its agent may write, and `ok` holds of its operands. -/
def tileCmd (ag : Agent) (t a w : Nat) (ok : Bool) (f : Die → Die) (s : State) : Host.Outcome State Fault Refusal :=
  mainCmd (fun d => d.mayControl ag && decide (t < 64) && ok) (fun d => d.tileWindow ag t a w f) s

end Sys2Proof.Machine
end

