-- ==== Sys2Proof/Machine/Mailbox.lean ====
section
/-! DEFINITION. What every mailbox command shares (R440, R441, R357): it runs in a BUSY box while the Lighthouse firmware runs,
and leaves its result code and bytes in the box for MBX_COMPLETE. -/
namespace Sys2Proof.Machine

/-- Result codes of R357, R382, R501 and R562. -/
def rcOk : Nat := 0
def rcBusy : Nat := 11
def rcState : Nat := 12
def rcRange : Nat := 13
def rcNotFront : Nat := 14
def rcNoRecord : Nat := 15
def rcNoSlot : Nat := 16
def rcPackInvalid : Nat := 17
def rcNoPack : Nat := 18
def rcUnstable : Nat := 24
def rcSpan : Nat := 25
def rcLimit : Nat := 26
def rcCached : Nat := 27
def rcExhausted : Nat := 28

/-- The box runs a command that has not yet produced its result. -/
def Die.boxRuns (d : Die) (box : Nat) : Bool :=
  decide (box < 64) && (d.box box).state == .busy && (d.box box).result.isNone

/-- The firmware finishes the command in a box with a result code and result bytes. -/
def Die.reply (d : Die) (box code : Nat) (bytes : List Byte) : Die :=
  d.setBox box { d.box box with result := some (code, bytes) }

/-- The same, with bytes for OUT_ADDR apart from the result. -/
def Die.replyOut (d : Die) (box code : Nat) (bytes outBytes : List Byte) : Die :=
  d.setBox box { d.box box with result := some (code, bytes), outBytes := outBytes }

/-- Where the parameters of a command end, counted from byte 32, for the commands whose layout the spec gives: CHART_RELAY
(R581), HANG_REPORT (R535), ATTEST (R562) and STL_READ (R570). -/
def paramEnds (code : Nat) : List Nat :=
  match code with
  | 0x0210 => [0, 1, 2, 3, 4, 7, 8, 12, 16, 80]
  | 0x0500 => [0, 1, 4]
  | 0x0600 => [0, 32]
  | 0x0700 => [0, 4, 8]
  | _ => []

/-- PLEN of the request in a box cuts a parameter part way (R440, R583). -/
def Die.plenCuts (d : Die) (box : Nat) : Bool :=
  let q := 0x40000 + 0x100 * box
  let ends := paramEnds (bits (d.getW q).toNat 0 16)
  let n := bits (d.getW (q + 8)).toNat 0 16
  decide (n < ends.getLastD 0) && !ends.contains n

/-- The request in a box is refused with RANGE before it runs: PLEN cuts a parameter part way, or OUT_ADDR is given and does not lie in general
DRAM (R440, R583). -/
def Die.boxRefused (d : Die) (box : Nat) : Bool :=
  let q := 0x40000 + 0x100 * box
  let out := (d.getW (q + 16)).toNat + 2 ^ 32 * (d.getW (q + 20)).toNat
  d.plenCuts box || (decide (out ≠ 0) && !isGeneral out)

/-- The first `n` bytes of the parameters in a request box, from its byte 32 (R440): `dflt` beyond PLEN (R583). -/
def Die.paramBytes (d : Die) (box n dflt : Nat) : List Byte :=
  let q := 0x40000 + 0x100 * box
  let plen := bits (d.getW (q + 8)).toNat 0 16
  (List.range n).map (fun i => b8 (if i < plen then bits (d.getW (q + 32 + i / 4 * 4)).toNat (8 * (i % 4)) 8 else dflt))

/-- A mailbox command: it runs while the firmware runs and its box is BUSY with it, unless its request is refused with RANGE (R440, R583). -/
def fwCmd (box : Nat) (f : Die → Die) (s : State) : Host.Outcome State Fault Refusal :=
  mainCmd (fun d => d.fwRuns && d.boxRuns box) (fun d => if d.boxRefused box then d.reply box rcRange [] else f d) s

/-- The poster of a box, by the code of R443: a session slot, 8 for J3, 0xFF while FREE. -/
def Die.boxOwner (d : Die) (box : Nat) : Nat := d.get (Reg.MBX_OWNER_OWNER box)

/-- Whether an owner session posted the box (R548, R562). -/
def Die.boxOwnerSession (d : Die) (box : Nat) : Bool :=
  decide (d.boxOwner box < 8) && d.isOwner (.session (d.boxOwner box))

end Sys2Proof.Machine
end

