-- ==== Sys2Proof/Machine/Strand.lean ====
section
/-! DEFINITION. The strandline (R563 to R574) and the perturbation registers (R575 to R579). -/
namespace Sys2Proof.Machine

/-- A record written out as 64 bytes (R563). -/
def recBytes (r : Rec) : List Byte :=
  natLe 8 r.time ++ natLe 8 r.tide ++ natLe 4 r.seq ++ natLe 1 r.source ++ natLe 1 r.flags ++ natLe 2 r.event ++
  natLe 1 r.domain ++ natLe 1 0 ++ natLe 2 r.sub ++ natLe 2 r.tDiode ++ natLe 2 r.vCore ++
  (r.detail.map (natLe 4)).flatten

/-- Source and event codes of R571. -/
def eventsOf (source : Nat) : Nat :=
  match source with
  | 0x01 => 8 | 0x02 => 1 | 0x03 => 2 | 0x04 => 3 | 0x05 => 5 | 0x07 => 4 | 0x08 => 1 | 0x09 => 3 | 0x0A => 3 | 0x0B => 5
  | 0x0C => 2 | 0x0D => 1 | 0x10 => 5 | 0x11 => 4 | 0x12 => 2 | 0x20 => 3 | 0x21 => 1 | 0x30 => 2 | 0x31 => 2 | _ => 0

/-- The ring is usable (R566). -/
def Die.ringUsable (d : Die) : Bool := d.on Reg.STL_CTRL_EN && d.dramUp

/-- When the ring becomes usable after its contents were lost, it restarts at the oldest waiting record (R566). -/
def Die.ringCheck (d : Die) : Die :=
  if d.ringUsable && !d.strand.ringLive then
    let first := match d.strand.queue with | r :: _ => r.seq | [] => (d.getW Reg.STL_HEAD).toNat
    let d1 := { d with strand := { d.strand with ringLive := true } }.putW Reg.STL_RING_FIRST (w32 first)
    d1.record 0x30 2 99 0xFFFF [first]
  else d

/-- The next record not yet in the on-die copy is written there unless the copy is frozen or the record goes to the ring only
(R567 to R569). -/
def Die.copyNext (d : Die) : Die :=
  match d.strand.queue[d.strand.copied]? with
  | none => d
  | some r =>
    let c := if bit r.flags 0 || d.on Reg.STL_STATUS_FROZEN then d.strand.copy else keep d.strand.copy (r.seq % 256) r
    { d with strand := { d.strand with copy := c, copied := d.strand.copied + 1 } }

/-- The oldest record, copied already, is written to the usable ring and leaves the queue, its whole-sector write
clearing poison (R390); when records were dropped, record STL 1 with their number follows as soon as there is room (R566, R567). -/
def Die.ringNext (d : Die) : Die :=
  match d.strand.queue with
  | [] => d
  | r :: rest =>
    if d.ringUsable && decide (0 < d.strand.copied) then
      let a := stlRing + 64 * (r.seq % 65536)
      let d0 := { d with badSectors := without d.badSectors a, errSectors := amErase d.errSectors a }
      let d1 := d0.setBytes a (recBytes r)
      let d2 := { d1 with strand := { d1.strand with queue := rest, copied := d1.strand.copied - 1 } }
      if d2.strand.dropped = 0 then d2
      else
        let n := d2.strand.dropped
        { d2 with strand := { d2.strand with dropped := 0 } }.record 0x30 1 99 0xFFFF [n]
    else d

/-- STL_RING_WRITE: one pass of the controller over its input queue (R566 to R568). -/
def execStlRingWrite (s : State) : Host.Outcome State Fault Refusal :=
  dieCmd (fun d => !d.strand.queue.isEmpty) (fun d => d.copyNext.ringNext) s

/-- STL_RECORD: a block sends a record whose source and event R571 lists. -/
def execStlRecord (source event domain sub : Nat) (detail : List Nat) (accTime : Bool) (s : State) :
    Host.Outcome State Fault Refusal :=
  dieCmd (fun _ => decide (1 ≤ event) && decide (event ≤ eventsOf source))
    (fun d => d.recordT source event domain sub detail accTime) s

/-- The frozen copy is released and takes records again (R569). -/
def Die.releaseCopy (d : Die) : Die := d.clear Reg.STL_STATUS_FROZEN

/-- STL_RELEASE: a write of STL_CTRL.RELEASE (R569, R574). -/
def execStlRelease (ag : Agent) (s : State) : Host.Outcome State Fault Refusal :=
  dieCmd (fun d => d.mayControl ag) (fun d => d.releaseCopy.answer ag stOk) s

/-- The bytes of record `q` as STL_READ delivers it: from the queue or the ring, or 64 zero bytes where the ring no longer
holds it (R570). -/
def Die.ringRecord (d : Die) (q : Nat) : Option (List Byte) :=
  let head := (d.getW Reg.STL_HEAD).toNat
  let age := (head + 2 ^ 32 - q) % 2 ^ 32
  let span := (head + 2 ^ 32 - (d.getW Reg.STL_RING_FIRST).toNat) % 2 ^ 32
  if age = 0 ∨ 65536 < age ∨ span < age then none
  else match d.strand.queue.find? (fun r => r.seq == q) with
    | some r => some (recBytes r)
    | none => some (d.bytesAt (stlRing + 64 * (q % 65536)) 64)

/-- STL_READ (R570): the records from FIRST_SEQ up, in SEQ order, at OUT_ADDR; the first deliverable SEQ and the number of
records written in the response box. -/
def execStlRead (box first count : Nat) (s : State) : Host.Outcome State Fault Refusal :=
  fwCmd box (fun d =>
    if count = 0 ∨ 65536 < count then d.reply box rcRange []
    else
      let seqs := (List.range count).map (fun i => (first + i) % 2 ^ 32)
      let recs := seqs.map (fun q => d.ringRecord q)
      let firstOk := ((seqs.zip recs).find? (fun p => p.2.isSome)).map (·.1)
      d.replyOut box rcOk (natLe 4 (firstOk.getD (d.getW Reg.STL_RING_FIRST).toNat) ++ natLe 4 count)
        ((recs.map (fun r => r.getD (zeros 64))).flatten)) s

/-! ### Perturbation -/

/-- Injector `i` beside its registers. -/
def Die.inj (d : Die) (i : Nat) : Injector := amGet {} d.injectors i
def Die.setInj (d : Die) (i : Nat) (x : Injector) : Die := { d with injectors := amSet {} d.injectors i x }

/-- A write to the PTB block by anyone but a DEBUG session is refused with ROLE and record SEC 2 (R575). -/
def Die.ptbRefuse (d : Die) (ag : Agent) (addr word : Nat) : Die :=
  (d.recordA 0x0A 2 95 0xFFFF ag addr word stRole).answer ag stRole

/-- Whether TARGET names something absent: a disabled tile, a router above 71, a link in DISABLED (R576). -/
def Die.targetBad (d : Die) (i tgt : Nat) : Bool :=
  match i with
  | 1 => let r := bits tgt 24 7
         decide (71 < r) || (decide (r < 64) && !d.enabled r)
  | 2 => let k := bits tgt 24 3
         decide (5 < k) || d.get (Reg.LNK_STATUS_STATE k) == 0
  | _ => !d.enabled (bits tgt 24 6)

/-- Values of AMOUNT an injector allows (R577). -/
def amountOk (i n : Nat) : Bool :=
  match i with
  | 2 => decide (1 ≤ n) && decide (n ≤ 8)
  | 4 => n == 0
  | 5 => n == 0
  | _ => decide (1 ≤ n) && decide (n ≤ 65535)

/-- PTB_ARM: EN of an injector written 1 with the word `w` (R575, R576). A COUNT of 0 or an absent TARGET is a reserved encoding, whose
record shows the whole word (R14). -/
def Die.ptbArm (d : Die) (ag : Agent) (i w : Nat) : Die :=
  if !d.hasDebug ag then d.ptbRefuse ag (Reg.PTB_CFG i) w
  else if d.on (Reg.PTB_CFG_EN i) then d.answer ag stOk
  else if d.get (Reg.PTB_COUNT_COUNT i) = 0 ∨ d.targetBad i (d.getW (Reg.PTB_TARGET i)).toNat = true then
    (d.record 0x01 3 0xFF 0xFFFF (detailA (Reg.PTB_CFG i) w stOk ag 0 1)).answer ag stOk
  else ((d.raise (Reg.PTB_CFG_EN i)).setInj i {}).answer ag stOk

def execPtbArm (ag : Agent) (inj : Nat) (s : State) : Host.Outcome State Fault Refusal :=
  mainCmd (fun d => d.mayControl ag && decide (inj < 6)) (fun d => d.ptbArm ag inj 1) s

/-- Record PTB 2 of an injector (R576). -/
def Die.ptbDone (d : Die) (i : Nat) : Die :=
  (d.setInj i {}).record 0x31 2 0xFF 0xFFFF [i, d.get (Reg.PTB_FIRED_COUNT i)]

/-- PTB_KILL: clears EN and COUNT of every injector, with DONE for each that was armed (R579). -/
def Die.ptbKill (d : Die) : Die :=
  (List.range 6).foldl (fun e i =>
    let was := e.on (Reg.PTB_CFG_EN i)
    let e1 := (e.clear (Reg.PTB_CFG_EN i)).clear (Reg.PTB_COUNT_COUNT i)
    if was then e1.ptbDone i else e1) d

def execPtbKill (ag : Agent) (s : State) : Host.Outcome State Fault Refusal :=
  mainCmd (fun d => d.mayControl ag)
    (fun d => if d.hasDebug ag then d.ptbKill.answer ag stOk else d.ptbRefuse ag Reg.PTB_CTRL 0x80000000) s

/-- One firing: COUNT falls, FIRED rises; at 0 EN clears and record PTB 2 is written (R576). -/
def Die.ptbFire (d : Die) (i : Nat) : Die :=
  let c := d.get (Reg.PTB_COUNT_COUNT i) - 1
  let d1 := (d.put (Reg.PTB_COUNT_COUNT i) c).bump (Reg.PTB_FIRED_COUNT i) 1
  if c = 0 then (d1.clear (Reg.PTB_CFG_EN i)).ptbDone i else d1

/-- Whether injector `i` is in effect. -/
def Die.ptbActive (d : Die) (i : Nat) : Bool := d.on (Reg.PTB_CFG_EN i) && (d.inj i).active

/-- At a tide boundary armed injectors take effect, each with record PTB 1 (R576). -/
def Die.ptbBoundary (d : Die) : Die :=
  (List.range 6).foldl (fun e i =>
    if e.on (Reg.PTB_CFG_EN i) && !(e.inj i).active then
      (e.setInj i { active := true }).record 0x31 1 0xFF 0xFFFF
        [i, (e.getW (Reg.PTB_TARGET i)).toNat, e.get (Reg.PTB_AMOUNT_AMOUNT i), e.get (Reg.PTB_COUNT_COUNT i)]
    else e) d

/-- Every perturbation register returns to its reset value, without DONE (R556, R575). -/
def Die.ptbReset (d : Die) : Die := { d.resetRegs (within 0xB0000 0xC0000) with injectors := [] }

end Sys2Proof.Machine
end

