-- ==== Sys2Proof/Machine/Marks.lean ====
section
/-! DEFINITION. Tide marks (R218, R219, R465), the fault stop (R466) and changes of throttle demand. -/
namespace Sys2Proof.Machine

/-- GLB_COORD bits [15:0]. -/
def Die.coord (d : Die) : Nat := (d.getW Reg.GLB_COORD).toNat % 65536

/-- The beacon a module puts into its marks (R219): its own at hop 0 when it is the tide master, else the latest received
with the hop count raised by one. -/
def Die.beaconOut (d : Die) : Option Beacon :=
  if d.on Reg.TIDE_SLICE_MASTER then
    match d.tide.table with
    | some t => some { tide := d.tideNum, phase := (d.tideNum + t.tides - d.get Reg.TIDE_POS_POS % t.tides) % t.tides, hops := 0 }
    | none => none
  else d.tide.beacon.map (fun b => { b with hops := b.hops + 1 })

/-- A mark's payload (R465). -/
def Die.markBytes (d : Die) (link : Nat) (stop fault : Bool) (cause coord : Nat) : List Byte :=
  let b := d.beaconOut
  let bv := b.getD { tide := 0, phase := 0, hops := 0 }
  natLe 8 d.tideNum ++ natLe 1 (b2n stop + 2 * b2n fault + 4 * b2n b.isSome) ++ natLe 1 bv.hops ++ natLe 2 bv.phase ++
  zeros 4 ++ natLe 8 bv.tide ++ natLe 4 (d.getW Reg.TIDE_THROTTLE).toNat ++ natLe 4 (d.getW Reg.TIDE_THR_APPLIED).toNat ++
  ((d.link link).freed.map (natLe 4)).flatten ++ natLe 2 coord ++ natLe 1 (if fault then cause else 0)

/-- Whether link `k` is UP (R458). -/
def Die.linkUp (d : Die) (k : Nat) : Bool := d.get (Reg.LNK_STATUS_STATE k) == 4

/-- The slice links: those of the latched mask that are still UP (R464, R466). -/
def Die.sliceLinks (d : Die) : List Nat := (List.range 6).filter (fun k => bit d.sliceMask k && d.linkUp k)

/-- Puts a mark on the queue of one link; it returns the receiver's credits (R455, R465). -/
def Die.sendMark (d : Die) (k : Nat) (stop fault : Bool) (cause coord : Nat) : Die :=
  let bs := d.markBytes k stop fault cause coord
  (d.modLink k (fun l => { l with txMarks := l.txMarks ++ [bs], returned := l.freed })).emit
    (.mark k d.tideNum stop (if fault then cause else 0) coord)

/-- Marks on every slice link. -/
def Die.sendMarks (d : Die) (stop fault : Bool) (cause coord : Nat) : Die :=
  d.sliceLinks.foldl (fun e k => e.sendMark k stop fault cause coord) d

/-- ENG_CTRL.ENABLE set or cleared (R198): an enable during a stop is deferred. -/
def Die.setEnable (d : Die) (t : Nat) (en : Bool) : Die :=
  if en then
    if (d.tile t).stopping then d.modTile t (fun x => { x with enableDeferred := true }) else d.raise (Reg.ENG_CTRL_ENABLE t)
  else (d.clear (Reg.ENG_CTRL_ENABLE t)).modTile t (fun x => { x with
    stopping := x.stopping || x.dispatching, enableDeferred := false })

/-- ENG_CTRL.ENABLE set or cleared in every enabled tile (R243, R244). -/
def Die.enableAll (d : Die) (en : Bool) : Die := d.enabledTiles.foldl (fun e t => e.setEnable t en) d

/-- A fault stop (R466): a mark with FAULT and STOP on every slice link, record TIDE 5, the tiles disabled in this tide, and the tide
block stops at the boundary that ends it, as on STOP_NOW. A module whose table is not armed has nothing to stop (log entry
41). -/
def Die.faultStop (d : Die) (cause coord : Nat) : Die :=
  if d.armed && d.tide.fault.isNone then
    let d1 := { d with tide := { d.tide with stopNow := true, stopFlag := true, fault := some (cause, coord) } }
    ((d1.sendMarks true true cause coord).record 0x05 5 96 0xFFFF [cause, coord]).enableAll false
  else d

/-- Step phase (R219): (tide number - position) mod T. -/
def Die.phase (d : Die) : Nat :=
  match d.tide.table with
  | some t => (d.tideNum + t.tides - d.get Reg.TIDE_POS_POS % t.tides) % t.tides
  | none => 0

/-- A mark arrives on a slice link (R218, R219, R465, R466): it is kept as the link's latest, its credits are taken over, its
beacon is compared, and copied by every module but the master, and a mark with FAULT makes a fault stop of its own. -/
def Die.markReceive (d : Die) (k : Nat) (m : Mark) : Die :=
  let mi : MarkIn := { tide := m.tide, stop := m.stop, fault := m.fault, applied := m.applied, retried := m.retried }
  let d1 := ({ d with tide := { d.tide with marks := keep d.tide.marks k mi } }).modLink k (fun l => { l with credit := m.credits })
  let d2 :=
    match m.beacon with
      | none => d1
      | some (bt, ph, hops) =>
        let e := if d.on Reg.TIDE_SLICE_MASTER then d1
          else { d1 with tide := { d1.tide with beacon := some { tide := bt, phase := ph, hops := hops } } }
        if decide (4 ≤ d.tideState) && decide (ph ≠ d.phase) then
          ((e.raise Reg.TIDE_STATUS_DIVERGE).record 0x05 3 96 0xFFFF [k, ph]).faultStop 3 d.coord
        else e
  if m.fault then (d2.raise (Reg.LNK_STATUS_FAULT_RX k)).faultStop m.fCause m.fCoord else d2

/-- The mark that a payload spells (R465). -/
def readMark (bs : List Byte) (retried : Bool) : Mark :=
  let fl := leAt bs 8 1
  { tide := leAt bs 0 8, stop := bit fl 0, fault := bit fl 1,
    beacon := if bit fl 2 then some (leAt bs 16 8, leAt bs 10 2, leAt bs 9 1) else none,
    demand := leAt bs 24 4, applied := leAt bs 28 4,
    credits := [leAt bs 32 4, leAt bs 36 4, leAt bs 40 4, leAt bs 44 4],
    fCoord := leAt bs 48 2, fCause := leAt bs 50 1, retried := retried }

/-- The merge of two throttle demands (R490): the larger STRETCH, the smaller nonzero SKIP, the larger DIV. Words in the layout
of R249. -/
def mergeThrottle (a b : Nat) : Nat :=
  let sk := if bits a 8 8 = 0 then bits b 8 8 else if bits b 8 8 = 0 then bits a 8 8 else min (bits a 8 8) (bits b 8 8)
  max (bits a 0 8) (bits b 0 8) + sk * 256 + max (bits a 16 2) (bits b 16 2) * 65536

/-- PWR_FAST as a demand (R500). -/
def Die.fastDemand (d : Die) : Nat := (d.getW Reg.PWR_FAST).toNat % 0x40000

/-- A write of the throttle demand: merged with PWR_FAST while the guard holds (R490). -/
def Die.writeDemand (d : Die) (w : Nat) : Die :=
  { d with sense := { d.sense with demand := w } }.putW Reg.TIDE_THROTTLE (w32 (if d.on Reg.PWR_GUARD_ACTIVE then mergeThrottle w d.fastDemand else w))

end Sys2Proof.Machine
end

