-- ==== Sys2Proof/Machine/Sessions.lean ====
section
/-! DEFINITION. The state of mailbox boxes (R440, R441), the end of sessions (R432), and requests for resets (R516 to R518). -/
namespace Sys2Proof.Machine

/-- A bit of a register pair that covers boxes, tiles or channels 0 to 31 and 32 to 63. -/
def bitOf (reg : Nat → Nat) (k : Nat) : Fld := ⟨reg (k / 32), k % 32, 1⟩

/-- A box enters a state, which MBX_DB, MBX_DONE and MBX_BUSY show (R443). -/
def Die.boxTo (d : Die) (k : Nat) (st : BoxState) (owner : Nat) : Die :=
  let b := d.box k
  let d1 := d.setBox k { b with state := st, result := none, outBytes := [] }
  let d2 := d1.put (bitOf Reg.MBX_DB k) (b2n (st == .posted))
  let d3 := d2.put (bitOf Reg.MBX_DONE k) (b2n (st == .done))
  let d4 := d3.put (bitOf Reg.MBX_BUSY k) (b2n (st == .busy))
  d4.put (Reg.MBX_OWNER_OWNER k) owner

/-- A box is released to FREE (R441). -/
def Die.freeBox (d : Die) (k : Nat) : Die :=
  let d1 := d.boxTo k .free 0xFF
  { d1 with host := { d1.host with doorbells := without d1.host.doorbells k } }

/-- The bulk window `w` closes (R438). -/
def Die.closeWindow (d : Die) (w : Nat) : Die :=
  { d with host := { d.host with windows := amErase d.host.windows w } }

/-- A session ends (R432): its windows close, its cached responses and events go with it, and its mailboxes are released. -/
def Die.endSession (d : Die) (slot : Nat) : Die :=
  let d1 := { d with host := { d.host with
    windows := d.host.windows.filter (fun p => decide (p.2.slot ≠ slot)),
    sessions := amErase d.host.sessions slot } }
  (List.range 64).foldl (fun e k => if e.boxOwner k = slot then e.freeBox k else e) d1

/-- Every session ends. -/
def Die.endAll (d : Die) : Die := (d.host.sessions.map (·.1)).foldl (fun e s => e.endSession s) d

/-- The DEBUG role is withdrawn from the sessions `which` picks, each with a SESSION event of reason DEBUG_REVOKED, and every
perturbation register returns to its reset value (R556). -/
def Die.revokeDebug (d : Die) (which : Session → Bool) : Die :=
  let hit := (d.host.sessions.filter (fun p => which p.2 && bit p.2.roles 3)).map (·.1)
  (hit.foldl (fun e s => match e.session s with
    | none => e
    | some x => (e.putSession s { x with roles := setBits x.roles 3 1 0 }).event s 7 (natLe 4 3)) d).ptbReset

/-- Whether domain `a` contains domain `b` properly (R516). -/
def domContains (a b : Nat) : Bool :=
  match a with
  | 0 => decide (b ≠ 0)
  | 1 => decide (1 < b)
  | 2 => decide (16 ≤ b)
  | _ => false

/-- A reset is requested (R518): a request for one in progress merges, one contained in a reset in progress is ignored, and one
that contains others takes them over. -/
def Die.requestReset (d : Die) (dom cause : Nat) : Die :=
  if d.boot.resets.any (fun r => r.dom == dom || domContains r.dom dom) then d
  else { d with boot := { d.boot with
    resets := d.boot.resets.filter (fun r => !domContains dom r.dom) ++ [{ dom := dom, cause := cause }] } }

end Sys2Proof.Machine
end

