-- ==== Sys2Proof/Machine/Security.lean ====
section
/-! DEFINITION. The security block (R537 to R562): the key store, alarms and their responses, debug, attestation. -/
namespace Sys2Proof.Machine

/-- The security state (R557): 0 NORMAL, 1 LOCKED, 2 ERASING, 3 ERASED. -/
def Die.secState (d : Die) : Nat := d.get Reg.SEC_STATUS_STATE

/-- A write to the SEC block without an owner session: status ROLE and record SEC 2 (R538). -/
def Die.secRefuse (d : Die) (ag : Agent) (addr word : Nat) : Die :=
  (d.recordA 0x0A 2 95 0xFFFF ag addr word stRole).answer ag stRole

/-- A write to the SEC block: carried out for an owner session, refused otherwise (R538). -/
def Die.secWrite (d : Die) (ag : Agent) (addr word : Nat) (f : Die → Die) : Die :=
  if d.isOwner ag then f d else d.secRefuse ag addr word

/-- A refused reserved encoding of one field (R14). -/
def Die.rsvRefuse (d : Die) (ag : Agent) (addr word lo width : Nat) : Die :=
  (d.record 0x01 3 0xFF 0xFFFF (detailA addr word stOk ag lo width)).answer ag stOk

/-- The first `n` bytes of KMAC256(key, input, 256, custom) (R540; log entry 15). -/
def kmac (key input custom : List Byte) (n : Nat) : List Byte :=
  (List.range n).map (Config.kmac256 key input custom)

/-- The bytes of an ASCII string. -/
def ascii (s : String) : List Byte := s.toList.map (fun c => b8 c.toNat)

/-- The key of slot `s` (R537). -/
def Die.keyOf (d : Die) (s : Nat) : List Byte := (look d.nv.keys s).getD (zeros 32)

/-- The key session of an agent. -/
def Die.sessionKey (d : Die) (ag : Agent) : List Byte :=
  match ag with
  | .session s => match d.session s with | some x => x.key | none => []
  | _ => []

/-- The slots that are ACTIVE and OWNER, slot `s` taken as holding attributes `a` (bit 0 ACTIVE, 1 OWNER). -/
def Die.ownersWith (d : Die) (s a : Nat) : Bool :=
  (List.range 8).any (fun i => if i = s then a % 4 == 3
    else d.on (Reg.SEC_SLOT_ACTIVE i) && d.on (Reg.SEC_SLOT_OWNER i))

/-- The result code of a key write (R539, R560): 3 LOCKED while the state is not NORMAL, 1 CHECK, 2 LAST_OWNER, 0 OK. -/
def Die.keyResult (d : Die) (ag : Agent) (slot attr : Nat) : Nat × List Byte :=
  let wrapped := ((List.range 8).map (fun w => natLe 4 (amGet 0 d.sec.keyData w).toNat)).flatten
  let pad := kmac (d.sessionKey ag) (natLe 1 slot ++ natLe 4 (d.getW Reg.SEC_KEY_CNT).toNat) (ascii "KH880 key wrap") 32
  let key := (wrapped.zip pad).map (fun p => p.1 ^^^ p.2)
  if d.secState ≠ 0 then (3, key)
  else if leNat (kmac key [] (ascii "KH880 key check") 4) ≠ (d.getW Reg.SEC_KEY_CHK).toNat then (1, key)
  else if d.ownersWith slot attr = false then (2, key)
  else (0, key)

/-- KEY_WRITE: SEC_KEY_CMD with its attributes, slot and GO (R539). KEY_CNT rises whatever the result; sessions on a
rewritten slot end, and a slot that loses DEBUG takes the perturbation registers with it (R556). -/
def Die.keyWrite (d : Die) (ag : Agent) (word : Nat) : Die :=
  let fs := (regSpec Reg.SEC_KEY_CMD).getD []
  let d0 := d.putW Reg.SEC_KEY_CMD (w32 (setBits (writeFields fs (d.getW Reg.SEC_KEY_CMD).toNat word) 31 1 0))
  if !bit word 31 then d0.answer ag stOk
  else
    let slot := bits word 0 3
    let attr := bits word 4 3
    let r := d0.keyResult ag slot attr
    let d1 := (d0.put Reg.SEC_KEY_CMD_RESULT r.1).putW Reg.SEC_KEY_CNT (d0.getW Reg.SEC_KEY_CNT + 1)
    let d2 := d1.answer ag stOk
    if r.1 ≠ 0 then d2
    else
      let hadDebug := d.on (Reg.SEC_SLOT_DEBUG slot)
      let d3 := { d2 with nv := { d2.nv with keys := keep d2.nv.keys slot r.2 } }
      let d4 := ((d3.put (Reg.SEC_SLOT_ACTIVE slot) (bits attr 0 1)).put (Reg.SEC_SLOT_OWNER slot) (bits attr 1 1)).put
        (Reg.SEC_SLOT_DEBUG slot) (bits attr 2 1)
      let d5 := if hadDebug && !bit attr 2 then d4.revokeDebug (fun x => x.keySlot == slot) else d4
      ((d5.host.sessions.filter (fun p => p.2.keySlot == slot)).map (·.1)).foldl (fun e s => e.endSession s) d5

def execKeyWrite (ag : Agent) (word : Nat) (s : State) : Host.Outcome State Fault Refusal :=
  mainCmd (fun d => d.mayWrite ag) (fun d => d.secWrite ag Reg.SEC_KEY_CMD word (fun e => e.keyWrite ag word)) s

/-- UNLOCK (R552, R554): LOCKED becomes NORMAL; refused while SEC_ALARM_N is low. -/
def Die.unlock (d : Die) (ag : Agent) : Die :=
  if d.sec.extLow then d.busy ag Reg.SEC_CTRL 0x80000000
  else if d.secState = 1 then
    ({ d with sec := { d.sec with respRunning := 0 } }.put Reg.SEC_STATUS_STATE 0).answer ag stOk
  else d.answer ag stOk

def execUnlock (ag : Agent) (s : State) : Host.Outcome State Fault Refusal :=
  mainCmd (fun d => d.mayWrite ag) (fun d => d.secWrite ag Reg.SEC_CTRL 0x80000000 (fun e => e.unlock ag)) s

/-- DEBUG_EN_WRITE (R555 to R557): clearing DEBUG_EN withdraws the DEBUG role from every session. -/
def Die.debugEnWrite (d : Die) (ag : Agent) (enable : Bool) : Die :=
  let d1 := (d.put Reg.SEC_CTRL_DEBUG_EN (b2n enable)).answer ag stOk
  if enable then d1 else d1.revokeDebug (fun _ => true)

def execDebugEnWrite (ag : Agent) (enable : Bool) (s : State) : Host.Outcome State Fault Refusal :=
  mainCmd (fun d => d.mayWrite ag)
    (fun d => d.secWrite ag Reg.SEC_CTRL (b2n enable) (fun e => e.debugEnWrite ag enable)) s

/-- Whether some source's field of `new` is below that of `old` (R558). -/
def policyLowers (old new : Nat) : Bool := (List.range 6).any (fun i => decide (bits new (2 * i) 2 < bits old (2 * i) 2))

/-- POLICY_WRITE (R558): a reserved code refuses the field (R14); lowering is accepted only in NORMAL. -/
def Die.policyWrite (d : Die) (ag : Agent) (word : Nat) : Die :=
  let new := bits word 0 12
  if (List.range 6).any (fun i => bits new (2 * i) 2 == 3) then d.rsvRefuse ag Reg.SEC_POLICY word 0 12
  else if policyLowers (d.get Reg.SEC_POLICY_POL) new && decide (d.secState ≠ 0) then d.busy ag Reg.SEC_POLICY word
  else (d.put Reg.SEC_POLICY_POL new).answer ag stOk

def execPolicyWrite (ag : Agent) (word : Nat) (s : State) : Host.Outcome State Fault Refusal :=
  mainCmd (fun d => d.mayWrite ag) (fun d => d.secWrite ag Reg.SEC_POLICY word (fun e => e.policyWrite ag word)) s

/-- SVN_MIN_WRITE (R545): SVN_MIN only rises; a lower value is refused under R14. -/
def Die.svnWrite (d : Die) (ag : Agent) (word : Nat) : Die :=
  if word < (d.getW Reg.SEC_SVN_MIN).toNat then d.rsvRefuse ag Reg.SEC_SVN_MIN word 0 32
  else (d.putW Reg.SEC_SVN_MIN (w32 word)).answer ag stOk

def execSvnMinWrite (ag : Agent) (word : Nat) (s : State) : Host.Outcome State Fault Refusal :=
  mainCmd (fun d => d.mayWrite ag) (fun d => d.secWrite ag Reg.SEC_SVN_MIN word (fun e => e.svnWrite ag word)) s

/-- ROOT_REVOKE (R545, R561): bits are only ever set, and never the last one. -/
def Die.rootRevoke (d : Die) (ag : Agent) (word : Nat) : Die :=
  let new := d.get Reg.SEC_ROOT_REVOKE_REVOKED ||| bits word 0 4
  if new = 15 ∧ d.get Reg.SEC_ROOT_REVOKE_REVOKED ≠ 15 then d.rsvRefuse ag Reg.SEC_ROOT_REVOKE word 0 4
  else (d.put Reg.SEC_ROOT_REVOKE_REVOKED new).answer ag stOk

def execRootRevoke (ag : Agent) (word : Nat) (s : State) : Host.Outcome State Fault Refusal :=
  mainCmd (fun d => d.mayWrite ag) (fun d => d.secWrite ag Reg.SEC_ROOT_REVOKE word (fun e => e.rootRevoke ag word)) s

/-! ### Alarms -/

/-- The strongest SEC_POLICY value among the latched sources (R550): 0 LOG, 1 LOCK, 2 ERASE. -/
def Die.strongest (d : Die) : Nat :=
  ((List.range 6).map (fun i => if bit (d.get Reg.SEC_ALARM_SRC) i then bits (d.get Reg.SEC_POLICY_POL) (2 * i) 2 else 0)).foldl
    max 0

/-- The response LOCK (R550): every session ends, a CORE reset with cause 6 is requested, and NORMAL becomes LOCKED. -/
def Die.respondLock (d : Die) : Die :=
  let d1 := d.endAll.requestReset 1 6
  let d2 := { d1 with sec := { d1.sec with respRunning := max d1.sec.respRunning 2 } }
  if d2.secState = 0 then d2.put Reg.SEC_STATUS_STATE 1 else d2

/-- The response ERASE (R550): LOCK, and the state ERASING. -/
def Die.respondErase (d : Die) : Die :=
  let d1 := d.respondLock
  if d1.secState = 3 then d1
  else { d1 with sec := { d1.sec with respRunning := 3 } }.put Reg.SEC_STATUS_STATE 2

/-- An alarm comes while a command holds a signature not yet released (R554): the command ends without it, and its index stays consumed. No
report is left to answer CACHED with (log entry 78). -/
def Die.withholdSignature (d : Die) : Die :=
  match d.sec.lastReport with
  | none => d
  | some full =>
    let ks := (List.range 64).filter (fun k => (d.box k).state == .busy && (d.box k).result == some (rcOk, full))
    if ks.isEmpty then d
    else ks.foldl (fun e k => e.reply k rcState []) { d with sec := { d.sec with lastReport := none } }

/-- An alarm source latches (R550): SEC_ALARM, record SEC 1, the alert, and the strongest response, which a weaker one never
interrupts (R554). -/
def Die.raiseAlarm (d0 : Die) (src : Nat) : Die :=
  let d := d0.withholdSignature
  let d1 := d.put Reg.SEC_ALARM_SRC (setBits (d.get Reg.SEC_ALARM_SRC) src 1 1)
  let r := d1.strongest
  let d2 := (d1.record 0x0A 1 95 0xFFFF [d1.get Reg.SEC_ALARM_SRC, r]).alert alSecurity
  if r + 1 ≤ d2.sec.respRunning then d2
  else if r = 1 then d2.respondLock
  else if r = 2 then d2.respondErase
  else d2

/-! ### Authentication runs (R542) -/

/-- The key of a source: IP address and UDP port. -/
def srcKey (s : Source) : Nat × Nat := (s.ip, s.port)

/-- The run of a source. -/
def Die.authRun (d : Die) (s : Source) : Nat := ((d.host.runs.find? (fun p => p.1 == srcKey s)).map (·.2)).getD 0

/-- The run of a source is updated; the 64 most recent entries stay. -/
def Die.setRun (d : Die) (s : Source) (n : Nat) : Die :=
  { d with host := { d.host with runs := ((srcKey s, n) :: d.host.runs.filter (fun p => p.1 != srcKey s)).take 64 } }

/-- A run rises; at SEC_AUTH.LIMIT the source AUTH is raised and the run returns to 0. -/
def Die.authFail (d : Die) (s : Source) : Die :=
  let n := d.authRun s + 1
  if d.get Reg.SEC_AUTH_LIMIT ≤ n then (d.setRun s 0).raiseAlarm 3 else d.setRun s n

/-- SEC_STATUS.AUTH_MAX: the largest current run (R557). -/
def Die.authMax (d : Die) : Nat := (d.host.runs.map (·.2)).foldl max 0

/-- SECURITY_ALARM: a source of R549 is raised; a detector must be armed; AUTH and the alarm pin are no detectors. -/
def execSecurityAlarm (src : Nat) (s : State) : Host.Outcome State Fault Refusal :=
  mainCmd (fun d => decide (src < 6) && (d.sec.armed || src == 3 || src == 4)) (fun d => d.raiseAlarm src) s

/-- The erased items of R537: key slots with their attributes, and the device XMSS private key. -/
def Die.eraseKeys (d : Die) : Die :=
  let d1 := (List.range 8).foldl (fun e i => e.putW (Reg.SEC_SLOT i) 0) d
  ({ d1 with nv := { d1.nv with keys := [] } }.put Reg.SEC_STATUS_STATE 3)

/-- ERASE_DONE (R550, R553): the erased items are overwritten and the state becomes ERASED. -/
def execEraseDone (s : State) : Host.Outcome State Fault Refusal :=
  dieCmd (fun d => d.secState == 2)
    (fun d => { d with sec := { d.sec with respRunning := 0 } }.eraseKeys) s

/-- DETECTOR_ARM (R549): 1 ms after the release of the MODULE reset. -/
def execDetectorArm (s : State) : Host.Outcome State Fault Refusal :=
  mainCmd (fun d => !d.sec.armed) (fun d => { d with sec := { d.sec with armed := true } }) s

/-! ### Attestation -/

/-- The report of R546 with signature index `idx`. -/
def Die.attestReport (d : Die) (nonce : List Byte) (idx : Nat) : List Byte :=
  natLe 4 0x5441484B ++ natLe 2 1 ++ natLe 1 (if d.nv.gradeB then 0x42 else 0x41) ++ natLe 1 d.nv.stepping ++
  natLe 8 d.nv.serial ++ nonce ++ d.sec.fwHash ++ natLe 4 d.sec.fwId ++ natLe 4 d.sec.fwSvn ++
  natLe 4 (d.getW Reg.SEC_SVN_MIN).toNat ++ natLe 1 d.sec.fwRoot ++ natLe 1 d.secState ++
  natLe 1 (d.get Reg.SEC_CTRL_DEBUG_EN + 2 * b2n d.host.debugSeen + 4 * b2n (!d.clock.synced)) ++ natLe 1 0 ++
  natLe 4 idx ++ natLe 8 d.now ++ zeros 20

/-- Whether ATTEST answers with the last signed report (R548). -/
def Die.attestCached (d : Die) (box : Nat) (nonce : List Byte) : Bool :=
  nonce.all (fun b => b == 0) || (d.sec.lastReport.isSome && decide (d.now < d.sec.lastSigned + d.sec.attMin * 1000000000)) ||
    (decide (d.get Reg.SEC_XMSS_LEFT_LEFT < 4096) && !d.boxOwnerSession box)

/-- ATTEST (R546 to R548): EXHAUSTED without an index left; the last report with CACHED; else the index is consumed in the
non-volatile store before the new signature is released. -/
def Die.attest (d : Die) (box : Nat) (nonce : List Byte) : Die :=
  let left := d.get Reg.SEC_XMSS_LEFT_LEFT
  if nonce.length ≠ 32 then d.reply box rcRange []
  else if left = 0 then d.reply box rcExhausted []
  else if d.attestCached box nonce then d.reply box rcCached (d.sec.lastReport.getD [])
  else
    let idx := 1048576 - left
    let rep := d.attestReport nonce idx
    let full := rep ++ (List.range 2820).map (Config.xmssSign idx rep)
    let d1 := d.put Reg.SEC_XMSS_LEFT_LEFT (left - 1)
    { d1 with nv := { d1.nv with xmssIndex := idx + 1 },
              sec := { d1.sec with lastReport := some full, lastSigned := d1.now } }.reply box rcOk full

def execAttest (box : Nat) (nonce : List Byte) (s : State) : Host.Outcome State Fault Refusal :=
  fwCmd box (fun d => d.attest box nonce) s

/-- ATTEST_CERT (R562): the device certificate. -/
def execAttestCert (box : Nat) (s : State) : Host.Outcome State Fault Refusal :=
  fwCmd box (fun d => d.reply box rcOk d.nv.cert) s

/-- ATTEST_CFG (R548, R562): an owner session sets ATT_MIN, 60 s to 86,400 s; anyone else is answered ROLE. -/
def execAttestCfg (box attMin : Nat) (s : State) : Host.Outcome State Fault Refusal :=
  fwCmd box (fun d =>
    if !d.boxOwnerSession box then d.reply box stRole []
    else if attMin < 60 ∨ 86400 < attMin then d.reply box rcRange []
    else { d with sec := { d.sec with attMin := attMin } }.reply box rcOk []) s

end Sys2Proof.Machine
end

