-- ==== Sys2Proof/Machine/Wire.lean ====
section
/-! DEFINITION. What the host port sends (R421, R423 to R425, R427, R431, R541): frames with their VLAN tag, the transmit queue that received
PFC holds back, and the layout of YCT messages. -/
namespace Sys2Proof.Machine

/-- The host port is UP (R445). -/
def Die.portUp (d : Die) : Bool := d.get Reg.HP_STATUS_STATE == 2

/-! ### The transmit queue (R425) -/

/-- Received PFC holds a priority of the transmit queue now. -/
def Die.txPausedNow (d : Die) (p : Nat) : Bool := bit (d.get Reg.HP_PFC_RX_EN) p && decide (d.clock.aging < amGet 0 d.host.txPaused p)

/-- A frame of a priority has to wait: the port is not UP, its priority is paused, or an earlier one of it waits. -/
def Die.txHeld (d : Die) (p : Nat) : Bool := !d.portUp || d.txPausedNow p || d.host.txWait.any (fun q => q.1 == p)

/-- A frame leaves: TX_FRAMES counts it (R448). -/
def Die.sendNow (d : Die) (o : Out) : Die := (d.bump (⟨Reg.HP_TX_FRAMES, 0, 32⟩) 1).emit o

/-- Sends a frame of priority `p`, at once or when its priority is open again. -/
def Die.send (d : Die) (p : Nat) (o : Out) : Die :=
  if d.txHeld p then { d with host := { d.host with txWait := d.host.txWait ++ [(p, o)] } } else d.sendNow o

/-- The frames that wait and may leave now leave, in order. -/
def Die.txServe (d : Die) : Die :=
  let l := d.host.txWait
  if l.isEmpty || !d.portUp then d
  else
    let go := l.filter (fun q => !d.txPausedNow q.1)
    go.foldl (fun e q => e.sendNow q.2) { d with host := { d.host with txWait := l.filter (fun q => d.txPausedNow q.1) } }

/-! ### VLAN tags and priorities (R423, R424) -/

/-- The tag of a sent frame: none on VLAN 0. -/
def vlanTag (vid pcp : Nat) : Option (Nat × Nat) := if vid = 0 then none else some (vid, pcp)

/-- The PCP of a message by its opcode (R424). The response to STREAM_IN, which R424 does not name, is one of control (DESIGN CHOICE, log
entry 77). -/
def Die.pcpOf (d : Die) (opcode : Nat) : Nat :=
  match opcode with
  | 0x20 | 0x21 | 0x22 => d.get Reg.HP_PCP_BULK
  | 0x40 => d.get Reg.HP_PCP_EVENT
  | 0x51 => d.get Reg.HP_PCP_STREAM
  | _ => d.get Reg.HP_PCP_CTRL

/-- Sends a frame of the port's own: ARP, neighbour advertisement, echo reply, PTP. It has the CTRL class and the VLAN of HP_VLAN. -/
def Die.sendFrame (d : Die) (kind : Nat) (dest : Source) (bs : List Byte) : Die :=
  d.send (d.get Reg.HP_PCP_CTRL) (.frame kind dest (vlanTag (d.get Reg.HP_VLAN_VID) (d.get Reg.HP_PCP_CTRL)) bs)

/-! ### YCT messages (R427, R431, R541) -/

/-- A message before its tag. -/
def yctHead (version flags opcode status session seq reqSeq : Nat) (payload : List Byte) : List Byte :=
  natLe 4 0x4359484B ++ natLe 1 version ++ natLe 1 flags ++ natLe 1 opcode ++ natLe 1 status ++ natLe 4 session ++ natLe 4 seq ++
  natLe 4 payload.length ++ natLe 4 reqSeq ++ zeros 8 ++ payload

/-- The next message of a session with its tag: the device counts its own SEQ. -/
def Session.message (x : Session) (flags opcode status reqSeq : Nat) (payload : List Byte) : List Byte :=
  let m := yctHead x.version flags opcode status x.id (x.devSeq + 1) reqSeq payload
  m ++ kmac x.key m (ascii "KH880 YCT D2H") 16

/-- Sends a message's bytes to a source, on the VLAN that its OPEN or HELLO came on. -/
def Die.sendYct (d : Die) (dest : Source) (opcode : Nat) (bs : List Byte) : Die :=
  d.send (d.pcpOf opcode) (.yct dest (vlanTag dest.vlan (d.pcpOf opcode)) bs)

/-- Sends the next message of the session in a slot. -/
def Die.sayTo (d : Die) (slot : Nat) (x : Session) (flags opcode status reqSeq : Nat) (payload : List Byte) : Die :=
  (d.putSession slot { x with devSeq := x.devSeq + 1 }).sendYct x.src opcode (x.message flags opcode status reqSeq payload)

end Sys2Proof.Machine
end

