-- ==== Sys2Proof/Machine/Monitor.lean ====
section
/-! DEFINITION. Monitor converters, power and heat (R476 to R501), and the running average of junction temperature (R21). -/
namespace Sys2Proof.Machine

/-! ### Channels and values -/

/-- Full scale of a channel in its unit (R477); 0 for a temperature or an unconnected channel. -/
def fullScale (conv ch : Nat) : Nat :=
  if conv = 0 then
    match ch with
    | 0 | 4 | 5 | 7 | 8 | 13 | 14 => 12500
    | 1 | 10 => 50000
    | 2 => 15000
    | 3 | 6 | 9 | 11 => 25000
    | 12 | 15 => 0
    | _ => if ch < 24 then 12500 else 25000
  else
    match ch with
    | 0 | 13 | 14 => 12500
    | 1 => 50000
    | 2 | 4 | 5 | 7 | 8 => 10000
    | 3 => 40000
    | 6 | 10 => 5000
    | 9 => 25000
    | _ => 0

/-- Whether a channel is connected (R477). -/
def connected (conv ch : Nat) : Bool :=
  decide (ch ≠ 15) && decide (ch < 32) && (conv == 0 || decide (ch < 15))

/-- Whether a channel gives a temperature: the diode, the lid, the stage-1 converter. -/
def isTemp (conv ch : Nat) : Bool := ch == 12 || (conv == 1 && ch == 11)

/-- Gain in ppm and offset of measurement `k` of R498: those of its system calibration once they are in force, else the factory's (R486). -/
def Die.scal (d : Die) (k : Nat) : Int × Int :=
  if (if k % 2 = 0 then d.sense.calV else d.sense.calI) then
    (sx 16 (d.get (Reg.MON_SCAL_GAIN k)), sx 16 (d.get (Reg.MON_SCAL_OFFSET k)))
  else if k < 2 then (Config.monitorGain k 1, Config.monitorOffset k 1)
  else (Config.monitorGain 2 (k - 2), Config.monitorOffset 2 (k - 2))

/-- MON_SCAL[k] as it reads (R498). -/
def Die.scalWord (d : Die) (k : Nat) : Nat := enc 16 (d.scal k).1 * 65536 + enc 16 (d.scal k).2

/-- Factory coefficients are in use for either input (R486). -/
def Die.uncal (d : Die) : Bool := !(d.sense.calV && d.sense.calI)

/-- A value in mV or mA through the coefficients of measurement `k`. -/
def Die.throughScal (d : Die) (k : Nat) (x : Int) : Int :=
  roundHalfEven (x * (1000000 + (d.scal k).1) + (d.scal k).2 * 1000000) 1000000

/-- Gain in ppm and offset of a channel: for channel 1, those of the system calibration once committed (R481). -/
def Die.coeff (d : Die) (conv ch : Nat) : Int × Int :=
  if ch = 1 then d.scal conv else (Config.monitorGain conv ch, Config.monitorOffset conv ch)

/-- VALUE of a conversion (R481). -/
def Die.monValue (d : Die) (conv ch raw : Nat) : Int :=
  if isTemp conv ch then Config.temperatureModel (conv * 32 + ch) raw
  else
    let c := d.coeff conv ch
    roundHalfEven ((raw * fullScale conv ch : Nat) * (1000000 + c.1) + c.2 * 4096000000) 4096000000

def Die.conv (d : Die) (c : Nat) : Conv := if c = 0 then d.sense.convA else d.sense.convB
def Die.setConv (d : Die) (c : Nat) (x : Conv) : Die :=
  if c = 0 then { d with sense := { d.sense with convA := x } } else { d with sense := { d.sense with convB := x } }

/-- Converter `c` is enabled and not powering down. -/
def Die.convOn (d : Die) (c : Nat) : Bool :=
  (if c = 0 then d.on Reg.MON_CTRL_EN_A else d.on Reg.MON_CTRL_EN_B) && !(d.conv c).downing

/-- The RUN bit of a unit: 0 SAR A, 1 SAR B, 2 the integrators (R494). -/
def runBit (u : Nat) : Fld := ⟨Reg.MON_STATUS, u, 1⟩
/-- The DEFER bit of a unit. -/
def deferBit (u : Nat) : Fld := ⟨Reg.MON_STATUS, 5 + u, 1⟩

/-- Channels of converter `c`'s regular mask, rising; channel 0 always first (R479). -/
def Die.maskOf (d : Die) (c : Nat) : List Nat :=
  let m := if c = 0 then d.getW Reg.MON_RMASK_A else d.getW Reg.MON_RMASK_B
  0 :: (bitsSet 32 m.toNat).filter (fun i => decide (i ≠ 0))

/-- Channels of an injected source on a converter (R480, R495). -/
def Die.jseq (d : Die) (c src : Nat) : List Nat :=
  let w := (d.getW ((if c = 0 then Reg.MON_JSEQ_A else Reg.MON_JSEQ_B) (src - 1))).toNat
  (List.range (bits w 24 3)).map (fun i => bits w (5 * i) 5)

/-! ### Sequences -/

/-- Starts the regular sequence of converter `c` (R479). -/
def Die.startRegular (d : Die) (c : Nat) : Die :=
  (d.setConv c { d.conv c with
    run := some (0, d.maskOf c), index := 0, resume := [], regularWaits := false,
    powered := true, pair := none }).raise (runBit c)

/-- A regular start falls due on one converter: a running regular sequence finishes first and the start is dropped with
OVERRUN; an injected one makes it wait (R479, R480). -/
def Die.regularDue (d : Die) (c : Nat) : Die :=
  if !d.convOn c then d
  else
    let x := d.conv c
    match x.run with
    | none => if x.resume.isEmpty && x.pending.isEmpty then d.startRegular c
              else if x.resume.isEmpty then d.setConv c { x with regularWaits := true }
              else d.raise Reg.MON_STATUS_OVERRUN
    | some (0, _) => d.raise Reg.MON_STATUS_OVERRUN
    | some _ => if x.resume.isEmpty then d.setConv c { x with regularWaits := true } else d.raise Reg.MON_STATUS_OVERRUN

/-- MON_REGULAR_START: both converters start at the same instant (R479). -/
def execMonRegularStart (s : State) : Host.Outcome State Fault Refusal :=
  mainCmd (fun d => d.convOn 0 || d.convOn 1)
    (fun d => ({ d with sense := { d.sense with disturbed := false } }.regularDue 0).regularDue 1) s

/-- A trigger on one converter: merged when its source is already pending, else pending; it interrupts a regular sequence,
whose conversion in progress is made again later (R480). -/
def Die.triggerOn (d : Die) (c src : Nat) : Die :=
  if !d.convOn c || (d.jseq c src).isEmpty then d
  else
    let x := d.conv c
    if x.pending.any (fun p => p.1 == src) then d.raise Reg.MON_STATUS_MERGED
    else
      let x1 := { x with pending := x.pending ++ [(src, [])] }
      match x.run with
      | some (0, rest) => { d with sense := { d.sense with disturbed := true } }.setConv c { x1 with run := none, resume := rest }
      | _ => d.setConv c x1

/-- A trigger of an injected source, 1 POWER to 5 SOFT (R480). -/
def Die.trigger (d : Die) (src : Nat) : Die := (d.triggerOn 0 src).triggerOn 1 src

/-- INJECTED_TRIGGER. -/
def execInjectedTrigger (source : Nat) (s : State) : Host.Outcome State Fault Refusal :=
  mainCmd (fun _ => decide (1 ≤ source) && decide (source ≤ 5)) (fun d => d.trigger source) s

/-- The converter that gives the core-rail value (R482). -/
def Die.coreConv (d : Die) : Nat := if d.get Reg.MON_PLAUS_SUSPECT = 1 then 1 else 0

/-- A FAULT sequence will convert the diode and VDD_SOC (R320, R480). -/
def Die.canMeasure (d : Die) : Bool :=
  d.convOn 0 && (d.jseq 0 2).contains 12 && d.convOn d.coreConv && (d.jseq d.coreConv 2).contains 0

/-- The pending source that starts next: the highest priority that has not already run since the oldest was triggered. -/
def nextSource (p : List (Nat × List Nat)) : Option Nat :=
  match p with
  | [] => none
  | (_, ran) :: _ => ((List.range 6).filter (fun i => p.any (fun q => q.1 == i) && !ran.contains i)).head?

/-- Starts the next pending injected sequence of a converter (R480). -/
def Die.startInjected (d : Die) (c : Nat) : Die :=
  let x := d.conv c
  match nextSource x.pending with
  | none => d
  | some src =>
    let p := (x.pending.filter (fun q => decide (q.1 ≠ src))).map (fun q => (q.1, src :: q.2))
    let d1 := d.setConv c { x with run := some (src, d.jseq c src), index := 0, pending := p, powered := true }
    if src = 5 then d1.clear Reg.MON_CTRL_SOFT else d1

/-- INJECTED_SEQUENCE_START: when the running injected sequence has ended. -/
def execInjectedSequenceStart (conv : Nat) (s : State) : Host.Outcome State Fault Refusal :=
  mainCmd (fun d => decide (conv < 2) && (d.conv conv).run.isNone && !(d.conv conv).pending.isEmpty)
    (fun d => d.startInjected conv) s

/-- MON_SOFT: a write of MON_CTRL.SOFT (R494). -/
def execMonSoft (ag : Agent) (s : State) : Host.Outcome State Fault Refusal :=
  mainCmd (fun d => d.mayControl ag) (fun d => ((d.raise Reg.MON_CTRL_SOFT).trigger 5).answer ag stOk) s

/-- Requests a diode reading: the TEMP sequence (R488, R499). -/
def Die.readDiode (d : Die) : Die := (d.raise Reg.THM_CTRL_READ).trigger 4

/-- THM_READ: a write of THM_CTRL.READ. -/
def execThmRead (ag : Agent) (s : State) : Host.Outcome State Fault Refusal :=
  mainCmd (fun d => d.mayControl ag) (fun d => d.readDiode.answer ag stOk) s

/-- THERM_PERIOD_TICK: the running firmware sets THM_CTRL.READ (R488). -/
def execThermPeriodTick (s : State) : Host.Outcome State Fault Refusal :=
  mainCmd (fun d => d.fwRuns) (fun d => d.readDiode) s

/-! ### Demands -/

/-- The cap demand (R492), in the layout of R249. -/
def Die.capDemand (d : Die) : Nat := d.sense.sCap + d.sense.kCap * 256

/-- The thermal demand (R493). -/
def Die.thermDemand (d : Die) : Nat := d.sense.thermStretch + b2n d.sense.thermSkip * 256

/-- The firmware writes TIDE_THROTTLE as the merge of the cap demand, the thermal demand and the host floor (R491). -/
def Die.writeThrottle (d : Die) : Die :=
  d.writeDemand (mergeThrottle (mergeThrottle d.capDemand d.thermDemand) d.sense.floor)

/-- The thermal loop at a diode reading of `t` sixteenths of a degree (R493). -/
def Die.thermalLoop (d : Die) (t : Int) : Die :=
  let c := d.sense
  let d1 :=
    if (c.crit * 16 : Nat) ≤ t then
      ({ d with sense := { c with thermSkip := true } }.record 0x09 3 94 0xFFFF [enc 16 t]).alert alThermal
    else if (c.warn * 16 : Nat) ≤ t then
      let e := { d with sense := { c with thermStretch := min 255 (c.thermStretch + 8), inWarn := true } }
      if c.inWarn then e else (e.record 0x09 2 94 0xFFFF [enc 16 t]).alert alThermal
    else if t < (c.warn * 16 : Nat) - 32 then
      { d with sense := { c with thermStretch := c.thermStretch - 4, inWarn := false } }
    else { d with sense := { c with inWarn := false } }
  let d2 := if t < (c.crit * 16 : Nat) - 48 then { d1 with sense := { d1.sense with thermSkip := false } } else d1
  d2.writeThrottle

/-- A new diode reading (R488): THM_DIODE and its time; the firmware's average and thermal loop while it runs. -/
def Die.diodeReading (d : Die) (v : Int) : Die :=
  let d1 := ((d.put Reg.THM_DIODE_TEMP (enc 16 v)).raise Reg.THM_DIODE_VALID).clear Reg.THM_CTRL_READ
  let d2 := d1.put64 (Reg.THM_DIODE_TIME 0) d.now
  if d.fwRuns then
    ({ d2 with sense := { d2.sense with hourSum := d2.sense.hourSum + v, hourCount := d2.sense.hourCount + 1 } }).thermalLoop v
  else d2

/-! ### Results and plausibility -/

/-- The result word of R496. -/
def resWord (value : Int) (src raw : Nat) : Nat := raw % 4096 + src * 4096 + 32768 + enc 16 value * 65536

/-- Deviation of a converter's channel-13 reading from 1.000 V beyond 5.0 mV (R482). -/
def Die.refBad (d : Die) (c : Nat) : Bool :=
  let v := d.get ((if c = 0 then Reg.MON_RES_A_VALUE else Reg.MON_RES_B_VALUE) 13)
  decide (50 < v - 10000) || decide (50 < 10000 - v)

/-- One compared pair of channel-0 results (R482). -/
def Die.comparePair (d : Die) (a b : Int) : Die :=
  let diff := (a - b).natAbs
  let d1 := d.put Reg.MON_PLAUS_DIFF (min 255 (diff / 10))
  if d.get Reg.MON_PLAUS_LIM * 10 < diff then
    let n := d.sense.bad + 1
    let d2 := { d1 with sense := { d1.sense with bad := n, good := 0 } }
    if n = 3 then
      let sus := if d2.refBad 0 = d2.refBad 1 then 3 else if d2.refBad 0 then 1 else 2
      let d3 := (d2.put Reg.MON_PLAUS_SUSPECT sus).raise Reg.MON_STATUS_PLAUS_FAIL
      (d3.record 0x08 1 94 0xFFFF [min 255 (diff / 10), sus]).alert alMonitor
    else d2
  else
    let n := d.sense.good + 1
    let d2 := { d1 with sense := { d1.sense with bad := 0, good := n } }
    if n = 16 then d2.clear Reg.MON_PLAUS_SUSPECT else d2

/-- A regular channel-0 result: compared once both converters have theirs, unless the pair was disturbed. -/
def Die.pairResult (d : Die) (c : Nat) (v : Int) : Die :=
  let d1 := d.setConv c { d.conv c with pair := some v }
  match (d1.conv 0).pair, (d1.conv 1).pair with
  | some a, some b =>
    let d2 := (d1.setConv 0 { d1.conv 0 with pair := none })
    let d3 := d2.setConv 1 { d2.conv 1 with pair := none }
    if d.sense.disturbed then d3 else d3.comparePair a b
  | _, _ => d1

/-- A sequence of converter `c` has converted its last channel: what follows (R479, R480). -/
def Die.sequenceEnd (d : Die) (c : Nat) : Die :=
  let x := d.conv c
  let d1 := d.setConv c { x with run := none }
  if !x.pending.isEmpty then d1
  else if !x.resume.isEmpty then d1.setConv c { x with run := some (0, x.resume), resume := [] }
  else if x.regularWaits then d1.startRegular c
  else d1

/-- A conversion ends (R481): its result becomes visible, and the sequence goes on. -/
def Die.conversionDone (d : Die) (c raw : Nat) : Die :=
  let x := d.conv c
  match x.run with
  | none => d
  | some (_, []) => d.sequenceEnd c
  | some (src, ch :: rest) =>
    let v := d.monValue c ch raw
    let reg := if src = 0 then (if c = 0 then Reg.MON_RES_A ch else Reg.MON_RES_B ch)
      else (if c = 0 then Reg.MON_JRES_A x.index else Reg.MON_JRES_B x.index)
    let d1 := (d.setConv c { x with run := some (src, rest), index := x.index + 1 }).putW reg (w32 (resWord v src raw))
    let d2 := if c = 0 ∧ ch = 12 then d1.diodeReading v else d1
    let d3 := if src = 0 ∧ ch = 0 then d2.pairResult c v else d2
    if rest.isEmpty then d3.sequenceEnd c else d3

/-- SAR_POWER_DOWN: no conversion pending for 0.2 µs (R478). -/
def execSarPowerDown (conv : Nat) (s : State) : Host.Outcome State Fault Refusal :=
  mainCmd (fun d => decide (conv < 2) && (d.conv conv).run.isNone && (d.conv conv).pending.isEmpty)
    (fun d => d.setConv conv { d.conv conv with powered := false }) s

/-! ### The power guard -/

/-- The integrators produce no samples (R490). -/
def Die.intSilent (d : Die) : Bool := !d.on Reg.MON_CTRL_EN_INT || !d.sense.settled || d.sense.intDowning

/-- The mean of the last 1,000 samples in mW. -/
def Die.p1ms (d : Die) : Nat := d.sense.lastP.sum / max 1 d.sense.lastP.length

/-- The mean of the last 100 values of P_1ms in mW. -/
def Die.p100ms (d : Die) : Nat := d.sense.means.sum / max 1 d.sense.means.length

/-- Some guard cause is present now. -/
def Die.guardPresent (d : Die) : Bool :=
  decide (8000 ≤ d.sense.g2) || decide (745000 < d.p100ms) || d.intSilent

/-- The guard fires with cause 1 G1, 2 G2, 3 G3 or 4 MON (R490): PWR_FAST is merged into TIDE_THROTTLE, the cause bit is set,
one record is written and the alert raised. -/
def Die.guardFire (d : Die) (cause : Nat) : Die :=
  let d1 := ((d.put Reg.PWR_GUARD_CAUSE cause).raise ⟨Reg.PWR_GUARD, cause, 1⟩).raise Reg.PWR_GUARD_ACTIVE
  let d2 := d1.putW Reg.TIDE_THROTTLE (w32 (mergeThrottle d.sense.demand d1.fastDemand))
  let d3 := { d2 with sense := { d2.sense with fired := true, guardCount := d2.sense.guardCount + 1 } }
  (d3.record 0x02 1 99 0xFFFF [cause]).alert alPower

/-- POWER_ALARM: the power alarm edge of R32 fires G1 and triggers the POWER sequence. -/
def execPowerAlarm (s : State) : Host.Outcome State Fault Refusal :=
  mainCmd (fun _ => true) (fun d => (d.guardFire 1).trigger 1) s

/-- GUARD_G2_EXPIRY: P_1ms has stayed above 750 W for 8,000 µs. -/
def execGuardG2Expiry (s : State) : Host.Outcome State Fault Refusal :=
  mainCmd (fun d => decide (8000 ≤ d.sense.g2) && !d.sense.g2Fired)
    (fun d => { d with sense := { d.sense with g2Fired := true } }.guardFire 2) s

/-- GUARD_HOLD_EXPIRY: HOLD ms after the last cause cleared, the merge ends and the demand stands alone (R490). -/
def execGuardHoldExpiry (s : State) : Host.Outcome State Fault Refusal :=
  mainCmd (fun d => d.on Reg.PWR_GUARD_ACTIVE && !d.guardPresent)
    (fun d => (d.clear Reg.PWR_GUARD_ACTIVE).putW Reg.TIDE_THROTTLE (w32 d.sense.demand)) s

/-! ### Integrators -/

/-- A reading of the integrators through its coefficients (R481, R483), in mV or mA. -/
def Die.intReading (d : Die) (k raw : Nat) : Nat := (d.throughScal k raw).toNat

/-- One sample of each integrator per microsecond (R483, R490). -/
def Die.intSample (d : Die) (vRaw iRaw : Nat) : Die :=
  let v := d.intReading 2 vRaw
  let i := d.intReading 3 iRaw
  let p := v * i / 1000
  let c := d.sense
  let last := (p :: c.lastP).take 1000
  let p1 := last.sum / max 1 last.length
  let n := c.samples + 1
  let ms := decide (n % 1000 = 0)
  let means := if ms then (p1 :: c.means).take 100 else c.means
  let p100 := means.sum / max 1 means.length
  let high := decide (750000 < p1)
  let wasG3 := decide (745000 < d.p100ms)
  let d1 := { d with sense := { c with
    acc := c.acc + p, vSum := c.vSum + v, iSum := c.iSum + i, samples := n,
    lastP := last, means := means, pMax := max c.pMax p1, g2 := if high then c.g2 + 1 else 0,
    g2Fired := c.g2Fired && high,
    quietSince := if !ms then c.quietSince else if d.armed || decide (150000 ≤ p1) then none
      else some (c.quietSince.getD d.now) } }
  let d2 := (d1.put Reg.MON_INT_P_P1 (min 65535 (p1 / 100))).put Reg.MON_INT_P_P100 (min 65535 (p100 / 100))
  if decide (745000 < p100) && !wasG3 then d2.guardFire 3 else d2

/-- INT_SAMPLE. -/
def execIntSample (vRaw iRaw : Nat) (s : State) : Host.Outcome State Fault Refusal :=
  mainCmd (fun d => !d.intSilent) (fun d => d.intSample vRaw iRaw) s

/-- Length of a window in ns (R483). -/
def windowNs (cfg : Nat × Nat) : Nat :=
  match cfg.1 with | 0 => 20000000 | 1 => 16666667 | _ => cfg.2 * 1000

/-- A window ends and reports (R483, R484); settings and coefficients that wait take force.
While COMPUTE is held nothing is metered (R377). -/
def Die.windowEnd (d : Die) (short : Bool) : Die :=
  let c := d.sense
  let e := c.acc / 1000
  let n := max 1 c.samples
  let d1 := d.put64 (Reg.MON_INT_WIN 0) (c.winStart / windowNs c.intCfg)
  let d2 := (d1.putW Reg.MON_INT_E (w32 e)).putW Reg.MON_INT_AVG
    (w32 (min 65535 (c.iSum / n) + min 65535 (c.vSum / n) * 65536))
  let d3 := d2.putW Reg.MON_INT_PMAX (w32 (min 65535 (c.pMax / 100) + b2n (short || c.short) * 65536 + b2n c.gap * 131072))
  let d4 := d3.bump64 (Reg.MON_ENERGY 0) e
  let cfg := (d.get Reg.MON_INT_CFG_KIND, d.get Reg.MON_INT_CFG_LEN)
  let d6 := c.scalNext.foldl (fun x p => x.putW (Reg.MON_SCAL p.1) (w32 (p.2.1 * 65536 + p.2.2))) d4
  { d6 with
    sense := { d6.sense with
      acc := c.acc % 1000, vSum := 0, iSum := 0, samples := 0, pMax := 0, winStart := d.now,
      short := decide (d.now % windowNs cfg ≠ 0), gap := false, intCfg := cfg, scalNext := [],
      calV := d6.nv.scalV, calI := d6.nv.scalI },
    tenancy := if d.computeHeld then d6.tenancy else { d6.tenancy with energy := d6.tenancy.energy ++ [(e, c.winStart, d.now)] } }

/-- INT_WINDOW_END. -/
def execIntWindowEnd (s : State) : Host.Outcome State Fault Refusal :=
  mainCmd (fun d => !d.intSilent) (fun d => d.windowEnd false) s

/-- INT_SETTLED: 50 µs after the enable a short window starts (R484). -/
def execIntSettled (s : State) : Host.Outcome State Fault Refusal :=
  mainCmd (fun d => d.on Reg.MON_CTRL_EN_INT && !d.sense.settled && !d.sense.intDowning)
    (fun d => { d with sense := { d.sense with settled := true, winStart := d.now, short := true, gap := true } }.raise
      (runBit 2)) s

/-! ### Enables -/

/-- A SAR starts or its power-down begins; an enable during the power-down is deferred (R485). -/
def Die.enableConv (d : Die) (c : Nat) (was now : Bool) : Die :=
  if was == now then d
  else if now then
    if (d.conv c).downing then d.raise (deferBit c) else d.setConv c {}
  else (d.setConv c { downing := true, powered := false }).clear (runBit c) |>.clear (deferBit c)

/-- The same for the integrator pair; a disable ends the window with SHORT and fires the guard with MON (R484, R490). -/
def Die.enableInt (d : Die) (was now : Bool) : Die :=
  if was == now then d
  else if now then
    if d.sense.intDowning then d.raise (deferBit 2) else { d with sense := { d.sense with settled := false } }
  else
    let d1 := (d.windowEnd true).clear (runBit 2) |>.clear (deferBit 2)
    { d1 with sense := { d1.sense with
      intDowning := true, settled := false, gap := true, lastP := [], means := [], quietSince := none,
      g2 := 0 } }.guardFire 4

/-- MON_ENABLE_WRITE: a write of MON_CTRL (R485, R494). -/
def Die.monCtrlWrite (d : Die) (ag : Agent) (word : Nat) : Die :=
  let a := d.on Reg.MON_CTRL_EN_A
  let b := d.on Reg.MON_CTRL_EN_B
  let i := d.on Reg.MON_CTRL_EN_INT
  let d1 := d.plainWrite ag Reg.MON_CTRL word 94
  let d2 := ((d1.enableConv 0 a (d1.on Reg.MON_CTRL_EN_A)).enableConv 1 b (d1.on Reg.MON_CTRL_EN_B)).enableInt i
    (d1.on Reg.MON_CTRL_EN_INT)
  if bit word 4 then d2.trigger 5 else d2

def execMonEnableWrite (ag : Agent) (word : Nat) (s : State) : Host.Outcome State Fault Refusal :=
  mainCmd (fun d => d.mayControl ag) (fun d => d.monCtrlWrite ag word) s

/-- MONITOR_POWER_DOWN_DONE: a power-down completes; a deferred enable then starts in full (R485). Units: 0 SAR A, 1 SAR B, 2
the integrators. -/
def Die.downDone (d : Die) (u : Nat) : Die :=
  let def1 := d.on (deferBit u)
  let d1 := d.clear (deferBit u)
  if u = 2 then { d1 with sense := { d1.sense with intDowning := false, settled := false } }
  else d1.setConv u { downing := false, powered := def1 }

def execMonitorPowerDownDone (unit : Nat) (s : State) : Host.Outcome State Fault Refusal :=
  mainCmd (fun d => (decide (unit < 2) && (d.conv unit).downing) || (unit == 2 && d.sense.intDowning))
    (fun d => d.downDone unit) s

/-- A reset of the Monitor domain (R476, R516): the block's registers, sequencers and integrators start again; the guard fires
with MON (R518). The window in progress ends with SHORT first (R484); the coefficients are those of the store. -/
def Die.monitorReset (d : Die) (fire : Bool) : Die :=
  let d0 := if d.intSilent then d else d.windowEnd true
  let d1 := d0.resetRegs (within 0x70000 0x80000)
  let c := d1.sense
  let d2 := { d1 with sense := { c with
    convA := {}, convB := {}, bad := 0, good := 0, disturbed := false, settled := false,
    intDowning := false, acc := 0, vSum := 0, iSum := 0, samples := 0, pMax := 0, short := true, gap := true, lastP := [],
    means := [], g2 := 0, g2Fired := false, intCfg := (0, 20000), scalNext := [], calV := d1.nv.scalV, calI := d1.nv.scalI } }
  if fire then d2.guardFire 4 else d2

/-! ### The cap loop and the trip -/

/-- CAP_LOOP (R492). -/
def Die.capLoop (d : Die) : Die :=
  let c := d.sense
  let ten := c.means.take 10
  let p := ten.sum / max 1 ten.length
  let s0 := if c.fired then min 255 (c.sCap + c.guardStep) else c.sCap
  let d1 := { d with sense := { c with sCap := s0, fired := false } }
  if d.on Reg.PWR_GUARD_ACTIVE then d1.writeThrottle
  else if c.cap * 1000 < p then
    if s0 < 255 then
      let add := ((p - c.cap * 1000) * d.tide.period + 32767999) / 32768000
      { d1 with sense := { d1.sense with sCap := min 255 (s0 + add) } }.writeThrottle
    else if c.kCap = 0 then { d1 with sense := { d1.sense with kCap := 8 } }.writeThrottle
    else if 1 < c.kCap then { d1 with sense := { d1.sense with kCap := c.kCap / 2 } }.writeThrottle
    else d1.writeThrottle
  else if p * 100 < 98 * c.cap * 1000 then
    if c.kCap ≠ 0 then { d1 with sense := { d1.sense with kCap := if c.kCap = 8 then 0 else c.kCap * 2 } }.writeThrottle
    else { d1 with sense := { d1.sense with sCap := s0 - 1 } }.writeThrottle
  else d1.writeThrottle

def execCapLoop (s : State) : Host.Outcome State Fault Refusal :=
  mainCmd (fun d => d.fwRuns) (fun d => d.capLoop) s

/-- THERMAL_TRIP (R489): the trip bits, THERMTRIP_N, the record and the alert; a fault stop with F_CAUSE 6 while a table is
armed, else the tile clocks are gated at once. -/
def Die.thermalTrip (d : Die) : Die :=
  let d1 := ((d.raise Reg.THM_TRIP_TRIP).raise Reg.THM_TRIP_TRIPPED).bump Reg.THM_TRIP_CNT_COUNT 1
  let d2 := { d1 with mgmt := { d1.mgmt with tripLow := true } }
  let d3 := (d2.alert alThermal).record 0x09 1 94 0xFFFF [d2.diode]
  if d.armed then d3.faultStop 6 d.coord else { d3 with sense := { d3.sense with gated := true } }

def execThermalTrip (s : State) : Host.Outcome State Fault Refusal :=
  mainCmd (fun d => !d.on Reg.THM_TRIP_TRIP) (fun d => d.thermalTrip) s

/-- THERMAL_TRIP_RELEASE (R489): below REL_LEVEL for 1 s. -/
def execThermalTripRelease (s : State) : Host.Outcome State Fault Refusal :=
  mainCmd (fun d => d.on Reg.THM_TRIP_TRIP)
    (fun d => { (d.clear Reg.THM_TRIP_TRIP).clear Reg.THM_TRIP_RELEASING with
      sense := { d.sense with gated := false }, mgmt := { d.mgmt with tripLow := false } }) s

/-- The running average of junction temperature over the module's service, in 1/16 °C (R21): 0 before the first reading. The spec gives
no rounding: the quotient is rounded down (DESIGN CHOICE, log entry 54). -/
def Die.junctionAvg (d : Die) : Int :=
  (d.nv.jctSum + d.sense.hourSum) / (d.nv.jctCount + d.sense.hourCount : Nat)

/-- JUNCTION_AVG_STORE: once per hour the firmware stores the average, which then holds the hour's readings too (R21, R488). A
reset loses the readings since the last store (log entry 54). -/
def execJunctionAvgStore (s : State) : Host.Outcome State Fault Refusal :=
  mainCmd (fun d => d.fwRuns)
    (fun d => { d with
      nv := { d.nv with jctSum := d.nv.jctSum + d.sense.hourSum, jctCount := d.nv.jctCount + d.sense.hourCount }
      sense := { d.sense with hourSum := 0, hourCount := 0 } }) s

/-! ### Commands -/

/-- POWER_CFG (R501). The host floor is a word in the layout of R249. -/
def execPowerCfg (box cap hostFloor guardStep : Nat) (s : State) : Host.Outcome State Fault Refusal :=
  fwCmd box (fun d =>
    if cap < 300 ∨ 750 < cap ∨ 64 < guardStep ∨ 2 < bits hostFloor 16 16 then d.reply box rcRange []
    else ({ d with sense := { d.sense with cap := cap, floor := hostFloor, guardStep := guardStep } }.writeThrottle).reply
      box rcOk []) s

/-- THERM_CFG (R501). -/
def execThermCfg (box period warn crit : Nat) (s : State) : Host.Outcome State Fault Refusal :=
  fwCmd box (fun d =>
    if period < 1 ∨ 1000 < period ∨ warn < 70 ∨ 110 < warn ∨ crit < warn + 2 ∨ 112 < crit then d.reply box rcRange []
    else { d with sense := { d.sense with period := period, warn := warn, crit := crit } }.reply box rcOk []) s

/-- Some reading spreads by more than 0.2 % of full scale: 100 mV of 50 V or 100 mA of 50 A (R477; of the integrators too, log entry 78). -/
def pointUnstable (p : SyscalParams) : Bool := decide (100 < p.sarSpread) || decide (100 < p.intSpread)

/-- The averaged readings that SYSCAL_POINT returns, through the coefficients in force. -/
def Die.pointReply (d : Die) (p : SyscalParams) : List Byte :=
  natLe 4 (enc 32 (d.throughScal (b2n p.current) p.sarMean)) ++ natLe 4 (enc 32 (d.throughScal (b2n p.current + 2) p.intMean))

/-- SYSCAL_POINT (R486): UNSTABLE when a reading spreads, SPAN when HIGH lies too near LOW; the averaged readings. A new LOW begins the
calibration of its input anew. -/
def execSyscalPoint (box : Nat) (p : SyscalParams) (s : State) : Host.Outcome State Fault Refusal :=
  fwCmd box (fun d =>
    let i := b2n p.current * 2
    if pointUnstable p then d.reply box rcUnstable []
    else match p.high, look d.sense.points i with
      | true, none => d.reply box rcState []
      | true, some low =>
        if p.reference < low.1 + 5000 then d.reply box rcSpan []
        else { d with sense := { d.sense with points := keep d.sense.points (i + 1) (p.reference, p.sarMean, p.intMean) } }.reply
          box rcOk (d.pointReply p)
      | false, _ =>
        { d with sense := { d.sense with
          points := keep (amErase d.sense.points (i + 1)) i (p.reference, p.sarMean, p.intMean) } }.reply box rcOk (d.pointReply p)) s

/-- Gain in ppm and offset through two points (reference, reading), or none beyond the limits of R486. -/
def solveCoeff (lo hi : Int × Int) : Option (Int × Int) :=
  let dx := hi.2 - lo.2
  if dx ≤ 0 then none
  else
    let g := roundHalfEven ((hi.1 - lo.1) * 1000000) dx.toNat - 1000000
    let o := roundHalfEven (lo.1 * 1000000 - lo.2 * (1000000 + g)) 1000000
    if 20000 < g.natAbs ∨ 500 < o.natAbs then none else some (g, o)

/-- The coefficients that wait for the window's boundary, those of input `i` taken out. -/
def Die.scalOther (d : Die) (i : Nat) : List (Nat × Nat × Nat) := d.sense.scalNext.filter (fun p => p.1 % 2 != i)

/-- SYSCAL_COMMIT (R486): the coefficients of the SAR channel and of the integrator, written to the non-volatile store and applied at the next
window boundary. -/
def execSyscalCommit (box : Nat) (current : Nat) (s : State) : Host.Outcome State Fault Refusal :=
  fwCmd box (fun d =>
    let i := current % 2
    match look d.sense.points (i * 2), look d.sense.points (i * 2 + 1) with
    | some l, some h =>
      match solveCoeff (l.1, l.2.1) (h.1, h.2.1), solveCoeff (l.1, l.2.2) (h.1, h.2.2) with
      | some a, some b =>
        { d with
          sense := { d.sense with scalNext := d.scalOther i ++ [(i, enc 16 a.1, enc 16 a.2), (i + 2, enc 16 b.1, enc 16 b.2)] },
          nv := { d.nv with
            scalV := d.nv.scalV || i == 0, scalI := d.nv.scalI || i == 1,
            words := amSet 0 (amSet 0 d.nv.words (Reg.MON_SCAL i) (w32 (enc 16 a.1 * 65536 + enc 16 a.2)))
              (Reg.MON_SCAL (i + 2)) (w32 (enc 16 b.1 * 65536 + enc 16 b.2)) } }.reply box rcOk []
      | _, _ => d.reply box rcLimit []
    | _, _ => d.reply box rcState []) s

/-- SYSCAL_RESET (R486): the factory coefficients return at the next window boundary. -/
def execSyscalReset (box : Nat) (current : Nat) (s : State) : Host.Outcome State Fault Refusal :=
  fwCmd box (fun d =>
    let i := current % 2
    { d with
      sense := { d.sense with scalNext := d.scalOther i },
      nv := { d.nv with scalV := d.nv.scalV && i != 0, scalI := d.nv.scalI && i != 1 } }.reply box rcOk []) s

/-- POWER_STATUS (R501, R21): the figures in the order the command lists them, four bytes each. -/
def execPowerStatus (box : Nat) (s : State) : Host.Outcome State Fault Refusal :=
  fwCmd box (fun d =>
    d.reply box rcOk (([d.sense.cap, d.capDemand, d.thermDemand, d.sense.floor, d.fastDemand,
      (d.getW Reg.TIDE_THR_APPLIED).toNat, d.get Reg.MON_INT_P_P1, d.get Reg.MON_INT_P_P100, d.diode,
      enc 32 d.junctionAvg, d.sense.guardCount, d.get Reg.THM_TRIP_CNT_COUNT].map (natLe 4)).flatten)) s

end Sys2Proof.Machine
end

