-- ==== Sys2Proof/Machine/Links.lean ====
section
/-! DEFINITION. Swell links and the torus (R449 to R475). -/
namespace Sys2Proof.Machine

/-- LNK_STATUS.STATE of link `k` (R458): 0 DISABLED, 1 DOWN, 2 TRAINING, 3 IDENTIFY, 4 UP, 5 MISMATCH, 6 STOPPING. -/
def Die.lnkState (d : Die) (k : Nat) : Nat := d.get (Reg.LNK_STATUS_STATE k)
def Die.setLnk (d : Die) (k st : Nat) : Die := d.put (Reg.LNK_STATUS_STATE k) st

/-- A packet stands in the receive buffer of link `k` (R455). -/
def Pkt.inRx (p : Pkt) (k : Nat) : Bool :=
  p.src == linkUnit k && p.held.isSome && (match linkUnit k with | .edge e a => p.place == .attach e a | .tile _ => false)

/-- What a link loses on the way into DOWN or DISABLED (R459): its retry and receive buffers, the packets that stand in them among
it, and both sequence counters. -/
def Die.dropLink (d : Die) (k : Nat) : Die :=
  let d1 := { d with mesh := { d.mesh with pkts := d.mesh.pkts.filter (fun p => !p.inRx k) } }
  ((d1.modLink k (fun _ => {})).clear (Reg.LNK_PARTNER_VALID k)).clear (Reg.LNK_STATUS_CHECK k)

/-- A packet discarded at a link (R457). -/
def Die.routeDrop (d : Die) (n route : Nat) : Die :=
  (d.record 0x07 4 (72 + n) n [route]).bump (⟨Reg.LNK_ROUTE_DROP n, 0, 32⟩) 1

/-- The packets that wait to leave on a link no longer UP are discarded (R457); one whose first flits have left goes without a record
(R453). -/
def Die.dropWaiting (d : Die) (k : Nat) : Die :=
  ((d.link k).txPackets.filter (fun p => bit p.1 1)).foldl (fun e p => e.routeDrop k (leAt p.2 0 4))
    (d.modLink k (fun l => { l with txPackets := [] }))

/-- A link enters state `st`, and leaves UP where it was (R457, R459, R466, R473, R475). A slice link's departure is a fault stop with
F_CAUSE 1, whose marks go to the links still UP: so a neighbour that failed without a reset stops this module (R467). -/
def Die.leaveUp (d : Die) (k st : Nat) : Die :=
  let d1 := d.setLnk k st
  if d.lnkState k = 4 then
    let d2 := ((d1.raise (Reg.LNK_STATUS_WENT_DOWN k)).bump (⟨Reg.LNK_DOWN k, 0, 32⟩) 1).dropWaiting k
    if bit d.sliceMask k then d2.faultStop 1 d.coord else d2
  else d1

/-- A link goes DOWN with a cause of R473: record LINK 2 and the link alert where it leaves UP or failed to train. -/
def Die.linkDown (d : Die) (k cause : Nat) : Die :=
  let d1 := if d.lnkState k = 4 ∨ cause = 7 then (d.record 0x07 2 (72 + k) k [cause]).alert alLink else d
  ((d1.leaveUp k 1).put (Reg.LNK_STATUS_CAUSE k) cause).dropLink k

/-! ### The cabling check (R462) -/

/-- A plan entry or a partner's identity: coordinates and port. -/
def Die.planOf (d : Die) (k : Nat) : Nat × Nat := (d.get (Reg.LNK_PLAN_COORD k), d.get (Reg.LNK_PLAN_PORT k))
def Die.partnerOf (d : Die) (k : Nat) : Nat × Nat := (d.get (Reg.LNK_PARTNER_COORD k), d.get (Reg.LNK_PARTNER_PORT k))
def Die.planValid (d : Die) (k : Nat) : Bool := d.on (Reg.LNK_PLAN_VALID k)

/-- The links other than `k`. -/
def others (k : Nat) : List Nat := (List.range 6).filter (fun j => decide (j ≠ k))

/-- The result code of R462 for link `k`. -/
def Die.checkCode (d : Die) (k : Nat) : Nat :=
  let p := d.partnerOf k
  if !d.on (Reg.LNK_PARTNER_VALID k) then 0
  else if d.get64 (Reg.LNK_PARTNER_SERIAL_LO k) = d.nv.serial then 5
  else if (d.link k).torus ≠ (d.getW Reg.GLB_TORUS).toNat % 65536 ∨ d.on (Reg.LNK_PARTNER_CVALID k) = false then 6
  else if d.planValid k ∧ p = d.planOf k then 1
  else if (others k).any (fun j => d.planValid j && decide (p = d.planOf j) && d.on (Reg.LNK_PARTNER_VALID j) &&
      decide (d.partnerOf j = d.planOf k)) then 2
  else if (d.planValid k ∧ p.1 = (d.planOf k).1) ∨
      (others k).any (fun j => d.planValid j && decide (p = d.planOf j)) = true then 3
  else 4

/-- The comparison of one link runs (R462): a changed result is recorded and raises the alert; MATCH leads to UP, every other
result to MISMATCH, once GLB_COORD.VALID is 1. -/
def Die.runCheck (d : Die) (k : Nat) : Die :=
  let st := d.lnkState k
  if (st = 3 ∨ st = 4 ∨ st = 5) ∧ d.on (Reg.LNK_PARTNER_VALID k) = true then
    let c := d.checkCode k
    let d1 :=
      if c = d.get (Reg.LNK_STATUS_CHECK k) then d
      else (((d.put (Reg.LNK_STATUS_CHECK k) c).raise (Reg.LNK_STATUS_CHECK_CHG k)).record 0x07 1 (72 + k) k
        [c, (d.getW (Reg.LNK_PARTNER k)).toNat, (d.link k).torus, d.coord, (d.getW (Reg.LNK_PLAN k)).toNat]).alert alLink
    if !d.on Reg.GLB_COORD_VALID then d1
    else if c = 1 then (if st = 3 then d1.setLnk k 4 else d1)
    else d1.leaveUp k 5
  else d

/-- The comparison runs on every link. -/
def Die.checkAll (d : Die) : Die := (List.range 6).foldl (fun e k => e.runCheck k) d

/-- After a change of coordinates, torus or a plan, links in MISMATCH and the UP links `hit` names return to IDENTIFY and the
comparison runs again (R459, R462). -/
def Die.reidentify (d : Die) (hit : Nat → Bool) : Die :=
  ((List.range 6).foldl (fun e k =>
    if e.lnkState k = 5 then e.setLnk k 3
    else if e.lnkState k = 4 ∧ hit k = true then e.leaveUp k 3
    else e) d).checkAll

/-! ### Register writes -/

/-- LINK_ENABLE: LNK_CTRL.EN written 1 (R459, R514, R521). -/
def Die.linkEnable (d : Die) (ag : Agent) (k : Nat) : Die :=
  if d.lowWater then d.answer ag stOk
  else
    let d1 := (d.raise (Reg.LNK_CTRL_EN k)).answer ag stOk
    if d.lnkState k = 0 then d1.setLnk k 1
    else if d.lnkState k = 6 then d1.raise (Reg.LNK_STATUS_DEFERRED k)
    else d1

def execLinkEnable (ag : Agent) (link : Nat) (s : State) : Host.Outcome State Fault Refusal :=
  mainCmd (fun d => d.mayControl ag && decide (link < 6)) (fun d => d.linkEnable ag link) s

/-- A CONTROL flit waits to leave: its OP and its fields. -/
def Die.sendControl (d : Die) (k op : Nat) (words : List Nat) : Die :=
  d.modLink k (fun l => { l with control := l.control ++ [(op, words)] })

/-- A link begins to stop, with a cause of R473 that its DOWN_NOTICE names (R459). -/
def Die.linkStop (d : Die) (k cause : Nat) : Die :=
  if 2 ≤ d.lnkState k ∧ d.lnkState k ≤ 5 then ((d.leaveUp k 6).put (Reg.LNK_STATUS_CAUSE k) cause).sendControl k 3 [cause] else d

/-- LINK_DISABLE: LNK_CTRL.EN written 0 (R459, R521). -/
def Die.linkDisable (d : Die) (ag : Agent) (k : Nat) : Die :=
  (((d.clear (Reg.LNK_CTRL_EN k)).clear (Reg.LNK_STATUS_DEFERRED k)).answer ag stOk).linkStop k 1

def execLinkDisable (ag : Agent) (link : Nat) (s : State) : Host.Outcome State Fault Refusal :=
  mainCmd (fun d => d.mayControl ag && decide (link < 6)) (fun d => d.linkDisable ag link) s

/-- LINK_RETRAIN: DOWN with cause RETRAIN, then TRAINING at once; ignored in DISABLED and STOPPING (R459, R472). -/
def Die.linkRetrain (d : Die) (ag : Agent) (k : Nat) : Die :=
  let st := d.lnkState k
  let d1 := d.answer ag stOk
  if 2 ≤ st ∧ st ≤ 5 then (d1.linkDown k 8).setLnk k 2
  else if st = 1 then d1.raise (Reg.LNK_CTRL_RETRAIN k)
  else d1

def execLinkRetrain (ag : Agent) (link : Nat) (s : State) : Host.Outcome State Fault Refusal :=
  mainCmd (fun d => d.mayControl ag && decide (link < 6)) (fun d => d.linkRetrain ag link) s

/-- Who may write coordinates and plans: J3 and DEBUG sessions (R461). -/
def Die.mayPlan (d : Die) (ag : Agent) : Bool := ag == .j3 || d.hasDebug ag

/-- A write of GLB_COORD, GLB_TORUS or a plan: refused with ROLE from others, and with BUSY and a record while a table is
neither IDLE nor LOADED where it would change the register (R461). -/
def Die.planWrite (d : Die) (ag : Agent) (addr word : Nat) (f : Die → Die) : Die :=
  if !d.mayPlan ag then d.answer ag stRole
  else if d.tideState ≠ 0 ∧ d.tideState ≠ 2 ∧
      writeFields ((regSpec addr).getD []) (d.getW addr).toNat word ≠ (d.getW addr).toNat then d.busy ag addr word
  else f d

/-- The coordinate fields of a GLB_COORD write that the torus does not hold (R470): X, Y, Z as (lo, size field). -/
def Die.coordFields (d : Die) : List (Nat × Nat) :=
  [(0, d.get Reg.GLB_TORUS_SX), (5, d.get Reg.GLB_TORUS_SY), (10, d.get Reg.GLB_TORUS_SZ)]

/-- COORD_WRITE (R461, R470). A coordinate not below its torus size is a reserved encoding. -/
def Die.coordWrite (d : Die) (ag : Agent) (word : Nat) : Die :=
  let old := (d.getW Reg.GLB_COORD).toNat
  let good := (d.coordFields.filter (fun p => decide (bits word p.1 5 ≤ p.2)))
  let bad := (d.coordFields.filter (fun p => !decide (bits word p.1 5 ≤ p.2)))
  let new := setBits (good.foldl (fun o p => setBits o p.1 5 (bits word p.1 5)) old) 15 1 (bits word 15 1)
  let d1 := bad.foldl (fun e p => e.record 0x01 3 93 0xFFFF (detailA Reg.GLB_COORD word stOk ag p.1 5))
    (d.putW Reg.GLB_COORD (w32 new))
  (d1.answer ag stOk).reidentify (fun _ => decide (new ≠ old))

def execCoordWrite (ag : Agent) (word : Nat) (s : State) : Host.Outcome State Fault Refusal :=
  mainCmd (fun d => d.mayControl ag) (fun d => d.planWrite ag Reg.GLB_COORD word (fun e => e.coordWrite ag word)) s

/-- TORUS_WRITE (R461, R471). -/
def Die.torusWrite (d : Die) (ag : Agent) (word : Nat) : Die :=
  let old := d.getW Reg.GLB_TORUS
  let d1 := d.plainWrite ag Reg.GLB_TORUS word 93
  d1.reidentify (fun _ => decide (d1.getW Reg.GLB_TORUS ≠ old))

def execTorusWrite (ag : Agent) (word : Nat) (s : State) : Host.Outcome State Fault Refusal :=
  mainCmd (fun d => d.mayControl ag) (fun d => d.planWrite ag Reg.GLB_TORUS word (fun e => e.torusWrite ag word)) s

/-- PLAN_WRITE (R461, R474). -/
def Die.lnkPlanWrite (d : Die) (ag : Agent) (k word : Nat) : Die :=
  let old := d.getW (Reg.LNK_PLAN k)
  let d1 := d.plainWrite ag (Reg.LNK_PLAN k) word 93
  d1.reidentify (fun j => decide (j = k) && decide (d1.getW (Reg.LNK_PLAN k) ≠ old))

def execPlanWrite (ag : Agent) (link word : Nat) (s : State) : Host.Outcome State Fault Refusal :=
  mainCmd (fun d => d.mayControl ag && decide (link < 6))
    (fun d => d.planWrite ag (Reg.LNK_PLAN link) word (fun e => e.lnkPlanWrite ag link word)) s

/-! ### Training and identification -/

/-- PARTNER_SIGNAL: a partner signal on all 8 lanes clears NO_PARTNER and starts training of an enabled link in DOWN. -/
def execPartnerSignal (link : Nat) (s : State) : Host.Outcome State Fault Refusal :=
  mainCmd (fun d => decide (link < 6) && d.lnkState link == 1)
    (fun d =>
      let d1 := d.clear (Reg.LNK_STATUS_NO_PARTNER link)
      if d.on (Reg.LNK_CTRL_EN link) then (d1.setLnk link 2).clear (Reg.LNK_CTRL_RETRAIN link) else d1) s

/-- LINK_TRAINED: TRAINING to IDENTIFY, with both sequence counters at 0 (R459). -/
def execLinkTrained (link : Nat) (s : State) : Host.Outcome State Fault Refusal :=
  mainCmd (fun d => decide (link < 6) && d.lnkState link == 2)
    (fun d => (d.modLink link (fun l => { l with txSeq := 0, rxSeq := 0 })).setLnk link 3) s

/-- LINK_TRAIN_TIMEOUT: 250 ms without success (R459). -/
def execLinkTrainTimeout (link : Nat) (s : State) : Host.Outcome State Fault Refusal :=
  mainCmd (fun d => decide (link < 6) && d.lnkState link == 2) (fun d => d.linkDown link 7) s

/-- States in which IDENTITY flits are carried (R458). -/
def Die.carriesId (d : Die) (k : Nat) : Bool := d.lnkState k == 3 || d.lnkState k == 4 || d.lnkState k == 5

/-! ### Flits (R450, R451) -/

/-- TYPE of a flit that arrived. -/
def flitType (f : FlitIn) : Nat := bits (leAt f.bytes 0 1) 5 3

/-- VC of a PACKET flit. -/
def flitVc (f : FlitIn) : Nat := bits (leAt f.bytes 0 1) 3 2

/-- FIRST and LAST of a PACKET flit. -/
def flitFirst (f : FlitIn) : Bool := bit (leAt f.bytes 0 1) 2
def flitLast (f : FlitIn) : Bool := bit (leAt f.bytes 0 1) 1

/-- ACK and PAYLOAD. -/
def flitAck (f : FlitIn) : Nat := leAt f.bytes 1 1
def flitPayload (f : FlitIn) : List Byte := (f.bytes.drop 2).take 250

/-- PACKET, BURST and MARK flits are sequenced (R451). -/
def flitSeqd (f : FlitIn) : Bool := decide (1 ≤ flitType f) && decide (flitType f ≤ 3)

/-- A flit of a reserved type (R451). A PACKET flit on the reserved VC 3 is taken as one (DESIGN CHOICE, log entry 79). -/
def flitReserved (f : FlitIn) : Bool := decide (5 < flitType f) || (flitType f == 1 && flitVc f == 3)

/-- The CRC of a flit's first 252 bytes under a sequence number, 0xFFFF for an unsequenced one (R450). -/
def flitCrc (seq : Nat) (body : List Byte) : Nat := crc32c (natLe 2 seq ++ body)

/-- The CRC of a flit is good where number `seq` is expected. -/
def flitGood (f : FlitIn) (seq : Nat) : Bool :=
  flitCrc (if flitSeqd f then seq else 65535) (f.bytes.take 252) == leAt f.bytes 252 4

/-- The 256 bytes of a flit that leaves link `k` (R450): its ACK is the number of the last sequenced flit received in order. -/
def Die.flitBytes (d : Die) (k seq kind : Nat) (payload : List Byte) : List Byte :=
  let body := natLe 1 kind ++ natLe 1 ((d.link k).rxSeq + 255) ++ payload ++ zeros (250 - payload.length)
  body ++ natLe 4 (flitCrc seq body)

/-- The bytes of a flit leave and are counted (R475). -/
def Die.putFlit (d : Die) (k : Nat) (bs : List Byte) : Die := (d.bump64 (Reg.LNK_TX_FLITS_LO k) 1).emit (.flit k bs)

/-- A flit leaves. -/
def Die.sendFlit (d : Die) (k seq kind : Nat) (payload : List Byte) : Die := d.putFlit k (d.flitBytes k seq kind payload)

/-- The payload of a CONTROL flit (R451): NAK names a number in 2 bytes, CREDIT four counts of 4 bytes, DOWN_NOTICE a cause in 1
byte (DEDUCED, log entry 79). -/
def controlBytes (op : Nat) (words : List Nat) : List Byte :=
  natLe 1 op ++ (words.map (natLe (if op = 1 then 2 else if op = 2 then 4 else 1))).flatten

/-- The bytes of a CONTROL flit. -/
def Die.controlFlit (d : Die) (k op : Nat) (words : List Nat) : List Byte := d.flitBytes k 65535 0x80 (controlBytes op words)

/-- The bytes of an IDLE flit. -/
def Die.idleFlit (d : Die) (k : Nat) : List Byte := d.flitBytes k 65535 0 []

/-- The payload of this module's IDENTITY flit on link `k` (R460). -/
def Die.identityBytes (d : Die) (k : Nat) : List Byte :=
  natLe 2 d.coord ++ natLe 2 (d.getW Reg.GLB_TORUS).toNat ++ natLe 1 k ++ zeros 3 ++ natLe 8 d.nv.serial

/-! ### What a transmitter has ready (R454, R455) -/

/-- Whether the partner's credit covers `n` more of kind `i` (0 to 2 packet flits of a VC, 3 burst bytes); the counts of 4 bytes
wrap. -/
def creditOk (l : Link) (i n : Nat) : Bool :=
  decide ((l.sent.getD i 0 + n + 2 ^ 32 - l.credit.getD i 0 % 2 ^ 32) % 2 ^ 32 ≤ (if i = 3 then 1048576 else 64))

/-- The packet flit of a VC that comes next. -/
def vcFront (l : Link) (vc : Nat) : Option (Nat × List Byte) := l.txPackets.find? (fun p => p.1 / 4 == vc)

/-- The packet flit that leaves next, VC1 first, then VC0 and VC2 packet by packet. -/
def pickPacket (l : Link) : Option (Nat × Nat × List Byte) :=
  let ok (vc : Nat) := (vcFront l vc).isSome && creditOk l vc 1
  let mid (vc : Nat) := match vcFront l vc with | some p => !bit p.1 1 | none => false
  let order := if mid 0 then [1, 0, 2] else if mid 2 then [1, 2, 0] else if l.lastVc2 then [1, 0, 2] else [1, 2, 0]
  match order.find? ok with
  | none => none
  | some vc => (vcFront l vc).map (fun p => (vc, p.1, p.2))

/-- The next BURST flit that credit covers (R451, R455): payload, the bursts left after it, and its burst bytes. A last flit of less
than 250 bytes needs credit for what it carries (log entry 43). -/
def pickBurst (l : Link) : Option (List Byte × List TxBurst × Nat) :=
  match l.txBursts with
  | [] => none
  | b :: r =>
    let room := if b.begun then 250 else 242
    let part := b.data.take room
    let left := b.data.drop room
    let head := if b.begun then [] else natLe 2 b.stream ++ zeros 2 ++ natLe 4 b.total
    if creditOk l 3 part.length then
      some (head ++ part, if left.isEmpty then r else { b with data := left, begun := true } :: r, part.length)
    else none

/-- The retry buffer takes another flit (R452). -/
def retryRoom (l : Link) : Bool := decide (l.retry.length < 255)

/-- A flit other than IDENTITY and IDLE is ready to leave link `k` now (R452, R454, R458). -/
def Die.flitReady (d : Die) (k : Nat) : Bool :=
  let l := d.link k
  ((d.linkUp k || d.lnkState k == 6) && !l.control.isEmpty) ||
    (d.linkUp k && (l.resend.isSome || (retryRoom l && (!l.txMarks.isEmpty || (pickBurst l).isSome || (pickPacket l).isSome))))

/-- A burst or packet flit of a link waits for credit (R455). -/
def waitsCredit (l : Link) : Bool :=
  (!l.txBursts.isEmpty && (pickBurst l).isNone) || (List.range 3).any (fun vc => (vcFront l vc).isSome && !creditOk l vc 1)

/-- The reference cycles in which a ready flit waits for credit are counted (R475). -/
def Die.countWaits (d : Die) : Die :=
  (List.range 6).foldl (fun e k =>
    if e.linkUp k && waitsCredit (e.link k) then e.bump (⟨Reg.LNK_CREDIT_WAIT k, 0, 32⟩) 1 else e) d

/-! ### Identities (R460) -/

/-- IDENTITY_SEND (R460): where nothing but IDLE flits is ready (R454). -/
def execIdentitySend (link : Nat) (s : State) : Host.Outcome State Fault Refusal :=
  mainCmd (fun d => decide (link < 6) && d.carriesId link && !d.flitReady link)
    (fun d => d.sendFlit link 65535 0xA0 (d.identityBytes link)) s

/-- An identity is stored (R460, R462): a new one takes MISMATCH back to IDENTIFY; the check runs. -/
def Die.identityIn (d : Die) (k coord torus port serial : Nat) : Die :=
  let new := w32 (coord % 65536 + port % 8 * 65536 + 2147483648)
  let changed := decide (d.getW (Reg.LNK_PARTNER k) ≠ new ∨ (d.link k).torus ≠ torus ∨
    d.get64 (Reg.LNK_PARTNER_SERIAL_LO k) ≠ serial)
  let d1 := (d.putW (Reg.LNK_PARTNER k) new).put64 (Reg.LNK_PARTNER_SERIAL_LO k) serial
  let d2 := d1.modLink k (fun l => { l with torus := torus })
  let d3 := if changed && d2.lnkState k == 5 then d2.setLnk k 3 else d2
  if changed then d3.checkAll else d3.runCheck k

/-- IDENTITY_RECEIVE: the flit is counted, and its identity stored. -/
def Die.identityReceive (d : Die) (k coord torus port serial : Nat) : Die :=
  (d.bump64 (Reg.LNK_RX_FLITS_LO k) 1).identityIn k coord torus port serial

def execIdentityReceive (link coord torus port serial : Nat) (s : State) : Host.Outcome State Fault Refusal :=
  mainCmd (fun d => decide (link < 6) && d.carriesId link && decide (port < 6) && decide (torus < 65536))
    (fun d => d.identityReceive link coord torus port serial) s

/-- LINK_SIGNAL_LOSS: signal (cause 2) or FEC alignment (cause 3) lost for more than 1 µs in UP. -/
def execLinkSignalLoss (link : Nat) (fec : Bool) (s : State) : Host.Outcome State Fault Refusal :=
  mainCmd (fun d => decide (link < 6) && d.linkUp link) (fun d => d.linkDown link (if fec then 3 else 2)) s

/-- DOWN_NOTICE received in UP: DOWN with cause 5. -/
def execDownNotice (link : Nat) (s : State) : Host.Outcome State Fault Refusal :=
  mainCmd (fun d => decide (link < 6) && d.linkUp link) (fun d => d.linkDown link 5) s

/-- LINK_STOPPED: with the DOWN_NOTICE sent STOPPING completes; DISABLED, or DOWN under the deferred rule (R459). -/
def execLinkStopped (link : Nat) (s : State) : Host.Outcome State Fault Refusal :=
  mainCmd (fun d => decide (link < 6) && d.lnkState link == 6 && (d.link link).control.isEmpty)
    (fun d => if d.on (Reg.LNK_STATUS_DEFERRED link)
      then ((d.clear (Reg.LNK_STATUS_DEFERRED link)).dropLink link).setLnk link 1
      else (d.dropLink link).setLnk link 0) s

/-- NO_PARTNER_TIMEOUT: an enabled link has seen no partner signal for 1 s; a planned cable is then reported missing (R459,
R462). -/
def execNoPartnerTimeout (link : Nat) (s : State) : Host.Outcome State Fault Refusal :=
  mainCmd (fun d => decide (link < 6) && d.lnkState link == 1 && d.on (Reg.LNK_CTRL_EN link))
    (fun d =>
      let d1 := d.raise (Reg.LNK_STATUS_NO_PARTNER link)
      if d.planValid link then
        (d1.record 0x07 1 (72 + link) link [0, 0, 0, d.coord, (d.getW (Reg.LNK_PLAN link)).toNat]).alert alLink
      else d1) s

/-! ### Retry (R452, R453) -/

/-- The link goes DOWN with RETRY_LIMIT (R453), after a DOWN_NOTICE. -/
def Die.retryLimit (d : Die) (k : Nat) : Die :=
  ((((d.raise (Reg.LNK_STATUS_RETRY_LIMIT k)).record 0x07 3 (72 + k) k []).alert alLink).linkDown k 4).putFlit k (d.controlFlit k 3 [4])

/-- A fault at the receiver (R452): a first one opens a retry event and sends a NAK; a further one while the expected flit is
awaited changes nothing. -/
def Die.rxFault (d : Die) (k : Nat) : Die :=
  let l := d.link k
  if l.waiting then d
  else
    let ev := d.clock.quarter :: l.events.filter (fun t => decide (d.clock.quarter < t + 4000000))
    let d1 := (d.modLink k (fun x => { x with waiting := true, naks := 1, events := ev })).bump (⟨Reg.LNK_RETRY k, 0, 32⟩) 1
    if 64 ≤ ev.length then d1.retryLimit k else d1.sendControl k 1 [l.rxSeq]

/-- The retry buffer without the flits that an ACK field covers (R452). -/
def ackRetry (buf : List TxFlit) (ack : Nat) : List TxFlit :=
  if buf.any (fun f => f.seq % 256 == ack) then (buf.dropWhile (fun f => decide (f.seq % 256 ≠ ack))).drop 1 else buf

/-- Whether injector 2 discards a sequenced flit that arrives on its link (R577): while arrivals of a firing are left, one under the
number expected; else, where the receiver has accepted the number of the last firing, the next one. While a flit is awaited after a
real fault, only the expected one counts as the next (DEDUCED, log entry 79). -/
def Die.injectRetry (d : Die) (k : Nat) (good : Bool) : Bool :=
  d.ptbActive 2 && bits (d.getW (Reg.PTB_TARGET 2)).toNat 24 3 == k &&
    (if 0 < (d.inj 2).left then good else (d.inj 2).seq.isNone && (good || !(d.link k).waiting))

/-- One discarded arrival of injector 2. -/
def Die.useRetry (d : Die) (k : Nat) : Die :=
  let x := d.inj 2
  let left := (if x.left = 0 then d.get (Reg.PTB_AMOUNT_AMOUNT 2) else x.left) - 1
  let d1 := d.setInj 2 { x with left := left, seq := some (d.link k).rxSeq }
  if left = 0 then d1.ptbFire 2 else d1

/-! ### Packets in transit (R457) -/

/-- Sizes of the torus. -/
def Die.torusSize (d : Die) : Nat × Nat × Nat := (d.get Reg.GLB_TORUS_SX + 1, d.get Reg.GLB_TORUS_SY + 1, d.get Reg.GLB_TORUS_SZ + 1)

/-- x, y, z of a coordinate word. -/
def xyz (c : Nat) : Nat × Nat × Nat := (bits c 0 5, bits c 5 5, bits c 10 5)

/-- The direction along one axis: none where the coordinates agree, else 0 toward + and 1 toward -, ties toward +. -/
def axisWay (size here there : Nat) : Option Nat :=
  let dx := (there + size - here) % size
  if dx = 0 then none else if 2 * dx ≤ size then some 0 else some 1

/-- The link a VC2 packet takes next: X, then Y, then Z, the shorter way round (R457). -/
def Die.nextLink (d : Die) (dest : Nat) : Option Nat :=
  let t := d.torusSize
  let a := xyz d.coord
  let b := xyz dest
  match axisWay t.1 a.1 b.1, axisWay t.2.1 a.2.1 b.2.1, axisWay t.2.2 a.2.2 b.2.2 with
  | some w, _, _ => some w
  | none, some w, _ => some (2 + w)
  | none, none, some w => some (4 + w)
  | none, none, none => none

/-- A packet's bytes cut into flit payloads of 250, with FIRST and LAST marked (R457). -/
def cutFlits (n vc : Nat) (first : Bool) (bs : List Byte) : List (Nat × List Byte) :=
  match n with
  | 0 => []
  | m + 1 => if bs.length ≤ 250 then [(4 * vc + 2 * b2n first + 1, bs)]
             else (4 * vc + 2 * b2n first, bs.take 250) :: cutFlits m vc false (bs.drop 250)

/-- A whole packet waits to leave on a link. -/
def Die.sendPacket (d : Die) (k vc : Nat) (bs : List Byte) : Die :=
  d.modLink k (fun l => { l with txPackets := l.txPackets ++ cutFlits 6 vc true bs })

/-- The route word of a packet that leaves this module on link `n`: the one it goes on with, or the partner's coordinates and
one hop (R457). -/
def Die.routeOf (d : Die) (n : Nat) (p : Pkt) : Nat := p.route.getD (setBits (d.get (Reg.LNK_PARTNER_COORD n)) 15 6 1)

/-- The 16 header bytes of a packet as it leaves on a link (R61, log entry 17): those it came with, or new ones. -/
def Pkt.headerBytes (p : Pkt) : List Byte :=
  if p.header.isEmpty then
    (List.range 16).map (Config.packetHeader
      [p.addr, unitNumber p.src, p.vc, p.tenant, b2n p.sys, p.stamp, b2n p.old, p.len])
  else p.header

/-- The channel a packet takes on link `n` (R457): VC2 where its destination lies beyond the neighbour. -/
def Die.linkVc (d : Die) (n : Nat) (p : Pkt) : Nat :=
  match p.route with
  | some r => if p.vc = 0 ∧ bits r 0 15 ≠ d.get (Reg.LNK_PARTNER_COORD n) then 2 else p.vc
  | none => p.vc

/-- A packet leaves the packet plane for link `n` (R60, R457). -/
def Die.linkOut (d : Die) (n : Nat) (p : Pkt) : Die :=
  if d.linkUp n then d.sendPacket n (d.linkVc n p) (natLe 4 (d.routeOf n p) ++ p.headerBytes ++ p.data) else d.routeDrop n (d.routeOf n p)

/-- The unit of a number found in a header (log entry 17). -/
def unitOf (c : Nat) : MeshUnit := if c % 72 < 64 then .tile (c % 72) else .edge (c % 72 - 64) (c / 72 % 3)

/-- Raises one of the four cumulative freed counts, and returns credit by a CONTROL flit after 16 packet flits or 256 KB of
burst buffer (R455). -/
def Die.freeRx (d : Die) (k i n : Nat) : Die :=
  let l := d.link k
  let f := l.freed.set i ((l.freed.getD i 0) + n)
  let d1 := d.modLink k (fun x => { x with freed := f })
  if (if i = 3 then 262144 else 16) ≤ f.getD i 0 - l.returned.getD i 0 then
    (d1.modLink k (fun x => { x with returned := f })).sendControl k 2 f
  else d1

/-- The receive buffer that a packet held is free (R455). -/
def Die.freeHeld (d : Die) (p : Pkt) : Die :=
  match unitLink p.src, p.held with
  | some k, some x => d.freeRx k x.1 x.2
  | _, _ => d

/-- Flits that carried the bytes of a packet. -/
def flitsOf (bs : List Byte) : Nat := (bs.length + 249) / 250

/-- The payload of a packet that came over a link: of the bytes after its header, as many as the header gives it (R61, R450). -/
def linkPayload (bs : List Byte) : List Byte := (bs.drop 20).take (Config.packetField ((bs.drop 4).take 16) 4)

/-- A packet that came over link `k` for this module: the last hop continues on VC0 (R457), to the unit its header names. One for
a unit that a COMPUTE reset holds is answered with an error completion (R517). -/
def Die.packetHere (d : Die) (k vc : Nat) (bs : List Byte) : Die :=
  let head := (bs.drop 4).take 16
  let f := Config.packetField head
  let dst := unitOf (f 1)
  if d.computeHeld && underCompute dst then (d.freeRx k vc (flitsOf bs)).emit (.linkMsg k 1 [f 0])
  else d.meshIn { d.newPkt (linkUnit k) dst (if vc = 2 then 0 else vc) (f 2 % 4096) (decide (f 3 = 1)) (f 0 % 2 ^ 48) (linkPayload bs) with
    header := head, held := some (vc, flitsOf bs) }

/-- A whole packet has arrived on link `k` (R60, R457): it enters the packet plane, for a unit of this module or, in transit, for
the next link with its hop count raised; or it is discarded with a record where that link is not UP or the hops exceed 48. It holds its
receive buffer until it leaves the attachment (R455). -/
def Die.packetIn (d : Die) (k vc : Nat) (bs : List Byte) : Die :=
  let route := leAt bs 0 4
  let hops := bits route 15 6 + 1
  match (if vc = 2 then d.nextLink (bits route 0 15) else none) with
  | none => d.packetHere k vc bs
  | some n =>
    if d.linkUp n = false ∨ 48 < hops then (d.freeRx k vc (flitsOf bs)).routeDrop n route
    else d.meshIn { d.newPkt (linkUnit k) (linkUnit n) 2 0 false 0 (linkPayload bs) with
      route := some (setBits route 15 6 hops), header := (bs.drop 4).take 16, held := some (vc, flitsOf bs) }

/-- The receive buffer with one more BURST flit (R451): it goes on with the burst that is not complete, or begins a new one. -/
def burstIn (l : List RxBurst) (bs : List Byte) : List RxBurst :=
  match l with
  | [] => [{ stream := leAt bs 0 2, total := leAt bs 4 4, data := (bs.drop 8).take (leAt bs 4 4) }]
  | [b] => if b.data.length < b.total then [{ b with data := b.data ++ bs.take (b.total - b.data.length) }]
           else [b, { stream := leAt bs 0 2, total := leAt bs 4 4, data := (bs.drop 8).take (leAt bs 4 4) }]
  | b :: r => b :: burstIn r bs

/-- What an accepted sequenced flit delivers; `retried` says that it had to be resent. -/
def Die.deliverFlit (d : Die) (k : Nat) (f : FlitIn) (retried : Bool) : Die :=
  match flitType f with
  | 1 =>
    let vc := flitVc f
    let part := if flitFirst f then flitPayload f else ((look (d.link k).rxParts vc).getD []) ++ flitPayload f
    if flitLast f then (d.modLink k (fun l => { l with rxParts := amErase l.rxParts vc })).packetIn k vc part
    else d.modLink k (fun l => { l with rxParts := keep l.rxParts vc part })
  | 2 => d.modLink k (fun l => { l with rxBursts := burstIn l.rxBursts (flitPayload f) })
  | _ => if bit d.sliceMask k then d.markReceive k (readMark (flitPayload f) retried) else d

/-- A sequenced flit under the number expected is accepted and delivered (R452); the number of injector 2's last firing is then no
longer awaited (R577). -/
def Die.acceptFlit (d : Die) (k : Nat) (f : FlitIn) : Die :=
  let x := d.inj 2
  let d1 := if x.seq = some (d.link k).rxSeq ∧ x.left = 0 then d.setInj 2 { x with seq := none } else d
  (d1.modLink k (fun l => { l with waiting := false, naks := 0, rxSeq := (l.rxSeq + 1) % 65536 })).deliverFlit k f (d.link k).waiting

/-- A NAK (R452): the transmitter resends from the named flit onward, in order; one that names no flit of the retry buffer changes
nothing. -/
def Die.nakIn (d : Die) (k seq : Nat) : Die :=
  if (d.link k).retry.any (fun f => f.seq == seq) then
    d.modLink k (fun l => { l with resend := some seq, retry := l.retry.dropWhile (fun f => decide (f.seq ≠ seq)) })
  else d

/-- A CONTROL flit acts (R451); one with an OP that R451 does not list does nothing (DESIGN CHOICE, log entry 79). -/
def Die.controlIn (d : Die) (k : Nat) (bs : List Byte) : Die :=
  match leAt bs 0 1 with
  | 1 => d.nakIn k (leAt bs 1 2)
  | 2 => d.modLink k (fun l => { l with credit := [leAt bs 1 4, leAt bs 5 4, leAt bs 9 4, leAt bs 13 4] })
  | 3 => d.linkDown k 5
  | _ => d

/-- A good flit that is not IDLE (R450, R451, R458): a link that is not UP heeds IDENTITY flits alone. -/
def Die.goodFlit (d : Die) (k : Nat) (f : FlitIn) : Die :=
  let p := flitPayload f
  if flitType f = 5 then
    if leAt p 4 1 < 6 then d.identityIn k (leAt p 0 2) (leAt p 2 2) (leAt p 4 1) (leAt p 8 8) else d
  else if !d.linkUp k then d
  else if flitType f = 4 then d.controlIn k p
  else d.acceptFlit k f

/-- A flit that failed its CRC, that injector 2 discards or that has a reserved type is counted; on a link that is UP it is a fault.
Where injector 2 discards the flit expected after four NAKs, these brought no progress (R453, R577). -/
def Die.badFlit (d : Die) (k : Nat) (inj : Bool) : Die :=
  let l := d.link k
  let d1 := d.bump (⟨Reg.LNK_CRC_ERR k, 0, 32⟩) 1
  if !d.linkUp k then d1
  else if inj && l.waiting && decide (4 ≤ l.naks) then d1.retryLimit k
  else d1.rxFault k

/-- A flit arrives (R450 to R452): its codewords are counted; an uncorrectable one discards it, which is a fault on a link that is UP;
a bad one is discarded; a good one acknowledges what it covers and acts. -/
def Die.flitReceive (d : Die) (k : Nat) (f : FlitIn) : Die :=
  let d1 := (d.bump (⟨Reg.LNK_FEC_CORR k, 0, 32⟩) f.corrected).bump (⟨Reg.LNK_FEC_UNCORR k, 0, 32⟩) f.uncorrected
  if 0 < f.uncorrected then if d.linkUp k then d1.rxFault k else d1
  else
    let good := flitGood f (d.link k).rxSeq && !flitReserved f
    let inj := d.linkUp k && flitSeqd f && d.injectRetry k good
    if inj then (d1.useRetry k).badFlit k true
    else if !good then d1.badFlit k false
    else
      let d2 := d1.modLink k (fun l => { l with retry := ackRetry l.retry (flitAck f) })
      if flitType f = 0 then d2 else (d2.bump64 (Reg.LNK_RX_FLITS_LO k) 1).goodFlit k f

/-- FLIT_RECEIVE on a link that carries flits (R458). -/
def execFlitReceive (link : Nat) (f : FlitIn) (s : State) : Host.Outcome State Fault Refusal :=
  mainCmd (fun d => decide (link < 6) && d.carriesId link && decide (f.bytes.length = 256)) (fun d => d.flitReceive link f) s

/-- NAK_RECEIVE (R452): the flit is counted and its NAK acts. -/
def execNakReceive (link seq : Nat) (s : State) : Host.Outcome State Fault Refusal :=
  mainCmd (fun d => decide (link < 6) && d.linkUp link)
    (fun d => (d.nakIn link seq).bump64 (Reg.LNK_RX_FLITS_LO link) 1) s

/-- NAK_REPEAT (R452, R453): the NAK is sent again, or the limit of 4 without progress is reached. -/
def execNakRepeat (link : Nat) (s : State) : Host.Outcome State Fault Refusal :=
  mainCmd (fun d => decide (link < 6) && d.linkUp link && (d.link link).waiting)
    (fun d => if 4 ≤ (d.link link).naks then d.retryLimit link
      else (d.modLink link (fun l => { l with naks := l.naks + 1 })).sendControl link 1 [(d.link link).rxSeq]) s

/-- CREDIT_RECEIVE (R451, R455). -/
def execCreditReceive (link : Nat) (credits : List Nat) (s : State) : Host.Outcome State Fault Refusal :=
  mainCmd (fun d => decide (link < 6) && d.linkUp link && decide (credits.length = 4))
    (fun d => (d.modLink link (fun l => { l with credit := credits })).bump64 (Reg.LNK_RX_FLITS_LO link) 1) s

/-! ### The transmitter (R454, R455) -/

/-- The list without its first element that satisfies `p`. -/
def dropFirst {α : Type} (p : α → Bool) (l : List α) : List α :=
  match l with
  | [] => []
  | x :: r => if p x then r else x :: dropFirst p r

/-- Raises what has been sent against one credit. -/
def addSent (l : Link) (i n : Nat) : Link := { l with sent := l.sent.set i (l.sent.getD i 0 + n) }

/-- Sends a new sequenced flit and keeps it in the retry buffer. -/
def Die.sendSeq (d : Die) (k kind : Nat) (bs : List Byte) (f : Link → Link) : Die :=
  let l := d.link k
  (d.modLink k (fun x => f { x with
    retry := x.retry ++ [{ seq := l.txSeq, kind := kind, bytes := bs }], txSeq := (l.txSeq + 1) % 65536 })).sendFlit k l.txSeq kind bs

/-- A flit of the retry buffer leaves again, and the one after it comes next (R452). -/
def Die.resendFlit (d : Die) (k seq : Nat) : Die :=
  match (d.link k).retry.dropWhile (fun f => decide (f.seq ≠ seq)) with
  | [] => d.modLink k (fun x => { x with resend := none })
  | f :: rest => (d.modLink k (fun x => { x with resend := rest.head?.map (·.seq) })).sendFlit k f.seq f.kind f.bytes

/-- A burst flit, or else a packet flit, that credit covers leaves (R454); with neither, an IDLE flit does, which nothing counts. -/
def Die.sendNew (d : Die) (k : Nat) : Die :=
  let l := d.link k
  match pickBurst l, pickPacket l with
  | some (bs, rest, n), _ => d.sendSeq k 0x40 bs (fun x => addSent { x with txBursts := rest } 3 n)
  | none, some (vc, tag, bs) =>
    d.sendSeq k (0x20 + 2 * tag) bs (fun x => addSent { x with
      txPackets := dropFirst (fun p => p.1 / 4 == vc) x.txPackets,
      lastVc2 := if bit tag 0 && decide (vc ≠ 1) then vc == 2 else x.lastVc2 } vc 1)
  | none, none => d.emit (.flit k (d.idleFlit k))

/-- FLIT_TRANSMIT: the next flit in the order of R454; a link that is STOPPING sends its CONTROL flits and then none, one in
IDENTIFY or MISMATCH IDLE flits (R458). -/
def Die.flitTransmit (d : Die) (k : Nat) : Die :=
  let l := d.link k
  if !d.flitReady k then if d.lnkState k = 6 then d else d.emit (.flit k (d.idleFlit k))
  else
    match l.control, l.txMarks, retryRoom l, l.resend with
    | (op, ws) :: rest, _, _, _ => (d.modLink k (fun x => { x with control := rest })).putFlit k (d.controlFlit k op ws)
    | [], m :: rest, true, _ => d.sendSeq k 0x60 m (fun x => { x with txMarks := rest })
    | [], _, _, some q => d.resendFlit k q
    | [], _, _, none => d.sendNew k

def execFlitTransmit (link : Nat) (s : State) : Host.Outcome State Fault Refusal :=
  mainCmd (fun d => decide (link < 6) && (d.carriesId link || d.lnkState link == 6)) (fun d => d.flitTransmit link) s

/-- A reset of LINK_k (R459, R516, R472): LNK_CTRL, LNK_STATUS and the counters return to their reset values; plan and partner
stay. -/
def Die.linkReset (d : Die) (k : Nat) : Die :=
  ((d.leaveUp k 0).dropLink k).resetRegs (fun a => within (0x60000 + 0x1000 * k) (0x61000 + 0x1000 * k) a &&
    !within (0x60008 + 0x1000 * k) (0x60018 + 0x1000 * k) a)

end Sys2Proof.Machine
end

