-- ==== Sys2Proof/Machine/Slice.lean ====
section
/-! DEFINITION. The front of a slice and its distribution tree (R327, R329). -/
namespace Sys2Proof.Machine

/-- The module coordinates (R470). -/
def Die.here (d : Die) : Nat × Nat × Nat := xyz d.coord

/-- The front that STEP_CFG names (R327). -/
def Die.frontAt (d : Die) : Option (Nat × Nat × Nat) := d.serve.stepCfg.map (·.front)

/-- This module is its slice's front. Without an accepted STEP_CFG no module is (log entry 22). -/
def Die.isFront (d : Die) : Bool := d.frontAt == some d.here

/-- The position relative to the front on one axis of extent `e`: the shorter way round with ties toward + on an axis that
wraps, the direct way on one that does not (R329). -/
def relAxis (wrap : Bool) (e x f : Nat) : Int :=
  if wrap then
    let r := (x + e - f) % e
    if 2 * r ≤ e then r else (r : Int) - e
  else (x : Int) - f

/-- The link from `p` toward its parent, 0 to 5 as +X, -X, +Y, -Y, +Z, -Z; none at the front. -/
def parentWay (t : Table) (f p : Nat × Nat × Nat) : Option Nat :=
  let rx := relAxis (bit t.flags 0) t.ext.1 p.1 f.1
  let ry := relAxis (bit t.flags 1) t.ext.2.1 p.2.1 f.2.1
  let rz := relAxis (bit t.flags 2) t.ext.2.2 p.2.2 f.2.2
  if rz ≠ 0 then some (if 0 < rz then 5 else 4)
  else if ry ≠ 0 then some (if 0 < ry then 3 else 2)
  else if rx ≠ 0 then some (if 0 < rx then 1 else 0)
  else none

/-- One step along an axis of extent `e` from relative coordinate `x`; none at an edge that does not wrap. -/
def stepAxis (wrap : Bool) (e x : Nat) (plus : Bool) : Option Nat :=
  if plus then (if x + 1 < e then some (x + 1) else if wrap && decide (1 < e) then some 0 else none)
  else (if 0 < x then some (x - 1) else if wrap && decide (1 < e) then some (e - 1) else none)

/-- The slice's module on the other side of link `k` of the module at relative coordinates `p`. -/
def sliceNeighbour (t : Table) (p : Nat × Nat × Nat) (k : Nat) : Option (Nat × Nat × Nat) :=
  let plus := k % 2 == 0
  match k / 2 with
  | 0 => (stepAxis (bit t.flags 0) t.ext.1 p.1 plus).map (fun x => (x, p.2.1, p.2.2))
  | 1 => (stepAxis (bit t.flags 1) t.ext.2.1 p.2.1 plus).map (fun y => (p.1, y, p.2.2))
  | _ => (stepAxis (bit t.flags 2) t.ext.2.2 p.2.2 plus).map (fun z => (p.1, p.2.1, z))

/-- The link on the other end of link `k`. -/
def opposite (k : Nat) : Nat := if k % 2 = 0 then k + 1 else k - 1

/-- Relative coordinates (R464): (coordinate - origin) mod torus size on each axis. -/
def Die.relTo (d : Die) (org p : Nat × Nat × Nat) : Nat × Nat × Nat :=
  let s := d.torusSize
  let r (size o x : Nat) : Nat := (x + size - o % size) % size
  (r s.1 org.1 p.1, r s.2.1 org.2.1 p.2.1, r s.2.2 org.2.2 p.2.2)

/-- The link to this module's parent. -/
def Die.parentLink (d : Die) : Option Nat :=
  match d.tide.table, d.frontAt with
  | some t, some f => parentWay t (d.relTo t.org f) (d.relTo t.org d.here)
  | _, _ => none

/-- The links to this module's children. -/
def Die.childLinks (d : Die) : List Nat :=
  match d.tide.table, d.frontAt with
  | some t, some f => (List.range 6).filter (fun k => match sliceNeighbour t (d.relTo t.org d.here) k with
    | some p => parentWay t (d.relTo t.org f) p == some (opposite k)
    | none => false)
  | _, _ => []

/-- The slice links of a table (R464): those with a neighbour inside the slice. -/
def Die.sliceNeeds (d : Die) (t : Table) : List Nat :=
  (List.range 6).filter (fun k => (sliceNeighbour t (d.relTo t.org d.here) k).isSome)

/-- A slice of extent `ext` at `org` with wrap flags `flags` holds this module and fits the torus: a flag is set exactly where the
extent equals the torus size (R240, R464). -/
def Die.sliceFits (d : Die) (ext org : Nat × Nat × Nat) (flags : Nat) : Bool :=
  let s := d.torusSize
  let r := d.relTo org d.here
  let ax (size e x : Nat) (w : Bool) : Bool := decide (1 ≤ e) && decide (e ≤ size) && decide (x < e) && (w == decide (e = size))
  ax s.1 ext.1 r.1 (bit flags 0) && ax s.2.1 ext.2.1 r.2.1 (bit flags 1) && ax s.2.2 ext.2.2 r.2.2 (bit flags 2)

/-- Modules of the slice beside this one. -/
def Die.otherModules (d : Die) : Nat :=
  match d.tide.table with
  | some t => t.ext.1 * t.ext.2.1 * t.ext.2.2 - 1
  | none => 0

/-- Kinds of slice messages on the links. -/
def lmPacket : Nat := 1
def lmPlan : Nat := 2
def lmResult : Nat := 3
def lmStepFault : Nat := 4
def lmCtxState : Nat := 5
def lmFreePages : Nat := 6
def lmPackMissing : Nat := 7
def lmShipped : Nat := 8
def lmRetired : Nat := 9
def lmPageAck : Nat := 10
def lmPageNak : Nat := 11
def lmPageReq : Nat := 12
def lmPrefixCfg : Nat := 13
def lmCtxLost : Nat := 14
def lmPrefixOps : Nat := 15
def lmDegraded : Nat := 16

/-- A message to every child; a child behind a link that is not UP stops the slice (R329). -/
def Die.toChildren (d : Die) (kind : Nat) (words : List Nat) : Die :=
  d.childLinks.foldl (fun e k => if e.linkUp k then e.tellLink k kind words else e.faultStop 1 e.coord) d

/-- A message toward the front. -/
def Die.toFront (d : Die) (kind : Nat) (words : List Nat) : Die :=
  match d.parentLink with
  | some k => d.tellLink k kind words
  | none => d

/-- Changes the record of step `n` in flight. -/
def Die.modStep (d : Die) (n : Nat) (f : StepRec → StepRec) : Die :=
  { d with serve := { d.serve with steps := d.serve.steps.map (fun (x : StepRec) => if x.step = n ∧ x.done = false then f x else x) } }

/-- Step `n` is marked as one in which a fault or a malformed descriptor was reported (R345); the front learns of it. -/
def Die.stepFaultAt (d : Die) (n : Nat) : Die := (d.modStep n (fun x => { x with faulted := true })).toFront lmStepFault [n]

/-- A fault or a malformed descriptor is reported in the step that runs now. -/
def Die.stepFault (d : Die) : Die := if d.armed then d.stepFaultAt d.tide.steps else d

/-- Step `n` used an array marked degraded (R346); the front learns of it once. -/
def Die.stepDegradedAt (d : Die) (n : Nat) : Die :=
  if d.serve.steps.any (fun x => x.step == n && !x.done && !x.degraded) then
    (d.modStep n (fun x => { x with degraded := true })).toFront lmDegraded [n]
  else d

end Sys2Proof.Machine
end

