-- ==== Sys2Proof/Machine/Alloc.lean ====
section
/-! DEFINITION. The allocation map of a tile (R184 to R186, R205), full/empty regions (R214 to R217), and access faults. -/
namespace Sys2Proof.Machine

/-- Right bits of ENG_RGN LIMIT (R205). -/
def rightR : Nat := 29
def rightW : Nat := 28
def rightTP : Nat := 27
def rightPK : Nat := 26
def rightDS : Nat := 25

/-- First byte of region `r` in the SRAM of tile `t`. -/
def Die.rgnOff (d : Die) (t r : Nat) : Nat := 64 * d.get (Reg.ENG_RGN_BASE_BASE t r)
/-- Bytes of region `r`. -/
def Die.rgnSize (d : Die) (t r : Nat) : Nat := 64 * d.get (Reg.ENG_RGN_LIMIT_SIZE t r)
def Die.rgnValid (d : Die) (t r : Nat) : Bool := decide (r < 255) && d.on (Reg.ENG_RGN_LIMIT_VALID t r)
/-- Whether region `r` is one full/empty buffer. -/
def Die.rgnFE (d : Die) (t r : Nat) : Bool := d.rgnValid t r && d.on (Reg.ENG_RGN_LIMIT_FE t r)
def Die.rgnRight (d : Die) (t r b : Nat) : Bool := bit (d.getW (Reg.ENG_RGN_LIMIT t r)).toNat b
/-- Device address of byte `off` of region `r`. -/
def Die.rgnAddr (d : Die) (t r off : Nat) : Nat := tileAddr t + d.rgnOff t r + off

/-- Fault kinds of R200. -/
def fkOutside : Nat := 0
def fkRight : Nat := 1
def fkInvalid : Nat := 2
def fkMalformed : Nat := 3
def fkPacket : Nat := 4

/-- What refuses an engine access to `len` bytes from `off` of region `r` that needs right `b` (R185); none where nothing
does. -/
def Die.engRefuses (d : Die) (t r off len b : Nat) : Option Nat :=
  if !d.rgnValid t r then some fkInvalid
  else if d.rgnSize t r < off + len then some fkOutside
  else if !d.rgnRight t r b then some fkRight
  else none

/-- The valid region with right `b` that wholly holds `len` bytes from SRAM offset `off`. -/
def Die.rgnHolding (d : Die) (t off len b : Nat) : Option Nat :=
  (List.range 255).find? (fun r => d.rgnValid t r && d.rgnRight t r b && decide (d.rgnOff t r ≤ off) &&
    decide (off + len ≤ d.rgnOff t r + d.rgnSize t r))

/-- FULL and poison bits of a region. -/
def Die.feOf (d : Die) (t r : Nat) : Bool × Bool := amGet (false, false) (d.tile t).fe r
def Die.isFull (d : Die) (t r : Nat) : Bool := (d.feOf t r).1
def Die.isPoison (d : Die) (t r : Nat) : Bool := (d.feOf t r).2

/-- Marks a region EMPTY or FULL, with its poison bit. -/
def Die.mark (d : Die) (t r : Nat) (full poison : Bool) : Die :=
  d.modTile t (fun x => { x with fe := amSet (false, false) x.fe r (full, full && poison) })

/-- `n` bytes from SRAM offset `off` of tile `t` are accessed, 64 bytes at a time. Byte offset x lies in bank (x >> 6) & 31, and each access
counts at its bank (R182, R201). -/
def Die.sramUse (d : Die) (t off n : Nat) : Die :=
  if n = 0 then d
  else
    let first := off / 64
    let m := (off + n - 1) / 64 - first + 1
    d.modTile t (fun x => { x with banks := (List.range 32).map (fun b =>
      x.banks.getD b 0 + m / 32 + b2n (decide ((b + 32 - first % 32) % 32 < m % 32))) })

/-- The cycles that accesses to a tile's SRAM have waited at their banks since they were last counted from zero (R182): of two accesses at
one bank at most one waits for the other, one cycle, so the i-th there adds at most i; how often they meet is a free value (log entry
64). -/
def Die.bankWaits (d : Die) (t : Nat) : Nat :=
  let x := d.tile t
  ((List.range 32).map (fun b =>
    ((List.range (x.banks.getD b 0)).map (fun i => min i (Config.bankWaits t x.bankSince b i))).sum)).sum

/-- Poison that landed in a region, whatever its state. -/
def Die.taint (d : Die) (t r : Nat) : Die :=
  d.modTile t (fun x => { x with fe := amSet (false, false) x.fe r (d.isFull t r, true) })

/-- A packet-plane access to `len` bytes of tile SRAM is allowed: one valid region with right PK holds them, and a
full/empty region is EMPTY for a write, FULL for a read (R185, R216). -/
def Die.packetOk (d : Die) (t off len : Nat) (write : Bool) : Bool :=
  match d.rgnHolding t off len rightPK with
  | none => false
  | some r => if d.rgnFE t r then d.isFull t r != write else true

/-- The poison of what a packet-plane read of tile SRAM delivers (R217). -/
def Die.packetPoison (d : Die) (t off len : Nat) : Bool :=
  match d.rgnHolding t off len rightPK with
  | none => false
  | some r => d.rgnFE t r && d.isPoison t r

/-- A fault of R186, or with kind 3 a malformed descriptor of R190: latched, counted, recorded and reported to the Lighthouse. -/
def Die.tileFault (d : Die) (t kind thread opcode region offset tag : Nat) : Die :=
  let d1 :=
    if d.on (Reg.ENG_FAULT_INFO0_VALID t) then d
    else
      ((d.putW (Reg.ENG_FAULT_INFO0 t) (w32 (2 ^ 31 + kind % 8 * 2 ^ 28 + thread % 64 * 2 ^ 22 + opcode % 256 * 2 ^ 8 +
        region % 256))).putW (Reg.ENG_FAULT_INFO1 t) (w32 (offset % 2 ^ 24))).putW (Reg.ENG_FAULT_INFO2 t) (w32 (tag % 65536))
  let words := [kind, thread, opcode, region, offset, tag]
  let d2 :=
    if kind = fkMalformed then
      ((d1.bump (⟨Reg.ENG_BADDESC_CNT t, 0, 32⟩) 1).raise (Reg.ENG_STATUS_BAD_DESC t)).record 0x10 2 t 0xFFFF words
    else ((d1.bump (⟨Reg.ENG_FAULT_CNT t, 0, 32⟩) 1).raise (Reg.ENG_STATUS_FAULT t)).record 0x10 1 t 0xFFFF words
  (d2.emit (.firmware 1 (t :: words))).stepFault

/-- A refused packet-plane access (R186, R216). -/
def Die.packetFault (d : Die) (t off : Nat) : Die :=
  d.tileFault t fkPacket 0 0 ((d.rgnHolding t off 1 rightPK).getD 0xFF) off 0

/-! ### Tenant buckets (R361) -/

/-- GLB_TBKT as R361 gives it, where buckets are enabled. -/
def Die.bktProgram (d : Die) : Die :=
  if d.on Reg.GLB_MESH_CTRL_BKT_EN then
    let on := d.tenancy.acting.filter (fun p => p.2.enabled && p.2.bkt)
    let w := max 1 (on.map (fun p => p.2.weight)).sum
    let d1 := { d with regs := d.regs.filter (fun p => !(within 0x8000 0x10000 p.1 && p.1 % 8 == 0)) }
    on.foldl (fun e p =>
      let rate := max 1 (64 * d.get Reg.TIDE_CTRL_PERIOD * 25 * p.2.weight / (32 * w))
      (e.putW (Reg.GLB_TBKT_RATE p.1) (w32 rate)).putW (Reg.GLB_TBKT_BURST p.1) (w32 (max 16 (8 * rate)))) d1
  else d

end Sys2Proof.Machine
end

