-- ==== Sys2Proof/Machine/Descriptor.lean ====
section
/-! DEFINITION. Descriptors (R173, R188 to R194): fields, operand words, the bytes each operation reads and writes, and the checks
of R190. -/
namespace Sys2Proof.Machine

/-! ### Fields (R188, R189) -/

def descOp (d : Desc) : Nat := bits d.w0.toNat 24 8
/-- Lane groups requested. -/
def descLgn (d : Desc) : Nat := 2 ^ bits d.w0.toNat 22 2
def descEvt (d : Desc) : Bool := bit d.w0.toNat 21
def descLayer (d : Desc) : Nat := bits d.w0.toNat 10 10
def descFeSrc (d : Desc) : Bool := bit d.w0.toNat 9
def descFeDst (d : Desc) : Bool := bit d.w0.toNat 8
def descCount (d : Desc) : Nat := bits d.w1.toNat 16 16
def descP0 (d : Desc) : Nat := bits d.w1.toNat 0 16
def descP1 (d : Desc) : Nat := d.p1.toNat
def descDue (d : Desc) : Nat := bits d.w7.toNat 16 8
def descTag (d : Desc) : Nat := bits d.w7.toNat 0 16

/-- Region and byte offset of an operand word. -/
def opRgn (w : Word) : Nat := bits w.toNat 24 8
def opOff (w : Word) : Nat := bits w.toNat 0 24
/-- An operand is named. -/
def hasOp (w : Word) : Bool := decide (opRgn w ≠ 0xFF)
/-- The word that names no operand. -/
def noOp : Word := 0xFF000000

/-- DRAM address of a PARAM1 in 64-byte units, and of a page. -/
def unitAddr (p1 : Nat) : Nat := dramBase + 64 * p1
def pageAddr (p1 : Nat) : Nat := dramBase + 4096 * p1

/-- The eight words of a descriptor at a device address. -/
def Die.descAt (d : Die) (a : Nat) : Desc :=
  let w (i : Nat) : Word := w32 (d.leMem (a + 4 * i) 4)
  { w0 := w 0, w1 := w 1, a := w 2, b := w 3, d := w 4, x := w 5, p1 := w 6, w7 := w 7 }

/-! ### Opcodes (R191) -/

def ocNop : Nat := 0x00
def ocCopy : Nat := 0x01
def ocFill : Nat := 0x02
def ocLoad : Nat := 0x03
def ocStore : Nat := 0x04
def ocBufWait : Nat := 0x05
def ocBufSet : Nat := 0x06
def ocTideEnd : Nat := 0x07
def ocEvent : Nat := 0x08
def ocDmaStart : Nat := 0x09
def ocPost : Nat := 0x0A
def ocRotate : Nat := 0x10
def ocQuantA : Nat := 0x11
def ocLoadInput : Nat := 0x12
def ocStroke : Nat := 0x13
def ocRefStroke : Nat := 0x14
def ocOutlier : Nat := 0x15
def ocCorrZ : Nat := 0x16
def ocCorrB : Nat := 0x17
def ocCombine : Nat := 0x18
def ocExact : Nat := 0x19
def ocVsum : Nat := 0x1A
def ocSquant : Nat := 0x20
def ocSdeq : Nat := 0x21
def ocLinear : Nat := 0x22
def ocAttn : Nat := 0x23
def ocSoftmax : Nat := 0x24
def ocNorm : Nat := 0x25
def ocAct : Nat := 0x26
def ocEwise : Nat := 0x27
def ocPosrot : Nat := 0x28
def ocSteer : Nat := 0x29
def ocKvWrite : Nat := 0x2A
def ocSelect : Nat := 0x2B
def ocSound : Nat := 0x2C

/-- An operation that needs lane groups (R191, "None" and "Pipe" excepted). -/
def usesLanes (op : Nat) : Bool :=
  [ocCopy, ocFill, ocRotate, ocQuantA, ocLoadInput, ocOutlier, ocCorrZ, ocCorrB, ocExact, ocVsum, ocSquant, ocSdeq, ocLinear,
   ocAttn, ocSoftmax, ocNorm, ocAct, ocEwise, ocPosrot, ocSteer, ocKvWrite, ocSelect, ocSound].contains op

/-- Lane groups a descriptor needs; SOUND always takes one (R311). -/
def lanesOf (d : Desc) : Nat :=
  if descOp d = ocSound then 1 else if usesLanes (descOp d) then descLgn d else 0

/-- Operations the thread waits for before it dispatches its next descriptor: waits, strokes until all have issued, and the
ends of streams (R174, R178, R194; DEDUCED, log entry 45). -/
def holdsThread (op : Nat) : Bool := [ocBufWait, ocTideEnd, ocStroke, ocPost, ocDmaStart].contains op

/-! ### Sizes (R144, R191 to R193) -/

/-- Bytes of one panel of `n` blocks with `eb` element bytes each (R144). -/
def panelBytes (n eb : Nat) : Nat := (n * (eb + 1) + 15) / 16 * 16

/-- Bytes of `total` blocks in panels of `n`, the last panel holding the remaining blocks. -/
def panelsBytes (total n eb : Nat) : Nat :=
  total / n * panelBytes n eb + (if total % n = 0 then 0 else panelBytes (total % n) eb)

/-- Element bytes of a Shingle block: format 0 Shingle-4, else Shingle-8. -/
def shingleEb (fmt8 : Bool) : Nat := if fmt8 then 32 else 16

/-- Sector or line of LOAD and STORE. -/
def loadUnit (p0 : Nat) : Nat := if bit p0 0 then 128 else 64

/-- Bytes of a vector of LINEAR with K elements, by data type (0 BF16, 1 Shingle-4, 2 Shingle-8). -/
def linearBytes (k ty : Nat) : Nat :=
  match ty with
  | 0 => 2 * k
  | 1 => panelsBytes ((k + 31) / 32) 32 16
  | _ => panelsBytes ((k + 31) / 32) 32 32

/-- Data types of LINEAR's vector and matrix. -/
def linearTypes (p0 : Nat) : Nat × Nat :=
  match p0 % 4 with
  | 0 => (0, 0)
  | 1 => (2, 2)
  | _ => (1, 2)

/-- The part of the key/value storage whose page list is the operand `w` of tile `t` (R338). -/
def Die.kvPart (d : Die) (t : Nat) (w : Word) : Option KvPart :=
  match d.serve.kv with
  | none => none
  | some k => match k.lists.find? (fun q => q.2.2.1 == t && q.2.2.2 == w.toNat) with
    | some q => k.parts[q.2.1]?
    | none => none

/-- Heads and head dimension that ATTN and KV_WRITE work on; one head of 128 where no part names the page list (log entry 46). -/
def Die.kvShape (d : Die) (t : Nat) (w : Word) : Nat × Nat :=
  match d.kvPart t w with
  | some p => (p.heads, p.dim)
  | none => (1, 128)

/-- A range of bytes of a region. -/
structure Span where
  rgn : Nat
  off : Nat
  len : Nat
  deriving DecidableEq, Repr

def span (w : Word) (len : Nat) : List Span := if hasOp w then [⟨opRgn w, opOff w, len⟩] else []

/-- The bytes a descriptor reads. -/
def Die.srcSpans (d : Die) (t : Nat) (c : Desc) : List Span :=
  let n := descCount c
  let p0 := descP0 c
  let p1 := descP1 c
  let ranks := bits p0 9 7
  match descOp c with
  | 0x01 => span c.a (64 * n)
  | 0x03 => span c.x (4 * n)
  | 0x04 => span c.a (loadUnit p0 * n) ++ span c.x (4 * n)
  | 0x09 => span c.a 32
  | 0x0A => span c.a (32 * n)
  | 0x10 => span c.a ((if bit p0 0 then 1024 else 2048) * n)
  | 0x11 => span c.a (2048 * n)
  | 0x12 => span c.a (512 * n)
  | 0x13 => span c.a (if bit p0 0 then 1024 else 1024 * n)
  | 0x15 => span c.a (1024 * n)
  | 0x16 => span c.a (2048 * n) ++ (if bit p0 0 then span c.x (ranks * panelsBytes (16 * n) 32 32) else [])
  | 0x17 => span c.a (4 * ranks) ++ (if bit p0 0 then span c.x (ranks * panelsBytes ((n + 31) / 32) 32 32) else [])
  | 0x18 => span c.a (1024 * n) ++ span c.b (512 * n) ++ span c.x (2048 * n) ++ (if bit p0 1 then span c.p1 1024 else [])
  | 0x19 => span c.a (1024 * n)
  | 0x1A => span c.a (128 * n) ++ span c.b (match p0 % 4 with | 0 => 128 * n | 1 => 64 * n | _ => panelsBytes n 32 32)
  | 0x20 => span c.a (128 * n)
  | 0x21 => span c.a (panelsBytes n (max 1 (bits p0 8 8)) (shingleEb (bit p0 0)))
  | 0x22 => span c.a (linearBytes p1 (linearTypes p0).1) ++ span c.b (n * linearBytes p1 (linearTypes p0).2)
  | 0x23 =>
    let (h, _) := d.kvShape t c.b
    let q := bits p0 8 8
    let dim := if bit p0 1 then 128 else 64
    span c.a (2 * h * q * dim * n) ++ span c.b 16 ++ span c.x (8 * h * q * n)
  | 0x24 => span c.a (128 * n)
  | 0x25 => span c.a (128 * n) ++ span c.b (64 * n)
  | 0x26 => span c.a (128 * n)
  | 0x27 => span c.a (128 * n) ++ span c.b (if bit p0 3 then 4 else 128 * n) ++
      (if p0 % 8 = 4 then span c.x (128 * n) else [])
  | 0x28 => span c.a (128 * n) ++ span c.x (64 * n)
  | 0x29 => span c.a (128 * n) ++ span c.x (4 * ((n + max 1 p0 - 1) / max 1 p0))
  | 0x2A =>
    let (h, dim) := d.kvShape t c.b
    span c.a (8 * h * dim * n) ++ span c.b 16
  | 0x2B => span c.a (128 * n)
  | 0x2C => span c.a 712
  | _ => []

/-- The bytes a descriptor writes. -/
def Die.dstSpans (d : Die) (t : Nat) (c : Desc) : List Span :=
  let n := descCount c
  let p0 := descP0 c
  match descOp c with
  | 0x01 => span c.d (64 * n)
  | 0x02 => span c.d (64 * n)
  | 0x03 => span c.d (loadUnit p0 * n)
  | 0x10 => span c.d (2048 * n)
  | 0x11 => span c.d (1024 * n)
  | 0x12 => span c.d (1024 * n)
  | 0x15 => span c.d (2048 * n)
  | 0x16 => span c.d (4 * bits p0 9 7)
  | 0x17 => span c.d (4 * n)
  | 0x18 => span c.d 1024
  | 0x19 => span c.d (2048 * n)
  | 0x1A => span c.d (128 * n)
  | 0x20 => span c.d (panelsBytes n (max 1 (bits p0 8 8)) (shingleEb (bit p0 0)))
  | 0x21 => span c.d ((if bit p0 1 then 64 else 128) * n)
  | 0x22 => span c.d (4 * n)
  | 0x23 =>
    let (h, _) := d.kvShape t c.b
    let q := bits p0 8 8
    let dim := if bit p0 1 then 128 else 64
    span c.d (4 * h * q * dim * n) ++ span c.x (8 * h * q * n)
  | 0x24 => span c.d (128 * n)
  | 0x25 => span c.d (128 * n)
  | 0x26 => span c.d (128 * n)
  | 0x27 => span c.d (128 * n)
  | 0x28 => span c.d (128 * n)
  | 0x29 => span c.d (128 * n)
  | 0x2A =>
    let (h, dim) := d.kvShape t c.b
    span c.d (2 * h * (dim / 32) * (shingleEb (bit p0 0) + 1) * n)
  | 0x2B => span c.d 16
  | _ => []

/-- Whether two ranges share a byte. -/
def Span.meets (x y : Span) : Bool :=
  x.rgn == y.rgn && decide (x.off < y.off + y.len) && decide (y.off < x.off + x.len)

/-! ### Malformed descriptors (R190) -/

/-- Bits of PARAM0 that R191 assigns. -/
def p0Mask (op : Nat) : Nat :=
  match op with
  | 0x03 => 1 | 0x04 => 1 | 0x05 => 1 | 0x06 => 3 | 0x09 => 0xF
  | 0x10 => 0xFFF1 | 0x11 => 0xFF01 | 0x12 => 1 | 0x13 => 0xFFFF | 0x14 => 0x1FF | 0x15 => 0xFFE0 | 0x16 => 0xFE01
  | 0x17 => 0xFE01 | 0x18 => 0xFF07 | 0x1A => 3 | 0x20 => 0xFF01 | 0x21 => 0xFF03 | 0x22 => 3 | 0x23 => 0xFF03
  | 0x25 => 1 | 0x26 => 0xF | 0x27 => 0xF | 0x29 => 0xFFFF | 0x2A => 1 | 0x2B => 1
  | _ => 0

/-- Whether R191 lists an opcode. -/
def opListed (op : Nat) : Bool := decide (op ≤ 0x0A) || (decide (0x10 ≤ op) && decide (op ≤ 0x1A)) || (decide (0x20 ≤ op) && decide (op ≤ 0x2C))

/-- PARAM1 is one that the operation allows (R189, R191). -/
def p1Ok (c : Desc) : Bool :=
  let p1 := descP1 c
  let dramOk := decide (p1 < 3 * 2 ^ 30)
  match descOp c with
  | 0x03 => dramOk | 0x04 => dramOk
  | 0x15 => decide (p1 < 2 ^ 26) | 0x19 => decide (p1 < 2 ^ 26)
  | 0x16 => bit (descP0 c) 0 || dramOk | 0x17 => bit (descP0 c) 0 || dramOk
  | 0x18 => p1 == 0xFF000000 || (hasOp c.p1 && decide (p1 % 64 = 0))
  | 0x23 => decide (1 ≤ p1) && decide (p1 ≤ 1048576)
  | op => [0x02, 0x08, 0x10, 0x12, 0x22, 0x24, 0x25, 0x28, 0x2A, 0x2B, 0x2C].contains op || p1 == 0

/-- No encoding of PARAM0 that R191 reserves. -/
def p0Ok (c : Desc) : Bool :=
  let p0 := descP0 c
  let panel := decide (1 ≤ bits p0 8 8) && decide (bits p0 8 8 ≤ 32)
  (p0 &&& (0xFFFF - p0Mask (descOp c))) == 0 &&
  match descOp c with
  | 0x13 => decide (bits p0 5 3 ≤ 4)
  | 0x15 => decide (bits p0 5 3 ≤ 4)
  | 0x16 => decide (bits p0 9 7 ≤ 68)
  | 0x17 => decide (bits p0 9 7 ≤ 68)
  | 0x1A => decide (p0 % 4 ≠ 3)
  | 0x20 => panel
  | 0x21 => panel
  | 0x22 => decide (p0 % 4 ≠ 3)
  | 0x23 => decide (1 ≤ bits p0 8 8) && decide (bits p0 8 8 ≤ 64)
  | 0x26 => decide (p0 % 16 ≤ 6)
  | 0x27 => decide (p0 % 8 ≤ 4)
  | _ => true

/-- An operand word is there and aligned. -/
def needs (w : Word) (align : Nat) : Bool := hasOp w && decide (opOff w % align = 0)

/-- Every operand the operation needs is there and aligned; one that it may do without is aligned where it is there. -/
def operandsOk (c : Desc) : Bool :=
  let opt (w : Word) : Bool := !hasOp w || decide (opOff w % 64 = 0)
  match descOp c with
  | 0x01 => needs c.a 64 && needs c.d 64
  | 0x02 => needs c.d 64
  | 0x03 => needs c.d 64 && opt c.x
  | 0x04 => needs c.a 64 && opt c.x
  | 0x05 => needs c.a 64
  | 0x06 => needs c.d 64
  | 0x09 => needs c.a 64
  | 0x0A => needs c.a 32
  | 0x10 => needs c.a 64 && needs c.d 64
  | 0x11 => needs c.a 64 && needs c.d 64
  | 0x12 => needs c.a 64 && needs c.d 64
  | 0x13 => needs c.a 64
  | 0x15 => needs c.a 64 && needs c.d 64
  | 0x16 => needs c.a 64 && needs c.d 64 && (!bit (descP0 c) 0 || needs c.x 64)
  | 0x17 => needs c.a 64 && needs c.d 64 && (!bit (descP0 c) 0 || needs c.x 64)
  | 0x18 => needs c.a 64 && needs c.b 64 && needs c.d 64 && (if bit (descP0 c) 2 then needs c.x 64 else opt c.x)
  | 0x19 => needs c.a 64 && needs c.d 64
  | 0x1A => needs c.a 64 && needs c.b 64 && needs c.d 64
  | 0x20 => needs c.a 64 && needs c.d 64
  | 0x21 => needs c.a 64 && needs c.d 64
  | 0x22 => needs c.a 64 && needs c.b 64 && needs c.d 64
  | 0x23 => needs c.a 64 && needs c.b 64 && needs c.x 64 && needs c.d 64
  | 0x24 => needs c.a 64 && needs c.d 64
  | 0x25 => needs c.a 64 && needs c.b 64 && needs c.d 64
  | 0x26 => needs c.a 64 && needs c.d 64
  | 0x27 => needs c.a 64 && needs c.b 64 && needs c.d 64 && (decide (descP0 c % 8 ≠ 4) || needs c.x 64)
  | 0x28 => needs c.a 64 && needs c.x 64 && needs c.d 64
  | 0x29 => needs c.a 64 && needs c.x 64 && needs c.d 64
  | 0x2A => needs c.a 64 && needs c.b 64 && needs c.d 64
  | 0x2B => needs c.a 64 && needs c.d 64
  | _ => true

/-- Whether an operation may run on a thread of class `cls` (R173: 1 SCHED, 2 POOL, 3 SOUND). -/
def classAllows (op cls : Nat) : Bool :=
  match op with
  | 0x13 => cls == 1 | 0x14 => cls == 1 | 0x18 => cls == 1 | 0x07 => cls == 1
  | 0x2C => cls == 3
  | 0x0A => cls == 1 || cls == 2
  | _ => true

/-- A malformed descriptor (R190), as far as its words and its thread's class show it. -/
def malformed (c : Desc) (cls : Nat) : Bool :=
  let op := descOp c
  !opListed op || bit c.w0.toNat 20 || decide (c.w0.toNat % 256 ≠ 0) || decide (bits c.w7.toNat 24 8 ≠ 0) ||
  (decide (descCount c = 0) && op != ocNop && op != ocTideEnd) ||
  !p0Ok c || !p1Ok c || !operandsOk c || !classAllows op cls

/-! ### Threads (R174, R203) -/

/-- Class of a thread: 0 OFF, 1 SCHED, 2 POOL, 3 SOUND. -/
def Die.threadClass (d : Die) (t th : Nat) : Nat := d.get (Reg.ENG_THREAD_CLASS t th)

/-- Executing descriptors of a thread, oldest first. -/
def Die.execsOf (d : Die) (t th : Nat) : List Exec := (d.tile t).execs.filter (fun e => e.thread == th)

/-- Sounding items captured that no thread has taken: slots of the ring (R307). -/
def Die.freshItems (d : Die) (t : Nat) : List Nat :=
  let x := d.tile t
  let n := d.rgnSize t 254 / 1024
  ((List.range x.sndHeld).map (fun i => if n = 0 then 0 else (x.sndHead + i) % n)).filter (fun s =>
    d.byteAt (d.rgnAddr t 254 (1024 * s + 693)) = 1 && !x.execs.any (fun e => descOp e.desc == ocSound && opOff e.desc.a == 1024 * s))

/-- The operands a descriptor reads, each as one access: those R191 names, and the packs that STEER's list names (R368). -/
def Die.readSpans (d : Die) (t : Nat) (c : Desc) : List Span :=
  let named := d.srcSpans t c
  let nb := max 1 (descP0 c)
  let n := (descCount c + nb - 1) / nb
  if descOp c = ocSteer ∧ (d.engRefuses t (opRgn c.x) (opOff c.x) (4 * n) rightR).isNone = true then
    named ++ ((List.range n).map (fun b =>
      span (w32 (d.leMem (d.rgnAddr t (opRgn c.x) (opOff c.x + 4 * b)) 4)) (2 * panelsBytes nb 32 32))).flatten
  else named

/-- Whether a source buffer that must be FULL, or a destination that must be EMPTY, holds a descriptor back (R214). -/
def Die.bufHeld (d : Die) (t : Nat) (c : Desc) : Bool :=
  (d.readSpans t c).any (fun s => d.rgnFE t s.rgn && !d.isFull t s.rgn) ||
  (d.dstSpans t c).any (fun s => d.rgnFE t s.rgn && d.isFull t s.rgn) ||
  (descOp c == ocBufWait && d.rgnFE t (opRgn c.a) && (d.isFull t (opRgn c.a) == bit (descP0 c) 0))

end Sys2Proof.Machine
end

