-- ==== Sys2Proof/Machine/Dram.lean ====
section
/-! DEFINITION. DRAM: sectors and error correction (R383 to R391), DRAM events, training and tests (R392 to R400, R582). -/
namespace Sys2Proof.Machine

/-- The 64-byte sectors that cover `n` bytes from address `a` (R405). -/
def sectors (a n : Nat) : List Nat :=
  if n = 0 then [] else (List.range ((a + n - 1) / 64 - a / 64 + 1)).map (fun i => 64 * (a / 64 + i))

/-- The sector holds the poison pattern (R390). -/
def Die.patternAt (d : Die) (a : Nat) : Bool := d.badSectors.contains a

/-- A read of the sector is uncorrectable: it holds the poison pattern, or an error that a read has met and no whole-sector write has
replaced since (R389, R390; log entry 70). -/
def Die.badSector (d : Die) (a : Nat) : Bool := d.patternAt a || (look d.errSectors a).isSome

/-- The sector takes the poison pattern. -/
def Die.setBad (d : Die) (a : Nat) : Die := { d with badSectors := addOnce d.badSectors a, errSectors := amErase d.errSectors a }
/-- The sector keeps an uncorrectable error over `n` symbols. -/
def Die.setErr (d : Die) (a n : Nat) : Die := { d with errSectors := keep d.errSectors a n }
/-- A whole-sector write replaces both codewords. -/
def Die.clearBad (d : Die) (a : Nat) : Die := { d with badSectors := without d.badSectors a, errSectors := amErase d.errSectors a }

/-- Whether any byte of a DRAM range lies in a sector whose read is uncorrectable. -/
def Die.rangePoison (d : Die) (a n : Nat) : Bool := (sectors a n).any d.badSector

/-- Writes an error address (R400). -/
def Die.errAddr (d : Die) (ue : Bool) (k a : Nat) (pattern scrub : Bool) (symbols : Nat) : Die :=
  let lo := if ue then Reg.BOOT_MEM_UE_ADDR_LO k else Reg.BOOT_MEM_CE_ADDR_LO k
  let hi := if ue then Reg.BOOT_MEM_UE_ADDR_HI k else Reg.BOOT_MEM_CE_ADDR_HI k
  (d.putW lo (w32 (a / 64 * 64))).putW hi
    (w32 (2 ^ 31 + b2n pattern * 2 ^ 30 + b2n scrub * 2 ^ 29 + symbols % 32 * 2 ^ 24 + a / 2 ^ 32 % 65536))

/-- A corrected error in a sector (R389): counted, its address recorded, and above CE_LIMIT within one hour an alert and one
record for that hour. Hours are counted in device time. -/
def Die.correctedError (d : Die) (a : Nat) (scrub : Bool) : Die :=
  let k := stackOf a
  let h := d.now / 3600000000000
  let x := d.stack k
  let n := if x.hour = h then x.ceHour + 1 else 1
  let d1 := ((d.bump (⟨Reg.BOOT_MEM_CE k, 0, 32⟩) 1).errAddr false k a false scrub 1).setStack k { x with hour := h, ceHour := n }
  let lim := d.get (Reg.BOOT_MEM_CE_LIMIT_LIMIT k)
  if lim ≠ 0 ∧ lim < n ∧ x.reported ≠ some h then
    ((d1.alert alDram).record 0x0B 1 (80 + 2 * k) k [n]).setStack k { x with hour := h, ceHour := n, reported := some h }
  else d1

/-- An uncorrectable error in a sector (R389, R390). -/
def Die.uncorrectableError (d : Die) (a : Nat) (pattern scrub : Bool) (symbols : Nat) : Die :=
  let k := stackOf a
  (((d.bump (⟨Reg.BOOT_MEM_UE k, 0, 32⟩) 1).errAddr true k a pattern scrub symbols).record 0x0B 2 (80 + 2 * k) k
    [a % 2 ^ 32, a / 2 ^ 32]).alert alDram

/-- Symbols as UE_ADDR reports them: 31 when more than three (R400). -/
def ueSymbols (n : Nat) : Nat := if n ≤ 3 then n else 31

/-- A read of a sector that is uncorrectable is reported, with PATTERN where it holds the poison pattern (R389, R390). -/
def Die.reportBad (d : Die) (a : Nat) (scrub : Bool) : Die :=
  if d.patternAt a then d.uncorrectableError a true scrub 31
  else match look d.errSectors a with
    | some n => d.uncorrectableError a false scrub (ueSymbols n)
    | none => d

def Die.readSector (d : Die) (a : Nat) : Die := d.reportBad a false

/-- A read of a DRAM range reports every sector of it that is uncorrectable. -/
def Die.readReport (d : Die) (a n : Nat) : Die := (sectors a n).foldl (fun e x => e.readSector x) d

/-- The bytes of `bs`, which start at `a`, that fall into sector `x`, by position in the sector. -/
def sectorPart (a : Nat) (bs : List (Option Byte)) (x : Nat) : List (Option Byte) :=
  (List.range 64).map (fun i => if a ≤ x + i then (bs[x + i - a]?).getD none else none)

/-- A write of one sector with byte enables (R390): a whole-sector write clears poison; a partial write is merged, unless its
read is uncorrectable, when the sector takes the poison pattern. -/
def Die.writeSector (d : Die) (x : Nat) (part : List (Option Byte)) : Die :=
  if part.all Option.isSome then (d.clearBad x).setSome x part
  else if part.all Option.isNone then d
  else if d.badSector x then (d.reportBad x false).setBad x
  else d.setSome x part

/-- Bytes written to DRAM, sector by sector. -/
def Die.putDram (d : Die) (a : Nat) (bs : List (Option Byte)) : Die :=
  (sectors a bs.length).foldl (fun e x => e.writeSector x (sectorPart a bs x)) d

/-- A write of these bytes gets an error completion (R390): one of its sectors is written in part, and its read is uncorrectable. -/
def Die.mergeFails (d : Die) (a : Nat) (bs : List (Option Byte)) : Bool :=
  (sectors a bs.length).any (fun x =>
    let part := sectorPart a bs x
    !part.all Option.isSome && !part.all Option.isNone && d.badSector x)

/-- What the code makes of an error (R388): over no symbol there is none, and one confined to a single symbol is corrected. -/
def errFound (e : DramErr) : DramErr :=
  match e with
  | .uncorrectable 0 => .none
  | .uncorrectable 1 => .corrected
  | _ => e

/-- What an error the controller meets at a sector does to its counters and records. -/
def Die.meetError (d : Die) (a : Nat) (scrub : Bool) (err : DramErr) : Die :=
  match err with
  | .none => d
  | .corrected => d.correctedError a scrub
  | .uncorrectable n => d.uncorrectableError a false scrub (ueSymbols n)

/-- One sector read: what the code finds is corrected or reported, and an uncorrectable error stays in the sector. -/
def Die.readAccess (d : Die) (x : Nat) (err : DramErr) : Die :=
  if d.badSector x then d.readSector x
  else
    let e := d.meetError x false err
    match err with
    | .uncorrectable n => e.setErr x n
    | _ => e

/-- One sector written with byte enables: a partial write reads the sector first, and where that read is uncorrectable the sector takes
the poison pattern. -/
def Die.writeAccess (d : Die) (x : Nat) (part : List (Option Byte)) (err : DramErr) : Die :=
  if part.all Option.isSome || part.all Option.isNone || d.badSector x then d.writeSector x part
  else
    let e := d.meetError x false err
    match err with
    | .uncorrectable _ => e.setBad x
    | _ => e.setSome x part

/-- One access at a controller (R388 to R390), with what the code finds in each of its sectors. -/
def Die.dramAccess (d : Die) (a n : Nat) (write : Bool) (data : List (Option Byte)) (errs : List DramErr) : Die :=
  (sectors a n).foldl (fun e x =>
    let err := errFound (errs.getD ((x - a) / 64) .none)
    if write then e.writeAccess x (sectorPart a data x) err else e.readAccess x err) d

/-- DRAM_ACCESS: an aligned sector or line, in a stack that accepts requests and runs no DRAM event. -/
def execDramAccess (addr : Nat) (line write : Bool) (data : List (Option Byte)) (errs : List DramErr) (s : State) :
    Host.Outcome State Fault Refusal :=
  let n := if line then 128 else 64
  mainCmd (fun d => isDram addr && decide (addr % n = 0) && decide (data.length ≤ n) && d.stackUp (stackOf addr) &&
    !(d.stack (stackOf addr)).event) (fun d => d.dramAccess addr n write data errs) s

/-- DRAM_REFRESH: per-bank refresh keeps every byte and changes no register (R387). -/
def execDramRefresh (stack : Nat) (s : State) : Host.Outcome State Fault Refusal :=
  mainCmd (fun d => decide (stack < 2) && d.stackUp stack) (fun d => d) s

/-- Temperature of a stack, a free value (log entry 35). -/
def stackTempAt (k q : Nat) : Nat := (Config.stackTemp k q).toNat

/-- Retraining of a stack is due (R387): 100 ms have passed since its interface was last trained, or its temperature has moved 10 °C. -/
def Die.retrainDue (d : Die) (k : Nat) : Bool :=
  let t := (d.stack k).lastTrain
  decide (t + 400000000 ≤ d.clock.aging) || decide (stackTempAt k t + 10 ≤ stackTempAt k d.clock.aging) ||
    decide (stackTempAt k d.clock.aging + 10 ≤ stackTempAt k t)

/-- While a table runs, an event of stack `k` may start at this boundary: no other event runs or has run in this tide, and the stack's
last one began 1 ms ago (R222, R387). -/
def Die.eventSlot (d : Die) (k : Nat) : Bool :=
  d.stackUp k && decide (d.tide.w = 0) && !d.tide.dramEvent && !d.stack0.event && !d.stack1.event &&
    (match (d.stack k).lastEvent with | none => true | some t => decide (t + 1000000 ≤ d.now))

/-- Whether a DRAM event of a stack may start now (R222, R387): when it is due; while a table runs, at a permitted boundary, and for
stack 1 at one that stack 0, due itself, does not take. -/
def Die.eventAllowed (d : Die) (k : Nat) : Bool :=
  decide (k < 2) && d.stackUp k && !(d.stack k).event &&
  (!d.armed || (d.eventSlot k && !(k == 1 && d.eventSlot 0 && d.retrainDue 0)))

/-- The requests of the tiles that a stack has accepted when an event of it starts: they complete during the event (R387). -/
def Die.acceptReqs (d : Die) (k : Nat) : Die :=
  { d with tiles := d.tiles.map (fun p => (p.1, { p.2 with
      reqs := p.2.reqs.map (fun r => if r.issued && stackOf r.addr == k then { r with accepted := true } else r) })) }

/-- DRAM_EVENT_START (R387): while a table runs, only at a boundary, once per stack per 1 ms, never with the other stack's. -/
def execDramEventStart (stack : Nat) (s : State) : Host.Outcome State Fault Refusal :=
  mainCmd (fun d => d.eventAllowed stack)
    (fun d => ({ d.setStack stack { d.stack stack with event := true, lastEvent := some d.now } with
      tide := { d.tide with dramEvent := true } }).acceptReqs stack) s

/-- DRAM_EVENT_END (R387): an event for which retraining was due has trained the interface. -/
def execDramEventEnd (stack : Nat) (s : State) : Host.Outcome State Fault Refusal :=
  mainCmd (fun d => decide (stack < 2) && (d.stack stack).event)
    (fun d => d.setStack stack { d.stack stack with
      event := false, lastTrain := if d.retrainDue stack then d.clock.aging else (d.stack stack).lastTrain }) s

/-- The scrubber meets one sector (R391): corrected data are written back, an uncorrectable sector takes the poison pattern. A
pass of a stack ends with its last sector (R398). -/
def Die.scrub (d : Die) (a : Nat) (err : DramErr) : Die :=
  let d1 :=
    if d.badSector a then (d.reportBad a true).setBad a
    else
      let e := d.meetError a true (errFound err)
      match (errFound err) with
      | .uncorrectable _ => e.setBad a
      | _ => e
  if a = dramEnd - 64 ∨ a = dramEnd - 4096 - 64 then d1.bumpWrap Reg.BOOT_MEM_SCRUB_PASSES 1 else d1

def execScrubSector (addr : Nat) (err : DramErr) (s : State) : Host.Outcome State Fault Refusal :=
  mainCmd (fun d => isDram addr && decide (addr % 64 = 0) && d.on Reg.BOOT_MEM_SCRUB_EN && d.stackUp (stackOf addr) &&
    !(d.stack (stackOf addr)).event) (fun d => d.scrub addr err) s

/-! ### Training and tests -/

/-- State of a stack (R392): 0 UNTRAINED, 1 TRAINING, 2 TRAINED, 3 TESTING, 4 READY, 5 FAILED. -/
def Die.memState (d : Die) (k : Nat) : Nat := d.get (Reg.BOOT_MEM_STATUS_STATE k)
def Die.setMem (d : Die) (k st : Nat) : Die := d.put (Reg.BOOT_MEM_STATUS_STATE k) st

/-- TRAIN is allowed for a stack (R392, R514). -/
def Die.mayTrain (d : Die) (k : Nat) : Bool :=
  !d.lowWater && (d.memState k == 0 || d.memState k == 5 || (d.stackUp k && !d.armed))

/-- TEST is allowed for a stack (R392). -/
def Die.mayTest (d : Die) (k : Nat) : Bool :=
  d.stackUp k && !(d.stage == 5 || d.stage == 6 || d.stage == 7)

/-- A stack starts training; it keeps its contents (R392). -/
def Die.startTrain (d : Die) (k : Nat) : Die := (d.setMem k 1).clear (Reg.BOOT_MEM_STATUS_PROGRESS k)
def Die.startTest (d : Die) (k : Nat) : Die := (d.setMem k 3).clear (Reg.BOOT_MEM_STATUS_PROGRESS k)

/-- Record DRAM 3 of a refused request: 1 TRAIN, 2 TEST. -/
def Die.memRefused (d : Die) (k req : Nat) : Die := d.record 0x0B 3 (80 + 2 * k) k [req, d.memState k]

/-- The TRAIN part of a write: each selected stack trains or is refused; the flag says whether any was refused. -/
def Die.trainStacks (d : Die) (ks : List Nat) (thenTest : Bool) : Die × Bool :=
  ks.foldl (fun p k =>
    if p.1.mayTrain k then
      ((p.1.startTrain k).setStack k { p.1.stack k with testAfter := thenTest }, p.2)
    else (p.1.memRefused k 1, true)) (d, false)

/-- The TEST part of a write. -/
def Die.testStacks (d : Die) (ks : List Nat) : Die × Bool :=
  ks.foldl (fun p k => if p.1.mayTest k then (p.1.startTest k, p.2) else (p.1.memRefused k 2, true)) (d, false)

/-- A write of BOOT_MEM_CTRL (R396, R582). -/
def Die.memCtrlWrite (d : Die) (ag : Agent) (word : Nat) : Die :=
  let fs := (regSpec Reg.BOOT_MEM_CTRL).getD []
  let rsv := refusedFields fs word
  let d1 := (d.putW Reg.BOOT_MEM_CTRL (w32 (writeFields fs (d.getW Reg.BOOT_MEM_CTRL).toNat (word % 2 ^ 4 + word / 2 ^ 6 % 2 ^ 25 * 2 ^ 6)))).recordRefused
    ag Reg.BOOT_MEM_CTRL word 0xFF rsv
  let d2 := if bit word 31 then [0, 1].foldl (fun e k =>
    (e.clear (⟨Reg.BOOT_MEM_CE k, 0, 32⟩)).clear (⟨Reg.BOOT_MEM_UE k, 0, 32⟩)) d1 else d1
  let ks := bitsSet 2 (d2.get Reg.BOOT_MEM_CTRL_STACKS)
  let go := bit word 5
  let noTest := d2.get Reg.BOOT_MEM_CTRL_TEST = 0 ∨ !rsv.isEmpty
  let badGo : Bool := go && decide noTest
  let p3 := if badGo then (d2.record 0x0B 3 0xFF 0xFFFF [2, 0], true) else (d2, false)
  let p4 := if bit word 4 then p3.1.trainStacks ks (go && !badGo) else (p3.1, false)
  let p5 := if go && !badGo && !bit word 4 then p4.1.testStacks ks else (p4.1, false)
  let waits := ks.any (fun k => (p5.1.stack k).testAfter)
  let d6 := if waits then p5.1.raise Reg.BOOT_MEM_CTRL_TEST_GO else p5.1
  d6.answer ag (if p3.2 || p4.2 || p5.2 then stBusy else stOk)

/-- MEM_TRAIN: BOOT_MEM_CTRL.TRAIN written with the fields the register holds. -/
def execMemTrain (ag : Agent) (s : State) : Host.Outcome State Fault Refusal :=
  mainCmd (fun d => d.mayControl ag)
    (fun d => d.memCtrlWrite ag (setBits (setBits (d.getW Reg.BOOT_MEM_CTRL).toNat 4 2 1) 31 1 0)) s

/-- MEM_TEST: BOOT_MEM_CTRL.TEST_GO written with the fields the register holds. -/
def execMemTest (ag : Agent) (s : State) : Host.Outcome State Fault Refusal :=
  mainCmd (fun d => d.mayControl ag)
    (fun d => d.memCtrlWrite ag (setBits (setBits (d.getW Reg.BOOT_MEM_CTRL).toNat 4 2 2) 31 1 0)) s

/-- MEM_CNT_CLR: BOOT_MEM_CTRL.CNT_CLR written with the fields the register holds. -/
def execMemCntClr (ag : Agent) (s : State) : Host.Outcome State Fault Refusal :=
  mainCmd (fun d => d.mayControl ag)
    (fun d => d.memCtrlWrite ag (setBits (setBits (d.getW Reg.BOOT_MEM_CTRL).toNat 4 2 0) 31 1 1)) s

/-- A failed step of the bring-up (R502, R505, R510): its code, and record BOOT 2. -/
def Die.stepFailed (d : Die) (code : Nat) : Die :=
  let d1 := (d.put Reg.BOOT_STAGE_CODE code).record 0x03 2 99 0xFFFF [code]
  { d1 with boot := { d1.boot with lastCode := code } }

/-- A stack's training or test fails while a start, or the resume after a CORE reset, needs it (R505, R584): the resume is
abandoned at the end of the hold, or at once where the hold is over. -/
def Die.memFailed (d : Die) (code : Nat) : Die :=
  if 1 ≤ d.stage ∧ d.stage ≤ 3 then d.stepFailed code
  else if d.stage = 7 then
    let d1 := d.stepFailed code
    if d.boot.running = 4 then
      let d2 := (d1.clear Reg.RST_STATUS_COMPUTE).put Reg.BOOT_STAGE_STAGE 1
      { d2 with boot := { d2.boot with running := 0 } }
    else { d1 with boot := { d1.boot with trainFailed := true } }
  else d

/-- TEST_GO clears once no stack's test is still to be accepted or refused. -/
def Die.settleTestGo (d : Die) : Die :=
  if d.stack0.testAfter || d.stack1.testAfter then d else d.clear Reg.BOOT_MEM_CTRL_TEST_GO

/-- MEM_TRAIN_DONE (R392, R393, R582). -/
def Die.trainDone (d : Die) (k code : Nat) : Die :=
  let x := d.stack k
  if code = 0 then
    let d1 := ((d.setMem k 2).put (Reg.BOOT_MEM_STATUS_PROGRESS k) 100).setStack k
      { x with testAfter := false, lastTrain := d.clock.aging }
    let d2 := if x.testAfter then (if d1.mayTest k then d1.startTest k else d1.memRefused k 2) else d1
    d2.settleTestGo.ringCheck
  else
    ((((d.setMem k 5).put (Reg.BOOT_MEM_STATUS_CODE k) code).setStack k { x with testAfter := false }).settleTestGo).memFailed 4

def execMemTrainDone (stack code : Nat) (s : State) : Host.Outcome State Fault Refusal :=
  mainCmd (fun d => decide (stack < 2) && decide (code ≤ 5) && d.memState stack == 1) (fun d => d.trainDone stack code) s

/-- The place of a DRAM address in the stacks (R384): stack, half (0 A, 1 B), channel of the stack, pseudo-channel, stack identifier,
bank group, bank, row, column in lines, and the byte within the line. -/
structure DramPlace where
  stack : Nat
  half : Nat
  channel : Nat
  pseudo : Nat
  sid : Nat
  group : Nat
  bank : Nat
  row : Nat
  column : Nat
  byte : Nat
  deriving DecidableEq, Repr

def dramPlace (a : Nat) : DramPlace :=
  let o := a - dramBase
  { stack := bits o 12 1, half := bits o 13 1, channel := 16 * bits o 13 1 + bits o 8 4, pseudo := bits o 7 1, sid := bits o 21 2,
    group := bits o 17 2 ^^^ bits o 23 2, bank := bits o 19 2 ^^^ bits o 25 2, row := bits o 23 15, column := bits o 14 3,
    byte := bits o 0 7 }

/-- The edge router that carries a half of a stack (R57, R384). -/
def DramPlace.edge (p : DramPlace) : Nat :=
  match p.stack, p.half with
  | 0, 0 => 2 | 0, _ => 3 | _, 0 => 7 | _, _ => 6

/-- One bank of one pseudo-channel, as a number, and a row of it. -/
def DramPlace.bankNo (p : DramPlace) : Nat := p.pseudo + 2 * (p.channel + 32 * (p.group + 4 * (p.bank + 4 * p.sid)))
def DramPlace.rowNo (p : DramPlace) : Nat × Nat := (p.bankNo, p.row)

/-- The banks spent once the rows that hold the given addresses are repaired, and whether each row found a repair (R394). -/
def repairs (spent fails : List Nat) : List Nat × Bool :=
  ((fails.map (fun a => (dramPlace a).rowNo)).eraseDups).foldl
    (fun p r => if p.1.contains r.1 then (p.1, false) else (p.1 ++ [r.1], p.2)) (spent, true)

/-- MEM_TEST_DONE (R393, R394): the contents are undefined from now on; failing rows are reported and repaired, and one whose
bank has no repair left fails the test. -/
def Die.testDone (d : Die) (k code : Nat) (rows : List Nat) : Die :=
  let x := d.stack k
  let rep := repairs x.spent rows
  let d1 := (rows.take 64).foldl (fun e a => e.record 0x0B 4 (80 + 2 * k) k [a % 2 ^ 32, a / 2 ^ 32]) d
  let n := rep.1.length - x.spent.length
  let w := setBits (d1.nvWord (Reg.BOOT_MEM_STATUS k)).toNat 0 8 (satAdd 8 (d1.get (Reg.BOOT_MEM_STATUS_REPAIRS k)) n)
  let d2 := ((d1.bump (Reg.BOOT_MEM_STATUS_REPAIRS k) n).setStack k { x with spent := rep.1 }).loseStack k
  let d3 := { d2 with strand := { d2.strand with ringLive := false },
                      nv := { d2.nv with words := amSet (resetWord (Reg.BOOT_MEM_STATUS k)) d2.nv.words (Reg.BOOT_MEM_STATUS k) (w32 w) } }
  if code = 0 ∧ rep.2 then ((d3.setMem k 4).put (Reg.BOOT_MEM_STATUS_PROGRESS k) 100).ringCheck
  else ((d3.setMem k 5).put (Reg.BOOT_MEM_STATUS_CODE k) (if code = 0 then 3 else code)).memFailed 5

def execMemTestDone (stack code : Nat) (rows : List Nat) (s : State) : Host.Outcome State Fault Refusal :=
  mainCmd (fun d => decide (stack < 2) && decide (code ≤ 5) && d.memState stack == 3 &&
    rows.all (fun a => isDram a && stackOf a == stack)) (fun d => d.testDone stack code rows) s

/-- ERR_ADDR_CLEAR (R400): both words of CE_ADDR or UE_ADDR clear. -/
def Die.errAddrClear (d : Die) (ag : Agent) (k : Nat) (ue : Bool) : Die :=
  (if ue then (d.putW (Reg.BOOT_MEM_UE_ADDR_LO k) 0).putW (Reg.BOOT_MEM_UE_ADDR_HI k) 0
   else (d.putW (Reg.BOOT_MEM_CE_ADDR_LO k) 0).putW (Reg.BOOT_MEM_CE_ADDR_HI k) 0).answer ag stOk

def execErrAddrClear (ag : Agent) (stack : Nat) (ue : Bool) (s : State) : Host.Outcome State Fault Refusal :=
  mainCmd (fun d => d.mayControl ag && decide (stack < 2)) (fun d => d.errAddrClear ag stack ue) s

end Sys2Proof.Machine
end

