-- ==== Sys2Proof/Machine/Crc.lean ====
section
/-! DEFINITION. The check-value units (R414 to R419). -/
namespace Sys2Proof.Machine

/-- The algorithm of a unit: width, polynomial, initial value, REFIN, REFOUT, XOROUT. -/
structure CrcAlg where
  w : Nat
  poly : Nat
  init : Nat
  refin : Bool
  refout : Bool
  xorout : Nat
  deriving DecidableEq, Repr

/-- Base address of a unit's registers (R419). -/
def crcBase (u : CrcUnit) : Nat :=
  match u with
  | .edge k => 0xD0000 + 0x100 * k
  | .tile t => tileAddr t + 0xB00000

def crcCfg (u : CrcUnit) : Nat := crcBase u
def crcValue (u : CrcUnit) : Nat := crcBase u + 0x10
def crcBoundF (u : CrcUnit) : Fld := ⟨crcBase u + 0x1C, 0, 1⟩
def crcRefusedF (u : CrcUnit) : Fld := ⟨crcBase u + 0x1C, 2, 1⟩

/-- The algorithm a unit runs (R414, R419). -/
def Die.crcAlg (d : Die) (u : CrcUnit) : CrcAlg :=
  let c := (d.getW (crcCfg u)).toNat
  match bits c 0 2 with
  | 0 => ⟨32, 0x1EDC6F41, 0xFFFFFFFF, true, true, 0xFFFFFFFF⟩
  | 1 => ⟨32, 0x04C11DB7, 0xFFFFFFFF, true, true, 0xFFFFFFFF⟩
  | 2 => ⟨16, 0x1021, 0xFFFF, false, false, 0⟩
  | _ =>
    let w := 8 * 2 ^ bits c 8 2
    ⟨w, (d.getW (crcBase u + 4)).toNat % 2 ^ w, (d.getW (crcBase u + 8)).toNat % 2 ^ w, bit c 4, bit c 5,
      (d.getW (crcBase u + 0xC)).toNat % 2 ^ w⟩

/-- CRC_RESULT (R415): result(s) of the raw state. After a reset s is 0 and SEL is 0, so it reads result(0) = 0xFFFFFFFF, where the table
of R419 gives 0 as the register's reset (DESIGN CHOICE, log entry 71). -/
def Die.crcNow (d : Die) (u : CrcUnit) : Nat :=
  let g := d.crcAlg u
  crcResult (d.getW (crcValue u)).toNat g.w g.refin g.refout g.xorout

/-- The unit initialised (R415). -/
def Die.crcStart (d : Die) (u : CrcUnit) : Die :=
  let g := d.crcAlg u
  d.putW (crcValue u) (w32 (if g.refin then reflect g.init g.w else g.init))

/-- Bytes fed into a unit, in order. -/
def Die.crcFeed (d : Die) (u : CrcUnit) (bs : List Byte) : Die :=
  let g := d.crcAlg u
  d.putW (crcValue u) (w32 (bs.foldl (fun s b => feedByte s b.toNat g.w g.poly g.refin) (d.getW (crcValue u)).toNat))

/-- Whether a unit exists: eight edge units, one per enabled tile. -/
def Die.crcHas (d : Die) (u : CrcUnit) : Bool :=
  match u with
  | .edge k => decide (k < 8) && !d.computeHeld
  | .tile t => d.tileAnswers t

/-- A command that writes the register at offset `off` of a unit: an edge unit waits for the end of a COMPUTE reset (R508), a
tile's unit answers as the tile's window does. -/
def crcCmd (ag : Agent) (u : CrcUnit) (off w : Nat) (f : Die → Die) (s : State) : Host.Outcome State Fault Refusal :=
  match u with
  | .edge k => mainCmd (fun d => d.mayControl ag && decide (k < 8)) (fun d => if d.computeHeld then d.answer ag stNotReady else f d) s
  | .tile t => tileCmd ag t (crcBase u + off) w true f s

/-- The unit's number for a record and its clock domain. -/
def crcSub (u : CrcUnit) : Nat := match u with | .edge k => k | .tile _ => 0
def crcDom (u : CrcUnit) : Nat := match u with | .edge _ => 92 | .tile t => t

/-- A write to a unit that R418 refuses while it is bound: REFUSED, record CRC 1, the busy status. -/
def Die.crcRefuse (d : Die) (ag : Agent) (u : CrcUnit) (addr word : Nat) : Die :=
  ((d.raise (crcRefusedF u)).recordA 0x0D 1 (crcDom u) (crcSub u) ag addr word stBusy).answer ag stBusy

/-- A write of a unit's register, refused while the unit is bound. -/
def Die.crcGate (d : Die) (ag : Agent) (u : CrcUnit) (off word : Nat) (f : Die → Die) : Die :=
  if d.on (crcBoundF u) then d.crcRefuse ag u (crcBase u + off) word else (f d).answer ag stOk

/-- Feeds the low `n` bytes of a word, low byte first (R416). -/
def Die.crcFeedWord (d : Die) (ag : Agent) (u : CrcUnit) (off n word : Nat) : Die :=
  d.crcGate ag u off word (fun e => e.crcFeed u (natLe n word))

def execCrcFeed8 (ag : Agent) (un : CrcUnit) (word : Nat) (s : State) : Host.Outcome State Fault Refusal :=
  crcCmd ag un 0x20 word (fun d => d.crcFeedWord ag un 0x20 1 word) s

def execCrcFeed16 (ag : Agent) (un : CrcUnit) (word : Nat) (s : State) : Host.Outcome State Fault Refusal :=
  crcCmd ag un 0x24 word (fun d => d.crcFeedWord ag un 0x24 2 word) s

def execCrcFeed32 (ag : Agent) (un : CrcUnit) (word : Nat) (s : State) : Host.Outcome State Fault Refusal :=
  crcCmd ag un 0x28 word (fun d => d.crcFeedWord ag un 0x28 4 word) s

/-- CRC_VALUE_WRITE: the raw state is set directly (R417). -/
def Die.crcValueWrite (d : Die) (ag : Agent) (u : CrcUnit) (word : Nat) : Die :=
  d.crcGate ag u 0x10 word (fun e => e.putW (crcValue u) (w32 word))

def execCrcValueWrite (ag : Agent) (un : CrcUnit) (word : Nat) (s : State) : Host.Outcome State Fault Refusal :=
  crcCmd ag un 0x10 word (fun d => d.crcValueWrite ag un word) s

/-- CRC_INIT: CRC_CMD.INIT (R419); a write with INIT 0 is no INIT command, and does nothing. -/
def Die.crcInitWrite (d : Die) (ag : Agent) (u : CrcUnit) (word : Nat) : Die :=
  if bit word 0 then d.crcGate ag u 0x18 word (fun e => e.crcStart u) else d.answer ag stOk

def execCrcInit (ag : Agent) (un : CrcUnit) (s : State) : Host.Outcome State Fault Refusal :=
  crcCmd ag un 0x18 1 (fun d => d.crcInitWrite ag un 1) s

/-- CRC_CONFIG_WRITE of register `reg` (0 CRC_CFG, 1 CRC_POLY, 2 CRC_INIT, 3 CRC_XOROUT): the last three are written for SEL 3
only, in the low w bits (R419). -/
def Die.crcConfigWrite (d : Die) (ag : Agent) (u : CrcUnit) (reg word : Nat) : Die :=
  if d.on (crcBoundF u) then d.crcRefuse ag u (crcBase u + 4 * reg) word
  else if reg = 0 then d.plainWrite ag (crcCfg u) word (crcDom u)
  else if bits (d.getW (crcCfg u)).toNat 0 2 = 3 then
    (d.putW (crcBase u + 4 * reg) (w32 (word % 2 ^ (d.crcAlg u).w))).answer ag stOk
  else d.answer ag stOk

def execCrcConfigWrite (ag : Agent) (un : CrcUnit) (reg word : Nat) (s : State) : Host.Outcome State Fault Refusal :=
  crcCmd ag un (4 * reg) word (fun d => if reg < 4 then d.crcConfigWrite ag un reg word else d) s

end Sys2Proof.Machine
end

