-- ==== Sys2Proof/Machine/Dma.lean ====
section
/-! DEFINITION. The DMA engines (R401 to R413), the request slots they share with a tile's engine (R179, R180, R202), and what a thread
shows in ENG_THREAD (R174, R203). -/
namespace Sys2Proof.Machine

/-- Channels of an engine, and whether it exists. -/
def dmaChans (e : DmaEng) : Nat := match e with | .edge => 32 | .tile _ => 16
def Die.dmaHas (d : Die) (e : DmaEng) : Bool := match e with | .edge => !d.computeHeld | .tile t => d.tileAnswers t

/-- Whether the agent is the host or a tile program, for the reserved areas (R385, R404). -/
def isHost (ag : Agent) : Bool := match ag with | .session _ => true | .j3 => true | _ => false

/-- Base address of an engine's registers, and of a channel's. -/
def dmaBase (e : DmaEng) : Nat := match e with | .edge => 0xC0000 | .tile t => tileAddr t + 0xA00000
def chBase (e : DmaEng) (c : Nat) : Nat := dmaBase e + 0x100 + 0x40 * c
def dmaDom (e : DmaEng) : Nat := match e with | .edge => 92 | .tile t => t

/-- A command that writes the register of an engine at offset `off`: the edge engine waits for the end of a COMPUTE reset (R508), a
tile's engine answers as the tile's window does. -/
def dmaCmd (ag : Agent) (e : DmaEng) (off w : Nat) (ok : Bool) (f : Die → Die) (s : State) : Host.Outcome State Fault Refusal :=
  match e with
  | .edge => mainCmd (fun d => d.mayControl ag && ok) (fun d => if d.computeHeld then d.answer ag stNotReady else f d) s
  | .tile t => tileCmd ag t (dmaBase e + off) w ok f s

/-- Key of a channel among the running ones, and of an engine. -/
def chKey (e : DmaEng) (c : Nat) : Nat := match e with | .edge => c | .tile t => 32 + 16 * t + c
def engKey (e : DmaEng) : Nat := match e with | .edge => 0 | .tile t => t + 1

def chState (e : DmaEng) (c : Nat) : Fld := ⟨chBase e c + 0x28, 0, 4⟩
def chResult (e : DmaEng) (c : Nat) : Fld := ⟨chBase e c + 0x28, 12, 4⟩
def chPrio (e : DmaEng) (c : Nat) : Fld := ⟨chBase e c + 0x24, 0, 2⟩
def chStopF (e : DmaEng) (c : Nat) : Fld := ⟨chBase e c + 0x20, 1, 1⟩
def dmaDoneF (e : DmaEng) (c : Nat) : Fld := ⟨dmaBase e + 4, c, 1⟩
def dmaErrF (e : DmaEng) (c : Nat) : Fld := ⟨dmaBase e + 8, c, 1⟩
def dmaActiveF (e : DmaEng) (c : Nat) : Fld := ⟨dmaBase e + 0xC, c, 1⟩
def dmaModeF (e : DmaEng) : Fld := ⟨dmaBase e, 0, 1⟩
def dmaBufMaxF (e : DmaEng) : Fld := ⟨dmaBase e, 16, 9⟩

def Die.run (d : Die) (e : DmaEng) (c : Nat) : Option DmaRun := look d.dma (chKey e c)
def Die.putRun (d : Die) (e : DmaEng) (c : Nat) (r : DmaRun) : Die := { d with dma := keep d.dma (chKey e c) r }

/-- Fields of CTRL (R403). -/
def DmaRun.crcMode (r : DmaRun) : Nat := bits r.ctrl 6 2
def DmaRun.tag (r : DmaRun) : Nat := bits r.next 48 16
def dmaUnit (e : DmaEng) (r : DmaRun) : CrcUnit := match e with | .edge => .edge (bits r.ctrl 10 3) | .tile t => .tile t

/-- A descriptor that R403 calls malformed: a reserved kind or RSV bit, a link stream or a CRC unit on a tile DMA, LENGTH 0, a
nonzero bit that R402 says is zero, or LENGTH not above w/8 under strip and check (R418). -/
def Die.dmaMalformed (d : Die) (e : DmaEng) (r : DmaRun) : Bool :=
  let sk := bits r.ctrl 4 2
  let dk := bits r.ctrl 2 2
  let endBad (k x : Nat) : Bool :=
    if k = 0 then decide (bits x 48 16 ≠ 0) else decide (bits x 0 48 ≠ 0) || decide (bits x 56 8 ≠ 0) || decide (6 ≤ bits x 48 8)
  decide (1 < sk) || decide (1 < dk) || decide (bits r.ctrl 13 4 ≠ 0) || bit r.ctrl 8 || decide (bits r.ctrl 0 2 ≠ 0) ||
  decide (r.len = 0) || endBad sk r.src || endBad dk r.dst ||
  (match e with
   | .edge => false
   | .tile _ => decide (sk = 1) || decide (dk = 1) || decide (bits r.ctrl 10 3 ≠ 0)) ||
  (r.crcMode == 3 && decide (r.len ≤ (d.crcAlg (dmaUnit e r)).w / 8))

/-- Bytes the descriptor writes (R418). -/
def Die.dmaOutLen (d : Die) (e : DmaEng) (r : DmaRun) : Nat :=
  let c := (d.crcAlg (dmaUnit e r)).w / 8
  match r.crcMode with
  | 2 => r.len + c
  | 3 => r.len - c
  | _ => r.len

/-- A KIND 0 range that R404 accepts: wholly in DRAM, with the rights of R385, or in the SRAM of one enabled tile. The Lighthouse SRAM, which
R404 allows for a channel the firmware started, has no device address (R75 to R77 give it none), so no range of a descriptor can name it
(DEDUCED, log entry 62). -/
def Die.dmaRangeOk (d : Die) (ag : Agent) (a n : Nat) (write : Bool) : Bool :=
  (isDram a && isDram (a + n - 1) &&
    (decide (a + n ≤ fwArea) || (match ag with
      | .firmware => true
      | .session _ => !write && d.hasDebug ag
      | _ => false))) ||
  (match sramTile a with
   | some t => d.enabled t && sramTile (a + n - 1) == some t
   | none => false)

/-- The range checks of R404 for a descriptor. -/
def Die.dmaRangesOk (d : Die) (e : DmaEng) (r : DmaRun) : Bool :=
  let sk := bits r.ctrl 4 2
  let dk := bits r.ctrl 2 2
  let n := d.dmaOutLen e r
  (sk == 1 || d.dmaRangeOk r.starter r.src r.len false) && (dk == 1 || d.dmaRangeOk r.starter r.dst n true) &&
  (sk == 1 || dk == 1 || decide (r.src + r.len ≤ r.dst) || decide (r.dst + n ≤ r.src))

/-- A descriptor begins on a channel (R404, R412): its registers are loaded, its checks are made, and its CRC unit is bound, or
waited for while another channel holds it. -/
def Die.dmaBegin (d : Die) (e : DmaEng) (c : Nat) (r : DmaRun) : Die :=
  let b := chBase e c
  let d1 := ((((((((d.putW b (w32 r.src)).putW (b + 4) (w32 (r.src / 2 ^ 32))).putW (b + 8) (w32 r.dst)).putW (b + 12)
    (w32 (r.dst / 2 ^ 32))).putW (b + 16) (w32 r.len)).putW (b + 20) (w32 r.ctrl)).putW (b + 24) (w32 r.next)).putW (b + 28)
    (w32 (r.next / 2 ^ 32))).putW (b + 0x2C) (w32 r.len)
  let d2 := (d1.put (chState e c) 2).raise (dmaActiveF e c)
  if d.dmaMalformed e r then d2.putRun e c { r with result := 6 }
  else if !d.dmaRangesOk e r then d2.putRun e c { r with result := 2 }
  else if r.crcMode = 0 then d2.putRun e c r
  else
    let u := dmaUnit e r
    if d.on (crcBoundF u) then (d2.put (chState e c) 3).putRun e c r
    else
      let d3 := (d2.raise (crcBoundF u)).putRun e c { r with bound := true }
      if bit r.ctrl 9 then d3 else d3.crcStart u

/-- A new run of a descriptor's eight words. -/
def newRun (ag : Agent) (src dst len ctrl next : Nat) : DmaRun :=
  { starter := ag, src := src, dst := dst, len := len, ctrl := ctrl, next := next }

/-- The descriptor at a device address, as a channel reads it (R402): none where it cannot be read, or what is read is poisoned. -/
def Die.fetchDesc (d : Die) (ag : Agent) (a : Nat) : Die × Option DmaRun :=
  let r := newRun ag (d.leMem a 8) (d.leMem (a + 8) 8) (d.leMem (a + 16) 4) (d.leMem (a + 20) 4) (d.leMem (a + 24) 8)
  if isDram a then
    if d.dmaRangeOk ag a 32 false then (d.readReport a 32, if d.rangePoison a 32 then none else some r) else (d, none)
  else match sramTile a with
    | none => (d, none)
    | some t =>
      let off := (a - tileAddr 0) % 0x1000000
      if !d.enabled t then (d, none)
      else if d.packetOk t off 32 false then (d.sramUse t off 32, if d.packetPoison t off 32 then none else some r)
      else (d.packetFault t off, none)

/-- A channel goes to fetch the descriptor at `next` (R412); a misaligned one ends with DESC (R409). -/
def Die.dmaFetch (d : Die) (e : DmaEng) (c : Nat) (ag : Agent) (next : Nat) : Die :=
  let a := next % 2 ^ 48
  let r := newRun ag 0 0 0 0 (next / 2 ^ 48 * 2 ^ 48)
  let d1 := d.raise (dmaActiveF e c)
  if a % 32 = 0 then (d1.put (chState e c) 1).putRun e c { r with fetch := some a }
  else (d1.put (chState e c) 2).putRun e c { r with result := 6 }

/-- A host write that an engine refuses as a whole (R401): a start of edge channels 0 to 3, or a tile DMA's register while its
tile runs a table. -/
def Die.dmaHostBusy (d : Die) (ag : Agent) (e : DmaEng) (c : Nat) (start : Bool) : Bool :=
  isHost ag && (match e with
    | .edge => start && decide (c < 4)
    | .tile _ => d.armed)

/-- The refusal of a START or FETCH on a channel that is not IDLE (R410). -/
def Die.dmaRefuse (d : Die) (ag : Agent) (e : DmaEng) (c addr word : Nat) : Die :=
  (d.recordA 0x0C 2 (dmaDom e) c ag addr word stBusy).answer ag stBusy

/-- A START or FETCH of a channel. -/
def Die.chGo (d : Die) (ag : Agent) (e : DmaEng) (c word : Nat) (f : Die → Die) : Die :=
  if d.dmaHostBusy ag e c true then d.answer ag stBusy
  else if d.get (chState e c) ≠ 0 then d.dmaRefuse ag e c (chBase e c + 0x20) word
  else (f d).answer ag stOk

/-- The run that the channel registers hold. -/
def Die.regRun (d : Die) (ag : Agent) (e : DmaEng) (c : Nat) : DmaRun :=
  let b := chBase e c
  newRun ag (d.get64 b) (d.get64 (b + 8)) (d.getW (b + 16)).toNat (d.getW (b + 20)).toNat (d.get64 (b + 24))

def Die.chStart (d : Die) (ag : Agent) (e : DmaEng) (c : Nat) : Die :=
  d.chGo ag e c 1 (fun x => x.dmaBegin e c (x.regRun ag e c))

def Die.chFetch (d : Die) (ag : Agent) (e : DmaEng) (c : Nat) : Die :=
  d.chGo ag e c 4 (fun x => x.dmaFetch e c ag (x.get64 (chBase e c + 24)))

def execChStart (ag : Agent) (eng : DmaEng) (ch : Nat) (s : State) : Host.Outcome State Fault Refusal :=
  dmaCmd ag eng (0x120 + 0x40 * ch) 1 (decide (ch < dmaChans eng)) (fun d => d.chStart ag eng ch) s

def execChFetch (ag : Agent) (eng : DmaEng) (ch : Nat) (s : State) : Host.Outcome State Fault Refusal :=
  dmaCmd ag eng (0x120 + 0x40 * ch) 4 (decide (ch < dmaChans eng)) (fun d => d.chFetch ag eng ch) s

/-- A channel is made STOPPING (R410): no new read or fetch, the bytes already read are written, then ABORTED. -/
def Die.stopChannel (d : Die) (e : DmaEng) (c : Nat) : Die :=
  match d.run e c with
  | none => d
  | some r => ((d.put (chState e c) 4).raise (chStopF e c)).putRun e c
      { r with result := if r.result = 0 then 1 else r.result, fetch := none }

/-- CH_STOP by register. -/
def Die.chStop (d : Die) (ag : Agent) (e : DmaEng) (c : Nat) : Die :=
  if d.dmaHostBusy ag e c false then d.answer ag stBusy else (d.stopChannel e c).answer ag stOk

def execChStop (ag : Agent) (eng : DmaEng) (ch : Nat) (s : State) : Host.Outcome State Fault Refusal :=
  dmaCmd ag eng (0x120 + 0x40 * ch) 2 (decide (ch < dmaChans eng)) (fun d => d.chStop ag eng ch) s

/-! ### Beats -/

/-- A descriptor reads no more: all is read, it was stopped, or it failed. -/
def DmaRun.readDone (r : DmaRun) : Bool := decide (r.len ≤ r.read) || decide (r.result ≠ 0)

/-- The descriptor is fetched, and every byte it is to write is written. -/
def DmaRun.finished (r : DmaRun) : Bool := r.fetch.isNone && r.readDone && r.buffer.isEmpty

/-- The next bytes of the source: to the end of the 128-byte line, of the descriptor, or what a link stream holds. -/
def Die.dmaChunk (d : Die) (r : DmaRun) : Nat :=
  let left := r.len - r.read
  if bits r.ctrl 4 2 = 1 then min (min left 128) (d.link (bits r.src 48 8)).rxStream.length
  else min left (128 - (r.src + r.read) % 128)

/-- The target of an address holds a channel back: a stack that accepts no request, or runs a DRAM event (R387, R392). -/
def Die.held (d : Die) (a : Nat) : Bool :=
  isDram a && (!d.stackUp (stackOf a) || (d.stack (stackOf a)).event)

/-! ### The request slots of a tile (R179, R180, R202) -/

def reqFloor (c : ReqClass) : Nat := match c with | .pool => 128 | .dma => 64 | _ => 0
def reqCap (c : ReqClass) : Nat := match c with | .outl => 512 | .sound => 128 | _ => 1024
/-- Classes in rank order. -/
def reqClasses : List ReqClass := [.outl, .corr, .sched, .pool, .dma, .sound]

/-- The channels of an engine that run a descriptor, with their runs. -/
def Die.dmaRuns (d : Die) (e : DmaEng) : List (Nat × DmaRun) :=
  (List.range (dmaChans e)).filterMap (fun c => (d.run e c).map (fun r => (c, r)))

/-- Slots that the lines and sectors an engine has read from DRAM hold until they are written (R179). -/
def Die.readSlots (d : Die) (e : DmaEng) : Nat :=
  ((d.dmaRuns e).map (fun p => (p.2.beats.filter (fun b => b.slot)).length)).sum

def Die.dmaSlots (d : Die) (t : Nat) : Nat := d.readSlots (.tile t)

/-- Beats that an engine's channels hold (R406). -/
def Die.beatsHeld (d : Die) (e : DmaEng) : Nat := ((d.dmaRuns e).map (fun p => p.2.beats.length)).sum

/-- A channel may hold one more beat (R406): in its section of 2 KB or 1 KB, or in split mode among its BUF_MAX and the engine's 512 or
128. -/
def Die.bufRoom (d : Die) (e : DmaEng) (r : DmaRun) : Bool :=
  if d.on (dmaModeF e) then
    decide (r.beats.length < d.get (dmaBufMaxF e)) && decide (d.beatsHeld e < (match e with | .edge => 512 | .tile _ => 128))
  else decide (r.buffer.length + 128 ≤ (match e with | .edge => 2048 | .tile _ => 1024))

/-- The source holds a channel back, which has bytes to read (R407): a link stream that holds none, or a stack that accepts no request. -/
def Die.srcHolds (d : Die) (r : DmaRun) : Bool :=
  !r.readDone && (if bits r.ctrl 4 2 = 1 then decide (d.dmaChunk r = 0) else d.held (r.src + r.read))

/-- The destination holds a channel back. -/
def Die.dstHolds (d : Die) (r : DmaRun) : Bool :=
  if bits r.ctrl 2 2 = 1 then decide (32 ≤ d.injected (.edge 0 1)) else d.held (r.dst + r.written)

/-- What a channel holds reaches to the end of its destination's 128-byte line, or of the descriptor, so that every sector wholly inside
the range is written whole (R405). -/
def DmaRun.lineDone (r : DmaRun) : Bool :=
  !r.buffer.isEmpty && (r.readDone || decide ((if bits r.ctrl 2 2 = 1 then 128 else 128 - (r.dst + r.written) % 128) ≤ r.buffer.length))

/-- A channel has a beat to read, or a line to write, and nothing but a request slot keeps it. -/
def Die.wantsRead (d : Die) (e : DmaEng) (r : DmaRun) : Bool :=
  r.fetch.isNone && !r.readDone && (r.crcMode == 0 || r.bound) && !d.srcHolds r && d.bufRoom e r
def Die.wantsWrite (d : Die) (r : DmaRun) : Bool := r.lineDone && !d.dstHolds r

/-- The DRAM access that a channel reads from or writes to, if it is one. -/
def DmaRun.readsDram (r : DmaRun) : Bool := bits r.ctrl 4 2 == 0 && isDram (r.src + r.read)
def DmaRun.writesDram (r : DmaRun) : Bool := bits r.ctrl 2 2 == 0 && isDram (r.dst + r.written)

/-- A channel of a tile DMA waits for a request slot. -/
def Die.dmaWaits (d : Die) (t : Nat) : Bool :=
  (d.dmaRuns (.tile t)).any (fun p => (d.wantsRead (.tile t) p.2 && p.2.readsDram) || (d.wantsWrite p.2 && p.2.writesDram) ||
    (match p.2.fetch with | some a => isDram a && !d.held a | none => false))

/-- Slots a class holds, and all slots in use. -/
def Die.slotsOf (d : Die) (t : Nat) (c : ReqClass) : Nat :=
  ((d.tile t).reqs.filter (fun r => r.issued && r.cls == c)).length + (if c = .dma then d.dmaSlots t else 0)
def Die.slotsUsed (d : Die) (t : Nat) : Nat := (reqClasses.map (d.slotsOf t)).sum

/-- A class may take a slot: below its cap, and outside the floors of the others. -/
def Die.slotFor (d : Die) (t : Nat) (c : ReqClass) : Bool :=
  decide (d.slotsOf t c < reqCap c) &&
  decide (d.slotsUsed t + ((reqClasses.filter (fun k => k != c)).map (fun k => reqFloor k - d.slotsOf t k)).sum < 1024)

/-- The classes with a request that could take a slot now. -/
def Die.slotWaiters (d : Die) (t : Nat) : List ReqClass :=
  reqClasses.filter (fun c => ((d.tile t).reqs.any (fun r => !r.issued && r.cls == c) || (c == .dma && d.dmaWaits t)) && d.slotFor t c)

/-- The class whose request issues next (R180). -/
def Die.nextClass (d : Die) (t : Nat) : Option ReqClass :=
  match (d.slotWaiters t).find? (fun c => decide (d.slotsOf t c < reqFloor c)) with
  | some c => some c
  | none => (d.slotWaiters t).head?

/-- An access of the engine's channel finds its slot, if it is to DRAM: on a tile DMA the slot goes to class DMA next (R180); the edge DMA
has 4,096 slots of its own (R401). -/
def Die.dmaSlotFree (d : Die) (e : DmaEng) (dram : Bool) : Bool :=
  !dram || (match e with
    | .edge => decide (d.readSlots .edge < 4096)
    | .tile t => d.nextClass t == some .dma)

/-- The greatest number of slots in use is kept, with `n` more for an access that is over at once (R202). -/
def Die.slotsSeen (d : Die) (e : DmaEng) (n : Nat) : Die :=
  match e with
  | .edge => d
  | .tile t => d.atLeast (Reg.ENG_REQ_HWM_MAX t) (d.slotsUsed t + n)

/-- Whether a channel can read its next beat now. -/
def Die.canRead (d : Die) (e : DmaEng) (r : DmaRun) : Bool := d.wantsRead e r && d.dmaSlotFree e r.readsDram

/-- Whether a channel can write its next beat now. -/
def Die.canWrite (d : Die) (e : DmaEng) (r : DmaRun) : Bool := d.wantsWrite r && d.dmaSlotFree e r.writesDram

/-- The source bytes of one beat, with poisoned bytes as none; none in all where the target refuses it (R186, R216). -/
def Die.dmaRead (d : Die) (r : DmaRun) (n : Nat) : Die × Option (List (Option Byte)) :=
  let a := r.src + r.read
  if bits r.ctrl 4 2 = 1 then
    let k := bits r.src 48 8
    (d.modLink k (fun l => { l with rxStream := l.rxStream.drop n }), some (((d.link k).rxStream.take n).map some))
  else if isDram a then
    (d.readReport a n, some ((List.range n).map (fun i =>
      if d.badSector ((a + i) / 64 * 64) then none else some (d.byteAt (a + i)))))
  else
    match sramTile a with
    | none => (d, none)
    | some t =>
      let off := (a - tileAddr 0) % 0x1000000
      if d.packetOk t off n false then
        (d.sramUse t off n, some ((d.bytesAt a n).map (fun b => if d.packetPoison t off n then none else some b)))
      else (d.packetFault t off, none)

/-- Check-value bytes in the order append writes them (R418). -/
def crcBytes (g : CrcAlg) (v : Nat) : List Byte := if g.refout then natLe (g.w / 8) v else natBe (g.w / 8) v

/-- The place in the order of arrival of an engine's next beat. -/
def Die.nextBeat (d : Die) (e : DmaEng) : Nat :=
  1 + (((d.dmaRuns e).map (fun p => (p.2.beats.map (fun b => b.ord)).foldl max 0)).foldl max 0)

/-- The beats left once `n` bytes are written, oldest first. -/
def dropBeats (l : List Beat) (n : Nat) : List Beat :=
  match l with
  | [] => []
  | b :: r => if b.left ≤ n then dropBeats r (n - b.left) else { b with left := b.left - n } :: r

/-- One read beat of a channel: the bytes go into its buffer and its CRC unit; the last w/8 bytes under strip and check are the
received check value (R406, R418). -/
def Die.readBeat (d0 : Die) (e : DmaEng) (c : Nat) (r : DmaRun) : Die :=
  let d := if r.readsDram then d0.slotsSeen e 1 else d0
  let n := d.dmaChunk r
  let p := d.dmaRead r n
  match p.2 with
  | none => (p.1.stepFault).putRun e c { r with result := 3 }
  | some bs =>
    let u := dmaUnit e r
    let g := p.1.crcAlg u
    let body := if r.crcMode = 3 then min n (r.len - g.w / 8 - r.read) else n
    let real := bs.map (fun b => b.getD 0)
    let d1 := if r.crcMode = 0 then p.1 else p.1.crcFeed u (real.take body)
    let k := d.nextBeat e
    let r1 := { r with read := r.read + n, buffer := r.buffer ++ bs.take body, tail := r.tail ++ real.drop body,
                       poison := r.poison || bs.any Option.isNone,
                       beats := if body = 0 then r.beats else r.beats ++ [⟨body, r.readsDram, k⟩] }
    let r2 := if r1.crcMode = 2 && r1.readDone then
        { r1 with buffer := r1.buffer ++ (crcBytes g (d1.crcNow u)).map some, beats := r1.beats ++ [⟨g.w / 8, false, k⟩] }
      else r1
    (d1.putW (chBase e c + 0x2C) (w32 (r2.len - r2.read))).putRun e c r2

/-- A beat that its target refuses or fails ends the descriptor with ACCESS: what is still held is not written (R409). -/
def DmaRun.refused (r : DmaRun) : DmaRun := { r with buffer := [], beats := [], result := 3 }

/-- One write beat of a channel: up to the end of the destination's 128-byte line. Poisoned bytes become the poison pattern in
DRAM, and poisoned state in a full/empty region (R409). A partial sector that cannot be merged gives the error completion of R390, which
ends the descriptor as a refused beat does (DESIGN CHOICE, log entry 70). Bytes for a link leave as packets of the edge DMA (R60, R403). -/
def Die.writeBeat (d : Die) (e : DmaEng) (c : Nat) (r : DmaRun) : Die :=
  let a := r.dst + r.written
  let n := if bits r.ctrl 2 2 = 1 then min r.buffer.length 128 else min r.buffer.length (128 - a % 128)
  let bs := r.buffer.take n
  let r1 := { r with buffer := r.buffer.drop n, written := r.written + n, beats := dropBeats r.beats n }
  if bits r.ctrl 2 2 = 1 then
    (d.meshIn (d.newPkt (.edge 0 1) (linkUnit (bits r.dst 48 8)) 0 (bits r.ctrl 20 12) (bit r.ctrl 19) 0
      (bs.map (fun b => b.getD 0)))).putRun e c r1
  else if isDram a then
    let d1 := (d.slotsSeen e 1).putDram a (bs.map (fun b => some (b.getD 0)))
    let bad := (sectors a n).filter (fun x => (List.range n).any (fun i => (a + i) / 64 * 64 == x && (bs.getD i (some 0)).isNone))
    (bad.foldl (fun q x => q.setBad x) d1).putRun e c (if d.mergeFails a (bs.map (fun b => some (b.getD 0))) then r1.refused else r1)
  else
    match sramTile a with
    | none => d.putRun e c r.refused
    | some t =>
      let off := (a - tileAddr 0) % 0x1000000
      if d.packetOk t off n true then
        let d1 := (d.setBytes a (bs.map (fun b => b.getD 0))).sramUse t off n
        (match d.rgnHolding t off n rightPK with
         | some g => if d.rgnFE t g && bs.any Option.isNone then d1.taint t g else d1
         | none => d1).putRun e c r1
      else (d.packetFault t off).putRun e c r.refused

/-- The channel of a list with the highest PRIO, and among equals the first after `last` in channel order (R406, R407). -/
def Die.pickChannel (d : Die) (e : DmaEng) (cs : List Nat) (last : Nat) : Option Nat :=
  let top := (cs.map (fun c => d.get (chPrio e c))).foldl max 0
  let best := cs.filter (fun c => d.get (chPrio e c) == top)
  match best.find? (fun c => decide (last < c)) with
  | some c => some c
  | none => best.head?

/-- A channel that waits for a CRC unit now free binds it (R410). -/
def Die.bindWaiting (d : Die) (e : DmaEng) : Die :=
  (d.dmaRuns e).foldl (fun x p =>
    let u := dmaUnit e p.2
    if p.2.crcMode ≠ 0 ∧ p.2.bound = false ∧ p.2.result = 0 ∧ x.on (crcBoundF u) = false then
      let y := ((x.raise (crcBoundF u)).put (chState e p.1) 2).putRun e p.1 { p.2 with bound := true }
      if bit p.2.ctrl 9 then y else y.crcStart u
    else x) d

/-- Remembers the channel an engine served last. -/
def Die.turn (d : Die) (e : DmaEng) (c : Nat) : Die := { d with dmaTurn := keep d.dmaTurn (engKey e) c }

/-- The fetch of a channel's descriptor is made: it begins, or ends with DESC where it cannot be read (R409). -/
def Die.fetchNow (d0 : Die) (e : DmaEng) (c : Nat) (r : DmaRun) (a : Nat) : Die :=
  let d := if isDram a then d0.slotsSeen e 1 else d0
  let p := d.fetchDesc r.starter a
  match p.2 with
  | some x => p.1.dmaBegin e c x
  | none => (p.1.put (chState e c) 2).putRun e c { r with fetch := none, result := 6 }

/-- The fetches of an engine's channels are made, each once its target takes it and it finds its slot (R179, R392). -/
def Die.fetches (d : Die) (e : DmaEng) : Die :=
  (List.range (dmaChans e)).foldl (fun x c => match x.run e c with
    | some r => match r.fetch with
      | some a => if !x.held a && x.dmaSlotFree e (isDram a) then x.fetchNow e c r a else x
      | none => x
    | none => x) d

/-- A channel is ready (R407): it has bytes to read or to write, and neither its source nor its destination holds it back. -/
def Die.dmaReady (d : Die) (r : DmaRun) : Bool :=
  r.fetch.isNone && !r.finished && (r.crcMode == 0 || r.bound || decide (r.result ≠ 0)) && !d.srcHolds r && !d.dstHolds r

/-- The channel that an engine serves last before now. -/
def Die.lastServed (d : Die) (e : DmaEng) : Nat := (look d.dmaTurn (engKey e)).getD 0

/-- The channel that the next beat of pre-emptive mode goes to (R406, R407): the active one, until one of higher PRIO is ready or it
crosses a 4 KB boundary of its source with no whole line to write. -/
def Die.dmaPick (d : Die) (e : DmaEng) : Option Nat :=
  let last := d.lastServed e
  let cs := ((d.dmaRuns e).filter (fun p => d.dmaReady p.2)).map (·.1)
  let stays := cs.contains last && cs.all (fun c => decide (d.get (chPrio e c) ≤ d.get (chPrio e last))) &&
    (match d.run e last with | some r => decide ((r.src + r.read) % 4096 ≠ 0) || r.lineDone | none => false)
  if stays then some last else d.pickChannel e cs last

/-- A beat of pre-emptive mode: lines already read are written first. -/
def Die.preemptBeat (d : Die) (e : DmaEng) : Die :=
  match d.dmaPick e with
  | none => d
  | some c => match d.run e c with
    | none => d
    | some r =>
      if d.canWrite e r then (d.writeBeat e c r).turn e c
      else if d.canRead e r then (d.readBeat e c r).turn e c
      else d

/-- Of channels with a line to write, the one whose beat arrived first (R406). -/
def firstArrived (l : List (Nat × DmaRun)) : Option (Nat × DmaRun) :=
  let at_ (r : DmaRun) : Nat := match r.beats with | b :: _ => b.ord | [] => 0
  (l.filter (fun p => p.2.lineDone)).foldl (fun b p => match b with
    | none => some p
    | some q => if at_ p.2 < at_ q.2 then some p else some q) none

/-- The write engine of split mode: beats are written in the order of their arrival, so one that waits for its target keeps those behind
it. -/
def Die.splitWrite (d : Die) (e : DmaEng) : Die :=
  match firstArrived (d.dmaRuns e) with
  | some p => if d.canWrite e p.2 then d.writeBeat e p.1 p.2 else d
  | none => d

/-- The read engine of split mode. -/
def Die.splitRead (d : Die) (e : DmaEng) : Die :=
  match d.pickChannel e (((d.dmaRuns e).filter (fun p => d.canRead e p.2)).map (·.1)) (d.lastServed e) with
  | none => d
  | some c => match d.run e c with | some r => (d.readBeat e c r).turn e c | none => d

/-- One beat of an engine (R406, R407): waiting channels bind their units and make their fetches; then one beat of pre-emptive mode, or a
write beat and a read beat of split mode. -/
def Die.dmaBeat (d0 : Die) (e : DmaEng) : Die :=
  let d := (d0.bindWaiting e).fetches e
  if d.on (dmaModeF e) then (d.splitWrite e).splitRead e else d.preemptBeat e

/-- STATE of a channel as CH_STATUS shows it (R412): 3 also while another channel pre-empts it or a target holds it. -/
def Die.chShown (d : Die) (e : DmaEng) (c : Nat) : Nat :=
  let st := d.get (chState e c)
  match d.run e c with
  | none => st
  | some r =>
    if st ≠ 2 ∨ r.finished = true then st
    else if d.srcHolds r || d.dstHolds r || (!d.on (dmaModeF e) && d.dmaPick e != some c) then 3 else st

def execDmaBeat (eng : DmaEng) (s : State) : Host.Outcome State Fault Refusal :=
  mainCmd (fun d => d.dmaHas eng) (fun d => d.dmaBeat eng) s

/-! ### Completion -/

/-- The result of a finished descriptor (R409, R418). -/
def Die.dmaFinal (d : Die) (e : DmaEng) (r : DmaRun) : Nat :=
  if r.result ≠ 0 then r.result
  else if r.poison then 4
  else if r.crcMode = 3 ∧ r.tail ≠ crcBytes (d.crcAlg (dmaUnit e r)) (d.crcNow (dmaUnit e r)) then 5
  else 0

/-- The value CRC_LAST takes (R412): appended under mode 2, received under mode 3. -/
def Die.dmaCrcLast (d : Die) (e : DmaEng) (r : DmaRun) : Nat :=
  let g := d.crcAlg (dmaUnit e r)
  if r.crcMode = 2 then d.crcNow (dmaUnit e r) % 2 ^ g.w
  else if g.refout then leNat r.tail else leNat r.tail.reverse

/-- The completion event of a descriptor (R408). -/
def Die.dmaEvent (d : Die) (e : DmaEng) (c res tag : Nat) (starter : Agent) : Die :=
  match e with
  | .tile t => d.emit (.firmware 2 [t, c, tag, res])
  | .edge => match starter with
    | .session sl => d.event sl 2 (natLe 1 c ++ natLe 1 res ++ natLe 2 tag)
    | .j3 => d.bump (⟨Reg.HP_EVT_LOST, 0, 32⟩) 1
    | _ => d.emit (.firmware 2 [255, c, tag, res])

/-- The MARK request of a descriptor, sent whatever its result (R408): its destination region FULL, with the poison that has landed there,
and with poison after every result but OK. R409 says so for ACCESS, POISON and CRC; for the others it is the model's choice (DESIGN
CHOICE, log entry 72). -/
def Die.dmaMark (d : Die) (r : DmaRun) (res : Nat) : Die :=
  if bit r.ctrl 17 ∧ bits r.ctrl 2 2 = 0 then
    match sramTile r.dst with
    | none => d
    | some t =>
      match d.rgnHolding t ((r.dst - tileAddr 0) % 0x1000000) 1 rightPK with
      | some g => if d.rgnFE t g then d.mark t g true (decide (res ≠ 0) || d.isPoison t g) else d
      | none => d
  else d

/-- DMA_DESC_COMPLETE (R408, R409). -/
def Die.dmaComplete (d : Die) (e : DmaEng) (c : Nat) (r : DmaRun) : Die :=
  let res := d.dmaFinal e r
  let d1 := d.dmaMark r res
  let d2 := ((d1.put (⟨chBase e c + 0x34, 0, 32⟩) ((d1.getW (chBase e c + 0x34)).toNat + 1)).put (chResult e c) res)
  let d3 := if 2 ≤ r.crcMode ∧ r.bound ∧ (res = 0 ∨ res = 4 ∨ res = 5) then d2.putW (chBase e c + 0x30) (w32 (d2.dmaCrcLast e r)) else d2
  let d4 := if r.bound then d3.clear (crcBoundF (dmaUnit e r)) else d3
  let d5 := if bit r.ctrl 18 || decide (res ≠ 0) then d4.dmaEvent e c res r.tag r.starter else d4
  let d6 := if res = 0 then d5 else (d5.raise (dmaErrF e c)).record 0x0C 1 (dmaDom e) c [res, r.tag]
  let d7 := { d6 with dma := amErase d6.dma (chKey e c) }
  let stops := res = 1 ∨ res = 2 ∨ res = 3 ∨ res = 6
  if r.next % 2 ^ 48 = 0 ∨ stops then
    (((d7.put (chState e c) 0).clear (dmaActiveF e c)).clear (chStopF e c)).raise (dmaDoneF e c)
  else d7.dmaFetch e c r.starter r.next

def execDmaDescComplete (eng : DmaEng) (ch : Nat) (s : State) : Host.Outcome State Fault Refusal :=
  mainCmd (fun d => decide (ch < dmaChans eng) && (match d.run eng ch with | some r => r.finished | none => false))
    (fun d => match d.run eng ch with | some r => d.dmaComplete eng ch r | none => d) s

/-- CRC_BIND_TIMEOUT (R409): 1 ms in WAIT for a CRC unit ends the descriptor with BUSY. -/
def execCrcBindTimeout (eng : DmaEng) (ch : Nat) (s : State) : Host.Outcome State Fault Refusal :=
  mainCmd (fun d => decide (ch < dmaChans eng) && (match d.run eng ch with
      | some r => r.crcMode != 0 && !r.bound && r.result == 0 && d.on (crcBoundF (dmaUnit eng r))
      | none => false))
    (fun d => match d.run eng ch with | some r => d.putRun eng ch { r with result := 7 } | none => d) s

/-! ### Register writes -/

/-- DMA_CFG_WRITE (R410, R413). -/
def Die.dmaCfgWrite (d : Die) (ag : Agent) (e : DmaEng) (word : Nat) : Die :=
  if d.dmaHostBusy ag e 0 false || !(d.dmaRuns e).isEmpty then d.answer ag stBusy
  else d.plainWrite ag (dmaBase e) word (dmaDom e)

def execDmaCfgWrite (ag : Agent) (eng : DmaEng) (word : Nat) (s : State) : Host.Outcome State Fault Refusal :=
  dmaCmd ag eng 0 word true (fun d => d.dmaCfgWrite ag eng word) s

/-- DMA_DESC_REG_WRITE of the register at offset 4 `reg` of a channel: SRC_LO to NEXT_HI (0 to 7) or CH_CFG (9) (R410, R412). -/
def Die.dmaRegWrite (d : Die) (ag : Agent) (e : DmaEng) (c reg word : Nat) : Die :=
  if d.dmaHostBusy ag e c false || decide (d.get (chState e c) ≠ 0) then d.answer ag stBusy
  else d.plainWrite ag (chBase e c + 4 * reg) word (dmaDom e)

def execDmaDescRegWrite (ag : Agent) (eng : DmaEng) (ch reg word : Nat) (s : State) : Host.Outcome State Fault Refusal :=
  dmaCmd ag eng (0x100 + 0x40 * ch + 4 * reg) word (decide (ch < dmaChans eng) && (decide (reg < 8) || reg == 9))
    (fun d => d.dmaRegWrite ag eng ch reg word) s

/-! ### Threads as they show (R174, R203) -/

/-- The logical array of unit `i` of a STROKE descriptor (R194). -/
def strokeArray (c : Desc) (i : Nat) : Nat := bits (descP0 c) 8 8 + (if bit (descP0 c) 0 then bits (descP0 c) 1 4 * i else 0)

/-- The input register of the array that serves a logical array is free for a stroke (R97): the one latched before has issued. A logical
array that the map does not map has none to wait for. -/
def Die.inputFree (d : Die) (t l : Nat) : Bool :=
  match (if l < 256 then d.serving t l else none) with
  | none => true
  | some a => (d.arr t a).waiting.isEmpty

/-- State code of a thread from its oldest unfinished descriptor (R174): one that a buffer holds waits on it before it waits for lane
groups (R214), POST waits for room while the queue is full, STROKE for an input register
(R97, R194), and DMA_START for its channel (R410). -/
def Die.execState (d : Die) (t : Nat) (e : Exec) : Nat :=
  let op := descOp e.desc
  if e.waitLg then (if !e.ran && d.bufHeld t e.desc then 6 else 3)
  else if decide (0 < e.reqs) then 5
  else if e.ran then 4
  else if op = ocPost && decide (256 ≤ (d.tile t).pool.length) then 8
  else if d.bufHeld t e.desc || (op = ocCombine && !bit (descP0 e.desc) 2 && decide (e.recs.length < descCount e.desc)) then 6
  else if op = ocStroke && !d.inputFree t (strokeArray e.desc e.units) then 7
  else if op = ocDmaStart && decide (d.get (chState (.tile t) (descP0 e.desc)) ≠ 0) then 5
  else 4

/-- State code of a thread (R174). -/
def Die.threadState (d : Die) (t th : Nat) : Nat :=
  match d.threadClass t th, d.execsOf t th with
  | 0, [] => 0
  | _, e :: _ => d.execState t e
  | 1, [] => if (look (d.tile t).streams th).isSome then 2 else 1
  | 2, [] => if (d.tile t).pool.isEmpty then 1 else 2
  | _, [] => if (d.freshItems t).isEmpty then 1 else 2

/-- ENG_THREAD[th] as it reads (R203). -/
def Die.threadWord (d : Die) (t th : Nat) : Word :=
  let l := d.execsOf t th
  w32 ((match l with | e :: _ => descTag e.desc | [] => 0) * 2 ^ 16 + min l.length 8 * 2 ^ 8 + d.threadClass t th * 2 ^ 4 +
    d.threadState t th)

end Sys2Proof.Machine
end

