-- ==== Sys2Proof/Machine/Boot.lean ====
section
/-! DEFINITION. Bring-up: BOOT_CMD, images and their checks, the resume, failed starts (R502 to R515, R523, R524, R543, R544, R584). -/
namespace Sys2Proof.Machine

def Die.setStage (d : Die) (st : Nat) : Die := d.put Reg.BOOT_STAGE_STAGE st

/-- A refused BOOT_CMD (R503): REFUSED and record BOOT 1; nothing else changes. -/
def Die.bootRefuse (d : Die) (ag : Agent) (cmd : Nat) : Die :=
  (((d.raise Reg.BOOT_STAGE_REFUSED).record 0x03 1 99 0xFFFF [cmd, d.stage])).answer ag stOk

/-- The fields of BOOT_START that the non-volatile store holds, written there and in the register (R512, R513). -/
def Die.putStart (d : Die) (f : Nat → Nat) : Die := d.putNv Reg.BOOT_START (w32 (f (d.getW Reg.BOOT_START).toNat))

/-- The staging range of BOOT_FW_ADDR and BOOT_FW_LEN (R504). -/
def Die.stageAddr (d : Die) : Nat := (d.getW Reg.BOOT_FW_ADDR_LO).toNat + d.get Reg.BOOT_FW_ADDR_HI_ADDR * 2 ^ 32
def Die.stageLen (d : Die) : Nat := d.get Reg.BOOT_FW_LEN_LEN

/-- Every stack that holds a byte of a DRAM range accepts requests. -/
def Die.rangeUp (d : Die) (a n : Nat) : Bool :=
  (List.range ((a + n - 1) / 4096 - a / 4096 + 1)).all (fun i => d.stackUp (stackOf (a / 4096 * 4096 + 4096 * i)))

/-- The staging range keeps R504: 1,024 to 8,388,608 bytes wholly in the SRAM of one enabled tile or in general DRAM whose
stacks are TRAINED or READY. -/
def Die.stagingOk (d : Die) : Bool :=
  let a := d.stageAddr
  let n := d.stageLen
  decide (1024 ≤ n) && decide (n ≤ 8388608) &&
  ((isGeneral a && isGeneral (a + n - 1) && d.rangeUp a n) ||
   (match sramTile a with
    | some t => d.enabled t && (d.tile t).ready && sramTile (a + n - 1) == some t
    | none => false))

/-- A start becomes counted at the first VERIFY accepted after the release of the MODULE reset (R513), which also releases a
frozen strandline copy (R569). -/
def Die.countStart (d : Die) : Die :=
  if d.boot.counted then d
  else
    let f := d.get Reg.BOOT_START_FAILCNT
    let d1 := d.putStart (fun w => setBits (setBits w 0 2 (min 3 (f + 1))) 9 1 1)
    { d1 with boot := { d1.boot with counted := true, before := f } }.releaseCopy

/-- The source whose session an agent is (R542). -/
def Die.sourceOf (d : Die) (ag : Agent) : Option Source :=
  match ag with
  | .session s => (d.session s).map (·.src)
  | _ => none

/-- The code with which a VERIFY fails: LOCKED for every one while the security response holds the device locked (R504, R554). -/
def Die.verifyCode (d : Die) (code : Nat) : Nat := if d.secState = 0 then code else 10

/-- VERIFY (R503, R504, R513): the staged image is copied into the Lighthouse SRAM, where no image is verified from now on (R511); a bad
staging range fails at once. -/
def Die.bootVerify (d : Die) (ag : Agent) : Die :=
  if (d.stage = 1 ∨ d.stage = 3) ∧ d.boot.running = 0 then
    let d1 := (d.countStart.putW Reg.BOOT_FW_ID 0).answer ag stOk
    if d1.stagingOk then
      { d1.setStage 2 with boot := { d1.boot with
        running := 1, image := d1.bytesAt d1.stageAddr d1.stageLen, verifier := d1.sourceOf ag } }
    else ({ d1 with boot := { d1.boot with image := [] } }.stepFailed (d1.verifyCode 1)).setStage 1
  else d.bootRefuse ag 1

def execVerify (ag : Agent) (s : State) : Host.Outcome State Fault Refusal :=
  mainCmd (fun d => d.mayControl ag) (fun d => d.bootVerify ag) s

/-- Signature length of an XMSS_OID of R543: the identifiers NIST SP 800-208 gives SHAKE256 with 256 bits (PRESUMED, log entry 13). -/
def sigLen (oid : Nat) : Option Nat :=
  if oid = 0x10 then some 2500 else if oid = 0x11 then some 2692 else if oid = 0x12 then some 2820 else none

/-- The checks of R544 on an image with its signature, in order: the DETAIL code of the first that fails, or 0. -/
def Die.imageDetail (d : Die) (im : List Byte) : Nat :=
  let len := leAt im 8 4
  let root := leAt im 20 1
  let oid := leAt im 24 4
  let rsv := leAt im 21 3 ≠ 0 ∨ leAt im 28 4 ≠ 0
  if leAt im 0 4 ≠ 0x5746484B ∨ leAt im 4 2 ≠ 1 ∨ leAt im 6 2 ≠ 256 then 1
  else if rsv ∨ (match sigLen oid with | some n => decide (len + n ≠ im.length) | none => false) = true then 2
  else if sigLen oid = none then 3
  else if 3 < root ∨ bit (d.get Reg.SEC_ROOT_REVOKE_REVOKED) root then 4
  else if leAt im 16 4 < (d.getW Reg.SEC_SVN_MIN).toNat then 5
  else if !Config.xmssVerify root oid (im.take len) (im.drop len) then 7
  else if d.get Reg.SEC_STATUS_STATE ≠ 0 then 8
  else 0

/-- The failure code of R510 for a DETAIL code (R544). -/
def detailCode (x : Nat) : Nat := if x = 7 then 3 else if x = 8 then 10 else 2

/-- FW_VERIFY_DONE: VERIFIED, or MAPPED at once where the maps are applied already (R524, R584); else WAIT_FW with its code, and a signature
that fails raises the run of the source whose session wrote VERIFY (R542). -/
def Die.verifyDone (d : Die) : Die :=
  let x := d.imageDetail d.boot.image
  let d1 := { d.put Reg.SEC_VERIFY_DETAIL x with boot := { d.boot with running := 0, verifier := none } }
  if x = 0 then
    (d1.putW Reg.BOOT_FW_ID (w32 (leAt d.boot.image 12 4))).setStage (if d.boot.mapsApplied then 4 else 3)
  else
    let d2 := { d1 with boot := { d1.boot with image := [] } }
    let d3 := ((d2.putW Reg.BOOT_FW_ID 0).stepFailed (d.verifyCode (detailCode x))).setStage 1
    match d.boot.verifier with
    | some src => if detailCode x = 3 ∧ d.secState = 0 then d3.authFail src else d3
    | none => d3

def execFwVerifyDone (s : State) : Host.Outcome State Fault Refusal :=
  mainCmd (fun d => decide (d.stage = 2)) (fun d => d.verifyDone) s

/-! ### Maps -/

/-- The defect map applied to the arrays of tile `t` (R111, R506): each array it names becomes DISABLED. -/
def Die.applyDefects (d : Die) (t : Nat) : Die :=
  (d.nv.defectMap.filter (fun p => p.1 == t)).foldl (fun e p => e.put (Reg.ARR_STATE_STATE t p.2) 7) d

/-- The shadows of tile `t` once its defect map is applied (R273): the two highest-numbered arrays of its pool, which is every array
that the map does not name. -/
def Die.firstShadows (d : Die) (t : Nat) : Die :=
  let free := (List.range 272).filter (fun a => !d.nv.defectMap.contains (t, a))
  { d with upkeep := { d.upkeep with shadows := keep d.upkeep.shadows t (free.drop (free.length - 2)) } }

/-- The clock of an enabled tile starts; its SRAM is zeroed before it accepts an access (R183, R506). -/
def Die.startTile (d : Die) (t : Nat) : Die := ((d.applyDefects t).firstShadows t).modTile t (fun x => { x with ready := false })

/-- Both maps applied to every enabled tile (R506). -/
def Die.applyMaps (d : Die) : Die :=
  let d1 := d.enabledTiles.foldl (fun e t => e.startTile t) d
  { d1 with boot := { d1.boot with mapsApplied := true } }

/-- APPLY_MAPS (R503, R506): both stacks READY, or TRAINED after a CORE reset. -/
def Die.bootMaps (d : Die) (ag : Agent) : Die :=
  let stOk0 (k : Nat) : Bool := d.memState k == 4 || (d.boot.wasCore && d.memState k == 2)
  if d.stage = 3 ∧ d.boot.running = 0 ∧ stOk0 0 ∧ stOk0 1 then (d.applyMaps.setStage 4).answer ag stOk
  else d.bootRefuse ag 2

def execApplyMaps (ag : Agent) (s : State) : Host.Outcome State Fault Refusal :=
  mainCmd (fun d => d.mayControl ag) (fun d => d.bootMaps ag) s

/-! ### Firmware start -/

/-- The Lighthouse cores start and the microcode broadcast begins (R507). -/
def Die.startFirmware (d : Die) : Die :=
  let d1 := { d with boot := { d.boot with running := 3, micro := [], broadcast := true } }
  d1.enabledTiles.foldl (fun e t => e.modTile t (fun x => { x with microOk := false })) d1

/-- START (R507): the resume copy is written, then the cores start. -/
def Die.bootStart (d : Die) (ag : Agent) : Die :=
  if d.stage = 4 ∧ d.boot.running = 0 then
    let d1 := { d.putDram fwArea (d.boot.image.map some) with boot := { d.boot with resumeCopy := true } }
    (d1.startFirmware.setStage 5).answer ag stOk
  else d.bootRefuse ag 3

def execStart (ag : Agent) (s : State) : Host.Outcome State Fault Refusal :=
  mainCmd (fun d => d.mayControl ag) (fun d => d.bootStart ag) s

/-- The firmware is starting, by START or in a resume. -/
def Die.starting (d : Die) : Bool := d.boot.running == 3 && (d.stage == 5 || d.stage == 7)

/-- STAGE leaves RESUMING (R526). -/
def Die.leaveResuming (d : Die) (st : Nat) : Die := (d.clear Reg.RST_STATUS_COMPUTE).setStage st

/-- A failed firmware start halts the cores and returns STAGE to MAPPED (R507). -/
def Die.startFailed (d : Die) (code : Nat) : Die :=
  let d1 := (d.stepFailed code).leaveResuming 4
  { d1 with boot := { d1.boot with running := 0 } }

/-- MICROCODE_RECEIVE (R507): a tile accepts its copy, or asks for a second one; a second failure ends the broadcast. -/
def Die.microcode (d : Die) (t : Nat) (crcOk : Bool) : Die :=
  if crcOk then d.modTile t (fun x => { x with microOk := true })
  else if d.boot.micro.contains t then d.startFailed 6
  else { d with boot := { d.boot with micro := d.boot.micro ++ [t] } }

def execMicrocodeReceive (tile : Nat) (crcOk : Bool) (s : State) : Host.Outcome State Fault Refusal :=
  mainCmd (fun d => d.starting && d.enabled tile && !(d.tile tile).microOk) (fun d => d.microcode tile crcOk) s

/-- FW_READY (R507, R513, R546): STAGE RUNNING, the failed-start counter clears, the watchdog is armed, and the image that
reached RUNNING is recorded. -/
def Die.fwReady (d : Die) : Die :=
  let im := d.boot.image
  let d1 := (d.leaveResuming 6).putStart (fun w => setBits (setBits w 0 2 0) 9 1 0)
  { d1 with
    boot := { d1.boot with running := 0, watchdog := true },
    sec := { d1.sec with
      fwHash := (List.range 32).map (Config.shake256 (im.take (leAt im 8 4))),
      fwId := leAt im 12 4, fwSvn := leAt im 16 4, fwRoot := leAt im 20 1 } }

def execFwReady (s : State) : Host.Outcome State Fault Refusal :=
  mainCmd (fun d => d.starting && d.enabledTiles.all (fun t => (d.tile t).microOk)) (fun d => d.fwReady) s

/-- FW_INIT_TIMEOUT (R507): not ready within 1 s. -/
def execFwInitTimeout (s : State) : Host.Outcome State Fault Refusal :=
  mainCmd (fun d => d.starting) (fun d => d.startFailed 7) s

/-- BOOT_FAILCNT_CLEAR (R512, R515). -/
def Die.failcntClear (d : Die) (ag : Agent) : Die := (d.putStart (fun w => setBits w 0 2 0)).answer ag stOk

def execBootFailcntClear (ag : Agent) (s : State) : Host.Outcome State Fault Refusal :=
  mainCmd (fun d => d.mayControl ag) (fun d => d.failcntClear ag) s

/-! ### Resume (R523, R524, R584) -/

/-- RESUME_HOLD_END: the hold ends and the strandline copy is released; then the resume copy is verified, or WAIT_FW follows. -/
def Die.holdEnd (d : Die) : Die :=
  let d1 := { d.releaseCopy with boot := { d.boot with hold := false } }
  if d.get Reg.SEC_STATUS_STATE ≠ 0 then (d1.stepFailed 10).leaveResuming 1
  else if d.boot.trainFailed || !d.on Reg.RST_CFG_AUTO_RESUME || !d.boot.resumeCopy then d1.leaveResuming 1
  else { d1 with boot := { d1.boot with running := 4 } }

def execResumeHoldEnd (s : State) : Host.Outcome State Fault Refusal :=
  mainCmd (fun d => d.boot.hold && decide (d.stage = 7)) (fun d => d.holdEnd) s

/-- The resume copy with its signature, its length taken from its own header (R584). -/
def Die.resumeBytes (d : Die) : List Byte :=
  let n := d.leMem (fwArea + 8) 4 + (sigLen (d.leMem (fwArea + 24) 4)).getD 0
  d.bytesAt fwArea (if 256 ≤ n ∧ n ≤ 8388608 then n else 256)

/-- RESUME_COPY_VERIFIED (R523, R524). -/
def Die.resumeVerified (d : Die) : Die :=
  let im := d.resumeBytes
  let x := d.imageDetail im
  let d1 := d.put Reg.SEC_VERIFY_DETAIL x
  if x = 0 then
    ({ d1 with boot := { d1.boot with image := im } }.putW Reg.BOOT_FW_ID (w32 (leAt im 12 4))).startFirmware
  else
    let d2 := (d1.stepFailed 9).leaveResuming 1
    { d2 with boot := { d2.boot with running := 0 } }

def execResumeCopyVerified (s : State) : Host.Outcome State Fault Refusal :=
  mainCmd (fun d => decide (d.stage = 7) && d.boot.running == 4 && d.dramUp) (fun d => d.resumeVerified) s

/-! ### The release of a MODULE reset -/

/-- What the boot ROM does with the start before (R513): withdrawn after a latched power fault, else recorded as failed. -/
def Die.settleStart (d : Die) : Die :=
  let pend := d.on Reg.BOOT_START_PENDING
  let d1 :=
    if pend && d.on Reg.BOOT_START_PWR_FAULT then
      d.putStart (fun w => setBits (setBits w 0 2 d.boot.before) 9 1 0)
    else if pend then
      let log := (d.getW Reg.BOOT_FAILLOG).toNat
      (d.putStart (fun w => setBits (setBits w 16 8 d.boot.lastCode) 9 1 0)).putNv Reg.BOOT_FAILLOG
        (w32 (log % 65536 * 256 + d.boot.lastCode))
    else d
  { d1.clear Reg.BOOT_START_PWR_FAULT with boot := { d1.boot with counted := false, lastCode := 0 } }

/-- The boot ROM at the release of a MODULE reset (R513, R514, R553): an interrupted ERASE is finished, the start before is
settled, and FAILCNT decides between WAIT_FW and low-water mode. Where the non-volatile store cannot be read it stays in INIT (R510). -/
def Die.bootRom (d : Die) (nvOk : Bool) : Die :=
  if !nvOk then d.stepFailed 8
  else
  let d1 := if d.get Reg.SEC_STATUS_STATE = 2 then d.eraseKeys else d
  let d2 := d1.settleStart
  if d2.get Reg.BOOT_START_FAILCNT = 3 then (d2.setStage 8).raise Reg.BOOT_START_LW else d2.setStage 1

end Sys2Proof.Machine
end

