-- ==== Sys2Proof/Machine/Reset.lean ====
section
/-! DEFINITION. Reset domains and what each reset does (R516 to R522, R525 to R527), parking, and hangs (R528 to R535). -/
namespace Sys2Proof.Machine

/-! ### Arrays and tiles under a reset -/

/-- The manufactured level pair of a cell (R105): the fixed pattern of the reference columns, else none (log entry 18). -/
def cellDefault (ix : Nat) : Nat × Nat := if ix % 266 = 264 then (3, 0) else if ix % 266 = 265 then (3, 3) else (0, 0)

/-- A level somewhere between two levels. -/
def levelBetween (a b v : Nat) : Nat := min a b + v % (max a b - min a b + 1)

/-- The cells of an array after a reset (R111): each cell of an interrupted programming request lies anywhere between its old
and its new level (log entry 9). -/
def interruptCells (cells : List (Nat × (Nat × Nat))) (job : ArrJob) (ctr : Nat) : List (Nat × (Nat × Nat)) :=
  match job with
  | .program _ targets _ _ =>
    targets.foldl (fun m p =>
      let old := amGet (cellDefault p.1) m p.1
      amSet (cellDefault p.1) m p.1
        (levelBetween old.1 p.2.1 (Config.interruptedLevel ctr (p.1 / 266) (2 * (p.1 % 266))),
         levelBetween old.2 p.2.2 (Config.interruptedLevel ctr (p.1 / 266) (2 * (p.1 % 266) + 1)))) cells
  | _ => cells

/-- The cells that a programming request cut off has left anywhere (R111), beside those known to lie outside their windows. -/
def interruptLoose (loose : List Nat) (job : ArrJob) : List Nat :=
  match job with
  | .program _ targets _ _ => (targets.map (·.1)).foldl addOnce loose
  | _ => loose

/-- An array after a reset that covers its tile: conductances kept, everything else at its reset value. -/
def resetArray (x : Array1) (ctr : Nat) : Array1 :=
  { cells := interruptCells x.cells x.job ctr, verifiedAt := x.verifiedAt, epochs := x.epochs, loose := interruptLoose x.loose x.job }

/-- Every array whose tile `hit` picks is reset. -/
def Die.resetArrays (d : Die) (hit : Nat → Bool) : Die :=
  { d with
    arrays := d.arrays.filterMap (fun p =>
      if hit (p.1 / 272) then
        let y := resetArray p.2 d.freeCtr
        if y = {} then none else some (p.1, y)
      else some p),
    freeCtr := d.freeCtr + 1,
    mapPend := d.mapPend.filter (fun p => !hit (p.1 / 256)) }

/-- The tile whose router or injection queue holds a packet (R73). -/
def heldIn (p : Pkt) : Option Nat :=
  match p.place, p.src with
  | .injection, .tile n => some n
  | .buffer r _, _ => if r < 64 then some r else none
  | _, _ => none

/-- Packets that outlast a COMPUTE reset (R517): those between units that keep running. -/
def survivesCompute (p : Pkt) : Bool := !underCompute p.src && !underCompute p.dst

/-- What the firmware keeps of the arrays of the tiles `hit` picks is gone: their figures count from the last reset that covers the tile
(R288, R291), and the map, the pool and what waits on them begin anew (R269, R273, R283). -/
def Die.upkeepReset (d : Die) (hit : Nat → Bool) : Die :=
  let out (ix : Nat) : Bool := !hit (ix / 272)
  let u := d.upkeep
  { d with upkeep := { u with
    cal := u.cal.filter (fun p => out p.1), adjust := u.adjust.filter (fun p => out p.1), withheld := u.withheld.filter out,
    ranks := u.ranks.filter (fun r => out r.arr), toff := u.toff.filter (fun p => !hit p.1),
    figures := u.figures.filter (fun p => !hit p.1), shadows := u.shadows.filter (fun p => !hit p.1),
    due := u.due.filter (fun x => !hit x.tile), deferred := u.deferred.filter (fun p => !hit (p.1 / 256)),
    refreshes := u.refreshes.filter (fun x => !hit x.1), claims := u.claims.filter (fun c => !hit c.tile) } }

/-- The requests that the tiles `hit` picks still have in slots complete, and what reads return is discarded (R395). -/
def Die.finishReqs (d : Die) (hit : Nat → Bool) : Die :=
  ((List.range 64).filter hit).foldl (fun e t =>
    ((e.tile t).reqs.filter (fun r => r.issued)).foldl (fun x r => match r.write with
      | some bs => x.putDram r.addr (bs.map some)
      | none => x.readReport r.addr r.len) e) d

/-- The reset of the tiles `hit` picks: registers, engine, arrays, SRAM contents, DMA channels, and what their routers hold (R73,
R183, R411, R516). Parking ends with it (R521). -/
def Die.resetTiles (d : Die) (hit : Nat → Bool) : Die :=
  let inHit (a : Nat) : Bool := decide (tileAddr 0 ≤ a) && decide (a < tileAddr 64) && hit ((a - tileAddr 0) / 0x1000000)
  let d1 := ((((d.finishReqs hit).resetRegs inHit).resetArrays hit).upkeepReset hit).dropMem inHit
  let d2 := { d1 with
    tiles := ((List.range 64).filter (fun t => hit t && d.enabled t)).foldl (fun m t =>
      amSet {} m t { ready := false, bankSince := d1.clock.aging }) (d1.tiles.filter (fun p => !hit p.1)),
    dma := d1.dma.filter (fun p => decide (p.1 < 32) || !hit ((p.1 - 32) / 16)),
    dmaTurn := d1.dmaTurn.filter (fun p => decide (p.1 = 0) || !hit (p.1 - 1)),
    mesh := { d1.mesh with pkts := d1.mesh.pkts.filter (fun p => !(heldIn p).any hit) } }
  (List.range 64).foldl (fun e t =>
    if hit t then ((e.clear (bitOf Reg.RST_PARK t)).clear (bitOf Reg.RST_PARKED t)).clear (bitOf Reg.RST_PARK_DEFER t) else e) d2

/-- The maps are reapplied to the tiles `hit` picks (R506), and their shadows taken anew (R273). -/
def Die.reapply (d : Die) (hit : Nat → Bool) : Die :=
  ((List.range 64).filter hit).foldl (fun e t => (e.applyDefects t).firstShadows t) d

/-! ### COMPUTE and CORE -/

/-- Every mailbox that is not FREE goes to FREE, its contents are discarded, and each session that owned one gets a SESSION event
(R441). -/
def Die.boxesReset (d : Die) : Die :=
  let held := (List.range 64).filter (fun k => decide ((d.box k).state ≠ .free))
  let owners := (List.range 8).filter (fun o => held.any (fun k => d.boxOwner k == o))
  let d1 := held.foldl (fun e k => e.freeBox k) d
  (owners.foldl (fun e o => e.event o 7 (natLe 4 2)) d1).resetRegs (within 0x40000 0x48000)

/-- What the Lighthouse firmware held is lost, and every setting of a mailbox command is back at its default (R523, R260). -/
def Die.firmwareLost (d : Die) : Die :=
  let c := d.sense
  { d with
    relay := {}, serve := {}, tenancy := {}, upkeep := {},
    sec := { d.sec with attMin := 600 },
    sense := { c with
      cap := 700, floor := 0, guardStep := 16, sCap := 0, kCap := 0, period := 10, warn := 100, crit := 108, inWarn := false,
      thermStretch := 0, thermSkip := false, points := [], demand := 0, hourSum := 0, hourCount := 0 } }

/-- Packets in a link's receive buffer for a unit that the reset covers are answered with error completions (R455, R517). -/
def Die.failWaiting (d : Die) : Die :=
  (d.mesh.pkts.filter (fun p => !survivesCompute p && (List.range 6).any p.inRx)).foldl (fun e p =>
    match unitLink p.src with
    | some k => (e.freeHeld p).emit (.linkMsg k 1 [p.addr])
    | none => e) d

/-- What the assertion of a COMPUTE or CORE reset does to the parts that both cover (R183, R206, R239, R441, R517, R518, R523,
R569, R575); its fault stop has F_CAUSE 4 (R466, R467). -/
def Die.computeAssert (d : Die) : Die :=
  let d1 := (d.faultStop 4 d.coord).raise Reg.STL_STATUS_FROZEN
  let d2 := (d1.ptbReset.boxesReset.firmwareLost).failWaiting.resetTiles (fun _ => true)
  let d3 := d2.resetRegs (fun a => within 0x30000 0x40000 a || within 0xC0000 0xE0000 a)
  let d4 := { d3 with
    tide := {}, dma := [], dmaTurn := [], clock := { d3.clock with ptp := {} },
    mesh := { d3.mesh with pkts := d3.mesh.pkts.filter survivesCompute },
    boot := { d3.boot with
      running := 0, verifier := none, hangUnsent := false, image := [], micro := [], broadcast := false, watchdog := false, grace := false, hangOpen := false,
      hold := false, trainFailed := false } }
  d4.putW Reg.BOOT_FW_ID 0

/-- The assertion of a CORE reset beyond that (R395, R432, R516, R518, R520). -/
def Die.coreAssert (d : Die) : Die :=
  let were := (List.range 6).filter (fun k => d.on (Reg.LNK_CTRL_EN k))
  let d1 := d.computeAssert.endAll
  let d2 := ((List.range 6).foldl (fun e k => e.linkReset k) d1).monitorReset false
  let d3 := d2.resetRegs (fun a => within 0x100 0x200 a || within 0x8000 0x10000 a || within 0x18000 0x19000 a ||
    within 0x20810 0x20820 a || within 0x40000 0x60000 a || within 0x90000 0xA0000 a)
  { d3 with
    host := { nextId := d3.host.nextId, debugSeen := d3.host.debugSeen, nonces := d3.host.nonces }, mesh := {},
    clock := { d3.clock with synced := false, ptp := {} },
    stack0 := { spent := d3.stack0.spent }, stack1 := { spent := d3.stack1.spent },
    sec := { d3.sec with armed := d3.sec.armed, keyData := [] },
    sense := { d3.sense with cause := false, fired := false },
    boot := { d3.boot with linksWere := were } }

/-- Record RESET 2 and RST_STATUS.LAST at a release (R526, R571). -/
def Die.resetRecord (d : Die) (cause : Nat) : Die := (d.put Reg.RST_STATUS_LAST cause).record 0x04 2 99 0xFFFF [cause]

/-- Metering starts anew at the release of a reset that covers COMPUTE: RESET_TIME and the start of the window in progress (R377, R381). -/
def Die.meterRelease (d : Die) : Die := { d with tenancy := { resetTime := d.now, start := d.now } }

/-- The release of a COMPUTE or CORE reset (R506, R523, R584): RESUMING and the hold; low-water mode is not left (R515). -/
def Die.computeRelease (d : Die) (cause : Nat) (core : Bool) : Die :=
  let d1 := (d.reapply (fun t => d.enabled t)).resetRecord cause |>.meterRelease
  let hang := cause = 5 ∨ cause = 8
  let d2 : Die := { d1 with boot := { d1.boot with
    hangs := if hang then d1.boot.hangs ++ [(d1.now / 1000000000, cause)] else d1.boot.hangs,
    wasCore := core, mapsApplied := true } }
  if d2.lowWater then d2.clear Reg.RST_STATUS_COMPUTE
  else { (d2.setStage 7).raise Reg.RST_STATUS_COMPUTE with boot := { d2.boot with hold := true } }

/-- The release of a CORE reset beyond that (R422, R523, R551): the host port trains, and unless the device is locked both
stacks train and the links that were enabled retrain. -/
def Die.coreRelease (d : Die) (cause : Nat) : Die :=
  let d1 := d.computeRelease cause true
  let d2 : Die := { d1.put Reg.HP_STATUS_STATE 1 with sec := { d1.sec with respRunning := 0 } }
  if d2.get Reg.SEC_STATUS_STATE ≠ 0 ∨ d2.lowWater then d2
  else
    let d3 := (d2.startTrain 0).startTrain 1
    d3.boot.linksWere.foldl (fun e k => (e.raise (Reg.LNK_CTRL_EN k)).setLnk k 1) d3

/-! ### MODULE -/

/-- The assertion of a MODULE reset (R43, R395, R516, R569): everything but the strandline, the non-volatile store and what
MODULE resets keep returns to its reset value, and DRAM contents are lost. -/
def Die.moduleAssert (d : Die) (cause : Nat) : Die :=
  let d1 := d.raise Reg.STL_STATUS_FROZEN
  let d2 := (((d1.resetRegs (fun a => !within 0xA0000 0xB0000 a)).resetArrays (fun _ => true)).dropMem (fun a => !isDram a))
  let d3 := (d2.loseStack 0).loseStack 1
  { d3 with
    clock := { aging := d3.clock.aging, offs := d3.clock.offs + 1 }, injectors := [], host := {}, sec := { extLow := d3.sec.extLow }, mesh := {}, tiles := [], tide := {}, relay := {}, mapPend := [],
    upkeep := {}, serve := {}, tenancy := {}, stack0 := { spent := d3.stack0.spent }, stack1 := { spent := d3.stack1.spent },
    dma := [], dmaTurn := [], links := [], sliceMask := 0, sense := {},
    boot := { counted := d3.boot.counted, before := d3.boot.before, lastCode := d3.boot.lastCode },
    strand := { d3.strand with ringLive := false },
    mgmt := { d3.mgmt with dieReset := true, ready := false, tripLow := false, cause := cause } }

/-- The release of a MODULE reset (R26, R46, R422, R513, R526): REFCLK is measured, the host port starts training, and the boot
ROM settles the start before. -/
def Die.moduleRelease (d : Die) (found : AtRelease) : Die :=
  let d1 := { d.meterRelease with
    mgmt := { d.mgmt with dieReset := false, refIn := found.refIn },
    sense := { d.sense with calV := d.nv.scalV, calI := d.nv.scalI },
    tiles := d.enabledTiles.foldl (fun m t => amSet {} m t { ready := false }) d.tiles }
  let d2 := (d1.put Reg.GLB_CLK_STATUS_REF_PRESENT (b2n found.refIn)).put Reg.GLB_CLK_STATUS_REF_SEL (b2n found.refIn)
  ((d2.put Reg.HP_STATUS_STATE 1).resetRecord d.mgmt.cause).bootRom found.nvOk

/-! ### Requests -/

/-- RST_CTRL, RST_TILE and RST_STATUS show the resets in progress (R525 to R527). -/
def Die.syncResets (d : Die) : Die :=
  let rs := d.boot.resets
  let reg (dom cause : Nat) : Bool := rs.any (fun r => r.dom == dom && r.cause == cause)
  let w := b2n (reg 0 3) * 2 ^ 31 + b2n (reg 1 4) * 2 ^ 30 + b2n (reg 2 7) * 2 ^ 29 + b2n (reg 3 11) * 2 ^ 28 +
    b2n (reg 4 12) * 2 ^ 27 + ((List.range 6).map (fun k => b2n (reg (5 + k) 10) * 2 ^ k)).sum
  let d1 := d.putW Reg.RST_CTRL (w32 w)
  let tl (h : Nat) : Nat := ((List.range 32).map (fun i => b2n (reg (16 + 32 * h + i) 9) * 2 ^ i)).sum
  let d2 := (d1.putW (Reg.RST_TILE 0) (w32 (tl 0))).putW (Reg.RST_TILE 1) (w32 (tl 1))
  ((d2.put Reg.RST_STATUS_TILE_LINK (b2n (rs.any (fun r => decide (5 ≤ r.dom))))).put Reg.RST_STATUS_MONITOR
    (b2n (rs.any (fun r => r.dom == 4)))).put Reg.RST_STATUS_HOSTPORT (b2n (rs.any (fun r => r.dom == 3)))

/-- A reset asked for by register. -/
def Die.askReset (d : Die) (ag : Agent) (dom cause : Nat) : Die := ((d.requestReset dom cause).syncResets).answer ag stOk

def execResetModuleReq (ag : Agent) (s : State) : Host.Outcome State Fault Refusal :=
  mainCmd (fun d => d.mayWrite ag) (fun d => d.askReset ag 0 3) s

def execResetCoreReq (ag : Agent) (s : State) : Host.Outcome State Fault Refusal :=
  mainCmd (fun d => d.mayWrite ag) (fun d => d.askReset ag 1 4) s

def execResetComputeReq (ag : Agent) (s : State) : Host.Outcome State Fault Refusal :=
  mainCmd (fun d => d.mayWrite ag) (fun d => d.askReset ag 2 7) s

def execResetHostportReq (ag : Agent) (s : State) : Host.Outcome State Fault Refusal :=
  mainCmd (fun d => d.mayWrite ag) (fun d => d.askReset ag 3 11) s

def execResetMonitorReq (ag : Agent) (s : State) : Host.Outcome State Fault Refusal :=
  mainCmd (fun d => d.mayWrite ag) (fun d => d.askReset ag 4 12) s

def execResetLinkReq (ag : Agent) (link : Nat) (s : State) : Host.Outcome State Fault Refusal :=
  mainCmd (fun d => d.mayWrite ag && decide (link < 6)) (fun d => d.askReset ag (5 + link) 10) s

/-- TILE_RESET (R518, R527): refused as busy with record RESET 3 while a table runs; ignored for a disabled tile. -/
def Die.tileReset (d : Die) (ag : Agent) (t : Nat) : Die :=
  if !d.enabled t then d.answer ag stOk
  else if d.armed then (d.record 0x04 3 t 0xFFFF [t]).answer ag stBusy
  else d.askReset ag (16 + t) 9

def execTileReset (ag : Agent) (tile : Nat) (s : State) : Host.Outcome State Fault Refusal :=
  mainCmd (fun d => d.mayControl ag && decide (tile < 64)) (fun d => d.tileReset ag tile) s

/-! ### Assertion and release -/

/-- A LINK_k reset first stops the link (R459, R516). -/
def Die.stopLinkForReset (d : Die) (k : Nat) : Die :=
  d.linkStop k 6

/-- The reset of the host port (R432, R516, R528): sessions end and the block's registers return to their reset values. -/
def Die.hostPortReset (d : Die) : Die :=
  let d1 := d.endAll.resetRegs (within 0x50000 0x60000)
  { d1 with host := {
    boxes := d1.host.boxes, doorbells := d1.host.doorbells, nextId := d1.host.nextId, debugSeen := d1.host.debugSeen,
    nonces := d1.host.nonces } }

/-- What the assertion of a reset does. -/
def Die.assertReset (d : Die) (r : ResetRun) : Die :=
  match r.dom with
  | 0 => d.moduleAssert r.cause
  | 1 => d.coreAssert.bump (⟨Reg.RST_CORE_CNT, 0, 32⟩) 1
  | 2 => ((d.computeAssert).raise Reg.RST_STATUS_COMPUTE).bump (⟨Reg.RST_COMPUTE_CNT, 0, 32⟩) 1
  | 3 => d.hostPortReset
  | 4 => d.monitorReset true
  | n => if n < 16 then d.stopLinkForReset (n - 5)
         else (d.resetTiles (fun t => t == n - 16)).reapply (fun t => t == n - 16 && d.enabled t)

/-- The first reset asked for and not yet asserted becomes asserted. -/
def markAsserted (rs : List ResetRun) : List ResetRun :=
  match rs with
  | [] => []
  | r :: t => if r.asserted then r :: markAsserted t else { r with asserted := true } :: t

/-- RESET_ASSERT (R517): after quiesce and 10 µs, the oldest reset asked for is asserted. -/
def Die.resetAssert (d : Die) : Die :=
  match d.boot.resets.find? (fun r => !r.asserted) with
  | none => d
  | some r =>
    let d1 := { d with boot := { d.boot with resets := markAsserted d.boot.resets } }
    if r.dom = 0 then d1.assertReset r else (d1.assertReset r).syncResets

def execResetAssert (s : State) : Host.Outcome State Fault Refusal :=
  mainCmd (fun d => d.boot.resets.any (fun r => !r.asserted)) (fun d => d.resetAssert) s

/-- What the release of a reset does (R516). -/
def Die.releaseReset (d : Die) (r : ResetRun) : Die :=
  match r.dom with
  | 0 => d
  | 1 => d.coreRelease r.cause
  | 2 => d.computeRelease r.cause false
  | 3 => (d.put Reg.HP_STATUS_STATE 1).resetRecord r.cause
  | 4 => d.resetRecord r.cause
  | n => if n < 16 then (d.linkReset (n - 5)).resetRecord r.cause else d.resetRecord r.cause

/-- A reset whose duration is over: asserted, and for a link no longer STOPPING. -/
def Die.releasable (d : Die) (r : ResetRun) : Bool :=
  r.asserted && decide (r.dom ≠ 0) && !(decide (5 ≤ r.dom) && decide (r.dom < 16) && d.lnkState (r.dom - 5) == 6)

/-- RESET_RELEASE (R516): the oldest reset whose duration is over is released. -/
def Die.resetRelease (d : Die) : Die :=
  match d.boot.resets.find? (fun r => d.releasable r) with
  | none => d
  | some r =>
    let d1 := { d with boot := { d.boot with resets := d.boot.resets.filter (fun x => decide (x.dom ≠ r.dom)) } }
    (d1.releaseReset r).syncResets

def execResetRelease (s : State) : Host.Outcome State Fault Refusal :=
  mainCmd (fun d => d.boot.resets.any (fun r => d.releasable r)) (fun d => d.resetRelease) s

/-! ### Parking (R521, R522) -/

/-- TILE_PARK: ENABLE clears, the tile's DMA channels stop, and the park runs; refused as busy while a table runs. -/
def Die.tilePark (d : Die) (ag : Agent) (t : Nat) : Die :=
  if !d.enabled t then d.answer ag stOk
  else if d.armed then d.answer ag stBusy
  else
    let d1 := (d.raise (bitOf Reg.RST_PARK t)).clear (bitOf Reg.RST_PARK_DEFER t)
    if (d1.tile t).parked then d1.answer ag stOk
    else
      let d2 := (d1.clear (Reg.ENG_CTRL_ENABLE t)).modTile t (fun x => { x with
        parking := true, unparkDue := false, stopping := x.dispatching, enableDeferred := false })
      ((List.range 16).foldl (fun e c => e.stopChannel (.tile t) c) d2).answer ag stOk

def execTilePark (ag : Agent) (tile : Nat) (s : State) : Host.Outcome State Fault Refusal :=
  mainCmd (fun d => d.mayControl ag && decide (tile < 64)) (fun d => d.tilePark ag tile) s

/-- TILE_UNPARK: the clock is ungated, or the unpark waits for the end of a park. -/
def Die.tileUnpark (d : Die) (ag : Agent) (t : Nat) : Die :=
  if !d.enabled t then d.answer ag stOk
  else
    let d1 := (d.clear (bitOf Reg.RST_PARK t)).answer ag stOk
    if (d1.tile t).parking then
      (d1.raise (bitOf Reg.RST_PARK_DEFER t)).modTile t (fun x => { x with unparkDue := true })
    else (d1.clear (bitOf Reg.RST_PARKED t)).modTile t (fun x => { x with parked := false })

def execTileUnpark (ag : Agent) (tile : Nat) (s : State) : Host.Outcome State Fault Refusal :=
  mainCmd (fun d => d.mayControl ag && decide (tile < 64)) (fun d => d.tileUnpark ag tile) s

/-- No array of a tile has a programming, verify or calibration request running. -/
def Die.jobsDone (d : Die) (t : Nat) : Bool :=
  d.arrays.all (fun p => decide (p.1 / 272 ≠ t) || (match p.2.job with | .none => true | _ => false))

/-- PARK_COMPLETE: the tile clock is gated, and ungated again at once where an unpark waits. -/
def Die.parkComplete (d : Die) (t : Nat) : Die :=
  if (d.tile t).unparkDue then
    (d.clear (bitOf Reg.RST_PARK_DEFER t)).modTile t (fun x => { x with parking := false, parked := false, unparkDue := false })
  else (d.raise (bitOf Reg.RST_PARKED t)).modTile t (fun x => { x with parking := false, parked := true })

def execParkComplete (tile : Nat) (s : State) : Host.Outcome State Fault Refusal :=
  mainCmd (fun d => d.enabled tile && (d.tile tile).parking && !(d.tile tile).dispatching && !(d.tile tile).stopping && d.jobsDone tile && (d.dmaRuns (.tile tile)).isEmpty)
    (fun d => d.parkComplete tile) s

/-! ### Hangs -/

/-- Detection of causes 1, 2 and 5 is suspended (R528). -/
def Die.hangSuspended (d : Die) : Bool :=
  d.on Reg.THM_TRIP_TRIP || (match d.tide.unmetCause with
    | some c => c == 9 || c == 10 || c == 12 || c == 13
    | none => false)

/-- Some thread of a tile is neither IDLE nor OFF (R528). -/
def Die.anyBusy (d : Die) (t : Nat) : Bool := (List.range 64).any (fun i => decide (2 ≤ d.threadState t i))

/-- What can be checked of a hang condition besides its duration W (R528). -/
def Die.hangPossible (d : Die) (cause unit : Nat) : Bool :=
  match cause with
  | 1 => d.armed && d.enabled unit && d.on (Reg.ENG_CTRL_ENABLE unit) && d.anyBusy unit && !d.hangSuspended
  | 2 => d.armed && d.enabled unit && d.on (Reg.ENG_CTRL_ENABLE unit) && d.anyBusy unit && !d.hangSuspended &&
      (!d.dramUp || (List.range 64).any (fun i => d.threadState unit i == 5))
  | 3 => decide (unit < 6) && d.linkUp unit && !(d.link unit).retry.isEmpty
  | 4 => d.boot.watchdog && d.fwRuns
  | 5 => d.on Reg.TIDE_STATUS_HOLD && !d.hangSuspended
  | _ => false

/-- Contexts berthed in the steps in flight: (context, tenant, berth). -/
def Die.inFlight (d : Die) : List (Nat × Nat × Nat) :=
  (d.serve.steps.map (fun x => x.berths.map (fun b => (b.ctx, b.tenant, b.berth)))).flatten

/-- The suspects of a hang (R530, R318). -/
def Die.suspects (d : Die) (cause unit : Nat) : List (Nat × Nat × Nat) :=
  if cause = 1 ∨ cause = 2 then
    let tags := (d.tile unit).execs.map (fun x => descTag x.desc)
    if tags.any (fun g => decide (g / 32 = 0x7FF)) then d.inFlight
    else d.inFlight.filter (fun p => tags.any (fun g => g / 32 == p.2.2))
  else d.inFlight

/-- A hang report (R530), with the readings held until its own conversions give theirs. -/
def Die.hangReport (d : Die) (cause unit : Nat) : List Byte :=
  let sus := d.suspects cause unit
  natLe 8 d.nv.serial ++ natLe 1 cause ++ natLe 1 unit ++ zeros 2 ++ natLe 8 d.tideNum ++
  natLe 4 (d.get Reg.TIDE_POS_STEP) ++ natLe 2 (d.get Reg.TIDE_POS_POS) ++ natLe 2 d.diode ++ natLe 2 d.vCore ++ zeros 2 ++
  natLe 8 (d.now / 1000000000) ++ natLe 4 (d.now % 1000000000) ++ natLe 4 sus.length ++ zeros 16 ++
  (sus.map (fun p => natLe 4 p.1 ++ natLe 2 p.2.1 ++ natLe 2 p.2.2)).flatten

/-- A hang is detected (R529, R530); injected conversions are asked for, whose readings complete its report as R320 requires. -/
def Die.hang (d : Die) (cause unit : Nat) : Die :=
  if d.boot.hangOpen then d.raise Reg.RST_HANG_STATUS_MULTI
  else
    let rep := if cause = 4 ∨ !d.fwRuns then d.boot.reports else (d.hangReport cause unit :: d.boot.reports).take 16
    let d1 := (d.putW Reg.RST_HANG_STATUS (w32 (2 ^ 31 + cause % 8 * 2 ^ 24 + unit % 64))).put64 (Reg.RST_HANG_TIDE 0) d.tideNum
    let d2 := if cause ≤ 2 then
        (List.range 64).foldl (fun e i => e.putW (Reg.RST_HANG_THREAD i) (d.threadWord unit i)) d1
      else d1
    let d3 := ((d2.bump (⟨Reg.RST_HANG_CNT, 0, 32⟩) 1).record 0x04 1 99 unit [cause, unit, 0]).alert alHang
    let made := decide (cause ≠ 4) && d.fwRuns && d.canMeasure
    let d4 := { d3 with boot := { d3.boot with hangOpen := true, grace := true, reports := rep, hangUnsent := made } }
    if made then d4.trigger 2 else d4

def execHangDetect (cause unit : Nat) (s : State) : Host.Outcome State Fault Refusal :=
  mainCmd (fun d => d.hangPossible cause unit) (fun d => d.hang cause unit) s

/-- LH_WATCHDOG_EXPIRY: cause 4 (R528, R529). -/
def execLhWatchdogExpiry (s : State) : Host.Outcome State Fault Refusal :=
  mainCmd (fun d => d.hangPossible 4 0) (fun d => d.hang 4 0) s

/-- LH_KICK: the watchdog counts from zero again; its time runs outside the state, so only the write's answer shows (R534). -/
def execLhKick (ag : Agent) (s : State) : Host.Outcome State Fault Refusal :=
  mainCmd (fun d => d.mayControl ag) (fun d => d.answer ag stOk) s

/-- Whether a hang's reset with the given cause was released within RECUR minutes (R531). -/
def Die.recent (d : Die) (cause : Nat) : Bool :=
  let r := d.get Reg.RST_HANG_CFG_RECUR
  d.boot.hangs.any (fun p => p.2 == cause && decide (d.now / 1000000000 ≤ p.1 + 60 * r) && decide (r ≠ 0))

/-- The action at the end of GRACE (R531): 1 COMPUTE, 2 CORE, 3 HOST. -/
def Die.hangAction (d : Die) : Nat :=
  let c := d.get Reg.RST_HANG_STATUS_CAUSE
  if !d.on Reg.RST_HANG_CFG_AUTO || d.recent 5 then 3
  else if c = 2 ∨ c = 3 then 2
  else if d.recent 8 then (if d.on Reg.RST_HANG_CFG_REPLAY && (c == 1 || c == 5) then 1 else 2)
  else 1

/-- HANG_GRACE_EXPIRY (R531): the COMPUTE reset of a module that hangs with its links up, whose assertion (`Die.computeAssert`) is the fault
stop with F_CAUSE 4 of R467. -/
def Die.graceEnd (d : Die) : Die :=
  let a := d.hangAction
  let d1 := { d.put Reg.RST_HANG_STATUS_ACTION a with boot := { d.boot with grace := false } }
  if a = 1 then (d1.requestReset 2 8).syncResets else if a = 2 then (d1.requestReset 1 5).syncResets else d1

def execHangGraceExpiry (s : State) : Host.Outcome State Fault Refusal :=
  mainCmd (fun d => d.boot.grace) (fun d => d.graceEnd) s

/-- REPLAY_TIMEOUT (R532). -/
def execReplayTimeout (s : State) : Host.Outcome State Fault Refusal :=
  mainCmd (fun d => d.on Reg.RST_HANG_CFG_REPLAY) (fun d => d.clear Reg.RST_HANG_CFG_REPLAY) s

/-- HANG_STATUS_CLEAR (R533). -/
def Die.hangClear (d : Die) (ag : Agent) : Die :=
  let d1 := (d.putW Reg.RST_HANG_STATUS 0).put64 (Reg.RST_HANG_TIDE 0) 0
  { d1 with boot := { d1.boot with hangOpen := false } }.answer ag stOk

def execHangStatusClear (ag : Agent) (s : State) : Host.Outcome State Fault Refusal :=
  mainCmd (fun d => d.mayControl ag) (fun d => d.hangClear ag) s

/-- HANG_REPORT (R535). -/
def execHangReport (box idx : Nat) (s : State) : Host.Outcome State Fault Refusal :=
  fwCmd box (fun d => match d.boot.reports[idx]? with
    | some r => d.replyOut box rcOk (r.take 224) r
    | none => d.reply box rcNoRecord []) s

end Sys2Proof.Machine
end

