-- ==== Sys2Proof/Machine/Power.lean ====
section
/-! DEFINITION. The carrier: input, hot-swap switch, rail sequencer, latched faults, MOD_RESET_N and the other discrete signals
of J3 (R22 to R29, R32, R42 to R47). -/
namespace Sys2Proof.Machine

/-- A command to the carrier: its effect where its conditions hold, and no effect otherwise (log entry 20). -/
def carCmd (ok : State → Bool) (f : State → State) (s : State) : Host.Outcome State Fault Refusal :=
  .next (if ok s then f s else s)

/-- The input lies between the undervoltage and the overvoltage level. -/
def Carrier.inRange (c : Carrier) : Bool := !c.uvlo && !c.ovlo

/-- PWR_GOOD (R43): the sequencer is ON and every main rail is inside its window. -/
def Carrier.pwrGood (c : Carrier) : Bool := c.seq == .on && c.railsUp == 10

/-- STATE codes of R29. -/
def seqCode (q : SeqState) : Nat :=
  match q with
  | .off => 0 | .standby => 1 | .debounce => 2 | .charging => 3 | .sequencing => 4 | .on => 5 | .shuttingDown => 6 | .fault => 7

/-- The word PWR_SEQ_STATUS reads (R29). -/
def Carrier.word (c : Carrier) : Nat :=
  b2n c.offHold * 2 ^ 31 + c.faultRail * 2 ^ 12 + c.faultCause * 2 ^ 8 + seqCode c.seq * 2 ^ 4 + b2n c.uvlo * 8 + b2n c.ovlo * 4 +
  b2n c.latched * 2 + b2n c.pwrGood

/-- A latched fault (R28, R29): causes 1 to 5 replace cause 6 or 7, and one already latched stays. -/
def Carrier.latch (c : Carrier) (cause rail : Nat) : Carrier :=
  if c.latched then c else { c with latched := true, faultCause := cause, faultRail := rail }

/-- Cause 6 or 7, recorded while no fault is latched (R29). -/
def Carrier.note (c : Carrier) (cause : Nat) : Carrier :=
  if c.latched then c else { c with faultCause := cause, faultRail := 0 }

/-- Main power is lost to the die (R23, R395): MODULE reset, and power-on is the cause of the next release. -/
def Die.powerLost (d : Die) : Die :=
  let e := d.moduleAssert 1
  { e with mgmt := { e.mgmt with powered := false } }

/-- PWR_GOOD falls where it was high. -/
def State.dropDie (s : State) : State := if s.die.mgmt.powered then { s with die := s.die.powerLost } else s

/-- The sequencer enters FAULT (R28, R512): the always-on domain records it. -/
def State.enterFault (s : State) : State :=
  { s with carrier := { s.carrier with seq := .fault }, die := s.die.raise Reg.BOOT_START_PWR_FAULT }

/-- The main rails are taken down in reverse order (R23, R28); a rail that is still starting goes down with them. -/
def State.shutDown (s : State) (toFault : Bool) : State :=
  let t := s.dropDie
  { t with carrier := { t.carrier with seq := .shuttingDown, toFault := toFault } }

/-- The input is being charged, the rails are coming up, or the module is on. -/
def Carrier.running (c : Carrier) : Bool := c.seq == .charging || c.seq == .sequencing || c.seq == .on

/-! ### Standby power and the input -/

/-- Everything without the non-volatile store is lost with standby power (R22, R28, R565, R568, R574). -/
def Die.standbyLost (d : Die) : Die :=
  let e := (d.moduleAssert 1).resetRegs (within 0xA0000 0xB0000)
  { e.clear Reg.BOOT_START_PWR_FAULT with strand := {}, mgmt := {} }

/-- STANDBY_POWER_UP: the input rises above 20.0 V (R22, R28, R29). -/
def execStandbyPowerUp (s : State) : Host.Outcome State Fault Refusal :=
  carCmd (fun t => !t.carrier.standby) (fun t => { t with carrier := {} }) s

/-- STANDBY_POWER_LOSS: the input falls below 18.0 V (R22, R28). -/
def execStandbyPowerLoss (s : State) : Host.Outcome State Fault Refusal :=
  carCmd (fun t => t.carrier.standby)
    (fun t => { t with carrier := { standby := false, seq := .off }, die := t.die.standbyLost }) s

/-- MANAGEMENT_ALIVE: 5 ms after the input exceeds 20.0 V (R26). -/
def execManagementAlive (s : State) : Host.Outcome State Fault Refusal :=
  carCmd (fun t => t.carrier.standby && !t.die.mgmt.alive)
    (fun t => { t with die := { t.die with mgmt := { t.die.mgmt with alive := true, mode := .undecided, dynAddr := none } } }) s

/-- The sequencer is held in STANDBY: by OFF_REQ, or by an assertion of MOD_RESET_N not yet released. -/
def Carrier.held (c : Carrier) : Bool := c.offHold || c.abortHold

/-- INPUT_IN_RANGE (R23, R26): the 50 ms debounce starts. -/
def Carrier.inputIn (c : Carrier) : Carrier :=
  { c with uvlo := false, ovlo := false, debounced := false,
           seq := if c.seq == .standby && !c.held then .debounce else c.seq }

def execInputInRange (s : State) : Host.Outcome State Fault Refusal :=
  carCmd (fun t => t.carrier.standby && !t.carrier.inRange) (fun t => { t with carrier := t.carrier.inputIn }) s

/-- INPUT_OUT_OF_RANGE (R23, R29): a debounce ends; a running module shuts down with cause 6 or 7. -/
def State.inputOut (s : State) (high : Bool) : State :=
  let c := { s.carrier with uvlo := !high, ovlo := high, debounced := false }
  if c.running then
    { s with carrier := c.note (if high then 7 else 6) }.shutDown false
  else { s with carrier := { c with seq := if c.seq == .debounce then .standby else c.seq } }

def execInputOutOfRange (high : Bool) (s : State) : Host.Outcome State Fault Refusal :=
  carCmd (fun t => t.carrier.standby) (fun t => t.inputOut high) s

/-- DEBOUNCE_EXPIRY: the input has stayed in range for 50 ms (R23, R26). -/
def Carrier.debounceEnd (c : Carrier) : Carrier :=
  { c with debounced := true, seq := if c.seq == .debounce && c.offTimeMet then .charging else c.seq }

def execDebounceExpiry (s : State) : Host.Outcome State Fault Refusal :=
  carCmd (fun t => t.carrier.standby && t.carrier.inRange && !t.carrier.debounced)
    (fun t => { t with carrier := t.carrier.debounceEnd }) s

/-- OFF_TIME_EXPIRY: 10 ms of main-rail off time (R23, R25). -/
def Carrier.offTimeEnd (c : Carrier) : Carrier :=
  { c with offTimeMet := true, seq := if c.seq == .debounce && c.debounced then .charging else c.seq }

def execOffTimeExpiry (s : State) : Host.Outcome State Fault Refusal :=
  carCmd (fun t => t.carrier.standby && !t.carrier.offTimeMet && t.carrier.railsUp == 0 && t.carrier.seq != .shuttingDown)
    (fun t => { t with carrier := t.carrier.offTimeEnd }) s

/-! ### Power-up and shutdown -/

/-- HOT_SWAP_ON: the bulk capacitance is charged and the switch fully on; rail 0 starts (R26). -/
def execHotSwapOn (s : State) : Host.Outcome State Fault Refusal :=
  carCmd (fun t => t.carrier.seq == .charging)
    (fun t => { t with carrier := { t.carrier with seq := .sequencing, switchOn := true, starting := some 0 } }) s

/-- RAIL_GOOD: the rail being started is in its window; after rail 9, PWR_GOOD rises (R26, R43). -/
def State.railGood (s : State) (r : Nat) : State :=
  let c := { s.carrier with railsUp := r + 1 }
  if r + 1 = 10 then
    { s with carrier := { c with seq := .on, starting := none },
             die := { s.die with mgmt := { s.die.mgmt with powered := true } } }
  else { s with carrier := { c with starting := some (r + 1) } }

def execRailGood (s : State) : Host.Outcome State Fault Refusal :=
  carCmd (fun t => t.carrier.seq == .sequencing && t.carrier.starting.isSome)
    (fun t => t.railGood (t.carrier.starting.getD 0)) s

/-- RAIL_START_TIMEOUT: FAULT_CAUSE 1 (R28). -/
def execRailStartTimeout (s : State) : Host.Outcome State Fault Refusal :=
  carCmd (fun t => t.carrier.seq == .sequencing && t.carrier.starting.isSome)
    (fun t => { t with carrier := t.carrier.latch 1 (t.carrier.starting.getD 0) }.shutDown true) s

/-- Whether a rail can leave its window (R28): over at any moment from its start onward, a shutdown included; under once it has
entered, during the rest of the power-up and in service. -/
def Carrier.railLive (c : Carrier) (rail : Nat) (high : Bool) : Bool :=
  (decide (rail < c.railsUp) && (c.seq == .sequencing || c.seq == .on || (high && c.seq == .shuttingDown))) ||
  (high && (c.seq == .sequencing || c.seq == .shuttingDown) && c.starting == some rail)

/-- RAIL_FAULT: FAULT_CAUSE 2 or 3 (R28). -/
def execRailFault (rail : Nat) (high : Bool) (s : State) : Host.Outcome State Fault Refusal :=
  carCmd (fun t => t.carrier.railLive rail high)
    (fun t => { t with carrier := t.carrier.latch (if high then 3 else 2) rail }.shutDown true) s

/-- Whether current can flow through the hot-swap switch: it charges the input or is on, or a shutdown has not yet opened it. The spec
does not say when an ordinary shutdown opens the switch: a shutdown from SEQUENCING or ON keeps it on until every rail is off, and one
from CHARGING, where it is not fully on yet, counts as open at once (DESIGN CHOICE, log entry 69). -/
def Carrier.conducts (c : Carrier) : Bool := c.running || (c.seq == .shuttingDown && c.switchOn)

/-- INPUT_OVERCURRENT: the hot-swap switch opens with FAULT_CAUSE 4 (R32). -/
def execInputOvercurrent (s : State) : Host.Outcome State Fault Refusal :=
  carCmd (fun t => t.carrier.conducts)
    (fun t => { t with carrier := { t.carrier.latch 4 0 with switchOn := false } }.shutDown true) s

/-- The sequencer rests after a latched fault (R28): in FAULT, or, under the OFF_REQ hold, which only a MOD_RESET_N pulse or loss
of standby power ends (R29), in STANDBY with the fault recorded (DEDUCED, log entry 51). An aborted power-up is no longer held. -/
def State.restFault (s : State) : State :=
  let t := { s with carrier := { s.carrier with abortHold := false } }.enterFault
  if s.carrier.offHold then { t with carrier := { t.carrier with seq := .standby } } else t

/-- LID_OVERTEMP: FAULT_CAUSE 5 (R28); FAULT at once where no rail is up. -/
def State.lidFault (s : State) : State :=
  let t := { s with carrier := s.carrier.latch 5 0 }
  if s.carrier.running || s.carrier.seq == .shuttingDown then t.shutDown true else t.restFault

def execLidOvertemp (s : State) : Host.Outcome State Fault Refusal :=
  carCmd (fun t => t.carrier.standby) (fun t => t.lidFault) s

/-- RAILS_OFF: every main rail is off (R23, R25, R28, R29, R43), and the switch is open (log entry 69). -/
def State.railsOff (s : State) : State :=
  let c := { s.carrier with railsUp := 0, starting := none, switchOn := false, offTimeMet := false, toFault := false, pendingStart := false }
  if s.carrier.toFault then { s with carrier := c }.restFault
  else if c.held || !c.inRange then { s with carrier := { c with seq := .standby } }
  else { s with carrier := { c with seq := if s.carrier.pendingStart && c.debounced then .charging else .debounce } }

def execRailsOff (s : State) : Host.Outcome State Fault Refusal :=
  carCmd (fun t => t.carrier.seq == .shuttingDown) (fun t => t.railsOff) s

/-! ### PWR_SEQ_STATUS -/

/-- Management answers on J3 (R26, R43): alive, and not between an assertion of MOD_RESET_N or RST_CTRL.MODULE with the rails
up and the moment the registers answer. -/
def Die.mgmtReach (d : Die) : Bool := d.mgmt.alive && (d.mgmt.ready || !d.mgmt.powered || d.mgmt.cause == 1)

/-- Who can write PWR_SEQ_STATUS now (R27, R29). -/
def State.seqReach (s : State) (ag : Agent) : Bool :=
  match ag with
  | .j3 => s.die.mgmtReach
  | _ => s.die.live && s.die.mgmt.ready && s.die.mayControl ag

/-- OFF_REQ written 1 (R28, R29). -/
def State.offReq (s : State) : State :=
  let c := { s.carrier with offHold := true, abortHold := false, pendingStart := false }
  let t := { s with carrier := c }
  if c.running then t.shutDown false
  else if c.seq == .shuttingDown then t
  else { t with carrier := { c with seq := .standby } }

/-- FAULT_LATCHED written 1: the bit, the cause and the rail clear (R29). -/
def Carrier.clearLatched (c : Carrier) : Carrier := { c with latched := false, faultCause := 0, faultRail := 0 }

/-- What a write of PWR_SEQ_STATUS does (R29). -/
def State.seqStore (s : State) (word : Nat) : State :=
  let t := if bit word 1 then { s with carrier := s.carrier.clearLatched } else s
  if bit word 31 then t.offReq else t

/-- A write of PWR_SEQ_STATUS, answered. -/
def State.seqWrite (s : State) (ag : Agent) (word : Nat) : State :=
  let u := s.seqStore word
  { u with die := u.die.answer ag stOk }

def execOffReq (ag : Agent) (s : State) : Host.Outcome State Fault Refusal :=
  carCmd (fun t => t.carrier.standby && t.seqReach ag) (fun t => t.seqWrite ag 0x80000000) s

def execFaultLatchedClear (ag : Agent) (s : State) : Host.Outcome State Fault Refusal :=
  carCmd (fun t => t.carrier.standby && t.seqReach ag) (fun t => t.seqWrite ag 2) s

/-! ### MOD_RESET_N and the MODULE reset -/

/-- MOD_RESET_N low for 10 µs (R43, R44): a MODULE reset with the rails left up, or the abort of a power-up. The management
target's mode is decided anew (R42), and the model also drops a dynamic address, of which the spec says nothing (DESIGN CHOICE,
log entry 52). -/
def State.modResetAssert (s : State) : State :=
  let d := { s.die with mgmt := { s.die.mgmt with mode := .undecided, dynAddr := none } }
  let t := { s with carrier := { s.carrier with resetLow := true }, die := d }
  match s.carrier.seq with
  | .on => { t with die := d.moduleAssert 2 }
  | .debounce => { t with carrier := { t.carrier with seq := .standby, abortHold := true } }
  | .charging => { t with carrier := { t.carrier with abortHold := true } }.shutDown false
  | .sequencing => { t with carrier := { t.carrier with abortHold := true } }.shutDown false
  | _ => t

def execModResetAssert (s : State) : Host.Outcome State Fault Refusal :=
  carCmd (fun t => t.carrier.standby && !t.carrier.resetLow) (fun t => t.modResetAssert) s

/-- MOD_RESET_N released (R28, R29, R43, R44): it ends FAULT and the holds and starts a new power-up, whose charge begins at
once where the input has already stayed in range for 50 ms. -/
def Carrier.resetReleased (c : Carrier) : Carrier :=
  let wants := c.held || c.seq == .fault
  let r := { c with resetLow := false, offHold := false, abortHold := false }
  if !wants then r
  else if c.seq == .shuttingDown then { r with pendingStart := true }
  else { r with seq := if !c.inRange then .standby else if c.debounced then .charging else .debounce }

def execModResetRelease (s : State) : Host.Outcome State Fault Refusal :=
  carCmd (fun t => t.carrier.standby && t.carrier.resetLow) (fun t => { t with carrier := t.carrier.resetReleased }) s

/-- MODULE_RESET_RELEASE: 1 ms after PWR_GOOD, the release of the pin, or the end of the register's assertion (R26, R43, R516);
`found` is what the boot ROM finds then (R46, R510). -/
def execModuleResetRelease (found : AtRelease) (s : State) : Host.Outcome State Fault Refusal :=
  carCmd (fun t => t.carrier.pwrGood && t.die.mgmt.powered && t.die.mgmt.dieReset && !t.carrier.resetLow)
    (fun t => { t with die := t.die.moduleRelease found }) s

/-- REGISTERS_READY: all global registers are reachable (R26, R508). -/
def execRegistersReady (s : State) : Host.Outcome State Fault Refusal :=
  mainCmd (fun d => !d.mgmt.ready) (fun d => { d with mgmt := { d.mgmt with ready := true } }) s

/-! ### Reference clock, alarm pin, bus addresses -/

/-- REF_LOST (R46, R47): the selected REFCLK stopped or left its window. -/
def Die.refLost (d : Die) : Die :=
  let e := { d with mgmt := { d.mgmt with refIn := false } }
  (((e.clear Reg.GLB_CLK_STATUS_REF_SEL).clear Reg.GLB_CLK_STATUS_REF_PRESENT).raise Reg.GLB_CLK_STATUS_REF_LOST).record
    0x01 8 99 0xFFFF []

def execRefLost (s : State) : Host.Outcome State Fault Refusal :=
  mainCmd (fun d => d.on Reg.GLB_CLK_STATUS_REF_SEL) (fun d => d.refLost) s

/-- REFCLK_PRESENCE_CHANGE (R46, R47): a clock appears in the window or leaves it; the selection holds until the next MODULE
reset unless the selected clock is lost. -/
def execRefclkPresenceChange (present : Bool) (s : State) : Host.Outcome State Fault Refusal :=
  mainCmd (fun d => d.mgmt.refIn != present)
    (fun d => if !present && d.on Reg.GLB_CLK_STATUS_REF_SEL then d.refLost
      else { d with mgmt := { d.mgmt with refIn := present } }.put Reg.GLB_CLK_STATUS_REF_PRESENT (b2n present)) s

/-- SEC_ALARM_N_ASSERT: low for 1 µs (R43, R549, R554): one latch per falling edge, in a die that is powered and out of reset. -/
def execSecAlarmNAssert (s : State) : Host.Outcome State Fault Refusal :=
  dieCmd (fun d => !d.sec.extLow)
    (fun d =>
      let e := { d with sec := { d.sec with extLow := true } }
      if e.live then e.raiseAlarm 4 else e) s

/-- SEC_ALARM_N_RELEASE (R554). -/
def execSecAlarmNRelease (s : State) : Host.Outcome State Fault Refusal :=
  dieCmd (fun d => d.sec.extLow) (fun d => { d with sec := { d.sec with extLow := false } }) s

/-- A dynamic address is assigned on the I3C bus (R42). -/
def Die.setDyn (d : Die) (a : Nat) : Die := { d with mgmt := { d.mgmt with mode := .i3c, dynAddr := some a } }

/-- ENTDAA (R42): the module sends the provisioned identifier that its serial number gives it, and takes the address (log entry
52). -/
def execEntdaa (dynAddr : Nat) (s : State) : Host.Outcome State Fault Refusal :=
  dieCmd (fun d => d.mgmtReach && d.mgmt.mode != .i2c && d.mgmt.dynAddr.isNone && decide (dynAddr < 128))
    (fun d => (d.setDyn dynAddr).emit (.provisioned (Config.provisionedId d.nv.serial))) s

/-- SETDASA with the static address 0x4C (R42); a module that has an address takes the new one (DESIGN CHOICE, log entry 52). -/
def execSetdasa (dynAddr : Nat) (s : State) : Host.Outcome State Fault Refusal :=
  dieCmd (fun d => d.mgmtReach && d.mgmt.mode != .i2c && decide (dynAddr < 128)) (fun d => d.setDyn dynAddr) s

end Sys2Proof.Machine
end

