-- ==== Sys2Proof/Machine/HostPort.lean ====
section
/-! DEFINITION. The host port and YCT (R420 to R448, R540 to R542, R555): frames and their checks, small network protocols,
sessions, bulk windows, events and mailboxes. -/
namespace Sys2Proof.Machine

/-- HOST_PORT_TRAINED (R422): what waited to be sent leaves. -/
def execHostPortTrained (s : State) : Host.Outcome State Fault Refusal :=
  mainCmd (fun d => d.get Reg.HP_STATUS_STATE == 1) (fun d => (d.put Reg.HP_STATUS_STATE 2).txServe) s

/-- HP_RETRAIN: training starts again, frames in flight are lost, sessions stay (R422, R445). -/
def Die.hpRetrain (d : Die) : Die :=
  { d.put Reg.HP_STATUS_STATE 1 with host := { d.host with rxQueue := [], pfcSent := [], txPaused := [], txWait := [] } }

def execHpRetrain (ag : Agent) (s : State) : Host.Outcome State Fault Refusal :=
  mainCmd (fun d => d.mayControl ag) (fun d => d.hpRetrain.answer ag stOk) s

/-- HOST_PORT_LINK_FAULT (R445). -/
def execHostPortLinkFault (localFault remoteFault : Bool) (s : State) : Host.Outcome State Fault Refusal :=
  mainCmd (fun _ => true)
    (fun d => (d.put Reg.HP_STATUS_LOCAL_FAULT (b2n localFault)).put Reg.HP_STATUS_REMOTE_FAULT (b2n remoteFault)) s

/-! ### Receive buffers and PFC (R425) -/

/-- Bytes in the receive buffer of a priority. -/
def Die.fill (d : Die) (p : Nat) : Nat := ((d.host.rxQueue.filter (fun q => q.1 == p)).map (fun q => q.2.2)).sum
def Die.pauseOut (d : Die) (p : Nat) : Bool := amGet false d.host.pfcSent p
def Die.setPause (d : Die) (p : Nat) (b : Bool) : Die := { d with host := { d.host with pfcSent := amSet false d.host.pfcSent p b } }

/-- A PFC frame for a priority; no pause holds it back. -/
def Die.sendPfc (d : Die) (p quanta : Nat) : Die := d.sendNow (.frame 3 {} none (natLe 1 p ++ natLe 2 quanta))

/-- A frame of `len` bytes with a message of `n` enters the buffer of its priority; at 192 KB a pause goes out. -/
def Die.bufferFrame (d : Die) (p n len : Nat) : Die :=
  let d1 := { d with host := { d.host with rxQueue := d.host.rxQueue ++ [(p, n, len)] } }
  if bit (d.get Reg.HP_PFC_TX_EN) p && !d.pauseOut p && decide (196608 ≤ d1.fill p) then (d1.setPause p true).sendPfc p 0xFFFF
  else d1

/-- The port handles a message of `n` bytes: its frame, the first of such length, leaves its buffer (log entry 21), and below 64 KB a pause
ends. -/
def Die.drain (d : Die) (n : Nat) : Die :=
  match d.host.rxQueue.find? (fun q => q.2.1 == n) with
  | none => d
  | some q =>
    let d1 := { d with host := { d.host with rxQueue := dropPick (fun x => x.2.1 == n) d.host.rxQueue } }
    if d1.pauseOut q.1 && decide (d1.fill q.1 < 65536) then (d1.setPause q.1 false).sendPfc q.1 0 else d1

/-- Reference cycles that a pause of `quanta` lasts: 512 bit times of 1.6 Tb/s each (PRESUMED, log entry 77: IEEE 802.1Qbb). -/
def pauseCycles (quanta : Nat) : Nat := (quanta * 128 + 99) / 100

/-- PFC_RECEIVE: honoured where RX_EN allows it; a quanta of 0 ends the pause. -/
def Die.pfcIn (d : Die) (prio quanta : Nat) : Die :=
  ({ d with host := { d.host with
    txPaused := amSet 0 d.host.txPaused prio (if quanta = 0 then 0 else d.clock.aging + pauseCycles quanta) } }).txServe

def execPfcReceive (prio quanta : Nat) (s : State) : Host.Outcome State Fault Refusal :=
  mainCmd (fun d => decide (prio < 8) && bit (d.get Reg.HP_PFC_RX_EN) prio) (fun d => d.pfcIn prio quanta) s

/-- PFC_REPEAT: every 100 µs while the buffer stays above 64 KB. -/
def execPfcRepeat (prio : Nat) (s : State) : Host.Outcome State Fault Refusal :=
  mainCmd (fun d => decide (prio < 8) && d.pauseOut prio && decide (65536 < d.fill prio)) (fun d => d.sendPfc prio 0xFFFF) s

/-! ### Authentication runs (R542) -/

/-- A message dropped at check 5 of R429. -/
def Die.dropAuth (d : Die) (s : Source) : Die := (d.bump (⟨Reg.HP_AUTH_FAIL, 0, 32⟩) 1).authFail s

/-- A tagged message from a source with a run above 0 is accepted. -/
def Die.authPass (d : Die) (s : Source) : Die := if d.authRun s = 0 then d else d.setRun s 0

/-! ### Frames (R421, R424, R427, R429) -/

/-- A frame's tag is one the port accepts (R424): none, or one C-tag. -/
def Die.tagOk (d : Die) (tags : List VlanTag) : Bool :=
  let vid := d.get Reg.HP_VLAN_VID
  let req := d.on Reg.HP_VLAN_TAG_REQ
  match tags with
  | [] => !req
  | [x] => !x.sTag && (if x.vid = 0 then vid = 0 && !req else x.vid = vid)
  | _ => false

/-- The priority of a received frame (R424). -/
def framePrio (f : Frame) : Nat := match f.tags with | x :: _ => x.pcp % 8 | [] => 0

/-- The IPv6 link-local address: modified EUI-64 of the MAC address (R423). -/
def linkLocal (mac : Nat) : Nat :=
  0xFE80 * 2 ^ 112 + ((mac / 2 ^ 24) ^^^ 0x020000) * 2 ^ 40 + 0xFFFE * 2 ^ 24 + mac % 2 ^ 24

/-- The global IPv6 address of HP_IPV6. -/
def Die.ipv6 (d : Die) : Nat := (List.range 4).foldl (fun n w => n * 2 ^ 32 + (d.getW (Reg.HP_IPV6 w)).toNat) 0

/-- Whether the port answers at an IPv6 or IPv4 address. -/
def Die.ownV6 (d : Die) (a : Nat) : Bool := a == linkLocal d.nv.mac || (d.on Reg.HP_CTRL_IPV6_EN && a == d.ipv6)
def Die.ownV4 (d : Die) (a : Nat) : Bool := d.on Reg.HP_CTRL_IPV4_EN && a == (d.getW Reg.HP_IPV4).toNat

/-- IPv6 and IPv4 multicast addresses that the port takes: solicited-node, and those of PTP (R420; which they are is PRESUMED, log entry 77). -/
def mcastV6 (a : Nat) : Bool := a / 2 ^ 24 == 0xFF0200000000000000000001FF || a % 2 ^ 112 == 0x181
def mcastV4 (a : Nat) : Bool := a == 0xE0000181

/-- A UDP datagram to a PTP port. -/
def frameIsPtp (f : Frame) : Bool := f.etherType == 0x88F7 || (f.proto == 17 && (f.dstPort == 319 || f.dstPort == 320))

/-- The table of R420 excludes an IP packet: a fragment, IPv4 options or extension headers, a multicast address it does not name, a protocol
beside UDP and ICMP, DHCP or RDMA. -/
def ipExcluded (f : Frame) (v6 : Bool) : Bool :=
  f.fragment || f.options ||
    (if v6 then f.dst / 2 ^ 120 == 0xFF && !mcastV6 f.dst else f.dst / 2 ^ 28 == 0xE && !mcastV4 f.dst) ||
    !(f.proto == 17 || f.proto == (if v6 then 58 else 1)) ||
    (f.proto == 17 && [67, 68, 546, 547, 4791].contains f.dstPort)

/-- The table of R420 excludes a frame: it supports ARP, PTP, PFC, IPv4 and IPv6 with what it says of them, and nothing else (log entry 77). -/
def frameExcluded (f : Frame) : Bool :=
  decide (1 < f.tags.length) || f.tags.any (fun x => x.sTag) ||
  match f.etherType with
  | 0x0800 => ipExcluded f false
  | 0x86DD => ipExcluded f true
  | 0x0806 => false
  | 0x88F7 => false
  | 0x8808 => leAt f.data 0 2 != 0x0101
  | _ => true

/-- A frame carries a UDP datagram that is not PTP's. -/
def frameIsUdp (f : Frame) : Bool := (f.etherType == 0x0800 || f.etherType == 0x86DD) && f.proto == 17 && !frameIsPtp f

/-- Check 1 of R429: the headers are sound, the datagram is for an address and the YCT port of this module (R423, R427). -/
def Die.netOk (d : Die) (f : Frame) : Bool :=
  f.headersOk && (if f.etherType = 0x86DD then d.ownV6 f.dst else d.ownV4 f.dst) && f.dstPort == d.get Reg.HP_YCT_PORT_PORT

/-- A frame dropped under R421 and R424. -/
def Die.dropsL2 (d : Die) (f : Frame) : Bool :=
  decide (f.uncorrected ≠ 0) || !f.fcsOk || decide (f.len < 64) || decide (9216 < f.len) || !d.tagOk f.tags || frameExcluded f

/-- The opcodes that a host sends (R428). -/
def hostOpcodes : List Nat := [0x01, 0x02, 0x03, 0x10, 0x11, 0x20, 0x21, 0x22, 0x30, 0x50]

/-- The open session with an identifier. -/
def Die.sessionById (d : Die) (id : Nat) : Option (Nat × Session) := d.host.sessions.find? (fun p => p.2.id == id)

/-- The version the last HELLO of a source chose. -/
def Die.chosenVersion (d : Die) (s : Source) : Nat := ((d.host.versions.find? (fun p => p.1 == s)).map (·.2)).getD 1

/-- Checks 2 to 5 of R429 on a datagram: 0 passes, 2 dropped as RX_DROP_YCT, 5 dropped as AUTH_FAIL. -/
def Die.yctCheck (d : Die) (f : Frame) : Nat :=
  let bs := f.data
  let n := leAt bs 16 4
  let op := leAt bs 6 1
  let ver := leAt bs 4 1
  let body := bs.take (32 + n)
  let tag := bs.drop (32 + n)
  if leAt bs 0 4 ≠ 0x4359484B ∨ bs.length ≠ 48 + n ∨ 9040 < n then 2
  else if op = 1 then (if ver = 1 then 0 else 2)
  else if op = 2 then
    if ver ≠ d.chosenVersion f.src then 2
    else
      let k := leAt bs 64 1
      if k < 8 ∧ d.on (Reg.SEC_SLOT_ACTIVE k) ∧ tag = kmac (d.keyOf k) body (ascii "KH880 YCT OPEN") 16 then 0 else 5
  else match d.sessionById (leAt bs 8 4) with
    | none => 2
    | some p => if ver ≠ p.2.version then 2
                else if tag = kmac p.2.key body (ascii "KH880 YCT H2D") 16 then 0 else 5

/-! ### Responses and requests -/

/-- A response to a session request: sent, and kept among the last 256 unless it answers BULK_DATA (R427, R431). -/
def Die.respond (d : Die) (slot opcode status reqSeq : Nat) (payload : List Byte) : Die :=
  match d.session slot with
  | none => d
  | some x =>
    let r : Resp := { opcode := opcode, status := status, reqSeq := reqSeq, payload := payload }
    d.sayTo slot { x with cache := if opcode = 0x21 then x.cache else (r :: x.cache).take 256 } 1 opcode status reqSeq payload

/-- A response that is sent only where `say` asks for it: STREAM_IN has one only with ACK_REQ (R428). -/
def Die.respondIf (d : Die) (say : Bool) (slot opcode status reqSeq : Nat) (payload : List Byte) : Die :=
  if say then d.respond slot opcode status reqSeq payload else d

/-- A host SEQ is accepted (R431). -/
def seqOk (x : Session) (seq : Nat) : Bool :=
  decide (x.hiSeq < seq) || (decide (x.hiSeq ≤ seq + 1024) && decide (0 < seq) && !x.seen.contains seq)

/-- An accepted SEQ is noted. -/
def noteSeq (x : Session) (seq : Nat) : Session :=
  let hi := max x.hiSeq seq
  { x with hiSeq := hi, seen := (seq :: x.seen).filter (fun n => decide (hi ≤ n + 1024)) }

/-- The port serves only HELLO, OPEN, CLOSE, REG_READ and REG_WRITE (R437, R514, R551). -/
def Die.portLow (d : Die) : Bool := d.lowWater || decide (d.get Reg.SEC_STATUS_STATE ≠ 0)

/-- A session message that passed checks 1 to 5: its SEQ, whether the session's SEQ space is used up, then opcode and roles, then length (R429 to
R431). The session where the request is to be carried out; none where it has been answered, or dropped. A response already kept is sent again under
a SEQ of its own, since the device's SEQ increases. -/
def Die.yctGate (d : Die) (m : MsgHead) (opcode role : Nat) (lenOk say : Bool) : Die × Option Session :=
  match d.session m.slot with
  | none => (d, none)
  | some x =>
    if seqOk x m.seq then
      let d1 := (d.putSession m.slot (noteSeq x m.seq)).authPass x.src
      let no (st : Nat) : Die × Option Session := (d1.respondIf say m.slot opcode st m.seq [], none)
      if 0xFFFFFF00 ≤ max x.hiSeq m.seq then no stSeqEnd
      else if !hostOpcodes.contains opcode then no stOpcode
      else if d1.portLow && decide (0x20 ≤ opcode) then no stLowWater
      else if role < 4 ∧ bit x.roles role = false then no stRole
      else if !lenOk then no stLength
      else (d1, some (noteSeq x m.seq))
    else match x.cache.find? (fun r => r.reqSeq == m.seq) with
      | some r => ((d.bump (⟨Reg.HP_RESENT, 0, 32⟩) 1).sayTo m.slot x 3 r.opcode r.status r.reqSeq r.payload, none)
      | none => (d.bump (⟨Reg.HP_REPLAY, 0, 32⟩) 1, none)

/-- A request leaves its receive buffer and passes the gate. -/
def Die.requestGate (d : Die) (m : MsgHead) (opcode role : Nat) (lenOk : Bool) (say : Bool := true) : Die × Option Session :=
  (d.drain (m.len + 48)).yctGate m opcode role lenOk say

/-- Such a request, carried out by `f`. -/
def Die.request (d : Die) (m : MsgHead) (opcode role : Nat) (lenOk : Bool) (f : Die → Session → Die) (say : Bool := true) : Die :=
  let p := d.requestGate m opcode role lenOk say
  match p.2 with
  | some x => f p.1 x
  | none => p.1

/-- A request reaches a port that is UP, from an open session. -/
def Die.canRequest (d : Die) (m : MsgHead) : Bool := d.portUp && (d.session m.slot).isSome

/-! ### FRAME_RECEIVE -/

/-- A message that passed the checks up to the tag waits in the buffer of its priority for its command, which stands for the rest; one whose opcode
is reserved or the device's own has none, and is answered here with OPCODE (R428 to R430). -/
def Die.yctIn (d : Die) (f : Frame) : Die :=
  let op := leAt f.data 6 1
  if hostOpcodes.contains op then d.bufferFrame (framePrio f) f.data.length f.len
  else match d.sessionById (leAt f.data 8 4) with
    | none => d
    | some p => (d.yctGate { slot := p.1, seq := leAt f.data 12 4, len := leAt f.data 16 4 } op 9 true true).1

/-- FRAME_RECEIVE: the link, network and YCT checks up to the tag, each with its counter (R421, R424, R425, R429, R448). -/
def Die.frameReceive (d : Die) (f : Frame) : Die :=
  let d1 := (d.bump (⟨Reg.HP_FEC_CORR, 0, 32⟩) f.corrected).bump (⟨Reg.HP_FEC_UNCORR, 0, 32⟩) f.uncorrected
  let d2 := if f.fcsOk && f.uncorrected == 0 then d1.bump (⟨Reg.HP_RX_FRAMES, 0, 32⟩) 1 else d1
  if d.dropsL2 f then d2.bump (⟨Reg.HP_RX_DROP_L2, 0, 32⟩) 1
  else if !frameIsUdp f then d2
  else if 262144 < d.fill (framePrio f) + f.len || !d.netOk f then d2.bump (⟨Reg.HP_RX_DROP_NET, 0, 32⟩) 1
  else match d.yctCheck f with
    | 0 => d2.yctIn f
    | 5 => d2.dropAuth f.src
    | _ => d2.bump (⟨Reg.HP_RX_DROP_YCT, 0, 32⟩) 1

def execFrameReceive (f : Frame) (s : State) : Host.Outcome State Fault Refusal :=
  mainCmd (fun d => d.portUp) (fun d => d.frameReceive f) s

/-! ### Addresses and small protocols (R420, R423, R426) -/

/-- ARP_REQUEST: answered for the IPv4 address in use. -/
def execArpRequest (src : Source) (target : Nat) (s : State) : Host.Outcome State Fault Refusal :=
  mainCmd (fun d => d.portUp && d.ownV4 target) (fun d => d.sendFrame 0 src (natBe 6 d.nv.mac ++ natBe 4 target)) s

/-- NEIGHBOR_SOLICITATION: answered for the IPv6 addresses in use. -/
def execNeighborSolicitation (src : Source) (target : Nat) (s : State) : Host.Outcome State Fault Refusal :=
  mainCmd (fun d => d.portUp && d.ownV6 target) (fun d => d.sendFrame 1 src (natBe 16 target ++ natBe 6 d.nv.mac)) s

/-- Bytes of an echo reply's frame: Ethernet with FCS, the tag it leaves with, IP, and ICMP with the data. -/
def Die.echoLen (d : Die) (v6 : Bool) (n : Nat) : Nat :=
  18 + (if d.get Reg.HP_VLAN_VID = 0 then 0 else 4) + (if v6 then 40 else 20) + 8 + n

/-- ICMP_ECHO: an echo request to an address in use is answered with its data, unless the reply's frame would be longer than the port sends
(R420, R421, R423). -/
def execIcmpEcho (src : Source) (dst : Nat) (v6 : Bool) (data : List Byte) (s : State) : Host.Outcome State Fault Refusal :=
  mainCmd (fun d => d.portUp && (if v6 then d.ownV6 dst else d.ownV4 dst) && decide (d.echoLen v6 data.length ≤ 9216))
    (fun d => d.sendFrame 2 src data) s

/-- A time in ns as IEEE 1588 writes it, in network byte order (R5): 6 bytes of seconds and 4 of nanoseconds (PRESUMED, log entry
50). -/
def ptpTime (ns : Nat) : List Byte := natBe 6 (ns / 1000000000) ++ natBe 4 (ns % 1000000000)

/-- This module's port: its clock identity, made of the MAC address, and port 1. -/
def Die.ptpPort (d : Die) : Nat := ((d.nv.mac / 2 ^ 24) * 2 ^ 40 + 0xFFFE * 2 ^ 24 + d.nv.mac % 2 ^ 24) * 65536 + 1

/-- A delay request: header and origin time stamp (PRESUMED, log entry 50). -/
def Die.delayReqBytes (d : Die) (seq : Nat) : List Byte :=
  [b8 1, b8 0x12] ++ natBe 2 44 ++ zeros 16 ++ natBe 10 d.ptpPort ++ natBe 2 seq ++ [b8 1, b8 0x7F] ++ ptpTime d.now

/-- An Announce names a better master than the one followed, by the data sets and then the senders' ports (PRESUMED, log entry 50); so does
every one where none is followed, or the one followed has been silent for 6 s. -/
def Die.betterMaster (d : Die) (m : PtpMsg) : Bool :=
  match d.clock.ptp.master with
  | none => true
  | some x => lexLt (m.dataSet ++ [m.source]) (x.1 ++ [x.2]) || decide (d.clock.ptp.heard + 24000000000 ≤ d.clock.aging)

/-- The message comes from the master that is followed. -/
def Die.fromMaster (d : Die) (m : PtpMsg) : Bool := match d.clock.ptp.master with | some x => x.2 == m.source | none => false

def Die.modPtp (d : Die) (f : Ptp → Ptp) : Die := { d with clock := { d.clock with ptp := f d.clock.ptp } }

/-- An Announce: a better master is followed from now on, and its time taken over at its first Sync (R426). -/
def Die.announce (d : Die) (m : PtpMsg) : Die :=
  if d.fromMaster m then d.modPtp (fun p => { p with master := some (m.dataSet, m.source), heard := d.clock.aging })
  else if d.betterMaster m then
    d.modPtp (fun p => { p with master := some (m.dataSet, m.source), heard := d.clock.aging, waitSync := none, delay := 0, fresh := true })
  else d

/-- Device time moves by `ns`. -/
def Die.shiftTime (d : Die) (ns : Int) : Die := { d with clock := { d.clock with quarter := (d.clock.quarter + 4 * ns).toNat } }

/-- The time of a Sync is known: the timer is set by its offset from the master, and a delay request follows. Taking over a master's time is a step
of device time, which ends the converters' window (R483); after it the clock is no longer UNSYNC. -/
def Die.discipline (d : Die) (t1 t2 : Int) : Die :=
  let p := d.clock.ptp
  let off := t2 - t1 - p.delay
  let d1 := if p.fresh && !d.intSilent then d.windowEnd true else d
  let d2 := d1.shiftTime (-off)
  let d3 := if p.fresh then { d2 with sense := { d2.sense with winStart := d2.now, short := decide (d2.now % windowNs d2.sense.intCfg ≠ 0) } } else d2
  let d4 := d3.modPtp (fun x => { x with
    t1 := t1, t2 := t2 - off, waitSync := none, reqSeq := (x.reqSeq + 1) % 65536, t3 := d3.now, fresh := false })
  ({ d4 with clock := { d4.clock with synced := true } }).sendFrame 4 {} (d4.delayReqBytes d4.clock.ptp.reqSeq)

/-- A correction in whole nanoseconds. -/
def corrNs (m : PtpMsg) : Int := m.correction / 65536

/-- A PTP message at the slave (R426), received at `t2` of the device's timer: domain 0 only, one-step and two-step masters. -/
def Die.ptpIn (d : Die) (m : PtpMsg) (t2 : Int) : Die :=
  let p := d.clock.ptp
  if m.domain ≠ 0 then d
  else match m.kind with
    | .announce => d.announce m
    | .sync =>
      if !d.fromMaster m then d
      else if m.twoStep then d.modPtp (fun x => { x with waitSync := some (m.seq, t2, corrNs m) })
      else d.discipline (m.time + corrNs m) t2
    | .followUp =>
      match p.waitSync with
      | some (q, r, c) => if d.fromMaster m ∧ q = m.seq then d.discipline (m.time + corrNs m + c) r else d
      | none => d
    | .delayResp =>
      if d.fromMaster m ∧ m.requester = d.ptpPort ∧ m.seq = p.reqSeq then
        d.modPtp (fun x => { x with delay := max 0 ((x.t2 - x.t1 + (m.time - corrNs m - x.t3)) / 2) })
      else d
    | .other => d

/-- PTP_MESSAGE: time stamps are those of the timer within 8 ns (R426); `stamp` is this one's error, raised by 8. -/
def execPtpMessage (m : PtpMsg) (stamp : Nat) (s : State) : Host.Outcome State Fault Refusal :=
  mainCmd (fun d => d.portUp && d.fwRuns) (fun d => d.ptpIn m (d.now + (min stamp 16 : Nat) - 8)) s

/-! ### HELLO, OPEN, CLOSE -/

/-- The HELLO response (R433). -/
def Die.helloBytes (d : Die) (chosen : Nat) : List Byte :=
  natLe 1 1 ++ natLe 1 1 ++ natLe 1 chosen ++ natLe 1 (if d.nv.gradeB then 0x42 else 0x41) ++ natLe 1 d.nv.stepping ++
  natLe 1 (8 - d.host.sessions.length) ++ natLe 1 (b2n d.lowWater) ++ natLe 1 (b2n (!d.clock.synced) + 2 * b2n d.fwRuns) ++
  natLe 8 d.nv.serial ++ natBe 6 d.nv.mac ++ natLe 2 9088 ++ natLe 8 d.now ++ zeros 64

/-- HELLO (R433): at most 1,000 answers a second; the chosen version binds the source's next OPEN. -/
def Die.hello (d0 : Die) (src : Source) (h : HelloHead) (lo hi : Nat) : Die :=
  let d := d0.drain (h.len + 48)
  let sec := d.now / 1000000000
  let n := if d.host.helloSec = sec then d.host.helloCount else 0
  if 1000 ≤ n then d
  else
    let d1 := { d with host := { d.host with helloSec := sec, helloCount := n + 1 } }
    let meet := 1 ≤ lo ∧ lo ≤ hi ∧ hi ≤ 3 ∧ lo = 1
    let c := if meet then 1 else 0
    let st := if h.len < 96 then stLength else if meet then stOk else stVersion
    let d2 := if st = stOk then
        { d1 with host := { d1.host with versions := (src, c) :: d1.host.versions.filter (fun p => p.1 != src) } }
      else d1
    d2.sendYct src 1 (yctHead 1 1 1 st 0 0 h.seq (if h.len < 96 then [] else d2.helloBytes c) ++ zeros 16)

def execHello (src : Source) (h : HelloHead) (hostMin hostMax : Nat) (s : State) : Host.Outcome State Fault Refusal :=
  mainCmd (fun d => d.portUp) (fun d => d.hello src h hostMin hostMax) s

/-- The lowest free session slot. -/
def Die.freeSlot (d : Die) : Option Nat := (List.range 8).find? (fun s => (d.session s).isNone)

/-- 32 bytes from the entropy source (R540, log entry 12). -/
def Die.entropy (d : Die) : List Byte := (List.range 32).map (fun i => Config.entropyByte (d.freeCtr + i))

/-- The STREAM role moves to the newest session that is granted it (R435). -/
def Die.takeStream (d : Die) : Die :=
  (d.slotsWith 2).foldl (fun e s => match e.session s with
    | none => e
    | some x => (e.putSession s { x with roles := setBits x.roles 2 1 0 }).event s 7 (natLe 4 1)) d

/-- The response to an OPEN that does not succeed after check 5: 48 zero bytes with the status. There is no session key for its tag, which is a
free value (log entry 77). -/
def Die.refusalBytes (d : Die) (src : Source) (st seq : Nat) : List Byte :=
  let m := yctHead (d.chosenVersion src) 1 2 st 0 0 seq (zeros 48)
  m ++ (List.range 16).map (Config.refusalTag m)

def Die.openRefuse (d : Die) (src : Source) (st seq : Nat) : Die := d.sendYct src 2 (d.refusalBytes src st seq)

/-- An OPEN that succeeds in slot `s` (R434, R435, R540, R555). The slot of record SEC 3 is taken to be the key slot (DEDUCED, log entry 78). -/
def Die.openIn (d : Die) (src : Source) (bs : List Byte) (s key roles idle : Nat) : Die :=
  let id := d.host.nextId
  let nd := d.entropy
  let nh := (bs.drop 32).take 32
  let dbg := bit roles 3 && d.on (Reg.SEC_SLOT_DEBUG key) && d.on Reg.SEC_CTRL_DEBUG_EN && decide (d.get Reg.SEC_STATUS_STATE = 0)
  let granted := if d.get Reg.SEC_STATUS_STATE ≠ 0 then roles % 2 else setBits roles 3 1 (b2n dbg)
  let ctx := nh ++ nd ++ natLe 4 id ++ natLe 1 key ++ natLe 1 granted ++ natLe 2 idle
  let d1 := if bit granted 2 then d.takeStream else d
  let x : Session := { id := id, keySlot := key, roles := granted, idleTmo := idle, version := d.chosenVersion src, src := src,
                       key := kmac (d.keyOf key) ctx (ascii "KH880 YCT session v1") 32 }
  let d2 := (d1.putSession s x)
  let d3 := { d2 with
    freeCtr := d2.freeCtr + 32,
    host := { d2.host with nextId := id + 1, debugSeen := d2.host.debugSeen || dbg } }
  let d4 := if dbg then d3.record 0x0A 3 95 0xFFFF [key, id] else d3
  d4.sayTo s x 1 2 stOk (leAt bs 12 4) (natLe 4 id ++ nd ++ natLe 1 granted ++ natLe 1 s ++ natLe 2 idle ++ zeros 8)

/-- OPEN (R434, R540, R551): check 5, its fields, then a free slot. While the slots are being overwritten none is used (R553, DEDUCED; log
entry 78). -/
def Die.openReq (d0 : Die) (src : Source) (q : OpenReq) : Die :=
  let d := d0.drain (q.msg.length + 16)
  let bs := q.msg
  let key := leAt bs 64 1
  let roles := leAt bs 65 1
  let idle := leAt bs 66 2
  let nh := (bs.drop 32).take 32
  let used := (look d.host.nonces key).getD []
  if 8 ≤ key ∨ d.secState = 2 ∨ !d.on (Reg.SEC_SLOT_ACTIVE key) ∨ q.tag ≠ kmac (d.keyOf key) bs (ascii "KH880 YCT OPEN") 16 ∨ used.contains nh then
    d.dropAuth src
  else
    let d1 : Die := { d.authPass src with host := { (d.authPass src).host with nonces := keep d.host.nonces key ((nh :: used).take 4096) } }
    if bs.length ≠ 80 ∨ idle = 0 ∨ 3600 < idle ∨ 16 ≤ roles ∨ leAt bs 68 12 ≠ 0 then d1.openRefuse src stLength (leAt bs 12 4)
    else if d1.get Reg.SEC_STATUS_STATE ≠ 0 ∧ !d1.on (Reg.SEC_SLOT_OWNER key) then d1.openRefuse src stRole (leAt bs 12 4)
    else match d1.freeSlot with
      | none => d1.openRefuse src stNoSession (leAt bs 12 4)
      | some s => d1.openIn src bs s key roles idle

def execOpenSession (src : Source) (id : OpenReq) (s : State) : Host.Outcome State Fault Refusal :=
  mainCmd (fun d => d.portUp) (fun d => d.openReq src id) s

/-- CLOSE (R436). -/
def execClose (m : MsgHead) (s : State) : Host.Outcome State Fault Refusal :=
  mainCmd (fun d => d.canRequest m)
    (fun d => d.request m 0x03 9 (decide (m.len = 0)) (fun e _ => (e.respond m.slot 0x03 stOk m.seq []).endSession m.slot)) s

/-- SESSION_IDLE_TIMEOUT (R432). -/
def execSessionIdleTimeout (slot : Nat) (s : State) : Host.Outcome State Fault Refusal :=
  mainCmd (fun d => (d.session slot).isSome) (fun d => d.endSession slot) s

/-! ### Bulk windows (R438, R439) -/

def Die.window (d : Die) (w : Nat) : Option Bulk := look d.host.windows w
def Die.putWindow (d : Die) (w : Nat) (b : Bulk) : Die := { d with host := { d.host with windows := keep d.host.windows w b } }

/-- Whether a parked, unready or table-running tile refuses host accesses to its SRAM (R79, R183, R522). -/
def Die.tileBusy (d : Die) (t : Nat) : Bool := d.armed || (d.tile t).parked || !(d.tile t).ready

/-- What BULK_OPEN answers for a range: a status, and the total in force (R3, R78, R79, R386, R438). -/
def Die.bulkRange (d : Die) (ag : Agent) (read : Bool) (a total : Nat) : Nat × Nat :=
  if isDram a then
    let n := min total (dramEnd - a)
    if fwArea < a + n ∧ !(read && d.hasDebug ag) then (stProtected, 0) else (if n < total then stUnmapped else stOk, n)
  else match sramTile a with
    | some t =>
      if !d.enabled t then (stTarget, 0)
      else if d.tileBusy t then (stBusy, 0)
      else
        let n := min total (tileAddr t + 0x800000 - a)
        (if n < total then stUnmapped else stOk, n)
    | none => (if (regSpec (a / 4 * 4)).isSome then stTarget else stUnmapped, 0)

/-- The strandline record of a refused or cut bulk range; a range in a disabled tile's window has one of its own (R3). -/
def Die.bulkRecord (d : Die) (ag : Agent) (a st : Nat) : Die :=
  let off := match sramTile a with | some t => !d.enabled t | none => false
  if off then d.recordA 0x01 2 78 0xFFFF ag a 0 st
  else if st = stUnmapped then d.recordA 0x01 1 78 0xFFFF ag a 0 st
  else if st = stProtected then d.recordA 0x0B 5 78 0xFFFF ag a 0 st
  else if st = stBusy then d.recordA 0x01 4 78 0xFFFF ag a 0 st
  else d

/-- BULK_OPEN of the window asked for, or of the lowest free one. -/
def Die.bulkOpen (d : Die) (m : MsgHead) (window : Nat) (read : Bool) (a total : Nat) : Die :=
  let w := if window = 0xFF then (List.range 4).find? (fun w => (d.window w).isNone)
           else if window < 4 ∧ (d.window window).isNone then some window else none
  match w with
  | none => d.respond m.slot 0x20 stBusy m.seq (zeros 16)
  | some w =>
    let p := d.bulkRange (.session m.slot) read a total
    let d1 := d.bulkRecord (.session m.slot) a p.1
    if p.2 = 0 then d1.respond m.slot 0x20 p.1 m.seq (zeros 16)
    else (d1.putWindow w { slot := m.slot, read := read, addr := a, total := p.2 }).respond m.slot 0x20 p.1 m.seq
      (natLe 1 w ++ zeros 3 ++ natLe 4 256 ++ natLe 8 p.2)

def execBulkOpen (m : MsgHead) (window : Nat) (read : Bool) (addr total : Nat) (s : State) : Host.Outcome State Fault Refusal :=
  mainCmd (fun d => d.canRequest m)
    (fun d => d.request m 0x20 0 (decide (m.len = 24) && decide (1 ≤ total) && decide (total ≤ 2 ^ 40) &&
      (decide (window < 4) || window == 0xFF)) (fun e _ => e.bulkOpen m window read addr total)) s

/-- A bulk header. -/
def bulkHead (w len off : Nat) : List Byte := natLe 1 w ++ zeros 3 ++ natLe 4 len ++ natLe 8 off

/-- Every 4 KB unit of a range of DRAM lies in a stack that accepts requests (R387, R392). -/
def Die.rangeOpen (d : Die) (a n : Nat) : Bool :=
  (List.range ((a + n - 1) / 4096 - a / 4096 + 1)).all (fun i => !d.held (a / 4096 * 4096 + 4096 * i))

/-- Whether the target of a range refuses for the present. -/
def Die.bulkBusy (d : Die) (a n : Nat) : Bool :=
  if isDram a then !d.rangeOpen a n else match sramTile a with | some t => d.tileBusy t | none => true

/-- The record of a bulk access that a tile's SRAM refuses (R79). -/
def Die.bulkBusyRecord (d : Die) (ag : Agent) (a : Nat) : Die := if isDram a then d else d.recordA 0x01 4 78 0xFFFF ag a 0 stBusy

/-- Host bytes written to DRAM or tile SRAM. -/
def Die.hostWrite (d : Die) (a : Nat) (bs : List Byte) : Die :=
  if isDram a then d.putDram a (bs.map some)
  else match sramTile a with
    | some t => (d.sramUse t ((a - tileAddr 0) % 0x1000000) bs.length).setBytes a bs
    | none => d.setBytes a bs

/-- A host write whose partial sector DRAM cannot merge gets the error completion of R390. It is answered with CRC, as data that failed are
(DESIGN CHOICE, log entry 70). -/
def Die.hostFails (d : Die) (a : Nat) (bs : List Byte) : Bool := isDram a && d.mergeFails a (bs.map some)

/-- What a host read of a range does beside its bytes: uncorrectable sectors are reported (R389), SRAM banks are used (R182). -/
def Die.hostRead (d : Die) (a n : Nat) : Die :=
  if isDram a then d.readReport a n
  else match sramTile a with
    | some t => d.sramUse t ((a - tileAddr 0) % 0x1000000) n
    | none => d

/-- One payload of a write window (R439): the status it is answered with, and the effect. -/
def Die.bulkWrite (d : Die) (w : Nat) (b : Bulk) (off len : Nat) (data : List Byte) (crc : Nat) : Die × Nat :=
  if b.next < off ∨ b.total < off + len then (d, stWindow)
  else if off + len ≤ b.next then (d, stOk)
  else if off < b.next then (d, stWindow)
  else if crc32c data ≠ crc then (d, stCrc)
  else if d.bulkBusy (b.addr + off) len then (d.bulkBusyRecord (.session b.slot) (b.addr + off), stBusy)
  else if d.hostFails (b.addr + off) data then (d.hostWrite (b.addr + off) data, stCrc)
  else ((d.hostWrite (b.addr + off) data).putWindow w { b with next := off + len }, stOk)

/-- The bytes a read window sends: poisoned sectors as zero (R439). -/
def Die.bulkBytes (d : Die) (a n : Nat) : List Byte :=
  (List.range n).map (fun i => if isDram (a + i) && d.badSector ((a + i) / 64 * 64) then 0 else d.byteAt (a + i))

/-- One request of a read window. -/
def Die.bulkRead (d : Die) (m : MsgHead) (w : Nat) (b : Bulk) (off len : Nat) : Die :=
  let a := b.addr + off
  if b.total < off + len then d.respond m.slot 0x21 stWindow m.seq (bulkHead w len off)
  else if d.bulkBusy a len then (d.bulkBusyRecord (.session m.slot) a).respond m.slot 0x21 stBusy m.seq (bulkHead w len off)
  else
    let bs := d.bulkBytes a len
    let bad := isDram a && d.rangePoison a len
    let c := crc32c bs
    (d.hostRead a len).respond m.slot 0x21 (if bad then stCrc else stOk) m.seq
      (bulkHead w len off ++ bs ++ natLe 4 (if bad then 0xFFFFFFFF - c else c))

/-- BULK_DATA (R439). -/
def Die.bulkData (d : Die) (m : MsgHead) (w off len : Nat) (data : List Byte) (crc : Nat) : Die :=
  match d.window w with
  | none => d.respond m.slot 0x21 stWindow m.seq (bulkHead w len off ++ natLe 8 0)
  | some b =>
    if b.slot ≠ m.slot then d.respond m.slot 0x21 stWindow m.seq (bulkHead w len off ++ natLe 8 0)
    else if b.read then
      if m.len = 16 then d.bulkRead m w b off len else d.respond m.slot 0x21 stLength m.seq (bulkHead w len off)
    else if m.len ≠ 20 + len ∨ data.length ≠ len then d.respond m.slot 0x21 stLength m.seq (bulkHead w len off)
    else
      let p := d.bulkWrite w b off len data crc
      p.1.respond m.slot 0x21 p.2 m.seq (bulkHead w len off ++ natLe 8 (((p.1.window w).map (·.next)).getD 0))

def execBulkData (m : MsgHead) (window off len : Nat) (data : List Byte) (crc : Nat) (s : State) :
    Host.Outcome State Fault Refusal :=
  mainCmd (fun d => d.canRequest m)
    (fun d => d.request m 0x21 0 (decide (1 ≤ len) && decide (len ≤ 8192)) (fun e _ => e.bulkData m window off len data crc)) s

/-- BULK_CLOSE (R439). -/
def Die.bulkClose (d : Die) (m : MsgHead) (w : Nat) : Die :=
  match d.window w with
  | none => d.respond m.slot 0x22 stWindow m.seq (natLe 1 w ++ zeros 15)
  | some b =>
    if b.slot ≠ m.slot then d.respond m.slot 0x22 stWindow m.seq (natLe 1 w ++ zeros 15)
    else
      let next := if b.read then 0 else b.next
      (d.closeWindow w).respond m.slot 0x22 (if !b.read && decide (b.next < b.total) then stWindow else stOk) m.seq
        (natLe 1 w ++ zeros 7 ++ natLe 8 next)

def execBulkClose (m : MsgHead) (window : Nat) (s : State) : Host.Outcome State Fault Refusal :=
  mainCmd (fun d => d.canRequest m) (fun d => d.request m 0x22 0 (decide (m.len = 8)) (fun e _ => e.bulkClose m window)) s

/-- BULK_WINDOW_TIMEOUT: 1 s without an accepted BULK_DATA (R438). -/
def execBulkWindowTimeout (window : Nat) (s : State) : Host.Outcome State Fault Refusal :=
  mainCmd (fun d => (d.window window).isSome) (fun d => d.closeWindow window) s

/-! ### Events (R444) -/

/-- The records that fit a message payload, from the front of a queue, and the rest. -/
def fitEvents (room : Nat) (l : List EvRec) : List EvRec × List EvRec :=
  match l with
  | [] => ([], [])
  | r :: t => if r.size ≤ room then (r :: (fitEvents (room - r.size) t).1, (fitEvents (room - r.size) t).2) else ([], r :: t)

/-- Records numbered from `n` up. -/
def numberEvents (n : Nat) (l : List EvRec) : List EvRec :=
  match l with
  | [] => []
  | r :: t => { r with seq := n } :: numberEvents (n + 1) t

/-- A record as it stands in an EVENT message. -/
def EvRec.bytes (r : EvRec) : List Byte :=
  natLe 2 r.kind ++ natLe 2 r.body.length ++ natLe 4 r.seq ++ natLe 8 r.time ++ r.body ++ zeros ((r.body.length + 7) / 8 * 8 - r.body.length)

/-- EVENT_FLUSH: the session's message is sent; a LOST record precedes where records were dropped. -/
def Die.eventFlush (d : Die) (slot : Nat) : Die :=
  match d.session slot with
  | none => d
  | some x =>
    let lost : List EvRec := if x.evtLost = 0 then [] else [{ kind := 8, seq := 0, time := d.now, body := natLe 4 x.evtLost }]
    let p := fitEvents 9040 (lost ++ x.events)
    let recs := numberEvents (x.evtSeq + 1) p.1
    d.sayTo slot { x with events := p.2, evtLost := 0, evtSeq := x.evtSeq + recs.length } 0 0x40 0 0 (recs.map EvRec.bytes).flatten

def execEventFlush (slot : Nat) (s : State) : Host.Outcome State Fault Refusal :=
  mainCmd (fun d => d.portUp && (match d.session slot with | some x => !x.events.isEmpty || decide (x.evtLost ≠ 0) | none => false))
    (fun d => d.eventFlush slot) s

/-! ### Mailboxes (R440 to R443, R583) -/

/-- The 64 words of a request or response box as bytes. -/
def Die.boxBytes (d : Die) (base : Nat) : List Byte := ((List.range 64).map (fun i => natLe 4 (d.getW (base + 4 * i)).toNat)).flatten

/-- A box's words written from 256 bytes. -/
def Die.putBox (d : Die) (base : Nat) (bs : List Byte) : Die :=
  (List.range 64).foldl (fun e i => e.putW (base + 4 * i) (w32 (leAt bs (4 * i) 4))) d

/-- First word of request box `k` and of response box `k`. -/
def reqBox (k : Nat) : Nat := 0x40000 + 0x100 * k
def rspBox (k : Nat) : Nat := 0x44000 + 0x100 * k

/-- A poster may post to a box: FREE, or DONE and its own (R441). -/
def Die.canPost (d : Die) (k owner : Nat) : Bool :=
  (d.box k).state == .free || ((d.box k).state == .done && d.boxOwner k == owner)

/-- A box is posted by `owner`. -/
def Die.post (d : Die) (k owner : Nat) : Die :=
  let d1 := d.boxTo k .posted owner
  { d1 with host := { d1.host with doorbells := without d1.host.doorbells k ++ [k] } }

/-- MBX_POST (R442). -/
def Die.mbxPost (d : Die) (m : MsgHead) (box : Nat) (bs : List Byte) : Die :=
  let k := if box = 0xFF then (List.range 64).find? (fun k => (d.box k).state == .free) else some box
  if !d.fwRuns then d.respond m.slot 0x30 stNoFirmware m.seq []
  else match k with
    | none => d.respond m.slot 0x30 stBusy m.seq []
    | some k =>
      if d.canPost k m.slot then ((d.putBox (reqBox k) bs).post k m.slot).respond m.slot 0x30 stOk m.seq (natLe 1 k)
      else d.respond m.slot 0x30 stBusy m.seq []

def execMbxPost (m : MsgHead) (box : Nat) (bytes : List Byte) (s : State) : Host.Outcome State Fault Refusal :=
  mainCmd (fun d => d.canRequest m)
    (fun d => d.request m 0x30 0 (decide (m.len = 264) && decide (bytes.length = 256) && (decide (box < 64) || box == 0xFF))
      (fun e _ => e.mbxPost m box bytes)) s

/-- MBX_DOORBELL: each bit written 1 posts its box for the writer (R441, R443). -/
def Die.doorbell (d : Die) (ag : Agent) (hi : Bool) (word : Nat) : Die :=
  let ks := (bitsSet 32 word).map (fun i => i + 32 * b2n hi)
  let o := agentCode ag
  if ks.isEmpty then d.answer ag stOk
  else if !d.fwRuns then d.answer ag stNoFirmware
  else
    let d1 := ks.foldl (fun e k => if e.canPost k o then e.post k o else e) d
    d1.answer ag (if ks.all (fun k => d.canPost k o) then stOk else stBusy)

def execMbxDoorbell (ag : Agent) (hi : Bool) (word : Nat) (s : State) : Host.Outcome State Fault Refusal :=
  mainCmd (fun d => d.mayControl ag && isHost ag) (fun d => d.doorbell ag hi word) s

/-- MBX_RELEASE: each bit written 1 releases a DONE box to FREE. -/
def Die.mbxRelease (d : Die) (ag : Agent) (hi : Bool) (word : Nat) : Die :=
  let ks := (bitsSet 32 word).map (fun i => i + 32 * b2n hi)
  (ks.foldl (fun e k => if (e.box k).state == .done then e.freeBox k else e) d).answer ag stOk

def execMbxRelease (ag : Agent) (hi : Bool) (word : Nat) (s : State) : Host.Outcome State Fault Refusal :=
  mainCmd (fun d => d.mayControl ag) (fun d => d.mbxRelease ag hi word) s

/-- Boxes whose commands run. -/
def Die.busyBoxes (d : Die) : Nat := ((List.range 64).filter (fun k => (d.box k).state == .busy)).length

/-- MBX_TAKE: the firmware takes the first POSTED box, up to 4 commands at once. -/
def Die.mbxTake (d : Die) : Die :=
  match d.host.doorbells with
  | [] => d
  | k :: r =>
    let d1 := d.boxTo k .busy (d.boxOwner k)
    { d1 with host := { d1.host with doorbells := r } }

def execMbxTake (s : State) : Host.Outcome State Fault Refusal :=
  mainCmd (fun d => d.fwRuns && !d.host.doorbells.isEmpty && decide (d.busyBoxes < 4)) (fun d => d.mbxTake) s

/-- The response box of a finished command (R440, R583): result code, result bytes, bytes at OUT_ADDR; a result that does not
fit there is RANGE. -/
def Die.mbxFinish (d : Die) (k code : Nat) (bs outBytes : List Byte) : Die :=
  let q := d.boxBytes (reqBox k)
  let outAddr := leAt q 16 8
  let outLen := leAt q 24 4
  let whole := if outBytes.isEmpty then (if 224 < bs.length then bs else []) else outBytes
  let okOut := whole.isEmpty || (isGeneral outAddr && isGeneral (outAddr + whole.length - 1) && decide (whole.length ≤ outLen))
  let bad := !okOut || (decide (outAddr ≠ 0) && !isGeneral outAddr)
  let rc := if bad then rcRange else code
  let body := if bad then [] else bs.take 224
  let rlen := if bad then 0 else whole.length
  let d1 := if bad then d else d.putDram outAddr (whole.map some)
  let rsp := q.take 2 ++ zeros 2 ++ (q.drop 4).take 4 ++ natLe 2 body.length ++ natLe 2 rc ++ natLe 4 rlen ++
    (q.drop 16).take 12 ++ zeros 4 ++ body ++ zeros (224 - body.length)
  let o := d.boxOwner k
  let d2 := (d1.putBox (rspBox k) rsp).boxTo k .done o
  if o < 8 then d2.event o 1 (natLe 4 k ++ rsp) else d2

/-- MBX_COMPLETE. -/
def execMbxComplete (box : Nat) (s : State) : Host.Outcome State Fault Refusal :=
  mainCmd (fun d => decide (box < 64) && (d.box box).state == .busy && (d.box box).result.isSome)
    (fun d => match (d.box box).result with
      | some p => d.mbxFinish box p.1 p.2 (d.box box).outBytes
      | none => d) s

end Sys2Proof.Machine
end

