-- ==== Sys2Proof/Machine/Serve.lean ====
section
/-! DEFINITION. Context records, key/value pages, the prefix tree, tenant counters and stream entries (R330 to R338, R344,
R351, R358, R371 to R378), as the commands of serving share them. -/
namespace Sys2Proof.Machine

/-! ### Context records (R330 to R334) -/

/-- State codes of R332. -/
def csFree : Nat := 0
def csQueued : Nat := 1
def csPrefill : Nat := 2
def csDecode : Nat := 3
def csParked : Nat := 4
def csShipping : Nat := 5
def csDone : Nat := 6
def csFailed : Nat := 7

/-- Context numbers run to this bound (R330). -/
def ctxCount : Nat := 1048576
def noCtx : Nat := 0xFFFFFFFF

/-- Bits of FLAGS (R331). -/
def cfSample : Nat := 0
def cfShipOut : Nat := 1
def cfShipIn : Nat := 2
def cfDegraded : Nat := 3
def cfLate : Nat := 4
def cfPromptFinal : Nat := 5
def cfRetried : Nat := 6

/-- A live context: any state but FREE, DONE and FAILED. -/
def Ctx.live (c : Ctx) : Bool := decide (1 ≤ c.state) && decide (c.state ≤ 5)
def Ctx.flag (c : Ctx) (i : Nat) : Bool := bit c.flags i
def Ctx.setFlag (c : Ctx) (i : Nat) : Ctx := { c with flags := setBits c.flags i 1 1 }

/-- A page address as page tables and page lists hold it (R336). -/
def pageWord (u : Nat) : Nat := u % 2 ^ 26 + 2 ^ 31

/-- Pages held, leaf tables included. -/
def Ctx.held (c : Ctx) : Nat := c.pages.length + c.leaves.length

/-- The record of R331 as 256 bytes. -/
def ctxBytes (n : Nat) (c : Ctx) : List Byte :=
  natLe 4 n ++ natLe 1 c.state ++ natLe 1 c.reason ++ natLe 2 c.tenant ++ natLe 8 c.reqId ++ natLe 4 c.flags ++
  natLe 4 c.promptLen ++ natLe 4 c.promptRcvd ++ natLe 4 c.promptDone ++ natLe 4 c.maxOut ++ natLe 4 c.outCount ++
  natLe 4 c.held ++ natLe 4 c.reserve ++ natLe 4 c.invTemp.toNat ++ natLe 4 c.rng ++
  ((List.range 4).map (fun i => natLe 4 (c.stop.getD i 0xFFFFFFFF))).flatten ++ natLe 8 c.dlFirst ++ natLe 4 c.dlGap ++
  zeros 4 ++ natLe 8 c.dlEnd ++ natLe 8 c.tSubmit ++ natLe 8 c.tLast ++ natLe 4 c.berth ++ natLe 4 c.step ++
  ((List.range 16).map (fun i => natLe 4 (match c.leaves[i]? with | some u => pageWord u | none => 0))).flatten ++
  ((List.range 16).map (fun i => natLe 4 ((look c.lastTokens i).getD 0))).flatten ++ zeros 8

/-- Context `n`. -/
def Die.ctx (d : Die) (n : Nat) : Ctx := amGet {} d.serve.ctxs n

/-- Changes context `n` and its record in the context area (log entry 23). -/
def Die.putCtx (d : Die) (n : Nat) (c : Ctx) : Die :=
  { d with serve := { d.serve with ctxs := amSet {} d.serve.ctxs n c } }.setBytes (ctxArea + 256 * n) (ctxBytes n c)

def Die.modCtx (d : Die) (n : Nat) (f : Ctx → Ctx) : Die := d.putCtx n (f (d.ctx n))

/-- Live contexts by number. -/
def Die.liveCtxs (d : Die) : List (Nat × Ctx) := d.serve.ctxs.filter (fun p => p.2.live)

/-- The lowest-numbered FREE record; none when all are taken. -/
def Die.freeCtx (d : Die) : Option Nat :=
  (List.range (d.serve.ctxs.length + 1)).find? (fun n => decide (n < ctxCount) && (d.ctx n).state == csFree)

/-- A context holds a berth of a step that has not retired (R333, R339), or of a plan that is decided (R330). -/
def Die.holdsBerth (d : Die) (n : Nat) : Bool :=
  d.serve.steps.any (fun s => !s.done && s.berths.any (fun b => b.ctx == n)) ||
    (match d.serve.heldPlan with | some p => p.berths.any (fun b => b.ctx == n) | none => false)

/-- The context cache with record `n` in it (R330): at most 16,384; the oldest that holds no berth and is not SHIPPING leaves for it, and
while there is none such the record is not fetched. -/
def Die.cacheCtx (d : Die) (n : Nat) : Die :=
  if d.serve.cache.contains n then d
  else
    let put (l : List Nat) : Die := { d with serve := { d.serve with cache := l ++ [n] } }
    if d.serve.cache.length < 16384 then put d.serve.cache
    else match d.serve.cache.find? (fun m => !d.holdsBerth m && (d.ctx m).state != csShipping) with
      | some m => put (without d.serve.cache m)
      | none => d

/-! ### Pages (R335 to R338) -/

/-- Bytes of a part's segment (R335). -/
def partBytes (p : KvPart) : Nat := p.heads * (2 * (2 * p.dim / 32 * (if p.fmt8 then 1056 else 544)))

/-- Bytes of a page (R335). -/
def pageBytes (k : KvParams) : Nat := ((k.parts.map partBytes).sum + 4095) / 4096 * 4096

/-- 4 KB units in a page. -/
def pageUnits (k : KvParams) : Nat := pageBytes k / 4096

/-- Pages in the pool (R337). -/
def poolPages (k : KvParams) : Nat := if pageUnits k = 0 then 0 else k.size / pageUnits k

/-- Free pages on this module. -/
def Die.freePages (d : Die) : Nat :=
  match d.serve.kv with
  | some k => poolPages k - d.serve.taken.length
  | none => 0

/-- The sum of RESERVE over live contexts. -/
def Die.reserved (d : Die) : Nat := (d.liveCtxs.map (fun p => p.2.reserve)).sum

/-- Takes the lowest free page of the pool (log entry 24). What the front takes, the other modules take with its next plan, so that it counts
there too (R337, R363). -/
def Die.takePage (d : Die) : Option (Nat × Die) :=
  match d.serve.kv with
  | none => none
  | some k =>
    match (List.range (d.serve.taken.length + 1)).find? (fun i => decide (i < poolPages k) &&
      !d.serve.taken.contains (k.base + i * pageUnits k)) with
    | none => none
    | some i =>
      let u := k.base + i * pageUnits k
      some (u, { d with serve := { d.serve with
        taken := d.serve.taken ++ [u], others := d.serve.others.map (fun p => (p.1, p.2 - 1)) } })

/-- A page's number of holders (R376, R378): contexts whose page tables hold it. -/
def Die.holders (d : Die) (u : Nat) : Nat := ((d.serve.ctxs ++ d.serve.leaving).filter (fun p => p.2.pages.contains u)).length

/-- Returns a page to the pool unless a prefix node or a context still has it (R376). -/
def Die.dropPage (d : Die) (u : Nat) : Die :=
  if d.tenancy.nodes.any (fun p => p.2.page == u) || decide (0 < d.holders u) || !d.serve.taken.contains u then d
  else { d with serve := { d.serve with
    taken := without d.serve.taken u, others := d.serve.others.map (fun p => (p.1, p.2 + 1)) } }

/-- Puts a page at the end of a context's page table, taking a leaf table where the page begins one, each against RESERVE
(R336, R337); none where the pool has no page for a leaf. -/
def Die.appendPage (d : Die) (n u : Nat) : Option Die :=
  let p := (d.ctx n).pages.length
  let withLeaf : Option Die :=
    if p % 1024 = 0 then
      match d.takePage with
      | none => none
      | some (l, e) => some (e.modCtx n (fun c => { c with leaves := c.leaves ++ [l], reserve := c.reserve - 1 }))
    else some d
  match withLeaf with
  | none => none
  | some e =>
    let e1 := e.modCtx n (fun c => { c with pages := c.pages ++ [u], reserve := c.reserve - 1 })
    match (e1.ctx n).leaves[p / 1024]? with
    | none => some e1
    | some l => some (e1.setBytes (4096 * l + 4 * (p % 1024)) (natLe 4 (pageWord u)))

/-- Gives a context one more page of its own. -/
def Die.addPage (d : Die) (n : Nat) : Option Die :=
  match d.takePage with
  | none => none
  | some (u, e) => e.appendPage n u

/-- Gives a context `k` more pages. -/
def Die.addPages (d : Die) (n k : Nat) : Option Die :=
  match k with
  | 0 => some d
  | m + 1 => match d.addPage n with | none => none | some e => e.addPages n m

/-- Pages and leaf tables a context of `len` positions needs. -/
def pagesFor (len : Nat) : Nat := (len + 63) / 64 + ((len + 63) / 64 + 1023) / 1024

/-! ### Tenants and counters (R358, R377) -/

/-- The default configuration (R358). -/
def defaultTenant : TenantParams :=
  { enabled := false, weight := 1, bkt := false, maxCtx := 1024, maxPages := 0, tokenQuota := 0, resvOut := 256, drop := false,
    reuse := 1, packId := 0 }

/-- A tenant's configuration as the front holds it, and as fills use it (R358). -/
def Die.tenant (d : Die) (t : Nat) : TenantParams := amGet defaultTenant d.tenancy.cfg t
def Die.tenantActing (d : Die) (t : Nat) : TenantParams := amGet defaultTenant d.tenancy.acting t

/-- The SYSTEM account (R377). -/
def sysTenant : Nat := 4096

def Die.meter (d : Die) (t : Nat) : Meter := amGet {} d.tenancy.count t
def Die.modMeter (d : Die) (t : Nat) (f : Meter → Meter) : Die :=
  { d with tenancy := { d.tenancy with count := amSet {} d.tenancy.count t (f (d.meter t)) } }

/-- BERTH_TIDES of an account at a retirement at device time `time`; one before the boundary of a snapshot still to be written counts in it
too (R380). -/
def Die.addTides (d : Die) (t k time : Nat) : Die :=
  let up (m : Meter) : Meter := { m with berthTides := m.berthTides + k }
  let d1 := d.modMeter t up
  match d.tenancy.snap with
  | some (_, _, w1) => if time < w1 then
      { d1 with tenancy := { d1.tenancy with snapCount := amSet {} d1.tenancy.snapCount t (up (amGet {} d1.tenancy.snapCount t)) } } else d1
  | none => d1

/-- The sum of two fractions, reduced. -/
def fracAdd (a b : Nat × Nat) : Nat × Nat :=
  let n := a.1 * b.2 + b.1 * a.2
  let m := a.2 * b.2
  let g := max 1 (Nat.gcd n m)
  (n / g, m / g)

/-- Whole microseconds of a fraction of nanoseconds. -/
def fracUs (f : Nat × Nat) : Nat := f.1 / (1000 * max 1 f.2)

/-- A fraction of nanoseconds less `us` microseconds. -/
def fracLess (f : Nat × Nat) (us : Nat) : Nat × Nat := (f.1 - us * 1000 * f.2, f.2)

/-- Adds page time of an account; the part below a microsecond goes to SYSTEM (R378). -/
def Die.addPageTime (d : Die) (t : Nat) (ns : Nat × Nat) : Die :=
  let us := fracUs ns
  let d1 := d.modMeter t (fun m => { m with pageUs := m.pageUs + us })
  let r := fracAdd d1.tenancy.pageRem (fracLess ns us)
  let k := fracUs r
  ({ d1 with tenancy := { d1.tenancy with pageRem := fracLess r k } }).modMeter sysTenant (fun m => { m with pageUs := m.pageUs + k })

/-- One context accrues its page time (R378). -/
def Die.accrueCtx (d : Die) (n : Nat) : Die :=
  let c := d.ctx n
  let dt := d.now - c.accrued
  let ns := c.pages.foldl (fun a u => fracAdd a (dt, max 1 (d.holders u))) ((0, 1) : Nat × Nat)
  (d.addPageTime c.tenant ns).modCtx n (fun x => { x with accrued := d.now })

/-- One prefix node whose page no context holds accrues to its scope tenant, a public one to SYSTEM (R378). -/
def Die.accrueNode (d : Die) (i : Nat) (x : Node) : Die :=
  let d1 := if d.holders x.page = 0 then
      d.addPageTime (if x.tenant = 0xFFFF then sysTenant else x.tenant) (d.now - x.accrued, 1) else d
  { d1 with tenancy := { d1.tenancy with nodes := keep d1.tenancy.nodes i { x with accrued := d.now } } }

/-- Every live context and every unheld page accrue (R378). -/
def Die.accrueAll (d : Die) : Die :=
  d.tenancy.nodes.foldl (fun e p => e.accrueNode p.1 p.2) (d.liveCtxs.foldl (fun e p => e.accrueCtx p.1) d)

/-! ### The prefix tree (R371 to R376) -/

/-- The FNV-1a key of R371. -/
def prefixKey (parent tenant pack : Nat) (tokens : List Nat) : Nat :=
  (natLe 8 parent ++ natLe 2 tenant ++ natLe 2 0 ++ natLe 4 pack ++ (tokens.map (natLe 4)).flatten).foldl
    (fun h b => ((h ^^^ b.toNat) * 0x100000001B3) % 2 ^ 64) 0xCBF29CE484222325

def Die.node (d : Die) (i : Nat) : Option Node := look d.tenancy.nodes i
def Die.putNode (d : Die) (i : Nat) (x : Node) : Die :=
  { d with tenancy := { d.tenancy with nodes := keep d.tenancy.nodes i x } }

/-- The node with a key in a scope. -/
def Die.findKey (d : Die) (key tenant pack : Nat) : Option (Nat × Node) :=
  d.tenancy.nodes.find? (fun p => p.2.keyed && p.2.key == key && p.2.tenant == tenant && p.2.pack == pack)

/-- The chart's MODEL_ID, the key above page 0. -/
def Die.modelId (d : Die) : Nat := d.relay.modelId

/-- Pages that the tree holds and no context references. -/
def Die.idlePages (d : Die) : Nat := (d.tenancy.nodes.filter (fun p => p.2.refs == 0)).length

/-- A node has one child more or less. -/
def Die.addChild (d : Die) (parent : Option Nat) (more : Bool) : Die :=
  match parent with
  | none => d
  | some p => match d.node p with
    | none => d
    | some y => d.putNode p { y with children := if more then y.children + 1 else y.children - 1 }

/-- Deletes a node: its parent loses a child, and its page returns to the pool where nothing holds it (R376). -/
def Die.deleteNode (d : Die) (i : Nat) : Die :=
  match d.node i with
  | none => d
  | some x =>
    let d1 := { d with tenancy := { d.tenancy with nodes := amErase d.tenancy.nodes i } }
    (d1.addChild x.parent false).dropPage x.page

/-- The record that a change of the prefix tree means by a context number: on a module beside the front the one freed meanwhile, while its
pages have still to go back, else the context's. -/
def Die.heldCtx (d : Die) (n : Nat) : Ctx := if d.isFront then d.ctx n else (look d.serve.leaving n).getD (d.ctx n)

/-- Changes that record. -/
def Die.modHeld (d : Die) (n : Nat) (f : Ctx → Ctx) : Die :=
  if !d.isFront && (look d.serve.leaving n).isSome then { d with serve := { d.serve with leaving := modFirst (fun p => p.1 == n) (fun p => (n, f p.2)) d.serve.leaving } } else d.modCtx n f

/-- One context references a node no longer: a node without a key goes with its last reference (R375, R376). Its page accrues apart from
now on (R378). -/
def Die.dropRef (d : Die) (i : Nat) : Die :=
  match d.node i with
  | none => d
  | some x =>
    let d1 := d.putNode i { x with refs := x.refs - 1, accrued := d.now }
    if !x.keyed && x.refs ≤ 1 then d1.deleteNode i else d1

/-- A context leaves its pages from index `page` on, with the leaf tables that then hold nothing, but for those that a prefix node or another
context still has (R333, R376); the entries of the leaf table kept are no longer present (R336). -/
def Die.leaveFrom (d : Die) (n page : Nat) : Die :=
  let c := d.heldCtx n
  let gone := c.nodes.filter (fun i => match d.node i with | some x => decide (page ≤ x.index) | none => true)
  let k := (page + 1023) / 1024
  let d1 := gone.foldl (fun e i => e.dropRef i) d
  let d2 := d1.modHeld n (fun x => { x with
    pages := x.pages.take page, leaves := x.leaves.take k, nodes := x.nodes.filter (fun i => !gone.contains i), gone := x.gone || page == 0 })
  let d3 := match c.leaves[page / 1024]? with
    | some l => if page % 1024 = 0 then d2 else d2.setBytes (4096 * l + 4 * (page % 1024)) (zeros (4 * (min c.pages.length (1024 * k) - page)))
    | none => d2
  let d4 := if page = 0 then { d3 with serve := { d3.serve with leaving := dropPick (fun p => p.1 == n) d3.serve.leaving } } else d3
  (c.pages.drop page ++ c.leaves.drop k).foldl (fun e u => e.dropPage u) d4

/-- Carries out one prefix change of a plan (R371). -/
def Die.prefixOp (d : Die) (o : PrefixOp) : Die :=
  match o with
  | .hold n i =>
    match d.node i with
    | none => d
    | some x => (d.putNode i { x with refs := x.refs + 1, lastUse := d.now }).modHeld n (fun c => { c with nodes := addOnce c.nodes i })
  | .make i n page key parent tenant pack =>
    match (d.heldCtx n).pages[page]? with
    | none => d
    | some u =>
      ((d.addChild parent true).putNode i {
        key := key, parent := parent, page := u, refs := 1, tenant := tenant, pack := pack, index := page,
        children := 0, keyed := true, lastUse := d.now, accrued := d.now }).modHeld n (fun c => { c with nodes := addOnce c.nodes i })
  | .delete i => d.deleteNode i
  | .publish i key parent =>
    match d.node i with
    | none => d
    | some x =>
      let d1 := (d.addChild x.parent false).addChild parent true
      match d1.node i with
      | none => d1
      | some y => d1.putNode i { y with key := key, tenant := 0xFFFF, parent := parent }
  | .unkey i =>
    match d.node i with
    | none => d
    | some x => d.putNode i { x with keyed := false }
  | .leave n page => d.leaveFrom n page

/-- Another module carries out a prefix change of a plan (R328, R371): the page of a matched node joins its copy's page table too, and a live
context that leaves pages accrues first (R378). -/
def Die.prefixFollow (d : Die) (o : PrefixOp) : Die :=
  match o with
  | .hold n i =>
    let e := d.prefixOp o
    match d.node i with
    | none => e
    | some x =>
      if (look d.serve.leaving n).isSome then e.modHeld n (fun c => { c with pages := c.pages ++ [x.page] })
      else if (e.ctx n).pages.length = x.index then (e.appendPage n x.page).getD e else e
  | .leave n _ => (if (look d.serve.leaving n).isNone && (d.ctx n).live then d.accrueCtx n else d).prefixOp o
  | _ => d.prefixOp o

/-- The words of a change of the prefix tree on a link. -/
def opWords (o : PrefixOp) : List Nat :=
  let opt (p : Option Nat) : Nat := p.getD 0xFFFFFFFF
  match o with
  | .hold n i => [1, n, i]
  | .make i n page key parent tenant pack => [2, i, n, page, key, opt parent, tenant, pack]
  | .delete i => [3, i]
  | .publish i key parent => [4, i, key, opt parent]
  | .unkey i => [5, i]
  | .leave n page => [6, n, page]

/-- The changes that no plan has carried yet go out by themselves, in order. -/
def Die.sendOps (d : Die) : Die :=
  let first := match d.serve.heldPlan with | some p => p.prefixes | none => []
  let ops := first ++ d.serve.planOps
  if ops.isEmpty || !d.isFront then d
  else ({ d with serve := { d.serve with
    planOps := [], heldPlan := d.serve.heldPlan.map (fun (p : StepPlan) => { p with prefixes := [] }) } }).toChildren lmPrefixOps
      (ops.map opWords).flatten

/-- The front carries out a prefix change and sends it with its next plan, or at once while no table runs and no plan is to come (DEDUCED, log
entry 76); another module that must act by itself only carries it out. -/
def Die.prefixDo (d : Die) (o : PrefixOp) : Die :=
  let d1 := d.prefixOp o
  if !d1.isFront then d1
  else
    let d2 := { d1 with serve := { d1.serve with planOps := d1.serve.planOps ++ [o] } }
    if d2.tideState = 3 ∨ d2.tideState = 4 then d2 else d2.sendOps

/-- The leaf node with no reference that was used longest ago (R376). -/
def Die.oldestLeaf (d : Die) : Option Nat :=
  ((d.tenancy.nodes.filter (fun p => p.2.keyed && p.2.refs == 0 && p.2.children == 0)).foldl
    (fun (b : Option (Nat × Nat)) p => match b with
      | none => some (p.1, p.2.lastUse)
      | some q => if p.2.lastUse < q.2 then some (p.1, p.2.lastUse) else b) none).map (·.1)

/-- One eviction. -/
def Die.evictOne (d : Die) : Option Die :=
  match d.oldestLeaf with
  | none => none
  | some i =>
    let d1 := d.prefixDo (.delete i)
    some { d1 with tenancy := { d1.tenancy with evictions := d1.tenancy.evictions + 1 } }

/-- Evicts while `more` asks for it and a leaf remains, at most `fuel` times. -/
def Die.evictWhile (fuel : Nat) (more : Die → Bool) (d : Die) : Die :=
  match fuel with
  | 0 => d
  | k + 1 => if more d then match d.evictOne with | none => d | some e => Die.evictWhile k more e else d

/-- Whether `n` pages beyond all reserves can be supplied on this module and on each of the others, by its last count and what the front has
decided since (R337, R363). -/
def Die.canSupply (d : Die) (n : Nat) : Bool :=
  decide (n + d.reserved ≤ d.freePages) && d.serve.others.all (fun p => decide (n + d.reserved ≤ p.2))

/-- The least that any module of the slice has free beyond all reserves. -/
def Die.leastFree (d : Die) : Nat := (d.serve.others.map (·.2)).foldl min d.freePages - d.reserved

/-- Evicts until `n` pages beyond all reserves can be supplied, or no leaf remains (R376). -/
def Die.evictFor (d : Die) (n : Nat) : Die :=
  Die.evictWhile d.tenancy.nodes.length (fun e => !e.canSupply n) d

/-- The front keeps the unreferenced pages of the tree within PREFIX_MAX (R371, R376). -/
def Die.trimTree (d : Die) : Die :=
  match (if d.isFront then d.tenancy.tree else none) with
  | none => d
  | some p =>
    let quarter := match d.serve.kv with | some k => poolPages k / 4 | none => 0
    Die.evictWhile d.tenancy.nodes.length (fun e => decide (p.maxFree.getD quarter < e.idlePages)) d

/-- The node whose page a context holds at page index `p`. -/
def Die.nodeAt (d : Die) (n p : Nat) : Option (Nat × Node) :=
  (((d.ctx n).nodes.filterMap (fun i => (d.node i).map (fun x => (i, x)))).find? (fun q => q.2.index == p))

/-- The 64 prompt tokens of page `p` of a context. -/
def Ctx.pageTokens (c : Ctx) (p : Nat) : List Nat := (List.range 64).map (fun j => (look c.prompt (64 * p + j)).getD 0)

/-- The key of page `p` of a context as its own tokens spell it: that of the node it holds there, else computed from the page
before (R371, R374). -/
def Die.chainKey (d : Die) (n p : Nat) : Nat :=
  match p with
  | 0 =>
    match d.nodeAt n 0 with
    | some q => q.2.key
    | none => prefixKey d.modelId (d.ctx n).tenant (d.tenantActing (d.ctx n).tenant).packId ((d.ctx n).pageTokens 0)
  | k + 1 =>
    match d.nodeAt n (k + 1) with
    | some q => q.2.key
    | none => prefixKey (d.chainKey n k) (d.ctx n).tenant (d.tenantActing (d.ctx n).tenant).packId ((d.ctx n).pageTokens (k + 1))

/-- The key above page `p` of a context. -/
def Die.parentKey (d : Die) (n p : Nat) : Nat := match p with | 0 => d.modelId | k + 1 => d.chainKey n k

/-- The front extends a QUEUED context's match page by page (R373). -/
def Die.matchPages (fuel : Nat) (d : Die) (n : Nat) : Die :=
  match fuel with
  | 0 => d
  | k + 1 =>
    let c := d.ctx n
    let t := d.tenantActing c.tenant
    let p := c.pages.length
    if min c.promptRcvd (c.promptLen - 1) < 64 * (p + 1) then d
    else
      let key := prefixKey (d.parentKey n p) c.tenant t.packId (c.pageTokens p)
      let pubKey := prefixKey (d.parentKey n p) 0xFFFF t.packId (c.pageTokens p)
      let hit := match d.findKey key c.tenant t.packId with
        | some q => some q
        | none => if t.reuse = 2 then d.findKey pubKey 0xFFFF t.packId else none
      match hit with
      | none => d
      | some q =>
        match d.appendPage n q.2.page with
        | none => d
        | some e =>
          let e1 := (e.prefixDo (.hold n q.1)).modCtx n (fun x => { x with promptDone := 64 * (p + 1) })
          let e2 := { e1 with tenancy := { e1.tenancy with matched := e1.tenancy.matched + 1 } }
          Die.matchPages k (e2.modMeter c.tenant (fun m => { m with reused := m.reused + 64 })) n

/-- The lookup that a fill makes for a QUEUED context. -/
def Die.matchCtx (d : Die) (n : Nat) : Die :=
  if (d.tenantActing (d.ctx n).tenant).reuse = 0 ∨ d.tenancy.tree.isNone = true then d
  else
    let d1 := { d with tenancy := { d.tenancy with lookups := d.tenancy.lookups + 1 } }
    Die.matchPages ((d.ctx n).promptLen / 64) d1 n

/-- The lowest node index not in use, below NODES. -/
def Die.freeNode (d : Die) : Option Nat :=
  match d.tenancy.tree with
  | none => none
  | some p => (List.range (d.tenancy.nodes.length + 1)).find? (fun i => decide (i < p.nodes) && (d.node i).isNone)

/-- Page `p` of a context is complete: the front inserts a node for it (R374); where the key exists or the table is full (log entry 25) the
page stays private, as does one whose tokens the front does not have. -/
def Die.insertPage (d : Die) (n p : Nat) : Die :=
  let c := d.ctx n
  let t := d.tenantActing c.tenant
  if t.reuse = 0 ∨ c.promptLen < 64 * (p + 1) ∨ c.promptRcvd < 64 * (p + 1) ∨ (d.nodeAt n p).isSome = true then d
  else
    let key := d.chainKey n p
    match d.findKey key c.tenant t.packId, d.freeNode with
    | none, some i =>
      let parent := match p with
        | 0 => none
        | k + 1 => match d.nodeAt n k with
          | some q => some q.1
          | none => (d.findKey (d.chainKey n k) c.tenant t.packId).map (·.1)
      d.prefixDo (.make i n p key parent c.tenant t.packId)
    | _, _ => d

/-- The pages completed from position `a` to position `b`. -/
def Die.insertPages (d : Die) (n a b : Nat) : Die :=
  (List.range (b / 64)).foldl (fun e p => if a < 64 * (p + 1) then e.insertPage n p else e) d

/-- Node `i` as it lies in the node table (R372): CHAIN the next node of its bucket (key modulo 2 ^ h, log entry 25), LRU links
the neighbours in the eviction order. -/
def Die.nodeBytes (d : Die) (h i : Nat) (x : Node) : List Byte :=
  let chain := (d.tenancy.nodes.find? (fun p => decide (i < p.1) && p.2.key % 2 ^ h == x.key % 2 ^ h)).map (·.1)
  let idle := d.tenancy.nodes.filter (fun p => p.2.refs == 0 && p.2.children == 0)
  let before := (idle.filter (fun p => decide (p.2.lastUse < x.lastUse) || (p.2.lastUse == x.lastUse && decide (p.1 < i))))
  let after := (idle.filter (fun p => decide (x.lastUse < p.2.lastUse) || (p.2.lastUse == x.lastUse && decide (i < p.1))))
  let pick (l : List (Nat × Node)) (newest : Bool) : Nat :=
    ((l.foldl (fun (b : Option (Nat × Node)) p => match b with
      | none => some p
      | some q => if newest then (if q.2.lastUse ≤ p.2.lastUse then some p else b)
                  else (if p.2.lastUse < q.2.lastUse then some p else b)) none).map (·.1)).getD 0xFFFFFFFF
  let inList := x.refs == 0 && x.children == 0
  natLe 8 x.key ++ natLe 4 (x.parent.getD 0xFFFFFFFF) ++ natLe 4 (pageWord x.page) ++ natLe 4 x.refs ++ natLe 2 x.tenant ++
  natLe 2 (b2n x.keyed + 2 * b2n (x.tenant == 0xFFFF)) ++ natLe 4 x.pack ++ natLe 2 x.children ++ natLe 2 x.index ++
  natLe 4 (chain.getD 0xFFFFFFFF) ++ natLe 4 (if inList then pick before true else 0xFFFFFFFF) ++
  natLe 4 (if inList then pick after false else 0xFFFFFFFF) ++ zeros 4 ++ natLe 8 x.lastUse ++ zeros 8

/-- Writes the node table and the hash index to DRAM after changes of the tree (`old` the nodes before them): entries and buckets no longer
in use are empty. -/
def Die.treeOut (d : Die) (old : List (Nat × Node)) : Die :=
  match d.tenancy.tree with
  | none => d
  | some p =>
    let d1 := old.foldl (fun e q => (e.setBytes (p.table + 64 * q.1) (zeros 64)).setBytes (p.index + 4 * (q.2.key % 2 ^ p.h))
      (natLe 4 0xFFFFFFFF)) d
    d.tenancy.nodes.foldl (fun e q =>
      let first := (d.tenancy.nodes.find? (fun r => r.2.key % 2 ^ p.h == q.2.key % 2 ^ p.h)).map (·.1)
      (e.setBytes (p.table + 64 * q.1) (d.nodeBytes p.h q.1 q.2)).setBytes (p.index + 4 * (q.2.key % 2 ^ p.h))
        (natLe 4 (first.getD 0xFFFFFFFF))) d1

/-- Runs `f` and writes the tree out where it changed. -/
def Die.withTree (d : Die) (f : Die → Die) : Die :=
  let e := f d
  if e.tenancy.nodes = d.tenancy.nodes then e else e.treeOut d.tenancy.nodes

/-- PREFIX_CFG takes force on a module: an empty tree under the new parameters, its table and its index cleared (R372). -/
def Die.setTree (d : Die) (p : PrefixParams) : Die :=
  let pages := d.tenancy.nodes.map (fun q => q.2.page)
  let d1 := { d with
    tenancy := { d.tenancy with nodes := [], tree := some p },
    serve := { d.serve with ctxs := d.serve.ctxs.map (fun (q : Nat × Ctx) => (q.1, { q.2 with nodes := [] })) } }
  ((pages.foldl (fun e u => e.dropPage u) d1).setBytes p.table (zeros (64 * p.nodes))).setBytes p.index (List.replicate (4 * 2 ^ p.h) 0xFF)

/-- The tree is emptied: unreferenced pages return to the pool (R376). -/
def Die.emptyTree (d : Die) : Die :=
  let pages := d.tenancy.nodes.map (fun p => p.2.page)
  let old := d.tenancy.nodes
  let d1 := { d with
    tenancy := { d.tenancy with nodes := [] },
    serve := { d.serve with ctxs := d.serve.ctxs.map (fun (p : Nat × Ctx) => (p.1, { p.2 with nodes := [] })) } }
  (pages.foldl (fun e u => e.dropPage u) d1).treeOut old

/-! ### Stream entries (R351) -/

/-- One entry of STREAM_OUT: 24 bytes (R351). -/
def entryBytes (e : StreamOut) : List Byte :=
  natLe 4 e.ctx ++ natLe 4 e.index ++ natLe 4 e.token ++ natLe 2 e.flags ++ natLe 1 e.reason ++ natLe 1 0 ++ natLe 8 e.time

/-- Sends the entries gathered so far, 256 to a message, to the session that holds STREAM; without one each message is counted
as lost (R435). -/
def Die.sendStream (fuel : Nat) (d : Die) (l : List StreamOut) : Die :=
  match fuel with
  | 0 => d
  | k + 1 =>
    if l.isEmpty then d
    else
      let d1 := match d.slotsWith 2 with
        | [] => d.bump (⟨Reg.HP_EVT_LOST, 0, 32⟩) 1
        | s :: _ => match d.session s with
          | none => d
          | some x => d.sayTo s x 0 0x51 0 0 ((l.take 256).map entryBytes).flatten
      Die.sendStream k d1 (l.drop 256)

/-- Some step has retired a part of its berths. -/
def Die.midRetire (d : Die) : Bool := d.serve.steps.any (fun s => decide (0 < s.retired) && !s.done)

/-- Sends the gathered entries once no step is part retired. -/
def Die.flushStream (d : Die) : Die :=
  if d.midRetire then d
  else Die.sendStream (d.serve.outBuf.length + 1) { d with serve := { d.serve with outBuf := [] } } d.serve.outBuf

/-- One entry, in the order of causes. -/
def Die.entry (d : Die) (x : StreamOut) : Die :=
  ({ d with serve := { d.serve with outBuf := d.serve.outBuf ++ [x] } }).flushStream

/-! ### The end of a context (R333) -/

/-- The part of a record that the copies on the other modules take (R328). -/
def Ctx.copy (c : Ctx) : CtxCopy :=
  { state := c.state, reason := c.reason, tenant := c.tenant, reqId := c.reqId, flags := c.flags, promptLen := c.promptLen,
    promptRcvd := c.promptRcvd, promptDone := c.promptDone, maxOut := c.maxOut, outCount := c.outCount, reserve := c.reserve,
    invTemp := c.invTemp, rng := c.rng, stop := c.stop, dlFirst := c.dlFirst, dlGap := c.dlGap, dlEnd := c.dlEnd, tSubmit := c.tSubmit,
    tLast := c.tLast, berth := c.berth, step := c.step, lastTokens := c.lastTokens, peer := c.peer }

/-- A copy with the front's record taken over at device time `now`: its pages stay this module's own. -/
def Ctx.follow (c : Ctx) (k : CtxCopy) (now : Nat) : Ctx :=
  { c with
    state := k.state, reason := k.reason, tenant := k.tenant, reqId := k.reqId, flags := k.flags, promptLen := k.promptLen,
    promptRcvd := k.promptRcvd, promptDone := k.promptDone, maxOut := k.maxOut, outCount := k.outCount, reserve := k.reserve,
    invTemp := k.invTemp, rng := k.rng, stop := k.stop, dlFirst := k.dlFirst, dlGap := k.dlGap, dlEnd := k.dlEnd, tSubmit := k.tSubmit,
    tLast := k.tLast, berth := k.berth, step := k.step, lastTokens := k.lastTokens, peer := k.peer,
    since := if c.state = k.state then c.since else now, accrued := if c.state = 0 then now else c.accrued }

/-- A record's words on a link. -/
def copyWords (n : Nat) (k : CtxCopy) : List Nat :=
  [n, k.state, k.reason, k.tenant, k.reqId, k.flags, k.promptLen, k.promptRcvd, k.promptDone, k.maxOut, k.outCount, k.reserve,
    k.invTemp.toNat, k.rng, k.dlFirst, k.dlGap, k.dlEnd, k.tSubmit, k.tLast, k.berth, k.step, k.peer, k.stop.length] ++ k.stop ++
    (k.lastTokens.map (fun p => [p.1, p.2])).flatten

/-- The front tells the other modules of a context's new state (R328). -/
def Die.tellCtx (d : Die) (n : Nat) : Die :=
  if d.isFront then d.toChildren lmCtxState (copyWords n (d.ctx n).copy) else d

/-- Moves a context to a state. -/
def Die.ctxTo (d : Die) (n state reason : Nat) : Die :=
  (d.modCtx n (fun c => { c with state := state, reason := reason, since := d.now })).tellCtx n

/-- A context enters DONE or FAILED: it accrues, frees its pages and its reserve. -/
def Die.ctxOver (d : Die) (n state reason : Nat) : Die :=
  let d1 := (d.accrueCtx n).withTree (fun e => (e.prefixDo (.leave n 0)).trimTree)
  (d1.modCtx n (fun c => { c with reserve := 0, pend := 0 })).ctxTo n state reason

/-- The entry with FINAL and no token that tells of a context's end (R349, R351). -/
def finalEntry (n : Nat) (c : Ctx) (reason now : Nat) : StreamOut :=
  { ctx := n, index := c.outCount, token := 0xFFFFFFFF,
    flags := 2 + 4 * b2n (c.flag cfDegraded) + 16 * b2n (c.flag cfRetried), reason := reason, time := now }

/-- A context ends without a token of its own to carry FINAL. -/
def Die.endCtx (d : Die) (n state reason : Nat) : Die :=
  let d1 := d.ctxOver n state reason
  if d.isFront then d1.entry (finalEntry n (d.ctx n) reason d.now) else d1

/-- A context is parked: the state it left is kept (R333). -/
def Die.parkCtx (d : Die) (n reason : Nat) : Die :=
  (d.modCtx n (fun c => { c with left := c.state })).ctxTo n csParked reason

/-- A PARKED context returns to the state it left. -/
def Die.resumeCtx (d : Die) (n : Nat) : Die := d.ctxTo n (d.ctx n).left 0

/-- What waits for the retirement of a context's step: the first of a park and a table stop, and a cancel before either (R333). -/
def Ctx.await (c : Ctx) (k : Nat) : Ctx := { c with pend := if k = 1 then 1 else if c.pend = 0 then k else c.pend }

/-- Cancels a context now, or at the retirement of the step it holds a berth of (R333). -/
def Die.cancelCtx (d : Die) (n : Nat) : Die :=
  if d.holdsBerth n then d.modCtx n (fun c => c.await 1) else d.endCtx n csDone 4

/-- A module beside the front returns its free page count (R363). -/
def Die.tellFree (d : Die) : Die := if d.isFront then d else d.toFront lmFreePages [d.coord, d.freePages]

/-- A command refused for the context's state: code STATE and record SRV 1 (R333, R571). -/
def Die.stateRefused (d : Die) (box code n : Nat) : Die :=
  (d.record 0x21 1 92 0xFFFF [code, n, (d.ctx n).state]).reply box rcState []

end Sys2Proof.Machine
end

