-- ==== Sys2Proof/Machine/Steps.lean ====
section
/-! DEFINITION. Steps and berths (R339 to R349, R366 to R369): filling, plans, berth inputs, results and retirement. -/
namespace Sys2Proof.Machine

/-! ### Order (R339) -/

/-- Inserts by key, after equal keys. -/
def insertBy {α : Type} (key : α → List Nat) (x : α) (l : List α) : List α :=
  match l with
  | [] => [x]
  | y :: r => if lexLt (key x) (key y) then x :: y :: r else y :: insertBy key x r

def sortBy {α : Type} (key : α → List Nat) (l : List α) : List α := l.foldl (fun a x => insertBy key x a) []

/-- The deadline in force for the next output token; 0 when there is none (R348). -/
def Ctx.deadline (c : Ctx) : Nat :=
  if c.outCount = 0 then c.dlFirst
  else
    let g := if c.dlGap = 0 then 0 else c.tLast + 1000 * c.dlGap
    if c.dlEnd = 0 then g else if g = 0 then c.dlEnd else min c.dlEnd g

/-- Whether that deadline has passed. -/
def Ctx.lateAt (c : Ctx) (now : Nat) : Bool := decide (c.deadline ≠ 0) && decide (c.deadline < now)

def decodeRank (p : Nat × Ctx) : List Nat := [b2n (p.2.deadline == 0), p.2.deadline, p.2.tSubmit, p.1]
def chunkRank (p : Nat × Ctx) : List Nat :=
  [b2n (p.2.state != csPrefill), b2n (p.2.dlFirst == 0), p.2.dlFirst, p.2.tSubmit, p.1]

/-! ### Filling (R339, R366) -/

/-- A fill in progress: the die, the step, berths placed, the sum of context lengths, and berths still free. -/
structure Fill where
  die : Die
  step : Nat
  placed : List PlanBerth
  attn : Nat
  free : List Nat
  deriving DecidableEq, Repr

/-- Position and number of the tokens a context would carry in a berth of kind 1 (decode) or 2 (chunk) (R340). -/
def Ctx.next (c : Ctx) (l kind : Nat) : Nat × Nat :=
  if kind = 1 then (c.promptLen + c.outCount - 1, 1) else (c.promptDone, min l (c.promptRcvd - c.promptDone))

/-- Whether a chunk is FINAL (R340). -/
def Ctx.chunkFinal (c : Ctx) (l : Nat) : Bool :=
  let e := (c.next l 2).1 + (c.next l 2).2
  e == c.promptLen || (c.flag cfPromptFinal && e == c.promptRcvd)

/-- The tokens of a berth. -/
def Ctx.nextTokens (c : Ctx) (l kind : Nat) : List Nat :=
  let q := c.next l kind
  if kind = 1 then [(look c.lastTokens ((c.outCount - 1) % 16)).getD 0]
  else (List.range q.2).map (fun j => (look c.prompt (q.1 + j)).getD 0)

/-- Contexts that may compete for a berth of a kind (R339). -/
def Die.candidates (d : Die) (l kind : Nat) : List (Nat × Ctx) :=
  let ok (p : Nat × Ctx) : Bool := !d.holdsBerth p.1 && (if kind = 1 then p.2.state == csDecode
    else (p.2.state == csPrefill || p.2.state == csQueued) && decide (0 < (p.2.next l 2).2))
  sortBy (if kind = 1 then decodeRank else chunkRank) (d.serve.ctxs.filter ok)

/-- Pages and leaf tables a context lacks for a length. -/
def Ctx.lacks (c : Ctx) (len : Nat) : Nat :=
  ((len + 63) / 64 - c.pages.length) + (((len + 63) / 64 + 1023) / 1024 - c.leaves.length)

/-- Tenants with a pack among the berths placed, in order of placement. -/
def Fill.packTenants (f : Fill) : List Nat :=
  f.placed.foldl (fun l b => if (f.die.tenantActing b.tenant).packId = 0 then l else addOnce l b.tenant) []

/-- The rule of R369 for streamed slots: the step's tenants fit half of the slots everywhere. -/
def Fill.steerFits (f : Fill) (t : Nat) : Bool :=
  if (f.die.tenantActing t).packId = 0 then true
  else match f.die.tenancy.steer with
    | none => true
    | some s => s.entries.all (fun e => e.pinned || decide ((addOnce f.packTenants t).length ≤ e.slots / 2))

/-- The fill with a context tried for a berth of a kind: it is placed, or passed over, or parked for want of pages (R337, R339,
R369, R376). One that is parked competes no more in this fill. `steer` says whether the rule for streamed slots counts. -/
def Fill.tryPlace (f : Fill) (t : Table) (kind n : Nat) (steer : Bool := true) : Fill :=
  let c := f.die.ctx n
  let q := c.next t.chunkTok kind
  let len := q.1 + q.2
  let apt := if kind = 1 then c.state == csDecode else c.state == csPrefill || c.state == csQueued
  if !apt || f.free.isEmpty || f.placed.any (fun b => b.ctx == n) || decide (t.attnBudget < f.attn + len) ||
      (steer && !f.steerFits c.tenant) then f
  else
    let need := c.lacks len
    let extra := need - c.reserve
    let d1 := if f.die.canSupply extra then f.die else f.die.withTree (fun e => e.evictFor extra)
    let got := if d1.canSupply extra then d1.addPages n ((len + 63) / 64 - c.pages.length) else none
    match got with
    | none => { f with die := d1.parkCtx n 33 }
    | some d2 =>
      let b := if f.free.contains c.berth then c.berth else (f.free.head?).getD 0
      let d3 := d2.modCtx n (fun x => { x with berth := b, step := f.step })
      let d4 := if c.state = csQueued then d3.ctxTo n csPrefill 0 else d3
      let pb : PlanBerth :=
        { berth := b, kind := kind, ctx := n, tenant := c.tenant, start := q.1, ntok := q.2,
          final := kind == 2 && c.chunkFinal t.chunkTok, sample := c.flag cfSample, rand := c.rng, invTemp := c.invTemp,
          tokens := c.nextTokens t.chunkTok kind, pack := (f.die.tenantActing c.tenant).packId }
      { f with die := d4, placed := f.placed ++ [pb], attn := f.attn + len, free := without f.free b }

def Die.credit (d : Die) (t kind : Nat) : Int := amGet 0 d.serve.credit (2 * t + (kind - 1))
def Die.setCredit (d : Die) (t kind : Nat) (v : Int) : Die :=
  { d with serve := { d.serve with credit := amSet 0 d.serve.credit (2 * t + (kind - 1)) v } }

/-- Credits of one kind before a fill (R366): the weighted share for backlogged tenants, 0 for the others. -/
def Die.shareCredits (d : Die) (kind n : Nat) (back : List Nat) : Die :=
  let w := (back.map (fun t => (d.tenantActing t).weight)).sum
  let others := (d.serve.credit.filter (fun p => p.1 % 2 == kind - 1 && !back.contains (p.1 / 2))).map (fun p => p.1 / 2)
  let d1 := others.foldl (fun e t => e.setCredit t kind 0) d
  back.foldl (fun e t =>
    let c := e.credit t kind + (65536 * n * (d.tenantActing t).weight / max 1 w : Nat)
    let lim : Int := (2 * 65536 * n : Nat)
    e.setCredit t kind (clampI (-lim) lim c)) d1

/-- One pass of fill_kind (R366): in the first only tenants with a whole berth of credit. -/
def Fill.pass (f : Fill) (t : Table) (kind : Nat) (first : Bool) (l : List Nat) : Fill :=
  l.foldl (fun g n =>
    let tn := (g.die.ctx n).tenant
    if first && decide (g.die.credit tn kind < 65536) then g
    else
      let h := g.tryPlace t kind n
      if h.placed.length = g.placed.length then h
      else { h with die := h.die.setCredit tn kind (h.die.credit tn kind - 65536) }) f

/-- The backlogged tenants of a kind (R366): those of which R339 would place a context, its attention budget and the pages of R337 counted,
if berths were unlimited. -/
def Fill.backlogged (f : Fill) (t : Table) (kind : Nat) (l : List Nat) : List Nat :=
  let g := l.foldl (fun g n => g.tryPlace t kind n false) { f with free := List.range l.length }
  (g.placed.drop f.placed.length).foldl (fun m b => addOnce m b.tenant) []

/-- Fills the berths of one kind (R339, R366). -/
def Fill.kind (f : Fill) (t : Table) (kind : Nat) (berths : List Nat) : Fill :=
  let l := (f.die.candidates t.chunkTok kind).map (·.1)
  let d1 := f.die.shareCredits kind berths.length (f.backlogged t kind l)
  let f1 := { f with die := d1, free := berths }
  (f1.pass t kind true l).pass t kind false l

/-- A deadline tested (R348, R349): a context under DROP whose deadline has passed ends DONE with DEADLINE. -/
def Die.dropLate (d : Die) (n : Nat) : Die :=
  let c := d.ctx n
  if (d.tenantActing c.tenant).drop && c.lateAt d.now && (c.state == csQueued || c.state == csPrefill || c.state == csDecode) then
    (d.endCtx n csDone 5).modMeter c.tenant (fun m => { m with dropped := m.dropped + 1 })
  else d

/-- A context parked for pages resumes at the first fill at which its pages can be supplied (R337). -/
def Die.resumePages (d : Die) (t : Table) (n : Nat) : Die :=
  let c := d.ctx n
  if c.state = csParked ∧ c.reason = 33 then
    let q := c.next t.chunkTok (if c.left = csDecode then 1 else 2)
    if d.canSupply (c.lacks (q.1 + q.2) - c.reserve) then d.resumeCtx n else d
  else d

/-- The numbers of all contexts in use. -/
def Die.ctxNums (d : Die) : List Nat := d.serve.ctxs.map (·.1)

/-- What a fill decides before it places anything: deadlines, contexts parked for pages, prefix matches (R337, R349, R373). -/
def Die.beforeFill (d : Die) (t : Table) : Die :=
  let d1 := d.ctxNums.foldl (fun e n => if e.holdsBerth n then e else e.dropLate n) d
  let d2 := d1.ctxNums.foldl (fun e n => e.resumePages t n) d1
  d2.ctxNums.foldl (fun e n => if (e.ctx n).state = csQueued then e.matchCtx n else e) d2

/-- The whole fill of a step. -/
def Die.fillStep (d : Die) (t : Table) : Fill :=
  let d1 := d.withTree (fun e => e.beforeFill t)
  let f : Fill := { die := d1, step := d.serve.nextStep, placed := [], attn := 0, free := [] }
  (f.kind t 1 (List.range t.decode)).kind t 2 ((List.range t.chunk).map (· + t.decode))

/-! ### Berth inputs (R341, R342, R338, R369) -/

/-- The firmware writes bytes through the packet plane at an operand of a tile (R185, R216). -/
def Die.opWrite (d : Die) (t word : Nat) (bs : List Byte) : Die :=
  let r := word / 2 ^ 24 % 256
  let off := word % 2 ^ 24
  let a := d.rgnOff t r + off
  if d.packetOk t a bs.length true then (d.sramUse t a bs.length).setBytes (tileAddr t + a) bs else d.packetFault t a

/-- Bytes of one vector of `n` Shingle-8 blocks in panels (R144, R368), and of a steering entry. -/
def vecBytes (n : Nat) : Nat := n / 32 * 1056 + (if n % 32 = 0 then 0 else (33 * (n % 32) + 15) / 16 * 16)
def steerBytes (nb : Nat) : Nat := (2 * vecBytes nb + 63) / 64 * 64

/-- Tenants placed with a pack in a step's berths, in berth order. -/
def Die.stepTenants (d : Die) (step : Nat) : List Nat :=
  match d.serve.steps.find? (fun s => s.step == step) with
  | none => []
  | some s => s.berths.foldl (fun l b => if b.pack = 0 then l else addOnce l b.tenant) []

/-- A berth of a step before `step` placed with a tenant's pack has an input to be written still, or its step has not retired: the pack's
data stay where they are (R359). -/
def Die.packUsed (d : Die) (tenant pack step : Nat) : Bool :=
  d.serve.inputs.any (fun q => decide (q.1 < step) && q.2.tenant == tenant && q.2.pack == pack && q.2.kind != 0) ||
    d.serve.steps.any (fun s => decide (s.step < step) && !s.done && s.berths.any (fun b => b.tenant == tenant && b.pack == pack))

/-- A pinned slot is taken: by a tenant bound to a pack, or for berths that still use what it holds (R359, R369). -/
def Die.pinLive (d : Die) (p : Pin) : Bool :=
  decide ((d.tenant p.tenant).packId ≠ 0) || decide ((d.tenantActing p.tenant).packId ≠ 0) ||
    (decide (p.pack ≠ 0) && d.packUsed p.tenant p.pack (d.serve.nextStep + 2))

/-- The slots of a pinned entry that no tenant holds. -/
def Die.freeSlotOf (d : Die) (ix slots : Nat) : Option Nat :=
  (List.range slots).find? (fun s => !d.tenancy.pinned.any (fun p => p.entry == ix && p.slot == s && d.pinLive p))

/-- A tenant takes a slot on every pinned entry of a list where it has none; none where an entry has no free slot (R369). -/
def Die.pinSlots (d : Die) (t : Nat) (l : List (Nat × SteerEntry)) : Option Die :=
  match l with
  | [] => some d
  | q :: r =>
    if !q.2.pinned || d.tenancy.pinned.any (fun (p : Pin) => p.entry == q.1 && p.tenant == t) then d.pinSlots t r
    else match d.freeSlotOf q.1 q.2.slots with
      | none => none
      | some s =>
        let rest := d.tenancy.pinned.filter (fun (p : Pin) => !(p.entry == q.1 && p.slot == s))
        Die.pinSlots { d with tenancy := { d.tenancy with
          pinned := rest ++ [{ entry := q.1, slot := s, tenant := t, pack := 0 }] } } t r

/-- The slot that holds a berth's pack in a steering entry at a step (R369). -/
def Die.slotOf (d : Die) (ix : Nat) (e : SteerEntry) (tenant pack step : Nat) : Option Nat :=
  if e.pinned then (d.tenancy.pinned.find? (fun p => p.entry == ix && p.tenant == tenant && p.pack == pack)).map (fun p => p.slot)
  else ((d.stepTenants step).findIdx? (fun t => t == tenant)).map (fun i => step % 2 * (e.slots / 2) + i)

/-- The operand word of a slot. -/
def slotWord (e : SteerEntry) (slot : Nat) : Nat := e.slotRegion % 256 * 2 ^ 24 + slot * steerBytes e.nb

/-- Copies a pack's entry from the pack store into a slot (R369). -/
def Die.copySteer (d : Die) (base : Nat) (e : SteerEntry) (pack slot : Nat) : Die :=
  match d.tenancy.packs.find? (fun p => p.id == pack) with
  | none => d
  | some p =>
    match p.entries.find? (fun x => x.1 == e.tile && x.2.1 == e.layer) with
    | none => d
    | some x => d.opWrite e.tile (slotWord e slot) (d.bytesAt (base + p.off + x.2.2.1) x.2.2.2)

/-- Every steering entry with its index. -/
def Die.steerEntries (d : Die) : List (Nat × SteerEntry) :=
  match d.tenancy.steer with
  | none => []
  | some s => (List.range s.entries.length).zip s.entries

def Die.packBase (d : Die) : Nat := match d.tenancy.steer with | none => 0 | some s => s.base

/-- Copies the streamed entries of a berth's pack for its step. -/
def Die.copyPack (d : Die) (tenant pack step : Nat) : Die :=
  d.steerEntries.foldl (fun e q =>
    if q.2.pinned then e
    else match e.slotOf q.1 q.2 tenant pack step with
      | none => e
      | some s => e.copySteer d.packBase q.2 pack s) d

/-- Whether this module holds a pack. -/
def Die.hasPack (d : Die) (pack : Nat) : Bool := d.tenancy.packs.any (fun p => p.id == pack)

/-- The pinned slots of a berth's tenant can hold its pack now: each holds it, or can be filled with it because no earlier berth uses
what it holds, or is free (R359, R369). -/
def Die.pinReady (d : Die) (step : Nat) (b : PlanBerth) : Bool :=
  b.kind == 0 || b.pack == 0 || !d.hasPack b.pack || d.steerEntries.all (fun q => !q.2.pinned ||
    (match d.tenancy.pinned.find? (fun p => p.entry == q.1 && p.tenant == b.tenant) with
      | some p => p.pack == b.pack || p.pack == 0 || !d.packUsed b.tenant p.pack step
      | none => (d.freeSlotOf q.1 q.2.slots).isSome))

/-- One pinned slot is filled with a pack. -/
def Die.fillPin (d : Die) (q : Nat × SteerEntry) (tenant pack : Nat) : Die :=
  match d.tenancy.pinned.find? (fun p => p.entry == q.1 && p.tenant == tenant && p.pack != pack) with
  | none => d
  | some p => ({ d with tenancy := { d.tenancy with
      pinned := d.tenancy.pinned.map (fun x => if x = p then { x with pack := pack } else x) } }).copySteer d.packBase q.2 pack p.slot

/-- The pinned slots of a berth's tenant are taken and filled before its words name them (R369). -/
def Die.pinCopies (d : Die) (b : PlanBerth) : Die :=
  if b.kind = 0 ∨ b.pack = 0 ∨ !d.hasPack b.pack = true then d
  else d.steerEntries.foldl (fun e q => if q.2.pinned then e.fillPin q b.tenant b.pack else e)
    ((d.pinSlots b.tenant d.steerEntries).getD d)

/-- The 64-byte header and tokens of a berth input (R341). -/
def inBytes (b : PlanBerth) (step l zeroId : Nat) : List Byte :=
  natLe 4 b.ctx ++ natLe 2 b.tenant ++ natLe 1 b.kind ++ natLe 1 (b2n b.final + 2 * b2n b.sample) ++ natLe 4 b.start ++
  natLe 4 b.ntok ++ natLe 4 step ++ zeros 44 ++
  ((List.range (max 1 l)).map (fun i => natLe 4 (b.tokens.getD i zeroId))).flatten

/-- An empty berth. -/
def emptyBerth (b : Nat) : PlanBerth :=
  { berth := b, kind := 0, ctx := noCtx, tenant := 0xFFFF, start := 0, ntok := 0, final := false, sample := false, rand := 0,
    invTemp := 0, tokens := [] }

/-- Applies one patch to a template (R342). -/
def applyPatch (b : PlanBerth) (p : Patch) (l : List Byte) : List Byte :=
  match p.kind with
  | 0 => splice l 24 (natLe 4 (b.start + p.t))
  | 1 => splice l 24 (natLe 4 (b.start + p.t + 1))
  | 2 => splice l 6 (natLe 2 (b.ntok - p.t))
  | 3 => splice l 24 (natLe 4 b.rand)
  | 4 => splice l 24 (natLe 4 b.invTemp.toNat)
  | 5 => splice l 4 (natLe 1 (setBits (leAt l 4 1) 0 1 (b2n b.sample)))
  | _ => l

/-- One slot of a berth: the live template patched, or the empty one (R342). -/
def Die.writeSlot (d : Die) (tmplBase : Nat) (b : PlanBerth) (ps : List Patch) (tile slot : Nat) : Die :=
  let mine := ps.filter (fun p => p.tile == tile && p.slot == slot)
  match mine with
  | [] => d
  | p :: _ =>
    let bs := if b.kind = 0 ∨ b.ntok ≤ p.t then d.bytesAt (tmplBase + 64 * p.tmpl + 32) 32
      else mine.foldl (fun l q => applyPatch b q l) (d.bytesAt (tmplBase + 64 * p.tmpl) 32)
    d.opWrite tile slot bs

/-- Every slot of a berth (R342). -/
def Die.writeSlots (d : Die) (b : PlanBerth) : Die :=
  match d.serve.stepCfg with
  | none => d
  | some c =>
    let ps := c.patches.filter (fun p => p.berth == b.berth)
    let slots := ps.foldl (fun l p => addOnce l (p.tile, p.slot)) ([] : List (Nat × Nat))
    slots.foldl (fun e q => e.writeSlot c.template b ps q.1 q.2) d

/-- The page lists of a berth (R338): header and entries of each part. -/
def Die.writeLists (d : Die) (b : PlanBerth) : Die :=
  match d.serve.kv with
  | none => d
  | some k =>
    if b.kind = 0 then d
    else
      let pages := (d.ctx b.ctx).pages
      (k.lists.filter (fun q => q.1 == b.berth)).foldl (fun e q =>
        let seg := match k.parts[q.2.1]? with | some p => p.segOff | none => 0
        e.opWrite q.2.2.1 q.2.2.2 (natLe 4 seg ++ natLe 4 pages.length ++ zeros 8 ++
          (pages.map (fun u => natLe 4 (pageWord u))).flatten)) d

/-- The words of a berth in every pack list (R369). -/
def Die.writePacks (d : Die) (b : PlanBerth) (step : Nat) : Die :=
  d.steerEntries.foldl (fun e q =>
    let w := if b.kind = 0 ∨ b.pack = 0 then 0xFF000000
      else match d.slotOf q.1 q.2 b.tenant b.pack step with
        | some s => slotWord q.2 s
        | none => 0xFF000000
    e.opWrite q.2.tile (q.2.listOp + 4 * b.berth) (natLe 4 w)) d

/-- One berth input: slots, page lists, pack lists, then IN with its header and tokens, marked FULL (R342, R369). -/
def Die.writeInput (d : Die) (t : Table) (e : BerthEnt) (step : Nat) (b : PlanBerth) : Die :=
  let zid := match d.serve.stepCfg with | some c => c.zeroId | none => 0
  let d1 := (((d.writeSlots b).writeLists b).pinCopies b).writePacks b step
  (d1.opWrite e.inTile e.inOp (inBytes b step t.chunkTok zid)).mark e.inTile (e.inOp / 2 ^ 24 % 256) true false

/-- Whether a waiting berth input can be written now: its IN is EMPTY, no earlier input of the berth waits, its steering copies are complete
and its pinned slots can hold its pack (R216, R369). -/
def Die.inputReady (d : Die) (t : Table) (step : Nat) (b : PlanBerth) : Option BerthEnt :=
  match t.berths.find? (fun e => e.berth == b.berth) with
  | none => none
  | some e =>
    if d.isFull e.inTile (e.inOp / 2 ^ 24 % 256) || d.serve.steerWait.contains b.berth || !d.pinReady step b ||
        d.serve.inputs.any (fun q => decide (q.1 < step) && q.2.berth == b.berth) then none
    else some e

/-- An input of a step none of whose inputs has been written waits while a repair rank is due, which is written first (R324). -/
def Die.rankFirst (d : Die) (step : Nat) : Bool := decide (d.serve.inStep ≤ step) && d.upkeep.ranks.any (fun r => d.rankDue r)

/-- Writes every berth input that can be written. -/
def Die.serveInputs (d : Die) : Die :=
  match d.tide.table with
  | none => d
  | some t => d.serve.inputs.foldl (fun e q =>
      match (if e.rankFirst q.1 then none else e.inputReady t q.1 q.2) with
      | none => e
      | some be => ({ e with serve := { e.serve with
          inputs := without e.serve.inputs q, inStep := max e.serve.inStep (q.1 + 1) } }).writeInput t be q.1 q.2) d

/-! ### Plans (R343, R358) -/

/-- Tenant changes of a plan take force at the fills after it (R358): a tenant bound to a pack takes its pinned slots (R369), which are filled
as a berth placed with the pack first needs them; buckets are programmed again. -/
def Die.tenantsChange (d : Die) (l : List (Nat × TenantParams)) : Die :=
  if l.isEmpty then d
  else
    let d1 := l.foldl (fun e p => { e with tenancy := { e.tenancy with
      acting := amSet defaultTenant e.tenancy.acting p.1 p.2 } }) d
    (l.foldl (fun e p => if p.2.packId = 0 then e else (e.pinSlots p.1 e.steerEntries).getD e) d1).bktProgram

/-- A tenant's configuration on a link. -/
def tenantWords (q : Nat × TenantParams) : List Nat :=
  [q.1, b2n q.2.enabled, q.2.weight, b2n q.2.bkt, q.2.maxCtx, q.2.maxPages, q.2.tokenQuota, q.2.resvOut, b2n q.2.drop, q.2.reuse, q.2.packId]

/-- Words of a plan on a link: berths, context records, tenant changes and prefix changes, each part behind its count (R343, R358, R371). -/
def planWords (p : StepPlan) : List Nat :=
  [p.step, p.berths.length, p.ctxs.length, p.tenants.length, p.prefixes.length] ++
  (p.berths.map (fun b => [b.berth, b.kind, b.ctx, b.tenant, b.start, b.ntok, b2n b.final + 2 * b2n b.sample, b.rand, b.invTemp.toNat, b.pack] ++
    b.tokens)).flatten ++ (p.ctxs.map (fun q => copyWords q.1 q.2)).flatten ++ (p.tenants.map tenantWords).flatten ++
  (p.prefixes.map opWords).flatten

/-- A plan's berth as the step keeps it. -/
def keptBerth (b : PlanBerth) : Berth :=
  { berth := b.berth, ctx := b.ctx, tenant := b.tenant, kind := b.kind, start := b.start, ntok := b.ntok, final := b.final, pack := b.pack }

/-- A module acts on a plan (R343): every berth's input waits to be written, empty ones too; streamed steering copies start. -/
def Die.actPlan (d : Die) (p : StepPlan) : Die :=
  match d.tide.table with
  | none => d
  | some t =>
    let bs := t.berths.map (fun e => (p.step, (p.berths.find? (fun b => b.berth == e.berth)).getD (emptyBerth e.berth)))
    let streamed := d.steerEntries.any (fun q => !q.2.pinned)
    let wait := if streamed then
      (p.berths.filter (fun b => decide (b.pack ≠ 0))).map (fun b => b.berth) else []
    let rec0 : StepRec := { step := p.step, berths := sortBy (fun b => [b.berth]) (p.berths.map keptBerth) }
    let d1 := { d with serve := { d.serve with
      steps := d.serve.steps ++ [rec0], inputs := d.serve.inputs ++ bs, steerWait := d.serve.steerWait ++ wait } }
    d1.serveInputs

/-- Whether the front may fill the next step: a table is STARTING and the step is 0, or it is RUNNING and the step is at most the
one after this (R339, R343). -/
def Die.mayFill (d : Die) : Bool :=
  d.fwRuns && d.isFront && d.serve.kv.isSome && d.tide.table.isSome &&
    ((d.tideState == 3 && d.serve.nextStep == 0) || (d.tideState == 4 && decide (d.serve.nextStep ≤ d.tide.steps + 1)))

/-- The front's fill, with the plan it decides. -/
def Die.decidePlan (d : Die) (t : Table) : StepPlan × Die :=
  let f := d.fillStep t
  ({ step := f.step, berths := sortBy (fun b => [b.berth]) f.placed, ctxs := f.die.liveCtxs.map (fun p => (p.1, p.2.copy)),
     tenants := f.die.tenancy.changed, prefixes := f.die.serve.planOps },
   { f.die with serve := { f.die.serve with planOps := [] }, tenancy := { f.die.tenancy with changed := [] } })

/-- A plan goes out once the record of every context in it is cached; until then its berths are kept as they are (R330), and the records it
carries are those at its sending (R328). -/
def Die.sendPlan (d : Die) (p0 : StepPlan) : Die :=
  if p0.berths.any (fun b => !d.serve.cache.contains b.ctx) then { d with serve := { d.serve with heldPlan := some p0 } }
  else
    let p : StepPlan := { p0 with ctxs := d.liveCtxs.map (fun (q : Nat × Ctx) => (q.1, q.2.copy)) }
    let d1 := { d with serve := { d.serve with nextStep := p.step + 1, heldPlan := none } }
    ((d1.toChildren lmPlan (planWords p)).actPlan p).tenantsChange p.tenants

/-- The front's fill and plan (R339, R343). A placed context whose record is not cached delays the plan and does not change it: the plan
decided is the one that the first STEP_FILL after the fetch sends (R330). -/
def Die.stepFill (d : Die) : Die :=
  match d.serve.heldPlan, d.tide.table with
  | some p, _ => d.sendPlan p
  | none, some t => (d.decidePlan t).2.sendPlan (d.decidePlan t).1
  | none, none => d

/-- STEP_FILL. -/
def execStepFill (s : State) : Host.Outcome State Fault Refusal :=
  mainCmd (fun d => d.mayFill) (fun d => d.stepFill) s

/-- A module's own copy of a context that rides in a plan: its tenant, progress and pages, its record cached (R328, R330, R337). -/
def Die.copyBerth (d : Die) (b : PlanBerth) : Die :=
  let c := d.ctx b.ctx
  let d1 := (d.cacheCtx b.ctx).modCtx b.ctx (fun x => { x with
    state := (if b.kind = 1 then csDecode else csPrefill), tenant := b.tenant, berth := b.berth,
    promptDone := (if b.kind = 2 then b.start else x.promptDone), accrued := (if c.state = csFree then d.now else x.accrued) })
  match d1.addPages b.ctx ((b.start + b.ntok + 63) / 64 - c.pages.length) with
  | some e => e
  | none => d1

/-- A module other than the front receives a plan (R329, R343): its copies take the front's records (R328). -/
def Die.planReceive (d : Die) (p : StepPlan) : Die :=
  let d1 := d.toChildren lmPlan (planWords p)
  let d2 := d1.withTree (fun e => p.prefixes.foldl (fun x o => x.prefixFollow o) e)
  let d3 := p.ctxs.foldl (fun e q => e.modCtx q.1 (fun c => c.follow q.2 d.now)) (p.berths.foldl (fun e b => e.copyBerth b) d2)
  let d4 := p.tenants.foldl (fun e q => { e with tenancy := { e.tenancy with cfg := amSet defaultTenant e.tenancy.cfg q.1 q.2 } }) d3
  let lacking := p.tenants.filter (fun q => decide (q.2.packId ≠ 0) && !d.hasPack q.2.packId)
  let d5 := lacking.foldl (fun e q => e.toFront lmPackMissing [q.1]) d4
  ((d5.actPlan p).tenantsChange p.tenants).tellFree

def execStepPlanReceive (plan : StepPlan) (s : State) : Host.Outcome State Fault Refusal :=
  mainCmd (fun d => d.fwRuns && !d.isFront && d.parentLink.isSome) (fun d => d.planReceive plan) s

/-- STEER_COPY_DONE: the streamed copies of a berth's tenant are complete (R369). -/
def Die.steerDone (d : Die) (b : Nat) : Die :=
  let d1 := match d.serve.inputs.find? (fun q => q.2.berth == b && q.2.kind != 0) with
    | some q => d.copyPack q.2.tenant q.2.pack q.1
    | none => d
  ({ d1 with serve := { d1.serve with steerWait := without d1.serve.steerWait b } }).serveInputs

def execSteerCopyDone (berth : Nat) (s : State) : Host.Outcome State Fault Refusal :=
  mainCmd (fun d => d.fwRuns && d.serve.steerWait.contains berth) (fun d => d.steerDone berth) s

/-- CONTEXT_FETCH (R330). -/
def execContextFetch (ctx : Nat) (s : State) : Host.Outcome State Fault Refusal :=
  mainCmd (fun d => d.fwRuns && decide (ctx < ctxCount)) (fun d => d.cacheCtx ctx) s

/-! ### Results and retirement (R344 to R346, R349) -/

/-- The front notes a berth's result; it belongs to the step after the results this berth has given since ARM. -/
def Die.putResult (d : Die) (b token : Nat) (poison : Bool) : Die :=
  let n := (look d.serve.outSeen b).getD 0
  { d with serve := { d.serve with
    outSeen := keep d.serve.outSeen b (n + 1),
    steps := d.serve.steps.map (fun (s : StepRec) => if s.step = n then { s with
      berths := s.berths.map (fun (x : Berth) => if x.berth = b then { x with result := some (token, poison) } else x) } else s) } }

/-- The 16-byte SELECT result of a berth reaches the front (R195): its token, and poison by its flag or its buffer's. -/
def Die.putValue (d : Die) (b : Nat) (v : List Byte) (poison : Bool) : Die :=
  d.putResult b (leAt v 0 4) (bit (leAt v 8 4) 0 || poison)

/-- The words that carry a result to the front: the berth, the 16 bytes, and whether the buffer was poisoned. -/
def resultWords (b : Nat) (v : List Byte) (poison : Bool) : List Nat := [b, leAt v 0 8, leAt v 8 8, b2n poison]

/-- BERTH_RESULT: a FULL OUT buffer gives its 16-byte result and is marked EMPTY (R344, R195). -/
def Die.berthResult (d : Die) (e : BerthEnt) : Die :=
  let r := e.outOp / 2 ^ 24 % 256
  let a := d.rgnAddr e.outTile r (e.outOp % 2 ^ 24)
  let v := d.bytesAt a 16
  let poison := d.isPoison e.outTile r
  let d1 := d.mark e.outTile r false false
  (if d.isFront then d1.putValue e.berth v poison else d1.toFront lmResult (resultWords e.berth v poison)).serveInputs

def execBerthResult (berth : Nat) (s : State) : Host.Outcome State Fault Refusal :=
  mainCmd (fun d => d.fwRuns && (match d.tide.table with
      | some t => t.berths.any (fun e => e.berth == berth && d.isFull e.outTile (e.outOp / 2 ^ 24 % 256))
      | none => false))
    (fun d => match d.tide.table with
      | some t => (match t.berths.find? (fun e => e.berth == berth) with
        | some e => d.berthResult e
        | none => d)
      | none => d) s

/-- A berth's output token is delivered (R344, R346, R349): kept, counted and streamed, with the context's end where it is the
last. Under DROP a late token is discarded and ends the context. `degraded` says that its step used an array marked so on some module. -/
def Die.deliver (d : Die) (n token : Nat) (degraded : Bool) : Die :=
  let c := d.ctx n
  let late := c.lateAt d.now
  if late && (d.tenantActing c.tenant).drop then
    (d.endCtx n csDone 5).modMeter c.tenant (fun m => { m with dropped := m.dropped + 1 })
  else
    let k := c.outCount
    let c1 := { c with
      lastTokens := keep c.lastTokens (k % 16) token, outCount := k + 1, tLast := d.now, rng := xorshift32 c.rng }
    let c2 := if late then c1.setFlag cfLate else c1
    let c3 := if degraded then c2.setFlag cfDegraded else c2
    let reason := if c.stop.contains token then 1 else if k + 1 = c.maxOut then 2 else if c.promptLen + k + 1 = 1048576 then 3 else 0
    let e : StreamOut :=
      { ctx := n, index := k, token := token,
        flags := b2n late + 2 * b2n (reason != 0) + 4 * b2n degraded + 16 * b2n (c.flag cfRetried), reason := reason, time := d.now }
    let d1 := (d.putCtx n c3).modMeter c.tenant (fun m => { m with
      tokensOut := m.tokensOut + 1, late := m.late + b2n late, window := m.window + 1 })
    let d2 := d1.entry e
    if reason = 0 then d2 else d2.ctxOver n csDone reason

/-- A retired chunk advances PROMPT_DONE, after its token has been handled (R344). -/
def Die.promptTo (d : Die) (b : Berth) : Die :=
  let d1 := d.modCtx b.ctx (fun x => { x with promptDone := b.start + b.ntok })
  if (d1.ctx b.ctx).live then d1 else d1.tellCtx b.ctx

/-- A berth that is not troubled retires: a chunk's pages join the tree before its context can leave them (R374). A re-prefill's final chunk
gives no token, since token 0 has been delivered (R355): its gap of R348 runs from then. -/
def Die.retireGood (d : Die) (s : StepRec) (b : Berth) (token : Nat) : Die :=
  let c := d.ctx b.ctx
  if b.kind = 1 then (if c.state = csDecode then d.deliver b.ctx token s.degraded else d)
  else if c.state ≠ csPrefill then d
  else
    let d1 := d.withTree (fun e => (e.insertPages b.ctx b.start (b.start + b.ntok)).trimTree)
    if !b.final then (d1.promptTo b).dropLate b.ctx
    else if c.dropFirst then
      (((d1.modCtx b.ctx (fun x => { x with
        dropFirst := false, outCount := 1, tLast := d.now, lastTokens := keep x.lastTokens 0 (x.shipToken.getD token) })).promptTo b).ctxTo
          b.ctx csDecode 0).dropLate b.ctx
    else
      let d2 := (d1.deliver b.ctx token s.degraded).promptTo b
      if (d2.ctx b.ctx).state = csPrefill then d2.ctxTo b.ctx (if c.flag cfShipOut then csShipping else csDecode) 0 else d2

/-- A troubled berth (R345): nothing is delivered; the context is retried, or ends FAILED; its deadline is tested (R348). Steps count on over
the runs of the table. -/
def Die.retireBad (d : Die) (s : StepRec) (b : Berth) (poison : Bool) : Die :=
  let c := d.ctx b.ctx
  let now := d.serve.base + s.step
  if c.state ≠ csPrefill ∧ c.state ≠ csDecode then d
  else
    let again := match c.trouble with | none => false | some q => decide (now ≤ q + 1024)
    let fail := match d.serve.stepCfg with | some p => p.failPolicy.getD false | none => false
    if fail || again then d.endCtx b.ctx csFailed (if poison then 16 else 17)
    else (d.modCtx b.ctx (fun x => { x.setFlag cfRetried with trouble := some now })).dropLate b.ctx

/-- What waited for the step of a context's berth to retire (R333). -/
def Die.pendCtx (d : Die) (n : Nat) : Die :=
  let c := d.ctx n
  let d1 := d.modCtx n (fun x => { x with pend := 0 })
  if !c.live then d1
  else match c.pend with
    | 1 => d1.endCtx n csDone 4
    | 2 => if c.state ≤ 3 then d1.parkCtx n 32 else d1
    | 3 => if c.state = csPrefill ∨ c.state = csDecode then d1.parkCtx n 34 else d1
    | _ => d1

/-- Finished steps, retired and past their last position, move to the log (R347). The log keeps what R379 may still need. -/
def Die.logSteps (d : Die) : Die :=
  let ended := d.serve.steps.filter (fun s => s.done && s.stop.isSome)
  { d with serve := { d.serve with
    steps := d.serve.steps.filter (fun s => !(s.done && s.stop.isSome)), log := ended.reverse ++ d.serve.log } }

/-- A step is retired, at device time `time`: berths are charged, what waited for it acts on its contexts in berth order, page time accrues, entries leave, the
slice is told (R333, R344, R351, R377, R378). -/
def Die.stepRetired (d : Die) (s : StepRec) (troubled : List Nat) (time : Nat) : Die :=
  let t := match d.tide.table with | some x => x.tides | none => 0
  let all := match d.tide.table with | some x => x.decode + x.chunk | none => 0
  let good := s.berths.filter (fun b => !troubled.contains b.berth)
  let d1 := good.foldl (fun e b => e.addTides b.tenant t time) d
  let d2 := d1.addTides sysTenant (t * (all - good.length)) time
  let d3 := { d2 with serve := { d2.serve with steps := d2.serve.steps.map (fun (x : StepRec) =>
    if x.step = s.step then { x with done := true, troubled := troubled } else x) } }
  let dp := s.berths.foldl (fun e b => e.pendCtx b.ctx) d3
  let d4 := if d.isFront then dp.toChildren lmRetired (s.step :: time :: troubled) else dp.tellFree
  (d4.accrueAll.flushStream).logSteps

/-- The front retires one berth, in berth order (R344). -/
def Die.retire (d : Die) (s : StepRec) (b : Berth) (token : Nat) (poison : Bool) : Die :=
  let bad := poison || s.faulted
  let tr := if bad then s.troubled ++ [b.berth] else s.troubled
  let d1 := { d with serve := { d.serve with steps := d.serve.steps.map (fun (x : StepRec) =>
    if x.step = s.step then { x with retired := x.retired + 1, troubled := tr } else x) } }
  let d2 := if bad then d1.retireBad s b poison else d1.retireGood s b token
  if s.retired + 1 = s.berths.length then d2.stepRetired s tr d.now else d2

/-- BERTH_RETIRE. -/
def Die.berthRetire (d : Die) (berth : Nat) : Die :=
  match d.serve.steps.find? (fun s => !s.done) with
  | none => d
  | some s =>
    match s.berths[s.retired]? with
    | none => d
    | some b =>
      match b.result with
      | none => d
      | some (token, poison) => if b.berth = berth then d.retire s b token poison else d

def execBerthRetire (berth : Nat) (s : State) : Host.Outcome State Fault Refusal :=
  mainCmd (fun d => d.fwRuns && d.isFront) (fun d => d.berthRetire berth) s

/-! ### The tide block's part -/

/-- The boundary into position 0 of a step: its start; the one after its last position: its end. A step without berths is retired
there (R379). -/
def Die.stepStarts (d : Die) (n : Nat) : Die :=
  { d with serve := { d.serve with steps := d.serve.steps.map (fun (s : StepRec) =>
    if s.step = n then { s with start := some d.now } else s) } }

def Die.stepEnds (d : Die) (n : Nat) : Die :=
  let d1 := { d with serve := { d.serve with steps := d.serve.steps.map (fun (s : StepRec) =>
    if s.step = n then { s with stop := some d.now } else s) } }
  match d1.serve.steps.find? (fun s => s.step == n && s.berths.isEmpty && !s.done) with
  | some s => d1.stepRetired s [] d.now
  | none => d1.logSteps

/-- Steps but those that `stay` are given up: one that had begun goes to the log, ended now, its berths delivering nothing; inputs and a plan
that has not gone out are given up with them, and what the plan was to carry waits again (R356, R347). -/
def Die.dropSteps (d : Die) (stay : StepRec → Bool) : Die :=
  let gone := (d.serve.steps.filter (fun s => !stay s && s.start.isSome)).map (fun s =>
    { s with stop := some (s.stop.getD d.now), troubled := s.berths.map (fun b => b.berth) })
  let (ops, tn) := match d.serve.heldPlan with | some p => (p.prefixes, p.tenants) | none => ([], [])
  { d with
    serve := { d.serve with
      steps := d.serve.steps.filter stay, log := gone.reverse ++ d.serve.log, inputs := [], steerWait := [], heldPlan := none,
      planOps := ops ++ d.serve.planOps },
    tenancy := { d.tenancy with
      changed := tn.filter (fun p => !d.tenancy.changed.any (fun q => q.1 == p.1)) ++ d.tenancy.changed } }

/-- The tide table leaves RUNNING (R356): with `abandon`, steps in flight deliver nothing; contexts in PREFILL and DECODE are
parked with NO_TABLE, those that hold a berth when its step retires; what waited for a step that is given up acts now (R333). -/
def Die.tableStops (d : Die) (abandon : Bool) : Die :=
  let d1 := d.dropSteps (fun s => !abandon && s.start.isSome)
  let d2 := d1.ctxNums.foldl (fun e n =>
    let c := e.ctx n
    let runs := decide (c.state = csPrefill) || decide (c.state = csDecode)
    if e.holdsBerth n then (if runs then e.modCtx n (fun x => x.await 3) else e)
    else if c.pend ≠ 0 then e.pendCtx n
    else if runs then e.parkCtx n 34 else e) d1
  d2.sendOps.flushStream

/-- A table is armed (R356, R376): what waited for a step of the table before acts now; under the same MODEL_ID, KV_CFG and STEP_CFG
contexts parked with NO_TABLE resume; under others every parked one ends FAILED with STEP_FAULT and the tree is emptied. The front decides that,
and the other modules follow it (R328). Step numbers begin at 0; the SRAM that held pinned packs is cleared. -/
def Die.tableArmed (d : Die) : Die :=
  let now := (d.modelId, d.serve.kv, d.serve.stepCfg)
  let same := match d.serve.tableId with | none => true | some x => x == now
  let dd := d.dropSteps (fun _ => false)
  let d0 := { dd with
    serve := { dd.serve with
      tableId := some now, nextStep := 0, outSeen := [], inStep := 0, base := dd.serve.base + dd.serve.nextStep,
      log := dd.serve.log.map (fun (s : StepRec) => { s with old := true }) },
    tenancy := { dd.tenancy with pinned := dd.tenancy.pinned.map (fun (p : Pin) => { p with pack := 0 }) } }
  let d1 := if same then d0 else d0.emptyTree
  if !d1.isFront then d1.tellFree
  else
    let d2 := d1.ctxNums.foldl (fun e n => if (e.ctx n).pend = 0 then e else e.pendCtx n) d1
    d2.ctxNums.foldl (fun e n =>
      let c := e.ctx n
      if c.state = csParked ∧ c.reason = 34 then (if same then e.resumeCtx n else e.endCtx n csFailed 17) else e) d2

end Sys2Proof.Machine
end

