-- ==== Sys2Proof/Machine/Contexts.lean ====
section
/-! DEFINITION. Commands on contexts, prompts, slice messages and shipping between pools (R327, R333, R344, R350 to R357), with
the breakwater's checks (R362 to R364). -/
namespace Sys2Proof.Machine

/-! ### Configuration (R335, R337, R352, R357) -/

/-- A table is LOADED. -/
def Die.isLoaded (d : Die) : Bool := decide (d.tideState = 2)

/-- Whether two byte ranges meet. -/
def meets (a n b m : Nat) : Bool := decide (a < b + m) && decide (b < a + n)

/-- The cache format that the matrix entries give for a layer, where they name it (R236, R335). -/
def tableFmt8 (t : Table) (layer : Nat) : Option Bool := (t.matrices.find? (fun m => m.layer == layer)).map (fun m => bit m.flags 1)

/-- Whether KV_CFG's parameters are in range (R335, R337, R338). -/
def Die.kvOk (d : Die) (p : KvParams) : Bool :=
  let a := 4096 * p.base
  let n := 4096 * p.size
  let part (x : KvPart) : Bool := (x.dim == 64 || x.dim == 128) && decide (x.layer < 1024) && decide (0 < x.heads) && x.segOff % 64 == 0 &&
    decide (x.segOff + partBytes x ≤ pageBytes p) &&
    (match d.tide.table with | some t => (match tableFmt8 t x.layer with | some f => f == x.fmt8 | none => true) | none => true)
  decide (0 < p.size) && isDram a && isDram (a + n - 1) && !meets a n ctxArea 0x10000000 && !meets a n goldenBase 0x50000000 &&
    (match d.tide.table with | some t => !meets a n t.base t.size | none => true) && !p.parts.isEmpty && p.parts.all part &&
    p.lists.all (fun q => decide (q.2.1 < p.parts.length) && d.enabled q.2.2.1)

/-- KV_CFG: in LOADED only, otherwise BUSY. -/
def execKvCfg (box : Nat) (p : KvParams) (s : State) : Host.Outcome State Fault Refusal :=
  fwCmd box (fun d =>
    if !d.isLoaded then d.reply box rcBusy []
    else if !d.kvOk p then d.reply box rcRange []
    else ({ d with serve := { d.serve with kv := some p } }).reply box rcOk []) s

/-- HOLD_TIME in seconds and PARK_LIMIT in tenths of a second, 10 s each by default (R357). -/
def holdSecs (p : StepParams) : Nat := p.holdTime.getD 10
def parkTenths (p : StepParams) : Nat := p.parkLimit.getD 100

/-- SHIP_TMO in ms, 20 by default (R354). -/
def shipTmoMs (p : RouteParams) : Nat := p.tmo.getD 20

/-- Whether STEP_CFG's parameters are in range (R342, R357). -/
def stepCfgOk (p : StepParams) : Bool :=
  decide (1 ≤ p.vocab) && decide (p.zeroId < p.vocab) && decide (1 ≤ holdSecs p) && decide (holdSecs p ≤ 3600) &&
    decide (1 ≤ parkTenths p) && decide (parkTenths p ≤ 6000) && decide (p.front.1 < 32) && decide (p.front.2.1 < 32) &&
    decide (p.front.2.2 < 32) && p.patches.all (fun x => decide (x.kind ≤ 5) && decide (x.tile < 64))

def execStepCfg (box : Nat) (p : StepParams) (s : State) : Host.Outcome State Fault Refusal :=
  fwCmd box (fun d =>
    if !d.isLoaded then d.reply box rcBusy []
    else if !stepCfgOk p then d.reply box rcRange []
    else ({ d with serve := { d.serve with stepCfg := some p } }).reply box rcOk []) s

/-- KV_ROUTE (R352, R354): SHIP_TMO from 1 to 1,000 ms. -/
def execKvRoute (box : Nat) (p : RouteParams) (s : State) : Host.Outcome State Fault Refusal :=
  fwCmd box (fun d =>
    if !d.isLoaded then d.reply box rcBusy []
    else if shipTmoMs p < 1 ∨ 1000 < shipTmoMs p ∨ 32 ≤ p.org.1 ∨ 32 ≤ p.org.2.1 ∨ 32 ≤ p.org.2.2 then d.reply box rcRange []
    else ({ d with serve := { d.serve with route := some p } }).reply box rcOk []) s

/-! ### The breakwater (R362 to R364) -/

/-- The projected length of a context (R363). -/
def Die.projected (d : Die) (c : Ctx) : Nat := c.promptLen + min c.maxOut (d.tenant c.tenant).resvOut

/-- Live contexts of a tenant. -/
def Die.tenantCtxs (d : Die) (t : Nat) : List Ctx := (d.liveCtxs.map (·.2)).filter (fun c => c.tenant == t)

/-- Chunks a context has still to run. -/
def chunksLeft (c : Ctx) (l : Nat) : Nat := if l = 0 then 0 else (c.promptLen - c.promptDone + l - 1) / l

/-- Mean length in ns of the steps of the log that have run their course; 0 with none. -/
def Die.meanStep (d : Die) : Nat :=
  let l := (d.serve.log.take 64).filterMap (fun s => match s.start, s.stop with
    | some a, some b => if s.done then some (b - a) else none | _, _ => none)
  if l.isEmpty then 0 else l.sum / l.length

/-- The earliest step whose fill has not closed: the one after the last plan decided. -/
def Die.openStep (d : Die) : Nat := d.serve.nextStep + b2n d.serve.heldPlan.isSome

/-- Reference cycles until the start of that step (R364). -/
def Die.fillWait (d : Die) (t : Table) : Nat :=
  if d.tideState = 3 then (d.tide.start - d.tideNum + d.openStep * t.tides) * t.period - d.tide.w
  else if d.openStep ≤ d.tide.steps then 0
  else ((d.openStep - d.tide.steps) * t.tides - d.get Reg.TIDE_POS_POS) * t.period - d.tide.w

/-- The estimated time in ns to the first token (R364); none stands for infinity. -/
def Die.ttft (d : Die) (p : SubmitParams) : Option Nat :=
  match d.tide.table with
  | none => none
  | some t =>
    if d.tideState ≠ 4 ∨ t.chunk = 0 then none
    else
      let n := (p.promptLen + t.chunkTok - 1) / t.chunkTok
      let before (c : Ctx) : Bool := c.state == csPrefill ||
        (c.state == csQueued && (if p.dlFirst = 0 then true else decide (c.dlFirst ≠ 0) && decide (c.dlFirst ≤ p.dlFirst)))
      let q := (((d.liveCtxs.map (·.2)).filter before).map (fun c => chunksLeft c t.chunkTok)).sum
      let steps := max n ((q + n + t.chunk - 1) / t.chunk)
      some (d.fillWait t / 4 + steps * max (t.tides * t.period / 4) d.meanStep)

/-- The checks of R362, in order: the code of the first that fails, with the quantity needed and the quantity available. -/
def Die.breakwater (d : Die) (p : SubmitParams) : Option (Nat × Nat × Nat) :=
  let tn := d.tenant p.tenant
  let len := p.promptLen + min p.maxOut tn.resvOut
  let need := pagesFor len
  let mine := d.tenantCtxs p.tenant
  let held := (mine.map (fun c => c.held + c.reserve)).sum
  let budget := match d.tide.table with | some t => t.attnBudget | none => 0
  let attn := (((d.liveCtxs.map (·.2)).filter (fun c => c.state != csParked)).map (fun c => d.projected c)).sum
  let free := (d.evictFor need).leastFree
  if d.serve.kv.isNone = true ∨ d.serve.stepCfg.isNone = true then some (72, 1, 0)
  else if !tn.enabled then some (69, 1, 0)
  else if tn.packId ≠ 0 ∧ d.serve.packMissing.contains p.tenant = true then some (73, 1, 0)
  else if budget < len then some (71, len, budget)
  else if tn.maxCtx ≠ 0 ∧ tn.maxCtx ≤ mine.length then some (66, mine.length + 1, tn.maxCtx)
  else if tn.tokenQuota ≠ 0 ∧ tn.tokenQuota < (d.meter p.tenant).window + len then
    some (68, (d.meter p.tenant).window + len, tn.tokenQuota)
  else if tn.maxPages ≠ 0 ∧ tn.maxPages < held + need then some (67, held + need, tn.maxPages)
  else if !(d.evictFor need).canSupply need then some (64, need, free)
  else if budget * d.serve.overcommit / 100 < attn + len then some (65, attn + len, budget * d.serve.overcommit / 100)
  else if p.dlFirst ≠ 0 ∧ p.shipIn = false then
    match d.ttft p with
    | none => some (70, 0xFFFFFFFF, p.dlFirst - d.now)
    | some x => if p.dlFirst < d.now + x then some (70, x, p.dlFirst - d.now) else none
  else none

/-- Whether CTX_SUBMIT's parameters are in range (R331, R357). -/
def submitOk (p : SubmitParams) : Bool :=
  decide (p.tenant < 4096) && decide (1 ≤ p.promptLen) && decide (p.promptLen ≤ 1048575) && decide (1 ≤ p.maxOut) &&
    decide (p.maxOut ≤ 1048575) && decide (p.promptLen + p.maxOut ≤ 1048576) && decide (p.stop.length ≤ 4)

/-- An admitted context takes the lowest FREE record (R330, R344, R363). -/
def Die.admitCtx (d : Die) (box n : Nat) (p : SubmitParams) : Die :=
  let need := pagesFor (p.promptLen + min p.maxOut (d.tenant p.tenant).resvOut)
  let d1 := d.withTree (fun e => e.evictFor need)
  let c : Ctx :=
    { state := if p.shipIn then csShipping else csQueued, tenant := p.tenant, reqId := p.reqId,
      flags := b2n p.sample + 2 * b2n p.shipOut + 4 * b2n p.shipIn, promptLen := p.promptLen, maxOut := p.maxOut,
      reserve := need, invTemp := p.invTemp, rng := if p.seed = 0 then 0x6D2B79F5 else p.seed, stop := p.stop,
      dlFirst := p.dlFirst, dlGap := p.dlGap, dlEnd := p.dlEnd, tSubmit := d.now, peer := p.peer, since := d.now, accrued := d.now }
  (((d1.putCtx n c).cacheCtx n).tellCtx n).reply box rcOk (natLe 4 n)

/-- CTX_SUBMIT. -/
def Die.submit (d : Die) (box : Nat) (p : SubmitParams) : Die :=
  if d.serve.stepCfg.isSome && !d.isFront then d.reply box rcNotFront []
  else if !submitOk p then d.reply box rcRange []
  else match d.breakwater p with
    | some (code, need, avail) =>
      (d.modMeter p.tenant (fun m => { m with refusals := m.refusals + 1 })).reply box code (natLe 8 need ++ natLe 8 avail)
    | none => match d.freeCtx with
      | none => d.reply box rcBusy []
      | some n => d.admitCtx box n p

def execCtxSubmit (box : Nat) (p : SubmitParams) (s : State) : Host.Outcome State Fault Refusal :=
  fwCmd box (fun d => d.submit box p) s

/-! ### Context commands (R333, R357) -/

/-- A command on a context: at the front only, on a number in range, in one of the states `ok` allows. -/
def Die.ctxCmd (d : Die) (box code n : Nat) (ok : Ctx → Bool) (f : Die → Die) : Die :=
  if !d.isFront then d.reply box rcNotFront []
  else if ctxCount ≤ n then d.reply box rcRange []
  else if ok (d.ctx n) then (f d).reply box rcOk []
  else d.stateRefused box code n

def execCtxCancel (box ctx : Nat) (s : State) : Host.Outcome State Fault Refusal :=
  fwCmd box (fun d => d.ctxCmd box 0x0311 ctx (fun c => c.live) (fun e => e.cancelCtx ctx)) s

/-- CTX_PARK: at once, or at the retirement of the step the context holds a berth of. -/
def Die.parkCmd (d : Die) (n : Nat) : Die :=
  if d.holdsBerth n then d.modCtx n (fun c => c.await 2) else d.parkCtx n 32

def execCtxPark (box ctx : Nat) (s : State) : Host.Outcome State Fault Refusal :=
  fwCmd box (fun d => d.ctxCmd box 0x0312 ctx (fun c => decide (1 ≤ c.state) && decide (c.state ≤ 3)) (fun e => e.parkCmd ctx)) s

def execCtxResume (box ctx : Nat) (s : State) : Host.Outcome State Fault Refusal :=
  fwCmd box (fun d => d.ctxCmd box 0x0313 ctx (fun c => c.state == csParked && c.reason == 32) (fun e => e.resumeCtx ctx)) s

/-- CTX_STATUS: the record without its LEAF fields; NO_RECORD where it is FREE (DEDUCED, log entry 76). -/
def execCtxStatus (box ctx : Nat) (s : State) : Host.Outcome State Fault Refusal :=
  fwCmd box (fun d =>
    if !d.isFront then d.reply box rcNotFront []
    else if ctxCount ≤ ctx then d.reply box rcRange []
    else if (d.ctx ctx).state = csFree then d.reply box rcNoRecord []
    else
      let bs := ctxBytes ctx (d.ctx ctx)
      d.reply box rcOk (bs.take 120 ++ bs.drop 184)) s

/-- A record becomes FREE. -/
def Die.freeRecord (d : Die) (n : Nat) : Die :=
  let d1 := (d.putCtx n {}).tellCtx n
  { d1 with serve := { d1.serve with cache := without d1.serve.cache n } }

def execCtxRelease (box ctx : Nat) (s : State) : Host.Outcome State Fault Refusal :=
  fwCmd box (fun d => d.ctxCmd box 0x0315 ctx (fun c => c.state == csDone || c.state == csFailed) (fun e => e.freeRecord ctx)) s

/-- One berth of the step log (R347). -/
def logBytes (b : Berth) : List Byte :=
  natLe 4 b.ctx ++ natLe 2 b.tenant ++ natLe 2 b.kind ++ natLe 4 b.start ++ natLe 4 b.ntok

/-- STEP_LOG: the last 64 steps, each with its number, its count of berths and those. -/
def execStepLog (box : Nat) (s : State) : Host.Outcome State Fault Refusal :=
  fwCmd box (fun d =>
    if !d.isFront then d.reply box rcNotFront []
    else
      d.reply box rcOk (((d.serve.steps.reverse ++ d.serve.log).take 64).map (fun x =>
        natLe 4 x.step ++ natLe 4 x.berths.length ++ (x.berths.map logBytes).flatten)).flatten) s

/-- KV_STATUS: pages in the pool, free, reserved and held, and contexts parked for pages. -/
def execKvStatus (box : Nat) (s : State) : Host.Outcome State Fault Refusal :=
  fwCmd box (fun d =>
    let pool := match d.serve.kv with | some k => poolPages k | none => 0
    let held := (d.serve.ctxs.map (fun p => p.2.held)).sum
    let parked := (d.serve.ctxs.filter (fun p => p.2.state == csParked && p.2.reason == 33)).length
    d.reply box rcOk (natLe 4 pool ++ natLe 4 d.freePages ++ natLe 4 d.reserved ++ natLe 4 held ++ natLe 4 parked)) s

/-- `ms` have passed since a context came into its state. -/
def Die.stood (d : Die) (n ms : Nat) : Bool := decide ((d.ctx n).since + 1000000 * ms ≤ d.now)

/-- HOLD_TIME and PARK_LIMIT in ms. -/
def Die.holdMs (d : Die) : Nat := 1000 * (match d.serve.stepCfg with | some p => holdSecs p | none => 10)
def Die.parkMs (d : Die) : Nat := 100 * (match d.serve.stepCfg with | some p => parkTenths p | none => 100)

/-- CTX_HOLD_EXPIRY: HOLD_TIME has passed for an ended context (R333). -/
def execCtxHoldExpiry (ctx : Nat) (s : State) : Host.Outcome State Fault Refusal :=
  mainCmd (fun d => d.fwRuns && d.isFront && ((d.ctx ctx).state == csDone || (d.ctx ctx).state == csFailed) && d.stood ctx d.holdMs)
    (fun d => d.freeRecord ctx) s

/-- PARK_LIMIT_EXPIRY: a context parked for pages ends FAILED with NO_PAGES once PARK_LIMIT has passed (R333). -/
def execParkLimitExpiry (ctx : Nat) (s : State) : Host.Outcome State Fault Refusal :=
  mainCmd (fun d => d.fwRuns && d.isFront && (d.ctx ctx).state == csParked && (d.ctx ctx).reason == 33 && d.stood ctx d.parkMs)
    (fun d => d.endCtx ctx csFailed 18) s

/-! ### Prompts (R350) -/

/-- Prompt tokens received without a gap. -/
def countPrompt (fuel : Nat) (l : List (Nat × Nat)) (n : Nat) : Nat :=
  match fuel with
  | 0 => n
  | k + 1 => if (look l n).isSome then countPrompt k l (n + 1) else n

/-- Why an entry is refused (R334, R350); none where it is taken. -/
def Die.entryRefused (d : Die) (e : StreamEntry) : Option Nat :=
  let c := d.ctx e.ctx
  let vocab := match d.serve.stepCfg with | some p => p.vocab | none => 0
  if !(decide (e.ctx < ctxCount)) || !(c.state == csQueued || c.state == csPrefill || c.state == csParked) then some 48
  else if e.tokens.any (fun t => decide (vocab ≤ t)) then some 49
  else if (match c.promptEnd with | some n => decide (n < e.offset + e.tokens.length) | none => false) then some 50
  else if c.promptLen < e.offset + e.tokens.length then some 51
  else none

/-- One entry of STREAM_IN: its tokens are placed by offset, or it is refused whole. -/
def Die.takeEntry (d : Die) (e : StreamEntry) : Die :=
  match d.entryRefused e with
  | some r => d.entry { ctx := e.ctx, index := 0, token := 0xFFFFFFFF, flags := 8, reason := r, time := d.now }
  | none =>
    let c := d.ctx e.ctx
    let l := ((List.range e.tokens.length).zip e.tokens).foldl (fun l (q : Nat × Nat) =>
      if e.offset + q.1 < c.promptRcvd ∨ (look l (e.offset + q.1)).isSome = true then l else keep l (e.offset + q.1) q.2) c.prompt
    let r := countPrompt l.length l c.promptRcvd
    let pend := if e.final then some (e.offset + e.tokens.length) else c.promptEnd
    let c1 := { c with prompt := l, promptRcvd := r, promptEnd := pend }
    let c2 := if pend == some r then c1.setFlag cfPromptFinal else c1
    (d.putCtx e.ctx c2).modMeter c.tenant (fun m => { m with tokensIn := m.tokensIn + (r - c.promptRcvd), window := m.window + (r - c.promptRcvd) })

/-- STREAM_IN: refused with NO_FIRMWARE or NOT_FRONT (R430), else its entries one by one; a response only with ACK_REQ. -/
def Die.streamIn (d : Die) (m : MsgHead) (l : List StreamEntry) (ack : Bool) : Die :=
  if !d.fwRuns then d.respondIf ack m.slot 0x50 stNoFirmware m.seq []
  else if !d.isFront then d.respondIf ack m.slot 0x50 stNotFront m.seq []
  else (l.foldl (fun e x => e.takeEntry x) d).respondIf ack m.slot 0x50 stOk m.seq []

def execStreamIn (m : MsgHead) (entries : List StreamEntry) (ackReq : Bool) (s : State) : Host.Outcome State Fault Refusal :=
  mainCmd (fun d => d.canRequest m)
    (fun d => d.request m 0x50 2 (entries.all (fun e => decide (1 ≤ e.tokens.length) && decide (e.tokens.length ≤ 2048)))
      (fun e _ => e.streamIn m entries ackReq) ackReq) s

/-! ### Shipping (R352 to R355) -/

/-- The module of the generation slice at the same relative coordinates, round the torus (R352). -/
def Die.shipDest (d : Die) : Option Nat :=
  match d.serve.route, d.tide.table with
  | some r, some t =>
    let c := d.relTo t.org d.here
    let n := d.torusSize
    some ((r.org.1 + c.1) % n.1 + (r.org.2.1 + c.2.1) % n.2.1 * 32 + (r.org.2.2 + c.2.2) % n.2.2 * 1024)
  | _, _ => none

/-- A page as a shard: header, payload and CRC-32C (R353). -/
def Die.shipBytes (d : Die) (n page : Nat) : List Byte :=
  let c := d.ctx n
  let pb := match d.serve.kv with | some k => pageBytes k | none => 0
  let total := (c.promptLen + 63) / 64
  let head := natLe 4 0x564B484B ++ natLe 4 c.peer ++ natLe 4 page ++ natLe 2 (min 64 (c.promptLen - 64 * page)) ++
    natLe 2 (b2n (page + 1 == total)) ++ natLe 4 total ++ natLe 4 ((look c.lastTokens 0).getD 0) ++ natLe 4 pb ++ zeros 4
  let body := head ++ d.bytesAt (4096 * (c.pages.getD page 0)) pb
  body ++ natLe 4 (crc32c body)

/-- Sends one page on the first link of its way (log entry 26). -/
def Die.shipPage (d : Die) (n page : Nat) : Die :=
  match d.shipDest with
  | none => d
  | some dest => match d.nextLink dest with
    | none => d
    | some k => (d.sendShard k page (d.shipBytes n page) (d.ctx n).tenant false
        (some (dest + 2 ^ 15))).modCtx n (fun c => { c with shipGot := addOnce c.shipGot page })

/-- An outgoing context in SHIPPING. -/
def Ctx.outgoing (c : Ctx) : Bool := c.state == csShipping && c.flag cfShipOut

/-- KV_SHIP_PAGE: the next page in page order. -/
def execKvShipPage (ctx page : Nat) (s : State) : Host.Outcome State Fault Refusal :=
  mainCmd (fun d => d.fwRuns && (d.ctx ctx).outgoing && (d.ctx ctx).shipGot.length == page &&
      decide (page < ((d.ctx ctx).promptLen + 63) / 64)) (fun d => d.shipPage ctx page) s

/-- The front ends or starts a shipped context once every module has every page (R333, R354); its pages join the tree (R374). -/
def Die.shipCheck (d : Die) (n : Nat) : Die :=
  let c := d.ctx n
  if c.state ≠ csShipping then d
  else
    let total := if c.flag cfShipOut then (c.promptLen + 63) / 64 else c.shipTotal
    let here := decide (0 < total) && (List.range total).all (fun p => (if c.flag cfShipOut then c.shipAcked else c.shipGot).contains p)
    if !here then d
    else if !d.isFront then d
    else if c.shipOthers < d.otherModules then d
    else if c.flag cfShipOut then d.endCtx n csDone 6
    else ((d.modCtx n (fun x => { x with
      outCount := 1, promptDone := x.promptLen, tLast := d.now, lastTokens := keep x.lastTokens 0 (x.shipToken.getD 0) })).withTree
        (fun e => (e.insertPages n 0 c.promptLen).trimTree)).ctxTo n csDecode 0

/-- A module that now has every page says so to the front. -/
def Die.shipTell (d : Die) (n : Nat) : Die := if d.isFront then d.shipCheck n else d.toFront lmShipped [n]

/-- KV_PAGE_ACK: one for a page acknowledged already tells nothing new. -/
def Die.pageAck (d : Die) (n page : Nat) : Die :=
  let d1 := d.modCtx n (fun c => { c with shipAcked := addOnce c.shipAcked page })
  if (d.ctx n).shipAcked.contains page then d1
  else if (d1.ctx n).shipAcked.length = ((d1.ctx n).promptLen + 63) / 64 then d1.shipTell n else d1

def execKvPageAck (ctx page : Nat) (s : State) : Host.Outcome State Fault Refusal :=
  mainCmd (fun d => d.fwRuns && (d.ctx ctx).outgoing && (d.ctx ctx).shipGot.contains page) (fun d => d.pageAck ctx page) s

/-- SHIP_POLICY of this module: REPREFILL where its KV_ROUTE says so, else FAIL (log entry 27). -/
def Die.reprefill (d : Die) : Bool := match d.serve.route with | some r => r.reprefill | none => false

/-- A context prefills again from page `page` on. -/
def Ctx.cut (c : Ctx) (page : Nat) : Ctx :=
  { c with promptDone := 64 * page, dropFirst := true, shipGot := [], shipResends := [], shipTotal := 0, shipClock := [] }

/-- The front gives up the pages from `page` on, and the context computes them again; the pages kept join the tree (R355, R374). -/
def Die.cutPages (d : Die) (n page : Nat) : Die :=
  (d.withTree (fun e => (e.prefixDo (.leave n page)).insertPages n 0 (64 * page))).modCtx n (fun c => c.cut page)

/-- A page is lost (R355): both contexts end under FAIL; under REPREFILL the prefill side ends SHIPPED and the generation side
keeps the pages before it and computes the rest again. A module other than the front tells the front. -/
def Die.pageLost (d : Die) (n page : Nat) : Die :=
  let c := d.ctx n
  let o := c.flag cfShipOut
  if !d.isFront then
    if !d.reprefill then d.toFront lmCtxLost [n, csFailed, 19, c.promptDone, c.outCount]
    else if o then d.toFront lmCtxLost [n, csDone, 6, c.promptDone, c.outCount]
    else d.toFront lmCtxLost [n, csPrefill, 0, 64 * page, c.outCount]
  else if !d.reprefill then d.endCtx n csFailed 19
  else if o then d.endCtx n csDone 6
  else (d.cutPages n page).ctxTo n csPrefill 0

/-- One resend is counted; the fourth trouble of a page loses it (R354). -/
def Die.resendPage (d : Die) (n page : Nat) (f : Die → Die) : Die :=
  let c := d.ctx n
  let k := (look c.shipResends page).getD 0
  if 3 ≤ k then d.pageLost n page
  else f (d.modCtx n (fun x => { x with shipResends := keep x.shipResends page (k + 1) }))

/-- KV_PAGE_NAK: a NAK, or a request for a page that has been sent: it is sent again (R354). -/
def execKvPageNak (ctx page : Nat) (s : State) : Host.Outcome State Fault Refusal :=
  mainCmd (fun d => d.fwRuns && (d.ctx ctx).outgoing && (d.ctx ctx).shipGot.contains page)
    (fun d => d.resendPage ctx page (fun e => e.shipPage ctx page)) s

/-- The links on which the sender of a context's pages is asked: the one its last shard came over, or every link that is UP while none has come
(log entry 26). -/
def Die.askLinks (d : Die) (n : Nat) : List Nat :=
  match (d.ctx n).shipLink with
  | some k => [k]
  | none => (List.range 6).filter (fun k => d.linkUp k)

/-- The sender is told to send a page again, by a NAK or a request, which counts as a resend; after three the page is lost here too, and the
sender, which counts alike, learns of it by the message (R354, R355). The page's timeout runs anew. -/
def Die.askPage (d : Die) (n page kind : Nat) : Die :=
  ((d.askLinks n).foldl (fun e k => e.tellLink k kind [n, page])
    (d.modCtx n (fun c => { c with shipClock := keep c.shipClock page d.now }))).resendPage n page id

/-- KV_PAGE_RECEIVE: a good shard goes into a page of the pool and is acknowledged; a bad one is answered with a NAK. -/
def Die.pageReceive (d : Die) (m : PageShard) : Die :=
  let n := m.ctx
  let d0 := d.modCtx n (fun c => { c with shipLink := some m.link })
  if !m.good then d0.askPage n m.page lmPageNak
  else
    match d.addPages n (m.page + 1 - (d.ctx n).pages.length) with
    | none => d0.askPage n m.page lmPageNak
    | some d1 =>
      let d2 := d1.setBytes (4096 * ((d1.ctx n).pages.getD m.page 0)) m.payload
      let d3 := d2.modCtx n (fun c => { c with
        shipLink := some m.link, shipGot := addOnce c.shipGot m.page, shipTotal := m.npages, shipToken := some m.firstToken,
        shipClock := keep c.shipClock (m.page + 1) ((look c.shipClock (m.page + 1)).getD d.now) })
      let d4 := d3.tellLink m.link lmPageAck [n, m.page]
      if (d.ctx n).shipGot.contains m.page then d4
      else if (d4.ctx n).shipGot.length = m.npages then d4.shipTell n else d4

def execKvPageReceive (m : PageShard) (s : State) : Host.Outcome State Fault Refusal :=
  mainCmd (fun d => d.fwRuns && (d.ctx m.ctx).state == csShipping && (d.ctx m.ctx).flag cfShipIn && decide (m.page < m.npages) &&
      (match d.serve.kv with | some k => m.payload.length == pageBytes k | none => false))
    (fun d => d.pageReceive m) s

/-- SHIP_TMO of this module in ns: that of its KV_ROUTE, else the default (log entry 27). -/
def Die.shipTmoNs (d : Die) : Nat := 1000000 * (match d.serve.route with | some r => shipTmoMs r | none => 20)

/-- The timeout of a page of an incoming context: it has not come, and SHIP_TMO has passed since its predecessor came, or since the page was
last asked for; for page 0 since the context was accepted (R354). -/
def Die.shipLate (d : Die) (n page : Nat) : Bool :=
  let c := d.ctx n
  let t := match look c.shipClock page with | some x => some x | none => if page = 0 then some c.since else none
  c.state == csShipping && c.flag cfShipIn && !c.shipGot.contains page && decide (page < (c.promptLen + 63) / 64) &&
    (match t with | some x => decide (x + d.shipTmoNs ≤ d.now) | none => false)

/-- KV_SHIP_TIMEOUT: the page is requested again, or lost. -/
def execKvShipTimeout (ctx page : Nat) (s : State) : Host.Outcome State Fault Refusal :=
  mainCmd (fun d => d.fwRuns && d.shipLate ctx page) (fun d => d.askPage ctx page lmPageReq) s

/-! ### Slice messages (R329) -/

/-- PREFIX_CFG's parameters on a link; PREFIX_MAX is absent where it has its default. -/
def prefixWords (p : PrefixParams) : List Nat := [p.nodes, p.h, p.table, p.index] ++ p.maxFree.toList

/-- The words of a slice message on a link. -/
def sliceWords (m : SliceMsg) : Nat × List Nat :=
  match m with
  | .result b v p => (lmResult, resultWords b v p)
  | .stepFault n => (lmStepFault, [n])
  | .ctxState n k => (lmCtxState, copyWords n k)
  | .ctxLost n st r pd oc => (lmCtxLost, [n, st, r, pd, oc])
  | .freePages m n => (lmFreePages, [m, n])
  | .packMissing t => (lmPackMissing, [t])
  | .shipped n => (lmShipped, [n])
  | .retired st t tr => (lmRetired, st :: t :: tr)
  | .prefixCfg p => (lmPrefixCfg, prefixWords p)
  | .prefixOps l => (lmPrefixOps, (l.map opWords).flatten)
  | .degraded n => (lmDegraded, [n])

/-- Pages received without a gap. -/
def Ctx.gotFirst (c : Ctx) : Nat := ((List.range c.pages.length).find? (fun p => !c.shipGot.contains p)).getD c.pages.length

/-- A module's copy of a context follows the front's (R328). What it accrued ends with the context; its pages go back with the front's
changes of the prefix tree, which come in order (R371): those of a record freed before are kept for them. A module that lacks one of the pages
kept of a context that prefills again asks for an earlier start. -/
def Die.followCtx (d : Die) (n : Nat) (k : CtxCopy) : Die :=
  let c := d.ctx n
  let ended := decide (k.state = csDone) || decide (k.state = csFailed) || decide (k.state = csFree)
  let d1 := if ended && c.live then d.accrueCtx n else d
  if k.state = csFree then
    let d2 := d1.putCtx n {}
    if c.gone || c = {} then d2 else { d2 with serve := { d2.serve with leaving := d2.serve.leaving ++ [(n, d1.ctx n)] } }
  else if k.state = csPrefill ∧ c.state = csShipping then
    let d2 := d1.modCtx n (fun x => (x.follow k d.now).cut (k.promptDone / 64))
    if c.gotFirst < k.promptDone / 64 then d2.toFront lmCtxLost [n, csPrefill, 0, 64 * c.gotFirst, k.outCount] else d2
  else d1.modCtx n (fun x => x.follow k d.now)

/-- The front acts on a message that came up the tree. -/
def Die.frontMsg (d : Die) (m : SliceMsg) : Die :=
  match m with
  | .result b v p => d.putValue b v p
  | .stepFault n => d.stepFaultAt n
  | .degraded n => d.stepDegradedAt n
  | .freePages m n => { d with serve := { d.serve with others := keep d.serve.others m n } }
  | .packMissing t => { d with serve := { d.serve with packMissing := addOnce d.serve.packMissing t } }
  | .shipped n => (d.modCtx n (fun c => { c with shipOthers := c.shipOthers + 1 })).shipCheck n
  | .ctxState _ _ => d
  | .ctxLost n st r pd _ =>
    let c := d.ctx n
    if c.state = csPrefill ∧ c.dropFirst = true ∧ st = csPrefill ∧ pd < c.promptDone ∧ d.holdsBerth n = false then
      (d.cutPages n (pd / 64)).tellCtx n
    else if c.state ≠ csShipping then d
    else if st = csPrefill then (d.cutPages n (pd / 64)).ctxTo n csPrefill 0
    else d.endCtx n st r
  | .retired _ _ _ => d
  | .prefixCfg _ => d
  | .prefixOps _ => d

/-- SLICE_MESSAGE_RECEIVE: messages toward the front go to the parent, those from it to every child, which then also acts on it. -/
def Die.sliceMsg (d : Die) (m : SliceMsg) : Die :=
  let w := sliceWords m
  if d.isFront then d.frontMsg m
  else match m with
    | .ctxState n k => (d.toChildren w.1 w.2).followCtx n k
    | .retired st t tr => match d.serve.steps.find? (fun x => x.step == st && !x.done) with
      | some x => (d.toChildren w.1 w.2).stepRetired x tr t
      | none => d.toChildren w.1 w.2
    | .prefixOps l => (d.toChildren w.1 w.2).withTree (fun e => l.foldl (fun x o => x.prefixFollow o) e)
    | .prefixCfg p => (d.toChildren w.1 w.2).setTree p
    | _ => d.toFront w.1 w.2

def execSliceMessageReceive (m : SliceMsg) (s : State) : Host.Outcome State Fault Refusal :=
  mainCmd (fun d => d.fwRuns && d.frontAt.isSome) (fun d => d.sliceMsg m) s

end Sys2Proof.Machine
end

