-- ==== Sys2Proof/Machine/Tenants.lean ====
section
/-! DEFINITION. Tenants, steering packs, the prefix commands and metering (R358 to R382). -/
namespace Sys2Proof.Machine

/-! ### Tenants (R358, R359, R369, R382) -/

/-- Whether TENANT_CFG's parameters are in range (R358). -/
def tenantOk (t : Nat) (p : TenantParams) : Bool :=
  decide (t < 4096) && decide (1 ≤ p.weight) && decide (p.weight ≤ 1000) && decide (p.maxCtx ≤ 1048576) &&
    decide (p.maxPages < 2 ^ 32) && decide (p.tokenQuota ≤ 2 ^ 40) && decide (1 ≤ p.resvOut) && decide (p.resvOut ≤ 1048576) &&
    decide (p.reuse ≤ 2) && decide (p.packId < 2 ^ 32)

/-- The front holds a new configuration; the next plan carries it (R358). -/
def Die.setTenant (d : Die) (t : Nat) (p : TenantParams) : Die :=
  { d with tenancy := { d.tenancy with
    cfg := amSet defaultTenant d.tenancy.cfg t p, changed := d.tenancy.changed.filter (fun q => decide (q.1 ≠ t)) ++ [(t, p)] } }

/-- TENANT_CFG. -/
def Die.tenantCfg (d : Die) (box t : Nat) (p : TenantParams) : Die :=
  if !d.isFront then d.reply box rcNotFront []
  else if !tenantOk t p then d.reply box rcRange []
  else if p.packId = 0 then (d.setTenant t p).reply box rcOk []
  else if !d.tenancy.packs.any (fun k => k.id == p.packId) then d.reply box rcNoPack []
  else match d.pinSlots t d.steerEntries with
    | none => d.reply box rcNoSlot []
    | some e =>
      let e1 := { e with serve := { e.serve with packMissing := without e.serve.packMissing t } }
      (e1.setTenant t p).reply box rcOk []

def execTenantCfg (box tenant : Nat) (p : TenantParams) (s : State) : Host.Outcome State Fault Refusal :=
  fwCmd box (fun d => d.tenantCfg box tenant p) s

/-- Every node of a scope that no context references is deleted; the others lose their keys (R375). -/
def Die.flushScope (d : Die) (scope : Nat) : Die :=
  (d.tenancy.nodes.filter (fun p => p.2.tenant == scope)).foldl (fun e p =>
    if p.2.refs = 0 then e.prefixDo (.delete p.1) else e.prefixDo (.unkey p.1)) d

/-- TENANT_CLOSE: the four steps of R359, in order. -/
def Die.tenantClose (d : Die) (t : Nat) : Die :=
  let d1 := d.setTenant t { d.tenant t with enabled := false }
  let d2 := (d1.liveCtxs.filter (fun p => p.2.tenant == t)).foldl (fun e p => e.cancelCtx p.1) d1
  let d3 := d2.withTree (fun e => e.flushScope t)
  (d3.setTenant t { d3.tenant t with packId := 0 }).put (Reg.GLB_TBKT_RATE_RATE t) 0xFFFF

def execTenantClose (box tenant : Nat) (s : State) : Host.Outcome State Fault Refusal :=
  fwCmd box (fun d =>
    if !d.isFront then d.reply box rcNotFront []
    else if 4096 ≤ tenant then d.reply box rcRange []
    else (d.tenantClose tenant).reply box rcOk []) s

/-- TENANT_STATUS: configuration, live contexts, pages held and reserved, credits, window tokens. -/
def execTenantStatus (box tenant : Nat) (s : State) : Host.Outcome State Fault Refusal :=
  fwCmd box (fun d =>
    if !d.isFront then d.reply box rcNotFront []
    else if 4096 ≤ tenant then d.reply box rcRange []
    else
      let p := d.tenant tenant
      let l := d.tenantCtxs tenant
      d.reply box rcOk (natLe 4 (b2n p.enabled + 2 * b2n p.bkt + 4 * b2n p.drop + 8 * p.reuse) ++ natLe 4 p.weight ++
        natLe 4 p.maxCtx ++ natLe 4 p.maxPages ++ natLe 8 p.tokenQuota ++ natLe 4 p.resvOut ++ natLe 4 p.packId ++
        natLe 4 l.length ++ natLe 4 (l.map Ctx.held).sum ++ natLe 4 (l.map (fun c => c.reserve)).sum ++
        natLe 8 (enc 64 (d.credit tenant 1)) ++ natLe 8 (enc 64 (d.credit tenant 2)) ++ natLe 8 (d.meter tenant).window)) s

/-- ADMIT_CFG: OVERCOMMIT from 100 to 1,600 (R363). -/
def execAdmitCfg (box overcommit : Nat) (s : State) : Host.Outcome State Fault Refusal :=
  fwCmd box (fun d =>
    if !d.isFront then d.reply box rcNotFront []
    else if overcommit < 100 ∨ 1600 < overcommit then d.reply box rcRange []
    else ({ d with serve := { d.serve with overcommit := overcommit } }).reply box rcOk []) s

/-! ### Steering packs (R368 to R370) -/

/-- Whether the loaded table gives a region of a tile the rights R and PK. -/
def tableRights (t : Table) (tile region : Nat) : Bool :=
  match t.tiles.find? (fun b => b.tile == tile) with
  | none => false
  | some b => match b.regions[region]? with
    | none => false
    | some w => bit w.2 31 && bit w.2 rightR && bit w.2 rightPK

/-- STEER_CFG: in LOADED only, otherwise BUSY. Bound tenants take their pinned slots anew; packs of another store are lost. -/
def Die.steerCfg (d : Die) (box : Nat) (p : SteerParams) : Die :=
  match d.tide.table with
  | none => d.reply box rcBusy []
  | some t =>
    if !d.isLoaded then d.reply box rcBusy []
    else if !(p.entries.all (fun e => decide (1 ≤ e.slots) && decide (e.slots ≤ 255) && decide (1 ≤ e.nb) && decide (e.layer < 1024) &&
        d.enabled e.tile && tableRights t e.tile (e.listOp / 2 ^ 24 % 256) && tableRights t e.tile e.slotRegion)) ||
        !(isGeneral p.base && isGeneral (p.base + p.size - 1)) then d.reply box rcRange []
    else
      let packs := match d.tenancy.steer with
        | some o => if o.base = p.base ∧ o.size = p.size then d.tenancy.packs else []
        | none => []
      let d1 := { d with tenancy := { d.tenancy with steer := some p, packs := packs, pinned := [] } }
      let bound := (d.tenancy.cfg.filter (fun q => decide (q.2.packId ≠ 0))).map (·.1)
      (bound.foldl (fun e tn => (e.pinSlots tn e.steerEntries).getD e) d1).reply box rcOk []

def execSteerCfg (box : Nat) (p : SteerParams) (s : State) : Host.Outcome State Fault Refusal :=
  fwCmd box (fun d => d.steerCfg box p) s

/-- The entries of a pack image at `a`: tile, layer, offset, bytes, N_B and whether its reserved bytes are zero. -/
def Die.packEntries (d : Die) (a n : Nat) : List (Nat × Nat × Nat × Nat × Nat × Bool) :=
  (List.range n).map (fun i =>
    let b := d.bytesAt (a + 64 + 16 * i) 16
    (leAt b 0 1, leAt b 2 2, leAt b 8 4, leAt b 12 4, leAt b 4 2, leAt b 1 1 == 0 && leAt b 6 2 == 0))

/-- Whether a staged pack image is valid (R370). -/
def Die.packOk (d : Die) (a size : Nat) (steer : SteerParams) : Bool :=
  let h := d.bytesAt a 64
  let n := leAt h 6 2
  let es := d.packEntries a n
  let img := d.bytesAt a size
  leAt h 0 4 == 0x5053484B && leAt h 4 2 == 1 && leAt h 8 8 == d.modelId && decide (leAt h 16 4 ≠ 0) && (h.drop 24).all (· == 0) &&
    crc32c (splice img 20 (zeros 4)) == leAt h 20 4 &&
    es.all (fun e => e.2.2.2.2.2 && e.2.2.1 % 64 == 0 && decide (64 + 16 * n ≤ e.2.2.1) &&
      steer.entries.any (fun x => x.tile == e.1 && x.layer == e.2.1 && x.nb == e.2.2.2.2.1 &&
        (e.2.2.2.1 == 2 * vecBytes x.nb || e.2.2.2.1 == steerBytes x.nb))) &&
    steer.entries.all (fun x => es.any (fun e => x.tile == e.1 && x.layer == e.2.1))

/-- The lowest place in the pack store for `n` bytes. -/
def packPlace (l : List Pack) (size n : Nat) : Option Nat :=
  ((0 :: l.map (fun p => p.off + p.size)).filter (fun o => decide (o + n ≤ size) && l.all (fun p => !meets o n p.off p.size))).foldl
    (fun (b : Option Nat) o => match b with | none => some o | some x => some (min x o)) none

/-- STEER_LOAD: the image is checked and stored. -/
def Die.steerLoad (d : Die) (box a : Nat) : Die :=
  match d.tenancy.steer with
  | none => d.reply box rcPackInvalid []
  | some st =>
    if !(isGeneral a) then d.reply box rcRange []
    else
      let n := leAt (d.bytesAt a 64) 6 2
      let es := d.packEntries a n
      let size := es.foldl (fun m e => max m (e.2.2.1 + e.2.2.2.1)) (64 + 16 * n)
      let id := leAt (d.bytesAt a 64) 16 4
      if size > st.size ∨ !(d.packOk a size st) = true then d.reply box rcPackInvalid []
      else
        let others := d.tenancy.packs.filter (fun p => decide (p.id ≠ id))
        let room := (size + 63) / 64 * 64
        match packPlace others st.size room with
        | none => d.reply box rcRange []
        | some o =>
          let p : Pack := { id := id, off := o, size := room, entries := es.map (fun e => (e.1, e.2.1, e.2.2.1, e.2.2.2.1)) }
          let d1 := d.setBytes (st.base + o) (d.bytesAt a size)
          ({ d1 with tenancy := { d1.tenancy with packs := others ++ [p] } }).reply box rcOk []

def execSteerLoad (box addr : Nat) (s : State) : Host.Outcome State Fault Refusal :=
  fwCmd box (fun d => d.steerLoad box addr) s

/-- A berth placed under a pack still needs it: its input is to be written, or its step has not retired (R359). -/
def Die.packRides (d : Die) (id : Nat) : Bool :=
  d.serve.inputs.any (fun q => q.2.kind != 0 && q.2.pack == id) ||
    d.serve.steps.any (fun s => !s.done && s.berths.any (fun b => b.pack == id))

/-- STEER_DROP: BUSY while a tenant binds the pack, in the configuration the front holds, in the one in force, or for a berth placed
under it. -/
def execSteerDrop (box packId : Nat) (s : State) : Host.Outcome State Fault Refusal :=
  fwCmd box (fun d =>
    if !d.tenancy.packs.any (fun p => p.id == packId) then d.reply box rcNoPack []
    else if d.tenancy.cfg.any (fun q => q.2.packId == packId) || d.tenancy.acting.any (fun q => q.2.packId == packId) ||
        d.packRides packId then
      d.reply box rcBusy []
    else ({ d with tenancy := { d.tenancy with packs := d.tenancy.packs.filter (fun p => decide (p.id ≠ packId)) } }).reply box rcOk []) s

/-! ### Prefix commands (R372, R375, R382) -/

/-- PREFIX_CFG: at the front, in LOADED only; passed to every module. -/
def Die.prefixCfg (d : Die) (box : Nat) (p : PrefixParams) : Die :=
  if !d.isFront then d.reply box rcNotFront []
  else if !d.isLoaded then d.reply box rcBusy []
  else if p.nodes < 1024 ∨ 16777216 < p.nodes ∨ 32 < p.h ∨ !(isGeneral p.table && isGeneral (p.table + 64 * p.nodes - 1)) = true ∨
      !(isGeneral p.index && isGeneral (p.index + 4 * 2 ^ p.h - 1)) = true then d.reply box rcRange []
  else ((d.setTree p).toChildren lmPrefixCfg (prefixWords p)).reply box rcOk []

def execPrefixCfg (box : Nat) (p : PrefixParams) (s : State) : Host.Outcome State Fault Refusal :=
  fwCmd box (fun d => d.prefixCfg box p) s

/-- The node of a context's page `p` under the key above it: the one it references, else, for a context that has left its pages, the one
that its tokens find in the tenant's scope. -/
def Die.ownNode (d : Die) (ctx p parentKey : Nat) : Option (Nat × Node) :=
  let c := d.ctx ctx
  let pack := (d.tenantActing c.tenant).packId
  match d.nodeAt ctx p with
  | some q => if q.2.keyed then some q else none
  | none => d.findKey (prefixKey parentKey c.tenant pack (c.pageTokens p)) c.tenant pack

/-- Moves pages `p` to `p + n - 1` of a context into public scope (R375), with the public node above them and the two keys above them: the
one of the context's own chain and the public one. A node that public scope has already stays as it is. -/
def Die.publish (d : Die) (ctx n p ownKey pubKey : Nat) (parent : Option Nat) : Die :=
  match n with
  | 0 => d
  | k + 1 =>
    let c := d.ctx ctx
    let own := d.ownNode ctx p ownKey
    let pack := (own.map (fun q => q.2.pack)).getD (d.tenantActing c.tenant).packId
    let key := prefixKey pubKey 0xFFFF pack (c.pageTokens p)
    match d.findKey key 0xFFFF pack, own with
    | some q, some o => d.publish ctx k (p + 1) o.2.key key (some q.1)
    | some q, none => d.publish ctx k (p + 1) key key (some q.1)
    | none, some o => (d.prefixDo (.publish o.1 key parent)).publish ctx k (p + 1) o.2.key key (some o.1)
    | none, none => d

/-- PREFIX_PUBLISH: of a context in DECODE, DONE or PARKED. -/
def Die.prefixPublish (d : Die) (box ctx n : Nat) : Die :=
  let c := d.ctx ctx
  if !d.isFront then d.reply box rcNotFront []
  else if ctxCount ≤ ctx ∨ n = 0 ∨ c.promptLen < 64 * n then d.reply box rcRange []
  else if !(c.state == csDecode || c.state == csDone || c.state == csParked) then d.stateRefused box 0x0341 ctx
  else (d.withTree (fun e => e.publish ctx n 0 e.modelId e.modelId none)).reply box rcOk []

def execPrefixPublish (box ctx nodes : Nat) (s : State) : Host.Outcome State Fault Refusal :=
  fwCmd box (fun d => d.prefixPublish box ctx nodes) s

/-- PREFIX_FLUSH of a tenant's scope, or of public scope. -/
def execPrefixFlush (box : Nat) (tenant : Option Nat) (s : State) : Host.Outcome State Fault Refusal :=
  fwCmd box (fun d =>
    if !d.isFront then d.reply box rcNotFront []
    else if 4096 ≤ tenant.getD 0 then d.reply box rcRange []
    else (d.withTree (fun e => e.flushScope (tenant.getD 0xFFFF))).reply box rcOk []) s

/-- PREFIX_STATUS: nodes valid, public, unreferenced pages, evictions, lookups, pages matched. -/
def execPrefixStatus (box : Nat) (s : State) : Host.Outcome State Fault Refusal :=
  fwCmd box (fun d =>
    if !d.isFront then d.reply box rcNotFront []
    else
      let l := d.tenancy.nodes.filter (fun p => p.2.keyed)
      d.reply box rcOk (natLe 4 l.length ++ natLe 4 (l.filter (fun p => p.2.tenant == 0xFFFF)).length ++ natLe 4 d.idlePages ++
        natLe 8 d.tenancy.evictions ++ natLe 8 d.tenancy.lookups ++ natLe 8 d.tenancy.matched)) s

/-! ### Metering (R377 to R381) -/

/-- METER_CFG: acts from the next window. -/
def execMeterCfg (box : Nat) (p : MeterParams) (s : State) : Host.Outcome State Fault Refusal :=
  fwCmd box (fun d =>
    if p.window < 1 ∨ 3600 < p.window ∨ 2 ^ 20 < p.tokW ∨ 2 ^ 20 < p.attW ∨ 2 ^ 20 < p.pIdle ∨
        !(isGeneral p.ring && isGeneral (p.ring + 16 * 262272 - 1)) = true then d.reply box rcRange []
    else ({ d with tenancy := { d.tenancy with meterNext := some p } }).reply box rcOk []) s

/-- The weight of a berth (R379). -/
def berthWeight (m : MeterParams) (b : Berth) : Nat :=
  b.ntok * m.tokW + (b.ntok * b.start + b.ntok * (b.ntok + 1) / 2) * m.attW

/-- The part of a step that lies in a window, in ns. -/
def overlapNs (s : StepRec) (w0 w1 : Nat) : Nat :=
  match s.start, s.stop with
  | some a, some b => min b w1 - max a w0
  | _, _ => 0

/-- The shares of one step's energy by tenant (R379). -/
def stepShares (m : MeterParams) (s : StepRec) (e : Nat) : List (Nat × Nat) :=
  let good := s.berths.filter (fun b => !s.troubled.contains b.berth)
  let u := (good.map (berthWeight m)).sum
  if u = 0 then []
  else
    let ts := good.foldl (fun l b => addOnce l b.tenant) ([] : List Nat)
    ts.map (fun t => (t, e * ((good.filter (fun b => b.tenant == t)).map (berthWeight m)).sum / u))

/-- The shares of a window's energy by account, SYSTEM last (R379). -/
def windowShares (m : MeterParams) (steps : List StepRec) (e w0 w1 : Nat) : List (Nat × Nat) :=
  let w := w1 - w0
  let idle := min e (m.pIdle * w / 1000000)
  let shares := (steps.map (fun s => stepShares m s ((e - idle) * overlapNs s w0 w1 / max 1 w))).flatten
  shares ++ [(sysTenant, e - (shares.map (·.2)).sum)]

/-- Energy added to an account, and to the snapshot in waiting where it belongs there. -/
def Die.addEnergy (d : Die) (t e : Nat) (inSnap : Bool) : Die :=
  let d1 := d.modMeter t (fun m => { m with energy := m.energy + e })
  if inSnap then
    let m := amGet {} d1.tenancy.snapCount t
    { d1 with tenancy := { d1.tenancy with snapCount := amSet {} d1.tenancy.snapCount t { m with energy := m.energy + e } } }
  else d1

/-- Whether every step that overlaps the window has retired and ended. -/
def Die.windowClear (d : Die) (w1 : Nat) : Bool :=
  d.serve.steps.all (fun s => match s.start with | none => true | some a => decide (w1 ≤ a))

/-- ENERGY_ATTRIBUTE: window `k` of those not yet divided, under the weights of its metering window (R382). Steps the log keeps only for metering leave it once no window needs
them. -/
def Die.attribute (d : Die) (k : Nat) : Die :=
  match d.tenancy.energy[k]? with
  | none => d
  | some (e, w0, w1) =>
    let inSnap := match d.tenancy.snap with | some s => decide (w1 ≤ s.2.2) | none => false
    let m := if w1 ≤ d.tenancy.start then d.tenancy.meterOld else d.tenancy.meter
    let d1 := (windowShares m d.serve.log e w0 w1).foldl (fun x q => x.addEnergy q.1 q.2 inSnap) d
    let rest := d.tenancy.energy.eraseIdx k
    let oldest := rest.foldl (fun m q => min m q.2.1) d.now
    { d1 with
      tenancy := { d1.tenancy with energy := rest },
      serve := { d1.serve with log := d1.serve.log.take 64 ++ (d1.serve.log.drop 64).filter (fun s => match s.stop with
        | some b => decide (oldest < b) | none => true) } }

def execEnergyAttribute (window : Nat) (s : State) : Host.Outcome State Fault Refusal :=
  mainCmd (fun d => d.fwRuns && (match d.tenancy.energy[window]? with | some q => d.windowClear q.2.2 | none => false))
    (fun d => d.attribute window) s

/-- WINDOW in ns. -/
def Die.meterNs (d : Die) : Nat := d.tenancy.meter.window * 1000000000

/-- Index of the metering window in progress (R380). -/
def Die.meterWindow (d : Die) : Nat := d.tenancy.start / max 1 d.meterNs

/-- METER_WINDOW_BOUNDARY: at the end of the first converter window at or after (i + 1) WINDOW (R380). -/
def Die.meterBoundary (d : Die) : Die :=
  let i := d.meterWindow
  let d1 := d.accrueAll
  let t := d1.tenancy
  { d1 with tenancy := { t with
    snap := some (i, t.start, d.now), snapCount := t.count, start := d.now, meterOld := t.meter,
    meter := t.meterNext.getD t.meter, meterNext := none,
    count := (t.count.map (fun (p : Nat × Meter) => (p.1, { p.2 with window := 0 }))).filter (fun p => decide (p.2 ≠ {})) } }

def execMeterWindowBoundary (s : State) : Host.Outcome State Fault Refusal :=
  mainCmd (fun d => d.fwRuns && d.tenancy.snap.isNone && decide ((d.meterWindow + 1) * d.meterNs ≤ d.now) && d.sense.winStart == d.now)
    (fun d => d.meterBoundary) s

/-- One entry of a snapshot (R381). -/
def meterBytes (m : Meter) : List Byte :=
  natLe 8 m.berthTides ++ natLe 8 m.tokensIn ++ natLe 8 m.tokensOut ++ natLe 8 m.reused ++ natLe 8 m.pageUs ++
  natLe 8 m.energy ++ natLe 4 m.late ++ natLe 4 m.dropped ++ natLe 4 m.refusals ++ zeros 4

/-- A snapshot (R381). -/
def Die.snapBytes (d : Die) (i a b : Nat) : List Byte :=
  let h := d.here
  let body := ((List.range 4097).map (fun t => meterBytes (amGet {} d.tenancy.snapCount t))).flatten
  let head := natLe 4 0x534D484B ++ natLe 2 1 ++ natLe 2 (b2n d.isFront + 2 * b2n (!d.tenancy.wrote)) ++ natLe 8 i ++ natLe 8 a ++
    natLe 8 b ++ natLe 8 d.tenancy.resetTime ++ natLe 8 d.nv.serial ++ natLe 1 h.1 ++ natLe 1 h.2.1 ++ natLe 1 h.2.2 ++ zeros 5 ++
    natLe 4 4097
  head ++ natLe 4 (crc32c (head ++ zeros 4 ++ body)) ++ body

/-- SNAPSHOT_WRITE: window i goes to slot i mod 16 (log entry 28) of the ring that was configured in it (R382), and the front sends a METER event. -/
def Die.snapshotWrite (d : Die) : Die :=
  match d.tenancy.snap with
  | none => d
  | some (i, a, b) =>
    let m := d.tenancy.meterOld.ring
    let d1 := if isGeneral m then
        let x := d.setBytes (m + 262272 * (i % 16)) (d.snapBytes i a b)
        { x with tenancy := { x.tenancy with ring := keep x.tenancy.ring (i % 16) (i, m + 262272 * (i % 16)) } }
      else d
    let d2 := { d1 with tenancy := { d1.tenancy with snap := none, snapCount := [], wrote := true } }
    if d2.isFront then d2.eventAll 5 (natLe 8 i) else d2

def execSnapshotWrite (s : State) : Host.Outcome State Fault Refusal :=
  mainCmd (fun d => d.fwRuns && (match d.tenancy.snap with
      | some q => d.tenancy.energy.all (fun e => decide (q.2.2 < e.2.2))
      | none => false)) (fun d => d.snapshotWrite) s

/-- METER_READ: header and entries from the ring, or NO_RECORD once overwritten. -/
def execMeterRead (box window first count : Nat) (s : State) : Host.Outcome State Fault Refusal :=
  fwCmd box (fun d =>
    if 4097 < first + count then d.reply box rcRange []
    else match look d.tenancy.ring (window % 16) with
      | none => d.reply box rcNoRecord []
      | some (i, a) =>
        if i ≠ window then d.reply box rcNoRecord []
        else d.reply box rcOk (d.bytesAt a 64 ++ d.bytesAt (a + 64 + 64 * first) (64 * count))) s

end Sys2Proof.Machine
end

