-- ==== Sys2Proof/Machine/Golden.lean ====
section
/-! DEFINITION. The golden copy (R259, R260), the spare pool (R273 to R276), upkeep reports (R318 to R320) and the failure of
a relay load (R265), which array programming, sounding and relay load share. -/
namespace Sys2Proof.Machine

/-! ### The golden copy -/

/-- Entry, scales and weights of unit `u`, logical array `l`, and the factor area (R259). -/
def goldEntry (u l : Nat) : Nat := goldenBase + 0x100000 + 64 * (256 * u + l)
def goldScales (u l : Nat) : Nat := goldenBase + 0x200000 + 512 * (256 * u + l)
def goldWeights (u l : Nat) : Nat := goldenBase + 0x1000000 + 0x1000000 * u + 0x10000 * l
def goldFactors : Nat := goldenBase + 0x41000000

/-- The golden page of unit `u`, logical array `l` (R260). -/
def goldPage (u l : Nat) : Nat := 0x2FB1000 + 0x1000 * u + 0x10 * l

/-- The position of `x` in a list. -/
def indexIn (l : List Nat) (x : Nat) : Option Nat :=
  match l with
  | [] => none
  | y :: r => if y = x then some 0 else (indexIn r x).map (· + 1)

/-- The chart unit placed on tile `t` (R260). -/
def Die.unitOf (d : Die) (t : Nat) : Option Nat :=
  match indexIn d.relay.placement t with
  | some u => if u < d.relay.nUnits then some u else none
  | none => none

/-- The unit of tile `t` if it has a stored image of logical array `l`. -/
def Die.imageOf (d : Die) (t l : Nat) : Option Nat :=
  match d.unitOf t with
  | some u => if d.relay.images.contains (256 * u + l) then some u else none
  | none => none

/-- A field of an array entry: `n` bytes at offset `off` (R256, R259). -/
def Die.goldField (d : Die) (u l off n : Nat) : Nat := d.leMem (goldEntry u l + off) n

/-- The golden weight of row `i`, column `j` (R193, R259). -/
def Die.goldWeight (d : Die) (u l i j : Nat) : Int :=
  sx 4 (bits (d.byteAt (goldWeights u l + 128 * i + j / 2)).toNat (4 * (j % 2)) 4)

/-- Level steps per weight step (R85). -/
def stepsPer (mode : Nat) : Nat := if mode = 0 then 1 else if mode = 1 then 2 else 7

/-- The level pair that holds a signed number of level steps (R85). -/
def levelPair (v : Int) : Nat × Nat := if 0 ≤ v then (v.toNat, 0) else (0, (-v).toNat)

/-- The legal weights of a mode (R85). -/
def weightOk (mode : Nat) (w : Int) : Bool :=
  let m : Int := if mode = 0 then 7 else if mode = 1 then 3 else 1
  decide (-m ≤ w) && decide (w ≤ m)

/-! ### Arrays and their pool -/

/-- The state of a physical array (R110); arrays of a disabled tile are DISABLED (R111). -/
def Die.arrState (d : Die) (t a : Nat) : Nat := if d.enabled t then d.get (Reg.ARR_STATE_STATE t a) else 7

/-- State codes of R110. -/
def asUnverified : Nat := 0
def asVerifying : Nat := 1
def asProgramming : Nat := 2
def asReady : Nat := 3
def asServing : Nat := 4
def asCalibrating : Nat := 5
def asCondemned : Nat := 6
def asDisabled : Nat := 7

/-- Sets a state, with IN_PLACE and LOGICAL (R116). -/
def Die.setArrState (d : Die) (t a st : Nat) (inPlace : Bool) (logical : Nat) : Die :=
  d.putW (Reg.ARR_STATE t a) (w32 (st + 16 * b2n inPlace + 256 * (logical % 256)))

/-- The spare pool of a tile (R273): neither mapped, CONDEMNED, DISABLED nor withheld. -/
def Die.pool (d : Die) (t : Nat) : List Nat :=
  (List.range 272).filter (fun a => decide (d.arrState t a ≠ 6) && decide (d.arrState t a ≠ 7) &&
    !d.upkeep.withheld.contains (arrIx t a) && (d.mappedTo t a).isNone)

/-- The shadows of a tile (R273): those the firmware has taken that are still in the pool. -/
def Die.shadowsOf (d : Die) (t : Nat) : List Nat :=
  let p := d.pool t
  ((look d.upkeep.shadows t).getD []).filter (fun a => p.contains a)

/-- Sets the shadows of a tile. -/
def Die.setShadows (d : Die) (t : Nat) (l : List Nat) : Die :=
  { d with upkeep := { d.upkeep with shadows := keep d.upkeep.shadows t l } }

/-- An array returns to the pool: a shadow while the tile has fewer than two (R273; log entry 58). -/
def Die.returnArray (d : Die) (t a : Nat) : Die :=
  let l := d.shadowsOf t
  if l.length < 2 ∧ !l.contains a then d.setShadows t (l ++ [a]) else d

/-- Arrays CONDEMNED or DISABLED. -/
def Die.lostArrays (d : Die) (t : Nat) : Nat :=
  ((List.range 272).filter (fun a => d.arrState t a == 6 || d.arrState t a == 7)).length

/-- TILE_SPARE as it reads (R276): the shadows and the rest of the pool, the reserve, shown up to 16; neither counts before the
firmware has taken shadows, as after a reset. -/
def Die.spareWord (d : Die) (t : Nat) : Word :=
  let n := (d.pool t).length
  let sh := (d.shadowsOf t).length
  if (look d.upkeep.shadows t).isNone then
    w32 (b2n (d.on (Reg.TILE_SPARE_EXHAUSTED t)) * 2 ^ 31 + b2n (d.on (Reg.TILE_SPARE_OVERDUE t)) * 2 ^ 29 + d.lostArrays t * 2 ^ 16)
  else w32 (b2n (d.on (Reg.TILE_SPARE_EXHAUSTED t)) * 2 ^ 31 + b2n (n == 0) * 2 ^ 30 + b2n (d.on (Reg.TILE_SPARE_OVERDUE t)) * 2 ^ 29 +
    d.lostArrays t * 2 ^ 16 + sh * 2 ^ 8 + min (n - sh) 16)

/-- A request of the firmware is refused (R111): the firmware learns of it, and one record names array, state and request. Requests
are numbered 1 VERIFY, 2 PROGRAM, 3 MAP, 4 UNMAP, 5 SWAP, 6 REMAP, 7 SPRING, 8 CONDEMN (log entry 30). -/
def Die.refuseReq (d : Die) (t a req : Nat) : Die :=
  (d.emit (.firmware 3 [t, a, req, d.arrState t a])).record 0x11 1 t a [d.arrState t a, req]

/-! ### Drift and estimates (R290, R291) -/

/-- rg_avg in 1/256 code: the mean REF_GAIN of the last 256 reference strokes; none before the first. -/
def ArrCal.rgAvg (c : ArrCal) : Option Int :=
  if c.rg.isEmpty then none else some (c.rg.sum * 256 / c.rg.length)

/-- ro_avg in 1/256 code. -/
def ArrCal.roAvg (c : ArrCal) : Int := if c.ro.isEmpty then 0 else c.ro.sum * 256 / c.ro.length

/-- rg_base in 1/256 code: from the spring calibration after programming, else 96 x (1 + the factory gain error) (R291). -/
def Die.rgBase (d : Die) (t a : Nat) : Int :=
  match (d.cal t a).rgBase with
  | some b => b
  | none => 96 * 256 * (1000 + clampI (-100) 100 (Config.gainError (arrIx t a))) / 1000

/-- The drift m_a in 0.01 %, not below zero. -/
def Die.drift (d : Die) (t a : Nat) : Nat :=
  match (d.cal t a).rgAvg with
  | none => 0
  | some g => let b := d.rgBase t a
              if b ≤ 0 then 0 else ((b - g) * 10000 / b).toNat

/-! ### The refresh queue (R271, R278) -/

/-- The order of due arrays: those that lost their shadow, then suspect ones (R274, R297); then drift first, by greater fall, then age;
lower logical number on ties (R271). -/
def dueBefore (x y : Due) : Bool :=
  if x.rank ≠ y.rank then decide (x.rank < y.rank)
  else if x.byDrift ≠ y.byDrift then x.byDrift
  else
    let p := if x.byDrift then x.fall else x.age
    let q := if y.byDrift then y.fall else y.age
    decide (q < p) || (p == q && decide (x.logical < y.logical))

/-- Puts a due array in its place. -/
def insertDue (l : List Due) (x : Due) : List Due :=
  match l with
  | [] => [x]
  | y :: r => if dueBefore x y then x :: y :: r else y :: insertDue r x

/-- Seconds for which the arrays have drifted (R87, R125): those in which the die's clock ran, whatever the host set it to, and those it
stood without power or under a MODULE reset. -/
def Die.secs (d : Die) : Nat := d.clock.aging / 4000000000 + ((List.range d.clock.offs).map Config.offSeconds).sum

/-- The age of an array in hours: since the end of the last verify of the rows verified longest ago (R271). -/
def Die.ageHours (d : Die) (t a : Nat) : Nat :=
  (d.secs - ((List.range 32).map (fun g => amGet 0 (d.arr t a).verifiedAt g)).foldl min (amGet 0 (d.arr t a).verifiedAt 0)) / 3600

/-- The fall of REF_GAIN reaches the drift threshold (R271). -/
def Die.driftDue (d : Die) (t a : Nat) : Bool := decide (10 * d.upkeep.set.drift10 ≤ d.drift t a)

/-- Whether a refresh window covers logical array `l` at position `p` of a table of `n` positions (R225, R235). -/
def RefreshWin.covers (w : RefreshWin) (n p l : Nat) : Bool :=
  decide (w.first ≤ l) && decide (l < w.first + w.count) && decide ((p + n - w.pos % n) % n < w.npos)

/-- A refresh window of the loaded table covers the logical array (R225, R235). -/
def Die.windowCovers (d : Die) (t l : Nat) : Bool :=
  match d.tide.table with
  | none => false
  | some tb => decide (2 ≤ d.tideState) && tb.refresh.any (fun w => w.tile == t && decide (w.first ≤ l) && decide (l < w.first + w.count))

/-- A due array is deferred, with a record, where refreshes run in place and no window covers it, and no longer once it can be
refreshed (R278). -/
def Die.deferDue (d : Die) (t l : Nat) : Die :=
  if (d.pool t).isEmpty && !d.windowCovers t l then
    if (look d.upkeep.deferred (256 * t + l)).isSome then d
    else ({ d with upkeep := { d.upkeep with deferred := keep d.upkeep.deferred (256 * t + l) (d.now / 1000000000) } }).record 0x12 2 t
      ((d.serving t l).getD 0xFFFF) [l]
  else { d with upkeep := { d.upkeep with deferred := amErase d.upkeep.deferred (256 * t + l) } }

/-- An array is put into the refresh queue, or moves up in it. -/
def Die.addDue (d : Die) (x : Due) : Die :=
  ({ d with upkeep := { d.upkeep with
    due := insertDue (d.upkeep.due.filter (fun y => !(y.tile == x.tile && y.logical == x.logical))) x } }).deferDue x.tile x.logical

/-- A spring calibration of a serving array is run as a rolling refresh or in a refresh window (R274): the array joins the queue as
age-triggered (R299), a suspect one ahead of every due array (R297). -/
def Die.springDue (d : Die) (t a : Nat) (suspect : Bool) : Die :=
  match d.mappedTo t a with
  | none => d
  | some l =>
    if d.upkeep.due.any (fun x => x.tile == t && x.logical == l && (!suspect || decide (x.rank < 2))) then d
    else d.addDue { tile := t, logical := l, rank := if suspect then 1 else 2, byDrift := false, fall := d.drift t a, age := d.ageHours t a }

/-- The queue as it stands at a tide boundary: each array by its fall and its age now (R271), deferred or not (R278). -/
def Die.dueBoundary (d : Die) : Die :=
  let l := d.upkeep.due.map (fun x => match d.serving x.tile x.logical with
    | some a => { x with byDrift := x.byDrift || d.driftDue x.tile a, fall := d.drift x.tile a, age := d.ageHours x.tile a }
    | none => x)
  l.foldl (fun e x => e.deferDue x.tile x.logical) { d with upkeep := { d.upkeep with due := l.foldl insertDue [] } }

/-! ### Reports (R318 to R320) -/

/-- What a report names beside the module and the time; fields that do not apply are zero (R319). `array` says that it names an array,
whose drift it then carries. -/
structure Report where
  kind : Nat
  reason : Nat := 0
  tile : Nat := 0
  block : Nat := 0
  phys : Nat := 0
  logical : Nat := 0
  column : Nat := 0
  matrix : Nat := 0
  layer : Nat := 0
  berth : Nat := 0
  ctx : Nat := 0
  tenant : Nat := 0
  pos : Nat := 0
  strokeTide : Nat := 0
  step : Nat := 0
  diff : Nat := 0
  tol : Nat := 0
  nfail : Nat := 0
  watch : Nat := 0
  frac : Nat := 0
  array : Bool := true
  detail : List Byte := []

/-- MATRIX_ID of a logical array of a tile, from its golden entry. -/
def Die.matrixOf (d : Die) (t l : Nat) : Nat :=
  match d.imageOf t l with
  | some u => d.goldField u l 12 4
  | none => 0

/-- MATRIX_ID of what array `a` serves; 0 where it serves nothing. -/
def Die.matrixAt (d : Die) (t a : Nat) : Nat :=
  match d.mappedTo t a with
  | some l => d.matrixOf t l
  | none => 0

/-- The effective sounding code of an array (R306): 0 off. -/
def Die.soundCode (d : Die) (t a : Nat) : Nat :=
  let f := d.get (Reg.SND_CFG_FRAC t a)
  if f = 8 then 0 else if f = 0 then d.get (Reg.SND_TILE_CTRL_FRAC t) else f

/-- An array is sounded at its watch fraction already: under watch, suspect, or kept in service as degraded (R297, R312, R325). -/
def Die.watched (d : Die) (t a : Nat) : Bool :=
  (d.cal t a).watch.isSome || (d.cal t a).degraded || d.on (Reg.CAL_QF_SUSPECT t a)

/-- The watch code of an array (R297, R312): the smaller of its effective code plus 2 and 7; an array sounded at it already keeps the code
it has. -/
def Die.watchCode (d : Die) (t a : Nat) : Nat :=
  if d.watched t a then d.get (Reg.SND_CFG_FRAC t a) else min (d.soundCode t a + 2) 7

/-- The 128 bytes of a report (R319); TEMP_MISMATCH names no tile and no array, and the estimate and drift of none. -/
def Die.reportBytes (d : Die) (r : Report) : List Byte :=
  natLe 1 r.kind ++ natLe 1 r.reason ++ natLe 1 r.tile ++ natLe 1 r.block ++ natLe 2 r.phys ++ natLe 1 r.logical ++
  natLe 1 r.column ++ natLe 8 d.nv.serial ++ natLe 4 r.matrix ++ natLe 2 r.layer ++ natLe 2 r.berth ++ natLe 4 r.ctx ++
  natLe 2 r.tenant ++ natLe 2 r.pos ++ natLe 8 r.strokeTide ++ natLe 8 d.tideNum ++ natLe 8 (d.now / 1000000000) ++
  natLe 4 (d.now % 1000000000) ++ natLe 4 r.step ++ natLe 2 d.diode ++
  natLe 2 (if r.kind = 10 then 0 else d.get (Reg.CAL_TILE_TEMP_EST r.tile)) ++
  natLe 2 d.vCore ++ natLe 2 (if r.array then min (d.drift r.tile r.phys) 65535 else 0) ++ natLe 4 r.diff ++ natLe 4 r.tol ++ natLe 1 r.nfail ++
  natLe 1 r.watch ++ natLe 1 r.frac ++ natLe 1 0 ++ (r.detail ++ zeros 44).take 44

/-- The eight words of 32 bytes. -/
def wordsOf (bs : List Byte) (n : Nat) : List Nat := (List.range n).map (fun i => leAt bs (4 * i) 4)

/-- A report goes to the host unless 64 have gone this second (R319); the next report sent after that tells, in the last four bytes
of its detail, how many were held back. -/
def Die.sendReport (d : Die) (bs : List Byte) : Die :=
  let sec := d.now / 1000000000
  let (s0, sent, held) := d.upkeep.rate
  let n := if s0 = sec then sent else 0
  if n < 64 then
    ({ d with upkeep := { d.upkeep with rate := (sec, n + 1, 0) } }).eventAll 4
      (if held = 0 then bs else bs.take 124 ++ natLe 4 held)
  else { d with upkeep := { d.upkeep with rate := (sec, n, held + 1) } }

/-- T_DIODE and V_CORE put into a report (R319, R320). -/
def withReadings (bs : List Byte) (diode core : Nat) : List Byte := splice (splice bs 64 (natLe 2 diode)) 68 (natLe 2 core)

/-- The newest hang report gets its readings (R530), where it waits for them. -/
def Die.finishHang (d : Die) (diode core : Nat) : Die :=
  if !d.boot.hangUnsent then d
  else { d with boot := { d.boot with
    hangUnsent := false,
    reports := match d.boot.reports with
      | [] => []
      | bs :: rest => splice (splice bs 26 (natLe 2 diode)) 28 (natLe 2 core) :: rest } }

/-- The reports that waited for their readings get them, and those of R319 go to the host, oldest first (R320, R530). -/
def Die.finishReports (d0 : Die) (diode core : Nat) : Die :=
  let d := d0.finishHang diode core
  let n := d.upkeep.unsent
  let ready := (d.upkeep.reports.take n).map (fun bs => withReadings bs diode core)
  ready.reverse.foldl (fun e bs => e.sendReport bs)
    { d with upkeep := { d.upkeep with reports := ready ++ d.upkeep.reports.drop n, unsent := 0, readings := (none, none) } }

/-- A report is made (R319, R320): it is kept among the last 1,024, its first 32 bytes become a record, and injected conversions of the
diode and of VDD_SOC are asked for, whose results complete it; where the converters cannot give them, it goes out with the readings
held (log entry 59). -/
def Die.report (d : Die) (r : Report) : Die :=
  let bs := d.reportBytes r
  let d1 := ({ d with upkeep := { d.upkeep with
    reports := (bs :: d.upkeep.reports).take 1024, unsent := min 1024 (d.upkeep.unsent + 1) } }).record 0x12 1 r.tile 0xFFFF (wordsOf bs 8)
  if d1.canMeasure then d1.trigger 2 else d1.finishReports d1.diode d1.vCore

/-- A conversion of the FAULT source gives a reading that reports wait for (R320): converter, channel and VALUE. -/
def Die.reportReading (d : Die) (conv ch : Nat) (v : Int) : Die :=
  if (d.upkeep.unsent = 0 ∧ !d.boot.hangUnsent) ∨ !((conv == 0 && ch == 12) || (conv == d.coreConv && ch == 0)) then d
  else
    let r := d.upkeep.readings
    let r1 := if ch = 12 then (some (enc 16 v), r.2) else (r.1, some (enc 16 v))
    match r1 with
    | (some a, some b) => d.finishReports a b
    | _ => { d with upkeep := { d.upkeep with readings := r1 } }

/-! ### Relay failure (R265) -/

/-- Relay states (R262). -/
def rsIdle : Nat := 0
def rsReceiving : Nat := 1
def rsProgramming : Nat := 2
def rsReady : Nat := 3
def rsFailed : Nat := 4

/-- Kinds of relay messages on a link: RELAY_ACK, RELAY_NAK, RELAY_REQ, RELAY_ABORT, RELAY_DATA refusal. -/
def lmRelayAck : Nat := 20
def lmRelayNak : Nat := 21
def lmRelayReq : Nat := 22
def lmRelayAbort : Nat := 23
def lmRelayRefused : Nat := 24

/-- RELAY_ABORT up and down the chain. -/
def Die.relayAborts (d : Die) : Die :=
  let up := if d.relay.role = 1 ∧ d.relay.upLink < 6 then d.tellLink d.relay.upLink lmRelayAbort [] else d
  if d.relay.downLink < 6 then up.tellLink d.relay.downLink lmRelayAbort [] else up

/-- The expected shards (R263): the preamble and FIRST_SHARD to LAST_SHARD. -/
def Relay.expected (r : Relay) : List Nat :=
  List.range (max r.nPre 1) ++ ((List.range (r.last + 1 - r.first)).map (· + r.first)).filter (fun q => decide (max r.nPre 1 ≤ q))

/-- Expected shards missing or corrupt. -/
def Relay.missing (r : Relay) : List Nat := r.expected.filter (fun q => !r.got.contains q)

/-- The load fails with a code (R265): FAILED, RELAY_ABORT both ways, a record, and at a head an event (R444). -/
def Die.relayFail (d : Die) (code : Nat) : Die :=
  let miss := d.relay.missing
  let d1 := ({ d with relay := { d.relay with state := rsFailed, code := code } }).relayAborts
  let d2 := d1.record 0x20 3 0xFF 0xFFFF [code, miss.length]
  if d.relay.role = 0 then
    d2.eventAll 3 (natLe 1 2 ++ natLe 1 code ++ zeros 2 ++ natLe 4 0 ++ natLe 4 miss.length ++ natLe 4 (min miss.length 256) ++
      ((miss.take 256).map (natLe 4)).flatten)
  else d2

/-! ### Condemnation and exhaustion (R111, R322, R325) -/

/-- A map entry at its reset value: unmapped, nothing pending (R270). -/
def Die.unmapEntry (d : Die) (t l : Nat) : Die :=
  { d.putW (Reg.TILE_AMAP t l) (resetWord (Reg.TILE_AMAP t l)) with mapPend := amErase d.mapPend (256 * t + l) }

/-- Where slot `n` of a matrix and row group lies (R324): for each pinned region named, address and bytes; the slots fill the region
from the offset given to its end. -/
def Die.slotSpans (d : Die) (matrix group n : Nat) : List (Nat × Nat) :=
  (d.upkeep.slots.filter (fun s => s.matrix == matrix && s.group == group)).map (fun s =>
    let len := (d.rgnSize s.tile s.region - s.offset) / max 1 s.slots
    (d.rgnAddr s.tile s.region (s.offset + n * len), len))

/-- A repair slot is zeroed. -/
def Die.zeroSlot (d : Die) (matrix group n : Nat) : Die :=
  (d.slotSpans matrix group n).foldl (fun e p => e.setBytes p.1 (zeros p.2)) d

/-- A repair rank ends: its slot is zeroed and freed, and its column unmasked (R324). -/
def Die.endRank (d : Die) (x : RankUse) : Die :=
  let d1 := ({ d with upkeep := { d.upkeep with ranks := d.upkeep.ranks.filter (fun y => decide (y ≠ x)) } }).zeroSlot x.matrix x.group x.slot
  (d1.put ⟨Reg.SND_MASK (x.arr / 272) (x.arr % 272) (x.col / 32), x.col % 32, 1⟩ 0).modCal (x.arr / 272) (x.arr % 272)
    (fun c => { c with chained := without c.chained x.col })

/-- A repair rank ends (R324): its array serves another logical array, or none once the rank has been written, or can serve none, or
holds the image of another. -/
def Die.rankEnds (d : Die) (x : RankUse) : Bool :=
  let t := x.arr / 272
  let a := x.arr % 272
  match d.mappedTo t a with
  | some l => decide (l ≠ x.logical) || decide (d.matrixOf t l ≠ x.matrix)
  | none => x.written || d.arrState t a == asCondemned || d.arrState t a == asDisabled ||
      (match (d.cal t a).holds with
        | some k => decide (k % 256 ≠ x.logical) || decide (d.goldField (k / 256) (k % 256) 12 4 ≠ x.matrix)
        | none => true)

/-- The repair ranks that end do so at a step boundary alone (R153): at a map change's own boundary, and otherwise at the next boundary
into position 0. -/
def Die.freeRanks (d : Die) : Die := (d.upkeep.ranks.filter (fun x => d.rankEnds x)).foldl (fun e x => e.endRank x) d


/-- Physical array `a` is condemned (R111, R275): a programming pass that ran is cut off, the map entry is withdrawn, the
array is entered in the defect map, and a refresh or a claim that had taken it loses it (R274). -/
def Die.condemnArr (d : Die) (t a : Nat) : Die :=
  let d1 := match d.mappedTo t a with
    | some l => d.unmapEntry t l
    | none => d
  let d2 := (d1.modArr t a (fun x => { x with
    cells := interruptCells x.cells x.job d1.freeCtr, loose := interruptLoose x.loose x.job, job := .none, windowOpen := false })).tick1
  let d3 := (d2.setArrState t a asCondemned false 0).modCal t a (fun c => { c with degraded := false, bandsOpen := false })
  { d3 with
    nv := { d3.nv with defectMap := addOnce d3.nv.defectMap (t, a) },
    upkeep := { d3.upkeep with
      withheld := without d3.upkeep.withheld (arrIx t a),
      refreshes := d3.upkeep.refreshes.filter (fun x => decide (x.1 ≠ t) || decide (x.2.2 ≠ a)),
      claims := d3.upkeep.claims.map (fun c => if c.tile = t ∧ c.spare = some a then { c with spare := none } else c) } }

/-- STOP_NOW by the firmware, with the stop flag to the slice (R218, R239, R325, R466). -/
def Die.stopNowFw (d : Die) : Die := d.faultStop 2 d.coord

/-- Exhaustion, or an overdue refresh, of logical array `l`, of which array `a` is to be condemned or refreshed (R325): under DEGRADED a serving array goes on at the watch fraction, marked,
with one report; else a report is made and the tide table is stopped. -/
def Die.exhausted (d : Die) (t l : Nat) (a : Option Nat) (kind : Nat) : Die :=
  let r : Report := { kind := kind, tile := t, logical := l, phys := a.getD 0, matrix := d.matrixOf t l, array := a.isSome,
                      detail := if kind = 8 then natLe 2 (d.pool t).length ++ natLe 2 (d.lostArrays t) else [] }
  let d1 := if kind = 8 then d.raise (Reg.TILE_SPARE_EXHAUSTED t) else d
  let d2 := match a with
    | some x =>
      if d.upkeep.set.degraded && d.serving t l == some x then
        if (d.cal t x).degraded then d1
        else ((d1.report r).modCal t x (fun c => { c with degraded := true })).put (Reg.SND_CFG_FRAC t x) (d.watchCode t x)
      else (d1.report r).stopNowFw
    | none => (d1.report r).stopNowFw
  if (d2.relay.state = rsReceiving ∨ d2.relay.state = rsProgramming) ∧ kind = 8 ∧ (d2.imageOf t l).isSome then d2.relayFail 9 else d2

/-- A report of kind REPAIR with the step taken (R322). -/
def Die.repairReport (d : Die) (t a l c step : Nat) : Die :=
  d.report { kind := 7, reason := step, tile := t, phys := a, logical := l, column := c % 256, matrix := d.matrixOf t l }

/-- Arrays of a tile that remap claims have taken. -/
def Die.claimed (d : Die) (t : Nat) : List Nat := (d.upkeep.claims.filter (fun c => c.tile == t)).filterMap (fun c => c.spare)

/-- A shadow's refresh is finished and waits for its swap: programmed, calibrated and READY (R272, R274). -/
def Die.refreshed (d : Die) (t a : Nat) : Bool :=
  d.arrState t a == asReady && decide ((d.arr t a).job = .none) && !(d.cal t a).programmed && !(d.cal t a).reprog

/-- The array a remap claim takes (R274): one of the reserve, the lowest-numbered (log entry 58); else an idle shadow, then one being
programmed for a refresh, then one that holds a finished refresh. -/
def Die.pickSpare (d : Die) (t : Nat) : Option Nat :=
  let sh := d.shadowsOf t
  let free := (d.pool t).filter (fun a => !(d.claimed t).contains a && decide ((d.arr t a).job = .none))
  let busy (a : Nat) : Bool := d.upkeep.refreshes.any (fun x => x.1 == t && x.2.2 == a)
  (free.filter (fun a => !sh.contains a) ++ free.filter (fun a => sh.contains a && !busy a) ++
    ((d.pool t).filter (fun a => sh.contains a && busy a && !d.refreshed t a && !(d.claimed t).contains a)) ++
    free.filter (fun a => sh.contains a && busy a && d.refreshed t a)).head?

/-- The logical array goes to the head of the refresh queue (R274). -/
def Die.dueFirst (d : Die) (t l : Nat) : Die :=
  let x := (d.upkeep.due.find? (fun x => x.tile == t && x.logical == l)).getD { tile := t, logical := l, byDrift := false, fall := 0, age := 0 }
  { d with upkeep := { d.upkeep with
    due := { x with rank := 0 } :: d.upkeep.due.filter (fun x => !(x.tile == t && x.logical == l)) } }

/-- A pending swap is withdrawn. -/
def Die.dropSwap (d : Die) (t l : Nat) : Die :=
  if look d.mapPend (256 * t + l) = some .swap then
    let d1 := (d.clear (Reg.TILE_AMAP_PEND t l)).put (Reg.TILE_AMAP_NEXT t l) 0x1FF
    { d1 with mapPend := amErase d1.mapPend (256 * t + l) }
  else d

/-- A claim takes spare `h`: a refresh that had it is abandoned and its logical array returns to the head of the queue, but a finished
refresh of the claim's own logical array becomes the remap at once (R274). -/
def Die.takeSpare (d : Die) (c : Claim) (h : Nat) : Die :=
  let d1 := { d with upkeep := { d.upkeep with
    claims := d.upkeep.claims.map (fun x => if x = c then { c with spare := some h } else x),
    refreshes := d.upkeep.refreshes.filter (fun x => !(x.1 == c.tile && x.2.2 == h)) } }
  let d2 := d1.setShadows c.tile (without (d.shadowsOf c.tile) h)
  match d.upkeep.refreshes.find? (fun x => x.1 == c.tile && x.2.2 == h) with
  | none => d2
  | some x =>
    if x.2.1 = c.logical then
      (if look d2.mapPend (256 * c.tile + c.logical) = some .swap ∧ c.outgoing.isSome then
        { d2 with mapPend := keep d2.mapPend (256 * c.tile + c.logical) .remap } else d2)
    else (d2.dropSwap c.tile x.2.1).dueFirst c.tile x.2.1

/-- The waiting claims of a list are served in order (R274); one that finds the pool empty is exhaustion, which is step 5 of the chain for
a claim that the repair chain made (R322). -/
def Die.serveClaims (d : Die) (l : List Claim) : Die :=
  match l with
  | [] => d
  | c :: r =>
    if (d.pool c.tile).isEmpty then
      let d1 := { d with upkeep := { d.upkeep with claims := d.upkeep.claims.filter (fun x => decide (x ≠ c)) } }
      let d2 := match c.repair with | some a => d1.repairReport c.tile a c.logical 0 5 | none => d1
      (d2.exhausted c.tile c.logical c.outgoing 8).serveClaims r
    else match d.pickSpare c.tile with
      | none => d.serveClaims r
      | some h => ((d.takeSpare c h).emit (.firmware 4 [c.tile, c.logical, h])).serveClaims r

/-- Claims that have no spare yet. -/
def Die.waitingClaims (d : Die) : List Claim := d.upkeep.claims.filter (fun c => c.spare.isNone)

/-- A claim in its place: the earlier decision first, then the lower logical number (R274). -/
def insertClaim (l : List Claim) (c : Claim) : List Claim :=
  match l with
  | [] => [c]
  | x :: r => if c.tide < x.tide ∨ (c.tide = x.tide ∧ c.logical < x.logical) then c :: x :: r else x :: insertClaim r c

/-- A remap claim for logical array `l` (R274), which array `a` serves, if any: it takes a spare of the pool, which requests then
program, calibrate and swap in; an empty pool is exhaustion. `repair` names the array that the repair chain condemned for it (R322). -/
def Die.remapClaim (d : Die) (t l : Nat) (a : Option Nat) (repair : Option Nat := none) : Die :=
  let d1 :=
    if d.upkeep.claims.any (fun c => c.tile == t && c.logical == l) then
      { d with upkeep := { d.upkeep with
        claims := d.upkeep.claims.map (fun (c : Claim) => if c.tile = t ∧ c.logical = l ∧ repair.isSome = true then { c with repair := repair } else c) } }
    else { d with upkeep := { d.upkeep with
      claims := insertClaim d.upkeep.claims { tile := t, logical := l, tide := d.tideNum, outgoing := a, repair := repair } } }
  d1.serveClaims d1.waitingClaims

end Sys2Proof.Machine
end

