-- ==== Sys2Proof/Machine/Analog.lean ====
section
/-! DEFINITION. The analogue path of an array (R87, R90 to R94, R106, R124 to R127, R280, R281): what a cell conducts, how it drifts,
and how a bank's charge becomes a code. Every source of error that R124 bounds is a free value held within that bound; a source given
by its RMS alone is a free value without one (log entry 8). Conductances are in thousandths of a level step, codes in thousandths of an
LSB, temperatures in 1/16 °C, losses in millionths. -/
namespace Sys2Proof.Machine

/-- `x` held within ±`m`. -/
def boundI (m x : Int) : Int := clampI (-m) m x

/-! ### Drift (R125) -/

/-- The gain loss per decade of time at each junction temperature of R125. -/
def driftTable : List (Int × Int) := [(400, 2000), (720, 5000), (1120, 12000), (1360, 20000), (1520, 26000), (1680, 33000)]

/-- A table read with linear interpolation between its rows and its end rows beyond them. -/
def interpolate (l : List (Int × Int)) (x : Int) : Int :=
  match l with
  | [] => 0
  | [p] => p.2
  | p :: q :: r =>
    if x ≤ p.1 then p.2
    else if x ≤ q.1 then p.2 + (q.2 - p.2) * (x - p.1) / (q.1 - p.1)
    else interpolate (q :: r) x

/-- log10(t / 100 s) in thousandths; nothing before 100 s. -/
def decades (t : Nat) : Nat := if t < 100 then 0 else Nat.log 10 (t ^ 1000) - 2000

/-- The mean loss of conductance `t` seconds after the end of a verify, at one junction temperature (log entry 8). -/
def meanLoss (temp : Int) (t : Nat) : Int := interpolate driftTable temp * (decades t : Nat) / 1000

/-- The junction temperature at an array now. -/
def Die.junction (d : Die) (ix : Nat) : Int := Config.junctionTemp ix d.secs

/-- The second at which the programming of a row ended: rows are programmed in groups of 16 (R268). -/
def Array1.verifiedSec (x : Array1) (row : Nat) : Nat := amGet 0 x.verifiedAt (row / 16)

/-- A request has just programmed rows `lo` to `hi - 1` (R87, R125): their drift counts from `sec`, and each cell lies anywhere in its
window anew. That holds for the cells that the request found in their windows too: R125 counts an array's drift from the end of verify
and names no cells that keep an older one (DESIGN CHOICE, log entry 8). -/
def Array1.verifyRows (x : Array1) (lo hi sec : Nat) : Array1 :=
  { x with
    verifiedAt := ((List.range 32).filter (fun g => decide (lo ≤ 16 * g) && decide (16 * g < hi))).foldl
      (fun m g => amSet 0 m g sec) x.verifiedAt,
    epochs := ((List.range 32).filter (fun g => decide (lo ≤ 16 * g) && decide (16 * g < hi))).foldl
      (fun m g => amSet 0 m g (amGet 0 m g + 1)) x.epochs }

/-! ### A cell (R85, R87, R124) -/

/-- What one side of a cell conducts above the level-0 base: its level with a programming error of at most ±0.15 steps (none bounds a
cell left outside its window), lowered by the mean loss and the cell's own spread of it. `side` is 0 for Gp and 1 for Gn. -/
def Array1.conductance (x : Array1) (ix : Nat) (loss : Int) (cell side level : Nat) : Int :=
  let e := Config.cellError ix (amGet 0 x.epochs (cell / 266 / 16)) (2 * cell + side)
  let err := if x.loose.contains cell then e else boundI 150 e
  Int.fdiv ((1000 * level + err) * (1000000000 - loss * (1000 + Config.driftSpread ix (2 * cell + side)))) 1000000000

/-- The levels a cell stands at. -/
def Array1.levels (x : Array1) (cell : Nat) : Nat × Nat := amGet (cellDefault cell) x.cells cell

/-- Both sides of a cell now. -/
def Die.cellNow (d : Die) (ix : Nat) (x : Array1) (cell : Nat) : Int × Int :=
  let loss := meanLoss (d.junction ix) (d.secs - x.verifiedSec (cell / 266))
  (x.conductance ix loss cell 0 (x.levels cell).1, x.conductance ix loss cell 1 (x.levels cell).2)

/-- A cell lies inside its window of ±0.15 steps around the target levels `p` (R87). -/
def Die.inWindow (d : Die) (ix : Nat) (x : Array1) (cell : Nat) (p : Nat × Nat) : Bool :=
  let g := d.cellNow ix x cell
  decide ((g.1 - 1000 * p.1).natAbs ≤ 150) && decide ((g.2 - 1000 * p.2).natAbs ≤ 150)

/-! ### A phase (R90, R91, R94) -/

/-- The sum of a physical column over the rows `lo` to `hi - 1` (R90), in thousandths of a level step times digit. -/
def Die.columnCharge (d : Die) (ix : Nat) (x : Array1) (ds : List Int) (c lo hi : Nat) : Int :=
  ((List.range 512).map (fun i =>
    if lo ≤ i ∧ i < hi then
      let g := d.cellNow ix x (266 * i + c)
      ds.getD i 0 * (g.1 - g.2)
    else 0)).sum

/-- The trims that a bank would latch now (R94, R282): gain, offsets and converter references as their registers hold them. -/
def Die.latch (d : Die) (t a : Nat) : Latch :=
  { gain := d.get (Reg.CAL_GAIN_ACT t a), off := (List.range 66).map (fun v => (d.getW (Reg.CAL_OFFA t a v)).toNat),
    cref := (List.range 16).map (fun w => (d.getW (Reg.CAL_CREFA t a w)).toNat) }

/-- Field `j` of a list of words with four fields of `w` bits, at bytes 0 to 3. -/
def fieldOf (w : Nat) (l : List Nat) (j : Nat) : Int := sx w (bits (l.getD (j / 4) 0) (8 * (j % 4)) w)

/-- The bank that phase number `n` of the running phase count drives (R91). -/
def phaseBank (n : Nat) : Nat := n % 2

/-- The temperature above 70 °C, at which the factory measures an array (R283). The shifts of R127 are linear in it, so that two
temperatures differ by no more than their distance gives, whatever trims stand between them. -/
def Die.above70 (d : Die) (ix : Nat) : Int := d.junction ix - 1120

/-- A product with a factor given in parts of `den`. -/
def scaled (x : Int) (num den : Int) : Int := Int.fdiv (x * num) den

/-- The factory gain error of an array, at most ±10 % (R124, R291), in thousandths. -/
def gainError (ix : Nat) : Int := boundI 100 (Config.gainError ix)

/-- What the gains make of a column sum before conversion (R124, R127, R280): the array's own gain and its shift with temperature, and
the nonlinearity of the column wire. -/
def arrayGain (ix : Nat) (dT : Int) (p c : Nat) (s : Int) : Int :=
  let s1 := scaled s (1000 + gainError ix) 1000
  let s2 := scaled s1 (1600000 + boundI 30 (Config.gainShift ix) * dT) 1600000
  scaled s2 (1000000 + boundI (if p ≤ 2048 then 2000 else 6000) (Config.wireBend ix c p s)) 1000000

/-- A converter's code for `v` thousandths of an LSB (R93, R124): its reference, which the factory trim `fact` brings to within 0.05 % of
full scale between converters (R283), trimmed by `cref` in steps of 0.1 %; then its nonlinearities and the noise of this conversion
`n`. -/
def codeOf (ix conv : Nat) (fact cref v : Int) (n : Nat) : Int :=
  let v1 := scaled v (100000 + boundI 25 (Config.converterError ix conv) + 100 * (cref - fact)) 100000
  let k := Int.fdiv (v1 + 500) 1000
  let v2 := v1 + boundI 500 (Config.converterInl ix conv k) + boundI 300 (Config.converterDnl ix conv k) + Config.noise n
  clampI (-128) 127 (Int.fdiv (v2 + 500) 1000)

/-- The factory trim of an array's converters (R283), as the non-volatile store holds it. -/
def Die.factoryCref (d : Die) (t a : Nat) : List Nat := (List.range 16).map (fun w => (d.nvWord (Reg.CAL_CREF t a w)).toNat)

/-- The offset of a column in a bank (R124, R127, R280): at most ±6 LSB, its shift with temperature, and the trim, whose code t
cancels t/4 LSB. -/
def offsetOf (ix c bank : Nat) (dT trim : Int) : Int :=
  boundI 6000 (Config.columnOffset ix c bank) + Int.fdiv (boundI 40 (Config.offsetShift ix c) * dT) 16 - 250 * trim

/-- One conversion of a weight or spare column (R91 to R94, R124 to R127): the charge of bank `bank`, in which physical column `c` was
driven over rows `lo` to `hi - 1` with predictor sum `p`, by the converter of record position `j`, under the trims the bank latched.
`n` numbers the conversion. -/
def Die.conversion (d : Die) (ix : Nat) (x : Array1) (tr : Latch) (bank wmode gain : Nat) (ds : List Int) (c lo hi p j n : Nat) : Int :=
  let dT := d.above70 ix
  let s := scaled (arrayGain ix dT p c (d.columnCharge ix x ds c lo hi)) (1000 + sx 8 tr.gain) 1000
  let v := Int.fdiv (2 * s) ((stepsPer wmode * 2 ^ gain : Nat) : Int)
  codeOf ix (j / 4) (fieldOf 5 (d.factoryCref (ix / 272) (ix % 272)) (j / 4)) (fieldOf 5 tr.cref (j / 4)) (v + offsetOf ix c bank dT (fieldOf 6 tr.off c)) n

/-! ### The reference columns (R105, R106, R281) -/

/-- The factory figures of REF_ABS in thousandths (R106, R291): 80 ± 8 codes at 70 °C, 0.25 ± 0.03 codes per °C. -/
def factoryAbs70 (ix : Nat) : Int := clampI 72000 88000 (Config.abs70 ix)
def factorySlope (t : Nat) : Int := clampI 220 280 (Config.slope t)

/-- A reference column converted differentially: every row at digit +2, W4 spacing, g = 6; the converter reference trims in force act,
offset and gain trims do not. -/
def Die.refCode (d : Die) (ix : Nat) (x : Array1) (bank : Nat) (cref : Nat) (k n : Nat) : Int :=
  let dT := d.above70 ix
  let s := arrayGain ix dT 1024 (264 + k) (d.columnCharge ix x (List.replicate 512 2) (264 + k) 0 512)
  codeOf ix k (fieldOf 5 (d.factoryCref (ix / 272) (ix % 272)) k) (fieldOf 5 [cref] k) (Int.fdiv s 32 + offsetOf ix (264 + k) bank dT 0) n

/-- The codes REF_GAIN, REF_OFFS and REF_ABS; REF_ABS rises with temperature and falls with the mean loss (R106, R125). -/
def Die.refCodes (d : Die) (t a : Nat) (x : Array1) (bank cref n : Nat) : Int × Int × Int :=
  let ix := arrIx t a
  let abs70 := factoryAbs70 ix + Int.fdiv (factorySlope t * (d.junction ix - 1120)) 16
  let loss := meanLoss (d.junction ix) (d.secs - x.verifiedSec 511)
  (d.refCode ix x bank cref 0 n, d.refCode ix x bank cref 1 (n + 1),
   codeOf ix 2 (fieldOf 5 (d.factoryCref t a) 2) (fieldOf 5 [cref] 2) (scaled abs70 (1000000 - loss) 1000000) (n + 2))

end Sys2Proof.Machine
end

