-- ==== Sys2Proof/Machine/Arrays.lean ====
section
/-! DEFINITION. Strokes and reference strokes of an array (R84 to R107, R112, R117 to R120), sounding's selection and capture
(R306 to R308), and the registers of an array (R109, R113 to R121, R156). -/
namespace Sys2Proof.Machine

/-! ### Row drive (R88, R101) -/

/-- The low digit of an A8 value (R88). -/
def lowDigit (x : Int) : Int := (x + 8) % 16 - 8

/-- The high digit of an A8 value (R88). -/
def highDigit (x : Int) : Int := (x - lowDigit x) / 16

/-- The digits of phase 0 and of phase 1 (R88); at A4 the value is the one digit. -/
def digits0 (aw4 : Bool) (codes : List Int) : List Int := if aw4 then codes else codes.map lowDigit
def digits1 (aw4 : Bool) (codes : List Int) : List Int := if aw4 then [] else codes.map highDigit

/-- The predictor sum of a phase (R101). -/
def predictor (ds : List Int) : Nat := (ds.map Int.natAbs).sum

/-! ### Conversion (R90 to R93) -/

/-- A clip code (R93). -/
def isClip (q : Int) : Bool := decide (q = -128) || decide (q = 127)

/-- A column word (R98). -/
def columnWord (d : Int) (clip split slack : Bool) : Nat :=
  enc 9 d + b2n clip * 2 ^ 15 + b2n split * 2 ^ 14 + b2n slack * 2 ^ 13

/-- The physical column behind position `j` of a record (R109): the spare column whose assignment word names it, or itself. -/
def sourceColumn (colmap : List Nat) (j : Nat) : Nat :=
  let w := colmap.getD (j / 32) 0
  if bit w 31 && decide (w % 256 = j) then 256 + j / 32 else j

/-- The trims latched by the `k`-th drive phase of a stroke (R94); `now` are those in force, for a phase that begins only now. -/
def Flight.latchOf (f : Flight) (now : Latch) (k : Nat) : Latch := f.latched.getD k now

/-- The word of one column in one phase (R91, R93, R99, R103), the `k`-th drive phase of its stroke, and the `k + 1`-th too where it is
split. `n` numbers its first conversion. -/
def Die.phaseWord (d : Die) (ix : Nat) (x : Array1) (f : Flight) (now : Latch) (ds : List Int) (split : Bool) (k n j : Nat) : Nat :=
  let c := sourceColumn f.colmap j
  let q (lo hi k n : Nat) : Int := d.conversion ix x (f.latchOf now k) (phaseBank (f.first + k)) f.wmode f.gain ds c lo hi
    (predictor ((ds.take hi).drop lo)) j n
  if split then columnWord (q 0 256 k n + q 256 512 (k + 1) (n + 256)) (isClip (q 0 256 k n) || isClip (q 256 512 (k + 1) (n + 256))) true false
  else columnWord (q 0 512 k n) (isClip (q 0 512 k n)) false false

/-- The 256 words of one phase; a slack phase is exact zero (R99). -/
def Die.phaseWords (d : Die) (ix : Nat) (x : Array1) (f : Flight) (now : Latch) (ds : List Int) (p : Nat) (split : Bool) (k n : Nat) :
    List Nat :=
  (List.range 256).map (fun j => if p = 0 then columnWord 0 false false true else d.phaseWord ix x f now ds split k (n + j) j)

/-- The residual of a column from the words in force (R156, R169). -/
def residualOf (words : List Nat) (c : Nat) : Int := sx 8 (bits (words.getD (c / 4) 0) (8 * (c % 4)) 8)

/-- Injector 4's clip on a phase-0 word (R577): D = +127 or -128 with CLIP; SLACK and SPLIT stay. -/
def clipWord (w : Nat) (neg : Bool) : Nat := setBits (setBits w 0 9 (enc 9 (if neg then -128 else 127))) 15 1 1

/-! ### Issue (R96, R97, R99 to R103) -/

/-- The decision of cycle -4 for one phase with the budget that is left: split, lost, the budget after it (R101, R102). -/
def splitDecision (p cliff budget : Nat) : Bool × Bool × Nat :=
  if cliff < p ∧ p ≠ 0 then (if 0 < budget then (true, false, budget - 1) else (false, true, budget)) else (false, false, budget)

/-- Whether injector 4 fires on an issue at array `a` of tile `t` with phase-0 sum `p0`; its column and sign (R577). -/
def Die.clipInject (d : Die) (t a p0 : Nat) : Option (Nat × Bool) :=
  let tg := (d.getW (Reg.PTB_TARGET 4)).toNat
  if d.ptbActive 4 && decide (p0 ≠ 0) && bits tg 24 6 == t && bits tg 15 9 == a then some (bits tg 0 8, bit tg 8) else none

/-- The array takes a waiting stroke: its drive stage is free and a result entry is empty or spoken for by nobody (R97). -/
def Array1.mayIssue (x : Array1) : Bool :=
  !x.waiting.isEmpty && decide (x.drive = 0) && decide (x.flights.length + x.results.length < 2)

/-- Drive phases of a stroke (R96, R103). -/
def drivePhases (aw4 s0 s1 : Bool) : Nat := (if aw4 then 1 else 2) + b2n s0 + b2n s1

/-- STROKE_ISSUE: a rejected stroke takes no decision and drives nothing (R112); else the slack and split decisions are made and
the budget charged. The running phase count of R91 counts the phases of strokes that drive, slack ones included (R100), and of
reference strokes: R91 does not say whether idle phases and those of a rejected stroke count (DESIGN CHOICE, log entry 56). -/
def Die.strokeIssue (d : Die) (t a : Nat) : Die :=
  let x := d.arr t a
  match x.waiting with
  | [] => d
  | i :: rest =>
    let base : Flight :=
      { inp := i, rejected := true, split0 := false, split1 := false, lost0 := false, lost1 := false, p0 := 0, p1 := 0,
        wmode := x.cfg % 4, gain := bits x.cfg 4 3, colmap := (List.range 8).map (fun s => amGet 0 x.colmap s),
        first := x.phases, latched := [], offr := (List.range 66).map (fun v => amGet 0 x.offr v), tide := d.tideNum, step := d.get Reg.TIDE_POS_STEP,
        pos := d.get Reg.TIDE_POS_POS }
    if d.arrState t a ≠ asServing then d.setArr t a { x with
      waiting := rest, flights := x.flights ++ [base], drive := drivePhases i.aw4 false false }
    else
      let p0 := predictor (digits0 i.aw4 i.codes)
      let p1 := predictor (digits1 i.aw4 i.codes)
      let cliff := x.cliff % 2 ^ 13
      let (s0, l0, b0) := splitDecision p0 cliff x.budget
      let (s1, l1, b1) := splitDecision p1 cliff b0
      let inj := d.clipInject t a p0
      let f := { base with
        rejected := false, split0 := s0, split1 := s1, lost0 := l0, lost1 := l1, p0 := p0, p1 := p1, clipCol := inj,
        latched := [d.latch t a] }
      let d1 := d.setArr t a { x with
        waiting := rest, flights := x.flights ++ [f], budget := b1,
        phases := x.phases + drivePhases i.aw4 s0 s1, drive := drivePhases i.aw4 s0 s1 }
      let d2 := d1.atLeast (Reg.ARR_PRED_MAX_MAX t a) (max p0 p1)
      let d3 := if (s0 || s1) && b1 == 0 then d2.raise (Reg.ARR_STATUS_BUDGET_SPENT t a) else d2
      let d4 := if (d.cal t a).degraded then d3.stepDegradedAt d.tide.steps else d3
      if inj.isSome then d4.ptbFire 4 else d4

/-- A tile whose clock runs and that is out of reset. -/
def Die.tileRuns (d : Die) (t : Nat) : Bool :=
  d.enabled t && !(d.tile t).parked && !d.computeHeld && !d.sense.gated && d.boot.mapsApplied

def execStrokeIssue (tile arr : Nat) (s : State) : Host.Outcome State Fault Refusal :=
  mainCmd (fun d => d.tileRuns tile && decide (arr < 272) && (d.arr tile arr).mayIssue) (fun d => d.strokeIssue tile arr) s

/-! ### Completion (R98, R118) -/

/-- The record of a completed stroke; `n` numbers its first conversion and `seq` counts it. -/
def Die.recordOf (d : Die) (t a : Nat) (x : Array1) (f : Flight) (n seq : Nat) : Record :=
  let i := f.inp
  let now := d.latch t a
  let w0 := d.phaseWords (arrIx t a) x f now (digits0 i.aw4 i.codes) f.p0 f.split0 0 n
  let w0c := match f.clipCol with
    | some (c, neg) => w0.set c (clipWord (w0.getD c 0) neg)
    | none => w0
  let w1 := if i.aw4 then [] else d.phaseWords (arrIx t a) x f now (digits1 i.aw4 i.codes) f.p1 f.split1 (1 + b2n f.split0) (n + 512)
  let cols := if f.rejected then List.replicate (if i.aw4 then 256 else 512) 0 else w0c ++ w1
  let clips := (cols.filter (fun w => bit w 15)).length
  let h1 := i.logical % 256 * 2 ^ 16 + b2n f.rejected * 2 ^ 11 + b2n i.aw4 * 2 ^ 10 + f.wmode % 4 * 2 ^ 8 + f.gain % 8 * 2 ^ 4 +
    b2n f.lost1 * 8 + b2n f.lost0 * 4 + b2n (decide (0 < clips)) * 2 + b2n (f.split0 || f.split1)
  { header := [seq % 65536 * 2 ^ 16 + a % 512, h1, f.tide % 2 ^ 32, clips], columns := cols,
    offr := (List.range 256).map (fun j => residualOf f.offr (sourceColumn f.colmap j)), logical := i.logical, tag := i.tag,
    layer := i.layer }

/-- Phases of a stroke that were slack water (R99). -/
def Flight.slackPhases (f : Flight) : Nat := b2n (f.p0 == 0) + (if f.inp.aw4 then 0 else b2n (f.p1 == 0))

/-- The counts and status bits that change as a record completes (R118). The state that the record of a rejected stroke names is the one
at completion (log entry 56). -/
def Die.countStroke (d : Die) (t a : Nat) (f : Flight) (clips : Nat) : Die :=
  if f.rejected then
    let d1 := (d.bump (Reg.ARR_REJECT_CNT_COUNT t a) 1).raise (Reg.ARR_STATUS_REJECT t a)
    d1.record 0x11 2 t a [f.inp.logical, d.arrState t a]
  else
    let splits := b2n f.split0 + b2n f.split1
    let losts := b2n f.lost0 + b2n f.lost1
    let d1 := ((d.bump64 (Reg.ARR_STROKE_CNT t a 0) 1).bump (Reg.ARR_SLACK_CNT_COUNT t a) f.slackPhases).bump
      (Reg.ARR_SPLIT_CNT_COUNT t a) splits
    let d2 := (d1.bump (Reg.ARR_LOST_SPLIT_CNT_COUNT t a) losts).bump (Reg.ARR_CLIP_CNT_COUNT t a) clips
    let d3 := if 0 < splits then d2.raise (Reg.ARR_STATUS_SPLIT t a) else d2
    let d4 := if 0 < losts then d3.raise (Reg.ARR_STATUS_LOST_SPLIT t a) else d3
    if 0 < clips then d4.raise (Reg.ARR_STATUS_CLIP t a) else d4

/-! ### Sounding's selection and capture -/

/-- Bits of a fraction code (R306). -/
def fracBits (c : Nat) : Nat :=
  match c with
  | 1 => 12 | 2 => 10 | 3 => 8 | 4 => 6 | 5 => 4 | 6 => 2 | _ => 0

/-- Items the capture ring holds; 0 where region 254 is not valid or has fewer than 8 (R307). -/
def Die.ringItems (d : Die) (t : Nat) : Nat :=
  if d.rgnValid t 254 && decide (8 * 1024 ≤ d.rgnSize t 254) then d.rgnSize t 254 / 1024 else 0

/-- Whether a thread of the tile has class SOUND (R173). -/
def Die.hasSound (d : Die) (t : Nat) : Bool := (List.range 64).any (fun i => d.get (Reg.ENG_THREAD_CLASS t i) == 3)

/-- The periods of R278 in which an array is not sounded. -/
def Die.inRefresh (d : Die) (t a : Nat) : Bool := (d.cal t a).bandsOpen || decide (d.tideNum < (d.cal t a).skipUntil)

/-- Bytes 0 to 711 of a sounding item (R308). -/
def Die.itemBytes (d : Die) (t : Nat) (f : Flight) (r : Record) (block : Nat) : List Byte :=
  let cols := (List.range 32).map (· + 32 * block)
  f.inp.codes.map (fun c => b8 (enc 8 c)) ++ (r.header.map (natLe 4)).flatten ++
  (cols.map (fun j => natLe 2 (r.columns.getD j 0))).flatten ++
  (cols.map (fun j => natLe 2 (if f.inp.aw4 then 0 else r.columns.getD (256 + j) 0))).flatten ++
  cols.map (fun j => b8 (enc 8 (r.offr.getD j 0))) ++ natLe 2 f.p0 ++ natLe 2 f.p1 ++ natLe 1 block ++ natLe 1 1 ++
  natLe 2 f.inp.tag ++ natLe 4 f.step ++ natLe 2 f.pos ++ natLe 2 f.inp.layer ++
  natLe 4 (goldPage (d.get (Reg.SND_TILE_UNIT_UNIT t)) f.inp.logical) ++ zeros 4

/-- A selection that is skipped: the array's count, the tile's count and the status bit (R307, R314, R317). -/
def Die.skipItem (d : Die) (t a : Nat) (cnt : Nat) (bits : List Fld) : Die :=
  let d1 := (d.bump (Reg.SND_SKIP_COUNT t a) 1).bump ⟨cnt, 0, 32⟩ 1
  bits.foldl (fun e f => e.raise f) d1

/-- A selected stroke is captured into the next free item, or skipped (R307). -/
def Die.capture (d : Die) (t a : Nat) (f : Flight) (r : Record) (block : Nat) : Die :=
  let n := d.ringItems t
  let x := d.tile t
  if n = 0 then d.skipItem t a (Reg.SND_TILE_SKIP_RING t) [Reg.SND_TILE_STATUS_NO_RING t]
  else if n ≤ x.sndHeld then d.skipItem t a (Reg.SND_TILE_SKIP_RING t) [Reg.SND_TILE_STATUS_RING_FULL t]
  else if !d.hasSound t then d.skipItem t a (Reg.SND_TILE_SKIP_THREAD t) [Reg.SND_TILE_STATUS_NO_THREAD t]
  else if d.inRefresh t a then d.skipItem t a (Reg.SND_TILE_SKIP_REFRESH t) []
  else
    let slot := (x.sndHead + x.sndHeld) % n
    let d1 := ((d.setBytes (d.rgnAddr t 254 (1024 * slot)) (d.itemBytes t f r block)).setTile t { x with
      sndHeld := x.sndHeld + 1, sndIndex := keep x.sndIndex slot f.inp.index }).sramUse t (d.rgnOff t 254 + 1024 * slot) 1024
    ((d1.bump (Reg.SND_CAPT_COUNT t a) 1).bump (Reg.SND_TILE_CAPT_COUNT t) 1).put (Reg.SND_TILE_STATUS_DEPTH t) (x.sndHeld + 1)

/-- The sounding state of a tile: the reset value of its seed until it has first been loaded or advanced (R306, R315). -/
def Die.sndState (d : Die) (t : Nat) : Nat := (d.tile t).sndState.getD (resetWord (Reg.SND_TILE_SEED t)).toNat

/-- At an eligible completion the tile's state advances and may select the stroke and a column block (R306). -/
def Die.soundSelect (d : Die) (t a : Nat) (f : Flight) (r : Record) : Die :=
  if f.rejected || (f.p0 == 0 && f.p1 == 0) then d
  else
    let v := xorshift32 (d.sndState t)
    let d1 := d.modTile t (fun x => { x with sndState := some v })
    let c := d.soundCode t a
    if c ≠ 0 ∧ v / 2 ^ (32 - fracBits c) = 0 then d1.capture t a f r (v % 8) else d1

/-- What is left of the drive when `n` strokes and `m` reference strokes stay in flight: a stroke that has completed no longer
drives. -/
def Array1.driveAfter (x : Array1) (n m : Nat) : Nat := if n = 0 ∧ m = 0 then 0 else x.drive

/-- STROKE_COMPLETE: the record enters the result buffer, and the counts change (R98, R118). SEQ counts the record itself, so that the
first has SEQ 1: R98 calls it the count of result records written (DESIGN CHOICE, log entry 56). -/
def Die.strokeComplete (d : Die) (t a : Nat) : Die :=
  let x := d.arr t a
  match x.flights with
  | [] => d
  | f :: rest =>
    let r := d.recordOf t a x f d.freeCtr (x.seq + 1)
    let d1 := { d.setArr t a { x with
        flights := rest, results := x.results ++ [r], seq := x.seq + 1, drive := x.driveAfter rest.length x.refFlights } with
      freeCtr := d.freeCtr + 1024 }
    (d1.countStroke t a f (r.header.getD 3 0)).soundSelect t a f r

def execStrokeComplete (tile arr : Nat) (s : State) : Host.Outcome State Fault Refusal :=
  mainCmd (fun d => d.tileRuns tile && decide (arr < 272) && !(d.arr tile arr).flights.isEmpty)
    (fun d => d.strokeComplete tile arr) s

/-! ### Reference strokes (R105 to R107, R119, R290) -/

/-- A reference stroke can issue (R97, R110): one that is accepted needs a free drive stage. -/
def Die.refMayIssue (d : Die) (t a : Nat) : Bool :=
  decide (0 < (d.arr t a).refWaiting) &&
    (decide (d.arrState t a ≠ asReady) && decide (d.arrState t a ≠ asServing) || decide ((d.arr t a).drive = 0))

/-- REF_STROKE_ISSUE: accepted in READY and SERVING, else rejected at once (R110, R112). -/
def Die.refIssue (d : Die) (t a : Nat) : Die :=
  let st := d.arrState t a
  let d1 := d.modArr t a (fun x => { x with refWaiting := x.refWaiting - 1 })
  if st = asReady ∨ st = asServing then d1.modArr t a (fun x => { x with
    refFlights := x.refFlights + 1, phases := x.phases + 1, drive := 1,
    refTrims := x.refTrims ++ [(x.phases, (d.getW (Reg.CAL_CREFA t a 0)).toNat)] })
  else ((d1.bump (Reg.ARR_REJECT_CNT_COUNT t a) 1).raise (Reg.ARR_STATUS_REJECT t a)).record 0x11 2 t a [0x100, st]

def execRefStrokeIssue (tile arr : Nat) (s : State) : Host.Outcome State Fault Refusal :=
  mainCmd (fun d => d.tileRuns tile && decide (arr < 272) && d.refMayIssue tile arr)
    (fun d => d.refIssue tile arr) s

/-- What the firmware keeps of a reference stroke (R289, R290). -/
def Die.keepRef (d : Die) (t a : Nat) (g o ab : Int) : Die :=
  if d.fwRuns then
    d.modCal t a (fun c => { c with
      refAbs := ab, rg := (g :: c.rg).take 256, ro := (o :: c.ro).take 64, lastRef := d.tideNum, stale := false })
  else d

/-- REF_STROKE_COMPLETE: the three codes are written together (R119). -/
def Die.refComplete (d : Die) (t a : Nat) : Die :=
  let x := d.arr t a
  let (ph, cref) := x.refTrims.headD (0, (d.getW (Reg.CAL_CREFA t a 0)).toNat)
  let (g, o, ab) := d.refCodes t a x (phaseBank ph) cref d.freeCtr
  let clip := isClip g || isClip o || isClip ab
  let d1 := { d.setArr t a { x with
      refFlights := x.refFlights - 1, refTrims := x.refTrims.drop 1, drive := x.driveAfter x.flights.length (x.refFlights - 1) } with freeCtr := d.freeCtr + 3 }
  let d2 := (d1.putW (Reg.ARR_REF_RESULT t a) (w32 (2 ^ 31 + b2n clip * 2 ^ 30 + enc 8 ab * 2 ^ 16 + enc 8 o * 2 ^ 8 + enc 8 g))).bump
    (Reg.ARR_REF_CNT_COUNT t a) 1
  (if clip then d2.raise (Reg.ARR_STATUS_REF_CLIP t a) else d2).keepRef t a g o ab

def execRefStrokeComplete (tile arr : Nat) (s : State) : Host.Outcome State Fault Refusal :=
  mainCmd (fun d => d.tileRuns tile && decide (arr < 272) && decide (0 < (d.arr tile arr).refFlights))
    (fun d => d.refComplete tile arr) s

/-! ### Registers of an array -/

/-- What every write of a tile's register asks: the agent may write, the tile answers. -/
def Die.tileWrite (d : Die) (ag : Agent) (t : Nat) : Bool := d.mayControl ag && d.tileAnswers t

/-- ARR_CFG (R113): refused as busy while SERVING or CALIBRATING, with record Array 3. -/
def Die.arrCfgWrite (d : Die) (ag : Agent) (t a word : Nat) : Die :=
  let st := d.arrState t a
  if st = asServing ∨ st = asCalibrating then
    (d.recordA 0x11 3 t a ag (Reg.ARR_CFG t a) word stBusy).answer ag stBusy
  else d.plainWrite ag (Reg.ARR_CFG t a) word t

def execArrCfgWrite (ag : Agent) (tile arr word : Nat) (s : State) : Host.Outcome State Fault Refusal :=
  tileCmd ag tile (Reg.ARR_CFG tile arr) word (decide (arr < 272)) (fun d => d.arrCfgWrite ag tile arr word) s

/-- ARR_STATUS.CNT_CLR set (R117): the clear comes at the next phase boundary. -/
def execArrCntClr (ag : Agent) (tile arr : Nat) (s : State) : Host.Outcome State Fault Refusal :=
  tileCmd ag tile (Reg.ARR_STATUS tile arr) (2 ^ 31) (decide (arr < 272))
    (fun d => (d.raise (Reg.ARR_STATUS_CNT_CLR tile arr)).answer ag stOk) s

/-- ARR_PRED_MAX.CLR written 1 (R120): the clear comes at the next phase boundary. -/
def execArrPredMaxClr (ag : Agent) (tile arr : Nat) (s : State) : Host.Outcome State Fault Refusal :=
  tileCmd ag tile (Reg.ARR_PRED_MAX tile arr) (2 ^ 31) (decide (arr < 272))
    (fun d => (d.modArr tile arr (fun x => { x with predClr := true })).answer ag stOk) s

/-- The stroke that drives goes on to its next phase, whose bank latches the trims in force (R91, R94, R95). -/
def driveNext (l : List Flight) (now : Latch) : List Flight :=
  match l with
  | [] => []
  | [f] => [if f.rejected then f else { f with latched := f.latched ++ [now] }]
  | f :: r => f :: driveNext r now

/-- A phase of the drive stage ends (R96, R97). -/
def Die.driveBoundary (d : Die) (t a : Nat) : Die :=
  let x := d.arr t a
  match x.drive with
  | 0 => d
  | 1 => d.setArr t a { x with drive := 0 }
  | n + 2 => d.setArr t a { x with drive := n + 1, flights := driveNext x.flights (d.latch t a) }

/-- What a phase boundary does to an array: its drive (R91) and its counters (R117, R118, R120). -/
def Die.phaseBoundary (d0 : Die) (t a : Nat) : Die :=
  let d := d0.driveBoundary t a
  let d1 :=
    if d.on (Reg.ARR_STATUS_CNT_CLR t a) then
      let e := [Reg.ARR_STROKE_CNT t a 0, Reg.ARR_STROKE_CNT t a 1, Reg.ARR_SLACK_CNT t a, Reg.ARR_SPLIT_CNT t a,
        Reg.ARR_LOST_SPLIT_CNT t a, Reg.ARR_CLIP_CNT t a, Reg.ARR_REJECT_CNT t a, Reg.ARR_REF_CNT t a].foldl
        (fun e r => e.putW r 0) d
      (e.clear (Reg.ARR_PRED_MAX_MAX t a)).clear (Reg.ARR_STATUS_CNT_CLR t a)
    else d
  if (d1.arr t a).predClr then
    (d1.clear (Reg.ARR_PRED_MAX_MAX t a)).modArr t a (fun x => { x with predClr := false })
  else d1

/-- ARR_COLMAP (R14, R109, R121): VALID cannot be set while PROG_OK is 0, and COL must lie in the spare's range. -/
def Die.colmapWrite (d : Die) (ag : Agent) (t a sp word : Nat) : Die :=
  let r := Reg.ARR_COLMAP t a sp
  let old := (d.getW r).toNat
  let badV := bit word 31 && !bit old 30
  let badC := decide (word % 256 / 32 ≠ sp)
  let n1 := if badV then old else setBits old 31 1 (word / 2 ^ 31)
  let n2 := if badC then n1 else setBits n1 0 8 word
  let d1 := d.putW r (w32 n2)
  let d2 := if badV then d1.record 0x01 3 t 0xFFFF (detailA r word stOk ag 31 1) else d1
  (if badC then d2.record 0x01 3 t 0xFFFF (detailA r word stOk ag 0 8) else d2).answer ag stOk

def execArrColmapWrite (ag : Agent) (tile arr spare word : Nat) (s : State) : Host.Outcome State Fault Refusal :=
  tileCmd ag tile (Reg.ARR_COLMAP tile arr spare) word (decide (arr < 272) && decide (spare < 8))
    (fun d => d.colmapWrite ag tile arr spare word) s

/-- ENG_OFFR (R156): the pending copy; it becomes active at the next tide boundary. -/
def execOffrWrite (ag : Agent) (tile arr idx word : Nat) (s : State) : Host.Outcome State Fault Refusal :=
  tileCmd ag tile (Reg.ENG_OFFR tile arr idx) word (decide (arr < 272) && decide (idx < 66))
    (fun d => d.plainWrite ag (Reg.ENG_OFFR tile arr idx) word tile) s

/-- ENG_ARITH_CTRL.CNT_CLR set (R163): the clear comes at the next tide boundary. -/
def execEngArithCntClr (ag : Agent) (tile : Nat) (s : State) : Host.Outcome State Fault Refusal :=
  tileCmd ag tile (Reg.ENG_ARITH_CTRL tile) (2 ^ 31) true (fun d => (d.raise (Reg.ENG_ARITH_CTRL_CNT_CLR tile)).answer ag stOk) s

/-- What every tide boundary does to an array (R102, R109, R113, R156): the settings written come into force and the split budget
is loaded. -/
def Die.arrayBoundary (d : Die) (t a : Nat) : Die :=
  let cliff := (d.getW (Reg.ARR_CLIFF t a)).toNat
  d.modArr t a (fun x => { x with
    cfg := (d.getW (Reg.ARR_CFG t a)).toNat, cliff := cliff % 2 ^ 20, budget := bits cliff 16 4,
    colmap := (List.range 8).foldl (fun m s =>
      amSet 0 m s (let w := (d.getW (Reg.ARR_COLMAP t a s)).toNat; if bit w 31 then w else 0)) [],
    offr := (List.range 66).foldl (fun m v => amSet 0 m v (d.getW (Reg.ENG_OFFR t a v)).toNat) [] })

end Sys2Proof.Machine
end

