-- ==== Sys2Proof/Machine/Fp.lean ====
section
/-! DEFINITION. The arithmetic of R128 to R136, R144 to R149 and R172: FP32 and BF16 rounded once to nearest even, poison, the rotation,
the order of reduction, and the Shingle formats. An FP32 value is its word. A NaN or an infinity is poison: it is absorbed by every
operation (R129). -/
namespace Sys2Proof.Machine

/-! ### FP32 -/

/-- The poison of an FP32 and of a BF16 element (R129). -/
def fpPoison : Word := 0x7FE00000
def bfPoison : Nat := 0x7FF0

/-- A NaN or an infinity (R129). -/
def fpBad (w : Word) : Bool := bits w.toNat 23 8 == 255

/-- A finite value: its sign, and mantissa and exponent with value m * 2^e. -/
structure FpVal where
  neg : Bool
  m : Nat
  e : Int
  deriving DecidableEq, Repr

/-- The value of a finite word. -/
def fpVal (w : Word) : FpVal :=
  let x := bits w.toNat 23 8
  let f := bits w.toNat 0 23
  if x = 0 then ⟨bit w.toNat 31, f, -149⟩ else ⟨bit w.toNat 31, f + 2 ^ 23, (x : Int) - 150⟩

/-- Bits of a number. -/
def bitLen (n : Nat) : Nat := if n = 0 then 0 else Nat.log2 n + 1

/-- `m / 2^sh` rounded to nearest even; `sticky` says that the exact value lies a little above. -/
def roundShift (m sh : Nat) (sticky : Bool) : Nat :=
  let q := m / 2 ^ sh
  let r := m % 2 ^ sh
  let half := 2 ^ sh / 2
  if sh = 0 then q
  else if r < half then q
  else if half < r || sticky then q + 1
  else q + q % 2

/-- The FP32 word nearest to m * 2^e, ties to even; a value too large is poison (R128, R129). -/
def fpPack (neg : Bool) (m : Nat) (e : Int) (sticky : Bool) : Word :=
  let s := b2n neg * 2 ^ 31
  if m = 0 then w32 s
  else
    let u : Int := max (e + bitLen m - 24) (-149)
    let q := if e < u then roundShift m (u - e).toNat sticky else m * 2 ^ (e - u).toNat
    if q < 2 ^ 23 then w32 (s + q)
    else
      let (q1, u1) := if q = 2 ^ 24 then (2 ^ 23, u + 1) else (q, u)
      let x := u1 + 150
      if 255 ≤ x then fpPoison else w32 (s + x.toNat * 2 ^ 23 + (q1 - 2 ^ 23))

/-- An integer of magnitude below 2^24, exactly. -/
def fpOfInt (i : Int) : Word := fpPack (decide (i < 0)) i.natAbs 0 false

/-- The word with its sign changed; exact (R133). -/
def fpNeg (w : Word) : Word := w ^^^ 0x80000000

/-- The magnitude. -/
def fpAbs (w : Word) : Word := w &&& 0x7FFFFFFF

/-- Order of finite words as integers: the two zeros are equal. -/
def fpKey (w : Word) : Int := if bit w.toNat 31 then -((w.toNat % 2 ^ 31 : Nat) : Int) else ((w.toNat % 2 ^ 31 : Nat) : Int)

/-- `a < b` for finite words. -/
def fpLt (a b : Word) : Bool := decide (fpKey a < fpKey b)

/-- The exact integer value of a finite value whose exponent is raised by `k`, with `e + k` not negative. -/
def FpVal.scaled (x : FpVal) (k : Int) : Int :=
  let v : Int := (x.m * 2 ^ (x.e + k).toNat : Nat)
  if x.neg then -v else v

def fpAdd (a b : Word) : Word :=
  if fpBad a || fpBad b then fpPoison
  else
    let x := fpVal a
    let y := fpVal b
    let e := min x.e y.e
    let s := x.scaled (-e) + y.scaled (-e)
    if s = 0 then (if x.neg && y.neg then 0x80000000 else 0) else fpPack (decide (s < 0)) s.natAbs e false

def fpSub (a b : Word) : Word := fpAdd a (fpNeg b)

def fpMul (a b : Word) : Word :=
  if fpBad a || fpBad b then fpPoison
  else
    let x := fpVal a
    let y := fpVal b
    fpPack (x.neg != y.neg) (x.m * y.m) (x.e + y.e) false

def fpDiv (a b : Word) : Word :=
  if fpBad a || fpBad b then fpPoison
  else
    let x := fpVal a
    let y := fpVal b
    if y.m = 0 then fpPoison
    else fpPack (x.neg != y.neg) (x.m * 2 ^ 50 / y.m) (x.e - y.e - 50) (decide (x.m * 2 ^ 50 % y.m ≠ 0))

/-- The integer square root, bit by bit from bit `k - 1`. -/
def isqrt (n k r : Nat) : Nat :=
  match k with
  | 0 => r
  | j + 1 => if (r + 2 ^ j) * (r + 2 ^ j) ≤ n then isqrt n j (r + 2 ^ j) else isqrt n j r

/-- The FP32 nearest to the square root of num / den * 2^e, for `den` above zero. -/
def fpSqrtRat (num den : Nat) (e : Int) : Word :=
  let s : Int := 2 * (bitLen den + 40) - (if e % 2 = 0 then 0 else 1)
  let n := num * 2 ^ s.toNat / den
  let r := isqrt n (bitLen n / 2 + 1) 0
  fpPack false r ((e - s) / 2) (decide (r * r ≠ n) || decide (num * 2 ^ s.toNat % den ≠ 0))

def fpSqrt (a : Word) : Word :=
  if fpBad a then fpPoison
  else
    let x := fpVal a
    if x.m = 0 then a else if x.neg then fpPoison else fpSqrtRat x.m 1 x.e

/-- The nearest integer, ties to even. -/
def fpRound (w : Word) : Int :=
  let x := fpVal w
  if 0 ≤ x.e then x.scaled 0 else roundHalfEven (if x.neg then -(x.m : Int) else x.m) (2 ^ (-x.e).toNat)

/-- Two to the power `k`, for -126 to 127. -/
def fpPow2 (k : Int) : Word := w32 ((k + 127).toNat * 2 ^ 23)

/-- The FP32 nearest to the rational num / den. -/
def fpOfRat (num : Int) (den : Nat) : Word :=
  if den = 0 then fpPoison
  else fpPack (decide (num < 0)) (num.natAbs * 2 ^ (bitLen den + 40) / den) (-((bitLen den + 40 : Nat) : Int))
    (decide (num.natAbs * 2 ^ (bitLen den + 40) % den ≠ 0))

/-- A word moved by `k` units in the last place, toward larger magnitude for positive `k` (R195); poison and zero stay. -/
def fpNudge (w : Word) (k : Int) : Word :=
  if fpBad w || fpAbs w == 0 then w
  else w32 (((w.toNat / 2 ^ 31 * 2 ^ 31 : Nat) : Int) + max 0 (((w.toNat % 2 ^ 31 : Nat) : Int) + clampI (-2) 2 k)).toNat

/-! ### BF16 -/

def bfToFp (h : Nat) : Word := if bits h 7 8 = 255 then fpPoison else w32 (h % 65536 * 65536)

/-- FP32 narrowed to BF16, to nearest even (R128). -/
def fpToBf (w : Word) : Nat :=
  if fpBad w then bfPoison
  else
    let h := (w.toNat + 0x7FFF + bits w.toNat 16 1) / 65536
    if bits h 7 8 = 255 then bfPoison else h

/-! ### Vectors of bytes -/

/-- The FP32 words of a byte list; a shorter list reads as zero. -/
def wordAt (bs : List Byte) (i : Nat) : Word := w32 (leAt bs (4 * i) 4)
def bfAt (bs : List Byte) (i : Nat) : Word := bfToFp (leAt bs (2 * i) 2)

/-- Little-endian bytes of words. -/
def wordsBytes (l : List Word) : List Byte := (l.map (fun w => natLe 4 w.toNat)).flatten

/-- What is written for a word: the poison for a NaN or an infinity (R129). -/
def fpOut (w : Word) : Word := if fpBad w then fpPoison else w

/-! ### Reduction (R172) -/

/-- Sums neighbours of a list pairwise. -/
def pairSum (l : List Word) : List Word :=
  match l with
  | a :: b :: r => fpAdd a b :: pairSum r
  | r => r

/-- The sum of a vector: 32 partials in increasing index, then a fixed tree. -/
def reduceSum (l : List Word) : Word :=
  let ix := (List.range l.length).zip l
  let part (p : Nat) : Word := ix.foldl (fun s q => if q.1 % 32 = p then fpAdd s q.2 else s) 0
  ((pairSum (pairSum (pairSum (pairSum (pairSum ((List.range 32).map part)))))).head?).getD 0

/-- The index of the first greatest of finite words, with the word. -/
def argMax (l : List Word) : Nat × Word :=
  (((List.range l.length).zip l).foldl (fun b q => match b with
    | none => some q
    | some x => if fpLt x.2 q.2 then some q else some x) (none : Option (Nat × Word))).getD (0, 0)

/-! ### Rotation (R131 to R133) -/

/-- `n` successive states after `x`. -/
def xorshifts (n x : Nat) : List Nat :=
  match n with
  | 0 => []
  | k + 1 => xorshift32 x :: xorshifts k (xorshift32 x)

/-- The 16 sign words of block `b` (R132). -/
def signWords (seed b : Nat) : List Nat :=
  let s := (seed ^^^ (b * 0x9E3779B9)) % 2 ^ 32
  xorshifts 16 (if s = 0 then 0x6D2B79F5 else s)

/-- One butterfly stage: pairs at distance `h`. -/
def butterfly (h : Nat) (v : List Word) : List Word :=
  (List.range v.length).map (fun i =>
    if i / h % 2 = 0 then fpAdd (v.getD i 0) (v.getD (i + h) 0) else fpSub (v.getD (i - h) 0) (v.getD i 0))

/-- The rotation of a block of 512 words (R133). -/
def rotateBlock (x : List Word) (seed b : Nat) : List Word :=
  let ws := signWords seed b
  let v := (List.range 512).map (fun i =>
    if bit (ws.getD (i / 32) 0) (i % 32) then fpNeg (x.getD i 0) else x.getD i 0)
  let r := (List.range 9).foldl (fun v k => butterfly (2 ^ k) v) v
  r.map (fun w => fpMul w 0x3D3504F3)

/-! ### Shingle formats (R144 to R149) -/

/-- The scale of a code from 0x01 to 0xFE, as mantissa and exponent (R145). -/
def ue5m3 (c : Nat) : Nat × Int := if c / 8 = 0 then (c % 8, -17) else (8 + c % 8, (c / 8 : Int) - 18)

/-- The scale as FP32. -/
def scaleFp (c : Nat) : Word := fpPack false (ue5m3 c).1 (ue5m3 c).2 false

/-- m1 * 2^e1 ≤ m2 * 2^e2. -/
def dyLe (a b : Nat × Int) : Bool :=
  let e := min a.2 b.2
  decide (a.1 * 2 ^ (a.2 - e).toNat ≤ b.1 * 2 ^ (b.2 - e).toNat)

/-- How a Shingle block was written (R149). -/
inductive QuantCase where
  | poison | zero | under | sat | plain
  deriving DecidableEq, Repr

/-- The quotient x / s rounded half to even (R148). -/
def quotient (x : FpVal) (s : Nat × Int) : Int :=
  let k := x.e - s.2
  let q := if 0 ≤ k then roundHalfEven (x.m * 2 ^ k.toNat : Nat) s.1 else roundHalfEven x.m (s.1 * 2 ^ (-k).toNat)
  if x.neg then -q else q

/-- Quantisation of 32 words with limit `q`: scale code, element codes, case (R148). -/
def shingleQuantise (x : List Word) (q : Nat) : Nat × List Int × QuantCase :=
  let none0 := List.replicate 32 (0 : Int)
  if x.any fpBad then (0xFF, none0, .poison)
  else
    let top := fpVal (x.foldl (fun m w => if fpLt m (fpAbs w) then fpAbs w else m) 0)
    if top.m = 0 then (0, none0, .zero)
    else
      let big (c : Nat) : Nat × Int := ((ue5m3 c).1 * q, (ue5m3 c).2)
      let sat := !dyLe (top.m, top.e) (big 0xFE)
      let code := if sat then 0xFE
        else (((List.range 254).map (· + 1)).find? (fun c => dyLe (top.m, top.e) (big c))).getD 0xFE
      let els := x.map (fun w => clampI (-(q : Int)) q (quotient (fpVal w) (ue5m3 code)))
      if els.all (fun e => e == 0) then (0, none0, .under) else (code, els, if sat then .sat else .plain)

/-- Element bytes of a block (R144). -/
def elementBytes (fmt8 : Bool) (els : List Int) : List Byte :=
  if fmt8 then els.map (fun e => b8 (enc 8 e))
  else (List.range 16).map (fun m => b8 (enc 4 (els.getD (2 * m) 0) + 16 * enc 4 (els.getD (2 * m + 1) 0)))

/-- The raw element codes of a block's bytes. -/
def elementCodes (fmt8 : Bool) (bs : List Byte) : List Nat :=
  if fmt8 then (List.range 32).map (fun i => leAt bs i 1)
  else (List.range 32).map (fun i => bits (leAt bs (i / 2) 1) (4 * (i % 2)) 4)

/-- Decoding of a block (R146, R147): 32 words, and how many reserved codes were met. -/
def shingleDecode (fmt8 : Bool) (scale : Nat) (bs : List Byte) : List Word × Nat :=
  if scale = 0xFF then (List.replicate 32 fpPoison, 0)
  else if scale = 0 then (List.replicate 32 0, 0)
  else
    let cs := elementCodes fmt8 bs
    let val (c : Nat) : Int := if fmt8 then sx 8 c else if c = 8 then 0 else sx 4 c
    (cs.map (fun c => fpMul (fpOfInt (val c)) (scaleFp scale)), if fmt8 then 0 else (cs.filter (fun c => c == 8)).length)

end Sys2Proof.Machine
end

