-- ==== Sys2Proof/Machine/Program.lean ====
section
/-! DEFINITION. Array programming, verify passes, the repair chain, spring calibration, and the array map table (R110, R111,
R267 to R278, R299 to R302, R321 to R324). -/
namespace Sys2Proof.Machine

/-! ### Targets (R267) -/

/-- Neighbour adjustments held for a physical array: changes of level by cell (R323). -/
def Die.adjustments (d : Die) (t a : Nat) : List (Nat × Int) := (look d.upkeep.adjust (arrIx t a)).getD []

/-- The signed number of level steps the firmware names for a weight cell: the golden weight with any adjustment. -/
def Die.goldLevel (d : Die) (u l mode i j : Nat) : Int := (stepsPer mode : Nat) * d.goldWeight u l i j

/-- The target of a cell (R105, R267): golden codes with adjustments in the weight columns, the codes of the weight column a spare
stands in for, level 0 in other spares, the fixed pattern in the reference columns. -/
def Die.target (d : Die) (t a u l mode : Nat) (spares : List (Nat × Nat)) (ix : Nat) : Nat × Nat :=
  let i := ix / 266
  let c := ix % 266
  if c < 256 then levelPair (d.goldLevel u l mode i c + (look (d.adjustments t a) ix).getD 0)
  else if c < 264 then
    match look spares (c - 256) with
    | some j => levelPair (d.goldLevel u l mode i j)
    | none => (0, 0)
  else cellDefault ix

/-- Spare columns in use: (spare, weight column). -/
def Die.sparesUsed (d : Die) (t a : Nat) : List (Nat × Nat) :=
  ((List.range 8).filter (fun s => d.on (Reg.ARR_COLMAP_VALID t a s))).map (fun s => (s, d.get (Reg.ARR_COLMAP_COL t a s)))

/-- Cells of an array. -/
def cellCount : Nat := 512 * 266

/-- The cells whose target is not the manufactured level, with their targets. -/
def Die.wanted (d : Die) (t a u l : Nat) (spares : List (Nat × Nat)) : List (Nat × (Nat × Nat)) :=
  let mode := d.goldField u l 2 1
  (List.range cellCount).filterMap (fun ix =>
    let p := d.target t a u l mode spares ix
    if p = cellDefault ix then none else some (ix, p))

/-- The cells of rows `lo` to `hi - 1` that verify would find outside their windows now, drift included (R87, R267), with their targets;
the reference columns only with the last band (R277). -/
def Die.toProgram (d : Die) (t a u l : Nat) (spares : List (Nat × Nat)) (lo hi : Nat) : List (Nat × (Nat × Nat)) :=
  let mode := d.goldField u l 2 1
  let x := d.arr t a
  (List.range cellCount).filterMap (fun ix =>
    let p := d.target t a u l mode spares ix
    if lo ≤ ix / 266 ∧ ix / 266 < hi ∧ (ix % 266 < 264 ∨ hi = 512) ∧ (x.levels ix ≠ p ∨ d.inWindow (arrIx t a) x ix p = false) then
      some (ix, p)
    else none)

/-- Arrays of the programming domain of a tile's row that are at work (R268). -/
def Die.domainBusy (d : Die) (t : Nat) : Nat :=
  (d.arrays.filter (fun p => decide (p.1 / 272 / 8 = t / 8) && decide (p.2.job ≠ .none))).length

/-- Shadow programmings at work in a tile (R268): those of arrays that rolling refreshes have taken. -/
def Die.shadowBusy (d : Die) (t : Nat) : Nat :=
  (d.arrays.filter (fun p => decide (p.1 / 272 = t) && d.upkeep.refreshes.any (fun x => x.1 == t && x.2.2 == p.1 % 272) &&
    (match p.2.job with | .program _ _ _ none => true | _ => false))).length

/-- A request reaches an array: firmware runs and the tile works. -/
def Die.reqOk (d : Die) (t a : Nat) : Bool := d.fwRuns && d.tileRuns t && decide (a < 272)

/-! ### Verify (R111) -/

/-- The targets of a VERIFY for a logical array, or for an array meant to hold no weights (R267); none without an image. -/
def Die.verifyWant (d : Die) (t a : Nat) (logical : Option Nat) : Option (List (Nat × (Nat × Nat))) :=
  match logical with
  | none => some []
  | some l => (d.imageOf t l).map (fun u => d.wanted t a u l (d.sparesUsed t a))

/-- An array is named for an image, by its unit and logical array, or for none: what the repair chain did for another one no longer
applies (R321, R323, log entry 60). -/
def Die.newImage (d : Die) (t a : Nat) (key : Option Nat) : Die :=
  if (d.cal t a).holds = key then d
  else
    let d1 := (d.cal t a).chained.foldl (fun e c => e.put ⟨Reg.SND_MASK t a (c / 32), c % 32, 1⟩ 0) d
    let d2 := (List.range 8).foldl (fun e s => e.clear (Reg.ARR_COLMAP_VALID t a s)) d1
    { d2.modCal t a (fun c => { c with holds := key, stuck := [], plan := [], chained := [] }) with
      upkeep := { (d2.modCal t a (fun c => { c with holds := key, stuck := [], plan := [], chained := [] })).upkeep with
        adjust := amErase d2.upkeep.adjust (arrIx t a) } }

/-- The image a logical array of a tile names: 256 * unit + logical array. -/
def Die.imageKey (d : Die) (t : Nat) (logical : Option Nat) : Option Nat :=
  match logical with
  | none => none
  | some l => (d.imageOf t l).map (fun u => 256 * u + l)

/-- VERIFY: an UNVERIFIED array starts a verify-only pass against the targets named. -/
def Die.verifyStart (d : Die) (t a : Nat) (logical : Option Nat) : Die :=
  if d.arrState t a ≠ asUnverified then d.refuseReq t a 1
  else
    let e := d.newImage t a (d.imageKey t logical)
    (e.setArrState t a asVerifying false 0).modArr t a (fun x => { x with job := .verify ((e.verifyWant t a logical).getD []) })

def execArrayVerify (tile arr : Nat) (logical : Option Nat) (s : State) : Host.Outcome State Fault Refusal :=
  mainCmd (fun d => d.reqOk tile arr && decide (d.domainBusy tile < 256) && (match logical with
      | none => true
      | some l => decide (l < 256) && (d.imageOf tile l).isSome))
    (fun d => d.verifyStart tile arr logical) s

/-- A failed check of a withheld array condemns it (R275). -/
def Die.withheldFails (d : Die) (t a : Nat) : Die :=
  if d.upkeep.withheld.contains (arrIx t a) then d.condemnArr t a else d

/-- The end of a verify-only pass: READY when every cell lies in its window, else UNVERIFIED with the count reported. No conductance
changes, so drift goes on as before (R87, R125), and a spare column found in its window gets no PROG_OK, which R109 and R121 give to one
that programming verified (DESIGN CHOICE, log entry 56). -/
def Die.verifyDone1 (d : Die) (t a failing : Nat) : Die :=
  let d1 := d.modArr t a (fun x => { x with job := .none })
  if failing = 0 then
    (d1.setArrState t a asReady false 0).modCal t a (fun c => { c with reverified := true })
  else ((d1.setArrState t a asUnverified false 0).emit (.firmware 5 [t, a, failing])).withheldFails t a

/-- The cells of an array outside their windows now, drift included, where its targets are `want` and elsewhere the manufactured levels
(R87, R267). -/
def Die.failingCells (d : Die) (ix : Nat) (x : Array1) (want : List (Nat × (Nat × Nat))) : Nat :=
  ((List.range cellCount).filter (fun c => !d.inWindow ix x c (amGet (cellDefault c) want c))).length

/-- Whether the running verify pass can end with that many failing cells: those outside their windows now. -/
def Die.verifyCanEnd (d : Die) (t a failing : Nat) : Bool :=
  match (d.arr t a).job with
  | .verify want => decide (failing = d.failingCells (arrIx t a) (d.arr t a) want)
  | _ => false

def execArrayVerifyDone (tile arr failing : Nat) (s : State) : Host.Outcome State Fault Refusal :=
  mainCmd (fun d => d.tileRuns tile && decide (arr < 272) && d.verifyCanEnd tile arr failing)
    (fun d => d.verifyDone1 tile arr failing) s

/-! ### Programming (R111, R267, R277) -/

/-- The split budget of a logical array in the loaded table's tile block (R231). -/
def Die.budgetOf (d : Die) (t l : Nat) : Nat :=
  match d.tide.table with
  | none => 0
  | some tb => match tb.tiles.find? (fun b => b.tile == t) with
    | some b => b.budgets.getD l 0
    | none => 0

/-- Spare columns named with weight columns of their ranges, each once (R108). -/
def sparesOk (l : List (Nat × Nat)) : Bool :=
  l.all (fun p => decide (p.1 < 8) && decide (p.2 / 32 = p.1)) && decide ((l.map (·.1)).Nodup)

/-- A band: a multiple of 16 rows, within the array (R268). -/
def bandOk (b : Nat × Nat) : Bool := decide (16 ≤ b.2) && decide (b.2 % 16 = 0) && decide (b.1 % 16 = 0) && decide (b.1 + b.2 ≤ 512)

/-- The words of ARR_CFG and ARR_CLIFF that the firmware writes from the image (R113, R267). -/
def Die.cfgOf (d : Die) (u l : Nat) : Nat := d.goldField u l 2 1 % 4 + 16 * (d.goldField u l 3 1 % 8)
def Die.cliffOf (d : Die) (t u l : Nat) : Nat := d.goldField u l 4 2 % 2 ^ 13 + 2 ^ 16 * (d.budgetOf t l % 16)

/-- The spare columns of a request with the weight columns they stand in for: those it names, those the repair chain has given out, and,
for the image the array holds, those in use (R109, R322). -/
def Die.sparesFor (d : Die) (t a u l : Nat) (spares : List (Nat × Nat)) : List (Nat × Nat) :=
  let same := (d.cal t a).holds = some (256 * u + l)
  let add (l m : List (Nat × Nat)) : List (Nat × Nat) := l ++ m.filter (fun p => !l.any (fun q => q.1 == p.1))
  if same then add (add spares (d.cal t a).plan) (d.sparesUsed t a) else spares

/-- PROG_OK of every spare column is cleared as its programming starts: all are programmed with the array (R109, R121, R267). -/
def Die.clearProgOk (d : Die) (t a : Nat) : Die := (List.range 8).foldl (fun e s => e.clear (Reg.ARR_COLMAP_PROG_OK t a s)) d

/-- The programming of array `a` for logical array `l` is a rolling refresh's (R272, R274): another array serves `l`, and `a` is neither a
remap claim's nor withheld. -/
def Die.shadowUse (d : Die) (t a l : Nat) : Bool :=
  (match d.serving t l with | some b => b != a | none => false) && !(d.claimed t).contains a && !d.upkeep.withheld.contains (arrIx t a)

/-- A rolling refresh takes its shadow as the programming of another array for a served logical array begins (R272). -/
def Die.refreshTakes (d : Die) (t a l : Nat) : Die :=
  if d.shadowUse t a l ∧ !d.upkeep.refreshes.contains (t, l, a) then
    { d with upkeep := { d.upkeep with refreshes := d.upkeep.refreshes ++ [(t, l, a)] } }
  else d

/-- A normal PROGRAM begins. -/
def Die.programStart (d : Die) (t a u l : Nat) (spares : List (Nat × Nat)) : Die :=
  let e := (d.newImage t a (some (256 * u + l))).refreshTakes t a l
  let sp := d.sparesFor t a u l spares
  let targets := e.toProgram t a u l sp 0 512
  let d1 := (e.putW (Reg.ARR_CFG t a) (w32 (d.cfgOf u l))).putW (Reg.ARR_CLIFF t a) (w32 (d.cliffOf t u l))
  ((d1.clearProgOk t a).setArrState t a asProgramming false 0).modArr t a (fun x => { x with job := .program l targets sp none })

/-- An in-place band pass begins. -/
def Die.bandStart (d : Die) (t a u l : Nat) (b : Nat × Nat) : Die :=
  let targets := d.toProgram t a u l (d.sparesUsed t a) b.1 (b.1 + b.2)
  (((d.clearProgOk t a).setArrState t a asProgramming true l).modArr t a
    (fun x => { x with job := .program l targets (d.sparesUsed t a) (some b) })).modCal t a (fun c => { c with bandsOpen := true })

/-- PROGRAM: UNVERIFIED or READY takes a normal request; SERVING a band of its own logical array inside a refresh window; anything
else is refused (R111). -/
def Die.program1 (d : Die) (t a u l : Nat) (spares : List (Nat × Nat)) (band : Option (Nat × Nat)) : Die :=
  let st := d.arrState t a
  match band with
  | none => if st = asUnverified ∨ st = asReady then d.programStart t a u l spares else d.refuseReq t a 2
  | some b =>
    if st = asServing ∧ (d.arr t a).windowOpen ∧ d.serving t l = some a then d.bandStart t a u l b
    else d.refuseReq t a 2

/-- The limits of R268: 256 arrays at work in a domain, and 2 shadow programmings in a tile while a table runs. -/
def Die.programRoom (d : Die) (t a l : Nat) (band : Option (Nat × Nat)) : Bool :=
  decide (d.domainBusy t < 256) && (!d.armed || band.isSome || !d.shadowUse t a l || decide (d.shadowBusy t < 2))

/-- The window in which a band pass of `n` rows runs is long enough for it (R235, R268, R277): a window for in-place refreshes that
covers the logical array now, P times its positions. -/
def Die.bandFits (d : Die) (t l n : Nat) : Bool :=
  match d.tide.table with
  | none => false
  | some tb => tb.refresh.any (fun w => w.tile == t && w.kind == 0 && w.covers tb.tides (d.get Reg.TIDE_POS_POS) l &&
      decide (4 * (100000 + 170000 * n) ≤ d.tide.period * w.npos))

/-- The array that programming takes for a logical array that nothing serves (R267, R273): the one that holds its image already; else the
lowest-numbered of the pool that is no shadow and that no claim and no other logical array waiting to be served has taken. -/
def Die.firstFree (d : Die) (t l : Nat) : Option Nat :=
  let sh := d.shadowsOf t
  let cl := d.claimed t
  let held := d.relay.images.filter (fun k => decide (k % 256 ≠ l) && d.imageOf t (k % 256) == some (k / 256) &&
    (d.serving t (k % 256)).isNone)
  (d.pool t).find? (fun x => !sh.contains x && !cl.contains x && !(match (d.cal t x).holds with | some k => held.contains k | none => false))

/-- The firmware issues the request. A band: while the tile's pool is empty, in increasing row order, where its window is long enough
(R277). A withheld array is programmed with the image it holds, or with any where it holds none of the chart, which is its verify pass
(R111, R275: VERIFY itself is refused in READY).
A programming of another array for a served logical array: of the spare that a remap claim has taken, or as a rolling refresh, of a
shadow, for the first array of the queue that has none (R271, R272, R274). Any other: of the lowest-numbered free array (R273), or again
of the one that holds the image. -/
def Die.programIssued (d : Die) (t a l : Nat) (band : Option (Nat × Nat)) : Bool :=
  let key := (d.imageOf t l).map (fun u => 256 * u + l)
  match band with
  | some b => (d.pool t).isEmpty && b.1 == (d.cal t a).bandNext && d.bandFits t l b.2
  | none =>
    if d.upkeep.claims.any (fun c => c.tile == t && c.logical == l && c.spare == some a) then true
    else if (d.claimed t).contains a then false
    else if d.upkeep.withheld.contains (arrIx t a) then (d.cal t a).holds.isNone || (d.cal t a).holds == key
    else match d.serving t l with
      | none => !d.upkeep.refreshes.any (fun x => x.1 == t && x.2.2 == a) &&
          ((d.cal t a).holds == key ||
            (!(d.pool t).any (fun x => (d.cal t x).holds == key) && d.firstFree t l == some a))
      | some b => b == a || d.upkeep.refreshes.contains (t, l, a) ||
          ((d.shadowsOf t).contains a && !d.upkeep.refreshes.any (fun x => x.1 == t && (x.2.2 == a || x.2.1 == l)) &&
            ((d.upkeep.due.filter (fun x => x.tile == t && !d.upkeep.refreshes.any (fun y => y.1 == t && y.2.1 == x.logical))).head?.map
              (·.logical)) == some l)

def execProgram (tile arr logical : Nat) (spares : List (Nat × Nat)) (band : Option (Nat × Nat)) (s : State) :
    Host.Outcome State Fault Refusal :=
  mainCmd (fun d => d.reqOk tile arr && decide (logical < 256) && (d.imageOf tile logical).isSome && sparesOk spares &&
      (match band with | none => true | some b => bandOk b) && d.programRoom tile arr logical band &&
      d.programIssued tile arr logical band)
    (fun d => d.program1 tile arr ((d.imageOf tile logical).getD 0) logical spares band) s

/-! ### The repair chain (R321 to R324) -/

/-- Sets a bit of SND_MASK. -/
def Die.maskColumn (d : Die) (t a c : Nat) : Die := d.put ⟨Reg.SND_MASK t a (c / 32), c % 32, 1⟩ 1

/-- Whether a column is masked. -/
def Die.masked (d : Die) (t a c : Nat) : Bool := d.on ⟨Reg.SND_MASK t a (c / 32), c % 32, 1⟩

/-- Scaled variance and mean of each row's input code (R323): n² times the variance and n times the mean over n items; with fewer
than 256 items the mean square of all codes, up to scale, and zero. -/
def RowStats.scaled (r : RowStats) : List (Int × Int) :=
  if r.items < 256 then (List.range 512).map (fun _ => ((max 1 r.squares.sum : Nat), 0))
  else (List.range 512).map (fun i => ((r.items : Int) * r.squares.getD i 0 - r.sums.getD i 0 ^ 2, r.sums.getD i 0))

/-- Σ x_i² V_i and Σ x_i M_i. -/
def costParts (vm : List (Int × Int)) (x : List Int) : Int × Int :=
  ((List.zipWith (fun y (p : Int × Int) => y * y * p.1) x vm).sum, (List.zipWith (fun y (p : Int × Int) => y * p.2) x vm).sum)

/-- The cost of R323, scaled. -/
def costOf (p : Int × Int) : Int := p.1 + p.2 ^ 2

/-- One round of R323: the row and step that lower the cost most, the lower row and then -1 first on ties; `free` lists the rows that
may be adjusted with their signed levels. -/
def bestAdjust (vm : List (Int × Int)) (parts : Int × Int) (free : List (Nat × Int)) : Option (Nat × Int) :=
  (free.foldl (fun best q =>
    [(-1 : Int), 1].foldl (fun (b : Option (Nat × Int) × Int) a =>
      if (q.2 + a).natAbs ≤ 7 then
        let p := vm.getD q.1 (0, 0)
        let c := costOf (parts.1 + p.1, parts.2 + a * p.2)
        if c < b.2 then (some (q.1, a), c) else b
      else b) best) ((none : Option (Nat × Int)), costOf parts)).1

/-- Neighbour adjustment (R323): the rows adjusted and the cost parts that remain, after at most `n` rounds. -/
def neighbourAdjust (vm : List (Int × Int)) (n : Nat) (parts : Int × Int) (free : List (Nat × Int)) : List (Nat × Int) × (Int × Int) :=
  match n with
  | 0 => ([], parts)
  | k + 1 =>
    match bestAdjust vm parts free with
    | none => ([], parts)
    | some (i, a) =>
      let p := vm.getD i (0, 0)
      let (rest, end1) := neighbourAdjust vm k (parts.1 + p.1, parts.2 + a * p.2) (free.filter (fun q => decide (q.1 ≠ i)))
      ((i, a) :: rest, end1)

/-- The signed level a cell of a weight column stands at. -/
def Array1.signedLevel (x : Array1) (cell : Nat) : Int := ((x.levels cell).1 : Int) - (x.levels cell).2

/-- The error of a weight column in level steps, row by row (R323): what is programmed, stuck cells and held adjustments included, less
the golden level. -/
def Die.columnDelta (d : Die) (t a u l c : Nat) : List Int :=
  let mode := d.goldField u l 2 1
  (List.range 512).map (fun i => (d.arr t a).signedLevel (266 * i + c) - d.goldLevel u l mode i c)

/-- Step 2 of the chain for weight column `c`, whose stuck rows are given: the cells adjusted beside those held already, at most 64 in
all, where r_col stays within REPAIR_LIM. -/
def Die.adjustColumn (d : Die) (t a u l c : Nat) (stuck : List Nat) : Option (List (Nat × Int)) :=
  let mode := d.goldField u l 2 1
  let gold := (List.range 512).map (fun i => d.goldLevel u l mode i c)
  let vm := (amGet {} d.upkeep.stats (256 * t + l)).scaled
  let held := (d.adjustments t a).filter (fun q => q.1 % 266 == c)
  let free := ((List.range 512).filter (fun i => !stuck.contains i && (look held (266 * i + c)).isNone)).map (fun i => (i, gold.getD i 0))
  let (adj, parts) := neighbourAdjust vm (64 - held.length) (costParts vm (d.columnDelta t a u l c)) free
  if costOf parts * 10 ^ 8 ≤ (d.upkeep.set.repairLim100 : Int) ^ 2 * costOf (costParts vm gold) then some adj else none

/-- The row group that logical array `l` of tile `t` feeds, by its number within the matrix (R152; log entry 61). -/
def Die.groupOf (d : Die) (t l : Nat) : Option Nat :=
  let m := d.matrixOf t l
  (d.upkeep.groups.filter (fun g => d.matrixOf g.1 (g.2.headD 0) == m)).findIdx? (fun g => g.1 == t && g.2.contains l)

/-- A free repair slot of the matrix in the row group that the logical array feeds (R324): the row group and the slot's number. -/
def Die.freeRepairSlot (d : Die) (t l matrix : Nat) : Option (Nat × Nat) :=
  match d.groupOf t l with
  | none => none
  | some g => d.upkeep.slots.findSome? (fun s =>
    if s.matrix = matrix ∧ s.tile = t ∧ s.group = g then
      ((List.range s.slots).find? (fun n => !d.upkeep.ranks.any (fun r => r.matrix == matrix && r.group == g && r.slot == n))).map
        (fun n => (g, n))
    else none)

/-- Columns of an array that the chain has taken through steps 2 or 3. -/
def Die.chainedCount (d : Die) (t a : Nat) : Nat := (d.cal t a).chained.length

/-- The spare column of a weight column's range that is free (R322): neither assigned nor given out nor stuck itself, among the cells just
found (`fresh`) or before. -/
def Die.freeSpare (d : Die) (t a c : Nat) (fresh : List Nat) : Bool :=
  let s := c / 32
  let k := d.cal t a
  decide (c < 256) && !d.on (Reg.ARR_COLMAP_VALID t a s) && (look k.plan s).isNone && !(fresh ++ k.stuck).any (fun ix => ix % 266 == 256 + s)

/-- The column has reached step 2 (R322): it is set in SND_MASK, and counts among the eight columns that steps 2 and 3 may take. -/
def Die.chainColumn (d : Die) (t a c : Nat) : Die :=
  (d.maskColumn t a c).modCal t a (fun k => { k with chained := addOnce k.chained c })

/-- Stuck rows of a weight column, those the chain has dealt with included. -/
def Die.stuckRows (d : Die) (t a c : Nat) (fresh : List Nat) : List Nat :=
  ((fresh ++ (d.cal t a).stuck).filter (fun ix => ix % 266 == c)).map (fun ix => ix / 266)

/-- Steps 3 and 4 of the chain for a column that step 2 did not mend. -/
def Die.rankColumn (d : Die) (t a u l c : Nat) : Die × Bool :=
  let m := d.goldField u l 12 4
  match d.freeRepairSlot t l m with
  | some (g, n) =>
    let r : RankUse := { matrix := m, group := g, slot := n, arr := arrIx t a, col := c, logical := l }
    (({ d with upkeep := { d.upkeep with ranks := d.upkeep.ranks ++ [r] } }).repairReport t a l c 3, false)
  | none => (d.repairReport t a l c 4, true)

/-- The chain for one affected column (R322), every step taken reported; answers whether the array must be condemned. `later` says that
step 1 has been tried, `fresh` are the stuck cells just found. -/
def Die.repairColumn (d : Die) (t a u l c : Nat) (later : Bool) (fresh : List Nat) : Die × Bool :=
  if !later && d.freeSpare t a c fresh then
    (((d.modCal t a (fun k => { k with plan := keep k.plan (c / 32) c })).emit (.firmware 6 [t, a, c / 32, c])).repairReport t a l c 1, false)
  else if 256 ≤ c ∨ (8 ≤ d.chainedCount t a ∧ !(d.cal t a).chained.contains c) then (d.repairReport t a l c 4, true)
  else
    let d1 := (d.chainColumn t a c).repairReport t a l c 2
    match d.adjustColumn t a u l c (d.stuckRows t a c fresh) with
    | some adj =>
      let held := adj.foldl (fun m q => keep m (266 * q.1 + c) q.2) (d.adjustments t a)
      ({ d1 with upkeep := { d1.upkeep with adjust := keep d1.upkeep.adjust (arrIx t a) held } }, false)
    | none => d1.rankColumn t a u l c

/-- The column of the matrix block that a stuck column stands for: itself, or the weight column its spare was programmed for. -/
def stuckColumn (spares : List (Nat × Nat)) (c : Nat) : Nat := if 256 ≤ c ∧ c < 264 then (look spares (c - 256)).getD c else c

/-- The chain for every affected column, in column order, each with its report of kind STUCK_CELL (R321). A spare column that stands in for
no weight column has no spare of its own, and step 2 takes it at once: no row of the matrix reads it, so nothing of it counts in the error
of R323 (DEDUCED, log entry 31). -/
def Die.repairAll (d : Die) (t a u l : Nat) (spares : List (Nat × Nat)) (stuck : List (Nat × Nat × Nat)) : Die × Bool :=
  ((List.range 266).filter (fun c => stuck.any (fun q => q.2.1 == c))).foldl (fun (e : Die × Bool) c =>
    let mine := stuck.filter (fun q => q.2.1 == c)
    let j := stuckColumn spares c
    let d1 := e.1.report { kind := 6, tile := t, phys := a, logical := l, column := j % 256, matrix := e.1.matrixOf t l,
                           detail := (mine.map (fun q => natLe 2 q.1 ++ natLe 1 q.2.2)).flatten }
    if 264 ≤ c then (d1.repairReport t a l 0 4, true)
    else if 256 ≤ c ∧ j = c then (d1.repairReport t a l c 2, e.2)
    else
      let r := d1.repairColumn t a u l j (decide (256 ≤ c)) (stuck.map (fun q => 266 * q.1 + q.2.1))
      (r.1, e.2 || r.2)) (d, false)

/-! ### The end of programming -/

/-- The stuck cells a request can report (R321): cells of the rows it programs, each once, with the levels read as 8 Gp + Gn. A cell may
stay outside its window at the level of its target, for the window is narrower than a level (R87). -/
def stuckOk (band : Option (Nat × Nat)) (stuck : List (Nat × Nat × Nat)) : Bool :=
  let lo := (band.map (·.1)).getD 0
  let hi := (band.map (fun b => b.1 + b.2)).getD 512
  decide ((stuck.map (fun q => 266 * q.1 + q.2.1)).Nodup) &&
  stuck.all (fun q => decide (lo ≤ q.1) && decide (q.1 < hi) && decide (q.2.1 < 266) && decide (q.2.2 < 64))

/-- An array after a request over the rows of `band`: every cell there that is not stuck has been verified (R87, R125). -/
def Array1.programmed (x : Array1) (band : Option (Nat × Nat)) (stuck : List Nat) (sec : Nat) : Array1 :=
  let lo := (band.map (·.1)).getD 0
  let hi := (band.map (fun b => b.1 + b.2)).getD 512
  { x.verifyRows lo hi sec with loose := x.loose.filter (fun ix => decide (ix / 266 < lo) || decide (hi ≤ ix / 266)) ++ stuck }

/-- Spare columns after a request (R109, R121, R322): PROG_OK for each in which no cell is stuck, and with it the assignment to the
weight column it was programmed for; a spare column that failed serves no longer. -/
def Die.markSpares (d : Die) (t a : Nat) (spares : List (Nat × Nat)) (stuck : List Nat) : Die :=
  (List.range 8).foldl (fun e s =>
    if stuck.any (fun ix => ix % 266 == 256 + s) then
      (e.clear (Reg.ARR_COLMAP_PROG_OK t a s)).clear (Reg.ARR_COLMAP_VALID t a s)
    else match look spares s with
      | some c => e.putW (Reg.ARR_COLMAP t a s) (w32 (3 * 2 ^ 30 + c))
      | none => e.raise (Reg.ARR_COLMAP_PROG_OK t a s)) d

/-- The cells after the request: targets reached but for the stuck cells. -/
def cellsAfter (cells targets : List (Nat × (Nat × Nat))) (stuck : List (Nat × Nat × Nat)) : List (Nat × (Nat × Nat)) :=
  let c1 := targets.foldl (fun m p => amSet (cellDefault p.1) m p.1 p.2) cells
  stuck.foldl (fun m q => amSet (cellDefault (266 * q.1 + q.2.1)) m (266 * q.1 + q.2.1) (q.2.2 / 8, q.2.2 % 8)) c1

/-- Programming succeeded: READY, or SERVING in place; every cell has been verified, so a withheld array has its verify pass (R275); the
last band ends an in-place refresh (R278), after which the next spring calibration records rg_base anew (R290). -/
def Die.programGood (d : Die) (t a l : Nat) (spares : List (Nat × Nat)) (band : Option (Nat × Nat)) : Die :=
  let d1 := d.markSpares t a spares ((d.arr t a).loose)
  match band with
  | none => (d1.setArrState t a asReady false 0).modCal t a (fun c => { c with
      programmed := true, reprog := false, reverified := true, plan := c.plan.filter (fun p => !spares.contains p) })
  | some b =>
    let d2 := if d.on (Reg.ARR_STATE_IN_PLACE t a) then d1.setArrState t a asServing false l else d1.setArrState t a asReady false 0
    if b.1 + b.2 = 512 then
      let d3 := d2.modCal t a (fun c => { c with
        bandsOpen := false, bandNext := 0, programmed := true, skipUntil := d2.tideNum + 256, neapDue := true })
      { d3 with upkeep := { d3.upkeep with
        due := d3.upkeep.due.filter (fun x => !(x.tile == t && x.logical == l)),
        deferred := amErase d3.upkeep.deferred (256 * t + l) } }
    else d2.modCal t a (fun c => { c with bandNext := b.1 + b.2 })

/-- Cells stayed outside their windows: UNVERIFIED, the map entry withdrawn, and the repair chain (R111, R322). Where the array condemned
was the shadow of a rolling refresh, another array still serves the logical array and nothing has to be remapped: the refresh loses its
shadow (DEDUCED, log entry 75). -/
def Die.programBad (d : Die) (t a l : Nat) (spares : List (Nat × Nat)) (stuck : List (Nat × Nat × Nat)) : Die :=
  let u := (d.imageOf t l).getD 0
  let d1 := match d.mappedTo t a with
    | some m => d.unmapEntry t m
    | none => d
  let d2 := ((d1.markSpares t a spares (d.arr t a).loose).setArrState t a asUnverified false 0).modCal t a
    (fun c => { c with bandsOpen := false, bandNext := 0 })
  let r := d2.repairAll t a u l spares stuck
  let d3 := r.1.modCal t a (fun c => { c with
    stuck := c.stuck ++ stuck.map (fun q => 266 * q.1 + q.2.1),
    plan := c.plan.filter (fun p => !stuck.any (fun q => q.2.1 == 256 + p.1)) })
  if r.2 then
    let d4 := d3.condemnArr t a
    if (d4.serving t l).isSome ∧ !d4.upkeep.claims.any (fun c => c.tile == t && c.logical == l) then d4
    else d4.remapClaim t l none (some a)
  else d3

/-- PROGRAM_DONE: stuck cells that the chain has dealt with already do not count again (log entry 31). -/
def Die.programDone1 (d : Die) (t a : Nat) (stuck : List (Nat × Nat × Nat)) : Die :=
  match (d.arr t a).job with
  | .program l targets spares band =>
    let d1 := d.modArr t a (fun x => { x.programmed band (stuck.map (fun q => 266 * q.1 + q.2.1)) d.secs with
      job := .none, cells := cellsAfter x.cells targets stuck })
    let known := (d.cal t a).stuck
    let fresh := stuck.filter (fun q => !known.contains (266 * q.1 + q.2.1))
    if fresh.isEmpty then d1.programGood t a l spares band else (d1.programBad t a l spares fresh).withheldFails t a
  | _ => d

/-- Whether the running request can end with those stuck cells. -/
def Die.programCanEnd (d : Die) (t a : Nat) (stuck : List (Nat × Nat × Nat)) : Bool :=
  match (d.arr t a).job with
  | .program _ _ _ band => stuckOk band stuck
  | _ => false

def execProgramDone (tile arr : Nat) (stuck : List (Nat × Nat × Nat)) (s : State) : Host.Outcome State Fault Refusal :=
  mainCmd (fun d => d.tileRuns tile && decide (arr < 272) && d.programCanEnd tile arr stuck)
    (fun d => d.programDone1 tile arr stuck) s

/-! ### The array map table (R269, R270) -/

/-- An array that may come in (R111, R269): READY, of the pool, and not coming in elsewhere. -/
def Die.mayEnter (d : Die) (t a : Nat) : Bool :=
  d.arrState t a == asReady && (d.pool t).contains a &&
    !(List.range 256).any (fun l => d.on (Reg.TILE_AMAP_PEND t l) && d.get (Reg.TILE_AMAP_NEXT t l) == a)

/-- A change of logical array `l` is put down for its boundary. -/
def Die.putPending (d : Die) (t l next : Nat) (k : MapKind) : Die :=
  let d1 := (d.raise (Reg.TILE_AMAP_PEND t l)).put (Reg.TILE_AMAP_NEXT t l) next
  { d1 with mapPend := keep d1.mapPend (256 * t + l) k }

/-- MAP. -/
def Die.mapReq (d : Die) (t l a : Nat) : Die :=
  if d.mayEnter t a && !d.on (Reg.TILE_AMAP_VALID t l) && !d.on (Reg.TILE_AMAP_PEND t l) then d.putPending t l a .map
  else d.refuseReq t a 3

/-- Spring calibrated since its programming (R299, R302): the firmware asks no array into the map before. -/
def Die.calibrated (d : Die) (t a : Nat) : Bool := !(d.cal t a).programmed && !(d.cal t a).reprog

/-- The firmware maps a logical array that has an image to the lowest-numbered array in READY that holds it (R256, R267, R273), once
that is calibrated. -/
def Die.mapIssued (d : Die) (t l a : Nat) : Bool :=
  match d.imageOf t l with
  | none => false
  | some u =>
    let holds (x : Nat) : Bool := (d.cal t x).holds == some (256 * u + l)
    holds a && d.calibrated t a && !((List.range a).any (fun x => holds x && d.calibrated t x && d.mayEnter t x))

def execMap (tile logical arr : Nat) (s : State) : Host.Outcome State Fault Refusal :=
  mainCmd (fun d => d.reqOk tile arr && decide (logical < 256) && d.mapIssued tile logical arr) (fun d => d.mapReq tile logical arr) s

/-- UNMAP. A logical array that nothing serves has no array to name: the refusal names 0x1FF, the PHYS of an entry that is not valid, in
state 0 (log entry 56). -/
def Die.unmapReq (d : Die) (t l : Nat) : Die :=
  match d.serving t l with
  | none => d.refuseReq t 0x1FF 4
  | some a =>
    if d.arrState t a = asServing ∧ !d.on (Reg.TILE_AMAP_PEND t l) then d.putPending t l 0x1FF .unmap else d.refuseReq t a 4

def execUnmap (tile logical : Nat) (s : State) : Host.Outcome State Fault Refusal :=
  mainCmd (fun d => d.reqOk tile 0 && decide (logical < 256)) (fun d => d.unmapReq tile logical) s

/-- SWAP and REMAP. -/
def Die.swapReq (d : Die) (t l a : Nat) (k : MapKind) (req : Nat) : Die :=
  if d.mayEnter t a && d.on (Reg.TILE_AMAP_VALID t l) && !d.on (Reg.TILE_AMAP_PEND t l) then d.putPending t l a k
  else d.refuseReq t a req

/-- The firmware swaps in the shadow of a rolling refresh, or the spare of a claim whose array no longer serves (R272, R274). -/
def Die.swapIssued (d : Die) (t l a : Nat) : Bool :=
  d.calibrated t a && (d.upkeep.refreshes.contains (t, l, a) ||
    d.upkeep.claims.any (fun c => c.tile == t && c.logical == l && c.spare == some a && c.outgoing.isNone))

/-- The firmware remaps to the spare that the claim for the array to be condemned has taken (R274). -/
def Die.remapIssued (d : Die) (t l a : Nat) : Bool :=
  d.calibrated t a && d.upkeep.claims.any (fun c => c.tile == t && c.logical == l && c.spare == some a && c.outgoing.isSome)

def execSwap (tile logical arr : Nat) (s : State) : Host.Outcome State Fault Refusal :=
  mainCmd (fun d => d.reqOk tile arr && decide (logical < 256) && d.swapIssued tile logical arr) (fun d => d.swapReq tile logical arr .swap 5) s

def execRemap (tile logical arr : Nat) (s : State) : Host.Outcome State Fault Refusal :=
  mainCmd (fun d => d.reqOk tile arr && decide (logical < 256) && d.remapIssued tile logical arr) (fun d => d.swapReq tile logical arr .remap 6) s

/-- The outgoing array leaves: READY, or out of its in-place work into the pool; under watch or suspect it is withheld (R275). -/
def Die.leaves (d : Die) (t a : Nat) : Die :=
  let st := d.arrState t a
  let d2 := if st = asServing then d.setArrState t a asReady false 0 else d.setArrState t a st false 0
  let d3 := d2.modCal t a (fun c => { c with degraded := false, bandsOpen := false, bandNext := 0, reverified := false })
  if (d.cal t a).watch.isSome || d.on (Reg.CAL_QF_SUSPECT t a) then
    { d3 with upkeep := { d3.upkeep with withheld := addOnce d3.upkeep.withheld (arrIx t a) } }
  else d3

/-- The incoming array serves `l`, and is a shadow no longer; work queued for `l` is done. -/
def Die.enters (d : Die) (t l a : Nat) : Die :=
  let d1 := (d.putW (Reg.TILE_AMAP t l) (w32 (2 ^ 31 + 0x1FF * 2 ^ 16 + a))).setArrState t a asServing false l
  { d1 with
    mapPend := amErase d1.mapPend (256 * t + l),
    upkeep := { d1.upkeep with
      due := d1.upkeep.due.filter (fun x => !(x.tile == t && x.logical == l)),
      deferred := amErase d1.upkeep.deferred (256 * t + l),
      refreshes := d1.upkeep.refreshes.filter (fun x => !(x.1 == t && x.2.1 == l)),
      claims := d1.upkeep.claims.filter (fun c => !(c.tile == t && c.logical == l)) } }

/-- A change whose incoming array is no longer READY: the entry keeps its mapping, and the refusal is reported (R269); the refresh or the
claim that had taken the array starts again. -/
def Die.mapRefused (d : Die) (t l a : Nat) (k : MapKind) : Die :=
  let d1 := (d.clear (Reg.TILE_AMAP_PEND t l)).put (Reg.TILE_AMAP_NEXT t l) 0x1FF
  ({ d1 with
    mapPend := amErase d1.mapPend (256 * t + l),
    upkeep := { d1.upkeep with
      refreshes := d1.upkeep.refreshes.filter (fun x => decide (x ≠ (t, l, a))),
      claims := d1.upkeep.claims.map (fun (c : Claim) => if c.tile = t ∧ c.spare = some a then { c with spare := none } else c) } }).refuseReq t a (match k with
    | .map => 3 | .unmap => 4 | .swap => 5 | .remap => 6)

/-- One pending change takes effect (R269). -/
def Die.mapChange (d : Die) (t l : Nat) (k : MapKind) : Die :=
  let next := d.get (Reg.TILE_AMAP_NEXT t l)
  match k with
  | .unmap => match d.serving t l with
    | some a => (d.unmapEntry t l).leaves t a
    | none => d.unmapEntry t l
  | .map => if d.arrState t next = asReady then d.enters t l next else d.mapRefused t l next k
  | .swap =>
    if d.arrState t next = asReady then
      match d.serving t l with
      | some a => ((d.leaves t a).enters t l next).returnArray t a
      | none => d.enters t l next
    else d.mapRefused t l next k
  | .remap =>
    if d.arrState t next = asReady then
      match d.serving t l with
      | some a => ((d.leaves t a).enters t l next).condemnArr t a
      | none => d.enters t l next
    else d.mapRefused t l next k

/-- Every logical array with an image is SERVING (R262). -/
def Die.allServing (d : Die) : Bool :=
  d.relay.images.all (fun x => match d.relay.placement[x / 256]? with
    | some t => match d.serving t (x % 256) with
      | some a => d.arrState t a == asServing
      | none => false
    | none => false)

/-- Relay load is done once every array serves (R262). -/
def Die.relayCheck (d : Die) : Die :=
  if d.relay.state = rsProgramming ∧ d.allServing then { d with relay := { d.relay with state := rsReady } } else d

/-- Pending map changes at a tide boundary, and the repair ranks that end with them: while a table runs, only at the boundary into
position 0 (R153, R269, R324). -/
def Die.mapBoundary (d : Die) (pos0 : Bool) : Die :=
  if d.armed && !pos0 then d
  else (d.mapPend.foldl (fun e p => e.mapChange (p.1 / 256) (p.1 % 256) p.2) d).freeRanks.relayCheck

/-! ### Condemn -/

def execCondemn (tile arr : Nat) (s : State) : Host.Outcome State Fault Refusal :=
  mainCmd (fun d => d.reqOk tile arr)
    (fun d => if d.arrState tile arr = asCondemned ∨ d.arrState tile arr = asDisabled then d.refuseReq tile arr 8
      else d.condemnArr tile arr) s

/-! ### Spring calibration (R299 to R302) -/

/-- SPRING: a READY array, or a serving one in place inside a refresh window; after a failure only once it has been programmed again
(R302), for which the firmware waits. -/
def Die.springStart (d : Die) (t a : Nat) : Die :=
  let st := d.arrState t a
  if st = asReady then (d.setArrState t a asCalibrating false 0).modArr t a (fun x => { x with job := .spring })
  else if st = asServing ∧ (d.arr t a).windowOpen then
    (d.setArrState t a asCalibrating true (d.get (Reg.ARR_STATE_LOGICAL t a))).modArr t a (fun x => { x with job := .spring })
  else d.refuseReq t a 7

def execSpring (tile arr : Nat) (s : State) : Host.Outcome State Fault Refusal :=
  mainCmd (fun d => d.reqOk tile arr && decide (d.domainBusy tile < 256) && !(d.cal tile arr).reprog) (fun d => d.springStart tile arr) s

/-- An array becomes suspect (R297): marked, reported, sounded at the watch fraction, and queued for a spring calibration ahead of every
due array. -/
def Die.makeSuspect (d : Die) (t a : Nat) : Die :=
  let l := (d.mappedTo t a).getD 0
  let d1 := (d.put (Reg.SND_CFG_FRAC t a) (d.watchCode t a)).raise (Reg.CAL_QF_SUSPECT t a)
  (d1.report { kind := 4, tile := t, phys := a, logical := l, matrix := d.matrixAt t a, frac := d1.soundCode t a }).springDue t a true

/-- Trim and residual of a mean offset in 1/1024 LSB (R280, R300). -/
def trimOf (o : Int) : Int := roundHalfEven (4 * o) 1024
def residualFor (o : Int) : Int := roundHalfEven (16 * o - 4096 * trimOf o) 1024

/-- Fields of four signed values in a word, `w` bits each at bytes 0 to 3. -/
def word4 (w : Nat) (l : List Int) (v : Nat) : Nat :=
  ((List.range 4).map (fun k => enc w (l.getD (4 * v + k) 0) * 2 ^ (8 * k))).sum

/-- Stage 1 (R300): the codes that bring each converter, from the reference trim in force, to the mean of all 64 (log entry 57). -/
def crefFor (old : List Int) (refs : List Int) : List Int :=
  (List.range 64).map (fun c =>
    let m := refs.getD c 0
    old.getD c 0 + (if m ≤ 0 then 0 else roundHalfEven (1000 * (refs.sum - 64 * m)) (64 * m.toNat)))

/-- The signed level steps a spring calibration expects of a weight cell (R300): the golden level with any adjustment held. -/
def Die.springLevel (d : Die) (t a u l mode i j : Nat) : Int :=
  d.goldLevel u l mode i j + (look (d.adjustments t a) (266 * i + j)).getD 0

/-- Level sums of a column over each group of 16 rows. -/
def Die.groupSums (d : Die) (t a u l mode j : Nat) : List Int :=
  (List.range 32).map (fun v => ((List.range 16).map (fun i => d.springLevel t a u l mode (16 * v + i) j)).sum)

/-- What the ideal sums of a spring calibration rest on: level sums by weight column and group, and s_w times 2^g of the array. -/
def Die.springIdeal (d : Die) (t a : Nat) : List (List Int) × Nat :=
  match (d.cal t a).holds with
  | none => ([], 1)
  | some k =>
    let mode := d.goldField (k / 256) (k % 256) 2 1
    ((List.range 256).map (fun j => d.groupSums t a (k / 256) (k % 256) mode j), stepsPer ((d.arr t a).cfg % 4) * 2 ^ bits (d.arr t a).cfg 4 3)

/-- The two sums of the least-squares ratio of stage 3, measured to ideal, as numerator and denominator: group v at digits +4 and -4 has
the ideal code 8 S / (s_w 2^g). -/
def gainRatio (ideal : List (List Int)) (unit : Nat) (group : List (List Int)) : Int × Int :=
  let cols := ideal.zipIdx
  ((cols.map (fun c => ((c.1.zipIdx).map (fun s =>
      (unit : Int) * s.1 * ((group.getD (2 * s.2) []).getD c.2 0 - (group.getD (2 * s.2 + 1) []).getD c.2 0))).sum)).sum,
   (cols.map (fun c => (c.1.map (fun s => 256 * (s * s))).sum)).sum)

/-- Stage 3 (R300): the gain trim that brings the ratio to 1 from the trim in force (log entry 57); out of range where nothing was
measured. -/
def Die.springGain (d : Die) (t a : Nat) (m : SpringMeas) : Int :=
  let p := d.springIdeal t a
  let r := gainRatio p.1 p.2 m.group
  if r.1 ≤ 0 then 1000
  else roundHalfEven ((1000 + sx 8 (d.get (Reg.CAL_GAIN_ACT t a))) * r.2 - 1000 * r.1) r.1.toNat

/-- The residuals that stage 2 leaves (R300). -/
def springResiduals (m : SpringMeas) : List Int := m.offs.map residualFor

/-- QF (R302): a column's ideal codes cancel over its group vectors, so its mean error in 1/1024 code is the sum of its codes less 64
residuals; QF is 16 times the root of the mean square over the weight columns, rounded, at most 255. -/
def springQf (m : SpringMeas) : Nat :=
  let n := ((List.range 256).map (fun j =>
    let mu := (m.check.map (fun v => v.getD j 0)).sum - 64 * (springResiduals m).getD j 0
    (mu * mu).toNat)).sum
  min 255 ((Nat.sqrt (4 * n) / 1024 + 1) / 2)

/-- A full-row vector of stage 4 shows nonlinearity beyond R124 (R302): the mean code of some column whose ideal code is not clipped
lies farther from it than 0.2 %, for +2 and +4, or 0.6 %, for +8, of it and the integral nonlinearity of 0.5 LSB for each conversion
(log entry 57). -/
def Die.springNonlinear (d : Die) (t a : Nat) (m : SpringMeas) : Bool :=
  let p := d.springIdeal t a
  (p.1.zipIdx).any (fun c => [(0, 2, 2), (1, 4, 2), (2, 8, 6)].any (fun (q : Nat × Nat × Nat) =>
    let conv : Nat := if (d.arr t a).cliff % 2 ^ 13 < 512 * q.2.1 then 2 else 1
    let e : Int := 2 * (q.2.1 : Int) * c.1.sum
    let v := ((m.full.getD q.1 []).getD c.2 0 - conv * (springResiduals m).getD c.2 0) * (p.2 : Nat)
    decide (e.natAbs ≤ 126 * conv * p.2) && decide (1000 * 16 * q.2.2 * e.natAbs + 8000000 * conv * p.2 < 1000000 * (v - 16 * e).natAbs)))

/-- The trims a spring calibration would set: converter references, offsets, gain. -/
def Die.springCref (d : Die) (t a : Nat) (m : SpringMeas) : List Int :=
  crefFor ((List.range 64).map (fun c => fieldOf 5 (d.latch t a).cref c)) m.refs

/-- Every trim and residual lies in its range (R280). -/
def Die.springInRange (d : Die) (t a : Nat) (m : SpringMeas) : Bool :=
  (d.springCref t a m).all (fun x => decide (-16 ≤ x) && decide (x ≤ 15)) &&
  decide (-128 ≤ d.springGain t a m) && decide (d.springGain t a m ≤ 127) &&
  m.offs.all (fun o => decide (-32 ≤ trimOf o) && decide (trimOf o ≤ 31) && decide (-128 ≤ residualFor o) && decide (residualFor o ≤ 127))

/-- Offset targets and residuals written for an array (R284, R295, R296). -/
def Die.writeOffsets (d : Die) (t a : Nat) (trims residuals : List Int) : Die :=
  (List.range 66).foldl (fun e v =>
    (e.putW (Reg.CAL_OFFT t a v) (w32 (word4 6 trims v))).putW (Reg.ENG_OFFR t a v) (w32 (word4 8 residuals v))) d

/-- The firmware's own figures of a tile, EST and LASTCAL as 16-bit words (R293). -/
def Die.figures (d : Die) (t : Nat) : Nat × Nat := (look d.upkeep.figures t).getD (0x8000, 0)

/-- The firmware updates its figures of a tile, which overwrites both fields of CAL_TILE_TEMP (R293). -/
def Die.setFigures (d : Die) (t est last : Nat) : Die :=
  ({ d with upkeep := { d.upkeep with figures := keep d.upkeep.figures t (est, last) } }).putW (Reg.CAL_TILE_TEMP t)
    (w32 (last % 2 ^ 16 * 2 ^ 16 + est % 2 ^ 16))

/-- A tile's estimate in 1/16 °C: the current one, or the one of the last calibration while it is STALE. -/
def Die.estimate (d : Die) (t : Nat) : Int :=
  let f := d.figures t
  sx 16 (if f.1 = 0x8000 then f.2 else f.1)

/-- The coefficients tc after a spring calibration (R295): the slope since the latest earlier one that lies 10 °C away or more, and
those of the previous one where none does. -/
def newTc (past : List SpringRec) (temp : Int) (trims residuals : List Int) : Option (List Int) :=
  match past.find? (fun r => decide (160 ≤ (temp - r.temp).natAbs)) with
  | some r => some ((List.range 264).map (fun j =>
      Int.fdiv (1000 * ((4 * trims.getD j 0 + residuals.getD j 0) - (4 * r.trims.getD j 0 + r.residuals.getD j 0))) (temp - r.temp)))
  | none => (past.head?.map (·.tc)).getD none

/-- The spring record of a calibration (R295). -/
def Die.springRecord (d : Die) (t a : Nat) (m : SpringMeas) : SpringRec :=
  let c := d.cal t a
  let trims := m.offs.map trimOf
  { temp := d.estimate t, trims := trims, residuals := springResiduals m, gain := d.springGain t a m, rg := m.rg, ro := m.ro,
    tc := newTc (c.spring.toList ++ c.past) (d.estimate t) trims (springResiduals m) }

/-- After a spring calibration in place (R297, R299) the array waits in the refresh queue for its own drift or age alone, and leaves it where
neither is due; one that lost its shadow keeps its place (R274). -/
def Die.dueAgain (d : Die) (t a : Nat) : Die :=
  match d.mappedTo t a with
  | none => d
  | some l =>
    let mine (x : Due) : Bool := x.tile == t && x.logical == l
    match d.upkeep.due.find? mine with
    | none => d
    | some x =>
      if x.rank = 0 then d
      else
        let rest := d.upkeep.due.filter (fun y => !mine y)
        if d.driftDue t a || decide (d.upkeep.set.hours ≤ d.ageHours t a) then
          { d with upkeep := { d.upkeep with due := insertDue rest { x with rank := 2 } } }
        else { d with upkeep := { d.upkeep with due := rest, deferred := amErase d.upkeep.deferred (256 * t + l) } }

/-- A spring calibration that succeeds (R290, R293 to R295, R297, R300): targets, residuals and QF are written, SUSPECT and REJECTS
cleared, and the record kept; the drift trigger counts from rg_avg as it is now, or from the record stage where no reference stroke has
been kept; an array calibrated in place has its place in the refresh queue again. A withheld array that has been verified returns to the pool (R275). -/
def Die.springGood (d : Die) (t a : Nat) (inPlace : Bool) (m : SpringMeas) : Die :=
  let r := d.springRecord t a m
  let cref := d.springCref t a m
  let d1 := (List.range 16).foldl (fun e w => e.putW (Reg.CAL_CREF t a w) (w32 (word4 5 cref w))) d
  let d2 := (d1.writeOffsets t a r.trims r.residuals).put (Reg.CAL_GAIN_TGT t a) (enc 8 r.gain)
  let d3 := if inPlace then d2 else d2.raise (Reg.CAL_CTRL_SNAP t a)
  let d4 := (d3.putW (Reg.CAL_QF t a) (w32 (springQf m))).setFigures t (d.figures t).1 (enc 16 r.temp)
  let d5 := d4.modCal t a (fun c => { c with
    rgBase := if c.programmed then some m.rg else c.rgBase, programmed := false, rgAccepted := c.rgAvg.getD m.rg, springFails := 0,
    spring := some r, past := c.spring.toList ++ c.past })
  let d6 := if inPlace then d5.dueAgain t a else d5
  if (d.cal t a).reverified && d.upkeep.withheld.contains (arrIx t a) then
    ({ d6 with upkeep := { d6.upkeep with withheld := without d6.upkeep.withheld (arrIx t a) } }).returnArray t a
  else d6

/-- A spring calibration that fails (R288, R302): its quality figure is kept and it is reported; in place, the array becomes suspect; else it must be programmed in full once more,
which the firmware is told, and a second failure condemns it, whereupon a claim that had taken it takes another spare (R274). -/
def Die.springBad (d : Die) (t a : Nat) (inPlace : Bool) (m : SpringMeas) : Die :=
  let l := (d.mappedTo t a).getD 0
  let d1 := (d.put (Reg.CAL_QF_QF t a) (springQf m)).report { kind := 5, tile := t, phys := a, logical := l, matrix := d.matrixAt t a }
  if inPlace then d1.makeSuspect t a
  else
    let n := (d.cal t a).springFails + 1
    let d2 := d1.modCal t a (fun c => { c with springFails := n, reprog := true })
    if n < 2 then (d2.emit (.firmware 9 [t, a])).withheldFails t a
    else
      let d3 := d2.condemnArr t a
      d3.serveClaims d3.waitingClaims

/-- SPRING_DONE. -/
def Die.springEnd (d : Die) (t a : Nat) (m : SpringMeas) : Die :=
  let inPlace := d.on (Reg.ARR_STATE_IN_PLACE t a)
  let d1 := (d.modArr t a (fun x => { x with job := .none })).setArrState t a (if inPlace then asServing else asReady) false
    (if inPlace then d.get (Reg.ARR_STATE_LOGICAL t a) else 0)
  if d.upkeep.set.qfLim < springQf m || d.springNonlinear t a m || !d.springInRange t a m then d1.springBad t a inPlace m
  else d1.springGood t a inPlace m

/-- A measurement of the right shape: 64 converters, 264 columns, 64 group vectors twice, 3 full-row vectors, of 256 columns each. -/
def springShapeOk (m : SpringMeas) : Bool :=
  decide (m.refs.length = 64) && decide (m.offs.length = 264) && decide (m.group.length = 64) && decide (m.check.length = 64) &&
  decide (m.full.length = 3) && (m.group ++ m.check ++ m.full).all (fun v => decide (v.length = 256))

def execSpringDone (tile arr : Nat) (meas : SpringMeas) (s : State) : Host.Outcome State Fault Refusal :=
  mainCmd (fun d => d.fwRuns && d.tileRuns tile && decide (arr < 272) && decide ((d.arr tile arr).job = .spring) && springShapeOk meas)
    (fun d => d.springEnd tile arr meas) s

end Sys2Proof.Machine
end

