-- ==== Sys2Proof/Machine/Upkeep.lean ====
section
/-! DEFINITION. Calibration, sounding's watch and wear, as the Lighthouse firmware runs them (R271, R278, R280 to R298, R312, R315,
R320, R324 to R326). -/
namespace Sys2Proof.Machine

/-! ### Trims (R282, R287) -/

/-- One code toward the target. -/
def stepToward (tgt act : Int) : Int := if act < tgt then act + 1 else if tgt < act then act - 1 else act

/-- Four signed fields of `w` bits, at bytes 0 to 3, stepped toward their targets. -/
def stepWord (w tgt act : Nat) : Nat :=
  ((List.range 4).map (fun k => enc w (stepToward (sx w (bits tgt (8 * k) w)) (sx w (bits act (8 * k) w))) * 2 ^ (8 * k))).sum

/-- The largest distance between four targets and their active values. -/
def distWord (w tgt act : Nat) : Nat :=
  (List.range 4).foldl (fun m k => max m (sx w (bits tgt (8 * k) w) - sx w (bits act (8 * k) w)).natAbs) 0

/-- Target and active words of an array's trims, with the width of their fields. -/
def trimWords (t a : Nat) : List (Nat × Nat × Nat) :=
  (List.range 66).map (fun v => (Reg.CAL_OFFT t a v, Reg.CAL_OFFA t a v, 6)) ++
  (List.range 16).map (fun w => (Reg.CAL_CREF t a w, Reg.CAL_CREFA t a w, 5))

/-- Word `w` as a number. -/
def Die.num (d : Die) (a : Nat) : Nat := (d.getW a).toNat

/-- CAL_STATUS.DIST as it reads (R287). -/
def Die.trimDist (d : Die) (t a : Nat) : Nat :=
  let g := (sx 8 (d.get (Reg.CAL_GAIN_TGT t a)) - sx 8 (d.get (Reg.CAL_GAIN_ACT t a))).natAbs
  min 255 ((trimWords t a).foldl (fun m p => max m (distWord p.2.2 (d.num p.1) (d.num p.2.1))) g)

/-- The array is SERVING, or CALIBRATING in place: SNAP does not act on it (R282). -/
def Die.snapBarred (d : Die) (t a : Nat) : Bool :=
  d.arrState t a == asServing || (d.arrState t a == asCalibrating && d.on (Reg.ARR_STATE_IN_PLACE t a))

/-- What a tide boundary does to the trims of an array (R282): SNAP sets every active value to its target; else, unless HOLD is set,
each moves one code. -/
def Die.trimBoundary (d : Die) (t a : Nat) : Die :=
  let snap := d.on (Reg.CAL_CTRL_SNAP t a) && !d.snapBarred t a
  let d1 := d.clear (Reg.CAL_CTRL_SNAP t a)
  if snap then
      ((trimWords t a).foldl (fun e p => e.putW p.2.1 (e.getW p.1)) d1).put (Reg.CAL_GAIN_ACT t a) (d.get (Reg.CAL_GAIN_TGT t a))
  else if d.on (Reg.CAL_CTRL_HOLD t a) then d1
  else
    ((trimWords t a).foldl (fun e p => e.putW p.2.1 (w32 (stepWord p.2.2 (e.num p.1) (e.num p.2.1)))) d1).put
      (Reg.CAL_GAIN_ACT t a)
      (enc 8 (stepToward (sx 8 (d.get (Reg.CAL_GAIN_TGT t a))) (sx 8 (d.get (Reg.CAL_GAIN_ACT t a)))))

/-- CAL_CTRL.SNAP written 1 (R287): ignored with record Array 4 on a serving array. -/
def Die.calSnap (d : Die) (ag : Agent) (t a : Nat) : Die :=
  if d.snapBarred t a then (d.recordA 0x11 4 t a ag (Reg.CAL_CTRL t a) 2 stOk).answer ag stOk
  else (d.raise (Reg.CAL_CTRL_SNAP t a)).answer ag stOk

def execCalSnap (ag : Agent) (tile arr : Nat) (s : State) : Host.Outcome State Fault Refusal :=
  tileCmd ag tile (Reg.CAL_CTRL tile arr) 2 (decide (arr < 272)) (fun d => d.calSnap ag tile arr) s

/-! ### Refresh (R271, R278) -/

/-- REFRESH_DUE: the array joins the queue; where refreshes run in place and no window covers it, it is deferred with a record. -/
def Die.refreshDue (d : Die) (t l a : Nat) (byDrift : Bool) (age : Nat) : Die :=
  d.addDue { tile := t, logical := l, byDrift := byDrift, fall := d.drift t a, age := age }

/-- A logical array is due: its fall of REF_GAIN reaches the drift threshold, or its age, which the operand tells, the refresh interval
(R271). -/
def Die.isDue (d : Die) (t l : Nat) (byDrift : Bool) (age : Nat) : Bool :=
  match d.serving t l with
  | none => false
  | some a => !d.upkeep.due.any (fun x => x.tile == t && x.logical == l) && decide (age = d.ageHours t a) &&
      (if byDrift then d.driftDue t a else decide (d.upkeep.set.hours ≤ age))

def execRefreshDue (tile logical : Nat) (byDrift : Bool) (age : Nat) (s : State) : Host.Outcome State Fault Refusal :=
  mainCmd (fun d => d.fwRuns && d.enabled tile && decide (logical < 256) && d.isDue tile logical byDrift age)
    (fun d => d.refreshDue tile logical ((d.serving tile logical).getD 0) byDrift age) s

/-- A deferral has reached twice the refresh interval (R278). -/
def Die.overdue (d : Die) (t l : Nat) : Bool :=
  match look d.upkeep.deferred (256 * t + l) with
  | none => false
  | some since => decide (since + 2 * 3600 * d.upkeep.set.hours ≤ d.now / 1000000000)

/-- REFRESH_OVERDUE (R278, R325). -/
def execRefreshOverdue (tile logical : Nat) (s : State) : Host.Outcome State Fault Refusal :=
  mainCmd (fun d => d.fwRuns && d.overdue tile logical && decide (logical < 256) && d.enabled tile)
    (fun d => ((d.raise (Reg.TILE_SPARE_OVERDUE tile)).exhausted tile logical (d.serving tile logical) 9)) s

/-! ### Temperature (R289 to R293) -/

/-- REF_STALE: an array that takes part in the estimate has gone 65,536 tides without a reference stroke (R289, R291). -/
def execRefStale (tile arr : Nat) (s : State) : Host.Outcome State Fault Refusal :=
  mainCmd (fun d => d.fwRuns && d.enabled tile && decide (arr < 272) &&
      (d.arrState tile arr == asServing || d.arrState tile arr == asReady) &&
      !(d.cal tile arr).stale && decide ((d.cal tile arr).lastRef + 65536 ≤ d.tideNum))
    (fun d => (d.modCal tile arr (fun c => { c with stale := true })).report
      { kind := 11, tile := tile, phys := arr, logical := (d.mappedTo tile arr).getD 0, matrix := d.matrixAt tile arr }) s

/-- The temperature an array tells, in 1/16000 °C, without the tile's offset (R291); rounded down (log entry 32). -/
def Die.arrTemp (d : Die) (t a : Nat) : Option Int :=
  let c := d.cal t a
  match c.rgAvg with
  | none => none
  | some g =>
    if (d.arrState t a = asReady ∨ d.arrState t a = asServing) ∧ !d.on (Reg.CAL_QF_SUSPECT t a) ∧ !c.stale ∧ g ≠ 0 then
      let absC := Int.fdiv (c.refAbs * 1000 * d.rgBase t a) g
      some (70 * 16000 + Int.fdiv ((absC - factoryAbs70 (arrIx t a)) * 16000) (factorySlope t))
    else none

/-- A tile's estimate in 1/16 °C; none (STALE) with fewer than 32 arrays (R291). -/
def Die.tileEst (d : Die) (t : Nat) : Option Int :=
  let l := (List.range 272).filterMap (fun a => d.arrTemp t a)
  if l.length < 32 then none else some (Int.fdiv (l.sum + l.length * 500) (1000 * l.length) + amGet 0 d.upkeep.toff t)

/-- The mean of all tile estimates in 1/16 °C. -/
def Die.meanEst (d : Die) : Option Int :=
  let l := (d.enabledTiles.map (fun t => (d.figures t).1)).filter (fun e => decide (e ≠ 0x8000))
  if l.isEmpty then none else some (Int.fdiv (l.map (sx 16)).sum l.length)

/-- While a table runs, a mean that differs from the diode by more than 6.0 °C is reported once, and an alignment is owed (R292). -/
def Die.tempCheck (d : Die) : Die :=
  match d.meanEst with
  | none => d
  | some m =>
    if d.armed && d.on Reg.THM_DIODE_VALID && !d.upkeep.alignDue && decide (96 < (m - sx 16 d.diode).natAbs) then
      ({ d with upkeep := { d.upkeep with alignDue := true } }).report { kind := 10, array := false }
    else d

/-- Serving arrays whose tile's estimate lies more than SPRING_DIST from their last spring calibration join the refresh queue (R299). -/
def Die.springFar (d : Die) (t : Nat) : Die :=
  match d.tileEst t with
  | none => d
  | some e => ((List.range 272).filter (fun a => d.arrState t a == asServing && (match (d.cal t a).spring with
      | some r => decide (16 * d.upkeep.set.springDist < (e - r.temp).natAbs)
      | none => false))).foldl (fun g a => g.springDue t a false) d

/-- TILE_ESTIMATE: both fields of CAL_TILE_TEMP are written (R293). -/
def Die.tileEstimate (d : Die) (t : Nat) : Die :=
  (d.setFigures t (match d.tileEst t with | some e => enc 16 e | none => 0x8000) (d.figures t).2).springFar t

def execTileEstimate (tile : Nat) (s : State) : Host.Outcome State Fault Refusal :=
  mainCmd (fun d => d.fwRuns && d.tileRuns tile) (fun d => d.tileEstimate tile) s

/-- The alignment of R292: each tile's offset moves so that its estimate equals the diode reading. -/
def Die.align (d : Die) : Die :=
  let dio := sx 16 d.diode
  let d1 := d.enabledTiles.foldl (fun e t => match e.tileEst t with
    | none => e
    | some x =>
      ({ e with upkeep := { e.upkeep with toff := amSet 0 e.upkeep.toff t (amGet 0 e.upkeep.toff t + dio - x) } }).setFigures t
        (enc 16 dio) (e.figures t).2) d
  { d1 with upkeep := { d1.upkeep with alignDue := false, alignAsk := false, aligned := true, diodeFresh := false } }

/-- Relay load has completed and no alignment has been made since, or the module has run 10 s without a table below 150 W (R292). -/
def Die.alignOpen (d : Die) : Bool :=
  (decide (d.relay.state = rsReady) && !d.upkeep.aligned) ||
    (match d.sense.quietSince with | some q => decide (q + 10000000000 ≤ d.now) | none => false)

/-- TEMP_ALIGN: without a table in force, at an opportunity of R292, and with a reading of the diode made on demand for it. -/
def execTempAlign (s : State) : Host.Outcome State Fault Refusal :=
  mainCmd (fun d => d.fwRuns && !d.armed && d.alignOpen && d.upkeep.diodeFresh) (fun d => d.align) s

/-! ### Conversions that the firmware waits for (R292, R320) -/

/-- A diode reading reaches the firmware (R292): one made on demand serves an alignment, and any is compared with the tiles' estimates. -/
def Die.diodeRead (d : Die) (src : Nat) : Die :=
  if !d.fwRuns then d
  else
    let d1 := { d with upkeep := { d.upkeep with diodeFresh := d.upkeep.diodeFresh || (src == 4 && !d.armed) } }
    (if d1.upkeep.alignAsk && d1.upkeep.diodeFresh then d1.align else d1).tempCheck

/-- A conversion ends (R481), and what the firmware makes of its result. -/
def Die.sarDone (d : Die) (c raw : Nat) : Die :=
  match (d.conv c).run with
  | some (src, ch :: _) =>
    let d1 := d.conversionDone c raw
    let d2 := if src = 2 ∧ d.fwRuns = true then d1.reportReading c ch (d.monValue c ch raw) else d1
    if c = 0 ∧ ch = 12 then d2.diodeRead src else d2
  | _ => d.conversionDone c raw

/-- SAR_CONVERSION_DONE. -/
def execSarConversionDone (conv raw : Nat) (s : State) : Host.Outcome State Fault Refusal :=
  mainCmd (fun d => decide (conv < 2) && decide (raw < 4096) && (d.conv conv).run.isSome)
    (fun d => d.sarDone conv raw) s

/-! ### Neap calibration (R294 to R298) -/

/-- The modelled coefficient of a column in 1/1000 LSB per °C (R295). -/
def coeffOf (r : SpringRec) (ix j : Nat) : Int :=
  match r.tc with
  | some l => l.getD j 0
  | none => Config.offsetCoeff ix j

/-- Neap values (R295): offset targets, residuals, gain, and whether `resid` exceeds NEAP_RES. -/
def neapValues (c : ArrCal) (r : SpringRec) (ix : Nat) (est avg : Int) (limit : Nat) : List Int × List Int × Int × Bool :=
  let dt := est - r.temp
  let o (j : Nat) : Int := 4000 * r.trims.getD j 0 + 1000 * r.residuals.getD j 0 + coeffOf r ix j * dt
  let cols := List.range 264
  let tgt := cols.map (fun j => roundHalfEven (o j) 4000)
  let res := cols.map (fun j => roundHalfEven (o j - 4000 * tgt.getD j 0) 1000)
  let gain := r.gain + roundHalfEven (1000 * (r.rg - avg)) avg.toNat
  let shift := (cols.map (fun j => coeffOf r ix j * dt)).sum
  let miss := (shift * 256 - (c.roAvg - r.ro) * (16000 * 264)).natAbs
  (tgt, res, gain, decide (limit * 16000 * 264 * 256 < 16 * miss))

/-- Current offset target of a column. -/
def Die.offTarget (d : Die) (t a j : Nat) : Int := sx 6 (bits (d.num (Reg.CAL_OFFT t a (j / 4))) (8 * (j % 4)) 6)

/-- Why neap values are rejected (R296); 0 where they are accepted. -/
def Die.neapReason (d : Die) (t a : Nat) (tgt res : List Int) (gain : Int) (far : Bool) : Nat :=
  if (List.range 264).any (fun j => decide (8 < (tgt.getD j 0 - d.offTarget t a j).natAbs)) then 1
  else if 30 < (gain - sx 8 (d.get (Reg.CAL_GAIN_TGT t a))).natAbs then 2
  else if far then 3
  else if tgt.any (fun x => decide (x < -32) || decide (31 < x)) || res.any (fun x => decide (x < -128) || decide (127 < x)) ||
    decide (gain < -128) || decide (127 < gain) then 4
  else 0

/-- Arrays a neap calibration leaves out (R294). -/
def Die.neapLeftOut (d : Die) (t a : Nat) : Bool :=
  (d.cal t a).stale || d.on (Reg.CAL_QF_SUSPECT t a) || d.inRefresh t a ||
    (match d.mappedTo t a with | some l => d.on (Reg.TILE_AMAP_PEND t l) | none => false)

/-- A rejection: a report with the old and new gain and trims, and REJECTS; the third in a row makes the array suspect (R296, R297). -/
def Die.neapReject (d : Die) (t a reason : Nat) (tgt : List Int) (gain : Int) : Die :=
  let l := (d.mappedTo t a).getD 0
  let n := min 3 (d.get (Reg.CAL_QF_REJECTS t a) + 1)
  let d1 := (d.put (Reg.CAL_QF_REJECTS t a) n).report
    { kind := 3, reason := reason, tile := t, phys := a, logical := l, matrix := d.matrixAt t a,
      detail := natLe 1 (d.get (Reg.CAL_GAIN_TGT t a)) ++ natLe 1 (enc 8 gain) ++
        ((List.range 20).map (fun j => natLe 1 (enc 8 (d.offTarget t a j)) ++ natLe 1 (enc 8 (tgt.getD j 0)))).flatten }
  let d2 := d1.modCal t a (fun c => { c with neapDue := false })
  if n = 3 then d2.makeSuspect t a else d2

/-- Acceptance: targets, residuals and gain are written (R296), and the spread for sounding (R313). -/
def Die.neapAccept (d : Die) (t a : Nat) (tgt res : List Int) (gain avg : Int) : Die :=
  let d1 := ((d.writeOffsets t a tgt res).put (Reg.CAL_GAIN_TGT t a) (enc 8 gain)).clear (Reg.CAL_QF_REJECTS t a)
  (d1.put (Reg.SND_CFG_SPREAD t a) (min 255 (15 * d.drift t a / 100))).modCal t a (fun c => { c with rgAccepted := avg, neapDue := false })

/-- The neap calibration of one array; answers whether it took part and was accepted. -/
def Die.neapOne (d : Die) (t a : Nat) : Die × Bool :=
  let c := d.cal t a
  match c.spring, c.rgAvg with
  | some r, some avg =>
    if avg ≤ 0 then (d, false)
    else
      let v := neapValues c r (arrIx t a) (d.estimate t) avg d.upkeep.set.neapRes
      let k := d.neapReason t a v.1 v.2.1 v.2.2.1 v.2.2.2
      if k = 0 then (d.neapAccept t a v.1 v.2.1 v.2.2.1 avg, true) else (d.neapReject t a k v.1 v.2.2.1, false)
  | _, _ => (d, false)

/-- The temperature trigger of a tile (R294). -/
def Die.tempTrigger (d : Die) (t : Nat) : Bool :=
  let f := d.figures t
  decide (f.1 ≠ 0x8000) && decide (16 * d.upkeep.set.neapTrig10 < 10 * (sx 16 f.1 - sx 16 f.2).natAbs)

/-- The drift trigger of an array (R294): rg_avg has moved by more than 0.5 %. -/
def Die.driftTrigger (d : Die) (t a : Nat) : Bool :=
  match (d.cal t a).rgAvg with
  | none => false
  | some g => decide ((d.cal t a).rgAccepted.natAbs < 200 * (g - (d.cal t a).rgAccepted).natAbs)

/-- A trigger of the one array acts: its drift, or a neap calibration that is owed to it (R294). -/
def Die.ownTrigger (d : Die) (t a : Nat) : Bool := d.driftTrigger t a || (d.cal t a).neapDue

/-- The arrays a trigger names that have a spring record: every SERVING array of the tile on temperature, and the one array on a trigger of
its own (R294). -/
def Die.neapNamed (d : Die) (t a : Nat) : List Nat :=
  (List.range 272).filter (fun x => ((d.tempTrigger t && d.arrState t x == asServing) || (x == a && d.ownTrigger t a)) &&
    (d.cal t x).spring.isSome)

/-- The arrays that take part (R294). -/
def Die.neapScope (d : Die) (t a : Nat) : List Nat := (d.neapNamed t a).filter (fun x => !d.neapLeftOut t x)

/-- NEAP_TRIGGER: LASTCAL is set when every array taking part was accepted (R296). The calibration of a stale array is deferred: it is owed
until a reference stroke has ended its staleness (R289). -/
def Die.neap (d : Die) (t a : Nat) : Die :=
  let sc := d.neapScope t a
  let d1 := ((d.neapNamed t a).filter (fun x => (d.cal t x).stale)).foldl (fun e x => e.modCal t x (fun c => { c with neapDue := true })) d
  let r := sc.foldl (fun (e : Die × Bool) x => let q := e.1.neapOne t x; (q.1, e.2 && q.2)) (d1, true)
  if r.2 && !sc.isEmpty then r.1.setFigures t (d.figures t).1 (enc 16 (d.estimate t)) else r.1

/-- The trigger acts on the array: the tile's temperature where it serves, its own where it serves or is READY (R294). -/
def Die.neapMay (d : Die) (t a : Nat) : Bool :=
  (d.tempTrigger t && d.arrState t a == asServing) || (d.ownTrigger t a && (d.arrState t a == asServing || d.arrState t a == asReady))

def execNeapTrigger (tile arr : Nat) (s : State) : Host.Outcome State Fault Refusal :=
  mainCmd (fun d => d.fwRuns && d.tileRuns tile && decide (arr < 272) && d.neapMay tile arr)
    (fun d => d.neap tile arr) s

/-! ### Watch (R312) -/

/-- An array is withheld from the pool (R275); a refresh or a claim that had taken it loses it. -/
def Die.withhold (d : Die) (t a : Nat) : Die :=
  let d1 := d.modCal t a (fun c => { c with reverified := false })
  { d1 with upkeep := { d1.upkeep with
    withheld := addOnce d1.upkeep.withheld (arrIx t a),
    refreshes := d1.upkeep.refreshes.filter (fun x => decide (x.1 ≠ t) || decide (x.2.2 ≠ a)),
    claims := d1.upkeep.claims.map (fun (c : Claim) => if c.tile = t ∧ c.spare = some a then { c with spare := none } else c) } }

/-- A sounding item of an array has failed (R312): a watch opens; a second failure in it condemns the array, with a remap claim;
later ones are only counted and reported. An array swapped out since is withheld. `r` names the item. -/
def Die.soundFailed (d : Die) (t a l : Nat) (r : Report) : Die :=
  let c := d.cal t a
  if c.condemned then d.report { r with kind := 1, watch := 2, frac := d.soundCode t a }
  else
    match c.watch with
    | some _ =>
      let d1 := (d.modCal t a (fun c => { c with condemned := true })).report { r with kind := 2, watch := 2, frac := d.soundCode t a }
      if d.serving t l = some a then d1.remapClaim t l (some a) else d1.condemnArr t a
    | none =>
      let old := d.get (Reg.SND_CFG_FRAC t a)
      let d1 := (d.put (Reg.SND_CFG_FRAC t a) (d.watchCode t a)).modCal t a (fun c => { c with watch := some (d.tideNum + 10000, old) })
      (if (d.mappedTo t a).isNone && d.arrState t a != asCondemned then d1.withhold t a else d1).report { r with kind := 1, watch := 1, frac := d.soundCode t a }

/-- WATCH_EXPIRY: the previous FRAC is restored; a condemned array stays under watch. -/
def Die.watchOver (d : Die) (t a : Nat) : Bool :=
  match (d.cal t a).watch with
  | some w => decide (w.1 ≤ d.tideNum) && !(d.cal t a).condemned
  | none => false

/-- The previous FRAC comes back, but for an array that another rule keeps at the watch fraction (R297, R312, R325). -/
def Die.endWatch (d : Die) (t a : Nat) : Die :=
  let old := ((d.cal t a).watch.map (·.2)).getD 0
  let d1 := d.modCal t a (fun c => { c with watch := none })
  if d1.watched t a then d1 else d1.put (Reg.SND_CFG_FRAC t a) old

def execWatchExpiry (tile arr : Nat) (s : State) : Host.Outcome State Fault Refusal :=
  mainCmd (fun d => d.fwRuns && d.enabled tile && decide (arr < 272) && d.watchOver tile arr)
    (fun d => d.endWatch tile arr) s

/-- SND_TILE_CTRL.CNT_CLR set (R315): the clear comes at the next tide boundary. -/
def execSndCntClr (ag : Agent) (tile : Nat) (s : State) : Host.Outcome State Fault Refusal :=
  tileCmd ag tile (Reg.SND_TILE_CTRL tile) (2 ^ 31) true (fun d => (d.raise (Reg.SND_TILE_CTRL_CNT_CLR tile)).answer ag stOk) s

/-- The sounding counters of a tile cleared at a boundary (R315), and a seed that was written loaded (R306). -/
def Die.soundBoundary (d : Die) (t : Nat) (arrs : List Nat) : Die :=
  let d1 :=
    if d.on (Reg.SND_TILE_CTRL_CNT_CLR t) then
      let e := [Reg.SND_TILE_CAPT t, Reg.SND_TILE_DONE t, Reg.SND_TILE_FAIL t, Reg.SND_TILE_SKIP_RING t, Reg.SND_TILE_SKIP_THREAD t,
        Reg.SND_TILE_SKIP_REFRESH t, Reg.SND_TILE_SKIP_POISON t, Reg.SND_TILE_COL_EXCL t].foldl (fun e r => e.putW r 0) d
      (arrs.foldl (fun e a => ((e.putW (Reg.SND_CAPT t a) 0).putW (Reg.SND_FAIL t a) 0).putW (Reg.SND_SKIP t a) 0) e).clear
        (Reg.SND_TILE_CTRL_CNT_CLR t)
    else d
  if (d1.tile t).seedPending then
    d1.modTile t (fun x => { x with seedPending := false, sndState := some (d1.get (Reg.SND_TILE_SEED_SEED t)) })
  else d1

/-! ### Repair ranks (R324) -/

/-- A step boundary, at which a repair rank may be written (R153, R324): no table is in force, or no step's inputs have begun, or every
OUT buffer of the last step whose inputs have begun is FULL or has been FULL and read. The front knows that by the results; another module
by the step's retirement, which follows them (DEDUCED, log entry 61). -/
def Die.outsFull (d : Die) : Bool :=
  match d.tide.table with
  | none => true
  | some tb => !d.armed || decide (d.serve.inStep = 0) ||
      (if d.isFront then tb.berths.all (fun b =>
          decide (d.serve.inStep ≤ (look d.serve.outSeen b.berth).getD 0 + b2n (d.isFull b.outTile (b.outOp / 2 ^ 24 % 256))))
        else d.serve.steps.all (fun s => s.done || decide (d.serve.inStep ≤ s.step)))

/-- A vector of Shingle-8 blocks in panels of 32, the last holding the rest (R144, R257). -/
def shingleVector (x : List Word) : List Byte :=
  let blocks := (List.range ((x.length + 31) / 32)).map (fun k => shingleQuantise (((x.drop (32 * k)).take 32 ++ List.replicate 32 0).take 32) 127)
  ((List.range ((blocks.length + 31) / 32)).map (fun p =>
    let l := (blocks.drop (32 * p)).take 32
    let bs := (l.map (fun b => elementBytes true b.2.1)).flatten ++ l.map (fun b => b8 b.1)
    bs ++ zeros (panelBytes l.length 32 - bs.length))).flatten

/-- Blocks of the longest vector that `len` bytes hold. -/
def blocksIn (len : Nat) : Nat := ((List.range (len / 32 + 1)).filter (fun n => decide (panelsBytes n 32 32 ≤ len))).foldl max 0

/-- Factor A's vector of a rank (R324): −Δ_i × cs_j, in weight steps, at input row 512 b + i for the rows of the array's block b. -/
def Die.rankA (d : Die) (x : RankUse) (blocks : Nat) : List Word :=
  let k := ((d.cal (x.arr / 272) (x.arr % 272)).holds).getD 0
  let u := k / 256
  let l := k % 256
  let b := d.goldField u l 6 2
  let cs := w32 (2 ^ 16 * d.leMem (goldScales u l + 2 * x.col) 2)
  let delta := d.columnDelta (x.arr / 272) (x.arr % 272) u l x.col
  (List.range (32 * blocks)).map (fun i =>
    if i / 512 = b then fpDiv (fpMul (fpOfInt (-(delta.getD (i % 512) 0))) cs) (fpOfInt (stepsPer (d.goldField u l 2 1))) else 0)

/-- Factor B's vector of a rank (R324): 1.0 at column j. -/
def rankB (col blocks : Nat) : List Word := (List.range (32 * blocks)).map (fun i => if i = col then 0x3F800000 else 0)

/-- What the slots of a rank must hold, span by span: of the regions named for its matrix and row group, the first holds factor A and
any other factor B (DESIGN CHOICE, log entry 61). -/
def Die.rankData (d : Die) (x : RankUse) : List Byte :=
  (((d.slotSpans x.matrix x.group x.slot).zipIdx).map (fun p =>
    let n := blocksIn p.1.2
    ((shingleVector (if p.2 = 0 then d.rankA x n else rankB x.col n)) ++ zeros p.1.2).take p.1.2)).flatten

/-- The data of a rank over the spans of its slot. -/
def Die.fillSlot (d : Die) (l : List (Nat × Nat)) (data : List Byte) : Die :=
  match l with
  | [] => d
  | p :: r => (d.setBytes p.1 (data.take p.2)).fillSlot r (data.drop p.2)

/-- The rank that holds a slot. -/
def Die.rankIn (d : Die) (matrix group slot : Nat) : Option RankUse :=
  d.upkeep.ranks.find? (fun r => r.matrix == matrix && r.group == group && r.slot == slot)

/-- A rank is written into its slot; the berth inputs that waited for it follow (R324). -/
def Die.writeRank (d : Die) (x : RankUse) (data : List Byte) : Die :=
  let d1 := d.fillSlot (d.slotSpans x.matrix x.group x.slot) data
  ({ d1 with upkeep := { d1.upkeep with
    ranks := d1.upkeep.ranks.map (fun r => if r = x then { x with written := true } else r) } }).serveInputs

/-- REPAIR_RANK_WRITE: a rank that is due, with the contents R324 gives it. -/
def execRepairRankWrite (matrix group slot : Nat) (data : List Byte) (s : State) : Host.Outcome State Fault Refusal :=
  mainCmd (fun d => d.fwRuns && d.outsFull && (match d.rankIn matrix group slot with
      | some x => d.rankDue x && decide (data = d.rankData x)
      | none => false))
    (fun d => match d.rankIn matrix group slot with
      | some x => d.writeRank x data
      | none => d) s

/-! ### Commands (R326) -/

/-- Settings that take force at the next tide boundary. -/
def Die.setUpkeep (d : Die) (f : UpkeepSet → UpkeepSet) : Die :=
  { d with upkeep := { d.upkeep with next := f d.upkeep.next } }

/-- A command whose parameters are in range takes effect and answers OK; else it answers RANGE. -/
def Die.ranged (d : Die) (box : Nat) (ok : Bool) (f : Die → Die) : Die :=
  if ok then (f d).reply box rcOk [] else d.reply box rcRange []

/-- `x` lies in `lo .. hi`. -/
def inR (lo hi x : Nat) : Bool := decide (lo ≤ x) && decide (x ≤ hi)

def execCalCfg (box neapTrig10 neapRes qfLim springDist : Nat) (s : State) : Host.Outcome State Fault Refusal :=
  fwCmd box (fun d => d.ranged box (inR 5 100 neapTrig10 && inR 2 64 neapRes && inR 2 32 qfLim && inR 10 60 springDist)
    (fun e => e.setUpkeep (fun u => { u with
      neapTrig10 := neapTrig10, neapRes := neapRes, qfLim := qfLim, springDist := springDist }))) s

def execRefreshCfg (box drift10 hours : Nat) (s : State) : Host.Outcome State Fault Refusal :=
  fwCmd box (fun d => d.ranged box (inR 10 100 drift10 && inR 1 168 hours)
    (fun e => e.setUpkeep (fun u => { u with drift10 := drift10, hours := hours }))) s

/-- The sounding registers of a tile as a command sets them (R315); they are written at the next tide boundary. -/
def Die.soundSet (d : Die) (t frac k4 sysGain offAllow seed : Nat) : Die :=
  { d with upkeep := { d.upkeep with
    nextSound := keep d.upkeep.nextSound t (k4 * 2 ^ 16 + sysGain * 2 ^ 8 + offAllow * 2 ^ 4 + frac, seed) } }

/-- The sounding settings of a tile come into force. -/
def Die.soundForce (d : Die) (t w seed : Nat) : Die :=
  ((d.putW (Reg.SND_TILE_CTRL t) (w32 ((d.num (Reg.SND_TILE_CTRL t)) / 2 ^ 31 * 2 ^ 31 + w))).putW (Reg.SND_TILE_SEED t) (w32 seed)).modTile t
    (fun x => { x with seedPending := true })

/-- The tiles a command names: one, or all enabled ones. -/
def Die.tilesOf (d : Die) (t : Option Nat) : List Nat :=
  match t with
  | some k => if d.enabled k then [k] else []
  | none => d.enabledTiles

def execSoundCfg (box : Nat) (tile : Option Nat) (frac k4 sysGain offAllow seed : Nat) (s : State) :
    Host.Outcome State Fault Refusal :=
  fwCmd box (fun d => d.ranged box (!(d.tilesOf tile).isEmpty && inR 0 5 frac && inR 12 60 k4 && inR 0 255 sysGain &&
      inR 0 15 offAllow && inR 1 (2 ^ 32 - 1) seed)
    (fun e => (e.tilesOf tile).foldl (fun g t => g.soundSet t frac k4 sysGain offAllow seed) e)) s

def execUpkeepPolicy (box : Nat) (degraded : Bool) (repairLim100 : Nat) (s : State) : Host.Outcome State Fault Refusal :=
  fwCmd box (fun d => d.ranged box (inR 10 500 repairLim100)
    (fun e => e.setUpkeep (fun u => { u with degraded := degraded, repairLim100 := repairLim100 }))) s

/-- The arrays a calibration command names (R294, R299): SERVING, or READY, which its spring calibration can begin on at once. -/
def Die.calTargets (d : Die) (sc : CalScope) : List (Nat × Nat) :=
  (match sc with
    | .array t a => [(t, a)]
    | .tile t => (List.range 272).map (fun a => (t, a))
    | .module => (d.enabledTiles.map (fun t => (List.range 272).map (fun a => (t, a)))).flatten).filter
    (fun p => d.enabled p.1 && decide (p.2 < 272) && (d.arrState p.1 p.2 == asServing || d.arrState p.1 p.2 == asReady))

/-- Whether the scope names something that exists. -/
def Die.scopeOk (d : Die) (sc : CalScope) : Bool :=
  match sc with
  | .array t a => d.enabled t && decide (a < 272)
  | .tile t => d.enabled t
  | .module => true

/-- CAL_REQUEST: a neap calibration becomes due, a spring calibration joins the refresh queue, or the diode is read for an alignment
(R292), which is refused as busy while a table runs. -/
def Die.calRequest (d : Die) (box : Nat) (r : CalReq) : Die :=
  match r with
  | .neap sc =>
    d.ranged box (d.scopeOk sc) (fun e => (e.calTargets sc).foldl (fun g p => g.modCal p.1 p.2 (fun c => { c with neapDue := true })) e)
  | .spring sc => d.ranged box (d.scopeOk sc) (fun e => (e.calTargets sc).foldl (fun g p => g.springDue p.1 p.2 false) e)
  | .diode => if d.armed then d.reply box rcBusy []
    else ({ d with upkeep := { d.upkeep with alignAsk := true } }).readDiode.reply box rcOk []

def execCalRequest (box : Nat) (req : CalReq) (s : State) : Host.Outcome State Fault Refusal :=
  fwCmd box (fun d => d.calRequest box req) s

/-- The state of an array in UPKEEP_STATUS: tile, array, CAL_QF, m_a, watch, repairs held (log entry 33). -/
def Die.arrStatus (d : Die) (t a : Nat) : List Byte :=
  let c := d.cal t a
  natLe 1 t ++ natLe 1 (if c.condemned then 2 else b2n c.watch.isSome) ++ natLe 2 a ++ natLe 4 (d.num (Reg.CAL_QF t a)) ++
  natLe 2 (min 65535 (d.drift t a)) ++
  natLe 2 ((d.sparesUsed t a).length + (d.adjustments t a).length + (d.upkeep.ranks.filter (fun r => r.arr == arrIx t a)).length)

/-- UPKEEP_STATUS: per enabled tile EST, LASTCAL, usable arrays and TILE_SPARE; every array of those tiles and the stored reports, oldest
first, where asked for. -/
def Die.upkeepStatus (d : Die) (box : Nat) (arrays reports : Bool) : Die :=
  let tl := (d.enabledTiles.map (fun t => natLe 1 t ++ zeros 1 ++ natLe 2 (272 - d.lostArrays t) ++
    natLe 2 (d.figures t).1 ++ natLe 2 (d.figures t).2 ++ natLe 4 (d.spareWord t).toNat)).flatten
  let ar := if arrays then (d.enabledTiles.map (fun t => ((List.range 272).map (fun a => d.arrStatus t a)).flatten)).flatten else []
  let rp := if reports then d.upkeep.reports.reverse.flatten else []
  d.replyOut box rcOk (natLe 4 d.enabledTiles.length ++ natLe 4 (ar.length / 12) ++ natLe 4 (rp.length / 128)) (tl ++ ar ++ rp)

def execUpkeepStatus (box : Nat) (arrays reports : Bool) (s : State) : Host.Outcome State Fault Refusal :=
  fwCmd box (fun d => d.upkeepStatus box arrays reports) s

/-- A tide boundary of the running firmware: settings of R326 come into force, the refresh queue is brought up to date (R271, R278), and
claims that found no spare try again (R274). -/
def Die.upkeepBoundary (d : Die) : Die :=
  let d1 := d.upkeep.nextSound.foldl (fun e p => e.soundForce p.1 p.2.1 p.2.2) d
  let d2 := { d1 with upkeep := { d1.upkeep with set := d1.upkeep.next, nextSound := [] } }
  if d2.fwRuns then d2.dueBoundary.serveClaims d2.waitingClaims else d2

end Sys2Proof.Machine
end

