-- ==== Sys2Proof/Machine/Engine.lean ====
section
/-! DEFINITION. Tile engines (R170 to R190, R196 to R205, R580): dispatch, lane groups, the combine pipeline's intake, DRAM requests,
retirement, streams, stopping and the engine's registers. What each operation computes stands in the files after this one. -/
namespace Sys2Proof.Machine

/-! ### Executing descriptors -/

def Die.modExec (d : Die) (t : Nat) (p : Exec → Bool) (f : Exec → Exec) : Die :=
  d.modTile t (fun x => { x with execs := modFirst p f x.execs })

/-- The tile cycles of one reference cycle's inverse: 1, 2 or 4 (R222, R249). -/
def Die.clockDiv (d : Die) : Nat := 2 ^ d.get Reg.TIDE_THR_APPLIED_DIV

/-- One more descriptor has retired (R201). -/
def Die.countRetired (d : Die) (t : Nat) : Die := d.bump64 (Reg.ENG_DESC_RETIRED t 0) 1

/-- The event of a descriptor with EVT (R188). -/
def Die.evtEvent (d : Die) (t th : Nat) (c : Desc) : Die :=
  if descEvt c then d.emit (.firmware 7 [t, th, descTag c]) else d

/-- Marks the destination of a descriptor FULL, if it is a full/empty buffer and FE_DST is set (R188, R214). -/
def Die.markDst (d : Die) (t : Nat) (c : Desc) (poison : Bool) : Die :=
  if descFeDst c && hasOp c.d && d.rgnFE t (opRgn c.d) then d.mark t (opRgn c.d) true poison else d

/-- Empties the buffers of A and B, if FE_SRC is set (R188). -/
def Die.emptySrc (d : Die) (t : Nat) (c : Desc) : Die :=
  if descFeSrc c then
    [c.a, c.b].foldl (fun e w => if hasOp w && e.rgnFE t (opRgn w) then e.mark t (opRgn w) false false else e) d
  else d

/-- A pool descriptor that retires after its due tide (R178). -/
def Die.poolLate (d : Die) (t : Nat) (due : Option Nat) (tag : Nat) : Die :=
  match due with
  | none => d
  | some m =>
    if d.tideNum ≤ m then d
    else
      let d1 := (d.bump (⟨Reg.ENG_LATE_CNT t, 0, 32⟩) 1).raise (Reg.ENG_STATUS_LATE t)
      if (d.tile t).late then d1
      else (d1.modTile t (fun x => { x with late := true })).record 0x10 3 t 0xFFFF
        [(d1.getW (Reg.ENG_LATE_CNT t)).toNat, tag]

/-- What every descriptor of a thread does as it retires: its EVT event, the count, and lateness. -/
def Die.retired (d : Die) (t th : Nat) (c : Desc) (due : Option Nat) : Die :=
  ((d.evtEvent t th c).countRetired t).poolLate t due (descTag c)

/-- A malformed descriptor (R190): nothing runs; its destination is poisoned, it is counted, latched and recorded, and it retires. -/
def Die.malform (d : Die) (t th : Nat) (c : Desc) (due : Option Nat) : Die :=
  ((d.markDst t c true).tileFault t fkMalformed th (descOp c) 0xFF 0 (descTag c)).retired t th c due

/-! ### Stop (R198) -/

/-- A stop is complete once nothing executes; a deferred enable then takes force. -/
def Die.settleStop (d : Die) (t : Nat) : Die :=
  let x := d.tile t
  if !x.dispatching && x.stopping && x.execs.isEmpty && x.streams.isEmpty then
    let d1 := (d.raise (Reg.ENG_STATUS_STOPPED t)).modTile t (fun x => { x with stopping := false, enableDeferred := false })
    if x.enableDeferred then d1.raise (Reg.ENG_CTRL_ENABLE t) else d1
  else d

/-! ### Dispatch (R173, R176, R187, R307) -/

/-- A descriptor enters execution; COMBINE also enters the pipeline's queue (R176, R177). -/
def Die.startExec (d : Die) (t th : Nat) (c : Desc) (due : Option Nat) : Die :=
  d.modTile t (fun x => { x with
    execs := x.execs ++
      [{ thread := th, desc := c, waitLg := decide (lanesOf c ≠ 0), since := d.clock.quarter, due := due, id := x.nextId }],
    nextId := x.nextId + 1,
    pipe := if descOp c = ocCombine then x.pipe ++ [x.nextId] else x.pipe })

/-- The bytes a descriptor reads: its operands, and the entries of a page list after its header (R338). -/
def Die.readBytes (d : Die) (t : Nat) (c : Desc) : List Span :=
  d.readSpans t c ++
    (if (descOp c = ocAttn ∨ descOp c = ocKvWrite) ∧ (d.engRefuses t (opRgn c.b) (opOff c.b) 16 rightR).isNone = true then
      span c.b (16 + 4 * d.leMem (d.rgnAddr t (opRgn c.b) (opOff c.b + 4)) 4)
    else [])

/-- The bytes of a descriptor meet the destination of one that its thread still executes (R176). -/
def Die.overlaps (d : Die) (t th : Nat) (c : Desc) : Bool :=
  let mine := d.readBytes t c ++ d.dstSpans t c
  (d.execsOf t th).any (fun e => (d.dstSpans t e.desc).any (fun s => mine.any (fun m => m.meets s)))

/-- The descriptor that the hardware sets for a sounding item in slot `s` of the ring (R191, R308). -/
def Die.soundDesc (d : Die) (t s : Nat) : Desc :=
  let a := d.rgnAddr t 254 (1024 * s)
  { w0 := w32 (ocSound * 2 ^ 24 + d.leMem (a + 702) 2 % 1024 * 2 ^ 10), w1 := w32 (2 ^ 16), a := w32 (254 * 2 ^ 24 + 1024 * s),
    b := noOp, d := noOp, x := noOp, p1 := w32 (d.leMem (a + 704) 4), w7 := w32 (d.leMem (a + 694) 2) }

/-- A thread takes descriptor `c`, unless it must wait for an earlier one; `adv` takes it off its stream or queue. -/
def Die.takeDesc (d : Die) (t th : Nat) (c : Desc) (due : Option Nat) (adv : Die → Die) : Die :=
  if malformed c (d.threadClass t th) then (adv d).malform t th c due
  else if d.overlaps t th c then d
  else (adv d).startExec t th c due

/-- The next descriptor of a SCHED thread at offset `off` of region 0; a fetch that fails ends the stream (R187). -/
def Die.dispatchSched (d : Die) (t th off : Nat) : Die :=
  match d.engRefuses t 0 off 32 rightDS with
  | some k => (d.modTile t (fun x => { x with streams := amErase x.streams th })).tileFault t k th 0 0 off 0
  | none => (d.sramUse t (d.rgnOff t 0 + off) 32).takeDesc t th (d.descAt (d.rgnAddr t 0 off)) none
      (fun e => e.modTile t (fun x => { x with streams := keep x.streams th (off + 32) }))

/-- DESCRIPTOR_DISPATCH of a thread. -/
def Die.dispatch (d : Die) (t th : Nat) : Die :=
  match d.threadClass t th with
  | 1 => match look (d.tile t).streams th with
    | some off => d.dispatchSched t th off
    | none => d
  | 2 => match (d.tile t).pool with
    | p :: r => d.takeDesc t th p.desc p.due (fun e => e.modTile t (fun x => { x with pool := r }))
    | [] => d
  | 3 => match d.freshItems t with
    | s :: _ => d.takeDesc t th (d.soundDesc t s) none id
    | [] => d
  | _ => d

/-- Whether a thread may dispatch (R198: while a tile stops, a SCHED thread goes on to its TIDE_END): at most 8 descriptors execute, and none that the thread waits for. -/
def Die.mayDispatch (d : Die) (t th : Nat) : Bool :=
  d.tileRuns t && (d.tile t).ready && ((d.tile t).dispatching || ((d.tile t).stopping && d.threadClass t th == 1)) && decide (th < 64) &&
  decide ((d.execsOf t th).length < 8) && !(d.execsOf t th).any (fun e => holdsThread (descOp e.desc))

def execDescriptorDispatch (tile thread : Nat) (s : State) : Host.Outcome State Fault Refusal :=
  mainCmd (fun d => d.mayDispatch tile thread) (fun d => d.dispatch tile thread) s

/-! ### Lane groups (R175) -/

/-- Lane groups that no descriptor holds. -/
def Tile1.freeLanes (x : Tile1) : Nat := 8 - (x.execs.map (·.lgs)).sum

/-- Whether `e` is granted before `b`: class order, then the longest wait. -/
def Die.laneBefore (d : Die) (t : Nat) (e b : Exec) : Bool :=
  let ce := d.threadClass t e.thread
  let cb := d.threadClass t b.thread
  decide (ce < cb) || (ce == cb && decide (e.since < b.since))

/-- The descriptor to be served: the one with the reservation, or the first ready one in class order. -/
def Die.laneNext (d : Die) (t : Nat) : Option Exec :=
  let x := d.tile t
  let wait := x.execs.filter (fun e => e.waitLg)
  match x.reserve with
  | some k => wait.find? (fun e => e.id == k)
  | none => (wait.filter (fun e => e.ran || !d.bufHeld t e.desc)).foldl (fun b e => match b with
    | none => some e
    | some y => if d.laneBefore t e y then some e else some y) none

/-- LANE_GROUP_GRANT: a grant, or a reservation where too few lane groups are free. -/
def Die.laneGrant (d : Die) (t : Nat) : Die :=
  match d.laneNext t with
  | none => d
  | some e =>
    if lanesOf e.desc ≤ (d.tile t).freeLanes then
      (d.modExec t (fun y => y == e) (fun y => { y with waitLg := false, lgs := lanesOf e.desc })).modTile t
        (fun x => { x with reserve := none })
    else d.modTile t (fun x => { x with reserve := some e.id })

def execLaneGroupGrant (tile : Nat) (s : State) : Host.Outcome State Fault Refusal :=
  mainCmd (fun d => d.tileRuns tile) (fun d => d.laneGrant tile) s

/-- The descriptor of a thread with a TAG that `p` picks. -/
def ofTag (th tag : Nat) (p : Exec → Bool) (e : Exec) : Bool := e.thread == th && descTag e.desc == tag && p e

/-- GRANT_EXPIRY: the descriptor gives its lane groups back and waits again; SOUND keeps its own (R175, R311). -/
def execGrantExpiry (tile thread tag : Nat) (s : State) : Host.Outcome State Fault Refusal :=
  mainCmd (fun d => d.tileRuns tile)
    (fun d => d.modExec tile (ofTag thread tag (fun e => decide (0 < e.lgs) && descOp e.desc != ocSound))
      (fun e => { e with lgs := 0, waitLg := true, since := d.clock.quarter })) s

/-! ### DRAM requests (R179 to R181, R386) -/

/-- DRAM_REQUEST_ISSUE: the first waiting request of the class that is next takes a slot (R180, R202). The slot that is the tile DMA's
turn waits for the DMA's own beat. -/
def Die.reqIssue (d : Die) (t : Nat) : Die :=
  match d.nextClass t with
  | none => d
  | some .dma => d
  | some c =>
    let d1 := d.modTile t (fun x => { x with
      reqs := modFirst (fun r => !r.issued && r.cls == c) (fun r => { r with issued := true }) x.reqs })
    d1.atLeast (Reg.ENG_REQ_HWM_MAX t) (d1.slotsUsed t)

def execDramRequestIssue (tile : Nat) (s : State) : Host.Outcome State Fault Refusal :=
  mainCmd (fun d => d.tileRuns tile) (fun d => d.reqIssue tile) s

/-- What a completed request does: a write reaches DRAM; a read's data reach tile SRAM, as zeros with poison after an uncorrectable
error (R181, R196). A write's error completion (R390) poisons its descriptor's result too (DESIGN CHOICE, log entry 70). -/
def Die.reqEffect (d : Die) (t : Nat) (r : Req) : Die × Bool :=
  match r.write with
  | some bs => (d.putDram r.addr (bs.map some), d.mergeFails r.addr (bs.map some))
  | none =>
    let bad := d.rangePoison r.addr r.len
    let d1 := d.readReport r.addr r.len
    match r.sram with
    | some a => ((d1.sramUse t a r.len).setBytes (tileAddr t + a) (if bad then zeros r.len else d1.bytesAt r.addr r.len), bad)
    | none => (d1, bad)

/-- DRAM_REQUEST_COMPLETE of the request at place `i`. -/
def Die.reqComplete (d : Die) (t i : Nat) (r : Req) : Die :=
  let p := d.reqEffect t r
  (p.1.modTile t (fun x => { x with reqs := x.reqs.eraseIdx i })).modExec t
    (fun e => e.id == r.owner) (fun e => { e with reqs := e.reqs - 1, poison := e.poison || p.2 })

/-- A request in a slot completes while its stack accepts accesses (R392), and during a DRAM event if it was accepted before (R387). -/
def Die.canComplete (d : Die) (r : Req) : Bool :=
  r.issued && (!d.held r.addr || (r.accepted && d.stackUp (stackOf r.addr)))

def execDramRequestComplete (tile idx : Nat) (s : State) : Host.Outcome State Fault Refusal :=
  mainCmd (fun d => d.tileRuns tile && (match (d.tile tile).reqs[idx]? with | some r => d.canComplete r | none => false))
    (fun d => match (d.tile tile).reqs[idx]? with | some r => d.reqComplete tile idx r | none => d) s

/-- The class of a descriptor's requests (R180). -/
def Die.reqClass (d : Die) (t th op : Nat) : ReqClass :=
  if d.threadClass t th = 3 then .sound
  else if op = ocOutlier then .outl
  else if op = ocCorrZ ∨ op = ocCorrB then .corr
  else if d.threadClass t th = 2 then .pool
  else .sched

/-- A request of operation `op` on a thread of class `cls` may reach a range of DRAM (R385, R386): the general area; golden pages for
the fetches of OUTLIER and EXACT on a SCHED thread and of SOUND (R259; log entry 63); and the factor area for CORR_Z and CORR_B
(R257). -/
def tileReqOk (op cls a n : Nat) : Bool :=
  (isDram a && decide (a + n ≤ fwArea)) ||
  (((decide (op = ocOutlier ∨ op = ocExact) && cls == 1) || op == ocSound) &&
    decide (goldWeights 0 0 ≤ a) && decide (a + n ≤ goldFactors)) ||
  (decide (op = ocCorrZ ∨ op = ocCorrB) && decide (goldFactors ≤ a) && decide (a + n ≤ dramEnd))

/-! ### Retirement (R178, R188, R577) -/

/-- A descriptor whose work is over. -/
def Exec.finished (e : Exec) : Bool := e.ran && decide (e.reqs = 0) && !e.waitLg && e.blocks.isEmpty

/-- A descriptor retires: its FE_DST mark, its EVT event, and the counts. -/
def Die.retireExec (d : Die) (t : Nat) (e : Exec) : Die :=
  let d1 := d.modTile t (fun x => { x with execs := dropPick (fun y => y == e) x.execs })
  ((d1.markDst t e.desc e.poison).retired t e.thread e.desc e.due).settleStop t

/-- Whether injector 3 fires on a descriptor (R577). -/
def Die.lateInject (d : Die) (t : Nat) (e : Exec) : Bool :=
  let g := (d.getW (Reg.PTB_TARGET 3)).toNat
  e.lateUntil.isNone && d.ptbActive 3 && bits g 24 6 == t && bits g 0 16 == descTag e.desc

/-- Retirement, or the delay that injector 3 puts before it. -/
def Die.tryRetire (d : Die) (t : Nat) (e : Exec) : Die :=
  if d.lateInject t e then
    (d.ptbFire 3).modExec t (fun y => y == e)
      (fun y => { y with lateUntil := some (d.clock.quarter + d.get (Reg.PTB_AMOUNT_AMOUNT 3) * d.clockDiv) })
  else if (match e.lateUntil with | some u => decide (d.clock.quarter < u) | none => false) then d
  else d.retireExec t e

/-- DESCRIPTOR_RETIRE. -/
def Die.descRetire (d : Die) (t th tag : Nat) : Die :=
  match (d.tile t).execs.find? (ofTag th tag Exec.finished) with
  | some e => d.tryRetire t e
  | none => d

def execDescriptorRetire (tile thread tag : Nat) (s : State) : Host.Outcome State Fault Refusal :=
  mainCmd (fun d => d.tileRuns tile) (fun d => d.descRetire tile thread tag) s

/-! ### The combine pipeline's intake (R177, R194) -/

/-- A rejected record for a logical array that the map does not map (R194): PHYS 0x1FF, REJECT. -/
def rejectRecord (l : Nat) : Record :=
  { header := [0x1FF, l % 256 * 2 ^ 16 + 2 ^ 11, 0, 0], columns := List.replicate 512 0, offr := List.replicate 256 0,
    logical := l, tag := 0, layer := 0 }

/-- The arrays of a tile, other than the one that serves logical array `l`, that hold records or strokes of `l`. -/
def Die.outgoing (d : Die) (t l : Nat) : List (Nat × Array1) :=
  d.arrays.filter (fun p => p.1 / 272 == t && d.serving t l != some (p.1 % 272) &&
    (p.2.results.any (fun r => r.logical == l) || p.2.waiting.any (fun i => i.logical == l) ||
     p.2.flights.any (fun f => f.inp.logical == l)))

/-- The oldest record of logical array `l` and where it is taken from: the outgoing array first, then a rejected one, then the
array that serves it (R194); none while the one due is not complete. -/
def Die.nextRecord (d : Die) (t l : Nat) : Option (Record × Option Nat) :=
  let from_ (a : Nat) : Option (Record × Option Nat) :=
    match (d.arr t a).results.find? (fun r => r.logical == l) with
    | some r => some (r, some a)
    | none => none
  match d.outgoing t l with
  | p :: _ => from_ (p.1 % 272)
  | [] =>
    if (d.tile t).rejected.contains l then some (rejectRecord l, none)
    else match d.serving t l with
      | some a => from_ a
      | none => none

/-- The descriptor at the head of the pipeline. -/
def Die.pipeHead (d : Die) (t : Nat) : Option Exec :=
  match (d.tile t).pipe with
  | k :: _ => (d.tile t).execs.find? (fun e => e.id == k && descOp e.desc == ocCombine && !e.ran)
  | [] => none

/-- COMBINE_RECORD_ACCEPT: the head takes its next record and frees the buffer entry. -/
def Die.recordAccept (d : Die) (t : Nat) : Die :=
  match d.pipeHead t with
  | none => d
  | some e =>
    let i := e.recs.length
    if bit (descP0 e.desc) 2 || decide (descCount e.desc ≤ i) then d
    else
      let l := bits (descP0 e.desc) 8 8 + i
      match d.nextRecord t l with
      | none => d
      | some (r, src) =>
        let d1 := match src with
          | some a => d.modArr t a (fun x => { x with results := dropPick (fun y => y.logical == l) x.results })
          | none => d.modTile t (fun x => { x with rejected := dropPick (fun y => y == l) x.rejected })
        d1.modExec t (fun y => y == e) (fun y => { y with recs := y.recs ++ [r] })

def execCombineRecordAccept (tile : Nat) (s : State) : Host.Outcome State Fault Refusal :=
  mainCmd (fun d => d.tileRuns tile) (fun d => d.recordAccept tile) s

/-! ### SRAM after a reset (R183) -/

/-- SRAM_ZERO_COMPLETE: SRAM reads zero, every full/empty and poison state is clear, every region invalid. -/
def Die.zeroSram (d : Die) (t : Nat) : Die :=
  ((d.dropMem (within (tileAddr t) (tileAddr t + 0x800000))).resetRegs (within (Reg.ENG_RGN_BASE t 0) (Reg.ENG_RGN_BASE t 0 + 0x1000))).modTile t
    (fun x => { x with fe := [], ready := true })

def execSramZeroComplete (tile : Nat) (s : State) : Host.Outcome State Fault Refusal :=
  mainCmd (fun d => d.enabled tile && !(d.tile tile).ready && !d.tileHeld tile) (fun d => d.zeroSram tile) s

/-! ### Registers (R184, R198, R200, R202, R203) -/

/-- Whether a region that the words name as valid overlaps another valid one or runs past the SRAM. -/
def Die.rgnBad (d : Die) (t r base size : Nat) : Bool :=
  decide (131072 < base + size) ||
  (List.range 255).any (fun q => q != r && d.rgnValid t q &&
    decide (base < d.get (Reg.ENG_RGN_BASE_BASE t q) + d.get (Reg.ENG_RGN_LIMIT_SIZE t q)) &&
    decide (d.get (Reg.ENG_RGN_BASE_BASE t q) < base + size))

/-- RGN_WRITE (R184). -/
def Die.rgnWrite (d : Die) (ag : Agent) (t r : Nat) (limit : Bool) (word : Nat) : Die :=
  let a := if limit then Reg.ENG_RGN_LIMIT t r else Reg.ENG_RGN_BASE t r
  if d.armed then d.busy ag a word
  else
    let d1 := d.plainWrite ag a word t
    if d1.rgnValid t r && d1.rgnBad t r (d1.get (Reg.ENG_RGN_BASE_BASE t r)) (d1.get (Reg.ENG_RGN_LIMIT_SIZE t r)) then
      (d1.clear (Reg.ENG_RGN_LIMIT_VALID t r)).record 0x10 4 t 0xFFFF [r]
    else d1

def execRgnWrite (ag : Agent) (tile rgn : Nat) (limit : Bool) (word : Nat) (s : State) : Host.Outcome State Fault Refusal :=
  tileCmd ag tile (if limit then Reg.ENG_RGN_LIMIT tile rgn else Reg.ENG_RGN_BASE tile rgn) word (decide (rgn < 255))
    (fun d => d.rgnWrite ag tile rgn limit (word % 2 ^ 32)) s

/-- ENG_CTRL.ENABLE written (R198). -/
def Die.engEnable (d : Die) (ag : Agent) (t : Nat) (en : Bool) : Die := (d.setEnable t en).answer ag stOk

def execEngEnableWrite (ag : Agent) (tile : Nat) (enable : Bool) (s : State) : Host.Outcome State Fault Refusal :=
  tileCmd ag tile (Reg.ENG_CTRL tile) (b2n enable) true (fun d => d.engEnable ag tile enable) s

def execEngCntClr (ag : Agent) (tile : Nat) (s : State) : Host.Outcome State Fault Refusal :=
  tileCmd ag tile (Reg.ENG_CTRL tile) (2 ^ 31) true (fun d => (d.raise (Reg.ENG_CTRL_CNT_CLR tile)).answer ag stOk) s

/-- The three fault registers cleared, the latch armed again (R200). -/
def Die.faultClear (d : Die) (ag : Agent) (t : Nat) : Die :=
  (((d.putW (Reg.ENG_FAULT_INFO0 t) 0).putW (Reg.ENG_FAULT_INFO1 t) 0).putW (Reg.ENG_FAULT_INFO2 t) 0).answer ag stOk

def execFaultInfoClear (ag : Agent) (tile : Nat) (s : State) : Host.Outcome State Fault Refusal :=
  tileCmd ag tile (Reg.ENG_FAULT_INFO0 tile) (2 ^ 31) true (fun d => d.faultClear ag tile) s

def execReqHwmClr (ag : Agent) (tile : Nat) (s : State) : Host.Outcome State Fault Refusal :=
  tileCmd ag tile (Reg.ENG_REQ_HWM tile) (2 ^ 31) true (fun d => (d.clear (Reg.ENG_REQ_HWM_MAX tile)).answer ag stOk) s

/-- ENG_THREAD[th].CLASS written (R203). -/
def Die.threadClassWrite (d : Die) (ag : Agent) (t th cls : Nat) : Die :=
  if d.armed then d.busy ag (Reg.ENG_THREAD t th) (cls % 4 * 16)
  else (d.put (Reg.ENG_THREAD_CLASS t th) cls).answer ag stOk

def execThreadClassWrite (ag : Agent) (tile thread cls : Nat) (s : State) : Host.Outcome State Fault Refusal :=
  tileCmd ag tile (Reg.ENG_THREAD tile thread) (cls % 4 * 16) (decide (thread < 64))
    (fun d => d.threadClassWrite ag tile thread cls) s

/-! ### At a tide boundary (R187, R198, R201) -/

/-- Every SCHED thread of a tile waits at TIDE_END or has no stream (R212). -/
def Die.schedDone (d : Die) (t : Nat) : Bool :=
  (d.tile t).streams.isEmpty && (d.tile t).execs.all (fun e => decide (d.threadClass t e.thread ≠ 1))

/-- The stream of one thread starts: its index entry is read (R187, R231). -/
def Die.startStream (d : Die) (t th nSched pos : Nat) : Die :=
  let off := 4 * (pos * nSched + th)
  match d.engRefuses t 0 off 4 rightDS with
  | some k => d.tileFault t k th 0 0 off 0
  | none =>
    let w := d.leMem (d.rgnAddr t 0 off) 4
    if w = 0xFFFFFFFF then d.sramUse t (d.rgnOff t 0 + off) 4 else (d.sramUse t (d.rgnOff t 0 + off) 4).modTile t (fun x => { x with streams := keep x.streams th (32 * (w % 2 ^ 24)) })

/-- Every SCHED thread of a tile starts its stream for position `pos`. -/
def Die.startStreams (d : Die) (t nSched pos : Nat) : Die :=
  (List.range nSched).foldl (fun e th => e.startStream t th nSched pos) d

/-- ENABLE takes force, counters asked to be cleared are cleared, and a tide in which every SCHED thread reached TIDE_END is
counted (`done`). -/
def Die.engBoundary (d : Die) (t : Nat) (done : Bool) : Die :=
  let d0 := if done then d.bumpWrap (Reg.ENG_TIDE_DONE_COUNT t) 1 else d
  let d1 := if d0.on (Reg.ENG_CTRL_CNT_CLR t) then
      (([Reg.ENG_FAULT_CNT t, Reg.ENG_BADDESC_CNT t, Reg.ENG_LATE_CNT t].foldl (fun e r => e.putW r 0) d0).clear
        (Reg.ENG_CTRL_CNT_CLR t)).modTile t (fun x => { x with bankSince := d.clock.aging, banks := List.replicate 32 0 })
    else d0
  let d2 := d1.modTile t (fun x => { x with late := false })
  if d2.on (Reg.ENG_CTRL_ENABLE t) then
    (d2.clear (Reg.ENG_STATUS_STOPPED t)).modTile t (fun x => { x with dispatching := true })
  else
    (d2.modTile t (fun x => { x with stopping := x.stopping || x.dispatching, dispatching := false })).settleStop t

/-- The arithmetic counters and tables cleared at the boundary after CNT_CLR (R163). -/
def Die.arithBoundary (d : Die) (t : Nat) : Die :=
  if d.on (Reg.ENG_ARITH_CTRL_CNT_CLR t) then
    let lo := tileAddr t + 0x900010
    let hi := tileAddr t + 0x920000
    ({ d with regs := d.regs.filter (fun p => !(within lo (tileAddr t + 0x900034) p.1 || within (tileAddr t + 0x901000) hi p.1)) }).clear
      (Reg.ENG_ARITH_CTRL_CNT_CLR t)
  else d

end Sys2Proof.Machine
end

