-- ==== Sys2Proof/Machine/EngineMove.lean ====
section
/-! DEFINITION. How an operation runs (R181, R186, R196, R214), and the operations that move data and control threads (R191: 0x00 to
0x0A). -/
namespace Sys2Proof.Machine

/-! ### Running an operation -/

/-- What an operation leaves: the die, whether an output depends on poison, DRAM requests it has made, code blocks still to be
written, and whether its work is done. -/
structure Done where
  d : Die
  bad : Bool := false
  reqs : Nat := 0
  blocks : List (List Byte) := []
  units : Nat := 0
  drained : Bool := true

/-- The descriptor an operation works for: tile, thread, words, the operands whose read or write is refused, and its number. -/
structure Cur where
  t : Nat
  th : Nat
  c : Desc
  noRead : List Span := []
  noWrite : List Span := []
  id : Nat := 0

/-- An operand is among the refused ones. -/
def refusedIn (l : List Span) (w : Word) : Bool := l.any (fun s => s.rgn == opRgn w && s.off == opOff w)

/-- One refused access: a fault, and the list of refused operands with it. -/
def Die.checkSpan (d : Die) (u : Cur) (right : Nat) (no : List Span) (s : Span) : Die × List Span :=
  match d.engRefuses u.t s.rgn s.off s.len right with
  | some k => (d.tileFault u.t k u.th (descOp u.c) s.rgn s.off (descTag u.c), no ++ [s])
  | none => (d, no)

/-- The accesses of a descriptor are checked, each operand as one access from its region and offset (R185, R186): every refused one
is a fault. -/
def Die.checkOps (d : Die) (t th : Nat) (c : Desc) : Die × Cur :=
  let u : Cur := { t := t, th := th, c := c }
  let rd := if descOp c = ocPost then rightDS else rightR
  let r := (d.readSpans t c).eraseDups.foldl (fun p s => p.1.checkSpan u rd p.2 s) (d, [])
  let w := (d.dstSpans t c).eraseDups.foldl (fun p s => p.1.checkSpan u rightW p.2 s) (r.1, [])
  (w.1, { u with noRead := r.2, noWrite := w.2 })

/-- The accesses of a descriptor to the banks of its tile, but for refused ones (R182). -/
def Die.useOps (d : Die) (u : Cur) : Die :=
  ((d.readBytes u.t u.c).filter (fun s => !u.noRead.contains s) ++ (d.dstSpans u.t u.c).filter (fun s => !u.noWrite.contains s)).foldl
    (fun e s => e.sramUse u.t (d.rgnOff u.t s.rgn + s.off) s.len) d

/-- Reads `len` bytes at `off` of an operand (R185, R186, R217): none where its access was refused, or is refused now, which is a
fault, or where the buffer is poisoned. -/
def Die.engReadAs (d : Die) (u : Cur) (right : Nat) (w : Word) (off len : Nat) : Die × Option (List Byte) :=
  let o := opOff w + off
  if refusedIn u.noRead w then (d, none)
  else
    match d.engRefuses u.t (opRgn w) o len right with
    | some k => (d.tileFault u.t k u.th (descOp u.c) (opRgn w) o (descTag u.c), none)
    | none =>
      if d.rgnFE u.t (opRgn w) && d.isPoison u.t (opRgn w) then (d, none)
      else (d, some (d.bytesAt (d.rgnAddr u.t (opRgn w) o) len))

def Die.engRead (d : Die) (u : Cur) (w : Word) (off len : Nat) : Die × Option (List Byte) := d.engReadAs u rightR w off len

/-- Writes bytes at `off` of an operand; a refused write changes nothing. -/
def Die.engWrite (d : Die) (u : Cur) (w : Word) (off : Nat) (bs : List Byte) : Die :=
  let o := opOff w + off
  if refusedIn u.noWrite w then d
  else
    match d.engRefuses u.t (opRgn w) o bs.length rightW with
    | some k => d.tileFault u.t k u.th (descOp u.c) (opRgn w) o (descTag u.c)
    | none => d.setBytes (d.rgnAddr u.t (opRgn w) o) bs

/-- Runs the units 0 to n - 1, and says whether one of them met poison. -/
def Die.units (d : Die) (n : Nat) (f : Die → Nat → Die × Bool) : Done :=
  (List.range n).foldl (fun r i => let p := f r.d i; { d := p.1, bad := r.bad || p.2 }) { d := d }

/-- The first descriptor of thread `th` with words `c` that can run now (R174, R175, R214). -/
def Die.runnable (d : Die) (t th : Nat) (c : Desc) : Option Exec :=
  match (d.tile t).execs.find? (fun e => e.thread == th && e.desc == c && !e.ran && !e.waitLg && decide (e.reqs = 0)) with
  | some e => if d.bufHeld t c then none else some e
  | none => none

/-- Carries out an operation on the descriptor that can run: its outcome is kept with the descriptor, and the buffers of A and
B are emptied where FE_SRC asks for it. Each refused access is one fault, however often the operation goes on; a refused write leaves a
destination without its data, so a buffer that FE_DST marks full is poisoned (R186). -/
def Die.runOp (d : Die) (t th : Nat) (c : Desc) (f : Die → Cur → Exec → Done) : Die :=
  match d.runnable t th c with
  | none => d
  | some e =>
    let k := d.checkOps t th c
    let r := f (if e.checked then d else k.1.useOps k.2) { k.2 with id := e.id } e
    let d1 := if r.drained then r.d.emptySrc t c else r.d
    d1.modExec t (fun y => y == e) (fun y => { y with
      ran := r.drained, poison := y.poison || r.bad || !k.2.noWrite.isEmpty, checked := true, reqs := r.reqs, blocks := r.blocks,
      units := r.units })

/-- The requests of a descriptor that reads DRAM are made first; with none refused it runs once all have returned. -/
def Die.runFetch (d : Die) (t th : Nat) (c : Desc) (asks : Die → Cur → List (Nat × Nat)) (f : Die → Cur → Exec → Done) : Die :=
  match d.runnable t th c with
  | none => d
  | some e =>
    let l := if e.asked then [] else (asks d { t := t, th := th, c := c }).filter (fun p => tileReqOk (descOp c) (d.threadClass t th) p.1 p.2)
    if l.isEmpty then d.runOp t th c f
    else
      (d.modTile t (fun x => { x with reqs := x.reqs ++ l.map (fun p =>
        { cls := d.reqClass t th (descOp c), thread := th, tag := descTag c, addr := p.1, len := p.2, owner := e.id }) })).modExec t
        (fun y => y == e) (fun y => { y with asked := true, reqs := l.length })

/-- A command that runs an operation: the tile runs and the words carry its opcode. -/
def opCmd (op tile : Nat) (c : Desc) (f : Die → Die) (s : State) : Host.Outcome State Fault Refusal :=
  mainCmd (fun d => d.tileRuns tile && descOp c == op) f s

/-- A range of DRAM that a descriptor's requests may reach. -/
def Die.reqAllowed (d : Die) (u : Cur) (a n : Nat) : Bool := tileReqOk (descOp u.c) (d.threadClass u.t u.th) a n

/-- DRAM bytes that an operation uses (R143, R196, R386): none where the range is refused, which is a fault, or after an
uncorrectable error. -/
def Die.dramRead (d : Die) (u : Cur) (a n : Nat) : Die × Option (List Byte) :=
  if !d.reqAllowed u a n then (d.tileFault u.t fkRight u.th (descOp u.c) 0xFF 0 (descTag u.c), none)
  else if d.rangePoison a n then (d, none)
  else (d, some (d.bytesAt a n))

/-! ### NOP, COPY, FILL -/

def execNop (tile thread : Nat) (c : Desc) (s : State) : Host.Outcome State Fault Refusal :=
  opCmd ocNop tile c (fun d => d.runOp tile thread c (fun d _ _ => { d := d })) s

/-- One 64-byte unit of COPY: poisoned bytes are written as zero (R196). -/
def Die.copyUnit (d : Die) (u : Cur) (i : Nat) : Die × Bool :=
  let p := d.engRead u u.c.a (64 * i) 64
  (p.1.engWrite u u.c.d (64 * i) (p.2.getD (zeros 64)), p.2.isNone)

def execCopy (tile thread : Nat) (c : Desc) (s : State) : Host.Outcome State Fault Refusal :=
  opCmd ocCopy tile c (fun d => d.runOp tile thread c (fun d u _ => d.units (descCount c) (fun e i => e.copyUnit u i))) s

/-- 64 bytes of a repeated 32-bit pattern. -/
def pattern64 (p1 : Nat) : List Byte := (List.replicate 16 (natLe 4 p1)).flatten

def execFill (tile thread : Nat) (c : Desc) (s : State) : Host.Outcome State Fault Refusal :=
  opCmd ocFill tile c (fun d => d.runOp tile thread c (fun d u _ =>
    d.units (descCount c) (fun e i => (e.engWrite u c.d (64 * i) (pattern64 (descP1 c)), false)))) s

/-! ### LOAD and STORE -/

/-- Adds a request of the descriptor. -/
def Die.ask (d : Die) (u : Cur) (a n : Nat) (write : Option (List Byte)) (sram : Option Nat) : Die :=
  d.modTile u.t (fun x => { x with reqs := x.reqs ++
    [{ cls := d.reqClass u.t u.th (descOp u.c), thread := u.th, tag := descTag u.c, addr := a, len := n, write := write,
       sram := sram, owner := u.id }] })

/-- The device address of unit `i`: its number, or the index that the list at X gives, added to the base; none where the list
cannot be read. -/
def Die.unitAt (d : Die) (u : Cur) (i : Nat) : Die × Option Nat :=
  let sz := loadUnit (descP0 u.c)
  if hasOp u.c.x then
    let p := d.engRead u u.c.x (4 * i) 4
    (p.1, p.2.map (fun bs => unitAddr (descP1 u.c) + sz * leNat bs))
  else (d, some (unitAddr (descP1 u.c) + sz * i))

/-- One unit of LOAD: a read request into D, where the write is allowed (R186, R386). -/
def Die.loadOne (d : Die) (u : Cur) (i : Nat) : Die × Bool × Nat :=
  let sz := loadUnit (descP0 u.c)
  let p := d.unitAt u i
  let o := opOff u.c.d + sz * i
  match p.2 with
  | none => (p.1.engWrite u u.c.d (sz * i) (zeros sz), true, 0)
  | some a =>
    if !p.1.reqAllowed u a sz then
      ((p.1.tileFault u.t fkRight u.th ocLoad 0xFF 0 (descTag u.c)).engWrite u u.c.d (sz * i) (zeros sz), true, 0)
    else
      if refusedIn u.noWrite u.c.d then (p.1, false, 0)
      else (p.1.ask u a sz none (some (p.1.rgnOff u.t (opRgn u.c.d) + o)), false, 1)

/-- One unit of STORE: a write request with the bytes of A, poisoned ones as zero (R196). -/
def Die.storeOne (d : Die) (u : Cur) (i : Nat) : Die × Bool × Nat :=
  let sz := loadUnit (descP0 u.c)
  let p := d.unitAt u i
  let q := p.1.engRead u u.c.a (sz * i) sz
  match p.2 with
  | none => (q.1, true, 0)
  | some a =>
    if !q.1.reqAllowed u a sz then (q.1.tileFault u.t fkRight u.th ocStore 0xFF 0 (descTag u.c), false, 0)
    else (q.1.ask u a sz (some (q.2.getD (zeros sz))) none, q.2.isNone, 1)

/-- The units of a LOAD or STORE, with the number of requests they make. -/
def Die.moveUnits (d : Die) (n : Nat) (f : Die → Nat → Die × Bool × Nat) : Done :=
  (List.range n).foldl (fun r i => let p := f r.d i; { d := p.1, bad := r.bad || p.2.1, reqs := r.reqs + p.2.2 }) { d := d }

def execLoad (tile thread : Nat) (c : Desc) (s : State) : Host.Outcome State Fault Refusal :=
  opCmd ocLoad tile c (fun d => d.runOp tile thread c (fun d u _ => d.moveUnits (descCount c) (fun e i => e.loadOne u i))) s

def execStore (tile thread : Nat) (c : Desc) (s : State) : Host.Outcome State Fault Refusal :=
  opCmd ocStore tile c (fun d => d.runOp tile thread c (fun d u _ => d.moveUnits (descCount c) (fun e i => e.storeOne u i))) s

/-! ### Buffers, streams, events -/

/-- BUF_WAIT: it runs once its buffer is as it waits for (R214); a region that is no full/empty buffer never holds it. -/
def execBufWait (tile thread : Nat) (c : Desc) (s : State) : Host.Outcome State Fault Refusal :=
  opCmd ocBufWait tile c (fun d => d.runOp tile thread c (fun d _ _ => { d := d })) s

def Die.bufSet (d : Die) (t : Nat) (c : Desc) : Die :=
  if d.rgnFE t (opRgn c.d) then d.mark t (opRgn c.d) (!bit (descP0 c) 0) (bit (descP0 c) 1) else d

def execBufSet (tile thread : Nat) (c : Desc) (s : State) : Host.Outcome State Fault Refusal :=
  opCmd ocBufSet tile c (fun d => d.runOp tile thread c (fun d _ _ => { d := d.bufSet tile c })) s

/-- TIDE_END: the stream ends once every earlier descriptor of the thread has retired (R187). -/
def execTideEnd (tile thread : Nat) (c : Desc) (s : State) : Host.Outcome State Fault Refusal :=
  opCmd ocTideEnd tile c (fun d =>
    if (d.execsOf tile thread).length = 1 then
      d.runOp tile thread c (fun d _ _ => { d := d.modTile tile (fun x => { x with streams := amErase x.streams thread }) })
    else d) s

def execEvent (tile thread : Nat) (c : Desc) (s : State) : Host.Outcome State Fault Refusal :=
  opCmd ocEvent tile c (fun d => d.runOp tile thread c (fun d _ _ =>
    { d := d.emit (.firmware 8 [tile, thread, descTag c, descP1 c]) })) s

/-- DMA_START: a tile DMA channel takes the channel descriptor at A (R401); it waits while the channel is not IDLE. -/
def Die.dmaStart (d : Die) (u : Cur) (ch : Nat) : Done :=
  let e : DmaEng := .tile u.t
  let p := d.engRead u u.c.a 0 32
  match p.2 with
  | some bs =>
    { d := p.1.dmaBegin e ch (newRun (.tileProgram u.t) (leAt bs 0 8) (leAt bs 8 8) (leAt bs 16 4) (leAt bs 20 4) (leAt bs 24 8)) }
  | none =>
    { d := ((p.1.put (chState e ch) 2).raise (dmaActiveF e ch)).putRun e ch { newRun (.tileProgram u.t) 0 0 0 0 0 with result := 6 } }

def execDmaStart (tile thread : Nat) (c : Desc) (s : State) : Host.Outcome State Fault Refusal :=
  opCmd ocDmaStart tile c (fun d =>
    if d.get (chState (.tile tile) (descP0 c)) = 0 then d.runOp tile thread c (fun d u _ => d.dmaStart u (descP0 c)) else d) s

/-- POST copies descriptors into the pool queue until it is full (R178, R204). A unit whose source is refused or poisoned posts nothing, and
POST goes on with the next (DESIGN CHOICE, log entry 56). -/
def Die.postUnits (d : Die) (u : Cur) (n : Nat) (done : Nat) : Die × Bool × Nat :=
  match n with
  | 0 => (d, false, done)
  | k + 1 =>
    if 256 ≤ (d.tile u.t).pool.length then (d.raise (Reg.ENG_STATUS_POOL_FULL u.t), false, done)
    else
      let p := d.engReadAs u rightDS u.c.a (32 * done) 32
      match p.2 with
      | none => let r := p.1.postUnits u k (done + 1); (r.1, true, r.2.2)
      | some bs =>
        let w (i : Nat) : Word := w32 (leAt bs (4 * i) 4)
        let c : Desc := { w0 := w 0, w1 := w 1, a := w 2, b := w 3, d := w 4, x := w 5, p1 := w 6, w7 := w 7 }
        let due := if descDue c = 0 then none else some (p.1.tideNum + descDue c)
        let d1 := p.1.modTile u.t (fun x => { x with pool := x.pool ++ [⟨c, due⟩] })
        (d1.atLeast (Reg.ENG_POOL_STATUS_MAX u.t) (d1.tile u.t).pool.length).postUnits u k (done + 1)

def execPost (tile thread : Nat) (c : Desc) (s : State) : Host.Outcome State Fault Refusal :=
  opCmd ocPost tile c (fun d => d.runOp tile thread c (fun d u e =>
    let r := d.postUnits u (descCount c - e.units) e.units
    { d := r.1, bad := r.2.1, units := r.2.2, drained := r.2.2 == descCount c })) s

end Sys2Proof.Machine
end

