-- ==== Sys2Proof/Machine/EngineArray.lean ====
section
/-! DEFINITION. The operations around the arrays (R131 to R143, R151 to R161, R191 to R194): rotation, quantisation, strokes, the
outlier side path, the correction, the combine, exact mode and vector sums. -/
namespace Sys2Proof.Machine

/-! ### Shared -/

/-- Results written as poison from inputs that were not poisoned are counted (R129). -/
def Die.countNonfinite (d : Die) (t n : Nat) : Die :=
  if n = 0 then d else (d.bump (Reg.ENG_NONFINITE_CNT_COUNT t) n).raise (Reg.ENG_ARITH_STATUS_NONFINITE t)

/-- Outputs of a unit: with a poisoned input all are poison; else those that are no finite number, with a count (R129). -/
def Die.engOut (d : Die) (t : Nat) (tainted : Bool) (l : List Word) : Die × List Word × Bool :=
  if tainted then (d, l.map (fun _ => fpPoison), true)
  else
    let n := (l.filter fpBad).length
    (d.countNonfinite t n, l.map fpOut, decide (0 < n))

/-- A vector as the engine holds it: poison is tracked for each 32-element block, so that one poisoned element poisons its block
(R129). -/
def poisonBlocks (l : List Word) : List Word :=
  ((List.range ((l.length + 31) / 32)).map (fun k =>
    let b := (l.drop (32 * k)).take 32
    if b.any fpBad then List.replicate b.length fpPoison else b)).flatten

/-- `n` FP32 words from bytes; poison where there are none. -/
def wordsIn (bs : Option (List Byte)) (n : Nat) : List Word :=
  match bs with
  | some l => poisonBlocks ((List.range n).map (wordAt l))
  | none => List.replicate n fpPoison

/-- `n` BF16 elements from bytes, widened. -/
def bfsIn (bs : Option (List Byte)) (n : Nat) : List Word :=
  match bs with
  | some l => poisonBlocks ((List.range n).map (bfAt l))
  | none => List.replicate n fpPoison

/-! ### ROTATE (R133) -/

def Die.rotateUnit (d : Die) (u : Cur) (i : Nat) : Die × Bool :=
  let bf := bit (descP0 u.c) 0
  let p := d.engRead u u.c.a ((if bf then 1024 else 2048) * i) (if bf then 1024 else 2048)
  let x := if bf then bfsIn p.2 512 else wordsIn p.2 512
  let r := p.1.engOut u.t (x.any fpBad) (rotateBlock x (descP1 u.c) (bits (descP0 u.c) 4 12 + i))
  (r.1.engWrite u u.c.d (2048 * i) (wordsBytes r.2.1), r.2.2)

def execRotate (tile thread : Nat) (c : Desc) (s : State) : Host.Outcome State Fault Refusal :=
  opCmd ocRotate tile c (fun d => d.runOp tile thread c (fun d u _ => d.units (descCount c) (fun e i => e.rotateUnit u i))) s

/-! ### QUANT_A and LOAD_INPUT (R135 to R138, R192) -/

/-- A quantised block: codes, scale, outliers found, ranking (row, excess), and its flags. -/
structure CodeBlock where
  codes : List Int
  scale : Word
  nout : Nat := 0
  ranking : List (Nat × Word) := []
  poison : Bool := false
  zero : Bool := false
  aw4 : Bool
  raw : Bool := false

/-- The 1,024 bytes of a code block (R192). -/
def CodeBlock.bytes (b : CodeBlock) : List Byte :=
  (List.range 512).map (fun i => b8 (enc 8 (b.codes.getD i 0))) ++ natLe 4 b.scale.toNat ++ natLe 2 b.nout ++
  natLe 2 (b2n b.poison + 2 * b2n b.zero + 4 * b2n b.aw4 + 8 * b2n b.raw) ++ zeros 8 ++
  ((List.range 32).map (fun k => match b.ranking[k]? with
    | some (r, e) => natLe 2 r ++ zeros 2 ++ natLe 4 e.toNat
    | none => natLe 2 0xFFFF ++ zeros 6)).flatten ++ zeros 240

/-- An outlier goes before another in the ranking: larger excess, then lower row (R139). -/
def ranksBefore (x y : Nat × Word) : Bool :=
  fpLt (fpAbs y.2) (fpAbs x.2) || (fpKey (fpAbs x.2) == fpKey (fpAbs y.2) && decide (x.1 < y.1))

def insertRank (l : List (Nat × Word)) (x : Nat × Word) : List (Nat × Word) :=
  match l with
  | [] => [x]
  | y :: r => if ranksBefore x y then x :: y :: r else y :: insertRank r x

/-- The code and the excess of one element (R136). -/
def quantElement (r s rr : Word) (q : Nat) : Int × Option Word :=
  let raw := fpRound (fpMul r rr)
  let code := clampI (-(q : Int)) q raw
  if raw = code then (code, none) else (code, some (fpSub r (fpMul (fpOfInt code) s)))

/-- The sum of squares of R135, in row order. -/
def sumSquares (r : List Word) : Word := r.foldl (fun s x => fpAdd s (fpMul x x)) 0

/-- How a block's clamp came out: poisoned input, an overflow of the sum of squares, a zero activation block, or its scale and
reciprocal (R135 to R137). -/
inductive Clamp where
  | poison | overflow | zero
  | scale (s rr : Word)

def clampOf (r : List Word) (k16 q : Nat) : Clamp :=
  if r.any fpBad then .poison
  else
    let ss := sumSquares r
    if fpBad ss then .overflow
    else
      let c := fpMul (fpSqrt (fpMul ss (fpPow2 (-9)))) (fpMul (fpOfInt k16) (fpPow2 (-4)))
      let rr := fpDiv (fpOfInt q) c
      if fpAbs c == 0 || fpBad rr then .zero else .scale (fpDiv c (fpOfInt q)) rr

/-- The code block of a rotated block, with the counts of R135 and R137. -/
def Die.quantBlock (d : Die) (t : Nat) (r : List Word) (k16 : Nat) (aw4 : Bool) : Die × CodeBlock :=
  let q := if aw4 then 7 else 127
  let none0 := List.replicate 512 (0 : Int)
  match clampOf r k16 q with
  | .poison => (d, { codes := none0, scale := 0, poison := true, aw4 := aw4 })
  | .overflow => ((d.bump (Reg.ENG_RMS_OVF_CNT_COUNT t) 1).raise (Reg.ENG_ARITH_STATUS_RMS_OVF t),
      { codes := none0, scale := 0, poison := true, aw4 := aw4 })
  | .zero => (d.bump (Reg.ENG_A_ZERO_CNT_COUNT t) 1, { codes := none0, scale := 0, zero := true, aw4 := aw4 })
  | .scale s rr =>
    let els := r.map (fun x => quantElement x s rr q)
    let outs := ((List.range 512).zip els).filterMap (fun p => p.2.2.map (fun e => (p.1, e)))
    (d, { codes := els.map (·.1), scale := s, nout := outs.length, ranking := (outs.foldl insertRank []).take 32, aw4 := aw4 })

/-- QUANT_A: every unit's code block is formed, to be written at its cycle (R580). -/
def Die.quantA (d : Die) (u : Cur) : Done :=
  let aw4 := bit (descP0 u.c) 0
  let k := bits (descP0 u.c) 8 8
  let k16 := if k = 0 then d.get (Reg.ENG_ARITH_CTRL_DEF_K16 u.t) else k
  (List.range (descCount u.c)).foldl (fun r i =>
    let p := r.d.engRead u u.c.a (2048 * i) 2048
    let q := p.1.quantBlock u.t (wordsIn p.2 512) k16 aw4
    { r with d := q.1, bad := r.bad || q.2.poison, blocks := r.blocks ++ [q.2.bytes] }) { d := d }

def execQuantA (tile thread : Nat) (c : Desc) (s : State) : Host.Outcome State Fault Refusal :=
  opCmd ocQuantA tile c (fun d => d.runOp tile thread c (fun d u _ => d.quantA u)) s

/-- A code block of QUANT_A is written, unless the access to D was refused when the operation ran. -/
def Die.quantPut (d : Die) (t : Nat) (c : Desc) (off : Nat) (bs : List Byte) : Die :=
  if (d.engRefuses t (opRgn c.d) (opOff c.d) (1024 * descCount c) rightW).isSome then d
  else d.setBytes (d.rgnAddr t (opRgn c.d) (opOff c.d + off)) bs

/-- QUANT_A_UNIT_DONE: the next code block is written; with the last one the descriptor retires (R580). -/
def Die.quantDone (d : Die) (t th tag : Nat) : Die :=
  match (d.tile t).execs.find? (ofTag th tag (fun e => !e.blocks.isEmpty && !e.waitLg)) with
  | none => d
  | some e =>
    let k := descCount e.desc - e.blocks.length
    let d1 := d.quantPut t e.desc (1024 * k) (e.blocks.headD [])
    let e1 := { e with blocks := e.blocks.tail }
    let d2 := d1.modExec t (fun y => y == e) (fun _ => e1)
    if e1.blocks.isEmpty then d2.tryRetire t e1 else d2

def execQuantAUnitDone (tile thread tag : Nat) (s : State) : Host.Outcome State Fault Refusal :=
  mainCmd (fun d => d.tileRuns tile) (fun d => d.quantDone tile thread tag) s

/-- LOAD_INPUT of one block: raw codes and S (R138, R192). -/
def Die.loadInputUnit (d : Die) (u : Cur) (i : Nat) : Die × Bool :=
  let p := d.engRead u u.c.a (512 * i) 512
  let bad := p.2.isNone || fpBad u.c.p1
  let codes := match p.2 with
    | some bs => if bad then List.replicate 512 0 else bs.map (fun b => sx 8 b.toNat)
    | none => List.replicate 512 0
  let b : CodeBlock := { codes := codes, scale := if bad then 0 else u.c.p1, poison := bad, aw4 := bit (descP0 u.c) 0, raw := true }
  (p.1.engWrite u u.c.d (1024 * i) b.bytes, bad)

/-- Codes of LOAD_INPUT that A4 does not allow (R192). -/
def Die.rawBad (d : Die) (t : Nat) (c : Desc) : Bool :=
  bit (descP0 c) 0 && (d.engRefuses t (opRgn c.a) (opOff c.a) (512 * descCount c) rightR).isNone &&
  (d.bytesAt (d.rgnAddr t (opRgn c.a) (opOff c.a)) (512 * descCount c)).any (fun b =>
    decide (sx 8 b.toNat < -8) || decide (7 < sx 8 b.toNat))

/-- LOAD_INPUT; a code out of range makes the descriptor malformed, and it retires. -/
def Die.loadInput (d : Die) (t th : Nat) (c : Desc) : Die :=
  match d.runnable t th c with
  | none => d
  | some e =>
    if d.rawBad t c then
      ((d.modTile t (fun x => { x with execs := dropPick (fun y => y == e) x.execs })).malform t th c e.due).settleStop t
    else d.runOp t th c (fun d u _ => d.units (descCount c) (fun e i => e.loadInputUnit u i))

def execLoadInput (tile thread : Nat) (c : Desc) (s : State) : Host.Outcome State Fault Refusal :=
  opCmd ocLoadInput tile c (fun d => d.loadInput tile thread c) s

/-! ### STROKE and REF_STROKE (R141, R194) -/

/-- The outlier capacity that a code names (R191). -/
def capacityOf (c : Nat) : Nat := match c with | 0 => 0 | 1 => 4 | 2 => 8 | 3 => 16 | _ => 32

/-- Whether injector 5 fires on a stroke on logical array `l` (R577). -/
def Die.overflowInject (d : Die) (t l : Nat) : Bool :=
  let g := (d.getW (Reg.PTB_TARGET 5)).toNat
  d.ptbActive 5 && bits g 24 6 == t && bits g 0 8 == l

/-- Kept and dropped outliers of a stroke are counted; a first drop of an array is flagged and recorded (R141). -/
def Die.countOutliers (d : Die) (t l layer nout cap : Nat) : Die :=
  let drop := nout - cap
  let d1 := d.bump (Reg.ENG_OUTL_CNT_KEPT_COUNT t l) (min nout cap)
  if drop = 0 then d1
  else
    let d2 := ((d1.bump (Reg.ENG_OUTL_CNT_DROP_COUNT t l) drop).bump (Reg.ENG_LAYER_STAT_DROP_COUNT t layer) drop).raise
      (Reg.ENG_ARITH_STATUS_OUTL_DROP t)
    let f : Fld := ⟨Reg.ENG_OUTL_FLAG t (l / 32), l % 32, 1⟩
    if d2.on f then d2 else (d2.raise f).record 0x10 5 t 0xFFFF [l, layer]

/-- One stroke of a STROKE descriptor, with the code block's bytes (none: no data, so slack). Its outliers are counted as it is latched,
as the example of R194 counts them. A block marked A4 that LOAD_INPUT did not check may hold a code outside -8 to +7: the whole byte is
then the digit that is driven (log entry 56). -/
def Die.strokeOne (d : Die) (u : Cur) (l i : Nat) (bs : Option (List Byte)) : Die :=
  let b := bs.getD (zeros 1024)
  let flags := leAt b 518 2
  let inj := d.overflowInject u.t l
  let cap := if inj then 0 else capacityOf (bits (descP0 u.c) 5 3)
  let serve := if l < 256 then d.serving u.t l else none
  match serve with
  | none => (d.bump (⟨Reg.ENG_BADDESC_CNT u.t, 0, 32⟩) 1).modTile u.t (fun x => { x with rejected := x.rejected ++ [l] })
  | some a =>
    let d1 := d.countOutliers u.t l (descLayer u.c) (leAt b 516 2) cap
    let d2 := if inj then (d1.ptbFire 5).modTile u.t (fun x => { x with noOutl := x.noOutl ++ [l] }) else d1
    let inp : StrokeIn :=
      { logical := l, thread := u.th, codes := (b.take 512).map (fun y => if bit flags 0 then 0 else sx 8 y.toNat), aw4 := bit flags 2,
        tag := descTag u.c, layer := descLayer u.c, index := i }
    d2.modArr u.t a (fun x => { x with waiting := x.waiting ++ [inp] })

/-- The `n` strokes of a STROKE descriptor from unit `done` on (R194): with SAME one block on logical arrays LSTEP apart, else successive
blocks on one logical array. Each is latched once its array's input register is free (R97); until then the descriptor stays where it is.
The units latched are counted. -/
def Die.strokeUnits (d : Die) (u : Cur) (n done : Nat) : Die × Bool × Nat :=
  match n with
  | 0 => (d, false, done)
  | k + 1 =>
    let l := strokeArray u.c done
    if !d.inputFree u.t l then (d, false, done)
    else
      let p := d.engRead u u.c.a (if bit (descP0 u.c) 0 then 0 else 1024 * done) 1024
      let r := (p.1.strokeOne u l done p.2).strokeUnits u k (done + 1)
      (r.1, r.2.1 || p.2.isNone, r.2.2)

def execStroke (tile thread : Nat) (c : Desc) (s : State) : Host.Outcome State Fault Refusal :=
  opCmd ocStroke tile c (fun d => d.runOp tile thread c (fun d u e =>
    let r := d.strokeUnits u (descCount c - e.units) e.units
    { d := r.1, bad := r.2.1, units := r.2.2, drained := r.2.2 == descCount c })) s

/-- REF_STROKE: COUNT physical arrays each take a reference stroke (R106). -/
def Die.refStrokes (d : Die) (t first n : Nat) : Die :=
  (List.range n).foldl (fun e i =>
    if first + i < 272 then e.modArr t (first + i) (fun x => { x with refWaiting := x.refWaiting + 1 }) else e) d

def execRefStroke (tile thread : Nat) (c : Desc) (s : State) : Host.Outcome State Fault Refusal :=
  opCmd ocRefStroke tile c (fun d => d.runOp tile thread c (fun d _ _ =>
    { d := d.refStrokes tile (bits (descP0 c) 0 9) (descCount c) })) s

/-! ### Golden rows (R140, R193) -/

/-- The weight code of column `j` in a golden row's 128 bytes; 0x8 decodes as 0. -/
def goldCode (row : List Byte) (j : Nat) : Int :=
  let c := bits (leAt row (j / 2) 1) (4 * (j % 2)) 4
  if c = 8 then 0 else sx 4 c

/-- Reserved codes in bytes of packed 4-bit codes. -/
def reservedCodes (bs : List Byte) : Nat :=
  (bs.map (fun b => b2n (b.toNat % 16 == 8) + b2n (b.toNat / 16 == 8))).sum

/-- Reserved codes met are counted (R146). -/
def Die.countReserved (d : Die) (t n : Nat) : Die :=
  if n = 0 then d else (d.bump (Reg.ENG_D_RSVD_CNT_COUNT t) n).raise (Reg.ENG_ARITH_STATUS_RSVD_CODE t)

/-- The golden page of unit `i` (R194). -/
def goldenOf (c : Desc) (i : Nat) : Nat := pageAddr (descP1 c) + 0x10000 * i

/-! ### OUTLIER (R139 to R143) -/

/-- The entries of a code block's ranking that a capacity keeps, in increasing row order. -/
def keptOf (b : List Byte) (cap : Nat) : List (Nat × Word) :=
  let l := ((List.range (min cap 32)).map (fun k => (leAt b (528 + 8 * k) 2, w32 (leAt b (532 + 8 * k) 4)))).filter (fun p => decide (p.1 < 512))
  l.foldl (fun acc x => acc.takeWhile (fun y => decide (y.1 < x.1)) ++ [x] ++ acc.dropWhile (fun y => decide (y.1 < x.1))) []

/-- The capacity of unit `i` of an OUTLIER descriptor: 0 where injector 5 took it away (R577). -/
def Die.capacityAt (d : Die) (u : Cur) (i : Nat) : Nat :=
  if (d.tile u.t).noOutl.contains (bits (descP0 u.c) 8 8 + i) then 0 else capacityOf (bits (descP0 u.c) 5 3)

/-- The golden rows an OUTLIER descriptor fetches, one line each. -/
def Die.outlierAsks (d : Die) (u : Cur) : List (Nat × Nat) :=
  if (d.engRefuses u.t (opRgn u.c.a) (opOff u.c.a) (1024 * descCount u.c) rightR).isSome then []
  else ((List.range (descCount u.c)).map (fun i =>
    (keptOf (d.bytesAt (d.rgnAddr u.t (opRgn u.c.a) (opOff u.c.a + 1024 * i)) 1024) (d.capacityAt u i)).map (fun p =>
      (goldenOf u.c i + 128 * p.1, 128)))).flatten

/-- The outlier sum of column `j` (R140), from (excess, golden row) in increasing row order. -/
def outlierSum (rows : List (Word × List Byte)) (j : Nat) : Word :=
  rows.foldl (fun t p => fpAdd t (fpMul p.1 (fpOfInt (goldCode p.2 j)))) 0

/-- Reads the golden rows of kept entries; none where one of them is refused or poisoned. -/
def Die.goldRows (d : Die) (u : Cur) (page : Nat) (l : List (Nat × Word)) : Die × Option (List (Word × List Byte)) :=
  l.foldl (fun r p =>
    let q := r.1.dramRead u (page + 128 * p.1) 128
    (q.1, match r.2, q.2 with
      | some rows, some row => some (rows ++ [(p.2, row)])
      | _, _ => none)) (d, some [])

def Die.outlierUnit (d : Die) (u : Cur) (i : Nat) : Die × Bool :=
  let p := d.engRead u u.c.a (1024 * i) 1024
  let cap := p.1.capacityAt u i
  let d0 := p.1.modTile u.t (fun x => { x with noOutl := dropPick (fun y => y == bits (descP0 u.c) 8 8 + i) x.noOutl })
  let r := match p.2 with
    | some b => if bit (leAt b 518 2) 0 then (d0, none) else d0.goldRows u (goldenOf u.c i) (keptOf b cap)
    | none => (d0, none)
  match r.2 with
  | none => (r.1.engWrite u u.c.d (2048 * i) (wordsBytes (List.replicate 256 fpPoison)), true)
  | some rows =>
    let o := (r.1.countReserved u.t (rows.map (fun q => reservedCodes q.2)).sum).engOut u.t (rows.any (fun q => fpBad q.1))
      ((List.range 256).map (outlierSum rows))
    (o.1.engWrite u u.c.d (2048 * i) (wordsBytes o.2.1), o.2.2)

def execOutlier (tile thread : Nat) (c : Desc) (s : State) : Host.Outcome State Fault Refusal :=
  opCmd ocOutlier tile c (fun d => d.runFetch tile thread c (fun d u => d.outlierAsks u) (fun d u _ =>
    d.units (descCount c) (fun e i => e.outlierUnit u i))) s

/-! ### EXACT (R159, R160) -/

/-- The ideal column value of column `j` (R159). -/
def idealValue (codes : List Int) (image : List Byte) (j : Nat) : Int :=
  ((List.range 512).map (fun i => codes.getD i 0 * goldCode ((image.drop (128 * i)).take 128) j)).sum

def Die.exactUnit (d : Die) (u : Cur) (i : Nat) : Die × Bool :=
  let p := d.engRead u u.c.a (1024 * i) 1024
  let q := p.1.dramRead u (goldenOf u.c i) 65536
  let poison := List.replicate 256 (w32 0x80000000)
  match p.2, q.2 with
  | some b, some image =>
    if bit (leAt b 518 2) 0 then (q.1.engWrite u u.c.d (2048 * i + 1024) (wordsBytes poison), true)
    else
      let codes := (b.take 512).map (fun y => sx 8 y.toNat)
      ((q.1.countReserved u.t (reservedCodes image)).engWrite u u.c.d (2048 * i + 1024)
        (wordsBytes ((List.range 256).map (fun j => w32 (enc 32 (idealValue codes image j))))), false)
  | _, _ => (q.1.engWrite u u.c.d (2048 * i + 1024) (wordsBytes poison), true)

/-- The 512 golden rows of every unit. -/
def exactAsks (c : Desc) : List (Nat × Nat) :=
  ((List.range (descCount c)).map (fun i => (List.range 512).map (fun r => (goldenOf c i + 128 * r, 128)))).flatten

def execExact (tile thread : Nat) (c : Desc) (s : State) : Host.Outcome State Fault Refusal :=
  opCmd ocExact tile c (fun d => d.runFetch tile thread c (fun _ _ => exactAsks c) (fun d u _ =>
    d.units (descCount c) (fun e i => e.exactUnit u i))) s

/-! ### CORR_Z and CORR_B (R151, R152, R257) -/

/-- Offset of the element bytes and of the scale byte of block `k` among `total` blocks stored as full panels of 32 (R144). -/
def blockPlace (k total eb : Nat) : Nat × Nat :=
  let p := k / 32
  let n := min 32 (total - 32 * p)
  (p * panelBytes 32 eb + k % 32 * eb, p * panelBytes 32 eb + n * eb + k % 32)

/-- Block `k` of a vector of `total` Shingle blocks, decoded; the number of reserved codes; whether it is poisoned. -/
def blockIn (bs : List Byte) (k total : Nat) (fmt8 : Bool) : List Word × Nat × Bool :=
  let eb := shingleEb fmt8
  let (e, sc) := blockPlace k total eb
  let scale := leAt bs sc 1
  let r := shingleDecode fmt8 scale ((bs.drop e).take eb)
  (r.1, r.2, scale == 0xFF)

/-- Poisoned blocks met are counted (R147, R157). -/
def Die.countPoisoned (d : Die) (t n : Nat) : Die :=
  if n = 0 then d else (d.bump (Reg.ENG_D_POISON_CNT_COUNT t) n).raise (Reg.ENG_ARITH_STATUS_POISON_IN t)

/-- The vector of `blocks` Shingle-8 blocks that starts at `off` of a factor: pinned in X, or in DRAM from PARAM1. -/
def Die.factor (d : Die) (u : Cur) (off blocks : Nat) : Die × List Word :=
  let n := panelsBytes blocks 32 32
  let p := if bit (descP0 u.c) 0 then d.engRead u u.c.x off n else d.dramRead u (unitAddr (descP1 u.c) + off) n
  match p.2 with
  | none => (p.1, List.replicate (32 * blocks) fpPoison)
  | some bs =>
    let l := (List.range blocks).map (fun k => blockIn bs k blocks true)
    (p.1.countPoisoned u.t (l.filter (fun x => x.2.2)).length, (l.map (fun x => x.1)).flatten)

/-- The factor bytes that a descriptor fetches, in sectors, where the factor is not pinned. -/
def factorAsks (c : Desc) (bytes : Nat) : List (Nat × Nat) :=
  if bit (descP0 c) 0 then [] else (List.range ((bytes + 63) / 64)).map (fun i => (unitAddr (descP1 c) + 64 * i, 64))

/-- The dot product in increasing order, from `s` (R152). -/
def dotFrom (s : Word) (l : List (Word × Word)) : Word := l.foldl (fun s p => fpAdd s (fpMul p.1 p.2)) s

/-- CORR_Z: z of each rank over the blocks of the row group. The vector of rank t covers the COUNT blocks of the descriptor and
follows that of rank t - 1 at once (log entry 56). -/
def Die.corrZ (d : Die) (u : Cur) : Done :=
  let n := descCount u.c
  let ranks := bits (descP0 u.c) 9 7
  let r := (List.range n).foldl (fun (a : Die × List Word) i =>
    let p := a.1.engRead u u.c.a (2048 * i) 2048
    (p.1, a.2 ++ wordsIn p.2 512)) (d, [])
  let z := (List.range ranks).foldl (fun (a : Die × List Word × Bool) t =>
    let f := a.1.factor u (t * panelsBytes (16 * n) 32 32) (16 * n)
    let o := f.1.engOut u.t (r.2.any fpBad || f.2.any fpBad) [dotFrom 0 (r.2.zip f.2)]
    (o.1, a.2.1 ++ o.2.1, a.2.2 || o.2.2)) (r.1, [], false)
  { d := z.1.engWrite u u.c.d 0 (wordsBytes z.2.1), bad := z.2.2 }

def execCorrZ (tile thread : Nat) (c : Desc) (s : State) : Host.Outcome State Fault Refusal :=
  opCmd ocCorrZ tile c (fun d => d.runFetch tile thread c
    (fun _ _ => factorAsks c (bits (descP0 c) 9 7 * panelsBytes (16 * descCount c) 32 32)) (fun d u _ => d.corrZ u)) s

/-- CORR_B: the correction of each column from z and factor B. -/
def Die.corrB (d : Die) (u : Cur) : Done :=
  let n := descCount u.c
  let blocks := (n + 31) / 32
  let ranks := bits (descP0 u.c) 9 7
  let p := d.engRead u u.c.a 0 (4 * ranks)
  let z := wordsIn p.2 ranks
  let f := (List.range ranks).foldl (fun (a : Die × List (List Word)) t =>
    let q := a.1.factor u (t * panelsBytes blocks 32 32) blocks
    (q.1, a.2 ++ [q.2])) (p.1, [])
  let r := (List.range n).foldl (fun (a : Die × List Word × Bool) j =>
    let col := f.2.map (fun v => v.getD j 0)
    let o := a.1.engOut u.t (z.any fpBad || col.any fpBad) [dotFrom 0 (z.zip col)]
    (o.1, a.2.1 ++ o.2.1, a.2.2 || o.2.2)) (f.1, [], false)
  { d := r.1.engWrite u u.c.d 0 (wordsBytes r.2.1), bad := r.2.2 }

def execCorrB (tile thread : Nat) (c : Desc) (s : State) : Host.Outcome State Fault Refusal :=
  opCmd ocCorrB tile c (fun d => d.runFetch tile thread c
    (fun _ _ => factorAsks c (bits (descP0 c) 9 7 * panelsBytes ((descCount c + 31) / 32) 32 32)) (fun d u _ => d.corrB u)) s

/-! ### COMBINE (R154 to R157, R160) -/

/-- Conversions that a column word stands for (R154). -/
def conversions (w : Nat) : Nat := if bit w 13 then 0 else if bit w 14 then 2 else 1

/-- The integer of R155, in sixteenths of a code. -/
def combineInt (r : Record) (j : Nat) : Int :=
  let off := r.offr.getD j 0
  let w0 := r.columns.getD j 0
  let v0 := 16 * sx 9 w0 - conversions w0 * off
  if bit (r.header.getD 1 0) 10 then v0
  else
    let w1 := r.columns.getD (256 + j) 0
    v0 + 256 * sx 9 w1 - 16 * conversions w1 * off

/-- What one unit of a COMBINE reads: its code block, column scales, side record, outlier sums, record (none in exact mode) and, where
the unit adds it, the correction. -/
structure CombineIn where
  block : Option (List Byte)
  scales : List Word
  side : Option (List Byte)
  sums : List Word
  rcd : Option Record
  corr : Option (List Word)

/-- The block is poisoned, or the record rejected (R155). -/
def CombineIn.dead (x : CombineIn) : Bool :=
  (match x.block with | some b => bit (leAt b 518 2) 0 | none => true) ||
  (match x.rcd with | some r => bit (r.header.getD 1 0) 11 | none => false)

/-- The value of column `j` before the scales (R155, R160). -/
def CombineIn.value (x : CombineIn) (j : Nat) : Word :=
  match x.rcd with
  | some r => fpMul (fpOfInt (combineInt r j)) (fpPow2 ((bits (r.header.getD 1 0) 4 3 : Int) - 5))
  | none =>
    let e := match x.side with | some s => leAt s (1024 + 4 * j) 4 | none => 0x80000000
    if e = 0x80000000 then fpPoison else fpOfInt (sx 32 e)

/-- The inputs of a unit at column `j`: value, column scale, block scale, outlier sum, and the correction where the unit adds it. -/
def CombineIn.inputs (x : CombineIn) (j : Nat) : List Word :=
  let s := match x.block with | some b => wordAt b 128 | none => fpPoison
  [x.value j, x.scales.getD j 0, s, x.sums.getD j 0] ++ (match x.corr with | some l => [l.getD j 0] | none => [])

/-- The term a unit adds to column `j` (R155). -/
def combineTerm (l : List Word) : Word :=
  match l with
  | v1 :: cs :: s :: t :: rest =>
    let v4 := fpAdd (fpMul (fpMul v1 cs) s) (fpMul t cs)
    match rest with
    | c :: _ => fpAdd v4 c
    | [] => v4
  | _ => fpPoison

/-- One column of the partial sums after a unit, with whether a poisoned input has reached it. -/
def combineColumn (x : CombineIn) (acc : Word × Bool) (j : Nat) : Word × Bool :=
  if x.dead then (fpPoison, true)
  else
    let l := x.inputs j
    (fpAdd acc.1 (combineTerm l), acc.2 || l.any fpBad)

/-- CLIP and LOST of a record, under its stroke's layer; a rejected record and a poisoned block are counted, one that is both twice
(R157, R168; log entry 56). -/
def Die.combineCount (d : Die) (t : Nat) (x : CombineIn) : Die :=
  let d1 := match x.rcd with
    | some r =>
      let h := r.header.getD 1 0
      let d0 := (d.bump (Reg.ENG_LAYER_STAT_CLIP_COUNT t r.layer) (r.columns.filter (fun w => bit w 15)).length).bump
        (Reg.ENG_LAYER_STAT_LOST_COUNT t r.layer) (b2n (bit h 2) + b2n (bit h 3))
      if bit h 11 then (d0.bump (Reg.ENG_D_POISON_CNT_COUNT t) 1).raise (Reg.ENG_ARITH_STATUS_REJECT_SEEN t) else d0
    | none => d
  if (match x.block with | some b => bit (leAt b 518 2) 0 | none => true) then d1.countPoisoned t 1 else d1

/-- Reads what unit `i` of a COMBINE needs. -/
def Die.combineIn (d : Die) (u : Cur) (e : Exec) (i : Nat) : Die × CombineIn :=
  let exact := bit (descP0 u.c) 2
  let last := bit (descP0 u.c) 1 && i + 1 == descCount u.c
  let pa := d.engRead u u.c.a (1024 * i) 1024
  let pb := pa.1.engRead u u.c.b (512 * i) 512
  let px := if hasOp u.c.x then pb.1.engRead u u.c.x (2048 * i) 2048 else (pb.1, none)
  let zero : List Word := List.replicate 256 0
  let pc := if last then
      (if hasOp u.c.p1 then (let q := px.1.engRead u u.c.p1 0 1024; (q.1, some (wordsIn q.2 256))) else (px.1, some zero))
    else (px.1, none)
  (pc.1, { block := pa.2, scales := bfsIn pb.2 256, side := px.2, sums := if hasOp u.c.x then wordsIn px.2 256 else zero,
           rcd := if exact then none else e.recs[i]?, corr := pc.2 })

/-- COMBINE over its records (R155). -/
def Die.combine (d : Die) (u : Cur) (e : Exec) : Done :=
  let p := if bit (descP0 u.c) 0 then (d, some (zeros 1024)) else d.engRead u u.c.d 0 1024
  let acc0 := (wordsIn p.2 256).map (fun w => (w, fpBad w))
  let r := (List.range (descCount u.c)).foldl (fun (a : Die × List (Word × Bool)) i =>
    let q := a.1.combineIn u e i
    (q.1.combineCount u.t q.2, ((List.range 256).zip a.2).map (fun c => combineColumn q.2 c.2 c.1))) (p.1, acc0)
  let n := (r.2.filter (fun c => fpBad c.1 && !c.2)).length
  { d := (r.1.countNonfinite u.t n).engWrite u u.c.d 0 (wordsBytes (r.2.map (fun c => fpOut c.1))),
    bad := r.2.any (fun c => fpBad c.1) }

/-- COMBINE: at the head of the pipeline, once all its records are taken (R177). -/
def Die.combineRun (d : Die) (t th : Nat) (c : Desc) : Die :=
  match d.pipeHead t with
  | none => d
  | some e =>
    if e.desc = c ∧ e.thread = th ∧ (bit (descP0 c) 2 = true ∨ e.recs.length = descCount c) ∧ (d.runnable t th c).isSome = true then
      (d.runOp t th c (fun d u e => d.combine u e)).modTile t (fun x => { x with pipe := x.pipe.tail })
    else d

def execCombine (tile thread : Nat) (c : Desc) (s : State) : Host.Outcome State Fault Refusal :=
  opCmd ocCombine tile c (fun d => d.combineRun tile thread c) s

/-! ### VSUM (R157) -/

/-- 32 elements of B in the form PARAM0 names: FP32, BF16, or Shingle-8 in full panels. -/
def Die.vsumB (d : Die) (u : Cur) (i : Nat) : Die × List Word :=
  match descP0 u.c % 4 with
  | 0 => let p := d.engRead u u.c.b (128 * i) 128; (p.1, wordsIn p.2 32)
  | 1 => let p := d.engRead u u.c.b (64 * i) 64; (p.1, bfsIn p.2 32)
  | _ =>
    let n := descCount u.c
    let p := d.engRead u u.c.b 0 (panelsBytes n 32 32)
    match p.2 with
    | some bs => let b := blockIn bs i n true; (p.1.countPoisoned u.t (b2n b.2.2), b.1)
    | none => (p.1, List.replicate 32 fpPoison)

/-- An element-wise result: poison where an input is poisoned, and the other non-finite ones with a count. -/
def Die.elementwise (d : Die) (t : Nat) (l : List (Bool × Word)) : Die × List Word × Bool :=
  let n := (l.filter (fun p => !p.1 && fpBad p.2)).length
  (d.countNonfinite t n, l.map (fun p => if p.1 then fpPoison else fpOut p.2), l.any (fun p => p.1 || fpBad p.2))

def Die.vsumUnit (d : Die) (u : Cur) (i : Nat) : Die × Bool :=
  let p := d.engRead u u.c.a (128 * i) 128
  let q := p.1.vsumB u i
  let r := q.1.elementwise u.t (((wordsIn p.2 32).zip q.2).map (fun x => (fpBad x.1 || fpBad x.2, fpAdd x.1 x.2)))
  (r.1.engWrite u u.c.d (128 * i) (wordsBytes r.2.1), r.2.2)

def execVsum (tile thread : Nat) (c : Desc) (s : State) : Host.Outcome State Fault Refusal :=
  opCmd ocVsum tile c (fun d => d.runOp tile thread c (fun d u _ => d.units (descCount c) (fun e i => e.vsumUnit u i))) s

end Sys2Proof.Machine
end

