-- ==== Sys2Proof/Machine/Special.lean ====
section
/-! DEFINITION. The transcendental functions of R195, formed from the exponential to 256 binary places and rounded once to FP32: the
exact results from which the hardware's own lie at most 2 units in the last place. -/
namespace Sys2Proof.Machine

/-- The natural logarithm of 2 and the square root of 2 / pi, in units of 2^-256. -/
def ln2Fix : Int := 0xb17217f7d1cf79abc9e3b39803f2f6af40f343267298b62d8a0d175b8baafa2b
def geluFix : Int := 0xcc42299ea1b284687e59e2805d5c717fa7053e60a24e0db1808e369004c73a5d

/-- The Taylor series of the exponential at `r` in units of 2^-256, from its `k`-th term on, `n` terms. -/
def expTerms (r : Int) (n k : Nat) (term : Int) : Int :=
  match n with
  | 0 => 0
  | m + 1 => term + expTerms r m (k + 1) (term * r / ((k + 1 : Nat) * 2 ^ 256))

/-- The exponential of x * 2^-256, for a magnitude up to 512, as a fraction. -/
def expFix (x : Int) : Nat × Nat :=
  let k := x / ln2Fix
  let e := (expTerms (x - k * ln2Fix) 64 0 (2 ^ 256)).toNat
  if 0 ≤ k then (e * 2 ^ k.toNat, 2 ^ 256) else (e, 2 ^ (256 + (-k).toNat))

/-- A finite word in units of 2^-256, held within 512 in magnitude: beyond that the functions here have reached their limits. -/
def fixOf (w : Word) : Int := clampI (-(2 ^ 265)) (2 ^ 265) ((fpVal w).scaled 256)

/-- x / (1 + exp(-y)) for a word x and y in units of 2^-256, with the sign of x. -/
def gated (x : Word) (y : Int) : Word :=
  let p := expFix (clampI (-(2 ^ 265)) (2 ^ 265) y)
  let v := fpVal x
  if v.m = 0 then x
  else fpOfRat ((fpVal x).scaled 149 * (p.1 : Int)) (2 ^ 149 * (p.1 + p.2))

/-- The exact FP32 exponential, sigmoid, SiLU and GELU in its tanh form, 0.5 x (1 + tanh(sqrt(2 / pi) (x + 0.044715 x^3))), whose
constants are the customary ones (PRESUMED, log entry 10). -/
def fpExp (x : Word) : Word := fpOfRat ((expFix (fixOf x)).1 : Int) (expFix (fixOf x)).2
def fpSigmoid (x : Word) : Word := gated (fpOfInt 1) (fixOf x)
def fpSilu (x : Word) : Word := gated x (fixOf x)
def fpGelu (x : Word) : Word :=
  let v := fixOf x
  gated x (2 * geluFix * (v * 1000000 + 44715 * (v * v / 2 ^ 256 * v / 2 ^ 256)) / (1000000 * 2 ^ 256))

/-- A hardware approximation of an exact FP32 result (R195). -/
def hwNear (f : Nat) (exact : Word) : Word := fpNudge exact (Config.ulpDeviation f exact)

end Sys2Proof.Machine
end

