-- ==== Sys2Proof/Machine/EngineVector.lean ====
section
/-! DEFINITION. The vector operations (R144 to R150, R172, R191, R195, R335, R338, R368): Shingle conversion, LINEAR, attention,
normalisation, activation functions, element-wise arithmetic, steering, key/value writes and token selection. -/
namespace Sys2Proof.Machine

/-! ### SQUANT and SDEQ (R144 to R149) -/

/-- Offsets of element bytes and scale byte of block `k` of `total` in panels of `n`; the last panel holds the remaining blocks. -/
def panelPlace (k total n eb : Nat) : Nat × Nat :=
  let p := k / n
  let m := min n (total - n * p)
  (p * panelBytes n eb + k % n * eb, p * panelBytes n eb + m * eb + k % n)

/-- Counters and status of a quantised block (R149, R165, R168). -/
def Die.countQuant (d : Die) (t layer : Nat) (k : QuantCase) : Die :=
  match k with
  | .poison => d.bump (Reg.ENG_Q_POISON_CNT_COUNT t) 1
  | .zero => d.bump (Reg.ENG_Q_ZERO_CNT_COUNT t) 1
  | .under => (d.bump (Reg.ENG_Q_UNDER_CNT_COUNT t) 1).raise (Reg.ENG_ARITH_STATUS_UNDER t)
  | .sat => ((d.bump (Reg.ENG_Q_SAT_CNT_COUNT t) 1).raise (Reg.ENG_ARITH_STATUS_SAT t)).bump (Reg.ENG_LAYER_STAT_QSAT_COUNT t layer) 1
  | .plain => d

/-- Largest element code of a format. -/
def shingleQ (fmt8 : Bool) : Nat := if fmt8 then 127 else 7

def Die.squantUnit (d : Die) (u : Cur) (i : Nat) : Die × Bool :=
  let n := bits (descP0 u.c) 8 8
  let fmt8 := bit (descP0 u.c) 0
  let p := d.engRead u u.c.a (128 * i) 128
  let q := shingleQuantise (wordsIn p.2 32) (shingleQ fmt8)
  let pl := panelPlace i (descCount u.c) n (shingleEb fmt8)
  let d1 := (p.1.countQuant u.t (descLayer u.c) q.2.2).engWrite u u.c.d pl.1 (elementBytes fmt8 q.2.1)
  let d2 := d1.engWrite u u.c.d pl.2 (natLe 1 q.1)
  let m := min n (descCount u.c - i / n * n)
  let used := m * (shingleEb fmt8 + 1)
  let d3 := if i % n + 1 = m then d2.engWrite u u.c.d (i / n * panelBytes n (shingleEb fmt8) + used) (zeros (panelBytes m (shingleEb fmt8) - used)) else d2
  (d3, q.1 == 0xFF)

def execSquant (tile thread : Nat) (c : Desc) (s : State) : Host.Outcome State Fault Refusal :=
  opCmd ocSquant tile c (fun d => d.runOp tile thread c (fun d u _ => d.units (descCount c) (fun e i => e.squantUnit u i))) s

/-- FP32 or BF16 bytes of 32 elements. -/
def narrowBytes (bf : Bool) (l : List Word) : List Byte :=
  if bf then (l.map (fun w => natLe 2 (fpToBf w))).flatten else wordsBytes l

def Die.sdeqUnit (d : Die) (u : Cur) (i : Nat) : Die × Bool :=
  let n := bits (descP0 u.c) 8 8
  let fmt8 := bit (descP0 u.c) 0
  let bf := bit (descP0 u.c) 1
  let pl := panelPlace i (descCount u.c) n (shingleEb fmt8)
  let pe := d.engRead u u.c.a pl.1 (shingleEb fmt8)
  let ps := pe.1.engRead u u.c.a pl.2 1
  let sz := if bf then 64 else 128
  match pe.2, ps.2 with
  | some e, some sc =>
    let r := shingleDecode fmt8 (leNat sc) e
    let bad := leNat sc == 0xFF
    (((ps.1.countReserved u.t r.2).countPoisoned u.t (b2n bad)).engWrite u u.c.d (sz * i) (narrowBytes bf r.1), bad)
  | _, _ => (ps.1.engWrite u u.c.d (sz * i) (narrowBytes bf (List.replicate 32 fpPoison)), true)

def execSdeq (tile thread : Nat) (c : Desc) (s : State) : Host.Outcome State Fault Refusal :=
  opCmd ocSdeq tile c (fun d => d.runOp tile thread c (fun d u _ => d.units (descCount c) (fun e i => e.sdeqUnit u i))) s

/-! ### LINEAR (R171, R172) -/

/-- Free words of an operation whose numeric form the spec does not give (log entry 11): the same parameters and the same inputs give
the same words (R130). -/
def freeWord (c : Desc) (ins : List Word) (i : Nat) : Word :=
  Config.unstatedResult (descOp c) (w32 (descP0 c) :: c.p1 :: ins) i

/-- Elements of a LINEAR operand, and whether one of them is poisoned. -/
def linearIn (bs : Option (List Byte)) (k ty : Nat) : List Word :=
  match ty with
  | 0 => bfsIn bs k
  | _ =>
    let blocks := (k + 31) / 32
    match bs with
    | none => List.replicate k fpPoison
    | some l => (((List.range blocks).map (fun b => (blockIn l b blocks (ty == 2)).1)).flatten).take k

/-- Reserved codes and poisoned blocks of a Shingle operand of LINEAR. -/
def linearMet (bs : Option (List Byte)) (k ty : Nat) : Nat × Nat :=
  match ty, bs with
  | 0, _ => (0, 0)
  | _, none => (0, 0)
  | _, some l =>
    let blocks := (k + 31) / 32
    let r := (List.range blocks).map (fun b => (blockIn l b blocks (ty == 2)).2)
    ((r.map (·.1)).sum, (r.filter (·.2)).length)

/-- The element codes of block `k` of a Shingle vector of `total` blocks, and its scale code. -/
def codesIn (bs : List Byte) (k total : Nat) (fmt8 : Bool) : List Int × Nat :=
  let eb := shingleEb fmt8
  let (e, sc) := blockPlace k total eb
  ((elementCodes fmt8 ((bs.drop e).take eb)).map (fun c => if fmt8 then sx 8 c else if c = 8 then 0 else sx 4 c), leAt bs sc 1)

/-- The integer sum of block `b` of two Shingle vectors, exact in 32 bits (R171), and the scale codes of the two blocks: what a LINEAR
output depends on. -/
def macBlock (v w : List Byte) (k b : Nat) (v8 : Bool) : List Word :=
  let total := (k + 31) / 32
  let x := codesIn v b total v8
  let y := codesIn w b total true
  [w32 (enc 32 (((x.1.zip y.1).take (k - 32 * b)).map (fun p => p.1 * p.2)).sum), w32 x.2, w32 y.2]

/-- One output of LINEAR: products exact in FP32 for BF16, summed in the order of R172; for Shingle the integer sums of its blocks.
How block scales enter the sum of those is not stated: that last step is free (log entry 11). -/
def Die.linearUnit (d : Die) (u : Cur) (vb : Option (List Byte)) (v : List Word) (i : Nat) : Die × Bool :=
  let k := descP1 u.c
  let ty := (linearTypes (descP0 u.c)).2
  let n := linearBytes k ty
  let p := d.engRead u u.c.b (n * i) n
  let w := linearIn p.2 k ty
  let met := linearMet p.2 k ty
  let d1 := (p.1.countReserved u.t met.1).countPoisoned u.t met.2
  let y := if ty = 0 then reduceSum ((v.zip w).map (fun x => fpMul x.1 x.2)) 
    else freeWord u.c ((List.range ((k + 31) / 32)).map (fun b => macBlock (vb.getD []) (p.2.getD []) k b ((linearTypes (descP0 u.c)).1 == 2))).flatten 0
  let r := d1.engOut u.t (v.any fpBad || w.any fpBad) [y]
  (r.1.engWrite u u.c.d (4 * i) (wordsBytes r.2.1), r.2.2)

def Die.linear (d : Die) (u : Cur) : Done :=
  let k := descP1 u.c
  let ty := (linearTypes (descP0 u.c)).1
  let p := d.engRead u u.c.a 0 (linearBytes k ty)
  let met := linearMet p.2 k ty
  let v := linearIn p.2 k ty
  let r := ((p.1.countReserved u.t met.1).countPoisoned u.t met.2).units (descCount u.c) (fun e i => e.linearUnit u p.2 v i)
  r

def execLinear (tile thread : Nat) (c : Desc) (s : State) : Host.Outcome State Fault Refusal :=
  opCmd ocLinear tile c (fun d => d.runOp tile thread c (fun d u _ => d.linear u)) s

/-! ### Key/value pages (R335 to R338) -/

/-- Bytes of one area (keys or values) of a head's segment: 2d blocks in full panels (R335). -/
def kvArea (dim : Nat) (fmt8 : Bool) : Nat := 2 * dim / 32 * panelBytes 32 (shingleEb fmt8)

/-- SEG_OFF, NPAGES and the operand's readability of a page list (R338). -/
def Die.pageHead (d : Die) (u : Cur) : Die × Option (Nat × Nat) :=
  let p := d.engRead u u.c.b 0 16
  (p.1, p.2.map (fun bs => (leAt bs 0 4, leAt bs 4 4)))

/-- The address of page `k` in the list, where its entry is present (R336, R338). -/
def Die.pageOf (d : Die) (u : Cur) (k : Nat) : Die × Option Nat :=
  let p := d.engRead u u.c.b (16 + 4 * k) 4
  (p.1, match p.2 with
    | some bs => if bit (leNat bs) 31 then some (pageAddr (leNat bs % 2 ^ 26)) else none
    | none => none)

/-- Address of a head's segment in a page: key area first. -/
def headSeg (page seg h dim : Nat) (fmt8 : Bool) : Nat := page + seg + h * (2 * kvArea dim fmt8)

/-! ### ATTN (R191, R338) -/

/-- Pages of a context of `n` tokens. -/
def attnPages (n : Nat) : Nat := (n + 63) / 64

/-- The sectors an ATTN descriptor fetches: the segments of its part in every page of its context. -/
def Die.attnAsks (d : Die) (u : Cur) : List (Nat × Nat) :=
  let (h, _) := d.kvShape u.t u.c.b
  let dim := if bit (descP0 u.c) 1 then 128 else 64
  let n := h * (2 * kvArea dim (bit (descP0 u.c) 0))
  match (d.pageHead u).2 with
  | none => []
  | some (seg, np) => ((List.range (min (attnPages (descP1 u.c)) np)).map (fun k =>
      match (d.pageOf u k).2 with
      | some a => (List.range ((n + 63) / 64)).map (fun i => (a + seg + 64 * i, 64))
      | none => [])).flatten

/-- The blocks of a page's segments that hold its first `tokens` tokens, keys and values of `h` heads: decoded, with reserved codes and
whether poisoned (R335). -/
def cacheBlocks (bs : List Byte) (h dim tokens : Nat) (fmt8 : Bool) : List (List Word × Nat × Bool) :=
  ((List.range (2 * h)).map (fun a =>
    (List.range (tokens * (dim / 32))).map (fun k => blockIn (bs.drop (a * kvArea dim fmt8)) k (2 * dim) fmt8))).flatten

/-- The key/value blocks of a context's tokens, page by page: reserved codes and poisoned blocks are counted, and poison, or a page that
cannot be read, is handed on with the decoded words. -/
def Die.attnRead (d : Die) (u : Cur) : Die × Bool × List Word :=
  let (h, _) := d.kvShape u.t u.c.b
  let fmt8 := bit (descP0 u.c) 0
  let dim := if bit (descP0 u.c) 1 then 128 else 64
  let p := d.pageHead u
  match p.2 with
  | none => (p.1, true, [])
  | some (seg, np) =>
    (List.range (attnPages (descP1 u.c))).foldl (fun (r : Die × Bool × List Word) k =>
      let q := if np ≤ k then (r.1, none) else r.1.pageOf u k
      match q.2 with
      | none => (q.1, true, r.2.2)
      | some a =>
        let m := q.1.dramRead u (a + seg) (h * (2 * kvArea dim fmt8))
        match m.2 with
        | none => (m.1, true, r.2.2)
        | some bs =>
          let l := cacheBlocks bs h dim (min 64 (descP1 u.c - 64 * k)) fmt8
          let bad := (l.filter (fun x => x.2.2)).length
          ((m.1.countReserved u.t (l.map (fun x => x.2.1)).sum).countPoisoned u.t bad, r.2.1 || decide (0 < bad),
            r.2.2 ++ (l.map (fun x => x.1)).flatten)) (p.1, false, [])

/-- One context of ATTN: the attention output and the running state are free values of the queries, the running state and the cache
(log entry 11); a poisoned query, state or cache block poisons them, since the context is the unit (R196). Every unit works on the one
page list at B: the spec does not say that the list steps by unit (DESIGN CHOICE, log entry 56). -/
def Die.attnUnit (d : Die) (u : Cur) (i : Nat) : Die × Bool :=
  let (h, _) := d.kvShape u.t u.c.b
  let q := bits (descP0 u.c) 8 8
  let dim := if bit (descP0 u.c) 1 then 128 else 64
  let n := h * q * dim
  let pa := d.engRead u u.c.a (2 * n * i) (2 * n)
  let px := pa.1.engRead u u.c.x (8 * h * q * i) (8 * h * q)
  let pg := px.1.attnRead u
  let qs := bfsIn pa.2 n
  let xs := wordsIn px.2 (2 * h * q)
  let bad := qs.any fpBad || xs.any fpBad || pg.2.1
  let ins := qs ++ xs ++ pg.2.2
  let st := pg.1.engOut u.t bad ((List.range (2 * h * q)).map (fun k => freeWord u.c ins (n + k)))
  let o := st.1.engOut u.t bad ((List.range n).map (fun k => freeWord u.c ins k))
  ((o.1.engWrite u u.c.x (8 * h * q * i) (wordsBytes st.2.1)).engWrite u u.c.d (4 * n * i) (wordsBytes o.2.1), st.2.2 || o.2.2)

def execAttn (tile thread : Nat) (c : Desc) (s : State) : Host.Outcome State Fault Refusal :=
  opCmd ocAttn tile c (fun d => d.runFetch tile thread c (fun d u => d.attnAsks u) (fun d u _ =>
    d.units (descCount c) (fun e i => e.attnUnit u i))) s

/-! ### SOFTMAX, NORM, ACT (R195) -/

/-- The FP32 words of `n` units of 32 elements of an operand. -/
def Die.readVector (d : Die) (u : Cur) (w : Word) (n : Nat) : Die × List Word :=
  (List.range n).foldl (fun (r : Die × List Word) i =>
    let p := r.1.engRead u w (128 * i) 128
    (p.1, r.2 ++ wordsIn p.2 32)) (d, [])

/-- Writes FP32 words in units of 32 elements. -/
def Die.writeVector (d : Die) (u : Cur) (w : Word) (l : List Word) : Die :=
  (List.range (l.length / 32)).foldl (fun e i => e.engWrite u w (128 * i) (wordsBytes ((l.drop (32 * i)).take 32))) d

/-- The exponential of the hardware (R195). -/
def hwExp (x : Word) : Word := hwNear 4 (fpExp x)

/-- The softmax of R195. The inverse temperature multiplies after the maximum is subtracted (DESIGN CHOICE, log entry 56): the spec gives no
order of these two roundings. -/
def softmaxOf (l : List Word) (temp : Word) : List Word :=
  let m := (argMax l).2
  let es := l.map (fun x => hwExp (fpMul (fpSub x m) temp))
  let r := fpDiv (fpOfInt 1) (reduceSum es)
  es.map (fun e => fpMul e r)

def Die.softmax (d : Die) (u : Cur) : Done :=
  let p := d.readVector u u.c.a (descCount u.c)
  let r := p.1.engOut u.t (p.2.any fpBad || fpBad u.c.p1) (softmaxOf p.2 u.c.p1)
  { d := r.1.writeVector u u.c.d r.2.1, bad := r.2.2 }

def execSoftmax (tile thread : Nat) (c : Desc) (s : State) : Host.Outcome State Fault Refusal :=
  opCmd ocSoftmax tile c (fun d => d.runOp tile thread c (fun d u _ => d.softmax u)) s

/-- A finite word as an integer multiple of 2^-149. -/
def fpUnits (w : Word) : Int := (fpVal w).scaled 149

/-- x g / sqrt(s / n + eps) for words, rounded once (R191, R195). -/
def normResult (x g s eps : Word) (n : Nat) : Word :=
  let den := fpUnits s + n * fpUnits eps
  if fpBad x || fpBad g || fpBad s || decide (den ≤ 0) then fpPoison
  else
    let num := fpUnits x * fpUnits g
    let y := fpSqrtRat (num.natAbs * num.natAbs * n * 2) den.toNat (-448)
    if num < 0 then fpNeg y else y

/-- The sum of squares in the order of R172. -/
def squareSum (l : List Word) : Word := reduceSum (l.map (fun x => fpMul x x))

/-- The normalised elements of finite words (R191, R195), from sums in the order of R172: RMS, or mean and variance, each deviation
rounded to FP32 (DEDUCED, log entry 10). -/
def normOf (xs gs : List Word) (meanVar : Bool) (eps : Word) : List Word :=
  let n := xs.length
  let mean := fpDiv (reduceSum xs) (fpOfInt n)
  let v := if meanVar then xs.map (fun x => fpSub x mean) else xs
  let s := squareSum v
  (v.zip gs).map (fun p => normResult p.1 p.2 s eps n)

def Die.norm (d : Die) (u : Cur) : Done :=
  let n := descCount u.c
  let p := d.readVector u u.c.a n
  let g := (List.range n).foldl (fun (r : Die × List Word) i =>
    let q := r.1.engRead u u.c.b (64 * i) 64
    (q.1, r.2 ++ bfsIn q.2 32)) (p.1, [])
  let all := p.2.any fpBad || fpBad u.c.p1
  let ys := if all then List.replicate (32 * n) fpPoison
    else (normOf p.2 (g.2.map (fun w => if fpBad w then 0 else w)) (bit (descP0 u.c) 0) u.c.p1).map (hwNear ocNorm)
  let r := g.1.elementwise u.t ((g.2.zip ys).map (fun x => (all || fpBad x.1, x.2)))
  { d := r.1.writeVector u u.c.d r.2.1, bad := r.2.2 }

def execNorm (tile thread : Nat) (c : Desc) (s : State) : Host.Outcome State Fault Refusal :=
  opCmd ocNorm tile c (fun d => d.runOp tile thread c (fun d u _ => d.norm u)) s

/-- An activation function of a finite word (R191), each result near the exact one (R195). -/
def actOf (f : Nat) (x : Word) : Word :=
  match f with
  | 0 => hwNear 64 (fpSilu x)
  | 1 => hwNear (64 + 1) (fpGelu x)
  | 2 => if fpLt x 0 then 0 else x
  | 3 => hwNear (64 + 3) (fpSigmoid x)
  | 4 => hwExp x
  | 5 => hwNear (64 + 5) (fpDiv (fpOfInt 1) x)
  | _ => let v := fpVal x
         if v.neg && decide (v.m ≠ 0) then fpPoison
         else if v.m = 0 then fpPoison else hwNear (64 + 6) (fpSqrtRat 1 v.m (-v.e))

def Die.actUnit (d : Die) (u : Cur) (i : Nat) : Die × Bool :=
  let p := d.engRead u u.c.a (128 * i) 128
  let r := p.1.elementwise u.t ((wordsIn p.2 32).map (fun x => (fpBad x, actOf (descP0 u.c % 16) x)))
  (r.1.engWrite u u.c.d (128 * i) (wordsBytes r.2.1), r.2.2)

def execAct (tile thread : Nat) (c : Desc) (s : State) : Host.Outcome State Fault Refusal :=
  opCmd ocAct tile c (fun d => d.runOp tile thread c (fun d u _ => d.units (descCount c) (fun e i => e.actUnit u i))) s

/-! ### EWISE, POSROT (R191) -/

/-- An element-wise operation (R191). -/
def ewiseOf (f : Nat) (a b x : Word) : Word :=
  match f with
  | 0 => fpAdd a b
  | 1 => fpSub a b
  | 2 => fpMul a b
  | 3 => if fpBad a || fpBad b then fpPoison else if fpLt a b then b else a
  | _ => fpAdd (fpMul a b) x

def Die.ewiseUnit (d : Die) (u : Cur) (i : Nat) : Die × Bool :=
  let f := descP0 u.c % 8
  let pa := d.engRead u u.c.a (128 * i) 128
  let pb := if bit (descP0 u.c) 3 then pa.1.engRead u u.c.b 0 4 else pa.1.engRead u u.c.b (128 * i) 128
  let b := if bit (descP0 u.c) 3 then List.replicate 32 ((wordsIn pb.2 1).getD 0 0) else wordsIn pb.2 32
  let px := if f = 4 then pb.1.engRead u u.c.x (128 * i) 128 else (pb.1, some (zeros 128))
  let r := px.1.elementwise u.t (((wordsIn pa.2 32).zip (b.zip (wordsIn px.2 32))).map (fun q =>
    (fpBad q.1 || fpBad q.2.1 || fpBad q.2.2, ewiseOf f q.1 q.2.1 q.2.2)))
  (r.1.engWrite u u.c.d (128 * i) (wordsBytes r.2.1), r.2.2)

def execEwise (tile thread : Nat) (c : Desc) (s : State) : Host.Outcome State Fault Refusal :=
  opCmd ocEwise tile c (fun d => d.runOp tile thread c (fun d u _ => d.units (descCount c) (fun e i => e.ewiseUnit u i))) s

/-- One unit of POSROT: the rotated elements are free values (log entry 11); a poisoned element or frequency poisons the unit. -/
def Die.posrotUnit (d : Die) (u : Cur) (i : Nat) : Die × Bool :=
  let pa := d.engRead u u.c.a (128 * i) 128
  let px := pa.1.engRead u u.c.x (64 * i) 64
  let r := px.1.engOut u.t ((wordsIn pa.2 32).any fpBad || (wordsIn px.2 16).any fpBad)
    ((List.range 32).map (fun k => freeWord u.c (wordsIn pa.2 32 ++ wordsIn px.2 16) k))
  (r.1.engWrite u u.c.d (128 * i) (wordsBytes r.2.1), r.2.2)

def execPosrot (tile thread : Nat) (c : Desc) (s : State) : Host.Outcome State Fault Refusal :=
  opCmd ocPosrot tile c (fun d => d.runOp tile thread c (fun d u _ => d.units (descCount c) (fun e i => e.posrotUnit u i))) s

/-! ### STEER (R368) -/

/-- One unit of STEER: berth and block from the unit's number; without a pack the bits pass unchanged. -/
def Die.steerUnit (d : Die) (u : Cur) (k : Nat) : Die × Bool :=
  let nb := max 1 (descP0 u.c)
  let i := k % nb
  let pa := d.engRead u u.c.a (128 * k) 128
  let px := pa.1.engRead u u.c.x (4 * (k / nb)) 4
  match px.2 with
  | none => (px.1.engWrite u u.c.d (128 * k) (wordsBytes (List.replicate 32 fpPoison)), true)
  | some wb =>
    let w := w32 (leNat wb)
    if w = noOp then (px.1.engWrite u u.c.d (128 * k) (match pa.2 with | some bs => bs | none => wordsBytes (List.replicate 32 fpPoison)),
      (wordsIn pa.2 32).any fpBad)
    else
      let n := panelsBytes nb 32 32
      let ps := px.1.engRead u w 0 n
      let pb := ps.1.engRead u w n n
      let s := match ps.2 with | some bs => blockIn bs i nb true | none => (List.replicate 32 fpPoison, 0, false)
      let b := match pb.2 with | some bs => blockIn bs i nb true | none => (List.replicate 32 fpPoison, 0, false)
      let d1 := pb.1.countPoisoned u.t (b2n s.2.2 + b2n b.2.2)
      let r := d1.elementwise u.t (((wordsIn pa.2 32).zip (s.1.zip b.1)).map (fun q =>
        (fpBad q.1 || fpBad q.2.1 || fpBad q.2.2, fpAdd (fpMul q.1 q.2.1) q.2.2)))
      (r.1.engWrite u u.c.d (128 * k) (wordsBytes r.2.1), r.2.2)

def execSteer (tile thread : Nat) (c : Desc) (s : State) : Host.Outcome State Fault Refusal :=
  opCmd ocSteer tile c (fun d => d.runOp tile thread c (fun d u _ => d.units (descCount c) (fun e i => e.steerUnit u i))) s

/-! ### KV_WRITE (R191, R335, R338) -/

/-- One Shingle block of a key or value is formed and written into staging; its element bytes and scale code. -/
def Die.kvBlock (d : Die) (u : Cur) (stage : Nat) (fmt8 : Bool) (x : List Word) : Die × List Byte × Nat :=
  let q := shingleQuantise x (shingleQ fmt8)
  let bs := elementBytes fmt8 q.2.1
  ((d.countQuant u.t (descLayer u.c) q.2.2).engWrite u u.c.d ((shingleEb fmt8 + 1) * stage) (bs ++ natLe 1 q.1), bs, q.1)

/-- Write requests for bytes that go to DRAM, one for each sector they touch, with their number; a range that is refused is a
fault. -/
def Die.askBytes (d : Die) (u : Cur) (a : Nat) (bs : List Byte) : Die × Nat :=
  let n := bs.length
  if d.reqAllowed u a n then
    ((sectors a n).foldl (fun e s =>
      let lo := max a s
      let hi := min (a + n) (s + 64)
      e.ask u lo (hi - lo) (some ((bs.drop (lo - a)).take (hi - lo))) none) d, (sectors a n).length)
  else (d.tileFault u.t fkRight u.th (descOp u.c) 0xFF 0 (descTag u.c), 0)

/-- One vector (key or value) of a head: its dim / 32 blocks, with the requests that write its element bytes and its scale bytes into
their places in a page's area. -/
def Die.kvVector (d : Die) (u : Cur) (area : Option Nat) (slot dim stage src : Nat) (fmt8 : Bool) : Die × Bool × Nat :=
  let per := dim / 32
  let r := (List.range per).foldl (fun (r : Die × List Byte × List Nat) k =>
    let p := r.1.engRead u u.c.a (src + 128 * k) 128
    let q := p.1.kvBlock u (stage + k) fmt8 (wordsIn p.2 32)
    (q.1, r.2.1 ++ q.2.1, r.2.2 ++ [q.2.2])) (d, [], [])
  let bad := r.2.2.contains 0xFF
  match area with
  | none => (r.1, bad, 0)
  | some a =>
    let pl := blockPlace (per * slot) (2 * dim) (shingleEb fmt8)
    let e := r.1.askBytes u (a + pl.1) r.2.1
    let f := e.1.askBytes u (a + pl.2) (r.2.2.map b8)
    (f.1, bad, e.2 + f.2)

/-- One token: for every head its key, then for every head its value, into the page that holds its position; a position whose page
is not listed reaches staging only (log entry 46). The requests it makes are counted. -/
def Die.kvToken (d : Die) (u : Cur) (i : Nat) : Die × Bool × Nat :=
  let (h, dim) := d.kvShape u.t u.c.b
  let fmt8 := bit (descP0 u.c) 0
  let pos := descP1 u.c + i
  let hd := d.pageHead u
  let pg := match hd.2 with
    | some (seg, np) => if pos / 64 < np then (let q := hd.1.pageOf u (pos / 64); (q.1, q.2.map (· + seg))) else (hd.1, none)
    | none => (hd.1, none)
  let per := dim / 32
  (List.range (2 * h)).foldl (fun (r : Die × Bool × Nat) v =>
    let area := pg.2.map (fun a => headSeg a 0 (v % h) dim fmt8 + (if v < h then 0 else kvArea dim fmt8))
    let q := r.1.kvVector u area (pos % 64) dim ((2 * h * i + v) * per) ((2 * h * i + v) * dim * 4) fmt8
    (q.1, r.2.1 || q.2.1, r.2.2 + q.2.2)) (pg.1, false, 0)

def execKvWrite (tile thread : Nat) (c : Desc) (s : State) : Host.Outcome State Fault Refusal :=
  opCmd ocKvWrite tile c (fun d => d.runOp tile thread c (fun d u _ => d.moveUnits (descCount c) (fun e i => e.kvToken u i))) s

/-! ### SELECT (R195) -/

/-- The comparison sum > p1 * 2^-32 * total with the product u exact: the spec does not say that u is rounded (DESIGN CHOICE, log entry
56). -/
def exceedsShare (sum total : Word) (p1 : Nat) : Bool :=
  decide ((p1 : Int) * fpUnits total < fpUnits sum * 2 ^ 32)

/-- The first index whose running sum exceeds the share, from running sum `run` at index `i`. -/
def firstOver (l : List Word) (i : Nat) (run total : Word) (p1 : Nat) : Option Nat :=
  match l with
  | [] => none
  | x :: r => let s := fpAdd run x
              if exceedsShare s total p1 then some i else firstOver r (i + 1) s total p1

/-- Blocks of 32, in order: the block whose sum takes the running sum over the share, then its elements (R195). -/
def sampleIn (blocks : List (List Word)) (base : Nat) (run total : Word) (p1 : Nat) : Option Nat :=
  match blocks with
  | [] => none
  | b :: r =>
    let s := fpAdd run (reduceSum b)
    if exceedsShare s total p1 then firstOver b base run total p1 else sampleIn r (base + 32) s total p1

/-- The last index with an element that is not zero. -/
def lastNonzero (l : List Word) : Nat :=
  ((List.range l.length).zip l).foldl (fun b q => if fpAbs q.2 == 0 then b else q.1) 0

/-- The index that SELECT returns for finite words. -/
def selectIndex (l : List Word) (sample : Bool) (p1 : Nat) : Nat :=
  if sample then
    match sampleIn ((List.range (l.length / 32)).map (fun k => (l.drop (32 * k)).take 32)) 0 0 (reduceSum l) p1 with
    | some i => i
    | none => lastNonzero l
  else (argMax l).1

def Die.select (d : Die) (u : Cur) : Done :=
  let p := d.readVector u u.c.a (descCount u.c)
  let poison := zeros 4 ++ natLe 4 fpPoison.toNat ++ natLe 4 1 ++ zeros 4
  if p.2.any fpBad then { d := p.1.engWrite u u.c.d 0 poison, bad := true }
  else if bit (descP0 u.c) 0 && fpBad (reduceSum p.2) then { d := (p.1.countNonfinite u.t 1).engWrite u u.c.d 0 poison, bad := true }
  else
    let i := selectIndex p.2 (bit (descP0 u.c) 0) (descP1 u.c)
    { d := p.1.engWrite u u.c.d 0 (natLe 4 i ++ natLe 4 (p.2.getD i 0).toNat ++ zeros 8) }

def execSelect (tile thread : Nat) (c : Desc) (s : State) : Host.Outcome State Fault Refusal :=
  opCmd ocSelect tile c (fun d => d.runOp tile thread c (fun d u _ => d.select u)) s

end Sys2Proof.Machine
end

