-- ==== Sys2Proof/Machine/Mesh.lean ====
section
/-! DEFINITION. The packet plane (R56, R57, R61 to R71, R81 to R83): routing, virtual channels, arbitration in native and forerunner
mode, age and old bit, per-tenant buckets at the edge attachments, and deferral. Ports of a tile router: 0 N, 1 E, 2 S, 3 W,
4 its own tile; of EDGE[k], router 64 + k: 0 to 3 toward its boundary tiles in the order of R57, 4 + n its attachment n. -/
namespace Sys2Proof.Machine

/-! ### Geometry (R56, R57, R62) -/

/-- The boundary tiles of EDGE[k] in the order of R57. -/
def edgeTiles (k : Nat) : List Nat :=
  match k with
  | 0 => [0, 1, 2, 3]
  | 1 => [4, 5, 6, 7]
  | 2 => [7, 15, 23, 31]
  | 3 => [39, 47, 55, 63]
  | 4 => [63, 62, 61, 60]
  | 5 => [59, 58, 57, 56]
  | 6 => [56, 48, 40, 32]
  | 7 => [24, 16, 8, 0]
  | _ => []

/-- The number of attachments of EDGE[k] (R57). -/
def attachments (k : Nat) : Nat :=
  match k with
  | 0 => 3 | 1 => 1 | 2 => 2 | 3 => 2 | 4 => 2 | 5 => 2 | 6 => 1 | 7 => 1 | _ => 0

/-- The side of the mesh on which EDGE[k] lies, as a port of its boundary tiles. -/
def edgeSide (k : Nat) : Nat := k / 2

/-- The entry tile of EDGE[k] for far tile `f` (R62): its boundary tile in the column (row) of `f` clamped into its range. -/
def entryTile (k f : Nat) : Nat :=
  let c := f % 8
  let r := f / 8
  match k with
  | 0 => min c 3
  | 1 => max c 4
  | 2 => 8 * min r 3 + 7
  | 3 => 8 * max r 4 + 7
  | 4 => 56 + max c 4
  | 5 => 56 + min c 3
  | 6 => 8 * max r 4
  | _ => 8 * min r 3

/-- The tile that stands for a unit as the far end of a path: a tile itself, or the first boundary tile of its edge router
(DESIGN CHOICE for a path between two edge routers, log entry 42). -/
def farTile (u : MeshUnit) : Nat :=
  match u with
  | .tile n => n
  | .edge k _ => (edgeTiles k).getD 0 0

/-- The mesh tile at which a packet enters the mesh. -/
def Pkt.viaSrc (p : Pkt) : Nat :=
  match p.src with
  | .tile n => n
  | .edge k _ => entryTile k (farTile p.dst)

/-- The mesh tile at which a packet leaves the mesh. -/
def Pkt.viaDst (p : Pkt) : Nat :=
  match p.dst with
  | .tile n => n
  | .edge k _ => entryTile k p.viaSrc

/-- Whether a unit exists on this part (R3, R57). -/
def Die.unitOk (d : Die) (u : MeshUnit) : Bool :=
  match u with
  | .tile n => d.enabled n
  | .edge k a => decide (a < attachments k)

/-- A Swell link's attachment (R57). -/
def isLinkUnit (u : MeshUnit) : Bool :=
  match u with
  | .tile _ => false
  | .edge k a => ((k == 2 || k == 3) && a == 1) || k == 4 || k == 5

/-- The output port a packet needs at router `r` (R62): along the row to its column, then along the column, then out. -/
def Pkt.way (p : Pkt) (r : Nat) : Nat :=
  if r < 64 then
    let x := p.viaDst
    if r = x then
      match p.dst with
      | .tile _ => 4
      | .edge k _ => edgeSide k
    else if r % 8 < x % 8 then 1
    else if x % 8 < r % 8 then 3
    else if r / 8 < x / 8 then 2
    else 0
  else
    let k := r - 64
    match p.dst with
    | .edge k' a => if k' = k then 4 + a else (edgeTiles k).idxOf p.viaSrc
    | .tile _ => (edgeTiles k).idxOf p.viaSrc

/-- The neighbour of tile `t` over port `o`. -/
def neighbour (t o : Nat) : Nat :=
  match o with
  | 0 => t - 8
  | 1 => t + 1
  | 2 => t + 8
  | _ => t - 1

/-- Where a packet goes over output `o` of router `r`; none where it is delivered to the router's own tile. -/
def Pkt.next (p : Pkt) (r o : Nat) : Option Place :=
  if r < 64 then
    if o = 4 then none
    else if r = p.viaDst then
      match p.dst with
      | .edge k _ => some (.buffer (64 + k) ((edgeTiles k).idxOf r))
      | .tile _ => none
    else some (.buffer (neighbour r o) ((o + 2) % 4))
  else if o < 4 then some (.buffer ((edgeTiles (r - 64)).getD o 0) (edgeSide (r - 64)))
  else some (.attach (r - 64) (o - 4))

/-! ### Buffers (R61, R63) -/

/-- Beats of a packet (R61). -/
def Pkt.beats (p : Pkt) : Nat := (16 + p.len + 127) / 128

/-- Whether a packet at attachment `att` of EDGE[k] is on its way into the mesh. -/
def Pkt.inbound (p : Pkt) (k att : Nat) : Bool := p.src == .edge k att

/-- Whether two packets at a place share a direction: the two directions of an attachment do not block each other (R72). -/
def sameWay (pl : Place) (p q : Pkt) : Bool :=
  match pl with
  | .attach k a => p.inbound k a == q.inbound k a
  | _ => true

/-- Beats at a place that stand in the way of packet `p`: those of its virtual channel and direction. -/
def Mesh.beatsAt (m : Mesh) (pl : Place) (p : Pkt) : Nat :=
  ((m.pkts.filter (fun q => q.place == pl && q.vc == p.vc && sameWay pl p q)).map Pkt.beats).sum

/-- Whether a place takes a packet: 8 beats per virtual channel, or an empty buffer for one of 9 beats (R63). -/
def Mesh.room (m : Mesh) (pl : Place) (p : Pkt) : Bool :=
  let b := m.beatsAt pl p
  b == 0 || decide (b + p.beats ≤ 8)

/-- The input port of router `r` at which a packet waits, if it does. -/
def Pkt.inputAt (p : Pkt) (r : Nat) : Option Nat :=
  match p.place with
  | .injection => match p.src with
    | .tile n => if n = r then some 4 else none
    | .edge _ _ => none
  | .buffer r' i => if r' = r then some i else none
  | _ => none

/-- The first packet of each input and virtual channel of router `r`, with its input port (R63). -/
def headsAt (r : Nat) (l : List Pkt) (seen : List (Nat × Nat)) : List (Nat × Pkt) :=
  match l with
  | [] => []
  | p :: rest =>
    match p.inputAt r with
    | some i => if seen.contains (i, p.vc) then headsAt r rest seen else (i, p) :: headsAt r rest ((i, p.vc) :: seen)
    | none => headsAt r rest seen

/-- The packets without the first one equal to `p`, and with `p'` put last. -/
def Mesh.move (m : Mesh) (p p' : Pkt) : Mesh := { m with pkts := m.pkts.erase p ++ [p'] }

/-- The packets without the first one equal to `p`. -/
def Mesh.remove (m : Mesh) (p : Pkt) : Mesh := { m with pkts := m.pkts.erase p }

/-! ### Injection (R65, R67) -/

/-- The age of a packet (R67). -/
def Die.age (d : Die) (p : Pkt) : Nat := (d.tideNum + 4096 - p.stamp) % 4096

/-- A COMPUTE or CORE reset has been asked for: until it is asserted, tiles and the Lighthouse send nothing new (R517). -/
def Die.quiesces (d : Die) : Bool := d.boot.resets.any (fun r => (r.dom == 1 || r.dom == 2) && !r.asserted)

/-- PACKET_INJECT (R61, R64, R65, R67, R517): VC2 carries transit from link to link and nothing else, and an injection queue holds 32
packets (R71). -/
def execPacketInject (src dst : MeshUnit) (vc tenant : Nat) (body : PktBody) (sys : Bool) (s : State) :
    Host.Outcome State Fault Refusal :=
  mainCmd (fun d => d.unitOk src && d.unitOk dst && decide (src ≠ dst) && decide (vc < 3) && decide (tenant < 4096) &&
      decide (body.addr < 2 ^ 48) && decide (body.data.length ≤ 1024) && decide (d.injected src < 32) &&
      ((vc == 2) == (isLinkUnit src && isLinkUnit dst)) && !(d.computeHeld && (underCompute src || underCompute dst)) && !(d.quiesces && underCompute src))
    (fun d => d.meshIn (d.newPkt src dst vc tenant sys body.addr body.data)) s

/-! ### A hop (R62 to R68) -/

/-- Whether router `r` finds a packet: at its inputs, or, for an edge router, at its attachments and in their deferral
buffers. -/
def Pkt.foundBy (p : Pkt) (r : Nat) : Bool :=
  match p.place with
  | .attach k _ => 64 + k == r
  | .deferred k _ => 64 + k == r
  | _ => (p.inputAt r).isSome

/-- Sets the old bit of every VC0 packet of age 2,048 or more that router `r` finds, with a count and a record each (R68). -/
def Die.markOld (d : Die) (r : Nat) : Die :=
  let hit (p : Pkt) : Bool := p.foundBy r && p.vc == 0 && !p.old && decide (2048 ≤ d.age p)
  let found := d.mesh.pkts.filter hit
  let d1 := { d with mesh := { d.mesh with pkts := d.mesh.pkts.map (fun p => if hit p then { p with old := true } else p) } }
  found.foldl (fun e p => (e.bump Reg.GLB_MESH_STATUS_OLD_COUNT 1).record 0x01 5 r 0xFFFF [r, unitNumber p.src]) d1

/-- Whether injector 1 keeps output `o` of router `r` from granting on VC `vc` (R577). -/
def Die.blocked (d : Die) (r o vc : Nat) : Bool :=
  let t := d.mesh.blockTgt
  decide (0 < d.mesh.blockLeft) && bits t 24 7 == r && bits t 8 2 == vc &&
    bits t 16 2 == (if r < 64 then o else if o < 4 then 0 else 1)

/-- The routers and outputs on a packet's way from router `r`, `n` of them at most. -/
def Pkt.path (p : Pkt) (n r : Nat) : List (Nat × Nat) :=
  match n with
  | 0 => []
  | m + 1 => (r, p.way r) :: (match p.next r (p.way r) with | some (.buffer r' _) => p.path m r' | _ => [])

/-- A unit's own router. -/
def routerOf (u : MeshUnit) : Nat := match u with | .tile n => n | .edge k _ => 64 + k

/-- Injector 1 stands on the way of VC0 packets from one unit to another, or keeps a packet of that way back (R577). -/
def Die.wayBlocked (d : Die) (src dst : MeshUnit) : Bool :=
  let p : Pkt :=
    { src := src, dst := dst, vc := 0, tenant := 0, sys := false, addr := 0, data := [], stamp := 0, old := false, place := .injection }
  decide (0 < d.mesh.blockLeft) && (p.path 24 (routerOf src)).any (fun x => d.blocked x.1 x.2 0)

/-- Injector 1 delays a DRAM request of tile `t`, on its way there or back (R577). -/
def Die.reqBlocked (d : Die) (t a : Nat) : Bool :=
  let m : MeshUnit := .edge (dramPlace a).edge 0
  isDram a && (d.wayBlocked (.tile t) m || d.wayBlocked m (.tile t))

/-- Injector 1 keeps back a packet for tile `t` (R577). -/
def Die.pktBlocked (d : Die) (t : Nat) : Bool :=
  let r := bits d.mesh.blockTgt 24 7
  decide (0 < d.mesh.blockLeft) && (headsAt r d.mesh.pkts []).any (fun q => q.2.dst == .tile t && d.blocked r (q.2.way r) q.2.vc)

/-- Whether the clock of router `r` runs (R73, R74): an edge router's always, a tile router's unless its tile is held in reset,
parked or gated. A router that stands still holds what it has and takes nothing. -/
def Die.routerRuns (d : Die) (r : Nat) : Bool :=
  decide (64 ≤ r) || (!d.tileHeld r && !(d.tile r).parked && !d.sense.gated)

/-- Whether a packet can go on to a place: it has room, and the router there runs. -/
def Die.takes (d : Die) (pl : Place) (p : Pkt) : Bool :=
  d.mesh.room pl p && (match pl with | .buffer r _ => d.routerRuns r | _ => true)

/-- The heads of router `r` that may take output `o` now. -/
def Die.ready (d : Die) (r o : Nat) : List (Nat × Pkt) :=
  (headsAt r d.mesh.pkts []).filter (fun q =>
    q.2.way r == o && !d.blocked r o q.2.vc &&
      (match q.2.next r o with | some pl => d.takes pl q.2 | none => true))

/-- Index of the round-robin pointer of (router, output, VC). -/
def rrIx (r o vc : Nat) : Nat := (r * 16 + o) * 4 + vc

/-- The first of the candidates in round-robin order among input ports, after the port granted last. -/
def Die.roundRobin (d : Die) (r o vc : Nat) (l : List (Nat × Pkt)) : Option (Nat × Pkt) :=
  let from_ := amGet 0 d.mesh.rr (rrIx r o vc)
  let dist (q : Nat × Pkt) : Nat := (q.1 + 16 - from_) % 16
  l.foldl (fun b q => match b with
    | none => some q
    | some x => if dist q < dist x then some q else some x) none

/-- Age arbitration acts: native mode with AGE_EN (R65, R67, R81). -/
def Die.ageArb (d : Die) : Bool := !d.on Reg.GLB_MESH_CTRL_MODE && d.on Reg.GLB_MESH_CTRL_AGE_EN

/-- The VC0 packets an output chooses among (R67, R68): with age arbitration the old ones, or else those of greatest age. -/
def Die.vc0Choice (d : Die) (l : List (Nat × Pkt)) : List (Nat × Pkt) :=
  if !d.ageArb then l
  else
    let olds := l.filter (fun q => q.2.old)
    if olds.isEmpty then
      let top := l.foldl (fun m q => max m (d.age q.2)) 0
      l.filter (fun q => d.age q.2 == top)
    else olds

/-- The packet that output `o` of router `r` grants (R64): VC1 first; VC0 and VC2 in turn where both wait, VC2 the first time (DESIGN
CHOICE, log entry 55). -/
def Die.grant (d : Die) (r o : Nat) : Option (Nat × Pkt) :=
  let l := d.ready r o
  let on (v : Nat) := l.filter (fun q => q.2.vc == v)
  if !(on 1).isEmpty then d.roundRobin r o 1 (on 1)
  else
    let v : Nat := if (on 0).isEmpty then 2 else if (on 2).isEmpty then 0
      else if amGet false d.mesh.lastVc2 (r * 16 + o) then 0 else 2
    if v = 0 then d.roundRobin r o 0 (d.vc0Choice (on 0)) else d.roundRobin r o 2 (on 2)

/-- A packet reaches its unit. What comes over a Swell link on VC0 for the edge DMA feeds that link's receive stream (R403). -/
def Die.deliverPkt (d : Die) (p : Pkt) : Die :=
  (match unitLink p.src with
   | some k => if p.vc = 0 ∧ p.dst = MeshUnit.edge 0 1 then d.modLink k (fun l => { l with rxStream := l.rxStream ++ p.data }) else d
   | none => d).emit (.delivered p.src p.dst p.vc p.tenant p.addr p.data)

/-- A granted packet moves one hop, or is delivered. -/
def Die.hop (d : Die) (r o : Nat) (q : Nat × Pkt) : Die :=
  let m := { d.mesh with
    rr := amSet 0 d.mesh.rr (rrIx r o q.2.vc) (q.1 + 1),
    lastVc2 := if q.2.vc = 1 then d.mesh.lastVc2 else amSet false d.mesh.lastVc2 (r * 16 + o) (q.2.vc == 2) }
  match q.2.next r o with
  | some pl => { d with mesh := m.move q.2 { q.2 with place := pl } }
  | none => ({ d with mesh := m.remove q.2 }).deliverPkt q.2

def Die.packetHop (d : Die) (r o : Nat) : Die :=
  let d1 := d.markOld r
  match d1.grant r o with
  | some q => d1.hop r o q
  | none => d1

/-- PACKET_HOP: one grant of output `outPort` of a router. -/
def execPacketHop (router outPort : Nat) (s : State) : Host.Outcome State Fault Refusal :=
  mainCmd (fun d => (decide (router < 64 ∧ outPort < 5) || decide (64 ≤ router ∧ router < 72 ∧
      outPort < 4 + attachments (router - 64))) && d.routerRuns router)
    (fun d => d.packetHop router outPort) s

/-! ### Attachments, buckets and deferral (R69, R70) -/

/-- Key of a bucket. -/
def bktIx (k tenant : Nat) : Nat := 4096 * k + tenant

/-- The level of a tenant's bucket at EDGE[k]: a bucket that nothing has moved is full once the buckets have acted (R69). -/
def Die.bucket (d : Die) (k tenant : Nat) : Int :=
  (look d.mesh.bucket (bktIx k tenant)).getD (if d.mesh.bktFull then 0x4000 else 0)
def Die.setBucket (d : Die) (k tenant : Nat) (v : Int) : Die :=
  { d with mesh := { d.mesh with bucket := keep d.mesh.bucket (bktIx k tenant) v } }

/-- RATE of a tenant in force. -/
def Die.rateOf (d : Die) (tenant : Nat) : Nat := amGet 0xFFFF d.mesh.rate tenant

/-- Whether a crossing is charged (R69): VC0, no system flag, buckets acting. -/
def Die.charged (d : Die) (p : Pkt) : Bool := d.mesh.bktOn && p.vc == 0 && !p.sys

/-- Whether a packet can be held at an attachment (R69): it would be charged, and its tenant's RATE is not 0xFFFF. -/
def Die.holdable (d : Die) (p : Pkt) : Bool := d.charged p && decide (d.rateOf p.tenant ≠ 0xFFFF)

/-- Whether the bucket of EDGE[k] lets a packet cross. -/
def Die.eligible (d : Die) (k : Nat) (p : Pkt) : Bool :=
  !d.holdable p || decide (0 < d.bucket k p.tenant)

/-- Charges a crossing: the payload in whole 64-byte tokens (R69). -/
def Die.charge (d : Die) (k : Nat) (p : Pkt) : Die :=
  if d.charged p then d.setBucket k p.tenant (d.bucket k p.tenant - ((p.len + 63) / 64 : Nat)) else d

/-- Packets deferred at an attachment, oldest first. -/
def Die.deferredAt (d : Die) (k att : Nat) : List Pkt := d.mesh.pkts.filter (fun p => p.place == .deferred k att)

/-- Whether the far side of the attachment takes the packet. -/
def Die.crossRoom (d : Die) (k att : Nat) (p : Pkt) : Bool :=
  !p.inbound k att || d.takes (.buffer (64 + k) (4 + att)) p

/-- A packet that leaves a Swell link's attachment frees the receive buffer it held (R455). -/
def Die.leaveRx (d : Die) (k att : Nat) (p : Pkt) : Die := if p.place == .attach k att then d.freeHeld p else d

/-- A packet crosses the attachment port: charged, then into the router's input, or out to the attachment: onto a Swell link, or
to its unit (R60, R69). One from a Swell link frees its receive buffer (R455). -/
def Die.cross (d : Die) (k att : Nat) (p : Pkt) : Die :=
  let d1 := (d.charge k p).leaveRx k att p
  if p.inbound k att then { d1 with mesh := d1.mesh.move p { p with place := .buffer (64 + k) (4 + att) } }
  else
    let d2 := { d1 with mesh := d1.mesh.remove p }
    match unitLink p.dst with
    | some n => d2.linkOut n p
    | none => d2.deliverPkt p

/-- A packet moves into the deferral buffer; the one that fills it sets DEFER_FULL, with a record (R70). -/
def Die.deferPkt (d0 : Die) (k att : Nat) (p : Pkt) : Die :=
  let d := d0.leaveRx k att p
  let d1 := { d with mesh := d.mesh.move p { p with place := .deferred k att } }
  if (d1.deferredAt k att).length = 64 then
    (d1.put Reg.GLB_MESH_STATUS_DEFER_FULL (setBits (d1.get Reg.GLB_MESH_STATUS_DEFER_FULL) k 1 1)).record 0x01 6 (64 + k)
      0xFFFF [k]
  else d1

/-- Whether a head must wait behind a deferred packet: of its tenant (R70), or of its own source and destination, since their order is
kept (R63). One that R69 never holds passes (DEDUCED, log entry 55). -/
def Die.behind (d : Die) (k att : Nat) (p : Pkt) : Bool :=
  d.holdable p && (d.deferredAt k att).any (fun q => q.tenant == p.tenant || (q.src == p.src && q.dst == p.dst))

/-- The deferred packet of a tenant that may go next: its oldest, with no earlier deferred packet of the same source and destination
(R63, R70). -/
def Die.deferredNext (d : Die) (k att tenant : Nat) : Option Pkt :=
  let l := d.deferredAt k att
  match l.find? (fun p => p.tenant == tenant) with
  | none => none
  | some p => if l.find? (fun q => q.src == p.src && q.dst == p.dst) == some p then some p else none

/-- The heads at an attachment: the first packet of each direction and virtual channel. -/
def attachHeads (k att : Nat) (l : List Pkt) (seen : List (Bool × Nat)) : List Pkt :=
  match l with
  | [] => []
  | p :: rest =>
    let key := (p.inbound k att, p.vc)
    if p.place == .attach k att && !seen.contains key then p :: attachHeads k att rest (key :: seen)
    else attachHeads k att rest seen

/-- What an attachment can do with a head: let it cross, or defer it. -/
def Die.canAct (d : Die) (k att : Nat) (p : Pkt) : Bool :=
  if d.eligible k p && !d.behind k att p then d.crossRoom k att p
  else decide ((d.deferredAt k att).length < 64)

def Die.attachmentCross (d0 : Die) (k att : Nat) : Die :=
  let d := d0.markOld (64 + k)
  let l := (attachHeads k att d.mesh.pkts []).filter (fun p => d.canAct k att p)
  let pick := match l.find? (fun p => p.vc == 1) with
    | some p => some p
    | none => l.head?
  match pick with
  | none => d
  | some p => if d.eligible k p && !d.behind k att p then d.cross k att p else d.deferPkt k att p

/-- ATTACHMENT_CROSS: the first head of the attachment that can act is tested against its tenant's bucket; it crosses, or
moves into the deferral buffer. The spec does not say which head acts first: a VC1 head does, else the earliest at the attachment
(DESIGN CHOICE, log entry 55). -/
def execAttachmentCross (edge att : Nat) (s : State) : Host.Outcome State Fault Refusal :=
  mainCmd (fun _ => decide (att < attachments edge)) (fun d => d.attachmentCross edge att) s

def Die.deferredRelease (d0 : Die) (k att tenant : Nat) : Die :=
  let d := d0.markOld (64 + k)
  match d.deferredNext k att tenant with
  | some p => if d.eligible k p && d.crossRoom k att p then d.cross k att p else d
  | none => d

/-- DEFERRED_PACKET_RELEASE: the oldest deferred packet of a tenant crosses once its bucket holds tokens (R70) and none of its source and
destination waits before it (R63). -/
def execDeferredPacketRelease (edge att tenant : Nat) (s : State) : Host.Outcome State Fault Refusal :=
  mainCmd (fun _ => decide (att < attachments edge)) (fun d => d.deferredRelease edge att tenant) s

/-- The tenants whose GLB_TBKT registers differ from their reset values, or whose bucket is not that of a tenant left alone. -/
def Die.bktTenants (d : Die) : List Nat :=
  d.mesh.bucket.foldl (fun l p => addOnce l (p.1 % 4096))
    ((d.regs.filter (fun p => within 0x8000 0x10000 p.1)).foldl (fun l p => addOnce l ((p.1 - 0x8000) / 8)) [])

/-- The buckets at a tide boundary (R69, R81, R83): BKT_EN and the RATEs written take effect; each bucket gains RATE, capped
at BURST, that of a tenant never held too. -/
def Die.bucketBoundary (d : Die) : Die :=
  let ts := d.bktTenants
  let rate := ts.foldl (fun m t => amSet 0xFFFF m t (d.get (Reg.GLB_TBKT_RATE_RATE t))) []
  let d1 := { d with mesh := { d.mesh with bktOn := d.on Reg.GLB_MESH_CTRL_BKT_EN, rate := rate } }
  if d1.mesh.bktOn then
    let d2 := ts.foldl (fun e t => (List.range 8).foldl (fun e k =>
      e.setBucket k t (min (e.bucket k t + d.get (Reg.GLB_TBKT_RATE_RATE t)) (d.get (Reg.GLB_TBKT_BURST_BURST t)))) e) d1
    { d2 with mesh := { d2.mesh with bktFull := true } }
  else d1

/-! ### GLB_MESH_CTRL (R66, R81) -/

/-- MODE and AGE_EN may change now (R66). -/
def Die.meshOpen (d : Die) : Bool := d.computeHeld || !d.boot.broadcast

/-- GLB_MESH_CTRL is written (R66, R83); where it sets BKT_EN the firmware programs the buckets (R361). -/
def Die.meshCtrl (d : Die) (ag : Agent) (word : Nat) : Die :=
  let change := decide (bits word 0 2 ≠ bits (d.getW Reg.GLB_MESH_CTRL).toNat 0 2)
  let d1 := d.put Reg.GLB_MESH_CTRL_BKT_EN (bits word 2 1)
  let d2 := if bits word 2 1 = 0 then { d1 with mesh := { d1.mesh with bktOn := false } }
    else if d.on Reg.GLB_MESH_CTRL_BKT_EN || !d.fwRuns then d1 else d1.bktProgram
  if change && !d2.meshOpen then (d2.recordA 0x01 7 0xFF 0xFFFF ag Reg.GLB_MESH_CTRL word stOk).answer ag stOk
  else ((d2.put Reg.GLB_MESH_CTRL_AGE_EN (bits word 1 1)).put Reg.GLB_MESH_CTRL_MODE (bits word 0 1)).answer ag stOk

/-- MESH_CTRL_WRITE. -/
def execMeshCtrlWrite (ag : Agent) (word : Nat) (s : State) : Host.Outcome State Fault Refusal :=
  mainCmd (fun d => d.mayControl ag) (fun d => d.meshCtrl ag (word % 2 ^ 32)) s

end Sys2Proof.Machine
end

