-- ==== Sys2Proof/Machine/Sounding.lean ====
section
/-! DEFINITION. The SOUND operation (R306 to R312, R317, R318, R323): the comparison of a captured item with the golden recomputation. -/
namespace Sys2Proof.Machine

/-! ### The item (R308) -/

/-- A sounding item as SOUND reads it: input codes, header words, the column words of both phases, residuals, the predictor sums,
its block, the identity of its stroke, and its golden page. -/
structure SoundItem where
  codes : List Int
  header : List Nat
  w0 : List Nat
  w1 : List Nat
  offr : List Int
  p0 : Nat
  p1 : Nat
  block : Nat
  tag : Nat
  step : Nat
  pos : Nat
  layer : Nat
  page : Nat

def soundItem (b : List Byte) : SoundItem :=
  { codes := (b.take 512).map (fun y => sx 8 y.toNat), header := (List.range 4).map (fun i => leAt b (512 + 4 * i) 4),
    w0 := (List.range 32).map (fun j => leAt b (528 + 2 * j) 2), w1 := (List.range 32).map (fun j => leAt b (592 + 2 * j) 2),
    offr := (List.range 32).map (fun j => sx 8 (leAt b (656 + j) 1)), p0 := leAt b 688 2, p1 := leAt b 690 2, block := leAt b 692 1,
    tag := leAt b 694 2, step := leAt b 696 4, pos := leAt b 700 2, layer := leAt b 702 2, page := leAt b 704 4 }

def SoundItem.phys (x : SoundItem) : Nat := bits (x.header.getD 0 0) 0 9
def SoundItem.logical (x : SoundItem) : Nat := bits (x.header.getD 1 0) 16 8
def SoundItem.aw4 (x : SoundItem) : Bool := bit (x.header.getD 1 0) 10
def SoundItem.gain (x : SoundItem) : Nat := bits (x.header.getD 1 0) 4 3
def SoundItem.steps (x : SoundItem) : Nat := stepsPer (bits (x.header.getD 1 0) 8 2)

/-- The sum of squares of the codes, as 32 bits. -/
def SoundItem.sumX2 (x : SoundItem) : Nat := (x.codes.map (fun c => (c * c).toNat)).sum % 2 ^ 32

/-- The ideal column value of column `j` of the block, from the golden image (R159). -/
def SoundItem.ideal (x : SoundItem) (image : List Byte) (j : Nat) : Int := idealValue x.codes image (32 * x.block + j)

/-! ### The comparison (R309) -/

/-- The figures of the tile and the array that enter the comparison: K * 4, SYS_GAIN and SPREAD in 0.01 %, OFF_ALLOW in 1/16. -/
structure SoundCfg where
  k4 : Nat
  sysGain : Nat
  offAllow : Nat
  spread : Nat

/-- A column's phase-1 word: zero at A4 (R309). -/
def SoundItem.word1 (x : SoundItem) (j : Nat) : Nat := if x.aw4 then 0 else x.w1.getD j 0

/-- Conversions that its phase-1 word stands for: of a zero word, one (R154, R309; DEDUCED, log entry 47). -/
def SoundItem.conv1 (x : SoundItem) (j : Nat) : Nat := conversions (x.word1 j)

/-- v in sixteenths of a code. -/
def SoundItem.v16 (x : SoundItem) (j : Nat) : Int :=
  let a := x.w0.getD j 0
  let off := x.offr.getD j 0
  16 * sx 9 a - conversions a * off + 256 * sx 9 (x.word1 j) - 16 * x.conv1 j * off

/-- |v - e| over 16 * 2^g, with its sign: numerator. -/
def SoundItem.diffNum (x : SoundItem) (e : Int) (j : Nat) : Int := x.v16 j * 2 ^ x.gain - 32 * e

/-- The systematic part of the tolerance over 160000 * 2^g: numerator. -/
def SoundItem.linNum (x : SoundItem) (c : SoundCfg) (e : Int) (j : Nat) : Nat :=
  let nl := if 2048 < max x.p0 x.p1 then 6 else 2
  (c.sysGain + 10 * nl) * 32 * e.natAbs + c.offAllow * (conversions (x.w0.getD j 0) + 16 * x.conv1 j) * 10000 * 2 ^ x.gain

/-- The variance as a fraction: numerator and denominator. -/
def SoundItem.variance (x : SoundItem) (c : SoundCfg) (e : Int) (j : Nat) : Nat × Nat :=
  let g4 := 4 ^ x.gain
  let s2 := x.steps * x.steps
  ((conversions (x.w0.getD j 0) + 256 * x.conv1 j) * 10 ^ 8 * s2 * g4 + 16 * 707 ^ 2 * x.sumX2 + 16 * c.spread ^ 2 * e.natAbs ^ 2 * s2,
   4 * 10 ^ 8 * s2 * g4)

/-- Whether |v - e| exceeds the tolerance, decided exactly. -/
def SoundItem.fails (x : SoundItem) (c : SoundCfg) (e : Int) (j : Nat) : Bool :=
  let excess : Int := (x.diffNum e j).natAbs * 10000 - x.linNum c e j
  let dd := 160000 * 2 ^ x.gain
  let v := x.variance c e j
  decide (0 < excess) && decide (c.k4 ^ 2 * v.1 * dd ^ 2 < excess.natAbs ^ 2 * 16 * v.2)

/-- The difference and the tolerance in codes, as FP32. -/
def SoundItem.diffFp (x : SoundItem) (e : Int) (j : Nat) : Word := fpOfRat (x.diffNum e j) (16 * 2 ^ x.gain)
def SoundItem.tolFp (x : SoundItem) (c : SoundCfg) (e : Int) (j : Nat) : Word :=
  let v := x.variance c e j
  fpAdd (fpSqrtRat (c.k4 ^ 2 * v.1) (16 * v.2) 0) (fpOfRat (x.linNum c e j) (160000 * 2 ^ x.gain))

/-- Columns of the block left out: a clip in either phase, or masked. -/
def Die.soundExcluded (d : Die) (t : Nat) (x : SoundItem) (j : Nat) : Bool :=
  bit (x.w0.getD j 0) 15 || bit (x.word1 j) 15 ||
  bit (d.getW (Reg.SND_MASK t x.phys x.block)).toNat j

/-- The column of the block whose difference exceeds its tolerance by most, or falls short of it by least (log entry 48). -/
def worstOf (l : List (Nat × Word × Word)) : Nat × Word × Word :=
  (l.foldl (fun b q => match b with
    | none => some q
    | some y => if fpLt (fpSub (fpAbs y.2.1) y.2.2) (fpSub (fpAbs q.2.1) q.2.2) then some q else some y)
    (none : Option (Nat × Word × Word))).getD (0, 0, 0)

/-! ### Counts and reports -/

/-- The firmware takes the codes of an item into the statistics of its logical array (R323). -/
def Die.soundStats (d : Die) (t : Nat) (x : SoundItem) : Die :=
  let key := 256 * t + x.logical
  let r := amGet {} d.upkeep.stats key
  let r1 : RowStats := { items := r.items + 1, sums := (r.sums.zip x.codes).map (fun p => p.1 + p.2),
                         squares := (r.squares.zip x.codes).map (fun p => p.1 + (p.2 * p.2).toNat) }
  { d with upkeep := { d.upkeep with stats := amSet {} d.upkeep.stats key r1 } }

/-- Context and tenant of a berth in a step that the firmware still remembers (R318). -/
def Die.berthOwner (d : Die) (step berth : Nat) : Nat × Nat :=
  match ((d.serve.steps.reverse ++ d.serve.log).take 64).find? (fun r => r.step == step && !r.old) with
  | some r => match r.berths.find? (fun b => b.berth == berth) with
    | some b => (b.ctx, b.tenant)
    | none => (0xFFFFFFFF, 0xFFFF)
  | none => (0xFFFFFFFF, 0xFFFF)

/-- The full tide number whose low 32 bits an item holds. -/
def Die.tideOfLow (d : Die) (low : Nat) : Nat := d.tideNum - (d.tideNum + 2 ^ 32 - low) % 2 ^ 32

/-- The berth of an item (R318): with TAG bit 4 set, the stroke's number within its descriptor counts on from the berth that TAG
carries. -/
def berthOf (tag index : Nat) : Nat := if bit tag 4 && decide (tag / 32 ≠ 0x7FF) then tag / 32 + index else tag / 32

/-- What a report says of a failed item (R318, R319). -/
def Die.soundReport (d : Die) (t slot : Nat) (x : SoundItem) (worst : Nat × Word × Word) (nfail : Nat) : Report :=
  let berth := berthOf x.tag ((look (d.tile t).sndIndex slot).getD 0)
  let own := d.berthOwner x.step berth
  { kind := 1, tile := t, block := x.block, phys := x.phys, logical := x.logical, column := 32 * x.block + worst.1,
    matrix := d.matrixOf t x.logical, layer := x.layer, berth := berth, ctx := own.1, tenant := own.2, pos := x.pos,
    strokeTide := d.tideOfLow (x.header.getD 2 0), step := x.step, diff := worst.2.1.toNat, tol := worst.2.2.toNat, nfail := nfail }

/-- Items compared at the head of the ring free their places (R307, R316). -/
def Die.ringAdvance (d : Die) (t n : Nat) : Die :=
  match n with
  | 0 => d
  | k + 1 =>
    let x := d.tile t
    let items := d.rgnSize t 254 / 1024
    if x.sndHeld = 0 ∨ d.byteAt (d.rgnAddr t 254 (1024 * x.sndHead + 693)) = 1 then d
    else ((d.setTile t { x with sndHeld := x.sndHeld - 1, sndHead := if items = 0 then 0 else (x.sndHead + 1) % items }).put
      (Reg.SND_TILE_STATUS_DEPTH t) (x.sndHeld - 1)).ringAdvance t k

/-- An item skipped for poison (R310). -/
def Die.soundSkip (d : Die) (u : Cur) (phys : Nat) : Die :=
  ((d.engWrite u u.c.a 693 [4]).bump (Reg.SND_TILE_SKIP_POISON_COUNT u.t) 1).bump (Reg.SND_SKIP_COUNT u.t phys) 1

/-- The result fields of an item (R308). -/
def soundResult (x : SoundItem) (worst : Nat × Word × Word) (nfail nexcl : Nat) : List Byte :=
  natLe 4 x.sumX2 ++ natLe 1 worst.1 ++ natLe 1 nfail ++ natLe 1 nexcl ++ natLe 1 0 ++ natLe 4 worst.2.1.toNat ++
  natLe 4 worst.2.2.toNat ++ zeros 8

/-- An item is compared (R309, R312, R314, R317). -/
def Die.soundCompare (d : Die) (u : Cur) (x : SoundItem) (image : List Byte) : Die :=
  let t := u.t
  let cfg : SoundCfg := { k4 := d.get (Reg.SND_TILE_CTRL_K4 t), sysGain := d.get (Reg.SND_TILE_CTRL_SYS_GAIN t),
                          offAllow := d.get (Reg.SND_TILE_CTRL_OFF_ALLOW t), spread := d.get (Reg.SND_CFG_SPREAD t x.phys) }
  let cols := (List.range 32).filter (fun j => !d.soundExcluded t x j)
  let nexcl := 32 - cols.length
  let bad := cols.filter (fun j => x.fails cfg (x.ideal image j) j)
  let worst := worstOf (cols.map (fun j => (j, x.diffFp (x.ideal image j) j, x.tolFp cfg (x.ideal image j) j)))
  let failed := !bad.isEmpty
  let d1 := (d.engWrite u u.c.a 693 [if failed then 3 else 2]).engWrite u u.c.a 712 (soundResult x worst bad.length nexcl)
  let d2 := ((d1.bump (Reg.SND_TILE_DONE_COUNT t) 1).bump (Reg.SND_TILE_COL_EXCL_COUNT t) nexcl).soundStats t x
  if failed then
    let d3 := (((d2.bump (Reg.SND_TILE_FAIL_COUNT t) 1).bump (Reg.SND_FAIL_COUNT t x.phys) 1).raise (Reg.SND_TILE_STATUS_FAIL t)).putW
      (Reg.SND_LAST t x.phys) (w32 (x.header.getD 2 0))
    d3.soundFailed t x.phys x.logical (d3.soundReport t (opOff u.c.a / 1024) x worst bad.length)
  else d2

/-- The 512 sectors of an item's golden page: of each row the one that holds the block's 16 bytes. -/
def soundSectors (page block : Nat) : List (Nat × Nat) :=
  (List.range 512).map (fun r => (pageAddr page + 128 * r + 16 * block / 64 * 64, 64))

/-- The golden page of an item; none where a sector that SOUND fetches is refused, which is a fault, or poisoned (R310, R386). -/
def Die.soundImage (d : Die) (u : Cur) (x : SoundItem) : Die × Option (List Byte) :=
  let l := soundSectors x.page x.block
  if !l.all (fun p => d.reqAllowed u p.1 p.2) then (d.tileFault u.t fkRight u.th (descOp u.c) 0xFF 0 (descTag u.c), none)
  else if l.any (fun p => d.rangePoison p.1 p.2) then (d, none)
  else (d, some (d.bytesAt (pageAddr x.page) 65536))

/-- SOUND on its item: compared, or skipped where golden data are poisoned or the item cannot be read. -/
def Die.sound (d : Die) (u : Cur) : Die :=
  let p := d.engRead u u.c.a 0 736
  match p.2 with
  | none => p.1.ringAdvance u.t 1
  | some b =>
    let x := soundItem b
    let q := p.1.soundImage u x
    let d1 := match q.2 with
      | none => q.1.soundSkip u x.phys
      | some image => q.1.soundCompare u x image
    d1.ringAdvance u.t (d1.tile u.t).sndHeld

/-- What SOUND asks of DRAM for the item at A. -/
def Die.soundAsks (d : Die) (u : Cur) : List (Nat × Nat) :=
  let a := d.rgnAddr u.t (opRgn u.c.a) (opOff u.c.a)
  soundSectors (d.leMem (a + 704) 4) (d.leMem (a + 692) 1)

def execSound (tile thread : Nat) (c : Desc) (s : State) : Host.Outcome State Fault Refusal :=
  opCmd ocSound tile c (fun d => d.runFetch tile thread c (fun d u => d.soundAsks u) (fun d u _ => { d := d.sound u })) s

end Sys2Proof.Machine
end

