-- ==== Sys2Proof/Machine/TideLoad.lean ====
section
/-! DEFINITION. The tide-table image (R229 to R237) and the loader's checks (R240). -/
namespace Sys2Proof.Machine

/-! ### Reading the image -/

/-- The eight section entries (R230): type, offset, size, count. -/
def imgSections (img : List Byte) : List (Nat × Nat × Nat × Nat) :=
  (List.range 8).map (fun i =>
    (leAt img (128 + 16 * i) 4, leAt img (132 + 16 * i) 4, leAt img (136 + 16 * i) 4, leAt img (140 + 16 * i) 4))

/-- Offset, size and count of the first section of a type; zeros where there is none. -/
def imgSection (img : List Byte) (ty : Nat) : Nat × Nat × Nat :=
  match (imgSections img).find? (fun s => s.1 == ty) with
  | some s => s.2
  | none => (0, 0, 0)

/-- The entries of a section whose entries have `n` bytes. -/
def imgEntries (img : List Byte) (ty n : Nat) : List (List Byte) :=
  let s := imgSection img ty
  (List.range s.2.2).map (fun i => (img.drop (s.1 + n * i)).take n)

/-- `n` tile blocks, each of the BLOCK_SIZE it names (R231). -/
def cutBlocks (n : Nat) (bs : List Byte) : List (List Byte) :=
  match n with
  | 0 => []
  | k + 1 => bs.take (leAt bs 8 4) :: cutBlocks k (bs.drop (leAt bs 8 4))

/-- The tile blocks of the image. -/
def imgBlocks (img : List Byte) : List (List Byte) :=
  let s := imgSection img 1
  cutBlocks s.2.2 ((img.drop s.1).take s.2.1)

/-- A preload entry (R232). -/
def readPreload (b : List Byte) : Preload :=
  { kind := leAt b 0 1, mark := bit (leAt b 1 1) 0, dst := leAt b 4 4, len := leAt b 8 4, src := leAt b 16 8 }

/-- The preload entries of a tile block. -/
def blockPreload (b : List Byte) : List (List Byte) :=
  (List.range (leAt b 4 4)).map (fun i => (b.drop (3136 + 32 * i)).take 32)

/-- A tile block (R231). -/
def readBlock (b : List Byte) : TileBlock :=
  { tile := leAt b 0 1, unit := leAt b 2 2,
    regions := (List.range 255).map (fun r => (leAt b (64 + 8 * r) 4, leAt b (68 + 8 * r) 4)),
    budgets := (List.range 256).map (fun l => leAt b (2112 + 4 * l) 4 % 16), preload := (blockPreload b).map readPreload }

def readTpWin (b : List Byte) : TpWin :=
  { tile := leAt b 0 1, port := leAt b 1 1, flags := leAt b 2 1, pos := leAt b 4 2, start := leAt b 6 2, bytes := leAt b 8 4,
    src := leAt b 12 4, dst := leAt b 16 4 }

def readLinkWin (b : List Byte) : LinkWin :=
  { kind := leAt b 0 1, link := leAt b 1 1, tile := leAt b 2 1, flags := leAt b 3 1, pos := leAt b 4 2, start := leAt b 6 2,
    bytes := leAt b 8 4, buf := leAt b 12 4, stream := leAt b 16 2 }

def readRefresh (b : List Byte) : RefreshWin :=
  { tile := leAt b 0 1, kind := leAt b 1 1, first := leAt b 2 1, count := (if leAt b 3 1 = 0 then 256 else leAt b 3 1),
    pos := leAt b 4 2, npos := leAt b 6 2 }

def readMatrix (b : List Byte) : Matrix :=
  { id := leAt b 0 4, layer := leAt b 4 2, flags := leAt b 6 2, rank := leAt b 8 1, k := leAt b 12 4, n := leAt b 16 4 }

def readBerth (b : List Byte) : BerthEnt :=
  { berth := leAt b 0 2, inTile := leAt b 2 1, outTile := leAt b 3 1, inOp := leAt b 4 4, outOp := leAt b 8 4 }

/-- Three bytes at an offset. -/
def three (img : List Byte) (o : Nat) : Nat × Nat × Nat := (leAt img o 1, leAt img (o + 1) 1, leAt img (o + 2) 1)

/-- The table that an image spells; a SLACK of 0 selects P/20 (R211). -/
def readTable (base : Nat) (img : List Byte) : Table :=
  let p := leAt img 40 4
  { base := base, size := leAt img 8 4, period := p, slack := (if leAt img 44 4 = 0 then p / 20 else leAt img 44 4),
    tides := leAt img 48 2, nSched := leAt img 50 1, nPool := leAt img 51 1, nSound := leAt img 52 1, lag := leAt img 53 1,
    decode := leAt img 56 2, chunk := leAt img 58 2, chunkTok := leAt img 60 2, attnBudget := leAt img 64 4,
    ext := three img 72, org := three img 75, coord := three img 78, flags := leAt img 81 1,
    tiles := (imgBlocks img).map readBlock, tp := (imgEntries img 2 32).map readTpWin,
    links := (imgEntries img 3 32).map readLinkWin, refresh := (imgEntries img 4 16).map readRefresh,
    matrices := (imgEntries img 5 32).map readMatrix, berths := (imgEntries img 6 16).map readBerth }

/-! ### Regions of a tile block (R205, R231) -/

/-- Base and size in bytes and the LIMIT word of a valid region of a tile block. -/
def TileBlock.region (b : TileBlock) (r : Nat) : Option (Nat × Nat × Nat) :=
  match b.regions[r]? with
  | some p => if bit p.2 31 then some (64 * (p.1 % 2 ^ 17), 64 * (p.2 % 2 ^ 18), p.2) else none
  | none => none

/-- Whether `n` bytes at an operand word lie in one valid region of the block whose LIMIT sets every bit of `rights`. -/
def TileBlock.holds (b : TileBlock) (w n : Nat) (rights : List Nat) : Bool :=
  match b.region (w / 2 ^ 24) with
  | some g => decide (w % 2 ^ 24 + n ≤ g.2.1) && rights.all (fun i => bit g.2.2 i)
  | none => false

/-- First byte of an operand word in the tile's SRAM. -/
def TileBlock.addr (b : TileBlock) (w : Nat) : Nat :=
  match b.region (w / 2 ^ 24) with
  | some g => g.1 + w % 2 ^ 24
  | none => 0

/-- The block of a tile. -/
def Table.block (t : Table) (n : Nat) : Option TileBlock := t.tiles.find? (fun b => b.tile == n)

/-- The tile that port `p` of tile `n` faces (R56, R233); none at the edge of the mesh. -/
def portTile (n p : Nat) : Option Nat :=
  match p with
  | 0 => if 8 ≤ n then some (n - 8) else none
  | 1 => if n % 8 < 7 then some (n + 1) else none
  | 2 => if n < 56 then some (n + 8) else none
  | 3 => if 0 < n % 8 then some (n - 1) else none
  | _ => none

/-! ### Refusals -/

/-- A refusal (R240, R251): code, section type, entry, tile. -/
abbrev LoadErr := Nat × Nat × Nat × Nat

def refuseIf (bad : Bool) (e : LoadErr) : Option LoadErr := if bad then some e else none

/-- The refusal of the first entry of a list that is bad; entries are numbered from 0. -/
def refuseFirst {α : Type} (l : List α) (bad : Nat → α → Bool) (err : Nat → α → LoadErr) : Option LoadErr :=
  ((List.range l.length).zip l).findSome? (fun p => refuseIf (bad p.1 p.2) (err p.1 p.2))

/-- Whether `n` bytes at an offset are zero. -/
def zeroAt (b : List Byte) (o n : Nat) : Bool := ((b.drop o).take n).all (fun x => x == 0)

/-- An entry of SECTIONS that is in use. -/
def usedSection (s : Nat × Nat × Nat × Nat) : Bool := s != (0, 0, 0, 0)

/-- Bytes of one entry of a section, for the types of fixed entries. -/
def entrySize (ty : Nat) : Nat := match ty with | 2 => 32 | 3 => 32 | 4 => 16 | 5 => 32 | 6 => 16 | _ => 0

/-- Code 3: sizes and offsets. -/
def checkSize (base : Nat) (img : List Byte) : Option LoadErr :=
  let size := leAt img 8 4
  let secs := imgSections img
  let bl := imgBlocks img
  let s1 := imgSection img 1
  if leAt img 6 2 ≠ 256 ∨ size = 0 ∨ size % 4096 ≠ 0 ∨ 2 ^ 28 < size ∨ goldenBase < base + size then some (3, 0, 0, 0)
  else
    [refuseFirst secs (fun _ s => usedSection s && (decide (s.2.1 % 64 ≠ 0) || decide (size < s.2.1 + s.2.2.1) ||
        (decide (2 ≤ s.1) && decide (s.1 ≤ 6) && decide (s.2.2.1 ≠ entrySize s.1 * s.2.2.2)))) (fun i _ => (3, 0, i, 0)),
     refuseFirst bl (fun _ b => decide (b.length ≠ 3136 + 32 * leAt b 4 4) || decide (leAt b 8 4 ≠ b.length))
       (fun i b => (3, 1, i, leAt b 0 1)),
     refuseIf (decide ((bl.map List.length).sum ≠ s1.2.1)) (3, 1, 0, 0)].findSome? id

/-- Code 5: fields marked zero or RSV. -/
def checkZero (img : List Byte) : Option LoadErr :=
  let preloadBad (b : List Byte) : Bool := decide (2 ≤ leAt b 1 1) || !zeroAt b 2 2 || !zeroAt b 12 4 || !zeroAt b 24 8
  let blockBad (b : List Byte) : Bool :=
    !zeroAt b 1 1 || !zeroAt b 12 52 || !zeroAt b 2104 8 ||
    (List.range 255).any (fun r => decide (2 ^ 17 ≤ leAt b (64 + 8 * r) 4) || decide (bits (leAt b (68 + 8 * r) 4) 18 7 ≠ 0)) ||
    (List.range 256).any (fun l => decide (16 ≤ leAt b (2112 + 4 * l) 4)) || (blockPreload b).any preloadBad
  [refuseIf (!zeroAt img 29 3 || !zeroAt img 54 2 || !zeroAt img 62 2 || !zeroAt img 68 4 || decide (16 ≤ leAt img 81 1) ||
     !zeroAt img 82 46) (5, 0, 0, 0),
   refuseFirst (imgBlocks img) (fun _ b => blockBad b) (fun i b => (5, 1, i, leAt b 0 1)),
   refuseFirst (imgEntries img 2 32) (fun _ b => decide (4 ≤ leAt b 2 1) || !zeroAt b 3 1 || !zeroAt b 20 12) (fun i b => (5, 2, i, leAt b 0 1)),
   refuseFirst (imgEntries img 3 32) (fun _ b => decide (4 ≤ leAt b 3 1) || !zeroAt b 18 14) (fun i b => (5, 3, i, leAt b 2 1)),
   refuseFirst (imgEntries img 4 16) (fun _ b => !zeroAt b 8 8) (fun i b => (5, 4, i, leAt b 0 1)),
   refuseFirst (imgEntries img 5 32) (fun _ b => decide (8 ≤ leAt b 6 2) || !zeroAt b 9 3 || !zeroAt b 20 12) (fun i _ => (5, 5, i, 0)),
   refuseFirst (imgEntries img 6 16) (fun _ b => !zeroAt b 12 4) (fun i _ => (5, 6, i, 0))].findSome? id

/-- Codes 6, 7, 8 and 23: the module, its chart and its placement. An image without a TILE section has no block to compare; its refusal is
code 22. -/
def Die.checkModule (d : Die) (img : List Byte) (t : Table) : Option LoadErr :=
  let unitBad (b : TileBlock) : Bool :=
    match d.unitOf b.tile with
    | some u => decide (b.unit ≠ u)
    | none => decide (b.unit < d.relay.nUnits)
  [refuseIf (leAt img 28 1 != (if d.nv.gradeB then 0x42 else 0x41)) (6, 0, 0, 0),
   refuseIf (leAt img 32 8 != d.nv.tileMap) (7, 0, 0, 0),
   refuseIf (d.relay.state != rsReady || leAt img 16 8 != d.relay.modelId || leAt img 24 4 != d.relay.chartCrc) (8, 0, 0, 0),
   refuseFirst t.tiles (fun i b => d.enabledTiles[i]? != some b.tile || unitBad b) (fun i b => (23, 1, i, b.tile)),
   refuseIf ((imgSections img).any (fun s => s.1 == 1) && decide (t.tiles.length ≠ d.enabledTiles.length)) (23, 1, t.tiles.length, 0)].findSome? id

/-- Codes 9 to 12: the slice, and the ranges of the header and of the matrix and berth entries. -/
def Die.checkHeader (d : Die) (img : List Byte) (t : Table) : Option LoadErr :=
  let size := d.torusSize
  let slack := leAt img 44 4
  let n := t.decode + t.chunk
  [refuseIf (!d.on Reg.GLB_COORD_VALID || t.coord != d.here || !d.sliceFits t.ext t.org t.flags || decide (size.1 ≤ t.org.1) ||
     decide (size.2.1 ≤ t.org.2.1) || decide (size.2.2 ≤ t.org.2.2) ||
     !(d.sliceNeeds t).all (fun k => d.linkUp k && decide (d.get (Reg.LNK_STATUS_CHECK k) = 1))) (9, 0, 0, 0),
   refuseIf (decide (t.period % 64 ≠ 0) || decide (t.period < 1024) || decide (65536 < t.period) ||
     !(slack == 0 || (decide (64 ≤ slack) && decide (slack ≤ t.period / 2))) || decide (t.tides = 0) || decide (16384 < t.tides) ||
     decide (t.lag = 0) || decide (7 < t.lag)) (10, 0, 0, 0),
   refuseIf (decide (t.nSched = 0) || decide (64 < t.nSched + t.nPool + t.nSound)) (11, 0, 0, 0),
   refuseIf (decide (1024 < t.decode) || decide (64 < t.chunk) || decide (n = 0) ||
     !(if t.chunk = 0 then t.chunkTok == 0 else decide (t.chunkTok % 16 = 0) && decide (16 ≤ t.chunkTok) && decide (t.chunkTok ≤ 8192)) ||
     decide (t.attnBudget = 0) || decide (2 ^ 30 < t.attnBudget) || decide (t.berths.length ≠ n)) (12, 0, 0, 0),
   refuseFirst t.matrices (fun _ m => decide (1023 < m.layer) || !([0, 8, 16, 32, 64].contains m.rank)) (fun i _ => (12, 5, i, 0)),
   refuseFirst t.berths (fun i b => decide (n ≤ b.berth) || (t.berths.take i).any (fun x => x.berth == b.berth) ||
     !d.enabled b.inTile || !d.enabled b.outTile) (fun i _ => (12, 6, i, 0))].findSome? id

/-- Code 13: regions and berth buffers. -/
def Table.checkRegions (t : Table) : Option LoadErr :=
  let blockBad (b : TileBlock) : Bool :=
    let gs := (List.range 255).filterMap (fun r => (b.region r).map (fun g => (r, g.1, g.2.1)))
    gs.any (fun g => decide (g.2.2 = 0) || decide (0x800000 < g.2.2) || decide (0x800000 < g.2.1 + g.2.2)) ||
    gs.any (fun g => gs.any (fun h => decide (g.1 ≠ h.1) && decide (g.2.1 < h.2.1 + h.2.2) && decide (h.2.1 < g.2.1 + g.2.2))) ||
    !b.holds 0 (4 * t.tides * t.nSched) [rightR, rightDS]
  let bufBad (n w : Nat) : Bool :=
    match t.block n with
    | some b => !b.holds w 1 [30, rightPK]
    | none => !t.tiles.isEmpty
  [refuseFirst t.tiles (fun _ b => blockBad b) (fun i b => (13, 1, i, b.tile)),
   refuseFirst t.berths (fun _ b => bufBad b.inTile b.inOp) (fun i b => (13, 6, i, b.inTile)),
   refuseFirst t.berths (fun _ b => bufBad b.outTile b.outOp) (fun i b => (13, 6, i, b.outTile))].findSome? id

/-! ### Streams (R190, R225, R231) -/

/-- Bytes that a preload entry copies. -/
def Die.preloadBytes (d : Die) (base : Nat) (p : Preload) : List Byte :=
  d.bytesAt (if p.kind = 0 then base + p.src else goldenBase + p.src) p.len

/-- Region 0 of a tile as its preload entries leave it, from zeroed SRAM. -/
def Die.region0 (d : Die) (base : Nat) (b : TileBlock) : List Byte :=
  match b.region 0 with
  | none => []
  | some g => (b.preload.filter (fun p => p.dst / 2 ^ 24 == 0 && decide (p.dst + p.len ≤ g.2.1))).foldl
      (fun l p => splice l p.dst (d.preloadBytes base p)) (zeros g.2.1)

/-- The descriptors of the stream at offset `o` up to its TIDE_END; none where it has none within the bytes. -/
def streamDescs (n : Nat) (bs : List Byte) (o : Nat) : Option (List Desc) :=
  match n with
  | 0 => none
  | k + 1 =>
    if bs.length < o + 32 then none
    else
      let w (i : Nat) : Word := w32 (leAt bs (o + 4 * i) 4)
      let c : Desc := { w0 := w 0, w1 := w 1, a := w 2, b := w 3, d := w 4, x := w 5, p1 := w 6, w7 := w 7 }
      if descOp c = ocTideEnd then some [c] else (streamDescs k bs (o + 32)).map (fun l => c :: l)

/-- The stream of position `p` and SCHED thread `th`: none where it is refused, an empty one where there is none. -/
def Table.stream (t : Table) (bs : List Byte) (p th : Nat) : Option (List Desc) :=
  let e := leAt bs (4 * (p * t.nSched + th)) 4
  if e = 0xFFFFFFFF then some []
  else if 2 ^ 24 ≤ e then none
  else match streamDescs (bs.length / 32 + 1) bs (32 * e) with
    | some l => if l.any (fun c => malformed c 1) then none else some l
    | none => none

/-- The logical arrays a descriptor names (R225). -/
def namedArrays (c : Desc) : List Nat :=
  let l := bits (descP0 c) 8 8
  if descOp c = ocStroke then
    if bit (descP0 c) 0 then (List.range (descCount c)).map (fun i => l + bits (descP0 c) 1 4 * i) else [l]
  else if descOp c = ocOutlier ∨ descOp c = ocCombine then (List.range (descCount c)).map (fun i => l + i)
  else []

/-- Code 14: every stream of every tile. -/
def Die.checkStreams (d : Die) (t : Table) : Option LoadErr :=
  refuseFirst t.tiles (fun _ b =>
    let bs := d.region0 t.base b
    (List.range t.tides).any (fun p => (List.range t.nSched).any (fun th => (t.stream bs p th).isNone))) (fun i b => (14, 1, i, b.tile))

/-! ### Windows (R182, R210, R211, R233, R234) -/

/-- A run of beats in one tile: position, tile, cycle of the first beat, beats, first byte. -/
structure Beats where
  pos : Nat
  tile : Nat
  cycle : Nat
  n : Nat
  addr : Nat

/-- Two runs make two beats meet at one bank in one cycle: their cycles overlap, and the two adjacent banks of one beat share one
with those of the other. -/
def Beats.meet (x y : Beats) : Bool :=
  let gap := ((x.addr / 64 + 2 * y.cycle) % 32 + 32 - (y.addr / 64 + 2 * x.cycle) % 32) % 32
  x.pos == y.pos && x.tile == y.tile && decide (x.cycle < y.cycle + y.n) && decide (y.cycle < x.cycle + x.n) &&
    (gap == 0 || gap == 1 || gap == 31)

/-- The beats of a tide-plane window: at the sender, and at the neighbour 2 cycles later (R233). -/
def Table.tpBeats (t : Table) (w : TpWin) : List Beats :=
  let at1 (n c op : Nat) : List Beats :=
    match t.block n with
    | some b => [{ pos := w.pos, tile := n, cycle := c, n := w.bytes / 128, addr := b.addr op }]
    | none => []
  at1 w.tile w.start w.src ++ (match portTile w.tile w.port with | some n => at1 n (w.start + 2) w.dst | none => [])

def Table.linkBeats (t : Table) (w : LinkWin) : List Beats :=
  match t.block w.tile with
  | some b => [{ pos := w.pos, tile := w.tile, cycle := w.start, n := w.bytes / 128, addr := b.addr w.buf }]
  | none => []

/-- A region with right TP holds a window's bytes, 128-byte aligned. -/
def Table.tpHolds (t : Table) (n w bytes : Nat) : Bool :=
  decide (w % 128 = 0) && (match t.block n with | some b => b.holds w bytes [rightTP] | none => false)

/-- A window ends in time (R211). -/
def Table.inTime (t : Table) (pos start bytes : Nat) : Bool :=
  decide (pos < t.tides) && decide (bytes % 128 = 0) && decide (start + bytes / 128 + t.slack ≤ t.period)

/-- Code 15: tide-plane windows. -/
def Table.checkTp (t : Table) : Option LoadErr :=
  let bad (i : Nat) (w : TpWin) : Bool :=
    let before := t.tp.take i
    let key (x : TpWin) : List Nat := [x.pos, x.tile, x.port, x.start]
    before.any (fun x => lexLt (key w) (key x)) ||
    (match portTile w.tile w.port with | some n => (t.block n).isNone || !t.tpHolds n w.dst w.bytes | none => true) ||
    !t.inTime w.pos w.start w.bytes || !t.tpHolds w.tile w.src w.bytes ||
    before.any (fun x => x.pos == w.pos && x.tile == w.tile && x.port == w.port && decide (w.start < x.start + x.bytes / 128) &&
      decide (x.start < w.start + w.bytes / 128)) ||
    (t.tpBeats w).any (fun p => (before.map t.tpBeats).flatten.any (fun q => p.meet q))
  refuseFirst t.tp bad (fun i w => (15, 2, i, w.tile))

/-- The edge router that carries a link (R57). -/
def linkEdge (k : Nat) : Nat := match k with | 0 => 2 | 1 => 3 | 2 => 4 | 3 => 5 | 4 => 4 | _ => 5

/-- Code 16: link windows. A boundary tile's port toward an edge router carries one departure and one landing at a time. -/
def Die.checkLinks (d : Die) (t : Table) : Option LoadErr :=
  let bad (i : Nat) (w : LinkWin) : Bool :=
    let before := t.links.take i
    decide (1 < w.kind) || !(d.sliceNeeds t).contains w.link || !(edgeTiles (linkEdge w.link)).contains w.tile ||
    decide (2 ^ 20 < w.bytes) || !t.inTime w.pos w.start w.bytes || !t.tpHolds w.tile w.buf w.bytes ||
    before.any (fun x => x.pos == w.pos && x.tile == w.tile && x.kind == w.kind && linkEdge x.link == linkEdge w.link &&
      decide (w.start < x.start + x.bytes / 128) && decide (x.start < w.start + w.bytes / 128)) ||
    (t.linkBeats w).any (fun p => ((t.tp.map t.tpBeats).flatten ++ (before.map t.linkBeats).flatten).any (fun q => p.meet q))
  refuseFirst t.links bad (fun i w => (16, 3, i, w.tile))

/-- Code 17: refresh windows, and R225. -/
def Die.checkRefresh (d : Die) (t : Table) : Option LoadErr :=
  let named (b : TileBlock) (w : RefreshWin) : Bool :=
    let bs := d.region0 t.base b
    (List.range t.tides).any (fun p => (List.range t.nSched).any (fun th =>
      ((t.stream bs p th).getD []).any (fun c => (namedArrays c).any (fun l => w.covers t.tides p l))))
  refuseFirst t.refresh (fun _ w => decide (1 < w.kind) || decide (256 < w.first + w.count) || decide (t.tides ≤ w.pos) ||
    decide (w.npos = 0) || decide (t.tides < w.npos) ||
    (match t.block w.tile with | some b => named b w | none => true)) (fun i w => (17, 4, i, w.tile))

/-- Codes 18, 19 and 22: budgets, preload entries, sections. -/
def Table.checkRest (t : Table) (img : List Byte) : Option LoadErr :=
  let secs := (imgSections img).filter usedSection
  let preBad (b : TileBlock) (p : Preload) : Bool :=
    decide (1 < p.kind) || decide (p.len % 64 ≠ 0) || decide (p.src % 64 ≠ 0) || decide (p.dst % 64 ≠ 0) ||
    decide ((if p.kind = 0 then t.size else dramEnd - goldenBase) < p.src + p.len) || !b.holds p.dst p.len []
  [refuseFirst t.tiles (fun _ b => b.budgets.any (fun n => decide (8 < n))) (fun i b => (18, 1, i, b.tile)),
   refuseFirst t.tiles (fun _ b => b.preload.any (preBad b)) (fun i b => (19, 1, i, b.tile)),
   refuseFirst secs (fun i s => decide (s.1 = 0) || decide (6 < s.1) || (secs.take i).any (fun x => x.1 == s.1) ||
     (decide (s.2.2.1 ≠ 0) && (decide (s.2.1 < 256) || (secs.take i).any (fun x => decide (x.2.2.1 ≠ 0) &&
       decide (s.2.1 < x.2.1 + x.2.2.1) && decide (x.2.1 < s.2.1 + s.2.2.1))))) (fun i s => (22, s.1 % 8, i, 0)),
   refuseIf (!([1, 5, 6].all (fun ty => secs.any (fun s => s.1 == ty)))) (22, 0, 0, 0)].findSome? id

/-- The loader's checks, in the order of R240; none where the image passes. -/
def Die.loadErr (d : Die) (base : Nat) : Option LoadErr :=
  let n := d.leMem (base + 8) 4
  let img := d.bytesAt base (max 256 (min n (2 ^ 28)))
  let t := readTable base img
  if leAt img 0 4 ≠ 0x5454484B then some (1, 0, 0, 0)
  else if leAt img 4 2 ≠ 1 then some (2, 0, 0, 0)
  else match checkSize base img with
    | some e => some e
    | none =>
      if d.rangePoison base n ∨ crc32c (img.take 12 ++ zeros 4 ++ img.drop 16) ≠ leAt img 12 4 then some (4, 0, 0, 0)
      else match checkZero img with
        | some e => some e
        | none => [d.checkModule img t, d.checkHeader img t, t.checkRegions, d.checkStreams t, t.checkTp, d.checkLinks t,
            d.checkRefresh t, t.checkRest img].findSome? id

/-- The table of an image that passed. -/
def Die.tableAt (d : Die) (base : Nat) : Table := readTable base (d.bytesAt base (d.leMem (base + 8) 4))

end Sys2Proof.Machine
end

