-- ==== Sys2Proof/Machine/Tide.lean ====
section
/-! DEFINITION. The tide block at work (R206 to R228): the schedule counter, windows, the boundary and its conditions, throttle,
stall accounting; and a cycle of the tiles' clock. -/
namespace Sys2Proof.Machine

def Die.modTide (d : Die) (f : Tide → Tide) : Die := { d with tide := f d.tide }

/-- Positions run: RUNNING or STOPPING. -/
def Die.running (d : Die) : Bool := decide (4 ≤ d.tideState)
/-- This tide has a position (R208). -/
def Die.positioned (d : Die) : Bool := d.running && !d.tide.skipped
def Die.pos (d : Die) : Nat := d.get Reg.TIDE_POS_POS

/-- The smallest of a list of cause codes; 15 of an empty one. -/
def lowest (l : List Nat) : Nat := l.foldl min 15

/-! ### Windows (R209, R210, R215, R233, R234) -/

/-- A window of the table. -/
inductive Win where
  | tp (w : TpWin)
  | link (w : LinkWin)

def Win.pos (x : Win) : Nat := match x with | .tp w => w.pos | .link w => w.pos
def Win.start (x : Win) : Nat := match x with | .tp w => w.start | .link w => w.start
/-- SC at which the last beat has left: a window lasts BYTES/128 cycles (R233). -/
def Win.leaves (x : Win) : Nat := match x with | .tp w => w.start + w.bytes / 128 | .link w => w.start + w.bytes / 128
/-- SC at which the last beat has landed: a tide-plane beat lands 2 cycles after it leaves (R233). -/
def Win.ends (x : Win) : Nat := match x with | .tp w => w.start + w.bytes / 128 + 2 | .link w => w.start + w.bytes / 128

/-- The windows of a table, numbered: tide-plane windows first, then link windows. -/
def Table.wins (t : Table) : List (Nat × Win) :=
  (List.range (t.tp.length + t.links.length)).zip (t.tp.map Win.tp ++ t.links.map Win.link)

/-- The windows of this tide. -/
def Die.winsNow (d : Die) : List (Nat × Win) :=
  match d.tide.table with
  | some t => if d.positioned then t.wins.filter (fun p => p.2.pos == d.pos) else []
  | none => []

def Die.winNow (d : Die) (i : Nat) : Option Win := look d.winsNow i

/-- The slice links whose retry delayed something in this tide (R228). -/
def Die.retriedNow (d : Die) (k : Nat) : Bool := (d.link k).events.any (fun q => decide (d.tide.startQ ≤ q))

/-- A late completion under injector 3 holds back the FULL mark of region `r` of tile `t` (R577). -/
def Die.lateMark (d : Die) (t r : Nat) : Bool :=
  (d.tile t).execs.any (fun e => e.lateUntil.isSome && descFeDst e.desc && hasOp e.desc.d && opRgn e.desc.d == r)

/-- An injection delays the filling of an EMPTY region (R227, R577, R578): a late completion that fills it, or blocked packets for the
tile. That these are the delays it causes is DEDUCED (log entry 73). -/
def Die.lateFill (d : Die) (t r : Nat) : Bool := !d.isFull t r && (d.lateMark t r || d.pktBlocked t)

/-- The cause codes of a window's failing conditions (R210, R227, R228, R577). -/
def Die.winCauses (d : Die) (i : Nat) (x : Win) : List Nat :=
  let src (t op : Nat) : List Nat := 
    if d.rgnFE t (op / 2 ^ 24) && !d.isFull t (op / 2 ^ 24) then [if d.lateFill t (op / 2 ^ 24) then 15 else 7] else []
  let dst (t op : Nat) : List Nat := if d.rgnFE t (op / 2 ^ 24) && d.isFull t (op / 2 ^ 24) then [8] else []
  (match x with
  | .tp w => src w.tile w.src ++ (match portTile w.tile w.port with | some n => dst n w.dst | none => [])
  | .link w =>
    if w.kind = 0 then
      src w.tile w.buf ++ (if ((d.link w.link).txBursts.map (fun b => b.data.length)).sum + w.bytes ≤ 2 ^ 20 then [] else [9])
    else
      dst w.tile w.buf ++ (match (d.link w.link).rxBursts with
        | b :: _ => if b.data.length = b.total then [] else [if d.retriedNow w.link then 11 else 10]
        | [] => [if d.retriedNow w.link then 11 else 10])) ++
  (match look d.tide.pert i with | some u => if d.tide.w < u then [15] else [] | none => [])

/-- Injector 0 delays the windows of its tile and port (R577). -/
def Die.tpInject (d : Die) (i : Nat) (x : Win) : Die :=
  match x with
  | .tp w =>
    let g := (d.getW (Reg.PTB_TARGET 0)).toNat
    if d.ptbActive 0 && bits g 24 6 == w.tile && bits g 16 2 == w.port then
      (d.modTide (fun t => { t with pert := keep t.pert i (t.w + d.get (Reg.PTB_AMOUNT_AMOUNT 0)) })).ptbFire 0
    else d
  | .link _ => d

/-- The check of a window at SC = START - 8. -/
def Die.windowCheck (d : Die) (i : Nat) (x : Win) : Die :=
  let d1 := d.tpInject i x
  match d1.winCauses i x with
  | [] => d1.modTide (fun t => { t with checked := t.checked ++ [i] })
  | l => d1.modTide (fun t => { t with checked := t.checked ++ [i], failed := t.failed ++ [(i, lowest l, none)] })

/-- A window is due to be checked: SC has come within 8 of its start. -/
def Die.checkDue (d : Die) (i : Nat) (x : Win) : Bool := decide (x.start ≤ d.tide.sc + 8) && !d.tide.checked.contains i

/-- Windows whose check failed are looked at again: a window whose conditions are met notes when. -/
def Die.settleWindows (d : Die) : Die :=
  d.modTide (fun t => { t with failed := t.failed.map (fun p =>
    match p.2.2, d.winNow p.1 with
    | none, some x => (match d.winCauses p.1 x with
      | [] => (p.1, p.2.1, some t.w)
      | l => (p.1, lowest l, none))
    | _, _ => p) })

/-- The windows that start at the SC of now and failed their check. -/
def Die.failedHere (d : Die) : List (Nat × Nat × Option Nat) :=
  d.tide.failed.filter (fun p => match d.winNow p.1 with | some x => x.start == d.tide.sc | none => false)

/-- A failed window stops SC until 8 cycles after its last condition is met. -/
def Die.stops (d : Die) (p : Nat × Nat × Option Nat) : Bool :=
  match p.2.2 with
  | none => true
  | some m => decide (d.tide.w < m + 8)

/-- SC may not advance. -/
def Die.scBlocked (d : Die) : Bool := d.failedHere.any d.stops

/-- The cause of the failing condition met last; those not yet met come last of all (R227). -/
def Die.freezeCharge (d : Die) : Nat :=
  let l := d.failedHere
  let open1 := l.filter (fun p => p.2.2.isNone)
  if open1.isEmpty then
    let m := (l.map (fun p => p.2.2.getD 0)).foldl max 0
    lowest ((l.filter (fun p => p.2.2 == some m)).map (fun p => p.2.1))
  else lowest (open1.map (fun p => p.2.1))

/-- A freeze ends: it is charged, and SC runs on (R210, R227). -/
def Die.scResume (d : Die) : Die :=
  let c := d.freezeCharge
  ((d.bump64 (Reg.TIDE_STALL_FREEZE_LO c) d.tide.freeze).clear Reg.TIDE_STATUS_FROZEN).modTide (fun t => { t with
    freeze := 0, freezeCause := c })

/-- A tide-plane read (R185, R186): none where it is refused, which is a fault. -/
def Die.tpRead (d : Die) (t op n : Nat) : Die × Option (List Byte) :=
  match d.engRefuses t (op / 2 ^ 24) (op % 2 ^ 24) n rightTP with
  | some k => (d.tileFault t k 0 0 (op / 2 ^ 24) (op % 2 ^ 24) 0, none)
  | none => (d.sramUse t (d.rgnOff t (op / 2 ^ 24) + op % 2 ^ 24) n, some (d.bytesAt (d.rgnAddr t (op / 2 ^ 24) (op % 2 ^ 24)) n))

/-- A tide-plane write; a refused one is a fault and changes nothing else. -/
def Die.tpWrite (d : Die) (t op : Nat) (bs : List Byte) : Die :=
  match d.engRefuses t (op / 2 ^ 24) (op % 2 ^ 24) bs.length rightTP with
  | some k => d.tileFault t k 0 0 (op / 2 ^ 24) (op % 2 ^ 24) 0
  | none => (d.sramUse t (d.rgnOff t (op / 2 ^ 24) + op % 2 ^ 24) bs.length).setBytes (d.rgnAddr t (op / 2 ^ 24) (op % 2 ^ 24)) bs

/-- The flags of a window at its two ends (R215): EMPTY_SRC, and FULL_DST with the poison that came along. -/
def Die.emptyEnd (d : Die) (on : Bool) (t op : Nat) : Die :=
  if on && d.rgnFE t (op / 2 ^ 24) then d.mark t (op / 2 ^ 24) false false else d
def Die.fullEnd (d : Die) (on : Bool) (t op : Nat) (poison : Bool) : Die :=
  if on && d.rgnFE t (op / 2 ^ 24) then d.mark t (op / 2 ^ 24) true (poison || d.isPoison t (op / 2 ^ 24)) else d

/-- Poison that lands in a full/empty region, FULL_DST or not (R215, R217). -/
def Die.taintEnd (d : Die) (poison : Bool) (t op : Nat) : Die :=
  if poison && d.rgnFE t (op / 2 ^ 24) then d.taint t (op / 2 ^ 24) else d

/-- Poison of a full/empty source. -/
def Die.endPoison (d : Die) (t op : Nat) : Bool := d.rgnFE t (op / 2 ^ 24) && d.isPoison t (op / 2 ^ 24)

/-- A tide-plane window is over: its bytes have landed, and its flags act. Poisoned bytes, of a poisoned source or of a refused read, land
as zeros (R186, R196), and the landing buffer takes the poison. -/
def Die.tpMove (d : Die) (w : TpWin) : Die :=
  match portTile w.tile w.port with
  | none => d
  | some n =>
    let p := d.tpRead w.tile w.src w.bytes
    let bad := p.2.isNone || d.endPoison w.tile w.src
    let bs := if bad then zeros w.bytes else p.2.getD []
    (((p.1.tpWrite n w.dst bs).taintEnd bad n w.dst).emptyEnd (bit w.flags 0) w.tile w.src).fullEnd (bit w.flags 1) n w.dst bad

/-- A departure is over: the burst waits in the link's transmit buffer (R234). Poisoned data leave as zeros, in a burst marked as one with
an uncorrectable error, which lands as a poisoned buffer (R215, R217; DESIGN CHOICE, log entry 65). -/
def Die.depart (d : Die) (w : LinkWin) : Die :=
  let p := d.tpRead w.tile w.buf w.bytes
  let bad := p.2.isNone || d.endPoison w.tile w.buf
  let b : TxBurst := { stream := w.stream, total := w.bytes, data := if bad then zeros w.bytes else p.2.getD [] }
  let d1 := (p.1.modLink w.link (fun l => { l with txBursts := l.txBursts ++ [b] })).emptyEnd (bit w.flags 0) w.tile w.buf
  if bad then d1.emit (.poisonBurst w.link w.stream) else d1

/-- A landing is over (R215, R234, R466): the oldest burst lands, poisoned where it arrived with an uncorrectable error or is not
the one expected, which is a DIVERGE. -/
def Die.landBurst (d : Die) (w : LinkWin) (bad : Bool) : Die :=
  match (d.link w.link).rxBursts with
  | [] => d
  | b :: r =>
    let wrong := bad || decide (b.stream ≠ w.stream) || decide (b.total ≠ w.bytes)
    let d1 := ((d.modLink w.link (fun l => { l with rxBursts := r })).freeRx w.link 3 b.total).tpWrite w.tile w.buf (b.data.take w.bytes)
    let d2 := (d1.taintEnd wrong w.tile w.buf).fullEnd (bit w.flags 1) w.tile w.buf wrong
    if wrong then ((d2.raise Reg.TIDE_STATUS_DIVERGE).record 0x05 3 96 0xFFFF [w.link, b.stream]).faultStop 3 d2.coord else d2

/-- A window that SC `e` has passed (R210): checked, not stopped, and not done. -/
def Die.passed (d : Die) (i e : Nat) : Bool :=
  decide (e ≤ d.tide.sc) && d.tide.checked.contains i && !d.tide.done.contains i &&
    !d.tide.failed.any (fun p => p.1 == i && d.stops p)

/-- A window whose last beat has landed. -/
def Die.overDue (d : Die) (i : Nat) (x : Win) : Bool := d.passed i x.ends

/-- A window that has completed for R212: its last beat has left, and nothing holds it. -/
def Die.completed (d : Die) (p : Nat × Win) : Bool := d.tide.done.contains p.1 || d.passed p.1 p.2.leaves

/-- What a window does at its end. -/
def Die.finishWindow (d : Die) (i : Nat) (x : Win) (bad : Bool) : Die :=
  let d1 := d.modTide (fun t => { t with done := t.done ++ [i] })
  match x with
  | .tp w => d1.tpMove w
  | .link w => if w.kind = 0 then d1.depart w else d1.landBurst w bad

/-! ### The boundary's conditions (R212, R213, R218, R227, R228) -/

/-- This tide leads into the start tide S (R243). -/
def Die.leadsIn (d : Die) : Bool := d.tideState == 3 && decide (d.tideNum + 1 = d.tide.start)

/-- The slice links whose marks keep the gate of tide `m` closed (R218). A neighbour that is not armed sends no mark: until the tide that
leads into S, a link without a mark keeps nothing closed (DEDUCED, log entry 73). -/
def Die.gateMissing (d : Die) (m : Nat) : List Nat :=
  let g := d.get Reg.TIDE_SLICE_LAG
  d.sliceLinks.filter (fun k => match look d.tide.marks k with
    | some x => !x.stop && decide (x.tide + g < m)
    | none => d.running || d.leadsIn)

/-- A SCHED thread waits at TIDE_END or has no stream. -/
def Die.threadDone (d : Die) (t th : Nat) : Bool := (look (d.tile t).streams th).isNone && (d.execsOf t th).isEmpty

/-- An injection delays what a thread waits for (R227, R578): its own late completion, the buffer that its oldest descriptor reads, or
one of its requests. -/
def Die.perturbed (d : Die) (t th : Nat) : Bool :=
  let l := d.execsOf t th
  l.any (fun e => e.lateUntil.isSome) ||
  (match d.threadState t th with
  | 5 => (d.tile t).reqs.any (fun r => decide (r.thread = th) && d.reqBlocked t r.addr)
  | 6 => (match l with
    | e :: _ => (d.readSpans t e.desc).any (fun s => d.rgnFE t s.rgn && d.lateFill t s.rgn) ||
        (descOp e.desc == ocBufWait && bit (descP0 e.desc) 0 == false && d.rgnFE t (opRgn e.desc.a) && d.lateFill t (opRgn e.desc.a))
    | [] => false)
  | _ => false)

/-- The cause code of a late thread (R228). -/
def Die.lateCode (d : Die) (t th : Nat) : Nat :=
  if d.perturbed t th then 15
  else match d.threadState t th with
    | 3 => 1
    | 5 => if d.tide.dramEvent then 3 else 2
    | 6 => 4
    | 7 => 5
    | 8 => 6
    | _ => 0

/-- The SCHED threads not yet at TIDE_END, by 64 * tile + thread, with their cause codes. -/
def Die.lateThreads (d : Die) : List (Nat × Nat) :=
  match d.tide.table with
  | none => []
  | some tb => (d.enabledTiles.map (fun t => ((List.range tb.nSched).filter (fun th => !d.threadDone t th)).map
      (fun th => (64 * t + th, d.lateCode t th)))).flatten

/-- Applied STRETCH where it acts (R206, R212, R222, R238): in the tides of a running table, but for a skipped one. -/
def Die.stretchNow (d : Die) : Nat :=
  if d.armed && !(d.running && d.tide.skipped) then d.get Reg.TIDE_THR_APPLIED_STRETCH else 0

/-- Cause codes of the boundary conditions that are not met: condition 1 in every tide; 2 to 5 in one with a position; 5, and 6
before S, in one of a table that is STARTING, which has neither windows nor streams; a fault stop waives 2 to 6 (R466). -/
def Die.unmet (d : Die) : List Nat :=
  let td := d.tide
  let c1 := if td.w < td.period + 64 * d.stretchNow then [13] else []
  let gate := if (d.gateMissing (d.tideNum + 1)).isEmpty then [] else [12]
  if td.stopNow && d.armed then c1
  else if d.positioned then
    let slack := match td.table with | some t => t.slack | none => 0
    let late := if d.enabledTiles.all (fun t => d.schedDone t) then [] else [lowest (td.lateStates.map (·.2))]
    c1 ++ (if td.sc + slack < td.period then [if d.scBlocked then d.freezeCharge else td.freezeCause] else []) ++ late ++
      (if d.winsNow.all d.completed then [] else [td.freezeCause]) ++ gate
  else if d.tideState = 3 then c1 ++ gate ++ (if d.leadsIn && !td.preload.isEmpty then [14] else [])
  else c1

/-- The boundary falls now: at a multiple of 64 cycles at which every condition holds. -/
def Die.boundaryDue (d : Die) : Bool := decide (0 < d.tide.w) && decide (d.tide.w % 64 = 0) && d.unmet.isEmpty

/-- A cycle of a hold (R213, R243, R246): what is not met, and which threads are last. The boundary waits on the gate where it is closed,
and on the preload where that is incomplete, once condition 1, the stretch, is met. -/
def Die.holdCycle (d : Die) : Die :=
  match d.unmet with
  | [] => d.clear Reg.TIDE_STATUS_GATED
  | l =>
    let missing := if l.contains 12 then d.gateMissing (d.tideNum + 1) else []
    let left := d.tide.lateStates.filter (fun p => !d.threadDone (p.1 / 64) (p.1 % 64))
    let d1 := d.modTide (fun t => { t with
      unmetCause := some (lowest l), missing := if missing.isEmpty then t.missing else missing,
      lateStates := if left.isEmpty then t.lateStates else left })
    let d2 := (d1.raise Reg.TIDE_STATUS_HOLD).put Reg.TIDE_STATUS_GATED (b2n (l.contains 12 && !l.contains 13))
    if l.contains 14 && !l.contains 13 then d2.raise Reg.TIDE_STATUS_START_LATE else d2

/-! ### Stall accounting at the boundary (R227, R245 to R248) -/

/-- The cause charged for a stretch: a gate that a retried mark held is LINK_RETRY. -/
def Die.stretchCause (d : Die) : Nat :=
  match d.tide.unmetCause with
  | some 12 => if d.tide.missing.any (fun k => match look d.tide.marks k with | some x => x.retried | none => false) then 11 else 12
  | some c => c
  | none => 13

/-- The tide that ends is charged, in reference cycles. -/
def Die.chargeTide (d : Die) : Die :=
  let td := d.tide
  let dv := d.clockDiv
  let late := td.w - td.period
  let c := d.stretchCause
  let d1 :=
    if td.skipped then (d.bump64 (Reg.TIDE_STALL_STRETCH_LO 13) (td.w * dv)).bump Reg.TIDE_SKIPPED_COUNT 1
    else
      let e := if late = 0 then d else (d.bump64 (Reg.TIDE_STALL_STRETCH_LO c) (late * dv)).bump Reg.TIDE_STRETCHED_COUNT 1
      if dv = 1 then e else e.bump64 (Reg.TIDE_STALL_STRETCH_LO 13) ((dv - 1) * td.period)
  let len := min (td.w * dv / 64) (2 ^ 24 - 1)
  ((d1.put Reg.TIDE_LAST_LENGTH len).put Reg.TIDE_LAST_CAUSE (if td.skipped ∨ late = 0 then 0 else c)).atLeast Reg.TIDE_MAX_LENGTH len

/-- Counters asked to be cleared (R245). -/
def Die.clearStalls (d : Die) : Die :=
  if d.on Reg.TIDE_CTRL_CNT_CLR then
    (List.range 16).foldl (fun e c => (e.put64 (Reg.TIDE_STALL_STRETCH_LO c) 0).put64 (Reg.TIDE_STALL_FREEZE_LO c) 0)
      ((((d.clear Reg.TIDE_CTRL_CNT_CLR).putW Reg.TIDE_STRETCHED 0).putW Reg.TIDE_SKIPPED 0).putW Reg.TIDE_MAX 0)
  else d

/-! ### What the boundary does (R206 to R208, R219, R222 to R225, R239, R243, R244) -/

/-- PERIOD comes into force; the firmware programs the buckets again where P changes (R245, R361). -/
def Die.newPeriod (d : Die) : Die :=
  let p := 64 * d.get Reg.TIDE_CTRL_PERIOD
  if p = d.tide.period then d
  else
    let d1 := d.modTide (fun t => { t with period := p })
    if d1.fwRuns then d1.bktProgram else d1

/-- The applied throttle (R223): the module's demand, and while a table is armed the applied values of the neighbours' latest
marks. A change triggers the converters (R480). -/
def Die.applyThrottle (d : Die) : Die :=
  let own := (d.getW Reg.TIDE_THROTTLE).toNat
  let a := if d.armed then d.sliceLinks.foldl (fun x k => match look d.tide.marks k with
    | some m => mergeThrottle x m.applied
    | none => x) own else own
  let new := w32 (a % 2 ^ 18)
  let d1 := (d.putW Reg.TIDE_THR_APPLIED new).put Reg.TIDE_STATUS_THROTTLED (b2n (new != 0))
  if new = d.getW Reg.TIDE_THR_APPLIED then d1 else d1.trigger 3

/-- Contexts after a fault stop with F_CAUSE 4 (R519): each in PREFILL, DECODE or SHIPPING ends FAILED. -/
def Die.stepsAbandoned (d : Die) : Die :=
  let d1 := d.dropSteps (fun _ => false)
  (d1.ctxNums.foldl (fun e n =>
    let st := (e.ctx n).state
    if st = csPrefill ∨ st = csDecode ∨ st = csShipping then e.endCtx n csFailed 17 else if (e.ctx n).pend = 0 then e else e.pendCtx n) d1).sendOps.flushStream

/-- The table leaves the tiles: IDLE, the stop flag in marks from now on, the registers of the slice cleared (R239, R244,
R250). -/
def Die.tableIdle (d : Die) (abandon : Bool) : Die :=
  let d1 := match d.tide.fault with
    | some (4, _) => d.stepsAbandoned
    | _ => d.tableStops abandon
  (((d1.put Reg.TIDE_STATUS_STATE 0).putW Reg.TIDE_POS 0).putW Reg.TIDE_SLICE (w32 (d1.get Reg.TIDE_SLICE_GATE_TMO * 2 ^ 24))).modTide
    (fun t => { t with stopNow := false, stopFlag := true, fault := none, preload := [], skipped := false, sinceSkip := 0 })

/-- The next position; after the last one, position 0 of the next step. -/
def Die.advance (d : Die) (tides : Nat) : Die :=
  if d.pos + 1 < tides then (d.put Reg.TIDE_POS_POS (d.pos + 1)).modTide (fun t => { t with skipped := false })
  else
    let n := d.tide.steps + 1
    (((d.put Reg.TIDE_POS_POS 0).put Reg.TIDE_POS_STEP (n % 2 ^ 18)).modTide (fun t => { t with skipped := false, steps := n })).stepStarts n

/-- A running table at a boundary: it stops after position T - 1, or a skipped tide comes, or the next position. -/
def Die.nextPosition (d : Die) (tb : Table) (was : Bool) : Die :=
  let last := was && decide (d.pos + 1 = tb.tides)
  let d1 := if last then d.stepEnds d.tide.steps else d
  let skip := d1.get Reg.TIDE_THR_APPLIED_SKIP
  if last && d1.tideState == 5 then d1.tableIdle false
  else if was && decide (skip ≠ 0) && decide (skip ≤ d1.tide.sinceSkip + 1) then
    d1.modTide (fun t => { t with skipped := true, sinceSkip := 0 })
  else (d1.modTide (fun t => { t with sinceSkip := if was then t.sinceSkip + 1 else t.sinceSkip })).advance tb.tides

/-- State, position and step after the boundary; `was` says that the tide that ends had a position. -/
def Die.nextState (d : Die) (was : Bool) : Die :=
  match d.tide.table with
  | none => d
  | some tb =>
    if d.armed && d.tide.stopNow then d.tableIdle true
    else if d.tideState = 3 ∧ d.tideNum = d.tide.start then
      ((((d.put Reg.TIDE_STATUS_STATE 4).put Reg.TIDE_POS_POS 0).put Reg.TIDE_POS_STEP 0).modTide (fun t => { t with
        steps := 0, skipped := false, sinceSkip := 0 })).stepStarts 0
    else if d.running then d.nextPosition tb was
    else d

/-- ENG_CTRL.ENABLE is set in the tide before S and cleared in the tide of position T - 1 of a table that stops (R243, R244). -/
def Die.tideEnables (d : Die) : Die :=
  match d.tide.table with
  | none => d
  | some tb =>
    if d.tideState = 3 ∧ d.tideNum + 1 = d.tide.start then d.enableAll true
    else if d.tideState == 5 && d.positioned && decide (d.pos + 1 = tb.tides) then d.enableAll false
    else d

/-- Physical arrays that differ from their state after reset: those with state of their own or with a register written. -/
def Die.touched (d : Die) : List Nat :=
  let ofReg (a : Nat) : Option Nat :=
    if a < tileAddr 0 then none
    else
      let t := (a - tileAddr 0) / 0x1000000
      let o := (a - tileAddr 0) % 0x1000000
      if 0xC00000 ≤ o then some (arrIx t ((o - 0xC00000) / 0x1000))
      else if 0x920000 ≤ o ∧ o < 0x942000 then some (arrIx t ((o - 0x920000) / 0x200))
      else none
  (d.regs.filterMap (fun p => ofReg p.1)).foldl addOnce (d.arrays.map (·.1))

/-- The refresh windows open in this tide (R208, R225, R235). -/
def Die.refreshBoundary (d : Die) : Die :=
  let d1 := d.arrays.foldl (fun e p => if p.2.windowOpen then e.modArr (p.1 / 272) (p.1 % 272) (fun x => { x with windowOpen := false })
    else e) d
  match d1.tide.table with
  | none => d1
  | some tb =>
    if !d1.running then d1
    else tb.refresh.foldl (fun e w => (List.range 256).foldl (fun f l =>
      if w.covers tb.tides d1.pos l && (!d1.tide.skipped || w.covers tb.tides ((d1.pos + 1) % tb.tides) l) then
        match f.serving w.tile l with
        | some a => f.modArr w.tile a (fun x => { x with windowOpen := true })
        | none => f
      else f) e) d1

/-- Tiles and arrays at the boundary: engines, counters, budgets, trims, map changes (R102, R163, R187, R198, R269, R282). -/
def Die.tilesBoundary (d : Die) (done : List Nat) (pos0 : Bool) : Die :=
  let d1 := d.enabledTiles.foldl (fun e t => (e.engBoundary t (done.contains t)).arithBoundary t) d
  let d2 := d1.mapBoundary pos0
  let arrs := d2.touched
  let d3 := arrs.foldl (fun e i => (e.trimBoundary (i / 272) (i % 272)).arrayBoundary (i / 272) (i % 272)) d2
  d3.enabledTiles.foldl (fun e t => e.soundBoundary t ((arrs.filter (fun i => i / 272 == t)).map (fun i => i % 272))) d3

/-- SCHED threads start the streams of the new position, in tiles whose threads dispatch (R187). -/
def Die.streamsBoundary (d : Die) : Die :=
  match d.tide.table with
  | none => d
  | some tb =>
    if d.positioned then
      d.enabledTiles.foldl (fun e t => if (e.tile t).dispatching then e.startStreams t tb.nSched d.pos else e) d
    else d

/-- Injectors take effect; injector 1 blocks its output once per tide (R576, R577). -/
def Die.injectBoundary (d : Die) : Die :=
  let d1 := d.ptbBoundary
  if d1.ptbActive 1 then
    ({ d1 with mesh := { d1.mesh with blockTgt := (d1.getW (Reg.PTB_TARGET 1)).toNat, blockLeft := d1.get (Reg.PTB_AMOUNT_AMOUNT 1) } }).ptbFire 1
  else d1

/-- The tide's own counts begin again. -/
def Die.freshTide (d : Die) : Die :=
  (((d.clear Reg.TIDE_STATUS_HOLD).clear Reg.TIDE_STATUS_FROZEN).clear Reg.TIDE_STATUS_GATED).modTide (fun t => { t with
    w := 0, sc := 0, startQ := d.clock.quarter, failed := [], checked := [], done := [], pert := [], freeze := 0, freezeCause := 0,
    unmetCause := none, lateStates := [], missing := [], dramEvent := d.stack0.event || d.stack1.event })

/-- The windows whose last beat is still under way land before the boundary takes effect. -/
def Die.landRest (d : Die) : Die :=
  d.winsNow.foldl (fun e p => if e.passed p.1 p.2.leaves then e.finishWindow p.1 p.2 false else e) d

/-- The boundary is taken. -/
def Die.takeBoundary (d : Die) : Die :=
  let was := d.positioned
  let done := if was then d.enabledTiles.filter (fun t => d.schedDone t) else []
  let dl := d.landRest
  let d0 := if dl.on Reg.TIDE_STATUS_FROZEN then dl.scResume else dl
  let d1 := ((d0.chargeTide.clearStalls.bump64 (Reg.TIDE_NUM 0) 1).freshTide).newPeriod.applyThrottle
  let d2 := d1.nextState was
  let d3 := if !d2.armed && d2.on Reg.THM_TRIP_TRIP then { d2 with sense := { d2.sense with gated := true } } else d2
  let d4 := d3.upkeepBoundary.tilesBoundary done (d3.positioned && decide (d3.pos = 0))
  let d5 := (d4.tideEnables.refreshBoundary.streamsBoundary.bucketBoundary.injectBoundary)
  d5.sendMarks d5.tide.stopFlag false 0 0

/-- TIDE_BOUNDARY. -/
def execTideBoundary (s : State) : Host.Outcome State Fault Refusal :=
  mainCmd (fun d => !d.computeHeld && d.boundaryDue) (fun d => d.takeBoundary) s

/-! ### Windows as commands -/

def execWindowCheck (idx : Nat) (s : State) : Host.Outcome State Fault Refusal :=
  mainCmd (fun d => !d.computeHeld && (match d.winNow idx with | some x => d.checkDue idx x | none => false))
    (fun d => match d.winNow idx with | some x => d.windowCheck idx x | none => d) s

def execScResume (s : State) : Host.Outcome State Fault Refusal :=
  mainCmd (fun d => !d.computeHeld && d.on Reg.TIDE_STATUS_FROZEN && !d.settleWindows.scBlocked) (fun d => d.settleWindows.scResume) s

/-- A window's end as a command of kind `kind`: 0 tide-plane, 1 departure, 2 landing. -/
def Win.kind (x : Win) : Nat := match x with | .tp _ => 0 | .link w => if w.kind = 0 then 1 else 2

def Die.endWindow (d : Die) (i kind : Nat) (bad : Bool) : Die :=
  match d.winNow i with
  | some x => if x.kind = kind ∧ d.overDue i x = true then d.finishWindow i x bad else d
  | none => d

def execTpWindowComplete (idx : Nat) (s : State) : Host.Outcome State Fault Refusal :=
  mainCmd (fun d => !d.computeHeld) (fun d => d.endWindow idx 0 false) s

def execLinkDeparture (idx : Nat) (s : State) : Host.Outcome State Fault Refusal :=
  mainCmd (fun d => !d.computeHeld) (fun d => d.endWindow idx 1 false) s

/-- LINK_LANDING; `bad` says that the burst arrived with an uncorrectable error. -/
def execLinkLanding (idx : Nat) (bad : Bool) (s : State) : Host.Outcome State Fault Refusal :=
  mainCmd (fun d => !d.computeHeld) (fun d => d.endWindow idx 2 bad) s

/-! ### Marks and the gate -/

/-- TIDE_MARK_RECEIVE. -/
def execTideMarkReceive (link : Nat) (m : Mark) (s : State) : Host.Outcome State Fault Refusal :=
  mainCmd (fun d => decide (link < 6) && d.linkUp link && bit d.sliceMask link && decide (m.credits.length = 4))
    (fun d => d.markReceive link m) s

/-- GATE_TIMEOUT (R221): the gate has stayed closed for TIDE_SLICE.GATE_TMO. -/
def Die.gateTimeout (d : Die) : Die :=
  let l := d.gateMissing (d.tideNum + 1)
  ((d.raise Reg.TIDE_STATUS_GATE_TMO).record 0x05 4 96 0xFFFF [(l.map (fun k => 2 ^ k)).sum]).alert alGate

def execGateTimeout (s : State) : Host.Outcome State Fault Refusal :=
  mainCmd (fun d => !d.computeHeld && d.on Reg.TIDE_STATUS_GATED && !(d.gateMissing (d.tideNum + 1)).isEmpty) (fun d => d.gateTimeout) s

/-! ### A tile cycle (R206, R209, R210) -/

/-- What the sequencers do in a cycle: windows that are over, checks that are due, windows that failed. -/
def Die.windowsCycle (d : Die) : Die :=
  let d1 := d.winsNow.foldl (fun e p => if e.overDue p.1 p.2 then e.finishWindow p.1 p.2 false else e) d
  let d2 := d1.winsNow.foldl (fun e p => if e.checkDue p.1 p.2 then e.windowCheck p.1 p.2 else e) d1
  d2.settleWindows

/-- SC advances, or stands frozen. -/
def Die.scCycle (d : Die) : Die :=
  if d.scBlocked then
    (d.raise Reg.TIDE_STATUS_FROZEN).modTide (fun t => { t with freeze := t.freeze + d.clockDiv })
  else
    let d1 := if d.on Reg.TIDE_STATUS_FROZEN then d.scResume else d
    d1.modTide (fun t => { t with sc := t.sc + 1 })

/-- The phase boundaries of the arrays, every 64 cycles (R91, R207), and an injected block that runs out (R577). -/
def Die.phaseCycle (d : Die) : Die :=
  let d1 := if d.mesh.blockLeft = 0 then d else { d with mesh := { d.mesh with blockLeft := d.mesh.blockLeft - 1 } }
  if d1.tide.w % 64 = 0 then d1.touched.foldl (fun e i => e.phaseBoundary (i / 272) (i % 272)) d1 else d1

/-- One cycle of the tiles' clock: a boundary that is due is taken, then the sequencers and SC run, and `w` counts. -/
def Die.tileCycle (d : Die) : Die :=
  let d0 := if d.boundaryDue then d.takeBoundary else if d.tide.period ≤ d.tide.w then d.holdCycle else d
  let d1 := if d0.positioned then d0.windowsCycle.scCycle else d0
  let d2 := (d1.modTide (fun t => { t with w := t.w + 1 })).phaseCycle
  let d3 := if d2.positioned && decide (d2.tide.w = d2.tide.period) then d2.modTide (fun t => { t with lateStates := d2.lateThreads }) else d2
  if d3.fwRuns && !d3.serve.inputs.isEmpty then d3.serveInputs else d3

end Sys2Proof.Machine
end

