-- ==== Sys2Proof/Machine/TideCmd.lean ====
section
/-! DEFINITION. Commands to the tide block (R238 to R251): load, arm, stop and cancel, the preload, writes of its registers; marks
of full/empty regions and packet-plane accesses to tile SRAM (R216). -/
namespace Sys2Proof.Machine

/-- A request the state does not allow (R239, R251): code 20 and a strandline record. -/
def Die.tideRefuse (d : Die) (ag : Agent) (req : Nat) : Die :=
  ((d.put Reg.TIDE_LOAD_STATUS_CODE 20).record 0x05 2 96 0xFFFF [req, d.tideState]).answer ag stOk

/-- A request the state allows: code 0. -/
def Die.tideAccept (d : Die) (ag : Agent) : Die := (d.put Reg.TIDE_LOAD_STATUS_CODE 0).answer ag stOk

/-- LOAD: the loader starts on the image at TIDE_LOAD_BASE; a table loaded before is discarded. -/
def Die.tideLoad (d : Die) (ag : Agent) : Die :=
  if d.tideState = 0 ∨ d.tideState = 2 then
    ((d.put Reg.TIDE_STATUS_STATE 1).modTide (fun t => { t with
      table := none, loadBase := dramBase + 4096 * d.get Reg.TIDE_LOAD_BASE_BASE })).tideAccept ag
  else d.tideRefuse ag 1

def execTideLoad (ag : Agent) (s : State) : Host.Outcome State Fault Refusal :=
  mainCmd (fun d => !d.computeHeld && d.mayControl ag) (fun d => d.tideLoad ag) s

/-- The accuracy profile of a table (R236): its matrix entries. -/
def Table.profile (t : Table) : List (List Nat) := t.matrices.map (fun m => [m.id, m.layer, m.flags, m.rank, m.k, m.n])

/-! ### Repair slots (R152, R324) -/

/-- The COMBINE descriptors of a tile, by position and thread. -/
def Die.combines (d : Die) (tb : Table) (b : TileBlock) : List Desc :=
  let bs := d.region0 tb.base b
  ((List.range tb.tides).map (fun p => ((List.range tb.nSched).map (fun th =>
    ((tb.stream bs p th).getD []).filter (fun c => descOp c == ocCombine))).flatten)).flatten

/-- The arrays of a COMBINE join the row group that its operand D names: INIT begins one, another descriptor goes on with the latest. -/
def joinGroup (l : List (Nat × List Nat)) (c : Desc) : List (Nat × List Nat) :=
  let mine := namedArrays c
  if bit (descP0 c) 0 then (c.d.toNat, mine) :: l
  else match l with
    | [] => [(c.d.toNat, mine)]
    | g :: r => if g.1 = c.d.toNat then (g.1, g.2 ++ mine) :: r else g :: joinGroup r c

/-- The row groups of a table (R152): tile and logical arrays in increasing order, each group once, by tile and then by its arrays. -/
def Die.rowGroups (d : Die) (tb : Table) : List (Nat × List Nat) :=
  (tb.tiles.map (fun b =>
    let l := (((d.combines tb b).foldl joinGroup []).map (fun g => (List.range 256).filter (fun a => g.2.contains a))).foldl addOnce []
    (sortBy id l).map (fun g => (b.tile, g)))).flatten

/-- REPAIR_SLOTS: in LOADED only; the row groups of the loaded table tell which slots an array may take. -/
def execRepairSlots (box : Nat) (slots : List RepairSlot) (s : State) : Host.Outcome State Fault Refusal :=
  fwCmd box (fun d =>
    if d.tideState ≠ 2 then d.reply box rcState []
    else d.ranged box (slots.all (fun x => decide (x.slots ≤ 4) && decide (x.tile < 64) && decide (x.region < 255)))
      (fun e => { e with upkeep := { e.upkeep with
        slots := slots, groups := match e.tide.table with | some tb => e.rowGroups tb | none => [] } })) s

/-! ### Load (R239, R240) -/

/-- The loader is through (R240): LOADED, or IDLE with the refusal. The firmware reports the table's accuracy profile then (R236; when it
does so is a DESIGN CHOICE, log entry 66). -/
def Die.tableLoadDone (d : Die) : Die :=
  match d.loadErr d.tide.loadBase with
  | none =>
    let tb := d.tableAt d.tide.loadBase
    let d1 := (((d.put Reg.TIDE_STATUS_STATE 2).putW Reg.TIDE_LOAD_STATUS 0).putW Reg.TIDE_LOAD_DETAIL 0).modTide (fun t => { t with
      table := some tb })
    if d1.fwRuns then d1.emit (.profile tb.profile) else d1
  | some (code, sec, ent, tile) =>
    ((((d.put Reg.TIDE_STATUS_STATE 0).raise Reg.TIDE_STATUS_REFUSED).putW Reg.TIDE_LOAD_STATUS
      (w32 (code * 2 ^ 27 + sec % 8 * 2 ^ 24 + ent % 2 ^ 24))).put Reg.TIDE_LOAD_DETAIL_TILE tile).record 0x05 1 96 0xFFFF
        [code, sec, ent, tile]

/-- TABLE_LOAD_DONE. The loader's reads wait while DRAM accepts no request (R392). -/
def execTableLoadDone (s : State) : Host.Outcome State Fault Refusal :=
  mainCmd (fun d => !d.computeHeld && d.tideState == 1 && d.dramUp) (fun d => d.tableLoadDone) s

/-! ### ARM (R243) -/

/-- A tile set up from its block: the region table, thread classes, unit and split budgets; SRAM zero, every full/empty region
EMPTY. -/
def Die.armTile (d : Die) (tb : Table) (b : TileBlock) : Die :=
  let d1 := (List.range 255).foldl (fun e r =>
    let g := b.regions.getD r (0, 0)
    (e.putW (Reg.ENG_RGN_BASE b.tile r) (w32 g.1)).putW (Reg.ENG_RGN_LIMIT b.tile r) (w32 g.2)) d
  let d2 := (List.range 64).foldl (fun e th => e.put (Reg.ENG_THREAD_CLASS b.tile th)
    (if th < tb.nSched then 1 else if th < tb.nSched + tb.nPool then 2 else if th < tb.nSched + tb.nPool + tb.nSound then 3 else 0)) d1
  let d3 := (d2.dropMem (fun a => sramTile a == some b.tile)).modTile b.tile (fun x => { x with fe := [] })
  let d4 := d3.put (Reg.SND_TILE_UNIT_UNIT b.tile) b.unit
  (List.range 256).foldl (fun e l => match e.serving b.tile l with
    | some a => e.put (Reg.ARR_CLIFF_BUDGET b.tile a) (b.budgets.getD l 0)
    | none => e) d4

/-- The slice diameter in hops (R220). -/
def Table.diameter (t : Table) : Nat :=
  let ax (wrap : Bool) (e : Nat) : Nat := if wrap then e / 2 else e - 1
  ax (bit t.flags 0) t.ext.1 + ax (bit t.flags 1) t.ext.2.1 + ax (bit t.flags 2) t.ext.2.2

/-- The slice links now (R464): with a neighbour in the slice, UP with result MATCH. -/
def Die.armMask (d : Die) (t : Table) : Nat :=
  (((d.sliceNeeds t).filter (fun k => d.linkUp k && decide (d.get (Reg.LNK_STATUS_CHECK k) = 1))).map (fun k => 2 ^ k)).sum

/-- TIDE_SLICE and the SLICE bits of the links (R250, R464, R473). -/
def Die.armSlice (d : Die) (t : Table) : Die :=
  let m := d.armMask t
  let d1 := ((((d.put Reg.TIDE_SLICE_LAG t.lag).put Reg.TIDE_SLICE_MASTER (b2n (bit t.flags 3))).put Reg.TIDE_SLICE_LINK_MASK m).put
    Reg.TIDE_SLICE_DIAM t.diameter)
  { (List.range 6).foldl (fun e k => e.put (Reg.LNK_STATUS_SLICE k) (b2n (bit m k))) d1 with sliceMask := m }

/-- The preload entries of a table, tile by tile in order. -/
def Table.preloads (t : Table) : List (Nat × Preload) := (t.tiles.map (fun b => b.preload.map (fun p => (b.tile, p)))).flatten

/-- ARM accepted (R243). -/
def Die.armNow (d : Die) (tb : Table) : Die :=
  let d1 := (d.put Reg.TIDE_CTRL_PERIOD (tb.period / 64)).put Reg.TIDE_STATUS_STATE 3
  let d2 := tb.tiles.foldl (fun e b => e.armTile tb b) d1
  let d2z := d2.upkeep.ranks.foldl (fun e x => e.zeroSlot x.matrix x.group x.slot) d2
  let d3 := ({ d2z with
    upkeep := { d2z.upkeep with
      ranks := d2z.upkeep.ranks.map (fun (x : RankUse) => { x with written := false }), diodeFresh := false, alignAsk := false },
    sense := { d2z.sense with quietSince := none } }).armSlice tb
  let d4 := d3.modTide (fun t => { t with
    marks := [], beacon := none, stopFlag := false, stopNow := false, fault := none, preload := tb.preloads, armTide := d.tideNum,
    start := d.get64 (Reg.TIDE_START 0), skipped := false, sinceSkip := 0, steps := 0 })
  let d5 := if d4.fwRuns then d4.tableArmed else d4
  if d5.fwRuns then d5.bktProgram else d5

/-- ARM (R239): refused in other states, while a trip is active (R504), and with code 21 where the start tide is too early. -/
def Die.tideArm (d : Die) (ag : Agent) : Die :=
  match d.tide.table with
  | some tb =>
    if d.tideState ≠ 2 ∨ d.on Reg.THM_TRIP_TRIP then d.tideRefuse ag 2
    else if d.get64 (Reg.TIDE_START 0) < d.tideNum + 2 then (d.put Reg.TIDE_LOAD_STATUS_CODE 21).answer ag stOk
    else (d.armNow tb).tideAccept ag
  | none => d.tideRefuse ag 2

def execArm (ag : Agent) (s : State) : Host.Outcome State Fault Refusal :=
  mainCmd (fun d => !d.computeHeld && d.mayControl ag) (fun d => d.tideArm ag) s

/-! ### STOP, STOP_NOW, CANCEL (R239, R244) -/

/-- STOP: the table runs to the end of its step; in the tide of its last position the tiles are disabled at once. -/
def Die.tideStop (d : Die) (ag : Agent) : Die :=
  if d.tideState = 4 then
    let d1 := d.put Reg.TIDE_STATUS_STATE 5
    let last := match d.tide.table with | some tb => d.positioned && decide (d.pos + 1 = tb.tides) | none => false
    (if last then d1.enableAll false else d1).tideAccept ag
  else d.tideRefuse ag 3

def execStop (ag : Agent) (s : State) : Host.Outcome State Fault Refusal :=
  mainCmd (fun d => !d.computeHeld && d.mayControl ag) (fun d => d.tideStop ag) s

/-- STOP_NOW: a fault stop with F_CAUSE 2 (R466); the table is gone at the next boundary. -/
def Die.tideStopNow (d : Die) (ag : Agent) : Die :=
  if d.armed then (d.faultStop 2 d.coord).tideAccept ag else d.tideRefuse ag 4

def execStopNow (ag : Agent) (s : State) : Host.Outcome State Fault Refusal :=
  mainCmd (fun d => !d.computeHeld && d.mayControl ag) (fun d => d.tideStopNow ag) s

/-- CANCEL: a loaded table is discarded. -/
def Die.tideCancel (d : Die) (ag : Agent) : Die :=
  if d.tideState = 2 then
    ((d.put Reg.TIDE_STATUS_STATE 0).modTide (fun t => { t with table := none })).tideAccept ag
  else d.tideRefuse ag 5

def execCancel (ag : Agent) (s : State) : Host.Outcome State Fault Refusal :=
  mainCmd (fun d => !d.computeHeld && d.mayControl ag) (fun d => d.tideCancel ag) s

/-- A write of TIDE_CMD by its word (R251): 0 and 6 to 15 act as a request the state does not allow. -/
def Die.tideCmd (d : Die) (ag : Agent) (word : Nat) : Die :=
  match word % 16 with
  | 1 => d.tideLoad ag
  | 2 => d.tideArm ag
  | 3 => d.tideStop ag
  | 4 => d.tideStopNow ag
  | 5 => d.tideCancel ag
  | n => d.tideRefuse ag n

/-! ### Preload (R232, R243) -/

/-- The next preload entry of a tile: tiles copy from the tide after ARM's, each its entries in order, unless DRAM holds. -/
def Die.preloadNext (d : Die) (tile : Nat) : Option Preload :=
  match d.tide.table with
  | none => none
  | some tb =>
    match look d.tide.preload tile with
    | none => none
    | some p =>
      if d.tideState = 3 ∧ d.tide.armTide < d.tideNum ∧
        d.dramUp = true ∧ d.held (if p.kind = 0 then tb.base + p.src else goldenBase + p.src) = false then some p else none

/-- A preload entry's bytes land, and its destination is marked. -/
def Die.preloadCopy (d : Die) (tile : Nat) (base : Nat) (p : Preload) : Die :=
  let a := if p.kind = 0 then base + p.src else goldenBase + p.src
  let bad := d.rangePoison a p.len
  let bs := (d.preloadBytes base p)
  let d1 := ((d.readReport a p.len).sramUse tile (d.rgnOff tile (p.dst / 2 ^ 24) + p.dst % 2 ^ 24) p.len).setBytes (d.rgnAddr tile (p.dst / 2 ^ 24) (p.dst % 2 ^ 24)) bs
  let d2 := if p.mark && d.rgnFE tile (p.dst / 2 ^ 24) then d1.mark tile (p.dst / 2 ^ 24) true bad else d1
  d2.modTide (fun t => { t with preload := t.preload.erase (tile, p) })

def Die.preloadDone (d : Die) (tile : Nat) : Die :=
  match d.preloadNext tile, d.tide.table with
  | some p, some tb => d.preloadCopy tile tb.base p
  | _, _ => d

def execPreloadEntryDone (tile : Nat) (s : State) : Host.Outcome State Fault Refusal :=
  mainCmd (fun d => !d.computeHeld) (fun d => d.preloadDone tile) s

/-! ### Register writes (R245, R247, R249) -/

/-- A write of TIDE_CTRL: outside IDLE one that changes PERIOD is refused with the busy status and changes nothing; else CNT_CLR
acts in every state. -/
def Die.tideCtrlWrite (d : Die) (ag : Agent) (word : Nat) : Die :=
  if d.tideState ≠ 0 ∧ word % 2 ^ 11 ≠ d.get Reg.TIDE_CTRL_PERIOD then d.busy ag Reg.TIDE_CTRL word
  else d.plainWrite ag Reg.TIDE_CTRL word 96

def execTideCtrlWrite (ag : Agent) (word : Nat) (s : State) : Host.Outcome State Fault Refusal :=
  mainCmd (fun d => !d.computeHeld && d.mayControl ag) (fun d => d.tideCtrlWrite ag word) s

/-- TIDE_CNT_CLR: the stall counters clear at the next boundary. -/
def execTideCntClr (ag : Agent) (s : State) : Host.Outcome State Fault Refusal :=
  mainCmd (fun d => !d.computeHeld && d.mayControl ag) (fun d => (d.raise Reg.TIDE_CTRL_CNT_CLR).answer ag stOk) s

/-- A write of the throttle demand, merged with PWR_FAST while the guard holds (R249, R490). A field with a reserved value keeps
the demand it had (R14). -/
def Die.tideThrottleWrite (d : Die) (ag : Agent) (word : Nat) : Die :=
  let fs := (regSpec Reg.TIDE_THROTTLE).getD []
  ((d.writeDemand (writeFields fs d.sense.demand (word % 2 ^ 32))).recordRefused ag Reg.TIDE_THROTTLE word 96
    (refusedFields fs word)).answer ag stOk

def execTideThrottleWrite (ag : Agent) (word : Nat) (s : State) : Host.Outcome State Fault Refusal :=
  mainCmd (fun d => !d.computeHeld && d.mayControl ag) (fun d => d.tideThrottleWrite ag word) s

/-! ### Full/empty regions and packets (R216, R217) -/

/-- BUFFER_MARK_REQUEST: the region's state and poison bit. -/
def execBufferMarkRequest (tile rgn : Nat) (full poison : Bool) (s : State) : Host.Outcome State Fault Refusal :=
  mainCmd (fun d => d.tileAnswers tile && d.rgnFE tile rgn) (fun d => d.mark tile rgn full poison) s

/-- PACKET_SRAM_ACCESS: performed where the allocation map and the full/empty state allow it, else a fault of KIND 4; the answer
carries the bytes read and the buffer's poison. The window of a disabled tile reads zero, ignores the write and records the access
(R3), under the agent code of a DMA engine, since R572 has none for the packet plane (log entry 7). -/
def Die.packetAccess (d : Die) (tile : Nat) (write : Bool) (off len : Nat) (data : List Byte) : Die :=
  let a := tileAddr tile + off
  if !d.enabled tile then
    (d.recordA 0x01 2 tile 0xFFFF .dma a (if write then leNat (data.take 4) else 0) stOk).emit
      (.sram tile off true false (if write then [] else zeros len))
  else if d.packetOk tile off len write then
    let d1 := d.sramUse tile off len
    if write then (d1.setBytes a data).emit (.sram tile off true false [])
    else d1.emit (.sram tile off true (d.packetPoison tile off len) (d.bytesAt a len))
  else (d.packetFault tile off).emit (.sram tile off false false [])

def execPacketSramAccess (tile : Nat) (write : Bool) (off len : Nat) (data : List Byte) (s : State) :
    Host.Outcome State Fault Refusal :=
  mainCmd (fun d => decide (tile < 64) && (!d.enabled tile || d.tileAnswers tile) && decide (1 ≤ len) && decide (len ≤ 1024) && (!write || decide (data.length = len)))
    (fun d => d.packetAccess tile write off len data) s

end Sys2Proof.Machine
end

