-- ==== Sys2Proof/Machine/RegAccess.lean ====
section
/-! DEFINITION. Accesses by address (R8 to R14, R75 to R79, R437, R508): what refuses one, what a read returns, what a write of
each register does; REG_READ, REG_WRITE, REGISTER_WRITE and transfers on the management bus. -/
namespace Sys2Proof.Machine

/-! ### What refuses an access -/

/-- The registers that a reset in progress holds (R508, R516): by reset domain as `ResetRun.dom` numbers them. -/
def heldBy (dom a : Nat) : Bool :=
  match dom with
  | 0 => true
  | 1 => within 0x100 0x200 a || within 0x8000 0x10000 a || within 0x18000 0x20000 a || within 0x20810 0x20820 a ||
    within 0x30000 0x80000 a || within 0x90000 0xA0000 a || within 0xB0000 0xE0000 a
  | 2 => within 0x30000 0x40000 a || within 0xC0000 0xE0000 a
  | 3 => within 0x50000 0x60000 a
  | 4 => within 0x70000 0x80000 a
  | n => decide (n < 11) && within (0x60000 + 0x1000 * (n - 5)) (0x61000 + 0x1000 * (n - 5)) a

/-- The tile whose window holds an address. -/
def windowTile (a : Nat) : Option Nat := if tileAddr 0 ≤ a ∧ a < tileAddr 64 then some ((a - tileAddr 0) / 0x1000000) else none

/-- An address that no register, and no memory the agent can reach, occupies (R10, R78): record Global 1. The management bus
accesses registers only. -/
def Die.unmapped (d : Die) (ag : Agent) (a w : Nat) : Option (Die × Nat) :=
  some (d.recordA 0x01 1 0xFF 0xFFFF ag a w stUnmapped, stUnmapped)

/-- A window of a tile: what refuses an access there (R3, R79, R183, R508, R514, R522). -/
def Die.tileGate (d : Die) (ag : Agent) (t a w : Nat) : Option (Die × Nat) :=
  if !d.enabled t then some (d.recordA 0x01 2 t 0xFFFF ag a w stOk, stOk)
  else if d.tileHeld t || !(d.tile t).ready then some (d, stNotReady)
  else if (sramTile a).isNone && (regSpec a).isNone then d.unmapped ag a w
  else if (sramTile a).isSome && ag == .j3 then d.unmapped ag a w
  else if (d.tile t).parked then some (d, stBusy)
  else if (sramTile a).isSome && isHost ag && d.armed then some (d.recordA 0x01 4 t 0xFFFF ag a w stBusy, stBusy)
  else none

/-- DRAM: what refuses an access there (R385, R386, R514): a host access is busy while the stack accepts no request (R392), during a DRAM
event too (R387; DEDUCED, log entry 62). -/
def Die.dramGate (d : Die) (ag : Agent) (a : Nat) (write : Bool) (w : Nat) : Option (Die × Nat) :=
  if ag == .j3 then d.unmapped ag a w
  else if d.lowWater then some (d, stNotReady)
  else if !isGeneral a && ag != .firmware && !(!write && d.hasDebug ag) then
    some (d.recordA 0x0B 5 (80 + 2 * stackOf a) 0xFFFF ag a w stProtected, stProtected)
  else if d.held a then some (d, stBusy)
  else none

/-- A session writes only the SEC block and RST_CTRL while the security state is not NORMAL (R551). -/
def Die.lockedOut (d : Die) (ag : Agent) (a : Nat) : Bool :=
  (match ag with | .session _ => true | _ => false) && decide (d.secState ≠ 0) && !within 0x90000 0xA0000 a &&
    decide (a ≠ Reg.RST_CTRL)

/-- What refuses a 32-bit access: the die after it and the status; none where nothing does. -/
def Die.gate (d : Die) (ag : Agent) (a : Nat) (write : Bool) (w : Nat) : Option (Die × Nat) :=
  if a % 4 ≠ 0 then some (d, stAlign)
  else if d.boot.resets.any (fun r => r.asserted && heldBy r.dom a) then some (d, stNotReady)
  else if write && d.lockedOut ag a then some (d, stRole)
  else match windowTile a with
    | some t => d.tileGate ag t a w
    | none =>
      if isDram a then d.dramGate ag a write w
      else if (regSpec a).isSome then none
      else d.unmapped ag a w

/-! ### Reading -/

/-- The low words of 64-bit quantities (R9): counters, times, addresses and sums. Pairs of registers that are masks of 64 parts,
and the MAC address, are not read through a holding register (DESIGN CHOICE, log entry 53). -/
def isLow64 (a : Nat) : Bool :=
  if a < 0x100000 then
    [0x10008, 0x18110, 0x18118, 0x18190, 0x18198, 0x20048, 0x30008, 0x30030, 0x70308, 0x70320, 0x80008].contains a ||
    (within 0x30100 0x30200 a && decide (a % 8 = 0)) ||
    (within 0x60000 0x66000 a && [0x10, 0x100, 0x108].contains (a % 0x1000)) ||
    (within 0xC0100 0xC0900 a && [0, 8, 0x18].contains (a % 0x40))
  else match windowTile a with
    | none => false
    | some _ =>
      let o := (a - tileAddr 0) % 0x1000000
      o == 0x800034 || (within 0xA00100 0xA00500 o && [0, 8, 0x18].contains (o % 0x40)) ||
      (within 0xC00000 0xD10000 o && o % 0x1000 == 0x10)

/-- STL_COPY_DATA[i]: a word of the record that STL_COPY_SEL selects (R574). -/
def Die.copyWord (d : Die) (i : Nat) : Nat :=
  match look d.strand.copy (d.get Reg.STL_COPY_SEL_INDEX) with
  | some r => leAt (recBytes r) (4 * i) 4
  | none => 0

/-- HP_SESSION (R446). -/
def Die.sessionWord (d : Die) : Nat :=
  (d.host.sessions.map (fun p => 2 ^ (p.1 % 8))).sum +
  (match d.slotsWith 2 with | s :: _ => 2 ^ 11 + 2 ^ 8 * (s % 8) | [] => 0)

/-- The CRC parameters as they read: those of the algorithm for SEL 0 to 2 (R414, R419), and RESULT. -/
def Die.crcWord (d : Die) (u : CrcUnit) (o : Nat) : Option Nat :=
  let g := d.crcAlg u
  match o with
  | 4 => some g.poly
  | 8 => some g.init
  | 0xC => some g.xorout
  | 0x14 => some (d.crcNow u)
  | _ => none

/-- ENG_REQ_INFL (R202). -/
def Die.inflWord (d : Die) (t : Nat) : Nat :=
  d.slotsOf t .outl * 2 ^ 16 + d.slotsUsed t

/-- CH_STATUS of a channel (R412). -/
def Die.chWord (d : Die) (e : DmaEng) (c : Nat) : Nat := setBits (d.getW (chBase e c + 0x28)).toNat 0 4 (d.chShown e c)

/-- Registers of a tile that show what no stored word holds. -/
def Die.liveTile (d : Die) (t o : Nat) : Option Nat :=
  if o = 0x800000 then some (2 ^ 31 + t)
  else if o = 0x80002C then some (min (d.bankWaits t) 0xFFFFFFFF)
  else if o = 0x800040 then some (d.inflWord t)
  else if within 0x800100 0x800200 o then some (d.threadWord t ((o - 0x800100) / 4)).toNat
  else if within 0xA00100 0xA00500 o && o % 0x40 == 0x28 then some (d.chWord (.tile t) ((o - 0xA00100) / 0x40))
  else if o = 0x800200 then some (setBits (d.getW (Reg.ENG_POOL_STATUS t)).toNat 0 9 (d.tile t).pool.length)
  else if o = 0x880400 then some (d.spareWord t).toNat
  else if within 0xC00000 0xD10000 o && o % 0x1000 == 0x588 then some (d.trimDist t ((o - 0xC00000) / 0x1000))
  else if within 0xB00000 0xB00100 o then d.crcWord (.tile t) (o - 0xB00000)
  else none

/-- BOOT_MEM_STATUS[k] (R397): the temperature is measured, and a training or test that runs shows its progress; both are free
values (log entry 35). -/
def Die.memStatusWord (d : Die) (k : Nat) : Nat :=
  let w := setBits (d.getW (Reg.BOOT_MEM_STATUS k)).toNat 16 8 (stackTempAt k d.clock.aging)
  if d.memState k = 1 ∨ d.memState k = 3 then setBits w 8 8 (Config.memProgress k d.clock.quarter % 101) else w

/-- Registers that show what no stored word holds. -/
def Die.live1 (d : Die) (a : Nat) : Option Nat :=
  if a = Reg.STL_STATUS then some (setBits (d.getW Reg.STL_STATUS).toNat 2 1 (b2n (d.ringUsable && d.strand.ringLive)))
  else if within 0xA0040 0xA0080 a then some (d.copyWord ((a - 0xA0040) / 4))
  else if a = Reg.BOOT_MEM_STATUS 0 then some (d.memStatusWord 0)
  else if a = Reg.BOOT_MEM_STATUS 1 then some (d.memStatusWord 1)
  else if a = Reg.PTB_CTRL then some (((List.range 6).map (fun i => b2n (d.on (Reg.PTB_CFG_EN i)) * 2 ^ i)).sum)
  else if a = Reg.HP_SESSION then some d.sessionWord
  else if a = Reg.HP_MAC_LO then some (d.nv.mac % 2 ^ 32)
  else if a = Reg.HP_MAC_HI then some (d.nv.mac / 2 ^ 32 % 2 ^ 16)
  else if a = Reg.MON_STATUS then some (setBits (d.getW Reg.MON_STATUS).toNat 9 1 (b2n d.uncal))
  else if within 0x70400 0x70410 a then some (d.scalWord ((a - 0x70400) / 4))
  else if a = Reg.THM_TRIP then
    some (setBits (d.getW Reg.THM_TRIP).toNat 30 1 (b2n (d.on Reg.THM_TRIP_TRIP && Config.releasing d.clock.aging)))
  else if a = Reg.SEC_STATUS then some (setBits (d.getW Reg.SEC_STATUS).toNat 0 8 (min d.authMax 255))
  else if within 0xC0100 0xC0900 a && a % 0x40 == 0x28 then some (d.chWord .edge ((a - 0xC0100) / 0x40))
  else if within 0xD0000 0xD0800 a then d.crcWord (.edge ((a - 0xD0000) / 0x100)) (a % 0x100)
  else match windowTile a with
    | some t => d.liveTile t ((a - tileAddr 0) % 0x1000000)
    | none => none

/-- The word a read of the register at `a` returns. -/
def Die.readWord (d : Die) (a : Nat) : Nat :=
  match d.live1 a with
  | some w => w % 2 ^ 32
  | none => readFields ((regSpec a).getD []) (d.getW a).toNat

/-- A host read of 4 bytes of memory: a poisoned sector reads zero and is reported (R389, R390). -/
def Die.readMem (d : Die) (a : Nat) : Die × Nat :=
  let v := leNat (d.bulkBytes a 4)
  (d.hostRead a 4, v)

/-- The holding registers of an agent (R9): a session's, or those of J3, which counts as a session (log entry 53). -/
def Die.hold64 (d : Die) (ag : Agent) : List (Nat × Word) :=
  match ag with
  | .session s => match d.session s with | some x => x.hold64 | none => []
  | .j3 => d.mgmt.hold64
  | _ => []

def Die.setHold64 (d : Die) (ag : Agent) (h : List (Nat × Word)) : Die :=
  match ag with
  | .session s => match d.session s with | some x => d.putSession s { x with hold64 := h } | none => d
  | .j3 => { d with mgmt := { d.mgmt with hold64 := h } }
  | _ => d

/-- A register read under R9: a low word leaves a copy of its high word, which the next read of that high word returns. -/
def Die.readReg (d : Die) (ag : Agent) (a : Nat) : Die × Nat :=
  if isLow64 a then (d.setHold64 ag (keep (d.hold64 ag) (a + 4) (w32 (d.readWord (a + 4)))), d.readWord a)
  else match look (d.hold64 ag) a with
    | some w => (d.setHold64 ag (amErase (d.hold64 ag) a), w.toNat)
    | none => (d, d.readWord a)

/-- A 32-bit read: the die after it, the value and the status. -/
def Die.read32 (d : Die) (ag : Agent) (a : Nat) : Die × Nat × Nat :=
  match d.gate ag a false 0 with
  | some p => (p.1, 0, p.2)
  | none =>
    let p := if isDram a || (sramTile a).isSome then d.readMem a else d.readReg ag a
    (p.1, p.2, stOk)

/-! ### Writing: the global blocks -/

/-- Clock domain of a register for a strandline record (R73). -/
def regDomain (a : Nat) : Nat :=
  match windowTile a with
  | some t => t
  | none => match a / 0x10000 with
    | 1 => 99 | 2 => 99 | 3 => 96 | 4 => 92 | 5 => 78 | 6 => 72 + (a - 0x60000) / 0x1000 | 7 => 94 | 8 => 99 | 9 => 95 | 10 => 99
    | 12 => 92 | 13 => 92 | _ => 0xFF

/-- A register whose fields only do what their types say. -/
def Die.plain (d : Die) (ag : Agent) (a w : Nat) : Die := d.plainWrite ag a w (regDomain a)

def Die.writeGlb (d : Die) (ag : Agent) (a w : Nat) : Die :=
  if a = Reg.GLB_MESH_CTRL then d.meshCtrl ag w
  else if a = Reg.GLB_COORD then d.planWrite ag a w (fun e => e.coordWrite ag w)
  else if a = Reg.GLB_TORUS then d.planWrite ag a w (fun e => e.torusWrite ag w)
  else d.plain ag a w

/-- BOOT_CMD (R503, R511). -/
def Die.bootCmd (d : Die) (ag : Agent) (w : Nat) : Die :=
  match w % 16 with
  | 1 => d.bootVerify ag
  | 2 => d.bootMaps ag
  | 3 => d.bootStart ag
  | n => d.bootRefuse ag n

def Die.writeBoot (d : Die) (ag : Agent) (a w : Nat) : Die :=
  if a = Reg.BOOT_CMD then d.bootCmd ag w
  else if a = Reg.BOOT_START then (if bit w 31 then d.failcntClear ag else d.answer ag stOk)
  else if a = Reg.BOOT_MEM_CTRL then d.memCtrlWrite ag w
  else if a = Reg.BOOT_MEM_CE_ADDR_HI 0 ∨ a = Reg.BOOT_MEM_CE_ADDR_HI 1 then
    (if bit w 31 then d.errAddrClear ag ((a - 0x18100) / 0x80) false else d.answer ag stOk)
  else if a = Reg.BOOT_MEM_UE_ADDR_HI 0 ∨ a = Reg.BOOT_MEM_UE_ADDR_HI 1 then
    (if bit w 31 then d.errAddrClear ag ((a - 0x18100) / 0x80) true else d.answer ag stOk)
  else d.plain ag a w

/-- RST_CTRL (R525): each bit requests its reset. -/
def Die.rstCtrl (d : Die) (ag : Agent) (w : Nat) : Die :=
  let ask (e : Die) (b dom cause : Nat) : Die := if bit w b then e.askReset ag dom cause else e
  let d1 := ask (ask (ask (ask (ask d 31 0 3) 30 1 4) 29 2 7) 28 3 11) 27 4 12
  ((List.range 6).foldl (fun e k => ask e k (5 + k) 10) d1).answer ag stOk

/-- RST_PARK (R522, R527): the tiles whose bit changes are parked or unparked. -/
def Die.parkWrite (d : Die) (ag : Agent) (hi w : Nat) : Die :=
  (List.range 32).foldl (fun e i =>
    let t := 32 * hi + i
    if bit w i == bit (d.getW (Reg.RST_PARK hi)).toNat i then e
    else if bit w i then e.tilePark ag t else e.tileUnpark ag t) (d.answer ag stOk)

def Die.writeRst (d : Die) (ag : Agent) (a w : Nat) : Die :=
  if a = Reg.RST_CTRL then d.rstCtrl ag w
  else if a = Reg.RST_TILE 0 ∨ a = Reg.RST_TILE 1 then
    (bitsSet 32 w).foldl (fun e i => e.tileReset ag (8 * (a - Reg.RST_TILE 0) + i)) (d.answer ag stOk)
  else if a = Reg.RST_PARK 0 ∨ a = Reg.RST_PARK 1 then d.parkWrite ag ((a - Reg.RST_PARK 0) / 4) w
  else if a = Reg.RST_HANG_STATUS ∧ bit w 31 then d.hangClear ag
  else if a = Reg.RST_LH_KICK then d.answer ag stOk
  else d.plain ag a w

def Die.writeTide (d : Die) (ag : Agent) (a w : Nat) : Die :=
  if a = Reg.TIDE_CTRL then d.tideCtrlWrite ag w
  else if a = Reg.TIDE_THROTTLE then d.tideThrottleWrite ag w
  else if a = Reg.TIDE_CMD then d.tideCmd ag w
  else d.plain ag a w

/-- MBX (R440, R441, R443): a request box takes writes of its owner, and of anyone while it is FREE. -/
def Die.writeMbx (d : Die) (ag : Agent) (a w : Nat) : Die :=
  if a < 0x44000 then
    let k := (a - 0x40000) / 0x100
    if (d.box k).state = .free ∨ d.boxOwner k = agentCode ag then d.plain ag a w else d.answer ag stBusy
  else if a = Reg.MBX_DB 0 ∨ a = Reg.MBX_DB 1 then
    (if isHost ag then d.doorbell ag (a == Reg.MBX_DB 1) w else d.answer ag stRole)
  else if a = Reg.MBX_DONE 0 ∨ a = Reg.MBX_DONE 1 then d.mbxRelease ag (a == Reg.MBX_DONE 1) w
  else d.plain ag a w

def Die.writeHp (d : Die) (ag : Agent) (a w : Nat) : Die :=
  if a = Reg.HP_CTRL then
    let d1 := d.plain ag a (w % 2 ^ 31)
    if bit w 31 then d1.hpRetrain else d1
  else d.plain ag a w

/-- LNK_CTRL (R472): a change of EN, then RETRAIN. -/
def Die.lnkCtrl (d : Die) (ag : Agent) (k w : Nat) : Die :=
  let was := d.on (Reg.LNK_CTRL_EN k)
  let d1 := if bit w 0 && !was then d.linkEnable ag k else if !bit w 0 && was then d.linkDisable ag k else d.answer ag stOk
  if bit w 31 then d1.linkRetrain ag k else d1

def Die.writeLnk (d : Die) (ag : Agent) (a w : Nat) : Die :=
  let k := (a - 0x60000) / 0x1000
  match a % 0x1000 with
  | 0 => d.lnkCtrl ag k w
  | 8 => d.planWrite ag a w (fun e => e.lnkPlanWrite ag k w)
  | _ => d.plain ag a w

/-- A mask is reserved that names SAR A's diode or a channel that is not connected (R479, R495). -/
def maskBad (conv w : Nat) : Bool := (bitsSet 32 w).any (fun i => !connected conv i || (conv == 0 && i == 12))

/-- MON_RMASK (R495): bit 0 reads 1. -/
def Die.maskWrite (d : Die) (ag : Agent) (conv a w : Nat) : Die :=
  if maskBad conv w then (d.record 0x01 3 94 0xFFFF (detailA a w stOk ag 0 32)).answer ag stOk
  else (d.putW a (w32 (setBits w 0 1 1))).answer ag stOk

/-- The channel fields of a MON_JSEQ write that are reserved: among the first LEN, one that is not connected or repeats an earlier
one. -/
def jseqBad (conv len w : Nat) : List Nat :=
  (List.range len).filter (fun k => !connected conv (bits w (5 * k) 5) ||
    (List.range k).any (fun j => bits w (5 * j) 5 == bits w (5 * k) 5))

/-- MON_JSEQ (R495). -/
def Die.jseqWrite (d : Die) (ag : Agent) (conv a w : Nat) : Die :=
  let old := (d.getW a).toNat
  let badLen := decide (4 < bits w 24 3)
  let len := if badLen then bits old 24 3 else bits w 24 3
  let bad := jseqBad conv len w
  let n1 := if badLen then old else setBits old 24 3 (bits w 24 3)
  let n2 := ((List.range 4).filter (fun k => !bad.contains k)).foldl (fun o k => setBits o (5 * k) 5 (bits w (5 * k) 5)) n1
  let fs : List (Nat × Nat) := (if badLen then [(24, 3)] else []) ++ bad.map (fun k => (5 * k, 5))
  (fs.foldl (fun e p => e.record 0x01 3 94 0xFFFF (detailA a w stOk ag p.1 p.2)) (d.putW a (w32 n2))).answer ag stOk

def Die.writeMon (d : Die) (ag : Agent) (a w : Nat) : Die :=
  if a = Reg.MON_CTRL then d.monCtrlWrite ag w
  else if a = Reg.MON_RMASK_A then d.maskWrite ag 0 a w
  else if a = Reg.MON_RMASK_B then d.maskWrite ag 1 a w
  else if within 0x70020 0x70034 a then d.jseqWrite ag 0 a w
  else if within 0x70040 0x70054 a then d.jseqWrite ag 1 a w
  else d.plain ag a w

def Die.writeThm (d : Die) (ag : Agent) (a w : Nat) : Die :=
  if a = Reg.THM_CTRL then (if bit w 0 then d.readDiode else d).answer ag stOk else d.plain ag a w

/-- SEC_CTRL (R557): DEBUG_EN as written, and UNLOCK. -/
def Die.secCtrl (d : Die) (ag : Agent) (w : Nat) : Die :=
  let d1 := d.debugEnWrite ag (bit w 0)
  if bit w 31 then d1.unlock ag else d1

/-- The SEC block (R538, R557 to R561). -/
def Die.writeSec (d : Die) (ag : Agent) (a w : Nat) : Die :=
  d.secWrite ag a w (fun e =>
    if a = Reg.SEC_CTRL then e.secCtrl ag w
    else if a = Reg.SEC_POLICY then e.policyWrite ag w
    else if a = Reg.SEC_KEY_CMD then e.keyWrite ag w
    else if a = Reg.SEC_SVN_MIN then e.svnWrite ag w
    else if a = Reg.SEC_ROOT_REVOKE then e.rootRevoke ag w
    else if within (Reg.SEC_KEY_DATA 0) (Reg.SEC_KEY_CMD) a then
      { e with sec := { e.sec with keyData := amSet 0 e.sec.keyData ((a - Reg.SEC_KEY_DATA 0) / 4) (w32 w) } }.answer ag stOk
    else e.plain ag a w)

/-- STL_CTRL (R574): EN, and RELEASE. -/
def Die.stlCtrl (d : Die) (ag : Agent) (w : Nat) : Die :=
  let d1 := ((d.put Reg.STL_CTRL_EN (w % 2)).ringCheck).answer ag stOk
  if bit w 31 then d1.releaseCopy else d1

def Die.writeStl (d : Die) (ag : Agent) (a w : Nat) : Die :=
  if a = Reg.STL_CTRL then d.stlCtrl ag w else d.plain ag a w

/-- A register of injector `i` (R576, R579): EN set arms it and EN cleared disarms it; the others are reserved encodings while EN
is 1, and AMOUNT outside the injector's range. -/
def Die.injWrite (d : Die) (ag : Agent) (i a w : Nat) : Die :=
  let refuse (width : Nat) : Die := (d.record 0x01 3 0xFF 0xFFFF (detailA a w stOk ag 0 width)).answer ag stOk
  if a = Reg.PTB_CFG i then
    (if bit w 0 then d.ptbArm ag i w else ((d.clear (Reg.PTB_CFG_EN i)).setInj i {}).answer ag stOk)
  else if a = Reg.PTB_FIRED i then d.answer ag stOk
  else if d.on (Reg.PTB_CFG_EN i) then refuse (if a = Reg.PTB_TARGET i then 32 else 16)
  else if a = Reg.PTB_AMOUNT i ∧ amountOk i (w % 65536) = false then refuse 16
  else d.plain ag a w

def Die.writePtb (d : Die) (ag : Agent) (a w : Nat) : Die :=
  if !d.hasDebug ag then d.ptbRefuse ag a w
  else if a = Reg.PTB_CTRL then (if bit w 31 then d.ptbKill else d).answer ag stOk
  else d.injWrite ag ((a - Reg.PTB_CFG 0) / 0x20) a w

/-! ### Writing: DMA engines and check-value units -/

/-- CH_CMD (R410, R412): START, FETCH, STOP. -/
def Die.chCmd (d : Die) (ag : Agent) (e : DmaEng) (c w : Nat) : Die :=
  let d1 := if bit w 0 then d.chStart ag e c else d.answer ag stOk
  let d2 := if bit w 2 then d1.chFetch ag e c else d1
  if bit w 1 then d2.chStop ag e c else d2

/-- A register of a DMA engine at offset `o` (R401, R410, R412, R413). -/
def Die.writeDma (d : Die) (ag : Agent) (e : DmaEng) (o w : Nat) : Die :=
  let c := (o - 0x100) / 0x40
  let r := (o - 0x100) % 0x40 / 4
  if o = 0 then d.dmaCfgWrite ag e w
  else if d.dmaHostBusy ag e 0 false then d.answer ag stBusy
  else if o < 0x100 then d.plain ag (dmaBase e + o) w
  else if r = 8 then d.chCmd ag e c w
  else if r < 8 ∨ r = 9 then d.dmaRegWrite ag e c r w
  else d.answer ag stOk

/-- A register of a check-value unit at offset `o` (R416 to R419). -/
def Die.writeCrc (d : Die) (ag : Agent) (u : CrcUnit) (o w : Nat) : Die :=
  match o with
  | 0 => d.crcConfigWrite ag u 0 w
  | 4 => d.crcConfigWrite ag u 1 w
  | 8 => d.crcConfigWrite ag u 2 w
  | 0xC => d.crcConfigWrite ag u 3 w
  | 0x10 => d.crcValueWrite ag u w
  | 0x18 => d.crcInitWrite ag u w
  | 0x20 => d.crcFeedWord ag u 0x20 1 w
  | 0x24 => d.crcFeedWord ag u 0x24 2 w
  | 0x28 => d.crcFeedWord ag u 0x28 4 w
  | _ => d.plain ag (crcBase u + o) w

/-! ### Writing: tiles and arrays -/

/-- ENG_CTRL (R198). -/
def Die.engCtrl (d : Die) (ag : Agent) (t w : Nat) : Die :=
  let d1 := if bit w 31 then d.raise (Reg.ENG_CTRL_CNT_CLR t) else d
  d1.engEnable ag t (bit w 0)

/-- CAL_CTRL (R287): HOLD as written, and SNAP. -/
def Die.calCtrl (d : Die) (ag : Agent) (t a w : Nat) : Die :=
  let d1 := d.put (Reg.CAL_CTRL_HOLD t a) (w % 2)
  if bit w 1 then d1.calSnap ag t a else d1.answer ag stOk

/-- A register of physical array `a` at offset `o` of its block. -/
def Die.writeArr (d : Die) (ag : Agent) (t a o addr w : Nat) : Die :=
  if o = 0 then d.arrCfgWrite ag t a w
  else if o = 0x34 then
    (if bit w 31 then d.modArr t a (fun x => { x with predClr := true }) else d).answer ag stOk
  else if within 0x40 0x60 o then d.colmapWrite ag t a ((o - 0x40) / 4) w
  else if o = 0x584 then d.calCtrl ag t a w
  else d.plain ag addr w

/-- SND_TILE_SEED (R306, R315): the state is loaded from it at the next tide boundary. -/
def Die.seedWrite (d : Die) (ag : Agent) (t w : Nat) : Die :=
  let d1 := d.plain ag (Reg.SND_TILE_SEED t) w
  if w = 0 then d1 else d1.modTile t (fun x => { x with seedPending := true })

/-- A register of a tile window at offset `o`. -/
def Die.writeTile (d : Die) (ag : Agent) (t o addr w : Nat) : Die :=
  if 0xC00000 ≤ o then d.writeArr ag t ((o - 0xC00000) / 0x1000) (o % 0x1000) addr w
  else if 0xB00000 ≤ o then d.writeCrc ag (.tile t) (o - 0xB00000) w
  else if 0xA00000 ≤ o then d.writeDma ag (.tile t) (o - 0xA00000) w
  else if o = 0x800004 then d.engCtrl ag t w
  else if o = 0x800010 then (if bit w 31 then d.faultClear ag t else d.answer ag stOk)
  else if o = 0x800044 then (if bit w 31 then d.clear (Reg.ENG_REQ_HWM_MAX t) else d).answer ag stOk
  else if within 0x800100 0x800200 o then d.threadClassWrite ag t ((o - 0x800100) / 4) (bits w 4 2)
  else if within 0x810000 0x820000 o then d.rgnWrite ag t ((o - 0x810000) / 8) (o % 8 == 4) w
  else if o = 0x880804 then d.seedWrite ag t w
  else d.plain ag addr w

/-! ### Writing by address -/

/-- A write of the register at `a`. -/
def Die.writeReg (d : Die) (ag : Agent) (a w : Nat) : Die :=
  match windowTile a with
  | some t => d.writeTile ag t ((a - tileAddr 0) % 0x1000000) a w
  | none => match a / 0x10000 with
    | 0 => d.writeGlb ag a w
    | 1 => d.writeBoot ag a w
    | 2 => d.writeRst ag a w
    | 3 => d.writeTide ag a w
    | 4 => d.writeMbx ag a w
    | 5 => d.writeHp ag a w
    | 6 => d.writeLnk ag a w
    | 7 => d.writeMon ag a w
    | 8 => d.writeThm ag a w
    | 9 => d.writeSec ag a w
    | 10 => d.writeStl ag a w
    | 11 => d.writePtb ag a w
    | 12 => d.writeDma ag .edge (a - 0xC0000) w
    | 13 => d.writeCrc ag (.edge ((a - 0xD0000) / 0x100)) (a % 0x100) w
    | _ => d.plain ag a w

/-- Whether an emission is the status of a register write. -/
def isStatus (o : Out) : Bool := match o with | .status _ _ => true | _ => false

/-- The status that the parts of one write leave: the newest that is not OK. -/
def statusOf (l : List Out) : Nat :=
  match l with
  | [] => stOk
  | .status _ c :: r => if c ≠ stOk then c else statusOf r
  | _ :: r => statusOf r

/-- A 32-bit write: the die after it and the status. -/
def Die.write32 (d : Die) (ag : Agent) (a w : Nat) : Die × Nat :=
  match d.gate ag a true w with
  | some p => p
  | none =>
    if isDram a || (sramTile a).isSome then (d.hostWrite a (natLe 4 w), if d.hostFails a (natLe 4 w) then stCrc else stOk)
    else
      let e := { d with out := [] }.writeReg ag a w
      ({ e with out := e.out.filter (fun o => !isStatus o) ++ d.out }, statusOf e.out)

/-! ### The commands -/

/-- The payload of a response (R437). -/
def regPayload (a v : Nat) : List Byte := natLe 8 a ++ natLe 4 v ++ zeros 4

/-- REG_READ (R437): PWR_SEQ_STATUS reads the carrier's word `seq`. -/
def Die.regReadReq (d : Die) (m : MsgHead) (a seq : Nat) : Die :=
  d.request m 0x10 0 (decide (m.len = 16)) (fun e _ =>
    if a = Reg.PWR_SEQ_STATUS then e.respond m.slot 0x10 stOk m.seq (regPayload a seq)
    else
      let r := e.read32 (.session m.slot) a
      r.1.respond m.slot 0x10 r.2.2 m.seq (regPayload a r.2.1))

def execRegRead (m : MsgHead) (addr : Nat) (s : State) : Host.Outcome State Fault Refusal :=
  mainCmd (fun d => d.canRequest m && decide (addr < 2 ^ 64)) (fun d => d.regReadReq m addr s.carrier.word) s

/-- REG_WRITE (R437) of a register of the die, or of memory. -/
def Die.regWriteReq (d : Die) (m : MsgHead) (a w : Nat) : Die :=
  d.request m 0x11 0 (decide (m.len = 16)) (fun e _ =>
    let r := e.write32 (.session m.slot) a w
    r.1.respond m.slot 0x11 r.2 m.seq (regPayload a w))

/-- REG_WRITE of PWR_SEQ_STATUS, which the carrier holds (R29); refused with ROLE as other writes are while locked (R551). -/
def State.regWriteSeq (s : State) (m : MsgHead) (w : Nat) : State :=
  let p := s.die.requestGate m 0x11 0 (decide (m.len = 16))
  let t := { s with die := p.1 }
  let a := Reg.PWR_SEQ_STATUS
  match p.2 with
  | none => t
  | some _ =>
    if p.1.lockedOut (.session m.slot) a then { t with die := p.1.respond m.slot 0x11 stRole m.seq (regPayload a w) }
    else
      ({ t with die := p.1.respond m.slot 0x11 stOk m.seq (regPayload a w) }).seqStore w

/-- REG_WRITE. -/
def execRegWrite (m : MsgHead) (addr data : Nat) (s : State) : Host.Outcome State Fault Refusal :=
  carCmd (fun t => t.die.live && t.die.canRequest m && decide (addr < 2 ^ 64) && decide (data < 2 ^ 32))
    (fun t => if addr = Reg.PWR_SEQ_STATUS then t.regWriteSeq m data else { t with die := t.die.regWriteReq m addr data }) s

/-- REGISTER_WRITE: a write by address, whoever the writer is. -/
def execRegisterWrite (ag : Agent) (addr word : Nat) (s : State) : Host.Outcome State Fault Refusal :=
  carCmd (fun t => decide (word < 2 ^ 32) &&
      (if addr = Reg.PWR_SEQ_STATUS then t.carrier.standby && t.seqReach ag else t.die.live && t.die.mayWrite ag))
    (fun t =>
      if addr = Reg.PWR_SEQ_STATUS then t.seqWrite ag word
      else
        let r := t.die.write32 ag addr word
        { t with die := r.1.answer ag r.2 }) s

/-- The bus mode after a transfer (R42): the first decides. -/
def busMode (legacy : Bool) : BusMode := if legacy then .i2c else .i3c

/-- A transfer reaches the target: management answers, and the transfer is of the mode the bus is in. -/
def State.transferOk (s : State) (legacy : Bool) : Bool :=
  s.carrier.standby && s.die.mgmtReach && (s.die.mgmt.mode == .undecided || s.die.mgmt.mode == busMode legacy)

/-- An access over J3 (R27, R42, R508): PWR_SEQ_STATUS whenever management answers, other registers once they answer. -/
def State.j3Access (s : State) (write : Bool) (a w : Nat) : State :=
  let d := s.die
  if a = Reg.PWR_SEQ_STATUS then
    if write then s.seqWrite .j3 w else { s with die := d.emit (.j3 s.carrier.word stOk) }
  else if !d.live || !d.mgmt.ready then
    { s with die := if write then d.answer .j3 stNotReady else d.emit (.j3 0 stNotReady) }
  else if write then
    let r := d.write32 .j3 a w
    { s with die := r.1.answer .j3 r.2 }
  else
    let r := d.read32 .j3 a
    { s with die := r.1.emit (.j3 r.2.1 r.2.2) }

/-- MGMT_TRANSFER. -/
def execMgmtTransfer (legacy write : Bool) (addr data : Nat) (s : State) : Host.Outcome State Fault Refusal :=
  carCmd (fun t => t.transferOk legacy && decide (data < 2 ^ 32))
    (fun t =>
      let d := { t.die with mgmt := { t.die.mgmt with mode := busMode legacy } }
      { t with die := d }.j3Access write addr data) s

end Sys2Proof.Machine
end

