-- ==== Sys2Proof/Machine/Relay.lean ====
section
/-! DEFINITION. Relay load (R252 to R266, R581): shards, the chart's checks, the golden copy and its commands. -/
namespace Sys2Proof.Machine

/-! ### The chart (R253, R254) -/

/-- Whether every byte is zero. -/
def allZero (bs : List Byte) : Bool := bs.all (fun b => b == 0)

/-- The concatenated preamble, once every shard of it is held. -/
def Relay.preamble (r : Relay) : List Byte := ((List.range r.nPre).map (fun q => (look r.pre q).getD [])).flatten

/-- The chart header passes R253. -/
def chartHeaderOk (h : List Byte) : Bool :=
  leAt h 0 4 == 0x4843484B && leAt h 4 2 == 1 && leAt h 6 2 == 256 && inR 2 (2 ^ 24) (leAt h 12 4) && inR 1 4096 (leAt h 24 4) &&
  leAt h 28 2 == leAt h 32 1 * leAt h 33 1 * leAt h 34 1 && inR 1 64 (leAt h 30 1) && leAt h 31 1 / 8 == 0 &&
  inR 1 32 (leAt h 32 1) && inR 1 32 (leAt h 33 1) && inR 1 32 (leAt h 34 1) && allZero ((h.drop 35).take 221)

/-- The module table of a preamble, one 32-byte entry per module. -/
def moduleTable (p : List Byte) : List (List Byte) :=
  (List.range (leAt p 28 2)).map (fun m => (p.drop (256 + 32 * m)).take 32)

/-- The shard table of a preamble. -/
def shardTable (p : List Byte) : List Byte := (p.drop (256 + 32 * leAt p 28 2)).take (4 * leAt p 12 4)

/-- The preamble is as long as its tables need. -/
def preambleLong (p : List Byte) : Bool := decide (256 + 32 * leAt p 28 2 + 4 * leAt p 12 4 ≤ p.length)

/-- CHART_CRC of a preamble (R254): over the header with the field as zero, then the shard table. -/
def chartCrcOf (p : List Byte) : Nat := crc32c (splice (p.take 256) 8 (zeros 4) ++ shardTable p)

/-- The entry of the module at relative coordinates `c`. -/
def moduleEntry (p : List Byte) (c : Nat × Nat × Nat) : Option (List Byte) :=
  (moduleTable p).find? (fun e => leAt e 0 1 == c.1 && leAt e 1 1 == c.2.1 && leAt e 2 1 == c.2.2)

/-- This module's coordinates relative to the slice origin that CHART_RELAY gave. -/
def Die.relayRel (d : Die) : Nat × Nat × Nat := d.relTo d.relay.org d.here

/-- The placement CHART_RELAY asks for: the tiles named, or all enabled tiles in increasing number (R260). -/
def Die.placementOf (d : Die) : List Nat := if d.relay.explicit.all (fun t => t == 0xFF) then d.enabledTiles else d.relay.explicit

/-- Link `k` is in MISMATCH (R463). -/
def Die.mismatch (d : Die) (k : Nat) : Bool := decide (k < 6) && d.get (Reg.LNK_STATUS_STATE k) == 5

/-- The first check of the complete preamble that fails (R265); none where all pass. -/
def Die.chartFault (d : Die) (p : List Byte) : Option Nat :=
  let e := moduleEntry p d.relayRel
  let n := (e.map (fun x => leAt x 3 1)).getD 0
  let place := (d.placementOf).take n
  if !chartHeaderOk (p.take 256) || !preambleLong p || leAt p 30 1 ≠ ((moduleTable p).map (fun x => leAt x 3 1)).foldl max 0 then some 1
  else if chartCrcOf p ≠ leAt p 8 4 then some 2
  else if !d.sliceFits (leAt p 32 1, leAt p 33 1, leAt p 34 1) d.relay.org (leAt p 31 1) || e.isNone ||
    d.mismatch d.relay.upLink || d.mismatch d.relay.downLink then some 3
  else if !inR 1 64 n || decide (d.enabledTiles.length < n) || decide (place.length < n) ||
    place.any (fun t => !d.enabled t) || !decide (place.Nodup) then some 4
  else if (e.map (fun x => leAt x 12 8)).getD 0 > 0x50000000 then some 8
  else none

/-! ### Items of a share (R256 to R258) -/

/-- Column scale `j` of an image is a positive normal BF16 value. -/
def scaleOk (s : Nat) : Bool := inR 0x0080 0x7F7F s

/-- An array image passes R258; `u` units, `had` the images stored already. -/
def imageOk (im : List Byte) (units : Nat) (had : List Nat) : Bool :=
  let u := leAt im 0 1
  let l := leAt im 1 1
  let m := leAt im 2 1
  decide (u < units) && decide (m < 3) && decide (leAt im 3 1 < 8) && decide (leAt im 4 2 < 8192) && allZero ((im.drop 20).take 44) &&
  !had.contains (256 * u + l) && (List.range 256).all (fun j => scaleOk (leAt im (64 + 2 * j) 2)) &&
  (im.drop 576).all (fun b => (List.range 2).all (fun k => let c := bits b.toNat (4 * k) 4; decide (c ≠ 8) && weightOk m (sx 4 c)))

/-- A good image is stored (R259): its entry with IMG_CRC and the present bit, its scales and its weights. -/
def Die.storeImage (d : Die) (im : List Byte) : Die :=
  let u := leAt im 0 1
  let l := leAt im 1 1
  let e := splice (splice (im.take 64) 20 (natLe 4 (crc32c im))) 24 (natLe 1 1)
  let d1 := ((d.setBytes (goldEntry u l) e).setBytes (goldScales u l) ((im.drop 64).take 512)).setBytes (goldWeights u l) (im.drop 576)
  { d1 with relay := { d1.relay with images := d1.relay.images ++ [256 * u + l] } }

/-- More logical arrays are placed on the tile of unit `u` than it has usable arrays (R325). -/
def Die.overPlaced (d : Die) (u : Nat) : Bool :=
  decide (272 - d.lostArrays (d.relay.placement.getD u 64) < (d.relay.images.filter (fun x => decide (x / 256 = u))).length)

/-- Bytes of a vector of `n` elements as Shingle-8 panels of at most 32 blocks (R144, R257). -/
def vectorBytes (n : Nat) : Nat :=
  let blocks := (n + 31) / 32
  blocks / 32 * 1056 + (if blocks % 32 = 0 then 0 else (33 * (blocks % 32) + 15) / 16 * 16)

/-- The length of the factor block at the front of `bs` if it passes R258. -/
def factorLen (bs : List Byte) : Option Nat :=
  let r := leAt bs 4 1
  let a := leAt bs 20 4
  let b := leAt bs 24 4
  if decide (32 ≤ bs.length) && [8, 16, 32, 64].contains r && allZero ((bs.drop 5).take 3) && allZero ((bs.drop 28).take 4) &&
    a == r * vectorBytes (leAt bs 8 4) && b == r * vectorBytes (leAt bs 12 4) then some (32 + a + b)
  else none

/-- The factor blocks of a payload all pass (R258); `fuel` bounds their number. Zero bytes may follow the last. -/
def factorsOk (fuel : Nat) (bs : List Byte) : Bool :=
  match fuel with
  | 0 => false
  | k + 1 =>
    if allZero bs then true
    else match factorLen bs with
      | none => false
      | some n => decide (n ≤ bs.length) && factorsOk k (bs.drop n)

/-- Images of a KIND 1 payload are stored one by one; an invalid one fails the load, and so does one more than its tile can serve. -/
def Die.storeImages (d : Die) (n : Nat) (bs : List Byte) : Die :=
  match n with
  | 0 => d
  | k + 1 =>
    let im := bs.take 66112
    if imageOk im d.relay.nUnits d.relay.images then
      let e := d.storeImage im
      if e.overPlaced (leAt im 0 1) then e.relayFail 9 else e.storeImages k (bs.drop 66112)
    else d.relayFail 7

/-- A shard of this module is stored; `sh` is the whole shard. -/
def Die.storeShard (d : Die) (sh : List Byte) : Die :=
  let len := leAt sh 12 4
  let pay := (sh.drop 32).take len
  let off := leAt sh 16 8
  if leAt sh 8 1 = 1 then (if len % 66112 = 0 then d.storeImages (len / 66112) pay else d.relayFail 7)
  else if 0xF000000 < off + len then d.relayFail (if 0xF000000 < off then 8 else 7)
  else if factorsOk (len / 32 + 1) pay then d.setBytes (goldFactors + off) pay
  else d.relayFail 7

/-! ### Progress -/

/-- Every expected shard received and every forwarded one acknowledged: PROGRAMMING, and READY once every array serves (R262). -/
def Die.relayProgress (d : Die) : Die :=
  let r := d.relay
  if r.state = rsReceiving ∧ r.preDone ∧ r.missing.isEmpty ∧ r.fwd.isEmpty then
    ({ d with relay := { r with state := rsProgramming } }).relayCheck
  else d

/-- TARGETs of the modules that own a shard of the expected range (R254, R263). -/
def rangeTargets (r : Relay) (p : List Byte) : List Nat :=
  ((moduleTable p).filter (fun e => decide (leAt e 4 4 ≤ r.last) && decide (r.first < leAt e 4 4 + leAt e 8 4))).map (fun e => leAt e 0 3)

/-- The complete preamble is checked and kept (R259); shards of this module that came before it are stored. -/
def Die.preambleDone (d : Die) : Die :=
  let p := d.relay.preamble
  match d.chartFault p with
  | some c => d.relayFail c
  | none =>
    let e := (moduleEntry p d.relayRel).getD []
    let n := leAt e 3 1
    let tab := shardTable p
    let keepTab := tab.take (4 * leAt p 24 4) ++ (tab.drop (4 * leAt e 4 4)).take (4 * leAt e 8 4)
    let d1 := { d with relay := { d.relay with
      preDone := true, pre := [], targets := rangeTargets d.relay p, modelId := leAt p 16 8, chartCrc := leAt p 8 4, nUnits := n, placement := (d.placementOf).take n } }
    let d2 := d1.setBytes goldenBase (p.take 256 ++ e ++ keepTab)
    let early := d2.relay.early
    early.foldl (fun x sh => if x.relay.state = rsReceiving then x.storeShard sh else x)
      { d2 with relay := { d2.relay with early := [] } }

/-- RELAY_ACK upstream; a head has no upstream neighbour. -/
def Die.relayAckUp (d : Die) (seq : Nat) : Die :=
  if d.relay.upLink < 6 then d.tellLink d.relay.upLink lmRelayAck [seq] else d

/-- One resend of a shard is counted (R264). -/
def Die.countResend (d : Die) (seq : Nat) : Die :=
  { d with relay := { d.relay with resends := d.relay.resends + 1, per := amSet 0 d.relay.per seq (amGet 0 d.relay.per seq + 1) } }

/-- A shard is asked for again (R264): to the upstream neighbour, or at a head to the host; the third resend is the last before the
load fails with `code`. -/
def Die.askAgain (d : Die) (seq kind code : Nat) : Die :=
  if 3 ≤ amGet 0 d.relay.per seq then d.relayFail code
  else
    let d1 := d.countResend seq
    if d.relay.upLink < 6 then d1.tellLink d.relay.upLink kind [seq]
    else d1.eventAll 3 (natLe 1 1 ++ zeros 3 ++ natLe 4 seq ++ zeros 8)

/-- A shard is forwarded downstream and held until it is acknowledged (R263). -/
def Die.forwardShard (d : Die) (seq : Nat) (sh : List Byte) : Die :=
  if d.relay.downLink < 6 then
    ({ d with relay := { d.relay with forwarded := addOnce d.relay.forwarded seq, fwd := keep d.relay.fwd seq sh } }).sendShard
      d.relay.downLink seq sh 0 true none
  else d

/-- Preamble shards that wait in the forward buffer for one before them (R259), beside those that wait there to be acknowledged. -/
def Relay.ahead (r : Relay) : List (Nat × List Byte) :=
  r.pre.filter (fun p => (List.range p.1).any (fun q => (look r.pre q).isNone) && (look r.fwd p.1).isNone)

/-- The 256 MB forward buffer has no room for these bytes; a waiting preamble shard takes its 36 bytes of header and CRC too. -/
def Relay.full (r : Relay) (n : Nat) : Bool :=
  decide (0x10000000 < (r.fwd.map (fun p => p.2.length)).sum + (r.ahead.map (fun p => p.2.length + 36)).sum + n)

/-- The header of a shard passes R255 and its CRC is good. -/
def shardOk (sh : List Byte) : Bool :=
  let len := leAt sh 12 4
  let kind := leAt sh 8 1
  decide (36 ≤ sh.length) && leAt sh 0 4 == 0x4453484B && decide (kind < 3) && (kind == 0) == (leAt sh 9 3 == 0xFFFFFF) &&
  len % 64 == 0 && inR 64 4194240 len && sh.length == 36 + len && (kind == 2 || leAt sh 16 8 == 0) && leAt sh 24 8 == 0 &&
  crc32c (sh.take (32 + len)) == leAt sh (32 + len) 4

/-- The preamble shard `seq` is kept; shard 0 tells how many there are (R252, R253). -/
def Die.preShard (d : Die) (seq : Nat) (sh : List Byte) : Die :=
  let pay := (sh.drop 32).take (leAt sh 12 4)
  let r := d.relay
  let n := if seq = 0 then leAt pay 24 4 else r.nPre
  let r1 : Relay := { r with pre := keep r.pre seq pay, nPre := n, got := addOnce r.got seq, kept := addOnce r.kept seq,
                             corrupt := without r.corrupt seq }
  let d1 := { d with relay := r1 }
  if seq = 0 ∧ !chartHeaderOk (pay.take 256) then d1.relayFail 1
  else if n ≠ 0 ∧ (List.range n).all (fun q => (look r1.pre q).isSome) then d1.preambleDone else d1

/-- A good, expected, new shard that is not of the preamble: kept by its owner, else forwarded. -/
def Die.goodShard (d : Die) (seq : Nat) (sh : List Byte) : Die :=
  let c := d.relayRel
  let own := leAt sh 9 1 == c.1 && leAt sh 10 1 == c.2.1 && leAt sh 11 1 == c.2.2
  let r1 : Relay := { d.relay with got := addOnce d.relay.got seq, corrupt := without d.relay.corrupt seq }
  let d1 := { d with relay := r1 }
  if own then
    let d2 := { d1 with relay := { r1 with kept := addOnce r1.kept seq } }
    if r1.preDone then d2.storeShard sh else { d2 with relay := { d2.relay with early := d2.relay.early ++ [sh] } }
  else d1.forwardShard seq sh

/-- A shard lies outside the expected range (R263): its number does, or its TARGET names no module that owns a shard of the range, which
the preamble tells once it is complete (DEDUCED, log entry 74). -/
def Relay.outside (r : Relay) (sh : List Byte) : Bool :=
  let seq := leAt sh 4 4
  leAt sh 8 1 ≠ 0 && (decide (seq < r.first) || decide (r.last < seq) || (r.preDone && !r.targets.contains (leAt sh 9 3)))

/-- The refusal of a shard (R264): to the neighbour that sent it, or, of the host's, as an event. -/
def Die.refuseShard (d : Die) (link seq : Nat) : Die :=
  if link < 6 then d.tellLink link lmRelayRefused [seq] else d.eventAll 3 (natLe 1 1 ++ zeros 3 ++ natLe 4 seq ++ zeros 8)

/-- SHARD_RECEIVE (R263, R264). Outside RECEIVING the shard is refused to whoever sent it. A full forward buffer leaves a new shard
upstream. -/
def Die.shardReceive (d : Die) (link : Nat) (sh : List Byte) : Die :=
  let seq := leAt sh 4 4
  let r := d.relay
  if r.state ≠ rsReceiving then (d.countResend seq).refuseShard link seq
  else if !shardOk sh then
    ({ d with relay := { r with corrupt := addOnce r.corrupt seq } }).askAgain seq lmRelayNak 6
  else if r.got.contains seq then ({ d with relay := { r with dups := r.dups + 1 } }).relayAckUp seq
  else if r.outside sh then (d.record 0x20 2 0xFF 0xFFFF [seq, leAt sh 9 3]).relayAckUp seq
  else if r.full sh.length then d
  else if leAt sh 8 1 = 0 then
    let d1 := (d.forwardShard seq sh).relayAckUp seq
    (d1.preShard seq sh).relayProgress
  else ((d.relayAckUp seq).goodShard seq sh).relayProgress

def execShardReceive (m : ShardIn) (s : State) : Host.Outcome State Fault Refusal :=
  mainCmd (fun d => d.fwRuns) (fun d => d.shardReceive m.link m.bytes) s

/-- RELAY_ACK from downstream frees the shard. -/
def execRelayAck (seq : Nat) (s : State) : Host.Outcome State Fault Refusal :=
  mainCmd (fun d => d.fwRuns && d.relay.state == rsReceiving && (look d.relay.fwd seq).isSome)
    (fun d => ({ d with relay := { d.relay with acked := addOnce d.relay.acked seq, fwd := amErase d.relay.fwd seq } }).relayProgress) s

/-- A shard that downstream lacks is sent again from the forward buffer; one that is not there is asked for upstream, or at a head
from the host. Each counts as one resend of that shard (R264). -/
def Die.sendAgain (d : Die) (seq kind code : Nat) : Die :=
  match look d.relay.fwd seq with
  | some sh =>
    if 3 ≤ amGet 0 d.relay.per seq then d.relayFail code else (d.countResend seq).sendShard d.relay.downLink seq sh 0 true none
  | none => d.askAgain seq kind code

/-- RELAY_NAK from downstream, of a corrupt shard, or the refusal of a module that is not in RECEIVING (R264). -/
def execRelayNak (m : NakIn) (s : State) : Host.Outcome State Fault Refusal :=
  mainCmd (fun d => d.fwRuns && d.relay.state == rsReceiving)
    (fun d => d.sendAgain m.seq lmRelayNak (if m.refused then 5 else 6)) s

def execRelayReq (seq : Nat) (s : State) : Host.Outcome State Fault Refusal :=
  mainCmd (fun d => d.fwRuns && d.relay.state == rsReceiving) (fun d => d.sendAgain seq lmRelayReq 5) s

/-- Whether an expected shard is missing while the one numbered just below it, or for shard 0 CHART_RELAY, has come (R264). -/
def Relay.overdue (r : Relay) (seq : Nat) : Bool :=
  r.expected.contains seq && !r.got.contains seq &&
    (match (r.expected.filter (fun q => decide (q < seq))).getLast? with
      | none => true
      | some q => r.got.contains q)

def execShardTimeout (seq : Nat) (s : State) : Host.Outcome State Fault Refusal :=
  mainCmd (fun d => d.fwRuns && d.relay.state == rsReceiving && d.relay.overdue seq) (fun d => d.askAgain seq lmRelayReq 5) s

/-- RELAY_ABORT from the chain (R265). -/
def execRelayAbort (fromDown : Bool) (s : State) : Host.Outcome State Fault Refusal :=
  mainCmd (fun d => d.fwRuns && (d.relay.state == rsReceiving || d.relay.state == rsProgramming) &&
      (if fromDown then decide (d.relay.downLink < 6) else decide (d.relay.upLink < 6)))
    (fun d => d.relayFail 10) s

/-! ### Commands (R261, R581) -/

/-- A command the relay state does not allow: refused with STATE and one record naming command and state. -/
def Die.relayRefused (d : Die) (box cmd : Nat) : Die :=
  (d.record 0x20 1 0xFF 0xFFFF [cmd, d.relay.state]).reply box rcState []

/-- Every mapped or pending logical array is withdrawn at the next tide boundary; a MAP that waits is dropped, and with the golden copy
goes all work on its images: no array holds one any more, so the repair chain starts afresh under the next chart (R321). -/
def Die.unmapAll (d0 : Die) : Die :=
  let d := { d0 with upkeep := { d0.upkeep with
    due := [], deferred := [], refreshes := [], claims := [], aligned := false,
    cal := d0.upkeep.cal.map (fun (p : Nat × ArrCal) => (p.1, { p.2 with holds := none })) } }
  d.enabledTiles.foldl (fun e t =>
    (List.range 256).foldl (fun g l =>
      if g.on (Reg.TILE_AMAP_VALID t l) then g.putPending t l 0x1FF .unmap
      else if g.on (Reg.TILE_AMAP_PEND t l) then g.unmapEntry t l else g) e) d

/-- The parameters of CHART_RELAY as they stand in the box from its byte 32 (R581); one beyond PLEN is zero, and PLACEMENT then all 0xFF
(R583). -/
def Die.relayBytes (d : Die) (box : Nat) : List Byte := d.paramBytes box 16 0 ++ (d.paramBytes box 80 0xFF).drop 16

/-- CHART_RELAY's parameters by their offsets (R581). -/
def relayParamsOf (b : List Byte) : RelayParams :=
  { role := leAt b 0 1, upLink := leAt b 1 1, downLink := leAt b 2 1, org := (leAt b 4 1, leAt b 5 1, leAt b 6 1), first := leAt b 8 4,
    last := leAt b 12 4, placement := (List.range 64).map (fun u => leAt b (16 + u) 1) }

/-- The zero bytes of CHART_RELAY's parameters are zero. -/
def relayZeros (b : List Byte) : Bool := leAt b 3 1 == 0 && leAt b 7 1 == 0

/-- The parameters of CHART_RELAY are in range. -/
def relayParamsOk (p : RelayParams) : Bool :=
  decide (p.role < 2) && (if p.role = 0 then p.upLink == 0xFF else decide (p.upLink < 6)) &&
  (decide (p.downLink < 6) || p.downLink == 0xFF) && decide (p.org.1 < 32) && decide (p.org.2.1 < 32) && decide (p.org.2.2 < 32) &&
  decide (p.placement.length = 64)

/-- CHART_RELAY. -/
def Die.chartRelay (d : Die) (box : Nat) (p : RelayParams) : Die :=
  let st := d.relay.state
  if st = rsReceiving ∨ st = rsProgramming then d.relayRefused box 0x0210
  else if d.tideState ≠ 0 then d.reply box rcBusy []
  else if !relayParamsOk p || !relayZeros (d.relayBytes box) then d.reply box rcRange []
  else
    let r : Relay := { state := rsReceiving, role := p.role, upLink := p.upLink, downLink := p.downLink, org := p.org, first := p.first,
                       last := p.last, explicit := p.placement }
    ({ d.unmapAll with relay := r }).reply box rcOk (natLe 8 (if p.role = 0 then Config.inbox else 0))

/-- CHART_RELAY; its operand is what the box holds. -/
def execChartRelay (box : Nat) (p : RelayParams) (s : State) : Host.Outcome State Fault Refusal :=
  fwCmd box (fun d => if p = relayParamsOf (d.relayBytes box) then d.chartRelay box p else d) s

/-- Missing or corrupt shards to be listed: none while no load has been started. -/
def Relay.listed (r : Relay) : List Nat := if r.state = rsIdle then [] else r.missing

/-- CHART_STATUS. -/
def execChartStatus (box : Nat) (s : State) : Host.Outcome State Fault Refusal :=
  fwCmd box (fun d =>
    let r := d.relay
    let l := r.listed
    d.reply box rcOk (natLe 1 r.state ++ natLe 1 r.code ++ zeros 2 ++ natLe 4 r.got.length ++ natLe 4 r.kept.length ++
      natLe 4 r.forwarded.length ++ natLe 4 r.resends ++ natLe 4 l.length ++ natLe 4 (min l.length 256) ++
      ((l.take 256).map (natLe 4)).flatten)) s

/-- CHART_ABORT. -/
def execChartAbort (box : Nat) (s : State) : Host.Outcome State Fault Refusal :=
  fwCmd box (fun d =>
    if d.relay.state = rsReceiving ∨ d.relay.state = rsProgramming then (d.relayFail 10).reply box rcOk []
    else d.relayRefused box 0x0212) s

/-- CHART_DISCARD. -/
def execChartDiscard (box : Nat) (s : State) : Host.Outcome State Fault Refusal :=
  fwCmd box (fun d =>
    if d.relay.state = rsReady ∨ d.relay.state = rsFailed then ({ d.unmapAll with relay := {} }).reply box rcOk []
    else d.relayRefused box 0x0213) s

/-- The image of a stored logical array as it was received: entry without the fields the copy adds, scales, weights. -/
def Die.imageBytes (d : Die) (u l : Nat) : List Byte :=
  d.bytesAt (goldEntry u l) 20 ++ zeros 44 ++ d.bytesAt (goldScales u l) 512 ++ d.bytesAt (goldWeights u l) 65536

/-- Stored images whose IMG_CRC does not match. -/
def Die.badImages (d : Die) : List Nat :=
  d.relay.images.filter (fun x => decide (crc32c (d.imageBytes (x / 256) (x % 256)) ≠ d.goldField (x / 256) (x % 256) 20 4))

/-- GOLDEN_CHECK: a mismatch fails the module with CRC. -/
def execGoldenCheck (box : Nat) (s : State) : Host.Outcome State Fault Refusal :=
  fwCmd box (fun d =>
    if d.relay.state ≠ rsReady then d.relayRefused box 0x0214
    else
      let l := d.badImages
      let d1 := if l.isEmpty then d else d.relayFail 2
      d1.reply box rcOk (natLe 4 l.length ++ natLe 4 (min l.length 256) ++
        ((l.take 256).map (fun x => natLe 1 (x / 256) ++ natLe 1 (x % 256) ++ zeros 2)).flatten)) s

end Sys2Proof.Machine
end

