-- ==== Sys2Proof/Machine/Dispatch.lean ====
section
/-! DEFINITION. What each command does: one arm for each row of the table. -/
namespace Sys2Proof.Machine

/-- The effect of a command on everything but the queue of commands that wait. -/
def exec (i : Instr) (s : State) : Host.Outcome State Fault Refusal :=
  match i with
  | .standbyPowerUp => Sys2Proof.Machine.execStandbyPowerUp s
  | .standbyPowerLoss => Sys2Proof.Machine.execStandbyPowerLoss s
  | .inputInRange => Sys2Proof.Machine.execInputInRange s
  | .inputOutOfRange high => Sys2Proof.Machine.execInputOutOfRange high s
  | .debounceExpiry => Sys2Proof.Machine.execDebounceExpiry s
  | .hotSwapOn => Sys2Proof.Machine.execHotSwapOn s
  | .railGood => Sys2Proof.Machine.execRailGood s
  | .railStartTimeout => Sys2Proof.Machine.execRailStartTimeout s
  | .railFault rail high => Sys2Proof.Machine.execRailFault rail high s
  | .railsOff => Sys2Proof.Machine.execRailsOff s
  | .offTimeExpiry => Sys2Proof.Machine.execOffTimeExpiry s
  | .inputOvercurrent => Sys2Proof.Machine.execInputOvercurrent s
  | .lidOvertemp => Sys2Proof.Machine.execLidOvertemp s
  | .powerAlarm => Sys2Proof.Machine.execPowerAlarm s
  | .offReq ag => Sys2Proof.Machine.execOffReq ag s
  | .faultLatchedClear ag => Sys2Proof.Machine.execFaultLatchedClear ag s
  | .modResetAssert => Sys2Proof.Machine.execModResetAssert s
  | .modResetRelease => Sys2Proof.Machine.execModResetRelease s
  | .moduleResetRelease found => Sys2Proof.Machine.execModuleResetRelease found s
  | .registersReady => Sys2Proof.Machine.execRegistersReady s
  | .refLost => Sys2Proof.Machine.execRefLost s
  | .thermalTrip => Sys2Proof.Machine.execThermalTrip s
  | .thermalTripRelease => Sys2Proof.Machine.execThermalTripRelease s
  | .secAlarmNAssert => Sys2Proof.Machine.execSecAlarmNAssert s
  | .mgmtTransfer legacy write addr data => Sys2Proof.Machine.execMgmtTransfer legacy write addr data s
  | .entdaa dynAddr => Sys2Proof.Machine.execEntdaa dynAddr s
  | .setdasa dynAddr => Sys2Proof.Machine.execSetdasa dynAddr s
  | .junctionAvgStore => Sys2Proof.Machine.execJunctionAvgStore s
  | .packetInject src dst vc tenant body sys => Sys2Proof.Machine.execPacketInject src dst vc tenant body sys s
  | .packetHop router outPort => Sys2Proof.Machine.execPacketHop router outPort s
  | .attachmentCross edge att => Sys2Proof.Machine.execAttachmentCross edge att s
  | .deferredPacketRelease edge att tenant => Sys2Proof.Machine.execDeferredPacketRelease edge att tenant s
  | .meshCtrlWrite ag word => Sys2Proof.Machine.execMeshCtrlWrite ag word s
  | .strokeIssue tile arr => Sys2Proof.Machine.execStrokeIssue tile arr s
  | .strokeComplete tile arr => Sys2Proof.Machine.execStrokeComplete tile arr s
  | .refStrokeIssue tile arr => Sys2Proof.Machine.execRefStrokeIssue tile arr s
  | .refStrokeComplete tile arr => Sys2Proof.Machine.execRefStrokeComplete tile arr s
  | .arrayVerify tile arr logical => Sys2Proof.Machine.execArrayVerify tile arr logical s
  | .arrayVerifyDone tile arr failing => Sys2Proof.Machine.execArrayVerifyDone tile arr failing s
  | .program tile arr logical spares band => Sys2Proof.Machine.execProgram tile arr logical spares band s
  | .programDone tile arr stuck => Sys2Proof.Machine.execProgramDone tile arr stuck s
  | .map tile logical arr => Sys2Proof.Machine.execMap tile logical arr s
  | .unmap tile logical => Sys2Proof.Machine.execUnmap tile logical s
  | .swap tile logical arr => Sys2Proof.Machine.execSwap tile logical arr s
  | .remap tile logical arr => Sys2Proof.Machine.execRemap tile logical arr s
  | .spring tile arr => Sys2Proof.Machine.execSpring tile arr s
  | .springDone tile arr meas => Sys2Proof.Machine.execSpringDone tile arr meas s
  | .condemn tile arr => Sys2Proof.Machine.execCondemn tile arr s
  | .arrCfgWrite ag tile arr word => Sys2Proof.Machine.execArrCfgWrite ag tile arr word s
  | .arrCntClr ag tile arr => Sys2Proof.Machine.execArrCntClr ag tile arr s
  | .arrPredMaxClr ag tile arr => Sys2Proof.Machine.execArrPredMaxClr ag tile arr s
  | .arrColmapWrite ag tile arr spare word => Sys2Proof.Machine.execArrColmapWrite ag tile arr spare word s
  | .engArithCntClr ag tile => Sys2Proof.Machine.execEngArithCntClr ag tile s
  | .offrWrite ag tile arr idx word => Sys2Proof.Machine.execOffrWrite ag tile arr idx word s
  | .descriptorDispatch tile thread => Sys2Proof.Machine.execDescriptorDispatch tile thread s
  | .laneGroupGrant tile => Sys2Proof.Machine.execLaneGroupGrant tile s
  | .grantExpiry tile thread tag => Sys2Proof.Machine.execGrantExpiry tile thread tag s
  | .dramRequestIssue tile => Sys2Proof.Machine.execDramRequestIssue tile s
  | .dramRequestComplete tile idx => Sys2Proof.Machine.execDramRequestComplete tile idx s
  | .descriptorRetire tile thread tag => Sys2Proof.Machine.execDescriptorRetire tile thread tag s
  | .combineRecordAccept tile => Sys2Proof.Machine.execCombineRecordAccept tile s
  | .quantAUnitDone tile thread tag => Sys2Proof.Machine.execQuantAUnitDone tile thread tag s
  | .sramZeroComplete tile => Sys2Proof.Machine.execSramZeroComplete tile s
  | .rgnWrite ag tile rgn limit word => Sys2Proof.Machine.execRgnWrite ag tile rgn limit word s
  | .engEnableWrite ag tile enable => Sys2Proof.Machine.execEngEnableWrite ag tile enable s
  | .engCntClr ag tile => Sys2Proof.Machine.execEngCntClr ag tile s
  | .faultInfoClear ag tile => Sys2Proof.Machine.execFaultInfoClear ag tile s
  | .reqHwmClr ag tile => Sys2Proof.Machine.execReqHwmClr ag tile s
  | .threadClassWrite ag tile thread cls => Sys2Proof.Machine.execThreadClassWrite ag tile thread cls s
  | .nop tile thread d => Sys2Proof.Machine.execNop tile thread d s
  | .copy tile thread d => Sys2Proof.Machine.execCopy tile thread d s
  | .fill tile thread d => Sys2Proof.Machine.execFill tile thread d s
  | .load tile thread d => Sys2Proof.Machine.execLoad tile thread d s
  | .store tile thread d => Sys2Proof.Machine.execStore tile thread d s
  | .bufWait tile thread d => Sys2Proof.Machine.execBufWait tile thread d s
  | .bufSet tile thread d => Sys2Proof.Machine.execBufSet tile thread d s
  | .tideEnd tile thread d => Sys2Proof.Machine.execTideEnd tile thread d s
  | .event tile thread d => Sys2Proof.Machine.execEvent tile thread d s
  | .dmaStart tile thread d => Sys2Proof.Machine.execDmaStart tile thread d s
  | .post tile thread d => Sys2Proof.Machine.execPost tile thread d s
  | .rotate tile thread d => Sys2Proof.Machine.execRotate tile thread d s
  | .quantA tile thread d => Sys2Proof.Machine.execQuantA tile thread d s
  | .loadInput tile thread d => Sys2Proof.Machine.execLoadInput tile thread d s
  | .stroke tile thread d => Sys2Proof.Machine.execStroke tile thread d s
  | .refStroke tile thread d => Sys2Proof.Machine.execRefStroke tile thread d s
  | .outlier tile thread d => Sys2Proof.Machine.execOutlier tile thread d s
  | .corrZ tile thread d => Sys2Proof.Machine.execCorrZ tile thread d s
  | .corrB tile thread d => Sys2Proof.Machine.execCorrB tile thread d s
  | .combine tile thread d => Sys2Proof.Machine.execCombine tile thread d s
  | .exact tile thread d => Sys2Proof.Machine.execExact tile thread d s
  | .vsum tile thread d => Sys2Proof.Machine.execVsum tile thread d s
  | .squant tile thread d => Sys2Proof.Machine.execSquant tile thread d s
  | .sdeq tile thread d => Sys2Proof.Machine.execSdeq tile thread d s
  | .linear tile thread d => Sys2Proof.Machine.execLinear tile thread d s
  | .attn tile thread d => Sys2Proof.Machine.execAttn tile thread d s
  | .softmax tile thread d => Sys2Proof.Machine.execSoftmax tile thread d s
  | .norm tile thread d => Sys2Proof.Machine.execNorm tile thread d s
  | .act tile thread d => Sys2Proof.Machine.execAct tile thread d s
  | .ewise tile thread d => Sys2Proof.Machine.execEwise tile thread d s
  | .posrot tile thread d => Sys2Proof.Machine.execPosrot tile thread d s
  | .steer tile thread d => Sys2Proof.Machine.execSteer tile thread d s
  | .kvWrite tile thread d => Sys2Proof.Machine.execKvWrite tile thread d s
  | .select tile thread d => Sys2Proof.Machine.execSelect tile thread d s
  | .sound tile thread d => Sys2Proof.Machine.execSound tile thread d s
  | .tideBoundary => Sys2Proof.Machine.execTideBoundary s
  | .windowCheck idx => Sys2Proof.Machine.execWindowCheck idx s
  | .scResume => Sys2Proof.Machine.execScResume s
  | .tpWindowComplete idx => Sys2Proof.Machine.execTpWindowComplete idx s
  | .linkDeparture idx => Sys2Proof.Machine.execLinkDeparture idx s
  | .linkLanding idx bad => Sys2Proof.Machine.execLinkLanding idx bad s
  | .tideMarkReceive link m => Sys2Proof.Machine.execTideMarkReceive link m s
  | .gateTimeout => Sys2Proof.Machine.execGateTimeout s
  | .tideLoad ag => Sys2Proof.Machine.execTideLoad ag s
  | .tableLoadDone => Sys2Proof.Machine.execTableLoadDone s
  | .arm ag => Sys2Proof.Machine.execArm ag s
  | .stop ag => Sys2Proof.Machine.execStop ag s
  | .stopNow ag => Sys2Proof.Machine.execStopNow ag s
  | .cancel ag => Sys2Proof.Machine.execCancel ag s
  | .preloadEntryDone tile => Sys2Proof.Machine.execPreloadEntryDone tile s
  | .tideCtrlWrite ag word => Sys2Proof.Machine.execTideCtrlWrite ag word s
  | .tideCntClr ag => Sys2Proof.Machine.execTideCntClr ag s
  | .tideThrottleWrite ag word => Sys2Proof.Machine.execTideThrottleWrite ag word s
  | .bufferMarkRequest tile rgn full poison => Sys2Proof.Machine.execBufferMarkRequest tile rgn full poison s
  | .packetSramAccess tile write off len data => Sys2Proof.Machine.execPacketSramAccess tile write off len data s
  | .chartRelay box p => Sys2Proof.Machine.execChartRelay box p s
  | .chartStatus box => Sys2Proof.Machine.execChartStatus box s
  | .chartAbort box => Sys2Proof.Machine.execChartAbort box s
  | .chartDiscard box => Sys2Proof.Machine.execChartDiscard box s
  | .goldenCheck box => Sys2Proof.Machine.execGoldenCheck box s
  | .shardReceive shard => Sys2Proof.Machine.execShardReceive shard s
  | .relayAck seq => Sys2Proof.Machine.execRelayAck seq s
  | .relayNak nak => Sys2Proof.Machine.execRelayNak nak s
  | .relayReq seq => Sys2Proof.Machine.execRelayReq seq s
  | .shardTimeout seq => Sys2Proof.Machine.execShardTimeout seq s
  | .relayAbort fromDown => Sys2Proof.Machine.execRelayAbort fromDown s
  | .refreshDue tile logical byDrift age => Sys2Proof.Machine.execRefreshDue tile logical byDrift age s
  | .refreshOverdue tile logical => Sys2Proof.Machine.execRefreshOverdue tile logical s
  | .calSnap ag tile arr => Sys2Proof.Machine.execCalSnap ag tile arr s
  | .refStale tile arr => Sys2Proof.Machine.execRefStale tile arr s
  | .tileEstimate tile => Sys2Proof.Machine.execTileEstimate tile s
  | .tempAlign => Sys2Proof.Machine.execTempAlign s
  | .neapTrigger tile arr => Sys2Proof.Machine.execNeapTrigger tile arr s
  | .watchExpiry tile arr => Sys2Proof.Machine.execWatchExpiry tile arr s
  | .sndCntClr ag tile => Sys2Proof.Machine.execSndCntClr ag tile s
  | .repairRankWrite matrix group slot data => Sys2Proof.Machine.execRepairRankWrite matrix group slot data s
  | .calCfg box neapTrig10 neapRes qfLim springDist => Sys2Proof.Machine.execCalCfg box neapTrig10 neapRes qfLim springDist s
  | .refreshCfg box drift10 hours => Sys2Proof.Machine.execRefreshCfg box drift10 hours s
  | .soundCfg box tile frac k4 sysGain offAllow seed => Sys2Proof.Machine.execSoundCfg box tile frac k4 sysGain offAllow seed s
  | .upkeepPolicy box degraded repairLim100 => Sys2Proof.Machine.execUpkeepPolicy box degraded repairLim100 s
  | .calRequest box req => Sys2Proof.Machine.execCalRequest box req s
  | .upkeepStatus box arrays reports => Sys2Proof.Machine.execUpkeepStatus box arrays reports s
  | .repairSlots box slots => Sys2Proof.Machine.execRepairSlots box slots s
  | .kvCfg box p => Sys2Proof.Machine.execKvCfg box p s
  | .stepCfg box p => Sys2Proof.Machine.execStepCfg box p s
  | .kvRoute box p => Sys2Proof.Machine.execKvRoute box p s
  | .ctxSubmit box p => Sys2Proof.Machine.execCtxSubmit box p s
  | .ctxCancel box ctx => Sys2Proof.Machine.execCtxCancel box ctx s
  | .ctxPark box ctx => Sys2Proof.Machine.execCtxPark box ctx s
  | .ctxResume box ctx => Sys2Proof.Machine.execCtxResume box ctx s
  | .ctxStatus box ctx => Sys2Proof.Machine.execCtxStatus box ctx s
  | .ctxRelease box ctx => Sys2Proof.Machine.execCtxRelease box ctx s
  | .stepLog box => Sys2Proof.Machine.execStepLog box s
  | .kvStatus box => Sys2Proof.Machine.execKvStatus box s
  | .stepFill => Sys2Proof.Machine.execStepFill s
  | .stepPlanReceive plan => Sys2Proof.Machine.execStepPlanReceive plan s
  | .sliceMessageReceive m => Sys2Proof.Machine.execSliceMessageReceive m s
  | .steerCopyDone berth => Sys2Proof.Machine.execSteerCopyDone berth s
  | .berthResult berth => Sys2Proof.Machine.execBerthResult berth s
  | .berthRetire berth => Sys2Proof.Machine.execBerthRetire berth s
  | .contextFetch ctx => Sys2Proof.Machine.execContextFetch ctx s
  | .ctxHoldExpiry ctx => Sys2Proof.Machine.execCtxHoldExpiry ctx s
  | .parkLimitExpiry ctx => Sys2Proof.Machine.execParkLimitExpiry ctx s
  | .streamIn m entries ackReq => Sys2Proof.Machine.execStreamIn m entries ackReq s
  | .kvShipPage ctx page => Sys2Proof.Machine.execKvShipPage ctx page s
  | .kvPageReceive m => Sys2Proof.Machine.execKvPageReceive m s
  | .kvPageAck ctx page => Sys2Proof.Machine.execKvPageAck ctx page s
  | .kvPageNak ctx page => Sys2Proof.Machine.execKvPageNak ctx page s
  | .kvShipTimeout ctx page => Sys2Proof.Machine.execKvShipTimeout ctx page s
  | .tenantCfg box tenant p => Sys2Proof.Machine.execTenantCfg box tenant p s
  | .tenantClose box tenant => Sys2Proof.Machine.execTenantClose box tenant s
  | .tenantStatus box tenant => Sys2Proof.Machine.execTenantStatus box tenant s
  | .admitCfg box overcommit => Sys2Proof.Machine.execAdmitCfg box overcommit s
  | .steerCfg box p => Sys2Proof.Machine.execSteerCfg box p s
  | .steerLoad box addr => Sys2Proof.Machine.execSteerLoad box addr s
  | .steerDrop box packId => Sys2Proof.Machine.execSteerDrop box packId s
  | .prefixCfg box p => Sys2Proof.Machine.execPrefixCfg box p s
  | .prefixPublish box ctx nodes => Sys2Proof.Machine.execPrefixPublish box ctx nodes s
  | .prefixFlush box tenant => Sys2Proof.Machine.execPrefixFlush box tenant s
  | .prefixStatus box => Sys2Proof.Machine.execPrefixStatus box s
  | .meterCfg box p => Sys2Proof.Machine.execMeterCfg box p s
  | .meterRead box window first count => Sys2Proof.Machine.execMeterRead box window first count s
  | .energyAttribute window => Sys2Proof.Machine.execEnergyAttribute window s
  | .meterWindowBoundary => Sys2Proof.Machine.execMeterWindowBoundary s
  | .snapshotWrite => Sys2Proof.Machine.execSnapshotWrite s
  | .dramAccess addr line write data err => Sys2Proof.Machine.execDramAccess addr line write data err s
  | .dramRefresh stack => Sys2Proof.Machine.execDramRefresh stack s
  | .dramEventStart stack => Sys2Proof.Machine.execDramEventStart stack s
  | .dramEventEnd stack => Sys2Proof.Machine.execDramEventEnd stack s
  | .scrubSector addr err => Sys2Proof.Machine.execScrubSector addr err s
  | .memTrain ag => Sys2Proof.Machine.execMemTrain ag s
  | .memTest ag => Sys2Proof.Machine.execMemTest ag s
  | .memTrainDone stack code => Sys2Proof.Machine.execMemTrainDone stack code s
  | .memTestDone stack code rows => Sys2Proof.Machine.execMemTestDone stack code rows s
  | .memCntClr ag => Sys2Proof.Machine.execMemCntClr ag s
  | .errAddrClear ag stack ue => Sys2Proof.Machine.execErrAddrClear ag stack ue s
  | .chStart ag eng ch => Sys2Proof.Machine.execChStart ag eng ch s
  | .chFetch ag eng ch => Sys2Proof.Machine.execChFetch ag eng ch s
  | .chStop ag eng ch => Sys2Proof.Machine.execChStop ag eng ch s
  | .dmaBeat eng => Sys2Proof.Machine.execDmaBeat eng s
  | .dmaDescComplete eng ch => Sys2Proof.Machine.execDmaDescComplete eng ch s
  | .crcBindTimeout eng ch => Sys2Proof.Machine.execCrcBindTimeout eng ch s
  | .dmaCfgWrite ag eng word => Sys2Proof.Machine.execDmaCfgWrite ag eng word s
  | .dmaDescRegWrite ag eng ch reg word => Sys2Proof.Machine.execDmaDescRegWrite ag eng ch reg word s
  | .crcFeed8 ag un word => Sys2Proof.Machine.execCrcFeed8 ag un word s
  | .crcFeed16 ag un word => Sys2Proof.Machine.execCrcFeed16 ag un word s
  | .crcFeed32 ag un word => Sys2Proof.Machine.execCrcFeed32 ag un word s
  | .crcValueWrite ag un word => Sys2Proof.Machine.execCrcValueWrite ag un word s
  | .crcInit ag un => Sys2Proof.Machine.execCrcInit ag un s
  | .crcConfigWrite ag un reg word => Sys2Proof.Machine.execCrcConfigWrite ag un reg word s
  | .hostPortTrained => Sys2Proof.Machine.execHostPortTrained s
  | .hpRetrain ag => Sys2Proof.Machine.execHpRetrain ag s
  | .frameReceive f => Sys2Proof.Machine.execFrameReceive f s
  | .arpRequest src target => Sys2Proof.Machine.execArpRequest src target s
  | .neighborSolicitation src target => Sys2Proof.Machine.execNeighborSolicitation src target s
  | .icmpEcho src dst v6 data => Sys2Proof.Machine.execIcmpEcho src dst v6 data s
  | .pfcReceive prio quanta => Sys2Proof.Machine.execPfcReceive prio quanta s
  | .pfcRepeat prio => Sys2Proof.Machine.execPfcRepeat prio s
  | .ptpMessage m stamp => Sys2Proof.Machine.execPtpMessage m stamp s
  | .hello src h hostMin hostMax => Sys2Proof.Machine.execHello src h hostMin hostMax s
  | .openSession src id => Sys2Proof.Machine.execOpenSession src id s
  | .close m => Sys2Proof.Machine.execClose m s
  | .regRead m addr => Sys2Proof.Machine.execRegRead m addr s
  | .regWrite m addr data => Sys2Proof.Machine.execRegWrite m addr data s
  | .bulkOpen m window read addr total => Sys2Proof.Machine.execBulkOpen m window read addr total s
  | .bulkData m window off len data crc => Sys2Proof.Machine.execBulkData m window off len data crc s
  | .bulkClose m window => Sys2Proof.Machine.execBulkClose m window s
  | .mbxPost m box bytes => Sys2Proof.Machine.execMbxPost m box bytes s
  | .eventFlush slot => Sys2Proof.Machine.execEventFlush slot s
  | .sessionIdleTimeout slot => Sys2Proof.Machine.execSessionIdleTimeout slot s
  | .bulkWindowTimeout window => Sys2Proof.Machine.execBulkWindowTimeout window s
  | .mbxDoorbell ag hi word => Sys2Proof.Machine.execMbxDoorbell ag hi word s
  | .mbxRelease ag hi word => Sys2Proof.Machine.execMbxRelease ag hi word s
  | .mbxTake => Sys2Proof.Machine.execMbxTake s
  | .mbxComplete box => Sys2Proof.Machine.execMbxComplete box s
  | .linkEnable ag link => Sys2Proof.Machine.execLinkEnable ag link s
  | .linkDisable ag link => Sys2Proof.Machine.execLinkDisable ag link s
  | .linkRetrain ag link => Sys2Proof.Machine.execLinkRetrain ag link s
  | .partnerSignal link => Sys2Proof.Machine.execPartnerSignal link s
  | .linkTrained link => Sys2Proof.Machine.execLinkTrained link s
  | .linkTrainTimeout link => Sys2Proof.Machine.execLinkTrainTimeout link s
  | .identitySend link => Sys2Proof.Machine.execIdentitySend link s
  | .identityReceive link coord torus port serial => Sys2Proof.Machine.execIdentityReceive link coord torus port serial s
  | .linkSignalLoss link fec => Sys2Proof.Machine.execLinkSignalLoss link fec s
  | .downNotice link => Sys2Proof.Machine.execDownNotice link s
  | .linkStopped link => Sys2Proof.Machine.execLinkStopped link s
  | .noPartnerTimeout link => Sys2Proof.Machine.execNoPartnerTimeout link s
  | .flitReceive link f => Sys2Proof.Machine.execFlitReceive link f s
  | .nakReceive link seq => Sys2Proof.Machine.execNakReceive link seq s
  | .nakRepeat link => Sys2Proof.Machine.execNakRepeat link s
  | .creditReceive link credits => Sys2Proof.Machine.execCreditReceive link credits s
  | .flitTransmit link => Sys2Proof.Machine.execFlitTransmit link s
  | .coordWrite ag word => Sys2Proof.Machine.execCoordWrite ag word s
  | .torusWrite ag word => Sys2Proof.Machine.execTorusWrite ag word s
  | .planWrite ag link word => Sys2Proof.Machine.execPlanWrite ag link word s
  | .monRegularStart => Sys2Proof.Machine.execMonRegularStart s
  | .sarConversionDone conv raw => Sys2Proof.Machine.execSarConversionDone conv raw s
  | .injectedTrigger source => Sys2Proof.Machine.execInjectedTrigger source s
  | .injectedSequenceStart conv => Sys2Proof.Machine.execInjectedSequenceStart conv s
  | .monSoft ag => Sys2Proof.Machine.execMonSoft ag s
  | .monEnableWrite ag word => Sys2Proof.Machine.execMonEnableWrite ag word s
  | .sarPowerDown conv => Sys2Proof.Machine.execSarPowerDown conv s
  | .intSample vRaw iRaw => Sys2Proof.Machine.execIntSample vRaw iRaw s
  | .guardG2Expiry => Sys2Proof.Machine.execGuardG2Expiry s
  | .guardHoldExpiry => Sys2Proof.Machine.execGuardHoldExpiry s
  | .intWindowEnd => Sys2Proof.Machine.execIntWindowEnd s
  | .intSettled => Sys2Proof.Machine.execIntSettled s
  | .capLoop => Sys2Proof.Machine.execCapLoop s
  | .thmRead ag => Sys2Proof.Machine.execThmRead ag s
  | .thermPeriodTick => Sys2Proof.Machine.execThermPeriodTick s
  | .powerCfg box cap hostFloor guardStep => Sys2Proof.Machine.execPowerCfg box cap hostFloor guardStep s
  | .thermCfg box period warn crit => Sys2Proof.Machine.execThermCfg box period warn crit s
  | .syscalPoint box p => Sys2Proof.Machine.execSyscalPoint box p s
  | .syscalCommit box current => Sys2Proof.Machine.execSyscalCommit box current s
  | .syscalReset box current => Sys2Proof.Machine.execSyscalReset box current s
  | .powerStatus box => Sys2Proof.Machine.execPowerStatus box s
  | .verify ag => Sys2Proof.Machine.execVerify ag s
  | .fwVerifyDone => Sys2Proof.Machine.execFwVerifyDone s
  | .applyMaps ag => Sys2Proof.Machine.execApplyMaps ag s
  | .start ag => Sys2Proof.Machine.execStart ag s
  | .microcodeReceive tile crcOk => Sys2Proof.Machine.execMicrocodeReceive tile crcOk s
  | .fwReady => Sys2Proof.Machine.execFwReady s
  | .fwInitTimeout => Sys2Proof.Machine.execFwInitTimeout s
  | .bootFailcntClear ag => Sys2Proof.Machine.execBootFailcntClear ag s
  | .resetModuleReq ag => Sys2Proof.Machine.execResetModuleReq ag s
  | .resetCoreReq ag => Sys2Proof.Machine.execResetCoreReq ag s
  | .resetComputeReq ag => Sys2Proof.Machine.execResetComputeReq ag s
  | .resetHostportReq ag => Sys2Proof.Machine.execResetHostportReq ag s
  | .resetMonitorReq ag => Sys2Proof.Machine.execResetMonitorReq ag s
  | .resetLinkReq ag link => Sys2Proof.Machine.execResetLinkReq ag link s
  | .resetAssert => Sys2Proof.Machine.execResetAssert s
  | .resetRelease => Sys2Proof.Machine.execResetRelease s
  | .tileReset ag tile => Sys2Proof.Machine.execTileReset ag tile s
  | .tilePark ag tile => Sys2Proof.Machine.execTilePark ag tile s
  | .tileUnpark ag tile => Sys2Proof.Machine.execTileUnpark ag tile s
  | .parkComplete tile => Sys2Proof.Machine.execParkComplete tile s
  | .resumeHoldEnd => Sys2Proof.Machine.execResumeHoldEnd s
  | .resumeCopyVerified => Sys2Proof.Machine.execResumeCopyVerified s
  | .hangDetect cause unit => Sys2Proof.Machine.execHangDetect cause unit s
  | .lhWatchdogExpiry => Sys2Proof.Machine.execLhWatchdogExpiry s
  | .lhKick ag => Sys2Proof.Machine.execLhKick ag s
  | .hangGraceExpiry => Sys2Proof.Machine.execHangGraceExpiry s
  | .replayTimeout => Sys2Proof.Machine.execReplayTimeout s
  | .hangStatusClear ag => Sys2Proof.Machine.execHangStatusClear ag s
  | .hangReport box idx => Sys2Proof.Machine.execHangReport box idx s
  | .keyWrite ag word => Sys2Proof.Machine.execKeyWrite ag word s
  | .unlock ag => Sys2Proof.Machine.execUnlock ag s
  | .debugEnWrite ag enable => Sys2Proof.Machine.execDebugEnWrite ag enable s
  | .policyWrite ag word => Sys2Proof.Machine.execPolicyWrite ag word s
  | .svnMinWrite ag word => Sys2Proof.Machine.execSvnMinWrite ag word s
  | .rootRevoke ag word => Sys2Proof.Machine.execRootRevoke ag word s
  | .securityAlarm src => Sys2Proof.Machine.execSecurityAlarm src s
  | .eraseDone => Sys2Proof.Machine.execEraseDone s
  | .detectorArm => Sys2Proof.Machine.execDetectorArm s
  | .attest box nonce => Sys2Proof.Machine.execAttest box nonce s
  | .attestCert box => Sys2Proof.Machine.execAttestCert box s
  | .attestCfg box attMin => Sys2Proof.Machine.execAttestCfg box attMin s
  | .stlRecord source event domain sub detail accTime => Sys2Proof.Machine.execStlRecord source event domain sub detail accTime s
  | .stlRingWrite => Sys2Proof.Machine.execStlRingWrite s
  | .stlRelease ag => Sys2Proof.Machine.execStlRelease ag s
  | .stlRead box first count => Sys2Proof.Machine.execStlRead box first count s
  | .ptbArm ag inj => Sys2Proof.Machine.execPtbArm ag inj s
  | .ptbKill ag => Sys2Proof.Machine.execPtbKill ag s
  | .registerWrite ag addr word => Sys2Proof.Machine.execRegisterWrite ag addr word s
  | .managementAlive => Sys2Proof.Machine.execManagementAlive s
  | .secAlarmNRelease => Sys2Proof.Machine.execSecAlarmNRelease s
  | .refclkPresenceChange present => Sys2Proof.Machine.execRefclkPresenceChange present s
  | .hostPortLinkFault localFault remoteFault => Sys2Proof.Machine.execHostPortLinkFault localFault remoteFault s
  | .monitorPowerDownDone unit => Sys2Proof.Machine.execMonitorPowerDownDone unit s

end Sys2Proof.Machine
end

