-- ==== Sys2Proof/Machine/Tick.lean ====
section
/-! DEFINITION. What the block does by itself in one cycle of the 4 GHz reference clock (R6, R230), while no command waits:
device time moves, and the tile clock, divided by the applied throttle, moves the schedule (log entry 2). -/
namespace Sys2Proof.Machine

/-- Device time moves by a quarter of a nanosecond (R6), and with it the time in which the cells drift (R125); frames whose pause has ended
leave (R425), and a ready flit that waits for credit is counted (R475). -/
def Die.clockTick (d : Die) : Die :=
  ({ d with clock := { d.clock with quarter := d.clock.quarter + 1, aging := d.clock.aging + 1 } }).txServe.countWaits

/-- One reference cycle counts toward the next tile cycle; the cycle comes after `clockDiv` of them (R211, R230). -/
def Die.divTick (d : Die) : Die :=
  if d.clockDiv ≤ d.tide.divCtr + 1 then (d.modTide (fun t => { t with divCtr := 0 })).tileCycle
  else d.modTide (fun t => { t with divCtr := t.divCtr + 1 })

/-- One reference cycle of the die: nothing without main power or under the MODULE reset; no tile clock while COMPUTE is
held (R516). -/
def Die.refCycle (d : Die) : Die :=
  if d.live then (if d.computeHeld then d.clockTick else d.clockTick.divTick) else d

/-- One reference cycle of the module. -/
def State.tick (s : State) : State := { s with die := s.die.refCycle }

end Sys2Proof.Machine
end

