-- ==== Sys2Proof/Safety.lean ====
section
/-! DEFINITION. What counts as a sound state, in the terms the statements use: the carrier invariant (R23, R28, R29, R43) and
the canonical forms of the sparse contents. -/
namespace Sys2Proof.Machine

/-- Latched faults (R29): FAULT_LATCHED stands exactly with a cause of 1 to 5, a cause is at most 7, and a rail, 0 to 9, is
named only with a cause of 1 to 3. -/
def Carrier.faultWf (c : Carrier) : Bool :=
  c.latched == (decide (1 ≤ c.faultCause) && decide (c.faultCause ≤ 5)) && decide (c.faultCause ≤ 7) &&
  decide (c.faultRail ≤ 9) && (c.faultRail == 0 || (decide (1 ≤ c.faultCause) && decide (c.faultCause ≤ 3)))

/-- The main conversion runs only on an input that has stayed in range for the debounce (R23). -/
def Carrier.inputWf (c : Carrier) : Bool :=
  (!c.debounced || c.inRange) && (!c.running || c.debounced)

/-- Rails come up in index order and are all up in ON; none is up before the sequencer starts them or once they are off; one is
starting while the sequencer runs, or was when its shutdown began (R25, R26, R28, R43). -/
def Carrier.railsWf (c : Carrier) : Bool :=
  decide (c.railsUp ≤ 10) && (c.seq != .on || c.railsUp == 10) &&
  (match c.starting with
   | none => c.seq != .sequencing
   | some r => (c.seq == .sequencing || c.seq == .shuttingDown) && r == c.railsUp && decide (r < 10)) &&
  (c.railsUp == 0 || c.seq == .sequencing || c.seq == .on || c.seq == .shuttingDown)

/-- The holds of OFF_REQ and of MOD_RESET_N keep the sequencer in STANDBY, or on its way there (R29, R44). -/
def Carrier.holdWf (c : Carrier) : Bool := !c.held || c.seq == .standby || c.seq == .shuttingDown

/-- The carrier invariant. -/
def Carrier.wf (c : Carrier) : Bool := c.faultWf && c.inputWf && c.railsWf && c.holdWf

/-- The registers are in canonical form: addresses rising, no entry equal to its reset word. -/
def Registers.wf (d : Die) : Bool := amWf resetWord d.regs

/-! ### Frames: what a statement says a command leaves alone -/

/-- Every register outside `rs` holds what it held. -/
def OnlyRegs (rs : List Nat) (d e : Die) : Prop := ∀ a, a ∉ rs → e.getW a = d.getW a

/-- Every byte of DRAM and tile SRAM reads as before. -/
def SameMem (d e : Die) : Prop := ∀ a, e.byteAt a = d.byteAt a

/-- Every byte of memory outside the `n` bytes from address `a` reads as before. -/
def SameMemBut (a n : Nat) (d e : Die) : Prop := ∀ c, c < a ∨ a + n ≤ c → e.byteAt c = d.byteAt c

/-- Every other field of the register of `f` reads as before. -/
def OtherBits (f : Fld) (d e : Die) : Prop :=
  ∀ g : Fld, g.addr = f.addr → (g.lo + g.width ≤ f.lo ∨ f.lo + f.width ≤ g.lo) → e.get g = d.get g

/-- Nothing differs but registers, the strandline, the host port's state and what has been sent: the parts that records, events
and answers move. -/
def LogsOnly (d e : Die) : Prop := e = { d with regs := e.regs, strand := e.strand, host := e.host, out := e.out }

/-- The registers that a strandline record, an alert or an event moves beside what it tells of (R444, R564, R567, R573, R574). -/
def logRegs : List Nat := [Reg.STL_HEAD, Reg.STL_LOST, Reg.STL_STATUS, Reg.STL_ALERT, Reg.HP_EVT_LOST]

/-- One record has been sent (R563, R564, R567): with room in the input queue it stands there last, numbered by STL_HEAD, which
counts it; a full queue drops it. -/
def Recorded (source event domain sub : Nat) (d e : Die) : Prop :=
  if d.strand.queue.length < 512 then
    (∃ r : Rec, e.strand.queue = d.strand.queue ++ [r] ∧ r.source = source ∧ r.event = event ∧ r.domain = domain ∧
      r.sub = sub ∧ r.time = d.now ∧ r.seq = (d.getW Reg.STL_HEAD).toNat) ∧
    e.getW Reg.STL_HEAD = d.getW Reg.STL_HEAD + 1
  else e.strand.queue = d.strand.queue

/-- A mailbox command has left its result code and bytes in its box, which stays BUSY until MBX_COMPLETE (R441, R357). -/
def Replied (box code : Nat) (bytes : List Byte) (e : Die) : Prop :=
  (e.box box).result = some (code, bytes) ∧ (e.box box).state = .busy

/-- A request of an open session passes checks 6 and 7 of R429 and reaches its opcode: its SEQ is new, the session is not at its
end, the mode serves the opcode and the session holds role bit `role` (4 and above: no role is needed). -/
def Die.accepts (d : Die) (m : MsgHead) (opcode role : Nat) : Bool :=
  d.live && d.portUp &&
  (match d.session m.slot with
   | none => false
   | some x => seqOk x m.seq && decide (max x.hiSeq m.seq < 0xFFFFFF00) && !(d.portLow && decide (0x20 ≤ opcode)) &&
       (decide (4 ≤ role) || bit x.roles role))

/-- A frame of priority `p` is the last that was sent, or, where PFC holds its priority back, the last that waits (R425). -/
def Sent (p : Nat) (o : Out) (e : Die) : Prop :=
  (e.txHeld p = false → e.out.head? = some o) ∧ (e.txHeld p = true → e.host.txWait.getLast? = some (p, o))

/-- The last thing sent is a YCT message with these bytes to this source, on its VLAN and under its class (R423, R424). -/
def Told (src : Source) (opcode : Nat) (bs : List Byte) (e : Die) : Prop :=
  Sent (e.pcpOf opcode) (.yct src (vlanTag src.vlan (e.pcpOf opcode)) bs) e

/-- The last thing sent is the response to request `m`, with this status and payload, to the session that sent it, tagged with its key under the
device's next SEQ (R427, R430, R431, R541). -/
def Responded (m : MsgHead) (opcode status : Nat) (payload : List Byte) (d e : Die) : Prop :=
  ∃ x : Session, d.session m.slot = some x ∧ Told x.src opcode (x.message 1 opcode status m.seq payload) e

/-- The registers that show the state and the owner of the mailboxes (R443). -/
def mbxRegs : List Nat :=
  [Reg.MBX_DB 0, Reg.MBX_DB 1, Reg.MBX_DONE 0, Reg.MBX_DONE 1, Reg.MBX_BUSY 0, Reg.MBX_BUSY 1] ++
  (List.range 64).map Reg.MBX_OWNER

/-- The firmware runs and box `box` holds a command it has not answered, whose parameters PLEN does not cut and whose OUT_ADDR lies
in general DRAM where it is given (R440, R441, R583). -/
def Die.boxReady (d : Die) (box : Nat) : Bool := d.live && d.fwRuns && d.boxRuns box && !d.boxRefused box

/-- The firmware's request number `req` for array `a` of tile `t` has been refused (R111): it is told so, one record names the array,
and no array and no byte of memory has changed. -/
def ReqRefused (t a req : Nat) (d e : Die) : Prop :=
  Out.firmware 3 [t, a, req, d.arrState t a] ∈ e.out ∧ Recorded 0x11 1 t a d e ∧ e.arrays = d.arrays ∧ e.mapPend = d.mapPend ∧
    SameMem d e ∧ OnlyRegs logRegs d e

/-- Device address of the first byte that operand word `w` names (R184, R189). -/
def Die.opAt (d : Die) (t : Nat) (w : Word) : Nat := d.rgnAddr t (opRgn w) (opOff w)

/-- The descriptor can run in its thread, is well formed, and no access of its operands is refused (R174, R185, R190, R214). -/
def Die.runsClean (d : Die) (t th : Nat) (c : Desc) : Bool :=
  d.live && d.tileRuns t && (d.runnable t th c).isSome && !malformed c (d.threadClass t th) &&
  (d.readSpans t c).all (fun s => (d.engRefuses t s.rgn s.off s.len (if descOp c = ocPost then rightDS else rightR)).isNone) &&
  (d.dstSpans t c).all (fun s => (d.engRefuses t s.rgn s.off s.len rightW).isNone)

/-- The source and the destination of a copy of `n` to `m` bytes share no byte. -/
def apart (a n b m : Nat) : Prop := a + n ≤ b ∨ b + m ≤ a

/-- The descriptor's operation has been carried out: it stands in its tile's list as done, and waits to retire (R188). -/
def Ran (t th : Nat) (c : Desc) (e : Die) : Prop :=
  ∃ y ∈ (e.tile t).execs, y.thread = th ∧ y.desc = c ∧ y.ran = true

/-- One report of this kind has been made: it stands first among those kept, of which there are at most 1,024, and where no earlier one
waits for its readings the others are as they were (R318 to R320). -/
def Reported (kind : Nat) (d e : Die) : Prop :=
  ∃ (bs : List Byte) (l : List (List Byte)), e.upkeep.reports = bs :: l ∧ leAt bs 0 1 = kind ∧
    l.length = min 1023 d.upkeep.reports.length ∧ (d.upkeep.unsent = 0 → l = d.upkeep.reports.take 1023)

/-- Where the high-water mark of the request slots that an engine's DRAM accesses take is kept (R202): a tile's DMA shares its tile's. -/
def hwmOf (e : DmaEng) : List Nat := match e with | .edge => [] | .tile t => [Reg.ENG_REQ_HWM t]

/-- The commands that can move the carrier: its own events, and writes that may reach PWR_SEQ_STATUS. -/
def movesCarrier (c : Instr) : Bool :=
  match c with
  | .standbyPowerUp | .standbyPowerLoss | .inputInRange | .inputOutOfRange _ | .debounceExpiry | .hotSwapOn | .railGood
  | .railStartTimeout | .railFault _ _ | .railsOff | .offTimeExpiry | .inputOvercurrent | .lidOvertemp | .offReq _
  | .faultLatchedClear _ | .modResetAssert | .modResetRelease | .mgmtTransfer _ _ _ _ | .regWrite _ _ _
  | .registerWrite _ _ _ => true
  | _ => false

end Sys2Proof.Machine
end

