-- ==== Sys2Proof/Certificates/Slice0/Obligations.lean ====
section
/-! DEFINITION. The statements for the provers: what the spec's numbered rules say the module
does, command by command.  A statement about a command gives the state it ends in (or says that
such a state exists and what it holds), names the hypotheses on the state and the operands alone,
and states the frame: what stays as it was. -/

open Sys2Proof Sys2Proof.Machine

/-! ### The block as a whole -/

/-- A step carries out the command at the front of the queue on the state with the queue's rest. The queue is the model's own: the spec gives
commands, and the model takes them first in, first out. -/
def Obligations.StepRunsTheFrontCommand : Prop := ∀ (c : Instr) (r : List Instr) (s : State),
  step { s with pending := c :: r } = exec c { s with pending := r }

/-- R6, R26, R46 and log entry 2: with no command waiting a step is one 4 GHz reference cycle. Device time moves by a quarter of a nanosecond
in a powered module out of MODULE reset, and nothing moves without power; frames that PFC no longer holds back leave (R425), and a flit
that waits for credit is counted (R475). That the idle step is this cycle is the model's choice. -/
def Obligations.IdleStepIsOneReferenceCycle : Prop := ∀ (s : State), s.pending = [] →
  (s.die.live = false → step s = .next s) ∧
  (s.die.live = true → s.die.computeHeld = true →
    step s = .next { s with die := ({ s.die with clock := { s.die.clock with
      quarter := s.die.clock.quarter + 1, aging := s.die.clock.aging + 1 } }).txServe.countWaits } ∧
    (s.die.host.txWait = [] → (∀ k, k < 6 → s.die.linkUp k = true → waitsCredit (s.die.link k) = false) →
      step s = .next { s with die := { s.die with clock := { s.die.clock with
        quarter := s.die.clock.quarter + 1, aging := s.die.clock.aging + 1 } } })) ∧
  (s.die.live = true → s.die.computeHeld = false → s.die.tide.divCtr + 1 < s.die.clockDiv → ∃ u : State, step s = .next u ∧
    u.pending = [] ∧ u.carrier = s.carrier ∧ u.die.clock.quarter = s.die.clock.quarter + 1 ∧
    u.die.tide.divCtr = s.die.tide.divCtr + 1 ∧ SameMem s.die u.die ∧ u.die.links = s.die.links ∧
    OnlyRegs (Reg.HP_TX_FRAMES :: (List.range 6).map Reg.LNK_CREDIT_WAIT) s.die u.die ∧
    (s.die.host.txWait = [] → u.die.out = s.die.out ∧ OnlyRegs ((List.range 6).map Reg.LNK_CREDIT_WAIT) s.die u.die))

/-- R22, R28, R29: in the state after reset standby power has just come up; the sequencer is in STANDBY without a fault, PWR_SEQ_STATUS reads
0x18 (STANDBY with UVLO: DEDUCED, log entry 19), the main rails are off, the die is not live, no session is open and no command waits;
memory lists nothing and the registers hold their reset words. -/
def Obligations.ResetLeavesTheSpecifiedState : Prop :=
  State.reset.pending = [] ∧ State.reset.carrier.word = 0x18 ∧ State.reset.carrier.seq = .standby ∧
  State.reset.carrier.railsUp = 0 ∧ State.reset.carrier.latched = false ∧ State.reset.carrier.wf = true ∧
  State.reset.die.live = false ∧ State.reset.die.host.sessions = [] ∧ Registers.wf State.reset.die = true ∧
  Memory.wf State.reset.die = true ∧ (∀ a, State.reset.die.getW a = resetWord a) ∧ (∀ a, State.reset.die.byteAt a = 0)

/-- R23, R25, R26, R28, R29, R43, R44: whatever happens in one step, from any state whose carrier is sound, the carrier stays sound: a latched
fault has a cause of 1 to 5 and a rail only with a cause of 1 to 3; the main conversion runs only on an input that stayed in range;
the rails come up in order, and none is up outside SEQUENCING, ON and SHUTTING_DOWN; a hold keeps STANDBY. -/
def Obligations.EveryStepKeepsTheCarrierSound : Prop := ∀ (s t : State),
  s.carrier.wf = true → step s = .next t → t.carrier.wf = true

/-- R27, R29: no command but the carrier's own events and writes that may reach PWR_SEQ_STATUS moves the carrier, none touches the queue of
waiting commands, and every command answers a next state. -/
def Obligations.OtherCommandsLeaveTheCarrierAlone : Prop := ∀ (c : Instr) (s : State),
  ∃ t : State, exec c s = .next t ∧ t.pending = s.pending ∧ (movesCarrier c = false → t.carrier = s.carrier)

/-! ### The carrier (R22 to R29, R32, R42 to R47) -/

/-- R22, R26, R28: standby power comes up with the sequencer's reset values and ends with everything but the non-volatile store
lost; management answers 5 ms after it comes up. -/
def Obligations.StandbyPowerStartsAndEndsTheSequencer : Prop := ∀ s : State,
  (s.carrier.standby = false →
    exec .standbyPowerUp s = .next { s with carrier := {} } ∧ Carrier.word {} = 0x18) ∧
  (s.carrier.standby = true → ∃ t : State, exec .standbyPowerLoss s = .next t ∧ t.pending = s.pending ∧
    t.carrier = { standby := false, seq := .off } ∧ t.die.mgmt = {} ∧ t.die.strand = {} ∧ t.die.host = {} ∧
    t.die.tiles = [] ∧ t.die.nv = s.die.nv ∧ t.die.get Reg.BOOT_START_PWR_FAULT = 0) ∧
  (s.carrier.standby = true → s.die.mgmt.alive = false →
    exec .managementAlive s = .next { s with die := { s.die with
      mgmt := { s.die.mgmt with alive := true, mode := .undecided, dynAddr := none } } })

/-- R23, R25, R26, R29: the input in range starts the debounce; out of range it ends the debounce, or shuts a running module down
with PWR_GOOD low and cause 6 or 7; the charge waits for 50 ms in range and 10 ms of off time. -/
def Obligations.InputRangeGovernsTheMainConversion : Prop := ∀ s : State, s.carrier.standby = true →
  (s.carrier.inRange = false → exec .inputInRange s = .next { s with carrier := { s.carrier with
    uvlo := false, ovlo := false, debounced := false,
    seq := if s.carrier.seq = .standby ∧ s.carrier.held = false then .debounce else s.carrier.seq } }) ∧
  (∀ high : Bool, s.carrier.running = true → ∃ t : State, exec (.inputOutOfRange high) s = .next t ∧
    t.pending = s.pending ∧ t.carrier.seq = .shuttingDown ∧ t.carrier.pwrGood = false ∧ t.die.mgmt.powered = false ∧
    t.carrier.uvlo = !high ∧ t.carrier.ovlo = high ∧ t.carrier.toFault = false ∧ t.carrier.latched = s.carrier.latched ∧
    (s.carrier.latched = false → t.carrier.faultCause = (if high then 7 else 6) ∧ t.carrier.faultRail = 0) ∧
    (s.carrier.latched = true →
      t.carrier.faultCause = s.carrier.faultCause ∧ t.carrier.faultRail = s.carrier.faultRail)) ∧
  (∀ high : Bool, s.carrier.running = false → exec (.inputOutOfRange high) s = .next { s with carrier := { s.carrier with
    uvlo := !high, ovlo := high, debounced := false,
    seq := if s.carrier.seq = .debounce then .standby else s.carrier.seq } }) ∧
  (s.carrier.inRange = true → s.carrier.debounced = false →
    exec .debounceExpiry s = .next { s with carrier := { s.carrier with
      debounced := true,
      seq := if s.carrier.seq = .debounce ∧ s.carrier.offTimeMet = true then .charging else s.carrier.seq } }) ∧
  (s.carrier.offTimeMet = false → s.carrier.railsUp = 0 → s.carrier.seq ≠ .shuttingDown →
    exec .offTimeExpiry s = .next { s with carrier := { s.carrier with
      offTimeMet := true,
      seq := if s.carrier.seq = .debounce ∧ s.carrier.debounced = true then .charging else s.carrier.seq } })

/-- R25, R26, R28, R43: the switch starts rail 0, each good rail starts the next, rail 9 raises PWR_GOOD; a shutdown that
reaches off rests in FAULT where a latched fault began it, and otherwise in STANDBY or DEBOUNCE. Wherever its conditions
hold, each command completes with the effect of the operation named for it. That a latched fault under the OFF_REQ hold
rests in STANDBY is the model's reading (DEDUCED, log entry 51). -/
def Obligations.RailsRiseInOrderAndShutdownsReachOff : Prop := ∀ s : State,
  (s.carrier.seq = .charging → exec .hotSwapOn s = .next { s with carrier := { s.carrier with
    seq := .sequencing, switchOn := true, starting := some 0 } }) ∧
  (∀ r, s.carrier.seq = .sequencing → s.carrier.starting = some r → r ≠ 9 →
    exec .railGood s = .next { s with carrier := { s.carrier with railsUp := r + 1, starting := some (r + 1) } }) ∧
  (s.carrier.seq = .sequencing → s.carrier.starting = some 9 → ∃ t : State, exec .railGood s = .next t ∧
    t.carrier = { s.carrier with railsUp := 10, starting := none, seq := .on } ∧ t.carrier.pwrGood = true ∧
    t.die = { s.die with mgmt := { s.die.mgmt with powered := true } } ∧ t.pending = s.pending) ∧
  (s.carrier.seq = .shuttingDown → ∃ t : State, exec .railsOff s = .next t ∧ t.pending = s.pending ∧ t.carrier.railsUp = 0 ∧
    t.carrier.switchOn = false ∧ t.carrier.offTimeMet = false ∧ t.carrier.faultCause = s.carrier.faultCause ∧
    (s.carrier.toFault = true → s.carrier.offHold = false →
      t.carrier.seq = .fault ∧ t.die.get Reg.BOOT_START_PWR_FAULT = 1) ∧
    (s.carrier.toFault = true → s.carrier.offHold = true → t.carrier.seq = .standby) ∧
    (s.carrier.toFault = false → s.carrier.held = true ∨ s.carrier.inRange = false → t.carrier.seq = .standby) ∧
    (s.carrier.toFault = false → s.carrier.held = false → s.carrier.inRange = true → s.carrier.pendingStart = false →
      t.carrier.seq = .debounce)) ∧
  (s.carrier.seq = .sequencing → s.carrier.starting.isSome = true →
    exec .railGood s = .next (s.railGood (s.carrier.starting.getD 0))) ∧
  (s.carrier.seq = .shuttingDown → exec .railsOff s = .next (s.railsOff))

/-- R28, R29, R32: each latched fault takes the rails down towards FAULT with its cause and its rail, PWR_GOOD low; a fault
latched before keeps its own cause. Wherever its conditions hold, each command completes with the effect of the operation
named for it. -/
def Obligations.LatchedFaultsShutDownWithTheirCause : Prop := ∀ s : State,
  (∀ r, s.carrier.seq = .sequencing → s.carrier.starting = some r → s.carrier.latched = false →
    ∃ t : State, exec .railStartTimeout s = .next t ∧ t.pending = s.pending ∧ t.die.mgmt.powered = false ∧
      t.carrier = { s.carrier with
        seq := .shuttingDown, toFault := true, latched := true,
        faultCause := 1, faultRail := r }) ∧
  (∀ rail high, s.carrier.railLive rail high = true → s.carrier.latched = false →
    ∃ t : State, exec (.railFault rail high) s = .next t ∧ t.pending = s.pending ∧ t.die.mgmt.powered = false ∧
      t.carrier = { s.carrier with
        seq := .shuttingDown, toFault := true, latched := true,
        faultCause := if high then 3 else 2, faultRail := rail }) ∧
  (s.carrier.conducts = true → s.carrier.latched = false →
    ∃ t : State, exec .inputOvercurrent s = .next t ∧ t.pending = s.pending ∧ t.die.mgmt.powered = false ∧
      t.carrier = { s.carrier with
        seq := .shuttingDown, toFault := true, latched := true,
        faultCause := 4, faultRail := 0, switchOn := false }) ∧
  (s.carrier.standby = true → s.carrier.running = true ∨ s.carrier.seq = .shuttingDown → s.carrier.latched = false →
    ∃ t : State, exec .lidOvertemp s = .next t ∧ t.pending = s.pending ∧ t.die.mgmt.powered = false ∧
      t.carrier = { s.carrier with
        seq := .shuttingDown, toFault := true, latched := true,
        faultCause := 5, faultRail := 0 }) ∧
  (s.carrier.standby = true → s.carrier.running = false → s.carrier.seq ≠ .shuttingDown → s.carrier.latched = false →
    ∃ t : State, exec .lidOvertemp s = .next t ∧ t.pending = s.pending ∧
      t.carrier.seq = (if s.carrier.offHold = true then .standby else .fault) ∧ t.carrier.offHold = s.carrier.offHold ∧
      t.carrier.faultCause = 5 ∧ t.carrier.latched = true ∧ t.die.get Reg.BOOT_START_PWR_FAULT = 1) ∧
  (s.carrier.conducts = true → s.carrier.latched = true →
    ∃ t : State, exec .inputOvercurrent s = .next t ∧ t.carrier.faultCause = s.carrier.faultCause ∧
      t.carrier.faultRail = s.carrier.faultRail) ∧
  (s.carrier.seq = .sequencing → s.carrier.starting.isSome = true →
    exec .railStartTimeout s = .next ({ s with carrier := s.carrier.latch 1 (s.carrier.starting.getD 0) }.shutDown true)) ∧
  (∀ (rail : Nat) (high : Bool), s.carrier.railLive rail high = true →
    exec (.railFault rail high) s = .next ({ s with carrier := s.carrier.latch (if high then 3 else 2) rail }.shutDown true)) ∧
  (s.carrier.conducts = true →
    exec .inputOvercurrent s = .next ({ s with carrier := { s.carrier.latch 4 0 with switchOn := false } }.shutDown true)) ∧
  (s.carrier.standby = true → exec .lidOvertemp s = .next (s.lidFault))

/-- R28, R29: OFF_REQ takes the rails down and holds STANDBY, from FAULT too, with the fault record kept; FAULT_LATCHED
written 1 clears the bit, the cause and the rail and leaves the state; both writes are answered OK. Wherever its conditions
hold, each command completes with the effect of the operation named for it. -/
def Obligations.SequencerWritesHoldAndClear : Prop := ∀ (s : State) (ag : Agent),
  s.carrier.standby = true → s.seqReach ag = true →
  (s.carrier.running = true → ∃ t : State, exec (.offReq ag) s = .next t ∧ t.pending = s.pending ∧
    t.carrier.seq = .shuttingDown ∧ t.carrier.offHold = true ∧ t.carrier.toFault = false ∧ t.carrier.pwrGood = false ∧
    t.die.out.head? = some (.status ag stOk)) ∧
  (s.carrier.running = false → s.carrier.seq ≠ .shuttingDown → ∃ t : State, exec (.offReq ag) s = .next t ∧
    t.carrier = { s.carrier with seq := .standby, offHold := true, abortHold := false, pendingStart := false } ∧
    t.die = s.die.answer ag stOk ∧ t.pending = s.pending) ∧
  exec (.faultLatchedClear ag) s = .next { s with
    carrier := { s.carrier with latched := false, faultCause := 0, faultRail := 0 }, die := s.die.answer ag stOk } ∧
  (∀ (ag : Agent), s.carrier.standby = true → s.seqReach ag = true → exec (.offReq ag) s = .next (s.seqWrite ag 0x80000000))

/-- R42, R43, R44: MOD_RESET_N low makes a MODULE reset in ON and aborts a power-up; its release ends FAULT and the holds and
starts a new power-up, whose charge begins at once on an input that has stayed in range. Dynamic addresses put the target
in I3C mode. Wherever its conditions hold, each command completes with the effect of the operation named for it. The form
of the provisioned identifier, the loss of a dynamic address at MOD_RESET_N and a SETDASA that replaces an address are the
model's choices (log entry 52). -/
def Obligations.ModResetAndBusAddressing : Prop := ∀ s : State,
  (s.carrier.standby = true → s.carrier.resetLow = false → s.carrier.seq = .on →
    ∃ t : State, exec .modResetAssert s = .next t ∧ t.pending = s.pending ∧
      t.carrier = { s.carrier with resetLow := true } ∧ t.die.mgmt.dieReset = true ∧ t.die.mgmt.ready = false ∧
      t.die.mgmt.cause = 2 ∧ t.die.nv = s.die.nv) ∧
  (s.carrier.standby = true → s.carrier.resetLow = false → s.carrier.seq = .sequencing ∨ s.carrier.seq = .charging →
    ∃ t : State, exec .modResetAssert s = .next t ∧ t.carrier.seq = .shuttingDown ∧ t.carrier.abortHold = true) ∧
  (s.carrier.standby = true → s.carrier.resetLow = true → s.carrier.held = false → s.carrier.seq ≠ .fault →
    exec .modResetRelease s = .next { s with
      carrier := { s.carrier with resetLow := false, offHold := false, abortHold := false } }) ∧
  (s.carrier.standby = true → s.carrier.resetLow = true → s.carrier.seq = .fault →
    exec .modResetRelease s = .next { s with carrier := { s.carrier with
      resetLow := false, offHold := false, abortHold := false,
      seq := if s.carrier.inRange = false then .standby else if s.carrier.debounced = true then .charging else .debounce } }) ∧
  (∀ a, s.die.mgmtReach = true → s.die.mgmt.mode ≠ .i2c → s.die.mgmt.dynAddr = none → a < 128 →
    exec (.entdaa a) s = .next { s with die := { s.die with
      mgmt := { s.die.mgmt with mode := .i3c, dynAddr := some a }
      out := .provisioned (Config.provisionedId s.die.nv.serial) :: s.die.out } }) ∧
  (∀ a, s.die.mgmtReach = true → s.die.mgmt.mode ≠ .i2c → a < 128 →
    exec (.setdasa a) s = .next { s with die := { s.die with mgmt := { s.die.mgmt with mode := .i3c, dynAddr := some a } } }) ∧
  (s.carrier.standby = true → s.carrier.resetLow = false → exec .modResetAssert s = .next (s.modResetAssert)) ∧
  (s.carrier.standby = true → s.carrier.resetLow = true →
    exec .modResetRelease s = .next ({ s with carrier := s.carrier.resetReleased }))

/-- R43, R46, R47, R554: the reference clock's selection is lost for good until a MODULE reset, with REF_LOST and one record;
SEC_ALARM_N latches once for each fall of the pin; the registers become reachable. Wherever its conditions hold, each command
completes with the effect of the operation named for it. -/
def Obligations.ClockAndPinEventsAreKept : Prop := ∀ s : State,
  (s.die.live = true → s.die.on Reg.GLB_CLK_STATUS_REF_SEL = true → ∃ t : State, exec .refLost s = .next t ∧
    t.pending = s.pending ∧ t.carrier = s.carrier ∧ t.die.get Reg.GLB_CLK_STATUS_REF_SEL = 0 ∧
    t.die.get Reg.GLB_CLK_STATUS_REF_PRESENT = 0 ∧ t.die.get Reg.GLB_CLK_STATUS_REF_LOST = 1 ∧
    t.die.mgmt = { s.die.mgmt with refIn := false } ∧ SameMem s.die t.die ∧
    OnlyRegs (Reg.GLB_CLK_STATUS :: logRegs) s.die t.die) ∧
  (s.die.live = true → s.die.mgmt.refIn = false → ∃ t : State, exec (.refclkPresenceChange true) s = .next t ∧
    t.pending = s.pending ∧ t.carrier = s.carrier ∧ t.die.get Reg.GLB_CLK_STATUS_REF_PRESENT = 1 ∧
    t.die.get Reg.GLB_CLK_STATUS_REF_SEL = s.die.get Reg.GLB_CLK_STATUS_REF_SEL ∧ SameMem s.die t.die ∧
    OnlyRegs [Reg.GLB_CLK_STATUS] s.die t.die) ∧
  (s.die.live = true → s.die.mgmt.refIn = true → s.die.on Reg.GLB_CLK_STATUS_REF_SEL = false →
    ∃ t : State, exec (.refclkPresenceChange false) s = .next t ∧ t.die.get Reg.GLB_CLK_STATUS_REF_PRESENT = 0 ∧
      OnlyRegs [Reg.GLB_CLK_STATUS] s.die t.die) ∧
  (s.die.live = true → s.die.mgmt.ready = false →
    exec .registersReady s = .next { s with die := { s.die with mgmt := { s.die.mgmt with ready := true } } }) ∧
  (s.die.sec.extLow = false → s.die.live = false →
    exec .secAlarmNAssert s = .next { s with die := { s.die with sec := { s.die.sec with extLow := true } } }) ∧
  (s.die.sec.extLow = false → s.die.live = true →
    exec .secAlarmNAssert s =
      exec (.securityAlarm 4) { s with die := { s.die with sec := { s.die.sec with extLow := true } } } ∧
    ∃ t : State, exec .secAlarmNAssert s = .next t ∧ t.pending = s.pending ∧ t.carrier = s.carrier) ∧
  (s.die.sec.extLow = true →
    exec .secAlarmNRelease s = .next { s with die := { s.die with sec := { s.die.sec with extLow := false } } }) ∧
  (∀ present, s.die.live = true → s.die.mgmt.refIn ≠ present → ∃ t : State, exec (.refclkPresenceChange present) s = .next t ∧
    t.pending = s.pending ∧ t.carrier = s.carrier ∧ t.die.get Reg.GLB_CLK_STATUS_REF_PRESENT = b2n present ∧
    (present = true ∨ s.die.on Reg.GLB_CLK_STATUS_REF_SEL = false →
      t.die.mgmt = { s.die.mgmt with refIn := present } ∧ OnlyRegs [Reg.GLB_CLK_STATUS] s.die t.die) ∧
    (present = false → s.die.on Reg.GLB_CLK_STATUS_REF_SEL = true → t.die = s.die.refLost))

/-- R25: a shutdown in progress is never reversed: until the rails reach off, or standby power is lost, no command moves the sequencer
out of SHUTTING_DOWN or a rail back up, the input's return into range among them. When all main rails are off, the 10 ms off time and
the 50 ms rule both apply from DEBOUNCE, in either order, and a full power-up follows from rail 0. -/
def Obligations.ShutdownsAreNeverReversed : Prop := ∀ (s : State), s.carrier.standby = true → s.carrier.wf = true →
  (s.carrier.seq = .shuttingDown →
    (∀ (c : Instr) (t : State), exec c s = .next t → c ≠ .railsOff → c ≠ .standbyPowerLoss →
      t.carrier.seq = .shuttingDown ∧ t.carrier.railsUp = s.carrier.railsUp) ∧
    (s.carrier.inRange = false → ∃ u : State, exec .inputInRange s = .next u ∧ u.carrier.seq = .shuttingDown ∧
      u.carrier.inRange = true ∧ u.carrier.debounced = false) ∧
    (∃ t : State, exec .railsOff s = .next t ∧ t.carrier.railsUp = 0 ∧ t.carrier.switchOn = false ∧ t.carrier.offTimeMet = false ∧
      (s.carrier.toFault = false → s.carrier.held = false → s.carrier.inRange = true → s.carrier.pendingStart = false →
        t.carrier.seq = .debounce))) ∧
  (s.carrier.seq = .debounce →
    (s.carrier.debounced = false → s.carrier.inRange = true → ∃ u : State, exec .debounceExpiry s = .next u ∧
      u.carrier.debounced = true ∧ u.carrier.seq = (if s.carrier.offTimeMet then .charging else .debounce)) ∧
    (s.carrier.offTimeMet = false → ∃ u : State, exec .offTimeExpiry s = .next u ∧ u.carrier.offTimeMet = true ∧
      u.carrier.seq = (if s.carrier.debounced then .charging else .debounce))) ∧
  (s.carrier.seq = .charging → ∃ u : State, exec .hotSwapOn s = .next u ∧ u.carrier.seq = .sequencing ∧
    u.carrier.starting = some 0 ∧ u.carrier.railsUp = 0)

/-! ### The packet plane (R61 to R70, R81) -/

/-- R61, R65, R67, R517: an injected packet waits at its source with its fields; a VC0 packet takes bits 11 to 0 of the tide number as its
age stamp; in forerunner mode one marked for VC1 travels on VC0. Nothing else changes. While a COMPUTE or CORE reset that has been
asked for is not yet asserted, tiles and the Lighthouse inject nothing. -/
def Obligations.InjectedPacketTakesItsStamp : Prop :=
  ∀ (s : State) (src dst : MeshUnit) (vc tenant : Nat) (body : PktBody) (sys : Bool), s.die.live = true → s.die.unitOk src = true →
  s.die.unitOk dst = true → src ≠ dst → vc < 3 → tenant < 4096 → body.addr < 2 ^ 48 → body.data.length ≤ 1024 → s.die.injected src < 32 →
  (vc = 2 ↔ isLinkUnit src = true ∧ isLinkUnit dst = true) →
  (s.die.computeHeld = true → underCompute src = false ∧ underCompute dst = false) →
  (s.die.quiesces = true → underCompute src = true → exec (.packetInject src dst vc tenant body sys) s = .next s) ∧
  ((s.die.quiesces = true → underCompute src = false) →
  ∃ p : Pkt, exec (.packetInject src dst vc tenant body sys) s =
      .next { s with die := { s.die with mesh := { s.die.mesh with pkts := s.die.mesh.pkts ++ [p] } } } ∧
    p.src = src ∧ p.dst = dst ∧ p.tenant = tenant ∧ p.sys = sys ∧ p.addr = body.addr ∧ p.data = body.data ∧ p.old = false ∧
    p.vc = (if vc = 1 ∧ s.die.on Reg.GLB_MESH_CTRL_MODE = true then 0 else vc) ∧
    (p.vc = 0 → p.stamp = s.die.tideNum % 4096) ∧
    p.place = (match src with | .tile _ => .injection | .edge k a => .attach k a))

/-- R62 to R64, R68: an output grants only a packet that is ready for it, one of VC1 while any is ready; the granted packet
moves to its next place, or is delivered at its own tile; with no packet to mark old and none ready the router changes
nothing. Wherever its conditions hold, each command completes with the effect of the operation named for it. -/
def Obligations.RouterGrantsAndMovesOnePacket : Prop := ∀ (s : State) (r o : Nat), s.die.live = true →
  (r < 64 ∧ o < 5 ∨ 64 ≤ r ∧ r < 72 ∧ o < 4 + attachments (r - 64)) → s.die.routerRuns r = true →
  (∀ q, s.die.grant r o = some q → q ∈ s.die.ready r o ∧ ((∃ x ∈ s.die.ready r o, x.2.vc = 1) → q.2.vc = 1)) ∧
  ((∀ p ∈ s.die.mesh.pkts, p.old = true ∨ p.vc ≠ 0 ∨ s.die.age p < 2048) →
    (∀ q pl, s.die.grant r o = some q → q.2.next r o = some pl → ∃ t : State, exec (.packetHop r o) s = .next t ∧
      t.pending = s.pending ∧ t.carrier = s.carrier ∧
      t.die.mesh.pkts = s.die.mesh.pkts.erase q.2 ++ [{ q.2 with place := pl }] ∧ t.die.out = s.die.out ∧
      t.die.regs = s.die.regs ∧ t.die.mem = s.die.mem) ∧
    (∀ q, s.die.grant r o = some q → q.2.next r o = none → ∃ t : State, exec (.packetHop r o) s = .next t ∧
      t.die.mesh.pkts = s.die.mesh.pkts.erase q.2 ∧
      t.die.out = .delivered q.2.src q.2.dst q.2.vc q.2.tenant q.2.addr q.2.data :: s.die.out) ∧
    (s.die.grant r o = none → exec (.packetHop r o) s = .next s)) ∧
  (∀ (router outPort : Nat), (router < 64 ∧ outPort < 5 ∨ 64 ≤ router ∧ router < 72 ∧ outPort < 4 + attachments (router - 64)) →
    s.die.routerRuns router = true →
    exec (.packetHop router outPort) s = .next { s with die := s.die.packetHop router outPort })

/-- R69, R70: a packet that may cross an attachment leaves the bucket of its tenant lower by its payload in whole 64-byte
tokens where it is charged, and untouched where it is not; an outbound one is delivered, or goes onto its Swell link. A
deferred packet crosses in the same way, the oldest of its tenant first and none before an earlier one of its source and destination. Wherever its conditions hold, each command completes
with the effect of the operation named for it. -/
def Obligations.AttachmentCrossingChargesTokens : Prop := ∀ (s : State) (k att : Nat), s.die.live = true → att < attachments k →
  (∀ p ∈ s.die.mesh.pkts, p.old = true ∨ p.vc ≠ 0 ∨ s.die.age p < 2048) →
  (∀ p rest, attachHeads k att s.die.mesh.pkts [] = p :: rest → (∀ x ∈ rest, x.vc ≠ 1) → s.die.eligible k p = true →
    s.die.behind k att p = false → p.inbound k att = false → ∃ t : State, exec (.attachmentCross k att) s = .next t ∧
    t.pending = s.pending ∧ t.carrier = s.carrier ∧ t.die.mesh.pkts = s.die.mesh.pkts.erase p ∧
    (unitLink p.dst = none →
      t.die.out = .delivered p.src p.dst p.vc p.tenant p.addr p.data :: s.die.out ∧ t.die.regs = s.die.regs) ∧
    (∀ n, unitLink p.dst = some n → s.die.linkUp n = true → t.die.out = s.die.out ∧ t.die.regs = s.die.regs ∧
      (t.die.link n).txPackets = (s.die.link n).txPackets ++
        cutFlits 6 p.vc true (natLe 4 (s.die.routeOf n p) ++ p.headerBytes ++ p.data)) ∧
    (s.die.charged p = true → t.die.bucket k p.tenant = s.die.bucket k p.tenant - ((p.len + 63) / 64 : Nat)) ∧
    (s.die.charged p = false → t.die.mesh.bucket = s.die.mesh.bucket) ∧ t.die.mem = s.die.mem) ∧
  (∀ tenant p, s.die.deferredNext k att tenant = some p → s.die.eligible k p = true →
    s.die.crossRoom k att p = true → ∃ t : State, exec (.deferredPacketRelease k att tenant) s = .next t ∧
    t.pending = s.pending ∧ t.carrier = s.carrier ∧
    t.die.mesh.pkts = (if p.inbound k att = true then
      s.die.mesh.pkts.erase p ++ [{ p with place := .buffer (64 + k) (4 + att) }] else s.die.mesh.pkts.erase p) ∧
    (s.die.charged p = true → t.die.bucket k p.tenant = s.die.bucket k p.tenant - ((p.len + 63) / 64 : Nat)) ∧
    (p.inbound k att = true ∨ unitLink p.dst = none → t.die.regs = s.die.regs)) ∧
  (exec (.attachmentCross k att) s = .next { s with die := s.die.attachmentCross k att }) ∧
  (∀ (tenant : Nat), exec (.deferredPacketRelease k att tenant) s = .next { s with die := s.die.deferredRelease k att tenant })

/-- R66, R81: MODE and AGE_EN take a new value only while COMPUTE is held or before the broadcast; at any other time both stay, one record
is written and BKT_EN of the same write is applied. Nothing but GLB_MESH_CTRL and the log moves. -/
def Obligations.MeshControlChangesModeOnlyInItsWindow : Prop := ∀ (s : State) (ag : Agent) (w : Nat),
  s.die.live = true → s.die.mayControl ag = true → w < 2 ^ 32 →
  ∃ t : State, exec (.meshCtrlWrite ag w) s = .next t ∧ t.pending = s.pending ∧ t.carrier = s.carrier ∧
    t.die.get Reg.GLB_MESH_CTRL_BKT_EN = bits w 2 1 ∧ SameMem s.die t.die ∧
    OnlyRegs (Reg.GLB_MESH_CTRL :: logRegs) s.die t.die ∧ t.die.out.head? = some (.status ag stOk) ∧
    (bits w 2 1 = 0 → t.die.mesh.bktOn = false) ∧
    (s.die.meshOpen = true → t.die.get Reg.GLB_MESH_CTRL_MODE = bits w 0 1 ∧ t.die.get Reg.GLB_MESH_CTRL_AGE_EN = bits w 1 1 ∧
      t.die.strand = s.die.strand) ∧
    (s.die.meshOpen = false → t.die.get Reg.GLB_MESH_CTRL_MODE = s.die.get Reg.GLB_MESH_CTRL_MODE ∧
      t.die.get Reg.GLB_MESH_CTRL_AGE_EN = s.die.get Reg.GLB_MESH_CTRL_AGE_EN)

/-! ### Strokes of an array (R96 to R107, R112 to R121, R156, R163) -/

/-- R97, R101, R102, R112, R118: an issuing stroke leaves the input register and takes the array's settings; outside SERVING
it is rejected and nothing else moves; in SERVING each phase whose sum is above the cliff splits while the budget lasts,
and is marked lost after it. Completion puts one record into the result buffer; a rejected stroke counts, raises REJECT
and records Array 2. Wherever its conditions hold, each command completes with the effect of the operation named for it.
That the record of a rejected stroke holds the array's state at completion is the model's choice (log entry 56). -/
def Obligations.StrokesTakeDecisionsAndLeaveOneRecord : Prop := ∀ (s : State) (t a : Nat), s.die.live = true →
  s.die.tileRuns t = true → a < 272 →
  (∀ i rest, (s.die.arr t a).waiting = i :: rest → (s.die.arr t a).drive = 0 →
      (s.die.arr t a).flights.length + (s.die.arr t a).results.length < 2 →
    (s.die.arrState t a ≠ asServing → ∃ u : State, exec (.strokeIssue t a) s = .next u ∧ ∃ f : Flight, f.rejected = true ∧
      f.inp = i ∧ u.die.arr t a = { s.die.arr t a with
        waiting := rest, flights := (s.die.arr t a).flights ++ [f], drive := drivePhases i.aw4 false false } ∧
      u.die.regs = s.die.regs ∧ SameMem s.die u.die ∧ u.pending = s.pending ∧ u.carrier = s.carrier) ∧
    (s.die.arrState t a = asServing → i.aw4 = true → ∃ u : State, exec (.strokeIssue t a) s = .next u ∧ ∃ f : Flight,
      f.rejected = false ∧ f.inp = i ∧ f.p0 = (i.codes.map Int.natAbs).sum ∧ f.p1 = 0 ∧
      (f.split0 = true ↔ (s.die.arr t a).cliff % 2 ^ 13 < f.p0 ∧ 0 < (s.die.arr t a).budget) ∧
      (f.lost0 = true ↔ (s.die.arr t a).cliff % 2 ^ 13 < f.p0 ∧ (s.die.arr t a).budget = 0) ∧
      (u.die.arr t a).budget = (s.die.arr t a).budget - b2n f.split0 ∧ (u.die.arr t a).waiting = rest ∧
      (u.die.arr t a).flights = (s.die.arr t a).flights ++ [f] ∧ (u.die.arr t a).drive = 1 + b2n f.split0 ∧
      SameMem s.die u.die)) ∧
  (∀ f rest, (s.die.arr t a).flights = f :: rest → f.rejected = true → ∃ u : State,
    exec (.strokeComplete t a) s = .next u ∧ ∃ r : Record, u.pending = s.pending ∧ u.carrier = s.carrier ∧
    u.die.arr t a = { s.die.arr t a with
      flights := rest, results := (s.die.arr t a).results ++ [r], seq := (s.die.arr t a).seq + 1
      drive := (s.die.arr t a).driveAfter rest.length (s.die.arr t a).refFlights } ∧
    r.columns = List.replicate (if f.inp.aw4 then 256 else 512) 0 ∧ r.tag = f.inp.tag ∧ r.logical = f.inp.logical ∧
    u.die.get (Reg.ARR_STATUS_REJECT t a) = 1 ∧ SameMem s.die u.die ∧
    OnlyRegs (Reg.ARR_REJECT_CNT t a :: Reg.ARR_STATUS t a :: logRegs) s.die u.die) ∧
  (∀ f rest, (s.die.arr t a).flights = f :: rest → f.rejected = false → f.inp.aw4 = true → f.p0 = 0 → f.p1 = 0 →
    f.split0 = false → f.split1 = false → f.lost0 = false → f.lost1 = false → f.clipCol = none →
    ∃ u : State, exec (.strokeComplete t a) s = .next u ∧ ∃ r : Record,
    (u.die.arr t a).results = (s.die.arr t a).results ++ [r] ∧ r.columns = List.replicate 256 (2 ^ 13) ∧
    SameMem s.die u.die) ∧
  ((s.die.arr t a).mayIssue = true → exec (.strokeIssue t a) s = .next { s with die := s.die.strokeIssue t a }) ∧
  ((s.die.arr t a).flights.isEmpty = false →
    exec (.strokeComplete t a) s = .next { s with die := s.die.strokeComplete t a })

/-- R107, R110, R112, R119, R289: a reference stroke issues in READY and SERVING, and is rejected at once in every other state; its
completion writes REF_RESULT with VALID and counts. -/
def Obligations.ReferenceStrokesIssueOnlyInReadyOrServing : Prop := ∀ (s : State) (t a : Nat), s.die.live = true →
  s.die.tileRuns t = true → a < 272 →
  (0 < (s.die.arr t a).refWaiting → (s.die.arr t a).drive = 0 → s.die.arrState t a = asReady ∨ s.die.arrState t a = asServing →
    ∃ u : State, exec (.refStrokeIssue t a) s = .next u ∧ u.die.regs = s.die.regs ∧ SameMem s.die u.die ∧
    u.die.arr t a = { s.die.arr t a with
      refWaiting := (s.die.arr t a).refWaiting - 1, refFlights := (s.die.arr t a).refFlights + 1,
      phases := (s.die.arr t a).phases + 1, drive := 1
      refTrims := (s.die.arr t a).refTrims ++ [((s.die.arr t a).phases, (s.die.getW (Reg.CAL_CREFA t a 0)).toNat)] } ∧ u.pending = s.pending ∧ u.carrier = s.carrier) ∧
  (0 < (s.die.arr t a).refWaiting → s.die.arrState t a ≠ asReady → s.die.arrState t a ≠ asServing →
    ∃ u : State, exec (.refStrokeIssue t a) s = .next u ∧ u.die.get (Reg.ARR_STATUS_REJECT t a) = 1 ∧
    u.die.arr t a = { s.die.arr t a with refWaiting := (s.die.arr t a).refWaiting - 1 } ∧ SameMem s.die u.die ∧
    OnlyRegs (Reg.ARR_REJECT_CNT t a :: Reg.ARR_STATUS t a :: logRegs) s.die u.die) ∧
  (0 < (s.die.arr t a).refFlights → ∃ u : State, exec (.refStrokeComplete t a) s = .next u ∧
    bits (u.die.getW (Reg.ARR_REF_RESULT t a)).toNat 31 1 = 1 ∧ SameMem s.die u.die ∧
    u.die.arr t a = { s.die.arr t a with
      refFlights := (s.die.arr t a).refFlights - 1, refTrims := (s.die.arr t a).refTrims.drop 1
      drive := (s.die.arr t a).driveAfter (s.die.arr t a).flights.length ((s.die.arr t a).refFlights - 1) } ∧
    OnlyRegs [Reg.ARR_REF_RESULT t a, Reg.ARR_REF_CNT t a, Reg.ARR_STATUS t a] s.die u.die ∧
    u.pending = s.pending ∧ u.carrier = s.carrier)

/-- R14, R109, R113, R117, R120, R121, R156, R163: ARR_CFG is busy while the array serves or calibrates; the clear bits ask
for a clear at the next boundary; VALID of a column assignment needs PROG_OK and its column the spare's range. Each answers
OK. Wherever its conditions hold, each command completes with the effect of the operation named for it. -/
def Obligations.ArrayRegisterWritesKeepTheirRules : Prop := ∀ (s : State) (ag : Agent) (t a w : Nat), s.die.live = true →
  s.die.tileWrite ag t = true → a < 272 → w < 2 ^ 32 →
  (s.die.arrState t a = asServing ∨ s.die.arrState t a = asCalibrating →
    ∃ u : State, exec (.arrCfgWrite ag t a w) s = .next u ∧ OnlyRegs logRegs s.die u.die ∧ SameMem s.die u.die ∧
    Recorded 0x11 3 t a s.die u.die ∧ u.die.out.head? = some (.status ag stBusy)) ∧
  (s.die.arrState t a ≠ asServing → s.die.arrState t a ≠ asCalibrating →
    exec (.arrCfgWrite ag t a w) s = .next { s with die := s.die.plainWrite ag (Reg.ARR_CFG t a) w t } ∧
    ∃ u : State, exec (.arrCfgWrite ag t a w) s = .next u ∧ OnlyRegs (Reg.ARR_CFG t a :: logRegs) s.die u.die ∧
      SameMem s.die u.die) ∧
  (∃ u : State, exec (.arrCntClr ag t a) s = .next u ∧ u.die.get (Reg.ARR_STATUS_CNT_CLR t a) = 1 ∧
    OnlyRegs [Reg.ARR_STATUS t a] s.die u.die ∧ SameMem s.die u.die ∧ OtherBits (Reg.ARR_STATUS_CNT_CLR t a) s.die u.die) ∧
  (∃ u : State, exec (.arrPredMaxClr ag t a) s = .next u ∧ (u.die.arr t a).predClr = true ∧ u.die.regs = s.die.regs ∧
    SameMem s.die u.die) ∧
  (∀ sp, sp < 8 → bit w 31 = true → bit (s.die.getW (Reg.ARR_COLMAP t a sp)).toNat 30 = false →
    ∃ u : State, exec (.arrColmapWrite ag t a sp w) s = .next u ∧ SameMem s.die u.die ∧
      bits (u.die.getW (Reg.ARR_COLMAP t a sp)).toNat 31 1 = bits (s.die.getW (Reg.ARR_COLMAP t a sp)).toNat 31 1 ∧
      OnlyRegs (Reg.ARR_COLMAP t a sp :: logRegs) s.die u.die) ∧
  (∀ sp, sp < 8 → bit (s.die.getW (Reg.ARR_COLMAP t a sp)).toNat 30 = true → w % 256 / 32 = sp →
    ∃ u : State, exec (.arrColmapWrite ag t a sp w) s = .next u ∧ u.die.out.head? = some (.status ag stOk) ∧
      bits (u.die.getW (Reg.ARR_COLMAP t a sp)).toNat 31 1 = bits w 31 1 ∧
      bits (u.die.getW (Reg.ARR_COLMAP t a sp)).toNat 0 8 = w % 256 ∧ OnlyRegs [Reg.ARR_COLMAP t a sp] s.die u.die) ∧
  (∀ v, v < 66 → exec (.offrWrite ag t a v w) s = .next { s with die := s.die.plainWrite ag (Reg.ENG_OFFR t a v) w t } ∧
    ∃ u : State, exec (.offrWrite ag t a v w) s = .next u ∧ OnlyRegs (Reg.ENG_OFFR t a v :: logRegs) s.die u.die) ∧
  (∃ u : State, exec (.engArithCntClr ag t) s = .next u ∧ u.die.get (Reg.ENG_ARITH_CTRL_CNT_CLR t) = 1 ∧
    OnlyRegs [Reg.ENG_ARITH_CTRL t] s.die u.die ∧ SameMem s.die u.die) ∧
  (∀ (spare : Nat), spare < 8 →
    exec (.arrColmapWrite ag t a spare w) s = .next { s with die := s.die.colmapWrite ag t a spare w })

/-! ### Bring-up (R502 to R515, R523, R524, R584) -/

/-- R503, R504, R506, R507, R509, R513, R544, R584: VERIFY copies the staged image from WAIT_FW or VERIFIED, and is refused
with BOOT 1 anywhere else; a good image reaches VERIFIED, or MAPPED where the maps are applied, with its identifier, a bad
one WAIT_FW; APPLY_MAPS needs both stacks READY; START writes the resume copy. Wherever its conditions hold, each command
completes with the effect of the operation named for it. -/
def Obligations.BootCommandsFollowTheStages : Prop := ∀ (s : State) (ag : Agent), s.die.live = true →
  (s.die.mayControl ag = true → s.die.stage = 1 ∨ s.die.stage = 3 → s.die.boot.running = 0 → s.die.boot.counted = true →
    s.die.stagingOk = true → ∃ t : State, exec (.verify ag) s = .next t ∧ t.pending = s.pending ∧ t.carrier = s.carrier ∧
    t.die.stage = 2 ∧ t.die.boot = { s.die.boot with
      running := 1, image := s.die.bytesAt s.die.stageAddr s.die.stageLen } ∧ SameMem s.die t.die ∧
    OnlyRegs [Reg.BOOT_STAGE] s.die t.die ∧ t.die.out.head? = some (.status ag stOk)) ∧
  (s.die.mayControl ag = true → s.die.stage ≠ 1 → s.die.stage ≠ 3 → ∃ t : State, exec (.verify ag) s = .next t ∧
    t.die.get Reg.BOOT_STAGE_REFUSED = 1 ∧ t.die.stage = s.die.stage ∧ Recorded 0x03 1 99 0xFFFF s.die t.die ∧
    t.die.boot = s.die.boot ∧ OnlyRegs (Reg.BOOT_STAGE :: logRegs) s.die t.die) ∧
  (s.die.stage = 2 → s.die.imageDetail s.die.boot.image = 0 → ∃ t : State, exec .fwVerifyDone s = .next t ∧
    t.die.stage = (if s.die.boot.mapsApplied = true then 4 else 3) ∧ t.die.boot = { s.die.boot with running := 0 } ∧
    t.die.getW Reg.BOOT_FW_ID = w32 (leAt s.die.boot.image 12 4) ∧ SameMem s.die t.die) ∧
  (s.die.stage = 2 → s.die.imageDetail s.die.boot.image ≠ 0 → ∃ t : State, exec .fwVerifyDone s = .next t ∧
    t.die.stage = 1 ∧ t.die.boot.image = [] ∧ t.die.boot.running = 0 ∧ t.die.getW Reg.BOOT_FW_ID = 0 ∧
    t.die.get Reg.BOOT_STAGE_CODE = detailCode (s.die.imageDetail s.die.boot.image)) ∧
  (s.die.mayControl ag = true → s.die.stage = 3 → s.die.boot.running = 0 → s.die.memState 0 = 4 → s.die.memState 1 = 4 →
    ∃ t : State, exec (.applyMaps ag) s = .next t ∧ t.die.stage = 4 ∧ t.die.boot.mapsApplied = true ∧ SameMem s.die t.die ∧
    ∀ n, s.die.enabled n = true → (t.die.tile n).ready = false) ∧
  (s.die.mayControl ag = true → s.die.stage = 4 → s.die.boot.running = 0 → ∃ t : State, exec (.start ag) s = .next t ∧
    t.die.stage = 5 ∧ t.die.boot.running = 3 ∧ t.die.boot.resumeCopy = true ∧
    t.die.bytesAt fwArea s.die.boot.image.length = s.die.boot.image ∧
    SameMemBut fwArea s.die.boot.image.length s.die t.die ∧ OnlyRegs [Reg.BOOT_STAGE] s.die t.die) ∧
  (s.die.mayControl ag = true → exec (.verify ag) s = .next { s with die := s.die.bootVerify ag }) ∧
  (s.die.mayControl ag = true → exec (.applyMaps ag) s = .next { s with die := s.die.bootMaps ag }) ∧
  (s.die.mayControl ag = true → exec (.start ag) s = .next { s with die := s.die.bootStart ag })

/-- R507, R512, R513, R515, R523, R524, R584: a tile accepts the microcode, asks once more, and a second failure ends the start in
MAPPED; readiness of every tile brings RUNNING with FAILCNT 0 and the watchdog armed; the hold ends in a resume from the copy or in
WAIT_FW. -/
def Obligations.FirmwareStartsOrFallsBack : Prop := ∀ s : State, s.die.live = true →
  (∀ n, s.die.starting = true → s.die.enabled n = true → (s.die.tile n).microOk = false →
    (∃ t : State, exec (.microcodeReceive n true) s = .next t ∧ (t.die.tile n).microOk = true ∧ t.die.regs = s.die.regs ∧
      SameMem s.die t.die) ∧
    (s.die.boot.micro.contains n = false → ∃ t : State, exec (.microcodeReceive n false) s = .next t ∧
      t.die.boot.micro = s.die.boot.micro ++ [n] ∧ t.die.regs = s.die.regs ∧ t.die.tiles = s.die.tiles) ∧
    (s.die.boot.micro.contains n = true → ∃ t : State, exec (.microcodeReceive n false) s = .next t ∧ t.die.stage = 4 ∧
      t.die.boot.running = 0 ∧ t.die.get Reg.BOOT_STAGE_CODE = 6)) ∧
  (s.die.starting = true → (∀ n, s.die.enabled n = true → (s.die.tile n).microOk = true) → ∃ t : State,
    exec .fwReady s = .next t ∧ t.die.stage = 6 ∧ t.die.boot.watchdog = true ∧ t.die.boot.running = 0 ∧
    t.die.get Reg.BOOT_START_FAILCNT = 0 ∧ t.die.get Reg.BOOT_START_PENDING = 0 ∧
    t.die.sec.fwId = leAt s.die.boot.image 12 4 ∧ SameMem s.die t.die ∧
    OnlyRegs [Reg.BOOT_STAGE, Reg.BOOT_START, Reg.RST_STATUS] s.die t.die) ∧
  (s.die.starting = true → ∃ t : State, exec .fwInitTimeout s = .next t ∧ t.die.stage = 4 ∧ t.die.boot.running = 0 ∧
    t.die.get Reg.BOOT_STAGE_CODE = 7 ∧ SameMem s.die t.die) ∧
  (∀ ag, s.die.mayControl ag = true → ∃ t : State, exec (.bootFailcntClear ag) s = .next t ∧
    t.die.get Reg.BOOT_START_FAILCNT = 0 ∧ t.die.nvWord Reg.BOOT_START = t.die.getW Reg.BOOT_START ∧
    OnlyRegs [Reg.BOOT_START] s.die t.die ∧ SameMem s.die t.die) ∧
  (s.die.boot.hold = true → s.die.stage = 7 → ∃ t : State, exec .resumeHoldEnd s = .next t ∧ t.die.boot.hold = false ∧
    t.die.get Reg.STL_STATUS_FROZEN = 0 ∧
    (s.die.get Reg.SEC_STATUS_STATE ≠ 0 ∨ s.die.boot.trainFailed = true ∨ s.die.on Reg.RST_CFG_AUTO_RESUME = false ∨
      s.die.boot.resumeCopy = false → t.die.stage = 1) ∧
    (s.die.get Reg.SEC_STATUS_STATE = 0 → s.die.boot.trainFailed = false → s.die.on Reg.RST_CFG_AUTO_RESUME = true →
      s.die.boot.resumeCopy = true → t.die.stage = 7 ∧ t.die.boot.running = 4)) ∧
  (s.die.stage = 7 → s.die.boot.running = 4 → s.die.dramUp = true →
    (s.die.imageDetail s.die.resumeBytes = 0 → ∃ t : State, exec .resumeCopyVerified s = .next t ∧ t.die.stage = 7 ∧
      t.die.boot.running = 3 ∧ t.die.boot.image = s.die.resumeBytes) ∧
    (s.die.imageDetail s.die.resumeBytes ≠ 0 → ∃ t : State, exec .resumeCopyVerified s = .next t ∧ t.die.stage = 1 ∧
      t.die.boot.running = 0 ∧ t.die.get Reg.BOOT_STAGE_CODE = 9))

/-! ### Resets (R516 to R527) -/

/-- R13, R516, R518, R525, R527: each reset register starts its reset with its own cause and shows it in its bit; a tile
reset is refused as busy while a table runs, and ignored for a disabled tile; a request that a reset in progress contains
changes nothing but the answer. Wherever its conditions hold, each command completes with the effect of the operation named
for it. -/
def Obligations.ResetRequestsStartTheirDomain : Prop := ∀ (s : State) (ag : Agent), s.die.live = true →
  s.die.mayWrite ag = true →
  (s.die.boot.resets = [] →
    (∀ c dom cause w, (c, dom, cause, w) ∈ [(Instr.resetModuleReq ag, 0, 3, 2 ^ 31), (Instr.resetCoreReq ag, 1, 4, 2 ^ 30),
        (Instr.resetComputeReq ag, 2, 7, 2 ^ 29), (Instr.resetHostportReq ag, 3, 11, 2 ^ 28),
        (Instr.resetMonitorReq ag, 4, 12, 2 ^ 27), (Instr.resetLinkReq ag 0, 5, 10, 1), (Instr.resetLinkReq ag 5, 10, 10, 32)] →
      ∃ t : State, exec c s = .next t ∧ t.pending = s.pending ∧ t.carrier = s.carrier ∧
      t.die.boot = { s.die.boot with resets := [{ dom := dom, cause := cause }] } ∧ t.die.getW Reg.RST_CTRL = w32 w ∧
      SameMem s.die t.die ∧ OnlyRegs [Reg.RST_CTRL, Reg.RST_TILE 0, Reg.RST_TILE 1, Reg.RST_STATUS] s.die t.die ∧
      t.die.out = .status ag stOk :: s.die.out) ∧
    (∀ k, k < 6 → ∃ t : State, exec (.resetLinkReq ag k) s = .next t ∧
      t.die.boot.resets = [{ dom := 5 + k, cause := 10 }] ∧ t.die.getW Reg.RST_CTRL = w32 (2 ^ k)) ∧
    (∀ n, s.die.mayControl ag = true → s.die.enabled n = true → s.die.armed = false → ∃ t : State,
      exec (.tileReset ag n) s = .next t ∧ t.die.boot.resets = [{ dom := 16 + n, cause := 9 }] ∧ SameMem s.die t.die)) ∧
  (∀ n, s.die.mayControl ag = true → s.die.enabled n = true → s.die.armed = true → ∃ t : State,
    exec (.tileReset ag n) s = .next t ∧ t.die.boot = s.die.boot ∧ Recorded 0x04 3 n 0xFFFF s.die t.die ∧
    t.die.out.head? = some (.status ag stBusy) ∧ OnlyRegs logRegs s.die t.die) ∧
  (∀ n, n < 64 → s.die.mayControl ag = true → s.die.enabled n = false →
    exec (.tileReset ag n) s = .next { s with die := s.die.answer ag stOk }) ∧
  (s.die.boot.resets.any (fun r => r.dom == 1) = true → ∃ t : State, exec (.resetComputeReq ag) s = .next t ∧
    t.die.boot = s.die.boot ∧ t.die.out.head? = some (.status ag stOk)) ∧
  (exec (.resetModuleReq ag) s = .next { s with die := s.die.askReset ag 0 3 }) ∧
  (exec (.resetCoreReq ag) s = .next { s with die := s.die.askReset ag 1 4 }) ∧
  (exec (.resetComputeReq ag) s = .next { s with die := s.die.askReset ag 2 7 }) ∧
  (exec (.resetHostportReq ag) s = .next { s with die := s.die.askReset ag 3 11 }) ∧
  (exec (.resetMonitorReq ag) s = .next { s with die := s.die.askReset ag 4 12 }) ∧
  (∀ (link : Nat), link < 6 → exec (.resetLinkReq ag link) s = .next { s with die := s.die.askReset ag (5 + link) 10 }) ∧
  (∀ (tile : Nat), s.die.mayControl ag = true → tile < 64 →
    exec (.tileReset ag tile) s = .next { s with die := s.die.tileReset ag tile })

/-- R26, R183, R395, R422, R506, R509, R513, R514, R516, R523, R526: what the assertion of each kind of reset takes away, and
what its release starts: RESUMING and the hold after COMPUTE and CORE, training of the host port after its own reset, WAIT_FW,
low water or INIT with NV after MODULE (R510), each with its cause in LAST. Wherever its conditions hold, each command completes with the effect
of the operation named for it. -/
def Obligations.ResetsTakeAwayAndGiveBack : Prop := ∀ s : State,
  (s.die.live = true → ∀ r, s.die.boot.resets = [r] → r.asserted = false →
    (r.dom = 0 → ∃ t : State, exec .resetAssert s = .next t ∧ t.die.mgmt.dieReset = true ∧ t.die.mgmt.ready = false ∧
      t.die.mgmt.cause = r.cause ∧ t.die.nv = s.die.nv ∧ t.die.gen0 = s.die.gen0 + 1 ∧ t.die.gen1 = s.die.gen1 + 1 ∧
      t.die.host = {} ∧ t.die.tide = {} ∧ t.die.serve = {} ∧ t.carrier = s.carrier) ∧
    (r.dom = 2 → ∃ t : State, exec .resetAssert s = .next t ∧ t.die.tide = {} ∧ t.die.dma = [] ∧ t.die.relay = {} ∧
      t.die.serve = {} ∧ t.die.upkeep = {} ∧ t.die.boot.running = 0 ∧ t.die.boot.image = [] ∧ t.die.boot.watchdog = false ∧
      t.die.get Reg.RST_STATUS_COMPUTE = 1 ∧ t.die.boot.resets = [{ r with asserted := true }]) ∧
    (r.dom = 1 → ∃ t : State, exec .resetAssert s = .next t ∧ t.die.host.sessions = [] ∧ t.die.host.windows = [] ∧
      t.die.tide = {} ∧ t.die.serve = {} ∧ t.die.boot.running = 0 ∧ t.die.boot.resets = [{ r with asserted := true }]) ∧
    (r.dom = 3 → ∃ t : State, exec .resetAssert s = .next t ∧ t.die.host.sessions = [] ∧ t.die.host.windows = [] ∧
      t.die.host.nextId = s.die.host.nextId ∧ t.die.tide = s.die.tide) ∧
    (∀ k, r.dom = 5 + k → k < 6 → 2 ≤ s.die.lnkState k ∧ s.die.lnkState k ≤ 5 → ∃ t : State, exec .resetAssert s = .next t ∧
      t.die.lnkState k = 6) ∧
    (∀ n, r.dom = 16 + n → s.die.enabled n = true → ∃ t : State, exec .resetAssert s = .next t ∧
      (t.die.tile n).ready = false ∧ (t.die.tile n).parked = false ∧ (t.die.tile n).execs = [] ∧
      (∀ a, sramTile a = some n → t.die.byteAt a = 0) ∧ (∀ a, inTile n a = false → t.die.byteAt a = s.die.byteAt a))) ∧
  (s.die.live = true → ∀ r, s.die.boot.resets = [r] → r.asserted = true → r.cause < 16 →
    (r.dom = 2 ∨ r.dom = 1 → s.die.lowWater = false → ∃ t : State, exec .resetRelease s = .next t ∧ t.die.stage = 7 ∧
      t.die.boot.hold = true ∧ t.die.boot.resets = [] ∧ t.die.get Reg.RST_STATUS_LAST = r.cause ∧
      t.die.boot.wasCore = decide (r.dom = 1)) ∧
    (r.dom = 2 → s.die.lowWater = true → ∃ t : State, exec .resetRelease s = .next t ∧ t.die.stage = 8 ∧
      t.die.boot.resets = []) ∧
    (r.dom = 3 → ∃ t : State, exec .resetRelease s = .next t ∧ t.die.get Reg.HP_STATUS_STATE = 1 ∧
      t.die.get Reg.RST_STATUS_LAST = r.cause ∧ t.die.boot.resets = [])) ∧
  (∀ f : AtRelease, s.carrier.pwrGood = true → s.die.mgmt.powered = true → s.die.mgmt.dieReset = true →
    s.carrier.resetLow = false → s.die.mgmt.cause < 16 → ∃ t : State, exec (.moduleResetRelease f) s = .next t ∧
    t.carrier = s.carrier ∧ t.die.mgmt = { s.die.mgmt with dieReset := false, refIn := f.refIn } ∧
    t.die.get Reg.GLB_CLK_STATUS_REF_PRESENT = b2n f.refIn ∧ t.die.get Reg.GLB_CLK_STATUS_REF_SEL = b2n f.refIn ∧
    t.die.get Reg.HP_STATUS_STATE = 1 ∧ t.die.get Reg.RST_STATUS_LAST = s.die.mgmt.cause ∧
    (f.nvOk = true → t.die.boot.counted = false) ∧
    (f.nvOk = false → t.die.stage = s.die.stage ∧ t.die.get Reg.BOOT_STAGE_CODE = 8) ∧
    (f.nvOk = true → s.die.get Reg.SEC_STATUS_STATE ≠ 2 → s.die.on Reg.BOOT_START_PENDING = false →
      (s.die.get Reg.BOOT_START_FAILCNT = 3 → t.die.stage = 8 ∧ t.die.get Reg.BOOT_START_LW = 1) ∧
      (s.die.get Reg.BOOT_START_FAILCNT ≠ 3 → t.die.stage = 1))) ∧
  (s.die.live = true → s.die.boot.resets.any (fun r => !r.asserted) = true →
    exec .resetAssert s = .next { s with die := s.die.resetAssert }) ∧
  (s.die.live = true → s.die.boot.resets.any (fun r => s.die.releasable r) = true →
    exec .resetRelease s = .next { s with die := s.die.resetRelease }) ∧
  (∀ (found : AtRelease), s.carrier.pwrGood = true → s.die.mgmt.powered = true → s.die.mgmt.dieReset = true →
    s.carrier.resetLow = false →
    exec (.moduleResetRelease found) s = .next ({ s with die := s.die.moduleRelease found }))

/-! ### Parking and hangs (R521, R522, R528 to R535) -/

/-- R521, R522, R529 to R535: a park clears ENABLE and ends in PARKED, or ungated where an unpark came first; a hang is
latched with its cause, unit, one record and the grace period, a second one only counts as MULTI; at the end of GRACE the
action follows the settings; HANG_REPORT returns a stored report, newest first, its first 224 bytes in the box and all of it
at OUT_ADDR, and NO_RECORD where there is none. Wherever its conditions hold, each command completes with the effect of the
operation named for it. -/
def Obligations.ParksAndHangsRunTheirCourse : Prop := ∀ (s : State) (n : Nat), s.die.live = true →
  (∀ ag, s.die.mayControl ag = true → s.die.enabled n = true →
    (s.die.armed = true → exec (.tilePark ag n) s = .next { s with die := s.die.answer ag stBusy }) ∧
    (s.die.armed = false → (s.die.tile n).parked = false → ∃ t : State, exec (.tilePark ag n) s = .next t ∧
      t.die.get (bitOf Reg.RST_PARK n) = 1 ∧ t.die.get (Reg.ENG_CTRL_ENABLE n) = 0 ∧ (t.die.tile n).parking = true ∧
      (t.die.tile n).stopping = (s.die.tile n).dispatching ∧ SameMem s.die t.die) ∧
    ((s.die.tile n).parking = true → ∃ t : State, exec (.tileUnpark ag n) s = .next t ∧
      t.die.get (bitOf Reg.RST_PARK n) = 0 ∧ t.die.get (bitOf Reg.RST_PARK_DEFER n) = 1 ∧ (t.die.tile n).unparkDue = true) ∧
    ((s.die.tile n).parking = false → ∃ t : State, exec (.tileUnpark ag n) s = .next t ∧
      t.die.get (bitOf Reg.RST_PARK n) = 0 ∧ t.die.get (bitOf Reg.RST_PARKED n) = 0 ∧ (t.die.tile n).parked = false)) ∧
  (s.die.enabled n = true → (s.die.tile n).parking = true → (s.die.tile n).dispatching = false →
    (s.die.tile n).stopping = false → s.die.jobsDone n = true → s.die.dmaRuns (.tile n) = [] →
    ∃ t : State, exec (.parkComplete n) s = .next t ∧ (t.die.tile n).parking = false ∧
      (t.die.tile n).parked = !(s.die.tile n).unparkDue ∧
      ((s.die.tile n).unparkDue = false → t.die.get (bitOf Reg.RST_PARKED n) = 1) ∧ SameMem s.die t.die) ∧
  (∀ c, s.die.hangPossible c n = true → s.die.boot.hangOpen = false → ∃ t : State, exec (.hangDetect c n) s = .next t ∧
    t.die.get Reg.RST_HANG_STATUS_VALID = 1 ∧ t.die.get Reg.RST_HANG_STATUS_CAUSE = c ∧
    t.die.get Reg.RST_HANG_STATUS_UNIT = n % 64 ∧ t.die.boot.grace = true ∧ t.die.boot.hangOpen = true ∧
    Recorded 0x04 1 99 n s.die t.die ∧ SameMem s.die t.die ∧
    OnlyRegs (Reg.RST_HANG_STATUS :: Reg.RST_HANG_TIDE 0 :: (Reg.RST_HANG_TIDE 0 + 4) :: Reg.RST_HANG_CNT :: Reg.MON_STATUS ::
      (logRegs ++ (List.range 64).map Reg.RST_HANG_THREAD)) s.die t.die) ∧
  (∀ c, s.die.hangPossible c n = true → s.die.boot.hangOpen = true → ∃ t : State, exec (.hangDetect c n) s = .next t ∧
    t.die.get Reg.RST_HANG_STATUS_MULTI = 1 ∧ OtherBits Reg.RST_HANG_STATUS_MULTI s.die t.die ∧
    OnlyRegs [Reg.RST_HANG_STATUS] s.die t.die) ∧
  (s.die.hangPossible 4 0 = true → exec .lhWatchdogExpiry s = exec (.hangDetect 4 0) s ∧
    ∃ t : State, exec .lhWatchdogExpiry s = .next t ∧ t.die.boot.hangOpen = true) ∧
  (∀ ag, s.die.mayControl ag = true → exec (.lhKick ag) s = .next { s with die := s.die.answer ag stOk } ∧
    ∃ t : State, exec (.hangStatusClear ag) s = .next t ∧ t.die.getW Reg.RST_HANG_STATUS = 0 ∧ t.die.boot.hangOpen = false ∧
      OnlyRegs [Reg.RST_HANG_STATUS, Reg.RST_HANG_TIDE 0, Reg.RST_HANG_TIDE 0 + 4] s.die t.die) ∧
  (s.die.boot.grace = true → ∃ t : State, exec .hangGraceExpiry s = .next t ∧ t.die.boot.grace = false ∧
    (s.die.on Reg.RST_HANG_CFG_AUTO = false → t.die.get Reg.RST_HANG_STATUS_ACTION = 3 ∧
      t.die.boot.resets = s.die.boot.resets) ∧
    (s.die.on Reg.RST_HANG_CFG_AUTO = true → s.die.recent 5 = false → s.die.boot.resets = [] →
      s.die.get Reg.RST_HANG_STATUS_CAUSE = 2 ∨ s.die.get Reg.RST_HANG_STATUS_CAUSE = 3 →
      t.die.get Reg.RST_HANG_STATUS_ACTION = 2 ∧ t.die.boot.resets = [{ dom := 1, cause := 5 }])) ∧
  (s.die.on Reg.RST_HANG_CFG_REPLAY = true → ∃ t : State, exec .replayTimeout s = .next t ∧
    t.die.get Reg.RST_HANG_CFG_REPLAY = 0 ∧ OtherBits Reg.RST_HANG_CFG_REPLAY s.die t.die ∧
    OnlyRegs [Reg.RST_HANG_CFG] s.die t.die ∧ SameMem s.die t.die) ∧
  (∀ box idx, s.die.boxReady box = true →
    (∀ r, s.die.boot.reports[idx]? = some r → ∃ t : State, exec (.hangReport box idx) s = .next t ∧
      Replied box rcOk (r.take 224) t.die ∧ (t.die.box box).outBytes = r ∧ t.die.regs = s.die.regs) ∧
    (s.die.boot.reports[idx]? = none → ∃ t : State, exec (.hangReport box idx) s = .next t ∧
      Replied box rcNoRecord [] t.die)) ∧
  (∀ (ag : Agent) (tile : Nat), s.die.mayControl ag = true → tile < 64 →
    exec (.tilePark ag tile) s = .next { s with die := s.die.tilePark ag tile }) ∧
  (∀ (ag : Agent) (tile : Nat), s.die.mayControl ag = true → tile < 64 →
    exec (.tileUnpark ag tile) s = .next { s with die := s.die.tileUnpark ag tile }) ∧
  (∀ (cause unit : Nat), s.die.hangPossible cause unit = true →
    exec (.hangDetect cause unit) s = .next { s with die := s.die.hang cause unit }) ∧
  (s.die.boot.grace = true → exec .hangGraceExpiry s = .next { s with die := s.die.graceEnd })

/-! ### Security (R537 to R562) -/

/-- R538, R539, R545, R552, R554 to R558, R560, R561: the SEC block takes writes from owner sessions only, and answers ROLE
with one record SEC 2 to anyone else. For an owner: UNLOCK leaves LOCKED unless SEC_ALARM_N is low; clearing DEBUG_EN
withdraws DEBUG from every session; a policy is never lowered outside NORMAL; SVN_MIN only rises; root bits are only set, and
never the last one; a key command counts, shows its result, and changes its slot only where the result is 0. Wherever its
conditions hold, each command completes with the effect of the operation named for it. -/
def Obligations.SecurityBlockObeysOwnersOnly : Prop := ∀ (s : State) (ag : Agent) (w : Nat), s.die.live = true →
  s.die.mayWrite ag = true → w < 2 ^ 32 →
  (s.die.isOwner ag = false → ∀ c ∈ [Instr.keyWrite ag w, .unlock ag, .debugEnWrite ag true, .debugEnWrite ag false,
      .policyWrite ag w, .svnMinWrite ag w, .rootRevoke ag w],
    ∃ t : State, exec c s = .next t ∧ t.pending = s.pending ∧ t.carrier = s.carrier ∧ t.die.sec = s.die.sec ∧
      t.die.nv = s.die.nv ∧ Recorded 0x0A 2 95 0xFFFF s.die t.die ∧ t.die.out.head? = some (.status ag stRole) ∧
      OnlyRegs logRegs s.die t.die ∧ SameMem s.die t.die) ∧
  (s.die.isOwner ag = true →
    (s.die.sec.extLow = true → ∃ t : State, exec (.unlock ag) s = .next t ∧ t.die.secState = s.die.secState ∧
      t.die.out.head? = some (.status ag stBusy) ∧ OnlyRegs logRegs s.die t.die) ∧
    (s.die.sec.extLow = false → s.die.secState = 1 → ∃ t : State, exec (.unlock ag) s = .next t ∧ t.die.secState = 0 ∧
      OnlyRegs [Reg.SEC_STATUS] s.die t.die ∧ SameMem s.die t.die) ∧
    (∃ t : State, exec (.debugEnWrite ag true) s = .next t ∧ t.die.get Reg.SEC_CTRL_DEBUG_EN = 1 ∧
      OnlyRegs [Reg.SEC_CTRL] s.die t.die ∧ t.die.host = s.die.host) ∧
    (∃ t : State, exec (.debugEnWrite ag false) s = .next t ∧ t.die.get Reg.SEC_CTRL_DEBUG_EN = 0 ∧ t.die.injectors = [] ∧
      ∀ n x, t.die.session n = some x → bit x.roles 3 = false) ∧
    ((∀ i, i < 6 → bits w (2 * i) 2 ≠ 3) →
      (s.die.secState = 0 → ∃ t : State, exec (.policyWrite ag w) s = .next t ∧
        t.die.get Reg.SEC_POLICY_POL = bits w 0 12 ∧ OnlyRegs [Reg.SEC_POLICY] s.die t.die) ∧
      (s.die.secState ≠ 0 → policyLowers (s.die.get Reg.SEC_POLICY_POL) (bits w 0 12) = true → ∃ t : State,
        exec (.policyWrite ag w) s = .next t ∧ t.die.get Reg.SEC_POLICY_POL = s.die.get Reg.SEC_POLICY_POL ∧
        t.die.out.head? = some (.status ag stBusy))) ∧
    (∃ t : State, exec (.svnMinWrite ag w) s = .next t ∧
      (t.die.getW Reg.SEC_SVN_MIN).toNat = max w (s.die.getW Reg.SEC_SVN_MIN).toNat ∧
      OnlyRegs (Reg.SEC_SVN_MIN :: logRegs) s.die t.die) ∧
    (∃ t : State, exec (.rootRevoke ag w) s = .next t ∧
      t.die.get Reg.SEC_ROOT_REVOKE_REVOKED =
        (if (s.die.get Reg.SEC_ROOT_REVOKE_REVOKED ||| bits w 0 4) = 15 then s.die.get Reg.SEC_ROOT_REVOKE_REVOKED
         else s.die.get Reg.SEC_ROOT_REVOKE_REVOKED ||| bits w 0 4) ∧
      OnlyRegs (Reg.SEC_ROOT_REVOKE :: logRegs) s.die t.die) ∧
    (bit w 31 = true → ∃ t : State, exec (.keyWrite ag w) s = .next t ∧
      t.die.getW Reg.SEC_KEY_CNT = s.die.getW Reg.SEC_KEY_CNT + 1 ∧
      t.die.get Reg.SEC_KEY_CMD_RESULT = (s.die.keyResult ag (bits w 0 3) (bits w 4 3)).1 ∧
      ((s.die.keyResult ag (bits w 0 3) (bits w 4 3)).1 ≠ 0 → t.die.nv = s.die.nv ∧ t.die.host = s.die.host) ∧
      ((s.die.keyResult ag (bits w 0 3) (bits w 4 3)).1 = 0 →
        t.die.keyOf (bits w 0 3) = (s.die.keyResult ag (bits w 0 3) (bits w 4 3)).2 ∧
        t.die.get (Reg.SEC_SLOT_ACTIVE (bits w 0 3)) = bits w 4 1 ∧ t.die.get (Reg.SEC_SLOT_OWNER (bits w 0 3)) = bits w 5 1 ∧
        t.die.get (Reg.SEC_SLOT_DEBUG (bits w 0 3)) = bits w 6 1))) ∧
  (exec (.keyWrite ag w) s = .next { s with die := s.die.secWrite ag Reg.SEC_KEY_CMD w (fun e => e.keyWrite ag w) }) ∧
  (exec (.unlock ag) s = .next { s with die := s.die.secWrite ag Reg.SEC_CTRL 0x80000000 (fun e => e.unlock ag) }) ∧
  (exec (.policyWrite ag w) s = .next { s with die := s.die.secWrite ag Reg.SEC_POLICY w (fun e => e.policyWrite ag w) })

/-- R546 to R550, R553, R562: an alarm latches its source, is recorded and alerts, and the strongest policy of the latched
sources acts: LOCK ends every session and locks, ERASE erases, LOG does neither; the erasure leaves no key; detectors arm
once. ATTEST consumes one index for each new signature and answers with the last report where it is cached; ATTEST_CFG serves
owner sessions within its range. Wherever its conditions hold, each command completes with the effect of the operation named
for it. -/
def Obligations.AlarmsAndAttestationKeepTheirRules : Prop := ∀ s : State,
  (s.die.live = true → ∀ src, src < 6 → (s.die.sec.armed = true ∨ src = 3 ∨ src = 4) →
    ∃ t : State, exec (.securityAlarm src) s = .next t ∧ t.pending = s.pending ∧ t.carrier = s.carrier ∧
      t.die.get Reg.SEC_ALARM_SRC = setBits (s.die.get Reg.SEC_ALARM_SRC) src 1 1 ∧ Recorded 0x0A 1 95 0xFFFF s.die t.die ∧
      bit (t.die.get Reg.STL_ALERT_BITS) 7 = true ∧
      (∀ d1 : Die, d1 = s.die.put Reg.SEC_ALARM_SRC (setBits (s.die.get Reg.SEC_ALARM_SRC) src 1 1) →
        (d1.strongest = 0 → t.die.secState = s.die.secState) ∧
        (d1.strongest = 1 → s.die.sec.respRunning < 2 → t.die.host.sessions = [] ∧
          t.die.secState = (if s.die.secState = 0 then 1 else s.die.secState)) ∧
        (d1.strongest = 2 → s.die.sec.respRunning < 3 → t.die.host.sessions = [] ∧
          t.die.secState = (if s.die.secState = 3 then 3 else 2)))) ∧
  (s.die.secState = 2 → ∃ t : State, exec .eraseDone s = .next t ∧ t.die.secState = 3 ∧ t.die.nv = { s.die.nv with keys := [] } ∧
    (∀ i, i < 8 → t.die.getW (Reg.SEC_SLOT i) = 0) ∧
    OnlyRegs (Reg.SEC_STATUS :: (List.range 8).map Reg.SEC_SLOT) s.die t.die ∧ SameMem s.die t.die) ∧
  (s.die.live = true → s.die.sec.armed = false →
    exec .detectorArm s = .next { s with die := { s.die with sec := { s.die.sec with armed := true } } }) ∧
  (∀ box, s.die.boxReady box = true →
    (∀ nonce : List Byte, nonce.length = 32 →
      (s.die.get Reg.SEC_XMSS_LEFT_LEFT = 0 → ∃ t : State, exec (.attest box nonce) s = .next t ∧
        Replied box rcExhausted [] t.die ∧ t.die.nv = s.die.nv) ∧
      (s.die.get Reg.SEC_XMSS_LEFT_LEFT ≠ 0 → s.die.attestCached box nonce = true → ∃ t : State,
        exec (.attest box nonce) s = .next t ∧ Replied box rcCached (s.die.sec.lastReport.getD []) t.die ∧
        t.die.nv = s.die.nv ∧ t.die.regs = s.die.regs) ∧
      (s.die.get Reg.SEC_XMSS_LEFT_LEFT ≠ 0 → s.die.attestCached box nonce = false → ∃ t : State,
        exec (.attest box nonce) s = .next t ∧ ∃ sig : List Byte, ∃ full : List Byte,
        full = s.die.attestReport nonce (1048576 - s.die.get Reg.SEC_XMSS_LEFT_LEFT) ++ sig ∧ Replied box rcOk full t.die ∧
        t.die.sec.lastReport = some full ∧
        t.die.get Reg.SEC_XMSS_LEFT_LEFT = s.die.get Reg.SEC_XMSS_LEFT_LEFT - 1 ∧
        t.die.nv.xmssIndex = 1048576 - s.die.get Reg.SEC_XMSS_LEFT_LEFT + 1 ∧
        OnlyRegs [Reg.SEC_XMSS_LEFT] s.die t.die)) ∧
    (∃ t : State, exec (.attestCert box) s = .next t ∧ Replied box rcOk s.die.nv.cert t.die ∧ t.die.regs = s.die.regs ∧
      SameMem s.die t.die) ∧
    (∀ n, s.die.boxOwnerSession box = false → ∃ t : State, exec (.attestCfg box n) s = .next t ∧ Replied box stRole [] t.die ∧
      t.die.sec = s.die.sec) ∧
    (∀ n, s.die.boxOwnerSession box = true → n < 60 ∨ 86400 < n → ∃ t : State, exec (.attestCfg box n) s = .next t ∧
      Replied box rcRange [] t.die ∧ t.die.sec = s.die.sec) ∧
    (∀ n, s.die.boxOwnerSession box = true → 60 ≤ n → n ≤ 86400 → ∃ t : State, exec (.attestCfg box n) s = .next t ∧
      Replied box rcOk [] t.die ∧ t.die.sec = { s.die.sec with attMin := n })) ∧
  (∀ (src : Nat), s.die.live = true → src < 6 → (s.die.sec.armed || src == 3 || src == 4) = true →
    exec (.securityAlarm src) s = .next { s with die := s.die.raiseAlarm src }) ∧
  (∀ (box : Nat) (nonce : List Byte), s.die.boxReady box = true →
    exec (.attest box nonce) s = .next { s with die := s.die.attest box nonce })

/-! ### Monitors, power and heat (R476 to R501) -/

/-- R478 to R481, R485, R488, R494 to R496: both regular sequences start together, or are dropped with OVERRUN; a trigger
waits, is merged, or interrupts a regular sequence; the pending source of highest priority starts next; each conversion
leaves its result word; an enable during a power-down is deferred to its end. Wherever its conditions hold, each command
completes with the effect of the operation named for it. -/
def Obligations.ConvertersRunTheirSequences : Prop := ∀ s : State, s.die.live = true →
  (s.die.convOn 0 = true → s.die.convOn 1 = true → (∀ c, c < 2 → (s.die.conv c).run = none ∧ (s.die.conv c).resume = [] ∧
      (s.die.conv c).pending = []) → ∃ t : State, exec .monRegularStart s = .next t ∧
    (t.die.conv 0).run = some (0, s.die.maskOf 0) ∧ (t.die.conv 1).run = some (0, s.die.maskOf 1) ∧
    t.die.get (runBit 0) = 1 ∧ t.die.get (runBit 1) = 1 ∧ OnlyRegs [Reg.MON_STATUS] s.die t.die ∧ SameMem s.die t.die) ∧
  (∀ l, s.die.convOn 0 = true → (s.die.conv 0).run = some (0, l) → ∃ t : State, exec .monRegularStart s = .next t ∧
    t.die.conv 0 = s.die.conv 0 ∧ t.die.get Reg.MON_STATUS_OVERRUN = 1 ∧ OnlyRegs [Reg.MON_STATUS] s.die t.die) ∧
  (∀ src, 1 ≤ src → src ≤ 5 → s.die.convOn 0 = true → s.die.jseq 0 src ≠ [] →
    ((s.die.conv 0).pending.any (fun p => p.1 == src) = true → ∃ t : State, exec (.injectedTrigger src) s = .next t ∧
      t.die.conv 0 = s.die.conv 0 ∧ t.die.get Reg.MON_STATUS_MERGED = 1 ∧ OnlyRegs [Reg.MON_STATUS] s.die t.die) ∧
    (∀ rest, (s.die.conv 0).pending.any (fun p => p.1 == src) = false → (s.die.conv 0).run = some (0, rest) →
      ∃ t : State, exec (.injectedTrigger src) s = .next t ∧ t.die.sense.disturbed = true ∧
      t.die.conv 0 = { s.die.conv 0 with
        run := none, resume := rest, pending := (s.die.conv 0).pending ++ [(src, [])] })) ∧
  (∀ c src, c < 2 → (s.die.conv c).run = none → nextSource (s.die.conv c).pending = some src → ∃ t : State,
    exec (.injectedSequenceStart c) s = .next t ∧ (t.die.conv c).run = some (src, s.die.jseq c src) ∧
    (t.die.conv c).index = 0 ∧ (∀ p ∈ (t.die.conv c).pending, p.1 ≠ src) ∧ OnlyRegs [Reg.MON_CTRL] s.die t.die) ∧
  (∀ ag, s.die.mayControl ag = true →
    (∃ t : State, exec (.monSoft ag) s = .next t ∧ t.die.get Reg.MON_CTRL_SOFT = 1 ∧
      OnlyRegs [Reg.MON_CTRL, Reg.MON_STATUS] s.die t.die ∧ t.die.out.head? = some (.status ag stOk)) ∧
    (∃ t : State, exec (.thmRead ag) s = .next t ∧ t.die.get Reg.THM_CTRL_READ = 1 ∧
      OnlyRegs [Reg.THM_CTRL, Reg.MON_STATUS] s.die t.die ∧ t.die.out.head? = some (.status ag stOk)) ∧
    (∀ w, w < 2 ^ 32 → ∃ t : State, exec (.monEnableWrite ag w) s = .next t ∧ t.die.get Reg.MON_CTRL_EN_A = bits w 0 1 ∧
      t.die.get Reg.MON_CTRL_EN_B = bits w 1 1 ∧ t.die.get Reg.MON_CTRL_EN_INT = bits w 2 1 ∧
      (s.die.on Reg.MON_CTRL_EN_A = true → bits w 0 1 = 0 → (t.die.conv 0).downing = true ∧ t.die.get (runBit 0) = 0) ∧
      (s.die.on Reg.MON_CTRL_EN_A = false → bits w 0 1 = 1 → (s.die.conv 0).downing = true →
        t.die.get (deferBit 0) = 1))) ∧
  (s.die.fwRuns = true → ∃ t : State, exec .thermPeriodTick s = .next t ∧ t.die.get Reg.THM_CTRL_READ = 1 ∧
    OnlyRegs [Reg.THM_CTRL, Reg.MON_STATUS] s.die t.die) ∧
  (∀ c raw src ch rest, c < 2 → raw < 4096 → (s.die.conv c).run = some (src, ch :: rest) → rest ≠ [] → ch ≠ 0 → ch ≠ 12 →
    ∃ (t : State) (r : Nat), exec (.sarConversionDone c raw) s = .next t ∧
    r = (if src = 0 then (if c = 0 then Reg.MON_RES_A ch else Reg.MON_RES_B ch)
      else if c = 0 then Reg.MON_JRES_A (s.die.conv c).index else Reg.MON_JRES_B (s.die.conv c).index) ∧
    t.die.getW r = w32 (resWord (s.die.monValue c ch raw) src raw) ∧ OnlyRegs [r] s.die t.die ∧
    t.die.conv c = { s.die.conv c with
      run := some (src, rest), index := (s.die.conv c).index + 1 }) ∧
  (∀ raw src rest, raw < 4096 → (s.die.conv 0).run = some (src, 12 :: rest) → ∃ t : State,
    exec (.sarConversionDone 0 raw) s = .next t ∧ t.die.get Reg.THM_DIODE_TEMP = enc 16 (s.die.monValue 0 12 raw) ∧
    t.die.get Reg.THM_DIODE_VALID = 1 ∧ t.die.get Reg.THM_CTRL_READ = 0 ∧ SameMem s.die t.die) ∧
  (∀ c raw rest, c < 2 → raw < 4096 → (s.die.conv c).run = some (0, 0 :: rest) → ∃ t : State,
    exec (.sarConversionDone c raw) s = .next t ∧
    t.die.getW (if c = 0 then Reg.MON_RES_A 0 else Reg.MON_RES_B 0) = w32 (resWord (s.die.monValue c 0 raw) 0 raw)) ∧
  (∀ c, c < 2 → (s.die.conv c).run = none → (s.die.conv c).pending = [] → ∃ t : State, exec (.sarPowerDown c) s = .next t ∧
    t.die.conv c = { s.die.conv c with powered := false } ∧ t.die.regs = s.die.regs ∧ SameMem s.die t.die) ∧
  (∀ u, u < 2 → (s.die.conv u).downing = true → ∃ t : State, exec (.monitorPowerDownDone u) s = .next t ∧
    (t.die.conv u).downing = false ∧ (t.die.conv u).powered = s.die.on (deferBit u) ∧ t.die.get (deferBit u) = 0) ∧
  (s.die.sense.intDowning = true → ∃ t : State, exec (.monitorPowerDownDone 2) s = .next t ∧
    t.die.sense.intDowning = false ∧ t.die.sense.settled = false ∧ t.die.get (deferBit 2) = 0) ∧
  ((s.die.convOn 0 || s.die.convOn 1) = true → exec .monRegularStart s = .next { s with
    die := (({ s.die with sense := { s.die.sense with disturbed := false } } : Die).regularDue 0).regularDue 1 }) ∧
  (∀ (conv raw : Nat), conv < 2 → raw < 4096 → (s.die.conv conv).run.isSome = true →
    exec (.sarConversionDone conv raw) s = .next { s with die := s.die.sarDone conv raw }) ∧
  (∀ (source : Nat), 1 ≤ source → source ≤ 5 →
    exec (.injectedTrigger source) s = .next { s with die := s.die.trigger source }) ∧
  (∀ (conv : Nat), conv < 2 → (s.die.conv conv).run.isNone = true → (s.die.conv conv).pending.isEmpty = false →
    exec (.injectedSequenceStart conv) s = .next { s with die := s.die.startInjected conv })

/-- R21, R32, R483, R484, R489, R490, R492: the guard fires with its cause, merges PWR_FAST into the demand and lets it go
when its hold ends; samples and windows add up the energy; the cap loop moves its settings by the power against the cap; the
trip latches, gates the clocks of an unarmed module at once, and is released; the average of the junction is stored. Wherever
its conditions hold, each command completes with the effect of the operation named for it. -/
def Obligations.GuardIntegratorsAndTripAct : Prop := ∀ s : State, s.die.live = true →
  (∃ t : State, exec .powerAlarm s = .next t ∧ t.die.get Reg.PWR_GUARD_CAUSE = 1 ∧ t.die.get Reg.PWR_GUARD_G1 = 1 ∧
    t.die.get Reg.PWR_GUARD_ACTIVE = 1 ∧ t.die.getW Reg.TIDE_THROTTLE = w32 (mergeThrottle s.die.sense.demand s.die.fastDemand) ∧
    Recorded 0x02 1 99 0xFFFF s.die t.die ∧ SameMem s.die t.die ∧
    OnlyRegs (Reg.PWR_GUARD :: Reg.TIDE_THROTTLE :: Reg.MON_STATUS :: logRegs) s.die t.die) ∧
  (8000 ≤ s.die.sense.g2 → s.die.sense.g2Fired = false → ∃ t : State, exec .guardG2Expiry s = .next t ∧
    t.die.get Reg.PWR_GUARD_CAUSE = 2 ∧ t.die.get Reg.PWR_GUARD_G2 = 1 ∧ t.die.sense.g2Fired = true ∧
    Recorded 0x02 1 99 0xFFFF s.die t.die ∧ OnlyRegs (Reg.PWR_GUARD :: Reg.TIDE_THROTTLE :: logRegs) s.die t.die) ∧
  (s.die.on Reg.PWR_GUARD_ACTIVE = true → s.die.guardPresent = false → ∃ t : State, exec .guardHoldExpiry s = .next t ∧
    t.die.get Reg.PWR_GUARD_ACTIVE = 0 ∧ t.die.getW Reg.TIDE_THROTTLE = w32 s.die.sense.demand ∧
    OnlyRegs [Reg.PWR_GUARD, Reg.TIDE_THROTTLE] s.die t.die ∧ t.die.sense = s.die.sense) ∧
  (∀ v i, s.die.intSilent = false → ∃ t : State, exec (.intSample v i) s = .next t ∧
    t.die.sense.samples = s.die.sense.samples + 1 ∧ t.die.sense.vSum = s.die.sense.vSum + s.die.intReading 2 v ∧
    t.die.sense.iSum = s.die.sense.iSum + s.die.intReading 3 i ∧
    t.die.sense.acc = s.die.sense.acc + s.die.intReading 2 v * s.die.intReading 3 i / 1000 ∧ SameMem s.die t.die) ∧
  (s.die.intSilent = false → (∀ p ∈ s.die.sense.scalNext, p.1 < 4) → ∃ t : State, exec .intWindowEnd s = .next t ∧
    t.die.getW Reg.MON_INT_E = w32 (s.die.sense.acc / 1000) ∧
    t.die.get64 (Reg.MON_ENERGY 0) = (s.die.get64 (Reg.MON_ENERGY 0) + s.die.sense.acc / 1000) % 2 ^ 64 ∧
    t.die.sense.acc = s.die.sense.acc % 1000 ∧ t.die.sense.samples = 0 ∧ t.die.sense.scalNext = [] ∧
    t.die.tenancy.energy = (if s.die.computeHeld then s.die.tenancy.energy else s.die.tenancy.energy ++ [(s.die.sense.acc / 1000, s.die.sense.winStart, s.die.now)])) ∧
  (s.die.on Reg.MON_CTRL_EN_INT = true → s.die.sense.settled = false → s.die.sense.intDowning = false → ∃ t : State,
    exec .intSettled s = .next t ∧ t.die.intSilent = false ∧ t.die.get (runBit 2) = 1 ∧
    OnlyRegs [Reg.MON_STATUS] s.die t.die) ∧
  (s.die.fwRuns = true → s.die.sense.fired = false → s.die.on Reg.PWR_GUARD_ACTIVE = false →
    (∀ p, p = (s.die.sense.means.take 10).sum / max 1 (s.die.sense.means.take 10).length →
      (p ≤ s.die.sense.cap * 1000 → 98 * s.die.sense.cap * 1000 ≤ p * 100 → ∃ t : State, exec .capLoop s = .next t ∧
        t.die.sense.sCap = s.die.sense.sCap ∧ t.die.sense.kCap = s.die.sense.kCap ∧
        OnlyRegs [Reg.TIDE_THROTTLE] s.die t.die) ∧
      (s.die.sense.cap * 1000 < p → 255 ≤ s.die.sense.sCap → s.die.sense.kCap = 0 → ∃ t : State, exec .capLoop s = .next t ∧
        t.die.sense.kCap = 8 ∧ OnlyRegs [Reg.TIDE_THROTTLE] s.die t.die) ∧
      (p * 100 < 98 * s.die.sense.cap * 1000 → s.die.sense.kCap = 0 → ∃ t : State, exec .capLoop s = .next t ∧
        t.die.sense.sCap = s.die.sense.sCap - 1 ∧ OnlyRegs [Reg.TIDE_THROTTLE] s.die t.die))) ∧
  (s.die.on Reg.THM_TRIP_TRIP = false → s.die.armed = false → ∃ t : State, exec .thermalTrip s = .next t ∧
    t.die.get Reg.THM_TRIP_TRIP = 1 ∧ t.die.get Reg.THM_TRIP_TRIPPED = 1 ∧ t.die.mgmt.tripLow = true ∧
    t.die.sense.gated = true ∧ Recorded 0x09 1 94 0xFFFF s.die t.die ∧ SameMem s.die t.die ∧
    OnlyRegs (Reg.THM_TRIP :: Reg.THM_TRIP_CNT :: logRegs) s.die t.die) ∧
  (s.die.on Reg.THM_TRIP_TRIP = false → s.die.armed = true → s.die.tide.fault = none → ∃ t : State,
    exec .thermalTrip s = .next t ∧ t.die.tide.fault = some (6, s.die.coord) ∧ t.die.tide.stopNow = true) ∧
  (s.die.on Reg.THM_TRIP_TRIP = true → ∃ t : State, exec .thermalTripRelease s = .next t ∧
    t.die.get Reg.THM_TRIP_TRIP = 0 ∧ t.die.get Reg.THM_TRIP_RELEASING = 0 ∧ t.die.sense.gated = false ∧
    t.die.mgmt.tripLow = false ∧ OnlyRegs [Reg.THM_TRIP] s.die t.die) ∧
  (s.die.fwRuns = true →
    ∃ t : State, exec .junctionAvgStore s = .next t ∧ t.die.junctionAvg = s.die.junctionAvg ∧ t.die = { s.die with
      nv := { s.die.nv with
        jctSum := s.die.nv.jctSum + s.die.sense.hourSum, jctCount := s.die.nv.jctCount + s.die.sense.hourCount }
      sense := { s.die.sense with hourSum := 0, hourCount := 0 } }) ∧
  (s.die.intSilent = false → exec .intWindowEnd s = .next { s with die := s.die.windowEnd false }) ∧
  (s.die.fwRuns = true → exec .capLoop s = .next { s with die := s.die.capLoop }) ∧
  (s.die.on Reg.THM_TRIP_TRIP = false → exec .thermalTrip s = .next { s with die := s.die.thermalTrip })

/-- R486, R501: the power, thermal and calibration commands answer RANGE, STATE, UNSTABLE, SPAN or LIMIT and change nothing,
or take their settings; POWER_STATUS lists its figures. Wherever its conditions hold, each command completes with the effect
of the operation named for it. -/
def Obligations.PowerCommandsAnswerInRange : Prop := ∀ (s : State) (box : Nat), s.die.boxReady box = true →
  (∀ cap floor step, cap < 300 ∨ 750 < cap ∨ 64 < step ∨ 2 < bits floor 16 16 → ∃ t : State,
    exec (.powerCfg box cap floor step) s = .next t ∧ Replied box rcRange [] t.die ∧ t.die.sense = s.die.sense ∧
    t.die.regs = s.die.regs) ∧
  (∀ cap floor step, 300 ≤ cap → cap ≤ 750 → step ≤ 64 → bits floor 16 16 ≤ 2 → ∃ t : State,
    exec (.powerCfg box cap floor step) s = .next t ∧ Replied box rcOk [] t.die ∧ t.die.sense.cap = cap ∧
    t.die.sense.floor = floor ∧ t.die.sense.guardStep = step ∧ OnlyRegs [Reg.TIDE_THROTTLE] s.die t.die) ∧
  (∀ p w c, p < 1 ∨ 1000 < p ∨ w < 70 ∨ 110 < w ∨ c < w + 2 ∨ 112 < c → ∃ t : State,
    exec (.thermCfg box p w c) s = .next t ∧ Replied box rcRange [] t.die ∧ t.die.sense = s.die.sense) ∧
  (∀ p w c, 1 ≤ p → p ≤ 1000 → 70 ≤ w → w ≤ 110 → w + 2 ≤ c → c ≤ 112 → ∃ t : State,
    exec (.thermCfg box p w c) s = .next t ∧ Replied box rcOk [] t.die ∧
    t.die.sense = { s.die.sense with period := p, warn := w, crit := c } ∧ t.die.regs = s.die.regs) ∧
  (∀ p : SyscalParams,
    (pointUnstable p = true → ∃ t : State, exec (.syscalPoint box p) s = .next t ∧ Replied box rcUnstable [] t.die ∧
      t.die.sense = s.die.sense) ∧
    (pointUnstable p = false → p.high = true → look s.die.sense.points (b2n p.current * 2) = none → ∃ t : State,
      exec (.syscalPoint box p) s = .next t ∧ Replied box rcState [] t.die ∧ t.die.sense = s.die.sense) ∧
    (∀ low, pointUnstable p = false → p.high = true → look s.die.sense.points (b2n p.current * 2) = some low →
      p.reference < low.1 + 5000 → ∃ t : State, exec (.syscalPoint box p) s = .next t ∧ Replied box rcSpan [] t.die ∧
      t.die.sense = s.die.sense) ∧
    (pointUnstable p = false → p.high = false → ∃ t : State, exec (.syscalPoint box p) s = .next t ∧
      Replied box rcOk (s.die.pointReply p) t.die ∧ look t.die.sense.points (b2n p.current * 2 + 1) = none ∧
      look t.die.sense.points (b2n p.current * 2) = some (p.reference, p.sarMean, p.intMean)) ∧
    (∀ low, pointUnstable p = false → p.high = true → look s.die.sense.points (b2n p.current * 2) = some low →
      low.1 + 5000 ≤ p.reference → ∃ t : State, exec (.syscalPoint box p) s = .next t ∧
      Replied box rcOk (s.die.pointReply p) t.die ∧
      t.die.sense.points = keep s.die.sense.points (b2n p.current * 2 + 1) (p.reference, p.sarMean, p.intMean))) ∧
  (∀ i, look s.die.sense.points (i % 2 * 2) = none → ∃ t : State, exec (.syscalCommit box i) s = .next t ∧
    Replied box rcState [] t.die ∧ t.die.sense = s.die.sense ∧ t.die.nv = s.die.nv) ∧
  (∀ i l h a b, look s.die.sense.points (i % 2 * 2) = some l → look s.die.sense.points (i % 2 * 2 + 1) = some h →
    solveCoeff (l.1, l.2.1) (h.1, h.2.1) = some a → solveCoeff (l.1, l.2.2) (h.1, h.2.2) = some b → ∃ t : State,
    exec (.syscalCommit box i) s = .next t ∧ Replied box rcOk [] t.die ∧ t.die.sense.scalNext = s.die.scalOther (i % 2) ++
      [(i % 2, enc 16 a.1, enc 16 a.2), (i % 2 + 2, enc 16 b.1, enc 16 b.2)]) ∧
  (∀ i, ∃ t : State, exec (.syscalReset box i) s = .next t ∧ Replied box rcOk [] t.die ∧
    t.die.sense.scalNext = s.die.scalOther (i % 2) ∧
    (if i % 2 = 0 then t.die.nv.scalV else t.die.nv.scalI) = false ∧ t.die.regs = s.die.regs) ∧
  (∃ (t : State) (bs : List Byte), exec (.powerStatus box) s = .next t ∧ Replied box rcOk bs t.die ∧ bs.length = 48 ∧
    leAt bs 0 4 = s.die.sense.cap % 2 ^ 32 ∧ leAt bs 40 4 = s.die.sense.guardCount % 2 ^ 32 ∧ t.die.regs = s.die.regs) ∧
  (∀ i, (look s.die.sense.points (i % 2 * 2) = none ∨ look s.die.sense.points (i % 2 * 2 + 1) = none → ∃ t : State,
      exec (.syscalCommit box i) s = .next t ∧ Replied box rcState [] t.die ∧ t.die.sense = s.die.sense) ∧
    (∀ l h, look s.die.sense.points (i % 2 * 2) = some l → look s.die.sense.points (i % 2 * 2 + 1) = some h →
      solveCoeff (l.1, l.2.1) (h.1, h.2.1) = none ∨ solveCoeff (l.1, l.2.2) (h.1, h.2.2) = none → ∃ t : State,
      exec (.syscalCommit box i) s = .next t ∧ Replied box rcLimit [] t.die ∧ t.die.sense = s.die.sense))

/-! ### Tile engines: operations (R174 to R178, R181 to R196, R214, R368, R580) -/

/-- R97, R174, R176, R186, R188, R190, R191, R194: a descriptor that is well formed, ready and refused nowhere is carried out by its
operation, whatever the values it works on, and changes no byte of memory outside the ranges of tile SRAM that its operands name: what
LOAD, STORE and KV_WRITE move to or from DRAM are requests. A STROKE is carried out once the input register of every array it strokes
is free, and waits while that of its next one is not. -/
def Obligations.CleanDescriptorsRunInsideTheirOperands : Prop := ∀ (s : State) (n th : Nat) (c : Desc),
  s.die.runsClean n th c = true →
  (∀ k : Instr × Nat, k ∈ [(.nop n th c, ocNop), (.copy n th c, ocCopy), (.fill n th c, ocFill), (.bufWait n th c, ocBufWait),
      (.bufSet n th c, ocBufSet), (.event n th c, ocEvent), (.load n th c, ocLoad), (.store n th c, ocStore),
      (.rotate n th c, ocRotate), (.quantA n th c, ocQuantA), (.refStroke n th c, ocRefStroke),
      (.vsum n th c, ocVsum), (.squant n th c, ocSquant), (.sdeq n th c, ocSdeq), (.linear n th c, ocLinear),
      (.softmax n th c, ocSoftmax), (.norm n th c, ocNorm), (.act n th c, ocAct), (.ewise n th c, ocEwise),
      (.posrot n th c, ocPosrot), (.steer n th c, ocSteer), (.kvWrite n th c, ocKvWrite), (.select n th c, ocSelect)] →
    descOp c = k.2 → ∃ t : State, exec k.1 s = .next t ∧ t.pending = s.pending ∧ t.carrier = s.carrier ∧ Ran n th c t.die ∧
      ∀ a, (∀ x ∈ s.die.dstSpans n c, a < s.die.rgnAddr n x.rgn x.off ∨ s.die.rgnAddr n x.rgn x.off + x.len ≤ a) →
        t.die.byteAt a = s.die.byteAt a) ∧
  (∀ e, descOp c = ocStroke → s.die.runnable n th c = some e → e.units ≤ descCount c →
    (∀ i, i < descCount c → s.die.inputFree n (strokeArray c i) = true) →
    (∀ i j a, i < j → j < descCount c → s.die.serving n (strokeArray c i) = some a → s.die.serving n (strokeArray c j) ≠ some a) →
    ∃ t : State, exec (.stroke n th c) s = .next t ∧ t.pending = s.pending ∧ t.carrier = s.carrier ∧ Ran n th c t.die ∧
      SameMem s.die t.die) ∧
  (∀ e, descOp c = ocStroke → s.die.runnable n th c = some e → e.units < descCount c →
    s.die.inputFree n (strokeArray c e.units) = false → descFeSrc c = false → ∃ t : State, exec (.stroke n th c) s = .next t ∧
      (∃ y ∈ (t.die.tile n).execs, y.thread = th ∧ y.desc = c ∧ y.ran = false ∧ y.units = e.units) ∧ t.die.arrays = s.die.arrays ∧
      t.die.regs = s.die.regs ∧ SameMem s.die t.die)

/-- R178, R181, R187, R191, R214: what the data movers and the control operations leave: the copied or repeated bytes, the
requests of LOAD and STORE, the buffer's state, the end of the stream, the event, the copied descriptors. Wherever its
conditions hold, each command completes with the effect of the operation named for it. -/
def Obligations.MoversAndControlLeaveTheirResults : Prop := ∀ (s : State) (n th : Nat) (c : Desc),
  s.die.runsClean n th c = true →
  (descOp c = ocCopy → (s.die.rgnFE n (opRgn c.a) && s.die.isPoison n (opRgn c.a)) = false →
    apart (s.die.opAt n c.a) (64 * descCount c) (s.die.opAt n c.d) (64 * descCount c) →
    ∃ t : State, exec (.copy n th c) s = .next t ∧ t.die.regs = s.die.regs ∧
      t.die.bytesAt (s.die.opAt n c.d) (64 * descCount c) = s.die.bytesAt (s.die.opAt n c.a) (64 * descCount c)) ∧
  (descOp c = ocFill → ∃ t : State, exec (.fill n th c) s = .next t ∧ t.die.regs = s.die.regs ∧
    t.die.bytesAt (s.die.opAt n c.d) (64 * descCount c) =
      (List.replicate (descCount c) (pattern64 (descP1 c))).flatten) ∧
  (descOp c = ocLoad → hasOp c.x = false →
    (∀ i, i < descCount c → tileReqOk ocLoad (s.die.threadClass n th) (unitAddr (descP1 c) + loadUnit (descP0 c) * i) (loadUnit (descP0 c)) = true) →
    ∃ t : State, exec (.load n th c) s = .next t ∧ SameMem s.die t.die ∧ t.die.regs = s.die.regs ∧
      (t.die.tile n).reqs.length = (s.die.tile n).reqs.length + descCount c) ∧
  (descOp c = ocStore → hasOp c.x = false →
    (∀ i, i < descCount c → tileReqOk ocStore (s.die.threadClass n th) (unitAddr (descP1 c) + loadUnit (descP0 c) * i) (loadUnit (descP0 c)) = true) →
    ∃ t : State, exec (.store n th c) s = .next t ∧ SameMem s.die t.die ∧ t.die.regs = s.die.regs ∧
      (t.die.tile n).reqs.length = (s.die.tile n).reqs.length + descCount c) ∧
  (descOp c = ocBufSet → descFeSrc c = false → s.die.rgnFE n (opRgn c.d) = true → ∃ t : State,
    exec (.bufSet n th c) s = .next t ∧ t.die.regs = s.die.regs ∧
    t.die.feOf n (opRgn c.d) = (!bit (descP0 c) 0, !bit (descP0 c) 0 && bit (descP0 c) 1)) ∧
  (descOp c = ocEvent → ∃ t : State, exec (.event n th c) s = .next t ∧ t.die.regs = s.die.regs ∧
    t.die.out = .firmware 8 [n, th, descTag c, descP1 c] :: s.die.out) ∧
  (descOp c = ocTideEnd → (s.die.execsOf n th).length = 1 → ∃ t : State, exec (.tideEnd n th c) s = .next t ∧
    Ran n th c t.die ∧ look (t.die.tile n).streams th = none ∧ SameMem s.die t.die ∧ t.die.regs = s.die.regs) ∧
  (descOp c = ocDmaStart → s.die.get (chState (.tile n) (descP0 c)) = 0 → ∃ t : State, exec (.dmaStart n th c) s = .next t ∧
    Ran n th c t.die ∧ SameMem s.die t.die) ∧
  (descOp c = ocPost → (∀ e, s.die.runnable n th c = some e → e.units = 0) →
    (s.die.rgnFE n (opRgn c.a) && s.die.isPoison n (opRgn c.a)) = false →
    (s.die.tile n).pool.length + descCount c ≤ 256 → ∃ t : State, exec (.post n th c) s = .next t ∧ Ran n th c t.die ∧
      (t.die.tile n).pool.length = (s.die.tile n).pool.length + descCount c ∧ SameMem s.die t.die ∧
      OnlyRegs [Reg.ENG_POOL_STATUS n] s.die t.die) ∧
  (∀ e, descOp c = ocPost → s.die.runnable n th c = some e →
    (s.die.rgnFE n (opRgn c.a) && s.die.isPoison n (opRgn c.a)) = false → e.units ≤ descCount c →
    (s.die.tile n).pool.length + (descCount c - e.units) ≤ 256 → ∃ t : State, exec (.post n th c) s = .next t ∧ Ran n th c t.die ∧
    (t.die.tile n).pool.length = (s.die.tile n).pool.length + (descCount c - e.units) ∧ SameMem s.die t.die)

/-- R138, R140, R142, R151, R159, R177, R191 to R194, R310, R311, R338, R580: a descriptor that fetches asks for its lines
first and runs once they are back, or at once where it has none to ask for; raw A4 codes out of range make LOAD_INPUT
malformed; QUANT_A writes its code blocks one by one; a COMBINE at the head of the pipeline runs with all its records and
leaves the pipeline. Wherever its conditions hold, each command completes with the effect of the operation named for it.
Which areas a fetch may read is DEDUCED (log entry 63). -/
def Obligations.FetchingAndPipelinedOperationsRun : Prop := ∀ (s : State) (n th : Nat) (c : Desc),
  (s.die.runsClean n th c = true →
    (∀ (k : Instr × Nat) (l : List (Nat × Nat)) (e : Exec),
      (k, l) ∈ [((Instr.outlier n th c, ocOutlier), s.die.outlierAsks { t := n, th := th, c := c }),
        ((.exact n th c, ocExact), exactAsks c),
        ((.corrZ n th c, ocCorrZ), factorAsks c (bits (descP0 c) 9 7 * panelsBytes (16 * descCount c) 32 32)),
        ((.corrB n th c, ocCorrB), factorAsks c (bits (descP0 c) 9 7 * panelsBytes ((descCount c + 31) / 32) 32 32)),
        ((.attn n th c, ocAttn), s.die.attnAsks { t := n, th := th, c := c }),
        ((.sound n th c, ocSound), s.die.soundAsks { t := n, th := th, c := c })] →
      descOp c = k.2 → s.die.runnable n th c = some e → e.asked = false →
      l.filter (fun p => tileReqOk k.2 (s.die.threadClass n th) p.1 p.2) ≠ [] → ∃ t : State, exec k.1 s = .next t ∧ t.pending = s.pending ∧
        t.carrier = s.carrier ∧ t.die.regs = s.die.regs ∧ SameMem s.die t.die ∧
        (t.die.tile n).reqs = (s.die.tile n).reqs ++ (l.filter (fun p => tileReqOk k.2 (s.die.threadClass n th) p.1 p.2)).map (fun p =>
          { cls := s.die.reqClass n th k.2, thread := th, tag := descTag c, addr := p.1, len := p.2, owner := e.id })) ∧
    (∀ (k : Instr × Nat) (l : List (Nat × Nat)) (e : Exec),
      (k, l) ∈ [((Instr.outlier n th c, ocOutlier), s.die.outlierAsks { t := n, th := th, c := c }),
        ((.exact n th c, ocExact), exactAsks c),
        ((.corrZ n th c, ocCorrZ), factorAsks c (bits (descP0 c) 9 7 * panelsBytes (16 * descCount c) 32 32)),
        ((.corrB n th c, ocCorrB), factorAsks c (bits (descP0 c) 9 7 * panelsBytes ((descCount c + 31) / 32) 32 32)),
        ((.attn n th c, ocAttn), s.die.attnAsks { t := n, th := th, c := c })] →
      descOp c = k.2 → s.die.runnable n th c = some e →
      e.asked = true ∨ l.filter (fun p => tileReqOk k.2 (s.die.threadClass n th) p.1 p.2) = [] → ∃ t : State,
      exec k.1 s = .next t ∧ t.pending = s.pending ∧ t.carrier = s.carrier ∧ Ran n th c t.die ∧
        ∀ a, (∀ x ∈ s.die.dstSpans n c, a < s.die.rgnAddr n x.rgn x.off ∨ s.die.rgnAddr n x.rgn x.off + x.len ≤ a) →
          t.die.byteAt a = s.die.byteAt a) ∧
    (∀ e, descOp c = ocSound → s.die.runnable n th c = some e →
      e.asked = true ∨ (s.die.soundAsks { t := n, th := th, c := c }).filter (fun p =>
        tileReqOk ocSound (s.die.threadClass n th) p.1 p.2) = [] → ∃ t : State,
      exec (.sound n th c) s = .next t ∧ t.pending = s.pending ∧ t.carrier = s.carrier ∧ Ran n th c t.die) ∧
    (descOp c = ocLoadInput → s.die.rawBad n c = false → ∃ t : State, exec (.loadInput n th c) s = .next t ∧ Ran n th c t.die ∧
      ∀ a, a < s.die.opAt n c.d ∨ s.die.opAt n c.d + 1024 * descCount c ≤ a → t.die.byteAt a = s.die.byteAt a) ∧
    (descOp c = ocLoadInput → s.die.rawBad n c = true → ∃ t : State, exec (.loadInput n th c) s = .next t ∧
      SameMem s.die t.die ∧ t.die.get (Reg.ENG_STATUS_BAD_DESC n) = 1) ∧
    (∀ e, descOp c = ocCombine → s.die.pipeHead n = some e → e.desc = c → e.thread = th →
      bit (descP0 c) 2 = true ∨ e.recs.length = descCount c → ∃ t : State, exec (.combine n th c) s = .next t ∧
      Ran n th c t.die ∧ (t.die.tile n).pipe = (s.die.tile n).pipe.tail ∧
      ∀ a, a < s.die.opAt n c.d ∨ s.die.opAt n c.d + 1024 ≤ a → t.die.byteAt a = s.die.byteAt a)) ∧
  (∀ tag e b bs, s.die.live = true → s.die.tileRuns n = true →
    (s.die.tile n).execs.find? (ofTag th tag (fun e => !e.blocks.isEmpty && !e.waitLg)) = some e → e.blocks = b :: bs → bs ≠ [] →
    s.die.engRefuses n (opRgn e.desc.d) (opOff e.desc.d) (1024 * descCount e.desc) rightW = none → ∃ t : State,
    exec (.quantAUnitDone n th tag) s = .next t ∧ t.die.regs = s.die.regs ∧
    t.die.bytesAt (s.die.rgnAddr n (opRgn e.desc.d) (opOff e.desc.d + 1024 * (descCount e.desc - (bs.length + 1)))) b.length = b ∧
    SameMemBut (s.die.rgnAddr n (opRgn e.desc.d) (opOff e.desc.d + 1024 * (descCount e.desc - (bs.length + 1)))) b.length
      s.die t.die ∧ ∃ y ∈ (t.die.tile n).execs, y = { e with blocks := bs }) ∧
  (∀ (tile thread tag : Nat), s.die.live = true → s.die.tileRuns tile = true →
    exec (.quantAUnitDone tile thread tag) s = .next { s with die := s.die.quantDone tile thread tag })

/-! ### Tile engines: control (R173 to R188, R194, R198 to R205) -/

/-- R173 to R181, R183, R185, R187, R190, R194, R201, R202: a thread takes its next descriptor, or ends its stream where the
fetch is refused, or counts a malformed one; lane groups are granted or reserved, and given back; requests take a slot and
complete; a finished descriptor retires and is counted; a COMBINE takes its next record; a zeroed SRAM reads zero with no
valid region. Wherever its conditions hold, each command completes with the effect of the operation named for it. -/
def Obligations.EnginesDispatchAndRetire : Prop := ∀ (s : State) (n : Nat), s.die.live = true →
  (∀ th off, s.die.mayDispatch n th = true → s.die.threadClass n th = 1 → look (s.die.tile n).streams th = some off →
    (∀ c, s.die.engRefuses n 0 off 32 rightDS = none → c = s.die.descAt (s.die.rgnAddr n 0 off) → malformed c 1 = false →
      s.die.overlaps n th c = false → ∃ t : State, exec (.descriptorDispatch n th) s = .next t ∧ t.pending = s.pending ∧
      t.carrier = s.carrier ∧ (∃ x : Exec, x.thread = th ∧ x.desc = c ∧ x.ran = false ∧
        (t.die.tile n).execs = (s.die.tile n).execs ++ [x]) ∧ look (t.die.tile n).streams th = some (off + 32) ∧
      t.die.regs = s.die.regs ∧ SameMem s.die t.die) ∧
    (∀ c, s.die.engRefuses n 0 off 32 rightDS = none → c = s.die.descAt (s.die.rgnAddr n 0 off) → malformed c 1 = true →
      ∃ t : State, exec (.descriptorDispatch n th) s = .next t ∧ t.die.get (Reg.ENG_STATUS_BAD_DESC n) = 1 ∧
      (t.die.tile n).execs = (s.die.tile n).execs ∧ SameMem s.die t.die) ∧
    (s.die.engRefuses n 0 off 32 rightDS ≠ none → ∃ t : State, exec (.descriptorDispatch n th) s = .next t ∧
      look (t.die.tile n).streams th = none ∧ t.die.get (Reg.ENG_STATUS_FAULT n) = 1 ∧ SameMem s.die t.die)) ∧
  (∀ e, s.die.tileRuns n = true → s.die.laneNext n = some e →
    (lanesOf e.desc ≤ (s.die.tile n).freeLanes → ∃ t : State, exec (.laneGroupGrant n) s = .next t ∧
      { e with waitLg := false, lgs := lanesOf e.desc } ∈ (t.die.tile n).execs ∧ (t.die.tile n).reserve = none ∧
      t.die.regs = s.die.regs ∧ SameMem s.die t.die) ∧
    ((s.die.tile n).freeLanes < lanesOf e.desc → ∃ t : State, exec (.laneGroupGrant n) s = .next t ∧
      (t.die.tile n).reserve = some e.id ∧ (t.die.tile n).execs = (s.die.tile n).execs ∧ t.die.regs = s.die.regs)) ∧
  (∀ th tag e, s.die.tileRuns n = true →
    (s.die.tile n).execs.find? (ofTag th tag (fun e => decide (0 < e.lgs) && descOp e.desc != ocSound)) = some e → ∃ t : State,
    exec (.grantExpiry n th tag) s = .next t ∧
    { e with lgs := 0, waitLg := true, since := s.die.clock.quarter } ∈ (t.die.tile n).execs ∧ t.die.regs = s.die.regs ∧
    SameMem s.die t.die) ∧
  (s.die.tileRuns n = true → s.die.nextClass n = some .dma → exec (.dramRequestIssue n) s = .next s) ∧
  (∀ k, s.die.tileRuns n = true → s.die.nextClass n = some k → k ≠ .dma → ∃ t : State, exec (.dramRequestIssue n) s = .next t ∧
    t.die.slotsUsed n = s.die.slotsUsed n + 1 ∧ (t.die.tile n).reqs.length = (s.die.tile n).reqs.length ∧
    OnlyRegs [Reg.ENG_REQ_HWM n] s.die t.die ∧ SameMem s.die t.die) ∧
  (∀ i r a, s.die.tileRuns n = true → (s.die.tile n).reqs[i]? = some r → s.die.canComplete r = true → r.write = none →
    r.sram = some a → s.die.rangePoison r.addr r.len = false → ∃ t : State, exec (.dramRequestComplete n i) s = .next t ∧
    t.die.bytesAt (tileAddr n + a) r.len = s.die.bytesAt r.addr r.len ∧ SameMemBut (tileAddr n + a) r.len s.die t.die ∧
    (t.die.tile n).reqs = (s.die.tile n).reqs.eraseIdx i) ∧
  (∀ i r bs, s.die.tileRuns n = true → (s.die.tile n).reqs[i]? = some r → s.die.canComplete r = true → r.write = some bs →
    bs.length = 64 → r.addr % 64 = 0 → ∃ t : State, exec (.dramRequestComplete n i) s = .next t ∧
    t.die.bytesAt r.addr 64 = bs ∧ SameMemBut r.addr 64 s.die t.die ∧ t.die.regs = s.die.regs) ∧
  (∀ th tag e, s.die.tileRuns n = true → (s.die.tile n).execs.find? (ofTag th tag Exec.finished) = some e →
    s.die.lateInject n e = false → e.lateUntil = none → e.due = none → ∃ t : State, exec (.descriptorRetire n th tag) s = .next t ∧
    (t.die.tile n).execs = dropPick (fun y => y == e) (s.die.tile n).execs ∧
    t.die.get64 (Reg.ENG_DESC_RETIRED n 0) = (s.die.get64 (Reg.ENG_DESC_RETIRED n 0) + 1) % 2 ^ 64 ∧ SameMem s.die t.die) ∧
  (∀ e r a, s.die.tileRuns n = true → s.die.pipeHead n = some e → bit (descP0 e.desc) 2 = false →
    e.recs.length < descCount e.desc → s.die.nextRecord n (bits (descP0 e.desc) 8 8 + e.recs.length) = some (r, some a) →
    ∃ t : State, exec (.combineRecordAccept n) s = .next t ∧ { e with recs := e.recs ++ [r] } ∈ (t.die.tile n).execs ∧
    (t.die.arr n a).results.length + 1 = (s.die.arr n a).results.length ∧ t.die.regs = s.die.regs ∧ SameMem s.die t.die) ∧
  (s.die.enabled n = true → (s.die.tile n).ready = false → s.die.tileHeld n = false → ∃ t : State,
    exec (.sramZeroComplete n) s = .next t ∧ (t.die.tile n).ready = true ∧ (t.die.tile n).fe = [] ∧
    (∀ a, sramTile a = some n → t.die.byteAt a = 0) ∧ (∀ a, sramTile a ≠ some n → t.die.byteAt a = s.die.byteAt a) ∧
    ∀ r, t.die.rgnValid n r = false) ∧
  (∀ (thread : Nat), s.die.mayDispatch n thread = true →
    exec (.descriptorDispatch n thread) s = .next { s with die := s.die.dispatch n thread }) ∧
  (∀ idx r, s.die.tileRuns n = true → (s.die.tile n).reqs[idx]? = some r → s.die.canComplete r = true →
    exec (.dramRequestComplete n idx) s = .next { s with die := s.die.reqComplete n idx r }) ∧
  (∀ (thread tag : Nat), s.die.tileRuns n = true →
    exec (.descriptorRetire n thread tag) s = .next { s with die := s.die.descRetire n thread tag }) ∧
  (s.die.tileRuns n = true → exec (.combineRecordAccept n) s = .next { s with die := s.die.recordAccept n })

/-- R163, R184, R198, R200, R202, R203: a region write leaves no valid region that overlaps another or leaves the SRAM, and is busy while a
table runs, as a class write is; ENABLE is deferred during a stop; the clears clear. -/
def Obligations.EngineRegistersKeepTheirRules : Prop := ∀ (s : State) (ag : Agent) (n : Nat), s.die.live = true →
  s.die.tileWrite ag n = true →
  (∀ r limit w, r < 255 → s.die.armed = true → ∃ t : State, exec (.rgnWrite ag n r limit w) s = .next t ∧
    t.die.out.head? = some (.status ag stBusy) ∧ OnlyRegs logRegs s.die t.die ∧ SameMem s.die t.die) ∧
  (∀ r limit w, r < 255 → s.die.armed = false → ∃ t : State, exec (.rgnWrite ag n r limit w) s = .next t ∧
    (t.die.rgnValid n r = true → t.die.rgnBad n r (t.die.get (Reg.ENG_RGN_BASE_BASE n r))
      (t.die.get (Reg.ENG_RGN_LIMIT_SIZE n r)) = false) ∧ SameMem s.die t.die ∧
    OnlyRegs (Reg.ENG_RGN_LIMIT n r :: Reg.ENG_RGN_BASE n r :: logRegs) s.die t.die) ∧
  ((s.die.tile n).stopping = true → ∃ t : State, exec (.engEnableWrite ag n true) s = .next t ∧
    (t.die.tile n).enableDeferred = true ∧ t.die.regs = s.die.regs) ∧
  ((s.die.tile n).stopping = false → ∃ t : State, exec (.engEnableWrite ag n true) s = .next t ∧
    t.die.get (Reg.ENG_CTRL_ENABLE n) = 1 ∧ OnlyRegs [Reg.ENG_CTRL n] s.die t.die ∧ t.die.tiles = s.die.tiles) ∧
  (∃ t : State, exec (.engEnableWrite ag n false) s = .next t ∧ t.die.get (Reg.ENG_CTRL_ENABLE n) = 0 ∧
    (t.die.tile n).stopping = ((s.die.tile n).stopping || (s.die.tile n).dispatching) ∧
    OnlyRegs [Reg.ENG_CTRL n] s.die t.die ∧ SameMem s.die t.die) ∧
  (∃ t : State, exec (.engCntClr ag n) s = .next t ∧ t.die.get (Reg.ENG_CTRL_CNT_CLR n) = 1 ∧
    OtherBits (Reg.ENG_CTRL_CNT_CLR n) s.die t.die ∧ OnlyRegs [Reg.ENG_CTRL n] s.die t.die) ∧
  (∃ t : State, exec (.faultInfoClear ag n) s = .next t ∧ t.die.getW (Reg.ENG_FAULT_INFO0 n) = 0 ∧
    t.die.getW (Reg.ENG_FAULT_INFO1 n) = 0 ∧ t.die.getW (Reg.ENG_FAULT_INFO2 n) = 0 ∧
    OnlyRegs [Reg.ENG_FAULT_INFO0 n, Reg.ENG_FAULT_INFO1 n, Reg.ENG_FAULT_INFO2 n] s.die t.die) ∧
  (∃ t : State, exec (.reqHwmClr ag n) s = .next t ∧ t.die.get (Reg.ENG_REQ_HWM_MAX n) = 0 ∧
    OnlyRegs [Reg.ENG_REQ_HWM n] s.die t.die ∧ t.die.out = .status ag stOk :: s.die.out) ∧
  (∀ th cls, th < 64 → s.die.armed = false → cls < 4 → ∃ t : State, exec (.threadClassWrite ag n th cls) s = .next t ∧
    t.die.threadClass n th = cls ∧ OtherBits (Reg.ENG_THREAD_CLASS n th) s.die t.die ∧
    OnlyRegs [Reg.ENG_THREAD n th] s.die t.die) ∧
  (∀ th cls, th < 64 → s.die.armed = true → ∃ t : State, exec (.threadClassWrite ag n th cls) s = .next t ∧
    t.die.threadClass n th = s.die.threadClass n th ∧ t.die.out.head? = some (.status ag stBusy))

/-! ### The tide block (R206 to R251) -/

/-- R239, R240, R243, R244, R251, R466, R504: each request acts in the states that allow it and answers code 0; in the
others, and an ARM while a trip is active, it is refused with code 20 and record Tide 2; an ARM less than two tides before
its start answers code 21. The loader leaves LOADED with the table of its image, or IDLE with REFUSED and record Tide 1.
Wherever its conditions hold, each command completes with the effect of the operation named for it. -/
def Obligations.TideRequestsFollowTheState : Prop := ∀ (s : State) (ag : Agent), s.die.live = true → s.die.computeHeld = false →
  (s.die.mayControl ag = true →
    (∀ k : Instr × Bool, k ∈ [(Instr.tideLoad ag, s.die.tideState == 0 || s.die.tideState == 2), (.arm ag, s.die.tideState == 2 &&
        s.die.tide.table.isSome && !s.die.on Reg.THM_TRIP_TRIP), (.stop ag, s.die.tideState == 4), (.stopNow ag, s.die.armed),
        (.cancel ag, s.die.tideState == 2)] → k.2 = false →
      ∃ u : State, exec k.1 s = .next u ∧ u.die.get Reg.TIDE_LOAD_STATUS_CODE = 20 ∧ u.die.tide = s.die.tide ∧
        Recorded 0x05 2 96 0xFFFF s.die u.die ∧ u.die.out.head? = some (.status ag stOk) ∧ SameMem s.die u.die ∧
        OnlyRegs (Reg.TIDE_LOAD_STATUS :: logRegs) s.die u.die) ∧
    (s.die.tideState = 0 ∨ s.die.tideState = 2 → ∃ u : State, exec (.tideLoad ag) s = .next u ∧ u.die.tideState = 1 ∧
      u.die.tide.table = none ∧ u.die.tide.loadBase = dramBase + 4096 * s.die.get Reg.TIDE_LOAD_BASE_BASE ∧
      u.die.get Reg.TIDE_LOAD_STATUS_CODE = 0 ∧ SameMem s.die u.die ∧
      OnlyRegs [Reg.TIDE_STATUS, Reg.TIDE_LOAD_STATUS] s.die u.die) ∧
    (∀ tb, s.die.tide.table = some tb → s.die.tideState = 2 → s.die.on Reg.THM_TRIP_TRIP = false →
      s.die.get64 (Reg.TIDE_START 0) < s.die.tideNum + 2 → ∃ u : State, exec (.arm ag) s = .next u ∧ u.die.tideState = 2 ∧
      u.die.get Reg.TIDE_LOAD_STATUS_CODE = 21 ∧ u.die.tide = s.die.tide ∧ SameMem s.die u.die ∧
      OnlyRegs [Reg.TIDE_LOAD_STATUS] s.die u.die) ∧
    (∀ tb, s.die.tide.table = some tb → s.die.tideState = 2 → s.die.on Reg.THM_TRIP_TRIP = false → s.die.fwRuns = false →
      s.die.tideNum + 2 ≤ s.die.get64 (Reg.TIDE_START 0) → ∃ u : State, exec (.arm ag) s = .next u ∧ u.die.tideState = 3 ∧
      u.die.get Reg.TIDE_LOAD_STATUS_CODE = 0 ∧ u.die.tide.start = s.die.get64 (Reg.TIDE_START 0) ∧
      u.die.tide.preload = tb.preloads ∧ u.die.get Reg.TIDE_SLICE_LAG = tb.lag % 256 ∧
      (∀ b ∈ tb.tiles, (u.die.tile b.tile).fe = [] ∧ ∀ a, sramTile a = some b.tile → u.die.byteAt a = 0) ∧
      (s.die.upkeep.ranks = [] → ∀ a, (∀ b ∈ tb.tiles, sramTile a ≠ some b.tile) → u.die.byteAt a = s.die.byteAt a)) ∧
    (s.die.tideState = 4 → ∃ u : State, exec (.stop ag) s = .next u ∧ u.die.tideState = 5 ∧
      u.die.get Reg.TIDE_LOAD_STATUS_CODE = 0 ∧ u.die.tide = s.die.tide ∧ SameMem s.die u.die) ∧
    (s.die.armed = true → s.die.tide.fault = none → ∃ u : State, exec (.stopNow ag) s = .next u ∧
      u.die.tide = { s.die.tide with stopNow := true, stopFlag := true, fault := some (2, s.die.coord) } ∧
      u.die.get Reg.TIDE_LOAD_STATUS_CODE = 0 ∧ u.die.tideState = s.die.tideState ∧ SameMem s.die u.die ∧
      ∀ n, s.die.enabled n = true → u.die.get (Reg.ENG_CTRL_ENABLE n) = 0) ∧
    (s.die.tideState = 2 → ∃ u : State, exec (.cancel ag) s = .next u ∧ u.die.tideState = 0 ∧ u.die.tide.table = none ∧
      u.die.get Reg.TIDE_LOAD_STATUS_CODE = 0 ∧ SameMem s.die u.die ∧
      OnlyRegs [Reg.TIDE_STATUS, Reg.TIDE_LOAD_STATUS] s.die u.die)) ∧
  (s.die.tideState = 1 → s.die.dramUp = true → s.die.loadErr s.die.tide.loadBase = none → ∃ u : State, exec .tableLoadDone s = .next u ∧
    u.die.tideState = 2 ∧ u.die.tide = { s.die.tide with table := some (s.die.tableAt s.die.tide.loadBase) } ∧
    u.die.getW Reg.TIDE_LOAD_STATUS = 0 ∧ u.die.getW Reg.TIDE_LOAD_DETAIL = 0 ∧ SameMem s.die u.die ∧
    OnlyRegs [Reg.TIDE_STATUS, Reg.TIDE_LOAD_STATUS, Reg.TIDE_LOAD_DETAIL] s.die u.die) ∧
  (∀ e, s.die.tideState = 1 → s.die.dramUp = true → s.die.loadErr s.die.tide.loadBase = some e → ∃ u : State, exec .tableLoadDone s = .next u ∧
    u.die.tideState = 0 ∧ u.die.get Reg.TIDE_STATUS_REFUSED = 1 ∧ u.die.get Reg.TIDE_LOAD_STATUS_CODE = e.1 % 32 ∧
    u.die.tide = s.die.tide ∧ Recorded 0x05 1 96 0xFFFF s.die u.die ∧ SameMem s.die u.die ∧
    OnlyRegs (Reg.TIDE_STATUS :: Reg.TIDE_LOAD_STATUS :: Reg.TIDE_LOAD_DETAIL :: logRegs) s.die u.die) ∧
  (s.die.mayControl ag = true → exec (.arm ag) s = .next { s with die := s.die.tideArm ag }) ∧
  (s.die.mayControl ag = true → exec (.stopNow ag) s = .next { s with die := s.die.tideStopNow ag })

/-- R206, R207, R209, R210, R215, R227, R233, R234: a boundary that is due begins a new tide, one later, at cycle and schedule
count zero; a window is checked against its conditions; a freeze that ends is charged to its cause; a window at its end
moves exactly its bytes, a departure puts them into the transmit buffer, a landing takes the oldest burst from the receive
buffer. Wherever its conditions hold, each command completes with the effect of the operation named for it. That poisoned
data move as zeros is the model's choice (log entry 65). -/
def Obligations.BoundariesAndWindowsMoveTheTide : Prop := ∀ (s : State), s.die.live = true → s.die.computeHeld = false →
  (s.die.boundaryDue = true → ∃ u : State, exec .tideBoundary s = .next u ∧ u.die.tide.w = 0 ∧ u.die.tide.sc = 0 ∧
    u.die.tide.checked = [] ∧ u.die.tide.done = [] ∧ u.die.tide.failed = [] ∧ u.pending = s.pending ∧ u.carrier = s.carrier ∧
    (s.die.tide.table = none → s.die.on Reg.GLB_MESH_CTRL_BKT_EN = false → u.die.tideNum = (s.die.tideNum + 1) % 2 ^ 64 ∧
      u.die.tideState = s.die.tideState)) ∧
  (s.die.boundaryDue = false → exec .tideBoundary s = .next s) ∧
  (∀ i x, s.die.winNow i = some x → s.die.checkDue i x = true → s.die.ptbActive 0 = false → s.die.winCauses i x = [] →
    exec (.windowCheck i) s = .next { s with die := s.die.modTide (fun t => { t with checked := t.checked ++ [i] }) }) ∧
  (∀ i x, s.die.winNow i = some x → s.die.checkDue i x = true → s.die.ptbActive 0 = false → s.die.winCauses i x ≠ [] →
    exec (.windowCheck i) s = .next { s with die := s.die.modTide (fun t => { t with
      checked := t.checked ++ [i], failed := t.failed ++ [(i, lowest (s.die.winCauses i x), none)] }) }) ∧
  (∀ c, s.die.on Reg.TIDE_STATUS_FROZEN = true → s.die.settleWindows.scBlocked = false → s.die.settleWindows.freezeCharge = c →
    ∃ u : State, exec .scResume s = .next u ∧ u.die.on Reg.TIDE_STATUS_FROZEN = false ∧ u.die.tide.freeze = 0 ∧
    u.die.get64 (Reg.TIDE_STALL_FREEZE_LO c) = (s.die.get64 (Reg.TIDE_STALL_FREEZE_LO c) + s.die.tide.freeze) % 2 ^ 64 ∧
    OtherBits Reg.TIDE_STATUS_FROZEN s.die u.die ∧ SameMem s.die u.die ∧
    OnlyRegs [Reg.TIDE_STATUS, Reg.TIDE_STALL_FREEZE_LO c, Reg.TIDE_STALL_FREEZE_LO c + 4] s.die u.die) ∧
  (∀ i w n, s.die.winNow i = some (.tp w) → s.die.overDue i (.tp w) = true → portTile w.tile w.port = some n →
    s.die.engRefuses w.tile (w.src / 2 ^ 24) (w.src % 2 ^ 24) w.bytes rightTP = none →
    s.die.engRefuses n (w.dst / 2 ^ 24) (w.dst % 2 ^ 24) w.bytes rightTP = none → ∃ u : State,
    exec (.tpWindowComplete i) s = .next u ∧ u.die.regs = s.die.regs ∧ u.die.tide.done = s.die.tide.done ++ [i] ∧
    u.die.bytesAt (s.die.rgnAddr n (w.dst / 2 ^ 24) (w.dst % 2 ^ 24)) w.bytes =
      (if s.die.endPoison w.tile w.src then zeros w.bytes
       else s.die.bytesAt (s.die.rgnAddr w.tile (w.src / 2 ^ 24) (w.src % 2 ^ 24)) w.bytes) ∧
    SameMemBut (s.die.rgnAddr n (w.dst / 2 ^ 24) (w.dst % 2 ^ 24)) w.bytes s.die u.die ∧
    (bit w.flags 1 = true → s.die.rgnFE n (w.dst / 2 ^ 24) = true → s.die.isPoison n (w.dst / 2 ^ 24) = false →
      u.die.feOf n (w.dst / 2 ^ 24) = (true, s.die.endPoison w.tile w.src))) ∧
  (∀ i w, s.die.winNow i = some (.link w) → w.kind = 0 → s.die.overDue i (.link w) = true →
    s.die.engRefuses w.tile (w.buf / 2 ^ 24) (w.buf % 2 ^ 24) w.bytes rightTP = none → ∃ u : State,
    exec (.linkDeparture i) s = .next u ∧ u.die.regs = s.die.regs ∧ SameMem s.die u.die ∧ (u.die.link w.link).txBursts =
      (s.die.link w.link).txBursts ++ [{
        stream := w.stream, total := w.bytes
        data := if s.die.endPoison w.tile w.buf then zeros w.bytes
                else s.die.bytesAt (s.die.rgnAddr w.tile (w.buf / 2 ^ 24) (w.buf % 2 ^ 24)) w.bytes }]) ∧
  (∀ i w b r, s.die.winNow i = some (.link w) → w.kind ≠ 0 → s.die.overDue i (.link w) = true →
    (s.die.link w.link).rxBursts = b :: r → b.data.length = w.bytes →
    s.die.engRefuses w.tile (w.buf / 2 ^ 24) (w.buf % 2 ^ 24) w.bytes rightTP = none →
    (b.stream = w.stream → b.total = w.bytes → ∃ u : State, exec (.linkLanding i false) s = .next u ∧ u.die.regs = s.die.regs ∧
      u.die.bytesAt (s.die.rgnAddr w.tile (w.buf / 2 ^ 24) (w.buf % 2 ^ 24)) w.bytes = b.data ∧
      SameMemBut (s.die.rgnAddr w.tile (w.buf / 2 ^ 24) (w.buf % 2 ^ 24)) w.bytes s.die u.die ∧
      (u.die.link w.link).rxBursts = r) ∧
    (∃ u : State, exec (.linkLanding i true) s = .next u ∧ u.die.get Reg.TIDE_STATUS_DIVERGE = 1 ∧
      (u.die.link w.link).rxBursts = r ∧
      SameMemBut (s.die.rgnAddr w.tile (w.buf / 2 ^ 24) (w.buf % 2 ^ 24)) w.bytes s.die u.die)) ∧
  (s.die.boundaryDue = true → exec .tideBoundary s = .next { s with die := s.die.takeBoundary }) ∧
  (∀ idx x, s.die.winNow idx = some x → s.die.checkDue idx x = true →
    exec (.windowCheck idx) s = .next { s with die := s.die.windowCheck idx x }) ∧
  (∀ (idx : Nat), exec (.tpWindowComplete idx) s = .next { s with die := s.die.endWindow idx 0 false }) ∧
  (∀ (idx : Nat), exec (.linkDeparture idx) s = .next { s with die := s.die.endWindow idx 1 false }) ∧
  (∀ (idx : Nat) (bad : Bool), exec (.linkLanding idx bad) s = .next { s with die := s.die.endWindow idx 2 bad })

/-- R185, R186, R216 to R219, R221, R232, R243, R245, R247, R249, R465, R466, R490: a mark is kept as its link's latest with
its credits, and a mark with FAULT stops an armed table; a closed gate that times out latches GATE_TMO and the GATE alert;
preload entries, packets and marks of buffers act on tile SRAM as the allocation map allows; PERIOD is busy outside IDLE; the
throttle demand is kept field by field, and merged while the guard acts. Wherever its conditions hold, each command completes
with the effect of the operation named for it. -/
def Obligations.MarksGateAndTideRegistersKeepTheirRules : Prop := ∀ (s : State), s.die.live = true →
  (∀ k (m : Mark), k < 6 → s.die.linkUp k = true → bit s.die.sliceMask k = true → m.credits.length = 4 →
    (m.fault = false → s.die.on Reg.TIDE_SLICE_MASTER = true ∨ m.beacon = none → ∃ u : State,
      exec (.tideMarkReceive k m) s = .next u ∧ look u.die.tide.marks k = some
        { tide := m.tide, stop := m.stop, fault := m.fault, applied := m.applied, retried := m.retried } ∧
      (u.die.link k).credit = m.credits ∧ u.die.regs = s.die.regs ∧ SameMem s.die u.die) ∧
    (m.fault = true → s.die.on Reg.TIDE_SLICE_MASTER = true → s.die.armed = true → s.die.tide.fault = none → ∃ u : State,
      exec (.tideMarkReceive k m) s = .next u ∧ u.die.get (Reg.LNK_STATUS_FAULT_RX k) = 1 ∧ u.die.tide.stopNow = true ∧
      u.die.tide.fault = some (m.fCause, m.fCoord) ∧ SameMem s.die u.die)) ∧
  (s.die.computeHeld = false → s.die.on Reg.TIDE_STATUS_GATED = true → s.die.gateMissing (s.die.tideNum + 1) ≠ [] → ∃ u : State,
    exec .gateTimeout s = .next u ∧ u.die.get Reg.TIDE_STATUS_GATE_TMO = 1 ∧ bit (u.die.get Reg.STL_ALERT_BITS) alGate = true ∧
    Recorded 0x05 4 96 0xFFFF s.die u.die ∧ SameMem s.die u.die ∧ OnlyRegs (Reg.TIDE_STATUS :: logRegs) s.die u.die) ∧
  (∀ n p tb, s.die.computeHeld = false → s.die.tide.table = some tb → s.die.preloadNext n = some p →
    s.die.rangePoison (if p.kind = 0 then tb.base + p.src else goldenBase + p.src) p.len = false → ∃ u : State,
    exec (.preloadEntryDone n) s = .next u ∧ u.die.regs = s.die.regs ∧
    u.die.bytesAt (s.die.rgnAddr n (p.dst / 2 ^ 24) (p.dst % 2 ^ 24)) p.len =
      s.die.bytesAt (if p.kind = 0 then tb.base + p.src else goldenBase + p.src) p.len ∧
    SameMemBut (s.die.rgnAddr n (p.dst / 2 ^ 24) (p.dst % 2 ^ 24)) p.len s.die u.die ∧
    u.die.tide.preload = s.die.tide.preload.erase (n, p) ∧
    (p.mark = true → s.die.rgnFE n (p.dst / 2 ^ 24) = true → u.die.feOf n (p.dst / 2 ^ 24) = (true, false))) ∧
  (∀ ag w, s.die.computeHeld = false → s.die.mayControl ag = true →
    (s.die.tideState ≠ 0 → w % 2 ^ 11 ≠ s.die.get Reg.TIDE_CTRL_PERIOD → ∃ u : State, exec (.tideCtrlWrite ag w) s = .next u ∧
      u.die.out.head? = some (.status ag stBusy) ∧ OnlyRegs logRegs s.die u.die ∧ SameMem s.die u.die) ∧
    (s.die.tideState = 0 → bit w 31 = true → 16 ≤ w % 2 ^ 11 → w % 2 ^ 11 ≤ 1024 → ∃ u : State,
      exec (.tideCtrlWrite ag w) s = .next u ∧ u.die.get Reg.TIDE_CTRL_PERIOD = w % 2 ^ 11 ∧
      u.die.get Reg.TIDE_CTRL_CNT_CLR = 1 ∧ OnlyRegs [Reg.TIDE_CTRL] s.die u.die ∧ u.die.out = .status ag stOk :: s.die.out) ∧
    (∃ u : State, exec (.tideCntClr ag) s = .next u ∧ u.die.get Reg.TIDE_CTRL_CNT_CLR = 1 ∧
      OtherBits Reg.TIDE_CTRL_CNT_CLR s.die u.die ∧ OnlyRegs [Reg.TIDE_CTRL] s.die u.die ∧ SameMem s.die u.die) ∧
    (s.die.on Reg.PWR_GUARD_ACTIVE = false → bits w 16 2 < 3 → ∃ u : State, exec (.tideThrottleWrite ag w) s = .next u ∧
      u.die.get Reg.TIDE_THROTTLE_STRETCH = bits w 0 8 ∧ u.die.get Reg.TIDE_THROTTLE_SKIP = bits w 8 8 ∧
      u.die.get Reg.TIDE_THROTTLE_DIV = bits w 16 2 ∧ OnlyRegs [Reg.TIDE_THROTTLE] s.die u.die ∧ SameMem s.die u.die) ∧
    (s.die.on Reg.PWR_GUARD_ACTIVE = true → ∃ u : State, exec (.tideThrottleWrite ag w) s = .next u ∧
      u.die.getW Reg.TIDE_THROTTLE = w32 (mergeThrottle u.die.sense.demand s.die.fastDemand) ∧
      OnlyRegs (Reg.TIDE_THROTTLE :: logRegs) s.die u.die)) ∧
  (∀ n r full poison, s.die.tileAnswers n = true → s.die.rgnFE n r = true → ∃ u : State,
    exec (.bufferMarkRequest n r full poison) s = .next u ∧ u.die.feOf n r = (full, full && poison) ∧ u.die.regs = s.die.regs ∧
    SameMem s.die u.die ∧ ∀ q, q ≠ r → u.die.feOf n q = s.die.feOf n q) ∧
  (∀ n off data, s.die.tileAnswers n = true → 1 ≤ data.length → data.length ≤ 1024 →
    (s.die.packetOk n off data.length true = true → ∃ u : State,
      exec (.packetSramAccess n true off data.length data) s = .next u ∧ u.die.bytesAt (tileAddr n + off) data.length = data ∧
      SameMemBut (tileAddr n + off) data.length s.die u.die ∧ u.die.out = .sram n off true false [] :: s.die.out ∧
      u.die.regs = s.die.regs) ∧
    (s.die.packetOk n off data.length true = false → ∃ u : State,
      exec (.packetSramAccess n true off data.length data) s = .next u ∧ SameMem s.die u.die ∧
      u.die.get (Reg.ENG_STATUS_FAULT n) = 1 ∧ u.die.out.head? = some (.sram n off false false [])) ∧
    (s.die.packetOk n off data.length false = true → ∃ u : State,
      exec (.packetSramAccess n false off data.length []) s = .next u ∧ SameMem s.die u.die ∧ u.die.regs = s.die.regs ∧
      u.die.out = .sram n off true (s.die.packetPoison n off data.length)
        (s.die.bytesAt (tileAddr n + off) data.length) :: s.die.out)) ∧
  (∀ (link : Nat) (m : Mark), link < 6 → s.die.linkUp link = true → bit s.die.sliceMask link = true →
    m.credits.length = 4 → exec (.tideMarkReceive link m) s = .next { s with die := s.die.markReceive link m }) ∧
  (∀ (tile : Nat), s.die.computeHeld = false →
    exec (.preloadEntryDone tile) s = .next { s with die := s.die.preloadDone tile }) ∧
  (∀ (ag : Agent) (word : Nat), s.die.computeHeld = false → s.die.mayControl ag = true →
    exec (.tideCtrlWrite ag word) s = .next { s with die := s.die.tideCtrlWrite ag word }) ∧
  (∀ (ag : Agent) (word : Nat), s.die.computeHeld = false → s.die.mayControl ag = true →
    exec (.tideThrottleWrite ag word) s = .next { s with die := s.die.tideThrottleWrite ag word }) ∧
  (∀ (tile : Nat) (write : Bool) (off len : Nat) (data : List Byte), s.die.tileAnswers tile = true → 1 ≤ len → len ≤ 1024 →
    (write = true → data.length = len) →
    exec (.packetSramAccess tile write off len data) s = .next { s with die := s.die.packetAccess tile write off len data })

/-! ### Relay load (R252 to R266, R581) -/

/-- R252, R255, R258, R259, R262 to R266, R444: a shard outside RECEIVING is refused upstream; a corrupt one is asked for
again, and fails the load after three resends; a duplicate is counted and acknowledged; one out of range is recorded; a
module forwards what is not its own, holds it until it is acknowledged, and stores its own in the golden copy; RELAY_ABORT
fails the load with code 10. Wherever its conditions hold, each command completes with the effect of the operation named for
it. -/
def Obligations.ShardsAreKeptForwardedOrAskedAgain : Prop := ∀ (s : State), s.die.live = true → s.die.fwRuns = true →
  (∀ sh lk seq, leAt sh 4 4 = seq →
    (s.die.relay.state ≠ rsReceiving → lk < 6 → ∃ u : State, exec (.shardReceive ⟨sh, lk⟩) s = .next u ∧
      u.die.relay = { s.die.relay with
        resends := s.die.relay.resends + 1, per := amSet 0 s.die.relay.per seq (amGet 0 s.die.relay.per seq + 1) } ∧
      u.die.regs = s.die.regs ∧ SameMem s.die u.die ∧
      u.die.out = .linkMsg lk lmRelayRefused [seq] :: s.die.out) ∧
    (s.die.relay.state = rsReceiving → shardOk sh = false → amGet 0 s.die.relay.per seq < 3 → s.die.relay.upLink < 6 →
      ∃ u : State, exec (.shardReceive ⟨sh, lk⟩) s = .next u ∧ u.die.relay.corrupt.contains seq = true ∧
      u.die.relay.resends = s.die.relay.resends + 1 ∧ amGet 0 u.die.relay.per seq = amGet 0 s.die.relay.per seq + 1 ∧
      u.die.out = .linkMsg s.die.relay.upLink lmRelayNak [seq] :: s.die.out ∧ u.die.regs = s.die.regs ∧ SameMem s.die u.die) ∧
    (s.die.relay.state = rsReceiving → shardOk sh = false → 3 ≤ amGet 0 s.die.relay.per seq → ∃ u : State,
      exec (.shardReceive ⟨sh, lk⟩) s = .next u ∧ u.die.relay.state = rsFailed ∧ u.die.relay.code = 6 ∧
      Recorded 0x20 3 0xFF 0xFFFF s.die u.die ∧ OnlyRegs logRegs s.die u.die ∧ SameMem s.die u.die) ∧
    (s.die.relay.state = rsReceiving → shardOk sh = true → s.die.relay.got.contains seq = false →
      s.die.relay.outside sh = false → s.die.relay.full sh.length = true →
      exec (.shardReceive ⟨sh, lk⟩) s = .next s) ∧
    (s.die.relay.state = rsReceiving → shardOk sh = true →
      (s.die.relay.got.contains seq = true → ∃ u : State, exec (.shardReceive ⟨sh, lk⟩) s = .next u ∧
        u.die.relay = { s.die.relay with dups := s.die.relay.dups + 1 } ∧ u.die.regs = s.die.regs ∧ SameMem s.die u.die ∧
        (s.die.relay.upLink < 6 → u.die.out = .linkMsg s.die.relay.upLink lmRelayAck [seq] :: s.die.out)) ∧
      (s.die.relay.got.contains seq = false → leAt sh 8 1 ≠ 0 →
        (seq < s.die.relay.first ∨ s.die.relay.last < seq ∨ (s.die.relay.preDone = true ∧
          s.die.relay.targets.contains (leAt sh 9 3) = false)) → ∃ u : State,
        exec (.shardReceive ⟨sh, lk⟩) s = .next u ∧ u.die.relay = s.die.relay ∧ Recorded 0x20 2 0xFF 0xFFFF s.die u.die ∧
        OnlyRegs logRegs s.die u.die ∧ SameMem s.die u.die) ∧
      (s.die.relay.got.contains seq = false → s.die.relay.full sh.length = false → leAt sh 8 1 = 0 → seq ≠ 0 → s.die.relay.nPre = 0 → ∃ u : State,
        exec (.shardReceive ⟨sh, lk⟩) s = .next u ∧ look u.die.relay.pre seq = some ((sh.drop 32).take (leAt sh 12 4)) ∧
        u.die.relay.got.contains seq = true ∧ u.die.regs = s.die.regs ∧ SameMem s.die u.die) ∧
      (s.die.relay.got.contains seq = false → s.die.relay.full sh.length = false → leAt sh 8 1 ≠ 0 →
        s.die.relay.outside sh = false →
        ((leAt sh 9 1, leAt sh 10 1, leAt sh 11 1) ≠ s.die.relayRel → s.die.relay.downLink < 6 → ∃ u : State,
          exec (.shardReceive ⟨sh, lk⟩) s = .next u ∧ u.die.relay.got.contains seq = true ∧ look u.die.relay.fwd seq = some sh ∧
          u.die.out.head? = some (.shard s.die.relay.downLink seq sh) ∧ u.die.regs = s.die.regs ∧ SameMem s.die u.die) ∧
        (∀ a pay, (leAt sh 9 1, leAt sh 10 1, leAt sh 11 1) = s.die.relayRel → s.die.relay.preDone = true → leAt sh 8 1 = 2 →
          leAt sh 16 8 + leAt sh 12 4 ≤ 0xF000000 → goldFactors + leAt sh 16 8 = a → (sh.drop 32).take (leAt sh 12 4) = pay →
          factorsOk (leAt sh 12 4 / 32 + 1) pay = true → ∃ u : State,
          exec (.shardReceive ⟨sh, lk⟩) s = .next u ∧ u.die.relay.kept.contains seq = true ∧ u.die.bytesAt a pay.length = pay ∧
          SameMemBut a pay.length s.die u.die ∧ u.die.regs = s.die.regs)))) ∧
  (∀ seq x, s.die.relay.state = rsReceiving → look s.die.relay.fwd seq = some x → ∃ u : State, exec (.relayAck seq) s = .next u ∧
    u.die.relay.fwd = amErase s.die.relay.fwd seq ∧ u.die.relay.acked.contains seq = true ∧ u.die.regs = s.die.regs ∧
    SameMem s.die u.die ∧ u.die.out = s.die.out) ∧
  (∀ k : Nat → Instr × Nat × Nat, k = (fun q => (.relayNak ⟨q, false⟩, lmRelayNak, 6)) ∨
    k = (fun q => (.relayNak ⟨q, true⟩, lmRelayNak, 5)) ∨ k = (fun q => (.relayReq q, lmRelayReq, 5)) → ∀ seq,
    s.die.relay.state = rsReceiving →
    (amGet 0 s.die.relay.per seq < 3 →
      (∀ x, look s.die.relay.fwd seq = some x → ∃ u : State, exec (k seq).1 s = .next u ∧
        u.die.relay = { s.die.relay with
          resends := s.die.relay.resends + 1, per := amSet 0 s.die.relay.per seq (amGet 0 s.die.relay.per seq + 1) } ∧
        u.die.regs = s.die.regs ∧ u.die.out = .shard s.die.relay.downLink seq x :: s.die.out) ∧
      (look s.die.relay.fwd seq = none → s.die.relay.upLink < 6 → ∃ u : State, exec (k seq).1 s = .next u ∧
        u.die.relay = { s.die.relay with
          resends := s.die.relay.resends + 1, per := amSet 0 s.die.relay.per seq (amGet 0 s.die.relay.per seq + 1) } ∧
        u.die.regs = s.die.regs ∧ u.die.out = .linkMsg s.die.relay.upLink (k seq).2.1 [seq] :: s.die.out)) ∧
    (3 ≤ amGet 0 s.die.relay.per seq → ∃ u : State, exec (k seq).1 s = .next u ∧ u.die.relay.state = rsFailed ∧
      u.die.relay.code = (k seq).2.2 ∧ Recorded 0x20 3 0xFF 0xFFFF s.die u.die ∧ SameMem s.die u.die)) ∧
  (∀ seq, s.die.relay.state = rsReceiving → s.die.relay.overdue seq = true →
    (amGet 0 s.die.relay.per seq < 3 → s.die.relay.upLink < 6 → ∃ u : State, exec (.shardTimeout seq) s = .next u ∧
      u.die.out = .linkMsg s.die.relay.upLink lmRelayReq [seq] :: s.die.out ∧ u.die.regs = s.die.regs ∧
      u.die.relay.resends = s.die.relay.resends + 1) ∧
    (3 ≤ amGet 0 s.die.relay.per seq → ∃ u : State, exec (.shardTimeout seq) s = .next u ∧ u.die.relay.state = rsFailed ∧
      u.die.relay.code = 5 ∧ Recorded 0x20 3 0xFF 0xFFFF s.die u.die)) ∧
  (∀ down : Bool, s.die.relay.state = rsReceiving ∨ s.die.relay.state = rsProgramming →
    (if down then s.die.relay.downLink < 6 else s.die.relay.upLink < 6) → ∃ u : State,
    exec (.relayAbort down) s = .next u ∧ u.die.relay = { s.die.relay with state := rsFailed, code := 10 } ∧
    Recorded 0x20 3 0xFF 0xFFFF s.die u.die ∧ OnlyRegs logRegs s.die u.die ∧ SameMem s.die u.die) ∧
  (∀ (m : ShardIn), exec (.shardReceive m) s = .next { s with die := s.die.shardReceive m.link m.bytes }) ∧
  (∀ (m : NakIn), s.die.relay.state = rsReceiving →
    exec (.relayNak m) s = .next { s with die := s.die.sendAgain m.seq lmRelayNak (if m.refused then 5 else 6) }) ∧
  (∀ (seq : Nat), s.die.relay.state = rsReceiving →
    exec (.relayReq seq) s = .next { s with die := s.die.sendAgain seq lmRelayReq 5 }) ∧
  (∀ (seq : Nat), s.die.relay.state = rsReceiving → s.die.relay.overdue seq = true →
    exec (.shardTimeout seq) s = .next { s with die := s.die.askAgain seq lmRelayReq 5 })

/-- R261, R262, R265, R581: a chart command that the relay state does not allow answers STATE and leaves one record Relay 1; CHART_RELAY
starts a load, CHART_STATUS reports it, CHART_ABORT fails it with code 10, CHART_DISCARD forgets it, GOLDEN_CHECK counts bad images. -/
def Obligations.ChartCommandsFollowTheRelayState : Prop := ∀ (s : State) (box : Nat), s.die.boxReady box = true →
  (∀ k : Instr × Bool, k ∈ [(Instr.chartAbort box, s.die.relay.state == rsReceiving || s.die.relay.state == rsProgramming),
      (.chartDiscard box, s.die.relay.state == rsReady || s.die.relay.state == rsFailed),
      (.goldenCheck box, s.die.relay.state == rsReady)] → k.2 = false → ∃ u : State, exec k.1 s = .next u ∧
    Replied box rcState [] u.die ∧ u.die.relay = s.die.relay ∧ Recorded 0x20 1 0xFF 0xFFFF s.die u.die ∧
    OnlyRegs logRegs s.die u.die ∧ SameMem s.die u.die) ∧
  (∀ p, p ≠ relayParamsOf (s.die.relayBytes box) → exec (.chartRelay box p) s = .next s) ∧
  (∀ p, p = relayParamsOf (s.die.relayBytes box) → s.die.relay.state = rsReceiving ∨ s.die.relay.state = rsProgramming → ∃ u : State,
    exec (.chartRelay box p) s = .next u ∧ Replied box rcState [] u.die ∧ u.die.relay = s.die.relay ∧ Recorded 0x20 1 0xFF 0xFFFF s.die u.die ∧
    OnlyRegs logRegs s.die u.die ∧ SameMem s.die u.die) ∧
  (∀ p, p = relayParamsOf (s.die.relayBytes box) → s.die.relay.state ≠ rsReceiving → s.die.relay.state ≠ rsProgramming →
    (s.die.tideState ≠ 0 → ∃ u : State, exec (.chartRelay box p) s = .next u ∧ Replied box rcBusy [] u.die ∧
      u.die.relay = s.die.relay ∧ u.die.regs = s.die.regs ∧ SameMem s.die u.die) ∧
    (s.die.tideState = 0 → (relayParamsOk p && relayZeros (s.die.relayBytes box)) = false → ∃ u : State, exec (.chartRelay box p) s = .next u ∧
      Replied box rcRange [] u.die ∧ u.die.relay = s.die.relay ∧ u.die.regs = s.die.regs ∧ SameMem s.die u.die) ∧
    (s.die.tideState = 0 → (relayParamsOk p && relayZeros (s.die.relayBytes box)) = true → ∃ u : State, exec (.chartRelay box p) s = .next u ∧
      Replied box rcOk (natLe 8 (if p.role = 0 then Config.inbox else 0)) u.die ∧ u.die.relay = {
        state := rsReceiving, role := p.role, upLink := p.upLink, downLink := p.downLink, org := p.org, first := p.first
        last := p.last, explicit := p.placement } ∧ SameMem s.die u.die ∧
      ∀ n l, s.die.enabled n = true → l < 256 → s.die.on (Reg.TILE_AMAP_VALID n l) = true →
        u.die.on (Reg.TILE_AMAP_PEND n l) = true ∧ u.die.get (Reg.TILE_AMAP_NEXT n l) = 0x1FF)) ∧
  (∃ u : State, exec (.chartStatus box) s = .next u ∧ (∃ bs, Replied box rcOk bs u.die ∧ leAt bs 0 1 = s.die.relay.state % 256 ∧
      leAt bs 1 1 = s.die.relay.code % 256 ∧ bs.length = 28 + 4 * min s.die.relay.listed.length 256) ∧
    u.die.relay = s.die.relay ∧ u.die.regs = s.die.regs ∧ SameMem s.die u.die) ∧
  (s.die.relay.state = rsReceiving ∨ s.die.relay.state = rsProgramming → ∃ u : State, exec (.chartAbort box) s = .next u ∧
    Replied box rcOk [] u.die ∧ u.die.relay = { s.die.relay with state := rsFailed, code := 10 } ∧ SameMem s.die u.die ∧
    Recorded 0x20 3 0xFF 0xFFFF s.die u.die ∧ OnlyRegs logRegs s.die u.die) ∧
  (s.die.relay.state = rsReady ∨ s.die.relay.state = rsFailed → ∃ u : State, exec (.chartDiscard box) s = .next u ∧
    Replied box rcOk [] u.die ∧ u.die.relay = {} ∧ SameMem s.die u.die) ∧
  (s.die.relay.state = rsReady → ∃ u : State, exec (.goldenCheck box) s = .next u ∧
    (∃ bs, Replied box rcOk bs u.die ∧ leAt bs 0 4 = s.die.badImages.length % 2 ^ 32) ∧ SameMem s.die u.die ∧
    OnlyRegs logRegs s.die u.die ∧ (s.die.badImages = [] → u.die.relay = s.die.relay) ∧
    (s.die.badImages ≠ [] → u.die.relay = { s.die.relay with state := rsFailed, code := 2 }))

/-! ### Array programming, map and upkeep (R110, R111, R267 to R302, R312 to R326) -/

/-- R110, R111, R113, R267, R268, R275, R277, R299 to R302, R321: VERIFY, PROGRAM, SPRING and CONDEMN act in the states that
allow them and are refused with a report and record Array 1 in the others; a pass that ends leaves the array READY, or
UNVERIFIED or CONDEMNED where cells failed. Wherever its conditions hold, each command completes with the effect of the
operation named for it. The codes of refused requests, the details of a spring calibration and the end of the repair chain
at a new image are the model's choices (log entries 30, 57, 60). -/
def Obligations.ArrayRequestsFollowTheArrayState : Prop := ∀ (s : State) (t a : Nat), s.die.live = true → s.die.tileRuns t = true →
  a < 272 →
  (s.die.fwRuns = true →
    (s.die.domainBusy t < 256 →
      (s.die.arrState t a ≠ asUnverified → ∃ u : State, exec (.arrayVerify t a none) s = .next u ∧ ReqRefused t a 1 s.die u.die) ∧
      (s.die.arrState t a = asUnverified → ∃ u : State, exec (.arrayVerify t a none) s = .next u ∧
        u.die.arrState t a = asVerifying ∧ u.die.arr t a = { s.die.arr t a with job := .verify [] } ∧
        (u.die.cal t a).holds = none ∧ SameMem s.die u.die ∧
        ((s.die.cal t a).holds = none → OnlyRegs [Reg.ARR_STATE t a] s.die u.die)) ∧
      (∀ l k e, l < 256 → s.die.imageOf t l = some k → s.die.newImage t a (some (256 * k + l)) = e →
        s.die.arrState t a = asUnverified → ∃ u : State, exec (.arrayVerify t a (some l)) s = .next u ∧
        u.die.arrState t a = asVerifying ∧
        u.die.arr t a = { s.die.arr t a with job := .verify (e.wanted t a k l (e.sparesUsed t a)) } ∧
        (u.die.cal t a).holds = some (256 * k + l) ∧ SameMem s.die u.die ∧
        ((s.die.cal t a).holds = some (256 * k + l) → OnlyRegs [Reg.ARR_STATE t a] s.die u.die)) ∧
      ((s.die.cal t a).reprog = true → exec (.spring t a) s = .next s) ∧
      ((s.die.cal t a).reprog = false → s.die.arrState t a = asReady → ∃ u : State, exec (.spring t a) s = .next u ∧ u.die.arrState t a = asCalibrating ∧
        u.die.on (Reg.ARR_STATE_IN_PLACE t a) = false ∧ (u.die.arr t a).job = .spring ∧
        OnlyRegs [Reg.ARR_STATE t a] s.die u.die ∧ SameMem s.die u.die) ∧
      ((s.die.cal t a).reprog = false → s.die.arrState t a = asServing → (s.die.arr t a).windowOpen = true → ∃ u : State,
        exec (.spring t a) s = .next u ∧ u.die.arrState t a = asCalibrating ∧ u.die.on (Reg.ARR_STATE_IN_PLACE t a) = true ∧ (u.die.arr t a).job = .spring ∧
        u.die.get (Reg.ARR_STATE_LOGICAL t a) = s.die.get (Reg.ARR_STATE_LOGICAL t a) ∧
        OnlyRegs [Reg.ARR_STATE t a] s.die u.die) ∧
      ((s.die.cal t a).reprog = false → s.die.arrState t a ≠ asReady → s.die.arrState t a ≠ asServing → ∃ u : State,
        exec (.spring t a) s = .next u ∧
        ReqRefused t a 7 s.die u.die)) ∧
    (∀ l sp b, s.die.programIssued t a l b = false → exec (.program t a l sp b) s = .next s) ∧
    (∀ l k sp, l < 256 → s.die.imageOf t l = some k → sparesOk sp = true → s.die.programRoom t a l none = true →
      s.die.programIssued t a l none = true →
      (s.die.arrState t a ≠ asUnverified → s.die.arrState t a ≠ asReady → ∃ u : State,
        exec (.program t a l sp none) s = .next u ∧ ReqRefused t a 2 s.die u.die) ∧
      (∀ e q, (s.die.newImage t a (some (256 * k + l))).refreshTakes t a l = e → s.die.sparesFor t a k l sp = q →
        s.die.arrState t a = asUnverified ∨ s.die.arrState t a = asReady → ∃ u : State,
        exec (.program t a l sp none) s = .next u ∧ u.die.arrState t a = asProgramming ∧ SameMem s.die u.die ∧
        u.die.arr t a = { s.die.arr t a with job := .program l (e.toProgram t a k l q 0 512) q none } ∧
        (∀ j, j < 8 → u.die.get (Reg.ARR_COLMAP_PROG_OK t a j) = 0) ∧
        u.die.getW (Reg.ARR_CFG t a) = w32 (s.die.cfgOf k l) ∧ u.die.getW (Reg.ARR_CLIFF t a) = w32 (s.die.cliffOf t k l))) ∧
    (s.die.arrState t a = asCondemned ∨ s.die.arrState t a = asDisabled → ∃ u : State, exec (.condemn t a) s = .next u ∧
      ReqRefused t a 8 s.die u.die) ∧
    (s.die.arrState t a ≠ asCondemned → s.die.arrState t a ≠ asDisabled → ∃ u : State, exec (.condemn t a) s = .next u ∧
      u.die.arrState t a = asCondemned ∧ (u.die.arr t a).job = .none ∧ (t, a) ∈ u.die.nv.defectMap ∧
      u.die.upkeep.withheld.contains (arrIx t a) = false) ∧
    (∀ m, (s.die.arr t a).job = .spring → springShapeOk m = true → s.die.on (Reg.ARR_STATE_IN_PLACE t a) = false →
      (springQf m ≤ s.die.upkeep.set.qfLim → s.die.springNonlinear t a m = false → s.die.springInRange t a m = true → ∃ u : State,
        exec (.springDone t a m) s = .next u ∧ u.die.arrState t a = asReady ∧ (u.die.arr t a).job = .none ∧
        u.die.get (Reg.CAL_GAIN_TGT t a) = enc 8 (s.die.springGain t a m) ∧ u.die.getW (Reg.CAL_QF t a) = w32 (springQf m) ∧
        u.die.get (Reg.CAL_CTRL_SNAP t a) = 1 ∧ SameMem s.die u.die) ∧
      (s.die.upkeep.set.qfLim < springQf m → (s.die.cal t a).springFails = 0 → s.die.upkeep.withheld.contains (arrIx t a) = false →
        ∃ u : State, exec (.springDone t a m) s = .next u ∧ u.die.arrState t a = asReady ∧ (u.die.arr t a).job = .none ∧
        (u.die.cal t a).springFails = 1 ∧ (u.die.cal t a).reprog = true ∧ u.die.get (Reg.CAL_QF_QF t a) = springQf m ∧
        Reported 5 s.die u.die ∧ SameMem s.die u.die))) ∧
  (∀ n, s.die.verifyCanEnd t a n = true →
    (n = 0 → ∃ u : State, exec (.arrayVerifyDone t a n) s = .next u ∧ u.die.arrState t a = asReady ∧
      u.die.arr t a = { s.die.arr t a with job := .none } ∧ OnlyRegs [Reg.ARR_STATE t a] s.die u.die ∧ SameMem s.die u.die) ∧
    (0 < n → s.die.upkeep.withheld.contains (arrIx t a) = false → ∃ u : State, exec (.arrayVerifyDone t a n) s = .next u ∧
      u.die.arrState t a = asUnverified ∧ u.die.arr t a = { s.die.arr t a with job := .none } ∧
      u.die.out = .firmware 5 [t, a, n] :: s.die.out ∧ OnlyRegs [Reg.ARR_STATE t a] s.die u.die)) ∧
  (∀ l targets sp stuck, (s.die.arr t a).job = .program l targets sp none → stuckOk none stuck = true →
    ((∀ q ∈ stuck, 266 * q.1 + q.2.1 ∈ (s.die.cal t a).stuck) → ∃ u : State, exec (.programDone t a stuck) s = .next u ∧
      u.die.arrState t a = asReady ∧ (u.die.arr t a).cells = cellsAfter (s.die.arr t a).cells targets stuck ∧
      (u.die.arr t a).job = .none ∧ (u.die.arr t a).loose = stuck.map (fun q => 266 * q.1 + q.2.1) ∧ SameMem s.die u.die ∧
      OnlyRegs (Reg.ARR_STATE t a :: (List.range 8).map (Reg.ARR_COLMAP t a)) s.die u.die) ∧
    ((∃ q ∈ stuck, 266 * q.1 + q.2.1 ∉ (s.die.cal t a).stuck) → ∃ u : State, exec (.programDone t a stuck) s = .next u ∧
      (u.die.arrState t a = asUnverified ∨ u.die.arrState t a = asCondemned) ∧ (u.die.arr t a).job = .none)) ∧
  (s.die.reqOk t a = true → s.die.domainBusy t < 256 →
    exec (.arrayVerify t a none) s = .next { s with die := s.die.verifyStart t a none } ∧
    ∀ l, l < 256 → (s.die.imageOf t l).isSome = true →
      exec (.arrayVerify t a (some l)) s = .next { s with die := s.die.verifyStart t a (some l) }) ∧
  (∀ (failing : Nat), s.die.verifyCanEnd t a failing = true →
    exec (.arrayVerifyDone t a failing) s = .next { s with die := s.die.verifyDone1 t a failing }) ∧
  (∀ l k sp band, s.die.reqOk t a = true → l < 256 → s.die.imageOf t l = some k → sparesOk sp = true →
    (∀ b, band = some b → bandOk b = true) → s.die.programRoom t a l band = true → s.die.programIssued t a l band = true →
    exec (.program t a l sp band) s = .next { s with die := s.die.program1 t a k l sp band }) ∧
  (∀ (stuck : List (Nat × Nat × Nat)), s.die.programCanEnd t a stuck = true →
    exec (.programDone t a stuck) s = .next { s with die := s.die.programDone1 t a stuck }) ∧
  (s.die.reqOk t a = true → s.die.domainBusy t < 256 → (s.die.cal t a).reprog = false →
    exec (.spring t a) s = .next { s with die := s.die.springStart t a }) ∧
  (∀ (meas : SpringMeas), s.die.fwRuns = true → (s.die.arr t a).job = .spring → springShapeOk meas = true →
    exec (.springDone t a meas) s = .next { s with die := s.die.springEnd t a meas })

/-- R111, R269, R270: MAP of an unmapped logical array, UNMAP of a serving one, SWAP and REMAP of a mapped one put their
change down for the boundary, with PEND and NEXT, and move no other register; where the incoming array may not enter, or
nothing serves, they are refused. Wherever its conditions hold, each command completes with the effect of the operation
named for it. The codes of refused requests, and 0x1FF as the array of an UNMAP that nothing serves, are the model's
choices (log entries 30, 56). -/
def Obligations.MapRequestsWaitForTheBoundary : Prop := ∀ (s : State) (t l a : Nat), s.die.live = true → s.die.fwRuns = true →
  s.die.tileRuns t = true → l < 256 → a < 272 →
  (∀ k : Instr × MapKind × Bool × Nat × Bool, k ∈ [(Instr.map t l a, .map, false, 3, s.die.mapIssued t l a),
      (.swap t l a, .swap, true, 5, s.die.swapIssued t l a), (.remap t l a, .remap, true, 6, s.die.remapIssued t l a)] →
    (k.2.2.2.2 = false → exec k.1 s = .next s) ∧
    (k.2.2.2.2 = true → s.die.mayEnter t a = true → s.die.on (Reg.TILE_AMAP_VALID t l) = k.2.2.1 → s.die.on (Reg.TILE_AMAP_PEND t l) = false →
      ∃ u : State, exec k.1 s = .next u ∧ u.die.on (Reg.TILE_AMAP_PEND t l) = true ∧ u.die.get (Reg.TILE_AMAP_NEXT t l) = a ∧
      look u.die.mapPend (256 * t + l) = some k.2.1 ∧ u.die.on (Reg.TILE_AMAP_VALID t l) = k.2.2.1 ∧
      u.die.get (Reg.TILE_AMAP_PHYS t l) = s.die.get (Reg.TILE_AMAP_PHYS t l) ∧ u.die.arrays = s.die.arrays ∧
      OnlyRegs [Reg.TILE_AMAP t l] s.die u.die ∧ SameMem s.die u.die) ∧
    (k.2.2.2.2 = true →
      s.die.mayEnter t a = false ∨ s.die.on (Reg.TILE_AMAP_VALID t l) = !k.2.2.1 ∨ s.die.on (Reg.TILE_AMAP_PEND t l) = true →
      ∃ u : State, exec k.1 s = .next u ∧ ReqRefused t a k.2.2.2.1 s.die u.die)) ∧
  (∀ x, s.die.serving t l = some x → s.die.arrState t x = asServing → s.die.on (Reg.TILE_AMAP_PEND t l) = false → ∃ u : State,
    exec (.unmap t l) s = .next u ∧ u.die.on (Reg.TILE_AMAP_PEND t l) = true ∧ u.die.get (Reg.TILE_AMAP_NEXT t l) = 0x1FF ∧
    look u.die.mapPend (256 * t + l) = some .unmap ∧ u.die.serving t l = some x ∧
    OnlyRegs [Reg.TILE_AMAP t l] s.die u.die ∧ SameMem s.die u.die) ∧
  (s.die.serving t l = none → ∃ u : State, exec (.unmap t l) s = .next u ∧ ReqRefused t 0x1FF 4 s.die u.die) ∧
  (s.die.reqOk t 0 = true → exec (.unmap t l) s = .next { s with die := s.die.unmapReq t l })

/-- R271, R278, R282, R287, R289, R291, R292, R294 to R297, R312, R315, R319, R324, R325: SNAP on a serving array is ignored
with record Array 4; a due array joins the queue, and is deferred with a record where nothing can refresh it; overdue,
stale and rejected calibrations are reported; the estimates follow R291 and the diode; a watch ends with the FRAC it
found; a repair rank is written over its slot alone. Wherever its conditions hold, each command completes with the effect
of the operation named for it. The rounding of the estimates, and which region holds which factor of a repair rank, are
the model's choices (log entries 32, 61). -/
def Obligations.CalibrationEventsKeepTheirRules : Prop := ∀ (s : State) (t a : Nat), s.die.live = true → a < 272 →
  (∀ ag, s.die.tileWrite ag t = true →
    (s.die.snapBarred t a = true → ∃ u : State, exec (.calSnap ag t a) s = .next u ∧ Recorded 0x11 4 t a s.die u.die ∧
      OnlyRegs logRegs s.die u.die ∧ SameMem s.die u.die ∧ u.die.out.head? = some (.status ag stOk)) ∧
    (s.die.snapBarred t a = false → ∃ u : State, exec (.calSnap ag t a) s = .next u ∧ u.die.get (Reg.CAL_CTRL_SNAP t a) = 1 ∧
      OtherBits (Reg.CAL_CTRL_SNAP t a) s.die u.die ∧ OnlyRegs [Reg.CAL_CTRL t a] s.die u.die ∧ SameMem s.die u.die) ∧
    (∃ u : State, exec (.sndCntClr ag t) s = .next u ∧ u.die.get (Reg.SND_TILE_CTRL_CNT_CLR t) = 1 ∧
      OtherBits (Reg.SND_TILE_CTRL_CNT_CLR t) s.die u.die ∧ OnlyRegs [Reg.SND_TILE_CTRL t] s.die u.die ∧ SameMem s.die u.die)) ∧
  (s.die.fwRuns = true → s.die.enabled t = true →
    (∀ l x drift age, l < 256 → s.die.isDue t l drift age = true → s.die.serving t l = some x → ∃ u : State,
      exec (.refreshDue t l drift age) s = .next u ∧ SameMem s.die u.die ∧ u.die.upkeep.due = insertDue
        (s.die.upkeep.due.filter (fun y => !(y.tile == t && y.logical == l)))
        { tile := t, logical := l, byDrift := drift, fall := s.die.drift t x, age := age } ∧
      ((s.die.pool t).isEmpty = false ∨ s.die.windowCovers t l = true → u.die.regs = s.die.regs) ∧
      ((s.die.pool t).isEmpty = true → s.die.windowCovers t l = false → look s.die.upkeep.deferred (256 * t + l) = none →
        Recorded 0x12 2 t x s.die u.die ∧ look u.die.upkeep.deferred (256 * t + l) = some (s.die.now / 1000000000) ∧
        OnlyRegs logRegs s.die u.die)) ∧
    (∀ l, l < 256 → s.die.overdue t l = false → exec (.refreshOverdue t l) s = .next s) ∧
    (∀ l, l < 256 → s.die.overdue t l = true → s.die.upkeep.set.degraded = false → ∃ u : State,
      exec (.refreshOverdue t l) s = .next u ∧ u.die.get (Reg.TILE_SPARE_OVERDUE t) = 1 ∧ Reported 9 s.die u.die ∧
      SameMem s.die u.die) ∧
    (s.die.arrState t a = asServing ∨ s.die.arrState t a = asReady → (s.die.cal t a).stale = false → (s.die.cal t a).lastRef + 65536 ≤ s.die.tideNum → ∃ u : State,
      exec (.refStale t a) s = .next u ∧ u.die.cal t a = { s.die.cal t a with stale := true } ∧ Reported 11 s.die u.die ∧
      SameMem s.die u.die) ∧
    (∀ w, (s.die.cal t a).watch = some w → w.1 ≤ s.die.tideNum → (s.die.cal t a).condemned = false → ∃ u : State,
      exec (.watchExpiry t a) s = .next u ∧ u.die.get (Reg.SND_CFG_FRAC t a) =
        (if (s.die.cal t a).degraded || s.die.on (Reg.CAL_QF_SUSPECT t a) then s.die.get (Reg.SND_CFG_FRAC t a) else w.2 % 16) ∧
      u.die.cal t a = { s.die.cal t a with watch := none } ∧ OnlyRegs [Reg.SND_CFG t a] s.die u.die ∧ SameMem s.die u.die)) ∧
  (s.die.fwRuns = true → s.die.tileRuns t = true →
    (∃ u : State, exec (.tileEstimate t) s = .next u ∧ SameMem s.die u.die ∧ u.die.get (Reg.CAL_TILE_TEMP_EST t) =
      (match s.die.tileEst t with | some e => enc 16 e | none => 0x8000)) ∧
    (∀ r avg v, s.die.arrState t a = asServing → s.die.tempTrigger t = false → s.die.driftTrigger t a = true →
      s.die.neapLeftOut t a = false → (s.die.cal t a).spring = some r → (s.die.cal t a).rgAvg = some avg → 0 < avg →
      neapValues (s.die.cal t a) r (arrIx t a) (s.die.estimate t) avg s.die.upkeep.set.neapRes = v →
      (s.die.neapReason t a v.1 v.2.1 v.2.2.1 v.2.2.2 = 0 → ∃ u : State, exec (.neapTrigger t a) s = .next u ∧
        u.die.get (Reg.CAL_GAIN_TGT t a) = enc 8 v.2.2.1 ∧ u.die.get (Reg.CAL_QF_REJECTS t a) = 0 ∧
        (u.die.cal t a).rgAccepted = avg ∧ (u.die.cal t a).neapDue = false ∧
        u.die.get (Reg.CAL_TILE_TEMP_LASTCAL t) = enc 16 (s.die.estimate t) ∧ SameMem s.die u.die) ∧
      (s.die.neapReason t a v.1 v.2.1 v.2.2.1 v.2.2.2 ≠ 0 → s.die.get (Reg.CAL_QF_REJECTS t a) < 2 → ∃ u : State,
        exec (.neapTrigger t a) s = .next u ∧ Reported 3 s.die u.die ∧
        u.die.get (Reg.CAL_QF_REJECTS t a) = s.die.get (Reg.CAL_QF_REJECTS t a) + 1 ∧
        u.die.getW (Reg.CAL_GAIN t a) = s.die.getW (Reg.CAL_GAIN t a) ∧ (u.die.cal t a).neapDue = false ∧
        SameMem s.die u.die))) ∧
  (s.die.fwRuns = true → s.die.armed = false → s.die.alignOpen = true → s.die.upkeep.diodeFresh = true → ∃ u : State,
    exec .tempAlign s = .next u ∧ u.die.upkeep.alignDue = false ∧ u.die.upkeep.aligned = true ∧ SameMem s.die u.die ∧ OnlyRegs (s.die.enabledTiles.map Reg.CAL_TILE_TEMP) s.die u.die ∧
    ∀ n x, s.die.enabled n = true → s.die.tileEst n = some x → u.die.get (Reg.CAL_TILE_TEMP_EST n) = s.die.diode) ∧
  (∀ m g n x data, s.die.fwRuns = true → s.die.rankIn m g n = some x → data ≠ s.die.rankData x →
    exec (.repairRankWrite m g n data) s = .next s) ∧
  (∀ m g n x data, s.die.fwRuns = true → s.die.outsFull = true → s.die.rankIn m g n = some x → s.die.rankDue x = true →
    s.die.rankData x = data → s.die.serve.inputs = [] → ∃ u : State, exec (.repairRankWrite m g n data) s = .next u ∧
    u.die.regs = s.die.regs ∧ u.die.upkeep = { s.die.upkeep with
      ranks := s.die.upkeep.ranks.map (fun r => if r = x then { x with written := true } else r) } ∧
    (∀ p, s.die.slotSpans m g n = [p] → u.die.bytesAt p.1 p.2 = data) ∧
    ∀ c, (∀ q ∈ s.die.slotSpans m g n, c < q.1 ∨ q.1 + q.2 ≤ c) → u.die.byteAt c = s.die.byteAt c) ∧
  (∀ (logical : Nat) (byDrift : Bool) (age : Nat), s.die.fwRuns = true → s.die.enabled t = true → logical < 256 →
    s.die.isDue t logical byDrift age = true →
    exec (.refreshDue t logical byDrift age) s = .next { s with
      die := s.die.refreshDue t logical ((s.die.serving t logical).getD 0) byDrift age }) ∧
  (∀ (logical : Nat), s.die.fwRuns = true → s.die.overdue t logical = true → logical < 256 → s.die.enabled t = true →
    exec (.refreshOverdue t logical) s = .next { s with
      die := ((s.die.raise (Reg.TILE_SPARE_OVERDUE t)).exhausted t logical (s.die.serving t logical) 9) }) ∧
  (s.die.fwRuns = true → s.die.tileRuns t = true → s.die.neapMay t a = true →
    exec (.neapTrigger t a) s = .next { s with die := s.die.neap t a }) ∧
  (s.die.fwRuns = true → s.die.enabled t = true → s.die.watchOver t a = true →
    exec (.watchExpiry t a) s = .next { s with die := s.die.endWatch t a }) ∧
  (∀ m g n x, s.die.fwRuns = true → s.die.outsFull = true → s.die.rankIn m g n = some x → s.die.rankDue x = true →
    exec (.repairRankWrite m g n (s.die.rankData x)) s = .next { s with die := s.die.writeRank x (s.die.rankData x) })

/-- R292, R306, R315, R326: each upkeep command with its parameters in range is kept for the next boundary and answers OK,
and with one out of range answers RANGE and changes nothing; the status command changes nothing; REPAIR_SLOTS needs LOADED.
Wherever its conditions hold, each command completes with the effect of the operation named for it. -/
def Obligations.UpkeepCommandsAnswerInRange : Prop := ∀ (s : State) (box : Nat), s.die.boxReady box = true →
  (∀ (c : Instr) (ok : Bool) (x : UpkeepSet), (∃ n r q d, c = .calCfg box n r q d ∧
        ok = (inR 5 100 n && inR 2 64 r && inR 2 32 q && inR 10 60 d) ∧ x = { s.die.upkeep.next with
          neapTrig10 := n, neapRes := r, qfLim := q, springDist := d }) ∨
      (∃ d h, c = .refreshCfg box d h ∧ ok = (inR 10 100 d && inR 1 168 h) ∧
        x = { s.die.upkeep.next with drift10 := d, hours := h }) ∨
      (∃ g r, c = .upkeepPolicy box g r ∧ ok = inR 10 500 r ∧
        x = { s.die.upkeep.next with degraded := g, repairLim100 := r }) →
    ∃ u : State, exec c s = .next u ∧ Replied box (if ok then rcOk else rcRange) [] u.die ∧ u.die.regs = s.die.regs ∧
      u.die.upkeep = (if ok then { s.die.upkeep with next := x } else s.die.upkeep) ∧ SameMem s.die u.die) ∧
  (∀ t frac k4 g off seed, s.die.enabled t = true →
    ((inR 0 5 frac && inR 12 60 k4 && inR 0 255 g && inR 0 15 off && inR 1 (2 ^ 32 - 1) seed) = true → ∃ u : State,
      exec (.soundCfg box (some t) frac k4 g off seed) s = .next u ∧ Replied box rcOk [] u.die ∧
      u.die.upkeep = { s.die.upkeep with
        nextSound := keep s.die.upkeep.nextSound t (k4 * 2 ^ 16 + g * 2 ^ 8 + off * 2 ^ 4 + frac, seed) } ∧
      u.die.regs = s.die.regs ∧ u.die.tiles = s.die.tiles ∧ SameMem s.die u.die) ∧
    ((inR 0 5 frac && inR 12 60 k4 && inR 0 255 g && inR 0 15 off && inR 1 (2 ^ 32 - 1) seed) = false → ∃ u : State,
      exec (.soundCfg box (some t) frac k4 g off seed) s = .next u ∧ Replied box rcRange [] u.die ∧ u.die.regs = s.die.regs)) ∧
  (∀ t a, s.die.enabled t = true → a < 272 → s.die.arrState t a = asServing →
    (∃ u : State, exec (.calRequest box (.neap (.array t a))) s = .next u ∧ Replied box rcOk [] u.die ∧
      u.die.cal t a = { s.die.cal t a with neapDue := true } ∧ u.die.regs = s.die.regs) ∧
    (∃ u : State, exec (.calRequest box (.spring (.array t a))) s = .next u ∧ Replied box rcOk [] u.die ∧
      u.die = { s.die.springDue t a false with host := u.die.host } ∧
      (∀ l, s.die.mappedTo t a = some l → (s.die.pool t).isEmpty = false ∨ s.die.windowCovers t l = true →
        u.die.regs = s.die.regs))) ∧
  (∀ t a, s.die.enabled t = false → ∃ u : State, exec (.calRequest box (.neap (.array t a))) s = .next u ∧
    Replied box rcRange [] u.die ∧ u.die.regs = s.die.regs ∧ u.die.upkeep = s.die.upkeep) ∧
  (s.die.armed = true → ∃ u : State, exec (.calRequest box .diode) s = .next u ∧ Replied box rcBusy [] u.die ∧
    u.die.regs = s.die.regs ∧ u.die.upkeep = s.die.upkeep) ∧
  (∀ arrs reps, ∃ u : State, exec (.upkeepStatus box arrs reps) s = .next u ∧ (∃ bs, Replied box rcOk bs u.die ∧ bs.length = 12 ∧
      leAt bs 0 4 = s.die.enabledTiles.length) ∧ u.die.regs = s.die.regs ∧ u.die.upkeep = s.die.upkeep ∧ SameMem s.die u.die) ∧
  (∀ l, s.die.tideState ≠ 2 → ∃ u : State, exec (.repairSlots box l) s = .next u ∧ Replied box rcState [] u.die ∧
    u.die.upkeep = s.die.upkeep ∧ u.die.regs = s.die.regs) ∧
  (∀ l, s.die.tideState = 2 → (∀ x ∈ l, x.slots ≤ 4 ∧ x.tile < 64 ∧ x.region < 255) → ∃ u : State,
    exec (.repairSlots box l) s = .next u ∧ Replied box rcOk [] u.die ∧ u.die.upkeep = { s.die.upkeep with slots := l, groups := (match s.die.tide.table with
      | some tb => s.die.rowGroups tb | none => []) } ∧ u.die.regs = s.die.regs) ∧
  (∀ (tile : Option Nat) (frac k4 sysGain offAllow seed : Nat), exec (.soundCfg box tile frac k4 sysGain offAllow seed) s = .next { s with
      die := s.die.ranged box (!(s.die.tilesOf tile).isEmpty && inR 0 5 frac && inR 12 60 k4 && inR 0 255 sysGain &&
        inR 0 15 offAllow && inR 1 (2 ^ 32 - 1) seed) (fun e => (e.tilesOf tile).foldl
        (fun g t => g.soundSet t frac k4 sysGain offAllow seed) e) }) ∧
  (∀ (req : CalReq), exec (.calRequest box req) s = .next { s with die := s.die.calRequest box req }) ∧
  (∀ l, s.die.tideState = 2 → ¬ (∀ x ∈ l, x.slots ≤ 4 ∧ x.tile < 64 ∧ x.region < 255) → ∃ u : State,
    exec (.repairSlots box l) s = .next u ∧ Replied box rcRange [] u.die ∧ u.die.upkeep = s.die.upkeep ∧ u.die.regs = s.die.regs)

/-! ### Contexts, steps and serving (R327 to R357, R362 to R364, R366) -/

/-- R327, R333, R335, R337, R352, R354, R357, R362, R363: KV_CFG, STEP_CFG and KV_ROUTE need LOADED and parameters in range;
CTX_SUBMIT answers NOT_FRONT, RANGE, or the first check of the breakwater that fails with the quantity needed and the
quantity available, and else puts the context into the lowest FREE record with its pages reserved. Wherever its conditions
hold, each command completes with the effect of the operation named for it. -/
def Obligations.ConfigurationAndSubmissionAnswerByRule : Prop := ∀ (s : State) (box : Nat), s.die.boxReady box = true →
  (∀ (c : Instr) (ok : Bool) (x : Serve), (∃ p, c = .kvCfg box p ∧ ok = s.die.kvOk p ∧ x = { s.die.serve with kv := some p }) ∨
      (∃ p, c = .stepCfg box p ∧ ok = stepCfgOk p ∧ x = { s.die.serve with stepCfg := some p }) ∨
      (∃ p, c = .kvRoute box p ∧ ok = (inR 1 1000 (p.tmo.getD 20) && decide (p.org.1 < 32) && decide (p.org.2.1 < 32) &&
        decide (p.org.2.2 < 32)) ∧ x = { s.die.serve with route := some p }) →
    (s.die.tideState ≠ 2 → ∃ u : State, exec c s = .next u ∧ Replied box rcBusy [] u.die ∧ u.die.serve = s.die.serve ∧
      u.die.regs = s.die.regs ∧ SameMem s.die u.die) ∧
    (s.die.tideState = 2 → ∃ u : State, exec c s = .next u ∧ Replied box (if ok then rcOk else rcRange) [] u.die ∧
      u.die.serve = (if ok then x else s.die.serve) ∧ u.die.regs = s.die.regs ∧ SameMem s.die u.die)) ∧
  (∀ p,
    (s.die.serve.stepCfg.isSome = true → s.die.isFront = false → ∃ u : State, exec (.ctxSubmit box p) s = .next u ∧
      Replied box rcNotFront [] u.die ∧ u.die.serve = s.die.serve ∧ u.die.regs = s.die.regs ∧ SameMem s.die u.die) ∧
    (s.die.serve.stepCfg.isNone = true ∨ s.die.isFront = true →
      (submitOk p = false → ∃ u : State, exec (.ctxSubmit box p) s = .next u ∧ Replied box rcRange [] u.die ∧
        u.die.serve = s.die.serve ∧ u.die.regs = s.die.regs ∧ SameMem s.die u.die) ∧
      (∀ code need avail, submitOk p = true → s.die.breakwater p = some (code, need, avail) → ∃ u : State,
        exec (.ctxSubmit box p) s = .next u ∧ Replied box code (natLe 8 need ++ natLe 8 avail) u.die ∧
        u.die.serve = s.die.serve ∧ (u.die.meter p.tenant).refusals = (s.die.meter p.tenant).refusals + 1 ∧
        u.die.regs = s.die.regs ∧ SameMem s.die u.die) ∧
      (∀ n, submitOk p = true → s.die.breakwater p = none → s.die.freeCtx = some n → ∃ u : State,
        exec (.ctxSubmit box p) s = .next u ∧ Replied box rcOk (natLe 4 n) u.die ∧
        (u.die.ctx n).state = (if p.shipIn then csShipping else csQueued) ∧ (u.die.ctx n).tenant = p.tenant ∧
        (u.die.ctx n).reqId = p.reqId ∧ (u.die.ctx n).promptLen = p.promptLen ∧ (u.die.ctx n).tSubmit = s.die.now ∧
        (u.die.ctx n).reserve = pagesFor (p.promptLen + min p.maxOut (s.die.tenant p.tenant).resvOut) ∧
        u.die.bytesAt (ctxArea + 256 * n) (ctxBytes n (u.die.ctx n)).length = ctxBytes n (u.die.ctx n)))) ∧
  (∀ (p : SubmitParams), exec (.ctxSubmit box p) s = .next { s with die := s.die.submit box p })

/-- R328, R330, R331, R333, R337, R347, R357, R571: a command on a context answers NOT_FRONT, RANGE, or STATE with record
Serving 1 in a state it does not allow; it acts at once, or at the retirement of the berth the context holds; a released or
expired record is FREE. Wherever its conditions hold, each command completes with the effect of the operation named for it. -/
def Obligations.ContextCommandsFollowTheContextState : Prop := ∀ (s : State) (n : Nat),
  (∀ box, s.die.boxReady box = true →
    (∀ k : Instr × Bool, k ∈ [(Instr.ctxCancel box n, decide (1 ≤ (s.die.ctx n).state) && decide ((s.die.ctx n).state ≤ 5)),
        (.ctxPark box n, decide (1 ≤ (s.die.ctx n).state) && decide ((s.die.ctx n).state ≤ 3)),
        (.ctxResume box n, (s.die.ctx n).state == csParked && (s.die.ctx n).reason == 32),
        (.ctxRelease box n, (s.die.ctx n).state == csDone || (s.die.ctx n).state == csFailed)] →
      (s.die.isFront = false → ∃ u : State, exec k.1 s = .next u ∧ Replied box rcNotFront [] u.die ∧
        u.die.serve = s.die.serve ∧ u.die.regs = s.die.regs) ∧
      (s.die.isFront = true → ctxCount ≤ n → ∃ u : State, exec k.1 s = .next u ∧ Replied box rcRange [] u.die ∧
        u.die.serve = s.die.serve ∧ u.die.regs = s.die.regs) ∧
      (s.die.isFront = true → n < ctxCount → k.2 = false → ∃ u : State, exec k.1 s = .next u ∧ Replied box rcState [] u.die ∧
        u.die.serve = s.die.serve ∧ Recorded 0x21 1 92 0xFFFF s.die u.die ∧ OnlyRegs logRegs s.die u.die ∧
        SameMem s.die u.die)) ∧
    (s.die.isFront = true → n < ctxCount →
      ((s.die.ctx n).live = true → s.die.holdsBerth n = true → ∃ u : State, exec (.ctxCancel box n) s = .next u ∧
        Replied box rcOk [] u.die ∧ u.die.ctx n = { s.die.ctx n with pend := 1 } ∧ u.die.regs = s.die.regs) ∧
      ((s.die.ctx n).live = true → s.die.holdsBerth n = false → ∃ u : State, exec (.ctxCancel box n) s = .next u ∧
        Replied box rcOk [] u.die ∧ (u.die.ctx n).state = csDone ∧ (u.die.ctx n).reason = 4 ∧ (u.die.ctx n).pages = [] ∧
        (u.die.ctx n).reserve = 0) ∧
      (1 ≤ (s.die.ctx n).state → (s.die.ctx n).state ≤ 3 → s.die.holdsBerth n = true → ∃ u : State,
        exec (.ctxPark box n) s = .next u ∧ Replied box rcOk [] u.die ∧ u.die.ctx n = { s.die.ctx n with
          pend := if (s.die.ctx n).pend = 0 then 2 else (s.die.ctx n).pend } ∧ u.die.regs = s.die.regs) ∧
      (1 ≤ (s.die.ctx n).state → (s.die.ctx n).state ≤ 3 → s.die.holdsBerth n = false → ∃ u : State,
        exec (.ctxPark box n) s = .next u ∧ Replied box rcOk [] u.die ∧ u.die.ctx n = { s.die.ctx n with
          state := csParked, reason := 32, left := (s.die.ctx n).state, since := s.die.now }) ∧
      ((s.die.ctx n).state = csParked → (s.die.ctx n).reason = 32 → ∃ u : State, exec (.ctxResume box n) s = .next u ∧
        Replied box rcOk [] u.die ∧ u.die.ctx n = { s.die.ctx n with
          state := (s.die.ctx n).left, reason := 0, since := s.die.now }) ∧
      ((s.die.ctx n).state = csDone ∨ (s.die.ctx n).state = csFailed → ∃ u : State, exec (.ctxRelease box n) s = .next u ∧
        Replied box rcOk [] u.die ∧ u.die.ctx n = {} ∧ u.die.serve.cache.contains n = false) ∧
      ((s.die.ctx n).state ≠ csFree → ∃ u : State, exec (.ctxStatus box n) s = .next u ∧ Replied box rcOk ((ctxBytes n (s.die.ctx n)).take 120 ++
        (ctxBytes n (s.die.ctx n)).drop 184) u.die ∧ u.die.serve = s.die.serve ∧ u.die.regs = s.die.regs) ∧
      ((s.die.ctx n).state = csFree → ∃ u : State, exec (.ctxStatus box n) s = .next u ∧ Replied box rcNoRecord [] u.die ∧
        u.die.serve = s.die.serve ∧ u.die.regs = s.die.regs)) ∧
    (s.die.isFront = false → ∃ u : State, exec (.stepLog box) s = .next u ∧ Replied box rcNotFront [] u.die ∧
      u.die.serve = s.die.serve) ∧
    (s.die.isFront = true → ∃ u : State, exec (.stepLog box) s = .next u ∧ (∃ bs, Replied box rcOk bs u.die ∧
      (s.die.serve.steps = [] → s.die.serve.log = [] → bs = [])) ∧ u.die.serve = s.die.serve ∧ u.die.regs = s.die.regs) ∧
    (∃ u : State, exec (.kvStatus box) s = .next u ∧ (∃ bs, Replied box rcOk bs u.die ∧ bs.length = 20 ∧
      leAt bs 4 4 = s.die.freePages % 2 ^ 32 ∧ leAt bs 8 4 = s.die.reserved % 2 ^ 32) ∧ u.die.serve = s.die.serve ∧
      u.die.regs = s.die.regs ∧ SameMem s.die u.die)) ∧
  (s.die.live = true → s.die.fwRuns = true → s.die.isFront = true →
    ((s.die.ctx n).state = csDone ∨ (s.die.ctx n).state = csFailed → (s.die.ctx n).since + 1000000 * s.die.holdMs ≤ s.die.now →
      ∃ u : State, exec (.ctxHoldExpiry n) s = .next u ∧ u.die.ctx n = {} ∧ u.die.serve.cache.contains n = false) ∧
    ((s.die.ctx n).state = csParked → (s.die.ctx n).reason = 33 → (s.die.ctx n).since + 1000000 * s.die.parkMs ≤ s.die.now → ∃ u : State,
      exec (.parkLimitExpiry n) s = .next u ∧ (u.die.ctx n).state = csFailed ∧ (u.die.ctx n).reason = 18 ∧
      (u.die.ctx n).pages = [])) ∧
  (∀ box, s.die.boxReady box = true → s.die.isFront = false ∨ ctxCount ≤ n → ∃ u : State,
    exec (.ctxStatus box n) s = .next u ∧
    Replied box (if s.die.isFront = false then rcNotFront else rcRange) [] u.die ∧ u.die.serve = s.die.serve ∧ u.die.regs = s.die.regs)

/-- R329, R334, R337, R350, R352 to R355, R363: prompt tokens are placed by offset; a page of a shipped context goes out, is
acknowledged, sent again or lost by rule; a page that arrives goes into a page of the pool; slice messages go to the front or
act on it. Wherever its conditions hold, each command completes with the effect of the operation named for it. -/
def Obligations.PromptsPagesAndSliceMessagesArrive : Prop := ∀ (s : State),
  (∀ m l ack, s.die.accepts m 0x50 2 = true → (∀ e ∈ l, 1 ≤ e.tokens.length ∧ e.tokens.length ≤ 2048) →
    (s.die.fwRuns = false → ∃ u : State, exec (.streamIn m l ack) s = .next u ∧ (ack = true → Responded m 0x50 stNoFirmware [] s.die u.die) ∧
      (ack = false → ∀ x, s.die.session m.slot = some x → ∃ y, u.die.session m.slot = some y ∧ y.devSeq = x.devSeq ∧ y.cache = x.cache) ∧
      u.die.serve = s.die.serve ∧ SameMem s.die u.die) ∧
    (s.die.fwRuns = true → s.die.isFront = false → ∃ u : State, exec (.streamIn m l ack) s = .next u ∧
      (ack = true → Responded m 0x50 stNotFront [] s.die u.die) ∧ u.die.serve = s.die.serve ∧ SameMem s.die u.die) ∧
    (s.die.fwRuns = true → s.die.isFront = true →
      (ack = true → ∃ u : State, exec (.streamIn m l ack) s = .next u ∧ ∃ (x : Session) (q : Nat), s.die.session m.slot = some x ∧
        x.devSeq ≤ q ∧ Told x.src 0x50 (({ x with devSeq := q } : Session).message 1 0x50 stOk m.seq []) u.die) ∧
      (∀ e, l = [e] → s.die.entryRefused e = none → ∃ u : State, exec (.streamIn m l ack) s = .next u ∧
        (u.die.ctx e.ctx).state = (s.die.ctx e.ctx).state ∧ ∀ i, i < e.tokens.length →
          (s.die.ctx e.ctx).promptRcvd ≤ e.offset + i → look (s.die.ctx e.ctx).prompt (e.offset + i) = none →
          look (u.die.ctx e.ctx).prompt (e.offset + i) = e.tokens[i]?) ∧
      (∀ e r, l = [e] → s.die.entryRefused e = some r → ∃ u : State, exec (.streamIn m l ack) s = .next u ∧
        u.die.serve.ctxs = s.die.serve.ctxs ∧ SameMem s.die u.die))) ∧
  (s.die.live = true → s.die.fwRuns = true →
    (∀ n page, (s.die.ctx n).outgoing = true →
      (∀ dst k, (s.die.ctx n).shipGot.length = page → page < ((s.die.ctx n).promptLen + 63) / 64 → s.die.shipDest = some dst →
        s.die.nextLink dst = some k → ∃ u : State, exec (.kvShipPage n page) s = .next u ∧
        u.die.out = .shard k page (s.die.shipBytes n page) :: s.die.out ∧ u.die.regs = s.die.regs ∧
        u.die.ctx n = { s.die.ctx n with shipGot := addOnce (s.die.ctx n).shipGot page }) ∧
      ((s.die.ctx n).shipGot.contains page = true →
        ((addOnce (s.die.ctx n).shipAcked page).length ≠ ((s.die.ctx n).promptLen + 63) / 64 → ∃ u : State,
          exec (.kvPageAck n page) s = .next u ∧ u.die.ctx n = { s.die.ctx n with
            shipAcked := addOnce (s.die.ctx n).shipAcked page } ∧ u.die.regs = s.die.regs) ∧
        (∀ dst k, (look (s.die.ctx n).shipResends page).getD 0 < 3 → s.die.shipDest = some dst → s.die.nextLink dst = some k →
          ∃ u : State, exec (.kvPageNak n page) s = .next u ∧ (∃ bs, u.die.out = .shard k page bs :: s.die.out) ∧
          look (u.die.ctx n).shipResends page = some ((look (s.die.ctx n).shipResends page).getD 0 + 1) ∧
          u.die.regs = s.die.regs) ∧
        (3 ≤ (look (s.die.ctx n).shipResends page).getD 0 → s.die.isFront = true → s.die.reprefill = false → ∃ u : State,
          exec (.kvPageNak n page) s = .next u ∧ (u.die.ctx n).state = csFailed ∧ (u.die.ctx n).reason = 19))) ∧
    (∀ (m : PageShard) k, (s.die.ctx m.ctx).state = csShipping → (s.die.ctx m.ctx).flag cfShipIn = true → m.page < m.npages →
      s.die.serve.kv = some k → m.payload.length = pageBytes k → m.ctx < ctxCount →
      (m.good = false → (look (s.die.ctx m.ctx).shipResends m.page).getD 0 < 3 → ∃ u : State,
        exec (.kvPageReceive m) s = .next u ∧ u.die.out = .linkMsg m.link lmPageNak [m.ctx, m.page] :: s.die.out ∧
        u.die.regs = s.die.regs ∧ (u.die.ctx m.ctx).shipGot = (s.die.ctx m.ctx).shipGot) ∧
      (∀ e a, m.good = true → s.die.addPages m.ctx (m.page + 1 - (s.die.ctx m.ctx).pages.length) = some e →
        4096 * (e.ctx m.ctx).pages.getD m.page 0 = a → a + m.payload.length ≤ ctxArea →
        (addOnce (e.ctx m.ctx).shipGot m.page).length ≠ m.npages → ∃ u : State, exec (.kvPageReceive m) s = .next u ∧
        u.die.out.head? = some (.linkMsg m.link lmPageAck [m.ctx, m.page]) ∧
        (u.die.ctx m.ctx).shipGot.contains m.page = true ∧ u.die.bytesAt a m.payload.length = m.payload)) ∧
    (∀ n page k x, (s.die.ctx n).state = csShipping → (s.die.ctx n).flag cfShipIn = true → page < ((s.die.ctx n).promptLen + 63) / 64 →
      (s.die.ctx n).shipGot.contains page = false → (look (s.die.ctx n).shipResends page).getD 0 < 3 →
      look (s.die.ctx n).shipClock page = some x ∨ look (s.die.ctx n).shipClock page = none ∧ page = 0 ∧ x = (s.die.ctx n).since →
      x + s.die.shipTmoNs ≤ s.die.now → (s.die.ctx n).shipLink = some k → ∃ u : State,
      exec (.kvShipTimeout n page) s = .next u ∧ u.die.out = .linkMsg k lmPageReq [n, page] :: s.die.out ∧
      look (u.die.ctx n).shipResends page = some ((look (s.die.ctx n).shipResends page).getD 0 + 1) ∧
      look (u.die.ctx n).shipClock page = some s.die.now ∧ u.die.regs = s.die.regs) ∧
    (∀ n, s.die.frontAt.isSome = true →
      (∀ m, s.die.isFront = true → exec (.sliceMessageReceive (.freePages m n)) s = .next { s with
        die := { s.die with serve := { s.die.serve with others := keep s.die.serve.others m n } } }) ∧
      (s.die.isFront = true → ∃ u : State, exec (.sliceMessageReceive (.packMissing n)) s = .next u ∧
        u.die.serve.packMissing.contains n = true ∧ u.die.regs = s.die.regs) ∧
      (∀ k m, s.die.isFront = false → s.die.parentLink = some k → exec (.sliceMessageReceive (.freePages m n)) s = .next { s with
        die := s.die.tellLink k lmFreePages [m, n] }) ∧
      (∀ k, s.die.isFront = false → k.state = csFree → ∃ u : State, exec (.sliceMessageReceive (.ctxState n k)) s = .next u ∧
        u.die.ctx n = {}) ∧
      (∀ k, s.die.isFront = false → k.state = csQueued ∨ k.state = csDecode ∨ k.state = csParked → ∃ u : State,
        exec (.sliceMessageReceive (.ctxState n k)) s = .next u ∧ u.die.ctx n = (s.die.ctx n).follow k s.die.now) ∧
      (∀ k st r pd oc, s.die.isFront = false → s.die.parentLink = some k →
        exec (.sliceMessageReceive (.ctxLost n st r pd oc)) s = .next { s with
          die := s.die.tellLink k lmCtxLost [n, st, r, pd, oc] }))) ∧
  (∀ (m : SliceMsg), s.die.live = true → s.die.fwRuns = true → s.die.frontAt.isSome = true →
    exec (.sliceMessageReceive m) s = .next { s with die := s.die.sliceMsg m }) ∧
  (∀ (ctx page : Nat), s.die.live = true → s.die.fwRuns = true → (s.die.ctx ctx).outgoing = true →
    (s.die.ctx ctx).shipGot.length = page → page < ((s.die.ctx ctx).promptLen + 63) / 64 →
    exec (.kvShipPage ctx page) s = .next { s with die := s.die.shipPage ctx page }) ∧
  (∀ (m : PageShard), s.die.live = true → s.die.fwRuns = true → (s.die.ctx m.ctx).state = csShipping →
    (s.die.ctx m.ctx).flag cfShipIn = true → m.page < m.npages →
    (match s.die.serve.kv with | some k => m.payload.length == pageBytes k | none => false) = true →
    exec (.kvPageReceive m) s = .next { s with die := s.die.pageReceive m }) ∧
  (∀ (ctx page : Nat), s.die.live = true → s.die.fwRuns = true → (s.die.ctx ctx).outgoing = true →
    (s.die.ctx ctx).shipGot.contains page = true →
    exec (.kvPageAck ctx page) s = .next { s with die := s.die.pageAck ctx page }) ∧
  (∀ (ctx page : Nat), s.die.live = true → s.die.fwRuns = true → (s.die.ctx ctx).outgoing = true →
    (s.die.ctx ctx).shipGot.contains page = true →
    exec (.kvPageNak ctx page) s = .next { s with die := s.die.resendPage ctx page (fun e => e.shipPage ctx page) }) ∧
  (∀ (ctx page : Nat), s.die.live = true → s.die.fwRuns = true → s.die.shipLate ctx page = true →
    exec (.kvShipTimeout ctx page) s = .next { s with die := s.die.askPage ctx page lmPageReq }) ∧
  (∀ (m : MsgHead) (entries : List StreamEntry) (ackReq : Bool), s.die.live = true → s.die.canRequest m = true →
    exec (.streamIn m entries ackReq) s = .next { s with
      die := s.die.request m 0x50 2 (entries.all (fun e => decide (1 ≤ e.tokens.length) &&
        decide (e.tokens.length ≤ 2048))) (fun e _ => e.streamIn m entries ackReq) ackReq })

/-- R330, R339, R340, R343 to R345, R369, R377: a fill whose records are cached makes the next step with the berths it placed;
a plan makes the same step on another module; a FULL result is taken for its berth; a good berth delivers one token and a
troubled one is retried; a record fetched is cached. Wherever its conditions hold, each command completes with the effect
of the operation named for it. The details of a fill that waits for a record are the model's choices (log entry 67). -/
def Obligations.StepsFillRunAndRetire : Prop := ∀ (s : State), s.die.live = true → s.die.fwRuns = true →
  (∀ t, s.die.mayFill = true → s.die.tide.table = some t →
    (∀ p e, s.die.serve.heldPlan = none → s.die.decidePlan t = (p, e) →
      p.berths = sortBy (fun b => [b.berth]) (s.die.fillStep t).placed ∧ p.step = s.die.serve.nextStep ∧
      ((∃ b ∈ p.berths, e.serve.cache.contains b.ctx = false) → exec .stepFill s = .next { s with
        die := { e with serve := { e.serve with heldPlan := some p } } }) ∧
      ((∀ b ∈ p.berths, e.serve.cache.contains b.ctx = true) → ∃ u : State, exec .stepFill s = .next u ∧
        u.die.serve.nextStep = p.step + 1 ∧ ∃ x ∈ u.die.serve.steps, x.step = p.step ∧
        x.berths = sortBy (fun b => [b.berth]) (p.berths.map keptBerth))) ∧
    (∀ p, s.die.serve.heldPlan = some p →
      ((∃ b ∈ p.berths, s.die.serve.cache.contains b.ctx = false) → exec .stepFill s = .next s) ∧
      ((∀ b ∈ p.berths, s.die.serve.cache.contains b.ctx = true) → ∃ u : State, exec .stepFill s = .next u ∧
        u.die.serve.nextStep = p.step + 1 ∧ u.die.serve.heldPlan = none ∧ ∃ x ∈ u.die.serve.steps, x.step = p.step ∧
        x.berths = sortBy (fun b => [b.berth]) (p.berths.map keptBerth)))) ∧
  (∀ p t, s.die.isFront = false → s.die.parentLink.isSome = true → s.die.tide.table = some t → ∃ u : State,
    exec (.stepPlanReceive p) s = .next u ∧ ∃ x ∈ u.die.serve.steps, x.step = p.step ∧
    x.berths = sortBy (fun b => [b.berth]) (p.berths.map keptBerth)) ∧
  (∀ b, s.die.serve.steerWait.contains b = true → ∃ u : State, exec (.steerCopyDone b) s = .next u ∧
    u.die.serve.steerWait = without s.die.serve.steerWait b) ∧
  (∀ n, n < ctxCount → s.die.serve.cache.contains n = true ∨ s.die.serve.cache.length < 16384 ∨
      (∃ m ∈ s.die.serve.cache, s.die.holdsBerth m = false ∧ (s.die.ctx m).state ≠ csShipping) → ∃ u : State,
    exec (.contextFetch n) s = .next u ∧ u.die.serve.cache.contains n = true ∧ u.die.serve.ctxs = s.die.serve.ctxs ∧ u.die.regs = s.die.regs ∧ SameMem s.die u.die) ∧
  (∀ t e r v n bad, s.die.tide.table = some t → t.berths.find? (fun x => x.berth == e.berth) = some e →
    e.outOp / 2 ^ 24 % 256 = r → s.die.isFull e.outTile r = true → s.die.serve.inputs = [] →
    s.die.bytesAt (s.die.rgnAddr e.outTile r (e.outOp % 2 ^ 24)) 16 = v → s.die.isPoison e.outTile r = bad →
    (look s.die.serve.outSeen e.berth).getD 0 = n →
    (s.die.isFront = true → ∃ u : State, exec (.berthResult e.berth) s = .next u ∧ u.die.feOf e.outTile r = (false, false) ∧
      look u.die.serve.outSeen e.berth = some (n + 1) ∧ u.die.regs = s.die.regs ∧ SameMem s.die u.die ∧
      ∀ x ∈ s.die.serve.steps, x.step = n → ∀ y ∈ x.berths, y.berth = e.berth → ∃ x' ∈ u.die.serve.steps, x'.step = n ∧
        ∃ y' ∈ x'.berths, y'.ctx = y.ctx ∧ y'.result = some (leAt v 0 4, bit (leAt v 8 4) 0 || bad)) ∧
    (∀ k, s.die.isFront = false → s.die.parentLink = some k → ∃ u : State, exec (.berthResult e.berth) s = .next u ∧
      u.die.feOf e.outTile r = (false, false) ∧ u.die.regs = s.die.regs ∧
      u.die.out = .linkMsg k lmResult [e.berth, leAt v 0 8, leAt v 8 8, b2n bad] :: s.die.out)) ∧
  (∀ x b token poison c, s.die.isFront = true → s.die.serve.steps.find? (fun y => !y.done) = some x →
    x.berths[x.retired]? = some b → b.result = some (token, poison) → x.retired + 1 < x.berths.length → s.die.ctx b.ctx = c →
    c.state = csDecode → b.kind = 1 →
    ((poison || x.faulted) = false → c.lateAt s.die.now = false → c.stop.contains token = false → c.outCount + 1 ≠ c.maxOut →
      c.promptLen + c.outCount + 1 ≠ 1048576 → ∃ u : State, exec (.berthRetire b.berth) s = .next u ∧
      (u.die.ctx b.ctx).outCount = c.outCount + 1 ∧ (u.die.ctx b.ctx).state = csDecode ∧
      (u.die.ctx b.ctx).rng = xorshift32 c.rng ∧ (u.die.ctx b.ctx).tLast = s.die.now ∧
      look (u.die.ctx b.ctx).lastTokens (c.outCount % 16) = some token ∧
      (u.die.meter c.tenant).tokensOut = (s.die.meter c.tenant).tokensOut + 1) ∧
    (∀ p, (poison || x.faulted) = true → c.trouble = none → c.lateAt s.die.now = false → s.die.serve.stepCfg = some p → p.failPolicy ≠ some true → ∃ u : State,
      exec (.berthRetire b.berth) s = .next u ∧ (u.die.ctx b.ctx).outCount = c.outCount ∧
      (u.die.ctx b.ctx).state = csDecode ∧ (u.die.ctx b.ctx).flag cfRetried = true ∧
      (u.die.ctx b.ctx).trouble = some (s.die.serve.base + x.step)) ∧
    (∀ k, k ≠ b.berth → exec (.berthRetire k) s = .next s)) ∧
  (∀ (plan : StepPlan), s.die.isFront = false → s.die.parentLink.isSome = true →
    exec (.stepPlanReceive plan) s = .next { s with die := s.die.planReceive plan }) ∧
  (∀ tb e, s.die.tide.table = some tb → tb.berths.find? (fun x => x.berth == e.berth) = some e →
    s.die.isFull e.outTile (e.outOp / 2 ^ 24 % 256) = true →
    exec (.berthResult e.berth) s = .next { s with die := s.die.berthResult e }) ∧
  (∀ (berth : Nat), s.die.isFront = true → exec (.berthRetire berth) s = .next { s with die := s.die.berthRetire berth }) ∧
  (∀ (ctx : Nat), ctx < ctxCount → exec (.contextFetch ctx) s = .next { s with die := s.die.cacheCtx ctx })

/-! ### Tenants, steering packs, prefixes and metering (R358 to R382) -/

/-- R358, R359, R363, R368 to R370, R372, R375, R379 to R382: the commands of the front answer NOT_FRONT elsewhere; each acts
within its ranges and states and answers its own code outside them; a closed tenant is disabled, its contexts end CANCELLED,
its scope loses its keys; energy goes to accounts, windows become snapshots, and snapshots are read back. Wherever its
conditions hold, each command completes with the effect of the operation named for it. -/
def Obligations.TenantPackPrefixAndMeterCommandsActByRule : Prop := ∀ (s : State),
  (∀ box, s.die.boxReady box = true →
    (∀ (t n v : Nat) (o : Option Nat) (p : TenantParams) (q : PrefixParams), s.die.isFront = false →
      ∀ c ∈ [Instr.tenantCfg box t p, .tenantClose box t, .tenantStatus box t, .admitCfg box v, .prefixCfg box q,
        .prefixPublish box t n, .prefixFlush box o, .prefixStatus box], ∃ u : State, exec c s = .next u ∧
      Replied box rcNotFront [] u.die ∧ u.die.tenancy = s.die.tenancy ∧ u.die.serve = s.die.serve ∧ u.die.regs = s.die.regs ∧
      SameMem s.die u.die) ∧
    (s.die.isFront = true →
      (∀ t p, (tenantOk t p = false → ∃ u : State, exec (.tenantCfg box t p) s = .next u ∧ Replied box rcRange [] u.die ∧
          u.die.tenancy = s.die.tenancy) ∧
        (tenantOk t p = true → p.packId = 0 → ∃ u : State, exec (.tenantCfg box t p) s = .next u ∧ Replied box rcOk [] u.die ∧
          u.die.tenant t = p ∧ (t, p) ∈ u.die.tenancy.changed ∧
          (∀ x ∈ u.die.tenancy.pinned, x.tenant = t → (s.die.tenantActing t).packId = 0 →
            (∀ st, s.die.packUsed t x.pack st = false) → u.die.pinLive x = false) ∧
          u.die.regs = s.die.regs ∧ SameMem s.die u.die) ∧
        (tenantOk t p = true → p.packId ≠ 0 → (∀ k ∈ s.die.tenancy.packs, k.id ≠ p.packId) → ∃ u : State,
          exec (.tenantCfg box t p) s = .next u ∧ Replied box rcNoPack [] u.die ∧ u.die.tenancy = s.die.tenancy) ∧
        (tenantOk t p = true → p.packId ≠ 0 → (∃ k ∈ s.die.tenancy.packs, k.id = p.packId) →
          (s.die.pinSlots t s.die.steerEntries = none → ∃ u : State, exec (.tenantCfg box t p) s = .next u ∧
            Replied box rcNoSlot [] u.die ∧ u.die.tenancy = s.die.tenancy) ∧
          (s.die.pinSlots t s.die.steerEntries ≠ none → ∃ u : State, exec (.tenantCfg box t p) s = .next u ∧
            Replied box rcOk [] u.die ∧ u.die.tenant t = p ∧ u.die.regs = s.die.regs))) ∧
      (∀ t, t < 4096 →
        (∃ u : State, exec (.tenantClose box t) s = .next u ∧ Replied box rcOk [] u.die ∧ (u.die.tenant t).enabled = false ∧
          (u.die.tenant t).packId = 0 ∧ u.die.get (Reg.GLB_TBKT_RATE_RATE t) = 0xFFFF ∧
          ∀ n, (s.die.ctx n).live = true → (s.die.ctx n).tenant = t → s.die.holdsBerth n = false →
            (u.die.ctx n).state = csDone ∧ (u.die.ctx n).reason = 4) ∧
        (∃ u : State, exec (.tenantStatus box t) s = .next u ∧ (∃ bs, Replied box rcOk bs u.die ∧ bs.length = 68) ∧
          u.die.tenancy = s.die.tenancy ∧ u.die.regs = s.die.regs ∧ SameMem s.die u.die)) ∧
      (∀ v, ∃ u : State, exec (.admitCfg box v) s = .next u ∧ Replied box (if inR 100 1600 v then rcOk else rcRange) [] u.die ∧
        u.die.serve = (if inR 100 1600 v then { s.die.serve with overcommit := v } else s.die.serve) ∧
        u.die.regs = s.die.regs) ∧
      (∀ q, (s.die.tideState ≠ 2 → ∃ u : State, exec (.prefixCfg box q) s = .next u ∧ Replied box rcBusy [] u.die ∧
          u.die.tenancy = s.die.tenancy) ∧
        (s.die.tideState = 2 → (inR 1024 16777216 q.nodes && decide (q.h ≤ 32) && isGeneral q.table &&
            isGeneral (q.table + 64 * q.nodes - 1) && isGeneral q.index && isGeneral (q.index + 4 * 2 ^ q.h - 1)) = true →
          ∃ u : State, exec (.prefixCfg box q) s = .next u ∧ Replied box rcOk [] u.die ∧ u.die.tenancy.tree = some q ∧
          u.die.tenancy.nodes = [])) ∧
      (∀ n, ctxCount ≤ n → ∃ u : State, exec (.prefixPublish box n 1) s = .next u ∧ Replied box rcRange [] u.die ∧
        u.die.tenancy = s.die.tenancy) ∧
      (∀ n, n < ctxCount → 64 ≤ (s.die.ctx n).promptLen →
        ((s.die.ctx n).state ≠ csDecode → (s.die.ctx n).state ≠ csDone → (s.die.ctx n).state ≠ csParked → ∃ u : State,
          exec (.prefixPublish box n 1) s = .next u ∧ Replied box rcState [] u.die ∧
          Recorded 0x21 1 92 0xFFFF s.die u.die ∧ u.die.tenancy = s.die.tenancy) ∧
        (∀ i x key, (s.die.ctx n).state = csDecode ∨ (s.die.ctx n).state = csDone ∨ (s.die.ctx n).state = csParked →
          s.die.ownNode n 0 s.die.modelId = some (i, x) → s.die.node i = some x → x.parent = none →
          prefixKey s.die.modelId 0xFFFF x.pack ((s.die.ctx n).pageTokens 0) = key → s.die.findKey key 0xFFFF x.pack = none → ∃ u : State,
          exec (.prefixPublish box n 1) s = .next u ∧ Replied box rcOk [] u.die ∧
          u.die.node i = some { x with key := key, tenant := 0xFFFF } ∧ (s.die.tideState = 4 → u.die.regs = s.die.regs))) ∧
      (∀ o : Option Nat, o.getD 0 < 4096 → ∃ u : State, exec (.prefixFlush box o) s = .next u ∧ Replied box rcOk [] u.die ∧
        ∀ i x, u.die.node i = some x → x.tenant = o.getD 0xFFFF → x.keyed = false) ∧
      (∃ u : State, exec (.prefixStatus box) s = .next u ∧ (∃ bs, Replied box rcOk bs u.die ∧ bs.length = 36 ∧
        leAt bs 8 4 = s.die.idlePages % 2 ^ 32) ∧ u.die.tenancy = s.die.tenancy ∧ u.die.regs = s.die.regs)) ∧
    (∀ p, (s.die.tide.table = none ∨ s.die.tideState ≠ 2 → ∃ u : State, exec (.steerCfg box p) s = .next u ∧
        Replied box rcBusy [] u.die ∧ u.die.tenancy = s.die.tenancy) ∧
      (∀ t, s.die.tide.table = some t → s.die.tideState = 2 → (∀ e ∈ p.entries, 1 ≤ e.slots ∧ e.slots ≤ 255 ∧ 1 ≤ e.nb ∧
          e.layer < 1024 ∧ s.die.enabled e.tile = true ∧ tableRights t e.tile (e.listOp / 2 ^ 24 % 256) = true ∧
          tableRights t e.tile e.slotRegion = true) → isGeneral p.base = true → isGeneral (p.base + p.size - 1) = true →
        ∃ u : State, exec (.steerCfg box p) s = .next u ∧ Replied box rcOk [] u.die ∧ u.die.tenancy.steer = some p ∧
        u.die.regs = s.die.regs ∧ SameMem s.die u.die)) ∧
    (∀ a, (s.die.tenancy.steer = none → ∃ u : State, exec (.steerLoad box a) s = .next u ∧ Replied box rcPackInvalid [] u.die ∧
        u.die.tenancy = s.die.tenancy ∧ SameMem s.die u.die) ∧
      (∀ st es size id o, s.die.tenancy.steer = some st → isGeneral a = true →
        s.die.packEntries a (leAt (s.die.bytesAt a 64) 6 2) = es →
        es.foldl (fun m e => max m (e.2.2.1 + e.2.2.2.1)) (64 + 16 * leAt (s.die.bytesAt a 64) 6 2) = size →
        leAt (s.die.bytesAt a 64) 16 4 = id →
        (s.die.packOk a size st = false → ∃ u : State, exec (.steerLoad box a) s = .next u ∧ Replied box rcPackInvalid [] u.die ∧
          u.die.tenancy = s.die.tenancy) ∧
        (s.die.packOk a size st = true → size ≤ st.size →
          packPlace (s.die.tenancy.packs.filter (fun p => decide (p.id ≠ id))) st.size ((size + 63) / 64 * 64) = some o →
          ∃ u : State, exec (.steerLoad box a) s = .next u ∧ Replied box rcOk [] u.die ∧
          (∃ p ∈ u.die.tenancy.packs, p.id = id ∧ p.off = o) ∧ u.die.bytesAt (st.base + o) size = s.die.bytesAt a size ∧
          SameMemBut (st.base + o) size s.die u.die ∧ u.die.regs = s.die.regs))) ∧
    (∀ k, ((∀ p ∈ s.die.tenancy.packs, p.id ≠ k) → ∃ u : State, exec (.steerDrop box k) s = .next u ∧
        Replied box rcNoPack [] u.die ∧ u.die.tenancy = s.die.tenancy) ∧
      ((∃ p ∈ s.die.tenancy.packs, p.id = k) → (∃ q ∈ s.die.tenancy.cfg, q.2.packId = k) → ∃ u : State,
        exec (.steerDrop box k) s = .next u ∧ Replied box rcBusy [] u.die ∧ u.die.tenancy = s.die.tenancy) ∧
      ((∃ p ∈ s.die.tenancy.packs, p.id = k) → (∀ q ∈ s.die.tenancy.cfg, q.2.packId ≠ k) →
        (∀ q ∈ s.die.tenancy.acting, q.2.packId ≠ k) → s.die.packRides k = false → ∃ u : State, exec (.steerDrop box k) s = .next u ∧
        Replied box rcOk [] u.die ∧ (∀ p ∈ u.die.tenancy.packs, p.id ≠ k) ∧ u.die.regs = s.die.regs)) ∧
    (∀ p ok, ok = (inR 1 3600 p.window && decide (p.tokW ≤ 2 ^ 20) && decide (p.attW ≤ 2 ^ 20) && decide (p.pIdle ≤ 2 ^ 20) &&
        isGeneral p.ring && isGeneral (p.ring + 16 * 262272 - 1)) → ∃ u : State, exec (.meterCfg box p) s = .next u ∧
      Replied box (if ok then rcOk else rcRange) [] u.die ∧
      u.die.tenancy = (if ok then { s.die.tenancy with meterNext := some p } else s.die.tenancy) ∧ u.die.regs = s.die.regs) ∧
    (∀ w first count, (4097 < first + count → ∃ u : State, exec (.meterRead box w first count) s = .next u ∧
        Replied box rcRange [] u.die) ∧
      (first + count ≤ 4097 → (∀ x, look s.die.tenancy.ring (w % 16) = some x → x.1 ≠ w) → ∃ u : State,
        exec (.meterRead box w first count) s = .next u ∧ Replied box rcNoRecord [] u.die) ∧
      (∀ a, first + count ≤ 4097 → look s.die.tenancy.ring (w % 16) = some (w, a) → ∃ u : State, exec (.meterRead box w first count) s = .next u ∧
        Replied box rcOk (s.die.bytesAt a 64 ++ s.die.bytesAt (a + 64 + 64 * first) (64 * count)) u.die ∧
        u.die.regs = s.die.regs ∧ SameMem s.die u.die))) ∧
  (s.die.live = true → s.die.fwRuns = true →
    (∀ k e w0 w1, s.die.tenancy.energy[k]? = some (e, w0, w1) → s.die.windowClear w1 = true → ∃ u : State,
      exec (.energyAttribute k) s = .next u ∧ u.die.tenancy.energy = s.die.tenancy.energy.eraseIdx k ∧
      (s.die.serve.log = [] → (u.die.meter sysTenant).energy = (s.die.meter sysTenant).energy + e) ∧
      u.die.regs = s.die.regs ∧ SameMem s.die u.die) ∧
    (s.die.tenancy.snap = none → (s.die.meterWindow + 1) * s.die.meterNs ≤ s.die.now → s.die.sense.winStart = s.die.now →
      ∃ u : State, exec .meterWindowBoundary s = .next u ∧
      u.die.tenancy.snap = some (s.die.meterWindow, s.die.tenancy.start, s.die.now) ∧ u.die.tenancy.start = s.die.now ∧
      u.die.tenancy.meter = s.die.tenancy.meterNext.getD s.die.tenancy.meter ∧ u.die.tenancy.meterNext = none ∧
      u.die.tenancy.meterOld = s.die.tenancy.meter ∧ u.die.regs = s.die.regs) ∧
    (∀ i a b m, s.die.tenancy.snap = some (i, a, b) → (∀ e ∈ s.die.tenancy.energy, b < e.2.2) →
      s.die.tenancy.meterOld.ring + 262272 * (i % 16) = m → isGeneral s.die.tenancy.meterOld.ring = true → ∃ u : State,
      exec .snapshotWrite s = .next u ∧ u.die.tenancy.snap = none ∧ look u.die.tenancy.ring (i % 16) = some (i, m) ∧
      u.die.bytesAt m (s.die.snapBytes i a b).length = s.die.snapBytes i a b ∧
      SameMemBut m (s.die.snapBytes i a b).length s.die u.die)) ∧
  (∀ (box : Nat) (p : PrefixParams), s.die.boxReady box = true →
    exec (.prefixCfg box p) s = .next { s with die := s.die.prefixCfg box p }) ∧
  (∀ (box ctx nodes : Nat), s.die.boxReady box = true →
    exec (.prefixPublish box ctx nodes) s = .next { s with die := s.die.prefixPublish box ctx nodes }) ∧
  (∀ (box : Nat) (p : SteerParams), s.die.boxReady box = true →
    exec (.steerCfg box p) s = .next { s with die := s.die.steerCfg box p }) ∧
  (∀ (box addr : Nat), s.die.boxReady box = true →
    exec (.steerLoad box addr) s = .next { s with die := s.die.steerLoad box addr }) ∧
  (∀ w : Nat × Nat × Nat, s.die.live = true → s.die.fwRuns = true → s.die.tenancy.snap = some w →
    (∀ e ∈ s.die.tenancy.energy, w.2.2 < e.2.2) → exec .snapshotWrite s = .next { s with die := s.die.snapshotWrite }) ∧
  (∀ box, s.die.boxReady box = true → s.die.isFront = true → ∀ n, 4096 ≤ n →
    ∀ c ∈ [Instr.tenantClose box n, .tenantStatus box n, .prefixFlush box (some n)], ∃ u : State, exec c s = .next u ∧
    Replied box rcRange [] u.die ∧ u.die.tenancy = s.die.tenancy ∧ u.die.serve = s.die.serve ∧ u.die.regs = s.die.regs) ∧
  (∀ box k, s.die.boxReady box = true → (∃ p ∈ s.die.tenancy.packs, p.id = k) → (∃ q ∈ s.die.tenancy.acting, q.2.packId = k) →
    ∃ u : State, exec (.steerDrop box k) s = .next u ∧ Replied box rcBusy [] u.die ∧ u.die.tenancy = s.die.tenancy)

/-! ### DRAM (R383 to R400, R582) -/

/-- R387 to R396, R398, R400, R582: a read corrects or reports what the code finds and keeps the bytes; a whole sector's
write lands and clears poison, a partial write of a poisoned sector is refused; events, training, tests and scrubbing move
the stacks' states; a test leaves the contents undefined. Wherever its conditions hold, each command completes with the
effect of the operation named for it. -/
def Obligations.DramCommandsKeepDataAndStates : Prop := ∀ (s : State), s.die.live = true →
  (∀ a k, isDram a = true → a % 64 = 0 → s.die.stackUp (stackOf a) = true → (s.die.stack (stackOf a)).event = false →
    stackOf a = k →
    (s.die.badSector a = false → exec (.dramAccess a false false [] []) s = .next s) ∧
    (∀ bs : List Byte, bs.length = 64 → ∀ errs, ∃ u : State, exec (.dramAccess a false true (bs.map some) errs) s = .next u ∧
      u.die.bytesAt a 64 = bs ∧ SameMemBut a 64 s.die u.die ∧ u.die.badSector a = false ∧ u.die.regs = s.die.regs) ∧
    (∀ b : Byte, s.die.badSector a = true → ∀ errs, ∃ u : State, exec (.dramAccess a false true [some b] errs) s = .next u ∧
      SameMem s.die u.die ∧ u.die.badSector a = true ∧ Recorded 0x0B 2 (80 + 2 * k) k s.die u.die) ∧
    (s.die.badSector a = false → s.die.get (Reg.BOOT_MEM_CE_LIMIT_LIMIT k) = 0 → ∀ err ∈ [DramErr.corrected, .uncorrectable 1],
      ∃ u : State, exec (.dramAccess a false false [] [err]) s = .next u ∧
      u.die.get (Reg.BOOT_MEM_CE_COUNT k) = satAdd 32 (s.die.get (Reg.BOOT_MEM_CE_COUNT k)) 1 ∧ SameMem s.die u.die ∧
      OnlyRegs [Reg.BOOT_MEM_CE k, Reg.BOOT_MEM_CE_ADDR_LO k, Reg.BOOT_MEM_CE_ADDR_HI k] s.die u.die) ∧
    (∀ n, 2 ≤ n → s.die.badSector (a + 64) = false → a % 128 = 0 → s.die.badSector a = false → ∃ u : State,
      exec (.dramAccess a true false [] [.none, .uncorrectable n]) s = .next u ∧ u.die.badSector (a + 64) = true ∧
      u.die.badSector a = false ∧ SameMem s.die u.die ∧ Recorded 0x0B 2 (80 + 2 * k) k s.die u.die) ∧
    (∀ n, 2 ≤ n → s.die.badSector a = false → ∃ u : State, exec (.dramAccess a false false [] [.uncorrectable n]) s = .next u ∧
      u.die.get (Reg.BOOT_MEM_UE_COUNT k) = satAdd 32 (s.die.get (Reg.BOOT_MEM_UE_COUNT k)) 1 ∧ SameMem s.die u.die ∧
      u.die.badSector a = true ∧
      Recorded 0x0B 2 (80 + 2 * k) k s.die u.die ∧ bit (u.die.get Reg.STL_ALERT_BITS) alDram = true) ∧
    (s.die.on Reg.BOOT_MEM_SCRUB_EN = true → s.die.badSector a = false → a ≠ dramEnd - 64 → a ≠ dramEnd - 4096 - 64 →
      exec (.scrubSector a .none) s = .next s ∧
      ∀ n, 2 ≤ n → ∃ u : State, exec (.scrubSector a (.uncorrectable n)) s = .next u ∧ u.die.patternAt a = true ∧
        Recorded 0x0B 2 (80 + 2 * k) k s.die u.die ∧ SameMem s.die u.die)) ∧
  (∀ k, k < 2 →
    (s.die.stackUp k = true → exec (.dramRefresh k) s = .next s) ∧
    (s.die.eventAllowed k = true → ∃ u : State, exec (.dramEventStart k) s = .next u ∧ (u.die.stack k).event = true ∧
      (u.die.stack k).lastEvent = some s.die.now ∧ u.die.tide.dramEvent = true ∧ u.die.regs = s.die.regs ∧
      SameMem s.die u.die ∧ ∀ t, ∀ r ∈ (u.die.tile t).reqs, r.issued = true → stackOf r.addr = k → u.die.canComplete r = true) ∧
    (s.die.eventAllowed k = false → exec (.dramEventStart k) s = .next s) ∧
    ((s.die.stack k).event = true → ∃ u : State, exec (.dramEventEnd k) s = .next u ∧
      u.die.stack k = { s.die.stack k with
        event := false, lastTrain := if s.die.retrainDue k then s.die.clock.aging else (s.die.stack k).lastTrain } ∧ u.die.regs = s.die.regs ∧ SameMem s.die u.die) ∧
    (s.die.memState k = 1 → (s.die.stack k).testAfter = false → ∃ u : State, exec (.memTrainDone k 0) s = .next u ∧
      u.die.memState k = 2 ∧ u.die.get (Reg.BOOT_MEM_STATUS_PROGRESS k) = 100 ∧ SameMem s.die u.die) ∧
    (∀ code, s.die.memState k = 1 → 1 ≤ code → code ≤ 5 → s.die.stage ≠ 1 → s.die.stage ≠ 2 → s.die.stage ≠ 3 →
      s.die.stage ≠ 7 → ∃ u : State, exec (.memTrainDone k code) s = .next u ∧ u.die.memState k = 5 ∧
      u.die.get (Reg.BOOT_MEM_STATUS_CODE k) = code ∧ SameMem s.die u.die) ∧
    (s.die.memState k = 3 → ∃ u : State, exec (.memTestDone k 0 []) s = .next u ∧ u.die.memState k = 4 ∧
      (∀ a, isDram a = true → stackOf a = k →
        u.die.byteAt a = Config.lostByte ((if k = 0 then s.die.gen0 else s.die.gen1) + 1) a) ∧
      ∀ a, isDram a = false ∨ stackOf a ≠ k → u.die.byteAt a = s.die.byteAt a) ∧
    (∀ code, s.die.memState k = 3 → 1 ≤ code → code ≤ 5 → s.die.stage ≠ 1 → s.die.stage ≠ 2 → s.die.stage ≠ 3 →
      s.die.stage ≠ 7 → ∃ u : State, exec (.memTestDone k code []) s = .next u ∧ u.die.memState k = 5 ∧
      u.die.get (Reg.BOOT_MEM_STATUS_CODE k) = code)) ∧
  (∀ ag, s.die.mayControl ag = true →
    ((∀ k ∈ bitsSet 2 (s.die.get Reg.BOOT_MEM_CTRL_STACKS), s.die.mayTrain k = true) → ∃ u : State,
      exec (.memTrain ag) s = .next u ∧ u.die.out.head? = some (.status ag stOk) ∧ SameMem s.die u.die ∧
      ∀ k ∈ bitsSet 2 (s.die.get Reg.BOOT_MEM_CTRL_STACKS), u.die.memState k = 1) ∧
    (bitsSet 2 (s.die.get Reg.BOOT_MEM_CTRL_STACKS) ≠ [] →
      (∀ k ∈ bitsSet 2 (s.die.get Reg.BOOT_MEM_CTRL_STACKS), s.die.mayTrain k = false) → ∃ u : State,
      exec (.memTrain ag) s = .next u ∧ u.die.out.head? = some (.status ag stBusy) ∧
      ∀ k, k < 2 → u.die.memState k = s.die.memState k) ∧
    (s.die.get Reg.BOOT_MEM_CTRL_TEST = 0 → ∃ u : State, exec (.memTest ag) s = .next u ∧
      u.die.out.head? = some (.status ag stBusy) ∧ Recorded 0x0B 3 0xFF 0xFFFF s.die u.die ∧
      ∀ k, k < 2 → u.die.memState k = s.die.memState k) ∧
    (inR 1 2 (s.die.get Reg.BOOT_MEM_CTRL_TEST) = true →
      (∀ k ∈ bitsSet 2 (s.die.get Reg.BOOT_MEM_CTRL_STACKS), s.die.mayTest k = true) →
      (∀ k ∈ bitsSet 2 (s.die.get Reg.BOOT_MEM_CTRL_STACKS), (s.die.stack k).testAfter = false) → ∃ u : State,
      exec (.memTest ag) s = .next u ∧ u.die.out.head? = some (.status ag stOk) ∧
      ∀ k ∈ bitsSet 2 (s.die.get Reg.BOOT_MEM_CTRL_STACKS), u.die.memState k = 3) ∧
    (∃ u : State, exec (.memCntClr ag) s = .next u ∧ SameMem s.die u.die ∧ ∀ k, k < 2 →
      u.die.get (Reg.BOOT_MEM_CE_COUNT k) = 0 ∧ u.die.get (Reg.BOOT_MEM_UE_COUNT k) = 0 ∧ u.die.memState k = s.die.memState k) ∧
    (∀ k, k < 2 →
      (∃ u : State, exec (.errAddrClear ag k true) s = .next u ∧ u.die.getW (Reg.BOOT_MEM_UE_ADDR_LO k) = 0 ∧
        u.die.getW (Reg.BOOT_MEM_UE_ADDR_HI k) = 0 ∧ SameMem s.die u.die ∧
        OnlyRegs [Reg.BOOT_MEM_UE_ADDR_LO k, Reg.BOOT_MEM_UE_ADDR_HI k] s.die u.die) ∧
      (∃ u : State, exec (.errAddrClear ag k false) s = .next u ∧ u.die.getW (Reg.BOOT_MEM_CE_ADDR_LO k) = 0 ∧
        u.die.getW (Reg.BOOT_MEM_CE_ADDR_HI k) = 0 ∧
        OnlyRegs [Reg.BOOT_MEM_CE_ADDR_LO k, Reg.BOOT_MEM_CE_ADDR_HI k] s.die u.die))) ∧
  (∀ (addr : Nat) (err : DramErr), isDram addr = true → addr % 64 = 0 → s.die.on Reg.BOOT_MEM_SCRUB_EN = true →
    s.die.stackUp (stackOf addr) = true → (s.die.stack (stackOf addr)).event = false →
    exec (.scrubSector addr err) s = .next { s with die := s.die.scrub addr err }) ∧
  (∀ (ag : Agent), s.die.mayControl ag = true →
    exec (.memTrain ag) s = .next { s with
      die := s.die.memCtrlWrite ag (setBits (setBits (s.die.getW Reg.BOOT_MEM_CTRL).toNat 4 2 1) 31 1 0) }) ∧
  (∀ (ag : Agent), s.die.mayControl ag = true →
    exec (.memTest ag) s = .next { s with
      die := s.die.memCtrlWrite ag (setBits (setBits (s.die.getW Reg.BOOT_MEM_CTRL).toNat 4 2 2) 31 1 0) }) ∧
  (∀ (stack code : Nat), stack < 2 → code ≤ 5 → s.die.memState stack = 1 →
    exec (.memTrainDone stack code) s = .next { s with die := s.die.trainDone stack code }) ∧
  (∀ (stack code : Nat) (rows : List Nat), stack < 2 → code ≤ 5 → s.die.memState stack = 3 →
    (rows.all (fun a => isDram a && stackOf a == stack)) = true →
    exec (.memTestDone stack code rows) s = .next { s with die := s.die.testDone stack code rows }) ∧
  (∀ (addr n : Nat) (line write : Bool) (data : List (Option Byte)) (errs : List DramErr), n = (if line then 128 else 64) →
    isDram addr = true → addr % n = 0 → data.length ≤ n → s.die.stackUp (stackOf addr) = true →
    (s.die.stack (stackOf addr)).event = false →
    exec (.dramAccess addr line write data errs) s = .next { s with die := s.die.dramAccess addr n write data errs })

/-! ### DMA and check-value units (R401 to R419) -/

/-- R401 to R413, R418: START and FETCH load an idle channel and check its descriptor; a busy channel refuses with record DMA
2, a host write the engine refuses answers busy; STOP aborts; a read beat fills the buffer from memory and a write beat
empties it into memory; completion leaves the result, DONE, and the next descriptor or IDLE. Wherever its conditions hold,
each command completes with the effect of the operation named for it. -/
def Obligations.DmaChannelsRunDescriptors : Prop := ∀ (s : State) (e : DmaEng) (c : Nat), s.die.live = true → c < dmaChans e →
  (∀ ag, s.die.mayControl ag = true → s.die.dmaHas e = true →
    (∀ k ∈ [Instr.chStart ag e c, .chFetch ag e c],
      (s.die.dmaHostBusy ag e c true = true → exec k s = .next { s with die := s.die.answer ag stBusy }) ∧
      (s.die.dmaHostBusy ag e c true = false → s.die.get (chState e c) ≠ 0 → ∃ u : State, exec k s = .next u ∧
        Recorded 0x0C 2 (dmaDom e) c s.die u.die ∧ u.die.out.head? = some (.status ag stBusy) ∧ u.die.dma = s.die.dma ∧
        OnlyRegs logRegs s.die u.die ∧ SameMem s.die u.die)) ∧
    (∀ r, s.die.dmaHostBusy ag e c true = false → s.die.get (chState e c) = 0 →
      (r = s.die.regRun ag e c → r.crcMode = 0 ∨ s.die.dmaMalformed e r = true ∨ s.die.dmaRangesOk e r = false → ∃ u : State,
        exec (.chStart ag e c) s = .next u ∧
        u.die.run e c = some (if s.die.dmaMalformed e r then { r with result := 6 }
          else if s.die.dmaRangesOk e r then r else { r with result := 2 }) ∧ u.die.get (chState e c) = 2 ∧
        u.die.get (dmaActiveF e c) = 1 ∧ u.die.get64 (chBase e c) = r.src % 2 ^ 64 ∧
        u.die.getW (chBase e c + 0x2C) = w32 r.len ∧ u.die.out = .status ag stOk :: s.die.out ∧ SameMem s.die u.die) ∧
      (∀ a, s.die.get64 (chBase e c + 24) % 2 ^ 48 = a →
        (a % 32 = 0 → ∃ u : State, exec (.chFetch ag e c) s = .next u ∧ u.die.get (chState e c) = 1 ∧
          u.die.get (dmaActiveF e c) = 1 ∧ (∃ x, u.die.run e c = some x ∧ x.fetch = some a ∧ x.starter = ag ∧ x.ctrl = 0) ∧
          u.die.out = .status ag stOk :: s.die.out ∧ SameMem s.die u.die) ∧
        (a % 32 ≠ 0 → ∃ u : State, exec (.chFetch ag e c) s = .next u ∧ (∃ x, u.die.run e c = some x ∧ x.result = 6) ∧
          u.die.get (chState e c) = 2))) ∧
    (s.die.dmaHostBusy ag e c false = true → ∀ w reg, reg < 8 ∨ reg = 9 →
      exec (.chStop ag e c) s = .next { s with die := s.die.answer ag stBusy } ∧
      exec (.dmaDescRegWrite ag e c reg w) s = .next { s with die := s.die.answer ag stBusy }) ∧
    (s.die.dmaHostBusy ag e c false = false →
      (∀ r, s.die.run e c = some r → ∃ u : State, exec (.chStop ag e c) s = .next u ∧ u.die.get (chState e c) = 4 ∧
        u.die.run e c = some { r with result := if r.result = 0 then 1 else r.result, fetch := none } ∧ SameMem s.die u.die ∧
        OnlyRegs [chBase e c + 0x28, chBase e c + 0x20] s.die u.die) ∧
      (∀ w reg, reg < 8 ∨ reg = 9 →
        (s.die.get (chState e c) ≠ 0 → exec (.dmaDescRegWrite ag e c reg w) s = .next { s with die := s.die.answer ag stBusy }) ∧
        (s.die.get (chState e c) = 0 → ∃ u : State, exec (.dmaDescRegWrite ag e c reg w) s = .next u ∧
          OnlyRegs ((chBase e c + 4 * reg) :: logRegs) s.die u.die ∧ SameMem s.die u.die ∧
          (reg < 4 → w < 2 ^ 32 → (u.die.getW (chBase e c + 4 * reg)).toNat = w)))) ∧
    (∀ w, (s.die.dmaHostBusy ag e 0 false = true ∨ s.die.dmaRuns e ≠ [] →
        exec (.dmaCfgWrite ag e w) s = .next { s with die := s.die.answer ag stBusy }) ∧
      (s.die.dmaHostBusy ag e 0 false = false → s.die.dmaRuns e = [] → ∃ u : State, exec (.dmaCfgWrite ag e w) s = .next u ∧
        OnlyRegs (dmaBase e :: logRegs) s.die u.die ∧ SameMem s.die u.die ∧ u.die.dma = s.die.dma))) ∧
  (s.die.dmaHas e = true → s.die.dmaRuns e = [] → exec (.dmaBeat e) s = .next s) ∧
  (∀ r n, s.die.dmaHas e = true → s.die.on (dmaModeF e) = false → s.die.dmaRuns e = [(c, r)] → s.die.run e c = some r →
    r.crcMode = 0 → bits r.ctrl 4 2 = 0 → bits r.ctrl 2 2 = 0 → s.die.dmaReady r = true →
    (s.die.canWrite e r = false → s.die.canRead e r = true → s.die.dmaChunk r = n → isDram (r.src + r.read) = true →
      s.die.rangePoison (r.src + r.read) n = false → ∃ u : State, exec (.dmaBeat e) s = .next u ∧ SameMem s.die u.die ∧
      u.die.run e c = some { r with
        read := r.read + n, buffer := r.buffer ++ (s.die.bytesAt (r.src + r.read) n).map some,
        beats := r.beats ++ [⟨n, true, s.die.nextBeat e⟩] } ∧
      OnlyRegs ((chBase e c + 0x2C) :: hwmOf e) s.die u.die) ∧
    (∀ a, s.die.canWrite e r = true → r.dst + r.written = a → min r.buffer.length (128 - a % 128) = n → isDram a = true →
      s.die.rangePoison a n = false → (∀ b ∈ r.buffer, b.isSome = true) → ∃ u : State, exec (.dmaBeat e) s = .next u ∧
      u.die.bytesAt a n = (r.buffer.take n).map (fun b => b.getD 0) ∧ SameMemBut a n s.die u.die ∧
      u.die.run e c = some { r with buffer := r.buffer.drop n, written := r.written + n, beats := dropBeats r.beats n } ∧
      OnlyRegs (hwmOf e) s.die u.die)) ∧
  (∀ r a, s.die.dmaHas e = true → s.die.dmaRuns e = [(c, r)] → s.die.run e c = some r → r.fetch = some a → r.crcMode = 0 →
    r.len = 0 → r.buffer = [] → r.beats = [] →
    (s.die.held a = true → exec (.dmaBeat e) s = .next s) ∧
    (s.die.held a = false → s.die.dmaSlotFree e (isDram a) = true →
      ((s.die.fetchDesc r.starter a).2 = none → ∃ u : State, exec (.dmaBeat e) s = .next u ∧
        u.die.run e c = some { r with fetch := none, result := 6 } ∧ u.die.get (chState e c) = 2) ∧
      (∀ x, (s.die.fetchDesc r.starter a).2 = some x → ∃ u : State, exec (.dmaBeat e) s = .next u ∧
        (∃ y, u.die.run e c = some y ∧ y.src = x.src ∧ y.dst = x.dst ∧ y.len = x.len ∧ y.ctrl = x.ctrl ∧ y.next = x.next ∧
          y.fetch = none) ∧ u.die.get64 (chBase e c) = x.src % 2 ^ 64))) ∧
  (∀ r, s.die.run e c = some r → r.finished = true → r.crcMode = 0 → r.bound = false → r.next % 2 ^ 48 = 0 →
    bit r.ctrl 17 = false →
    (r.result = 0 → r.poison = false → bit r.ctrl 18 = false → ∃ u : State, exec (.dmaDescComplete e c) s = .next u ∧
      u.die.get (chState e c) = 0 ∧ u.die.get (chResult e c) = 0 ∧ u.die.get (dmaDoneF e c) = 1 ∧
      u.die.get (dmaActiveF e c) = 0 ∧ u.die.run e c = none ∧ SameMem s.die u.die ∧ u.die.out = s.die.out ∧
      OnlyRegs [chBase e c + 0x28, chBase e c + 0x34, chBase e c + 0x20, dmaBase e + 4, dmaBase e + 0xC] s.die u.die) ∧
    (r.result ≠ 0 → r.result < 16 → ∃ u : State, exec (.dmaDescComplete e c) s = .next u ∧ u.die.get (chState e c) = 0 ∧
      u.die.get (chResult e c) = r.result ∧ u.die.get (dmaErrF e c) = 1 ∧ u.die.get (dmaDoneF e c) = 1 ∧
      u.die.run e c = none ∧ Recorded 0x0C 1 (dmaDom e) c s.die u.die ∧ SameMem s.die u.die)) ∧
  (∀ r, s.die.run e c = some r → r.crcMode ≠ 0 → r.bound = false → r.result = 0 → s.die.on (crcBoundF (dmaUnit e r)) = true →
    ∃ u : State, exec (.crcBindTimeout e c) s = .next u ∧ u.die.run e c = some { r with result := 7 } ∧
    u.die.regs = s.die.regs ∧ SameMem s.die u.die ∧ u.die.out = s.die.out) ∧
  (s.die.dmaHas e = true → exec (.dmaBeat e) s = .next { s with die := s.die.dmaBeat e }) ∧
  (∀ r, s.die.run e c = some r → r.finished = true →
    exec (.dmaDescComplete e c) s = .next { s with die := s.die.dmaComplete e c r })

/-- R414 to R419: feeding 1, 2 or 4 bytes runs the unit's algorithm over them, low byte first; the raw state may be set and initialised;
POLY, INIT and XOROUT are written under SEL 3 only, in the low w bits; a bound unit refuses every one of these with REFUSED, the busy
status and record CRC 1. -/
def Obligations.CheckUnitsFeedAndRefuse : Prop := ∀ (s : State) (ag : Agent) (k : CrcUnit) (w : Nat), s.die.live = true →
  s.die.mayControl ag = true → s.die.crcHas k = true →
  (s.die.on (crcBoundF k) = true → ∀ c ∈ [Instr.crcFeed8 ag k w, .crcFeed16 ag k w, .crcFeed32 ag k w, .crcValueWrite ag k w,
      .crcInit ag k, .crcConfigWrite ag k 0 w, .crcConfigWrite ag k 1 w, .crcConfigWrite ag k 2 w, .crcConfigWrite ag k 3 w],
    ∃ u : State, exec c s = .next u ∧ u.die.on (crcRefusedF k) = true ∧ u.die.out.head? = some (.status ag stBusy) ∧
    Recorded 0x0D 1 (crcDom k) (crcSub k) s.die u.die ∧ OnlyRegs ((crcRefusedF k).addr :: logRegs) s.die u.die ∧
    SameMem s.die u.die) ∧
  (s.die.on (crcBoundF k) = false →
    (∀ c n g, (c, n) ∈ [(Instr.crcFeed8 ag k w, 1), (.crcFeed16 ag k w, 2), (.crcFeed32 ag k w, 4)] → s.die.crcAlg k = g →
      ∃ u : State, exec c s = .next u ∧ u.die.getW (crcValue k) = w32 ((natLe n w).foldl
        (fun x b => feedByte x b.toNat g.w g.poly g.refin) (s.die.getW (crcValue k)).toNat) ∧
      OnlyRegs [crcValue k] s.die u.die ∧ SameMem s.die u.die ∧ u.die.out = .status ag stOk :: s.die.out) ∧
    (∃ u : State, exec (.crcValueWrite ag k w) s = .next u ∧ u.die.getW (crcValue k) = w32 w ∧
      OnlyRegs [crcValue k] s.die u.die ∧ SameMem s.die u.die) ∧
    (∃ u : State, exec (.crcInit ag k) s = .next u ∧ u.die.getW (crcValue k) = w32 (if (s.die.crcAlg k).refin then
        reflect (s.die.crcAlg k).init (s.die.crcAlg k).w else (s.die.crcAlg k).init) ∧
      OnlyRegs [crcValue k] s.die u.die ∧ SameMem s.die u.die) ∧
    (∃ u : State, exec (.crcConfigWrite ag k 0 w) s = .next u ∧ OnlyRegs (crcCfg k :: logRegs) s.die u.die ∧
      SameMem s.die u.die ∧ bits (u.die.getW (crcCfg k)).toNat 0 2 = bits w 0 2) ∧
    (∀ reg, 1 ≤ reg → reg < 4 →
      (bits (s.die.getW (crcCfg k)).toNat 0 2 = 3 → ∃ u : State, exec (.crcConfigWrite ag k reg w) s = .next u ∧
        u.die.getW (crcBase k + 4 * reg) = w32 (w % 2 ^ (s.die.crcAlg k).w) ∧
        OnlyRegs [crcBase k + 4 * reg] s.die u.die ∧ SameMem s.die u.die) ∧
      (bits (s.die.getW (crcCfg k)).toNat 0 2 ≠ 3 →
        exec (.crcConfigWrite ag k reg w) s = .next { s with die := s.die.answer ag stOk })))

/-! ### Host port (R420 to R448, R540, R542) -/

/-- R420 to R427, R429, R433, R445, R448, R542: training and faults show in HP_STATUS; PFC is honoured and repeated; a bad
frame is counted where its check drops it, a good one waits in its buffer, and one of a reserved opcode is answered; ARP, neighbour
solicitations, echo requests and HELLO are answered, and a PTP master is followed. Wherever its conditions hold, each command
completes with the effect of the operation named for it. How PTP's times are taken over (log entry 50), and, beyond R420 and R424,
which frames are excluded, how long a pause lasts and on which VLAN a frame leaves (log entry 77), is the model's choice. -/
def Obligations.PortFramesAndSmallProtocolsAreAnswered : Prop := ∀ (s : State), s.die.live = true →
  (s.die.get Reg.HP_STATUS_STATE = 1 → ∃ u : State, exec .hostPortTrained s = .next u ∧ u.die.get Reg.HP_STATUS_STATE = 2 ∧
    OnlyRegs [Reg.HP_STATUS, Reg.HP_TX_FRAMES] s.die u.die ∧ SameMem s.die u.die ∧
    u.die.host = { s.die.host with txWait := s.die.host.txWait.filter (fun q => s.die.txPausedNow q.1) }) ∧
  (∀ ag, s.die.mayControl ag = true → ∃ u : State, exec (.hpRetrain ag) s = .next u ∧ u.die.get Reg.HP_STATUS_STATE = 1 ∧
    u.die.host = { s.die.host with rxQueue := [], pfcSent := [], txPaused := [], txWait := [] } ∧ OnlyRegs [Reg.HP_STATUS] s.die u.die ∧ SameMem s.die u.die ∧
    u.die.out = .status ag stOk :: s.die.out) ∧
  (∀ lf rf : Bool, ∃ u : State, exec (.hostPortLinkFault lf rf) s = .next u ∧ u.die.get Reg.HP_STATUS_LOCAL_FAULT = b2n lf ∧
    u.die.get Reg.HP_STATUS_REMOTE_FAULT = b2n rf ∧ u.die.get Reg.HP_STATUS_STATE = s.die.get Reg.HP_STATUS_STATE ∧
    OnlyRegs [Reg.HP_STATUS] s.die u.die ∧ SameMem s.die u.die) ∧
  (∀ p q, p < 8 →
    (bit (s.die.get Reg.HP_PFC_RX_EN) p = true → ∃ u : State, exec (.pfcReceive p q) s = .next u ∧
      amGet 0 u.die.host.txPaused p = (if q = 0 then 0 else s.die.clock.aging + pauseCycles q) ∧
      u.die.host.sessions = s.die.host.sessions ∧ OnlyRegs [Reg.HP_TX_FRAMES] s.die u.die ∧ SameMem s.die u.die) ∧
    (bit (s.die.get Reg.HP_PFC_RX_EN) p = false → exec (.pfcReceive p q) s = .next s) ∧
    (s.die.pauseOut p = true → 65536 < s.die.fill p → ∃ u : State, exec (.pfcRepeat p) s = .next u ∧
      u.die.out = .frame 3 {} none (natLe 1 p ++ natLe 2 0xFFFF) :: s.die.out ∧ u.die.host = s.die.host ∧
      u.die.get Reg.HP_TX_FRAMES_COUNT = satAdd 32 (s.die.get Reg.HP_TX_FRAMES_COUNT) 1 ∧
      OnlyRegs [Reg.HP_TX_FRAMES] s.die u.die)) ∧
  (s.die.portUp = true →
    (∀ f : Frame,
      (f.uncorrected ≠ 0 → ∃ u : State, exec (.frameReceive f) s = .next u ∧ u.die.host = s.die.host ∧ SameMem s.die u.die ∧
        u.die.get Reg.HP_FEC_UNCORR_COUNT = satAdd 32 (s.die.get Reg.HP_FEC_UNCORR_COUNT) f.uncorrected ∧
        u.die.get Reg.HP_RX_DROP_L2_COUNT = satAdd 32 (s.die.get Reg.HP_RX_DROP_L2_COUNT) 1 ∧
        OnlyRegs [Reg.HP_FEC_CORR, Reg.HP_FEC_UNCORR, Reg.HP_RX_DROP_L2] s.die u.die) ∧
      (f.uncorrected = 0 → (f.fcsOk = false ∨ f.len < 64 ∨ 9216 < f.len ∨ s.die.tagOk f.tags = false ∨ frameExcluded f = true) →
        ∃ u : State, exec (.frameReceive f) s = .next u ∧ u.die.host = s.die.host ∧ SameMem s.die u.die ∧
        u.die.get Reg.HP_RX_DROP_L2_COUNT = satAdd 32 (s.die.get Reg.HP_RX_DROP_L2_COUNT) 1) ∧
      (s.die.dropsL2 f = false → frameIsUdp f = true → s.die.netOk f = false → ∃ u : State,
        exec (.frameReceive f) s = .next u ∧ u.die.host = s.die.host ∧ SameMem s.die u.die ∧
        u.die.get Reg.HP_RX_DROP_NET_COUNT = satAdd 32 (s.die.get Reg.HP_RX_DROP_NET_COUNT) 1) ∧
      (s.die.dropsL2 f = false → frameIsUdp f = true → s.die.netOk f = true →
        ∀ p op, framePrio f = p → s.die.fill p + f.len ≤ 262144 → leAt f.data 6 1 = op →
        (s.die.yctCheck f = 0 → hostOpcodes.contains op = true → ∃ u : State, exec (.frameReceive f) s = .next u ∧
          u.die.fill p = s.die.fill p + f.len ∧
          u.die.get Reg.HP_RX_FRAMES_COUNT = satAdd 32 (s.die.get Reg.HP_RX_FRAMES_COUNT) 1 ∧ SameMem s.die u.die ∧
          OnlyRegs [Reg.HP_FEC_CORR, Reg.HP_FEC_UNCORR, Reg.HP_RX_FRAMES, Reg.HP_TX_FRAMES] s.die u.die) ∧
        (∀ n x, s.die.yctCheck f = 0 → hostOpcodes.contains op = false → s.die.sessionById (leAt f.data 8 4) = some (n, x) →
          s.die.session n = some x → seqOk x (leAt f.data 12 4) = true → max x.hiSeq (leAt f.data 12 4) < 0xFFFFFF00 → ∃ u : State,
          exec (.frameReceive f) s = .next u ∧ Told x.src op (x.message 1 op stOpcode (leAt f.data 12 4) []) u.die ∧ SameMem s.die u.die ∧
          OnlyRegs [Reg.HP_FEC_CORR, Reg.HP_FEC_UNCORR, Reg.HP_RX_FRAMES, Reg.HP_TX_FRAMES] s.die u.die) ∧
        (s.die.yctCheck f = 2 → ∃ u : State, exec (.frameReceive f) s = .next u ∧ u.die.host = s.die.host ∧
          u.die.get Reg.HP_RX_DROP_YCT_COUNT = satAdd 32 (s.die.get Reg.HP_RX_DROP_YCT_COUNT) 1 ∧
          OnlyRegs [Reg.HP_FEC_CORR, Reg.HP_FEC_UNCORR, Reg.HP_RX_FRAMES, Reg.HP_RX_DROP_YCT] s.die u.die) ∧
        (s.die.yctCheck f = 5 → s.die.authRun f.src + 1 < s.die.get Reg.SEC_AUTH_LIMIT → ∃ u : State,
          exec (.frameReceive f) s = .next u ∧ u.die.authRun f.src = s.die.authRun f.src + 1 ∧
          u.die.get Reg.HP_AUTH_FAIL_COUNT = satAdd 32 (s.die.get Reg.HP_AUTH_FAIL_COUNT) 1 ∧
          OnlyRegs [Reg.HP_FEC_CORR, Reg.HP_FEC_UNCORR, Reg.HP_RX_FRAMES, Reg.HP_AUTH_FAIL] s.die u.die))) ∧
    (∀ src a (bs : List Byte), ∀ k ∈ [(Instr.arpRequest src a, s.die.ownV4 a, 0, natBe 6 s.die.nv.mac ++ natBe 4 a),
        (.neighborSolicitation src a, s.die.ownV6 a, 1, natBe 16 a ++ natBe 6 s.die.nv.mac),
        (.icmpEcho src a false bs, s.die.ownV4 a && decide (s.die.echoLen false bs.length ≤ 9216), 2, bs),
        (.icmpEcho src a true bs, s.die.ownV6 a && decide (s.die.echoLen true bs.length ≤ 9216), 2, bs)],
      (k.2.1 = false → exec k.1 s = .next s) ∧
      (k.2.1 = true → ∃ u : State, exec k.1 s = .next u ∧
        Sent (s.die.get Reg.HP_PCP_CTRL) (.frame k.2.2.1 src (vlanTag (s.die.get Reg.HP_VLAN_VID) (s.die.get Reg.HP_PCP_CTRL)) k.2.2.2) u.die ∧
        SameMem s.die u.die ∧ u.die.host.sessions = s.die.host.sessions ∧ OnlyRegs [Reg.HP_TX_FRAMES] s.die u.die)) ∧
    (s.die.fwRuns = true → ∀ (m : PtpMsg) stamp, stamp ≤ 16 →
      (m.domain ≠ 0 ∨ m.kind = .other → exec (.ptpMessage m stamp) s = .next s) ∧
      (m.domain = 0 → m.kind = .announce → s.die.clock.ptp.master = none → ∃ u : State, exec (.ptpMessage m stamp) s = .next u ∧
        u.die.clock.ptp.master = some (m.dataSet, m.source) ∧ u.die.clock.ptp.fresh = true ∧
        u.die.clock.quarter = s.die.clock.quarter ∧ u.die.regs = s.die.regs ∧ SameMem s.die u.die ∧ u.die.out = s.die.out) ∧
      (m.domain = 0 → m.kind = .sync → m.twoStep = false → s.die.fromMaster m = true → ∃ u : State,
        exec (.ptpMessage m stamp) s = .next u ∧ u.die.clock.synced = true ∧ u.die.clock.quarter = ((s.die.clock.quarter : Int) -
          4 * (((s.die.now : Int) + (stamp : Int) - 8) - ((m.time : Int) + corrNs m) - s.die.clock.ptp.delay)).toNat ∧
        SameMem s.die u.die ∧ (s.die.clock.ptp.fresh = false → OnlyRegs [Reg.HP_TX_FRAMES] s.die u.die)) ∧
      (∀ r c, m.domain = 0 → m.kind = .followUp → s.die.fromMaster m = true → s.die.clock.ptp.waitSync = some (m.seq, r, c) → ∃ u : State,
        exec (.ptpMessage m stamp) s = .next u ∧ u.die.clock.synced = true ∧ u.die.clock.quarter = ((s.die.clock.quarter : Int) -
          4 * (r - ((m.time : Int) + corrNs m + c) - s.die.clock.ptp.delay)).toNat ∧ SameMem s.die u.die)) ∧
    (∀ src (h : HelloHead) lo hi, (s.die.host.helloSec = s.die.now / 1000000000 → s.die.host.helloCount < 1000) →
      (h.len < 96 → ∃ u : State, exec (.hello src h lo hi) s = .next u ∧
        Told src 1 (yctHead 1 1 1 stLength 0 0 h.seq [] ++ zeros 16) u.die) ∧
      (96 ≤ h.len → lo = 1 → 1 ≤ hi → hi ≤ 3 → ∃ u : State, exec (.hello src h lo hi) s = .next u ∧
        (∃ bs, Told src 1 (yctHead 1 1 1 stOk 0 0 h.seq bs ++ zeros 16) u.die ∧
          bs.length = 96 ∧ leAt bs 2 1 = 1) ∧ u.die.chosenVersion src = 1 ∧ u.die.host.sessions = s.die.host.sessions ∧
        OnlyRegs [Reg.HP_TX_FRAMES] s.die u.die ∧ SameMem s.die u.die) ∧
      (96 ≤ h.len → lo ≠ 1 → ∃ u : State, exec (.hello src h lo hi) s = .next u ∧
        ∃ bs, Told src 1 (yctHead 1 1 1 stVersion 0 0 h.seq bs ++ zeros 16) u.die)) ∧
    (∀ src (h : HelloHead) lo hi, s.die.host.helloSec = s.die.now / 1000000000 → 1000 ≤ s.die.host.helloCount →
      exec (.hello src h lo hi) s = .next { s with die := s.die.drain (h.len + 48) })) ∧
  (∀ (f : Frame), s.die.portUp = true → exec (.frameReceive f) s = .next { s with die := s.die.frameReceive f }) ∧
  (∀ (src : Source) (h : HelloHead) (hostMin hostMax : Nat), s.die.portUp = true →
    exec (.hello src h hostMin hostMax) s = .next { s with die := s.die.hello src h hostMin hostMax })

/-- R427 to R439, R540, R542, R551: OPEN fails its check 5, its fields or for want of a slot, or opens the lowest free slot;
a request that is resent, replayed, out of role or refused in this mode changes nothing it would do; CLOSE and idleness end a
session; a bulk window takes its bytes in order and checked, or sends them. Wherever its conditions hold, each command
completes with the effect of the operation named for it. The bytes of a refused OPEN, the SEQ of a response sent again and
the highest SEQ accepted as the judge of SEQ_END are the model's choices (log entry 77). -/
def Obligations.SessionsAndBulkWindowsFollowTheirRules : Prop := ∀ (s : State), s.die.live = true →
  (s.die.portUp = true →
  (∀ src (q : OpenReq) key roles idle, leAt q.msg 64 1 = key → leAt q.msg 65 1 = roles → leAt q.msg 66 2 = idle →
    (8 ≤ key ∨ s.die.on (Reg.SEC_SLOT_ACTIVE key) = false ∨ q.tag ≠ kmac (s.die.keyOf key) q.msg (ascii "KH880 YCT OPEN") 16 ∨
        ((look s.die.host.nonces key).getD []).contains ((q.msg.drop 32).take 32) = true →
      s.die.authRun src + 1 < s.die.get Reg.SEC_AUTH_LIMIT → ∃ u : State, exec (.openSession src q) s = .next u ∧
      u.die.get Reg.HP_AUTH_FAIL_COUNT = satAdd 32 (s.die.get Reg.HP_AUTH_FAIL_COUNT) 1 ∧
      u.die.host.sessions = s.die.host.sessions ∧ SameMem s.die u.die) ∧
    (key < 8 → s.die.on (Reg.SEC_SLOT_ACTIVE key) = true → q.tag = kmac (s.die.keyOf key) q.msg (ascii "KH880 YCT OPEN") 16 →
      ((look s.die.host.nonces key).getD []).contains ((q.msg.drop 32).take 32) = false →
      (idle = 0 ∨ 3600 < idle ∨ 16 ≤ roles → ∃ u : State, exec (.openSession src q) s = .next u ∧
        Told src 2 (s.die.refusalBytes src stLength (leAt q.msg 12 4)) u.die ∧
        u.die.host.sessions = s.die.host.sessions) ∧
      (∀ n, q.msg.length = 80 → 1 ≤ idle → idle ≤ 3600 → roles < 16 → leAt q.msg 68 12 = 0 → s.die.get Reg.SEC_STATUS_STATE = 0 →
        s.die.freeSlot = some n → ∃ u : State, exec (.openSession src q) s = .next u ∧
        u.die.host.nextId = s.die.host.nextId + 1 ∧ SameMem s.die u.die ∧
        ∃ x : Session, u.die.session n = some x ∧ x.devSeq = 1 ∧ (∃ bs, bs.length = 48 ∧ leAt bs 37 1 = n ∧
          Told src 2 (({ x with devSeq := 0 } : Session).message 1 2 stOk (leAt q.msg 12 4) bs) u.die) ∧ x.id = s.die.host.nextId ∧ x.keySlot = key ∧ x.idleTmo = idle ∧ x.src = src ∧
          x.hiSeq = 0 ∧ x.roles = setBits roles 3 1 (b2n (bit roles 3 && s.die.on (Reg.SEC_SLOT_DEBUG key) &&
            s.die.on Reg.SEC_CTRL_DEBUG_EN))) ∧
      (q.msg.length = 80 → 1 ≤ idle → idle ≤ 3600 → roles < 16 → leAt q.msg 68 12 = 0 → s.die.get Reg.SEC_STATUS_STATE = 0 →
        s.die.freeSlot = none → ∃ u : State, exec (.openSession src q) s = .next u ∧
        Told src 2 (s.die.refusalBytes src stNoSession (leAt q.msg 12 4)) u.die ∧
        u.die.host.sessions = s.die.host.sessions))) ∧
  (∀ m x w rd a n off (bs : List Byte) crc, s.die.session m.slot = some x →
    ∀ k ∈ [(Instr.bulkOpen m w rd a n, 0x20), (.bulkData m w off n bs crc, 0x21), (.bulkClose m w, 0x22), (.mbxPost m w bs, 0x30)],
      (∀ r, seqOk x m.seq = false → x.cache.find? (fun r => r.reqSeq == m.seq) = some r → ∃ u : State, exec k.1 s = .next u ∧
        Told x.src r.opcode (x.message 3 r.opcode r.status r.reqSeq r.payload) u.die ∧ u.die.host.windows = s.die.host.windows ∧
        u.die.get Reg.HP_RESENT_COUNT = satAdd 32 (s.die.get Reg.HP_RESENT_COUNT) 1 ∧ SameMem s.die u.die) ∧
      (seqOk x m.seq = false → x.cache.find? (fun r => r.reqSeq == m.seq) = none → ∃ u : State, exec k.1 s = .next u ∧
        u.die.get Reg.HP_REPLAY_COUNT = satAdd 32 (s.die.get Reg.HP_REPLAY_COUNT) 1 ∧ SameMem s.die u.die ∧
        u.die.host.windows = s.die.host.windows) ∧
      (seqOk x m.seq = true → 0xFFFFFF00 ≤ max x.hiSeq m.seq → ∃ u : State, exec k.1 s = .next u ∧
        Responded m k.2 stSeqEnd [] s.die u.die ∧ u.die.host.windows = s.die.host.windows ∧ SameMem s.die u.die) ∧
      (seqOk x m.seq = true → max x.hiSeq m.seq < 0xFFFFFF00 → s.die.portLow = true → ∃ u : State, exec k.1 s = .next u ∧
        Responded m k.2 stLowWater [] s.die u.die ∧ u.die.host.windows = s.die.host.windows ∧ SameMem s.die u.die) ∧
      (seqOk x m.seq = true → max x.hiSeq m.seq < 0xFFFFFF00 → s.die.portLow = false → bit x.roles 0 = false → ∃ u : State,
        exec k.1 s = .next u ∧ Responded m k.2 stRole [] s.die u.die ∧ u.die.host.windows = s.die.host.windows ∧
        SameMem s.die u.die)) ∧
  (∀ m, s.die.accepts m 0x03 9 = true → m.len = 0 → ∃ u : State, exec (.close m) s = .next u ∧
    Responded m 0x03 stOk [] s.die u.die ∧ u.die.session m.slot = none ∧ (∀ p ∈ u.die.host.windows, p.2.slot ≠ m.slot) ∧
    SameMem s.die u.die) ∧
  (∀ slot, (s.die.session slot).isSome = true → ∃ u : State, exec (.sessionIdleTimeout slot) s = .next u ∧
    u.die.session slot = none ∧ (∀ p ∈ u.die.host.windows, p.2.slot ≠ slot) ∧ SameMem s.die u.die ∧ u.die.out = s.die.out ∧
    ∀ k, k < 64 → s.die.boxOwner k = slot → (u.die.box k).state = .free) ∧
  (∀ m w rd a n, s.die.accepts m 0x20 0 = true → m.len = 24 → 1 ≤ n → n ≤ 2 ^ 40 → w < 4 →
    ((s.die.window w).isSome = true → ∃ u : State, exec (.bulkOpen m w rd a n) s = .next u ∧
      Responded m 0x20 stBusy (zeros 16) s.die u.die ∧ u.die.host.windows = s.die.host.windows) ∧
    (s.die.window w = none → isDram a = true → a + n ≤ fwArea → ∃ u : State, exec (.bulkOpen m w rd a n) s = .next u ∧
      Responded m 0x20 stOk (natLe 1 w ++ zeros 3 ++ natLe 4 256 ++ natLe 8 n) s.die u.die ∧
      u.die.window w = some { slot := m.slot, read := rd, addr := a, total := n } ∧ SameMem s.die u.die ∧
      OnlyRegs [Reg.HP_TX_FRAMES] s.die u.die) ∧
    (s.die.window w = none → isDram a = true → fwArea < a + min n (dramEnd - a) → s.die.hasDebug (.session m.slot) = false →
      ∃ u : State, exec (.bulkOpen m w rd a n) s = .next u ∧ Responded m 0x20 stProtected (zeros 16) s.die u.die ∧
      u.die.host.windows = s.die.host.windows ∧ Recorded 0x0B 5 78 0xFFFF s.die u.die ∧ SameMem s.die u.die)) ∧
  (∀ m w off n (bs : List Byte) crc, s.die.accepts m 0x21 0 = true → 1 ≤ n → n ≤ 8192 →
    (s.die.window w = none → ∃ u : State, exec (.bulkData m w off n bs crc) s = .next u ∧
      Responded m 0x21 stWindow (bulkHead w n off ++ natLe 8 0) s.die u.die ∧ SameMem s.die u.die) ∧
    (∀ b a, s.die.window w = some b → b.slot = m.slot → b.read = false → m.len = 20 + n → bs.length = n → b.addr + off = a →
      (b.next < off → ∃ u : State, exec (.bulkData m w off n bs crc) s = .next u ∧
        Responded m 0x21 stWindow (bulkHead w n off ++ natLe 8 b.next) s.die u.die ∧ u.die.window w = some b ∧
        SameMem s.die u.die) ∧
      (off = b.next → off + n ≤ b.total → crc32c bs ≠ crc → ∃ u : State, exec (.bulkData m w off n bs crc) s = .next u ∧
        Responded m 0x21 stCrc (bulkHead w n off ++ natLe 8 b.next) s.die u.die ∧ u.die.window w = some b ∧
        SameMem s.die u.die) ∧
      (off = b.next → off + n ≤ b.total → crc32c bs = crc → isDram a = true → s.die.bulkBusy a n = false →
        s.die.rangePoison a n = false → ∃ u : State, exec (.bulkData m w off n bs crc) s = .next u ∧
        Responded m 0x21 stOk (bulkHead w n off ++ natLe 8 (off + n)) s.die u.die ∧
        u.die.window w = some { b with next := off + n } ∧ u.die.bytesAt a n = bs ∧ SameMemBut a n s.die u.die ∧
        OnlyRegs [Reg.HP_TX_FRAMES] s.die u.die)) ∧
    (∀ b a, s.die.window w = some b → b.slot = m.slot → b.read = true → m.len = 16 → b.addr + off = a → off + n ≤ b.total →
      isDram a = true → s.die.bulkBusy a n = false → s.die.rangePoison a n = false → ∃ u : State,
      exec (.bulkData m w off n bs crc) s = .next u ∧ SameMem s.die u.die ∧ u.die.window w = some b ∧
      Responded m 0x21 stOk (bulkHead w n off ++ s.die.bytesAt a n ++ natLe 4 (crc32c (s.die.bytesAt a n))) s.die u.die)) ∧
  (∀ m w, s.die.accepts m 0x22 0 = true → m.len = 8 →
    (s.die.window w = none ∨ (∃ b, s.die.window w = some b ∧ b.slot ≠ m.slot) → ∃ u : State, exec (.bulkClose m w) s = .next u ∧
      Responded m 0x22 stWindow (natLe 1 w ++ zeros 15) s.die u.die ∧ u.die.host.windows = s.die.host.windows) ∧
    (∀ b, s.die.window w = some b → b.slot = m.slot → ∃ u : State, exec (.bulkClose m w) s = .next u ∧ u.die.window w = none ∧
      Responded m 0x22 (if b.read = false ∧ b.next < b.total then stWindow else stOk)
        (natLe 1 w ++ zeros 7 ++ natLe 8 (if b.read then 0 else b.next)) s.die u.die ∧ SameMem s.die u.die)) ∧
  (∀ w, (s.die.window w).isSome = true → ∃ u : State, exec (.bulkWindowTimeout w) s = .next u ∧ u.die.window w = none ∧
    (∀ v, v ≠ w → u.die.window v = s.die.window v) ∧ u.die.regs = s.die.regs ∧ SameMem s.die u.die)) ∧
  (∀ (src : Source) (id : OpenReq), s.die.portUp = true →
    exec (.openSession src id) s = .next { s with die := s.die.openReq src id }) ∧
  (∀ (m : MsgHead), s.die.canRequest m = true →
    exec (.close m) s = .next { s with
      die := s.die.request m 0x03 9 (decide (m.len = 0)) (fun e _ => (e.respond m.slot 0x03 stOk m.seq []).endSession m.slot) }) ∧
  (∀ (m : MsgHead) (window : Nat) (read : Bool) (addr total : Nat), s.die.canRequest m = true →
    exec (.bulkOpen m window read addr total) s = .next { s with
      die := s.die.request m 0x20 0 (decide (m.len = 24) && decide (1 ≤ total) && decide (total ≤ 2 ^ 40) &&
        (decide (window < 4) || window == 0xFF)) (fun e _ => e.bulkOpen m window read addr total) }) ∧
  (∀ (m : MsgHead) (window off len : Nat) (data : List Byte) (crc : Nat), s.die.canRequest m = true →
    exec (.bulkData m window off len data crc) s = .next { s with
      die := s.die.request m 0x21 0 (decide (1 ≤ len) && decide (len ≤ 8192))
        (fun e _ => e.bulkData m window off len data crc) }) ∧
  (∀ (m : MsgHead) (window : Nat), s.die.canRequest m = true →
    exec (.bulkClose m window) s = .next { s with
      die := s.die.request m 0x22 0 (decide (m.len = 8)) (fun e _ => e.bulkClose m window) }) ∧
  (∀ (m : MsgHead) (box : Nat) (bytes : List Byte), s.die.canRequest m = true →
    exec (.mbxPost m box bytes) s = .next { s with
      die := s.die.request m 0x30 0 (decide (m.len = 264) && decide (bytes.length = 256) &&
        (decide (box < 64) || box == 0xFF)) (fun e _ => e.mbxPost m box bytes) }) ∧
  (∀ (slot : Nat), (s.die.session slot).isSome = true →
    exec (.sessionIdleTimeout slot) s = .next { s with die := s.die.endSession slot }) ∧
  (∀ (window : Nat), (s.die.window window).isSome = true →
    exec (.bulkWindowTimeout window) s = .next { s with die := s.die.closeWindow window })

/-- R440 to R444, R583: queued events leave in order under one message; a box is posted by request or doorbell where it is
FREE or its owner's, taken first come first served by at most four commands at once, completed with its response and an
event, and released. Wherever its conditions hold, each command completes with the effect of the operation named for it. -/
def Obligations.EventsAndMailboxesMoveInOrder : Prop := ∀ (s : State), s.die.live = true →
  (s.die.portUp = true → ∀ slot x, s.die.session slot = some x →
    (x.evtLost = 0 → x.events ≠ [] → (x.events.map EvRec.size).sum ≤ 9040 → ∃ u : State, exec (.eventFlush slot) s = .next u ∧
      Told x.src 0x40 (x.message 0 0x40 0 0 ((numberEvents (x.evtSeq + 1) x.events).map EvRec.bytes).flatten) u.die ∧
      u.die.session slot = some { x with
        events := [], evtSeq := x.evtSeq + x.events.length, devSeq := x.devSeq + 1 } ∧
      OnlyRegs [Reg.HP_TX_FRAMES] s.die u.die ∧ SameMem s.die u.die) ∧
    (x.evtLost ≠ 0 → x.events = [] → ∃ u : State, exec (.eventFlush slot) s = .next u ∧
      Told x.src 0x40 (x.message 0 0x40 0 0 (natLe 2 8 ++ natLe 2 4 ++ natLe 4 (x.evtSeq + 1) ++ natLe 8 s.die.now ++ natLe 4 x.evtLost ++
        zeros 4)) u.die ∧
      ∃ y, u.die.session slot = some y ∧ y.evtLost = 0 ∧ y.evtSeq = x.evtSeq + 1)) ∧
  (∀ m box (bs : List Byte), s.die.accepts m 0x30 0 = true → m.len = 264 → bs.length = 256 → box < 64 → m.slot < 8 →
    (s.die.fwRuns = false → ∃ u : State, exec (.mbxPost m box bs) s = .next u ∧
      Responded m 0x30 stNoFirmware [] s.die u.die ∧ u.die.host.boxes = s.die.host.boxes) ∧
    (s.die.fwRuns = true → s.die.canPost box m.slot = false → ∃ u : State, exec (.mbxPost m box bs) s = .next u ∧
      Responded m 0x30 stBusy [] s.die u.die ∧ u.die.host.boxes = s.die.host.boxes) ∧
    (s.die.fwRuns = true → s.die.canPost box m.slot = true → ∃ u : State, exec (.mbxPost m box bs) s = .next u ∧
      Responded m 0x30 stOk (natLe 1 box) s.die u.die ∧ (u.die.box box).state = .posted ∧ u.die.boxOwner box = m.slot ∧
      u.die.boxBytes (reqBox box) = bs ∧ u.die.host.doorbells = without s.die.host.doorbells box ++ [box] ∧
      OnlyRegs (mbxRegs ++ (List.range 64).map (fun i => reqBox box + 4 * i) ++ [Reg.HP_TX_FRAMES]) s.die u.die ∧
      SameMem s.die u.die)) ∧
  (∀ ag hi w, s.die.mayControl ag = true →
    (isHost ag = true →
      (bitsSet 32 w = [] → exec (.mbxDoorbell ag hi w) s = .next { s with die := s.die.answer ag stOk }) ∧
      (bitsSet 32 w ≠ [] → s.die.fwRuns = false →
        exec (.mbxDoorbell ag hi w) s = .next { s with die := s.die.answer ag stNoFirmware }) ∧
      (∀ i, bitsSet 32 w = [i] → s.die.fwRuns = true →
        (s.die.canPost (i + 32 * b2n hi) (agentCode ag) = false →
          exec (.mbxDoorbell ag hi w) s = .next { s with die := s.die.answer ag stBusy }) ∧
        (s.die.canPost (i + 32 * b2n hi) (agentCode ag) = true → ∃ u : State, exec (.mbxDoorbell ag hi w) s = .next u ∧
          (u.die.box (i + 32 * b2n hi)).state = .posted ∧ u.die.boxOwner (i + 32 * b2n hi) = agentCode ag ∧
          u.die.out = .status ag stOk :: s.die.out ∧ SameMem s.die u.die ∧ OnlyRegs mbxRegs s.die u.die ∧
          u.die.host.doorbells = without s.die.host.doorbells (i + 32 * b2n hi) ++ [i + 32 * b2n hi]))) ∧
    (∃ u : State, exec (.mbxRelease ag hi w) s = .next u ∧ u.die.out = .status ag stOk :: s.die.out ∧ SameMem s.die u.die ∧
      OnlyRegs mbxRegs s.die u.die ∧ ∀ i, i < 32 → (u.die.box (i + 32 * b2n hi)).state =
        (if bit w i = true ∧ (s.die.box (i + 32 * b2n hi)).state = .done then .free
         else (s.die.box (i + 32 * b2n hi)).state))) ∧
  (s.die.fwRuns = true → ∀ k r, s.die.host.doorbells = k :: r → k < 64 →
    (s.die.busyBoxes < 4 → ∃ u : State, exec .mbxTake s = .next u ∧ (u.die.box k).state = .busy ∧ (u.die.box k).result = none ∧
      u.die.host.doorbells = r ∧ u.die.boxOwner k = s.die.boxOwner k ∧ OnlyRegs mbxRegs s.die u.die ∧ SameMem s.die u.die) ∧
    (4 ≤ s.die.busyBoxes → exec .mbxTake s = .next s)) ∧
  (∀ box code (bs : List Byte), box < 64 → s.die.box box = { state := .busy, result := some (code, bs), outBytes := [] } →
    code < 65536 → bs.length ≤ 224 → leAt (s.die.boxBytes (reqBox box)) 16 8 = 0 → ∃ u : State,
    exec (.mbxComplete box) s = .next u ∧ (u.die.box box).state = .done ∧ u.die.boxOwner box = s.die.boxOwner box ∧
    leAt (u.die.boxBytes (rspBox box)) 10 2 = code ∧ ((u.die.boxBytes (rspBox box)).drop 32).take bs.length = bs ∧
    SameMem s.die u.die ∧
    OnlyRegs (mbxRegs ++ (List.range 64).map (fun i => rspBox box + 4 * i) ++ [Reg.HP_EVT_LOST]) s.die u.die) ∧
  (∀ slot x, s.die.portUp = true → s.die.session slot = some x → x.events ≠ [] ∨ x.evtLost ≠ 0 →
    exec (.eventFlush slot) s = .next { s with die := s.die.eventFlush slot }) ∧
  (∀ (ag : Agent) (hi : Bool) (word : Nat), s.die.mayControl ag = true → isHost ag = true →
    exec (.mbxDoorbell ag hi word) s = .next { s with die := s.die.doorbell ag hi word }) ∧
  (∀ box code (bs : List Byte), box < 64 → (s.die.box box).state = .busy → (s.die.box box).result = some (code, bs) →
    exec (.mbxComplete box) s = .next { s with die := s.die.mbxFinish box code bs (s.die.box box).outBytes })

/-! ### Links (R449 to R475) -/

/-- R458, R459, R462, R473, R514, R521: enabling, training, loss, notices, stopping and time limits move a link's state as
R458 and R459 say, with the cause in LNK_STATUS, one record and the alert where the link fails; what it held is lost on the
way into DOWN, and what waits to leave is discarded as it leaves UP (in part the model's reading, log entry 79). Wherever its
conditions hold, each command completes with the effect of the operation named for it. -/
def Obligations.LinksMoveThroughTheirStates : Prop := ∀ (s : State) (k : Nat), s.die.live = true → k < 6 →
  (bit s.die.sliceMask k = false →
  (∀ ag, s.die.mayControl ag = true →
    (s.die.lowWater = true → exec (.linkEnable ag k) s = .next { s with die := s.die.answer ag stOk }) ∧
    (s.die.lowWater = false → ∃ u : State, exec (.linkEnable ag k) s = .next u ∧ u.die.get (Reg.LNK_CTRL_EN k) = 1 ∧
      (s.die.lnkState k = 0 → u.die.lnkState k = 1) ∧ (s.die.lnkState k ≠ 0 → u.die.lnkState k = s.die.lnkState k) ∧
      (s.die.lnkState k = 6 → u.die.get (Reg.LNK_STATUS_DEFERRED k) = 1) ∧ u.die.out = .status ag stOk :: s.die.out ∧
      OnlyRegs [Reg.LNK_CTRL k, Reg.LNK_STATUS k] s.die u.die ∧ SameMem s.die u.die ∧ u.die.links = s.die.links) ∧
    (∃ u : State, exec (.linkDisable ag k) s = .next u ∧ u.die.get (Reg.LNK_CTRL_EN k) = 0 ∧
      u.die.get (Reg.LNK_STATUS_DEFERRED k) = 0 ∧ SameMem s.die u.die ∧
      ((s.die.link k).txPackets.filter (fun p => bit p.1 1) = [] → u.die.out = .status ag stOk :: s.die.out) ∧
      OnlyRegs (Reg.LNK_CTRL k :: Reg.LNK_STATUS k :: Reg.LNK_DOWN k :: Reg.LNK_ROUTE_DROP k :: logRegs) s.die u.die ∧
      (2 ≤ s.die.lnkState k → s.die.lnkState k ≤ 5 → u.die.lnkState k = 6 ∧ u.die.get (Reg.LNK_STATUS_CAUSE k) = 1 ∧
        (u.die.link k).control = (s.die.link k).control ++ [(3, [1])]) ∧
      (s.die.lnkState k = 4 → u.die.get (Reg.LNK_STATUS_WENT_DOWN k) = 1 ∧
        u.die.get (Reg.LNK_DOWN_COUNT k) = satAdd 32 (s.die.get (Reg.LNK_DOWN_COUNT k)) 1) ∧
      (s.die.lnkState k < 2 ∨ 5 < s.die.lnkState k → u.die.lnkState k = s.die.lnkState k ∧ u.die.links = s.die.links)) ∧
    (s.die.lnkState k = 0 ∨ s.die.lnkState k = 6 →
      exec (.linkRetrain ag k) s = .next { s with die := s.die.answer ag stOk }) ∧
    (s.die.lnkState k = 1 → ∃ u : State, exec (.linkRetrain ag k) s = .next u ∧ u.die.get (Reg.LNK_CTRL_RETRAIN k) = 1 ∧
      u.die.lnkState k = 1 ∧ OnlyRegs [Reg.LNK_CTRL k] s.die u.die) ∧
    (2 ≤ s.die.lnkState k → s.die.lnkState k ≤ 5 → ∃ u : State, exec (.linkRetrain ag k) s = .next u ∧ u.die.lnkState k = 2 ∧
      u.die.get (Reg.LNK_STATUS_CAUSE k) = 8 ∧ u.die.link k = {} ∧ u.die.get (Reg.LNK_PARTNER_VALID k) = 0 ∧
      SameMem s.die u.die)) ∧
  (s.die.lnkState k = 1 → ∃ u : State, exec (.partnerSignal k) s = .next u ∧ u.die.get (Reg.LNK_STATUS_NO_PARTNER k) = 0 ∧
    u.die.lnkState k = (if s.die.on (Reg.LNK_CTRL_EN k) then 2 else 1) ∧
    OnlyRegs [Reg.LNK_CTRL k, Reg.LNK_STATUS k] s.die u.die ∧ u.die.links = s.die.links ∧ SameMem s.die u.die) ∧
  (s.die.lnkState k = 2 →
    (∃ u : State, exec (.linkTrained k) s = .next u ∧ u.die.lnkState k = 3 ∧ (u.die.link k).txSeq = 0 ∧
      (u.die.link k).rxSeq = 0 ∧ OnlyRegs [Reg.LNK_STATUS k] s.die u.die ∧ SameMem s.die u.die) ∧
    (∃ u : State, exec (.linkTrainTimeout k) s = .next u ∧ u.die.lnkState k = 1 ∧ u.die.get (Reg.LNK_STATUS_CAUSE k) = 7 ∧
      u.die.link k = {} ∧ Recorded 0x07 2 (72 + k) k s.die u.die ∧ bit (u.die.get Reg.STL_ALERT_BITS) alLink = true ∧
      OnlyRegs (Reg.LNK_STATUS k :: Reg.LNK_PARTNER k :: logRegs) s.die u.die ∧ SameMem s.die u.die)) ∧
  (s.die.lnkState k = 4 → ∀ c ∈ [(Instr.linkSignalLoss k false, 2), (.linkSignalLoss k true, 3), (.downNotice k, 5)],
    ∃ u : State, exec c.1 s = .next u ∧ u.die.lnkState k = 1 ∧ u.die.get (Reg.LNK_STATUS_CAUSE k) = c.2 ∧ u.die.link k = {} ∧
    u.die.get (Reg.LNK_STATUS_WENT_DOWN k) = 1 ∧ u.die.get (Reg.LNK_PARTNER_VALID k) = 0 ∧
    u.die.get (Reg.LNK_DOWN_COUNT k) = satAdd 32 (s.die.get (Reg.LNK_DOWN_COUNT k)) 1 ∧
    u.die.get (Reg.LNK_ROUTE_DROP_COUNT k) = satAdd 32 (s.die.get (Reg.LNK_ROUTE_DROP_COUNT k))
      ((s.die.link k).txPackets.filter (fun p => bit p.1 1)).length ∧
    ((s.die.link k).txPackets.filter (fun p => bit p.1 1) = [] → Recorded 0x07 2 (72 + k) k s.die u.die) ∧
    bit (u.die.get Reg.STL_ALERT_BITS) alLink = true ∧ SameMem s.die u.die ∧
    OnlyRegs (Reg.LNK_STATUS k :: Reg.LNK_PARTNER k :: Reg.LNK_DOWN k :: Reg.LNK_ROUTE_DROP k :: logRegs) s.die u.die) ∧
  (s.die.lnkState k = 6 → (s.die.link k).control = [] → ∃ u : State, exec (.linkStopped k) s = .next u ∧ u.die.link k = {} ∧
    u.die.lnkState k = (if s.die.on (Reg.LNK_STATUS_DEFERRED k) then 1 else 0) ∧
    OnlyRegs [Reg.LNK_STATUS k, Reg.LNK_PARTNER k] s.die u.die ∧ SameMem s.die u.die) ∧
  (s.die.lnkState k = 1 → s.die.on (Reg.LNK_CTRL_EN k) = true →
    (s.die.planValid k = true → ∃ u : State, exec (.noPartnerTimeout k) s = .next u ∧
      u.die.get (Reg.LNK_STATUS_NO_PARTNER k) = 1 ∧ Recorded 0x07 1 (72 + k) k s.die u.die ∧
      bit (u.die.get Reg.STL_ALERT_BITS) alLink = true ∧ OnlyRegs (Reg.LNK_STATUS k :: logRegs) s.die u.die ∧
      SameMem s.die u.die) ∧
    (s.die.planValid k = false → ∃ u : State, exec (.noPartnerTimeout k) s = .next u ∧
      u.die.get (Reg.LNK_STATUS_NO_PARTNER k) = 1 ∧ u.die.strand = s.die.strand ∧
      OnlyRegs [Reg.LNK_STATUS k] s.die u.die))) ∧
  (∀ (ag : Agent), s.die.mayControl ag = true → exec (.linkEnable ag k) s = .next { s with die := s.die.linkEnable ag k }) ∧
  (∀ (ag : Agent), s.die.mayControl ag = true → exec (.linkDisable ag k) s = .next { s with die := s.die.linkDisable ag k }) ∧
  (∀ (ag : Agent), s.die.mayControl ag = true → exec (.linkRetrain ag k) s = .next { s with die := s.die.linkRetrain ag k }) ∧
  (s.die.lnkState k = 1 → ∃ u : State, exec (.partnerSignal k) s = .next u ∧ u.die.get (Reg.LNK_STATUS_NO_PARTNER k) = 0 ∧
    u.die.lnkState k = (if s.die.on (Reg.LNK_CTRL_EN k) then 2 else 1) ∧ u.pending = s.pending ∧ u.carrier = s.carrier) ∧
  (s.die.lnkState k = 2 →
    exec (.linkTrained k) s = .next { s with die := (s.die.modLink k (fun l => { l with txSeq := 0, rxSeq := 0 })).setLnk k 3 }) ∧
  (s.die.lnkState k = 2 → exec (.linkTrainTimeout k) s = .next { s with die := s.die.linkDown k 7 }) ∧
  (∀ (fec : Bool), s.die.linkUp k = true →
    exec (.linkSignalLoss k fec) s = .next { s with die := s.die.linkDown k (if fec then 3 else 2) }) ∧
  (s.die.linkUp k = true → exec (.downNotice k) s = .next { s with die := s.die.linkDown k 5 }) ∧
  (s.die.lnkState k = 6 → (s.die.link k).control = [] → ∃ u : State, exec (.linkStopped k) s = .next u ∧ u.die.link k = {} ∧
    u.die.lnkState k = (if s.die.on (Reg.LNK_STATUS_DEFERRED k) then 1 else 0) ∧ u.pending = s.pending ∧ u.carrier = s.carrier) ∧
  (s.die.lnkState k = 1 → s.die.on (Reg.LNK_CTRL_EN k) = true → ∃ u : State, exec (.noPartnerTimeout k) s = .next u ∧
    u.die.get (Reg.LNK_STATUS_NO_PARTNER k) = 1 ∧ u.die.links = s.die.links ∧
    (s.die.planValid k = true → Recorded 0x07 1 (72 + k) k s.die u.die))

/-- R460 to R462, R470, R471, R474: coordinates, torus and plans are written by J3 and DEBUG sessions in IDLE and LOADED
only; identities are sent and stored, and the comparison takes a link that matches its plan to UP and any other to MISMATCH.
Wherever its conditions hold, each command completes with the effect of the operation named for it. -/
def Obligations.PlansAndIdentitiesAreCompared : Prop := ∀ (s : State), s.die.live = true →
  (∀ ag w k, s.die.mayControl ag = true → k < 6 →
    (s.die.mayPlan ag = false → ∀ c ∈ [Instr.coordWrite ag w, .torusWrite ag w, .planWrite ag k w],
      exec c s = .next { s with die := s.die.answer ag stRole }) ∧
    (s.die.mayPlan ag = true → s.die.tideState ≠ 0 → s.die.tideState ≠ 2 → ∀ c : Instr × Nat,
      c ∈ [(Instr.coordWrite ag w, Reg.GLB_COORD), (.torusWrite ag w, Reg.GLB_TORUS), (.planWrite ag k w, Reg.LNK_PLAN k)] →
      writeFields ((regSpec c.2).getD []) (s.die.getW c.2).toNat w ≠ (s.die.getW c.2).toNat → ∃ u : State,
      exec c.1 s = .next u ∧ Recorded 0x01 4 0xFF 0xFFFF s.die u.die ∧ u.die.out.head? = some (.status ag stBusy) ∧
      OnlyRegs logRegs s.die u.die ∧ SameMem s.die u.die) ∧
    (s.die.mayPlan ag = true → s.die.tideState = 0 ∨ s.die.tideState = 2 →
      (∀ j, j < 6 → s.die.lnkState j ≠ 3 ∧ s.die.lnkState j ≠ 4 ∧ s.die.lnkState j ≠ 5) →
      (bits w 0 5 ≤ s.die.get Reg.GLB_TORUS_SX → bits w 5 5 ≤ s.die.get Reg.GLB_TORUS_SY →
        bits w 10 5 ≤ s.die.get Reg.GLB_TORUS_SZ → ∃ u : State, exec (.coordWrite ag w) s = .next u ∧
        u.die.coord = w % 65536 ∧ OnlyRegs [Reg.GLB_COORD] s.die u.die ∧ SameMem s.die u.die ∧
        u.die.out = .status ag stOk :: s.die.out) ∧
      (s.die.get Reg.GLB_TORUS_SX < bits w 0 5 → bits w 5 5 ≤ s.die.get Reg.GLB_TORUS_SY →
        bits w 10 5 ≤ s.die.get Reg.GLB_TORUS_SZ → ∃ u : State, exec (.coordWrite ag w) s = .next u ∧
        bits u.die.coord 0 5 = bits s.die.coord 0 5 ∧ bits u.die.coord 5 5 = bits w 5 5 ∧
        Recorded 0x01 3 93 0xFFFF s.die u.die ∧ OnlyRegs (Reg.GLB_COORD :: logRegs) s.die u.die) ∧
      (∃ u : State, exec (.torusWrite ag w) s = .next u ∧ OnlyRegs (Reg.GLB_TORUS :: logRegs) s.die u.die ∧ SameMem s.die u.die ∧
        u.die.getW Reg.GLB_TORUS = w32 (writeFields ((regSpec Reg.GLB_TORUS).getD []) (s.die.getW Reg.GLB_TORUS).toNat w)) ∧
      (∃ u : State, exec (.planWrite ag k w) s = .next u ∧ OnlyRegs (Reg.LNK_PLAN k :: logRegs) s.die u.die ∧ SameMem s.die u.die ∧
        u.die.get (Reg.LNK_PLAN_VALID k) = bits w 31 1 ∧ u.die.get (Reg.LNK_PLAN_COORD k) = bits w 0 15))) ∧
  (∀ k, k < 6 → s.die.carriesId k = true →
    (s.die.flitReady k = true → exec (.identitySend k) s = .next s) ∧
    (s.die.flitReady k = false → ∃ u : State, exec (.identitySend k) s = .next u ∧ SameMem s.die u.die ∧
      u.die.out = .flit k (s.die.flitBytes k 65535 0xA0 (natLe 2 s.die.coord ++ natLe 2 (s.die.getW Reg.GLB_TORUS).toNat ++
        natLe 1 k ++ zeros 3 ++ natLe 8 s.die.nv.serial)) :: s.die.out ∧
      u.die.get64 (Reg.LNK_TX_FLITS_LO k) = (s.die.get64 (Reg.LNK_TX_FLITS_LO k) + 1) % 2 ^ 64 ∧
      OnlyRegs [Reg.LNK_TX_FLITS_LO k, Reg.LNK_TX_FLITS_HI k] s.die u.die) ∧
    (∀ coord torus port serial, s.die.lnkState k = 3 →
      (∀ j, j < 6 → j ≠ k → s.die.lnkState j ≠ 3 ∧ s.die.lnkState j ≠ 4 ∧ s.die.lnkState j ≠ 5) → port < 6 → torus < 65536 →
      serial < 2 ^ 64 → s.die.on Reg.GLB_COORD_VALID = true →
      (serial = s.die.nv.serial → ∃ u : State, exec (.identityReceive k coord torus port serial) s = .next u ∧
        u.die.lnkState k = 5 ∧ u.die.get (Reg.LNK_STATUS_CHECK k) = 5 ∧ SameMem s.die u.die) ∧
      (serial ≠ s.die.nv.serial → torus = (s.die.getW Reg.GLB_TORUS).toNat % 65536 → bit coord 15 = true →
        s.die.planValid k = true → s.die.planOf k = (coord % 32768, port) → ∃ u : State,
        exec (.identityReceive k coord torus port serial) s = .next u ∧ u.die.lnkState k = 4 ∧
        u.die.get (Reg.LNK_STATUS_CHECK k) = 1 ∧ u.die.get64 (Reg.LNK_PARTNER_SERIAL_LO k) = serial ∧
        u.die.partnerOf k = (coord % 32768, port) ∧ SameMem s.die u.die) ∧
      (serial ≠ s.die.nv.serial → torus ≠ (s.die.getW Reg.GLB_TORUS).toNat % 65536 → ∃ u : State,
        exec (.identityReceive k coord torus port serial) s = .next u ∧ u.die.lnkState k = 5 ∧
        u.die.get (Reg.LNK_STATUS_CHECK k) = 6 ∧ SameMem s.die u.die))) ∧
  (∀ (link coord torus port serial : Nat), link < 6 → s.die.carriesId link = true → port < 6 → torus < 65536 →
    exec (.identityReceive link coord torus port serial) s = .next { s with
      die := s.die.identityReceive link coord torus port serial }) ∧
  (∀ (ag : Agent) (word : Nat), s.die.mayControl ag = true →
    exec (.coordWrite ag word) s = .next { s with
      die := s.die.planWrite ag Reg.GLB_COORD word (fun e => e.coordWrite ag word) }) ∧
  (∀ (ag : Agent) (link word : Nat), s.die.mayControl ag = true → link < 6 →
    exec (.planWrite ag link word) s = .next { s with
      die := s.die.planWrite ag (Reg.LNK_PLAN link) word (fun e => e.lnkPlanWrite ag link word) })

/-- R450 to R455: a flit is 256 bytes whose CRC-32C covers its sequence number; a good sequenced one is delivered once and advances the
receiver; a bad one opens one retry event with one NAK, and too many take the link DOWN with RETRY_LIMIT; a NAK resends in order; credits
are the partner's; what leaves first is CONTROL, then MARK, then resent flits, then packets within credit, and IDLE flits where
nothing is ready. A cycle in which a ready flit waits for credit is counted. When four NAKs count as without progress, and the ACK before
the first flit, are the model's reading (log entry 79). Wherever its conditions hold, each command completes with
the effect of the operation named for it. -/
def Obligations.FlitsAreCheckedResentAndCredited : Prop := ∀ (s : State) (k : Nat), s.die.live = true → k < 6 →
  (s.die.lnkState k = 4 → bit s.die.sliceMask k = false →
  (∀ f : FlitIn, f.bytes.length = 256 → s.die.ptbActive 2 = false →
    (f.uncorrected = 0 → flitGood f (s.die.link k).rxSeq = true → flitReserved f = false →
      (flitSeqd f = true → ∃ u : State, exec (.flitReceive k f) s = .next u ∧
        (u.die.link k).rxSeq = ((s.die.link k).rxSeq + 1) % 65536 ∧ (u.die.link k).waiting = false ∧ (u.die.link k).naks = 0 ∧
        (u.die.link k).retry = ackRetry (s.die.link k).retry (leAt f.bytes 1 1) ∧ SameMem s.die u.die ∧ u.die.lnkState k = 4 ∧
        u.die.get64 (Reg.LNK_RX_FLITS_LO k) = (s.die.get64 (Reg.LNK_RX_FLITS_LO k) + 1) % 2 ^ 64) ∧
      (flitType f = 4 → leAt f.bytes 2 1 = 2 → ∃ u : State, exec (.flitReceive k f) s = .next u ∧
        u.die.link k = { s.die.link k with
          retry := ackRetry (s.die.link k).retry (leAt f.bytes 1 1),
          credit := [leAt f.bytes 3 4, leAt f.bytes 7 4, leAt f.bytes 11 4, leAt f.bytes 15 4] } ∧ SameMem s.die u.die)) ∧
    (0 < f.uncorrected ∨ flitGood f (s.die.link k).rxSeq = false ∨ flitReserved f = true →
      ((s.die.link k).waiting = true → ∃ u : State, exec (.flitReceive k f) s = .next u ∧ u.die.links = s.die.links) ∧
      ((s.die.link k).waiting = false →
        ((s.die.link k).events.filter (fun t => decide (s.die.clock.quarter < t + 4000000))).length < 63 → ∃ u : State,
        exec (.flitReceive k f) s = .next u ∧ (u.die.link k).waiting = true ∧ (u.die.link k).naks = 1 ∧
        (u.die.link k).control = (s.die.link k).control ++ [(1, [(s.die.link k).rxSeq])] ∧
        (u.die.link k).rxSeq = (s.die.link k).rxSeq ∧
        u.die.get (Reg.LNK_RETRY_COUNT k) = satAdd 32 (s.die.get (Reg.LNK_RETRY_COUNT k)) 1 ∧
        u.die.get (Reg.LNK_FEC_CORR_COUNT k) = satAdd 32 (s.die.get (Reg.LNK_FEC_CORR_COUNT k)) f.corrected ∧
        u.die.get (Reg.LNK_FEC_UNCORR_COUNT k) = satAdd 32 (s.die.get (Reg.LNK_FEC_UNCORR_COUNT k)) f.uncorrected ∧
        (f.uncorrected = 0 → u.die.get (Reg.LNK_CRC_ERR_COUNT k) = satAdd 32 (s.die.get (Reg.LNK_CRC_ERR_COUNT k)) 1) ∧
        SameMem s.die u.die ∧
        OnlyRegs [Reg.LNK_FEC_CORR k, Reg.LNK_FEC_UNCORR k, Reg.LNK_CRC_ERR k, Reg.LNK_RETRY k] s.die u.die))) ∧
  (∀ q, (s.die.link k).retry.any (fun f => f.seq == q) = true → ∃ u : State, exec (.nakReceive k q) s = .next u ∧
    u.die.link k = { s.die.link k with
      resend := some q, retry := (s.die.link k).retry.dropWhile (fun f => decide (f.seq ≠ q)) } ∧
    OnlyRegs [Reg.LNK_RX_FLITS_LO k, Reg.LNK_RX_FLITS_HI k] s.die u.die ∧ SameMem s.die u.die) ∧
  ((s.die.link k).waiting = true →
    ((s.die.link k).naks < 4 → ∃ u : State, exec (.nakRepeat k) s = .next u ∧ u.die.link k = { s.die.link k with
        naks := (s.die.link k).naks + 1, control := (s.die.link k).control ++ [(1, [(s.die.link k).rxSeq])] } ∧
      u.die.regs = s.die.regs ∧ SameMem s.die u.die) ∧
    (4 ≤ (s.die.link k).naks → ∃ u : State, exec (.nakRepeat k) s = .next u ∧ u.die.lnkState k = 1 ∧
      u.die.get (Reg.LNK_STATUS_CAUSE k) = 4 ∧ u.die.get (Reg.LNK_STATUS_RETRY_LIMIT k) = 1 ∧ u.die.link k = {} ∧
      u.die.out.head? = some (.flit k (s.die.controlFlit k 3 [4])) ∧ bit (u.die.get Reg.STL_ALERT_BITS) alLink = true ∧
      SameMem s.die u.die)) ∧
  (∀ cs : List Nat, cs.length = 4 → ∃ u : State, exec (.creditReceive k cs) s = .next u ∧
    u.die.link k = { s.die.link k with credit := cs } ∧
    OnlyRegs [Reg.LNK_RX_FLITS_LO k, Reg.LNK_RX_FLITS_HI k] s.die u.die ∧ SameMem s.die u.die) ∧
  (∀ l : Link, s.die.link k = l →
    (∀ op ws rest, l.control = (op, ws) :: rest → ∃ u : State, exec (.flitTransmit k) s = .next u ∧
      u.die.out = .flit k (s.die.controlFlit k op ws) :: s.die.out ∧ u.die.link k = { l with control := rest } ∧
      OnlyRegs [Reg.LNK_TX_FLITS_LO k, Reg.LNK_TX_FLITS_HI k] s.die u.die) ∧
    (l.control = [] →
      (∀ m rest, l.txMarks = m :: rest → l.retry.length < 255 → ∃ u : State, exec (.flitTransmit k) s = .next u ∧
        u.die.out = .flit k (s.die.flitBytes k l.txSeq 0x60 m) :: s.die.out ∧ u.die.link k = { l with
          txMarks := rest, retry := l.retry ++ [{ seq := l.txSeq, kind := 0x60, bytes := m }],
          txSeq := (l.txSeq + 1) % 65536 }) ∧
      (l.resend = none → 255 ≤ l.retry.length → ∃ u : State, exec (.flitTransmit k) s = .next u ∧
        u.die.out = .flit k (s.die.idleFlit k) :: s.die.out ∧ u.die.regs = s.die.regs ∧ u.die.links = s.die.links) ∧
      (l.txMarks = [] →
        (∀ q f rest, l.resend = some q → l.retry = f :: rest → f.seq = q → ∃ u : State, exec (.flitTransmit k) s = .next u ∧
          u.die.out = .flit k (s.die.flitBytes k q f.kind f.bytes) :: s.die.out ∧
          u.die.link k = { l with resend := rest.head?.map (·.seq) } ∧
          u.die.get64 (Reg.LNK_TX_FLITS_LO k) = (s.die.get64 (Reg.LNK_TX_FLITS_LO k) + 1) % 2 ^ 64 ∧
          OnlyRegs [Reg.LNK_TX_FLITS_LO k, Reg.LNK_TX_FLITS_HI k] s.die u.die) ∧
        (l.resend = none → l.retry.length < 255 → l.txBursts = [] →
          (∀ vc tag bs, pickPacket l = some (vc, tag, bs) → ∃ u : State, exec (.flitTransmit k) s = .next u ∧
            u.die.out = .flit k (s.die.flitBytes k l.txSeq (0x20 + 2 * tag) bs) :: s.die.out ∧
            (u.die.link k).txSeq = (l.txSeq + 1) % 65536 ∧
            (u.die.link k).retry = l.retry ++ [{ seq := l.txSeq, kind := 0x20 + 2 * tag, bytes := bs }] ∧
            (u.die.link k).txPackets = dropFirst (fun p => p.1 / 4 == vc) l.txPackets ∧
            (u.die.link k).sent = l.sent.set vc (l.sent.getD vc 0 + 1)) ∧
          (pickPacket l = none → ∃ u : State, exec (.flitTransmit k) s = .next u ∧
            u.die.out = .flit k (s.die.idleFlit k) :: s.die.out ∧ u.die.regs = s.die.regs ∧ u.die.links = s.die.links))))) ∧
  (s.pending = [] → s.die.computeHeld = true → ∃ u : State, step s = .next u ∧ u.die.get (Reg.LNK_CREDIT_WAIT_COUNT k) =
    (if waitsCredit (s.die.link k) then satAdd 32 (s.die.get (Reg.LNK_CREDIT_WAIT_COUNT k)) 1
      else s.die.get (Reg.LNK_CREDIT_WAIT_COUNT k)))) ∧
  (∀ (f : FlitIn), s.die.carriesId k = true → f.bytes.length = 256 →
    exec (.flitReceive k f) s = .next { s with die := s.die.flitReceive k f }) ∧
  (∀ q, s.die.linkUp k = true → ∃ u : State, exec (.nakReceive k q) s = .next u ∧ u.die.links = (s.die.nakIn k q).links ∧
    u.die.lnkState k = s.die.lnkState k) ∧
  (s.die.linkUp k = true → (s.die.link k).waiting = true → exec (.nakRepeat k) s = .next { s with
    die := if 4 ≤ (s.die.link k).naks then s.die.retryLimit k else
      (s.die.modLink k (fun l => { l with naks := l.naks + 1 })).sendControl k 1 [(s.die.link k).rxSeq] }) ∧
  (∀ cs : List Nat, s.die.linkUp k = true → cs.length = 4 → ∃ u : State, exec (.creditReceive k cs) s = .next u ∧
    u.die.link k = { s.die.link k with credit := cs } ∧ SameMem s.die u.die) ∧
  (s.die.carriesId k = true ∨ s.die.lnkState k = 6 → exec (.flitTransmit k) s = .next { s with die := s.die.flitTransmit k })

/-! ### Registers by address (R5 to R15, R27, R42, R75 to R79, R437, R508, R551) -/

/-- R9, R10, R14, R27, R29, R42, R78, R386, R437, R551: a read returns the register's word, with the high half of a 64-bit
quantity held, or the bytes of DRAM; a misaligned or unmapped access, or a write while the module is locked, is refused
with its status; a write leaves what the fields' types say, and PWR_SEQ_STATUS acts on the carrier. Until the registers
are reachable, J3 reaches PWR_SEQ_STATUS alone: every other access through it answers zero with the not-ready status and
leaves registers and memory. Wherever its conditions hold, each command completes with the effect of the operation named
for it. Which registers are low words of 64-bit quantities, and that J3 counts as a session, are the model's choices (log
entry 53). -/
def Obligations.RegisterAccessesFollowTheAddressMap : Prop := ∀ (s : State),
  (∀ m a, s.die.accepts m 0x10 0 = true → m.len = 16 → a < 2 ^ 64 →
    (a = Reg.PWR_SEQ_STATUS → ∃ u : State, exec (.regRead m a) s = .next u ∧ u.carrier = s.carrier ∧
      Responded m 0x10 stOk (regPayload a s.carrier.word) s.die u.die ∧ SameMem s.die u.die) ∧
    (a % 4 ≠ 0 → ∃ u : State, exec (.regRead m a) s = .next u ∧ Responded m 0x10 stAlign (regPayload a 0) s.die u.die ∧
      OnlyRegs [Reg.HP_TX_FRAMES] s.die u.die ∧ SameMem s.die u.die) ∧
    (a % 4 = 0 → s.die.boot.resets = [] → windowTile a = none → isDram a = false → regSpec a = none → ∃ u : State,
      exec (.regRead m a) s = .next u ∧ Responded m 0x10 stUnmapped (regPayload a 0) s.die u.die ∧
      Recorded 0x01 1 0xFF 0xFFFF s.die u.die ∧ SameMem s.die u.die) ∧
    (s.die.gate (.session m.slot) a false 0 = none → a ≠ Reg.HP_TX_FRAMES → a ≠ Reg.HP_SESSION → a ≠ Reg.PWR_SEQ_STATUS → isDram a = false →
      sramTile a = none →
      (isLow64 a = true → ∃ u : State, exec (.regRead m a) s = .next u ∧
        Responded m 0x10 stOk (regPayload a (s.die.readWord a)) s.die u.die ∧
        look (u.die.hold64 (.session m.slot)) (a + 4) = some (w32 (s.die.readWord (a + 4))) ∧
        OnlyRegs [Reg.HP_TX_FRAMES] s.die u.die ∧ SameMem s.die u.die) ∧
      (∀ v : Word, isLow64 a = false → look (s.die.hold64 (.session m.slot)) a = some v → ∃ u : State,
        exec (.regRead m a) s = .next u ∧ Responded m 0x10 stOk (regPayload a v.toNat) s.die u.die ∧
        look (u.die.hold64 (.session m.slot)) a = none) ∧
      (isLow64 a = false → look (s.die.hold64 (.session m.slot)) a = none → ∃ u : State, exec (.regRead m a) s = .next u ∧
        Responded m 0x10 stOk (regPayload a (s.die.readWord a)) s.die u.die ∧
        OnlyRegs [Reg.HP_TX_FRAMES] s.die u.die ∧ SameMem s.die u.die)) ∧
    (s.die.gate (.session m.slot) a false 0 = none → isDram a = true → s.die.rangePoison a 4 = false → ∃ u : State,
      exec (.regRead m a) s = .next u ∧ Responded m 0x10 stOk (regPayload a (s.die.leMem a 4)) s.die u.die ∧
      OnlyRegs [Reg.HP_TX_FRAMES] s.die u.die ∧ SameMem s.die u.die)) ∧
  (∀ m a w, s.die.accepts m 0x11 0 = true → m.len = 16 → a < 2 ^ 64 → w < 2 ^ 32 →
    (s.die.secState ≠ 0 → a % 4 = 0 → s.die.boot.resets = [] → within 0x90000 0xA0000 a = false → a ≠ Reg.RST_CTRL →
      a ≠ Reg.PWR_SEQ_STATUS → ∃ u : State, exec (.regWrite m a w) s = .next u ∧
      Responded m 0x11 stRole (regPayload a w) s.die u.die ∧ OnlyRegs [Reg.HP_TX_FRAMES] s.die u.die ∧
      SameMem s.die u.die ∧ u.carrier = s.carrier) ∧
    (s.die.secState = 0 → a = Reg.PWR_SEQ_STATUS → w = 2 → ∃ u : State, exec (.regWrite m a w) s = .next u ∧
      u.carrier = { s.carrier with latched := false, faultCause := 0, faultRail := 0 } ∧
      Responded m 0x11 stOk (regPayload a w) s.die u.die ∧ SameMem s.die u.die) ∧
    (s.die.gate (.session m.slot) a true w = none → isDram a = true → s.die.rangePoison a 4 = false → ∃ u : State,
      exec (.regWrite m a w) s = .next u ∧ u.die.bytesAt a 4 = natLe 4 w ∧ SameMemBut a 4 s.die u.die ∧
      Responded m 0x11 stOk (regPayload a w) s.die u.die ∧ OnlyRegs [Reg.HP_TX_FRAMES] s.die u.die ∧
      u.carrier = s.carrier ∧ u.pending = s.pending) ∧
    (s.die.gate (.session m.slot) a true w = none → a / 0x10000 = 8 → a ≠ Reg.THM_CTRL → ∃ u : State,
      exec (.regWrite m a w) s = .next u ∧
      u.die.getW a = w32 (writeFields ((regSpec a).getD []) (s.die.getW a).toNat w) ∧
      Responded m 0x11 stOk (regPayload a w) s.die u.die ∧ SameMem s.die u.die ∧
      OnlyRegs (a :: Reg.HP_TX_FRAMES :: logRegs) s.die u.die)) ∧
  (∀ ag a w, w < 2 ^ 32 →
    (a ≠ Reg.PWR_SEQ_STATUS → s.die.live = true → s.die.mayWrite ag = true →
      (∀ p, s.die.gate ag a true w = some p →
        exec (.registerWrite ag a w) s = .next { s with die := p.1.answer ag p.2 }) ∧
      (s.die.gate ag a true w = none → isDram a = true → s.die.rangePoison a 4 = false → ∃ u : State,
        exec (.registerWrite ag a w) s = .next u ∧ u.die.bytesAt a 4 = natLe 4 w ∧ SameMemBut a 4 s.die u.die ∧
        u.die.out = .status ag stOk :: s.die.out ∧ u.die.regs = s.die.regs ∧ u.carrier = s.carrier) ∧
      (s.die.gate ag a true w = none → a / 0x10000 = 8 → a ≠ Reg.THM_CTRL → ∃ u : State,
        exec (.registerWrite ag a w) s = .next u ∧ u.die.out.head? = some (.status ag stOk) ∧
        u.die.getW a = w32 (writeFields ((regSpec a).getD []) (s.die.getW a).toNat w) ∧ SameMem s.die u.die ∧
        OnlyRegs (a :: logRegs) s.die u.die)) ∧
    (a = Reg.PWR_SEQ_STATUS → s.carrier.standby = true → s.seqReach ag = true → w = 2 →
      exec (.registerWrite ag a w) s = .next { s with
        carrier := { s.carrier with latched := false, faultCause := 0, faultRail := 0 }, die := s.die.answer ag stOk })) ∧
  (∀ legacy a w, s.transferOk legacy = true → w < 2 ^ 32 →
    (a = Reg.PWR_SEQ_STATUS → ∃ u : State, exec (.mgmtTransfer legacy false a w) s = .next u ∧ u.carrier = s.carrier ∧
      u.die.out = .j3 s.carrier.word stOk :: s.die.out ∧ u.die.mgmt = { s.die.mgmt with mode := busMode legacy } ∧
      u.die.regs = s.die.regs ∧ SameMem s.die u.die) ∧
    (a = Reg.PWR_SEQ_STATUS → w = 2 → ∃ u : State, exec (.mgmtTransfer legacy true a w) s = .next u ∧
      u.carrier = { s.carrier with latched := false, faultCause := 0, faultRail := 0 } ∧ u.die.mgmt.mode = busMode legacy ∧
      u.die.out = .status .j3 stOk :: s.die.out) ∧
    (a ≠ Reg.PWR_SEQ_STATUS → s.die.live = false ∨ s.die.mgmt.ready = false →
      (∃ u : State, exec (.mgmtTransfer legacy false a w) s = .next u ∧ u.die.out = .j3 0 stNotReady :: s.die.out ∧
        u.die.regs = s.die.regs ∧ SameMem s.die u.die) ∧
      (∃ u : State, exec (.mgmtTransfer legacy true a w) s = .next u ∧ u.die.out = .status .j3 stNotReady :: s.die.out ∧
        u.die.regs = s.die.regs ∧ SameMem s.die u.die)) ∧
    (a ≠ Reg.PWR_SEQ_STATUS → s.die.live = true → s.die.mgmt.ready = true → sramTile a = none →
      (s.die.gate .j3 a false 0 = none → isLow64 a = false → look s.die.mgmt.hold64 a = none → ∃ u : State,
        exec (.mgmtTransfer legacy false a w) s = .next u ∧ u.die.out = .j3 (s.die.readWord a) stOk :: s.die.out ∧
        u.die.regs = s.die.regs ∧ u.carrier = s.carrier) ∧
      (isDram a = true → a % 4 = 0 → s.die.boot.resets = [] → ∃ u : State, exec (.mgmtTransfer legacy false a w) s = .next u ∧
        u.die.out.head? = some (.j3 0 stUnmapped) ∧ Recorded 0x01 1 0xFF 0xFFFF s.die u.die ∧ SameMem s.die u.die))) ∧
  (∀ (m : MsgHead) (addr : Nat), s.die.live = true → s.die.canRequest m = true → addr < 2 ^ 64 →
    exec (.regRead m addr) s = .next { s with die := s.die.regReadReq m addr s.carrier.word }) ∧
  (∀ m a w, s.die.live = true → s.die.canRequest m = true → w < 2 ^ 32 →
    exec (.regWrite m Reg.PWR_SEQ_STATUS w) s = .next (s.regWriteSeq m w) ∧
    (a < 2 ^ 64 → a ≠ Reg.PWR_SEQ_STATUS → exec (.regWrite m a w) s = .next { s with die := s.die.regWriteReq m a w })) ∧
  (∀ legacy write a w, s.transferOk legacy = true → w < 2 ^ 32 → exec (.mgmtTransfer legacy write a w) s =
    .next ({ s with die := { s.die with mgmt := { s.die.mgmt with mode := busMode legacy } } }.j3Access write a w)) ∧
  (∀ ag w, w < 2 ^ 32 → (s.carrier.standby = true → s.seqReach ag = true →
      exec (.registerWrite ag Reg.PWR_SEQ_STATUS w) s = .next (s.seqWrite ag w)) ∧
    (∀ a, a ≠ Reg.PWR_SEQ_STATUS → s.die.live = true → s.die.mayWrite ag = true → exec (.registerWrite ag a w) s =
      .next { s with die := (s.die.write32 ag a w).1.answer ag (s.die.write32 ag a w).2 }))

/-! ### The strandline and perturbation (R563 to R579) -/

/-- R563 to R576, R579: a record enters the queue with its number or is counted as lost; the oldest goes to the copy and to
the ring; a frozen copy is released; records are read back; an injector is armed by a DEBUG session within its rules, and
KILL disarms every one. Wherever its conditions hold, each command completes with the effect of the operation named for it. -/
def Obligations.StrandlineAndPerturbationKeepTheirRules : Prop := ∀ (s : State),
  (∀ src ev dom sub dt acc, 1 ≤ ev → ev ≤ eventsOf src → ∃ u : State,
    exec (.stlRecord src ev dom sub dt acc) s = .next u ∧ Recorded src ev dom sub s.die u.die ∧ LogsOnly s.die u.die ∧
    u.pending = s.pending ∧ u.carrier = s.carrier ∧ OnlyRegs logRegs s.die u.die ∧
    (512 ≤ s.die.strand.queue.length → u.die.strand.dropped = s.die.strand.dropped + 1 ∧
      u.die.get Reg.STL_LOST_COUNT = satAdd 32 (s.die.get Reg.STL_LOST_COUNT) 1 ∧ u.die.get Reg.STL_STATUS_QFULL = 1 ∧
      bit (u.die.get Reg.STL_ALERT_BITS) alLost = true)) ∧
  (∀ r rest, s.die.strand.queue = r :: rest → s.die.strand.copied = 0 →
    (s.die.ringUsable = false → ∃ u : State, exec .stlRingWrite s = .next u ∧ u.die.strand.queue = s.die.strand.queue ∧
      u.die.strand.copied = 1 ∧ u.die.regs = s.die.regs ∧ SameMem s.die u.die) ∧
    (s.die.ringUsable = true → s.die.strand.dropped = 0 → ∃ u : State, exec .stlRingWrite s = .next u ∧
      u.die.strand.queue = rest ∧ u.die.strand.copied = 0 ∧ u.die.regs = s.die.regs ∧
      (bit r.flags 0 = false → s.die.on Reg.STL_STATUS_FROZEN = false → look u.die.strand.copy (r.seq % 256) = some r) ∧
      (s.die.on Reg.STL_STATUS_FROZEN = true → u.die.strand.copy = s.die.strand.copy) ∧
      u.die.bytesAt (stlRing + 64 * (r.seq % 65536)) (recBytes r).length = recBytes r ∧
      SameMemBut (stlRing + 64 * (r.seq % 65536)) (recBytes r).length s.die u.die) ∧
    (s.die.ringUsable = true → s.die.strand.dropped ≠ 0 → s.die.strand.queue.length ≤ 512 → ∃ u : State,
      exec .stlRingWrite s = .next u ∧ u.die.strand.dropped = 0 ∧
      ∃ x : Rec, u.die.strand.queue = rest ++ [x] ∧ x.source = 0x30 ∧ x.event = 1)) ∧
  (∀ ag, s.die.mayControl ag = true → ∃ u : State, exec (.stlRelease ag) s = .next u ∧
    u.die.get Reg.STL_STATUS_FROZEN = 0 ∧ u.die.strand = s.die.strand ∧ u.die.out = .status ag stOk :: s.die.out ∧
    OnlyRegs [Reg.STL_STATUS] s.die u.die ∧ SameMem s.die u.die) ∧
  (∀ box first count, s.die.boxReady box = true →
    (count = 0 ∨ 65536 < count → ∃ u : State, exec (.stlRead box first count) s = .next u ∧ Replied box rcRange [] u.die ∧
      u.die.regs = s.die.regs ∧ SameMem s.die u.die) ∧
    (1 ≤ count → count ≤ 65536 → ∃ u : State, exec (.stlRead box first count) s = .next u ∧
      (∃ bs, Replied box rcOk bs u.die ∧ bs.length = 8 ∧ leAt bs 4 4 = count) ∧ u.die.strand = s.die.strand ∧
      u.die.regs = s.die.regs ∧ SameMem s.die u.die) ∧
    (first < 2 ^ 32 →
      (∀ x, s.die.ringRecord first = some x → ∃ u : State, exec (.stlRead box first 1) s = .next u ∧
        Replied box rcOk (natLe 4 first ++ natLe 4 1) u.die ∧ (u.die.box box).outBytes = x) ∧
      (s.die.ringRecord first = none → ∃ u : State, exec (.stlRead box first 1) s = .next u ∧
        Replied box rcOk (natLe 4 (s.die.getW Reg.STL_RING_FIRST).toNat ++ natLe 4 1) u.die ∧
        (u.die.box box).outBytes = zeros 64))) ∧
  (s.die.live = true → ∀ ag, s.die.mayControl ag = true →
    (s.die.hasDebug ag = false → (∀ i, i < 6 → ∃ u : State, exec (.ptbArm ag i) s = .next u ∧
        u.die.out.head? = some (.status ag stRole) ∧ Recorded 0x0A 2 95 0xFFFF s.die u.die ∧
        OnlyRegs logRegs s.die u.die ∧ u.die.injectors = s.die.injectors) ∧
      ∃ u : State, exec (.ptbKill ag) s = .next u ∧ u.die.out.head? = some (.status ag stRole) ∧
        Recorded 0x0A 2 95 0xFFFF s.die u.die ∧ OnlyRegs logRegs s.die u.die ∧ u.die.injectors = s.die.injectors) ∧
    (s.die.hasDebug ag = true →
      (∀ i, i < 6 →
        (s.die.on (Reg.PTB_CFG_EN i) = true → exec (.ptbArm ag i) s = .next { s with die := s.die.answer ag stOk }) ∧
        (s.die.on (Reg.PTB_CFG_EN i) = false → s.die.get (Reg.PTB_COUNT_COUNT i) = 0 ∨
            s.die.targetBad i (s.die.getW (Reg.PTB_TARGET i)).toNat = true → ∃ u : State, exec (.ptbArm ag i) s = .next u ∧
          u.die.on (Reg.PTB_CFG_EN i) = false ∧ u.die.out.head? = some (.status ag stOk) ∧
          Recorded 0x01 3 0xFF 0xFFFF s.die u.die ∧ OnlyRegs logRegs s.die u.die) ∧
        (s.die.on (Reg.PTB_CFG_EN i) = false → s.die.get (Reg.PTB_COUNT_COUNT i) ≠ 0 →
          s.die.targetBad i (s.die.getW (Reg.PTB_TARGET i)).toNat = false → ∃ u : State, exec (.ptbArm ag i) s = .next u ∧
          u.die.on (Reg.PTB_CFG_EN i) = true ∧ u.die.inj i = {} ∧ u.die.out = .status ag stOk :: s.die.out ∧
          OnlyRegs [Reg.PTB_CFG i] s.die u.die ∧ SameMem s.die u.die)) ∧
      ∃ u : State, exec (.ptbKill ag) s = .next u ∧ u.die.out.head? = some (.status ag stOk) ∧ SameMem s.die u.die ∧
        ∀ i, i < 6 → u.die.on (Reg.PTB_CFG_EN i) = false ∧ u.die.get (Reg.PTB_COUNT_COUNT i) = 0)) ∧
  (s.die.strand.queue.isEmpty = false → exec .stlRingWrite s = .next { s with die := s.die.copyNext.ringNext })
end

