-- ==== Sys2Proof/Laws/Analog.lean ====
section
/-! SUPPORT. What the drift and the windows of cells come to (R87, R125): a cell programmed at its target stays in its window for the
first 100 s, and a cell a level away from its target does not lie in its window. -/
namespace Sys2Proof.Machine

theorem boundI_le (m x : Int) (h : 0 ≤ m) : -m ≤ boundI m x ∧ boundI m x ≤ m := by
  unfold boundI clampI; omega

theorem meanLoss_young (temp : Int) (t : Nat) (h : t < 100) : meanLoss temp t = 0 := by
  simp [meanLoss, decades, h]

/-- Within 100 s of its programming, and not left outside its window, a side of a cell conducts its level to within 0.15 steps. -/
theorem Array1.conductance_young (x : Array1) (ix cell side level : Nat) (h : x.loose.contains cell = false) :
    (x.conductance ix 0 cell side level - 1000 * level).natAbs ≤ 150 := by
  have hb := boundI_le 150 (Config.cellError ix (amGet 0 x.epochs (cell / 266 / 16)) (2 * cell + side)) (by decide)
  have he : x.conductance ix 0 cell side level =
      1000 * level + boundI 150 (Config.cellError ix (amGet 0 x.epochs (cell / 266 / 16)) (2 * cell + side)) := by
    simp only [Array1.conductance, h, Int.zero_mul, Int.sub_zero]
    exact Int.mul_fdiv_cancel _ (by decide)
  omega

/-- A young cell lies inside the window of the level it stands at, and of no other. -/
theorem Die.inWindow_young (d : Die) (ix cell : Nat) (x : Array1) (p : Nat × Nat) (hl : x.loose.contains cell = false)
    (ha : d.secs - x.verifiedSec (cell / 266) < 100) : d.inWindow ix x cell p = decide (x.levels cell = p) := by
  have h0 := x.conductance_young ix cell 0 (x.levels cell).1 hl
  have h1 := x.conductance_young ix cell 1 (x.levels cell).2 hl
  simp only [Die.inWindow, Die.cellNow, meanLoss_young _ _ ha, ← Bool.decide_and, decide_eq_decide, Prod.ext_iff]
  omega

/-- An array programmed within 100 s fails verify in exactly the cells that do not stand at their targets. -/
theorem Die.failingCells_young (d : Die) (ix : Nat) (x : Array1) (want : List (Nat × (Nat × Nat))) (hl : x.loose = [])
    (ha : ∀ r, d.secs - x.verifiedSec r < 100) :
    d.failingCells ix x want =
      ((List.range cellCount).filter (fun c => decide (x.levels c ≠ amGet (cellDefault c) want c))).length := by
  unfold Die.failingCells
  generalize List.range cellCount = l
  refine congrArg List.length (List.filter_congr fun c _ => ?_)
  rw [d.inWindow_young ix c x _ (by simp [hl]) (ha _)]
  simp

end Sys2Proof.Machine
end

