-- ==== Sys2Proof/Laws/Assoc.lean ====
section
/-! SUPPORT. What the sparse maps do: reading after writing, and that writing keeps the canonical form. -/
namespace Sys2Proof.Machine

variable {α : Type}

@[simp] theorem amGet_nil (d : α) (k : Nat) : amGet d [] k = d := rfl

theorem amGet_amErase_same (d : α) (m : List (Nat × α)) (k : Nat) : amGet d (amErase m k) k = d := by
  induction m with
  | nil => rfl
  | cons p r ih => by_cases h : p.1 = k <;> simp [amErase, amGet, h, ih]

theorem amGet_amErase_ne (d : α) (m : List (Nat × α)) {k j : Nat} (h : j ≠ k) :
    amGet d (amErase m k) j = amGet d m j := by
  induction m with
  | nil => rfl
  | cons p r ih =>
    by_cases hk : p.1 = k
    · have : p.1 ≠ j := fun e => h (e.symm.trans hk)
      simp [amErase, amGet, hk, ih, Ne.symm h]
    · simp [amErase, amGet, hk, ih]

theorem amGet_amInsert_ne (d : α) (m : List (Nat × α)) {k j : Nat} (v : α) (h : j ≠ k) :
    amGet d (amInsert m k v) j = amGet d m j := by
  induction m with
  | nil => simp [amInsert, amGet, Ne.symm h]
  | cons p r ih => by_cases hk : k < p.1 <;> simp [amInsert, amGet, hk, ih, Ne.symm h]

theorem amGet_amInsert_erase (d : α) (m : List (Nat × α)) (k : Nat) (v : α) :
    amGet d (amInsert (amErase m k) k v) k = v := by
  induction m with
  | nil => simp [amErase, amInsert, amGet]
  | cons p r ih =>
    by_cases hk : p.1 = k
    · simpa [amErase, hk] using ih
    · by_cases hl : k < p.1 <;> simp [amErase, amInsert, amGet, hk, hl, ih]

/-- Reading a key that was just written gives the value written. -/
@[simp] theorem amGet_amSet_same [DecidableEq α] (d : α) (m : List (Nat × α)) (k : Nat) (v : α) :
    amGet d (amSet d m k v) k = v := by
  by_cases h : v = d
  · simp [amSet, h, amGet_amErase_same]
  · simp [amSet, h, amGet_amInsert_erase]

/-- Reading another key gives what it gave before. -/
theorem amGet_amSet_ne [DecidableEq α] (c d : α) (m : List (Nat × α)) {k j : Nat} (v : α) (h : j ≠ k) :
    amGet c (amSet d m k v) j = amGet c m j := by
  by_cases hv : v = d
  · simp [amSet, hv, amGet_amErase_ne _ _ h]
  · simp [amSet, hv, amGet_amInsert_ne _ _ _ h, amGet_amErase_ne _ _ h]

theorem amAbove_amErase {j : Nat} (m : List (Nat × α)) (k : Nat) (h : amAbove j m = true) :
    amAbove j (amErase m k) = true := by
  induction m with
  | nil => rfl
  | cons p r ih =>
    simp only [amAbove, List.all_cons, Bool.and_eq_true] at h ih
    by_cases hk : p.1 = k
    · simpa [amErase, hk, amAbove] using ih h.2
    · have := ih h.2
      simp only [amErase, hk, if_false, amAbove, List.all_cons, Bool.and_eq_true]
      exact ⟨h.1, this⟩

theorem amAbove_amInsert {j : Nat} (m : List (Nat × α)) (k : Nat) (v : α) (hj : j < k) (h : amAbove j m = true) :
    amAbove j (amInsert m k v) = true := by
  induction m with
  | nil => simp [amInsert, amAbove, hj]
  | cons p r ih =>
    simp only [amAbove, List.all_cons, Bool.and_eq_true] at h ih
    by_cases hk : k < p.1
    · simp only [amInsert, hk, if_true, amAbove, List.all_cons, Bool.and_eq_true]
      exact ⟨by simpa using hj, h.1, h.2⟩
    · simp only [amInsert, hk, if_false, amAbove, List.all_cons, Bool.and_eq_true]
      exact ⟨h.1, ih h.2⟩

theorem amAbove_trans {i j : Nat} (m : List (Nat × α)) (hij : i < j) (h : amAbove j m = true) : amAbove i m = true := by
  simp only [amAbove, List.all_eq_true, decide_eq_true_eq] at *
  exact fun p hp => lt_trans hij (h p hp)

theorem amErase_eq_self (m : List (Nat × α)) (k : Nat) (h : amAbove k m = true) : amErase m k = m := by
  induction m with
  | nil => rfl
  | cons p r ih =>
    simp only [amAbove, List.all_cons, Bool.and_eq_true, decide_eq_true_eq] at h ih
    simp [amErase, Nat.ne_of_gt h.1, ih h.2]

theorem amWf_amErase [DecidableEq α] (d : Nat → α) (m : List (Nat × α)) (k : Nat) (h : amWf d m = true) :
    amWf d (amErase m k) = true := by
  induction m with
  | nil => rfl
  | cons p r ih =>
    simp only [amWf, Bool.and_eq_true] at h
    by_cases hk : p.1 = k
    · simpa [amErase, hk] using ih h.2
    · simp only [amErase, hk, if_false, amWf, Bool.and_eq_true]
      exact ⟨⟨amAbove_amErase r k h.1.1, h.1.2⟩, ih h.2⟩

theorem amWf_amInsert [DecidableEq α] (d : Nat → α) (m : List (Nat × α)) (k : Nat) (v : α) (hv : v ≠ d k)
    (hk : ∀ p ∈ m, p.1 ≠ k) (h : amWf d m = true) : amWf d (amInsert m k v) = true := by
  induction m with
  | nil => simp [amInsert, amWf, amAbove, hv]
  | cons p r ih =>
    simp only [amWf, Bool.and_eq_true, decide_eq_true_eq] at h
    by_cases hl : k < p.1
    · simp only [amInsert, hl, if_true, amWf, Bool.and_eq_true, decide_eq_true_eq]
      refine ⟨⟨?_, hv⟩, h⟩
      simp only [amAbove, List.all_cons, Bool.and_eq_true, decide_eq_true_eq]
      exact ⟨hl, amAbove_trans r hl h.1.1⟩
    · have hne := hk p (by simp)
      have hpk : p.1 < k := lt_of_le_of_ne (Nat.le_of_not_lt hl) hne
      simp only [amInsert, hl, if_false, amWf, Bool.and_eq_true, decide_eq_true_eq]
      exact ⟨⟨amAbove_amInsert r k v hpk h.1.1, h.1.2⟩, ih (fun q hq => hk q (by simp [hq])) h.2⟩

theorem mem_amErase (m : List (Nat × α)) (k : Nat) : ∀ p ∈ amErase m k, p.1 ≠ k := by
  induction m with
  | nil => simp [amErase]
  | cons q r ih =>
    by_cases hk : q.1 = k
    · simpa [amErase, hk] using ih
    · intro p hp
      simp only [amErase, hk, if_false, List.mem_cons] at hp
      rcases hp with rfl | hp
      · exact hk
      · exact ih p hp

/-- A write keeps the canonical form. -/
theorem amWf_amSet [DecidableEq α] (d : Nat → α) (m : List (Nat × α)) (k : Nat) (v : α) (h : amWf d m = true) :
    amWf d (amSet (d k) m k v) = true := by
  by_cases hv : v = d k
  · simpa [amSet, hv] using amWf_amErase d m k h
  · simpa [amSet, hv] using amWf_amInsert d _ k v hv (mem_amErase m k) (amWf_amErase d m k h)

theorem amWf_filter [DecidableEq α] (d : Nat → α) (m : List (Nat × α)) (q : Nat × α → Bool) (h : amWf d m = true) :
    amWf d (m.filter q) = true := by
  induction m with
  | nil => rfl
  | cons p r ih =>
    simp only [amWf, Bool.and_eq_true] at h
    by_cases hq : q p = true
    · simp only [List.filter_cons, hq, if_true, amWf, Bool.and_eq_true]
      refine ⟨⟨?_, h.1.2⟩, ih h.2⟩
      have ha := h.1.1
      simp only [amAbove, List.all_eq_true] at ha ⊢
      exact fun x hx => ha x (List.mem_filter.1 hx).1
    · simpa [List.filter_cons, hq] using ih h.2

end Sys2Proof.Machine
end

