-- ==== Sys2Proof/Laws/Bits.lean ====
section
/-! SUPPORT. What reading a bit field gives after a bit field was written. -/
namespace Sys2Proof.Machine

theorem setBits_low (n lo w v : Nat) : setBits n lo w v % 2 ^ lo = n % 2 ^ lo := by
  unfold setBits
  have h : 2 ^ lo ∣ 2 ^ (lo + w) := pow_dvd_pow 2 (Nat.le_add_right lo w)
  obtain ⟨c, hc⟩ := h
  rw [hc, show n % 2 ^ lo + v % 2 ^ w * 2 ^ lo + n / (2 ^ lo * c) * (2 ^ lo * c) =
    n % 2 ^ lo + 2 ^ lo * (v % 2 ^ w + n / (2 ^ lo * c) * c) by ring]
  simp

theorem setBits_div (n lo w v : Nat) : setBits n lo w v / 2 ^ lo = v % 2 ^ w + n / 2 ^ (lo + w) * 2 ^ w := by
  unfold setBits
  have hp : 0 < 2 ^ lo := Nat.two_pow_pos lo
  rw [show n % 2 ^ lo + v % 2 ^ w * 2 ^ lo + n / 2 ^ (lo + w) * 2 ^ (lo + w) =
    n % 2 ^ lo + 2 ^ lo * (v % 2 ^ w + n / 2 ^ (lo + w) * 2 ^ w) by rw [pow_add]; ring]
  rw [Nat.add_mul_div_left _ _ hp, Nat.div_eq_of_lt (Nat.mod_lt _ hp), Nat.zero_add]

theorem setBits_high (n lo w v : Nat) : setBits n lo w v / 2 ^ (lo + w) = n / 2 ^ (lo + w) := by
  rw [pow_add, ← Nat.div_div_eq_div_mul, setBits_div, Nat.add_mul_div_right _ _ (Nat.two_pow_pos w),
    Nat.div_eq_of_lt (Nat.mod_lt _ (Nat.two_pow_pos w)), Nat.zero_add, ← pow_add]

/-- A field reads what was written to it, cut to its width. -/
@[simp] theorem bits_setBits_same (n lo w v : Nat) : bits (setBits n lo w v) lo w = v % 2 ^ w := by
  unfold bits
  rw [setBits_div, Nat.add_mul_mod_self_right, Nat.mod_mod]

/-- A field below the written one keeps its value. -/
theorem bits_setBits_below (n lo w v lo' w' : Nat) (h : lo' + w' ≤ lo) :
    bits (setBits n lo w v) lo' w' = bits n lo' w' := by
  unfold bits
  have key : ∀ x : Nat, x / 2 ^ lo' % 2 ^ w' = x % 2 ^ lo / 2 ^ lo' % 2 ^ w' := by
    intro x
    obtain ⟨e, he⟩ := Nat.exists_eq_add_of_le h
    rw [he, show 2 ^ (lo' + w' + e) = 2 ^ lo' * (2 ^ w' * 2 ^ e) by rw [pow_add, pow_add, mul_assoc],
      Nat.mod_mul_right_div_self, Nat.mod_mul_right_mod]
  rw [key, setBits_low, ← key]

/-- A field above the written one keeps its value. -/
theorem bits_setBits_above (n lo w v lo' w' : Nat) (h : lo + w ≤ lo') :
    bits (setBits n lo w v) lo' w' = bits n lo' w' := by
  unfold bits
  obtain ⟨e, he⟩ := Nat.exists_eq_add_of_le h
  rw [he, pow_add, ← Nat.div_div_eq_div_mul, setBits_high, Nat.div_div_eq_div_mul]

/-- A field written inside a word leaves a number of that word. -/
theorem setBits_lt (n lo w v m : Nat) (hn : n < 2 ^ m) (h : lo + w ≤ m) : setBits n lo w v < 2 ^ m := by
  obtain ⟨e, rfl⟩ := Nat.exists_eq_add_of_le h
  have h2 : setBits n lo w v / 2 ^ (lo + w) < 2 ^ e := by
    rw [setBits_high, Nat.div_lt_iff_lt_mul (Nat.two_pow_pos _), ← pow_add, Nat.add_comm e]
    exact hn
  rwa [Nat.div_lt_iff_lt_mul (Nat.two_pow_pos _), ← pow_add, Nat.add_comm e] at h2

theorem bits_lt (n lo w : Nat) : bits n lo w < 2 ^ w := Nat.mod_lt _ (Nat.two_pow_pos w)

end Sys2Proof.Machine
end

