-- ==== Sys2Proof/Laws/Mem.lean ====
section
/-! SUPPORT. What the memory operations do: reading after writing, and that every one of them keeps the canonical form. -/
namespace Sys2Proof.Machine

variable (d : Die)

@[simp] theorem Die.memDefault_setByte (a b : Nat) (x : Byte) : (d.setByte a x).memDefault b = d.memDefault b := rfl

@[simp] theorem Die.byteAt_setByte_same (a : Nat) (b : Byte) : (d.setByte a b).byteAt a = b := by
  show amGet (d.memDefault a) (amSet (d.memDefault a) d.mem a b) a = b
  simp

theorem Die.byteAt_setByte_ne {a c : Nat} (b : Byte) (h : c ≠ a) : (d.setByte a b).byteAt c = d.byteAt c := by
  show amGet (d.memDefault c) (amSet (d.memDefault a) d.mem a b) c = amGet (d.memDefault c) d.mem c
  exact amGet_amSet_ne _ _ _ _ h

/-- Bytes below or above the written ones keep their values. -/
theorem Die.byteAt_setBytes_out (bs : List Byte) (a c : Nat) (h : c < a ∨ a + bs.length ≤ c) :
    (d.setBytes a bs).byteAt c = d.byteAt c := by
  induction bs generalizing d a with
  | nil => rfl
  | cons b r ih =>
    simp only [List.length_cons] at h
    show ((d.setByte a b).setBytes (a + 1) r).byteAt c = _
    rw [ih _ (a + 1) (by omega), Die.byteAt_setByte_ne _ _ (by omega)]

/-- A written byte reads back. -/
theorem Die.byteAt_setBytes_in (bs : List Byte) (a i : Nat) (h : i < bs.length) :
    (d.setBytes a bs).byteAt (a + i) = bs[i] := by
  induction bs generalizing d a i with
  | nil => simp at h
  | cons b r ih =>
    show ((d.setByte a b).setBytes (a + 1) r).byteAt (a + i) = _
    cases i with
    | zero => rw [Die.byteAt_setBytes_out _ _ _ _ (by omega)]; simp
    | succ j =>
      have := ih (d.setByte a b) (a + 1) j (by simpa using h)
      rw [show a + (j + 1) = a + 1 + j by omega]
      simpa using this

@[simp] theorem memory_wf_setByte (a : Nat) (b : Byte) (h : Memory.wf d = true) : Memory.wf (d.setByte a b) = true :=
  amWf_amSet d.memDefault d.mem a b h

theorem memory_wf_setBytes (bs : List Byte) (a : Nat) (h : Memory.wf d = true) : Memory.wf (d.setBytes a bs) = true := by
  induction bs generalizing d a with
  | nil => exact h
  | cons b r ih => exact ih _ _ (memory_wf_setByte d a b h)

theorem memory_wf_setSome (bs : List (Option Byte)) (a : Nat) (h : Memory.wf d = true) :
    Memory.wf (d.setSome a bs) = true := by
  induction bs generalizing d a with
  | nil => exact h
  | cons b r ih =>
    cases b with
    | none => exact ih _ _ h
    | some x => exact ih _ _ (memory_wf_setByte d a x h)

theorem memory_wf_dropMem (gone : Nat → Bool) (h : Memory.wf d = true) : Memory.wf (d.dropMem gone) = true :=
  amWf_filter d.memDefault d.mem _ h

theorem amWf_congr {α : Type} [DecidableEq α] (c e : Nat → α) (m : List (Nat × α)) (hc : ∀ p ∈ m, c p.1 = e p.1)
    (h : amWf c m = true) : amWf e m = true := by
  induction m with
  | nil => rfl
  | cons p r ih =>
    simp only [amWf, Bool.and_eq_true, decide_eq_true_eq] at h ⊢
    exact ⟨⟨h.1.1, by rw [← hc p (by simp)]; exact h.1.2⟩, ih (fun q hq => hc q (by simp [hq])) h.2⟩

theorem memory_wf_loseStack (k : Nat) (hk : k ≤ 1) (h : Memory.wf d = true) : Memory.wf (d.loseStack k) = true := by
  have h1 := memory_wf_dropMem d (fun a => isDram a && stackOf a == k) h
  have hm : (d.loseStack k).mem = (d.dropMem (fun a => isDram a && stackOf a == k)).mem := by
    unfold Die.loseStack; split <;> rfl
  unfold Memory.wf
  rw [hm]
  refine amWf_congr _ _ _ ?_ h1
  intro p hp
  have hp2 := (List.mem_filter.1 hp).2
  unfold Die.memDefault
  by_cases hd : isDram p.1 = true
  · have hs : stackOf p.1 ≠ k := by simpa [hd] using hp2
    have hlt : stackOf p.1 < 2 := by unfold stackOf; exact Nat.mod_lt _ (by decide)
    rcases Nat.le_one_iff_eq_zero_or_eq_one.1 hk with rfl | rfl
    · simp [Die.loseStack, Die.dropMem, hd, hs]
    · have : stackOf p.1 = 0 := by omega
      simp [Die.loseStack, Die.dropMem, hd, this]
  · simp [hd]

/-- Nothing is listed at reset. -/
theorem memory_wf_reset : Memory.wf State.reset.die = true := rfl

end Sys2Proof.Machine
end

