-- ==== Sys2Proof/Laws/Regs.lean ====
section
/-! SUPPORT. What reading a register or a field gives after a write of one. -/
namespace Sys2Proof.Machine

variable (d : Die)

@[simp] theorem Die.getW_putW_same (a : Nat) (w : Word) : (d.putW a w).getW a = w := by
  simp [Die.getW, Die.putW]

theorem Die.getW_putW_ne {a b : Nat} (w : Word) (h : b ≠ a) : (d.putW a w).getW b = d.getW b := by
  simp [Die.getW, Die.putW, amGet_amSet_ne _ _ _ _ h]

/-- The field lies inside its register. -/
def Fld.fits (f : Fld) : Prop := f.lo + f.width ≤ 32

@[simp] theorem w32_toNat (n : Nat) : (w32 n).toNat = n % 2 ^ 32 := by simp [w32]

theorem w32_toNat_of_lt {n : Nat} (h : n < 2 ^ 32) : (w32 n).toNat = n := by
  rw [w32_toNat, Nat.mod_eq_of_lt h]

theorem Die.put_word (f : Fld) (v : Nat) (hf : f.lo + f.width ≤ 32) :
    ((d.put f v).getW f.addr).toNat = setBits (d.getW f.addr).toNat f.lo f.width v := by
  unfold Die.put
  rw [Die.getW_putW_same]
  exact w32_toNat_of_lt (setBits_lt _ _ _ _ 32 (d.getW f.addr).isLt hf)

/-- A field reads what was written to it, cut to its width. -/
theorem Die.get_put_same (f : Fld) (v : Nat) (hf : f.lo + f.width ≤ 32) : (d.put f v).get f = v % 2 ^ f.width := by
  unfold Die.get
  rw [Die.put_word _ _ _ hf, bits_setBits_same]

/-- A field of another register keeps its value. -/
theorem Die.get_put_addr (f g : Fld) (v : Nat) (h : g.addr ≠ f.addr) : (d.put f v).get g = d.get g := by
  simp [Die.get, Die.put, Die.getW_putW_ne _ _ h]

/-- Another field of the same register keeps its value. -/
theorem Die.get_put_field (f g : Fld) (v : Nat) (hf : f.lo + f.width ≤ 32) (ha : g.addr = f.addr)
    (h : g.lo + g.width ≤ f.lo ∨ f.lo + f.width ≤ g.lo) : (d.put f v).get g = d.get g := by
  unfold Die.get
  rw [ha, Die.put_word _ _ _ hf]
  rcases h with h | h
  · exact bits_setBits_below _ _ _ _ _ _ h
  · exact bits_setBits_above _ _ _ _ _ _ h

theorem Die.getW_put_ne (f : Fld) (v : Nat) {a : Nat} (h : a ≠ f.addr) : (d.put f v).getW a = d.getW a :=
  Die.getW_putW_ne _ _ h

/-- A field holds a number of its width. -/
theorem Die.get_lt (f : Fld) : d.get f < 2 ^ f.width := bits_lt _ _ _

theorem registers_wf_putW (a : Nat) (w : Word) (h : amWf resetWord d.regs = true) :
    amWf resetWord (d.putW a w).regs = true := amWf_amSet resetWord d.regs a w h

end Sys2Proof.Machine
end

