-- ==== Sys2Proof/Laws/State.lean ====
section
/-! SUPPORT. One lemma per field and update of the die: what the update leaves alone, and what it writes reads back. -/
namespace Sys2Proof.Machine

variable (d : Die)

/-! ### putW -/

@[simp] theorem Die.putW_mem (a : Nat) (w : Word) : (d.putW a w).mem = d.mem := by rfl
@[simp] theorem Die.putW_gen0 (a : Nat) (w : Word) : (d.putW a w).gen0 = d.gen0 := by rfl
@[simp] theorem Die.putW_gen1 (a : Nat) (w : Word) : (d.putW a w).gen1 = d.gen1 := by rfl
@[simp] theorem Die.putW_freeCtr (a : Nat) (w : Word) : (d.putW a w).freeCtr = d.freeCtr := by rfl
@[simp] theorem Die.putW_out (a : Nat) (w : Word) : (d.putW a w).out = d.out := by rfl
@[simp] theorem Die.putW_clock (a : Nat) (w : Word) : (d.putW a w).clock = d.clock := by rfl
@[simp] theorem Die.putW_nv (a : Nat) (w : Word) : (d.putW a w).nv = d.nv := by rfl
@[simp] theorem Die.putW_strand (a : Nat) (w : Word) : (d.putW a w).strand = d.strand := by rfl
@[simp] theorem Die.putW_injectors (a : Nat) (w : Word) : (d.putW a w).injectors = d.injectors := by rfl
@[simp] theorem Die.putW_host (a : Nat) (w : Word) : (d.putW a w).host = d.host := by rfl
@[simp] theorem Die.putW_sec (a : Nat) (w : Word) : (d.putW a w).sec = d.sec := by rfl
@[simp] theorem Die.putW_mgmt (a : Nat) (w : Word) : (d.putW a w).mgmt = d.mgmt := by rfl
@[simp] theorem Die.putW_mesh (a : Nat) (w : Word) : (d.putW a w).mesh = d.mesh := by rfl
@[simp] theorem Die.putW_arrays (a : Nat) (w : Word) : (d.putW a w).arrays = d.arrays := by rfl
@[simp] theorem Die.putW_tiles (a : Nat) (w : Word) : (d.putW a w).tiles = d.tiles := by rfl
@[simp] theorem Die.putW_tide (a : Nat) (w : Word) : (d.putW a w).tide = d.tide := by rfl
@[simp] theorem Die.putW_relay (a : Nat) (w : Word) : (d.putW a w).relay = d.relay := by rfl
@[simp] theorem Die.putW_mapPend (a : Nat) (w : Word) : (d.putW a w).mapPend = d.mapPend := by rfl
@[simp] theorem Die.putW_upkeep (a : Nat) (w : Word) : (d.putW a w).upkeep = d.upkeep := by rfl
@[simp] theorem Die.putW_serve (a : Nat) (w : Word) : (d.putW a w).serve = d.serve := by rfl
@[simp] theorem Die.putW_tenancy (a : Nat) (w : Word) : (d.putW a w).tenancy = d.tenancy := by rfl
@[simp] theorem Die.putW_stack0 (a : Nat) (w : Word) : (d.putW a w).stack0 = d.stack0 := by rfl
@[simp] theorem Die.putW_stack1 (a : Nat) (w : Word) : (d.putW a w).stack1 = d.stack1 := by rfl
@[simp] theorem Die.putW_badSectors (a : Nat) (w : Word) : (d.putW a w).badSectors = d.badSectors := by rfl
@[simp] theorem Die.putW_errSectors (a : Nat) (w : Word) : (d.putW a w).errSectors = d.errSectors := by rfl
@[simp] theorem Die.putW_dma (a : Nat) (w : Word) : (d.putW a w).dma = d.dma := by rfl
@[simp] theorem Die.putW_dmaTurn (a : Nat) (w : Word) : (d.putW a w).dmaTurn = d.dmaTurn := by rfl
@[simp] theorem Die.putW_links (a : Nat) (w : Word) : (d.putW a w).links = d.links := by rfl
@[simp] theorem Die.putW_sliceMask (a : Nat) (w : Word) : (d.putW a w).sliceMask = d.sliceMask := by rfl
@[simp] theorem Die.putW_sense (a : Nat) (w : Word) : (d.putW a w).sense = d.sense := by rfl
@[simp] theorem Die.putW_boot (a : Nat) (w : Word) : (d.putW a w).boot = d.boot := by rfl
@[simp] theorem Die.putW_byteAt (a : Nat) (w : Word) (r : Nat) : (d.putW a w).byteAt r = d.byteAt r := by rfl
@[simp] theorem Die.putW_tile (a : Nat) (w : Word) (r : Nat) : (d.putW a w).tile r = d.tile r := by rfl
@[simp] theorem Die.putW_arr (a : Nat) (w : Word) (r q : Nat) : (d.putW a w).arr r q = d.arr r q := by rfl
@[simp] theorem Die.putW_link (a : Nat) (w : Word) (r : Nat) : (d.putW a w).link r = d.link r := by rfl
@[simp] theorem Die.putW_box (a : Nat) (w : Word) (r : Nat) : (d.putW a w).box r = d.box r := by rfl
@[simp] theorem Die.putW_session (a : Nat) (w : Word) (r : Nat) : (d.putW a w).session r = d.session r := by rfl
@[simp] theorem Die.putW_cal (a : Nat) (w : Word) (r q : Nat) : (d.putW a w).cal r q = d.cal r q := by rfl

/-! ### put -/

@[simp] theorem Die.put_mem (f : Fld) (v : Nat) : (d.put f v).mem = d.mem := by rfl
@[simp] theorem Die.put_gen0 (f : Fld) (v : Nat) : (d.put f v).gen0 = d.gen0 := by rfl
@[simp] theorem Die.put_gen1 (f : Fld) (v : Nat) : (d.put f v).gen1 = d.gen1 := by rfl
@[simp] theorem Die.put_freeCtr (f : Fld) (v : Nat) : (d.put f v).freeCtr = d.freeCtr := by rfl
@[simp] theorem Die.put_out (f : Fld) (v : Nat) : (d.put f v).out = d.out := by rfl
@[simp] theorem Die.put_clock (f : Fld) (v : Nat) : (d.put f v).clock = d.clock := by rfl
@[simp] theorem Die.put_nv (f : Fld) (v : Nat) : (d.put f v).nv = d.nv := by rfl
@[simp] theorem Die.put_strand (f : Fld) (v : Nat) : (d.put f v).strand = d.strand := by rfl
@[simp] theorem Die.put_injectors (f : Fld) (v : Nat) : (d.put f v).injectors = d.injectors := by rfl
@[simp] theorem Die.put_host (f : Fld) (v : Nat) : (d.put f v).host = d.host := by rfl
@[simp] theorem Die.put_sec (f : Fld) (v : Nat) : (d.put f v).sec = d.sec := by rfl
@[simp] theorem Die.put_mgmt (f : Fld) (v : Nat) : (d.put f v).mgmt = d.mgmt := by rfl
@[simp] theorem Die.put_mesh (f : Fld) (v : Nat) : (d.put f v).mesh = d.mesh := by rfl
@[simp] theorem Die.put_arrays (f : Fld) (v : Nat) : (d.put f v).arrays = d.arrays := by rfl
@[simp] theorem Die.put_tiles (f : Fld) (v : Nat) : (d.put f v).tiles = d.tiles := by rfl
@[simp] theorem Die.put_tide (f : Fld) (v : Nat) : (d.put f v).tide = d.tide := by rfl
@[simp] theorem Die.put_relay (f : Fld) (v : Nat) : (d.put f v).relay = d.relay := by rfl
@[simp] theorem Die.put_mapPend (f : Fld) (v : Nat) : (d.put f v).mapPend = d.mapPend := by rfl
@[simp] theorem Die.put_upkeep (f : Fld) (v : Nat) : (d.put f v).upkeep = d.upkeep := by rfl
@[simp] theorem Die.put_serve (f : Fld) (v : Nat) : (d.put f v).serve = d.serve := by rfl
@[simp] theorem Die.put_tenancy (f : Fld) (v : Nat) : (d.put f v).tenancy = d.tenancy := by rfl
@[simp] theorem Die.put_stack0 (f : Fld) (v : Nat) : (d.put f v).stack0 = d.stack0 := by rfl
@[simp] theorem Die.put_stack1 (f : Fld) (v : Nat) : (d.put f v).stack1 = d.stack1 := by rfl
@[simp] theorem Die.put_badSectors (f : Fld) (v : Nat) : (d.put f v).badSectors = d.badSectors := by rfl
@[simp] theorem Die.put_errSectors (f : Fld) (v : Nat) : (d.put f v).errSectors = d.errSectors := by rfl
@[simp] theorem Die.put_dma (f : Fld) (v : Nat) : (d.put f v).dma = d.dma := by rfl
@[simp] theorem Die.put_dmaTurn (f : Fld) (v : Nat) : (d.put f v).dmaTurn = d.dmaTurn := by rfl
@[simp] theorem Die.put_links (f : Fld) (v : Nat) : (d.put f v).links = d.links := by rfl
@[simp] theorem Die.put_sliceMask (f : Fld) (v : Nat) : (d.put f v).sliceMask = d.sliceMask := by rfl
@[simp] theorem Die.put_sense (f : Fld) (v : Nat) : (d.put f v).sense = d.sense := by rfl
@[simp] theorem Die.put_boot (f : Fld) (v : Nat) : (d.put f v).boot = d.boot := by rfl
@[simp] theorem Die.put_byteAt (f : Fld) (v : Nat) (r : Nat) : (d.put f v).byteAt r = d.byteAt r := by rfl
@[simp] theorem Die.put_tile (f : Fld) (v : Nat) (r : Nat) : (d.put f v).tile r = d.tile r := by rfl
@[simp] theorem Die.put_arr (f : Fld) (v : Nat) (r q : Nat) : (d.put f v).arr r q = d.arr r q := by rfl
@[simp] theorem Die.put_link (f : Fld) (v : Nat) (r : Nat) : (d.put f v).link r = d.link r := by rfl
@[simp] theorem Die.put_box (f : Fld) (v : Nat) (r : Nat) : (d.put f v).box r = d.box r := by rfl
@[simp] theorem Die.put_session (f : Fld) (v : Nat) (r : Nat) : (d.put f v).session r = d.session r := by rfl
@[simp] theorem Die.put_cal (f : Fld) (v : Nat) (r q : Nat) : (d.put f v).cal r q = d.cal r q := by rfl

/-! ### setByte -/

@[simp] theorem Die.setByte_regs (a : Nat) (b : Byte) : (d.setByte a b).regs = d.regs := by rfl
@[simp] theorem Die.setByte_gen0 (a : Nat) (b : Byte) : (d.setByte a b).gen0 = d.gen0 := by rfl
@[simp] theorem Die.setByte_gen1 (a : Nat) (b : Byte) : (d.setByte a b).gen1 = d.gen1 := by rfl
@[simp] theorem Die.setByte_freeCtr (a : Nat) (b : Byte) : (d.setByte a b).freeCtr = d.freeCtr := by rfl
@[simp] theorem Die.setByte_out (a : Nat) (b : Byte) : (d.setByte a b).out = d.out := by rfl
@[simp] theorem Die.setByte_clock (a : Nat) (b : Byte) : (d.setByte a b).clock = d.clock := by rfl
@[simp] theorem Die.setByte_nv (a : Nat) (b : Byte) : (d.setByte a b).nv = d.nv := by rfl
@[simp] theorem Die.setByte_strand (a : Nat) (b : Byte) : (d.setByte a b).strand = d.strand := by rfl
@[simp] theorem Die.setByte_injectors (a : Nat) (b : Byte) : (d.setByte a b).injectors = d.injectors := by rfl
@[simp] theorem Die.setByte_host (a : Nat) (b : Byte) : (d.setByte a b).host = d.host := by rfl
@[simp] theorem Die.setByte_sec (a : Nat) (b : Byte) : (d.setByte a b).sec = d.sec := by rfl
@[simp] theorem Die.setByte_mgmt (a : Nat) (b : Byte) : (d.setByte a b).mgmt = d.mgmt := by rfl
@[simp] theorem Die.setByte_mesh (a : Nat) (b : Byte) : (d.setByte a b).mesh = d.mesh := by rfl
@[simp] theorem Die.setByte_arrays (a : Nat) (b : Byte) : (d.setByte a b).arrays = d.arrays := by rfl
@[simp] theorem Die.setByte_tiles (a : Nat) (b : Byte) : (d.setByte a b).tiles = d.tiles := by rfl
@[simp] theorem Die.setByte_tide (a : Nat) (b : Byte) : (d.setByte a b).tide = d.tide := by rfl
@[simp] theorem Die.setByte_relay (a : Nat) (b : Byte) : (d.setByte a b).relay = d.relay := by rfl
@[simp] theorem Die.setByte_mapPend (a : Nat) (b : Byte) : (d.setByte a b).mapPend = d.mapPend := by rfl
@[simp] theorem Die.setByte_upkeep (a : Nat) (b : Byte) : (d.setByte a b).upkeep = d.upkeep := by rfl
@[simp] theorem Die.setByte_serve (a : Nat) (b : Byte) : (d.setByte a b).serve = d.serve := by rfl
@[simp] theorem Die.setByte_tenancy (a : Nat) (b : Byte) : (d.setByte a b).tenancy = d.tenancy := by rfl
@[simp] theorem Die.setByte_stack0 (a : Nat) (b : Byte) : (d.setByte a b).stack0 = d.stack0 := by rfl
@[simp] theorem Die.setByte_stack1 (a : Nat) (b : Byte) : (d.setByte a b).stack1 = d.stack1 := by rfl
@[simp] theorem Die.setByte_badSectors (a : Nat) (b : Byte) : (d.setByte a b).badSectors = d.badSectors := by rfl
@[simp] theorem Die.setByte_errSectors (a : Nat) (b : Byte) : (d.setByte a b).errSectors = d.errSectors := by rfl
@[simp] theorem Die.setByte_dma (a : Nat) (b : Byte) : (d.setByte a b).dma = d.dma := by rfl
@[simp] theorem Die.setByte_dmaTurn (a : Nat) (b : Byte) : (d.setByte a b).dmaTurn = d.dmaTurn := by rfl
@[simp] theorem Die.setByte_links (a : Nat) (b : Byte) : (d.setByte a b).links = d.links := by rfl
@[simp] theorem Die.setByte_sliceMask (a : Nat) (b : Byte) : (d.setByte a b).sliceMask = d.sliceMask := by rfl
@[simp] theorem Die.setByte_sense (a : Nat) (b : Byte) : (d.setByte a b).sense = d.sense := by rfl
@[simp] theorem Die.setByte_boot (a : Nat) (b : Byte) : (d.setByte a b).boot = d.boot := by rfl
@[simp] theorem Die.setByte_getW (a : Nat) (b : Byte) (r : Nat) : (d.setByte a b).getW r = d.getW r := by rfl
@[simp] theorem Die.setByte_get (a : Nat) (b : Byte) (r : Fld) : (d.setByte a b).get r = d.get r := by rfl
@[simp] theorem Die.setByte_tile (a : Nat) (b : Byte) (r : Nat) : (d.setByte a b).tile r = d.tile r := by rfl
@[simp] theorem Die.setByte_arr (a : Nat) (b : Byte) (r q : Nat) : (d.setByte a b).arr r q = d.arr r q := by rfl
@[simp] theorem Die.setByte_link (a : Nat) (b : Byte) (r : Nat) : (d.setByte a b).link r = d.link r := by rfl
@[simp] theorem Die.setByte_box (a : Nat) (b : Byte) (r : Nat) : (d.setByte a b).box r = d.box r := by rfl
@[simp] theorem Die.setByte_session (a : Nat) (b : Byte) (r : Nat) : (d.setByte a b).session r = d.session r := by rfl
@[simp] theorem Die.setByte_cal (a : Nat) (b : Byte) (r q : Nat) : (d.setByte a b).cal r q = d.cal r q := by rfl

/-! ### setTile -/

@[simp] theorem Die.setTile_regs (t : Nat) (x : Tile1) : (d.setTile t x).regs = d.regs := by rfl
@[simp] theorem Die.setTile_mem (t : Nat) (x : Tile1) : (d.setTile t x).mem = d.mem := by rfl
@[simp] theorem Die.setTile_gen0 (t : Nat) (x : Tile1) : (d.setTile t x).gen0 = d.gen0 := by rfl
@[simp] theorem Die.setTile_gen1 (t : Nat) (x : Tile1) : (d.setTile t x).gen1 = d.gen1 := by rfl
@[simp] theorem Die.setTile_freeCtr (t : Nat) (x : Tile1) : (d.setTile t x).freeCtr = d.freeCtr := by rfl
@[simp] theorem Die.setTile_out (t : Nat) (x : Tile1) : (d.setTile t x).out = d.out := by rfl
@[simp] theorem Die.setTile_clock (t : Nat) (x : Tile1) : (d.setTile t x).clock = d.clock := by rfl
@[simp] theorem Die.setTile_nv (t : Nat) (x : Tile1) : (d.setTile t x).nv = d.nv := by rfl
@[simp] theorem Die.setTile_strand (t : Nat) (x : Tile1) : (d.setTile t x).strand = d.strand := by rfl
@[simp] theorem Die.setTile_injectors (t : Nat) (x : Tile1) : (d.setTile t x).injectors = d.injectors := by rfl
@[simp] theorem Die.setTile_host (t : Nat) (x : Tile1) : (d.setTile t x).host = d.host := by rfl
@[simp] theorem Die.setTile_sec (t : Nat) (x : Tile1) : (d.setTile t x).sec = d.sec := by rfl
@[simp] theorem Die.setTile_mgmt (t : Nat) (x : Tile1) : (d.setTile t x).mgmt = d.mgmt := by rfl
@[simp] theorem Die.setTile_mesh (t : Nat) (x : Tile1) : (d.setTile t x).mesh = d.mesh := by rfl
@[simp] theorem Die.setTile_arrays (t : Nat) (x : Tile1) : (d.setTile t x).arrays = d.arrays := by rfl
@[simp] theorem Die.setTile_tide (t : Nat) (x : Tile1) : (d.setTile t x).tide = d.tide := by rfl
@[simp] theorem Die.setTile_relay (t : Nat) (x : Tile1) : (d.setTile t x).relay = d.relay := by rfl
@[simp] theorem Die.setTile_mapPend (t : Nat) (x : Tile1) : (d.setTile t x).mapPend = d.mapPend := by rfl
@[simp] theorem Die.setTile_upkeep (t : Nat) (x : Tile1) : (d.setTile t x).upkeep = d.upkeep := by rfl
@[simp] theorem Die.setTile_serve (t : Nat) (x : Tile1) : (d.setTile t x).serve = d.serve := by rfl
@[simp] theorem Die.setTile_tenancy (t : Nat) (x : Tile1) : (d.setTile t x).tenancy = d.tenancy := by rfl
@[simp] theorem Die.setTile_stack0 (t : Nat) (x : Tile1) : (d.setTile t x).stack0 = d.stack0 := by rfl
@[simp] theorem Die.setTile_stack1 (t : Nat) (x : Tile1) : (d.setTile t x).stack1 = d.stack1 := by rfl
@[simp] theorem Die.setTile_badSectors (t : Nat) (x : Tile1) : (d.setTile t x).badSectors = d.badSectors := by rfl
@[simp] theorem Die.setTile_errSectors (t : Nat) (x : Tile1) : (d.setTile t x).errSectors = d.errSectors := by rfl
@[simp] theorem Die.setTile_dma (t : Nat) (x : Tile1) : (d.setTile t x).dma = d.dma := by rfl
@[simp] theorem Die.setTile_dmaTurn (t : Nat) (x : Tile1) : (d.setTile t x).dmaTurn = d.dmaTurn := by rfl
@[simp] theorem Die.setTile_links (t : Nat) (x : Tile1) : (d.setTile t x).links = d.links := by rfl
@[simp] theorem Die.setTile_sliceMask (t : Nat) (x : Tile1) : (d.setTile t x).sliceMask = d.sliceMask := by rfl
@[simp] theorem Die.setTile_sense (t : Nat) (x : Tile1) : (d.setTile t x).sense = d.sense := by rfl
@[simp] theorem Die.setTile_boot (t : Nat) (x : Tile1) : (d.setTile t x).boot = d.boot := by rfl
@[simp] theorem Die.setTile_getW (t : Nat) (x : Tile1) (r : Nat) : (d.setTile t x).getW r = d.getW r := by rfl
@[simp] theorem Die.setTile_get (t : Nat) (x : Tile1) (r : Fld) : (d.setTile t x).get r = d.get r := by rfl
@[simp] theorem Die.setTile_byteAt (t : Nat) (x : Tile1) (r : Nat) : (d.setTile t x).byteAt r = d.byteAt r := by rfl
@[simp] theorem Die.setTile_arr (t : Nat) (x : Tile1) (r q : Nat) : (d.setTile t x).arr r q = d.arr r q := by rfl
@[simp] theorem Die.setTile_link (t : Nat) (x : Tile1) (r : Nat) : (d.setTile t x).link r = d.link r := by rfl
@[simp] theorem Die.setTile_box (t : Nat) (x : Tile1) (r : Nat) : (d.setTile t x).box r = d.box r := by rfl
@[simp] theorem Die.setTile_session (t : Nat) (x : Tile1) (r : Nat) : (d.setTile t x).session r = d.session r := by rfl
@[simp] theorem Die.setTile_cal (t : Nat) (x : Tile1) (r q : Nat) : (d.setTile t x).cal r q = d.cal r q := by rfl

/-! ### modTile -/

@[simp] theorem Die.modTile_regs (t : Nat) (f : Tile1 → Tile1) : (d.modTile t f).regs = d.regs := by rfl
@[simp] theorem Die.modTile_mem (t : Nat) (f : Tile1 → Tile1) : (d.modTile t f).mem = d.mem := by rfl
@[simp] theorem Die.modTile_gen0 (t : Nat) (f : Tile1 → Tile1) : (d.modTile t f).gen0 = d.gen0 := by rfl
@[simp] theorem Die.modTile_gen1 (t : Nat) (f : Tile1 → Tile1) : (d.modTile t f).gen1 = d.gen1 := by rfl
@[simp] theorem Die.modTile_freeCtr (t : Nat) (f : Tile1 → Tile1) : (d.modTile t f).freeCtr = d.freeCtr := by rfl
@[simp] theorem Die.modTile_out (t : Nat) (f : Tile1 → Tile1) : (d.modTile t f).out = d.out := by rfl
@[simp] theorem Die.modTile_clock (t : Nat) (f : Tile1 → Tile1) : (d.modTile t f).clock = d.clock := by rfl
@[simp] theorem Die.modTile_nv (t : Nat) (f : Tile1 → Tile1) : (d.modTile t f).nv = d.nv := by rfl
@[simp] theorem Die.modTile_strand (t : Nat) (f : Tile1 → Tile1) : (d.modTile t f).strand = d.strand := by rfl
@[simp] theorem Die.modTile_injectors (t : Nat) (f : Tile1 → Tile1) : (d.modTile t f).injectors = d.injectors := by rfl
@[simp] theorem Die.modTile_host (t : Nat) (f : Tile1 → Tile1) : (d.modTile t f).host = d.host := by rfl
@[simp] theorem Die.modTile_sec (t : Nat) (f : Tile1 → Tile1) : (d.modTile t f).sec = d.sec := by rfl
@[simp] theorem Die.modTile_mgmt (t : Nat) (f : Tile1 → Tile1) : (d.modTile t f).mgmt = d.mgmt := by rfl
@[simp] theorem Die.modTile_mesh (t : Nat) (f : Tile1 → Tile1) : (d.modTile t f).mesh = d.mesh := by rfl
@[simp] theorem Die.modTile_arrays (t : Nat) (f : Tile1 → Tile1) : (d.modTile t f).arrays = d.arrays := by rfl
@[simp] theorem Die.modTile_tide (t : Nat) (f : Tile1 → Tile1) : (d.modTile t f).tide = d.tide := by rfl
@[simp] theorem Die.modTile_relay (t : Nat) (f : Tile1 → Tile1) : (d.modTile t f).relay = d.relay := by rfl
@[simp] theorem Die.modTile_mapPend (t : Nat) (f : Tile1 → Tile1) : (d.modTile t f).mapPend = d.mapPend := by rfl
@[simp] theorem Die.modTile_upkeep (t : Nat) (f : Tile1 → Tile1) : (d.modTile t f).upkeep = d.upkeep := by rfl
@[simp] theorem Die.modTile_serve (t : Nat) (f : Tile1 → Tile1) : (d.modTile t f).serve = d.serve := by rfl
@[simp] theorem Die.modTile_tenancy (t : Nat) (f : Tile1 → Tile1) : (d.modTile t f).tenancy = d.tenancy := by rfl
@[simp] theorem Die.modTile_stack0 (t : Nat) (f : Tile1 → Tile1) : (d.modTile t f).stack0 = d.stack0 := by rfl
@[simp] theorem Die.modTile_stack1 (t : Nat) (f : Tile1 → Tile1) : (d.modTile t f).stack1 = d.stack1 := by rfl
@[simp] theorem Die.modTile_badSectors (t : Nat) (f : Tile1 → Tile1) : (d.modTile t f).badSectors = d.badSectors := by rfl
@[simp] theorem Die.modTile_errSectors (t : Nat) (f : Tile1 → Tile1) : (d.modTile t f).errSectors = d.errSectors := by rfl
@[simp] theorem Die.modTile_dma (t : Nat) (f : Tile1 → Tile1) : (d.modTile t f).dma = d.dma := by rfl
@[simp] theorem Die.modTile_dmaTurn (t : Nat) (f : Tile1 → Tile1) : (d.modTile t f).dmaTurn = d.dmaTurn := by rfl
@[simp] theorem Die.modTile_links (t : Nat) (f : Tile1 → Tile1) : (d.modTile t f).links = d.links := by rfl
@[simp] theorem Die.modTile_sliceMask (t : Nat) (f : Tile1 → Tile1) : (d.modTile t f).sliceMask = d.sliceMask := by rfl
@[simp] theorem Die.modTile_sense (t : Nat) (f : Tile1 → Tile1) : (d.modTile t f).sense = d.sense := by rfl
@[simp] theorem Die.modTile_boot (t : Nat) (f : Tile1 → Tile1) : (d.modTile t f).boot = d.boot := by rfl
@[simp] theorem Die.modTile_getW (t : Nat) (f : Tile1 → Tile1) (r : Nat) : (d.modTile t f).getW r = d.getW r := by rfl
@[simp] theorem Die.modTile_get (t : Nat) (f : Tile1 → Tile1) (r : Fld) : (d.modTile t f).get r = d.get r := by rfl
@[simp] theorem Die.modTile_byteAt (t : Nat) (f : Tile1 → Tile1) (r : Nat) : (d.modTile t f).byteAt r = d.byteAt r := by rfl
@[simp] theorem Die.modTile_arr (t : Nat) (f : Tile1 → Tile1) (r q : Nat) : (d.modTile t f).arr r q = d.arr r q := by rfl
@[simp] theorem Die.modTile_link (t : Nat) (f : Tile1 → Tile1) (r : Nat) : (d.modTile t f).link r = d.link r := by rfl
@[simp] theorem Die.modTile_box (t : Nat) (f : Tile1 → Tile1) (r : Nat) : (d.modTile t f).box r = d.box r := by rfl
@[simp] theorem Die.modTile_session (t : Nat) (f : Tile1 → Tile1) (r : Nat) : (d.modTile t f).session r = d.session r := by rfl
@[simp] theorem Die.modTile_cal (t : Nat) (f : Tile1 → Tile1) (r q : Nat) : (d.modTile t f).cal r q = d.cal r q := by rfl

/-! ### setArr -/

@[simp] theorem Die.setArr_regs (t a : Nat) (x : Array1) : (d.setArr t a x).regs = d.regs := by rfl
@[simp] theorem Die.setArr_mem (t a : Nat) (x : Array1) : (d.setArr t a x).mem = d.mem := by rfl
@[simp] theorem Die.setArr_gen0 (t a : Nat) (x : Array1) : (d.setArr t a x).gen0 = d.gen0 := by rfl
@[simp] theorem Die.setArr_gen1 (t a : Nat) (x : Array1) : (d.setArr t a x).gen1 = d.gen1 := by rfl
@[simp] theorem Die.setArr_freeCtr (t a : Nat) (x : Array1) : (d.setArr t a x).freeCtr = d.freeCtr := by rfl
@[simp] theorem Die.setArr_out (t a : Nat) (x : Array1) : (d.setArr t a x).out = d.out := by rfl
@[simp] theorem Die.setArr_clock (t a : Nat) (x : Array1) : (d.setArr t a x).clock = d.clock := by rfl
@[simp] theorem Die.setArr_nv (t a : Nat) (x : Array1) : (d.setArr t a x).nv = d.nv := by rfl
@[simp] theorem Die.setArr_strand (t a : Nat) (x : Array1) : (d.setArr t a x).strand = d.strand := by rfl
@[simp] theorem Die.setArr_injectors (t a : Nat) (x : Array1) : (d.setArr t a x).injectors = d.injectors := by rfl
@[simp] theorem Die.setArr_host (t a : Nat) (x : Array1) : (d.setArr t a x).host = d.host := by rfl
@[simp] theorem Die.setArr_sec (t a : Nat) (x : Array1) : (d.setArr t a x).sec = d.sec := by rfl
@[simp] theorem Die.setArr_mgmt (t a : Nat) (x : Array1) : (d.setArr t a x).mgmt = d.mgmt := by rfl
@[simp] theorem Die.setArr_mesh (t a : Nat) (x : Array1) : (d.setArr t a x).mesh = d.mesh := by rfl
@[simp] theorem Die.setArr_tiles (t a : Nat) (x : Array1) : (d.setArr t a x).tiles = d.tiles := by rfl
@[simp] theorem Die.setArr_tide (t a : Nat) (x : Array1) : (d.setArr t a x).tide = d.tide := by rfl
@[simp] theorem Die.setArr_relay (t a : Nat) (x : Array1) : (d.setArr t a x).relay = d.relay := by rfl
@[simp] theorem Die.setArr_mapPend (t a : Nat) (x : Array1) : (d.setArr t a x).mapPend = d.mapPend := by rfl
@[simp] theorem Die.setArr_upkeep (t a : Nat) (x : Array1) : (d.setArr t a x).upkeep = d.upkeep := by rfl
@[simp] theorem Die.setArr_serve (t a : Nat) (x : Array1) : (d.setArr t a x).serve = d.serve := by rfl
@[simp] theorem Die.setArr_tenancy (t a : Nat) (x : Array1) : (d.setArr t a x).tenancy = d.tenancy := by rfl
@[simp] theorem Die.setArr_stack0 (t a : Nat) (x : Array1) : (d.setArr t a x).stack0 = d.stack0 := by rfl
@[simp] theorem Die.setArr_stack1 (t a : Nat) (x : Array1) : (d.setArr t a x).stack1 = d.stack1 := by rfl
@[simp] theorem Die.setArr_badSectors (t a : Nat) (x : Array1) : (d.setArr t a x).badSectors = d.badSectors := by rfl
@[simp] theorem Die.setArr_errSectors (t a : Nat) (x : Array1) : (d.setArr t a x).errSectors = d.errSectors := by rfl
@[simp] theorem Die.setArr_dma (t a : Nat) (x : Array1) : (d.setArr t a x).dma = d.dma := by rfl
@[simp] theorem Die.setArr_dmaTurn (t a : Nat) (x : Array1) : (d.setArr t a x).dmaTurn = d.dmaTurn := by rfl
@[simp] theorem Die.setArr_links (t a : Nat) (x : Array1) : (d.setArr t a x).links = d.links := by rfl
@[simp] theorem Die.setArr_sliceMask (t a : Nat) (x : Array1) : (d.setArr t a x).sliceMask = d.sliceMask := by rfl
@[simp] theorem Die.setArr_sense (t a : Nat) (x : Array1) : (d.setArr t a x).sense = d.sense := by rfl
@[simp] theorem Die.setArr_boot (t a : Nat) (x : Array1) : (d.setArr t a x).boot = d.boot := by rfl
@[simp] theorem Die.setArr_getW (t a : Nat) (x : Array1) (r : Nat) : (d.setArr t a x).getW r = d.getW r := by rfl
@[simp] theorem Die.setArr_get (t a : Nat) (x : Array1) (r : Fld) : (d.setArr t a x).get r = d.get r := by rfl
@[simp] theorem Die.setArr_byteAt (t a : Nat) (x : Array1) (r : Nat) : (d.setArr t a x).byteAt r = d.byteAt r := by rfl
@[simp] theorem Die.setArr_tile (t a : Nat) (x : Array1) (r : Nat) : (d.setArr t a x).tile r = d.tile r := by rfl
@[simp] theorem Die.setArr_link (t a : Nat) (x : Array1) (r : Nat) : (d.setArr t a x).link r = d.link r := by rfl
@[simp] theorem Die.setArr_box (t a : Nat) (x : Array1) (r : Nat) : (d.setArr t a x).box r = d.box r := by rfl
@[simp] theorem Die.setArr_session (t a : Nat) (x : Array1) (r : Nat) : (d.setArr t a x).session r = d.session r := by rfl
@[simp] theorem Die.setArr_cal (t a : Nat) (x : Array1) (r q : Nat) : (d.setArr t a x).cal r q = d.cal r q := by rfl

/-! ### modArr -/

@[simp] theorem Die.modArr_regs (t a : Nat) (f : Array1 → Array1) : (d.modArr t a f).regs = d.regs := by rfl
@[simp] theorem Die.modArr_mem (t a : Nat) (f : Array1 → Array1) : (d.modArr t a f).mem = d.mem := by rfl
@[simp] theorem Die.modArr_gen0 (t a : Nat) (f : Array1 → Array1) : (d.modArr t a f).gen0 = d.gen0 := by rfl
@[simp] theorem Die.modArr_gen1 (t a : Nat) (f : Array1 → Array1) : (d.modArr t a f).gen1 = d.gen1 := by rfl
@[simp] theorem Die.modArr_freeCtr (t a : Nat) (f : Array1 → Array1) : (d.modArr t a f).freeCtr = d.freeCtr := by rfl
@[simp] theorem Die.modArr_out (t a : Nat) (f : Array1 → Array1) : (d.modArr t a f).out = d.out := by rfl
@[simp] theorem Die.modArr_clock (t a : Nat) (f : Array1 → Array1) : (d.modArr t a f).clock = d.clock := by rfl
@[simp] theorem Die.modArr_nv (t a : Nat) (f : Array1 → Array1) : (d.modArr t a f).nv = d.nv := by rfl
@[simp] theorem Die.modArr_strand (t a : Nat) (f : Array1 → Array1) : (d.modArr t a f).strand = d.strand := by rfl
@[simp] theorem Die.modArr_injectors (t a : Nat) (f : Array1 → Array1) : (d.modArr t a f).injectors = d.injectors := by rfl
@[simp] theorem Die.modArr_host (t a : Nat) (f : Array1 → Array1) : (d.modArr t a f).host = d.host := by rfl
@[simp] theorem Die.modArr_sec (t a : Nat) (f : Array1 → Array1) : (d.modArr t a f).sec = d.sec := by rfl
@[simp] theorem Die.modArr_mgmt (t a : Nat) (f : Array1 → Array1) : (d.modArr t a f).mgmt = d.mgmt := by rfl
@[simp] theorem Die.modArr_mesh (t a : Nat) (f : Array1 → Array1) : (d.modArr t a f).mesh = d.mesh := by rfl
@[simp] theorem Die.modArr_tiles (t a : Nat) (f : Array1 → Array1) : (d.modArr t a f).tiles = d.tiles := by rfl
@[simp] theorem Die.modArr_tide (t a : Nat) (f : Array1 → Array1) : (d.modArr t a f).tide = d.tide := by rfl
@[simp] theorem Die.modArr_relay (t a : Nat) (f : Array1 → Array1) : (d.modArr t a f).relay = d.relay := by rfl
@[simp] theorem Die.modArr_mapPend (t a : Nat) (f : Array1 → Array1) : (d.modArr t a f).mapPend = d.mapPend := by rfl
@[simp] theorem Die.modArr_upkeep (t a : Nat) (f : Array1 → Array1) : (d.modArr t a f).upkeep = d.upkeep := by rfl
@[simp] theorem Die.modArr_serve (t a : Nat) (f : Array1 → Array1) : (d.modArr t a f).serve = d.serve := by rfl
@[simp] theorem Die.modArr_tenancy (t a : Nat) (f : Array1 → Array1) : (d.modArr t a f).tenancy = d.tenancy := by rfl
@[simp] theorem Die.modArr_stack0 (t a : Nat) (f : Array1 → Array1) : (d.modArr t a f).stack0 = d.stack0 := by rfl
@[simp] theorem Die.modArr_stack1 (t a : Nat) (f : Array1 → Array1) : (d.modArr t a f).stack1 = d.stack1 := by rfl
@[simp] theorem Die.modArr_badSectors (t a : Nat) (f : Array1 → Array1) : (d.modArr t a f).badSectors = d.badSectors := by rfl
@[simp] theorem Die.modArr_errSectors (t a : Nat) (f : Array1 → Array1) : (d.modArr t a f).errSectors = d.errSectors := by rfl
@[simp] theorem Die.modArr_dma (t a : Nat) (f : Array1 → Array1) : (d.modArr t a f).dma = d.dma := by rfl
@[simp] theorem Die.modArr_dmaTurn (t a : Nat) (f : Array1 → Array1) : (d.modArr t a f).dmaTurn = d.dmaTurn := by rfl
@[simp] theorem Die.modArr_links (t a : Nat) (f : Array1 → Array1) : (d.modArr t a f).links = d.links := by rfl
@[simp] theorem Die.modArr_sliceMask (t a : Nat) (f : Array1 → Array1) : (d.modArr t a f).sliceMask = d.sliceMask := by rfl
@[simp] theorem Die.modArr_sense (t a : Nat) (f : Array1 → Array1) : (d.modArr t a f).sense = d.sense := by rfl
@[simp] theorem Die.modArr_boot (t a : Nat) (f : Array1 → Array1) : (d.modArr t a f).boot = d.boot := by rfl
@[simp] theorem Die.modArr_getW (t a : Nat) (f : Array1 → Array1) (r : Nat) : (d.modArr t a f).getW r = d.getW r := by rfl
@[simp] theorem Die.modArr_get (t a : Nat) (f : Array1 → Array1) (r : Fld) : (d.modArr t a f).get r = d.get r := by rfl
@[simp] theorem Die.modArr_byteAt (t a : Nat) (f : Array1 → Array1) (r : Nat) : (d.modArr t a f).byteAt r = d.byteAt r := by rfl
@[simp] theorem Die.modArr_tile (t a : Nat) (f : Array1 → Array1) (r : Nat) : (d.modArr t a f).tile r = d.tile r := by rfl
@[simp] theorem Die.modArr_link (t a : Nat) (f : Array1 → Array1) (r : Nat) : (d.modArr t a f).link r = d.link r := by rfl
@[simp] theorem Die.modArr_box (t a : Nat) (f : Array1 → Array1) (r : Nat) : (d.modArr t a f).box r = d.box r := by rfl
@[simp] theorem Die.modArr_session (t a : Nat) (f : Array1 → Array1) (r : Nat) : (d.modArr t a f).session r = d.session r := by rfl
@[simp] theorem Die.modArr_cal (t a : Nat) (f : Array1 → Array1) (r q : Nat) : (d.modArr t a f).cal r q = d.cal r q := by rfl

/-! ### modCal -/

@[simp] theorem Die.modCal_regs (t a : Nat) (f : ArrCal → ArrCal) : (d.modCal t a f).regs = d.regs := by rfl
@[simp] theorem Die.modCal_mem (t a : Nat) (f : ArrCal → ArrCal) : (d.modCal t a f).mem = d.mem := by rfl
@[simp] theorem Die.modCal_gen0 (t a : Nat) (f : ArrCal → ArrCal) : (d.modCal t a f).gen0 = d.gen0 := by rfl
@[simp] theorem Die.modCal_gen1 (t a : Nat) (f : ArrCal → ArrCal) : (d.modCal t a f).gen1 = d.gen1 := by rfl
@[simp] theorem Die.modCal_freeCtr (t a : Nat) (f : ArrCal → ArrCal) : (d.modCal t a f).freeCtr = d.freeCtr := by rfl
@[simp] theorem Die.modCal_out (t a : Nat) (f : ArrCal → ArrCal) : (d.modCal t a f).out = d.out := by rfl
@[simp] theorem Die.modCal_clock (t a : Nat) (f : ArrCal → ArrCal) : (d.modCal t a f).clock = d.clock := by rfl
@[simp] theorem Die.modCal_nv (t a : Nat) (f : ArrCal → ArrCal) : (d.modCal t a f).nv = d.nv := by rfl
@[simp] theorem Die.modCal_strand (t a : Nat) (f : ArrCal → ArrCal) : (d.modCal t a f).strand = d.strand := by rfl
@[simp] theorem Die.modCal_injectors (t a : Nat) (f : ArrCal → ArrCal) : (d.modCal t a f).injectors = d.injectors := by rfl
@[simp] theorem Die.modCal_host (t a : Nat) (f : ArrCal → ArrCal) : (d.modCal t a f).host = d.host := by rfl
@[simp] theorem Die.modCal_sec (t a : Nat) (f : ArrCal → ArrCal) : (d.modCal t a f).sec = d.sec := by rfl
@[simp] theorem Die.modCal_mgmt (t a : Nat) (f : ArrCal → ArrCal) : (d.modCal t a f).mgmt = d.mgmt := by rfl
@[simp] theorem Die.modCal_mesh (t a : Nat) (f : ArrCal → ArrCal) : (d.modCal t a f).mesh = d.mesh := by rfl
@[simp] theorem Die.modCal_arrays (t a : Nat) (f : ArrCal → ArrCal) : (d.modCal t a f).arrays = d.arrays := by rfl
@[simp] theorem Die.modCal_tiles (t a : Nat) (f : ArrCal → ArrCal) : (d.modCal t a f).tiles = d.tiles := by rfl
@[simp] theorem Die.modCal_tide (t a : Nat) (f : ArrCal → ArrCal) : (d.modCal t a f).tide = d.tide := by rfl
@[simp] theorem Die.modCal_relay (t a : Nat) (f : ArrCal → ArrCal) : (d.modCal t a f).relay = d.relay := by rfl
@[simp] theorem Die.modCal_mapPend (t a : Nat) (f : ArrCal → ArrCal) : (d.modCal t a f).mapPend = d.mapPend := by rfl
@[simp] theorem Die.modCal_serve (t a : Nat) (f : ArrCal → ArrCal) : (d.modCal t a f).serve = d.serve := by rfl
@[simp] theorem Die.modCal_tenancy (t a : Nat) (f : ArrCal → ArrCal) : (d.modCal t a f).tenancy = d.tenancy := by rfl
@[simp] theorem Die.modCal_stack0 (t a : Nat) (f : ArrCal → ArrCal) : (d.modCal t a f).stack0 = d.stack0 := by rfl
@[simp] theorem Die.modCal_stack1 (t a : Nat) (f : ArrCal → ArrCal) : (d.modCal t a f).stack1 = d.stack1 := by rfl
@[simp] theorem Die.modCal_badSectors (t a : Nat) (f : ArrCal → ArrCal) : (d.modCal t a f).badSectors = d.badSectors := by rfl
@[simp] theorem Die.modCal_errSectors (t a : Nat) (f : ArrCal → ArrCal) : (d.modCal t a f).errSectors = d.errSectors := by rfl
@[simp] theorem Die.modCal_dma (t a : Nat) (f : ArrCal → ArrCal) : (d.modCal t a f).dma = d.dma := by rfl
@[simp] theorem Die.modCal_dmaTurn (t a : Nat) (f : ArrCal → ArrCal) : (d.modCal t a f).dmaTurn = d.dmaTurn := by rfl
@[simp] theorem Die.modCal_links (t a : Nat) (f : ArrCal → ArrCal) : (d.modCal t a f).links = d.links := by rfl
@[simp] theorem Die.modCal_sliceMask (t a : Nat) (f : ArrCal → ArrCal) : (d.modCal t a f).sliceMask = d.sliceMask := by rfl
@[simp] theorem Die.modCal_sense (t a : Nat) (f : ArrCal → ArrCal) : (d.modCal t a f).sense = d.sense := by rfl
@[simp] theorem Die.modCal_boot (t a : Nat) (f : ArrCal → ArrCal) : (d.modCal t a f).boot = d.boot := by rfl
@[simp] theorem Die.modCal_getW (t a : Nat) (f : ArrCal → ArrCal) (r : Nat) : (d.modCal t a f).getW r = d.getW r := by rfl
@[simp] theorem Die.modCal_get (t a : Nat) (f : ArrCal → ArrCal) (r : Fld) : (d.modCal t a f).get r = d.get r := by rfl
@[simp] theorem Die.modCal_byteAt (t a : Nat) (f : ArrCal → ArrCal) (r : Nat) : (d.modCal t a f).byteAt r = d.byteAt r := by rfl
@[simp] theorem Die.modCal_tile (t a : Nat) (f : ArrCal → ArrCal) (r : Nat) : (d.modCal t a f).tile r = d.tile r := by rfl
@[simp] theorem Die.modCal_arr (t a : Nat) (f : ArrCal → ArrCal) (r q : Nat) : (d.modCal t a f).arr r q = d.arr r q := by rfl
@[simp] theorem Die.modCal_link (t a : Nat) (f : ArrCal → ArrCal) (r : Nat) : (d.modCal t a f).link r = d.link r := by rfl
@[simp] theorem Die.modCal_box (t a : Nat) (f : ArrCal → ArrCal) (r : Nat) : (d.modCal t a f).box r = d.box r := by rfl
@[simp] theorem Die.modCal_session (t a : Nat) (f : ArrCal → ArrCal) (r : Nat) : (d.modCal t a f).session r = d.session r := by rfl

/-! ### modLink -/

@[simp] theorem Die.modLink_regs (k : Nat) (f : Link → Link) : (d.modLink k f).regs = d.regs := by rfl
@[simp] theorem Die.modLink_mem (k : Nat) (f : Link → Link) : (d.modLink k f).mem = d.mem := by rfl
@[simp] theorem Die.modLink_gen0 (k : Nat) (f : Link → Link) : (d.modLink k f).gen0 = d.gen0 := by rfl
@[simp] theorem Die.modLink_gen1 (k : Nat) (f : Link → Link) : (d.modLink k f).gen1 = d.gen1 := by rfl
@[simp] theorem Die.modLink_freeCtr (k : Nat) (f : Link → Link) : (d.modLink k f).freeCtr = d.freeCtr := by rfl
@[simp] theorem Die.modLink_out (k : Nat) (f : Link → Link) : (d.modLink k f).out = d.out := by rfl
@[simp] theorem Die.modLink_clock (k : Nat) (f : Link → Link) : (d.modLink k f).clock = d.clock := by rfl
@[simp] theorem Die.modLink_nv (k : Nat) (f : Link → Link) : (d.modLink k f).nv = d.nv := by rfl
@[simp] theorem Die.modLink_strand (k : Nat) (f : Link → Link) : (d.modLink k f).strand = d.strand := by rfl
@[simp] theorem Die.modLink_injectors (k : Nat) (f : Link → Link) : (d.modLink k f).injectors = d.injectors := by rfl
@[simp] theorem Die.modLink_host (k : Nat) (f : Link → Link) : (d.modLink k f).host = d.host := by rfl
@[simp] theorem Die.modLink_sec (k : Nat) (f : Link → Link) : (d.modLink k f).sec = d.sec := by rfl
@[simp] theorem Die.modLink_mgmt (k : Nat) (f : Link → Link) : (d.modLink k f).mgmt = d.mgmt := by rfl
@[simp] theorem Die.modLink_mesh (k : Nat) (f : Link → Link) : (d.modLink k f).mesh = d.mesh := by rfl
@[simp] theorem Die.modLink_arrays (k : Nat) (f : Link → Link) : (d.modLink k f).arrays = d.arrays := by rfl
@[simp] theorem Die.modLink_tiles (k : Nat) (f : Link → Link) : (d.modLink k f).tiles = d.tiles := by rfl
@[simp] theorem Die.modLink_tide (k : Nat) (f : Link → Link) : (d.modLink k f).tide = d.tide := by rfl
@[simp] theorem Die.modLink_relay (k : Nat) (f : Link → Link) : (d.modLink k f).relay = d.relay := by rfl
@[simp] theorem Die.modLink_mapPend (k : Nat) (f : Link → Link) : (d.modLink k f).mapPend = d.mapPend := by rfl
@[simp] theorem Die.modLink_upkeep (k : Nat) (f : Link → Link) : (d.modLink k f).upkeep = d.upkeep := by rfl
@[simp] theorem Die.modLink_serve (k : Nat) (f : Link → Link) : (d.modLink k f).serve = d.serve := by rfl
@[simp] theorem Die.modLink_tenancy (k : Nat) (f : Link → Link) : (d.modLink k f).tenancy = d.tenancy := by rfl
@[simp] theorem Die.modLink_stack0 (k : Nat) (f : Link → Link) : (d.modLink k f).stack0 = d.stack0 := by rfl
@[simp] theorem Die.modLink_stack1 (k : Nat) (f : Link → Link) : (d.modLink k f).stack1 = d.stack1 := by rfl
@[simp] theorem Die.modLink_badSectors (k : Nat) (f : Link → Link) : (d.modLink k f).badSectors = d.badSectors := by rfl
@[simp] theorem Die.modLink_errSectors (k : Nat) (f : Link → Link) : (d.modLink k f).errSectors = d.errSectors := by rfl
@[simp] theorem Die.modLink_dma (k : Nat) (f : Link → Link) : (d.modLink k f).dma = d.dma := by rfl
@[simp] theorem Die.modLink_dmaTurn (k : Nat) (f : Link → Link) : (d.modLink k f).dmaTurn = d.dmaTurn := by rfl
@[simp] theorem Die.modLink_sliceMask (k : Nat) (f : Link → Link) : (d.modLink k f).sliceMask = d.sliceMask := by rfl
@[simp] theorem Die.modLink_sense (k : Nat) (f : Link → Link) : (d.modLink k f).sense = d.sense := by rfl
@[simp] theorem Die.modLink_boot (k : Nat) (f : Link → Link) : (d.modLink k f).boot = d.boot := by rfl
@[simp] theorem Die.modLink_getW (k : Nat) (f : Link → Link) (r : Nat) : (d.modLink k f).getW r = d.getW r := by rfl
@[simp] theorem Die.modLink_get (k : Nat) (f : Link → Link) (r : Fld) : (d.modLink k f).get r = d.get r := by rfl
@[simp] theorem Die.modLink_byteAt (k : Nat) (f : Link → Link) (r : Nat) : (d.modLink k f).byteAt r = d.byteAt r := by rfl
@[simp] theorem Die.modLink_tile (k : Nat) (f : Link → Link) (r : Nat) : (d.modLink k f).tile r = d.tile r := by rfl
@[simp] theorem Die.modLink_arr (k : Nat) (f : Link → Link) (r q : Nat) : (d.modLink k f).arr r q = d.arr r q := by rfl
@[simp] theorem Die.modLink_box (k : Nat) (f : Link → Link) (r : Nat) : (d.modLink k f).box r = d.box r := by rfl
@[simp] theorem Die.modLink_session (k : Nat) (f : Link → Link) (r : Nat) : (d.modLink k f).session r = d.session r := by rfl
@[simp] theorem Die.modLink_cal (k : Nat) (f : Link → Link) (r q : Nat) : (d.modLink k f).cal r q = d.cal r q := by rfl

/-! ### setBox -/

@[simp] theorem Die.setBox_regs (k : Nat) (b : Box) : (d.setBox k b).regs = d.regs := by rfl
@[simp] theorem Die.setBox_mem (k : Nat) (b : Box) : (d.setBox k b).mem = d.mem := by rfl
@[simp] theorem Die.setBox_gen0 (k : Nat) (b : Box) : (d.setBox k b).gen0 = d.gen0 := by rfl
@[simp] theorem Die.setBox_gen1 (k : Nat) (b : Box) : (d.setBox k b).gen1 = d.gen1 := by rfl
@[simp] theorem Die.setBox_freeCtr (k : Nat) (b : Box) : (d.setBox k b).freeCtr = d.freeCtr := by rfl
@[simp] theorem Die.setBox_out (k : Nat) (b : Box) : (d.setBox k b).out = d.out := by rfl
@[simp] theorem Die.setBox_clock (k : Nat) (b : Box) : (d.setBox k b).clock = d.clock := by rfl
@[simp] theorem Die.setBox_nv (k : Nat) (b : Box) : (d.setBox k b).nv = d.nv := by rfl
@[simp] theorem Die.setBox_strand (k : Nat) (b : Box) : (d.setBox k b).strand = d.strand := by rfl
@[simp] theorem Die.setBox_injectors (k : Nat) (b : Box) : (d.setBox k b).injectors = d.injectors := by rfl
@[simp] theorem Die.setBox_sec (k : Nat) (b : Box) : (d.setBox k b).sec = d.sec := by rfl
@[simp] theorem Die.setBox_mgmt (k : Nat) (b : Box) : (d.setBox k b).mgmt = d.mgmt := by rfl
@[simp] theorem Die.setBox_mesh (k : Nat) (b : Box) : (d.setBox k b).mesh = d.mesh := by rfl
@[simp] theorem Die.setBox_arrays (k : Nat) (b : Box) : (d.setBox k b).arrays = d.arrays := by rfl
@[simp] theorem Die.setBox_tiles (k : Nat) (b : Box) : (d.setBox k b).tiles = d.tiles := by rfl
@[simp] theorem Die.setBox_tide (k : Nat) (b : Box) : (d.setBox k b).tide = d.tide := by rfl
@[simp] theorem Die.setBox_relay (k : Nat) (b : Box) : (d.setBox k b).relay = d.relay := by rfl
@[simp] theorem Die.setBox_mapPend (k : Nat) (b : Box) : (d.setBox k b).mapPend = d.mapPend := by rfl
@[simp] theorem Die.setBox_upkeep (k : Nat) (b : Box) : (d.setBox k b).upkeep = d.upkeep := by rfl
@[simp] theorem Die.setBox_serve (k : Nat) (b : Box) : (d.setBox k b).serve = d.serve := by rfl
@[simp] theorem Die.setBox_tenancy (k : Nat) (b : Box) : (d.setBox k b).tenancy = d.tenancy := by rfl
@[simp] theorem Die.setBox_stack0 (k : Nat) (b : Box) : (d.setBox k b).stack0 = d.stack0 := by rfl
@[simp] theorem Die.setBox_stack1 (k : Nat) (b : Box) : (d.setBox k b).stack1 = d.stack1 := by rfl
@[simp] theorem Die.setBox_badSectors (k : Nat) (b : Box) : (d.setBox k b).badSectors = d.badSectors := by rfl
@[simp] theorem Die.setBox_errSectors (k : Nat) (b : Box) : (d.setBox k b).errSectors = d.errSectors := by rfl
@[simp] theorem Die.setBox_dma (k : Nat) (b : Box) : (d.setBox k b).dma = d.dma := by rfl
@[simp] theorem Die.setBox_dmaTurn (k : Nat) (b : Box) : (d.setBox k b).dmaTurn = d.dmaTurn := by rfl
@[simp] theorem Die.setBox_links (k : Nat) (b : Box) : (d.setBox k b).links = d.links := by rfl
@[simp] theorem Die.setBox_sliceMask (k : Nat) (b : Box) : (d.setBox k b).sliceMask = d.sliceMask := by rfl
@[simp] theorem Die.setBox_sense (k : Nat) (b : Box) : (d.setBox k b).sense = d.sense := by rfl
@[simp] theorem Die.setBox_boot (k : Nat) (b : Box) : (d.setBox k b).boot = d.boot := by rfl
@[simp] theorem Die.setBox_getW (k : Nat) (b : Box) (r : Nat) : (d.setBox k b).getW r = d.getW r := by rfl
@[simp] theorem Die.setBox_get (k : Nat) (b : Box) (r : Fld) : (d.setBox k b).get r = d.get r := by rfl
@[simp] theorem Die.setBox_byteAt (k : Nat) (b : Box) (r : Nat) : (d.setBox k b).byteAt r = d.byteAt r := by rfl
@[simp] theorem Die.setBox_tile (k : Nat) (b : Box) (r : Nat) : (d.setBox k b).tile r = d.tile r := by rfl
@[simp] theorem Die.setBox_arr (k : Nat) (b : Box) (r q : Nat) : (d.setBox k b).arr r q = d.arr r q := by rfl
@[simp] theorem Die.setBox_link (k : Nat) (b : Box) (r : Nat) : (d.setBox k b).link r = d.link r := by rfl
@[simp] theorem Die.setBox_cal (k : Nat) (b : Box) (r q : Nat) : (d.setBox k b).cal r q = d.cal r q := by rfl

/-! ### putSession -/

@[simp] theorem Die.putSession_regs (slot : Nat) (x : Session) : (d.putSession slot x).regs = d.regs := by rfl
@[simp] theorem Die.putSession_mem (slot : Nat) (x : Session) : (d.putSession slot x).mem = d.mem := by rfl
@[simp] theorem Die.putSession_gen0 (slot : Nat) (x : Session) : (d.putSession slot x).gen0 = d.gen0 := by rfl
@[simp] theorem Die.putSession_gen1 (slot : Nat) (x : Session) : (d.putSession slot x).gen1 = d.gen1 := by rfl
@[simp] theorem Die.putSession_freeCtr (slot : Nat) (x : Session) : (d.putSession slot x).freeCtr = d.freeCtr := by rfl
@[simp] theorem Die.putSession_out (slot : Nat) (x : Session) : (d.putSession slot x).out = d.out := by rfl
@[simp] theorem Die.putSession_clock (slot : Nat) (x : Session) : (d.putSession slot x).clock = d.clock := by rfl
@[simp] theorem Die.putSession_nv (slot : Nat) (x : Session) : (d.putSession slot x).nv = d.nv := by rfl
@[simp] theorem Die.putSession_strand (slot : Nat) (x : Session) : (d.putSession slot x).strand = d.strand := by rfl
@[simp] theorem Die.putSession_injectors (slot : Nat) (x : Session) : (d.putSession slot x).injectors = d.injectors := by rfl
@[simp] theorem Die.putSession_sec (slot : Nat) (x : Session) : (d.putSession slot x).sec = d.sec := by rfl
@[simp] theorem Die.putSession_mgmt (slot : Nat) (x : Session) : (d.putSession slot x).mgmt = d.mgmt := by rfl
@[simp] theorem Die.putSession_mesh (slot : Nat) (x : Session) : (d.putSession slot x).mesh = d.mesh := by rfl
@[simp] theorem Die.putSession_arrays (slot : Nat) (x : Session) : (d.putSession slot x).arrays = d.arrays := by rfl
@[simp] theorem Die.putSession_tiles (slot : Nat) (x : Session) : (d.putSession slot x).tiles = d.tiles := by rfl
@[simp] theorem Die.putSession_tide (slot : Nat) (x : Session) : (d.putSession slot x).tide = d.tide := by rfl
@[simp] theorem Die.putSession_relay (slot : Nat) (x : Session) : (d.putSession slot x).relay = d.relay := by rfl
@[simp] theorem Die.putSession_mapPend (slot : Nat) (x : Session) : (d.putSession slot x).mapPend = d.mapPend := by rfl
@[simp] theorem Die.putSession_upkeep (slot : Nat) (x : Session) : (d.putSession slot x).upkeep = d.upkeep := by rfl
@[simp] theorem Die.putSession_serve (slot : Nat) (x : Session) : (d.putSession slot x).serve = d.serve := by rfl
@[simp] theorem Die.putSession_tenancy (slot : Nat) (x : Session) : (d.putSession slot x).tenancy = d.tenancy := by rfl
@[simp] theorem Die.putSession_stack0 (slot : Nat) (x : Session) : (d.putSession slot x).stack0 = d.stack0 := by rfl
@[simp] theorem Die.putSession_stack1 (slot : Nat) (x : Session) : (d.putSession slot x).stack1 = d.stack1 := by rfl
@[simp] theorem Die.putSession_badSectors (slot : Nat) (x : Session) : (d.putSession slot x).badSectors = d.badSectors := by rfl
@[simp] theorem Die.putSession_errSectors (slot : Nat) (x : Session) : (d.putSession slot x).errSectors = d.errSectors := by rfl
@[simp] theorem Die.putSession_dma (slot : Nat) (x : Session) : (d.putSession slot x).dma = d.dma := by rfl
@[simp] theorem Die.putSession_dmaTurn (slot : Nat) (x : Session) : (d.putSession slot x).dmaTurn = d.dmaTurn := by rfl
@[simp] theorem Die.putSession_links (slot : Nat) (x : Session) : (d.putSession slot x).links = d.links := by rfl
@[simp] theorem Die.putSession_sliceMask (slot : Nat) (x : Session) : (d.putSession slot x).sliceMask = d.sliceMask := by rfl
@[simp] theorem Die.putSession_sense (slot : Nat) (x : Session) : (d.putSession slot x).sense = d.sense := by rfl
@[simp] theorem Die.putSession_boot (slot : Nat) (x : Session) : (d.putSession slot x).boot = d.boot := by rfl
@[simp] theorem Die.putSession_getW (slot : Nat) (x : Session) (r : Nat) : (d.putSession slot x).getW r = d.getW r := by rfl
@[simp] theorem Die.putSession_get (slot : Nat) (x : Session) (r : Fld) : (d.putSession slot x).get r = d.get r := by rfl
@[simp] theorem Die.putSession_byteAt (slot : Nat) (x : Session) (r : Nat) : (d.putSession slot x).byteAt r = d.byteAt r := by rfl
@[simp] theorem Die.putSession_tile (slot : Nat) (x : Session) (r : Nat) : (d.putSession slot x).tile r = d.tile r := by rfl
@[simp] theorem Die.putSession_arr (slot : Nat) (x : Session) (r q : Nat) : (d.putSession slot x).arr r q = d.arr r q := by rfl
@[simp] theorem Die.putSession_link (slot : Nat) (x : Session) (r : Nat) : (d.putSession slot x).link r = d.link r := by rfl
@[simp] theorem Die.putSession_cal (slot : Nat) (x : Session) (r q : Nat) : (d.putSession slot x).cal r q = d.cal r q := by rfl

/-! ### reply -/

@[simp] theorem Die.reply_regs (box code : Nat) (bs : List Byte) : (d.reply box code bs).regs = d.regs := by rfl
@[simp] theorem Die.reply_mem (box code : Nat) (bs : List Byte) : (d.reply box code bs).mem = d.mem := by rfl
@[simp] theorem Die.reply_gen0 (box code : Nat) (bs : List Byte) : (d.reply box code bs).gen0 = d.gen0 := by rfl
@[simp] theorem Die.reply_gen1 (box code : Nat) (bs : List Byte) : (d.reply box code bs).gen1 = d.gen1 := by rfl
@[simp] theorem Die.reply_freeCtr (box code : Nat) (bs : List Byte) : (d.reply box code bs).freeCtr = d.freeCtr := by rfl
@[simp] theorem Die.reply_out (box code : Nat) (bs : List Byte) : (d.reply box code bs).out = d.out := by rfl
@[simp] theorem Die.reply_clock (box code : Nat) (bs : List Byte) : (d.reply box code bs).clock = d.clock := by rfl
@[simp] theorem Die.reply_nv (box code : Nat) (bs : List Byte) : (d.reply box code bs).nv = d.nv := by rfl
@[simp] theorem Die.reply_strand (box code : Nat) (bs : List Byte) : (d.reply box code bs).strand = d.strand := by rfl
@[simp] theorem Die.reply_injectors (box code : Nat) (bs : List Byte) : (d.reply box code bs).injectors = d.injectors := by rfl
@[simp] theorem Die.reply_sec (box code : Nat) (bs : List Byte) : (d.reply box code bs).sec = d.sec := by rfl
@[simp] theorem Die.reply_mgmt (box code : Nat) (bs : List Byte) : (d.reply box code bs).mgmt = d.mgmt := by rfl
@[simp] theorem Die.reply_mesh (box code : Nat) (bs : List Byte) : (d.reply box code bs).mesh = d.mesh := by rfl
@[simp] theorem Die.reply_arrays (box code : Nat) (bs : List Byte) : (d.reply box code bs).arrays = d.arrays := by rfl
@[simp] theorem Die.reply_tiles (box code : Nat) (bs : List Byte) : (d.reply box code bs).tiles = d.tiles := by rfl
@[simp] theorem Die.reply_tide (box code : Nat) (bs : List Byte) : (d.reply box code bs).tide = d.tide := by rfl
@[simp] theorem Die.reply_relay (box code : Nat) (bs : List Byte) : (d.reply box code bs).relay = d.relay := by rfl
@[simp] theorem Die.reply_mapPend (box code : Nat) (bs : List Byte) : (d.reply box code bs).mapPend = d.mapPend := by rfl
@[simp] theorem Die.reply_upkeep (box code : Nat) (bs : List Byte) : (d.reply box code bs).upkeep = d.upkeep := by rfl
@[simp] theorem Die.reply_serve (box code : Nat) (bs : List Byte) : (d.reply box code bs).serve = d.serve := by rfl
@[simp] theorem Die.reply_tenancy (box code : Nat) (bs : List Byte) : (d.reply box code bs).tenancy = d.tenancy := by rfl
@[simp] theorem Die.reply_stack0 (box code : Nat) (bs : List Byte) : (d.reply box code bs).stack0 = d.stack0 := by rfl
@[simp] theorem Die.reply_stack1 (box code : Nat) (bs : List Byte) : (d.reply box code bs).stack1 = d.stack1 := by rfl
@[simp] theorem Die.reply_badSectors (box code : Nat) (bs : List Byte) : (d.reply box code bs).badSectors = d.badSectors := by rfl
@[simp] theorem Die.reply_errSectors (box code : Nat) (bs : List Byte) : (d.reply box code bs).errSectors = d.errSectors := by rfl
@[simp] theorem Die.reply_dma (box code : Nat) (bs : List Byte) : (d.reply box code bs).dma = d.dma := by rfl
@[simp] theorem Die.reply_dmaTurn (box code : Nat) (bs : List Byte) : (d.reply box code bs).dmaTurn = d.dmaTurn := by rfl
@[simp] theorem Die.reply_links (box code : Nat) (bs : List Byte) : (d.reply box code bs).links = d.links := by rfl
@[simp] theorem Die.reply_sliceMask (box code : Nat) (bs : List Byte) : (d.reply box code bs).sliceMask = d.sliceMask := by rfl
@[simp] theorem Die.reply_sense (box code : Nat) (bs : List Byte) : (d.reply box code bs).sense = d.sense := by rfl
@[simp] theorem Die.reply_boot (box code : Nat) (bs : List Byte) : (d.reply box code bs).boot = d.boot := by rfl
@[simp] theorem Die.reply_getW (box code : Nat) (bs : List Byte) (r : Nat) : (d.reply box code bs).getW r = d.getW r := by rfl
@[simp] theorem Die.reply_get (box code : Nat) (bs : List Byte) (r : Fld) : (d.reply box code bs).get r = d.get r := by rfl
@[simp] theorem Die.reply_byteAt (box code : Nat) (bs : List Byte) (r : Nat) : (d.reply box code bs).byteAt r = d.byteAt r := by rfl
@[simp] theorem Die.reply_tile (box code : Nat) (bs : List Byte) (r : Nat) : (d.reply box code bs).tile r = d.tile r := by rfl
@[simp] theorem Die.reply_arr (box code : Nat) (bs : List Byte) (r q : Nat) : (d.reply box code bs).arr r q = d.arr r q := by rfl
@[simp] theorem Die.reply_link (box code : Nat) (bs : List Byte) (r : Nat) : (d.reply box code bs).link r = d.link r := by rfl
@[simp] theorem Die.reply_cal (box code : Nat) (bs : List Byte) (r q : Nat) : (d.reply box code bs).cal r q = d.cal r q := by rfl

/-! ### replyOut -/

@[simp] theorem Die.replyOut_regs (box code : Nat) (bs os : List Byte) : (d.replyOut box code bs os).regs = d.regs := by rfl
@[simp] theorem Die.replyOut_mem (box code : Nat) (bs os : List Byte) : (d.replyOut box code bs os).mem = d.mem := by rfl
@[simp] theorem Die.replyOut_gen0 (box code : Nat) (bs os : List Byte) : (d.replyOut box code bs os).gen0 = d.gen0 := by rfl
@[simp] theorem Die.replyOut_gen1 (box code : Nat) (bs os : List Byte) : (d.replyOut box code bs os).gen1 = d.gen1 := by rfl
@[simp] theorem Die.replyOut_freeCtr (box code : Nat) (bs os : List Byte) : (d.replyOut box code bs os).freeCtr = d.freeCtr := by rfl
@[simp] theorem Die.replyOut_out (box code : Nat) (bs os : List Byte) : (d.replyOut box code bs os).out = d.out := by rfl
@[simp] theorem Die.replyOut_clock (box code : Nat) (bs os : List Byte) : (d.replyOut box code bs os).clock = d.clock := by rfl
@[simp] theorem Die.replyOut_nv (box code : Nat) (bs os : List Byte) : (d.replyOut box code bs os).nv = d.nv := by rfl
@[simp] theorem Die.replyOut_strand (box code : Nat) (bs os : List Byte) : (d.replyOut box code bs os).strand = d.strand := by rfl
@[simp] theorem Die.replyOut_injectors (box code : Nat) (bs os : List Byte) : (d.replyOut box code bs os).injectors = d.injectors := by rfl
@[simp] theorem Die.replyOut_sec (box code : Nat) (bs os : List Byte) : (d.replyOut box code bs os).sec = d.sec := by rfl
@[simp] theorem Die.replyOut_mgmt (box code : Nat) (bs os : List Byte) : (d.replyOut box code bs os).mgmt = d.mgmt := by rfl
@[simp] theorem Die.replyOut_mesh (box code : Nat) (bs os : List Byte) : (d.replyOut box code bs os).mesh = d.mesh := by rfl
@[simp] theorem Die.replyOut_arrays (box code : Nat) (bs os : List Byte) : (d.replyOut box code bs os).arrays = d.arrays := by rfl
@[simp] theorem Die.replyOut_tiles (box code : Nat) (bs os : List Byte) : (d.replyOut box code bs os).tiles = d.tiles := by rfl
@[simp] theorem Die.replyOut_tide (box code : Nat) (bs os : List Byte) : (d.replyOut box code bs os).tide = d.tide := by rfl
@[simp] theorem Die.replyOut_relay (box code : Nat) (bs os : List Byte) : (d.replyOut box code bs os).relay = d.relay := by rfl
@[simp] theorem Die.replyOut_mapPend (box code : Nat) (bs os : List Byte) : (d.replyOut box code bs os).mapPend = d.mapPend := by rfl
@[simp] theorem Die.replyOut_upkeep (box code : Nat) (bs os : List Byte) : (d.replyOut box code bs os).upkeep = d.upkeep := by rfl
@[simp] theorem Die.replyOut_serve (box code : Nat) (bs os : List Byte) : (d.replyOut box code bs os).serve = d.serve := by rfl
@[simp] theorem Die.replyOut_tenancy (box code : Nat) (bs os : List Byte) : (d.replyOut box code bs os).tenancy = d.tenancy := by rfl
@[simp] theorem Die.replyOut_stack0 (box code : Nat) (bs os : List Byte) : (d.replyOut box code bs os).stack0 = d.stack0 := by rfl
@[simp] theorem Die.replyOut_stack1 (box code : Nat) (bs os : List Byte) : (d.replyOut box code bs os).stack1 = d.stack1 := by rfl
@[simp] theorem Die.replyOut_badSectors (box code : Nat) (bs os : List Byte) : (d.replyOut box code bs os).badSectors = d.badSectors := by rfl
@[simp] theorem Die.replyOut_errSectors (box code : Nat) (bs os : List Byte) : (d.replyOut box code bs os).errSectors = d.errSectors := by rfl
@[simp] theorem Die.replyOut_dma (box code : Nat) (bs os : List Byte) : (d.replyOut box code bs os).dma = d.dma := by rfl
@[simp] theorem Die.replyOut_dmaTurn (box code : Nat) (bs os : List Byte) : (d.replyOut box code bs os).dmaTurn = d.dmaTurn := by rfl
@[simp] theorem Die.replyOut_links (box code : Nat) (bs os : List Byte) : (d.replyOut box code bs os).links = d.links := by rfl
@[simp] theorem Die.replyOut_sliceMask (box code : Nat) (bs os : List Byte) : (d.replyOut box code bs os).sliceMask = d.sliceMask := by rfl
@[simp] theorem Die.replyOut_sense (box code : Nat) (bs os : List Byte) : (d.replyOut box code bs os).sense = d.sense := by rfl
@[simp] theorem Die.replyOut_boot (box code : Nat) (bs os : List Byte) : (d.replyOut box code bs os).boot = d.boot := by rfl
@[simp] theorem Die.replyOut_getW (box code : Nat) (bs os : List Byte) (r : Nat) : (d.replyOut box code bs os).getW r = d.getW r := by rfl
@[simp] theorem Die.replyOut_get (box code : Nat) (bs os : List Byte) (r : Fld) : (d.replyOut box code bs os).get r = d.get r := by rfl
@[simp] theorem Die.replyOut_byteAt (box code : Nat) (bs os : List Byte) (r : Nat) : (d.replyOut box code bs os).byteAt r = d.byteAt r := by rfl
@[simp] theorem Die.replyOut_tile (box code : Nat) (bs os : List Byte) (r : Nat) : (d.replyOut box code bs os).tile r = d.tile r := by rfl
@[simp] theorem Die.replyOut_arr (box code : Nat) (bs os : List Byte) (r q : Nat) : (d.replyOut box code bs os).arr r q = d.arr r q := by rfl
@[simp] theorem Die.replyOut_link (box code : Nat) (bs os : List Byte) (r : Nat) : (d.replyOut box code bs os).link r = d.link r := by rfl
@[simp] theorem Die.replyOut_cal (box code : Nat) (bs os : List Byte) (r q : Nat) : (d.replyOut box code bs os).cal r q = d.cal r q := by rfl

/-! ### emit -/

@[simp] theorem Die.emit_regs (o : Out) : (d.emit o).regs = d.regs := by rfl
@[simp] theorem Die.emit_mem (o : Out) : (d.emit o).mem = d.mem := by rfl
@[simp] theorem Die.emit_gen0 (o : Out) : (d.emit o).gen0 = d.gen0 := by rfl
@[simp] theorem Die.emit_gen1 (o : Out) : (d.emit o).gen1 = d.gen1 := by rfl
@[simp] theorem Die.emit_freeCtr (o : Out) : (d.emit o).freeCtr = d.freeCtr := by rfl
@[simp] theorem Die.emit_clock (o : Out) : (d.emit o).clock = d.clock := by rfl
@[simp] theorem Die.emit_nv (o : Out) : (d.emit o).nv = d.nv := by rfl
@[simp] theorem Die.emit_strand (o : Out) : (d.emit o).strand = d.strand := by rfl
@[simp] theorem Die.emit_injectors (o : Out) : (d.emit o).injectors = d.injectors := by rfl
@[simp] theorem Die.emit_host (o : Out) : (d.emit o).host = d.host := by rfl
@[simp] theorem Die.emit_sec (o : Out) : (d.emit o).sec = d.sec := by rfl
@[simp] theorem Die.emit_mgmt (o : Out) : (d.emit o).mgmt = d.mgmt := by rfl
@[simp] theorem Die.emit_mesh (o : Out) : (d.emit o).mesh = d.mesh := by rfl
@[simp] theorem Die.emit_arrays (o : Out) : (d.emit o).arrays = d.arrays := by rfl
@[simp] theorem Die.emit_tiles (o : Out) : (d.emit o).tiles = d.tiles := by rfl
@[simp] theorem Die.emit_tide (o : Out) : (d.emit o).tide = d.tide := by rfl
@[simp] theorem Die.emit_relay (o : Out) : (d.emit o).relay = d.relay := by rfl
@[simp] theorem Die.emit_mapPend (o : Out) : (d.emit o).mapPend = d.mapPend := by rfl
@[simp] theorem Die.emit_upkeep (o : Out) : (d.emit o).upkeep = d.upkeep := by rfl
@[simp] theorem Die.emit_serve (o : Out) : (d.emit o).serve = d.serve := by rfl
@[simp] theorem Die.emit_tenancy (o : Out) : (d.emit o).tenancy = d.tenancy := by rfl
@[simp] theorem Die.emit_stack0 (o : Out) : (d.emit o).stack0 = d.stack0 := by rfl
@[simp] theorem Die.emit_stack1 (o : Out) : (d.emit o).stack1 = d.stack1 := by rfl
@[simp] theorem Die.emit_badSectors (o : Out) : (d.emit o).badSectors = d.badSectors := by rfl
@[simp] theorem Die.emit_errSectors (o : Out) : (d.emit o).errSectors = d.errSectors := by rfl
@[simp] theorem Die.emit_dma (o : Out) : (d.emit o).dma = d.dma := by rfl
@[simp] theorem Die.emit_dmaTurn (o : Out) : (d.emit o).dmaTurn = d.dmaTurn := by rfl
@[simp] theorem Die.emit_links (o : Out) : (d.emit o).links = d.links := by rfl
@[simp] theorem Die.emit_sliceMask (o : Out) : (d.emit o).sliceMask = d.sliceMask := by rfl
@[simp] theorem Die.emit_sense (o : Out) : (d.emit o).sense = d.sense := by rfl
@[simp] theorem Die.emit_boot (o : Out) : (d.emit o).boot = d.boot := by rfl
@[simp] theorem Die.emit_getW (o : Out) (r : Nat) : (d.emit o).getW r = d.getW r := by rfl
@[simp] theorem Die.emit_get (o : Out) (r : Fld) : (d.emit o).get r = d.get r := by rfl
@[simp] theorem Die.emit_byteAt (o : Out) (r : Nat) : (d.emit o).byteAt r = d.byteAt r := by rfl
@[simp] theorem Die.emit_tile (o : Out) (r : Nat) : (d.emit o).tile r = d.tile r := by rfl
@[simp] theorem Die.emit_arr (o : Out) (r q : Nat) : (d.emit o).arr r q = d.arr r q := by rfl
@[simp] theorem Die.emit_link (o : Out) (r : Nat) : (d.emit o).link r = d.link r := by rfl
@[simp] theorem Die.emit_box (o : Out) (r : Nat) : (d.emit o).box r = d.box r := by rfl
@[simp] theorem Die.emit_session (o : Out) (r : Nat) : (d.emit o).session r = d.session r := by rfl
@[simp] theorem Die.emit_cal (o : Out) (r q : Nat) : (d.emit o).cal r q = d.cal r q := by rfl

/-! ### answer -/

@[simp] theorem Die.answer_regs (ag : Agent) (c : Nat) : (d.answer ag c).regs = d.regs := by rfl
@[simp] theorem Die.answer_mem (ag : Agent) (c : Nat) : (d.answer ag c).mem = d.mem := by rfl
@[simp] theorem Die.answer_gen0 (ag : Agent) (c : Nat) : (d.answer ag c).gen0 = d.gen0 := by rfl
@[simp] theorem Die.answer_gen1 (ag : Agent) (c : Nat) : (d.answer ag c).gen1 = d.gen1 := by rfl
@[simp] theorem Die.answer_freeCtr (ag : Agent) (c : Nat) : (d.answer ag c).freeCtr = d.freeCtr := by rfl
@[simp] theorem Die.answer_clock (ag : Agent) (c : Nat) : (d.answer ag c).clock = d.clock := by rfl
@[simp] theorem Die.answer_nv (ag : Agent) (c : Nat) : (d.answer ag c).nv = d.nv := by rfl
@[simp] theorem Die.answer_strand (ag : Agent) (c : Nat) : (d.answer ag c).strand = d.strand := by rfl
@[simp] theorem Die.answer_injectors (ag : Agent) (c : Nat) : (d.answer ag c).injectors = d.injectors := by rfl
@[simp] theorem Die.answer_host (ag : Agent) (c : Nat) : (d.answer ag c).host = d.host := by rfl
@[simp] theorem Die.answer_sec (ag : Agent) (c : Nat) : (d.answer ag c).sec = d.sec := by rfl
@[simp] theorem Die.answer_mgmt (ag : Agent) (c : Nat) : (d.answer ag c).mgmt = d.mgmt := by rfl
@[simp] theorem Die.answer_mesh (ag : Agent) (c : Nat) : (d.answer ag c).mesh = d.mesh := by rfl
@[simp] theorem Die.answer_arrays (ag : Agent) (c : Nat) : (d.answer ag c).arrays = d.arrays := by rfl
@[simp] theorem Die.answer_tiles (ag : Agent) (c : Nat) : (d.answer ag c).tiles = d.tiles := by rfl
@[simp] theorem Die.answer_tide (ag : Agent) (c : Nat) : (d.answer ag c).tide = d.tide := by rfl
@[simp] theorem Die.answer_relay (ag : Agent) (c : Nat) : (d.answer ag c).relay = d.relay := by rfl
@[simp] theorem Die.answer_mapPend (ag : Agent) (c : Nat) : (d.answer ag c).mapPend = d.mapPend := by rfl
@[simp] theorem Die.answer_upkeep (ag : Agent) (c : Nat) : (d.answer ag c).upkeep = d.upkeep := by rfl
@[simp] theorem Die.answer_serve (ag : Agent) (c : Nat) : (d.answer ag c).serve = d.serve := by rfl
@[simp] theorem Die.answer_tenancy (ag : Agent) (c : Nat) : (d.answer ag c).tenancy = d.tenancy := by rfl
@[simp] theorem Die.answer_stack0 (ag : Agent) (c : Nat) : (d.answer ag c).stack0 = d.stack0 := by rfl
@[simp] theorem Die.answer_stack1 (ag : Agent) (c : Nat) : (d.answer ag c).stack1 = d.stack1 := by rfl
@[simp] theorem Die.answer_badSectors (ag : Agent) (c : Nat) : (d.answer ag c).badSectors = d.badSectors := by rfl
@[simp] theorem Die.answer_errSectors (ag : Agent) (c : Nat) : (d.answer ag c).errSectors = d.errSectors := by rfl
@[simp] theorem Die.answer_dma (ag : Agent) (c : Nat) : (d.answer ag c).dma = d.dma := by rfl
@[simp] theorem Die.answer_dmaTurn (ag : Agent) (c : Nat) : (d.answer ag c).dmaTurn = d.dmaTurn := by rfl
@[simp] theorem Die.answer_links (ag : Agent) (c : Nat) : (d.answer ag c).links = d.links := by rfl
@[simp] theorem Die.answer_sliceMask (ag : Agent) (c : Nat) : (d.answer ag c).sliceMask = d.sliceMask := by rfl
@[simp] theorem Die.answer_sense (ag : Agent) (c : Nat) : (d.answer ag c).sense = d.sense := by rfl
@[simp] theorem Die.answer_boot (ag : Agent) (c : Nat) : (d.answer ag c).boot = d.boot := by rfl
@[simp] theorem Die.answer_getW (ag : Agent) (c : Nat) (r : Nat) : (d.answer ag c).getW r = d.getW r := by rfl
@[simp] theorem Die.answer_get (ag : Agent) (c : Nat) (r : Fld) : (d.answer ag c).get r = d.get r := by rfl
@[simp] theorem Die.answer_byteAt (ag : Agent) (c : Nat) (r : Nat) : (d.answer ag c).byteAt r = d.byteAt r := by rfl
@[simp] theorem Die.answer_tile (ag : Agent) (c : Nat) (r : Nat) : (d.answer ag c).tile r = d.tile r := by rfl
@[simp] theorem Die.answer_arr (ag : Agent) (c : Nat) (r q : Nat) : (d.answer ag c).arr r q = d.arr r q := by rfl
@[simp] theorem Die.answer_link (ag : Agent) (c : Nat) (r : Nat) : (d.answer ag c).link r = d.link r := by rfl
@[simp] theorem Die.answer_box (ag : Agent) (c : Nat) (r : Nat) : (d.answer ag c).box r = d.box r := by rfl
@[simp] theorem Die.answer_session (ag : Agent) (c : Nat) (r : Nat) : (d.answer ag c).session r = d.session r := by rfl
@[simp] theorem Die.answer_cal (ag : Agent) (c : Nat) (r q : Nat) : (d.answer ag c).cal r q = d.cal r q := by rfl

/-! ### tick1 -/

@[simp] theorem Die.tick1_regs : (d.tick1 ).regs = d.regs := by rfl
@[simp] theorem Die.tick1_mem : (d.tick1 ).mem = d.mem := by rfl
@[simp] theorem Die.tick1_gen0 : (d.tick1 ).gen0 = d.gen0 := by rfl
@[simp] theorem Die.tick1_gen1 : (d.tick1 ).gen1 = d.gen1 := by rfl
@[simp] theorem Die.tick1_out : (d.tick1 ).out = d.out := by rfl
@[simp] theorem Die.tick1_clock : (d.tick1 ).clock = d.clock := by rfl
@[simp] theorem Die.tick1_nv : (d.tick1 ).nv = d.nv := by rfl
@[simp] theorem Die.tick1_strand : (d.tick1 ).strand = d.strand := by rfl
@[simp] theorem Die.tick1_injectors : (d.tick1 ).injectors = d.injectors := by rfl
@[simp] theorem Die.tick1_host : (d.tick1 ).host = d.host := by rfl
@[simp] theorem Die.tick1_sec : (d.tick1 ).sec = d.sec := by rfl
@[simp] theorem Die.tick1_mgmt : (d.tick1 ).mgmt = d.mgmt := by rfl
@[simp] theorem Die.tick1_mesh : (d.tick1 ).mesh = d.mesh := by rfl
@[simp] theorem Die.tick1_arrays : (d.tick1 ).arrays = d.arrays := by rfl
@[simp] theorem Die.tick1_tiles : (d.tick1 ).tiles = d.tiles := by rfl
@[simp] theorem Die.tick1_tide : (d.tick1 ).tide = d.tide := by rfl
@[simp] theorem Die.tick1_relay : (d.tick1 ).relay = d.relay := by rfl
@[simp] theorem Die.tick1_mapPend : (d.tick1 ).mapPend = d.mapPend := by rfl
@[simp] theorem Die.tick1_upkeep : (d.tick1 ).upkeep = d.upkeep := by rfl
@[simp] theorem Die.tick1_serve : (d.tick1 ).serve = d.serve := by rfl
@[simp] theorem Die.tick1_tenancy : (d.tick1 ).tenancy = d.tenancy := by rfl
@[simp] theorem Die.tick1_stack0 : (d.tick1 ).stack0 = d.stack0 := by rfl
@[simp] theorem Die.tick1_stack1 : (d.tick1 ).stack1 = d.stack1 := by rfl
@[simp] theorem Die.tick1_badSectors : (d.tick1 ).badSectors = d.badSectors := by rfl
@[simp] theorem Die.tick1_errSectors : (d.tick1 ).errSectors = d.errSectors := by rfl
@[simp] theorem Die.tick1_dma : (d.tick1 ).dma = d.dma := by rfl
@[simp] theorem Die.tick1_dmaTurn : (d.tick1 ).dmaTurn = d.dmaTurn := by rfl
@[simp] theorem Die.tick1_links : (d.tick1 ).links = d.links := by rfl
@[simp] theorem Die.tick1_sliceMask : (d.tick1 ).sliceMask = d.sliceMask := by rfl
@[simp] theorem Die.tick1_sense : (d.tick1 ).sense = d.sense := by rfl
@[simp] theorem Die.tick1_boot : (d.tick1 ).boot = d.boot := by rfl
@[simp] theorem Die.tick1_getW (r : Nat) : (d.tick1 ).getW r = d.getW r := by rfl
@[simp] theorem Die.tick1_get (r : Fld) : (d.tick1 ).get r = d.get r := by rfl
@[simp] theorem Die.tick1_byteAt (r : Nat) : (d.tick1 ).byteAt r = d.byteAt r := by rfl
@[simp] theorem Die.tick1_tile (r : Nat) : (d.tick1 ).tile r = d.tile r := by rfl
@[simp] theorem Die.tick1_arr (r q : Nat) : (d.tick1 ).arr r q = d.arr r q := by rfl
@[simp] theorem Die.tick1_link (r : Nat) : (d.tick1 ).link r = d.link r := by rfl
@[simp] theorem Die.tick1_box (r : Nat) : (d.tick1 ).box r = d.box r := by rfl
@[simp] theorem Die.tick1_session (r : Nat) : (d.tick1 ).session r = d.session r := by rfl
@[simp] theorem Die.tick1_cal (r q : Nat) : (d.tick1 ).cal r q = d.cal r q := by rfl

/-! ### Operations made of several writes -/

theorem Die.setBytes_eq (bs : List Byte) (a : Nat) : d.setBytes a bs = { d with mem := (d.setBytes a bs).mem } := by
  induction bs generalizing d a with
  | nil => rfl
  | cons b r ih =>
    show (d.setByte a b).setBytes (a + 1) r = _
    have h := ih (d.setByte a b) (a + 1)
    generalize hx : (d.setByte a b).setBytes (a + 1) r = x at h
    have : d.setBytes a (b :: r) = x := hx
    rw [this]
    rw [h]
    rfl

theorem Die.foldPutW_eq (l : List (Nat × Word)) (p : Nat × Word → Bool) (w : Die → Nat × Word → Word) :
    l.foldl (fun e q => if p q then e.putW q.1 (w e q) else e) d =
      { d with regs := (l.foldl (fun e q => if p q then e.putW q.1 (w e q) else e) d).regs } := by
  induction l generalizing d with
  | nil => rfl
  | cons q r ih =>
    simp only [List.foldl_cons]
    have h := ih (if p q then d.putW q.1 (w d q) else d)
    generalize hx : List.foldl _ (if p q then d.putW q.1 (w d q) else d) r = x at h ⊢
    rw [h]
    split <;> rfl

theorem Die.resetRegs_eq (c : Nat → Bool) : d.resetRegs c = { d with regs := (d.resetRegs c).regs } := by
  unfold Die.resetRegs
  have h := Die.foldPutW_eq { d with regs := d.regs.filterMap (fun p => if c p.1 then d.resetEntry p else some p) }
    d.nv.words (fun p => c p.1) (fun e p => w32 (afterReset ((regSpec p.1).getD []) (resetWord p.1).toNat
      (e.getW p.1).toNat p.2.toNat))
  dsimp only at h ⊢
  rw [h]

@[simp] theorem Die.setBytes_regs (a : Nat) (bs : List Byte) : (d.setBytes a bs).regs = d.regs := by rw [Die.setBytes_eq d bs a]
@[simp] theorem Die.setBytes_gen0 (a : Nat) (bs : List Byte) : (d.setBytes a bs).gen0 = d.gen0 := by rw [Die.setBytes_eq d bs a]
@[simp] theorem Die.setBytes_gen1 (a : Nat) (bs : List Byte) : (d.setBytes a bs).gen1 = d.gen1 := by rw [Die.setBytes_eq d bs a]
@[simp] theorem Die.setBytes_freeCtr (a : Nat) (bs : List Byte) : (d.setBytes a bs).freeCtr = d.freeCtr := by rw [Die.setBytes_eq d bs a]
@[simp] theorem Die.setBytes_out (a : Nat) (bs : List Byte) : (d.setBytes a bs).out = d.out := by rw [Die.setBytes_eq d bs a]
@[simp] theorem Die.setBytes_clock (a : Nat) (bs : List Byte) : (d.setBytes a bs).clock = d.clock := by rw [Die.setBytes_eq d bs a]
@[simp] theorem Die.setBytes_nv (a : Nat) (bs : List Byte) : (d.setBytes a bs).nv = d.nv := by rw [Die.setBytes_eq d bs a]
@[simp] theorem Die.setBytes_strand (a : Nat) (bs : List Byte) : (d.setBytes a bs).strand = d.strand := by rw [Die.setBytes_eq d bs a]
@[simp] theorem Die.setBytes_injectors (a : Nat) (bs : List Byte) : (d.setBytes a bs).injectors = d.injectors := by rw [Die.setBytes_eq d bs a]
@[simp] theorem Die.setBytes_host (a : Nat) (bs : List Byte) : (d.setBytes a bs).host = d.host := by rw [Die.setBytes_eq d bs a]
@[simp] theorem Die.setBytes_sec (a : Nat) (bs : List Byte) : (d.setBytes a bs).sec = d.sec := by rw [Die.setBytes_eq d bs a]
@[simp] theorem Die.setBytes_mgmt (a : Nat) (bs : List Byte) : (d.setBytes a bs).mgmt = d.mgmt := by rw [Die.setBytes_eq d bs a]
@[simp] theorem Die.setBytes_mesh (a : Nat) (bs : List Byte) : (d.setBytes a bs).mesh = d.mesh := by rw [Die.setBytes_eq d bs a]
@[simp] theorem Die.setBytes_arrays (a : Nat) (bs : List Byte) : (d.setBytes a bs).arrays = d.arrays := by rw [Die.setBytes_eq d bs a]
@[simp] theorem Die.setBytes_tiles (a : Nat) (bs : List Byte) : (d.setBytes a bs).tiles = d.tiles := by rw [Die.setBytes_eq d bs a]
@[simp] theorem Die.setBytes_tide (a : Nat) (bs : List Byte) : (d.setBytes a bs).tide = d.tide := by rw [Die.setBytes_eq d bs a]
@[simp] theorem Die.setBytes_relay (a : Nat) (bs : List Byte) : (d.setBytes a bs).relay = d.relay := by rw [Die.setBytes_eq d bs a]
@[simp] theorem Die.setBytes_mapPend (a : Nat) (bs : List Byte) : (d.setBytes a bs).mapPend = d.mapPend := by rw [Die.setBytes_eq d bs a]
@[simp] theorem Die.setBytes_upkeep (a : Nat) (bs : List Byte) : (d.setBytes a bs).upkeep = d.upkeep := by rw [Die.setBytes_eq d bs a]
@[simp] theorem Die.setBytes_serve (a : Nat) (bs : List Byte) : (d.setBytes a bs).serve = d.serve := by rw [Die.setBytes_eq d bs a]
@[simp] theorem Die.setBytes_tenancy (a : Nat) (bs : List Byte) : (d.setBytes a bs).tenancy = d.tenancy := by rw [Die.setBytes_eq d bs a]
@[simp] theorem Die.setBytes_stack0 (a : Nat) (bs : List Byte) : (d.setBytes a bs).stack0 = d.stack0 := by rw [Die.setBytes_eq d bs a]
@[simp] theorem Die.setBytes_stack1 (a : Nat) (bs : List Byte) : (d.setBytes a bs).stack1 = d.stack1 := by rw [Die.setBytes_eq d bs a]
@[simp] theorem Die.setBytes_badSectors (a : Nat) (bs : List Byte) : (d.setBytes a bs).badSectors = d.badSectors := by rw [Die.setBytes_eq d bs a]
@[simp] theorem Die.setBytes_errSectors (a : Nat) (bs : List Byte) : (d.setBytes a bs).errSectors = d.errSectors := by rw [Die.setBytes_eq d bs a]
@[simp] theorem Die.setBytes_dma (a : Nat) (bs : List Byte) : (d.setBytes a bs).dma = d.dma := by rw [Die.setBytes_eq d bs a]
@[simp] theorem Die.setBytes_dmaTurn (a : Nat) (bs : List Byte) : (d.setBytes a bs).dmaTurn = d.dmaTurn := by rw [Die.setBytes_eq d bs a]
@[simp] theorem Die.setBytes_links (a : Nat) (bs : List Byte) : (d.setBytes a bs).links = d.links := by rw [Die.setBytes_eq d bs a]
@[simp] theorem Die.setBytes_sliceMask (a : Nat) (bs : List Byte) : (d.setBytes a bs).sliceMask = d.sliceMask := by rw [Die.setBytes_eq d bs a]
@[simp] theorem Die.setBytes_sense (a : Nat) (bs : List Byte) : (d.setBytes a bs).sense = d.sense := by rw [Die.setBytes_eq d bs a]
@[simp] theorem Die.setBytes_boot (a : Nat) (bs : List Byte) : (d.setBytes a bs).boot = d.boot := by rw [Die.setBytes_eq d bs a]
@[simp] theorem Die.setBytes_getW (a : Nat) (bs : List Byte) (r : Nat) : (d.setBytes a bs).getW r = d.getW r := by rw [Die.setBytes_eq d bs a]; rfl
@[simp] theorem Die.setBytes_get (a : Nat) (bs : List Byte) (r : Fld) : (d.setBytes a bs).get r = d.get r := by rw [Die.setBytes_eq d bs a]; rfl
@[simp] theorem Die.setBytes_tile (a : Nat) (bs : List Byte) (r : Nat) : (d.setBytes a bs).tile r = d.tile r := by rw [Die.setBytes_eq d bs a]; rfl
@[simp] theorem Die.setBytes_box (a : Nat) (bs : List Byte) (r : Nat) : (d.setBytes a bs).box r = d.box r := by rw [Die.setBytes_eq d bs a]; rfl

@[simp] theorem Die.resetRegs_mem (c : Nat → Bool) : (d.resetRegs c).mem = d.mem := by rw [Die.resetRegs_eq d c]
@[simp] theorem Die.resetRegs_gen0 (c : Nat → Bool) : (d.resetRegs c).gen0 = d.gen0 := by rw [Die.resetRegs_eq d c]
@[simp] theorem Die.resetRegs_gen1 (c : Nat → Bool) : (d.resetRegs c).gen1 = d.gen1 := by rw [Die.resetRegs_eq d c]
@[simp] theorem Die.resetRegs_freeCtr (c : Nat → Bool) : (d.resetRegs c).freeCtr = d.freeCtr := by rw [Die.resetRegs_eq d c]
@[simp] theorem Die.resetRegs_out (c : Nat → Bool) : (d.resetRegs c).out = d.out := by rw [Die.resetRegs_eq d c]
@[simp] theorem Die.resetRegs_clock (c : Nat → Bool) : (d.resetRegs c).clock = d.clock := by rw [Die.resetRegs_eq d c]
@[simp] theorem Die.resetRegs_nv (c : Nat → Bool) : (d.resetRegs c).nv = d.nv := by rw [Die.resetRegs_eq d c]
@[simp] theorem Die.resetRegs_strand (c : Nat → Bool) : (d.resetRegs c).strand = d.strand := by rw [Die.resetRegs_eq d c]
@[simp] theorem Die.resetRegs_injectors (c : Nat → Bool) : (d.resetRegs c).injectors = d.injectors := by rw [Die.resetRegs_eq d c]
@[simp] theorem Die.resetRegs_host (c : Nat → Bool) : (d.resetRegs c).host = d.host := by rw [Die.resetRegs_eq d c]
@[simp] theorem Die.resetRegs_sec (c : Nat → Bool) : (d.resetRegs c).sec = d.sec := by rw [Die.resetRegs_eq d c]
@[simp] theorem Die.resetRegs_mgmt (c : Nat → Bool) : (d.resetRegs c).mgmt = d.mgmt := by rw [Die.resetRegs_eq d c]
@[simp] theorem Die.resetRegs_mesh (c : Nat → Bool) : (d.resetRegs c).mesh = d.mesh := by rw [Die.resetRegs_eq d c]
@[simp] theorem Die.resetRegs_arrays (c : Nat → Bool) : (d.resetRegs c).arrays = d.arrays := by rw [Die.resetRegs_eq d c]
@[simp] theorem Die.resetRegs_tiles (c : Nat → Bool) : (d.resetRegs c).tiles = d.tiles := by rw [Die.resetRegs_eq d c]
@[simp] theorem Die.resetRegs_tide (c : Nat → Bool) : (d.resetRegs c).tide = d.tide := by rw [Die.resetRegs_eq d c]
@[simp] theorem Die.resetRegs_relay (c : Nat → Bool) : (d.resetRegs c).relay = d.relay := by rw [Die.resetRegs_eq d c]
@[simp] theorem Die.resetRegs_mapPend (c : Nat → Bool) : (d.resetRegs c).mapPend = d.mapPend := by rw [Die.resetRegs_eq d c]
@[simp] theorem Die.resetRegs_upkeep (c : Nat → Bool) : (d.resetRegs c).upkeep = d.upkeep := by rw [Die.resetRegs_eq d c]
@[simp] theorem Die.resetRegs_serve (c : Nat → Bool) : (d.resetRegs c).serve = d.serve := by rw [Die.resetRegs_eq d c]
@[simp] theorem Die.resetRegs_tenancy (c : Nat → Bool) : (d.resetRegs c).tenancy = d.tenancy := by rw [Die.resetRegs_eq d c]
@[simp] theorem Die.resetRegs_stack0 (c : Nat → Bool) : (d.resetRegs c).stack0 = d.stack0 := by rw [Die.resetRegs_eq d c]
@[simp] theorem Die.resetRegs_stack1 (c : Nat → Bool) : (d.resetRegs c).stack1 = d.stack1 := by rw [Die.resetRegs_eq d c]
@[simp] theorem Die.resetRegs_badSectors (c : Nat → Bool) : (d.resetRegs c).badSectors = d.badSectors := by rw [Die.resetRegs_eq d c]
@[simp] theorem Die.resetRegs_errSectors (c : Nat → Bool) : (d.resetRegs c).errSectors = d.errSectors := by rw [Die.resetRegs_eq d c]
@[simp] theorem Die.resetRegs_dma (c : Nat → Bool) : (d.resetRegs c).dma = d.dma := by rw [Die.resetRegs_eq d c]
@[simp] theorem Die.resetRegs_dmaTurn (c : Nat → Bool) : (d.resetRegs c).dmaTurn = d.dmaTurn := by rw [Die.resetRegs_eq d c]
@[simp] theorem Die.resetRegs_links (c : Nat → Bool) : (d.resetRegs c).links = d.links := by rw [Die.resetRegs_eq d c]
@[simp] theorem Die.resetRegs_sliceMask (c : Nat → Bool) : (d.resetRegs c).sliceMask = d.sliceMask := by rw [Die.resetRegs_eq d c]
@[simp] theorem Die.resetRegs_sense (c : Nat → Bool) : (d.resetRegs c).sense = d.sense := by rw [Die.resetRegs_eq d c]
@[simp] theorem Die.resetRegs_boot (c : Nat → Bool) : (d.resetRegs c).boot = d.boot := by rw [Die.resetRegs_eq d c]
@[simp] theorem Die.resetRegs_byteAt (c : Nat → Bool) (r : Nat) : (d.resetRegs c).byteAt r = d.byteAt r := by rw [Die.resetRegs_eq d c]; rfl
@[simp] theorem Die.resetRegs_tile (c : Nat → Bool) (r : Nat) : (d.resetRegs c).tile r = d.tile r := by rw [Die.resetRegs_eq d c]; rfl
@[simp] theorem Die.resetRegs_box (c : Nat → Bool) (r : Nat) : (d.resetRegs c).box r = d.box r := by rw [Die.resetRegs_eq d c]; rfl

/-! ### Reading back -/

@[simp] theorem Die.raise_eq (f : Fld) : d.raise f = d.put f 1 := by rfl
@[simp] theorem Die.clear_eq (f : Fld) : d.clear f = d.put f 0 := by rfl
@[simp] theorem Die.tile_setTile_same (t : Nat) (x : Tile1) : (d.setTile t x).tile t = x := by
  simp [Die.tile, Die.setTile]
theorem Die.tile_setTile_ne {t u : Nat} (x : Tile1) (h : u ≠ t) : (d.setTile t x).tile u = d.tile u := by
  simp [Die.tile, Die.setTile, amGet_amSet_ne _ _ _ _ h]
@[simp] theorem Die.tile_modTile_same (t : Nat) (f : Tile1 → Tile1) : (d.modTile t f).tile t = f (d.tile t) := by
  simp [Die.modTile]
theorem Die.tile_modTile_ne {t u : Nat} (f : Tile1 → Tile1) (h : u ≠ t) : (d.modTile t f).tile u = d.tile u :=
  Die.tile_setTile_ne d _ h
@[simp] theorem Die.arr_setArr_same (t a : Nat) (x : Array1) : (d.setArr t a x).arr t a = x := by
  simp [Die.arr, Die.setArr]
theorem Die.arr_setArr_ne {t a u b : Nat} (x : Array1) (h : arrIx u b ≠ arrIx t a) :
    (d.setArr t a x).arr u b = d.arr u b := by
  simp [Die.arr, Die.setArr, amGet_amSet_ne _ _ _ _ h]
@[simp] theorem Die.arr_modArr_same (t a : Nat) (f : Array1 → Array1) : (d.modArr t a f).arr t a = f (d.arr t a) := by
  simp [Die.modArr]
@[simp] theorem Die.cal_modCal_same (t a : Nat) (f : ArrCal → ArrCal) : (d.modCal t a f).cal t a = f (d.cal t a) := by
  simp [Die.cal, Die.modCal]
@[simp] theorem Die.link_modLink_same (k : Nat) (f : Link → Link) : (d.modLink k f).link k = f (d.link k) := by
  simp [Die.link, Die.modLink]
theorem Die.link_modLink_ne {k j : Nat} (f : Link → Link) (h : j ≠ k) : (d.modLink k f).link j = d.link j := by
  simp [Die.link, Die.modLink, amGet_amSet_ne _ _ _ _ h]
@[simp] theorem Die.box_setBox_same (k : Nat) (b : Box) : (d.setBox k b).box k = b := by
  simp [Die.box, Die.setBox]
theorem Die.box_setBox_ne {k j : Nat} (b : Box) (h : j ≠ k) : (d.setBox k b).box j = d.box j := by
  simp [Die.box, Die.setBox, amGet_amSet_ne _ _ _ _ h]
@[simp] theorem Die.box_reply_same (k c : Nat) (bs : List Byte) :
    (d.reply k c bs).box k = { d.box k with result := some (c, bs) } := Die.box_setBox_same d k _
@[simp] theorem Die.emit_out (o : Out) : (d.emit o).out = o :: d.out := rfl
@[simp] theorem Die.answer_out (ag : Agent) (c : Nat) : (d.answer ag c).out = .status ag c :: d.out := rfl
@[simp] theorem Die.tick1_freeCtr : d.tick1.freeCtr = d.freeCtr + 1 := rfl

theorem look_keep_same {α : Type} (m : List (Nat × α)) (k : Nat) (v : α) : look (keep m k v) k = some v := by
  unfold keep
  induction m with
  | nil => simp [amErase, amInsert, look]
  | cons p r ih =>
    by_cases hk : p.1 = k
    · simpa [amErase, hk] using ih
    · by_cases hl : k < p.1 <;> simp [amErase, amInsert, look, hk, hl, ih]

@[simp] theorem Die.session_putSession_same (slot : Nat) (x : Session) : (d.putSession slot x).session slot = some x :=
  look_keep_same _ _ _

end Sys2Proof.Machine
end

