-- ==== Sys2Proof/Laws/Ops.lean ====
section
/-! SUPPORT. What the shared operations can do: how a command answers, and what events, alerts, records and register writes leave
alone. -/
namespace Sys2Proof.Machine

/-! ### Commands -/

/-- A command whose conditions hold has its effect. -/
theorem dieCmd_ok {ok : Die → Bool} {f : Die → Die} {s : State} (h : ok s.die = true) :
    dieCmd ok f s = .next { s with die := f s.die } := by simp [dieCmd, h]

/-- A command whose conditions do not hold leaves the state as it is (log entry 20). -/
theorem dieCmd_not {ok : Die → Bool} {f : Die → Die} {s : State} (h : ok s.die = false) : dieCmd ok f s = .next s := by
  simp [dieCmd, h]

/-- A command to the die always answers. -/
theorem dieCmd_answers (ok : Die → Bool) (f : Die → Die) (s : State) :
    ∃ t : State, dieCmd ok f s = .next t ∧ t.pending = s.pending ∧ t.carrier = s.carrier := by
  unfold dieCmd
  split <;> exact ⟨_, rfl, rfl, rfl⟩

theorem mainCmd_answers (ok : Die → Bool) (f : Die → Die) (s : State) :
    ∃ t : State, mainCmd ok f s = .next t ∧ t.pending = s.pending ∧ t.carrier = s.carrier := dieCmd_answers _ _ _

theorem fwCmd_answers (box : Nat) (f : Die → Die) (s : State) :
    ∃ t : State, fwCmd box f s = .next t ∧ t.pending = s.pending ∧ t.carrier = s.carrier := mainCmd_answers _ _ _

/-- Everything a command to the die can do. -/
theorem dieCmd_next {ok : Die → Bool} {f : Die → Die} {s t : State} (h : dieCmd ok f s = .next t) :
    t.pending = s.pending ∧ t.carrier = s.carrier := by
  unfold dieCmd at h
  split at h <;> cases h <;> exact ⟨rfl, rfl⟩

theorem mainCmd_ok {ok : Die → Bool} {f : Die → Die} {s : State} (hl : s.die.live = true) (h : ok s.die = true) :
    mainCmd ok f s = .next { s with die := f s.die } := dieCmd_ok (by simp [hl, h])

theorem mainCmd_next {ok : Die → Bool} {f : Die → Die} {s t : State} (h : mainCmd ok f s = .next t) :
    t.pending = s.pending ∧ t.carrier = s.carrier := by
  unfold mainCmd at h
  exact dieCmd_next h

/-- A mailbox command runs in a box that is ready for it. -/
theorem fwCmd_ok {box : Nat} {f : Die → Die} {s : State} (h : s.die.boxReady box = true) :
    fwCmd box f s = .next { s with die := f s.die } := by
  simp only [Die.boxReady, Bool.and_eq_true, Bool.not_eq_true'] at h
  obtain ⟨⟨⟨hl, hf⟩, hb⟩, hp⟩ := h
  unfold fwCmd
  rw [mainCmd_ok hl (by simp [hf, hb])]
  simp [hp]

theorem fwCmd_next {box : Nat} {f : Die → Die} {s t : State} (h : fwCmd box f s = .next t) :
    t.pending = s.pending ∧ t.carrier = s.carrier := by
  unfold fwCmd mainCmd at h
  exact dieCmd_next h

theorem carCmd_ok {ok : State → Bool} {f : State → State} {s : State} (h : ok s = true) :
    carCmd ok f s = .next (f s) := by simp [carCmd, h]

/-- Everything a command to the carrier can do. -/
theorem carCmd_next {ok : State → Bool} {f : State → State} {s t : State} (h : carCmd ok f s = .next t) :
    (ok s = true ∧ t = f s) ∨ (ok s = false ∧ t = s) := by
  unfold carCmd at h
  split at h <;> rename_i hk <;> cases h
  · exact .inl ⟨hk, rfl⟩
  · exact .inr ⟨by simpa using hk, rfl⟩

theorem boxReady_busy {d : Die} {box : Nat} (h : d.boxReady box = true) : (d.box box).state = .busy := by
  simp only [Die.boxReady, Die.boxRuns, Bool.and_eq_true, beq_iff_eq] at h
  exact h.1.2.1.2

/-- A reply leaves its result in the box. -/
theorem replied_reply {d : Die} {box : Nat} (h : d.boxReady box = true) (code : Nat) (bs : List Byte) :
    Replied box code bs (d.reply box code bs) := by
  unfold Replied
  rw [Die.box_reply_same]
  exact ⟨rfl, boxReady_busy h⟩

/-! ### Registers alone -/

theorem OnlyRegs.refl (rs : List Nat) (d : Die) : OnlyRegs rs d d := fun _ _ => rfl

theorem OnlyRegs.trans {rs : List Nat} {d e f : Die} (h : OnlyRegs rs d e) (k : OnlyRegs rs e f) : OnlyRegs rs d f :=
  fun a ha => (k a ha).trans (h a ha)

theorem OnlyRegs.mono {rs ss : List Nat} {d e : Die} (h : OnlyRegs rs d e) (k : ∀ a ∈ rs, a ∈ ss) : OnlyRegs ss d e :=
  fun a ha => h a (fun hr => ha (k a hr))

theorem onlyRegs_putW {rs : List Nat} (d : Die) {a : Nat} (w : Word) (h : a ∈ rs) : OnlyRegs rs d (d.putW a w) :=
  fun _ hb => Die.getW_putW_ne d w (fun e => hb (e ▸ h))

theorem onlyRegs_put {rs : List Nat} (d : Die) {f : Fld} (v : Nat) (h : f.addr ∈ rs) : OnlyRegs rs d (d.put f v) :=
  onlyRegs_putW d _ h

theorem onlyRegs_bump {rs : List Nat} (d : Die) {f : Fld} (v : Nat) (h : f.addr ∈ rs) : OnlyRegs rs d (d.bump f v) :=
  onlyRegs_putW d _ h

theorem otherBits_put (d : Die) (f : Fld) (v : Nat) (h : f.lo + f.width ≤ 32) : OtherBits f d (d.put f v) :=
  fun g ha hg => Die.get_put_field d f g v h ha hg

theorem SameMem.refl (d : Die) : SameMem d d := fun _ => rfl

/-! ### What records, events and answers leave alone -/

theorem LogsOnly.refl (d : Die) : LogsOnly d d := rfl

theorem LogsOnly.trans {d e f : Die} (h : LogsOnly d e) (k : LogsOnly e f) : LogsOnly d f := by
  cases d; cases e; cases f
  simp only [LogsOnly, Die.mk.injEq] at *
  simp_all

theorem LogsOnly.sameMem {d e : Die} (h : LogsOnly d e) : SameMem d e := by
  intro a
  rw [h]
  rfl

theorem logsOnly_putW (d : Die) (a : Nat) (w : Word) : LogsOnly d (d.putW a w) := rfl
theorem logsOnly_put (d : Die) (f : Fld) (v : Nat) : LogsOnly d (d.put f v) := rfl
theorem logsOnly_bump (d : Die) (f : Fld) (v : Nat) : LogsOnly d (d.bump f v) := rfl
theorem logsOnly_putSession (d : Die) (n : Nat) (x : Session) : LogsOnly d (d.putSession n x) := rfl
theorem logsOnly_setBox (d : Die) (n : Nat) (x : Box) : LogsOnly d (d.setBox n x) := rfl
theorem logsOnly_emit (d : Die) (o : Out) : LogsOnly d (d.emit o) := rfl
theorem logsOnly_answer (d : Die) (ag : Agent) (c : Nat) : LogsOnly d (d.answer ag c) := rfl
theorem logsOnly_reply (d : Die) (k c : Nat) (bs : List Byte) : LogsOnly d (d.reply k c bs) := rfl

/-! ### Events -/

/-- An event moves the sessions' queues and HP_EVT_LOST. -/
theorem Die.event_logsOnly (d : Die) (slot kind : Nat) (body : List Byte) : LogsOnly d (d.event slot kind body) := by
  unfold Die.event
  cases d.session slot with
  | none => exact logsOnly_bump d _ _
  | some x =>
    dsimp only
    split
    · exact logsOnly_putSession d _ _
    · exact (logsOnly_putSession d _ _).trans (logsOnly_bump _ _ _)

theorem Die.event_onlyRegs (d : Die) (slot kind : Nat) (body : List Byte) :
    OnlyRegs [Reg.HP_EVT_LOST] d (d.event slot kind body) := by
  unfold Die.event
  cases d.session slot with
  | none => exact onlyRegs_bump d 1 (by simp)
  | some x =>
    dsimp only
    split
    · exact fun _ _ => rfl
    · exact (OnlyRegs.refl _ d).trans (onlyRegs_bump (d.putSession slot _) 1 (by simp))

theorem Die.eventFold_logsOnly (l : List Nat) (kind : Nat) (body : List Byte) (d : Die) :
    LogsOnly d (l.foldl (fun e s => e.event s kind body) d) := by
  induction l generalizing d with
  | nil => exact LogsOnly.refl _
  | cons x r ih => exact (Die.event_logsOnly d x kind body).trans (ih _)

theorem Die.eventFold_onlyRegs (l : List Nat) (kind : Nat) (body : List Byte) (d : Die) :
    OnlyRegs [Reg.HP_EVT_LOST] d (l.foldl (fun e s => e.event s kind body) d) := by
  induction l generalizing d with
  | nil => exact OnlyRegs.refl _ _
  | cons x r ih => exact (Die.event_onlyRegs d x kind body).trans (ih _)

theorem Die.eventAll_logsOnly (d : Die) (kind : Nat) (body : List Byte) : LogsOnly d (d.eventAll kind body) := by
  unfold Die.eventAll
  split
  · exact logsOnly_bump d _ _
  · exact Die.eventFold_logsOnly _ _ _ _

theorem Die.eventAll_onlyRegs (d : Die) (kind : Nat) (body : List Byte) :
    OnlyRegs [Reg.HP_EVT_LOST] d (d.eventAll kind body) := by
  unfold Die.eventAll
  split
  · exact onlyRegs_bump d 1 (by simp)
  · exact Die.eventFold_onlyRegs _ _ _ _

theorem Die.eventAll_getW_ne (d : Die) (kind : Nat) (body : List Byte) {a : Nat} (h : a ≠ Reg.HP_EVT_LOST) :
    (d.eventAll kind body).getW a = d.getW a := Die.eventAll_onlyRegs d kind body a (by simpa using h)

/-! ### Alerts -/

theorem Die.alert_logsOnly (d : Die) (b : Nat) : LogsOnly d (d.alert b) := by
  unfold Die.alert
  dsimp only
  split
  · exact logsOnly_put _ _ _
  · split
    · exact ((logsOnly_put _ _ _).trans (logsOnly_emit _ _)).trans (Die.eventAll_logsOnly _ _ _)
    · exact (logsOnly_put _ _ _).trans (Die.eventAll_logsOnly _ _ _)

theorem Die.alert_onlyRegs (d : Die) (b : Nat) : OnlyRegs [Reg.STL_ALERT, Reg.HP_EVT_LOST] d (d.alert b) := by
  have h1 : OnlyRegs [Reg.STL_ALERT, Reg.HP_EVT_LOST] d
      (d.put Reg.STL_ALERT_BITS (setBits (d.get Reg.STL_ALERT_BITS) b 1 1)) := onlyRegs_put d _ (by simp [Reg.STL_ALERT_BITS])
  unfold Die.alert
  dsimp only
  split
  · exact h1
  · refine h1.trans ?_
    split
    · exact fun a ha => (Die.eventAll_onlyRegs _ _ _ a (fun hm => ha (by simp at hm; simp [hm])))
    · exact fun a ha => (Die.eventAll_onlyRegs _ _ _ a (fun hm => ha (by simp at hm; simp [hm])))

/-- The bit that an alert latches stands. -/
theorem Die.alert_bits (d : Die) (b : Nat) :
    (d.alert b).get Reg.STL_ALERT_BITS = setBits (d.get Reg.STL_ALERT_BITS) b 1 1 % 2 ^ 9 := by
  have hp := Die.get_put_same d Reg.STL_ALERT_BITS (setBits (d.get Reg.STL_ALERT_BITS) b 1 1) (by decide)
  unfold Die.alert
  dsimp only
  split
  · exact hp
  · unfold Die.get at hp ⊢
    rw [Die.eventAll_getW_ne _ _ _ (by decide)]
    split <;> exact hp

/-! ### Records -/

/-- A record moves the strandline, its registers and, where it is lost, the alert. -/
theorem Die.recordT_logsOnly (d : Die) (src ev dom sub : Nat) (det : List Nat) (acc : Bool) :
    LogsOnly d (d.recordT src ev dom sub det acc) := by
  unfold Die.recordT
  split
  · rfl
  · dsimp only
    generalize hx : ({ d with strand := { d.strand with dropped := d.strand.dropped + 1 } } : Die) = x
    have h0 : LogsOnly d x := by subst hx; rfl
    exact ((h0.trans (logsOnly_bump _ _ _)).trans (logsOnly_put _ _ _)).trans (Die.alert_logsOnly _ _)

theorem Die.recordT_onlyRegs (d : Die) (src ev dom sub : Nat) (det : List Nat) (acc : Bool) :
    OnlyRegs logRegs d (d.recordT src ev dom sub det acc) := by
  unfold Die.recordT
  split
  · exact fun a ha => Die.getW_putW_ne _ _ (fun e => ha (by simp [logRegs, e]))
  · dsimp only
    generalize hx : ({ d with strand := { d.strand with dropped := d.strand.dropped + 1 } } : Die) = x
    have h0 : OnlyRegs logRegs d x := by subst hx; exact fun _ _ => rfl
    refine OnlyRegs.trans (h0.trans ?_) (OnlyRegs.mono (Die.alert_onlyRegs _ _) (by simp [logRegs]))
    exact (onlyRegs_bump x 1 (by simp [logRegs, Reg.STL_LOST_COUNT])).trans
      (onlyRegs_put _ _ (by simp [logRegs, Reg.STL_STATUS_QFULL]))

theorem Die.event_strand (d : Die) (slot kind : Nat) (body : List Byte) : (d.event slot kind body).strand = d.strand := by
  unfold Die.event
  cases d.session slot with
  | none => simp [Die.bump]
  | some x => dsimp only; split <;> simp [Die.bump]

theorem Die.eventFold_strand (l : List Nat) (kind : Nat) (body : List Byte) (d : Die) :
    (l.foldl (fun e s => e.event s kind body) d).strand = d.strand := by
  induction l generalizing d with
  | nil => rfl
  | cons x r ih => rw [List.foldl_cons, ih, Die.event_strand]

theorem Die.eventAll_strand (d : Die) (kind : Nat) (body : List Byte) : (d.eventAll kind body).strand = d.strand := by
  unfold Die.eventAll
  split
  · simp [Die.bump]
  · exact Die.eventFold_strand _ _ _ _

theorem Die.alert_strand (d : Die) (b : Nat) : (d.alert b).strand = d.strand := by
  unfold Die.alert
  dsimp only
  split
  · simp
  · rw [Die.eventAll_strand]
    split <;> simp

/-- A record sent stands in the queue as it was sent, or is dropped from a full one. -/
theorem Die.recordT_recorded (d : Die) (src ev dom sub : Nat) (det : List Nat) (acc : Bool) :
    Recorded src ev dom sub d (d.recordT src ev dom sub det acc) := by
  by_cases h : d.strand.queue.length < 512
  · simp only [Recorded, Die.recordT, if_pos h]
    exact ⟨⟨d.mkRec src ev dom sub det acc, by simp [Die.accept], rfl, rfl, rfl, rfl, rfl, rfl⟩, by simp [Die.accept]⟩
  · simp only [Recorded, Die.recordT, if_neg h, Die.alert_strand]
    simp [Die.bump]

theorem Die.record_logsOnly (d : Die) (src ev dom sub : Nat) (det : List Nat) :
    LogsOnly d (d.record src ev dom sub det) := Die.recordT_logsOnly d src ev dom sub det false

theorem Die.record_onlyRegs (d : Die) (src ev dom sub : Nat) (det : List Nat) :
    OnlyRegs logRegs d (d.record src ev dom sub det) := Die.recordT_onlyRegs d src ev dom sub det false

theorem Die.record_recorded (d : Die) (src ev dom sub : Nat) (det : List Nat) :
    Recorded src ev dom sub d (d.record src ev dom sub det) := Die.recordT_recorded d src ev dom sub det false

theorem Die.recordA_logsOnly (d : Die) (src ev dom sub : Nat) (ag : Agent) (a w st : Nat) :
    LogsOnly d (d.recordA src ev dom sub ag a w st) := Die.record_logsOnly _ _ _ _ _ _

theorem Die.recordA_onlyRegs (d : Die) (src ev dom sub : Nat) (ag : Agent) (a w st : Nat) :
    OnlyRegs logRegs d (d.recordA src ev dom sub ag a w st) := Die.record_onlyRegs _ _ _ _ _ _

theorem Die.recordA_recorded (d : Die) (src ev dom sub : Nat) (ag : Agent) (a w st : Nat) :
    Recorded src ev dom sub d (d.recordA src ev dom sub ag a w st) := Die.record_recorded _ _ _ _ _ _

/-- The records of refused fields move what records move. -/
theorem Die.recordRefused_logsOnly (d : Die) (ag : Agent) (a w dom : Nat) (fs : List FieldSpec) :
    LogsOnly d (d.recordRefused ag a w dom fs) := by
  unfold Die.recordRefused
  induction fs generalizing d with
  | nil => exact LogsOnly.refl _
  | cons f r ih => exact (Die.record_logsOnly d _ _ _ _ _).trans (ih _)

theorem Die.recordRefused_onlyRegs (d : Die) (ag : Agent) (a w dom : Nat) (fs : List FieldSpec) :
    OnlyRegs logRegs d (d.recordRefused ag a w dom fs) := by
  unfold Die.recordRefused
  induction fs generalizing d with
  | nil => exact OnlyRegs.refl _ _
  | cons f r ih => exact (Die.record_onlyRegs d _ _ _ _ _).trans (ih _)

/-- A plain register write moves its register and what records move. -/
theorem Die.plainWrite_onlyRegs (d : Die) (ag : Agent) (a w dom : Nat) :
    OnlyRegs (a :: logRegs) d (d.plainWrite ag a w dom) := by
  have h1 := onlyRegs_putW (rs := a :: logRegs) d (a := a)
    (w32 (writeFields ((regSpec a).getD []) (d.getW a).toNat w)) (by simp)
  refine h1.trans ?_
  exact (OnlyRegs.mono (Die.recordRefused_onlyRegs _ ag a w dom (refusedFields ((regSpec a).getD []) w))
    (fun b hb => List.mem_cons_of_mem _ hb))

theorem Die.plainWrite_logsOnly (d : Die) (ag : Agent) (a w dom : Nat) : LogsOnly d (d.plainWrite ag a w dom) :=
  ((logsOnly_putW d _ _).trans (Die.recordRefused_logsOnly _ _ _ _ _ _)).trans (logsOnly_answer _ _ _)

end Sys2Proof.Machine
end

