-- ==== Sys2Proof/Laws/Power.lean ====
section
/-! SUPPORT. What the operations on the carrier leave alone, and that each keeps the carrier sound. -/
namespace Sys2Proof.Machine

variable (s : State)

@[simp] theorem State.dropDie_pending : s.dropDie.pending = s.pending := by unfold State.dropDie; split <;> rfl
@[simp] theorem State.dropDie_carrier : s.dropDie.carrier = s.carrier := by unfold State.dropDie; split <;> rfl
@[simp] theorem State.shutDown_pending (b : Bool) : (s.shutDown b).pending = s.pending := by simp [State.shutDown]
@[simp] theorem State.shutDown_carrier (b : Bool) :
    (s.shutDown b).carrier = { s.carrier with seq := .shuttingDown, toFault := b } := by
  simp [State.shutDown]
@[simp] theorem State.shutDown_die (b : Bool) : (s.shutDown b).die = s.dropDie.die := by simp [State.shutDown]
@[simp] theorem State.enterFault_pending : s.enterFault.pending = s.pending := by rfl
@[simp] theorem State.enterFault_carrier : s.enterFault.carrier = { s.carrier with seq := .fault } := by rfl

@[simp] theorem State.offReq_pending : s.offReq.pending = s.pending := by
  unfold State.offReq; dsimp only; repeat' split
  all_goals simp
@[simp] theorem State.seqStore_pending (w : Nat) : (s.seqStore w).pending = s.pending := by
  unfold State.seqStore; dsimp only; repeat' split
  all_goals simp
@[simp] theorem State.seqWrite_pending (ag : Agent) (w : Nat) : (s.seqWrite ag w).pending = s.pending := by
  simp [State.seqWrite]
@[simp] theorem State.inputOut_pending (h : Bool) : (s.inputOut h).pending = s.pending := by
  unfold State.inputOut; dsimp only; split <;> simp
@[simp] theorem State.railGood_pending (r : Nat) : (s.railGood r).pending = s.pending := by
  unfold State.railGood; dsimp only; split <;> simp
@[simp] theorem State.restFault_pending : s.restFault.pending = s.pending := by
  unfold State.restFault; dsimp only; split <;> simp
@[simp] theorem State.lidFault_pending : s.lidFault.pending = s.pending := by
  unfold State.lidFault; dsimp only; split <;> simp
@[simp] theorem State.railsOff_pending : s.railsOff.pending = s.pending := by
  unfold State.railsOff; dsimp only; repeat' split
  all_goals simp
@[simp] theorem State.modResetAssert_pending : s.modResetAssert.pending = s.pending := by
  unfold State.modResetAssert; dsimp only; split <;> simp

/-! ### The carrier stays sound -/

theorem carrier_wf_shutDown (b : Bool) (h : s.carrier.faultWf = true) (h2 : s.carrier.railsWf = true)
    (h3 : s.carrier.debounced = false ∨ s.carrier.inRange = true) : (s.shutDown b).carrier.wf = true := by
  simp only [State.shutDown_carrier, Carrier.wf, Carrier.inputWf, Carrier.railsWf, Carrier.holdWf, Carrier.running]
  have hf : Carrier.faultWf { s.carrier with seq := .shuttingDown, toFault := b } = true := h
  simp only [hf]
  have hr : Carrier.inRange { s.carrier with seq := .shuttingDown, toFault := b } = s.carrier.inRange := rfl
  simp only [hr]
  simp only [Carrier.railsWf, Bool.and_eq_true, decide_eq_true_eq] at h2
  cases hs : s.carrier.starting with
  | none => rcases h3 with h3 | h3 <;> simp [h2.1.1.1, h3]
  | some r =>
    have h4 := h2.1.2
    simp only [hs, Bool.and_eq_true, beq_iff_eq, decide_eq_true_eq] at h4
    rcases h3 with h3 | h3 <;> simp [h2.1.1.1, h3, h4.1.2, h4.1.2 ▸ h4.2]

theorem carrier_faultWf_latch (c : Carrier) (k r : Nat) (h : c.faultWf = true)
    (hk : 1 ≤ k ∧ k ≤ 5 ∧ r ≤ 9 ∧ (r = 0 ∨ k ≤ 3)) : (c.latch k r).faultWf = true := by
  obtain ⟨h1, h2, h3, h4⟩ := hk
  unfold Carrier.latch
  split
  · exact h
  · simp only [Carrier.faultWf, Bool.and_eq_true, Bool.or_eq_true, decide_eq_true_eq, beq_iff_eq]
    refine ⟨⟨⟨by simp [h1, h2], by omega⟩, h3⟩, ?_⟩
    rcases h4 with h4 | h4
    · exact .inl h4
    · exact .inr ⟨h1, h4⟩

theorem carrier_faultWf_note (c : Carrier) (k : Nat) (h : c.faultWf = true) (hk : k = 6 ∨ k = 7) :
    (c.note k).faultWf = true := by
  unfold Carrier.note
  split
  · exact h
  · rename_i hl
    rcases hk with rfl | rfl <;> simp [Carrier.faultWf, hl]

theorem carrier_faultWf_clear (c : Carrier) : c.clearLatched.faultWf = true := by
  simp [Carrier.clearLatched, Carrier.faultWf]

/-- The parts of the invariant. -/
theorem carrier_wf_iff (c : Carrier) :
    c.wf = true ↔ c.faultWf = true ∧ c.inputWf = true ∧ c.railsWf = true ∧ c.holdWf = true := by
  simp [Carrier.wf, and_assoc]

theorem carrier_railsUp_le {c : Carrier} (h : c.railsWf = true) : c.railsUp ≤ 10 := by
  simp only [Carrier.railsWf, Bool.and_eq_true, decide_eq_true_eq] at h
  exact h.1.1.1

theorem carrier_inRange {c : Carrier} (h : c.inputWf = true) : c.debounced = false ∨ c.inRange = true := by
  simp only [Carrier.inputWf, Bool.and_eq_true, Bool.or_eq_true, Bool.not_eq_true'] at h
  exact h.1

end Sys2Proof.Machine
end

