-- ==== Sys2Proof/WellFormed.lean ====
section
/-! DEFINITION. Which commands are well formed: every operand that names a unit, a register word or a place names one the
module has (R3, R5, R57, R84, R169, R184, R377, R383, R401, R432, R438, R440). The machine answers an ill-formed command without
effect or with the answer its rule gives; nothing rests on this check. -/
namespace Sys2Proof

/-- A tile of the grid (R3). -/
def isTile (n : Nat) : Bool := decide (n < 64)
/-- A thread of a tile. -/
def isThread (n : Nat) : Bool := decide (n < 64)
/-- A physical array of a tile: 256 in service and 16 spare. -/
def isArr (n : Nat) : Bool := decide (n < 272)
/-- A logical array number. -/
def isLogical (n : Nat) : Bool := decide (n < 256)
/-- A Swell link. -/
def isLink (n : Nat) : Bool := decide (n < 6)
/-- A mailbox pair (R440). -/
def isBox (n : Nat) : Bool := decide (n < 64)
/-- A session slot (R432). -/
def isSlot (n : Nat) : Bool := decide (n < 8)
/-- A 32-bit register word (R9). -/
def isWord (n : Nat) : Bool := decide (n < 2 ^ 32)
/-- A 16-bit value. -/
def isHalf (n : Nat) : Bool := decide (n < 2 ^ 16)
/-- A byte. -/
def isByte (n : Nat) : Bool := decide (n < 256)
/-- A DRAM stack (R383). -/
def isStack (n : Nat) : Bool := decide (n < 2)
/-- A region number of a tile (R184). -/
def isRegion (n : Nat) : Bool := decide (n < 255)
/-- A channel of a DMA engine (R401). -/
def isChannel (n : Nat) : Bool := decide (n < 32)
/-- A spare column of an array (R84). -/
def isSpare (n : Nat) : Bool := decide (n < 8)
/-- A word of an array's offset residuals (R169). -/
def isOffrWord (n : Nat) : Bool := decide (n < 66)
/-- A fault injector (R576). -/
def isInj (n : Nat) : Bool := decide (n < 6)
/-- A converter of the power monitor (R476). -/
def isConv (n : Nat) : Bool := decide (n < 2)
/-- A rail of the carrier, in the order of their sequence. -/
def isRail (n : Nat) : Bool := decide (n < 10)
/-- An Ethernet priority. -/
def isPrio (n : Nat) : Bool := decide (n < 8)
/-- A dynamic address of the management bus: 7 bits (R44). -/
def isDyn (n : Nat) : Bool := decide (n < 128)
/-- A context number: 4 bytes (R331). -/
def isCtx (n : Nat) : Bool := decide (n < 2 ^ 32)
/-- A tenant (R377). -/
def isTenant (n : Nat) : Bool := decide (n < 4096)
/-- A berth of a step; 0x7FF names none (R318). -/
def isBerth (n : Nat) : Bool := decide (n < 0x7FF)
/-- A device address: 48 bits in 64 (R5). -/
def isAddr (n : Nat) : Bool := decide (n < 2 ^ 64)
/-- An edge router (R57). -/
def isRouter (n : Nat) : Bool := decide (n < 72)
/-- A thread class word. -/
def isClass (n : Nat) : Bool := decide (n < 2 ^ 32)
/-- A virtual channel: 0 to 2 (R62). -/
def isVc (n : Nat) : Bool := decide (n < 3)
/-- A bulk window: 0 to 3 (R438). -/
def isWindow (n : Nat) : Bool := decide (n < 4)
/-- A bulk window, or 0xFF for any free one (R438). -/
def isWindowAsk (n : Nat) : Bool := decide (n < 4) || n == 255
/-- A converter's raw code: 12 bits (R476). -/
def isCode (n : Nat) : Bool := decide (n < 4096)
/-- An offset in a tile's SRAM. -/
def isOffset (n : Nat) : Bool := decide (n < 2 ^ 32)
/-- The bytes of a mailbox request: at most 256 (R440). -/
def isPayload (l : List Byte) : Bool := decide (l.length ≤ 256)
/-- The nonce of an attestation: 32 bytes (R562). -/
def isNonce (l : List Byte) : Bool := decide (l.length = 32)

/-- The agent exists: a session slot below 8, a tile below 64. -/
def Agent.wf (a : Agent) : Bool :=
  match a with
  | .session n => isSlot n
  | .tileProgram t => isTile t
  | .j3 => true
  | .firmware => true
  | .dma => true

/-- The DMA engine exists. -/
def DmaEng.wf (e : DmaEng) : Bool :=
  match e with
  | .edge => true
  | .tile t => isTile t

/-- The check-value unit exists: edge units 0 to 7 (R414). -/
def CrcUnit.wf (u : CrcUnit) : Bool :=
  match u with
  | .edge n => decide (n < 8)
  | .tile t => isTile t

/-- The slot and the sequence number of a request fit their fields (R427). -/
def MsgHead.wf (m : MsgHead) : Bool := isSlot m.slot && isWord m.seq

/-- The unit of the mesh exists: a tile, or an edge router's attachment (R57). -/
def MeshUnit.wf (u : MeshUnit) : Bool :=
  match u with
  | .tile n => isTile n
  | .edge k a => decide (64 ≤ k && k < 72) && decide (a < 8)

/-- The command is well formed. -/
def Instr.wf (i : Instr) : Bool :=
  match i with
  | .standbyPowerUp => true
  | .standbyPowerLoss => true
  | .inputInRange => true
  | .inputOutOfRange _ => true
  | .debounceExpiry => true
  | .hotSwapOn => true
  | .railGood => true
  | .railStartTimeout => true
  | .railFault rail _ => isRail rail
  | .railsOff => true
  | .offTimeExpiry => true
  | .inputOvercurrent => true
  | .lidOvertemp => true
  | .powerAlarm => true
  | .offReq ag => ag.wf
  | .faultLatchedClear ag => ag.wf
  | .modResetAssert => true
  | .modResetRelease => true
  | .moduleResetRelease _ => true
  | .registersReady => true
  | .refLost => true
  | .thermalTrip => true
  | .thermalTripRelease => true
  | .secAlarmNAssert => true
  | .mgmtTransfer _ _ addr data => isWord addr && isWord data
  | .entdaa dynAddr => isDyn dynAddr
  | .setdasa dynAddr => isDyn dynAddr
  | .junctionAvgStore => true
  | .packetInject src dst vc tenant body _ => src.wf && dst.wf && isVc vc && isTenant tenant && decide (body.addr < 2 ^ 48)
  | .packetHop router _ => isRouter router
  | .attachmentCross edge _ => isRouter edge
  | .deferredPacketRelease edge _ tenant => isRouter edge && isTenant tenant
  | .meshCtrlWrite ag word => ag.wf && isWord word
  | .strokeIssue tile arr => isTile tile && isArr arr
  | .strokeComplete tile arr => isTile tile && isArr arr
  | .refStrokeIssue tile arr => isTile tile && isArr arr
  | .refStrokeComplete tile arr => isTile tile && isArr arr
  | .arrayVerify tile arr _ => isTile tile && isArr arr
  | .arrayVerifyDone tile arr _ => isTile tile && isArr arr
  | .program tile arr logical _ _ => isTile tile && isArr arr && isLogical logical
  | .programDone tile arr _ => isTile tile && isArr arr
  | .map tile logical arr => isTile tile && isLogical logical && isArr arr
  | .unmap tile logical => isTile tile && isLogical logical
  | .swap tile logical arr => isTile tile && isLogical logical && isArr arr
  | .remap tile logical arr => isTile tile && isLogical logical && isArr arr
  | .spring tile arr => isTile tile && isArr arr
  | .springDone tile arr _ => isTile tile && isArr arr
  | .condemn tile arr => isTile tile && isArr arr
  | .arrCfgWrite ag tile arr word => ag.wf && isTile tile && isArr arr && isWord word
  | .arrCntClr ag tile arr => ag.wf && isTile tile && isArr arr
  | .arrPredMaxClr ag tile arr => ag.wf && isTile tile && isArr arr
  | .arrColmapWrite ag tile arr spare word => ag.wf && isTile tile && isArr arr && isSpare spare && isWord word
  | .engArithCntClr ag tile => ag.wf && isTile tile
  | .offrWrite ag tile arr idx word => ag.wf && isTile tile && isArr arr && isOffrWord idx && isWord word
  | .descriptorDispatch tile thread => isTile tile && isThread thread
  | .laneGroupGrant tile => isTile tile
  | .grantExpiry tile thread _ => isTile tile && isThread thread
  | .dramRequestIssue tile => isTile tile
  | .dramRequestComplete tile _ => isTile tile
  | .descriptorRetire tile thread _ => isTile tile && isThread thread
  | .combineRecordAccept tile => isTile tile
  | .quantAUnitDone tile thread _ => isTile tile && isThread thread
  | .sramZeroComplete tile => isTile tile
  | .rgnWrite ag tile rgn _ word => ag.wf && isTile tile && isRegion rgn && isWord word
  | .engEnableWrite ag tile _ => ag.wf && isTile tile
  | .engCntClr ag tile => ag.wf && isTile tile
  | .faultInfoClear ag tile => ag.wf && isTile tile
  | .reqHwmClr ag tile => ag.wf && isTile tile
  | .threadClassWrite ag tile thread cls => ag.wf && isTile tile && isThread thread && isClass cls
  | .nop tile thread _ => isTile tile && isThread thread
  | .copy tile thread _ => isTile tile && isThread thread
  | .fill tile thread _ => isTile tile && isThread thread
  | .load tile thread _ => isTile tile && isThread thread
  | .store tile thread _ => isTile tile && isThread thread
  | .bufWait tile thread _ => isTile tile && isThread thread
  | .bufSet tile thread _ => isTile tile && isThread thread
  | .tideEnd tile thread _ => isTile tile && isThread thread
  | .event tile thread _ => isTile tile && isThread thread
  | .dmaStart tile thread _ => isTile tile && isThread thread
  | .post tile thread _ => isTile tile && isThread thread
  | .rotate tile thread _ => isTile tile && isThread thread
  | .quantA tile thread _ => isTile tile && isThread thread
  | .loadInput tile thread _ => isTile tile && isThread thread
  | .stroke tile thread _ => isTile tile && isThread thread
  | .refStroke tile thread _ => isTile tile && isThread thread
  | .outlier tile thread _ => isTile tile && isThread thread
  | .corrZ tile thread _ => isTile tile && isThread thread
  | .corrB tile thread _ => isTile tile && isThread thread
  | .combine tile thread _ => isTile tile && isThread thread
  | .exact tile thread _ => isTile tile && isThread thread
  | .vsum tile thread _ => isTile tile && isThread thread
  | .squant tile thread _ => isTile tile && isThread thread
  | .sdeq tile thread _ => isTile tile && isThread thread
  | .linear tile thread _ => isTile tile && isThread thread
  | .attn tile thread _ => isTile tile && isThread thread
  | .softmax tile thread _ => isTile tile && isThread thread
  | .norm tile thread _ => isTile tile && isThread thread
  | .act tile thread _ => isTile tile && isThread thread
  | .ewise tile thread _ => isTile tile && isThread thread
  | .posrot tile thread _ => isTile tile && isThread thread
  | .steer tile thread _ => isTile tile && isThread thread
  | .kvWrite tile thread _ => isTile tile && isThread thread
  | .select tile thread _ => isTile tile && isThread thread
  | .sound tile thread _ => isTile tile && isThread thread
  | .tideBoundary => true
  | .windowCheck _ => true
  | .scResume => true
  | .tpWindowComplete _ => true
  | .linkDeparture _ => true
  | .linkLanding _ _ => true
  | .tideMarkReceive link _ => isLink link
  | .gateTimeout => true
  | .tideLoad ag => ag.wf
  | .tableLoadDone => true
  | .arm ag => ag.wf
  | .stop ag => ag.wf
  | .stopNow ag => ag.wf
  | .cancel ag => ag.wf
  | .preloadEntryDone tile => isTile tile
  | .tideCtrlWrite ag word => ag.wf && isWord word
  | .tideCntClr ag => ag.wf
  | .tideThrottleWrite ag word => ag.wf && isWord word
  | .bufferMarkRequest tile rgn _ _ => isTile tile && isRegion rgn
  | .packetSramAccess tile _ off _ _ => isTile tile && isOffset off
  | .chartRelay box _ => isBox box
  | .chartStatus box => isBox box
  | .chartAbort box => isBox box
  | .chartDiscard box => isBox box
  | .goldenCheck box => isBox box
  | .shardReceive _ => true
  | .relayAck _ => true
  | .relayNak _ => true
  | .relayReq _ => true
  | .shardTimeout _ => true
  | .relayAbort _ => true
  | .refreshDue tile logical _ _ => isTile tile && isLogical logical
  | .refreshOverdue tile logical => isTile tile && isLogical logical
  | .calSnap ag tile arr => ag.wf && isTile tile && isArr arr
  | .refStale tile arr => isTile tile && isArr arr
  | .tileEstimate tile => isTile tile
  | .tempAlign => true
  | .neapTrigger tile arr => isTile tile && isArr arr
  | .watchExpiry tile arr => isTile tile && isArr arr
  | .sndCntClr ag tile => ag.wf && isTile tile
  | .repairRankWrite _ _ _ _ => true
  | .calCfg box _ _ _ _ => isBox box
  | .refreshCfg box _ _ => isBox box
  | .soundCfg box _ _ _ _ _ _ => isBox box
  | .upkeepPolicy box _ _ => isBox box
  | .calRequest box _ => isBox box
  | .upkeepStatus box _ _ => isBox box
  | .repairSlots box _ => isBox box
  | .kvCfg box _ => isBox box
  | .stepCfg box _ => isBox box
  | .kvRoute box _ => isBox box
  | .ctxSubmit box _ => isBox box
  | .ctxCancel box ctx => isBox box && isCtx ctx
  | .ctxPark box ctx => isBox box && isCtx ctx
  | .ctxResume box ctx => isBox box && isCtx ctx
  | .ctxStatus box ctx => isBox box && isCtx ctx
  | .ctxRelease box ctx => isBox box && isCtx ctx
  | .stepLog box => isBox box
  | .kvStatus box => isBox box
  | .stepFill => true
  | .stepPlanReceive _ => true
  | .sliceMessageReceive _ => true
  | .steerCopyDone berth => isBerth berth
  | .berthResult berth => isBerth berth
  | .berthRetire berth => isBerth berth
  | .contextFetch ctx => isCtx ctx
  | .ctxHoldExpiry ctx => isCtx ctx
  | .parkLimitExpiry ctx => isCtx ctx
  | .streamIn m _ _ => m.wf
  | .kvShipPage ctx _ => isCtx ctx
  | .kvPageReceive _ => true
  | .kvPageAck ctx _ => isCtx ctx
  | .kvPageNak ctx _ => isCtx ctx
  | .kvShipTimeout ctx _ => isCtx ctx
  | .tenantCfg box tenant _ => isBox box && isTenant tenant
  | .tenantClose box tenant => isBox box && isTenant tenant
  | .tenantStatus box tenant => isBox box && isTenant tenant
  | .admitCfg box _ => isBox box
  | .steerCfg box _ => isBox box
  | .steerLoad box addr => isBox box && isAddr addr
  | .steerDrop box packId => isBox box && isWord packId
  | .prefixCfg box _ => isBox box
  | .prefixPublish box ctx _ => isBox box && isCtx ctx
  | .prefixFlush box _ => isBox box
  | .prefixStatus box => isBox box
  | .meterCfg box _ => isBox box
  | .meterRead box _ _ _ => isBox box
  | .energyAttribute _ => true
  | .meterWindowBoundary => true
  | .snapshotWrite => true
  | .dramAccess addr _ _ _ _ => isAddr addr
  | .dramRefresh stack => isStack stack
  | .dramEventStart stack => isStack stack
  | .dramEventEnd stack => isStack stack
  | .scrubSector addr _ => isAddr addr
  | .memTrain ag => ag.wf
  | .memTest ag => ag.wf
  | .memTrainDone stack _ => isStack stack
  | .memTestDone stack _ _ => isStack stack
  | .memCntClr ag => ag.wf
  | .errAddrClear ag stack _ => ag.wf && isStack stack
  | .chStart ag eng ch => ag.wf && eng.wf && isChannel ch
  | .chFetch ag eng ch => ag.wf && eng.wf && isChannel ch
  | .chStop ag eng ch => ag.wf && eng.wf && isChannel ch
  | .dmaBeat eng => eng.wf
  | .dmaDescComplete eng ch => eng.wf && isChannel ch
  | .crcBindTimeout eng ch => eng.wf && isChannel ch
  | .dmaCfgWrite ag eng word => ag.wf && eng.wf && isWord word
  | .dmaDescRegWrite ag eng ch reg word => ag.wf && eng.wf && isChannel ch && isWord reg && isWord word
  | .crcFeed8 ag un word => ag.wf && un.wf && isByte word
  | .crcFeed16 ag un word => ag.wf && un.wf && isHalf word
  | .crcFeed32 ag un word => ag.wf && un.wf && isWord word
  | .crcValueWrite ag un word => ag.wf && un.wf && isWord word
  | .crcInit ag un => ag.wf && un.wf
  | .crcConfigWrite ag un reg word => ag.wf && un.wf && isWord reg && isWord word
  | .hostPortTrained => true
  | .hpRetrain ag => ag.wf
  | .frameReceive _ => true
  | .arpRequest _ _ => true
  | .neighborSolicitation _ _ => true
  | .icmpEcho _ _ _ _ => true
  | .pfcReceive prio _ => isPrio prio
  | .pfcRepeat prio => isPrio prio
  | .ptpMessage _ stamp => decide (stamp ≤ 16)
  | .hello _ _ _ _ => true
  | .openSession _ _ => true
  | .close m => m.wf
  | .regRead m addr => m.wf && isAddr addr
  | .regWrite m addr data => m.wf && isAddr addr && isWord data
  | .bulkOpen m window _ addr _ => m.wf && isWindowAsk window && isAddr addr
  | .bulkData m window _ _ _ _ => m.wf && isWindow window
  | .bulkClose m window => m.wf && isWindow window
  | .mbxPost m box bytes => m.wf && isBox box && isPayload bytes
  | .eventFlush slot => isSlot slot
  | .sessionIdleTimeout slot => isSlot slot
  | .bulkWindowTimeout window => isWindow window
  | .mbxDoorbell ag _ word => ag.wf && isWord word
  | .mbxRelease ag _ word => ag.wf && isWord word
  | .mbxTake => true
  | .mbxComplete box => isBox box
  | .linkEnable ag link => ag.wf && isLink link
  | .linkDisable ag link => ag.wf && isLink link
  | .linkRetrain ag link => ag.wf && isLink link
  | .partnerSignal link => isLink link
  | .linkTrained link => isLink link
  | .linkTrainTimeout link => isLink link
  | .identitySend link => isLink link
  | .identityReceive link coord _ _ _ => isLink link && isWord coord
  | .linkSignalLoss link _ => isLink link
  | .downNotice link => isLink link
  | .linkStopped link => isLink link
  | .noPartnerTimeout link => isLink link
  | .flitReceive link f => isLink link && f.bytes.length == 256
  | .nakReceive link _ => isLink link
  | .nakRepeat link => isLink link
  | .creditReceive link _ => isLink link
  | .flitTransmit link => isLink link
  | .coordWrite ag word => ag.wf && isWord word
  | .torusWrite ag word => ag.wf && isWord word
  | .planWrite ag link word => ag.wf && isLink link && isWord word
  | .monRegularStart => true
  | .sarConversionDone conv raw => isConv conv && isCode raw
  | .injectedTrigger _ => true
  | .injectedSequenceStart conv => isConv conv
  | .monSoft ag => ag.wf
  | .monEnableWrite ag word => ag.wf && isWord word
  | .sarPowerDown conv => isConv conv
  | .intSample _ _ => true
  | .guardG2Expiry => true
  | .guardHoldExpiry => true
  | .intWindowEnd => true
  | .intSettled => true
  | .capLoop => true
  | .thmRead ag => ag.wf
  | .thermPeriodTick => true
  | .powerCfg box cap _ _ => isBox box && isWord cap
  | .thermCfg box _ _ _ => isBox box
  | .syscalPoint box _ => isBox box
  | .syscalCommit box _ => isBox box
  | .syscalReset box _ => isBox box
  | .powerStatus box => isBox box
  | .verify ag => ag.wf
  | .fwVerifyDone => true
  | .applyMaps ag => ag.wf
  | .start ag => ag.wf
  | .microcodeReceive tile _ => isTile tile
  | .fwReady => true
  | .fwInitTimeout => true
  | .bootFailcntClear ag => ag.wf
  | .resetModuleReq ag => ag.wf
  | .resetCoreReq ag => ag.wf
  | .resetComputeReq ag => ag.wf
  | .resetHostportReq ag => ag.wf
  | .resetMonitorReq ag => ag.wf
  | .resetLinkReq ag link => ag.wf && isLink link
  | .resetAssert => true
  | .resetRelease => true
  | .tileReset ag tile => ag.wf && isTile tile
  | .tilePark ag tile => ag.wf && isTile tile
  | .tileUnpark ag tile => ag.wf && isTile tile
  | .parkComplete tile => isTile tile
  | .resumeHoldEnd => true
  | .resumeCopyVerified => true
  | .hangDetect _ _ => true
  | .lhWatchdogExpiry => true
  | .lhKick ag => ag.wf
  | .hangGraceExpiry => true
  | .replayTimeout => true
  | .hangStatusClear ag => ag.wf
  | .hangReport box _ => isBox box
  | .keyWrite ag word => ag.wf && isWord word
  | .unlock ag => ag.wf
  | .debugEnWrite ag _ => ag.wf
  | .policyWrite ag word => ag.wf && isWord word
  | .svnMinWrite ag word => ag.wf && isWord word
  | .rootRevoke ag word => ag.wf && isWord word
  | .securityAlarm _ => true
  | .eraseDone => true
  | .detectorArm => true
  | .attest box nonce => isBox box && isNonce nonce
  | .attestCert box => isBox box
  | .attestCfg box _ => isBox box
  | .stlRecord _ _ _ _ _ _ => true
  | .stlRingWrite => true
  | .stlRelease ag => ag.wf
  | .stlRead box _ _ => isBox box
  | .ptbArm ag inj => ag.wf && isInj inj
  | .ptbKill ag => ag.wf
  | .registerWrite ag addr word => ag.wf && isAddr addr && isWord word
  | .managementAlive => true
  | .secAlarmNRelease => true
  | .refclkPresenceChange _ => true
  | .hostPortLinkFault _ _ => true
  | .monitorPowerDownDone _ => true

end Sys2Proof
end

