-- ==== Sys2Proof/Tests/Slice0.lean ====
section
/-! SUPPORT. Tests: for each obligation with hypotheses, states and operands that meet the hypotheses of each of its clauses, at a
boundary value where the clause has a range (the theorems witness_<Name>, which follow the obligation's clauses in its order, the
hypotheses of a clause that has none beyond its definition left out); the worked examples of the spec; and the ill-formed commands.
A clause whose witness needs a proof of its own has it in a theorem with a longer name, at the end. The one clause without a witness here is
the accepted load of TideRequestsFollowTheState: its hypothesis holds of an image of 4,096 bytes, too long for the kernel. -/
namespace Sys2Proof.Tests
open Sys2Proof Sys2Proof.Machine

set_option Elab.async false

/-- A carrier that is ON with every rail up. -/
def carOn : Carrier := { seq := .on, uvlo := false, debounced := true, switchOn := true, railsUp := 10 }

/-- A die with main power, out of its MODULE reset, whose registers answer. -/
def die0 : Die := { mgmt := { alive := true, dieReset := false, powered := true, ready := true, refIn := true } }

/-- The module with this die, ON. -/
def on (d : Die) : State := { pending := [], carrier := carOn, die := d }

/-- The module with this carrier and a die as reset leaves it. -/
def car (c : Carrier) : State := { pending := [], carrier := c, die := {} }

/-- The state with this die. -/
def withDie (f : Die → Die) (s : State) : State := { s with die := f s.die }

/-- A die whose Lighthouse firmware runs (BOOT_STAGE RUNNING), with both maps applied and both stacks READY. -/
def die6 : Die :=
  { ((die0.put Reg.BOOT_STAGE_STAGE 6).put (Reg.BOOT_MEM_STATUS_STATE 0) 4).put (Reg.BOOT_MEM_STATUS_STATE 1) 4 with
    boot := { mapsApplied := true, watchdog := true } }

/-- An open session with these roles. -/
def sess (roles : Nat) : Session :=
  { id := 1, keySlot := 0, roles := roles, idleTmo := 60, version := 1, src := { port := 9 }, key := [] }

/-- The die with this session in slot 7. -/
def withSess (x : Session) (d : Die) : Die := { d with host := { d.host with sessions := [(7, x)] } }

/-- The firmware runs and box 63, which session 7 posted, is BUSY. -/
def dieBox : Die := ((withSess (sess 15) die6).setBox 63 { state := .busy }).put (Reg.MBX_OWNER_OWNER 63) 7

/-- A packet from tile 0 to tile 1 in its injection queue. -/
def pkt01 (vc : Nat) : Pkt := { src := .tile 0, dst := .tile 1, vc := vc, tenant := 0, sys := false, addr := 0, data := List.replicate 64 0, stamp := 0, old := false, place := .injection }

/-- An outbound packet of tile 0 at attachment 0 of EDGE[0], or in its deferral buffer. -/
def pktOut (pl : Place) : Pkt := { src := .tile 0, dst := .edge 0 0, vc := 0, tenant := 0, sys := false, addr := 0, data := List.replicate 64 0, stamp := 0, old := false, place := pl }

/-- A packet plane that holds these packets. -/
def withPkts (l : List Pkt) (d : Die) : Die := { d with mesh := { d.mesh with pkts := l } }

/-- Buckets act, tenant 0 is held, and its bucket at EDGE[0] has this level. -/
def held0 (n : Int) (d : Die) : Die := { d with mesh := { d.mesh with bktOn := true, rate := [(0, 1)], bucket := [(0, n)] } }

/-- A reset of domain `dom` that is asserted. -/
def asserted (dom : Nat) (d : Die) : Die := { d with boot := { d.boot with resets := [{ dom := dom, cause := 7, asserted := true }] } }

theorem witness_IdleStepIsOneReferenceCycle :
    (∃ s : State, s.pending = [] ∧ s.die.live = false) ∧
    (∃ s : State, s.pending = [] ∧ s.die.live = true ∧ s.die.computeHeld = true) ∧
    (∃ s : State, s.pending = [] ∧ s.die.live = true ∧ s.die.computeHeld = true ∧ s.die.host.txWait = [] ∧ (∀ k, k < 6 → s.die.linkUp k = true → waitsCredit (s.die.link k) = false)) ∧
    (∃ s : State, s.pending = [] ∧ s.die.live = true ∧ s.die.computeHeld = false ∧ s.die.tide.divCtr + 1 < s.die.clockDiv) ∧
    (∃ s : State, s.pending = [] ∧ s.die.live = true ∧ s.die.computeHeld = false ∧ s.die.tide.divCtr + 1 < s.die.clockDiv ∧ s.die.host.txWait = []) :=
  ⟨⟨State.reset, by decide +kernel⟩,
   ⟨on (asserted 2 die0), by decide +kernel⟩,
   ⟨on (asserted 2 die0), by decide +kernel⟩,
   ⟨on (die0.put Reg.TIDE_THR_APPLIED_DIV 3), by decide +kernel⟩,
   ⟨on (die0.put Reg.TIDE_THR_APPLIED_DIV 3), by decide +kernel⟩⟩

theorem witness_EveryStepKeepsTheCarrierSound :
    ∃ s : State, ∃ t : State, s.carrier.wf = true ∧ step s = .next t :=
  ⟨State.reset, _, by exact ⟨by decide, rfl⟩⟩

theorem witness_OtherCommandsLeaveTheCarrierAlone :
    ∃ c : Instr, movesCarrier c = false :=
  ⟨.registersReady, by decide +kernel⟩

theorem witness_StandbyPowerStartsAndEndsTheSequencer :
    (∃ s : State, s.carrier.standby = false) ∧
    (∃ s : State, s.carrier.standby = true ∧ s.die.mgmt.alive = false) :=
  ⟨⟨car { standby := false, seq := .off }, by decide +kernel⟩,
   ⟨State.reset, by decide +kernel⟩⟩

theorem witness_InputRangeGovernsTheMainConversion :
    (∃ s : State, s.carrier.standby = true ∧ s.carrier.inRange = false) ∧
    (∃ s : State, s.carrier.standby = true ∧ s.carrier.running = true ∧ s.carrier.latched = false) ∧
    (∃ s : State, s.carrier.standby = true ∧ s.carrier.running = true ∧ s.carrier.latched = true) ∧
    (∃ s : State, s.carrier.standby = true ∧ s.carrier.running = false) ∧
    (∃ s : State, s.carrier.standby = true ∧ s.carrier.inRange = true ∧ s.carrier.debounced = false) ∧
    (∃ s : State, s.carrier.standby = true ∧ s.carrier.offTimeMet = false ∧ s.carrier.railsUp = 0 ∧ s.carrier.seq ≠ .shuttingDown) :=
  ⟨⟨State.reset, by decide +kernel⟩,
   ⟨on die0, by decide +kernel⟩,
   ⟨car { carOn with latched := true, faultCause := 5 }, by decide +kernel⟩,
   ⟨State.reset, by decide +kernel⟩,
   ⟨car { seq := .debounce, uvlo := false }, by decide +kernel⟩,
   ⟨car { offTimeMet := false }, by decide +kernel⟩⟩

theorem witness_RailsRiseInOrderAndShutdownsReachOff :
    (∃ s : State, s.carrier.seq = .charging) ∧
    (∃ s : State, ∃ r, s.carrier.seq = .sequencing ∧ s.carrier.starting = some r ∧ r ≠ 9) ∧
    (∃ s : State, s.carrier.seq = .sequencing ∧ s.carrier.starting = some 9) ∧
    (∃ s : State, s.carrier.seq = .shuttingDown ∧ s.carrier.toFault = true ∧ s.carrier.offHold = false) ∧
    (∃ s : State, s.carrier.seq = .shuttingDown ∧ s.carrier.toFault = true ∧ s.carrier.offHold = true) ∧
    (∃ s : State, s.carrier.seq = .shuttingDown ∧ s.carrier.toFault = false ∧ (s.carrier.held = true ∨ s.carrier.inRange = false)) ∧
    (∃ s : State, s.carrier.seq = .shuttingDown ∧ s.carrier.toFault = false ∧ s.carrier.held = false ∧ s.carrier.inRange = true ∧ s.carrier.pendingStart = false) ∧
    (∃ s : State, s.carrier.seq = .sequencing ∧ s.carrier.starting.isSome = true) :=
  ⟨⟨car { seq := .charging }, by decide +kernel⟩,
   ⟨car { seq := .sequencing, starting := some 8, railsUp := 8 }, 8, by decide +kernel⟩,
   ⟨car { seq := .sequencing, starting := some 9, railsUp := 9 }, by decide +kernel⟩,
   ⟨car { seq := .shuttingDown, toFault := true }, by decide +kernel⟩,
   ⟨car { seq := .shuttingDown, toFault := true, offHold := true }, by decide +kernel⟩,
   ⟨car { seq := .shuttingDown }, by decide +kernel⟩,
   ⟨car { seq := .shuttingDown, uvlo := false }, by decide +kernel⟩,
   ⟨car { seq := .sequencing, starting := some 9, railsUp := 9 }, by decide +kernel⟩⟩

theorem witness_LatchedFaultsShutDownWithTheirCause :
    (∃ s : State, ∃ r, s.carrier.seq = .sequencing ∧ s.carrier.starting = some r ∧ s.carrier.latched = false) ∧
    (∃ s : State, ∃ rail, ∃ high, s.carrier.railLive rail high = true ∧ s.carrier.latched = false) ∧
    (∃ s : State, s.carrier.conducts = true ∧ s.carrier.latched = false) ∧
    (∃ s : State, s.carrier.standby = true ∧ (s.carrier.running = true ∨ s.carrier.seq = .shuttingDown) ∧ s.carrier.latched = false) ∧
    (∃ s : State, s.carrier.standby = true ∧ s.carrier.running = false ∧ s.carrier.seq ≠ .shuttingDown ∧ s.carrier.latched = false) ∧
    (∃ s : State, s.carrier.conducts = true ∧ s.carrier.latched = true) ∧
    (∃ s : State, s.carrier.seq = .sequencing ∧ s.carrier.starting.isSome = true) ∧
    (∃ s : State, ∃ rail : Nat, ∃ high : Bool, s.carrier.railLive rail high = true) :=
  ⟨⟨car { seq := .sequencing, starting := some 9, railsUp := 9 }, 9, by decide +kernel⟩,
   ⟨on die0, 9, true, by decide +kernel⟩,
   ⟨on die0, by decide +kernel⟩,
   ⟨on die0, by decide +kernel⟩,
   ⟨State.reset, by decide +kernel⟩,
   ⟨car { carOn with latched := true, faultCause := 1, faultRail := 9 }, by decide +kernel⟩,
   ⟨car { seq := .sequencing, starting := some 9, railsUp := 9 }, by decide +kernel⟩,
   ⟨on die0, 9, true, by decide +kernel⟩⟩

theorem witness_SequencerWritesHoldAndClear :
    (∃ s : State, ∃ ag : Agent, s.carrier.standby = true ∧ s.seqReach ag = true ∧ s.carrier.running = true) ∧
    (∃ s : State, ∃ ag : Agent, s.carrier.standby = true ∧ s.seqReach ag = true ∧ s.carrier.running = false ∧ s.carrier.seq ≠ .shuttingDown) ∧
    (∃ s : State, ∃ ag : Agent, ∃ ag : Agent, s.carrier.standby = true ∧ s.seqReach ag = true ∧ s.carrier.standby = true ∧ s.seqReach ag = true) :=
  ⟨⟨on die0, .j3, by decide +kernel⟩,
   ⟨withDie (fun _ => die0) (car { seq := .fault }), .j3, by decide +kernel⟩,
   ⟨on die0, .j3, .j3, by decide +kernel⟩⟩

theorem witness_ModResetAndBusAddressing :
    (∃ s : State, s.carrier.standby = true ∧ s.carrier.resetLow = false ∧ s.carrier.seq = .on) ∧
    (∃ s : State, s.carrier.standby = true ∧ s.carrier.resetLow = false ∧ (s.carrier.seq = .sequencing ∨ s.carrier.seq = .charging)) ∧
    (∃ s : State, s.carrier.standby = true ∧ s.carrier.resetLow = true ∧ s.carrier.held = false ∧ s.carrier.seq ≠ .fault) ∧
    (∃ s : State, s.carrier.standby = true ∧ s.carrier.resetLow = true ∧ s.carrier.seq = .fault) ∧
    (∃ s : State, ∃ a, s.die.mgmtReach = true ∧ s.die.mgmt.mode ≠ .i2c ∧ s.die.mgmt.dynAddr = none ∧ a < 128) ∧
    (∃ s : State, ∃ a, s.die.mgmtReach = true ∧ s.die.mgmt.mode ≠ .i2c ∧ a < 128) :=
  ⟨⟨on die0, by decide +kernel⟩,
   ⟨car { seq := .sequencing, starting := some 0 }, by decide +kernel⟩,
   ⟨car { resetLow := true }, by decide +kernel⟩,
   ⟨car { resetLow := true, seq := .fault }, by decide +kernel⟩,
   ⟨on die0, 127, by decide +kernel⟩,
   ⟨on die0, 0, by decide +kernel⟩⟩

theorem witness_ClockAndPinEventsAreKept :
    (∃ s : State, s.die.live = true ∧ s.die.on Reg.GLB_CLK_STATUS_REF_SEL = true) ∧
    (∃ s : State, s.die.live = true ∧ s.die.mgmt.refIn = false) ∧
    (∃ s : State, s.die.live = true ∧ s.die.mgmt.refIn = true ∧ s.die.on Reg.GLB_CLK_STATUS_REF_SEL = false) ∧
    (∃ s : State, s.die.live = true ∧ s.die.mgmt.ready = false) ∧
    (∃ s : State, s.die.sec.extLow = false ∧ s.die.live = false) ∧
    (∃ s : State, s.die.sec.extLow = false ∧ s.die.live = true) ∧
    (∃ s : State, s.die.sec.extLow = true) ∧
    (∃ s : State, ∃ present, s.die.live = true ∧ s.die.mgmt.refIn ≠ present ∧ (present = true ∨ s.die.on Reg.GLB_CLK_STATUS_REF_SEL = false)) ∧
    (∃ s : State, ∃ present, s.die.live = true ∧ s.die.mgmt.refIn ≠ present ∧ present = false ∧ s.die.on Reg.GLB_CLK_STATUS_REF_SEL = true) :=
  ⟨⟨on (die0.raise Reg.GLB_CLK_STATUS_REF_SEL), by decide +kernel⟩,
   ⟨on { die0 with mgmt := { die0.mgmt with refIn := false } }, by decide +kernel⟩,
   ⟨on die0, by decide +kernel⟩,
   ⟨on { die0 with mgmt := { die0.mgmt with ready := false } }, by decide +kernel⟩,
   ⟨State.reset, by decide +kernel⟩,
   ⟨on die0, by decide +kernel⟩,
   ⟨on { die0 with sec := { die0.sec with extLow := true } }, by decide +kernel⟩,
   ⟨on die0, false, by decide +kernel⟩,
   ⟨on (die0.raise Reg.GLB_CLK_STATUS_REF_SEL), false, by decide +kernel⟩⟩

theorem witness_ShutdownsAreNeverReversed :
    (∃ s : State, ∃ c : Instr, ∃ t : State, s.carrier.standby = true ∧ s.carrier.wf = true ∧ s.carrier.seq = .shuttingDown ∧ exec c s = .next t ∧ c ≠ .railsOff ∧ c ≠ .standbyPowerLoss) ∧
    (∃ s : State, s.carrier.standby = true ∧ s.carrier.wf = true ∧ s.carrier.seq = .shuttingDown ∧ s.carrier.inRange = false) ∧
    (∃ s : State, s.carrier.standby = true ∧ s.carrier.wf = true ∧ s.carrier.seq = .shuttingDown ∧ s.carrier.toFault = false ∧ s.carrier.held = false ∧ s.carrier.inRange = true ∧ s.carrier.pendingStart = false) ∧
    (∃ s : State, s.carrier.standby = true ∧ s.carrier.wf = true ∧ s.carrier.seq = .debounce ∧ s.carrier.debounced = false ∧ s.carrier.inRange = true) ∧
    (∃ s : State, s.carrier.standby = true ∧ s.carrier.wf = true ∧ s.carrier.seq = .debounce ∧ s.carrier.offTimeMet = false) ∧
    (∃ s : State, s.carrier.standby = true ∧ s.carrier.wf = true ∧ s.carrier.seq = .charging) :=
  ⟨⟨car { seq := .shuttingDown }, .registersReady, car { seq := .shuttingDown }, by exact ⟨by decide, by decide, by decide, rfl, by decide, by decide⟩⟩,
   ⟨car { seq := .shuttingDown }, by decide +kernel⟩,
   ⟨car { seq := .shuttingDown, uvlo := false }, by decide +kernel⟩,
   ⟨car { seq := .debounce, uvlo := false }, by decide +kernel⟩,
   ⟨car { seq := .debounce, uvlo := false, offTimeMet := false }, by decide +kernel⟩,
   ⟨car { seq := .charging, uvlo := false, debounced := true }, by decide +kernel⟩⟩

theorem witness_InjectedPacketTakesItsStamp :
    (∃ s : State, ∃ src : MeshUnit, ∃ dst : MeshUnit, ∃ vc : Nat, ∃ tenant : Nat, ∃ body : PktBody, s.die.live = true ∧ s.die.unitOk src = true ∧ s.die.unitOk dst = true ∧ src ≠ dst ∧ vc < 3 ∧ tenant < 4096 ∧ body.addr < 2 ^ 48 ∧ body.data.length ≤ 1024 ∧ s.die.injected src < 32 ∧ (vc = 2 ↔ isLinkUnit src = true ∧ isLinkUnit dst = true) ∧ (s.die.computeHeld = true → underCompute src = false ∧ underCompute dst = false) ∧ s.die.quiesces = true ∧ underCompute src = true) ∧
    (∃ s : State, ∃ src : MeshUnit, ∃ dst : MeshUnit, ∃ vc : Nat, ∃ tenant : Nat, ∃ body : PktBody, s.die.live = true ∧ s.die.unitOk src = true ∧ s.die.unitOk dst = true ∧ src ≠ dst ∧ vc < 3 ∧ tenant < 4096 ∧ body.addr < 2 ^ 48 ∧ body.data.length ≤ 1024 ∧ s.die.injected src < 32 ∧ (vc = 2 ↔ isLinkUnit src = true ∧ isLinkUnit dst = true) ∧ (s.die.computeHeld = true → underCompute src = false ∧ underCompute dst = false) ∧ (s.die.quiesces = true → underCompute src = false)) :=
  ⟨⟨on { die0 with boot := { resets := [{ dom := 2, cause := 7 }] } }, .tile 0, .edge 0 2, 0, 4095, ⟨2 ^ 48 - 1, List.replicate 1024 0⟩, by decide +kernel⟩,
   ⟨on die0, .tile 0, .edge 0 2, 0, 4095, ⟨2 ^ 48 - 1, List.replicate 1024 0⟩, by decide +kernel⟩⟩

theorem witness_RouterGrantsAndMovesOnePacket :
    (∃ s : State, ∃ r : Nat, ∃ o : Nat, ∃ q, s.die.live = true ∧ (r < 64 ∧ o < 5 ∨ 64 ≤ r ∧ r < 72 ∧ o < 4 + attachments (r - 64)) ∧ s.die.routerRuns r = true ∧ s.die.grant r o = some q ∧ (∃ x ∈ s.die.ready r o, x.2.vc = 1)) ∧
    (∃ s : State, ∃ r : Nat, ∃ o : Nat, ∃ q, ∃ pl, s.die.live = true ∧ (r < 64 ∧ o < 5 ∨ 64 ≤ r ∧ r < 72 ∧ o < 4 + attachments (r - 64)) ∧ s.die.routerRuns r = true ∧ (∀ p ∈ s.die.mesh.pkts, p.old = true ∨ p.vc ≠ 0 ∨ s.die.age p < 2048) ∧ s.die.grant r o = some q ∧ q.2.next r o = some pl) ∧
    (∃ s : State, ∃ r : Nat, ∃ o : Nat, ∃ q, s.die.live = true ∧ (r < 64 ∧ o < 5 ∨ 64 ≤ r ∧ r < 72 ∧ o < 4 + attachments (r - 64)) ∧ s.die.routerRuns r = true ∧ (∀ p ∈ s.die.mesh.pkts, p.old = true ∨ p.vc ≠ 0 ∨ s.die.age p < 2048) ∧ s.die.grant r o = some q ∧ q.2.next r o = none) ∧
    (∃ s : State, ∃ r : Nat, ∃ o : Nat, s.die.live = true ∧ (r < 64 ∧ o < 5 ∨ 64 ≤ r ∧ r < 72 ∧ o < 4 + attachments (r - 64)) ∧ s.die.routerRuns r = true ∧ (∀ p ∈ s.die.mesh.pkts, p.old = true ∨ p.vc ≠ 0 ∨ s.die.age p < 2048) ∧ s.die.grant r o = none) ∧
    (∃ s : State, ∃ r : Nat, ∃ o : Nat, ∃ router : Nat, ∃ outPort : Nat, s.die.live = true ∧ (r < 64 ∧ o < 5 ∨ 64 ≤ r ∧ r < 72 ∧ o < 4 + attachments (r - 64)) ∧ s.die.routerRuns r = true ∧ (router < 64 ∧ outPort < 5 ∨ 64 ≤ router ∧ router < 72 ∧ outPort < 4 + attachments (router - 64)) ∧ s.die.routerRuns router = true) :=
  ⟨⟨on (withPkts [pkt01 0, pkt01 1] die0), 0, 1, (4, pkt01 1), by decide +kernel⟩,
   ⟨on (withPkts [pkt01 0] die0), 0, 1, (4, pkt01 0), .buffer 1 3, by decide +kernel⟩,
   ⟨on (withPkts [{ pkt01 0 with place := .buffer 1 3 }] die0), 1, 4, (3, { pkt01 0 with place := .buffer 1 3 }), by decide +kernel⟩,
   ⟨on die0, 71, 4, by decide +kernel⟩,
   ⟨on die0, 63, 4, 71, 4, by decide +kernel⟩⟩

theorem witness_AttachmentCrossingChargesTokens :
    (∃ s : State, ∃ k : Nat, ∃ att : Nat, ∃ p, ∃ rest, s.die.live = true ∧ att < attachments k ∧ (∀ p ∈ s.die.mesh.pkts, p.old = true ∨ p.vc ≠ 0 ∨ s.die.age p < 2048) ∧ attachHeads k att s.die.mesh.pkts [] = p :: rest ∧ (∀ x ∈ rest, x.vc ≠ 1) ∧ s.die.eligible k p = true ∧ s.die.behind k att p = false ∧ p.inbound k att = false ∧ unitLink p.dst = none) ∧
    (∃ s : State, ∃ k : Nat, ∃ att : Nat, ∃ p, ∃ rest, ∃ n, s.die.live = true ∧ att < attachments k ∧ (∀ p ∈ s.die.mesh.pkts, p.old = true ∨ p.vc ≠ 0 ∨ s.die.age p < 2048) ∧ attachHeads k att s.die.mesh.pkts [] = p :: rest ∧ (∀ x ∈ rest, x.vc ≠ 1) ∧ s.die.eligible k p = true ∧ s.die.behind k att p = false ∧ p.inbound k att = false ∧ unitLink p.dst = some n ∧ s.die.linkUp n = true) ∧
    (∃ s : State, ∃ k : Nat, ∃ att : Nat, ∃ p, ∃ rest, s.die.live = true ∧ att < attachments k ∧ (∀ p ∈ s.die.mesh.pkts, p.old = true ∨ p.vc ≠ 0 ∨ s.die.age p < 2048) ∧ attachHeads k att s.die.mesh.pkts [] = p :: rest ∧ (∀ x ∈ rest, x.vc ≠ 1) ∧ s.die.eligible k p = true ∧ s.die.behind k att p = false ∧ p.inbound k att = false ∧ s.die.charged p = true) ∧
    (∃ s : State, ∃ k : Nat, ∃ att : Nat, ∃ p, ∃ rest, s.die.live = true ∧ att < attachments k ∧ (∀ p ∈ s.die.mesh.pkts, p.old = true ∨ p.vc ≠ 0 ∨ s.die.age p < 2048) ∧ attachHeads k att s.die.mesh.pkts [] = p :: rest ∧ (∀ x ∈ rest, x.vc ≠ 1) ∧ s.die.eligible k p = true ∧ s.die.behind k att p = false ∧ p.inbound k att = false ∧ s.die.charged p = false) ∧
    (∃ s : State, ∃ k : Nat, ∃ att : Nat, ∃ tenant, ∃ p, s.die.live = true ∧ att < attachments k ∧ (∀ p ∈ s.die.mesh.pkts, p.old = true ∨ p.vc ≠ 0 ∨ s.die.age p < 2048) ∧ s.die.deferredNext k att tenant = some p ∧ s.die.eligible k p = true ∧ s.die.crossRoom k att p = true ∧ s.die.charged p = true) ∧
    (∃ s : State, ∃ k : Nat, ∃ att : Nat, ∃ tenant, ∃ p, s.die.live = true ∧ att < attachments k ∧ (∀ p ∈ s.die.mesh.pkts, p.old = true ∨ p.vc ≠ 0 ∨ s.die.age p < 2048) ∧ s.die.deferredNext k att tenant = some p ∧ s.die.eligible k p = true ∧ s.die.crossRoom k att p = true ∧ (p.inbound k att = true ∨ unitLink p.dst = none)) ∧
    (∃ s : State, ∃ k : Nat, ∃ att : Nat, s.die.live = true ∧ att < attachments k ∧ (∀ p ∈ s.die.mesh.pkts, p.old = true ∨ p.vc ≠ 0 ∨ s.die.age p < 2048)) :=
  ⟨⟨on (withPkts [pktOut (.attach 0 0)] die0), 0, 0, pktOut (.attach 0 0), [], by decide +kernel⟩,
   ⟨on (withPkts [{ pktOut (.attach 5 1) with dst := .edge 5 1 }] (die0.put (Reg.LNK_STATUS_STATE 5) 4)), 5, 1, { pktOut (.attach 5 1) with dst := .edge 5 1 }, [], 5, by decide +kernel⟩,
   ⟨on (held0 1 (withPkts [pktOut (.attach 0 0)] die0)), 0, 0, pktOut (.attach 0 0), [], by decide +kernel⟩,
   ⟨on (withPkts [pktOut (.attach 0 0)] die0), 0, 0, pktOut (.attach 0 0), [], by decide +kernel⟩,
   ⟨on (held0 1 (withPkts [pktOut (.deferred 0 0)] die0)), 0, 0, 0, pktOut (.deferred 0 0), by decide +kernel⟩,
   ⟨on (held0 1 (withPkts [pktOut (.deferred 0 0)] die0)), 0, 0, 0, pktOut (.deferred 0 0), by decide +kernel⟩,
   ⟨on die0, 7, 0, by decide +kernel⟩⟩

theorem witness_MeshControlChangesModeOnlyInItsWindow :
    (∃ s : State, ∃ ag : Agent, ∃ w : Nat, s.die.live = true ∧ s.die.mayControl ag = true ∧ w < 2 ^ 32 ∧ bits w 2 1 = 0) ∧
    (∃ s : State, ∃ ag : Agent, ∃ w : Nat, s.die.live = true ∧ s.die.mayControl ag = true ∧ w < 2 ^ 32 ∧ s.die.meshOpen = true) ∧
    (∃ s : State, ∃ ag : Agent, ∃ w : Nat, s.die.live = true ∧ s.die.mayControl ag = true ∧ w < 2 ^ 32 ∧ s.die.meshOpen = false) :=
  ⟨⟨on die0, .j3, 0, by decide +kernel⟩,
   ⟨on (asserted 2 die0), .j3, 4, by decide +kernel⟩,
   ⟨on { die0 with boot := { broadcast := true } }, .j3, 4, by decide +kernel⟩⟩

/-- A stroke of 4-bit codes from thread 63. -/
def strk : StrokeIn := { logical := 0, thread := 63, codes := [], aw4 := true, tag := 0, layer := 0 }

/-- That stroke in flight. -/
def flt (rejected : Bool) : Flight :=
  { inp := strk, rejected := rejected, split0 := false, split1 := false, lost0 := false, lost1 := false, p0 := 0, p1 := 0,
    wmode := 0, gain := 0, colmap := [], first := 0, latched := [], offr := [], tide := 0, step := 0, pos := 0 }

/-- Array 271 of tile 63 in state `st`. -/
def arrIn (st : Nat) (x : Array1) : Die := (die6.put (Reg.ARR_STATE_STATE 63 271) st).setArr 63 271 x

/-- The converters A and B enabled. -/
def dieConv : Die := (die6.raise Reg.MON_CTRL_EN_A).raise Reg.MON_CTRL_EN_B

/-- Converter 0 or 1 in this state. -/
def withConv (c : Nat) (x : Conv) : Die := dieConv.setConv c x

/-- The die with this monitoring state. -/
def sense (f : Sense → Sense) (d : Die) : Die := { d with sense := f d.sense }

/-- A point of the system calibration. -/
def sysPoint (high unstable : Bool) (ref : Int) : SyscalParams :=
  { current := true, high := high, reference := ref, sarMean := 0, intMean := 0, sarSpread := 100 + b2n unstable, intSpread := 0 }

/-- SEC_ALARM with source 5 latched, under its policy. -/
def alarm5 (policy : Nat) : Die := { die6.put Reg.SEC_POLICY_POL (policy * 1024) with sec := { armed := true } }

theorem witness_StrokesTakeDecisionsAndLeaveOneRecord :
    (∃ s : State, ∃ t : Nat, ∃ a : Nat, ∃ i, ∃ rest, s.die.live = true ∧ s.die.tileRuns t = true ∧ a < 272 ∧ (s.die.arr t a).waiting = i :: rest ∧ (s.die.arr t a).drive = 0 ∧ (s.die.arr t a).flights.length + (s.die.arr t a).results.length < 2 ∧ s.die.arrState t a ≠ asServing) ∧
    (∃ s : State, ∃ t : Nat, ∃ a : Nat, ∃ i, ∃ rest, s.die.live = true ∧ s.die.tileRuns t = true ∧ a < 272 ∧ (s.die.arr t a).waiting = i :: rest ∧ (s.die.arr t a).drive = 0 ∧ (s.die.arr t a).flights.length + (s.die.arr t a).results.length < 2 ∧ s.die.arrState t a = asServing ∧ i.aw4 = true) ∧
    (∃ s : State, ∃ t : Nat, ∃ a : Nat, ∃ f, ∃ rest, s.die.live = true ∧ s.die.tileRuns t = true ∧ a < 272 ∧ (s.die.arr t a).flights = f :: rest ∧ f.rejected = true) ∧
    (∃ s : State, ∃ t : Nat, ∃ a : Nat, ∃ f, ∃ rest, s.die.live = true ∧ s.die.tileRuns t = true ∧ a < 272 ∧ (s.die.arr t a).flights = f :: rest ∧ f.rejected = false ∧ f.inp.aw4 = true ∧ f.p0 = 0 ∧ f.p1 = 0 ∧ f.split0 = false ∧ f.split1 = false ∧ f.lost0 = false ∧ f.lost1 = false ∧ f.clipCol = none) ∧
    (∃ s : State, ∃ t : Nat, ∃ a : Nat, s.die.live = true ∧ s.die.tileRuns t = true ∧ a < 272 ∧ (s.die.arr t a).mayIssue = true) ∧
    (∃ s : State, ∃ t : Nat, ∃ a : Nat, s.die.live = true ∧ s.die.tileRuns t = true ∧ a < 272 ∧ (s.die.arr t a).flights.isEmpty = false) :=
  ⟨⟨on (arrIn 3 { waiting := [strk] }), 63, 271, strk, [], by decide +kernel⟩,
   ⟨on (arrIn 4 { waiting := [strk] }), 63, 271, strk, [], by decide +kernel⟩,
   ⟨on (arrIn 4 { flights := [flt true] }), 63, 271, flt true, [], by decide +kernel⟩,
   ⟨on (arrIn 4 { flights := [flt false] }), 63, 271, flt false, [], by decide +kernel⟩,
   ⟨on (arrIn 4 { waiting := [strk] }), 63, 271, by decide +kernel⟩,
   ⟨on (arrIn 4 { flights := [flt true] }), 63, 271, by decide +kernel⟩⟩

theorem witness_ReferenceStrokesIssueOnlyInReadyOrServing :
    (∃ s : State, ∃ t : Nat, ∃ a : Nat, s.die.live = true ∧ s.die.tileRuns t = true ∧ a < 272 ∧ 0 < (s.die.arr t a).refWaiting ∧ (s.die.arr t a).drive = 0 ∧ (s.die.arrState t a = asReady ∨ s.die.arrState t a = asServing)) ∧
    (∃ s : State, ∃ t : Nat, ∃ a : Nat, s.die.live = true ∧ s.die.tileRuns t = true ∧ a < 272 ∧ 0 < (s.die.arr t a).refWaiting ∧ s.die.arrState t a ≠ asReady ∧ s.die.arrState t a ≠ asServing) ∧
    (∃ s : State, ∃ t : Nat, ∃ a : Nat, s.die.live = true ∧ s.die.tileRuns t = true ∧ a < 272 ∧ 0 < (s.die.arr t a).refFlights) :=
  ⟨⟨on (arrIn 3 { refWaiting := 1 }), 63, 271, by decide +kernel⟩,
   ⟨on (arrIn 7 { refWaiting := 1 }), 63, 271, by decide +kernel⟩,
   ⟨on (arrIn 3 { refFlights := 1 }), 63, 271, by decide +kernel⟩⟩

theorem witness_ArrayRegisterWritesKeepTheirRules :
    (∃ s : State, ∃ ag : Agent, ∃ t : Nat, ∃ a : Nat, ∃ w : Nat, s.die.live = true ∧ s.die.tileWrite ag t = true ∧ a < 272 ∧ w < 2 ^ 32 ∧ (s.die.arrState t a = asServing ∨ s.die.arrState t a = asCalibrating)) ∧
    (∃ s : State, ∃ ag : Agent, ∃ t : Nat, ∃ a : Nat, ∃ w : Nat, s.die.live = true ∧ s.die.tileWrite ag t = true ∧ a < 272 ∧ w < 2 ^ 32 ∧ s.die.arrState t a ≠ asServing ∧ s.die.arrState t a ≠ asCalibrating) ∧
    (∃ s : State, ∃ ag : Agent, ∃ t : Nat, ∃ a : Nat, ∃ w : Nat, ∃ sp, s.die.live = true ∧ s.die.tileWrite ag t = true ∧ a < 272 ∧ w < 2 ^ 32 ∧ sp < 8 ∧ bit w 31 = true ∧ bit (s.die.getW (Reg.ARR_COLMAP t a sp)).toNat 30 = false) ∧
    (∃ s : State, ∃ ag : Agent, ∃ t : Nat, ∃ a : Nat, ∃ w : Nat, ∃ sp, s.die.live = true ∧ s.die.tileWrite ag t = true ∧ a < 272 ∧ w < 2 ^ 32 ∧ sp < 8 ∧ bit (s.die.getW (Reg.ARR_COLMAP t a sp)).toNat 30 = true ∧ w % 256 / 32 = sp) ∧
    (∃ s : State, ∃ ag : Agent, ∃ t : Nat, ∃ a : Nat, ∃ w : Nat, ∃ v, s.die.live = true ∧ s.die.tileWrite ag t = true ∧ a < 272 ∧ w < 2 ^ 32 ∧ v < 66) ∧
    (∃ s : State, ∃ ag : Agent, ∃ t : Nat, ∃ a : Nat, ∃ w : Nat, ∃ spare : Nat, s.die.live = true ∧ s.die.tileWrite ag t = true ∧ a < 272 ∧ w < 2 ^ 32 ∧ spare < 8) :=
  ⟨⟨on (arrIn 5 {}), .j3, 63, 271, 2 ^ 32 - 1, by decide +kernel⟩,
   ⟨on (arrIn 3 {}), .j3, 63, 271, 0, by decide +kernel⟩,
   ⟨on (arrIn 3 {}), .j3, 63, 271, 2 ^ 31, 7, by decide +kernel⟩,
   ⟨on ((arrIn 3 {}).putW (Reg.ARR_COLMAP 63 271 7) (w32 (2 ^ 30))), .j3, 63, 271, 2 ^ 31 + 255, 7, by decide +kernel⟩,
   ⟨on (arrIn 3 {}), .j3, 63, 271, 0, 65, by decide +kernel⟩,
   ⟨on (arrIn 3 {}), .j3, 63, 271, 2 ^ 32 - 1, 7, by decide +kernel⟩⟩

theorem witness_BootCommandsFollowTheStages :
    (∃ s : State, ∃ ag : Agent, s.die.live = true ∧ s.die.mayControl ag = true ∧ (s.die.stage = 1 ∨ s.die.stage = 3) ∧ s.die.boot.running = 0 ∧ s.die.boot.counted = true ∧ s.die.stagingOk = true) ∧
    (∃ s : State, ∃ ag : Agent, s.die.live = true ∧ s.die.mayControl ag = true ∧ s.die.stage ≠ 1 ∧ s.die.stage ≠ 3) ∧
    (∃ s : State, s.die.live = true ∧ s.die.stage = 2 ∧ s.die.imageDetail s.die.boot.image ≠ 0) ∧
    (∃ s : State, ∃ ag : Agent, ∃ n, s.die.live = true ∧ s.die.mayControl ag = true ∧ s.die.stage = 3 ∧ s.die.boot.running = 0 ∧ s.die.memState 0 = 4 ∧ s.die.memState 1 = 4 ∧ s.die.enabled n = true) ∧
    (∃ s : State, ∃ ag : Agent, s.die.live = true ∧ s.die.mayControl ag = true ∧ s.die.stage = 4 ∧ s.die.boot.running = 0) :=
  ⟨⟨on { ((((die0.put Reg.BOOT_STAGE_STAGE 1).putW Reg.BOOT_FW_ADDR_LO (w32 (tileAddr 63 + 0x7FFC00))).put Reg.BOOT_FW_ADDR_HI_ADDR 1).put Reg.BOOT_FW_LEN_LEN 1024) with boot := { counted := true } }, .j3, by decide +kernel⟩,
   ⟨on die6, .j3, by decide +kernel⟩,
   ⟨on (die0.put Reg.BOOT_STAGE_STAGE 2), by decide +kernel⟩,
   ⟨on (die6.put Reg.BOOT_STAGE_STAGE 3), .j3, 63, by decide +kernel⟩,
   ⟨on (die6.put Reg.BOOT_STAGE_STAGE 4), .j3, by decide +kernel⟩⟩

theorem witness_FirmwareStartsOrFallsBack :
    (∃ s : State, ∃ n, s.die.live = true ∧ s.die.starting = true ∧ s.die.enabled n = true ∧ (s.die.tile n).microOk = false ∧ s.die.boot.micro.contains n = false) ∧
    (∃ s : State, ∃ n, s.die.live = true ∧ s.die.starting = true ∧ s.die.enabled n = true ∧ (s.die.tile n).microOk = false ∧ s.die.boot.micro.contains n = true) ∧
    (∃ s : State, s.die.live = true ∧ s.die.starting = true ∧ (∀ n, s.die.enabled n = true → (s.die.tile n).microOk = true)) ∧
    (∃ s : State, ∃ ag, s.die.live = true ∧ s.die.mayControl ag = true) ∧
    (∃ s : State, s.die.live = true ∧ s.die.boot.hold = true ∧ s.die.stage = 7 ∧ (s.die.get Reg.SEC_STATUS_STATE ≠ 0 ∨ s.die.boot.trainFailed = true ∨ s.die.on Reg.RST_CFG_AUTO_RESUME = false ∨ s.die.boot.resumeCopy = false)) ∧
    (∃ s : State, s.die.live = true ∧ s.die.boot.hold = true ∧ s.die.stage = 7 ∧ s.die.get Reg.SEC_STATUS_STATE = 0 ∧ s.die.boot.trainFailed = false ∧ s.die.on Reg.RST_CFG_AUTO_RESUME = true ∧ s.die.boot.resumeCopy = true) ∧
    (∃ s : State, s.die.live = true ∧ s.die.stage = 7 ∧ s.die.boot.running = 4 ∧ s.die.dramUp = true ∧ s.die.imageDetail s.die.resumeBytes ≠ 0) :=
  ⟨⟨on { die6.put Reg.BOOT_STAGE_STAGE 5 with boot := { running := 3 } }, 63, by decide +kernel⟩,
   ⟨on { die6.put Reg.BOOT_STAGE_STAGE 7 with boot := { running := 3, micro := [63] } }, 63, by decide +kernel⟩,
   ⟨on { die6.put Reg.BOOT_STAGE_STAGE 5 with boot := { running := 3 }, nv := { tileMap := 0 } }, by exact ⟨by decide +kernel, by decide +kernel, fun n h => absurd h (by simp [on, Die.enabled, Die.put, Die.putW, bit])⟩⟩,
   ⟨on die0, .j3, by decide +kernel⟩,
   ⟨on { die6.put Reg.BOOT_STAGE_STAGE 7 with boot := { hold := true } }, by decide +kernel⟩,
   ⟨on { (die6.put Reg.BOOT_STAGE_STAGE 7).raise Reg.RST_CFG_AUTO_RESUME with boot := { hold := true, resumeCopy := true } }, by decide +kernel⟩,
   ⟨on { die6.put Reg.BOOT_STAGE_STAGE 7 with boot := { running := 4 } }, by decide +kernel⟩⟩

theorem witness_ResetRequestsStartTheirDomain :
    (∃ s : State, ∃ ag : Agent, ∃ c, ∃ dom, ∃ cause, ∃ w, s.die.live = true ∧ s.die.mayWrite ag = true ∧ s.die.boot.resets = [] ∧ (c, dom, cause, w) ∈ [(Instr.resetModuleReq ag, 0, 3, 2 ^ 31), (Instr.resetCoreReq ag, 1, 4, 2 ^ 30), (Instr.resetComputeReq ag, 2, 7, 2 ^ 29), (Instr.resetHostportReq ag, 3, 11, 2 ^ 28), (Instr.resetMonitorReq ag, 4, 12, 2 ^ 27), (Instr.resetLinkReq ag 0, 5, 10, 1), (Instr.resetLinkReq ag 5, 10, 10, 32)]) ∧
    (∃ s : State, ∃ ag : Agent, ∃ k, s.die.live = true ∧ s.die.mayWrite ag = true ∧ s.die.boot.resets = [] ∧ k < 6) ∧
    (∃ s : State, ∃ ag : Agent, ∃ n, s.die.live = true ∧ s.die.mayWrite ag = true ∧ s.die.boot.resets = [] ∧ s.die.mayControl ag = true ∧ s.die.enabled n = true ∧ s.die.armed = false) ∧
    (∃ s : State, ∃ ag : Agent, ∃ n, s.die.live = true ∧ s.die.mayWrite ag = true ∧ s.die.mayControl ag = true ∧ s.die.enabled n = true ∧ s.die.armed = true) ∧
    (∃ s : State, ∃ ag : Agent, ∃ n, s.die.live = true ∧ s.die.mayWrite ag = true ∧ n < 64 ∧ s.die.mayControl ag = true ∧ s.die.enabled n = false) ∧
    (∃ s : State, ∃ ag : Agent, s.die.live = true ∧ s.die.mayWrite ag = true ∧ (s.die.boot.resets.any (fun r => r.dom == 1) = true)) ∧
    (∃ s : State, ∃ ag : Agent, ∃ link : Nat, s.die.live = true ∧ s.die.mayWrite ag = true ∧ link < 6) ∧
    (∃ s : State, ∃ ag : Agent, ∃ tile : Nat, s.die.live = true ∧ s.die.mayWrite ag = true ∧ s.die.mayControl ag = true ∧ tile < 64) :=
  ⟨⟨on die0, .j3, .resetLinkReq .j3 5, 10, 10, 32, by decide +kernel⟩,
   ⟨on die0, .j3, 5, by decide +kernel⟩,
   ⟨on die0, .j3, 63, by decide +kernel⟩,
   ⟨on (die0.put Reg.TIDE_STATUS_STATE 3), .j3, 63, by decide +kernel⟩,
   ⟨on { die0 with nv := { tileMap := 0x7FFFFFFFFFFFFFFF } }, .j3, 63, by decide +kernel⟩,
   ⟨on { die0 with boot := { resets := [{ dom := 1, cause := 4 }] } }, .j3, by decide +kernel⟩,
   ⟨on die0, .j3, 5, by decide +kernel⟩,
   ⟨on die0, .j3, 63, by decide +kernel⟩⟩

theorem witness_ResetsTakeAwayAndGiveBack :
    (∃ s : State, ∃ r, s.die.live = true ∧ s.die.boot.resets = [r] ∧ r.asserted = false ∧ r.dom = 0) ∧
    (∃ s : State, ∃ r, s.die.live = true ∧ s.die.boot.resets = [r] ∧ r.asserted = false ∧ r.dom = 2) ∧
    (∃ s : State, ∃ r, s.die.live = true ∧ s.die.boot.resets = [r] ∧ r.asserted = false ∧ r.dom = 1) ∧
    (∃ s : State, ∃ r, s.die.live = true ∧ s.die.boot.resets = [r] ∧ r.asserted = false ∧ r.dom = 3) ∧
    (∃ s : State, ∃ r, ∃ k, s.die.live = true ∧ s.die.boot.resets = [r] ∧ r.asserted = false ∧ r.dom = 5 + k ∧ k < 6 ∧ 2 ≤ s.die.lnkState k ∧ s.die.lnkState k ≤ 5) ∧
    (∃ s : State, ∃ r, ∃ n, ∃ a, s.die.live = true ∧ s.die.boot.resets = [r] ∧ r.asserted = false ∧ r.dom = 16 + n ∧ s.die.enabled n = true ∧ sramTile a = some n) ∧
    (∃ s : State, ∃ r, ∃ n, ∃ a, s.die.live = true ∧ s.die.boot.resets = [r] ∧ r.asserted = false ∧ r.dom = 16 + n ∧ s.die.enabled n = true ∧ inTile n a = false) ∧
    (∃ s : State, ∃ r, s.die.live = true ∧ s.die.boot.resets = [r] ∧ r.asserted = true ∧ r.cause < 16 ∧ (r.dom = 2 ∨ r.dom = 1) ∧ s.die.lowWater = false) ∧
    (∃ s : State, ∃ r, s.die.live = true ∧ s.die.boot.resets = [r] ∧ r.asserted = true ∧ r.cause < 16 ∧ r.dom = 2 ∧ s.die.lowWater = true) ∧
    (∃ s : State, ∃ r, s.die.live = true ∧ s.die.boot.resets = [r] ∧ r.asserted = true ∧ r.cause < 16 ∧ r.dom = 3) ∧
    (∃ s : State, ∃ f : AtRelease, f.nvOk = false ∧ s.carrier.pwrGood = true ∧ s.die.mgmt.powered = true ∧ s.die.mgmt.dieReset = true ∧ s.carrier.resetLow = false ∧ s.die.mgmt.cause < 16) ∧
    (∃ s : State, ∃ f : AtRelease, f.nvOk = true ∧ s.carrier.pwrGood = true ∧ s.die.mgmt.powered = true ∧ s.die.mgmt.dieReset = true ∧ s.carrier.resetLow = false ∧ s.die.mgmt.cause < 16 ∧ s.die.get Reg.SEC_STATUS_STATE ≠ 2 ∧ s.die.on Reg.BOOT_START_PENDING = false ∧ s.die.get Reg.BOOT_START_FAILCNT = 3) ∧
    (∃ s : State, ∃ f : AtRelease, f.nvOk = true ∧ s.carrier.pwrGood = true ∧ s.die.mgmt.powered = true ∧ s.die.mgmt.dieReset = true ∧ s.carrier.resetLow = false ∧ s.die.mgmt.cause < 16 ∧ s.die.get Reg.SEC_STATUS_STATE ≠ 2 ∧ s.die.on Reg.BOOT_START_PENDING = false ∧ s.die.get Reg.BOOT_START_FAILCNT ≠ 3) ∧
    (∃ s : State, s.die.live = true ∧ (s.die.boot.resets.any (fun r => !r.asserted) = true)) ∧
    (∃ s : State, s.die.live = true ∧ (s.die.boot.resets.any (fun r => s.die.releasable r) = true)) ∧
    (∃ s : State, s.carrier.pwrGood = true ∧ s.die.mgmt.powered = true ∧ s.die.mgmt.dieReset = true ∧ s.carrier.resetLow = false) :=
  ⟨⟨on { die6 with boot := { resets := [{ dom := 0, cause := 3, asserted := false }] } }, { dom := 0, cause := 3, asserted := false }, by decide +kernel⟩,
   ⟨on { die6 with boot := { resets := [{ dom := 2, cause := 3, asserted := false }] } }, { dom := 2, cause := 3, asserted := false }, by decide +kernel⟩,
   ⟨on { die6 with boot := { resets := [{ dom := 1, cause := 3, asserted := false }] } }, { dom := 1, cause := 3, asserted := false }, by decide +kernel⟩,
   ⟨on { die6 with boot := { resets := [{ dom := 3, cause := 3, asserted := false }] } }, { dom := 3, cause := 3, asserted := false }, by decide +kernel⟩,
   ⟨on { die6.put (Reg.LNK_STATUS_STATE 5) 5 with boot := { resets := [{ dom := 10, cause := 3, asserted := false }] } }, { dom := 10, cause := 3, asserted := false }, 5, by decide +kernel⟩,
   ⟨on { die6 with boot := { resets := [{ dom := 79, cause := 3, asserted := false }] } }, { dom := 79, cause := 3, asserted := false }, 63, tileAddr 63 + 0x7FFFFF, by decide +kernel⟩,
   ⟨on { die6 with boot := { resets := [{ dom := 79, cause := 3, asserted := false }] } }, { dom := 79, cause := 3, asserted := false }, 63, tileAddr 64, by decide +kernel⟩,
   ⟨on { die6 with boot := { resets := [{ dom := 2, cause := 15, asserted := true }] } }, { dom := 2, cause := 15, asserted := true }, by decide +kernel⟩,
   ⟨on { die6.put Reg.BOOT_STAGE_STAGE 8 with boot := { resets := [{ dom := 2, cause := 0, asserted := true }] } }, { dom := 2, cause := 0, asserted := true }, by decide +kernel⟩,
   ⟨on { die6 with boot := { resets := [{ dom := 3, cause := 11, asserted := true }] } }, { dom := 3, cause := 11, asserted := true }, by decide +kernel⟩,
   ⟨on { die0 with mgmt := { die0.mgmt with dieReset := true, cause := 15 } }, { nvOk := false }, by decide +kernel⟩,
   ⟨on { die0.put Reg.BOOT_START_FAILCNT 3 with mgmt := { die0.mgmt with dieReset := true } }, {}, by decide +kernel⟩,
   ⟨on { die0 with mgmt := { die0.mgmt with dieReset := true, cause := 15 } }, {}, by decide +kernel⟩,
   ⟨on { die6 with boot := { resets := [{ dom := 0, cause := 3, asserted := false }] } }, by decide +kernel⟩,
   ⟨on { die6 with boot := { resets := [{ dom := 2, cause := 15, asserted := true }] } }, by decide +kernel⟩,
   ⟨on { die0 with mgmt := { die0.mgmt with dieReset := true } }, by decide +kernel⟩⟩

theorem witness_ParksAndHangsRunTheirCourse :
    (∃ s : State, ∃ n : Nat, ∃ ag, s.die.live = true ∧ s.die.mayControl ag = true ∧ s.die.enabled n = true ∧ s.die.armed = true) ∧
    (∃ s : State, ∃ n : Nat, ∃ ag, s.die.live = true ∧ s.die.mayControl ag = true ∧ s.die.enabled n = true ∧ s.die.armed = false ∧ (s.die.tile n).parked = false) ∧
    (∃ s : State, ∃ n : Nat, ∃ ag, s.die.live = true ∧ s.die.mayControl ag = true ∧ s.die.enabled n = true ∧ (s.die.tile n).parking = true) ∧
    (∃ s : State, ∃ n : Nat, ∃ ag, s.die.live = true ∧ s.die.mayControl ag = true ∧ s.die.enabled n = true ∧ (s.die.tile n).parking = false) ∧
    (∃ s : State, ∃ n : Nat, s.die.live = true ∧ s.die.enabled n = true ∧ (s.die.tile n).parking = true ∧ (s.die.tile n).dispatching = false ∧ (s.die.tile n).stopping = false ∧ s.die.jobsDone n = true ∧ s.die.dmaRuns (.tile n) = [] ∧ (s.die.tile n).unparkDue = false) ∧
    (∃ s : State, ∃ n : Nat, ∃ c, s.die.live = true ∧ s.die.hangPossible c n = true ∧ s.die.boot.hangOpen = false) ∧
    (∃ s : State, ∃ n : Nat, ∃ c, s.die.live = true ∧ s.die.hangPossible c n = true ∧ s.die.boot.hangOpen = true) ∧
    (∃ s : State, s.die.live = true ∧ s.die.hangPossible 4 0 = true) ∧
    (∃ s : State, s.die.live = true ∧ s.die.boot.grace = true ∧ s.die.on Reg.RST_HANG_CFG_AUTO = false) ∧
    (∃ s : State, s.die.live = true ∧ s.die.boot.grace = true ∧ s.die.on Reg.RST_HANG_CFG_AUTO = true ∧ s.die.recent 5 = false ∧ s.die.boot.resets = [] ∧ (s.die.get Reg.RST_HANG_STATUS_CAUSE = 2 ∨ s.die.get Reg.RST_HANG_STATUS_CAUSE = 3)) ∧
    (∃ s : State, s.die.live = true ∧ s.die.on Reg.RST_HANG_CFG_REPLAY = true) ∧
    (∃ s : State, ∃ box, ∃ idx : Nat, ∃ r, s.die.live = true ∧ s.die.boxReady box = true ∧ s.die.boot.reports[idx]? = some r) ∧
    (∃ s : State, ∃ box, ∃ idx : Nat, s.die.live = true ∧ s.die.boxReady box = true ∧ s.die.boot.reports[idx]? = none) ∧
    (∃ s : State, ∃ ag : Agent, ∃ tile : Nat, s.die.live = true ∧ s.die.mayControl ag = true ∧ tile < 64) ∧
    (∃ s : State, ∃ cause : Nat, ∃ unit : Nat, s.die.live = true ∧ s.die.hangPossible cause unit = true) :=
  ⟨⟨on (die6.put Reg.TIDE_STATUS_STATE 3), 63, .j3, by decide +kernel⟩,
   ⟨on die6, 63, .j3, by decide +kernel⟩,
   ⟨on (die6.modTile 63 (fun x => { x with parking := true })), 63, .j3, by decide +kernel⟩,
   ⟨on die6, 63, .j3, by decide +kernel⟩,
   ⟨on (die6.modTile 63 (fun x => { x with parking := true })), 63, by decide +kernel⟩,
   ⟨on die6, 63, 4, by decide +kernel⟩,
   ⟨on { die6 with boot := { die6.boot with hangOpen := true } }, 63, 4, by decide +kernel⟩,
   ⟨on die6, by decide +kernel⟩,
   ⟨on { die6.clear Reg.RST_HANG_CFG_AUTO with boot := { grace := true } }, by decide +kernel⟩,
   ⟨on { (die6.raise Reg.RST_HANG_CFG_AUTO).put Reg.RST_HANG_STATUS_CAUSE 3 with boot := { grace := true } }, by decide +kernel⟩,
   ⟨on (die6.raise Reg.RST_HANG_CFG_REPLAY), by decide +kernel⟩,
   ⟨on { dieBox with boot := { dieBox.boot with reports := List.replicate 16 [] } }, 63, 15, [], by decide +kernel⟩,
   ⟨on { dieBox with boot := { dieBox.boot with reports := List.replicate 16 [] } }, 63, 16, by decide +kernel⟩,
   ⟨on die6, .j3, 63, by decide +kernel⟩,
   ⟨on die6, 4, 63, by decide +kernel⟩⟩

theorem witness_SecurityBlockObeysOwnersOnly :
    (∃ s : State, ∃ ag : Agent, ∃ w : Nat, ∃ c, c ∈ [Instr.keyWrite ag w, .unlock ag, .debugEnWrite ag true, .debugEnWrite ag false, .policyWrite ag w, .svnMinWrite ag w, .rootRevoke ag w] ∧ s.die.live = true ∧ s.die.mayWrite ag = true ∧ w < 2 ^ 32 ∧ s.die.isOwner ag = false) ∧
    (∃ s : State, ∃ ag : Agent, ∃ w : Nat, s.die.live = true ∧ s.die.mayWrite ag = true ∧ w < 2 ^ 32 ∧ s.die.isOwner ag = true ∧ s.die.sec.extLow = true) ∧
    (∃ s : State, ∃ ag : Agent, ∃ w : Nat, s.die.live = true ∧ s.die.mayWrite ag = true ∧ w < 2 ^ 32 ∧ s.die.isOwner ag = true ∧ s.die.sec.extLow = false ∧ s.die.secState = 1) ∧
    (∃ s : State, ∃ ag : Agent, ∃ w : Nat, s.die.live = true ∧ s.die.mayWrite ag = true ∧ w < 2 ^ 32 ∧ s.die.isOwner ag = true ∧ (∀ i, i < 6 → bits w (2 * i) 2 ≠ 3) ∧ s.die.secState = 0) ∧
    (∃ s : State, ∃ ag : Agent, ∃ w : Nat, s.die.live = true ∧ s.die.mayWrite ag = true ∧ w < 2 ^ 32 ∧ s.die.isOwner ag = true ∧ (∀ i, i < 6 → bits w (2 * i) 2 ≠ 3) ∧ s.die.secState ≠ 0 ∧ policyLowers (s.die.get Reg.SEC_POLICY_POL) (bits w 0 12) = true) ∧
    (∃ s : State, ∃ ag : Agent, ∃ w : Nat, s.die.live = true ∧ s.die.mayWrite ag = true ∧ w < 2 ^ 32 ∧ s.die.isOwner ag = true ∧ bit w 31 = true ∧ (s.die.keyResult ag (bits w 0 3) (bits w 4 3)).1 ≠ 0) :=
  ⟨⟨on die6, .j3, 2 ^ 32 - 1, .keyWrite .j3 (2 ^ 32 - 1), by decide +kernel⟩,
   ⟨on { withSess (sess 15) die6 with sec := { extLow := true } }, .session 7, 0, by decide +kernel⟩,
   ⟨on (withSess (sess 15) (die6.put Reg.SEC_STATUS_STATE 1)), .session 7, 0, by decide +kernel⟩,
   ⟨on (withSess (sess 15) die6), .session 7, 0x2AA, by decide +kernel⟩,
   ⟨on (withSess (sess 15) ((die6.put Reg.SEC_STATUS_STATE 1).put Reg.SEC_POLICY_POL 0x555)), .session 7, 0x155, by decide +kernel⟩,
   ⟨on (withSess (sess 15) (die6.put Reg.SEC_STATUS_STATE 1)), .session 7, 2 ^ 31, by decide +kernel⟩⟩

theorem witness_AlarmsAndAttestationKeepTheirRules :
    (∃ s : State, ∃ src, ∃ d1 : Die, s.die.live = true ∧ src < 6 ∧ (s.die.sec.armed = true ∨ src = 3 ∨ src = 4) ∧ d1 = s.die.put Reg.SEC_ALARM_SRC (setBits (s.die.get Reg.SEC_ALARM_SRC) src 1 1) ∧ d1.strongest = 0) ∧
    (∃ s : State, ∃ src, ∃ d1 : Die, s.die.live = true ∧ src < 6 ∧ (s.die.sec.armed = true ∨ src = 3 ∨ src = 4) ∧ d1 = s.die.put Reg.SEC_ALARM_SRC (setBits (s.die.get Reg.SEC_ALARM_SRC) src 1 1) ∧ d1.strongest = 1 ∧ s.die.sec.respRunning < 2) ∧
    (∃ s : State, ∃ src, ∃ d1 : Die, s.die.live = true ∧ src < 6 ∧ (s.die.sec.armed = true ∨ src = 3 ∨ src = 4) ∧ d1 = s.die.put Reg.SEC_ALARM_SRC (setBits (s.die.get Reg.SEC_ALARM_SRC) src 1 1) ∧ d1.strongest = 2 ∧ s.die.sec.respRunning < 3) ∧
    (∃ s : State, ∃ i, s.die.secState = 2 ∧ i < 8) ∧
    (∃ s : State, s.die.live = true ∧ s.die.sec.armed = false) ∧
    (∃ s : State, ∃ box, ∃ nonce : List Byte, s.die.boxReady box = true ∧ nonce.length = 32 ∧ s.die.get Reg.SEC_XMSS_LEFT_LEFT = 0) ∧
    (∃ s : State, ∃ box, ∃ nonce : List Byte, s.die.boxReady box = true ∧ nonce.length = 32 ∧ s.die.get Reg.SEC_XMSS_LEFT_LEFT ≠ 0 ∧ s.die.attestCached box nonce = true) ∧
    (∃ s : State, ∃ box, ∃ nonce : List Byte, s.die.boxReady box = true ∧ nonce.length = 32 ∧ s.die.get Reg.SEC_XMSS_LEFT_LEFT ≠ 0 ∧ s.die.attestCached box nonce = false) ∧
    (∃ s : State, ∃ box, s.die.boxReady box = true ∧ s.die.boxOwnerSession box = false) ∧
    (∃ s : State, ∃ box, ∃ n, s.die.boxReady box = true ∧ s.die.boxOwnerSession box = true ∧ (n < 60 ∨ 86400 < n)) ∧
    (∃ s : State, ∃ box, ∃ n, s.die.boxReady box = true ∧ s.die.boxOwnerSession box = true ∧ 60 ≤ n ∧ n ≤ 86400) ∧
    (∃ s : State, ∃ src : Nat, s.die.live = true ∧ src < 6 ∧ (s.die.sec.armed || src == 3 || src == 4) = true) ∧
    (∃ s : State, ∃ box : Nat, s.die.boxReady box = true) :=
  ⟨⟨on (alarm5 0), 5, (alarm5 0).put Reg.SEC_ALARM_SRC (setBits ((alarm5 0).get Reg.SEC_ALARM_SRC) 5 1 1), by decide +kernel⟩,
   ⟨on (alarm5 1), 5, (alarm5 1).put Reg.SEC_ALARM_SRC (setBits ((alarm5 1).get Reg.SEC_ALARM_SRC) 5 1 1), by decide +kernel⟩,
   ⟨on (alarm5 2), 5, (alarm5 2).put Reg.SEC_ALARM_SRC (setBits ((alarm5 2).get Reg.SEC_ALARM_SRC) 5 1 1), by decide +kernel⟩,
   ⟨on (die6.put Reg.SEC_STATUS_STATE 2), 7, by decide +kernel⟩,
   ⟨on die6, by decide +kernel⟩,
   ⟨on (dieBox.put Reg.SEC_XMSS_LEFT_LEFT 0), 63, List.replicate 32 0, by decide +kernel⟩,
   ⟨on (dieBox.put Reg.SEC_XMSS_LEFT_LEFT 1), 63, List.replicate 32 0, by decide +kernel⟩,
   ⟨on (dieBox.put Reg.SEC_XMSS_LEFT_LEFT 1), 63, List.replicate 32 255, by decide +kernel⟩,
   ⟨on (dieBox.put (Reg.MBX_OWNER_OWNER 63) 8), 63, by decide +kernel⟩,
   ⟨on dieBox, 63, 59, by decide +kernel⟩,
   ⟨on dieBox, 63, 86400, by decide +kernel⟩,
   ⟨on die6, 3, by decide +kernel⟩,
   ⟨on dieBox, 63, by decide +kernel⟩⟩

theorem witness_ConvertersRunTheirSequences :
    (∃ s : State, s.die.live = true ∧ s.die.convOn 0 = true ∧ s.die.convOn 1 = true ∧ (∀ c, c < 2 → (s.die.conv c).run = none ∧ (s.die.conv c).resume = [] ∧ (s.die.conv c).pending = [])) ∧
    (∃ s : State, ∃ l, s.die.live = true ∧ s.die.convOn 0 = true ∧ (s.die.conv 0).run = some (0, l)) ∧
    (∃ s : State, ∃ src, s.die.live = true ∧ 1 ≤ src ∧ src ≤ 5 ∧ s.die.convOn 0 = true ∧ s.die.jseq 0 src ≠ [] ∧ ((s.die.conv 0).pending.any (fun p => p.1 == src) = true)) ∧
    (∃ s : State, ∃ src, ∃ rest, s.die.live = true ∧ 1 ≤ src ∧ src ≤ 5 ∧ s.die.convOn 0 = true ∧ s.die.jseq 0 src ≠ [] ∧ ((s.die.conv 0).pending.any (fun p => p.1 == src) = false) ∧ (s.die.conv 0).run = some (0, rest)) ∧
    (∃ s : State, ∃ c, ∃ src, s.die.live = true ∧ c < 2 ∧ (s.die.conv c).run = none ∧ nextSource (s.die.conv c).pending = some src) ∧
    (∃ s : State, ∃ ag, ∃ w, s.die.live = true ∧ s.die.mayControl ag = true ∧ w < 2 ^ 32 ∧ s.die.on Reg.MON_CTRL_EN_A = true ∧ bits w 0 1 = 0) ∧
    (∃ s : State, ∃ ag, ∃ w, s.die.live = true ∧ s.die.mayControl ag = true ∧ w < 2 ^ 32 ∧ s.die.on Reg.MON_CTRL_EN_A = false ∧ bits w 0 1 = 1 ∧ (s.die.conv 0).downing = true) ∧
    (∃ s : State, s.die.live = true ∧ s.die.fwRuns = true) ∧
    (∃ s : State, ∃ c, ∃ raw, ∃ src, ∃ ch, ∃ rest, s.die.live = true ∧ c < 2 ∧ raw < 4096 ∧ (s.die.conv c).run = some (src, ch :: rest) ∧ rest ≠ [] ∧ ch ≠ 0 ∧ ch ≠ 12) ∧
    (∃ s : State, ∃ raw, ∃ src, ∃ rest, s.die.live = true ∧ raw < 4096 ∧ (s.die.conv 0).run = some (src, 12 :: rest)) ∧
    (∃ s : State, ∃ c, ∃ raw, ∃ rest, s.die.live = true ∧ c < 2 ∧ raw < 4096 ∧ (s.die.conv c).run = some (0, 0 :: rest)) ∧
    (∃ s : State, ∃ c, s.die.live = true ∧ c < 2 ∧ (s.die.conv c).run = none ∧ (s.die.conv c).pending = []) ∧
    (∃ s : State, ∃ u, s.die.live = true ∧ u < 2 ∧ (s.die.conv u).downing = true) ∧
    (∃ s : State, s.die.live = true ∧ s.die.sense.intDowning = true) ∧
    (∃ s : State, s.die.live = true ∧ (s.die.convOn 0 || s.die.convOn 1) = true) ∧
    (∃ s : State, ∃ conv : Nat, ∃ raw : Nat, s.die.live = true ∧ conv < 2 ∧ raw < 4096 ∧ (s.die.conv conv).run.isSome = true) ∧
    (∃ s : State, ∃ source : Nat, s.die.live = true ∧ 1 ≤ source ∧ source ≤ 5) ∧
    (∃ s : State, ∃ conv : Nat, s.die.live = true ∧ conv < 2 ∧ (s.die.conv conv).run.isNone = true ∧ (s.die.conv conv).pending.isEmpty = false) :=
  ⟨⟨on dieConv, by decide +kernel⟩,
   ⟨on (withConv 0 { run := some (0, [3]) }), [3], by decide +kernel⟩,
   ⟨on (withConv 0 { pending := [(5, [])] }), 5, by decide +kernel⟩,
   ⟨on (withConv 0 { run := some (0, []) }), 5, [], by decide +kernel⟩,
   ⟨on (withConv 1 { pending := [(5, [])] }), 1, 5, by decide +kernel⟩,
   ⟨on dieConv, .j3, 2 ^ 32 - 2, by decide +kernel⟩,
   ⟨on ((withConv 0 { downing := true }).clear Reg.MON_CTRL_EN_A), .j3, 2 ^ 32 - 1, by decide +kernel⟩,
   ⟨on die6, by decide +kernel⟩,
   ⟨on (withConv 1 { run := some (0, [1, 2]) }), 1, 4095, 0, 1, [2], by decide +kernel⟩,
   ⟨on (withConv 0 { run := some (0, [12]) }), 4095, 0, [], by decide +kernel⟩,
   ⟨on (withConv 1 { run := some (0, [0]) }), 1, 4095, [], by decide +kernel⟩,
   ⟨on (withConv 1 {}), 1, by decide +kernel⟩,
   ⟨on (withConv 1 { downing := true }), 1, by decide +kernel⟩,
   ⟨on (sense (fun x => { x with intDowning := true }) die6), by decide +kernel⟩,
   ⟨on dieConv, by decide +kernel⟩,
   ⟨on (withConv 1 { run := some (0, [1]) }), 1, 4095, by decide +kernel⟩,
   ⟨on die6, 5, by decide +kernel⟩,
   ⟨on (withConv 1 { pending := [(5, [])] }), 1, by decide +kernel⟩⟩

theorem witness_GuardIntegratorsAndTripAct :
    (∃ s : State, s.die.live = true ∧ 8000 ≤ s.die.sense.g2 ∧ s.die.sense.g2Fired = false) ∧
    (∃ s : State, s.die.live = true ∧ s.die.on Reg.PWR_GUARD_ACTIVE = true ∧ s.die.guardPresent = false) ∧
    (∃ s : State, s.die.live = true ∧ s.die.intSilent = false) ∧
    (∃ s : State, s.die.live = true ∧ s.die.intSilent = false ∧ (∀ p ∈ s.die.sense.scalNext, p.1 < 4)) ∧
    (∃ s : State, s.die.live = true ∧ s.die.on Reg.MON_CTRL_EN_INT = true ∧ s.die.sense.settled = false ∧ s.die.sense.intDowning = false) ∧
    (∃ s : State, ∃ p, s.die.live = true ∧ s.die.fwRuns = true ∧ s.die.sense.fired = false ∧ s.die.on Reg.PWR_GUARD_ACTIVE = false ∧ p = (s.die.sense.means.take 10).sum / max 1 (s.die.sense.means.take 10).length ∧ p ≤ s.die.sense.cap * 1000 ∧ 98 * s.die.sense.cap * 1000 ≤ p * 100) ∧
    (∃ s : State, ∃ p, s.die.live = true ∧ s.die.fwRuns = true ∧ s.die.sense.fired = false ∧ s.die.on Reg.PWR_GUARD_ACTIVE = false ∧ p = (s.die.sense.means.take 10).sum / max 1 (s.die.sense.means.take 10).length ∧ s.die.sense.cap * 1000 < p ∧ 255 ≤ s.die.sense.sCap ∧ s.die.sense.kCap = 0) ∧
    (∃ s : State, ∃ p, s.die.live = true ∧ s.die.fwRuns = true ∧ s.die.sense.fired = false ∧ s.die.on Reg.PWR_GUARD_ACTIVE = false ∧ p = (s.die.sense.means.take 10).sum / max 1 (s.die.sense.means.take 10).length ∧ p * 100 < 98 * s.die.sense.cap * 1000 ∧ s.die.sense.kCap = 0) ∧
    (∃ s : State, s.die.live = true ∧ s.die.on Reg.THM_TRIP_TRIP = false ∧ s.die.armed = false) ∧
    (∃ s : State, s.die.live = true ∧ s.die.on Reg.THM_TRIP_TRIP = false ∧ s.die.armed = true ∧ s.die.tide.fault = none) ∧
    (∃ s : State, s.die.live = true ∧ s.die.on Reg.THM_TRIP_TRIP = true) :=
  ⟨⟨on (sense (fun x => { x with g2 := 8000 }) die6), by decide +kernel⟩,
   ⟨on (sense (fun x => { x with settled := true }) ((die6.raise Reg.PWR_GUARD_ACTIVE).raise Reg.MON_CTRL_EN_INT)), by decide +kernel⟩,
   ⟨on (sense (fun x => { x with settled := true }) (die6.raise Reg.MON_CTRL_EN_INT)), by decide +kernel⟩,
   ⟨on (sense (fun x => { x with settled := true, scalNext := [(3, 0, 0)] }) (die6.raise Reg.MON_CTRL_EN_INT)), by decide +kernel⟩,
   ⟨on (sense (fun x => { x with settled := false }) (die6.raise Reg.MON_CTRL_EN_INT)), by decide +kernel⟩,
   ⟨on (sense (fun x => { x with means := [700000] }) die6), 700000, by decide +kernel⟩,
   ⟨on (sense (fun x => { x with means := [700001], sCap := 255 }) die6), 700001, by decide +kernel⟩,
   ⟨on die6, 0, by decide +kernel⟩,
   ⟨on die6, by decide +kernel⟩,
   ⟨on (die6.put Reg.TIDE_STATUS_STATE 4), by decide +kernel⟩,
   ⟨on (die6.raise Reg.THM_TRIP_TRIP), by decide +kernel⟩⟩

theorem witness_PowerCommandsAnswerInRange :
    (∃ s : State, ∃ box : Nat, ∃ cap, ∃ floor, ∃ step, s.die.boxReady box = true ∧ (cap < 300 ∨ 750 < cap ∨ 64 < step ∨ 2 < bits floor 16 16)) ∧
    (∃ s : State, ∃ box : Nat, ∃ cap, ∃ floor, ∃ step, s.die.boxReady box = true ∧ 300 ≤ cap ∧ cap ≤ 750 ∧ step ≤ 64 ∧ bits floor 16 16 ≤ 2) ∧
    (∃ s : State, ∃ box : Nat, ∃ p, ∃ w, ∃ c, s.die.boxReady box = true ∧ (p < 1 ∨ 1000 < p ∨ w < 70 ∨ 110 < w ∨ c < w + 2 ∨ 112 < c)) ∧
    (∃ s : State, ∃ box : Nat, ∃ p, ∃ w, ∃ c, s.die.boxReady box = true ∧ 1 ≤ p ∧ p ≤ 1000 ∧ 70 ≤ w ∧ w ≤ 110 ∧ w + 2 ≤ c ∧ c ≤ 112) ∧
    (∃ s : State, ∃ box : Nat, ∃ p : SyscalParams, s.die.boxReady box = true ∧ pointUnstable p = true) ∧
    (∃ s : State, ∃ box : Nat, ∃ p : SyscalParams, s.die.boxReady box = true ∧ pointUnstable p = false ∧ p.high = true ∧ look s.die.sense.points (b2n p.current * 2) = none) ∧
    (∃ s : State, ∃ box : Nat, ∃ p : SyscalParams, ∃ low, s.die.boxReady box = true ∧ pointUnstable p = false ∧ p.high = true ∧ look s.die.sense.points (b2n p.current * 2) = some low ∧ p.reference < low.1 + 5000) ∧
    (∃ s : State, ∃ box : Nat, ∃ p : SyscalParams, s.die.boxReady box = true ∧ pointUnstable p = false ∧ p.high = false) ∧
    (∃ s : State, ∃ box : Nat, ∃ p : SyscalParams, ∃ low, s.die.boxReady box = true ∧ pointUnstable p = false ∧ p.high = true ∧ look s.die.sense.points (b2n p.current * 2) = some low ∧ low.1 + 5000 ≤ p.reference) ∧
    (∃ s : State, ∃ box : Nat, ∃ i, s.die.boxReady box = true ∧ look s.die.sense.points (i % 2 * 2) = none) ∧
    (∃ s : State, ∃ box : Nat, ∃ i, ∃ l, ∃ h, ∃ a, ∃ b, s.die.boxReady box = true ∧ look s.die.sense.points (i % 2 * 2) = some l ∧ look s.die.sense.points (i % 2 * 2 + 1) = some h ∧ solveCoeff (l.1, l.2.1) (h.1, h.2.1) = some a ∧ solveCoeff (l.1, l.2.2) (h.1, h.2.2) = some b) ∧
    (∃ s : State, ∃ box : Nat, ∃ i, s.die.boxReady box = true ∧ (look s.die.sense.points (i % 2 * 2) = none ∨ look s.die.sense.points (i % 2 * 2 + 1) = none)) ∧
    (∃ s : State, ∃ box : Nat, ∃ i, ∃ l, ∃ h, s.die.boxReady box = true ∧ look s.die.sense.points (i % 2 * 2) = some l ∧ look s.die.sense.points (i % 2 * 2 + 1) = some h ∧ (solveCoeff (l.1, l.2.1) (h.1, h.2.1) = none ∨ solveCoeff (l.1, l.2.2) (h.1, h.2.2) = none)) :=
  ⟨⟨on dieBox, 63, 299, 0, 64, by decide +kernel⟩,
   ⟨on dieBox, 63, 750, 0x20000, 64, by decide +kernel⟩,
   ⟨on dieBox, 63, 1, 110, 111, by decide +kernel⟩,
   ⟨on dieBox, 63, 1000, 110, 112, by decide +kernel⟩,
   ⟨on dieBox, 63, sysPoint true true 0, by decide +kernel⟩,
   ⟨on dieBox, 63, sysPoint true false 0, by decide +kernel⟩,
   ⟨on (sense (fun x => { x with points := [(2, 1000, 0, 0)] }) dieBox), 63, sysPoint true false 5999, (1000, 0, 0), by decide +kernel⟩,
   ⟨on dieBox, 63, sysPoint false false 0, by decide +kernel⟩,
   ⟨on (sense (fun x => { x with points := [(2, 1000, 0, 0)] }) dieBox), 63, sysPoint true false 6000, (1000, 0, 0), by decide +kernel⟩,
   ⟨on dieBox, 63, 1, by decide +kernel⟩,
   ⟨on (sense (fun x => { x with points := [(2, 0, 0, 0), (3, 5000, 5000, 5000)] }) dieBox), 63, 1, (0, 0, 0), (5000, 5000, 5000), (0, 0), (0, 0), by decide +kernel⟩,
   ⟨on dieBox, 63, 1, by decide +kernel⟩,
   ⟨on (sense (fun x => { x with points := [(2, 0, 0, 0), (3, 0, 5000, 5000)] }) dieBox), 63, 1, (0, 0, 0), (0, 5000, 5000), by decide +kernel⟩⟩

/-- A descriptor of operation `op` with COUNT, PARAM0 and PARAM1: A at offset 0 of region 0, B at 1 MB, D at 2 MB, X at 3 MB. -/
def dsc (op count p0 p1 : Nat) : Desc :=
  { w0 := w32 (op * 2 ^ 24), w1 := w32 (count * 2 ^ 16 + p0), a := 0, b := 0x100000, d := 0x200000, x := 0x300000,
    p1 := w32 p1, w7 := 0 }

/-- The same without operand X. -/
def dscN (op count p0 p1 : Nat) : Desc := { dsc op count p0 p1 with x := noOp }

/-- Tile 63 with region 0, of 8 MB and every right, and thread 63 of class `cls`. -/
def dieTile (cls : Nat) : Die :=
  (die6.putW (Reg.ENG_RGN_LIMIT 63 0) (w32 0xBE020000)).put (Reg.ENG_THREAD_CLASS 63 63) cls

/-- Tile 63 with these parts. -/
def withTile (x : Tile1) (d : Die) : Die := d.setTile 63 x

/-- A descriptor that can run, in thread 63. -/
def exOf (c : Desc) : Exec := { thread := 63, desc := c }

/-- Tile 63 with this descriptor ready to run in thread 63 of class `cls`. -/
def running (cls : Nat) (c : Desc) : State := on (withTile { execs := [exOf c], pipe := [0] } (dieTile cls))

/-- Region 1 of tile 63 as a full/empty buffer that lies after region 0's first 4 MB. -/
def feRegion (d : Die) : Die :=
  ((d.putW (Reg.ENG_RGN_LIMIT 63 0) (w32 0xBE010000)).put (Reg.ENG_RGN_BASE_BASE 63 1) 0x10000).putW (Reg.ENG_RGN_LIMIT 63 1)
    (w32 0xFE000010)

/-- A descriptor for every operation of CleanDescriptorsRunInsideTheirOperands. -/
def cleanSamples : List (Nat × Desc) :=
  [(ocNop, dsc 0x00 0 0 0), (ocCopy, dsc 0x01 65535 0 0), (ocFill, dsc 0x02 65535 0 7), (ocBufWait, dsc 0x05 1 0 0),
   (ocBufSet, dsc 0x06 1 3 0), (ocEvent, dsc 0x08 1 0 5), (ocLoad, dscN 0x03 1 1 0), (ocStore, dscN 0x04 1 1 0),
   (ocRotate, dsc 0x10 1 1 9), (ocQuantA, dsc 0x11 1 0x101 0), (ocStroke, dsc 0x13 1 0 0), (ocRefStroke, dsc 0x14 1 0 0),
   (ocVsum, dsc 0x1A 1 2 0)] ++
  [(ocSquant, dsc 0x20 1 0x2000 0), (ocSdeq, dsc 0x21 1 0x103 0), (ocLinear, dsc 0x22 1 2 64), (ocSoftmax, dsc 0x24 1 0 0),
   (ocNorm, dsc 0x25 1 1 0), (ocAct, dsc 0x26 1 6 0), (ocEwise, dsc 0x27 1 4 0), (ocPosrot, dsc 0x28 1 0 0),
   (ocSteer, dsc 0x29 1 1 0), (ocKvWrite, dsc 0x2A 1 1 0), (ocSelect, dsc 0x2B 1 1 0)]

/-- Every operation of CleanDescriptorsRunInsideTheirOperands has a descriptor that is clean in a SCHED thread. -/
theorem witness_CleanDescriptors_operations : cleanSamples.length = 24 ∧
    ∀ p ∈ cleanSamples, (running 1 p.2).die.runsClean 63 63 p.2 = true ∧ descOp p.2 = p.1 := by decide +kernel

/-- A record of logical array 0. -/
def rec0 : Record := { header := [], columns := [], offr := [], logical := 0, tag := 0, layer := 0 }

/-- A DRAM request of thread 63 that holds a slot. -/
def req0 (w : Option (List Byte)) (sram : Option Nat) : Req :=
  { cls := .sched, thread := 63, tag := 0, addr := dramBase, len := 64, write := w, sram := sram, issued := true }

/-- The descriptor of zeros: NOP. -/
def dscZero : Desc := ⟨0, 0, 0, 0, 0, 0, 0, 0⟩

/-- The second unit of a STROKE finds the input register of its array full. -/
def strokeBlocked : State :=
  on (((withTile { execs := [{ exOf (dsc 0x13 2 0 0) with units := 1 }], pipe := [0] } (dieTile 1)).raise (Reg.TILE_AMAP_VALID 63 0)).put
    (Reg.TILE_AMAP_PHYS 63 0) 271 |>.put (Reg.ARR_STATE_STATE 63 271) 4 |>.setArr 63 271 { waiting := [strk] })

/-- A tile that dispatches its stream of thread 63 at offset `off` of region 0. -/
def streaming (off : Nat) (d : Die) : Die := withTile { dispatching := true, streams := [(63, off)] } d

theorem witness_CleanDescriptorsRunInsideTheirOperands :
    (∃ s : State, ∃ n : Nat, ∃ th : Nat, ∃ c : Desc, ∃ k : Instr × Nat, ∃ a, s.die.runsClean n th c = true ∧ k ∈ [(.nop n th c, ocNop), (.copy n th c, ocCopy), (.fill n th c, ocFill), (.bufWait n th c, ocBufWait), (.bufSet n th c, ocBufSet), (.event n th c, ocEvent), (.load n th c, ocLoad), (.store n th c, ocStore), (.rotate n th c, ocRotate), (.quantA n th c, ocQuantA), (.refStroke n th c, ocRefStroke), (.vsum n th c, ocVsum), (.squant n th c, ocSquant), (.sdeq n th c, ocSdeq), (.linear n th c, ocLinear), (.softmax n th c, ocSoftmax), (.norm n th c, ocNorm), (.act n th c, ocAct), (.ewise n th c, ocEwise), (.posrot n th c, ocPosrot), (.steer n th c, ocSteer), (.kvWrite n th c, ocKvWrite), (.select n th c, ocSelect)] ∧ descOp c = k.2 ∧ (∀ x ∈ s.die.dstSpans n c, a < s.die.rgnAddr n x.rgn x.off ∨ s.die.rgnAddr n x.rgn x.off + x.len ≤ a)) ∧
    (∃ s : State, ∃ n : Nat, ∃ th : Nat, ∃ c : Desc, ∃ e, s.die.runsClean n th c = true ∧ descOp c = ocStroke ∧ s.die.runnable n th c = some e ∧ e.units ≤ descCount c ∧ (∀ i, i < descCount c → s.die.inputFree n (strokeArray c i) = true) ∧ (∀ i j a, i < j → j < descCount c → s.die.serving n (strokeArray c i) = some a → s.die.serving n (strokeArray c j) ≠ some a)) ∧
    (∃ s : State, ∃ n : Nat, ∃ th : Nat, ∃ c : Desc, ∃ e, s.die.runsClean n th c = true ∧ descOp c = ocStroke ∧ s.die.runnable n th c = some e ∧ e.units < descCount c ∧ s.die.inputFree n (strokeArray c e.units) = false ∧ descFeSrc c = false) :=
  ⟨⟨running 1 (dsc 0x01 65535 0 0), 63, 63, dsc 0x01 65535 0 0, (.copy 63 63 (dsc 0x01 65535 0 0), ocCopy), tileAddr 63 + 0x1FFFFF, by decide +kernel⟩,
   ⟨running 1 (dsc 0x13 1 0 0), 63, 63, dsc 0x13 1 0 0, exOf (dsc 0x13 1 0 0), by decide +kernel, by decide +kernel, by decide +kernel, by decide +kernel, by decide +kernel, fun i j a h g => absurd g (by rw [show descCount (dsc 0x13 1 0 0) = 1 by decide +kernel]; omega)⟩,
   ⟨strokeBlocked, 63, 63, dsc 0x13 2 0 0, { exOf (dsc 0x13 2 0 0) with units := 1 }, by decide +kernel⟩⟩

theorem witness_MoversAndControlLeaveTheirResults :
    (∃ s : State, ∃ n : Nat, ∃ th : Nat, ∃ c : Desc, s.die.runsClean n th c = true ∧ descOp c = ocCopy ∧ (s.die.rgnFE n (opRgn c.a) && s.die.isPoison n (opRgn c.a)) = false ∧ apart (s.die.opAt n c.a) (64 * descCount c) (s.die.opAt n c.d) (64 * descCount c)) ∧
    (∃ s : State, ∃ n : Nat, ∃ th : Nat, ∃ c : Desc, s.die.runsClean n th c = true ∧ descOp c = ocFill) ∧
    (∃ s : State, ∃ n : Nat, ∃ th : Nat, ∃ c : Desc, s.die.runsClean n th c = true ∧ descOp c = ocLoad ∧ hasOp c.x = false ∧ (∀ i, i < descCount c → tileReqOk ocLoad (s.die.threadClass n th) (unitAddr (descP1 c) + loadUnit (descP0 c) * i) (loadUnit (descP0 c)) = true)) ∧
    (∃ s : State, ∃ n : Nat, ∃ th : Nat, ∃ c : Desc, s.die.runsClean n th c = true ∧ descOp c = ocStore ∧ hasOp c.x = false ∧ (∀ i, i < descCount c → tileReqOk ocStore (s.die.threadClass n th) (unitAddr (descP1 c) + loadUnit (descP0 c) * i) (loadUnit (descP0 c)) = true)) ∧
    (∃ s : State, ∃ n : Nat, ∃ th : Nat, ∃ c : Desc, s.die.runsClean n th c = true ∧ descOp c = ocBufSet ∧ descFeSrc c = false ∧ s.die.rgnFE n (opRgn c.d) = true) ∧
    (∃ s : State, ∃ n : Nat, ∃ th : Nat, ∃ c : Desc, s.die.runsClean n th c = true ∧ descOp c = ocEvent) ∧
    (∃ s : State, ∃ n : Nat, ∃ th : Nat, ∃ c : Desc, s.die.runsClean n th c = true ∧ descOp c = ocTideEnd ∧ (s.die.execsOf n th).length = 1) ∧
    (∃ s : State, ∃ n : Nat, ∃ th : Nat, ∃ c : Desc, s.die.runsClean n th c = true ∧ descOp c = ocDmaStart ∧ s.die.get (chState (.tile n) (descP0 c)) = 0) ∧
    (∃ s : State, ∃ n : Nat, ∃ th : Nat, ∃ c : Desc, s.die.runsClean n th c = true ∧ descOp c = ocPost ∧ (∀ e, s.die.runnable n th c = some e → e.units = 0) ∧ (s.die.rgnFE n (opRgn c.a) && s.die.isPoison n (opRgn c.a)) = false ∧ (s.die.tile n).pool.length + descCount c ≤ 256) ∧
    (∃ s : State, ∃ n : Nat, ∃ th : Nat, ∃ c : Desc, ∃ e, s.die.runsClean n th c = true ∧ descOp c = ocPost ∧ s.die.runnable n th c = some e ∧ (s.die.rgnFE n (opRgn c.a) && s.die.isPoison n (opRgn c.a)) = false ∧ e.units ≤ descCount c ∧ (s.die.tile n).pool.length + (descCount c - e.units) ≤ 256) :=
  ⟨⟨running 1 (dsc 0x01 32768 0 0), 63, 63, dsc 0x01 32768 0 0, by unfold apart; decide +kernel⟩,
   ⟨running 1 (dsc 0x02 1 0 0xFFFFFFFF), 63, 63, dsc 0x02 1 0 0xFFFFFFFF, by decide +kernel⟩,
   ⟨running 1 (dscN 0x03 1 1 0), 63, 63, dscN 0x03 1 1 0, by decide +kernel⟩,
   ⟨running 1 (dscN 0x04 1 0 0), 63, 63, dscN 0x04 1 0 0, by decide +kernel⟩,
   ⟨on (feRegion (withTile { execs := [exOf ({ dsc 0x06 1 3 0 with d := 0x01000000 })] } (dieTile 1))), 63, 63, { dsc 0x06 1 3 0 with d := 0x01000000 }, by decide +kernel⟩,
   ⟨running 1 (dsc 0x08 1 0 0), 63, 63, dsc 0x08 1 0 0, by decide +kernel⟩,
   ⟨running 1 (dsc 0x07 0 0 0), 63, 63, dsc 0x07 0 0 0, by decide +kernel⟩,
   ⟨running 1 (dsc 0x09 1 15 0), 63, 63, dsc 0x09 1 15 0, by decide +kernel⟩,
   ⟨running 1 (dsc 0x0A 256 0 0), 63, 63, dsc 0x0A 256 0 0, by exact ⟨by decide +kernel, by decide +kernel, fun e h => by rw [show (running 1 (dsc 0x0A 256 0 0)).die.runnable 63 63 (dsc 0x0A 256 0 0) = some (exOf (dsc 0x0A 256 0 0)) from by decide +kernel] at h; exact Option.some.inj h ▸ rfl, by decide +kernel, by decide +kernel⟩⟩,
   ⟨running 1 (dsc 0x0A 256 0 0), 63, 63, dsc 0x0A 256 0 0, exOf (dsc 0x0A 256 0 0), by decide +kernel⟩⟩

theorem witness_FetchingAndPipelinedOperationsRun :
    (∃ s : State, ∃ n : Nat, ∃ th : Nat, ∃ c : Desc, ∃ k : Instr × Nat, ∃ l : List (Nat × Nat), ∃ e : Exec, s.die.runsClean n th c = true ∧ (k, l) ∈ [((Instr.outlier n th c, ocOutlier), s.die.outlierAsks { t := n, th := th, c := c }), ((.exact n th c, ocExact), exactAsks c), ((.corrZ n th c, ocCorrZ), factorAsks c (bits (descP0 c) 9 7 * panelsBytes (16 * descCount c) 32 32)), ((.corrB n th c, ocCorrB), factorAsks c (bits (descP0 c) 9 7 * panelsBytes ((descCount c + 31) / 32) 32 32)), ((.attn n th c, ocAttn), s.die.attnAsks { t := n, th := th, c := c }), ((.sound n th c, ocSound), s.die.soundAsks { t := n, th := th, c := c })] ∧ descOp c = k.2 ∧ s.die.runnable n th c = some e ∧ e.asked = false ∧ (l.filter (fun p => tileReqOk k.2 (s.die.threadClass n th) p.1 p.2) ≠ [])) ∧
    (∃ s : State, ∃ n : Nat, ∃ th : Nat, ∃ c : Desc, ∃ k : Instr × Nat, ∃ l : List (Nat × Nat), ∃ e : Exec, ∃ a, s.die.runsClean n th c = true ∧ (k, l) ∈ [((Instr.outlier n th c, ocOutlier), s.die.outlierAsks { t := n, th := th, c := c }), ((.exact n th c, ocExact), exactAsks c), ((.corrZ n th c, ocCorrZ), factorAsks c (bits (descP0 c) 9 7 * panelsBytes (16 * descCount c) 32 32)), ((.corrB n th c, ocCorrB), factorAsks c (bits (descP0 c) 9 7 * panelsBytes ((descCount c + 31) / 32) 32 32)), ((.attn n th c, ocAttn), s.die.attnAsks { t := n, th := th, c := c })] ∧ descOp c = k.2 ∧ s.die.runnable n th c = some e ∧ (e.asked = true ∨ l.filter (fun p => tileReqOk k.2 (s.die.threadClass n th) p.1 p.2) = []) ∧ (∀ x ∈ s.die.dstSpans n c, a < s.die.rgnAddr n x.rgn x.off ∨ s.die.rgnAddr n x.rgn x.off + x.len ≤ a)) ∧
    (∃ s : State, ∃ n : Nat, ∃ th : Nat, ∃ c : Desc, ∃ e, s.die.runsClean n th c = true ∧ descOp c = ocSound ∧ s.die.runnable n th c = some e ∧ (e.asked = true ∨ (s.die.soundAsks { t := n, th := th, c := c }).filter (fun p => tileReqOk ocSound (s.die.threadClass n th) p.1 p.2) = [])) ∧
    (∃ s : State, ∃ n : Nat, ∃ th : Nat, ∃ c : Desc, ∃ a, s.die.runsClean n th c = true ∧ descOp c = ocLoadInput ∧ s.die.rawBad n c = false ∧ (a < s.die.opAt n c.d ∨ s.die.opAt n c.d + 1024 * descCount c ≤ a)) ∧
    (∃ s : State, ∃ n : Nat, ∃ th : Nat, ∃ c : Desc, s.die.runsClean n th c = true ∧ descOp c = ocLoadInput ∧ s.die.rawBad n c = true) ∧
    (∃ s : State, ∃ n : Nat, ∃ th : Nat, ∃ c : Desc, ∃ e, ∃ a, s.die.runsClean n th c = true ∧ descOp c = ocCombine ∧ s.die.pipeHead n = some e ∧ e.desc = c ∧ e.thread = th ∧ (bit (descP0 c) 2 = true ∨ e.recs.length = descCount c) ∧ (a < s.die.opAt n c.d ∨ s.die.opAt n c.d + 1024 ≤ a)) ∧
    (∃ s : State, ∃ n : Nat, ∃ th : Nat, ∃ tag, ∃ e, ∃ b, ∃ bs, s.die.live = true ∧ s.die.tileRuns n = true ∧ ((s.die.tile n).execs.find? (ofTag th tag (fun e => !e.blocks.isEmpty && !e.waitLg)) = some e) ∧ e.blocks = b :: bs ∧ bs ≠ [] ∧ s.die.engRefuses n (opRgn e.desc.d) (opOff e.desc.d) (1024 * descCount e.desc) rightW = none) ∧
    (∃ s : State, ∃ tile : Nat, s.die.live = true ∧ s.die.tileRuns tile = true) :=
  ⟨⟨running 1 (dsc 0x19 1 0 0), 63, 63, dsc 0x19 1 0 0, (.exact 63 63 (dsc 0x19 1 0 0), ocExact), exactAsks (dsc 0x19 1 0 0), exOf (dsc 0x19 1 0 0), by decide +kernel⟩,
   ⟨on (withTile { execs := [{ exOf (dsc 0x19 1 0 0) with asked := true }] } (dieTile 1)), 63, 63, dsc 0x19 1 0 0, (.exact 63 63 (dsc 0x19 1 0 0), ocExact), exactAsks (dsc 0x19 1 0 0), { exOf (dsc 0x19 1 0 0) with asked := true }, 0, by decide +kernel⟩,
   ⟨on (withTile { execs := [{ exOf (dsc 0x2C 1 0 0) with asked := true }] } (dieTile 3)), 63, 63, dsc 0x2C 1 0 0, { exOf (dsc 0x2C 1 0 0) with asked := true }, by decide +kernel⟩,
   ⟨running 1 (dsc 0x12 1 0 0), 63, 63, dsc 0x12 1 0 0, tileAddr 63, by decide +kernel⟩,
   ⟨on ((withTile { execs := [exOf (dsc 0x12 1 1 0)] } (dieTile 1)).setByte (tileAddr 63) 8), 63, 63, dsc 0x12 1 1 0, by decide +kernel⟩,
   ⟨running 1 (dsc 0x18 1 4 0xFF000000), 63, 63, dsc 0x18 1 4 0xFF000000, exOf (dsc 0x18 1 4 0xFF000000), tileAddr 63, by decide +kernel⟩,
   ⟨on (withTile { execs := [{ exOf (dsc 0x11 1 0x101 0) with blocks := [[], []] }] } (dieTile 1)), 63, 63, 0, { exOf (dsc 0x11 1 0x101 0) with blocks := [[], []] }, [], [[]], by decide +kernel⟩,
   ⟨on (dieTile 1), 63, by decide +kernel⟩⟩

theorem witness_EnginesDispatchAndRetire :
    (∃ s : State, ∃ n : Nat, ∃ th, ∃ off, ∃ c, s.die.live = true ∧ s.die.mayDispatch n th = true ∧ s.die.threadClass n th = 1 ∧ look (s.die.tile n).streams th = some off ∧ s.die.engRefuses n 0 off 32 rightDS = none ∧ c = s.die.descAt (s.die.rgnAddr n 0 off) ∧ malformed c 1 = false ∧ s.die.overlaps n th c = false) ∧
    (∃ s : State, ∃ n : Nat, ∃ th, ∃ off, ∃ c, s.die.live = true ∧ s.die.mayDispatch n th = true ∧ s.die.threadClass n th = 1 ∧ look (s.die.tile n).streams th = some off ∧ s.die.engRefuses n 0 off 32 rightDS = none ∧ c = s.die.descAt (s.die.rgnAddr n 0 off) ∧ malformed c 1 = true) ∧
    (∃ s : State, ∃ n : Nat, ∃ th, ∃ off, s.die.live = true ∧ s.die.mayDispatch n th = true ∧ s.die.threadClass n th = 1 ∧ look (s.die.tile n).streams th = some off ∧ s.die.engRefuses n 0 off 32 rightDS ≠ none) ∧
    (∃ s : State, ∃ n : Nat, ∃ e, s.die.live = true ∧ s.die.tileRuns n = true ∧ s.die.laneNext n = some e ∧ lanesOf e.desc ≤ (s.die.tile n).freeLanes) ∧
    (∃ s : State, ∃ n : Nat, ∃ e, s.die.live = true ∧ s.die.tileRuns n = true ∧ s.die.laneNext n = some e ∧ (s.die.tile n).freeLanes < lanesOf e.desc) ∧
    (∃ s : State, ∃ n : Nat, ∃ th, ∃ tag, ∃ e, s.die.live = true ∧ s.die.tileRuns n = true ∧ ((s.die.tile n).execs.find? (ofTag th tag (fun e => decide (0 < e.lgs) && descOp e.desc != ocSound)) = some e)) ∧
    (∃ s : State, ∃ n : Nat, s.die.live = true ∧ s.die.tileRuns n = true ∧ s.die.nextClass n = some .dma) ∧
    (∃ s : State, ∃ n : Nat, ∃ k, s.die.live = true ∧ s.die.tileRuns n = true ∧ s.die.nextClass n = some k ∧ k ≠ .dma) ∧
    (∃ s : State, ∃ n : Nat, ∃ i : Nat, ∃ r, ∃ a, s.die.live = true ∧ s.die.tileRuns n = true ∧ (s.die.tile n).reqs[i]? = some r ∧ s.die.canComplete r = true ∧ r.write = none ∧ r.sram = some a ∧ s.die.rangePoison r.addr r.len = false) ∧
    (∃ s : State, ∃ n : Nat, ∃ i : Nat, ∃ r, ∃ bs, s.die.live = true ∧ s.die.tileRuns n = true ∧ (s.die.tile n).reqs[i]? = some r ∧ s.die.canComplete r = true ∧ r.write = some bs ∧ bs.length = 64 ∧ r.addr % 64 = 0) ∧
    (∃ s : State, ∃ n : Nat, ∃ th, ∃ tag, ∃ e, s.die.live = true ∧ s.die.tileRuns n = true ∧ (s.die.tile n).execs.find? (ofTag th tag Exec.finished) = some e ∧ s.die.lateInject n e = false ∧ e.lateUntil = none ∧ e.due = none) ∧
    (∃ s : State, ∃ n : Nat, ∃ e, ∃ r, ∃ a, s.die.live = true ∧ s.die.tileRuns n = true ∧ s.die.pipeHead n = some e ∧ bit (descP0 e.desc) 2 = false ∧ e.recs.length < descCount e.desc ∧ s.die.nextRecord n (bits (descP0 e.desc) 8 8 + e.recs.length) = some (r, some a)) ∧
    (∃ s : State, ∃ n : Nat, ∃ a, s.die.live = true ∧ s.die.enabled n = true ∧ (s.die.tile n).ready = false ∧ s.die.tileHeld n = false ∧ sramTile a = some n) ∧
    (∃ s : State, ∃ n : Nat, ∃ a, s.die.live = true ∧ s.die.enabled n = true ∧ (s.die.tile n).ready = false ∧ s.die.tileHeld n = false ∧ sramTile a ≠ some n) ∧
    (∃ s : State, ∃ n : Nat, ∃ thread : Nat, s.die.live = true ∧ s.die.mayDispatch n thread = true) ∧
    (∃ s : State, ∃ n : Nat, ∃ idx : Nat, ∃ r : Req, s.die.live = true ∧ s.die.tileRuns n = true ∧ (s.die.tile n).reqs[idx]? = some r ∧ s.die.canComplete r = true) ∧
    (∃ s : State, ∃ n : Nat, s.die.live = true ∧ s.die.tileRuns n = true) :=
  ⟨⟨on (streaming 0 (dieTile 1)), 63, 63, 0, dscZero, by decide +kernel⟩,
   ⟨on ((streaming 0 (dieTile 1)).setByte (tileAddr 63 + 3) 0xFF), 63, 63, 0, { dscZero with w0 := 0xFF000000 }, by decide +kernel⟩,
   ⟨on (streaming (2 ^ 23 - 31) (dieTile 1)), 63, 63, 2 ^ 23 - 31, by decide +kernel⟩,
   ⟨on (withTile { execs := [{ exOf (dsc 0x01 1 0 0) with waitLg := true }] } (dieTile 1)), 63, { exOf (dsc 0x01 1 0 0) with waitLg := true }, by decide +kernel⟩,
   ⟨on (withTile { execs := [{ exOf (dsc 0x02 1 0 0) with lgs := 8 }, { exOf (dsc 0x01 1 0 0) with waitLg := true }] } (dieTile 1)), 63, { exOf (dsc 0x01 1 0 0) with waitLg := true }, by decide +kernel⟩,
   ⟨on (withTile { execs := [{ exOf (dsc 0x01 1 0 0) with lgs := 1 }] } (dieTile 1)), 63, 63, 0, { exOf (dsc 0x01 1 0 0) with lgs := 1 }, by decide +kernel⟩,
   ⟨on ((dieTile 1).putRun (.tile 63) 0 (newRun .j3 dramBase 0 128 0 0)), 63, by decide +kernel⟩,
   ⟨on (withTile { reqs := [{ req0 none none with cls := .sound, issued := false }] } (dieTile 1)), 63, .sound, by decide +kernel⟩,
   ⟨on (withTile { reqs := [req0 none (some 0)] } (dieTile 1)), 63, 0, req0 none (some 0), 0, by decide +kernel⟩,
   ⟨on (withTile { reqs := [req0 (some (List.replicate 64 1)) none] } (dieTile 1)), 63, 0, req0 (some (List.replicate 64 1)) none, List.replicate 64 1, by decide +kernel⟩,
   ⟨on (withTile { execs := [{ exOf (dsc 0x01 1 0 0) with ran := true }] } (dieTile 1)), 63, 63, 0, { exOf (dsc 0x01 1 0 0) with ran := true }, by decide +kernel⟩,
   ⟨on ((withTile { execs := [exOf (dsc 0x18 1 0 0xFF000000)], pipe := [0] } (dieTile 1)).setArr 63 271 { results := [rec0] }), 63, exOf (dsc 0x18 1 0 0xFF000000), rec0, 271, by decide +kernel⟩,
   ⟨on (withTile { ready := false } die6), 63, tileAddr 63 + 0x7FFFFF, by decide +kernel⟩,
   ⟨on (withTile { ready := false } die6), 63, tileAddr 64, by decide +kernel⟩,
   ⟨on (streaming 0 (dieTile 1)), 63, 63, by decide +kernel⟩,
   ⟨on (withTile { reqs := [req0 none (some 0)] } (dieTile 1)), 63, 0, req0 none (some 0), by decide +kernel⟩,
   ⟨on (dieTile 1), 63, by decide +kernel⟩⟩

theorem witness_EngineRegistersKeepTheirRules :
    (∃ s : State, ∃ ag : Agent, ∃ n : Nat, ∃ r, s.die.live = true ∧ s.die.tileWrite ag n = true ∧ r < 255 ∧ s.die.armed = true) ∧
    (∃ s : State, ∃ ag : Agent, ∃ n : Nat, ∃ r, s.die.live = true ∧ s.die.tileWrite ag n = true ∧ r < 255 ∧ s.die.armed = false) ∧
    (∃ s : State, ∃ ag : Agent, ∃ n : Nat, s.die.live = true ∧ s.die.tileWrite ag n = true ∧ (s.die.tile n).stopping = true) ∧
    (∃ s : State, ∃ ag : Agent, ∃ n : Nat, s.die.live = true ∧ s.die.tileWrite ag n = true ∧ (s.die.tile n).stopping = false) ∧
    (∃ s : State, ∃ ag : Agent, ∃ n : Nat, ∃ th, ∃ cls, s.die.live = true ∧ s.die.tileWrite ag n = true ∧ th < 64 ∧ s.die.armed = false ∧ cls < 4) ∧
    (∃ s : State, ∃ ag : Agent, ∃ n : Nat, ∃ th, s.die.live = true ∧ s.die.tileWrite ag n = true ∧ th < 64 ∧ s.die.armed = true) :=
  ⟨⟨on (die6.put Reg.TIDE_STATUS_STATE 3), .j3, 63, 254, by decide +kernel⟩,
   ⟨on die6, .j3, 63, 254, by decide +kernel⟩,
   ⟨on (withTile { stopping := true } die6), .j3, 63, by decide +kernel⟩,
   ⟨on die6, .j3, 63, by decide +kernel⟩,
   ⟨on die6, .j3, 63, 63, 3, by decide +kernel⟩,
   ⟨on (die6.put Reg.TIDE_STATUS_STATE 3), .j3, 63, 63, by decide +kernel⟩⟩

/-- A table of one position with these windows, for a module whose tiles it lists. -/
def tableOf (tp : List TpWin) (links : List LinkWin) : Table :=
  { base := dramBase, size := 4096, period := 4096, slack := 204, tides := 1, nSched := 1, nPool := 0, nSound := 0, lag := 1,
    decode := 1, chunk := 0, chunkTok := 0, attnBudget := 1, ext := (1, 1, 1), org := (0, 0, 0), coord := (0, 0, 0), flags := 0,
    tiles := [{ tile := 63, unit := 0, regions := [], budgets := [], preload := [] }], tp := tp, links := links, refresh := [],
    matrices := [], berths := [] }

/-- The tide block in this state with this table. -/
def withTable (st : Nat) (tb : Table) (f : Tide → Tide) (d : Die) : Die :=
  { d.put Reg.TIDE_STATUS_STATE st with tide := f { d.tide with table := some tb } }

/-- A window from tile 63 to tile 55, which fills region 1 there. -/
def winTp : TpWin := { tile := 63, port := 0, flags := 2, pos := 0, start := 8, bytes := 128, src := 0, dst := 0x01000000 }

/-- A departure (kind 0) or landing (kind 1) of tile 63 on link 5. -/
def winLink (kind : Nat) : LinkWin :=
  { kind := kind, link := 5, tile := 63, flags := 0, pos := 0, start := 8, bytes := 128, buf := 0, stream := 5 }

/-- A burst of 128 zero bytes. -/
def burst : RxBurst := { stream := 5, total := 128, data := List.replicate 128 0 }

/-- The tide runs this table, and link 5 has received a burst. -/
def windows (tb : Table) (f : Tide → Tide) : Die :=
  (withTable 4 tb f ((dieTile 1).putW (Reg.ENG_RGN_LIMIT 55 1) (w32 0xFE000010))).modLink 5 (fun l => { l with rxBursts := [burst] })

/-- Link 5 is a slice link and UP. -/
def sliceUp (d : Die) : Die := { d.put (Reg.LNK_STATUS_STATE 5) 4 with sliceMask := 63 }

/-- A mark with four credits. -/
def markOf (fault : Bool) : Mark :=
  { tide := 1, stop := false, fault := fault, beacon := none, demand := 0, applied := 0, credits := [0, 0, 0, 0], fCoord := 0,
    fCause := 1, retried := false }

/-- A preload entry with a mark. -/
def preload1 : Preload := { kind := 0, mark := true, dst := 0x01000000, len := 64, src := 0 }

/-- The relay in this state, with the firmware running. -/
def relaying (r : Relay) : Die := { die6 with relay := { r with upLink := 5 } }

/-- A shard with 64 payload bytes of zero and a good CRC: number, kind, and the module's place relative to the origin. -/
def shardOf (seq kind x : Nat) : List Byte :=
  let h := natLe 4 0x4453484B ++ natLe 4 seq ++ natLe 1 kind ++ natLe 3 x ++ natLe 4 64 ++ zeros 16 ++ zeros 64
  h ++ natLe 4 (crc32c h)

/-- Parameters of CHART_RELAY for the head of a chain. -/
def relayP (org : Nat) : RelayParams :=
  { role := 0, upLink := 0xFF, downLink := 0xFF, org := (org, 31, 31), first := 0, last := 0, placement := List.replicate 64 0xFF }

/-- Box 63 is BUSY with parameters of CHART_RELAY for the head of a chain, whose byte 3 is `x`. -/
def relayBox (x : Nat) : Die :=
  (dieBox.putW 0x43F08 16).putW 0x43F20 (w32 (x * 2 ^ 24 + 0xFFFF00))

/-- The firmware runs and box 63 is BUSY, with the relay in state `st`. -/
def chartBox (st : Nat) (images : List Nat) : Die := { dieBox with relay := { state := st, images := images } }

theorem witness_TideRequestsFollowTheState :
    (∃ s : State, ∃ ag : Agent, ∃ k : Instr × Bool, s.die.live = true ∧ s.die.computeHeld = false ∧ s.die.mayControl ag = true ∧ k ∈ [(Instr.tideLoad ag, s.die.tideState == 0 || s.die.tideState == 2), (.arm ag, s.die.tideState == 2 && s.die.tide.table.isSome && !s.die.on Reg.THM_TRIP_TRIP), (.stop ag, s.die.tideState == 4), (.stopNow ag, s.die.armed), (.cancel ag, s.die.tideState == 2)] ∧ k.2 = false) ∧
    (∃ s : State, ∃ ag : Agent, s.die.live = true ∧ s.die.computeHeld = false ∧ s.die.mayControl ag = true ∧ (s.die.tideState = 0 ∨ s.die.tideState = 2)) ∧
    (∃ s : State, ∃ ag : Agent, ∃ tb, s.die.live = true ∧ s.die.computeHeld = false ∧ s.die.mayControl ag = true ∧ s.die.tide.table = some tb ∧ s.die.tideState = 2 ∧ s.die.on Reg.THM_TRIP_TRIP = false ∧ s.die.get64 (Reg.TIDE_START 0) < s.die.tideNum + 2) ∧
    (∃ s : State, ∃ ag : Agent, ∃ tb, ∃ b, ∃ a, b ∈ tb.tiles ∧ s.die.live = true ∧ s.die.computeHeld = false ∧ s.die.mayControl ag = true ∧ s.die.tide.table = some tb ∧ s.die.tideState = 2 ∧ s.die.on Reg.THM_TRIP_TRIP = false ∧ s.die.fwRuns = false ∧ s.die.tideNum + 2 ≤ s.die.get64 (Reg.TIDE_START 0) ∧ sramTile a = some b.tile) ∧
    (∃ s : State, ∃ ag : Agent, ∃ tb, ∃ a, s.die.live = true ∧ s.die.computeHeld = false ∧ s.die.mayControl ag = true ∧ s.die.tide.table = some tb ∧ s.die.tideState = 2 ∧ s.die.on Reg.THM_TRIP_TRIP = false ∧ s.die.fwRuns = false ∧ s.die.tideNum + 2 ≤ s.die.get64 (Reg.TIDE_START 0) ∧ s.die.upkeep.ranks = [] ∧ (∀ b ∈ tb.tiles, sramTile a ≠ some b.tile)) ∧
    (∃ s : State, ∃ ag : Agent, s.die.live = true ∧ s.die.computeHeld = false ∧ s.die.mayControl ag = true ∧ s.die.tideState = 4) ∧
    (∃ s : State, ∃ ag : Agent, ∃ n, s.die.live = true ∧ s.die.computeHeld = false ∧ s.die.mayControl ag = true ∧ s.die.armed = true ∧ s.die.tide.fault = none ∧ s.die.enabled n = true) ∧
    (∃ s : State, ∃ ag : Agent, s.die.live = true ∧ s.die.computeHeld = false ∧ s.die.mayControl ag = true ∧ s.die.tideState = 2) ∧
    (∃ s : State, ∃ e, s.die.live = true ∧ s.die.computeHeld = false ∧ s.die.tideState = 1 ∧ s.die.dramUp = true ∧ s.die.loadErr s.die.tide.loadBase = some e) :=
  ⟨⟨on (die0.put Reg.TIDE_STATUS_STATE 1), .j3, (.tideLoad .j3, false), by decide +kernel⟩,
   ⟨on (die0.put Reg.TIDE_STATUS_STATE 2), .j3, by decide +kernel⟩,
   ⟨on ((withTable 2 (tableOf [] []) id die0).put64 (Reg.TIDE_START 0) 1), .j3, tableOf [] [], by decide +kernel⟩,
   ⟨on ((withTable 2 (tableOf [] []) id die0).put64 (Reg.TIDE_START 0) 2), .j3, tableOf [] [], { tile := 63, unit := 0, regions := [], budgets := [], preload := [] }, tileAddr 63 + 0x7FFFFF, by decide +kernel⟩,
   ⟨on ((withTable 2 (tableOf [] []) id die0).put64 (Reg.TIDE_START 0) 2), .j3, tableOf [] [], tileAddr 62 + 0x7FFFFF, by decide +kernel⟩,
   ⟨on (die0.put Reg.TIDE_STATUS_STATE 4), .j3, by decide +kernel⟩,
   ⟨on (die0.put Reg.TIDE_STATUS_STATE 3), .j3, 63, by decide +kernel⟩,
   ⟨on (die0.put Reg.TIDE_STATUS_STATE 2), .j3, by decide +kernel⟩,
   ⟨on (die6.put Reg.TIDE_STATUS_STATE 1), (1, 0, 0, 0), by decide +kernel⟩⟩

theorem witness_BoundariesAndWindowsMoveTheTide :
    (∃ s : State, s.die.live = true ∧ s.die.computeHeld = false ∧ s.die.boundaryDue = true ∧ s.die.tide.table = none ∧ s.die.on Reg.GLB_MESH_CTRL_BKT_EN = false) ∧
    (∃ s : State, s.die.live = true ∧ s.die.computeHeld = false ∧ s.die.boundaryDue = false) ∧
    (∃ s : State, ∃ i, ∃ x, s.die.live = true ∧ s.die.computeHeld = false ∧ s.die.winNow i = some x ∧ s.die.checkDue i x = true ∧ s.die.ptbActive 0 = false ∧ s.die.winCauses i x = []) ∧
    (∃ s : State, ∃ i, ∃ x, s.die.live = true ∧ s.die.computeHeld = false ∧ s.die.winNow i = some x ∧ s.die.checkDue i x = true ∧ s.die.ptbActive 0 = false ∧ s.die.winCauses i x ≠ []) ∧
    (∃ s : State, ∃ c, s.die.live = true ∧ s.die.computeHeld = false ∧ s.die.on Reg.TIDE_STATUS_FROZEN = true ∧ s.die.settleWindows.scBlocked = false ∧ s.die.settleWindows.freezeCharge = c) ∧
    (∃ s : State, ∃ i, ∃ w, ∃ n, s.die.live = true ∧ s.die.computeHeld = false ∧ s.die.winNow i = some (.tp w) ∧ s.die.overDue i (.tp w) = true ∧ portTile w.tile w.port = some n ∧ s.die.engRefuses w.tile (w.src / 2 ^ 24) (w.src % 2 ^ 24) w.bytes rightTP = none ∧ s.die.engRefuses n (w.dst / 2 ^ 24) (w.dst % 2 ^ 24) w.bytes rightTP = none ∧ bit w.flags 1 = true ∧ s.die.rgnFE n (w.dst / 2 ^ 24) = true ∧ s.die.isPoison n (w.dst / 2 ^ 24) = false) ∧
    (∃ s : State, ∃ i, ∃ w, s.die.live = true ∧ s.die.computeHeld = false ∧ s.die.winNow i = some (.link w) ∧ w.kind = 0 ∧ s.die.overDue i (.link w) = true ∧ s.die.engRefuses w.tile (w.buf / 2 ^ 24) (w.buf % 2 ^ 24) w.bytes rightTP = none) ∧
    (∃ s : State, ∃ i, ∃ w, ∃ b, ∃ r, s.die.live = true ∧ s.die.computeHeld = false ∧ s.die.winNow i = some (.link w) ∧ w.kind ≠ 0 ∧ s.die.overDue i (.link w) = true ∧ (s.die.link w.link).rxBursts = b :: r ∧ b.data.length = w.bytes ∧ s.die.engRefuses w.tile (w.buf / 2 ^ 24) (w.buf % 2 ^ 24) w.bytes rightTP = none ∧ b.stream = w.stream ∧ b.total = w.bytes) ∧
    (∃ s : State, ∃ idx : Nat, ∃ x, s.die.live = true ∧ s.die.computeHeld = false ∧ s.die.winNow idx = some x ∧ s.die.checkDue idx x = true) ∧
    (∃ s : State, s.die.live = true ∧ s.die.computeHeld = false) ∧
    (∃ s : State, s.die.live = true ∧ s.die.computeHeld = false) :=
  ⟨⟨on { die6 with tide := { w := 4096 } }, by decide +kernel⟩,
   ⟨on { die6 with tide := { w := 4095 } }, by decide +kernel⟩,
   ⟨on (windows (tableOf [winTp] []) id), 0, .tp winTp, by (repeat' apply And.intro) <;> first | decide +kernel | rfl | exact Or.inl rfl⟩,
   ⟨on ((windows (tableOf [] [winLink 1]) id).modLink 5 (fun l => { l with rxBursts := [] })), 0, .link (winLink 1), by (repeat' apply And.intro) <;> first | decide +kernel | rfl | exact Or.inl rfl⟩,
   ⟨on (die6.raise Reg.TIDE_STATUS_FROZEN), 15, by decide +kernel⟩,
   ⟨on (windows (tableOf [winTp] []) (fun t => { t with sc := 11, checked := [0] })), 0, winTp, 55, by (repeat' apply And.intro) <;> first | decide +kernel | rfl | exact Or.inl rfl⟩,
   ⟨on (windows (tableOf [] [winLink 0]) (fun t => { t with sc := 9, checked := [0] })), 0, winLink 0, by (repeat' apply And.intro) <;> first | decide +kernel | rfl | exact Or.inl rfl⟩,
   ⟨on (windows (tableOf [] [winLink 1]) (fun t => { t with sc := 9, checked := [0] })), 0, winLink 1, burst, [], by (repeat' apply And.intro) <;> first | decide +kernel | rfl | exact Or.inl rfl⟩,
   ⟨on (windows (tableOf [winTp] []) id), 0, .tp winTp, by (repeat' apply And.intro) <;> first | decide +kernel | rfl | exact Or.inl rfl⟩,
   ⟨on die6, by decide +kernel⟩,
   ⟨on die6, by decide +kernel⟩⟩

theorem witness_MarksGateAndTideRegistersKeepTheirRules :
    (∃ s : State, ∃ k, ∃ m : Mark, s.die.live = true ∧ k < 6 ∧ s.die.linkUp k = true ∧ bit s.die.sliceMask k = true ∧ m.credits.length = 4 ∧ m.fault = false ∧ (s.die.on Reg.TIDE_SLICE_MASTER = true ∨ m.beacon = none)) ∧
    (∃ s : State, ∃ k, ∃ m : Mark, s.die.live = true ∧ k < 6 ∧ s.die.linkUp k = true ∧ bit s.die.sliceMask k = true ∧ m.credits.length = 4 ∧ m.fault = true ∧ s.die.on Reg.TIDE_SLICE_MASTER = true ∧ s.die.armed = true ∧ s.die.tide.fault = none) ∧
    (∃ s : State, s.die.live = true ∧ s.die.computeHeld = false ∧ s.die.on Reg.TIDE_STATUS_GATED = true ∧ s.die.gateMissing (s.die.tideNum + 1) ≠ []) ∧
    (∃ s : State, ∃ n, ∃ p, ∃ tb, s.die.live = true ∧ s.die.computeHeld = false ∧ s.die.tide.table = some tb ∧ s.die.preloadNext n = some p ∧ s.die.rangePoison (if p.kind = 0 then tb.base + p.src else goldenBase + p.src) p.len = false ∧ p.mark = true ∧ s.die.rgnFE n (p.dst / 2 ^ 24) = true) ∧
    (∃ s : State, ∃ ag, ∃ w, s.die.live = true ∧ s.die.computeHeld = false ∧ s.die.mayControl ag = true ∧ s.die.tideState ≠ 0 ∧ w % 2 ^ 11 ≠ s.die.get Reg.TIDE_CTRL_PERIOD) ∧
    (∃ s : State, ∃ ag, ∃ w, s.die.live = true ∧ s.die.computeHeld = false ∧ s.die.mayControl ag = true ∧ s.die.tideState = 0 ∧ bit w 31 = true ∧ 16 ≤ w % 2 ^ 11 ∧ w % 2 ^ 11 ≤ 1024) ∧
    (∃ s : State, ∃ ag, ∃ w, s.die.live = true ∧ s.die.computeHeld = false ∧ s.die.mayControl ag = true ∧ s.die.on Reg.PWR_GUARD_ACTIVE = false ∧ bits w 16 2 < 3) ∧
    (∃ s : State, ∃ ag, s.die.live = true ∧ s.die.computeHeld = false ∧ s.die.mayControl ag = true ∧ s.die.on Reg.PWR_GUARD_ACTIVE = true) ∧
    (∃ s : State, ∃ n, ∃ r, ∃ q, s.die.live = true ∧ s.die.tileAnswers n = true ∧ s.die.rgnFE n r = true ∧ q ≠ r) ∧
    (∃ s : State, ∃ n, ∃ off, ∃ data : List Byte, s.die.live = true ∧ s.die.tileAnswers n = true ∧ 1 ≤ data.length ∧ data.length ≤ 1024 ∧ s.die.packetOk n off data.length true = true) ∧
    (∃ s : State, ∃ n, ∃ off, ∃ data : List Byte, s.die.live = true ∧ s.die.tileAnswers n = true ∧ 1 ≤ data.length ∧ data.length ≤ 1024 ∧ s.die.packetOk n off data.length true = false) ∧
    (∃ s : State, ∃ n, ∃ off, ∃ data : List Byte, s.die.live = true ∧ s.die.tileAnswers n = true ∧ 1 ≤ data.length ∧ data.length ≤ 1024 ∧ s.die.packetOk n off data.length false = true) ∧
    (∃ s : State, ∃ link : Nat, ∃ m : Mark, s.die.live = true ∧ link < 6 ∧ s.die.linkUp link = true ∧ bit s.die.sliceMask link = true ∧ m.credits.length = 4) ∧
    (∃ s : State, s.die.live = true ∧ s.die.computeHeld = false) ∧
    (∃ s : State, ∃ ag : Agent, s.die.live = true ∧ s.die.computeHeld = false ∧ s.die.mayControl ag = true) ∧
    (∃ s : State, ∃ tile : Nat, ∃ write : Bool, ∃ len : Nat, ∃ data : List Byte, s.die.live = true ∧ s.die.tileAnswers tile = true ∧ 1 ≤ len ∧ len ≤ 1024 ∧ (write = true → data.length = len)) :=
  ⟨⟨on (sliceUp die6), 5, markOf false, by decide +kernel⟩,
   ⟨on (sliceUp ((die6.put Reg.TIDE_STATUS_STATE 3).raise Reg.TIDE_SLICE_MASTER)), 5, markOf true, by decide +kernel⟩,
   ⟨on (sliceUp ((die6.raise Reg.TIDE_STATUS_GATED).put Reg.TIDE_STATUS_STATE 4)), by decide +kernel⟩,
   ⟨on (feRegion (((withTable 3 (tableOf [] []) (fun t => { t with preload := [(63, preload1)] }) (dieTile 1))).put64 (Reg.TIDE_NUM 0) 1)), 63, preload1, tableOf [] [], by decide +kernel⟩,
   ⟨on (die6.put Reg.TIDE_STATUS_STATE 2), .j3, 16, by decide +kernel⟩,
   ⟨on die6, .j3, 2 ^ 31 + 1024, by decide +kernel⟩,
   ⟨on die6, .j3, 2 ^ 17, by decide +kernel⟩,
   ⟨on (die6.raise Reg.PWR_GUARD_ACTIVE), .j3, by decide +kernel⟩,
   ⟨on (feRegion (dieTile 1)), 63, 1, 0, by decide +kernel⟩,
   ⟨on (dieTile 1), 63, 0x7FFC00, List.replicate 1024 1, by decide +kernel⟩,
   ⟨on die6, 63, 0, [0], by decide +kernel⟩,
   ⟨on (dieTile 1), 63, 0x7FFFFF, [0], by decide +kernel⟩,
   ⟨on (sliceUp die6), 5, markOf false, by decide +kernel⟩,
   ⟨on die6, by decide +kernel⟩,
   ⟨on die6, .j3, by decide +kernel⟩,
   ⟨on (dieTile 1), 63, true, 1024, List.replicate 1024 1, by decide +kernel⟩⟩

theorem witness_ShardsAreKeptForwardedOrAskedAgain :
    (∃ s : State, ∃ sh : List Byte, ∃ lk, ∃ seq : Nat, s.die.live = true ∧ s.die.fwRuns = true ∧ leAt sh 4 4 = seq ∧ s.die.relay.state ≠ rsReceiving ∧ lk < 6) ∧
    (∃ s : State, ∃ sh : List Byte, ∃ seq, s.die.live = true ∧ s.die.fwRuns = true ∧ leAt sh 4 4 = seq ∧ s.die.relay.state = rsReceiving ∧ shardOk sh = false ∧ amGet 0 s.die.relay.per seq < 3 ∧ s.die.relay.upLink < 6) ∧
    (∃ s : State, ∃ sh : List Byte, ∃ seq, s.die.live = true ∧ s.die.fwRuns = true ∧ leAt sh 4 4 = seq ∧ s.die.relay.state = rsReceiving ∧ shardOk sh = false ∧ 3 ≤ amGet 0 s.die.relay.per seq) ∧
    (∃ s : State, ∃ sh : List Byte, ∃ seq : Nat, s.die.live = true ∧ s.die.fwRuns = true ∧ leAt sh 4 4 = seq ∧ s.die.relay.state = rsReceiving ∧ shardOk sh = true ∧ s.die.relay.got.contains seq = true ∧ s.die.relay.upLink < 6) ∧
    (∃ s : State, ∃ sh : List Byte, ∃ seq : Nat, s.die.live = true ∧ s.die.fwRuns = true ∧ leAt sh 4 4 = seq ∧ s.die.relay.state = rsReceiving ∧ shardOk sh = true ∧ s.die.relay.got.contains seq = false ∧ leAt sh 8 1 ≠ 0 ∧ (seq < s.die.relay.first ∨ s.die.relay.last < seq ∨ (s.die.relay.preDone = true ∧ s.die.relay.targets.contains (leAt sh 9 3) = false))) ∧
    (∃ s : State, ∃ sh : List Byte, ∃ seq : Nat, s.die.live = true ∧ s.die.fwRuns = true ∧ leAt sh 4 4 = seq ∧ s.die.relay.state = rsReceiving ∧ shardOk sh = true ∧ s.die.relay.got.contains seq = false ∧ s.die.relay.full sh.length = false ∧ leAt sh 8 1 = 0 ∧ seq ≠ 0 ∧ s.die.relay.nPre = 0) ∧
    (∃ s : State, ∃ sh : List Byte, ∃ seq : Nat, s.die.live = true ∧ s.die.fwRuns = true ∧ leAt sh 4 4 = seq ∧ s.die.relay.state = rsReceiving ∧ shardOk sh = true ∧ s.die.relay.got.contains seq = false ∧ s.die.relay.full sh.length = false ∧ leAt sh 8 1 ≠ 0 ∧ s.die.relay.outside sh = false ∧ (leAt sh 9 1, leAt sh 10 1, leAt sh 11 1) ≠ s.die.relayRel ∧ s.die.relay.downLink < 6) ∧
    (∃ s : State, ∃ sh : List Byte, ∃ seq : Nat, ∃ a, ∃ pay, s.die.live = true ∧ s.die.fwRuns = true ∧ leAt sh 4 4 = seq ∧ s.die.relay.state = rsReceiving ∧ shardOk sh = true ∧ s.die.relay.got.contains seq = false ∧ s.die.relay.full sh.length = false ∧ leAt sh 8 1 ≠ 0 ∧ s.die.relay.outside sh = false ∧ (leAt sh 9 1, leAt sh 10 1, leAt sh 11 1) = s.die.relayRel ∧ s.die.relay.preDone = true ∧ leAt sh 8 1 = 2 ∧ leAt sh 16 8 + leAt sh 12 4 ≤ 0xF000000 ∧ goldFactors + leAt sh 16 8 = a ∧ (sh.drop 32).take (leAt sh 12 4) = pay ∧ factorsOk (leAt sh 12 4 / 32 + 1) pay = true) ∧
    (∃ s : State, ∃ seq, ∃ x, s.die.live = true ∧ s.die.fwRuns = true ∧ s.die.relay.state = rsReceiving ∧ look s.die.relay.fwd seq = some x) ∧
    (∃ s : State, ∃ k : Nat → Instr × Nat × Nat, ∃ seq : Nat, ∃ x, s.die.live = true ∧ s.die.fwRuns = true ∧ (k = (fun q => (.relayNak ⟨q, false⟩, lmRelayNak, 6)) ∨ k = (fun q => (.relayNak ⟨q, true⟩, lmRelayNak, 5)) ∨ k = (fun q => (.relayReq q, lmRelayReq, 5))) ∧ s.die.relay.state = rsReceiving ∧ amGet 0 s.die.relay.per seq < 3 ∧ look s.die.relay.fwd seq = some x) ∧
    (∃ s : State, ∃ k : Nat → Instr × Nat × Nat, ∃ seq : Nat, s.die.live = true ∧ s.die.fwRuns = true ∧ (k = (fun q => (.relayNak ⟨q, false⟩, lmRelayNak, 6)) ∨ k = (fun q => (.relayNak ⟨q, true⟩, lmRelayNak, 5)) ∨ k = (fun q => (.relayReq q, lmRelayReq, 5))) ∧ s.die.relay.state = rsReceiving ∧ amGet 0 s.die.relay.per seq < 3 ∧ look s.die.relay.fwd seq = none ∧ s.die.relay.upLink < 6) ∧
    (∃ s : State, ∃ k : Nat → Instr × Nat × Nat, ∃ seq : Nat, s.die.live = true ∧ s.die.fwRuns = true ∧ (k = (fun q => (.relayNak ⟨q, false⟩, lmRelayNak, 6)) ∨ k = (fun q => (.relayNak ⟨q, true⟩, lmRelayNak, 5)) ∨ k = (fun q => (.relayReq q, lmRelayReq, 5))) ∧ s.die.relay.state = rsReceiving ∧ 3 ≤ amGet 0 s.die.relay.per seq) ∧
    (∃ s : State, ∃ seq, s.die.live = true ∧ s.die.fwRuns = true ∧ s.die.relay.state = rsReceiving ∧ s.die.relay.overdue seq = true ∧ amGet 0 s.die.relay.per seq < 3 ∧ s.die.relay.upLink < 6) ∧
    (∃ s : State, ∃ seq, s.die.live = true ∧ s.die.fwRuns = true ∧ s.die.relay.state = rsReceiving ∧ s.die.relay.overdue seq = true ∧ 3 ≤ amGet 0 s.die.relay.per seq) ∧
    (∃ s : State, ∃ down : Bool, s.die.live = true ∧ s.die.fwRuns = true ∧ (s.die.relay.state = rsReceiving ∨ s.die.relay.state = rsProgramming) ∧ (if down then s.die.relay.downLink < 6 else s.die.relay.upLink < 6)) ∧
    (∃ s : State, s.die.live = true ∧ s.die.fwRuns = true) ∧
    (∃ s : State, s.die.live = true ∧ s.die.fwRuns = true ∧ s.die.relay.state = rsReceiving) ∧
    (∃ s : State, ∃ seq : Nat, s.die.live = true ∧ s.die.fwRuns = true ∧ s.die.relay.state = rsReceiving ∧ s.die.relay.overdue seq = true) :=
  ⟨⟨on (relaying {  }), [], 5, 0, by decide +kernel⟩,
   ⟨on (relaying { state := 1, per := [(0, 2)] }), [], 0, by decide +kernel⟩,
   ⟨on (relaying { state := 1, per := [(0, 3)] }), [], 0, by decide +kernel⟩,
   ⟨on (relaying { state := 1, got := [7] }), shardOf 7 1 0, 7, by decide +kernel⟩,
   ⟨on (relaying { state := 1, first := 0, last := 6 }), shardOf 7 1 0, 7, by decide +kernel⟩,
   ⟨on (relaying { state := 1 }), shardOf 7 0 0xFFFFFF, 7, by decide +kernel⟩,
   ⟨on (relaying { state := 1, last := 7, downLink := 5 }), shardOf 7 1 0x070707, 7, by decide +kernel⟩,
   ⟨on (relaying { state := 1, last := 7, preDone := true, targets := [0] }), shardOf 7 2 0, 7, goldFactors, zeros 64, by decide +kernel⟩,
   ⟨on (relaying { state := 1, fwd := [(7, [1])] }), 7, [1], by decide +kernel⟩,
   ⟨on (relaying { state := 1, fwd := [(7, [1])], per := [(7, 2)] }), (fun q => (.relayNak ⟨q, false⟩, lmRelayNak, 6)), 7, [1], by (repeat' apply And.intro) <;> first | decide +kernel | rfl | exact Or.inl rfl⟩,
   ⟨on (relaying { state := 1, per := [(7, 2)] }), (fun q => (.relayNak ⟨q, false⟩, lmRelayNak, 6)), 7, by (repeat' apply And.intro) <;> first | decide +kernel | rfl | exact Or.inl rfl⟩,
   ⟨on (relaying { state := 1, per := [(7, 3)] }), (fun q => (.relayNak ⟨q, false⟩, lmRelayNak, 6)), 7, by (repeat' apply And.intro) <;> first | decide +kernel | rfl | exact Or.inl rfl⟩,
   ⟨on (relaying { state := 1 }), 0, by decide +kernel⟩,
   ⟨on (relaying { state := 1, per := [(0, 3)] }), 0, by decide +kernel⟩,
   ⟨on (relaying { state := 2 }), false, by decide +kernel⟩,
   ⟨on die6, by decide +kernel⟩,
   ⟨on (relaying { state := 1 }), by decide +kernel⟩,
   ⟨on (relaying { state := 1 }), 0, by decide +kernel⟩⟩

theorem witness_ChartCommandsFollowTheRelayState :
    (∃ s : State, ∃ box : Nat, ∃ k : Instr × Bool, s.die.boxReady box = true ∧ k ∈ [(Instr.chartAbort box, s.die.relay.state == rsReceiving || s.die.relay.state == rsProgramming), (.chartDiscard box, s.die.relay.state == rsReady || s.die.relay.state == rsFailed), (.goldenCheck box, s.die.relay.state == rsReady)] ∧ k.2 = false) ∧
    (∃ s : State, ∃ box : Nat, ∃ p, s.die.boxReady box = true ∧ p ≠ relayParamsOf (s.die.relayBytes box)) ∧
    (∃ s : State, ∃ box : Nat, ∃ p, s.die.boxReady box = true ∧ p = relayParamsOf (s.die.relayBytes box) ∧ (s.die.relay.state = rsReceiving ∨ s.die.relay.state = rsProgramming)) ∧
    (∃ s : State, ∃ box : Nat, ∃ p, s.die.boxReady box = true ∧ p = relayParamsOf (s.die.relayBytes box) ∧ s.die.relay.state ≠ rsReceiving ∧ s.die.relay.state ≠ rsProgramming ∧ s.die.tideState ≠ 0) ∧
    (∃ s : State, ∃ box : Nat, ∃ p, s.die.boxReady box = true ∧ p = relayParamsOf (s.die.relayBytes box) ∧ s.die.relay.state ≠ rsReceiving ∧ s.die.relay.state ≠ rsProgramming ∧ s.die.tideState = 0 ∧ (relayParamsOk p && relayZeros (s.die.relayBytes box)) = false) ∧
    (∃ s : State, ∃ box : Nat, ∃ p, ∃ n, ∃ l, s.die.boxReady box = true ∧ p = relayParamsOf (s.die.relayBytes box) ∧ s.die.relay.state ≠ rsReceiving ∧ s.die.relay.state ≠ rsProgramming ∧ s.die.tideState = 0 ∧ (relayParamsOk p && relayZeros (s.die.relayBytes box)) = true ∧ s.die.enabled n = true ∧ l < 256 ∧ s.die.on (Reg.TILE_AMAP_VALID n l) = true) ∧
    (∃ s : State, ∃ box : Nat, s.die.boxReady box = true ∧ (s.die.relay.state = rsReceiving ∨ s.die.relay.state = rsProgramming)) ∧
    (∃ s : State, ∃ box : Nat, s.die.boxReady box = true ∧ (s.die.relay.state = rsReady ∨ s.die.relay.state = rsFailed)) ∧
    (∃ s : State, ∃ box : Nat, s.die.boxReady box = true ∧ s.die.relay.state = rsReady ∧ s.die.badImages = []) :=
  ⟨⟨on (chartBox 0 []), 63, (.chartAbort 63, false), by decide +kernel⟩,
   ⟨on (chartBox 0 []), 63, relayP 32, by decide +kernel⟩,
   ⟨on (chartBox 2 []), 63, relayParamsOf ((chartBox 2 []).relayBytes 63), by decide +kernel⟩,
   ⟨on ((chartBox 0 []).put Reg.TIDE_STATUS_STATE 1), 63, relayParamsOf (((chartBox 0 []).put Reg.TIDE_STATUS_STATE 1).relayBytes 63), by decide +kernel⟩,
   ⟨on (relayBox 1), 63, relayParamsOf ((relayBox 1).relayBytes 63), by decide +kernel⟩,
   ⟨on ((relayBox 0).raise (Reg.TILE_AMAP_VALID 63 255)), 63, relayParamsOf (((relayBox 0).raise (Reg.TILE_AMAP_VALID 63 255)).relayBytes 63), 63, 255, by decide +kernel⟩,
   ⟨on (chartBox 2 []), 63, by decide +kernel⟩,
   ⟨on (chartBox 4 []), 63, by decide +kernel⟩,
   ⟨on (chartBox 3 []), 63, by decide +kernel⟩⟩

/-- Array 271 of tile 63 in state `st`, with the image of logical array 255 in the golden copy. -/
def arrImg (st : Nat) (x : Array1) : Die :=
  { arrIn st x with relay := { state := 3, placement := [63], nUnits := 1, images := [255] } }

/-- The same, and the array holds that image. -/
def holding (st : Nat) : Die := (arrImg st {}).modCal 63 271 (fun c => { c with holds := some 255 })

/-- What a spring calibration measured whose codes do not cancel in column 0. -/
def springBadM : SpringMeas :=
  { refs := List.replicate 64 0, offs := List.replicate 264 0, group := List.replicate 64 (List.replicate 256 0),
    check := (100000 :: List.replicate 255 0) :: List.replicate 63 (List.replicate 256 0),
    full := List.replicate 3 (List.replicate 256 0), rg := 0, ro := 0 }

/-- A programming job with one cell to reach. -/
def jobOne : ArrJob := .program 0 [(0, (0, 1))] [] none

/-- Array 271 of tile 63 serves logical array 255. -/
def serving255 : Die := ((arrIn 4 {}).raise (Reg.TILE_AMAP_VALID 63 255)).put (Reg.TILE_AMAP_PHYS 63 255) 271

/-- The die so many hours after its start. -/
def aged (h : Nat) (d : Die) : Die := { d with clock := { d.clock with quarter := h * 14400000000000, aging := h * 14400000000000 } }

/-- Box 63 is BUSY, and array 271 serves logical array 255. -/
def servingBox : Die :=
  ((dieBox.put (Reg.ARR_STATE_STATE 63 271) 4).raise (Reg.TILE_AMAP_VALID 63 255)).put (Reg.TILE_AMAP_PHYS 63 255) 271

/-- The die with this upkeep record. -/
def withUpkeep (f : Upkeep → Upkeep) (d : Die) : Die := { d with upkeep := f d.upkeep }

/-- The calibration record of array 271 of tile 63. -/
def withCal (c : ArrCal) (d : Die) : Die := withUpkeep (fun u => { u with cal := [(arrIx 63 271, c)] }) d

/-- A spring record that the current figures keep, with a REF_GAIN mean. -/
def springR (rg : Int) : SpringRec := { temp := 400, trims := [], residuals := [], gain := 0, rg := rg, ro := 0, tc := some [] }

/-- Array 271 serves, its REF_GAIN has drifted, and its spring record has this mean. -/
def drifted (rg : Int) : Die :=
  withCal { rg := [96], spring := some (springR rg) } (((arrIn 4 {}).put (Reg.CAL_TILE_TEMP_EST 63) 400).put (Reg.CAL_TILE_TEMP_LASTCAL 63) 400)

/-- After a relay load, 32 arrays of tile 63 READY with a REF_GAIN code each, and a reading of the diode made on demand. -/
def tempered : Die :=
  withUpkeep (fun u => { u with cal := (List.range 32).map (fun a => (arrIx 63 a, { rg := [96] })), diodeFresh := true })
    ((List.range 32).foldl (fun d a => d.put (Reg.ARR_STATE_STATE 63 a) 3) { die6 with relay := { state := 3 } })

/-- A repair slot of 16 bytes in use, for the array that serves logical array 255. -/
def repairing : Die :=
  withUpkeep (fun u => { u with
    slots := [{ matrix := 1, group := 2, tile := 63, region := 0, offset := 0, slots := 4 }],
    ranks := [{ matrix := 1, group := 2, slot := 3, arr := 17407, col := 0, logical := 255 }] }) (serving255.putW (Reg.ENG_RGN_LIMIT 63 0) (w32 0xBE000001))

/-- The parameters of STEP_CFG with its front at (x, 0, 0). -/
def stepP (x : Nat) : StepParams :=
  { front := (x, 0, 0), vocab := 2, zeroId := 0, template := 0, patches := [], failPolicy := some false, holdTime := some 1, parkLimit := some 1 }

/-- The parameters of KV_CFG: a pool of 100 units and one part. -/
def kvP : KvParams :=
  { base := dramBase / 4096, size := 100, parts := [{ layer := 0, heads := 1, dim := 64, fmt8 := false, segOff := 0 }], lists := [] }

/-- A tenant's parameters. -/
def tenP (pack : Nat) : TenantParams := { defaultTenant with enabled := true, packId := pack }

/-- A prompt of one token, with at most one token out. -/
def subP (len : Nat) : SubmitParams :=
  { reqId := 0, tenant := 4095, promptLen := len, maxOut := 1, sample := false, shipIn := false, shipOut := false, peer := 0,
    invTemp := 0, seed := 0, stop := [], dlFirst := 0, dlGap := 0, dlEnd := 0 }

/-- A table with room for the contexts below. -/
def tbl : Table := { tableOf [] [] with attnBudget := 1048576, ext := (2, 1, 1), berths := [⟨0, 63, 63, 0, 0x01000000⟩] }

/-- This module is the front (or, with 1, its neighbour is); key/value pages, a route and a table are set. -/
def slice (front : Nat) (d : Die) : Die :=
  { d.put Reg.GLB_TORUS_SX 1 with
    serve := { d.serve with stepCfg := some (stepP front), kv := some kvP, route := some { org := (1, 0, 0), tmo := some 1, reprefill := false } },
    tide := { d.tide with table := some tbl } }

/-- The die with this context under number 5. -/
def withCtx (c : Ctx) (d : Die) : Die := { d with serve := { d.serve with ctxs := [(5, c)] } }

/-- A berth of context 5 with this result. -/
def berth5 (r : Option (Nat × Bool)) : Berth :=
  { berth := 0, ctx := 5, tenant := 0, kind := 1, start := 0, ntok := 1, final := false, result := r }

/-- A step in flight with two berths of context 5. -/
def step5 (r : Option (Nat × Bool)) : StepRec := { step := 0, berths := [berth5 r, berth5 none] }

/-- The die with this step in flight. -/
def withStep (x : StepRec) (d : Die) : Die := { d with serve := { d.serve with steps := [x] } }

/-- One entry of STREAM_IN. -/
def entry5 : StreamEntry := { ctx := 5, offset := 0, final := false, tokens := [1] }

/-- A key/value page of context 5. -/
def page5 (good : Bool) : PageShard :=
  { link := 0, ctx := 5, page := 0, tokens := 64, last := false, npages := 2, firstToken := 0,
    payload := List.replicate (pageBytes kvP) 0, good := good }

/-- The front with the host port up, session 7 open and context 5 as given. -/
def hostFront (c : Ctx) : Die := slice 0 (withCtx c ((withSess (sess 15) die6).put Reg.HP_STATUS_STATE 2))

/-- A copy of a context in this state. -/
def copy5 (st : Nat) : CtxCopy := Ctx.copy { state := st }

/-- A request of session 7 with this payload length. -/
def msg (len : Nat) : MsgHead := { slot := 7, seq := 1, len := len }

theorem witness_ArrayRequestsFollowTheArrayState :
    (∃ s : State, ∃ t : Nat, ∃ a : Nat, s.die.live = true ∧ s.die.tileRuns t = true ∧ a < 272 ∧ s.die.fwRuns = true ∧ s.die.domainBusy t < 256 ∧ s.die.arrState t a ≠ asUnverified) ∧
    (∃ s : State, ∃ t : Nat, ∃ a : Nat, s.die.live = true ∧ s.die.tileRuns t = true ∧ a < 272 ∧ s.die.fwRuns = true ∧ s.die.domainBusy t < 256 ∧ s.die.arrState t a = asUnverified ∧ (s.die.cal t a).holds = none) ∧
    (∃ s : State, ∃ t : Nat, ∃ a : Nat, ∃ l, ∃ k, ∃ e, s.die.live = true ∧ s.die.tileRuns t = true ∧ a < 272 ∧ s.die.fwRuns = true ∧ s.die.domainBusy t < 256 ∧ l < 256 ∧ s.die.imageOf t l = some k ∧ s.die.newImage t a (some (256 * k + l)) = e ∧ s.die.arrState t a = asUnverified ∧ (s.die.cal t a).holds = some (256 * k + l)) ∧
    (∃ s : State, ∃ t : Nat, ∃ a : Nat, s.die.live = true ∧ s.die.tileRuns t = true ∧ a < 272 ∧ s.die.fwRuns = true ∧ s.die.domainBusy t < 256 ∧ (s.die.cal t a).reprog = true) ∧
    (∃ s : State, ∃ t : Nat, ∃ a : Nat, s.die.live = true ∧ s.die.tileRuns t = true ∧ a < 272 ∧ s.die.fwRuns = true ∧ s.die.domainBusy t < 256 ∧ (s.die.cal t a).reprog = false ∧ s.die.arrState t a = asReady) ∧
    (∃ s : State, ∃ t : Nat, ∃ a : Nat, s.die.live = true ∧ s.die.tileRuns t = true ∧ a < 272 ∧ s.die.fwRuns = true ∧ s.die.domainBusy t < 256 ∧ (s.die.cal t a).reprog = false ∧ s.die.arrState t a = asServing ∧ (s.die.arr t a).windowOpen = true) ∧
    (∃ s : State, ∃ t : Nat, ∃ a : Nat, s.die.live = true ∧ s.die.tileRuns t = true ∧ a < 272 ∧ s.die.fwRuns = true ∧ s.die.domainBusy t < 256 ∧ (s.die.cal t a).reprog = false ∧ s.die.arrState t a ≠ asReady ∧ s.die.arrState t a ≠ asServing) ∧
    (∃ s : State, ∃ t : Nat, ∃ a : Nat, ∃ l, ∃ b, s.die.live = true ∧ s.die.tileRuns t = true ∧ a < 272 ∧ s.die.fwRuns = true ∧ s.die.programIssued t a l b = false) ∧
    (∃ s : State, ∃ t : Nat, ∃ a : Nat, ∃ l, ∃ k, ∃ sp, s.die.live = true ∧ s.die.tileRuns t = true ∧ a < 272 ∧ s.die.fwRuns = true ∧ l < 256 ∧ s.die.imageOf t l = some k ∧ sparesOk sp = true ∧ s.die.programRoom t a l none = true ∧ s.die.programIssued t a l none = true ∧ s.die.arrState t a ≠ asUnverified ∧ s.die.arrState t a ≠ asReady) ∧
    (∃ s : State, ∃ t : Nat, ∃ a : Nat, ∃ l, ∃ k, ∃ sp, ∃ e, ∃ q, ∃ j, s.die.live = true ∧ s.die.tileRuns t = true ∧ a < 272 ∧ s.die.fwRuns = true ∧ l < 256 ∧ s.die.imageOf t l = some k ∧ sparesOk sp = true ∧ s.die.programRoom t a l none = true ∧ s.die.programIssued t a l none = true ∧ (s.die.newImage t a (some (256 * k + l))).refreshTakes t a l = e ∧ s.die.sparesFor t a k l sp = q ∧ (s.die.arrState t a = asUnverified ∨ s.die.arrState t a = asReady) ∧ j < 8) ∧
    (∃ s : State, ∃ t : Nat, ∃ a : Nat, s.die.live = true ∧ s.die.tileRuns t = true ∧ a < 272 ∧ s.die.fwRuns = true ∧ (s.die.arrState t a = asCondemned ∨ s.die.arrState t a = asDisabled)) ∧
    (∃ s : State, ∃ t : Nat, ∃ a : Nat, s.die.live = true ∧ s.die.tileRuns t = true ∧ a < 272 ∧ s.die.fwRuns = true ∧ s.die.arrState t a ≠ asCondemned ∧ s.die.arrState t a ≠ asDisabled) ∧
    (∃ s : State, ∃ t : Nat, ∃ a : Nat, ∃ m, s.die.live = true ∧ s.die.tileRuns t = true ∧ a < 272 ∧ s.die.fwRuns = true ∧ (s.die.arr t a).job = .spring ∧ springShapeOk m = true ∧ s.die.on (Reg.ARR_STATE_IN_PLACE t a) = false ∧ s.die.upkeep.set.qfLim < springQf m ∧ (s.die.cal t a).springFails = 0 ∧ s.die.upkeep.withheld.contains (arrIx t a) = false) ∧
    (∃ s : State, ∃ t : Nat, ∃ a : Nat, ∃ l, ∃ targets, ∃ sp, ∃ stuck, s.die.live = true ∧ s.die.tileRuns t = true ∧ a < 272 ∧ (s.die.arr t a).job = .program l targets sp none ∧ stuckOk none stuck = true ∧ (∀ q ∈ stuck, 266 * q.1 + q.2.1 ∈ (s.die.cal t a).stuck)) ∧
    (∃ s : State, ∃ t : Nat, ∃ a : Nat, ∃ l, ∃ targets, ∃ sp, ∃ stuck, s.die.live = true ∧ s.die.tileRuns t = true ∧ a < 272 ∧ (s.die.arr t a).job = .program l targets sp none ∧ stuckOk none stuck = true ∧ (∃ q ∈ stuck, 266 * q.1 + q.2.1 ∉ (s.die.cal t a).stuck)) ∧
    (∃ s : State, ∃ t : Nat, ∃ a : Nat, ∃ l, s.die.live = true ∧ s.die.tileRuns t = true ∧ a < 272 ∧ s.die.reqOk t a = true ∧ s.die.domainBusy t < 256 ∧ l < 256 ∧ (s.die.imageOf t l).isSome = true) ∧
    (∃ s : State, ∃ t : Nat, ∃ a : Nat, ∃ l, ∃ k, ∃ sp, ∃ band, s.die.live = true ∧ s.die.tileRuns t = true ∧ a < 272 ∧ s.die.reqOk t a = true ∧ l < 256 ∧ s.die.imageOf t l = some k ∧ sparesOk sp = true ∧ (∀ b, band = some b → bandOk b = true) ∧ s.die.programRoom t a l band = true ∧ s.die.programIssued t a l band = true) ∧
    (∃ s : State, ∃ t : Nat, ∃ a : Nat, ∃ stuck : List (Nat × Nat × Nat), s.die.live = true ∧ s.die.tileRuns t = true ∧ a < 272 ∧ s.die.programCanEnd t a stuck = true) ∧
    (∃ s : State, ∃ t : Nat, ∃ a : Nat, s.die.live = true ∧ s.die.tileRuns t = true ∧ a < 272 ∧ s.die.reqOk t a = true ∧ s.die.domainBusy t < 256 ∧ (s.die.cal t a).reprog = false) ∧
    (∃ s : State, ∃ t : Nat, ∃ a : Nat, ∃ meas : SpringMeas, s.die.live = true ∧ s.die.tileRuns t = true ∧ a < 272 ∧ s.die.fwRuns = true ∧ (s.die.arr t a).job = .spring ∧ springShapeOk meas = true) :=
  ⟨⟨on (arrImg 3 {}), 63, 271, by decide +kernel⟩,
   ⟨on (arrImg 0 {}), 63, 271, by decide +kernel⟩,
   ⟨on ((arrImg 0 {}).modCal 63 271 (fun c => { c with holds := some 255 })), 63, 271, 255, 0, (((arrImg 0 {}).modCal 63 271 (fun c => { c with holds := some 255 })).newImage 63 271 (some (256 * 0 + 255))), by decide +kernel⟩,
   ⟨on ((arrImg 3 {}).modCal 63 271 (fun c => { c with reprog := true })), 63, 271, by decide +kernel⟩,
   ⟨on (arrImg 3 {}), 63, 271, by decide +kernel⟩,
   ⟨on (arrImg 4 { windowOpen := true }), 63, 271, by decide +kernel⟩,
   ⟨on (arrImg 0 {}), 63, 271, by decide +kernel⟩,
   ⟨on (arrImg 3 {}), 63, 271, 255, (some (0, 16)), by decide +kernel⟩,
   ⟨on (holding 5), 63, 271, 255, 0, [(7, 255)], by decide +kernel⟩,
   ⟨on (holding 3), 63, 271, 255, 0, [(7, 255)], (((holding 3).newImage 63 271 (some (256 * 0 + 255))).refreshTakes 63 271 255), ((holding 3).sparesFor 63 271 0 255 [(7, 255)]), 7, by decide +kernel⟩,
   ⟨on (arrImg 7 {}), 63, 271, by decide +kernel⟩,
   ⟨on (arrImg 5 {}), 63, 271, by decide +kernel⟩,
   ⟨on (arrImg 2 { job := .spring }), 63, 271, springBadM, by decide +kernel⟩,
   ⟨on ((arrImg 2 { job := jobOne }).modCal 63 271 (fun c => { c with stuck := [0] })), 63, 271, 0, [(0, (0, 1))], [], [(0, 0, 0)], by decide +kernel⟩,
   ⟨on (arrImg 2 { job := jobOne }), 63, 271, 0, [(0, (0, 1))], [], [(0, 0, 0)], by decide +kernel⟩,
   ⟨on (arrImg 0 {}), 63, 271, 255, by decide +kernel⟩,
   ⟨on (holding 3), 63, 271, 255, 0, [(7, 255)], (none : Option (Nat × Nat)), by (repeat' apply And.intro) <;> first | decide +kernel | (intro b h; cases h)⟩,
   ⟨on (arrImg 2 { job := jobOne }), 63, 271, [(0, 0, 0)], by decide +kernel⟩,
   ⟨on (arrImg 3 {}), 63, 271, by decide +kernel⟩,
   ⟨on (arrImg 2 { job := .spring }), 63, 271, springBadM, by decide +kernel⟩⟩

theorem witness_MapRequestsWaitForTheBoundary :
    (∃ s : State, ∃ t : Nat, ∃ l : Nat, ∃ a : Nat, ∃ k : Instr × MapKind × Bool × Nat × Bool, s.die.live = true ∧ s.die.fwRuns = true ∧ s.die.tileRuns t = true ∧ l < 256 ∧ a < 272 ∧ k ∈ [(Instr.map t l a, .map, false, 3, s.die.mapIssued t l a), (.swap t l a, .swap, true, 5, s.die.swapIssued t l a), (.remap t l a, .remap, true, 6, s.die.remapIssued t l a)] ∧ k.2.2.2.2 = false) ∧
    (∃ s : State, ∃ t : Nat, ∃ l : Nat, ∃ a : Nat, ∃ k : Instr × MapKind × Bool × Nat × Bool, s.die.live = true ∧ s.die.fwRuns = true ∧ s.die.tileRuns t = true ∧ l < 256 ∧ a < 272 ∧ k ∈ [(Instr.map t l a, .map, false, 3, s.die.mapIssued t l a), (.swap t l a, .swap, true, 5, s.die.swapIssued t l a), (.remap t l a, .remap, true, 6, s.die.remapIssued t l a)] ∧ k.2.2.2.2 = true ∧ s.die.mayEnter t a = true ∧ s.die.on (Reg.TILE_AMAP_VALID t l) = k.2.2.1 ∧ s.die.on (Reg.TILE_AMAP_PEND t l) = false) ∧
    (∃ s : State, ∃ t : Nat, ∃ l : Nat, ∃ a : Nat, ∃ k : Instr × MapKind × Bool × Nat × Bool, s.die.live = true ∧ s.die.fwRuns = true ∧ s.die.tileRuns t = true ∧ l < 256 ∧ a < 272 ∧ k ∈ [(Instr.map t l a, .map, false, 3, s.die.mapIssued t l a), (.swap t l a, .swap, true, 5, s.die.swapIssued t l a), (.remap t l a, .remap, true, 6, s.die.remapIssued t l a)] ∧ k.2.2.2.2 = true ∧ (s.die.mayEnter t a = false ∨ s.die.on (Reg.TILE_AMAP_VALID t l) = !k.2.2.1 ∨ s.die.on (Reg.TILE_AMAP_PEND t l) = true)) ∧
    (∃ s : State, ∃ t : Nat, ∃ l : Nat, ∃ a : Nat, ∃ x, s.die.live = true ∧ s.die.fwRuns = true ∧ s.die.tileRuns t = true ∧ l < 256 ∧ a < 272 ∧ s.die.serving t l = some x ∧ s.die.arrState t x = asServing ∧ s.die.on (Reg.TILE_AMAP_PEND t l) = false) ∧
    (∃ s : State, ∃ t : Nat, ∃ l : Nat, ∃ a : Nat, s.die.live = true ∧ s.die.fwRuns = true ∧ s.die.tileRuns t = true ∧ l < 256 ∧ a < 272 ∧ s.die.serving t l = none) ∧
    (∃ s : State, ∃ t : Nat, ∃ l : Nat, ∃ a : Nat, s.die.live = true ∧ s.die.fwRuns = true ∧ s.die.tileRuns t = true ∧ l < 256 ∧ a < 272 ∧ s.die.reqOk t 0 = true) :=
  ⟨⟨on die6, 63, 255, 271, (.map 63 255 271, .map, false, 3, false), by decide +kernel⟩,
   ⟨on ((arrImg 3 {}).modCal 63 271 (fun c => { c with holds := some 255 })), 63, 255, 271, (.map 63 255 271, .map, false, 3, true), by decide +kernel⟩,
   ⟨on ((arrImg 0 {}).modCal 63 271 (fun c => { c with holds := some 255 })), 63, 255, 271, (.map 63 255 271, .map, false, 3, true), by decide +kernel⟩,
   ⟨on serving255, 63, 255, 271, 271, by decide +kernel⟩,
   ⟨on die6, 63, 255, 271, by decide +kernel⟩,
   ⟨on die6, 63, 255, 271, by decide +kernel⟩⟩

theorem witness_CalibrationEventsKeepTheirRules :
    (∃ s : State, ∃ t : Nat, ∃ a : Nat, ∃ ag, s.die.live = true ∧ a < 272 ∧ s.die.tileWrite ag t = true ∧ s.die.snapBarred t a = true) ∧
    (∃ s : State, ∃ t : Nat, ∃ a : Nat, ∃ ag, s.die.live = true ∧ a < 272 ∧ s.die.tileWrite ag t = true ∧ s.die.snapBarred t a = false) ∧
    (∃ s : State, ∃ t : Nat, ∃ a : Nat, ∃ l, ∃ x, ∃ drift, ∃ age, s.die.live = true ∧ a < 272 ∧ s.die.fwRuns = true ∧ s.die.enabled t = true ∧ l < 256 ∧ s.die.isDue t l drift age = true ∧ s.die.serving t l = some x ∧ ((s.die.pool t).isEmpty = false ∨ s.die.windowCovers t l = true)) ∧
    (∃ s : State, ∃ t : Nat, ∃ a : Nat, ∃ l, ∃ x, ∃ drift, ∃ age, s.die.live = true ∧ a < 272 ∧ s.die.fwRuns = true ∧ s.die.enabled t = true ∧ l < 256 ∧ s.die.isDue t l drift age = true ∧ s.die.serving t l = some x ∧ (s.die.pool t).isEmpty = true ∧ s.die.windowCovers t l = false ∧ look s.die.upkeep.deferred (256 * t + l) = none) ∧
    (∃ s : State, ∃ t : Nat, ∃ a : Nat, ∃ l, s.die.live = true ∧ a < 272 ∧ s.die.fwRuns = true ∧ s.die.enabled t = true ∧ l < 256 ∧ s.die.overdue t l = false) ∧
    (∃ s : State, ∃ t : Nat, ∃ a : Nat, ∃ l, s.die.live = true ∧ a < 272 ∧ s.die.fwRuns = true ∧ s.die.enabled t = true ∧ l < 256 ∧ s.die.overdue t l = true ∧ s.die.upkeep.set.degraded = false) ∧
    (∃ s : State, ∃ t : Nat, ∃ a : Nat, s.die.live = true ∧ a < 272 ∧ s.die.fwRuns = true ∧ s.die.enabled t = true ∧ (s.die.arrState t a = asServing ∨ s.die.arrState t a = asReady) ∧ (s.die.cal t a).stale = false ∧ (s.die.cal t a).lastRef + 65536 ≤ s.die.tideNum) ∧
    (∃ s : State, ∃ t : Nat, ∃ a : Nat, ∃ w, s.die.live = true ∧ a < 272 ∧ s.die.fwRuns = true ∧ s.die.enabled t = true ∧ (s.die.cal t a).watch = some w ∧ w.1 ≤ s.die.tideNum ∧ (s.die.cal t a).condemned = false) ∧
    (∃ s : State, ∃ t : Nat, ∃ a : Nat, ∃ r, ∃ avg, ∃ v, s.die.live = true ∧ a < 272 ∧ s.die.fwRuns = true ∧ s.die.tileRuns t = true ∧ s.die.arrState t a = asServing ∧ s.die.tempTrigger t = false ∧ s.die.driftTrigger t a = true ∧ s.die.neapLeftOut t a = false ∧ (s.die.cal t a).spring = some r ∧ (s.die.cal t a).rgAvg = some avg ∧ 0 < avg ∧ neapValues (s.die.cal t a) r (arrIx t a) (s.die.estimate t) avg s.die.upkeep.set.neapRes = v ∧ s.die.neapReason t a v.1 v.2.1 v.2.2.1 v.2.2.2 = 0) ∧
    (∃ s : State, ∃ t : Nat, ∃ a : Nat, ∃ r, ∃ avg, ∃ v, s.die.live = true ∧ a < 272 ∧ s.die.fwRuns = true ∧ s.die.tileRuns t = true ∧ s.die.arrState t a = asServing ∧ s.die.tempTrigger t = false ∧ s.die.driftTrigger t a = true ∧ s.die.neapLeftOut t a = false ∧ (s.die.cal t a).spring = some r ∧ (s.die.cal t a).rgAvg = some avg ∧ 0 < avg ∧ neapValues (s.die.cal t a) r (arrIx t a) (s.die.estimate t) avg s.die.upkeep.set.neapRes = v ∧ s.die.neapReason t a v.1 v.2.1 v.2.2.1 v.2.2.2 ≠ 0 ∧ s.die.get (Reg.CAL_QF_REJECTS t a) < 2) ∧
    (∃ s : State, ∃ a : Nat, ∃ n, ∃ x, s.die.live = true ∧ a < 272 ∧ s.die.fwRuns = true ∧ s.die.armed = false ∧ s.die.alignOpen = true ∧ s.die.upkeep.diodeFresh = true ∧ s.die.enabled n = true ∧ s.die.tileEst n = some x) ∧
    (∃ s : State, ∃ a : Nat, ∃ m, ∃ g, ∃ n, ∃ x, ∃ data : List Byte, s.die.live = true ∧ a < 272 ∧ s.die.fwRuns = true ∧ s.die.rankIn m g n = some x ∧ data ≠ s.die.rankData x) ∧
    (∃ s : State, ∃ a : Nat, ∃ m, ∃ g, ∃ n, ∃ x, ∃ data : List Byte, ∃ p, s.die.live = true ∧ a < 272 ∧ s.die.fwRuns = true ∧ s.die.outsFull = true ∧ s.die.rankIn m g n = some x ∧ s.die.rankDue x = true ∧ s.die.rankData x = data ∧ s.die.serve.inputs = [] ∧ s.die.slotSpans m g n = [p]) ∧
    (∃ s : State, ∃ a : Nat, ∃ m, ∃ g, ∃ n, ∃ x, ∃ data : List Byte, ∃ c, s.die.live = true ∧ a < 272 ∧ s.die.fwRuns = true ∧ s.die.outsFull = true ∧ s.die.rankIn m g n = some x ∧ s.die.rankDue x = true ∧ s.die.rankData x = data ∧ s.die.serve.inputs = [] ∧ (∀ q ∈ s.die.slotSpans m g n, c < q.1 ∨ q.1 + q.2 ≤ c)) ∧
    (∃ s : State, ∃ t : Nat, ∃ a : Nat, ∃ logical : Nat, ∃ byDrift : Bool, ∃ age : Nat, s.die.live = true ∧ a < 272 ∧ s.die.fwRuns = true ∧ s.die.enabled t = true ∧ logical < 256 ∧ s.die.isDue t logical byDrift age = true) ∧
    (∃ s : State, ∃ t : Nat, ∃ a : Nat, ∃ logical : Nat, s.die.live = true ∧ a < 272 ∧ s.die.fwRuns = true ∧ s.die.overdue t logical = true ∧ logical < 256 ∧ s.die.enabled t = true) ∧
    (∃ s : State, ∃ t : Nat, ∃ a : Nat, s.die.live = true ∧ a < 272 ∧ s.die.fwRuns = true ∧ s.die.tileRuns t = true ∧ s.die.neapMay t a = true) ∧
    (∃ s : State, ∃ t : Nat, ∃ a : Nat, s.die.live = true ∧ a < 272 ∧ s.die.fwRuns = true ∧ s.die.enabled t = true ∧ s.die.watchOver t a = true) ∧
    (∃ s : State, ∃ a : Nat, ∃ m, ∃ g, ∃ n, ∃ x, s.die.live = true ∧ a < 272 ∧ s.die.fwRuns = true ∧ s.die.outsFull = true ∧ s.die.rankIn m g n = some x ∧ s.die.rankDue x = true) :=
  ⟨⟨on (arrIn 4 {}), 63, 271, .j3, by decide +kernel⟩,
   ⟨on (arrIn 3 {}), 63, 271, .j3, by decide +kernel⟩,
   ⟨on (aged 72 serving255), 63, 271, 255, 271, false, 72, by decide +kernel⟩,
   ⟨on (withUpkeep (fun u => { u with withheld := (List.range 272).map (arrIx 63) }) (aged 72 serving255)), 63, 271, 255, 271, false, 72, by decide +kernel⟩,
   ⟨on (withUpkeep (fun u => { u with deferred := [(256 * 63 + 255, 0)] }) die6), 63, 271, 255, by decide +kernel⟩,
   ⟨on (withUpkeep (fun u => { u with deferred := [(256 * 63 + 255, 0)] }) (aged 144 die6)), 63, 271, 255, by decide +kernel⟩,
   ⟨on ((arrIn 3 {}).put64 (Reg.TIDE_NUM 0) 65536), 63, 271, by decide +kernel⟩,
   ⟨on (withCal { watch := some (0, 0) } die6), 63, 271, (0, 0), by decide +kernel⟩,
   ⟨on (drifted 24576), 63, 271, springR 24576, 24576, neapValues { rg := [96], spring := some (springR 24576) } (springR 24576) (arrIx 63 271) 400 24576 8, by decide +kernel⟩,
   ⟨on (drifted 50000), 63, 271, springR 50000, 24576, neapValues { rg := [96], spring := some (springR 50000) } (springR 50000) (arrIx 63 271) 400 24576 8, by decide +kernel⟩,
   let ⟨x, hx⟩ := Option.isSome_iff_exists.mp (show (tempered.tileEst 63).isSome = true by decide +kernel); ⟨on tempered, 271, 63, x, by decide +kernel, by decide +kernel, by decide +kernel, by decide +kernel, by decide +kernel, by decide +kernel, by decide +kernel, hx⟩,
   ⟨on repairing, 271, 1, 2, 3, { matrix := 1, group := 2, slot := 3, arr := 17407, col := 0, logical := 255 }, [], by decide +kernel⟩,
   ⟨on repairing, 271, 1, 2, 3, { matrix := 1, group := 2, slot := 3, arr := 17407, col := 0, logical := 255 }, (repairing.rankData { matrix := 1, group := 2, slot := 3, arr := 17407, col := 0, logical := 255 }), (tileAddr 63 + 48, 16), by decide +kernel⟩,
   ⟨on repairing, 271, 1, 2, 3, { matrix := 1, group := 2, slot := 3, arr := 17407, col := 0, logical := 255 }, (repairing.rankData { matrix := 1, group := 2, slot := 3, arr := 17407, col := 0, logical := 255 }), tileAddr 63 + 64, by decide +kernel⟩,
   ⟨on (aged 72 serving255), 63, 271, 255, false, 72, by decide +kernel⟩,
   ⟨on (withUpkeep (fun u => { u with deferred := [(256 * 63 + 255, 0)] }) (aged 144 die6)), 63, 271, 255, by decide +kernel⟩,
   ⟨on ((arrIn 4 {}).modCal 63 271 (fun c => { c with neapDue := true })), 63, 271, by decide +kernel⟩,
   ⟨on (withCal { watch := some (0, 0) } die6), 63, 271, by decide +kernel⟩,
   ⟨on repairing, 271, 1, 2, 3, { matrix := 1, group := 2, slot := 3, arr := 17407, col := 0, logical := 255 }, by decide +kernel⟩⟩

theorem witness_UpkeepCommandsAnswerInRange :
    (∃ s : State, ∃ box : Nat, ∃ c : Instr, ∃ ok : Bool, ∃ x : UpkeepSet, s.die.boxReady box = true ∧ ((∃ n r q d, c = .calCfg box n r q d ∧ ok = (inR 5 100 n && inR 2 64 r && inR 2 32 q && inR 10 60 d) ∧ x = { s.die.upkeep.next with neapTrig10 := n, neapRes := r, qfLim := q, springDist := d }) ∨ (∃ d h, c = .refreshCfg box d h ∧ ok = (inR 10 100 d && inR 1 168 h) ∧ x = { s.die.upkeep.next with drift10 := d, hours := h }) ∨ (∃ g r, c = .upkeepPolicy box g r ∧ ok = inR 10 500 r ∧ x = { s.die.upkeep.next with degraded := g, repairLim100 := r }))) ∧
    (∃ s : State, ∃ box : Nat, ∃ t, ∃ frac, ∃ k4, ∃ g, ∃ off, ∃ seed, s.die.boxReady box = true ∧ s.die.enabled t = true ∧ (inR 0 5 frac && inR 12 60 k4 && inR 0 255 g && inR 0 15 off && inR 1 (2 ^ 32 - 1) seed) = true) ∧
    (∃ s : State, ∃ box : Nat, ∃ t, ∃ frac, ∃ k4, ∃ g, ∃ off, ∃ seed, s.die.boxReady box = true ∧ s.die.enabled t = true ∧ (inR 0 5 frac && inR 12 60 k4 && inR 0 255 g && inR 0 15 off && inR 1 (2 ^ 32 - 1) seed) = false) ∧
    (∃ s : State, ∃ box : Nat, ∃ t, ∃ a, ∃ l, s.die.boxReady box = true ∧ s.die.enabled t = true ∧ a < 272 ∧ s.die.arrState t a = asServing ∧ s.die.mappedTo t a = some l ∧ ((s.die.pool t).isEmpty = false ∨ s.die.windowCovers t l = true)) ∧
    (∃ s : State, ∃ box : Nat, ∃ t, s.die.boxReady box = true ∧ s.die.enabled t = false) ∧
    (∃ s : State, ∃ box : Nat, s.die.boxReady box = true ∧ s.die.armed = true) ∧
    (∃ s : State, ∃ box : Nat, s.die.boxReady box = true) ∧
    (∃ s : State, ∃ box : Nat, s.die.boxReady box = true ∧ s.die.tideState ≠ 2) ∧
    (∃ s : State, ∃ box : Nat, ∃ l : List RepairSlot, s.die.boxReady box = true ∧ s.die.tideState = 2 ∧ (∀ x ∈ l, x.slots ≤ 4 ∧ x.tile < 64 ∧ x.region < 255)) ∧
    (∃ s : State, ∃ box : Nat, s.die.boxReady box = true) ∧
    (∃ s : State, ∃ box : Nat, s.die.boxReady box = true) ∧
    (∃ s : State, ∃ box : Nat, ∃ l : List RepairSlot, s.die.boxReady box = true ∧ s.die.tideState = 2 ∧ ¬ (∀ x ∈ l, x.slots ≤ 4 ∧ x.tile < 64 ∧ x.region < 255)) :=
  ⟨⟨on dieBox, 63, .calCfg 63 5 2 2 10, true, { dieBox.upkeep.next with neapTrig10 := 5, neapRes := 2, qfLim := 2, springDist := 10 }, by exact ⟨by decide +kernel, Or.inl ⟨5, 2, 2, 10, rfl, by decide, rfl⟩⟩⟩,
   ⟨on dieBox, 63, 63, 5, 60, 255, 15, 2 ^ 32 - 1, by decide +kernel⟩,
   ⟨on dieBox, 63, 63, 6, 60, 255, 15, 0, by decide +kernel⟩,
   ⟨on servingBox, 63, 63, 271, 255, by decide +kernel⟩,
   ⟨on { dieBox with nv := { tileMap := 1 } }, 63, 63, by decide +kernel⟩,
   ⟨on (dieBox.put Reg.TIDE_STATUS_STATE 5), 63, by decide +kernel⟩,
   ⟨on dieBox, 63, by decide +kernel⟩,
   ⟨on dieBox, 63, by decide +kernel⟩,
   ⟨on (dieBox.put Reg.TIDE_STATUS_STATE 2), 63, ([⟨0, 0, 63, 254, 0, 4⟩] : List RepairSlot), by decide +kernel⟩,
   ⟨on dieBox, 63, by decide +kernel⟩,
   ⟨on dieBox, 63, by decide +kernel⟩,
   ⟨on (dieBox.put Reg.TIDE_STATUS_STATE 2), 63, ([⟨0, 0, 63, 254, 0, 5⟩] : List RepairSlot), by decide +kernel⟩⟩

theorem witness_ConfigurationAndSubmissionAnswerByRule :
    (∃ s : State, ∃ box : Nat, ∃ c : Instr, ∃ ok : Bool, ∃ x : Serve, s.die.boxReady box = true ∧ ((∃ p, c = .kvCfg box p ∧ ok = s.die.kvOk p ∧ x = { s.die.serve with kv := some p }) ∨ (∃ p, c = .stepCfg box p ∧ ok = stepCfgOk p ∧ x = { s.die.serve with stepCfg := some p }) ∨ (∃ p, c = .kvRoute box p ∧ ok = (inR 1 1000 (p.tmo.getD 20) && decide (p.org.1 < 32) && decide (p.org.2.1 < 32) && decide (p.org.2.2 < 32)) ∧ x = { s.die.serve with route := some p })) ∧ s.die.tideState ≠ 2) ∧
    (∃ s : State, ∃ box : Nat, ∃ c : Instr, ∃ ok : Bool, ∃ x : Serve, s.die.boxReady box = true ∧ ((∃ p, c = .kvCfg box p ∧ ok = s.die.kvOk p ∧ x = { s.die.serve with kv := some p }) ∨ (∃ p, c = .stepCfg box p ∧ ok = stepCfgOk p ∧ x = { s.die.serve with stepCfg := some p }) ∨ (∃ p, c = .kvRoute box p ∧ ok = (inR 1 1000 (p.tmo.getD 20) && decide (p.org.1 < 32) && decide (p.org.2.1 < 32) && decide (p.org.2.2 < 32)) ∧ x = { s.die.serve with route := some p })) ∧ s.die.tideState = 2) ∧
    (∃ s : State, ∃ box : Nat, s.die.boxReady box = true ∧ s.die.serve.stepCfg.isSome = true ∧ s.die.isFront = false) ∧
    (∃ s : State, ∃ box : Nat, ∃ p, s.die.boxReady box = true ∧ (s.die.serve.stepCfg.isNone = true ∨ s.die.isFront = true) ∧ submitOk p = false) ∧
    (∃ s : State, ∃ box : Nat, ∃ p, ∃ code, ∃ need, ∃ avail, s.die.boxReady box = true ∧ (s.die.serve.stepCfg.isNone = true ∨ s.die.isFront = true) ∧ submitOk p = true ∧ s.die.breakwater p = some (code, need, avail)) ∧
    (∃ s : State, ∃ box : Nat, ∃ p, ∃ n, s.die.boxReady box = true ∧ (s.die.serve.stepCfg.isNone = true ∨ s.die.isFront = true) ∧ submitOk p = true ∧ s.die.breakwater p = none ∧ s.die.freeCtx = some n) ∧
    (∃ s : State, ∃ box : Nat, s.die.boxReady box = true) :=
  ⟨⟨on dieBox, 63, .kvRoute 63 { org := (31, 0, 0), tmo := some 1000, reprefill := true }, true, { dieBox.serve with route := some { org := (31, 0, 0), tmo := some 1000, reprefill := true } }, by exact ⟨by decide +kernel, Or.inr (Or.inr ⟨_, rfl, by decide, rfl⟩), by decide +kernel⟩⟩,
   ⟨on (dieBox.put Reg.TIDE_STATUS_STATE 2), 63, .kvRoute 63 { org := (31, 0, 0), tmo := some 1000, reprefill := true }, true, { dieBox.serve with route := some { org := (31, 0, 0), tmo := some 1000, reprefill := true } }, by exact ⟨by decide +kernel, Or.inr (Or.inr ⟨_, rfl, by decide, rfl⟩), by decide +kernel⟩⟩,
   ⟨on (slice 1 dieBox), 63, by decide +kernel⟩,
   ⟨on (slice 0 dieBox), 63, subP 0, by decide +kernel⟩,
   ⟨on dieBox, 63, subP 1, 72, 1, 0, by decide +kernel⟩,
   ⟨on { slice 0 dieBox with tenancy := { cfg := [(4095, tenP 0)] } }, 63, subP 1, 0, by decide +kernel⟩,
   ⟨on dieBox, 63, by decide +kernel⟩⟩

theorem witness_ContextCommandsFollowTheContextState :
    (∃ s : State, ∃ n : Nat, ∃ box, ∃ k : Instr × Bool, s.die.boxReady box = true ∧ k ∈ [(Instr.ctxCancel box n, decide (1 ≤ (s.die.ctx n).state) && decide ((s.die.ctx n).state ≤ 5)), (.ctxPark box n, decide (1 ≤ (s.die.ctx n).state) && decide ((s.die.ctx n).state ≤ 3)), (.ctxResume box n, (s.die.ctx n).state == csParked && (s.die.ctx n).reason == 32), (.ctxRelease box n, (s.die.ctx n).state == csDone || (s.die.ctx n).state == csFailed)] ∧ s.die.isFront = false) ∧
    (∃ s : State, ∃ n : Nat, ∃ box, ∃ k : Instr × Bool, s.die.boxReady box = true ∧ k ∈ [(Instr.ctxCancel box n, decide (1 ≤ (s.die.ctx n).state) && decide ((s.die.ctx n).state ≤ 5)), (.ctxPark box n, decide (1 ≤ (s.die.ctx n).state) && decide ((s.die.ctx n).state ≤ 3)), (.ctxResume box n, (s.die.ctx n).state == csParked && (s.die.ctx n).reason == 32), (.ctxRelease box n, (s.die.ctx n).state == csDone || (s.die.ctx n).state == csFailed)] ∧ s.die.isFront = true ∧ ctxCount ≤ n) ∧
    (∃ s : State, ∃ n : Nat, ∃ box, ∃ k : Instr × Bool, s.die.boxReady box = true ∧ k ∈ [(Instr.ctxCancel box n, decide (1 ≤ (s.die.ctx n).state) && decide ((s.die.ctx n).state ≤ 5)), (.ctxPark box n, decide (1 ≤ (s.die.ctx n).state) && decide ((s.die.ctx n).state ≤ 3)), (.ctxResume box n, (s.die.ctx n).state == csParked && (s.die.ctx n).reason == 32), (.ctxRelease box n, (s.die.ctx n).state == csDone || (s.die.ctx n).state == csFailed)] ∧ s.die.isFront = true ∧ n < ctxCount ∧ k.2 = false) ∧
    (∃ s : State, ∃ n : Nat, ∃ box, s.die.boxReady box = true ∧ s.die.isFront = true ∧ n < ctxCount ∧ (s.die.ctx n).live = true ∧ s.die.holdsBerth n = true) ∧
    (∃ s : State, ∃ n : Nat, ∃ box, s.die.boxReady box = true ∧ s.die.isFront = true ∧ n < ctxCount ∧ (s.die.ctx n).live = true ∧ s.die.holdsBerth n = false) ∧
    (∃ s : State, ∃ n : Nat, ∃ box, s.die.boxReady box = true ∧ s.die.isFront = true ∧ n < ctxCount ∧ 1 ≤ (s.die.ctx n).state ∧ (s.die.ctx n).state ≤ 3 ∧ s.die.holdsBerth n = true) ∧
    (∃ s : State, ∃ n : Nat, ∃ box, s.die.boxReady box = true ∧ s.die.isFront = true ∧ n < ctxCount ∧ 1 ≤ (s.die.ctx n).state ∧ (s.die.ctx n).state ≤ 3 ∧ s.die.holdsBerth n = false) ∧
    (∃ s : State, ∃ n : Nat, ∃ box, s.die.boxReady box = true ∧ s.die.isFront = true ∧ n < ctxCount ∧ (s.die.ctx n).state = csParked ∧ (s.die.ctx n).reason = 32) ∧
    (∃ s : State, ∃ n : Nat, ∃ box, s.die.boxReady box = true ∧ s.die.isFront = true ∧ n < ctxCount ∧ ((s.die.ctx n).state = csDone ∨ (s.die.ctx n).state = csFailed)) ∧
    (∃ s : State, ∃ n : Nat, ∃ box, s.die.boxReady box = true ∧ s.die.isFront = true ∧ n < ctxCount ∧ (s.die.ctx n).state ≠ csFree) ∧
    (∃ s : State, ∃ n : Nat, ∃ box, s.die.boxReady box = true ∧ s.die.isFront = true ∧ n < ctxCount ∧ (s.die.ctx n).state = csFree) ∧
    (∃ s : State, ∃ box, s.die.boxReady box = true ∧ s.die.isFront = false) ∧
    (∃ s : State, ∃ box, s.die.boxReady box = true ∧ s.die.isFront = true ∧ s.die.serve.steps = [] ∧ s.die.serve.log = []) ∧
    (∃ s : State, ∃ n : Nat, s.die.live = true ∧ s.die.fwRuns = true ∧ s.die.isFront = true ∧ ((s.die.ctx n).state = csDone ∨ (s.die.ctx n).state = csFailed) ∧ (s.die.ctx n).since + 1000000 * s.die.holdMs ≤ s.die.now) ∧
    (∃ s : State, ∃ n : Nat, s.die.live = true ∧ s.die.fwRuns = true ∧ s.die.isFront = true ∧ (s.die.ctx n).state = csParked ∧ (s.die.ctx n).reason = 33 ∧ (s.die.ctx n).since + 1000000 * s.die.parkMs ≤ s.die.now) ∧
    (∃ s : State, ∃ n : Nat, ∃ box, s.die.boxReady box = true ∧ (s.die.isFront = false ∨ ctxCount ≤ n)) :=
  ⟨⟨on dieBox, 5, 63, (.ctxCancel 63 5, false), by decide +kernel⟩,
   ⟨on (slice 0 dieBox), 1048576, 63, (.ctxCancel 63 1048576, false), by decide +kernel⟩,
   ⟨on (slice 0 dieBox), 1048575, 63, (.ctxRelease 63 1048575, false), by decide +kernel⟩,
   ⟨on (withStep (step5 none) (slice 0 (withCtx { state := 5 } dieBox))), 5, 63, by decide +kernel⟩,
   ⟨on (slice 0 (withCtx { state := 5 } dieBox)), 5, 63, by decide +kernel⟩,
   ⟨on (withStep (step5 none) (slice 0 (withCtx { state := 3 } dieBox))), 5, 63, by decide +kernel⟩,
   ⟨on (slice 0 (withCtx { state := 1 } dieBox)), 5, 63, by decide +kernel⟩,
   ⟨on (slice 0 (withCtx { state := 4, reason := 32 } dieBox)), 5, 63, by decide +kernel⟩,
   ⟨on (slice 0 (withCtx { state := 7 } dieBox)), 5, 63, by decide +kernel⟩,
   ⟨on (slice 0 (withCtx { state := 3 } dieBox)), 5, 63, by decide +kernel⟩,
   ⟨on (slice 0 (withCtx { state := 3 } dieBox)), ctxCount - 1, 63, by decide +kernel⟩,
   ⟨on dieBox, 63, by decide +kernel⟩,
   ⟨on (slice 0 dieBox), 63, by decide +kernel⟩,
   ⟨on (aged 1 (slice 0 (withCtx { state := 6 } dieBox))), 5, by decide +kernel⟩,
   ⟨on (aged 1 (slice 0 (withCtx { state := 4, reason := 33 } dieBox))), 5, by decide +kernel⟩,
   ⟨on (slice 0 dieBox), ctxCount, 63, by decide +kernel⟩⟩

theorem witness_PromptsPagesAndSliceMessagesArrive :
    (∃ s : State, ∃ m, ∃ l : List StreamEntry, ∃ ack : Bool, s.die.accepts m 0x50 2 = true ∧ (∀ e ∈ l, 1 ≤ e.tokens.length ∧ e.tokens.length ≤ 2048) ∧ s.die.fwRuns = false ∧ ack = true) ∧
    (∃ s : State, ∃ m, ∃ l : List StreamEntry, ∃ ack : Bool, ∃ x, s.die.accepts m 0x50 2 = true ∧ (∀ e ∈ l, 1 ≤ e.tokens.length ∧ e.tokens.length ≤ 2048) ∧ s.die.fwRuns = false ∧ ack = false ∧ s.die.session m.slot = some x) ∧
    (∃ s : State, ∃ m, ∃ l : List StreamEntry, ∃ ack : Bool, s.die.accepts m 0x50 2 = true ∧ (∀ e ∈ l, 1 ≤ e.tokens.length ∧ e.tokens.length ≤ 2048) ∧ s.die.fwRuns = true ∧ s.die.isFront = false ∧ ack = true) ∧
    (∃ s : State, ∃ m, ∃ l : List StreamEntry, ∃ ack, s.die.accepts m 0x50 2 = true ∧ (∀ e ∈ l, 1 ≤ e.tokens.length ∧ e.tokens.length ≤ 2048) ∧ s.die.fwRuns = true ∧ s.die.isFront = true ∧ ack = true) ∧
    (∃ s : State, ∃ m, ∃ l : List StreamEntry, ∃ e, ∃ i, s.die.accepts m 0x50 2 = true ∧ (∀ e ∈ l, 1 ≤ e.tokens.length ∧ e.tokens.length ≤ 2048) ∧ s.die.fwRuns = true ∧ s.die.isFront = true ∧ l = [e] ∧ s.die.entryRefused e = none ∧ i < e.tokens.length ∧ (s.die.ctx e.ctx).promptRcvd ≤ e.offset + i ∧ look (s.die.ctx e.ctx).prompt (e.offset + i) = none) ∧
    (∃ s : State, ∃ m, ∃ l : List StreamEntry, ∃ e, ∃ r, s.die.accepts m 0x50 2 = true ∧ (∀ e ∈ l, 1 ≤ e.tokens.length ∧ e.tokens.length ≤ 2048) ∧ s.die.fwRuns = true ∧ s.die.isFront = true ∧ l = [e] ∧ s.die.entryRefused e = some r) ∧
    (∃ s : State, ∃ n, ∃ page, ∃ dst, ∃ k, s.die.live = true ∧ s.die.fwRuns = true ∧ (s.die.ctx n).outgoing = true ∧ (s.die.ctx n).shipGot.length = page ∧ page < ((s.die.ctx n).promptLen + 63) / 64 ∧ s.die.shipDest = some dst ∧ s.die.nextLink dst = some k) ∧
    (∃ s : State, ∃ n, ∃ page, s.die.live = true ∧ s.die.fwRuns = true ∧ (s.die.ctx n).outgoing = true ∧ (s.die.ctx n).shipGot.contains page = true ∧ (addOnce (s.die.ctx n).shipAcked page).length ≠ ((s.die.ctx n).promptLen + 63) / 64) ∧
    (∃ s : State, ∃ n, ∃ page, ∃ dst, ∃ k, s.die.live = true ∧ s.die.fwRuns = true ∧ (s.die.ctx n).outgoing = true ∧ (s.die.ctx n).shipGot.contains page = true ∧ (look (s.die.ctx n).shipResends page).getD 0 < 3 ∧ s.die.shipDest = some dst ∧ s.die.nextLink dst = some k) ∧
    (∃ s : State, ∃ n, ∃ page, s.die.live = true ∧ s.die.fwRuns = true ∧ (s.die.ctx n).outgoing = true ∧ (s.die.ctx n).shipGot.contains page = true ∧ 3 ≤ (look (s.die.ctx n).shipResends page).getD 0 ∧ s.die.isFront = true ∧ s.die.reprefill = false) ∧
    (∃ s : State, ∃ m : PageShard, ∃ k, s.die.live = true ∧ s.die.fwRuns = true ∧ (s.die.ctx m.ctx).state = csShipping ∧ (s.die.ctx m.ctx).flag cfShipIn = true ∧ m.page < m.npages ∧ s.die.serve.kv = some k ∧ m.payload.length = pageBytes k ∧ m.ctx < ctxCount ∧ m.good = false ∧ (look (s.die.ctx m.ctx).shipResends m.page).getD 0 < 3) ∧
    (∃ s : State, ∃ m : PageShard, ∃ k, ∃ e, ∃ a, s.die.live = true ∧ s.die.fwRuns = true ∧ (s.die.ctx m.ctx).state = csShipping ∧ (s.die.ctx m.ctx).flag cfShipIn = true ∧ m.page < m.npages ∧ s.die.serve.kv = some k ∧ m.payload.length = pageBytes k ∧ m.ctx < ctxCount ∧ m.good = true ∧ s.die.addPages m.ctx (m.page + 1 - (s.die.ctx m.ctx).pages.length) = some e ∧ 4096 * (e.ctx m.ctx).pages.getD m.page 0 = a ∧ a + m.payload.length ≤ ctxArea ∧ (addOnce (e.ctx m.ctx).shipGot m.page).length ≠ m.npages) ∧
    (∃ s : State, ∃ n, ∃ page, ∃ k, ∃ x, s.die.live = true ∧ s.die.fwRuns = true ∧ (s.die.ctx n).state = csShipping ∧ (s.die.ctx n).flag cfShipIn = true ∧ page < ((s.die.ctx n).promptLen + 63) / 64 ∧ (s.die.ctx n).shipGot.contains page = false ∧ (look (s.die.ctx n).shipResends page).getD 0 < 3 ∧ (look (s.die.ctx n).shipClock page = some x ∨ look (s.die.ctx n).shipClock page = none ∧ page = 0 ∧ x = (s.die.ctx n).since) ∧ x + s.die.shipTmoNs ≤ s.die.now ∧ (s.die.ctx n).shipLink = some k) ∧
    (∃ s : State, s.die.live = true ∧ s.die.fwRuns = true ∧ s.die.frontAt.isSome = true ∧ s.die.isFront = true) ∧
    (∃ s : State, ∃ k, s.die.live = true ∧ s.die.fwRuns = true ∧ s.die.frontAt.isSome = true ∧ s.die.isFront = false ∧ s.die.parentLink = some k) ∧
    (∃ s : State, ∃ k : CtxCopy, s.die.live = true ∧ s.die.fwRuns = true ∧ s.die.frontAt.isSome = true ∧ s.die.isFront = false ∧ k.state = csFree) ∧
    (∃ s : State, ∃ k : CtxCopy, s.die.live = true ∧ s.die.fwRuns = true ∧ s.die.frontAt.isSome = true ∧ s.die.isFront = false ∧ (k.state = csQueued ∨ k.state = csDecode ∨ k.state = csParked)) ∧
    (∃ s : State, ∃ k, s.die.live = true ∧ s.die.fwRuns = true ∧ s.die.frontAt.isSome = true ∧ s.die.isFront = false ∧ s.die.parentLink = some k) ∧
    (∃ s : State, s.die.live = true ∧ s.die.fwRuns = true ∧ s.die.frontAt.isSome = true) ∧
    (∃ s : State, ∃ ctx : Nat, ∃ page : Nat, s.die.live = true ∧ s.die.fwRuns = true ∧ (s.die.ctx ctx).outgoing = true ∧ (s.die.ctx ctx).shipGot.length = page ∧ page < ((s.die.ctx ctx).promptLen + 63) / 64) ∧
    (∃ s : State, ∃ m : PageShard, s.die.live = true ∧ s.die.fwRuns = true ∧ (s.die.ctx m.ctx).state = csShipping ∧ (s.die.ctx m.ctx).flag cfShipIn = true ∧ m.page < m.npages ∧ ((match s.die.serve.kv with | some k => m.payload.length == pageBytes k | none => false) = true)) ∧
    (∃ s : State, ∃ ctx : Nat, ∃ page : Nat, s.die.live = true ∧ s.die.fwRuns = true ∧ (s.die.ctx ctx).outgoing = true ∧ (s.die.ctx ctx).shipGot.contains page = true) ∧
    (∃ s : State, ∃ ctx : Nat, ∃ page : Nat, s.die.live = true ∧ s.die.fwRuns = true ∧ s.die.shipLate ctx page = true) ∧
    (∃ s : State, ∃ m : MsgHead, s.die.live = true ∧ s.die.canRequest m = true) :=
  ⟨⟨on ((withSess (sess 15) die0).put Reg.HP_STATUS_STATE 2), msg 0, [entry5], true, by decide +kernel⟩,
   ⟨on ((withSess (sess 15) die0).put Reg.HP_STATUS_STATE 2), msg 0, [entry5], false, sess 15, by decide +kernel⟩,
   ⟨on (slice 1 (hostFront {})), msg 0, [entry5], true, by decide +kernel⟩,
   ⟨on (hostFront {}), msg 0, [entry5], true, by decide +kernel⟩,
   ⟨on (hostFront { state := 1, promptLen := 1 }), msg 0, [entry5], entry5, 0, by decide +kernel⟩,
   ⟨on (hostFront {}), msg 0, [entry5], entry5, 48, by decide +kernel⟩,
   ⟨on (hostFront { state := 5, flags := 2, promptLen := 64 }), 5, 0, 1, 0, by decide +kernel⟩,
   ⟨on (hostFront { state := 5, flags := 2, promptLen := 128, shipGot := [0] }), 5, 0, by decide +kernel⟩,
   ⟨on (hostFront { state := 5, flags := 2, promptLen := 64, shipGot := [0], shipResends := [(0, 2)] }), 5, 0, 1, 0, by decide +kernel⟩,
   ⟨on (hostFront { state := 5, flags := 2, promptLen := 64, shipGot := [0], shipResends := [(0, 3)] }), 5, 0, by decide +kernel⟩,
   ⟨on (hostFront { state := 5, flags := 4 }), page5 false, kvP, by decide +kernel⟩,
   ⟨on (hostFront { state := 5, flags := 4 }), page5 true, kvP, ((hostFront { state := 5, flags := 4 }).addPages 5 1).getD {}, 4096 * (dramBase / 4096), by decide +kernel⟩,
   ⟨on (aged 1 (hostFront { state := 5, flags := 4, promptLen := 64, shipLink := some 5, shipResends := [(0, 2)] })), 5, 0, 5, 0, by decide +kernel⟩,
   ⟨on (hostFront {}), by decide +kernel⟩,
   ⟨on (slice 1 (hostFront {})), 0, by decide +kernel⟩,
   ⟨on (slice 1 (hostFront {})), copy5 csFree, by decide +kernel⟩,
   ⟨on (slice 1 (hostFront {})), copy5 csParked, by decide +kernel⟩,
   ⟨on (slice 1 (hostFront {})), 0, by decide +kernel⟩,
   ⟨on (slice 0 die6), by decide +kernel⟩,
   ⟨on (hostFront { state := 5, flags := 2, promptLen := 64 }), 5, 0, by decide +kernel⟩,
   ⟨on (hostFront { state := 5, flags := 4 }), page5 true, by decide +kernel⟩,
   ⟨on (hostFront { state := 5, flags := 2, promptLen := 64, shipGot := [0] }), 5, 0, by decide +kernel⟩,
   ⟨on (aged 1 (hostFront { state := 5, flags := 4, promptLen := 64, shipLink := some 5, shipResends := [(0, 2)] })), 5, 0, by decide +kernel⟩,
   ⟨on (hostFront {}), msg 0, by decide +kernel⟩⟩

theorem witness_StepsFillRunAndRetire :
    (∃ s : State, ∃ t, ∃ p, ∃ e, s.die.live = true ∧ s.die.fwRuns = true ∧ s.die.mayFill = true ∧ s.die.tide.table = some t ∧ s.die.serve.heldPlan = none ∧ s.die.decidePlan t = (p, e) ∧ (∃ b ∈ p.berths, e.serve.cache.contains b.ctx = false)) ∧
    (∃ s : State, ∃ t, ∃ p, ∃ e, s.die.live = true ∧ s.die.fwRuns = true ∧ s.die.mayFill = true ∧ s.die.tide.table = some t ∧ s.die.serve.heldPlan = none ∧ s.die.decidePlan t = (p, e) ∧ (∀ b ∈ p.berths, e.serve.cache.contains b.ctx = true)) ∧
    (∃ s : State, ∃ t, ∃ p, s.die.live = true ∧ s.die.fwRuns = true ∧ s.die.mayFill = true ∧ s.die.tide.table = some t ∧ s.die.serve.heldPlan = some p ∧ (∃ b ∈ p.berths, s.die.serve.cache.contains b.ctx = false)) ∧
    (∃ s : State, ∃ t, ∃ p, s.die.live = true ∧ s.die.fwRuns = true ∧ s.die.mayFill = true ∧ s.die.tide.table = some t ∧ s.die.serve.heldPlan = some p ∧ (∀ b ∈ p.berths, s.die.serve.cache.contains b.ctx = true)) ∧
    (∃ s : State, ∃ t, s.die.live = true ∧ s.die.fwRuns = true ∧ s.die.isFront = false ∧ s.die.parentLink.isSome = true ∧ s.die.tide.table = some t) ∧
    (∃ s : State, ∃ b, s.die.live = true ∧ s.die.fwRuns = true ∧ s.die.serve.steerWait.contains b = true) ∧
    (∃ s : State, ∃ n, s.die.live = true ∧ s.die.fwRuns = true ∧ n < ctxCount ∧ (s.die.serve.cache.contains n = true ∨ s.die.serve.cache.length < 16384 ∨ (∃ m ∈ s.die.serve.cache, s.die.holdsBerth m = false ∧ (s.die.ctx m).state ≠ csShipping))) ∧
    (∃ s : State, ∃ t, ∃ e, ∃ r, ∃ v, ∃ n, ∃ bad, ∃ x, ∃ y, x ∈ s.die.serve.steps ∧ y ∈ x.berths ∧ s.die.live = true ∧ s.die.fwRuns = true ∧ s.die.tide.table = some t ∧ (t.berths.find? (fun x => x.berth == e.berth) = some e) ∧ e.outOp / 2 ^ 24 % 256 = r ∧ s.die.isFull e.outTile r = true ∧ s.die.serve.inputs = [] ∧ s.die.bytesAt (s.die.rgnAddr e.outTile r (e.outOp % 2 ^ 24)) 16 = v ∧ s.die.isPoison e.outTile r = bad ∧ (look s.die.serve.outSeen e.berth).getD 0 = n ∧ s.die.isFront = true ∧ x.step = n ∧ y.berth = e.berth) ∧
    (∃ s : State, ∃ t, ∃ e, ∃ r, ∃ v, ∃ n, ∃ bad, ∃ k, s.die.live = true ∧ s.die.fwRuns = true ∧ s.die.tide.table = some t ∧ (t.berths.find? (fun x => x.berth == e.berth) = some e) ∧ e.outOp / 2 ^ 24 % 256 = r ∧ s.die.isFull e.outTile r = true ∧ s.die.serve.inputs = [] ∧ s.die.bytesAt (s.die.rgnAddr e.outTile r (e.outOp % 2 ^ 24)) 16 = v ∧ s.die.isPoison e.outTile r = bad ∧ (look s.die.serve.outSeen e.berth).getD 0 = n ∧ s.die.isFront = false ∧ s.die.parentLink = some k) ∧
    (∃ s : State, ∃ x, ∃ b, ∃ token : Nat, ∃ poison : Bool, ∃ c, s.die.live = true ∧ s.die.fwRuns = true ∧ s.die.isFront = true ∧ (s.die.serve.steps.find? (fun y => !y.done) = some x) ∧ x.berths[x.retired]? = some b ∧ b.result = some (token, poison) ∧ x.retired + 1 < x.berths.length ∧ s.die.ctx b.ctx = c ∧ c.state = csDecode ∧ b.kind = 1 ∧ (poison || x.faulted) = false ∧ c.lateAt s.die.now = false ∧ c.stop.contains token = false ∧ c.outCount + 1 ≠ c.maxOut ∧ c.promptLen + c.outCount + 1 ≠ 1048576) ∧
    (∃ s : State, ∃ x, ∃ b, ∃ token : Nat, ∃ poison : Bool, ∃ c, ∃ p, s.die.live = true ∧ s.die.fwRuns = true ∧ s.die.isFront = true ∧ (s.die.serve.steps.find? (fun y => !y.done) = some x) ∧ x.berths[x.retired]? = some b ∧ b.result = some (token, poison) ∧ x.retired + 1 < x.berths.length ∧ s.die.ctx b.ctx = c ∧ c.state = csDecode ∧ b.kind = 1 ∧ (poison || x.faulted) = true ∧ c.trouble = none ∧ c.lateAt s.die.now = false ∧ s.die.serve.stepCfg = some p ∧ p.failPolicy ≠ some true) ∧
    (∃ s : State, ∃ x, ∃ b, ∃ token : Nat, ∃ poison : Bool, ∃ c, ∃ k, s.die.live = true ∧ s.die.fwRuns = true ∧ s.die.isFront = true ∧ (s.die.serve.steps.find? (fun y => !y.done) = some x) ∧ x.berths[x.retired]? = some b ∧ b.result = some (token, poison) ∧ x.retired + 1 < x.berths.length ∧ s.die.ctx b.ctx = c ∧ c.state = csDecode ∧ b.kind = 1 ∧ k ≠ b.berth) ∧
    (∃ s : State, s.die.live = true ∧ s.die.fwRuns = true ∧ s.die.isFront = false ∧ s.die.parentLink.isSome = true) ∧
    (∃ s : State, ∃ tb, ∃ e, s.die.live = true ∧ s.die.fwRuns = true ∧ s.die.tide.table = some tb ∧ (tb.berths.find? (fun x => x.berth == e.berth) = some e) ∧ s.die.isFull e.outTile (e.outOp / 2 ^ 24 % 256) = true) ∧
    (∃ s : State, s.die.live = true ∧ s.die.fwRuns = true ∧ s.die.isFront = true) ∧
    (∃ s : State, ∃ ctx : Nat, s.die.live = true ∧ s.die.fwRuns = true ∧ ctx < ctxCount) :=
  ⟨⟨on ((slice 0 (withCtx { state := 3, promptLen := 1, outCount := 1, maxOut := 9, pages := [dramBase / 4096], leaves := [dramBase / 4096 + 3] } die6)).put Reg.TIDE_STATUS_STATE 3), tbl, (((slice 0 (withCtx { state := 3, promptLen := 1, outCount := 1, maxOut := 9, pages := [dramBase / 4096], leaves := [dramBase / 4096 + 3] } die6)).put Reg.TIDE_STATUS_STATE 3).decidePlan tbl).1, (((slice 0 (withCtx { state := 3, promptLen := 1, outCount := 1, maxOut := 9, pages := [dramBase / 4096], leaves := [dramBase / 4096 + 3] } die6)).put Reg.TIDE_STATUS_STATE 3).decidePlan tbl).2, by decide +kernel⟩,
   ⟨on ((slice 0 die6).put Reg.TIDE_STATUS_STATE 3), tbl, (((slice 0 die6).put Reg.TIDE_STATUS_STATE 3).decidePlan tbl).1, (((slice 0 die6).put Reg.TIDE_STATUS_STATE 3).decidePlan tbl).2, by decide +kernel⟩,
   ⟨on { ((slice 0 (withCtx { state := 3, promptLen := 1, outCount := 1, maxOut := 9, pages := [dramBase / 4096], leaves := [dramBase / 4096 + 3] } die6)).put Reg.TIDE_STATUS_STATE 3) with serve := { ((slice 0 (withCtx { state := 3, promptLen := 1, outCount := 1, maxOut := 9, pages := [dramBase / 4096], leaves := [dramBase / 4096 + 3] } die6)).put Reg.TIDE_STATUS_STATE 3).serve with heldPlan := some (((slice 0 (withCtx { state := 3, promptLen := 1, outCount := 1, maxOut := 9, pages := [dramBase / 4096], leaves := [dramBase / 4096 + 3] } die6)).put Reg.TIDE_STATUS_STATE 3).decidePlan tbl).1 } }, tbl, (((slice 0 (withCtx { state := 3, promptLen := 1, outCount := 1, maxOut := 9, pages := [dramBase / 4096], leaves := [dramBase / 4096 + 3] } die6)).put Reg.TIDE_STATUS_STATE 3).decidePlan tbl).1, by decide +kernel⟩,
   ⟨on { ((slice 0 die6).put Reg.TIDE_STATUS_STATE 3) with serve := { ((slice 0 die6).put Reg.TIDE_STATUS_STATE 3).serve with heldPlan := some (((slice 0 die6).put Reg.TIDE_STATUS_STATE 3).decidePlan tbl).1 } }, tbl, (((slice 0 die6).put Reg.TIDE_STATUS_STATE 3).decidePlan tbl).1, by decide +kernel⟩,
   ⟨on (slice 1 die6), tbl, by decide +kernel⟩,
   ⟨on { die6 with serve := { steerWait := [0x7FE] } }, 0x7FE, by decide +kernel⟩,
   ⟨on die6, 1048575, by decide +kernel⟩,
   ⟨on (withStep (step5 none) (slice 0 (feRegion ((withTable 0 tbl id (dieTile 1)).mark 63 1 true false)))), tbl, ⟨0, 63, 63, 0, 0x01000000⟩, 1, List.replicate 16 0, 0, false, step5 none, berth5 none, by decide +kernel⟩,
   ⟨on (slice 1 (feRegion ((withTable 0 tbl id (dieTile 1)).mark 63 1 true false))), tbl, ⟨0, 63, 63, 0, 0x01000000⟩, 1, List.replicate 16 0, 0, false, 0, by decide +kernel⟩,
   ⟨on (withStep (step5 (some (1, false))) (slice 0 (withCtx { state := 3, promptLen := 1, outCount := 1, maxOut := 9, pages := [dramBase / 4096], leaves := [dramBase / 4096 + 3] } die6))), step5 (some (1, false)), berth5 (some (1, false)), 1, false, { state := 3, promptLen := 1, outCount := 1, maxOut := 9, pages := [dramBase / 4096], leaves := [dramBase / 4096 + 3] }, by decide +kernel⟩,
   ⟨on (withStep (step5 (some (1, true))) (slice 0 (withCtx { state := 3, promptLen := 1, outCount := 1, maxOut := 9, pages := [dramBase / 4096], leaves := [dramBase / 4096 + 3] } die6))), step5 (some (1, true)), berth5 (some (1, true)), 1, true, { state := 3, promptLen := 1, outCount := 1, maxOut := 9, pages := [dramBase / 4096], leaves := [dramBase / 4096 + 3] }, stepP 0, by decide +kernel⟩,
   ⟨on (withStep (step5 (some (1, false))) (slice 0 (withCtx { state := 3, promptLen := 1, outCount := 1, maxOut := 9, pages := [dramBase / 4096], leaves := [dramBase / 4096 + 3] } die6))), step5 (some (1, false)), berth5 (some (1, false)), 1, false, { state := 3, promptLen := 1, outCount := 1, maxOut := 9, pages := [dramBase / 4096], leaves := [dramBase / 4096 + 3] }, 1, by decide +kernel⟩,
   ⟨on (slice 1 die6), by decide +kernel⟩,
   ⟨on (slice 1 (feRegion ((withTable 0 tbl id (dieTile 1)).mark 63 1 true false))), tbl, ⟨0, 63, 63, 0, 0x01000000⟩, by decide +kernel⟩,
   ⟨on (slice 0 die6), by decide +kernel⟩,
   ⟨on die6, ctxCount - 1, by decide +kernel⟩⟩

/-- The die with this tenancy. -/
def tenancy (f : Tenancy → Tenancy) (d : Die) : Die := { d with tenancy := f d.tenancy }

/-- The front in LOADED with a BUSY box. -/
def loadedFront : Die := (slice 0 dieBox).put Reg.TIDE_STATUS_STATE 2

/-- A stored pack. -/
def pack7 : Pack := { id := 7, off := 0, size := 64, entries := [] }

/-- A pinned entry with one slot. -/
def steer1 (slots : Nat) : SteerParams :=
  { entries := [{ tile := 63, layer := 0, nb := 1, listOp := 0, slotRegion := 0, slots := slots, pinned := true }], base := dramBase, size := 4096 }

/-- A pack store with no entry to fill. -/
def steer0 : SteerParams := { entries := [], base := dramBase + 4096, size := 4096 }

/-- The image of a pack without entries (R370). -/
def packImage : List Byte :=
  let h := natLe 4 0x5053484B ++ natLe 2 1 ++ natLe 2 0 ++ natLe 8 0 ++ natLe 4 7 ++ zeros 4 ++ zeros 40
  splice h 20 (natLe 4 (crc32c h))

/-- A prefix configuration of 1,024 nodes at the foot of DRAM. -/
def tree0 (nodes : Nat) : PrefixParams := { nodes := nodes, h := 10, maxFree := none, table := dramBase, index := dramBase + 65536 }

/-- A prefix node that holds the first page of context 5. -/
def node5 : Node :=
  { key := prefixKey 0 4095 0 (List.replicate 64 0), parent := none, page := dramBase / 4096, refs := 1, tenant := 4095, pack := 0, index := 0,
    children := 0, keyed := true, lastUse := 0 }

/-- A metering ring at the foot of DRAM. -/
def meter0 : MeterParams := { window := 60, tokW := 4096, attW := 1, pIdle := 0, ring := dramBase }

theorem witness_TenantPackPrefixAndMeterCommandsActByRule :
    (∃ s : State, ∃ box, ∃ t : Nat, ∃ n : Nat, ∃ v : Nat, ∃ o : Option Nat, ∃ p : TenantParams, ∃ q : PrefixParams, ∃ c, c ∈ [Instr.tenantCfg box t p, .tenantClose box t, .tenantStatus box t, .admitCfg box v, .prefixCfg box q, .prefixPublish box t n, .prefixFlush box o, .prefixStatus box] ∧ s.die.boxReady box = true ∧ s.die.isFront = false) ∧
    (∃ s : State, ∃ box, ∃ t, ∃ p, s.die.boxReady box = true ∧ s.die.isFront = true ∧ tenantOk t p = false) ∧
    (∃ s : State, ∃ box, ∃ t, ∃ p, ∃ x : Pin, s.die.boxReady box = true ∧ s.die.isFront = true ∧ tenantOk t p = true ∧ p.packId = 0 ∧ x.tenant = t ∧ (s.die.tenantActing t).packId = 0 ∧ (∀ st, s.die.packUsed t x.pack st = false)) ∧
    (∃ s : State, ∃ box, ∃ t, ∃ p : TenantParams, s.die.boxReady box = true ∧ s.die.isFront = true ∧ tenantOk t p = true ∧ p.packId ≠ 0 ∧ (∀ k ∈ s.die.tenancy.packs, k.id ≠ p.packId)) ∧
    (∃ s : State, ∃ box, ∃ t, ∃ p : TenantParams, s.die.boxReady box = true ∧ s.die.isFront = true ∧ tenantOk t p = true ∧ p.packId ≠ 0 ∧ (∃ k ∈ s.die.tenancy.packs, k.id = p.packId) ∧ s.die.pinSlots t s.die.steerEntries = none) ∧
    (∃ s : State, ∃ box, ∃ t, ∃ p : TenantParams, s.die.boxReady box = true ∧ s.die.isFront = true ∧ tenantOk t p = true ∧ p.packId ≠ 0 ∧ (∃ k ∈ s.die.tenancy.packs, k.id = p.packId) ∧ s.die.pinSlots t s.die.steerEntries ≠ none) ∧
    (∃ s : State, ∃ box, ∃ t, ∃ n, s.die.boxReady box = true ∧ s.die.isFront = true ∧ t < 4096 ∧ (s.die.ctx n).live = true ∧ (s.die.ctx n).tenant = t ∧ s.die.holdsBerth n = false) ∧
    (∃ s : State, ∃ box, s.die.boxReady box = true ∧ s.die.isFront = true) ∧
    (∃ s : State, ∃ box, s.die.boxReady box = true ∧ s.die.isFront = true ∧ s.die.tideState ≠ 2) ∧
    (∃ s : State, ∃ box, ∃ q : PrefixParams, s.die.boxReady box = true ∧ s.die.isFront = true ∧ s.die.tideState = 2 ∧ (inR 1024 16777216 q.nodes && decide (q.h ≤ 32) && isGeneral q.table && isGeneral (q.table + 64 * q.nodes - 1) && isGeneral q.index && isGeneral (q.index + 4 * 2 ^ q.h - 1)) = true) ∧
    (∃ s : State, ∃ box, ∃ n, s.die.boxReady box = true ∧ s.die.isFront = true ∧ ctxCount ≤ n) ∧
    (∃ s : State, ∃ box, ∃ n, s.die.boxReady box = true ∧ s.die.isFront = true ∧ n < ctxCount ∧ 64 ≤ (s.die.ctx n).promptLen ∧ (s.die.ctx n).state ≠ csDecode ∧ (s.die.ctx n).state ≠ csDone ∧ (s.die.ctx n).state ≠ csParked) ∧
    (∃ s : State, ∃ box, ∃ n, ∃ i, ∃ x, ∃ key, s.die.boxReady box = true ∧ s.die.isFront = true ∧ n < ctxCount ∧ 64 ≤ (s.die.ctx n).promptLen ∧ ((s.die.ctx n).state = csDecode ∨ (s.die.ctx n).state = csDone ∨ (s.die.ctx n).state = csParked) ∧ s.die.ownNode n 0 s.die.modelId = some (i, x) ∧ s.die.node i = some x ∧ x.parent = none ∧ prefixKey s.die.modelId 0xFFFF x.pack ((s.die.ctx n).pageTokens 0) = key ∧ s.die.findKey key 0xFFFF x.pack = none ∧ s.die.tideState = 4) ∧
    (∃ s : State, ∃ box, ∃ o : Option Nat, s.die.boxReady box = true ∧ s.die.isFront = true ∧ o.getD 0 < 4096) ∧
    (∃ s : State, ∃ box, s.die.boxReady box = true ∧ (s.die.tide.table = none ∨ s.die.tideState ≠ 2)) ∧
    (∃ s : State, ∃ box, ∃ p : SteerParams, ∃ t, s.die.boxReady box = true ∧ s.die.tide.table = some t ∧ s.die.tideState = 2 ∧ (∀ e ∈ p.entries, 1 ≤ e.slots ∧ e.slots ≤ 255 ∧ 1 ≤ e.nb ∧ e.layer < 1024 ∧ s.die.enabled e.tile = true ∧ tableRights t e.tile (e.listOp / 2 ^ 24 % 256) = true ∧ tableRights t e.tile e.slotRegion = true) ∧ isGeneral p.base = true ∧ isGeneral (p.base + p.size - 1) = true) ∧
    (∃ s : State, ∃ box, s.die.boxReady box = true ∧ s.die.tenancy.steer = none) ∧
    (∃ s : State, ∃ box, ∃ a, ∃ st, ∃ es, ∃ size, ∃ id, s.die.boxReady box = true ∧ s.die.tenancy.steer = some st ∧ isGeneral a = true ∧ s.die.packEntries a (leAt (s.die.bytesAt a 64) 6 2) = es ∧ (es.foldl (fun m e => max m (e.2.2.1 + e.2.2.2.1)) (64 + 16 * leAt (s.die.bytesAt a 64) 6 2) = size) ∧ leAt (s.die.bytesAt a 64) 16 4 = id ∧ s.die.packOk a size st = false) ∧
    (∃ s : State, ∃ box, ∃ a, ∃ st, ∃ es, ∃ size, ∃ id, ∃ o, s.die.boxReady box = true ∧ s.die.tenancy.steer = some st ∧ isGeneral a = true ∧ s.die.packEntries a (leAt (s.die.bytesAt a 64) 6 2) = es ∧ (es.foldl (fun m e => max m (e.2.2.1 + e.2.2.2.1)) (64 + 16 * leAt (s.die.bytesAt a 64) 6 2) = size) ∧ leAt (s.die.bytesAt a 64) 16 4 = id ∧ s.die.packOk a size st = true ∧ size ≤ st.size ∧ (packPlace (s.die.tenancy.packs.filter (fun p => decide (p.id ≠ id))) st.size ((size + 63) / 64 * 64) = some o)) ∧
    (∃ s : State, ∃ box, ∃ k, s.die.boxReady box = true ∧ (∀ p ∈ s.die.tenancy.packs, p.id ≠ k)) ∧
    (∃ s : State, ∃ box, ∃ k, s.die.boxReady box = true ∧ (∃ p ∈ s.die.tenancy.packs, p.id = k) ∧ (∃ q ∈ s.die.tenancy.cfg, q.2.packId = k)) ∧
    (∃ s : State, ∃ box, ∃ k, s.die.boxReady box = true ∧ (∃ p ∈ s.die.tenancy.packs, p.id = k) ∧ (∀ q ∈ s.die.tenancy.cfg, q.2.packId ≠ k) ∧ (∀ q ∈ s.die.tenancy.acting, q.2.packId ≠ k) ∧ s.die.packRides k = false) ∧
    (∃ s : State, ∃ box, ∃ p : MeterParams, ∃ ok, s.die.boxReady box = true ∧ ok = (inR 1 3600 p.window && decide (p.tokW ≤ 2 ^ 20) && decide (p.attW ≤ 2 ^ 20) && decide (p.pIdle ≤ 2 ^ 20) && isGeneral p.ring && isGeneral (p.ring + 16 * 262272 - 1))) ∧
    (∃ s : State, ∃ box, ∃ first, ∃ count, s.die.boxReady box = true ∧ 4097 < first + count) ∧
    (∃ s : State, ∃ box, ∃ w, ∃ first, ∃ count, s.die.boxReady box = true ∧ first + count ≤ 4097 ∧ (∀ x, look s.die.tenancy.ring (w % 16) = some x → x.1 ≠ w)) ∧
    (∃ s : State, ∃ box, ∃ w, ∃ first, ∃ count, ∃ a, s.die.boxReady box = true ∧ first + count ≤ 4097 ∧ look s.die.tenancy.ring (w % 16) = some (w, a)) ∧
    (∃ s : State, ∃ k : Nat, ∃ e, ∃ w0, ∃ w1, s.die.live = true ∧ s.die.fwRuns = true ∧ s.die.tenancy.energy[k]? = some (e, w0, w1) ∧ s.die.windowClear w1 = true ∧ s.die.serve.log = []) ∧
    (∃ s : State, s.die.live = true ∧ s.die.fwRuns = true ∧ s.die.tenancy.snap = none ∧ (s.die.meterWindow + 1) * s.die.meterNs ≤ s.die.now ∧ s.die.sense.winStart = s.die.now) ∧
    (∃ s : State, ∃ i, ∃ a, ∃ b, ∃ m, s.die.live = true ∧ s.die.fwRuns = true ∧ s.die.tenancy.snap = some (i, a, b) ∧ (∀ e ∈ s.die.tenancy.energy, b < e.2.2) ∧ s.die.tenancy.meterOld.ring + 262272 * (i % 16) = m ∧ isGeneral s.die.tenancy.meterOld.ring = true) ∧
    (∃ s : State, ∃ box : Nat, s.die.boxReady box = true) ∧
    (∃ s : State, ∃ box : Nat, s.die.boxReady box = true) ∧
    (∃ s : State, ∃ box : Nat, s.die.boxReady box = true) ∧
    (∃ s : State, ∃ box : Nat, s.die.boxReady box = true) ∧
    (∃ s : State, ∃ w : Nat × Nat × Nat, s.die.live = true ∧ s.die.fwRuns = true ∧ s.die.tenancy.snap = some w ∧ (∀ e ∈ s.die.tenancy.energy, w.2.2 < e.2.2)) ∧
    (∃ s : State, ∃ box, ∃ n, ∃ c, c ∈ [Instr.tenantClose box n, .tenantStatus box n, .prefixFlush box (some n)] ∧ s.die.boxReady box = true ∧ s.die.isFront = true ∧ 4096 ≤ n) ∧
    (∃ s : State, ∃ box, ∃ k, s.die.boxReady box = true ∧ (∃ p ∈ s.die.tenancy.packs, p.id = k) ∧ (∃ q ∈ s.die.tenancy.acting, q.2.packId = k)) :=
  ⟨⟨on dieBox, 63, 0, 0, 100, none, tenP 0, tree0 1024, .prefixStatus 63, by decide +kernel⟩,
   ⟨on (slice 0 dieBox), 63, 4096, tenP 0, by decide +kernel⟩,
   ⟨on (tenancy (fun t => { t with pinned := [⟨0, 0, 4095, 7⟩] }) (slice 0 dieBox)), 63, 4095, tenP 0, ⟨0, 0, 4095, 7⟩, by decide +kernel, by decide +kernel, by decide +kernel, rfl, rfl, by decide +kernel, fun _ => rfl⟩,
   ⟨on (slice 0 dieBox), 63, 4095, tenP 7, by decide +kernel⟩,
   ⟨on (tenancy (fun t => { t with packs := [pack7], steer := some (steer1 0) }) (slice 0 dieBox)), 63, 4095, tenP 7, by decide +kernel⟩,
   ⟨on (tenancy (fun t => { t with packs := [pack7], steer := some (steer1 1) }) (slice 0 dieBox)), 63, 4095, tenP 7, by decide +kernel⟩,
   ⟨on (slice 0 (withCtx { state := 5, tenant := 4095 } dieBox)), 63, 4095, 5, by decide +kernel⟩,
   ⟨on (slice 0 dieBox), 63, by decide +kernel⟩,
   ⟨on (slice 0 dieBox), 63, by decide +kernel⟩,
   ⟨on loadedFront, 63, tree0 1024, by decide +kernel⟩,
   ⟨on (slice 0 dieBox), 63, ctxCount, by decide +kernel⟩,
   ⟨on (slice 0 (withCtx { state := 1, promptLen := 64 } dieBox)), 63, 5, by decide +kernel⟩,
   ⟨on ((tenancy (fun t => { t with nodes := [(0, node5)] }) (slice 0 (withCtx { state := 3, tenant := 4095, promptLen := 64, nodes := [0], pages := [dramBase / 4096] } dieBox))).put Reg.TIDE_STATUS_STATE 4), 63, 5, 0, node5, prefixKey 0 0xFFFF 0 (List.replicate 64 0), by decide +kernel⟩,
   ⟨on (slice 0 dieBox), 63, some 4095, by decide +kernel⟩,
   ⟨on dieBox, 63, by decide +kernel⟩,
   ⟨on (withTable 2 tbl id (dieTile 1 |> withSess (sess 15) |> fun d => (d.setBox 63 { state := .busy }).put (Reg.MBX_OWNER_OWNER 63) 7)), 63, steer0, tbl, by decide +kernel⟩,
   ⟨on dieBox, 63, by decide +kernel⟩,
   ⟨on (tenancy (fun t => { t with steer := some steer0 }) (dieBox)), 63, dramBase, steer0, [], 64, 0, by decide +kernel⟩,
   ⟨on (tenancy (fun t => { t with steer := some steer0 }) (dieBox.setBytes dramBase packImage)), 63, dramBase, steer0, [], 64, 7, 0, by decide +kernel⟩,
   ⟨on dieBox, 63, 7, by decide +kernel⟩,
   ⟨on (tenancy (fun t => { t with packs := [pack7], cfg := [(4095, tenP 7)] }) (dieBox)), 63, 7, by decide +kernel⟩,
   ⟨on (tenancy (fun t => { t with packs := [pack7] }) (dieBox)), 63, 7, by decide +kernel⟩,
   ⟨on dieBox, 63, meter0, true, by decide +kernel⟩,
   ⟨on dieBox, 63, 2, 4096, by decide +kernel⟩,
   ⟨on dieBox, 63, 31, 0, 4097, by decide +kernel, by decide +kernel, fun x h => absurd ((show look dieBox.tenancy.ring (31 % 16) = none by decide +kernel).symm.trans h) (by simp)⟩,
   ⟨on (tenancy (fun t => { t with ring := [(15, 31, dramBase)] }) (dieBox)), 63, 31, 1, 4096, dramBase, by decide +kernel⟩,
   ⟨on (tenancy (fun t => { t with energy := [(1000, 0, 1000000)] }) die6), 0, 1000, 0, 1000000, by decide +kernel⟩,
   ⟨on { die6 with clock := { quarter := 240000000000 }, sense := { die6.sense with winStart := 60000000000 } }, by decide +kernel⟩,
   ⟨on (tenancy (fun t => { t with snap := some (31, 0, 1), meterOld := meter0 }) die6), 31, 0, 1, dramBase + 262272 * 15, by decide +kernel⟩,
   ⟨on dieBox, 63, by decide +kernel⟩,
   ⟨on dieBox, 63, by decide +kernel⟩,
   ⟨on dieBox, 63, by decide +kernel⟩,
   ⟨on dieBox, 63, by decide +kernel⟩,
   ⟨on (tenancy (fun t => { t with snap := some (31, 0, 1), meter := meter0 }) die6), (31, 0, 1), by decide +kernel⟩,
   ⟨on (slice 0 dieBox), 63, 4096, .tenantStatus 63 4096, by decide +kernel⟩,
   ⟨on (tenancy (fun t => { t with packs := [pack7], acting := [(4095, tenP 7)] }) dieBox), 63, 7, by decide +kernel⟩⟩

theorem witness_DramCommandsKeepDataAndStates :
    (∃ s : State, ∃ a, ∃ k, ∃ bs : List Byte, s.die.live = true ∧ isDram a = true ∧ a % 64 = 0 ∧ s.die.stackUp (stackOf a) = true ∧ (s.die.stack (stackOf a)).event = false ∧ stackOf a = k ∧ bs.length = 64) ∧
    (∃ s : State, ∃ a, ∃ k, s.die.live = true ∧ isDram a = true ∧ a % 64 = 0 ∧ s.die.stackUp (stackOf a) = true ∧ (s.die.stack (stackOf a)).event = false ∧ stackOf a = k ∧ s.die.badSector a = true) ∧
    (∃ s : State, ∃ a, ∃ k, ∃ err, err ∈ [DramErr.corrected, .uncorrectable 1] ∧ s.die.live = true ∧ isDram a = true ∧ a % 64 = 0 ∧ s.die.stackUp (stackOf a) = true ∧ (s.die.stack (stackOf a)).event = false ∧ stackOf a = k ∧ s.die.badSector a = false ∧ s.die.get (Reg.BOOT_MEM_CE_LIMIT_LIMIT k) = 0) ∧
    (∃ s : State, ∃ a, ∃ k, ∃ n, s.die.live = true ∧ isDram a = true ∧ a % 64 = 0 ∧ s.die.stackUp (stackOf a) = true ∧ (s.die.stack (stackOf a)).event = false ∧ stackOf a = k ∧ 2 ≤ n ∧ s.die.badSector (a + 64) = false ∧ a % 128 = 0 ∧ s.die.badSector a = false) ∧
    (∃ s : State, ∃ a, ∃ k, ∃ n, s.die.live = true ∧ isDram a = true ∧ a % 64 = 0 ∧ s.die.stackUp (stackOf a) = true ∧ (s.die.stack (stackOf a)).event = false ∧ stackOf a = k ∧ 2 ≤ n ∧ s.die.badSector a = false) ∧
    (∃ s : State, ∃ a, ∃ k, ∃ n, s.die.live = true ∧ isDram a = true ∧ a % 64 = 0 ∧ s.die.stackUp (stackOf a) = true ∧ (s.die.stack (stackOf a)).event = false ∧ stackOf a = k ∧ s.die.on Reg.BOOT_MEM_SCRUB_EN = true ∧ s.die.badSector a = false ∧ a ≠ dramEnd - 64 ∧ a ≠ dramEnd - 4096 - 64 ∧ 2 ≤ n) ∧
    (∃ s : State, ∃ k, s.die.live = true ∧ k < 2 ∧ s.die.stackUp k = true) ∧
    (∃ s : State, ∃ k, ∃ t, ∃ r, r ∈ (s.die.tile t).reqs ∧ s.die.live = true ∧ k < 2 ∧ s.die.eventAllowed k = true ∧ r.issued = true ∧ stackOf r.addr = k) ∧
    (∃ s : State, ∃ k, s.die.live = true ∧ k < 2 ∧ s.die.eventAllowed k = false) ∧
    (∃ s : State, ∃ k, s.die.live = true ∧ k < 2 ∧ (s.die.stack k).event = true) ∧
    (∃ s : State, ∃ k, s.die.live = true ∧ k < 2 ∧ s.die.memState k = 1 ∧ (s.die.stack k).testAfter = false) ∧
    (∃ s : State, ∃ k, ∃ code, s.die.live = true ∧ k < 2 ∧ s.die.memState k = 1 ∧ 1 ≤ code ∧ code ≤ 5 ∧ s.die.stage ≠ 1 ∧ s.die.stage ≠ 2 ∧ s.die.stage ≠ 3 ∧ s.die.stage ≠ 7) ∧
    (∃ s : State, ∃ k, ∃ a, s.die.live = true ∧ k < 2 ∧ s.die.memState k = 3 ∧ isDram a = true ∧ stackOf a = k) ∧
    (∃ s : State, ∃ k, ∃ a, s.die.live = true ∧ k < 2 ∧ s.die.memState k = 3 ∧ (isDram a = false ∨ stackOf a ≠ k)) ∧
    (∃ s : State, ∃ k, ∃ code, s.die.live = true ∧ k < 2 ∧ s.die.memState k = 3 ∧ 1 ≤ code ∧ code ≤ 5 ∧ s.die.stage ≠ 1 ∧ s.die.stage ≠ 2 ∧ s.die.stage ≠ 3 ∧ s.die.stage ≠ 7) ∧
    (∃ s : State, ∃ ag, s.die.live = true ∧ s.die.mayControl ag = true ∧ (∀ k ∈ bitsSet 2 (s.die.get Reg.BOOT_MEM_CTRL_STACKS), s.die.mayTrain k = true)) ∧
    (∃ s : State, ∃ ag, ∃ k, s.die.live = true ∧ s.die.mayControl ag = true ∧ bitsSet 2 (s.die.get Reg.BOOT_MEM_CTRL_STACKS) ≠ [] ∧ (∀ k ∈ bitsSet 2 (s.die.get Reg.BOOT_MEM_CTRL_STACKS), s.die.mayTrain k = false) ∧ k < 2) ∧
    (∃ s : State, ∃ ag, ∃ k, s.die.live = true ∧ s.die.mayControl ag = true ∧ s.die.get Reg.BOOT_MEM_CTRL_TEST = 0 ∧ k < 2) ∧
    (∃ s : State, ∃ ag, s.die.live = true ∧ s.die.mayControl ag = true ∧ inR 1 2 (s.die.get Reg.BOOT_MEM_CTRL_TEST) = true ∧ (∀ k ∈ bitsSet 2 (s.die.get Reg.BOOT_MEM_CTRL_STACKS), s.die.mayTest k = true) ∧ (∀ k ∈ bitsSet 2 (s.die.get Reg.BOOT_MEM_CTRL_STACKS), (s.die.stack k).testAfter = false)) ∧
    (∃ s : State, ∃ ag, ∃ k, s.die.live = true ∧ s.die.mayControl ag = true ∧ k < 2) ∧
    (∃ s : State, ∃ addr : Nat, s.die.live = true ∧ isDram addr = true ∧ addr % 64 = 0 ∧ s.die.on Reg.BOOT_MEM_SCRUB_EN = true ∧ s.die.stackUp (stackOf addr) = true ∧ (s.die.stack (stackOf addr)).event = false) ∧
    (∃ s : State, ∃ ag : Agent, s.die.live = true ∧ s.die.mayControl ag = true) ∧
    (∃ s : State, ∃ stack : Nat, ∃ code : Nat, s.die.live = true ∧ stack < 2 ∧ code ≤ 5 ∧ s.die.memState stack = 1) ∧
    (∃ s : State, ∃ stack : Nat, ∃ code : Nat, ∃ rows : List Nat, s.die.live = true ∧ stack < 2 ∧ code ≤ 5 ∧ s.die.memState stack = 3 ∧ ((rows.all (fun a => isDram a && stackOf a == stack)) = true)) ∧
    (∃ s : State, ∃ addr : Nat, ∃ n : Nat, ∃ line : Bool, ∃ data : List (Option Byte), s.die.live = true ∧ n = (if line then 128 else 64) ∧ isDram addr = true ∧ addr % n = 0 ∧ data.length ≤ n ∧ s.die.stackUp (stackOf addr) = true ∧ (s.die.stack (stackOf addr)).event = false) :=
  ⟨⟨on (die6), dramEnd - 64, 1, List.replicate 64 255, by decide +kernel⟩,
   ⟨on (die6.setBad (dramEnd - 64)), dramEnd - 64, 1, by decide +kernel⟩,
   ⟨on (die6.put (Reg.BOOT_MEM_CE_LIMIT_LIMIT 1) 0), dramEnd - 64, 1, .corrected, by decide +kernel⟩,
   ⟨on die6, dramEnd - 128, 1, 2, by decide +kernel⟩,
   ⟨on die6, dramEnd - 64, 1, 2, by decide +kernel⟩,
   ⟨on (die6.raise Reg.BOOT_MEM_SCRUB_EN), dramEnd - 8192 - 64, 1, 2, by decide +kernel⟩,
   ⟨on (die6), 1, by decide +kernel⟩,
   ⟨on (withTile { reqs := [req0 none none] } (dieTile 1)), 0, 63, req0 none none, by decide +kernel⟩,
   ⟨on (die6.setStack 1 { event := true }), 1, by decide +kernel⟩,
   ⟨on (die6.setStack 1 { event := true }), 1, by decide +kernel⟩,
   ⟨on (die0.put (Reg.BOOT_MEM_STATUS_STATE 1) 1), 1, by decide +kernel⟩,
   ⟨on (die0.put (Reg.BOOT_MEM_STATUS_STATE 1) 1), 1, 5, by decide +kernel⟩,
   ⟨on (die0.put (Reg.BOOT_MEM_STATUS_STATE 1) 3), 1, dramBase + 4096, by decide +kernel⟩,
   ⟨on (die0.put (Reg.BOOT_MEM_STATUS_STATE 1) 3), 1, dramBase, by decide +kernel⟩,
   ⟨on (die0.put (Reg.BOOT_MEM_STATUS_STATE 1) 3), 1, 5, by decide +kernel⟩,
   ⟨on (die0.put Reg.BOOT_MEM_CTRL_STACKS 3), .j3, by decide +kernel⟩,
   ⟨on ((die0.put Reg.BOOT_MEM_CTRL_STACKS 2).put (Reg.BOOT_MEM_STATUS_STATE 1) 1), .j3, 1, by decide +kernel⟩,
   ⟨on die0, .j3, 1, by decide +kernel⟩,
   ⟨on (((die0.put Reg.BOOT_MEM_CTRL_STACKS 2).put (Reg.BOOT_MEM_STATUS_STATE 1) 4).put Reg.BOOT_MEM_CTRL_TEST 2), .j3, by decide +kernel⟩,
   ⟨on die0, .j3, 1, by decide +kernel⟩,
   ⟨on (die6.raise Reg.BOOT_MEM_SCRUB_EN), dramEnd - 8192 - 64, by decide +kernel⟩,
   ⟨on die0, .j3, by decide +kernel⟩,
   ⟨on (die0.put (Reg.BOOT_MEM_STATUS_STATE 1) 1), 1, 5, by decide +kernel⟩,
   ⟨on (die0.put (Reg.BOOT_MEM_STATUS_STATE 1) 3), 1, 5, [], by decide +kernel⟩,
   ⟨on die6, dramEnd - 128, 128, true, [], by decide +kernel⟩⟩

theorem witness_CheckUnitsFeedAndRefuse :
    (∃ s : State, ∃ ag : Agent, ∃ k : CrcUnit, ∃ w : Nat, ∃ c, c ∈ [Instr.crcFeed8 ag k w, .crcFeed16 ag k w, .crcFeed32 ag k w, .crcValueWrite ag k w, .crcInit ag k, .crcConfigWrite ag k 0 w, .crcConfigWrite ag k 1 w, .crcConfigWrite ag k 2 w, .crcConfigWrite ag k 3 w] ∧ s.die.live = true ∧ s.die.mayControl ag = true ∧ s.die.crcHas k = true ∧ s.die.on (crcBoundF k) = true) ∧
    (∃ s : State, ∃ ag : Agent, ∃ k : CrcUnit, ∃ w : Nat, ∃ c, ∃ n, ∃ g, s.die.live = true ∧ s.die.mayControl ag = true ∧ s.die.crcHas k = true ∧ s.die.on (crcBoundF k) = false ∧ (c, n) ∈ [(Instr.crcFeed8 ag k w, 1), (.crcFeed16 ag k w, 2), (.crcFeed32 ag k w, 4)] ∧ s.die.crcAlg k = g) ∧
    (∃ s : State, ∃ ag : Agent, ∃ k : CrcUnit, ∃ reg, s.die.live = true ∧ s.die.mayControl ag = true ∧ s.die.crcHas k = true ∧ s.die.on (crcBoundF k) = false ∧ 1 ≤ reg ∧ reg < 4 ∧ bits (s.die.getW (crcCfg k)).toNat 0 2 = 3) ∧
    (∃ s : State, ∃ ag : Agent, ∃ k : CrcUnit, ∃ reg, s.die.live = true ∧ s.die.mayControl ag = true ∧ s.die.crcHas k = true ∧ s.die.on (crcBoundF k) = false ∧ 1 ≤ reg ∧ reg < 4 ∧ bits (s.die.getW (crcCfg k)).toNat 0 2 ≠ 3) :=
  ⟨⟨on (die0.raise (crcBoundF (.edge 7))), .j3, .edge 7, 0xFF, .crcConfigWrite .j3 (.edge 7) 3 0xFF, by decide +kernel⟩,
   ⟨on die0, .j3, .edge 7, 0xFF, .crcFeed16 .j3 (.edge 7) 0xFF, 2, die0.crcAlg (.edge 7), by decide +kernel⟩,
   ⟨on (die0.putW (crcCfg (.edge 7)) 3), .j3, .edge 7, 3, by decide +kernel⟩,
   ⟨on die0, .j3, .edge 7, 3, by decide +kernel⟩⟩

/-- A descriptor run of 128 bytes inside DRAM, started by the J3 controller. -/
def dmaRun0 : DmaRun := newRun .j3 dramBase (dramBase + 0x10000) 128 0 0

/-- A channel that is to fetch its descriptor. -/
def dmaFetch0 (a : Nat) : DmaRun := { newRun .j3 0 0 0 0 0 with fetch := some a }

/-- The die with this run on channel 31 of the edge engine. -/
def dmaWith (r : DmaRun) (d : Die) : Die := d.putRun .edge 31 r

/-- The host port up with session 7 open, the firmware running. -/
def hostUp (x : Session) : Die := (withSess x die6).put Reg.HP_STATUS_STATE 2

/-- A YCT frame of source port 9 to the link-local address with this datagram, tagged with PCP 7. -/
def frameOf (len : Nat) (bs : List Byte) : Frame :=
  { len := len, fcsOk := true, tags := [{ vid := 0, pcp := 7 }], etherType := 0x86DD, src := { port := 9 },
    dst := linkLocal (hostUp (sess 15)).nv.mac, proto := 17, dstPort := (hostUp (sess 15)).get Reg.HP_YCT_PORT_PORT, data := bs }

/-- A datagram of version 1 with this opcode and 33 bytes of payload, the last of them `k`. -/
def yct (op k : Nat) : List Byte :=
  natLe 4 0x4359484B ++ natLe 2 1 ++ natLe 2 op ++ zeros 8 ++ natLe 4 33 ++ zeros 44 ++ natLe 1 k ++ zeros 16

/-- The 80 bytes of an OPEN request before its tag. -/
def openMsg (key roles idle : Nat) : List Byte := zeros 64 ++ natLe 1 key ++ natLe 1 roles ++ natLe 2 idle ++ zeros 12

/-- An OPEN request with its right tag. -/
def openReq (d : Die) (key roles idle : Nat) : OpenReq :=
  { msg := openMsg key roles idle, tag := kmac (d.keyOf key) (openMsg key roles idle) (ascii "KH880 YCT OPEN") 16 }

/-- The host port up with a session in each of these slots, key slot 7 active. -/
def hostMany (slots : List Nat) : Die :=
  let d := ((die0.put Reg.HP_STATUS_STATE 2).raise (Reg.SEC_SLOT_ACTIVE 7))
  { d with host := { d.host with sessions := slots.map (fun i => (i, { sess 15 with id := i + 1 })) } }

/-- The host port up with bulk window 3 open for session 7. -/
def withWin (b : Bulk) : Die :=
  let d := hostUp (sess 15)
  { d with host := { d.host with windows := [(3, b)] } }

/-- A bulk window of 8,192 bytes at the foot of DRAM. -/
def bulk (slot : Nat) (read : Bool) (next : Nat) : Bulk := { slot := slot, read := read, addr := dramBase, total := 8192, next := next }

/-- A request of session 7 with this SEQ and payload length. -/
def reqOf (seq len : Nat) : MsgHead := { slot := 7, seq := seq, len := len }

theorem witness_DmaChannelsRunDescriptors :
    (∃ s : State, ∃ e : DmaEng, ∃ c : Nat, ∃ ag, ∃ k, k ∈ [Instr.chStart ag e c, .chFetch ag e c] ∧ s.die.live = true ∧ c < dmaChans e ∧ s.die.mayControl ag = true ∧ s.die.dmaHas e = true ∧ s.die.dmaHostBusy ag e c true = true) ∧
    (∃ s : State, ∃ e : DmaEng, ∃ c : Nat, ∃ ag, ∃ k, k ∈ [Instr.chStart ag e c, .chFetch ag e c] ∧ s.die.live = true ∧ c < dmaChans e ∧ s.die.mayControl ag = true ∧ s.die.dmaHas e = true ∧ s.die.dmaHostBusy ag e c true = false ∧ s.die.get (chState e c) ≠ 0) ∧
    (∃ s : State, ∃ e : DmaEng, ∃ c : Nat, ∃ ag, ∃ r, s.die.live = true ∧ c < dmaChans e ∧ s.die.mayControl ag = true ∧ s.die.dmaHas e = true ∧ s.die.dmaHostBusy ag e c true = false ∧ s.die.get (chState e c) = 0 ∧ r = s.die.regRun ag e c ∧ (r.crcMode = 0 ∨ s.die.dmaMalformed e r = true ∨ s.die.dmaRangesOk e r = false)) ∧
    (∃ s : State, ∃ e : DmaEng, ∃ c : Nat, ∃ ag, ∃ a, s.die.live = true ∧ c < dmaChans e ∧ s.die.mayControl ag = true ∧ s.die.dmaHas e = true ∧ s.die.dmaHostBusy ag e c true = false ∧ s.die.get (chState e c) = 0 ∧ s.die.get64 (chBase e c + 24) % 2 ^ 48 = a ∧ a % 32 = 0) ∧
    (∃ s : State, ∃ e : DmaEng, ∃ c : Nat, ∃ ag, ∃ a, s.die.live = true ∧ c < dmaChans e ∧ s.die.mayControl ag = true ∧ s.die.dmaHas e = true ∧ s.die.dmaHostBusy ag e c true = false ∧ s.die.get (chState e c) = 0 ∧ s.die.get64 (chBase e c + 24) % 2 ^ 48 = a ∧ a % 32 ≠ 0) ∧
    (∃ s : State, ∃ e : DmaEng, ∃ c : Nat, ∃ ag, ∃ reg, s.die.live = true ∧ c < dmaChans e ∧ s.die.mayControl ag = true ∧ s.die.dmaHas e = true ∧ s.die.dmaHostBusy ag e c false = true ∧ (reg < 8 ∨ reg = 9)) ∧
    (∃ s : State, ∃ e : DmaEng, ∃ c : Nat, ∃ ag, ∃ r, s.die.live = true ∧ c < dmaChans e ∧ s.die.mayControl ag = true ∧ s.die.dmaHas e = true ∧ s.die.dmaHostBusy ag e c false = false ∧ s.die.run e c = some r) ∧
    (∃ s : State, ∃ e : DmaEng, ∃ c : Nat, ∃ ag, ∃ reg, s.die.live = true ∧ c < dmaChans e ∧ s.die.mayControl ag = true ∧ s.die.dmaHas e = true ∧ s.die.dmaHostBusy ag e c false = false ∧ (reg < 8 ∨ reg = 9) ∧ s.die.get (chState e c) ≠ 0) ∧
    (∃ s : State, ∃ e : DmaEng, ∃ c : Nat, ∃ ag, ∃ w, ∃ reg, s.die.live = true ∧ c < dmaChans e ∧ s.die.mayControl ag = true ∧ s.die.dmaHas e = true ∧ s.die.dmaHostBusy ag e c false = false ∧ (reg < 8 ∨ reg = 9) ∧ s.die.get (chState e c) = 0 ∧ reg < 4 ∧ w < 2 ^ 32) ∧
    (∃ s : State, ∃ e : DmaEng, ∃ c : Nat, ∃ ag, s.die.live = true ∧ c < dmaChans e ∧ s.die.mayControl ag = true ∧ s.die.dmaHas e = true ∧ (s.die.dmaHostBusy ag e 0 false = true ∨ s.die.dmaRuns e ≠ [])) ∧
    (∃ s : State, ∃ e : DmaEng, ∃ c : Nat, ∃ ag, s.die.live = true ∧ c < dmaChans e ∧ s.die.mayControl ag = true ∧ s.die.dmaHas e = true ∧ s.die.dmaHostBusy ag e 0 false = false ∧ s.die.dmaRuns e = []) ∧
    (∃ s : State, ∃ e : DmaEng, ∃ c : Nat, s.die.live = true ∧ c < dmaChans e ∧ s.die.dmaHas e = true ∧ s.die.dmaRuns e = []) ∧
    (∃ s : State, ∃ e : DmaEng, ∃ c : Nat, ∃ r, ∃ n, s.die.live = true ∧ c < dmaChans e ∧ s.die.dmaHas e = true ∧ s.die.on (dmaModeF e) = false ∧ s.die.dmaRuns e = [(c, r)] ∧ s.die.run e c = some r ∧ r.crcMode = 0 ∧ bits r.ctrl 4 2 = 0 ∧ bits r.ctrl 2 2 = 0 ∧ s.die.dmaReady r = true ∧ s.die.canWrite e r = false ∧ s.die.canRead e r = true ∧ s.die.dmaChunk r = n ∧ isDram (r.src + r.read) = true ∧ s.die.rangePoison (r.src + r.read) n = false) ∧
    (∃ s : State, ∃ e : DmaEng, ∃ c : Nat, ∃ r, ∃ n, ∃ a, s.die.live = true ∧ c < dmaChans e ∧ s.die.dmaHas e = true ∧ s.die.on (dmaModeF e) = false ∧ s.die.dmaRuns e = [(c, r)] ∧ s.die.run e c = some r ∧ r.crcMode = 0 ∧ bits r.ctrl 4 2 = 0 ∧ bits r.ctrl 2 2 = 0 ∧ s.die.dmaReady r = true ∧ s.die.canWrite e r = true ∧ r.dst + r.written = a ∧ min r.buffer.length (128 - a % 128) = n ∧ isDram a = true ∧ s.die.rangePoison a n = false ∧ (∀ b ∈ r.buffer, b.isSome = true)) ∧
    (∃ s : State, ∃ e : DmaEng, ∃ c : Nat, ∃ r, ∃ a, s.die.live = true ∧ c < dmaChans e ∧ s.die.dmaHas e = true ∧ s.die.dmaRuns e = [(c, r)] ∧ s.die.run e c = some r ∧ r.fetch = some a ∧ r.crcMode = 0 ∧ r.len = 0 ∧ r.buffer = [] ∧ r.beats = [] ∧ s.die.held a = true) ∧
    (∃ s : State, ∃ e : DmaEng, ∃ c : Nat, ∃ r, ∃ a, s.die.live = true ∧ c < dmaChans e ∧ s.die.dmaHas e = true ∧ s.die.dmaRuns e = [(c, r)] ∧ s.die.run e c = some r ∧ r.fetch = some a ∧ r.crcMode = 0 ∧ r.len = 0 ∧ r.buffer = [] ∧ r.beats = [] ∧ s.die.held a = false ∧ s.die.dmaSlotFree e (isDram a) = true ∧ (s.die.fetchDesc r.starter a).2 = none) ∧
    (∃ s : State, ∃ e : DmaEng, ∃ c : Nat, ∃ r, ∃ a, ∃ x, s.die.live = true ∧ c < dmaChans e ∧ s.die.dmaHas e = true ∧ s.die.dmaRuns e = [(c, r)] ∧ s.die.run e c = some r ∧ r.fetch = some a ∧ r.crcMode = 0 ∧ r.len = 0 ∧ r.buffer = [] ∧ r.beats = [] ∧ s.die.held a = false ∧ s.die.dmaSlotFree e (isDram a) = true ∧ (s.die.fetchDesc r.starter a).2 = some x) ∧
    (∃ s : State, ∃ e : DmaEng, ∃ c : Nat, ∃ r : DmaRun, s.die.live = true ∧ c < dmaChans e ∧ s.die.run e c = some r ∧ r.finished = true ∧ r.crcMode = 0 ∧ r.bound = false ∧ r.next % 2 ^ 48 = 0 ∧ bit r.ctrl 17 = false ∧ r.result = 0 ∧ r.poison = false ∧ bit r.ctrl 18 = false) ∧
    (∃ s : State, ∃ e : DmaEng, ∃ c : Nat, ∃ r : DmaRun, s.die.live = true ∧ c < dmaChans e ∧ s.die.run e c = some r ∧ r.finished = true ∧ r.crcMode = 0 ∧ r.bound = false ∧ r.next % 2 ^ 48 = 0 ∧ bit r.ctrl 17 = false ∧ r.result ≠ 0 ∧ r.result < 16) ∧
    (∃ s : State, ∃ e : DmaEng, ∃ c : Nat, ∃ r : DmaRun, s.die.live = true ∧ c < dmaChans e ∧ s.die.run e c = some r ∧ r.crcMode ≠ 0 ∧ r.bound = false ∧ r.result = 0 ∧ s.die.on (crcBoundF (dmaUnit e r)) = true) :=
  ⟨⟨on die0, .edge, 3, .j3, .chStart .j3 .edge 3, by decide +kernel⟩,
   ⟨on (die0.put (chState .edge 31) 2), .edge, 31, .j3, .chFetch .j3 .edge 31, by decide +kernel⟩,
   ⟨on die0, .edge, 31, .j3, die0.regRun .j3 .edge 31, by decide +kernel⟩,
   ⟨on die0, .edge, 31, .j3, 0, by decide +kernel⟩,
   ⟨on (die0.put64 (chBase .edge 31 + 24) 1), .edge, 31, .j3, 1, by decide +kernel⟩,
   ⟨on ((dieTile 1).put Reg.TIDE_STATUS_STATE 3), .tile 63, 15, .j3, 9, by decide +kernel⟩,
   ⟨on (dmaWith dmaRun0 die0), .edge, 31, .j3, dmaRun0, by decide +kernel⟩,
   ⟨on (die0.put (chState .edge 31) 2), .edge, 31, .j3, 9, by decide +kernel⟩,
   ⟨on die0, .edge, 31, .j3, 2 ^ 32 - 1, 3, by decide +kernel⟩,
   ⟨on (dmaWith dmaRun0 die0), .edge, 31, .j3, by decide +kernel⟩,
   ⟨on die0, .edge, 31, .j3, by decide +kernel⟩,
   ⟨on die0, .edge, 31, by decide +kernel⟩,
   ⟨on (dmaWith dmaRun0 die6), .edge, 31, dmaRun0, 128, by decide +kernel⟩,
   ⟨on (dmaWith { dmaRun0 with read := 128, buffer := List.replicate 128 (some 0) } die6), .edge, 31, { dmaRun0 with read := 128, buffer := List.replicate 128 (some 0) }, 128, dramBase + 0x10000, by decide +kernel⟩,
   ⟨on (dmaWith (dmaFetch0 dramBase) die0), .edge, 31, dmaFetch0 dramBase, dramBase, by decide +kernel⟩,
   ⟨on (dmaWith (dmaFetch0 0) die6), .edge, 31, dmaFetch0 0, 0, by decide +kernel⟩,
   ⟨on (dmaWith (dmaFetch0 dramBase) die6), .edge, 31, dmaFetch0 dramBase, dramBase, newRun .j3 0 0 0 0 0, by decide +kernel⟩,
   ⟨on (dmaWith { dmaRun0 with read := 128, written := 128 } die6), .edge, 31, { dmaRun0 with read := 128, written := 128 }, by decide +kernel⟩,
   ⟨on (dmaWith { dmaRun0 with read := 128, result := 15 } die6), .edge, 31, { dmaRun0 with read := 128, result := 15 }, by decide +kernel⟩,
   ⟨on (dmaWith { dmaRun0 with ctrl := 64 } (die6.raise (crcBoundF (.edge 0)))), .edge, 31, { dmaRun0 with ctrl := 64 }, by decide +kernel⟩⟩

theorem witness_PortFramesAndSmallProtocolsAreAnswered :
    (∃ s : State, s.die.live = true ∧ s.die.get Reg.HP_STATUS_STATE = 1) ∧
    (∃ s : State, ∃ ag, s.die.live = true ∧ s.die.mayControl ag = true) ∧
    (∃ s : State, s.die.live = true) ∧
    (∃ s : State, ∃ p, s.die.live = true ∧ p < 8 ∧ bit (s.die.get Reg.HP_PFC_RX_EN) p = true) ∧
    (∃ s : State, ∃ p, s.die.live = true ∧ p < 8 ∧ bit (s.die.get Reg.HP_PFC_RX_EN) p = false) ∧
    (∃ s : State, ∃ p, s.die.live = true ∧ p < 8 ∧ s.die.pauseOut p = true ∧ 65536 < s.die.fill p) ∧
    (∃ s : State, ∃ f : Frame, s.die.live = true ∧ s.die.portUp = true ∧ f.uncorrected ≠ 0) ∧
    (∃ s : State, ∃ f : Frame, s.die.live = true ∧ s.die.portUp = true ∧ f.uncorrected = 0 ∧ (f.fcsOk = false ∨ f.len < 64 ∨ 9216 < f.len ∨ s.die.tagOk f.tags = false ∨ frameExcluded f = true)) ∧
    (∃ s : State, ∃ f : Frame, s.die.live = true ∧ s.die.portUp = true ∧ s.die.dropsL2 f = false ∧ frameIsUdp f = true ∧ s.die.netOk f = false) ∧
    (∃ s : State, ∃ f : Frame, ∃ p, ∃ op, s.die.live = true ∧ s.die.portUp = true ∧ s.die.dropsL2 f = false ∧ frameIsUdp f = true ∧ s.die.netOk f = true ∧ framePrio f = p ∧ s.die.fill p + f.len ≤ 262144 ∧ leAt f.data 6 1 = op ∧ s.die.yctCheck f = 0 ∧ hostOpcodes.contains op = true) ∧
    (∃ s : State, ∃ f : Frame, ∃ p, ∃ op, s.die.live = true ∧ s.die.portUp = true ∧ s.die.dropsL2 f = false ∧ frameIsUdp f = true ∧ s.die.netOk f = true ∧ framePrio f = p ∧ s.die.fill p + f.len ≤ 262144 ∧ leAt f.data 6 1 = op ∧ s.die.yctCheck f = 2) ∧
    (∃ s : State, ∃ f : Frame, ∃ p, ∃ op, s.die.live = true ∧ s.die.portUp = true ∧ s.die.dropsL2 f = false ∧ frameIsUdp f = true ∧ s.die.netOk f = true ∧ framePrio f = p ∧ s.die.fill p + f.len ≤ 262144 ∧ leAt f.data 6 1 = op ∧ s.die.yctCheck f = 5 ∧ s.die.authRun f.src + 1 < s.die.get Reg.SEC_AUTH_LIMIT) ∧
    (∃ s : State, ∃ src, ∃ a, ∃ bs : List Byte, ∃ k, k ∈ [(Instr.arpRequest src a, s.die.ownV4 a, 0, natBe 6 s.die.nv.mac ++ natBe 4 a), (.neighborSolicitation src a, s.die.ownV6 a, 1, natBe 16 a ++ natBe 6 s.die.nv.mac), (.icmpEcho src a false bs, s.die.ownV4 a && decide (s.die.echoLen false bs.length ≤ 9216), 2, bs), (.icmpEcho src a true bs, s.die.ownV6 a && decide (s.die.echoLen true bs.length ≤ 9216), 2, bs)] ∧ s.die.live = true ∧ s.die.portUp = true ∧ k.2.1 = false) ∧
    (∃ s : State, ∃ src, ∃ a, ∃ bs : List Byte, ∃ k, k ∈ [(Instr.arpRequest src a, s.die.ownV4 a, 0, natBe 6 s.die.nv.mac ++ natBe 4 a), (.neighborSolicitation src a, s.die.ownV6 a, 1, natBe 16 a ++ natBe 6 s.die.nv.mac), (.icmpEcho src a false bs, s.die.ownV4 a && decide (s.die.echoLen false bs.length ≤ 9216), 2, bs), (.icmpEcho src a true bs, s.die.ownV6 a && decide (s.die.echoLen true bs.length ≤ 9216), 2, bs)] ∧ s.die.live = true ∧ s.die.portUp = true ∧ k.2.1 = true) ∧
    (∃ s : State, ∃ m : PtpMsg, ∃ stamp, s.die.live = true ∧ s.die.portUp = true ∧ s.die.fwRuns = true ∧ stamp ≤ 16 ∧ (m.domain ≠ 0 ∨ m.kind = .other)) ∧
    (∃ s : State, ∃ m : PtpMsg, ∃ stamp, s.die.live = true ∧ s.die.portUp = true ∧ s.die.fwRuns = true ∧ stamp ≤ 16 ∧ m.domain = 0 ∧ m.kind = .announce ∧ s.die.clock.ptp.master = none) ∧
    (∃ s : State, ∃ m : PtpMsg, ∃ stamp, s.die.live = true ∧ s.die.portUp = true ∧ s.die.fwRuns = true ∧ stamp ≤ 16 ∧ m.domain = 0 ∧ m.kind = .sync ∧ m.twoStep = false ∧ s.die.fromMaster m = true ∧ s.die.clock.ptp.fresh = false) ∧
    (∃ s : State, ∃ m : PtpMsg, ∃ stamp, ∃ r, ∃ c, s.die.live = true ∧ s.die.portUp = true ∧ s.die.fwRuns = true ∧ stamp ≤ 16 ∧ m.domain = 0 ∧ m.kind = .followUp ∧ s.die.fromMaster m = true ∧ s.die.clock.ptp.waitSync = some (m.seq, r, c)) ∧
    (∃ s : State, ∃ h : HelloHead, s.die.live = true ∧ s.die.portUp = true ∧ (s.die.host.helloSec = s.die.now / 1000000000 → s.die.host.helloCount < 1000) ∧ h.len < 96) ∧
    (∃ s : State, ∃ h : HelloHead, ∃ lo, ∃ hi, s.die.live = true ∧ s.die.portUp = true ∧ (s.die.host.helloSec = s.die.now / 1000000000 → s.die.host.helloCount < 1000) ∧ 96 ≤ h.len ∧ lo = 1 ∧ 1 ≤ hi ∧ hi ≤ 3) ∧
    (∃ s : State, ∃ h : HelloHead, ∃ lo, s.die.live = true ∧ s.die.portUp = true ∧ (s.die.host.helloSec = s.die.now / 1000000000 → s.die.host.helloCount < 1000) ∧ 96 ≤ h.len ∧ lo ≠ 1) ∧
    (∃ s : State, s.die.live = true ∧ s.die.portUp = true ∧ s.die.host.helloSec = s.die.now / 1000000000 ∧ 1000 ≤ s.die.host.helloCount) ∧
    (∃ s : State, s.die.live = true ∧ s.die.portUp = true) ∧
    (∃ s : State, s.die.live = true ∧ s.die.portUp = true) :=
  ⟨⟨on (die0.put Reg.HP_STATUS_STATE 1), by decide +kernel⟩,
   ⟨on die0, .j3, by decide +kernel⟩,
   ⟨on die0, by decide +kernel⟩,
   ⟨on (die0.put Reg.HP_PFC_RX_EN 128), 7, by decide +kernel⟩,
   ⟨on (die0.put Reg.HP_PFC_RX_EN 0), 7, by decide +kernel⟩,
   ⟨on { die0 with host := { rxQueue := [(7, 64, 65537)], pfcSent := [(7, true)] } }, 7, by decide +kernel⟩,
   ⟨on (hostUp (sess 15)), { frameOf 64 [] with uncorrected := 2 ^ 32 }, by decide +kernel⟩,
   ⟨on (hostUp (sess 15)), frameOf 9217 [], by decide +kernel⟩,
   ⟨on (hostUp (sess 15)), { frameOf 64 [] with dst := 0 }, by decide +kernel⟩,
   ⟨on (hostUp (sess 15)), frameOf 9216 (natLe 4 0x4359484B ++ natLe 2 1 ++ natLe 2 1 ++ zeros 40), 7, 1, by decide +kernel⟩,
   ⟨on (hostUp (sess 15)), frameOf 64 [], 7, 0, by decide +kernel⟩,
   ⟨on (hostUp (sess 15)), frameOf 100 (yct 2 8), 7, 2, by decide +kernel⟩,
   ⟨on (hostUp (sess 15)), { port := 9 }, 0, [1], (.neighborSolicitation { port := 9 } 0, false, 1, natBe 16 0 ++ natBe 6 (hostUp (sess 15)).nv.mac), by decide +kernel⟩,
   ⟨on (hostUp (sess 15)), { port := 9 }, linkLocal (hostUp (sess 15)).nv.mac, [1], (.icmpEcho { port := 9 } (linkLocal (hostUp (sess 15)).nv.mac) true [1], true, 2, [1]), by decide +kernel⟩,
   ⟨on (hostUp (sess 15)), { kind := .sync, domain := 1, source := 5 }, 16, by decide +kernel⟩,
   ⟨on (hostUp (sess 15)), { kind := .announce, source := 5 }, 16, by decide +kernel⟩,
   ⟨on ((hostUp (sess 15)).modPtp (fun p => { p with master := some ([], 5) })), { kind := .sync, source := 5 }, 16, by decide +kernel⟩,
   ⟨on ((hostUp (sess 15)).modPtp (fun p => { p with master := some ([], 5), waitSync := some (7, 1, 0) })), { kind := .followUp, source := 5, seq := 7 }, 16, 1, 0, by decide +kernel⟩,
   ⟨on (hostUp (sess 15)), { seq := 1, len := 95 }, by decide +kernel⟩,
   ⟨on (hostUp (sess 15)), { seq := 1, len := 96 }, 1, 3, by decide +kernel⟩,
   ⟨on (hostUp (sess 15)), { seq := 1, len := 96 }, 2, by decide +kernel⟩,
   ⟨on { hostUp (sess 15) with host := { (hostUp (sess 15)).host with helloCount := 1000 } }, by decide +kernel⟩,
   ⟨on (hostUp (sess 15)), by decide +kernel⟩,
   ⟨on (hostUp (sess 15)), by decide +kernel⟩⟩

theorem witness_SessionsAndBulkWindowsFollowTheirRules :
    (∃ s : State, ∃ src, ∃ q : OpenReq, ∃ key, ∃ roles, ∃ idle, s.die.live = true ∧ s.die.portUp = true ∧ leAt q.msg 64 1 = key ∧ leAt q.msg 65 1 = roles ∧ leAt q.msg 66 2 = idle ∧ (8 ≤ key ∨ s.die.on (Reg.SEC_SLOT_ACTIVE key) = false ∨ q.tag ≠ kmac (s.die.keyOf key) q.msg (ascii "KH880 YCT OPEN") 16 ∨ ((look s.die.host.nonces key).getD []).contains ((q.msg.drop 32).take 32) = true) ∧ s.die.authRun src + 1 < s.die.get Reg.SEC_AUTH_LIMIT) ∧
    (∃ s : State, ∃ q : OpenReq, ∃ key, ∃ roles, ∃ idle, s.die.live = true ∧ s.die.portUp = true ∧ leAt q.msg 64 1 = key ∧ leAt q.msg 65 1 = roles ∧ leAt q.msg 66 2 = idle ∧ key < 8 ∧ s.die.on (Reg.SEC_SLOT_ACTIVE key) = true ∧ q.tag = kmac (s.die.keyOf key) q.msg (ascii "KH880 YCT OPEN") 16 ∧ ((look s.die.host.nonces key).getD []).contains ((q.msg.drop 32).take 32) = false ∧ (idle = 0 ∨ 3600 < idle ∨ 16 ≤ roles)) ∧
    (∃ s : State, ∃ q : OpenReq, ∃ key, ∃ roles, ∃ idle, ∃ n, s.die.live = true ∧ s.die.portUp = true ∧ leAt q.msg 64 1 = key ∧ leAt q.msg 65 1 = roles ∧ leAt q.msg 66 2 = idle ∧ key < 8 ∧ s.die.on (Reg.SEC_SLOT_ACTIVE key) = true ∧ q.tag = kmac (s.die.keyOf key) q.msg (ascii "KH880 YCT OPEN") 16 ∧ ((look s.die.host.nonces key).getD []).contains ((q.msg.drop 32).take 32) = false ∧ q.msg.length = 80 ∧ 1 ≤ idle ∧ idle ≤ 3600 ∧ roles < 16 ∧ leAt q.msg 68 12 = 0 ∧ s.die.get Reg.SEC_STATUS_STATE = 0 ∧ s.die.freeSlot = some n) ∧
    (∃ s : State, ∃ q : OpenReq, ∃ key, ∃ roles, ∃ idle, s.die.live = true ∧ s.die.portUp = true ∧ leAt q.msg 64 1 = key ∧ leAt q.msg 65 1 = roles ∧ leAt q.msg 66 2 = idle ∧ key < 8 ∧ s.die.on (Reg.SEC_SLOT_ACTIVE key) = true ∧ q.tag = kmac (s.die.keyOf key) q.msg (ascii "KH880 YCT OPEN") 16 ∧ ((look s.die.host.nonces key).getD []).contains ((q.msg.drop 32).take 32) = false ∧ q.msg.length = 80 ∧ 1 ≤ idle ∧ idle ≤ 3600 ∧ roles < 16 ∧ leAt q.msg 68 12 = 0 ∧ s.die.get Reg.SEC_STATUS_STATE = 0 ∧ s.die.freeSlot = none) ∧
    (∃ s : State, ∃ m : MsgHead, ∃ x, ∃ w, ∃ rd, ∃ a, ∃ n, ∃ off, ∃ bs : List Byte, ∃ crc, ∃ k, ∃ r, k ∈ [(Instr.bulkOpen m w rd a n, 0x20), (.bulkData m w off n bs crc, 0x21), (.bulkClose m w, 0x22), (.mbxPost m w bs, 0x30)] ∧ s.die.live = true ∧ s.die.portUp = true ∧ s.die.session m.slot = some x ∧ seqOk x m.seq = false ∧ (x.cache.find? (fun r => r.reqSeq == m.seq) = some r)) ∧
    (∃ s : State, ∃ m : MsgHead, ∃ x, ∃ w, ∃ rd, ∃ a, ∃ n, ∃ off, ∃ bs : List Byte, ∃ crc, ∃ k, k ∈ [(Instr.bulkOpen m w rd a n, 0x20), (.bulkData m w off n bs crc, 0x21), (.bulkClose m w, 0x22), (.mbxPost m w bs, 0x30)] ∧ s.die.live = true ∧ s.die.portUp = true ∧ s.die.session m.slot = some x ∧ seqOk x m.seq = false ∧ (x.cache.find? (fun r => r.reqSeq == m.seq) = none)) ∧
    (∃ s : State, ∃ m, ∃ x, ∃ w, ∃ rd, ∃ a, ∃ n, ∃ off, ∃ bs : List Byte, ∃ crc, ∃ k, k ∈ [(Instr.bulkOpen m w rd a n, 0x20), (.bulkData m w off n bs crc, 0x21), (.bulkClose m w, 0x22), (.mbxPost m w bs, 0x30)] ∧ s.die.live = true ∧ s.die.portUp = true ∧ s.die.session m.slot = some x ∧ seqOk x m.seq = true ∧ 0xFFFFFF00 ≤ max x.hiSeq m.seq) ∧
    (∃ s : State, ∃ m, ∃ x, ∃ w, ∃ rd, ∃ a, ∃ n, ∃ off, ∃ bs : List Byte, ∃ crc, ∃ k, k ∈ [(Instr.bulkOpen m w rd a n, 0x20), (.bulkData m w off n bs crc, 0x21), (.bulkClose m w, 0x22), (.mbxPost m w bs, 0x30)] ∧ s.die.live = true ∧ s.die.portUp = true ∧ s.die.session m.slot = some x ∧ seqOk x m.seq = true ∧ max x.hiSeq m.seq < 0xFFFFFF00 ∧ s.die.portLow = true) ∧
    (∃ s : State, ∃ m, ∃ x, ∃ w, ∃ rd, ∃ a, ∃ n, ∃ off, ∃ bs : List Byte, ∃ crc, ∃ k, k ∈ [(Instr.bulkOpen m w rd a n, 0x20), (.bulkData m w off n bs crc, 0x21), (.bulkClose m w, 0x22), (.mbxPost m w bs, 0x30)] ∧ s.die.live = true ∧ s.die.portUp = true ∧ s.die.session m.slot = some x ∧ seqOk x m.seq = true ∧ max x.hiSeq m.seq < 0xFFFFFF00 ∧ s.die.portLow = false ∧ bit x.roles 0 = false) ∧
    (∃ s : State, ∃ m : MsgHead, s.die.live = true ∧ s.die.portUp = true ∧ s.die.accepts m 0x03 9 = true ∧ m.len = 0) ∧
    (∃ s : State, ∃ slot, ∃ k, s.die.live = true ∧ s.die.portUp = true ∧ (s.die.session slot).isSome = true ∧ k < 64 ∧ s.die.boxOwner k = slot) ∧
    (∃ s : State, ∃ m : MsgHead, ∃ w, ∃ n, s.die.live = true ∧ s.die.portUp = true ∧ s.die.accepts m 0x20 0 = true ∧ m.len = 24 ∧ 1 ≤ n ∧ n ≤ 2 ^ 40 ∧ w < 4 ∧ (s.die.window w).isSome = true) ∧
    (∃ s : State, ∃ m : MsgHead, ∃ w, ∃ a, ∃ n, s.die.live = true ∧ s.die.portUp = true ∧ s.die.accepts m 0x20 0 = true ∧ m.len = 24 ∧ 1 ≤ n ∧ n ≤ 2 ^ 40 ∧ w < 4 ∧ s.die.window w = none ∧ isDram a = true ∧ a + n ≤ fwArea) ∧
    (∃ s : State, ∃ m : MsgHead, ∃ w, ∃ a, ∃ n, s.die.live = true ∧ s.die.portUp = true ∧ s.die.accepts m 0x20 0 = true ∧ m.len = 24 ∧ 1 ≤ n ∧ n ≤ 2 ^ 40 ∧ w < 4 ∧ s.die.window w = none ∧ isDram a = true ∧ fwArea < a + min n (dramEnd - a) ∧ s.die.hasDebug (.session m.slot) = false) ∧
    (∃ s : State, ∃ m, ∃ w, ∃ n, s.die.live = true ∧ s.die.portUp = true ∧ s.die.accepts m 0x21 0 = true ∧ 1 ≤ n ∧ n ≤ 8192 ∧ s.die.window w = none) ∧
    (∃ s : State, ∃ m : MsgHead, ∃ w, ∃ off, ∃ n, ∃ bs : List Byte, ∃ b : Bulk, ∃ a, s.die.live = true ∧ s.die.portUp = true ∧ s.die.accepts m 0x21 0 = true ∧ 1 ≤ n ∧ n ≤ 8192 ∧ s.die.window w = some b ∧ b.slot = m.slot ∧ b.read = false ∧ m.len = 20 + n ∧ bs.length = n ∧ b.addr + off = a ∧ b.next < off) ∧
    (∃ s : State, ∃ m : MsgHead, ∃ w, ∃ off, ∃ n, ∃ bs : List Byte, ∃ crc, ∃ b : Bulk, ∃ a, s.die.live = true ∧ s.die.portUp = true ∧ s.die.accepts m 0x21 0 = true ∧ 1 ≤ n ∧ n ≤ 8192 ∧ s.die.window w = some b ∧ b.slot = m.slot ∧ b.read = false ∧ m.len = 20 + n ∧ bs.length = n ∧ b.addr + off = a ∧ off = b.next ∧ off + n ≤ b.total ∧ crc32c bs ≠ crc) ∧
    (∃ s : State, ∃ m : MsgHead, ∃ w, ∃ off, ∃ n, ∃ bs : List Byte, ∃ crc, ∃ b : Bulk, ∃ a, s.die.live = true ∧ s.die.portUp = true ∧ s.die.accepts m 0x21 0 = true ∧ 1 ≤ n ∧ n ≤ 8192 ∧ s.die.window w = some b ∧ b.slot = m.slot ∧ b.read = false ∧ m.len = 20 + n ∧ bs.length = n ∧ b.addr + off = a ∧ off = b.next ∧ off + n ≤ b.total ∧ crc32c bs = crc ∧ isDram a = true ∧ s.die.bulkBusy a n = false ∧ s.die.rangePoison a n = false) ∧
    (∃ s : State, ∃ m : MsgHead, ∃ w, ∃ off, ∃ n, ∃ b : Bulk, ∃ a, s.die.live = true ∧ s.die.portUp = true ∧ s.die.accepts m 0x21 0 = true ∧ 1 ≤ n ∧ n ≤ 8192 ∧ s.die.window w = some b ∧ b.slot = m.slot ∧ b.read = true ∧ m.len = 16 ∧ b.addr + off = a ∧ off + n ≤ b.total ∧ isDram a = true ∧ s.die.bulkBusy a n = false ∧ s.die.rangePoison a n = false) ∧
    (∃ s : State, ∃ m : MsgHead, ∃ w, s.die.live = true ∧ s.die.portUp = true ∧ s.die.accepts m 0x22 0 = true ∧ m.len = 8 ∧ (s.die.window w = none ∨ (∃ b, s.die.window w = some b ∧ b.slot ≠ m.slot))) ∧
    (∃ s : State, ∃ m : MsgHead, ∃ w, ∃ b : Bulk, s.die.live = true ∧ s.die.portUp = true ∧ s.die.accepts m 0x22 0 = true ∧ m.len = 8 ∧ s.die.window w = some b ∧ b.slot = m.slot) ∧
    (∃ s : State, ∃ w, ∃ v, s.die.live = true ∧ s.die.portUp = true ∧ (s.die.window w).isSome = true ∧ v ≠ w) ∧
    (∃ s : State, s.die.live = true ∧ s.die.portUp = true) ∧
    (∃ s : State, ∃ m : MsgHead, s.die.live = true ∧ s.die.canRequest m = true) ∧
    (∃ s : State, ∃ m : MsgHead, s.die.live = true ∧ s.die.canRequest m = true) ∧
    (∃ s : State, ∃ m : MsgHead, s.die.live = true ∧ s.die.canRequest m = true) ∧
    (∃ s : State, ∃ m : MsgHead, s.die.live = true ∧ s.die.canRequest m = true) ∧
    (∃ s : State, ∃ m : MsgHead, s.die.live = true ∧ s.die.canRequest m = true) ∧
    (∃ s : State, ∃ slot : Nat, s.die.live = true ∧ (s.die.session slot).isSome = true) ∧
    (∃ s : State, ∃ window : Nat, s.die.live = true ∧ (s.die.window window).isSome = true) :=
  ⟨⟨on (hostMany []), { port := 9 }, { msg := openMsg 8 15 3600, tag := [] }, 8, 15, 3600, by decide +kernel⟩,
   ⟨on (hostMany []), openReq (hostMany []) 7 16 3600, 7, 16, 3600, by (repeat' apply And.intro) <;> first | decide +kernel | rfl | exact Or.inr (Or.inr (by decide))⟩,
   ⟨on (hostMany []), openReq (hostMany []) 7 15 3600, 7, 15, 3600, 0, by (repeat' apply And.intro) <;> first | decide +kernel | rfl⟩,
   ⟨on (hostMany [0, 1, 2, 3, 4, 5, 6, 7]), openReq (hostMany [0, 1, 2, 3, 4, 5, 6, 7]) 7 15 1, 7, 15, 1, by (repeat' apply And.intro) <;> first | decide +kernel | rfl⟩,
   ⟨on (hostUp { sess 15 with cache := [⟨0x22, 0, 0, []⟩] }), reqOf 0 8, { sess 15 with cache := [⟨0x22, 0, 0, []⟩] }, 3, true, dramBase, 1, 0, List.replicate 1 0, 0, (.bulkClose (reqOf 0 8) 3, 34), ⟨0x22, 0, 0, []⟩, by decide +kernel⟩,
   ⟨on (hostUp (sess 15)), reqOf 0 8, sess 15, 3, true, dramBase, 1, 0, List.replicate 1 0, 0, (.bulkClose (reqOf 0 8) 3, 34), by decide +kernel⟩,
   ⟨on (hostUp { sess 15 with hiSeq := 0xFFFFFF00 }), reqOf 0xFFFFFB00 8, { sess 15 with hiSeq := 0xFFFFFF00 }, 3, true, dramBase, 1, 0, List.replicate 1 0, 0, (.bulkClose (reqOf 0xFFFFFB00 8) 3, 34), by decide +kernel⟩,
   ⟨on ((hostUp (sess 15)).put Reg.SEC_STATUS_STATE 1), reqOf 4294967039 8, sess 15, 3, true, dramBase, 1, 0, List.replicate 1 0, 0, (.bulkClose (reqOf 4294967039 8) 3, 34), by decide +kernel⟩,
   ⟨on (hostUp (sess 14)), reqOf 1 8, sess 14, 3, true, dramBase, 1, 0, List.replicate 1 0, 0, (.bulkClose (reqOf 1 8) 3, 34), by decide +kernel⟩,
   ⟨on (hostUp (sess 15)), reqOf 1 0, by decide +kernel⟩,
   ⟨on ((hostUp (sess 15)).put (Reg.MBX_OWNER_OWNER 63) 7), 7, 63, by decide +kernel⟩,
   ⟨on (withWin (bulk 7 true 0)), reqOf 1 24, 3, 2 ^ 40, by decide +kernel⟩,
   ⟨on (hostUp (sess 15)), reqOf 1 24, 3, fwArea - 8192, 8192, by decide +kernel⟩,
   ⟨on (hostUp (sess 1)), reqOf 1 24, 3, dramEnd - 8192, 2 ^ 40, by decide +kernel⟩,
   ⟨on (hostUp (sess 15)), reqOf 1 24, 3, 8192, by decide +kernel⟩,
   ⟨on (withWin (bulk 7 false 0)), reqOf 1 21, 3, 1, 1, [0], bulk 7 false 0, dramBase + 1, by decide +kernel⟩,
   ⟨on (withWin (bulk 7 false 8191)), reqOf 1 21, 3, 8191, 1, [0], crc32c [0] + 1, bulk 7 false 8191, dramBase + 8191, by decide +kernel⟩,
   ⟨on (withWin (bulk 7 false 8191)), reqOf 1 21, 3, 8191, 1, [0], crc32c [0], bulk 7 false 8191, dramBase + 8191, by decide +kernel⟩,
   ⟨on (withWin (bulk 7 true 0)), reqOf 1 16, 3, 0, 8192, bulk 7 true 0, dramBase, by decide +kernel⟩,
   ⟨on (withWin (bulk 6 true 0)), reqOf 1 8, 3, by decide +kernel⟩,
   ⟨on (withWin (bulk 7 true 0)), reqOf 1 8, 3, bulk 7 true 0, by decide +kernel⟩,
   ⟨on (withWin (bulk 7 true 0)), 3, 0, by decide +kernel⟩,
   ⟨on (hostUp (sess 15)), by decide +kernel⟩,
   ⟨on (hostUp (sess 15)), reqOf 1 8, by decide +kernel⟩,
   ⟨on (hostUp (sess 15)), reqOf 1 8, by decide +kernel⟩,
   ⟨on (hostUp (sess 15)), reqOf 1 8, by decide +kernel⟩,
   ⟨on (hostUp (sess 15)), reqOf 1 8, by decide +kernel⟩,
   ⟨on (hostUp (sess 15)), reqOf 1 8, by decide +kernel⟩,
   ⟨on (hostUp (sess 15)), 7, by decide +kernel⟩,
   ⟨on (withWin (bulk 7 true 0)), 3, by decide +kernel⟩⟩

theorem witness_EventsAndMailboxesMoveInOrder :
    (∃ s : State, ∃ slot, ∃ x : Session, s.die.live = true ∧ s.die.portUp = true ∧ s.die.session slot = some x ∧ x.evtLost = 0 ∧ x.events ≠ [] ∧ (x.events.map EvRec.size).sum ≤ 9040) ∧
    (∃ s : State, ∃ slot, ∃ x : Session, s.die.live = true ∧ s.die.portUp = true ∧ s.die.session slot = some x ∧ x.evtLost ≠ 0 ∧ x.events = []) ∧
    (∃ s : State, ∃ m : MsgHead, ∃ box, ∃ bs : List Byte, s.die.live = true ∧ s.die.accepts m 0x30 0 = true ∧ m.len = 264 ∧ bs.length = 256 ∧ box < 64 ∧ m.slot < 8 ∧ s.die.fwRuns = false) ∧
    (∃ s : State, ∃ m : MsgHead, ∃ box, ∃ bs : List Byte, s.die.live = true ∧ s.die.accepts m 0x30 0 = true ∧ m.len = 264 ∧ bs.length = 256 ∧ box < 64 ∧ m.slot < 8 ∧ s.die.fwRuns = true ∧ s.die.canPost box m.slot = false) ∧
    (∃ s : State, ∃ m : MsgHead, ∃ box, ∃ bs : List Byte, s.die.live = true ∧ s.die.accepts m 0x30 0 = true ∧ m.len = 264 ∧ bs.length = 256 ∧ box < 64 ∧ m.slot < 8 ∧ s.die.fwRuns = true ∧ s.die.canPost box m.slot = true) ∧
    (∃ s : State, ∃ ag, ∃ w, s.die.live = true ∧ s.die.mayControl ag = true ∧ isHost ag = true ∧ bitsSet 32 w = []) ∧
    (∃ s : State, ∃ ag, ∃ w, s.die.live = true ∧ s.die.mayControl ag = true ∧ isHost ag = true ∧ bitsSet 32 w ≠ [] ∧ s.die.fwRuns = false) ∧
    (∃ s : State, ∃ ag, ∃ hi, ∃ w, ∃ i, s.die.live = true ∧ s.die.mayControl ag = true ∧ isHost ag = true ∧ bitsSet 32 w = [i] ∧ s.die.fwRuns = true ∧ s.die.canPost (i + 32 * b2n hi) (agentCode ag) = false) ∧
    (∃ s : State, ∃ ag, ∃ hi, ∃ w, ∃ i, s.die.live = true ∧ s.die.mayControl ag = true ∧ isHost ag = true ∧ bitsSet 32 w = [i] ∧ s.die.fwRuns = true ∧ s.die.canPost (i + 32 * b2n hi) (agentCode ag) = true) ∧
    (∃ s : State, ∃ ag, ∃ i, s.die.live = true ∧ s.die.mayControl ag = true ∧ i < 32) ∧
    (∃ s : State, ∃ k, ∃ r, s.die.live = true ∧ s.die.fwRuns = true ∧ s.die.host.doorbells = k :: r ∧ k < 64 ∧ s.die.busyBoxes < 4) ∧
    (∃ s : State, ∃ k, ∃ r, s.die.live = true ∧ s.die.fwRuns = true ∧ s.die.host.doorbells = k :: r ∧ k < 64 ∧ 4 ≤ s.die.busyBoxes) ∧
    (∃ s : State, ∃ box, ∃ code, ∃ bs : List Byte, s.die.live = true ∧ box < 64 ∧ s.die.box box = { state := .busy, result := some (code, bs), outBytes := [] } ∧ code < 65536 ∧ bs.length ≤ 224 ∧ leAt (s.die.boxBytes (reqBox box)) 16 8 = 0) ∧
    (∃ s : State, ∃ slot, ∃ x, s.die.live = true ∧ s.die.portUp = true ∧ s.die.session slot = some x ∧ (x.events ≠ [] ∨ x.evtLost ≠ 0)) ∧
    (∃ s : State, ∃ ag : Agent, s.die.live = true ∧ s.die.mayControl ag = true ∧ isHost ag = true) ∧
    (∃ s : State, ∃ box, ∃ code, ∃ bs : List Byte, s.die.live = true ∧ box < 64 ∧ (s.die.box box).state = .busy ∧ (s.die.box box).result = some (code, bs)) :=
  ⟨⟨on (hostUp { sess 15 with events := List.replicate 113 ⟨1, 0, 0, zeros 64⟩ }), 7, { sess 15 with events := List.replicate 113 ⟨1, 0, 0, zeros 64⟩ }, by decide +kernel⟩,
   ⟨on (hostUp { sess 15 with evtLost := 1 }), 7, { sess 15 with evtLost := 1 }, by decide +kernel⟩,
   ⟨on ((hostUp (sess 15)).put Reg.BOOT_STAGE_STAGE 5), reqOf 1 264, 63, zeros 256, by decide +kernel⟩,
   ⟨on ((hostUp (sess 15)).setBox 63 { state := .busy }), reqOf 1 264, 63, zeros 256, by decide +kernel⟩,
   ⟨on (hostUp (sess 15)), reqOf 1 264, 63, zeros 256, by decide +kernel⟩,
   ⟨on die0, .j3, 0, by decide +kernel⟩,
   ⟨on die0, .j3, 1, by decide +kernel⟩,
   ⟨on (die6.setBox 63 { state := .busy }), .j3, true, 2 ^ 31, 31, by decide +kernel⟩,
   ⟨on die6, .j3, true, 2 ^ 31, 31, by decide +kernel⟩,
   ⟨on die0, .j3, 31, by decide +kernel⟩,
   ⟨on { die6 with host := { doorbells := [63] } }, 63, [], by decide +kernel⟩,
   ⟨on { die6 with host := { doorbells := [63], boxes := [(0, { state := .busy }), (1, { state := .busy }), (2, { state := .busy }), (3, { state := .busy })] } }, 63, [], by decide +kernel⟩,
   ⟨on (die0.setBox 63 { state := .busy, result := some (65535, zeros 224) }), 63, 65535, zeros 224, by decide +kernel⟩,
   ⟨on (hostUp { sess 15 with evtLost := 1 }), 7, { sess 15 with evtLost := 1 }, by decide +kernel⟩,
   ⟨on (withSess (sess 15) die0), .session 7, by decide +kernel⟩,
   ⟨on (die0.setBox 63 { state := .busy, result := some (65535, zeros 224) }), 63, 65535, zeros 224, by decide +kernel⟩⟩

/-- Link 5 in state `st`. -/
def lnk (st : Nat) (d : Die) : Die := d.put (Reg.LNK_STATUS_STATE 5) st

/-- Link 5 UP with these contents. -/
def upLink (l : Link) : Die := (lnk 4 die0).modLink 5 (fun _ => l)

/-- A flit with this KIND byte and payload, sent under number `seq` (R450), over so many uncorrectable codewords. -/
def flit (kind seq unc : Nat) (payload : List Byte) : FlitIn :=
  let body := natLe 2 kind ++ payload ++ zeros (250 - payload.length)
  { corrected := 1, uncorrected := unc, bytes := body ++ natLe 4 (flitCrc seq body) }

/-- A flit in the retry buffer. -/
def sentFlit : TxFlit := { seq := 255, kind := 0x20, bytes := [0] }

/-- A strandline record. -/
def rec1 (seq : Nat) : Rec :=
  { time := 0, tide := 0, seq := seq, source := 0x31, flags := 0, event := 2, domain := 0xFF, sub := 0xFFFF, tDiode := 0, vCore := 0,
    detail := List.replicate 8 0 }

/-- The die with these records waiting and so many dropped. -/
def strandOf (q : List Rec) (dropped : Nat) (d : Die) : Die := { d with strand := { d.strand with queue := q, dropped := dropped } }

theorem witness_LinksMoveThroughTheirStates :
    (∃ s : State, ∃ k : Nat, ∃ ag, s.die.live = true ∧ k < 6 ∧ bit s.die.sliceMask k = false ∧ s.die.mayControl ag = true ∧ s.die.lowWater = true) ∧
    (∃ s : State, ∃ k : Nat, ∃ ag, s.die.live = true ∧ k < 6 ∧ bit s.die.sliceMask k = false ∧ s.die.mayControl ag = true ∧ s.die.lowWater = false ∧ s.die.lnkState k = 0) ∧
    (∃ s : State, ∃ k : Nat, ∃ ag, s.die.live = true ∧ k < 6 ∧ bit s.die.sliceMask k = false ∧ s.die.mayControl ag = true ∧ s.die.lowWater = false ∧ s.die.lnkState k ≠ 0) ∧
    (∃ s : State, ∃ k : Nat, ∃ ag, s.die.live = true ∧ k < 6 ∧ bit s.die.sliceMask k = false ∧ s.die.mayControl ag = true ∧ s.die.lowWater = false ∧ s.die.lnkState k = 6) ∧
    (∃ s : State, ∃ k : Nat, ∃ ag, s.die.live = true ∧ k < 6 ∧ bit s.die.sliceMask k = false ∧ s.die.mayControl ag = true ∧ 2 ≤ s.die.lnkState k ∧ s.die.lnkState k ≤ 5) ∧
    (∃ s : State, ∃ k : Nat, ∃ ag, s.die.live = true ∧ k < 6 ∧ bit s.die.sliceMask k = false ∧ s.die.mayControl ag = true ∧ s.die.lnkState k = 4) ∧
    (∃ s : State, ∃ k : Nat, ∃ ag, s.die.live = true ∧ k < 6 ∧ bit s.die.sliceMask k = false ∧ s.die.mayControl ag = true ∧ (s.die.lnkState k < 2 ∨ 5 < s.die.lnkState k)) ∧
    (∃ s : State, ∃ k : Nat, ∃ ag, s.die.live = true ∧ k < 6 ∧ bit s.die.sliceMask k = false ∧ s.die.mayControl ag = true ∧ (s.die.lnkState k = 0 ∨ s.die.lnkState k = 6)) ∧
    (∃ s : State, ∃ k : Nat, ∃ ag, s.die.live = true ∧ k < 6 ∧ bit s.die.sliceMask k = false ∧ s.die.mayControl ag = true ∧ s.die.lnkState k = 1) ∧
    (∃ s : State, ∃ k : Nat, s.die.live = true ∧ k < 6 ∧ bit s.die.sliceMask k = false ∧ s.die.lnkState k = 2) ∧
    (∃ s : State, ∃ k : Nat, ∃ c, c ∈ [(Instr.linkSignalLoss k false, 2), (.linkSignalLoss k true, 3), (.downNotice k, 5)] ∧ s.die.live = true ∧ k < 6 ∧ bit s.die.sliceMask k = false ∧ s.die.lnkState k = 4 ∧ (s.die.link k).txPackets.filter (fun p => bit p.1 1) ≠ []) ∧
    (∃ s : State, ∃ k : Nat, ∃ c, c ∈ [(Instr.linkSignalLoss k false, 2), (.linkSignalLoss k true, 3), (.downNotice k, 5)] ∧ s.die.live = true ∧ k < 6 ∧ bit s.die.sliceMask k = false ∧ s.die.lnkState k = 4 ∧ (s.die.link k).txPackets.filter (fun p => bit p.1 1) = []) ∧
    (∃ s : State, ∃ k : Nat, s.die.live = true ∧ k < 6 ∧ bit s.die.sliceMask k = false ∧ s.die.lnkState k = 6 ∧ (s.die.link k).control = []) ∧
    (∃ s : State, ∃ k : Nat, s.die.live = true ∧ k < 6 ∧ bit s.die.sliceMask k = false ∧ s.die.lnkState k = 1 ∧ s.die.on (Reg.LNK_CTRL_EN k) = true ∧ s.die.planValid k = true) ∧
    (∃ s : State, ∃ k : Nat, s.die.live = true ∧ k < 6 ∧ bit s.die.sliceMask k = false ∧ s.die.lnkState k = 1 ∧ s.die.on (Reg.LNK_CTRL_EN k) = true ∧ s.die.planValid k = false) ∧
    (∃ s : State, ∃ k : Nat, ∃ ag : Agent, s.die.live = true ∧ k < 6 ∧ s.die.mayControl ag = true) ∧
    (∃ s : State, ∃ k : Nat, s.die.live = true ∧ k < 6 ∧ s.die.lnkState k = 2) ∧
    (∃ s : State, ∃ k : Nat, s.die.live = true ∧ k < 6 ∧ s.die.linkUp k = true) ∧
    (∃ s : State, ∃ k : Nat, s.die.live = true ∧ k < 6 ∧ s.die.lnkState k = 6 ∧ (s.die.link k).control = []) ∧
    (∃ s : State, ∃ k : Nat, s.die.live = true ∧ k < 6 ∧ s.die.lnkState k = 1 ∧ s.die.on (Reg.LNK_CTRL_EN k) = true ∧ s.die.planValid k = true) :=
  ⟨⟨on (die0.put Reg.BOOT_STAGE_STAGE 8), 5, .j3, by decide +kernel⟩,
   ⟨on (lnk 0 die0), 5, .j3, by decide +kernel⟩,
   ⟨on (lnk 6 die0), 5, .j3, by decide +kernel⟩,
   ⟨on (lnk 6 die0), 5, .j3, by decide +kernel⟩,
   ⟨on (lnk 5 die0), 5, .j3, by decide +kernel⟩,
   ⟨on (lnk 4 die0), 5, .j3, by decide +kernel⟩,
   ⟨on (lnk 6 die0), 5, .j3, by decide +kernel⟩,
   ⟨on (lnk 6 die0), 5, .j3, by decide +kernel⟩,
   ⟨on (lnk 1 die0), 5, .j3, by decide +kernel⟩,
   ⟨on (lnk 2 die0), 5, by decide +kernel⟩,
   ⟨on (upLink { txPackets := [(11, zeros 20)] }), 5, (.downNotice 5, 5), by decide +kernel⟩,
   ⟨on (lnk 4 die0), 5, (.downNotice 5, 5), by decide +kernel⟩,
   ⟨on (lnk 6 die0), 5, by decide +kernel⟩,
   ⟨on (((lnk 1 die0).raise (Reg.LNK_CTRL_EN 5)).raise (Reg.LNK_PLAN_VALID 5)), 5, by decide +kernel⟩,
   ⟨on (((lnk 1 die0).raise (Reg.LNK_CTRL_EN 5)).clear (Reg.LNK_PLAN_VALID 5)), 5, by decide +kernel⟩,
   ⟨on die0, 5, .j3, by decide +kernel⟩,
   ⟨on (lnk 2 die0), 5, by decide +kernel⟩,
   ⟨on (lnk 4 die0), 5, by decide +kernel⟩,
   ⟨on (lnk 6 die0), 5, by decide +kernel⟩,
   ⟨on (((lnk 1 die0).raise (Reg.LNK_CTRL_EN 5)).raise (Reg.LNK_PLAN_VALID 5)), 5, by decide +kernel⟩⟩

theorem witness_PlansAndIdentitiesAreCompared :
    (∃ s : State, ∃ ag, ∃ w, ∃ k, ∃ c, c ∈ [Instr.coordWrite ag w, .torusWrite ag w, .planWrite ag k w] ∧ s.die.live = true ∧ s.die.mayControl ag = true ∧ k < 6 ∧ s.die.mayPlan ag = false) ∧
    (∃ s : State, ∃ ag, ∃ w, ∃ k, ∃ c : Instr × Nat, s.die.live = true ∧ s.die.mayControl ag = true ∧ k < 6 ∧ s.die.mayPlan ag = true ∧ s.die.tideState ≠ 0 ∧ s.die.tideState ≠ 2 ∧ c ∈ [(Instr.coordWrite ag w, Reg.GLB_COORD), (.torusWrite ag w, Reg.GLB_TORUS), (.planWrite ag k w, Reg.LNK_PLAN k)] ∧ writeFields ((regSpec c.2).getD []) (s.die.getW c.2).toNat w ≠ (s.die.getW c.2).toNat) ∧
    (∃ s : State, ∃ ag, ∃ w, ∃ k, s.die.live = true ∧ s.die.mayControl ag = true ∧ k < 6 ∧ s.die.mayPlan ag = true ∧ (s.die.tideState = 0 ∨ s.die.tideState = 2) ∧ (∀ j, j < 6 → s.die.lnkState j ≠ 3 ∧ s.die.lnkState j ≠ 4 ∧ s.die.lnkState j ≠ 5) ∧ bits w 0 5 ≤ s.die.get Reg.GLB_TORUS_SX ∧ bits w 5 5 ≤ s.die.get Reg.GLB_TORUS_SY ∧ bits w 10 5 ≤ s.die.get Reg.GLB_TORUS_SZ) ∧
    (∃ s : State, ∃ ag, ∃ w, ∃ k, s.die.live = true ∧ s.die.mayControl ag = true ∧ k < 6 ∧ s.die.mayPlan ag = true ∧ (s.die.tideState = 0 ∨ s.die.tideState = 2) ∧ (∀ j, j < 6 → s.die.lnkState j ≠ 3 ∧ s.die.lnkState j ≠ 4 ∧ s.die.lnkState j ≠ 5) ∧ s.die.get Reg.GLB_TORUS_SX < bits w 0 5 ∧ bits w 5 5 ≤ s.die.get Reg.GLB_TORUS_SY ∧ bits w 10 5 ≤ s.die.get Reg.GLB_TORUS_SZ) ∧
    (∃ s : State, ∃ k, s.die.live = true ∧ k < 6 ∧ s.die.carriesId k = true ∧ s.die.flitReady k = true) ∧
    (∃ s : State, ∃ k, s.die.live = true ∧ k < 6 ∧ s.die.carriesId k = true ∧ s.die.flitReady k = false) ∧
    (∃ s : State, ∃ k, ∃ torus, ∃ port, ∃ serial, s.die.live = true ∧ k < 6 ∧ s.die.carriesId k = true ∧ s.die.lnkState k = 3 ∧ (∀ j, j < 6 → j ≠ k → s.die.lnkState j ≠ 3 ∧ s.die.lnkState j ≠ 4 ∧ s.die.lnkState j ≠ 5) ∧ port < 6 ∧ torus < 65536 ∧ serial < 2 ^ 64 ∧ s.die.on Reg.GLB_COORD_VALID = true ∧ serial = s.die.nv.serial) ∧
    (∃ s : State, ∃ k, ∃ coord, ∃ torus, ∃ port, ∃ serial, s.die.live = true ∧ k < 6 ∧ s.die.carriesId k = true ∧ s.die.lnkState k = 3 ∧ (∀ j, j < 6 → j ≠ k → s.die.lnkState j ≠ 3 ∧ s.die.lnkState j ≠ 4 ∧ s.die.lnkState j ≠ 5) ∧ port < 6 ∧ torus < 65536 ∧ serial < 2 ^ 64 ∧ s.die.on Reg.GLB_COORD_VALID = true ∧ serial ≠ s.die.nv.serial ∧ torus = (s.die.getW Reg.GLB_TORUS).toNat % 65536 ∧ bit coord 15 = true ∧ s.die.planValid k = true ∧ s.die.planOf k = (coord % 32768, port)) ∧
    (∃ s : State, ∃ k, ∃ torus, ∃ port, ∃ serial, s.die.live = true ∧ k < 6 ∧ s.die.carriesId k = true ∧ s.die.lnkState k = 3 ∧ (∀ j, j < 6 → j ≠ k → s.die.lnkState j ≠ 3 ∧ s.die.lnkState j ≠ 4 ∧ s.die.lnkState j ≠ 5) ∧ port < 6 ∧ torus < 65536 ∧ serial < 2 ^ 64 ∧ s.die.on Reg.GLB_COORD_VALID = true ∧ serial ≠ s.die.nv.serial ∧ torus ≠ (s.die.getW Reg.GLB_TORUS).toNat % 65536) ∧
    (∃ s : State, ∃ link : Nat, ∃ torus : Nat, ∃ port : Nat, s.die.live = true ∧ link < 6 ∧ s.die.carriesId link = true ∧ port < 6 ∧ torus < 65536) ∧
    (∃ s : State, ∃ ag : Agent, s.die.live = true ∧ s.die.mayControl ag = true) ∧
    (∃ s : State, ∃ ag : Agent, ∃ link : Nat, s.die.live = true ∧ s.die.mayControl ag = true ∧ link < 6) :=
  ⟨⟨on (withSess (sess 1) die0), .session 7, 0, 5, .coordWrite (.session 7) 0, by decide +kernel⟩,
   ⟨on (die0.put Reg.TIDE_STATUS_STATE 3), .j3, 0xFFFFFFFF, 5, (.planWrite .j3 5 0xFFFFFFFF, Reg.LNK_PLAN 5), by decide +kernel⟩,
   ⟨on (((die0.put Reg.GLB_TORUS_SX 31).put Reg.GLB_TORUS_SY 31).put Reg.GLB_TORUS_SZ 31), .j3, 0x7FFF, 5, by decide +kernel⟩,
   ⟨on ((((die0.put Reg.GLB_TORUS_SX 31).put Reg.GLB_TORUS_SY 31).put Reg.GLB_TORUS_SZ 31).put Reg.GLB_TORUS_SX 30), .j3, 0x7FFF, 5, by decide +kernel⟩,
   ⟨on (upLink { control := [(1, [0])] }), 5, by decide +kernel⟩,
   ⟨on (lnk 4 die0), 5, by decide +kernel⟩,
   ⟨on ((lnk 3 die0).raise Reg.GLB_COORD_VALID), 5, 65535, 5, ((lnk 3 die0).raise Reg.GLB_COORD_VALID).nv.serial, by decide +kernel⟩,
   ⟨on (((((lnk 3 die0).raise Reg.GLB_COORD_VALID).raise (Reg.LNK_PLAN_VALID 5)).put (Reg.LNK_PLAN_COORD 5) 32767).put (Reg.LNK_PLAN_PORT 5) 5), 5, 65535, (((lnk 3 die0).raise Reg.GLB_COORD_VALID).getW Reg.GLB_TORUS).toNat % 65536, 5, 0, by decide +kernel⟩,
   ⟨on ((lnk 3 die0).raise Reg.GLB_COORD_VALID), 5, 65535, 5, 0, by decide +kernel⟩,
   ⟨on (lnk 3 die0), 5, 65535, 5, by decide +kernel⟩,
   ⟨on die0, .j3, by decide +kernel⟩,
   ⟨on die0, .j3, 5, by decide +kernel⟩⟩

theorem witness_FlitsAreCheckedResentAndCredited :
    (∃ s : State, ∃ k : Nat, ∃ f : FlitIn, s.die.live = true ∧ k < 6 ∧ s.die.lnkState k = 4 ∧ bit s.die.sliceMask k = false ∧ f.bytes.length = 256 ∧ s.die.ptbActive 2 = false ∧ f.uncorrected = 0 ∧ flitGood f (s.die.link k).rxSeq = true ∧ flitReserved f = false ∧ flitSeqd f = true) ∧
    (∃ s : State, ∃ k : Nat, ∃ f : FlitIn, s.die.live = true ∧ k < 6 ∧ s.die.lnkState k = 4 ∧ bit s.die.sliceMask k = false ∧ f.bytes.length = 256 ∧ s.die.ptbActive 2 = false ∧ f.uncorrected = 0 ∧ flitGood f (s.die.link k).rxSeq = true ∧ flitReserved f = false ∧ flitType f = 4 ∧ leAt f.bytes 2 1 = 2) ∧
    (∃ s : State, ∃ k : Nat, ∃ f : FlitIn, s.die.live = true ∧ k < 6 ∧ s.die.lnkState k = 4 ∧ bit s.die.sliceMask k = false ∧ f.bytes.length = 256 ∧ s.die.ptbActive 2 = false ∧ (0 < f.uncorrected ∨ flitGood f (s.die.link k).rxSeq = false ∨ flitReserved f = true) ∧ (s.die.link k).waiting = true) ∧
    (∃ s : State, ∃ k : Nat, ∃ f : FlitIn, s.die.live = true ∧ k < 6 ∧ s.die.lnkState k = 4 ∧ bit s.die.sliceMask k = false ∧ f.bytes.length = 256 ∧ s.die.ptbActive 2 = false ∧ (0 < f.uncorrected ∨ flitGood f (s.die.link k).rxSeq = false ∨ flitReserved f = true) ∧ (s.die.link k).waiting = false ∧ (((s.die.link k).events.filter (fun t => decide (s.die.clock.quarter < t + 4000000))).length < 63) ∧ 0 < f.uncorrected) ∧
    (∃ s : State, ∃ k : Nat, ∃ f : FlitIn, s.die.live = true ∧ k < 6 ∧ s.die.lnkState k = 4 ∧ bit s.die.sliceMask k = false ∧ f.bytes.length = 256 ∧ s.die.ptbActive 2 = false ∧ (0 < f.uncorrected ∨ flitGood f (s.die.link k).rxSeq = false ∨ flitReserved f = true) ∧ (s.die.link k).waiting = false ∧ (((s.die.link k).events.filter (fun t => decide (s.die.clock.quarter < t + 4000000))).length < 63) ∧ f.uncorrected = 0) ∧
    (∃ s : State, ∃ k : Nat, ∃ q, s.die.live = true ∧ k < 6 ∧ s.die.lnkState k = 4 ∧ bit s.die.sliceMask k = false ∧ ((s.die.link k).retry.any (fun f => f.seq == q) = true)) ∧
    (∃ s : State, ∃ k : Nat, s.die.live = true ∧ k < 6 ∧ s.die.lnkState k = 4 ∧ bit s.die.sliceMask k = false ∧ (s.die.link k).waiting = true ∧ (s.die.link k).naks < 4) ∧
    (∃ s : State, ∃ k : Nat, s.die.live = true ∧ k < 6 ∧ s.die.lnkState k = 4 ∧ bit s.die.sliceMask k = false ∧ (s.die.link k).waiting = true ∧ 4 ≤ (s.die.link k).naks) ∧
    (∃ s : State, ∃ k : Nat, ∃ cs : List Nat, s.die.live = true ∧ k < 6 ∧ s.die.lnkState k = 4 ∧ bit s.die.sliceMask k = false ∧ cs.length = 4) ∧
    (∃ s : State, ∃ k : Nat, ∃ l : Link, ∃ op, ∃ ws, ∃ rest, s.die.live = true ∧ k < 6 ∧ s.die.lnkState k = 4 ∧ bit s.die.sliceMask k = false ∧ s.die.link k = l ∧ l.control = (op, ws) :: rest) ∧
    (∃ s : State, ∃ k : Nat, ∃ l : Link, ∃ m, ∃ rest, s.die.live = true ∧ k < 6 ∧ s.die.lnkState k = 4 ∧ bit s.die.sliceMask k = false ∧ s.die.link k = l ∧ l.control = [] ∧ l.txMarks = m :: rest ∧ l.retry.length < 255) ∧
    (∃ s : State, ∃ k : Nat, ∃ l : Link, s.die.live = true ∧ k < 6 ∧ s.die.lnkState k = 4 ∧ bit s.die.sliceMask k = false ∧ s.die.link k = l ∧ l.control = [] ∧ l.resend = none ∧ 255 ≤ l.retry.length) ∧
    (∃ s : State, ∃ k : Nat, ∃ l : Link, ∃ q, ∃ f, ∃ rest, s.die.live = true ∧ k < 6 ∧ s.die.lnkState k = 4 ∧ bit s.die.sliceMask k = false ∧ s.die.link k = l ∧ l.control = [] ∧ l.txMarks = [] ∧ l.resend = some q ∧ l.retry = f :: rest ∧ f.seq = q) ∧
    (∃ s : State, ∃ k : Nat, ∃ l : Link, ∃ vc, ∃ tag, ∃ bs, s.die.live = true ∧ k < 6 ∧ s.die.lnkState k = 4 ∧ bit s.die.sliceMask k = false ∧ s.die.link k = l ∧ l.control = [] ∧ l.txMarks = [] ∧ l.resend = none ∧ l.retry.length < 255 ∧ l.txBursts = [] ∧ pickPacket l = some (vc, tag, bs)) ∧
    (∃ s : State, ∃ k : Nat, ∃ l : Link, s.die.live = true ∧ k < 6 ∧ s.die.lnkState k = 4 ∧ bit s.die.sliceMask k = false ∧ s.die.link k = l ∧ l.control = [] ∧ l.txMarks = [] ∧ l.resend = none ∧ l.retry.length < 255 ∧ l.txBursts = [] ∧ pickPacket l = none ∧ l.txPackets ≠ []) ∧
    (∃ s : State, ∃ k : Nat, ∃ l : Link, s.die.live = true ∧ k < 6 ∧ s.die.lnkState k = 4 ∧ bit s.die.sliceMask k = false ∧ s.die.link k = l ∧ l.control = [] ∧ l.txMarks = [] ∧ l.resend = none ∧ l.retry.length < 255 ∧ l.txBursts = [] ∧ l.txPackets = []) ∧
    (∃ s : State, ∃ k : Nat, s.die.live = true ∧ k < 6 ∧ s.die.lnkState k = 4 ∧ bit s.die.sliceMask k = false ∧ s.pending = [] ∧ s.die.computeHeld = true ∧ waitsCredit (s.die.link k) = true) ∧
    (∃ s : State, ∃ k : Nat, s.die.live = true ∧ k < 6 ∧ s.die.lnkState k = 4 ∧ bit s.die.sliceMask k = false ∧ s.pending = [] ∧ s.die.computeHeld = true ∧ waitsCredit (s.die.link k) = false) ∧
    (∃ s : State, ∃ k : Nat, ∃ f : FlitIn, s.die.live = true ∧ k < 6 ∧ s.die.carriesId k = true ∧ f.bytes.length = 256) ∧
    (∃ s : State, ∃ k : Nat, ∃ q : Nat, s.die.live = true ∧ k < 6 ∧ s.die.linkUp k = true) ∧
    (∃ s : State, ∃ k : Nat, s.die.live = true ∧ k < 6 ∧ s.die.linkUp k = true ∧ (s.die.link k).waiting = true) ∧
    (∃ s : State, ∃ k : Nat, ∃ cs : List Nat, s.die.live = true ∧ k < 6 ∧ s.die.linkUp k = true ∧ cs.length = 4) ∧
    (∃ s : State, ∃ k : Nat, s.die.live = true ∧ k < 6 ∧ (s.die.carriesId k = true ∨ s.die.lnkState k = 6)) :=
  ⟨⟨on (upLink { rxSeq := 65535 }), 5, flit 0x60 65535 0 (zeros 51), by decide +kernel⟩,
   ⟨on (lnk 4 die0), 5, flit 0x80 65535 0 (natLe 17 2), by decide +kernel⟩,
   ⟨on (upLink { waiting := true, naks := 4 }), 5, flit 0x60 1 0 [], by decide +kernel⟩,
   ⟨on (lnk 4 die0), 5, flit 0x60 0 1 [], by decide +kernel⟩,
   ⟨on (lnk 4 die0), 5, flit 0x38 0 0 [], by decide +kernel⟩,
   ⟨on (upLink { retry := [sentFlit] }), 5, 255, by decide +kernel⟩,
   ⟨on (upLink { waiting := true, naks := 3 }), 5, by decide +kernel⟩,
   ⟨on (upLink { waiting := true, naks := 4 }), 5, by decide +kernel⟩,
   ⟨on (lnk 4 die0), 5, [1, 2, 3, 4], by decide +kernel⟩,
   ⟨on (upLink { control := [(1, [])] }), 5, { control := [(1, [])] }, 1, [], [], by decide +kernel⟩,
   ⟨on (upLink { txMarks := [[0]], retry := List.replicate 254 sentFlit }), 5, { txMarks := [[0]], retry := List.replicate 254 sentFlit }, [0], [], by decide +kernel⟩,
   ⟨on (upLink { txMarks := [[0]], retry := List.replicate 255 sentFlit }), 5, { txMarks := [[0]], retry := List.replicate 255 sentFlit }, by decide +kernel⟩,
   ⟨on (upLink { resend := some 255, retry := [sentFlit] }), 5, { resend := some 255, retry := [sentFlit] }, 255, sentFlit, [], by decide +kernel⟩,
   ⟨on (upLink { txPackets := [(11, [0])], sent := [0, 0, 63, 0] }), 5, { txPackets := [(11, [0])], sent := [0, 0, 63, 0] }, 2, 11, [0], by decide +kernel⟩,
   ⟨on (upLink { txPackets := [(11, [0])], sent := [0, 0, 64, 0] }), 5, { txPackets := [(11, [0])], sent := [0, 0, 64, 0] }, by decide +kernel⟩,
   ⟨on (upLink {}), 5, {}, by decide +kernel⟩,
   ⟨on (asserted 2 (upLink { txPackets := [(11, [0])], sent := [0, 0, 64, 0] })), 5, by decide +kernel⟩,
   ⟨on (asserted 2 (upLink {})), 5, by decide +kernel⟩,
   ⟨on (lnk 3 die0), 5, flit 0xA0 65535 0 [], by decide +kernel⟩,
   ⟨on (upLink { retry := [sentFlit] }), 5, 255, by decide +kernel⟩,
   ⟨on (upLink { waiting := true }), 5, by decide +kernel⟩,
   ⟨on (lnk 4 die0), 5, [1, 2, 3, 4], by decide +kernel⟩,
   ⟨on (lnk 6 die0), 5, by decide +kernel⟩⟩

theorem witness_RegisterAccessesFollowTheAddressMap :
    (∃ s : State, ∃ m : MsgHead, ∃ a, s.die.accepts m 0x10 0 = true ∧ m.len = 16 ∧ a < 2 ^ 64 ∧ a = Reg.PWR_SEQ_STATUS) ∧
    (∃ s : State, ∃ m : MsgHead, ∃ a, s.die.accepts m 0x10 0 = true ∧ m.len = 16 ∧ a < 2 ^ 64 ∧ a % 4 ≠ 0) ∧
    (∃ s : State, ∃ m : MsgHead, ∃ a, s.die.accepts m 0x10 0 = true ∧ m.len = 16 ∧ a < 2 ^ 64 ∧ a % 4 = 0 ∧ s.die.boot.resets = [] ∧ windowTile a = none ∧ isDram a = false ∧ regSpec a = none) ∧
    (∃ s : State, ∃ m : MsgHead, ∃ a, s.die.accepts m 0x10 0 = true ∧ m.len = 16 ∧ a < 2 ^ 64 ∧ s.die.gate (.session m.slot) a false 0 = none ∧ a ≠ Reg.HP_TX_FRAMES ∧ a ≠ Reg.HP_SESSION ∧ a ≠ Reg.PWR_SEQ_STATUS ∧ isDram a = false ∧ sramTile a = none ∧ isLow64 a = true) ∧
    (∃ s : State, ∃ m : MsgHead, ∃ a, ∃ v : Word, s.die.accepts m 0x10 0 = true ∧ m.len = 16 ∧ a < 2 ^ 64 ∧ s.die.gate (.session m.slot) a false 0 = none ∧ a ≠ Reg.HP_TX_FRAMES ∧ a ≠ Reg.HP_SESSION ∧ a ≠ Reg.PWR_SEQ_STATUS ∧ isDram a = false ∧ sramTile a = none ∧ isLow64 a = false ∧ look (s.die.hold64 (.session m.slot)) a = some v) ∧
    (∃ s : State, ∃ m : MsgHead, ∃ a, s.die.accepts m 0x10 0 = true ∧ m.len = 16 ∧ a < 2 ^ 64 ∧ s.die.gate (.session m.slot) a false 0 = none ∧ a ≠ Reg.HP_TX_FRAMES ∧ a ≠ Reg.HP_SESSION ∧ a ≠ Reg.PWR_SEQ_STATUS ∧ isDram a = false ∧ sramTile a = none ∧ isLow64 a = false ∧ look (s.die.hold64 (.session m.slot)) a = none) ∧
    (∃ s : State, ∃ m : MsgHead, ∃ a, s.die.accepts m 0x10 0 = true ∧ m.len = 16 ∧ a < 2 ^ 64 ∧ s.die.gate (.session m.slot) a false 0 = none ∧ isDram a = true ∧ s.die.rangePoison a 4 = false) ∧
    (∃ s : State, ∃ m : MsgHead, ∃ a, ∃ w, s.die.accepts m 0x11 0 = true ∧ m.len = 16 ∧ a < 2 ^ 64 ∧ w < 2 ^ 32 ∧ s.die.secState ≠ 0 ∧ a % 4 = 0 ∧ s.die.boot.resets = [] ∧ within 0x90000 0xA0000 a = false ∧ a ≠ Reg.RST_CTRL ∧ a ≠ Reg.PWR_SEQ_STATUS) ∧
    (∃ s : State, ∃ m : MsgHead, ∃ a, ∃ w, s.die.accepts m 0x11 0 = true ∧ m.len = 16 ∧ a < 2 ^ 64 ∧ w < 2 ^ 32 ∧ s.die.secState = 0 ∧ a = Reg.PWR_SEQ_STATUS ∧ w = 2) ∧
    (∃ s : State, ∃ m : MsgHead, ∃ a, ∃ w, s.die.accepts m 0x11 0 = true ∧ m.len = 16 ∧ a < 2 ^ 64 ∧ w < 2 ^ 32 ∧ s.die.gate (.session m.slot) a true w = none ∧ isDram a = true ∧ s.die.rangePoison a 4 = false) ∧
    (∃ s : State, ∃ m : MsgHead, ∃ a, ∃ w, s.die.accepts m 0x11 0 = true ∧ m.len = 16 ∧ a < 2 ^ 64 ∧ w < 2 ^ 32 ∧ s.die.gate (.session m.slot) a true w = none ∧ a / 0x10000 = 8 ∧ a ≠ Reg.THM_CTRL) ∧
    (∃ s : State, ∃ ag, ∃ a, ∃ w, ∃ p, w < 2 ^ 32 ∧ a ≠ Reg.PWR_SEQ_STATUS ∧ s.die.live = true ∧ s.die.mayWrite ag = true ∧ s.die.gate ag a true w = some p) ∧
    (∃ s : State, ∃ ag, ∃ a, ∃ w, w < 2 ^ 32 ∧ a ≠ Reg.PWR_SEQ_STATUS ∧ s.die.live = true ∧ s.die.mayWrite ag = true ∧ s.die.gate ag a true w = none ∧ isDram a = true ∧ s.die.rangePoison a 4 = false) ∧
    (∃ s : State, ∃ ag, ∃ a, ∃ w, w < 2 ^ 32 ∧ a ≠ Reg.PWR_SEQ_STATUS ∧ s.die.live = true ∧ s.die.mayWrite ag = true ∧ s.die.gate ag a true w = none ∧ a / 0x10000 = 8 ∧ a ≠ Reg.THM_CTRL) ∧
    (∃ s : State, ∃ ag, ∃ a, ∃ w, w < 2 ^ 32 ∧ a = Reg.PWR_SEQ_STATUS ∧ s.carrier.standby = true ∧ s.seqReach ag = true ∧ w = 2) ∧
    (∃ s : State, ∃ legacy, ∃ a, ∃ w, s.transferOk legacy = true ∧ w < 2 ^ 32 ∧ a = Reg.PWR_SEQ_STATUS ∧ w = 2) ∧
    (∃ s : State, ∃ legacy, ∃ a, ∃ w, s.transferOk legacy = true ∧ w < 2 ^ 32 ∧ a ≠ Reg.PWR_SEQ_STATUS ∧ (s.die.live = false ∨ s.die.mgmt.ready = false)) ∧
    (∃ s : State, ∃ legacy, ∃ a, ∃ w, s.transferOk legacy = true ∧ w < 2 ^ 32 ∧ a ≠ Reg.PWR_SEQ_STATUS ∧ s.die.live = true ∧ s.die.mgmt.ready = true ∧ sramTile a = none ∧ s.die.gate .j3 a false 0 = none ∧ isLow64 a = false ∧ look s.die.mgmt.hold64 a = none) ∧
    (∃ s : State, ∃ legacy, ∃ a, ∃ w, s.transferOk legacy = true ∧ w < 2 ^ 32 ∧ a ≠ Reg.PWR_SEQ_STATUS ∧ s.die.live = true ∧ s.die.mgmt.ready = true ∧ sramTile a = none ∧ isDram a = true ∧ a % 4 = 0 ∧ s.die.boot.resets = []) ∧
    (∃ s : State, ∃ m : MsgHead, ∃ addr : Nat, s.die.live = true ∧ s.die.canRequest m = true ∧ addr < 2 ^ 64) ∧
    (∃ s : State, ∃ m, ∃ a, ∃ w, s.die.live = true ∧ s.die.canRequest m = true ∧ w < 2 ^ 32 ∧ a < 2 ^ 64 ∧ a ≠ Reg.PWR_SEQ_STATUS) ∧
    (∃ s : State, ∃ legacy, ∃ w, s.transferOk legacy = true ∧ w < 2 ^ 32) ∧
    (∃ s : State, ∃ ag, ∃ w, w < 2 ^ 32 ∧ s.carrier.standby = true ∧ s.seqReach ag = true) ∧
    (∃ s : State, ∃ ag, ∃ w, ∃ a, w < 2 ^ 32 ∧ a ≠ Reg.PWR_SEQ_STATUS ∧ s.die.live = true ∧ s.die.mayWrite ag = true) :=
  ⟨⟨on (hostUp (sess 15)), reqOf 1 16, Reg.PWR_SEQ_STATUS, by decide +kernel⟩,
   ⟨on (hostUp (sess 15)), reqOf 1 16, 2 ^ 64 - 1, by decide +kernel⟩,
   ⟨on (hostUp (sess 15)), reqOf 1 16, 2 ^ 64 - 4, by decide +kernel⟩,
   ⟨on (hostUp (sess 15)), reqOf 1 16, 0x80008, by decide +kernel⟩,
   ⟨on (hostUp { sess 15 with hold64 := [(0x8000C, 5)] }), reqOf 1 16, 0x8000C, 5, by decide +kernel⟩,
   ⟨on (hostUp (sess 15)), reqOf 1 16, Reg.THM_CTRL, by decide +kernel⟩,
   ⟨on (hostUp (sess 15)), reqOf 1 16, fwArea - 4, by decide +kernel⟩,
   ⟨on ((hostUp (sess 15)).put Reg.SEC_STATUS_STATE 1), reqOf 1 16, 0x8FFFC, 2 ^ 32 - 1, by decide +kernel⟩,
   ⟨on (hostUp (sess 15)), reqOf 1 16, Reg.PWR_SEQ_STATUS, 2, by decide +kernel⟩,
   ⟨on (hostUp (sess 15)), reqOf 1 16, fwArea - 4, 2 ^ 32 - 1, by decide +kernel⟩,
   ⟨on (hostUp (sess 15)), reqOf 1 16, 0x80008, 2 ^ 32 - 1, by decide +kernel⟩,
   ⟨on die0, .j3, 2 ^ 64 - 1, 0, (die0, stAlign), by decide +kernel⟩,
   ⟨on die6, .firmware, dramEnd - 4, 2 ^ 32 - 1, by decide +kernel⟩,
   ⟨on die0, .j3, 0x80008, 2 ^ 32 - 1, by decide +kernel⟩,
   ⟨on die0, .j3, Reg.PWR_SEQ_STATUS, 2, by decide +kernel⟩,
   ⟨on die0, true, Reg.PWR_SEQ_STATUS, 2, by decide +kernel⟩,
   ⟨on { die0 with mgmt := { die0.mgmt with ready := false } }, true, 0, 2 ^ 32 - 1, by decide +kernel⟩,
   ⟨on die0, true, Reg.THM_CTRL, 2 ^ 32 - 1, by decide +kernel⟩,
   ⟨on die0, true, dramEnd - 4, 2 ^ 32 - 1, by decide +kernel⟩,
   ⟨on (hostUp (sess 15)), reqOf 1 8, 2 ^ 64 - 1, by decide +kernel⟩,
   ⟨on (hostUp (sess 15)), reqOf 1 12, 2 ^ 64 - 1, 2 ^ 32 - 1, by decide +kernel⟩,
   ⟨on die0, true, 2 ^ 32 - 1, by decide +kernel⟩,
   ⟨on die0, .j3, 2 ^ 32 - 1, by decide +kernel⟩,
   ⟨on die0, .j3, 2 ^ 32 - 1, 0, by decide +kernel⟩⟩

theorem witness_StrandlineAndPerturbationKeepTheirRules :
    (∃ s : State, ∃ src, ∃ ev, 1 ≤ ev ∧ ev ≤ eventsOf src ∧ 512 ≤ s.die.strand.queue.length) ∧
    (∃ s : State, ∃ r, ∃ rest, s.die.strand.queue = r :: rest ∧ s.die.strand.copied = 0 ∧ s.die.ringUsable = false) ∧
    (∃ s : State, ∃ r, ∃ rest, s.die.strand.queue = r :: rest ∧ s.die.strand.copied = 0 ∧ s.die.ringUsable = true ∧ s.die.strand.dropped = 0 ∧ bit r.flags 0 = false ∧ s.die.on Reg.STL_STATUS_FROZEN = false) ∧
    (∃ s : State, ∃ r, ∃ rest, s.die.strand.queue = r :: rest ∧ s.die.strand.copied = 0 ∧ s.die.ringUsable = true ∧ s.die.strand.dropped = 0 ∧ s.die.on Reg.STL_STATUS_FROZEN = true) ∧
    (∃ s : State, ∃ r, ∃ rest, s.die.strand.queue = r :: rest ∧ s.die.strand.copied = 0 ∧ s.die.ringUsable = true ∧ s.die.strand.dropped ≠ 0 ∧ s.die.strand.queue.length ≤ 512) ∧
    (∃ s : State, ∃ ag, s.die.mayControl ag = true) ∧
    (∃ s : State, ∃ box, ∃ count, s.die.boxReady box = true ∧ (count = 0 ∨ 65536 < count)) ∧
    (∃ s : State, ∃ box, ∃ count, s.die.boxReady box = true ∧ 1 ≤ count ∧ count ≤ 65536) ∧
    (∃ s : State, ∃ box, ∃ first, ∃ x, s.die.boxReady box = true ∧ first < 2 ^ 32 ∧ s.die.ringRecord first = some x) ∧
    (∃ s : State, ∃ box, ∃ first, s.die.boxReady box = true ∧ first < 2 ^ 32 ∧ s.die.ringRecord first = none) ∧
    (∃ s : State, ∃ ag, ∃ i, s.die.live = true ∧ s.die.mayControl ag = true ∧ s.die.hasDebug ag = false ∧ i < 6) ∧
    (∃ s : State, ∃ ag, ∃ i, s.die.live = true ∧ s.die.mayControl ag = true ∧ s.die.hasDebug ag = true ∧ i < 6 ∧ s.die.on (Reg.PTB_CFG_EN i) = true) ∧
    (∃ s : State, ∃ ag, ∃ i, s.die.live = true ∧ s.die.mayControl ag = true ∧ s.die.hasDebug ag = true ∧ i < 6 ∧ s.die.on (Reg.PTB_CFG_EN i) = false ∧ (s.die.get (Reg.PTB_COUNT_COUNT i) = 0 ∨ s.die.targetBad i (s.die.getW (Reg.PTB_TARGET i)).toNat = true)) ∧
    (∃ s : State, ∃ ag, ∃ i, s.die.live = true ∧ s.die.mayControl ag = true ∧ s.die.hasDebug ag = true ∧ i < 6 ∧ s.die.on (Reg.PTB_CFG_EN i) = false ∧ s.die.get (Reg.PTB_COUNT_COUNT i) ≠ 0 ∧ s.die.targetBad i (s.die.getW (Reg.PTB_TARGET i)).toNat = false) ∧
    (∃ s : State, s.die.strand.queue.isEmpty = false) :=
  ⟨⟨on (strandOf (List.replicate 512 (rec1 0)) 0 die0), 0x31, 2, by decide +kernel⟩,
   ⟨on (strandOf [rec1 0] 0 die0), rec1 0, [], by decide +kernel⟩,
   ⟨on (strandOf [rec1 0] 0 (die6.raise Reg.STL_CTRL_EN)), rec1 0, [], by decide +kernel⟩,
   ⟨on (strandOf [rec1 0] 0 ((die6.raise Reg.STL_CTRL_EN).raise Reg.STL_STATUS_FROZEN)), rec1 0, [], by decide +kernel⟩,
   ⟨on (strandOf [rec1 0] 1 (die6.raise Reg.STL_CTRL_EN)), rec1 0, [], by decide +kernel⟩,
   ⟨on die0, .j3, by decide +kernel⟩,
   ⟨on dieBox, 63, 65537, by decide +kernel⟩,
   ⟨on dieBox, 63, 65536, by decide +kernel⟩,
   ⟨on (strandOf [rec1 (2 ^ 32 - 1)] 0 (dieBox.putW Reg.STL_RING_FIRST 0xFFFFFFFF)), 63, 2 ^ 32 - 1, recBytes (rec1 (2 ^ 32 - 1)), by decide +kernel⟩,
   ⟨on dieBox, 63, 2 ^ 32 - 1, by decide +kernel⟩,
   ⟨on die0, .j3, 5, by decide +kernel⟩,
   ⟨on ((hostUp (sess 15)).raise (Reg.PTB_CFG_EN 5)), .session 7, 5, by decide +kernel⟩,
   ⟨on (hostUp (sess 15)), .session 7, 5, by decide +kernel⟩,
   ⟨on (((hostUp (sess 15)).put (Reg.PTB_COUNT_COUNT 5) 1).putW (Reg.PTB_TARGET 5) 0x3F000000), .session 7, 5, by decide +kernel⟩,
   ⟨on (strandOf [rec1 0] 0 die0), by decide +kernel⟩⟩


/-- A spring calibration that measures just what the ideal level sums `ideal` say, with a factor of 1 between steps and codes. -/
def idealM (ideal : List (List Int)) : SpringMeas :=
  { refs := List.replicate 64 0, offs := List.replicate 264 0,
    group := (List.range 64).map (fun v => (List.range 256).map (fun j =>
      (if v % 2 = 0 then 128 else -128) * (ideal.getD j []).getD (v / 2) 0)),
    check := List.replicate 64 (List.replicate 256 0),
    full := [2, 4, 8].map (fun x => (List.range 256).map (fun j => 32 * x * (ideal.getD j []).sum)), rg := 0, ro := 0 }

/-- Array 271 holds logical array 255, with one cell a level step above its golden zeros, and runs its spring calibration. -/
def springDie : Die :=
  withUpkeep (fun u => { u with adjust := [(arrIx 63 271, [(0, 1)])] })
    ((arrImg 2 { job := .spring }).modCal 63 271 (fun c => { c with holds := some 255 }))

/-- Its ideal level sums. -/
def ideal255 : List (List Int) := (springDie.springIdeal 63 271).1

theorem springDie_ideal : springDie.springIdeal 63 271 = (ideal255, 1) :=
  Prod.ext rfl (by decide +kernel)

theorem ideal255_shape : ideal255.length = 256 ∧ ∀ l ∈ ideal255, l.length = 32 := by
  have h : ideal255 = (List.range 256).map (fun j => springDie.groupSums 63 271 0 255 (springDie.goldField 0 255 2 1) j) := rfl
  rw [h]
  refine ⟨by simp, fun l hl => ?_⟩
  obtain ⟨j, _, rfl⟩ := List.mem_map.mp hl
  simp [Die.groupSums]

/-- The numerator and the denominator of the gain's ratio are the same sum. -/
theorem gainRatio_ideal (I : List (List Int)) (h1 : I.length = 256) (h2 : ∀ l ∈ I, l.length = 32) :
    gainRatio I 1 (idealM I).group = ((I.map (fun l => (l.map (fun s => 256 * (s * s))).sum)).sum, (I.map (fun l => (l.map (fun s => 256 * (s * s))).sum)).sum) := by
  have e : ∀ {β : Type} (l : List β) (f : β → Int), (l.zipIdx.map (fun c => f c.1)).sum = (l.map f).sum := by
    intro β l f
    have h := congrArg (List.map f) (List.zipIdx_map_fst 0 l)
    rw [List.map_map] at h
    exact congrArg List.sum h
  refine Prod.ext ?_ (e I (fun l => (l.map (fun s => 256 * (s * s))).sum))
  refine Eq.trans ?_ (e I (fun l => (l.map (fun s => 256 * (s * s))).sum))
  refine congrArg List.sum (List.map_congr_left (fun c hc => ?_))
  have hc' := List.mem_zipIdx_iff_getElem?.mp hc
  obtain ⟨hj, hcj⟩ := List.getElem?_eq_some_iff.mp hc'
  have hlen : c.1.length = 32 := h2 _ (hcj ▸ List.getElem_mem hj)
  refine Eq.trans ?_ (e c.1 (fun s => 256 * (s * s)))
  refine congrArg List.sum (List.map_congr_left (fun s hs => ?_))
  have hs' := List.mem_zipIdx_iff_getElem?.mp hs
  obtain ⟨hv, hsv⟩ := List.getElem?_eq_some_iff.mp hs'
  have g (w : Nat) (hw : w < 64) : ((idealM I).group.getD w []).getD c.2 0 =
      (if w % 2 = 0 then 128 else -128) * (I.getD c.2 []).getD (w / 2) 0 := by
    have : c.2 < 256 := h1 ▸ hj
    simp [idealM, List.getD_eq_getElem?_getD, hw, this]
  have hI : I.getD c.2 [] = c.1 := by simp [List.getD_eq_getElem?_getD, hc']
  rw [g _ (by omega), g _ (by omega), hI, if_pos (by omega), if_neg (by omega), show 2 * s.2 / 2 = s.2 by omega,
    show (2 * s.2 + 1) / 2 = s.2 by omega, show c.1.getD s.2 0 = s.1 by simp [List.getD_eq_getElem?_getD, hs']]
  push_cast
  ring

/-- It is positive. -/
theorem ideal255_pos : 0 < (ideal255.map (fun l => (l.map (fun s => 256 * (s * s))).sum)).sum := by
  have nn : ∀ l : List Int, ∀ x ∈ l.map (fun s => 256 * (s * s)), (0 : Int) ≤ x := by
    intro l x hx
    obtain ⟨s, _, rfl⟩ := List.mem_map.mp hx
    nlinarith [mul_self_nonneg s]
  have one : (ideal255.getD 0 []).getD 0 0 = 1 := by decide +kernel
  have m0 : ideal255.getD 0 [] ∈ ideal255 := by
    rw [List.getD_eq_getElem _ _ (by rw [ideal255_shape.1]; decide)]; exact List.getElem_mem _
  have m1 : (1 : Int) ∈ ideal255.getD 0 [] := by
    have hl := ideal255_shape.2 _ m0
    rw [← one, List.getD_eq_getElem (ideal255.getD 0 []) _ (show 0 < (ideal255.getD 0 []).length by rw [hl]; decide)]; exact List.getElem_mem _
  have a : (256 : Int) ≤ ((ideal255.getD 0 []).map (fun s => 256 * (s * s))).sum :=
    List.single_le_sum (nn _) _ (List.mem_map.mpr ⟨1, m1, by decide⟩)
  have b := List.single_le_sum (l := ideal255.map (fun l => (l.map (fun s => 256 * (s * s))).sum))
    (fun x hx => by
      obtain ⟨l, _, rfl⟩ := List.mem_map.mp hx
      exact List.sum_nonneg (nn l)) _ (List.mem_map.mpr ⟨_, m0, rfl⟩)
  omega

theorem roundHalfEven_zero (n : Nat) (h : 0 < n) : roundHalfEven 0 n = 0 := by
  unfold roundHalfEven
  simp [h]

theorem springDie_gain : springDie.springGain 63 271 (idealM ideal255) = 0 := by
  unfold Die.springGain
  have p := ideal255_pos
  rw [springDie_ideal]
  simp only [gainRatio_ideal _ ideal255_shape.1 ideal255_shape.2]
  rw [if_neg (by omega), show sx 8 (springDie.get (Reg.CAL_GAIN_ACT 63 271)) = 0 by decide +kernel]
  rw [show (1000 + 0 : Int) * _ - 1000 * _ = 0 by ring]
  exact roundHalfEven_zero _ (by omega)

theorem springDie_linear : springDie.springNonlinear 63 271 (idealM ideal255) = false := by
  have r (j : Nat) : (springResiduals (idealM ideal255)).getD j 0 = 0 := by
    show ((List.replicate 264 0).map residualFor).getD j 0 = 0
    rw [List.map_replicate, show residualFor 0 = 0 by decide]
    rw [List.getD_eq_getElem?_getD, List.getElem?_replicate]
    split <;> rfl
  unfold Die.springNonlinear
  rw [springDie_ideal, List.any_eq_false]
  intro c hc
  obtain ⟨hj, hcj⟩ := List.getElem?_eq_some_iff.mp (List.mem_zipIdx_iff_getElem?.mp hc)
  have hI : (ideal255.getD c.2 []) = c.1 := by
    rw [List.getD_eq_getElem?_getD, List.mem_zipIdx_iff_getElem?.mp hc]; rfl
  have f (q x : Nat) (h : [2, 4, 8][q]? = some x) : ((idealM ideal255).full.getD q []).getD c.2 0 = 32 * (x : Int) * c.1.sum := by
    have : c.2 < 256 := ideal255_shape.1 ▸ hj
    match q with
    | 0 | 1 | 2 =>
      cases h
      rw [← hI]
      simp [idealM, List.getD_eq_getElem?_getD, this]
    | _ + 3 => simp at h
  simp only [Bool.not_eq_true, List.any_eq_false]
  intro q hq
  have z (x : Nat) (conv : Nat) (h : [2, 4, 8][q.1]? = some x) (hx : q.2.1 = x) :
      (((idealM ideal255).full.getD q.1 []).getD c.2 0 - conv * (springResiduals (idealM ideal255)).getD c.2 0) * ((1 : Nat) : Int) -
        16 * (2 * (q.2.1 : Int) * c.1.sum) = 0 := by
    rw [f _ _ h, r, hx]; push_cast; ring
  simp only [List.mem_cons, List.not_mem_nil, or_false] at hq
  rcases hq with rfl | rfl | rfl <;> simp only [z _ _ rfl rfl] <;> simp

theorem idealM_shape (I : List (List Int)) : springShapeOk (idealM I) = true := by
  unfold springShapeOk
  simp only [Bool.and_eq_true, decide_eq_true_eq, List.all_eq_true, List.mem_append]
  refine ⟨⟨⟨⟨⟨List.length_replicate, List.length_replicate⟩, by simp [idealM]⟩, List.length_replicate⟩, rfl⟩, fun v hv => ?_⟩
  rcases hv with (hv | hv) | hv
  · obtain ⟨k, _, rfl⟩ := List.mem_map.mp hv; simp
  · rw [List.eq_of_mem_replicate hv]; exact List.length_replicate
  · obtain ⟨k, _, rfl⟩ := List.mem_map.mp hv; simp

theorem idealM_offs (I : List (List Int)) : (idealM I).offs = List.replicate 264 0 := rfl

theorem springQf_idealM (I : List (List Int)) : springQf (idealM I) = springQf (idealM []) := by
  unfold springQf springResiduals
  rw [idealM_offs, idealM_offs, show (idealM I).check = (idealM []).check from rfl]

theorem springCref_idealM (d : Die) (t a : Nat) (I : List (List Int)) :
    d.springCref t a (idealM I) = d.springCref t a (idealM []) := by
  unfold Die.springCref
  rw [show (idealM I).refs = (idealM []).refs from rfl]

/-- A spring calibration that succeeds: it measures the ideal sums of an array that holds one level step. -/
theorem witness_ArrayRequests_springGood :
    ∃ (s : State) (t a : Nat) (m : SpringMeas), s.die.live = true ∧ s.die.tileRuns t = true ∧ a < 272 ∧ s.die.fwRuns = true ∧
      (s.die.arr t a).job = .spring ∧ springShapeOk m = true ∧ s.die.on (Reg.ARR_STATE_IN_PLACE t a) = false ∧
      springQf m ≤ s.die.upkeep.set.qfLim ∧ s.die.springNonlinear t a m = false ∧ s.die.springInRange t a m = true := by
  refine ⟨on springDie, 63, 271, idealM ideal255, by decide +kernel, by decide +kernel, by decide, by decide +kernel, by decide +kernel,
    ?_, by decide +kernel, ?_, springDie_linear, ?_⟩
  · exact idealM_shape _
  · rw [springQf_idealM]; decide +kernel
  · unfold Die.springInRange
    rw [show (on springDie).die = springDie from rfl, springDie_gain]
    rw [springCref_idealM, idealM_offs]; decide +kernel

/-- Array 271 has just been programmed to its manufactured levels, and verifies against them, or with a level more in cell 0. -/
def verifying (want : List (Nat × (Nat × Nat))) : Die := arrImg 2 { job := .verify want }

theorem verifying_fails (want : List (Nat × (Nat × Nat))) (n : Nat)
    (h : ((List.range cellCount).filter (fun c => decide (cellDefault c ≠ amGet (cellDefault c) want c))).length = n) :
    (verifying want).verifyCanEnd 63 271 n = true := by
  have e : (verifying want).arr 63 271 = { job := .verify want } := rfl
  have s : (verifying want).secs = 0 := by
    show (arrImg 2 {}).secs = 0
    decide +kernel
  unfold Die.verifyCanEnd
  rw [e]
  simp only [decide_eq_true_eq]
  rw [Die.failingCells_young (verifying want) (arrIx 63 271) { job := .verify want } want rfl (fun r => by rw [s]; simp)]
  exact h.symm

theorem verifying_none : (verifying []).verifyCanEnd 63 271 0 = true := verifying_fails [] 0 (by
  rw [List.length_eq_zero_iff, List.filter_eq_nil_iff]
  intro c _
  simp [amGet])

theorem verifying_one : (verifying [(0, (1, 0))]).verifyCanEnd 63 271 1 = true := verifying_fails _ 1 (by
  show ((List.range (136191 + 1)).filter _).length = 1
  rw [List.range_succ_eq_map, List.filter_cons_of_pos (by decide), List.length_cons, Nat.add_eq_right, List.length_eq_zero_iff,
    List.filter_eq_nil_iff]
  intro c hc
  obtain ⟨k, _, rfl⟩ := List.mem_map.mp hc
  simp [amGet])

/-- A verify pass that ends with no cell outside its window, and one that ends with one. -/
theorem witness_ArrayRequests_verifyDone :
    (∃ (s : State) (t a n : Nat), s.die.live = true ∧ s.die.tileRuns t = true ∧ a < 272 ∧ s.die.verifyCanEnd t a n = true ∧ n = 0) ∧
    (∃ (s : State) (t a n : Nat), s.die.live = true ∧ s.die.tileRuns t = true ∧ a < 272 ∧ s.die.verifyCanEnd t a n = true ∧ 0 < n ∧
      s.die.upkeep.withheld.contains (arrIx t a) = false) :=
  ⟨⟨on (verifying []), 63, 271, 0, by decide +kernel, by decide +kernel, by decide, verifying_none, rfl⟩,
   ⟨on (verifying [(0, (1, 0))]), 63, 271, 1, by decide +kernel, by decide +kernel, by decide, verifying_one, by decide, by decide +kernel⟩⟩

/-- A message of session 7 with this opcode and SEQ 1, no payload, and its right tag. -/
def tagged (op : Nat) : List Byte :=
  let m := natLe 4 0x4359484B ++ natLe 2 1 ++ natLe 2 op ++ natLe 4 1 ++ natLe 4 1 ++ zeros 16
  m ++ kmac [] m (ascii "KH880 YCT H2D") 16

theorem tagged_passes : (hostUp (sess 15)).yctCheck (frameOf 100 (tagged 0xFF)) = 0 := by
  have e : (hostUp (sess 15)).sessionById (leAt (tagged 0xFF) 8 4) = some (7, sess 15) := by decide +kernel
  unfold Die.yctCheck
  simp only [show (frameOf 100 (tagged 0xFF)).data = tagged 0xFF from rfl]
  rw [if_neg (by decide +kernel), if_neg (by decide +kernel), if_neg (by decide +kernel), e]
  show (if leAt (tagged 0xFF) 4 1 ≠ 1 then 2 else if _ then 0 else 5) = 0
  rw [if_neg (by decide +kernel), if_pos]
  rfl

/-- A message of an open session with an opcode that is reserved, past its tag. -/
theorem witness_PortFrames_reservedOpcode :
    ∃ (s : State) (f : Frame) (p op n : Nat) (x : Session), s.die.live = true ∧ s.die.portUp = true ∧ s.die.dropsL2 f = false ∧
      frameIsUdp f = true ∧ s.die.netOk f = true ∧ framePrio f = p ∧ s.die.fill p + f.len ≤ 262144 ∧ leAt f.data 6 1 = op ∧
      s.die.yctCheck f = 0 ∧ hostOpcodes.contains op = false ∧ s.die.sessionById (leAt f.data 8 4) = some (n, x) ∧
      s.die.session n = some x ∧ seqOk x (leAt f.data 12 4) = true ∧ max x.hiSeq (leAt f.data 12 4) < 0xFFFFFF00 :=
  ⟨on (hostUp (sess 15)), frameOf 100 (tagged 0xFF), 7, 0xFF, 7, sess 15, by decide +kernel, by decide +kernel, by decide +kernel,
    by decide +kernel, by decide +kernel, by decide +kernel, by decide +kernel, by decide +kernel, tagged_passes, by decide +kernel,
    by decide +kernel, by decide +kernel, by decide +kernel, by decide +kernel⟩

/-- A relay that receives, with 65 shards of 4 MB to be forwarded. -/
def fullRelay : Relay := { state := rsReceiving, upLink := 5, last := 5, fwd := List.replicate 65 (0, List.replicate 4194304 0) }

theorem fullRelay_full (n : Nat) : fullRelay.full n = true := by
  have h : (fullRelay.fwd.map (fun p => p.2.length)).sum = 272629760 := by
    unfold fullRelay
    simp only [List.map_replicate, List.length_replicate, List.sum_replicate]
    decide
  unfold Relay.full
  rw [h, decide_eq_true_eq]
  omega

/-- The relay's buffers are full. -/
theorem witness_ShardsAreKept_full :
    ∃ (s : State) (sh : List Byte) (seq : Nat), s.die.live = true ∧ s.die.fwRuns = true ∧ leAt sh 4 4 = seq ∧
      s.die.relay.state = rsReceiving ∧ shardOk sh = true ∧ s.die.relay.got.contains seq = false ∧
      s.die.relay.outside sh = false ∧ s.die.relay.full sh.length = true :=
  ⟨on { die6 with relay := fullRelay }, shardOf 5 1 0, 5, by decide +kernel, by decide +kernel, by decide +kernel, by decide +kernel,
    by decide +kernel, by decide +kernel, by decide +kernel, fullRelay_full _⟩

theorem leNat_four_lt (a b c d : Byte) : leNat [a, b, c, d] < 2 ^ 32 := by
  have := a.isLt; have := b.isLt; have := c.isLt; have := d.isLt
  simp only [leNat]; omega

/-- Session 7 of an owner key. -/
def ownerDie : Die := ((hostUp (sess 15)).raise (Reg.SEC_SLOT_ACTIVE 0)).raise (Reg.SEC_SLOT_OWNER 0)

/-- The same with SEC_KEY_CHK holding this value. -/
def keyDie (x : Word) : Die := { ownerDie with regs := (Reg.SEC_KEY_CHK, x) :: ownerDie.regs }

/-- The key that session 7 unwraps for slot 7. -/
def unwrapped (d : Die) : List Byte :=
  let wrapped := ((List.range 8).map (fun w => natLe 4 (amGet 0 d.sec.keyData w).toNat)).flatten
  let pad := kmac (d.sessionKey (.session 7)) (natLe 1 7 ++ natLe 4 (d.getW Reg.SEC_KEY_CNT).toNat) (ascii "KH880 key wrap") 32
  (wrapped.zip pad).map (fun p => p.1 ^^^ p.2)

/-- Its check value. -/
def keyCheck : Nat := leNat (kmac (unwrapped ownerDie) [] (ascii "KH880 key check") 4)

/-- A key write that passes: the owner session's word for slot 7 with attributes ACTIVE and OWNER, and its right check value. -/
theorem witness_SecurityBlock_keyWritten :
    ∃ (s : State) (ag : Agent) (w : Nat), s.die.live = true ∧ s.die.mayWrite ag = true ∧ w < 2 ^ 32 ∧ s.die.isOwner ag = true ∧
      bit w 31 = true ∧ (s.die.keyResult ag (bits w 0 3) (bits w 4 3)).1 = 0 := by
  refine ⟨on (keyDie (w32 keyCheck)), .session 7, 0x80000037, by decide +kernel, by decide +kernel, by decide, by decide +kernel,
    by decide, ?_⟩
  show ((keyDie (w32 keyCheck)).keyResult (.session 7) 7 3).1 = 0
  have h0 : (keyDie (w32 keyCheck)).secState = 0 := by decide +kernel
  have h1 : ((keyDie (w32 keyCheck)).getW Reg.SEC_KEY_CHK).toNat = leNat (kmac (unwrapped (keyDie (w32 keyCheck))) [] (ascii "KH880 key check") 4) := by
    have e : (keyDie (w32 keyCheck)).getW Reg.SEC_KEY_CHK = w32 keyCheck := rfl
    have c : (keyDie (w32 keyCheck)).getW Reg.SEC_KEY_CNT = ownerDie.getW Reg.SEC_KEY_CNT := rfl
    have u : unwrapped (keyDie (w32 keyCheck)) = unwrapped ownerDie := by unfold unwrapped; rw [c]; rfl
    rw [e, u, w32, BitVec.toNat_ofNat, Nat.mod_eq_of_lt (show keyCheck < 2 ^ 32 from leNat_four_lt _ _ _ _)]
    rfl
  have h2 : (keyDie (w32 keyCheck)).ownersWith 7 3 = true := by decide +kernel
  unfold Die.keyResult
  unfold unwrapped at h1
  simp only [h0, h1, h2, ne_eq, not_true_eq_false, if_false, Bool.true_eq_false]

/-- An image of 256 bytes with a signature of 2,500 (R543). -/
def fwImage : List Byte :=
  natLe 4 0x5746484B ++ natLe 2 1 ++ natLe 2 256 ++ natLe 4 256 ++ natLe 4 7 ++ natLe 4 0xFFFFFFFF ++ natLe 4 0 ++ natLe 4 0x10 ++ zeros 2728

/-- Where the signature verifies, an image passes every check. -/
theorem fwImage_passes (d : Die) (h : Config.xmssVerify 0 0x10 (fwImage.take 256) (fwImage.drop 256) = true)
    (hr : bit (d.get Reg.SEC_ROOT_REVOKE_REVOKED) 0 = false) (hs : (d.getW Reg.SEC_SVN_MIN).toNat ≤ 0xFFFFFFFF)
    (hn : d.get Reg.SEC_STATUS_STATE = 0) : d.imageDetail fwImage = 0 := by
  have l : leAt fwImage 8 4 = 256 := by decide +kernel
  have r : leAt fwImage 20 1 = 0 := by decide +kernel
  have o : leAt fwImage 24 4 = 0x10 := by decide +kernel
  have v : leAt fwImage 16 4 = 0xFFFFFFFF := by decide +kernel
  unfold Die.imageDetail
  simp only [l, r, o, v, h, hr, hn]
  rw [if_neg (by decide +kernel), if_neg (by decide +kernel), if_neg (by decide +kernel), if_neg (by decide), if_neg (by omega)]
  try decide

/-- A module in a resume. -/
def resumeBase : Die := { die6.put Reg.BOOT_STAGE_STAGE 7 with boot := { running := 4 } }

/-- The same with the image as its resume copy. -/
def resumeDie : Die := { resumeBase with mem := (resumeBase.setBytes fwArea fwImage).mem }

theorem fwImage_length : fwImage.length = 2756 := by decide +kernel

theorem resumeDie_bytes (a n : Nat) (h : a + n ≤ 2756) : resumeDie.bytesAt (fwArea + a) n = (fwImage.drop a).take n := by
  have e : resumeDie = resumeBase.setBytes fwArea fwImage := (Die.setBytes_eq _ _ _).symm
  refine List.ext_getElem (by simp [Die.bytesAt, fwImage_length]; omega) (fun i h1 h2 => ?_)
  simp only [Die.bytesAt, List.getElem_map, List.getElem_range, List.getElem_take, List.getElem_drop]
  rw [e, Nat.add_assoc]
  exact Die.byteAt_setBytes_in _ fwImage fwArea (a + i) (by
    rw [fwImage_length]; simp [Die.bytesAt] at h1; omega)

theorem resumeDie_copy : resumeDie.resumeBytes = fwImage := by
  have n : resumeDie.leMem (fwArea + 8) 4 = 256 := by
    rw [Die.leMem, resumeDie_bytes 8 4 (by decide)]; decide +kernel
  have o : resumeDie.leMem (fwArea + 24) 4 = 0x10 := by
    rw [Die.leMem, resumeDie_bytes 24 4 (by decide)]; decide +kernel
  unfold Die.resumeBytes
  rw [n, o]
  show resumeDie.bytesAt (fwArea + 0) 2756 = fwImage
  rw [resumeDie_bytes 0 2756 (by decide), List.drop_zero, ← fwImage_length, List.take_length]

theorem witness_ImageAccepted (h : Config.xmssVerify 0 0x10 (fwImage.take 256) (fwImage.drop 256) = true) :
    (∃ s : State, s.die.live = true ∧ s.die.stage = 2 ∧ s.die.imageDetail s.die.boot.image = 0) ∧
    (∃ s : State, s.die.live = true ∧ s.die.stage = 7 ∧ s.die.boot.running = 4 ∧ s.die.dramUp = true ∧
      s.die.imageDetail s.die.resumeBytes = 0) := by
  refine ⟨⟨on { die0.put Reg.BOOT_STAGE_STAGE 2 with boot := { image := fwImage } }, by decide +kernel, by decide +kernel,
    fwImage_passes _ h (by decide +kernel) (by decide +kernel) (by decide +kernel)⟩,
   ⟨on resumeDie, by decide +kernel, by decide +kernel, by decide +kernel, by decide +kernel, ?_⟩⟩
  show resumeDie.imageDetail resumeDie.resumeBytes = 0
  rw [resumeDie_copy]
  exact fwImage_passes _ h (by decide +kernel) (by decide +kernel) (by decide +kernel)

/-- A golden copy with one image whose stored check value is `x`. -/
def goldenBox (x : Byte) : Die := (chartBox rsReady [0]).setByte (goldEntry 0 0 + 20) x

theorem bytesAt_goldenBox (x : Byte) (a n : Nat) (h : a + n ≤ goldEntry 0 0 + 20 ∨ goldEntry 0 0 + 20 < a) :
    (goldenBox x).bytesAt a n = (chartBox rsReady [0]).bytesAt a n := by
  unfold Die.bytesAt
  refine List.map_congr_left (fun i hi => ?_)
  have := List.mem_range.mp hi
  exact Die.byteAt_setByte_ne _ x (by omega)

theorem witness_ChartCommands_badImage :
    ∃ (s : State) (box : Nat), s.die.boxReady box = true ∧ s.die.relay.state = rsReady ∧ s.die.badImages ≠ [] := by
  have same (x : Byte) : (goldenBox x).imageBytes 0 0 = (chartBox rsReady [0]).imageBytes 0 0 := by
    unfold Die.imageBytes
    rw [bytesAt_goldenBox x _ _ (by decide), bytesAt_goldenBox x _ _ (by decide), bytesAt_goldenBox x _ _ (by decide)]
  have bad (x : Byte) (h : crc32c ((chartBox rsReady [0]).imageBytes 0 0) ≠ (goldenBox x).goldField 0 0 20 4) :
      (goldenBox x).badImages ≠ [] := by
    unfold Die.badImages
    show List.filter _ [0] ≠ []
    rw [List.filter_cons, if_pos (by simpa [same] using h)]
    exact List.cons_ne_nil _ _
  by_cases h : crc32c ((chartBox rsReady [0]).imageBytes 0 0) = 0
  · exact ⟨on (goldenBox 1), 63, by decide +kernel, by decide +kernel, bad 1 (by rw [h]; decide +kernel)⟩
  · exact ⟨on (goldenBox 0), 63, by decide +kernel, by decide +kernel,
      bad 0 (by rw [show (goldenBox 0).goldField 0 0 20 4 = 0 by decide +kernel]; exact h)⟩

/-! ### Worked examples of the spec. Every expected result stands in the spec's text at the rule named. -/

/-- The check values of R414 over the nine ASCII bytes 123456789. -/
theorem test_check_values :
    crc32c (ascii "123456789") = 0xE3069283 ∧
    crcResult ((ascii "123456789").foldl (fun s b => feedByte s b.toNat 32 0x04C11DB7 true) 0xFFFFFFFF) 32 true true 0xFFFFFFFF = 0xCBF43926 ∧
    crcResult ((ascii "123456789").foldl (fun s b => feedByte s b.toNat 16 0x1021 false) 0xFFFF) 16 false false 0 = 0x29B1 := by
  decide +kernel

/-- The digits of 127, -128 and -1 (the example of the chapter on arrays). -/
theorem test_digits :
    [127, -128, -1].map (fun x => (lowDigit x, highDigit x)) = [(-1, 8), (0, -8), (-1, 0)] := by decide

/-- The codes of column 37 in the example of R93: split halves, the whole phase 0 unsplit, and phase 1, at 16 units a code. -/
theorem test_column_codes :
    ([1402, 908, 2310, -344] : List Int).map (fun x => Int.fdiv (Int.fdiv (2 * (2000 * x)) ((stepsPer 1 * 2 ^ 5 : Nat) : Int) + 500) 1000) =
      [88, 57, 144, -21] := by decide

/-- The rows of block 0 that seed 1 negates, and the start of block 1 (the example of R132). -/
theorem test_rotation_signs :
    bitsSet 32 ((signWords 1 0).getD 0 0) = [0, 5, 13, 18] ∧ (signWords 1 1).getD 0 0 = xorshift32 0x9E3779B8 := by decide +kernel

/-- A Shingle-4 block of 0.9, -0.3, 0.07 and 0.5: scale 0x61, elements 6, -2, 0 and 4, first byte 0xE6 (the example of R149). -/
theorem test_shingle4_block :
    (shingleQuantise ([0x3F666666, 0xBE99999A, 0x3D8F5C29, 0x3F000000] ++ List.replicate 28 0) 7).1 = 0x61 ∧
    (shingleQuantise ([0x3F666666, 0xBE99999A, 0x3D8F5C29, 0x3F000000] ++ List.replicate 28 0) 7).2.1.take 5 = [6, -2, 0, 4, 0] ∧
    (elementBytes false [6, -2, 0, 4]).take 1 = [0xE6] := by decide +kernel

/-- Unit 3, logical array 12: the place of its weights and its golden page (the example of R260). -/
theorem test_golden_place : goldWeights 3 12 = 0x3FB40C0000 ∧ goldPage 3 12 = 0x2FB40C0 := by decide

/-- The address of R384's example. -/
theorem test_dram_place : (dramPlace 0x1234567890).edge = 6 ∧ dramPlace 0x1234567890 =
    { stack := 1, half := 1, channel := 24, pseudo := 1, sid := 2, group := 3, bank := 0, row := 1128, column := 1, byte := 16 } := by
  decide

/-- The step of the example of R379: tenant 41's chunk and decode berths, tenant 7's decode berths. -/
def exampleStep : StepRec :=
  let b (n tenant start ntok : Nat) : Berth :=
    { berth := n, ctx := n, tenant := tenant, kind := 1, start := start, ntok := ntok, final := false, result := none }
  { step := 0, start := some 0, stop := some 1638400,
    berths := [b 256 41 0 512] ++ (List.range 100).map (fun i => b i 41 3999 1) ++ (List.range 150).map (fun i => b (100 + i) 7 9999 1) }

/-- The shares of 892,928 uJ (the example of R379). -/
theorem test_energy_shares :
    stepShares { window := 60, tokW := 4096, attW := 1, pIdle := 85000, ring := 0 } exampleStep 892928 = [(41, 526501), (7, 366426)] := by
  decide +kernel

/-- The same within the window of 20 ms and 12,600,000 uJ: the step's energy is 892,928 uJ, and SYSTEM takes the rest. -/
theorem test_energy_window :
    windowShares { window := 60, tokW := 4096, attW := 1, pIdle := 85000, ring := 0 } [exampleStep] 12600000 0 20000000 =
      [(41, 526501), (7, 366426), (sysTenant, 12600000 - 526501 - 366426)] := by
  decide +kernel

/-- Module A of the example of R463, at (3, 5, 2), its two Y cables exchanged. -/
def swappedDie : Die :=
  let link (k planC planP partC partP : Nat) (d : Die) : Die :=
    (((((((d.raise (Reg.LNK_PLAN_VALID k)).put (Reg.LNK_PLAN_COORD k) planC).put (Reg.LNK_PLAN_PORT k) planP).raise
      (Reg.LNK_PARTNER_VALID k)).raise (Reg.LNK_PARTNER_CVALID k)).put (Reg.LNK_PARTNER_COORD k) partC).put (Reg.LNK_PARTNER_PORT k) partP).putW
        (Reg.LNK_PARTNER_SERIAL_LO k) 7
  link 3 (3 + 32 * 4 + 1024 * 2) 2 (3 + 32 * 6 + 1024 * 2) 3
    (link 2 (3 + 32 * 6 + 1024 * 2) 3 (3 + 32 * 4 + 1024 * 2) 2 die0)

/-- Both exchanged cables read SWAPPED at A. -/
theorem test_swapped_cables : swappedDie.checkCode 2 = 2 ∧ swappedDie.checkCode 3 = 2 := by decide +kernel

/-! ### Ill-formed commands: one for each check of WellFormed.lean, and the same command well formed -/

/-- Every check refuses a term that breaks it alone. -/
theorem test_ill_formed_refused :
    ([.tilePark .j3 64, .laneGroupGrant 64, .grantExpiry 63 64 0, .strokeIssue 63 272, .unmap 63 256, .linkStopped 6, .stepLog 64,
      .eventFlush 8, .coordWrite .j3 (2 ^ 32), .crcFeed16 .j3 (.edge 7) 65536, .crcFeed8 .j3 (.edge 7) 256, .dramRefresh 2,
      .rgnWrite .j3 63 255 false 0, .chStart .j3 .edge 32, .arrColmapWrite .j3 63 271 8 0, .offrWrite .j3 63 271 66 0, .ptbArm .j3 6,
      .sarPowerDown 2, .railFault 10 true, .pfcRepeat 8, .flitReceive 5 { corrected := 0, uncorrected := 0, bytes := List.replicate 255 0 }, .entdaa 128, .ctxPark 63 (2 ^ 32), .tenantStatus 63 4096, .berthResult 0x7FF,
      .steerLoad 63 (2 ^ 64), .packetHop 72 0, .threadClassWrite .j3 63 63 (2 ^ 32), .packetInject (.tile 63) (.edge 71 7) 3 4095 { addr := 0, data := [] } false,
      .bulkClose { slot := 7, seq := 1, len := 8 } 4, .bulkOpen { slot := 7, seq := 1, len := 24 } 254 true 0 1, .sarConversionDone 1 4096,
      .packetSramAccess 63 false (2 ^ 32) 1 [], .mbxPost { slot := 7, seq := 1, len := 264 } 63 (List.replicate 257 0),
      .attest 63 (List.replicate 31 0), .verify (.session 8), .verify (.tileProgram 64), .dmaBeat (.tile 64), .crcInit .j3 (.edge 8),
      .crcInit .j3 (.tile 64), .close { slot := 8, seq := 1, len := 0 }, .close { slot := 7, seq := 2 ^ 32, len := 0 },
      .packetInject (.tile 64) (.edge 71 7) 0 0 { addr := 0, data := [] } false, .packetInject (.tile 63) (.edge 72 7) 0 0 { addr := 0, data := [] } false,
      .packetInject (.tile 63) (.edge 63 7) 0 0 { addr := 0, data := [] } false, .packetInject (.tile 63) (.edge 71 8) 0 0 { addr := 0, data := [] } false] : List Instr).all (fun i => !i.wf) = true := by
  decide +kernel

/-- At the last value each check allows, the same commands are well formed. -/
theorem test_well_formed_accepted :
    ([.tilePark .j3 63, .laneGroupGrant 63, .grantExpiry 63 63 0, .strokeIssue 63 271, .unmap 63 255, .linkStopped 5, .stepLog 63,
      .eventFlush 7, .coordWrite .j3 (2 ^ 32 - 1), .crcFeed16 .j3 (.edge 7) 65535, .crcFeed8 .j3 (.edge 7) 255, .dramRefresh 1,
      .rgnWrite .j3 63 254 false 0, .chStart .j3 .edge 31, .arrColmapWrite .j3 63 271 7 0, .offrWrite .j3 63 271 65 0, .ptbArm .j3 5,
      .sarPowerDown 1, .railFault 9 true, .pfcRepeat 7,
      .flitReceive 5 { corrected := 0, uncorrected := 0, bytes := List.replicate 256 0 }, .entdaa 127, .ctxPark 63 (2 ^ 32 - 1), .tenantStatus 63 4095, .berthResult 0x7FE,
      .steerLoad 63 (2 ^ 64 - 1), .packetHop 71 0, .threadClassWrite .j3 63 63 (2 ^ 32 - 1),
      .packetInject (.tile 63) (.edge 71 7) 2 4095 { addr := 0, data := [] } false, .bulkClose { slot := 7, seq := 1, len := 8 } 3,
      .bulkOpen { slot := 7, seq := 1, len := 24 } 255 true 0 1, .sarConversionDone 1 4095, .packetSramAccess 63 false (2 ^ 32 - 1) 1 [],
      .mbxPost { slot := 7, seq := 1, len := 264 } 63 (List.replicate 256 0), .attest 63 (List.replicate 32 0), .verify (.session 7),
      .verify (.tileProgram 63), .dmaBeat (.tile 63), .crcInit .j3 (.edge 7), .crcInit .j3 (.tile 63),
      .close { slot := 7, seq := 2 ^ 32 - 1, len := 0 }] : List Instr).all Instr.wf = true := by
  decide +kernel

end Sys2Proof.Tests
end

section
/-! SUPPORT. What the statements on the scope of the model share: a command that a tile accepts, what frames say of fields and of
parts of the die, and the registers that lie outside those a record moves. -/
namespace Sys2Proof.Machine

/-! ### Frames -/

/-- A field of a register outside the list keeps its value. -/
theorem OnlyRegs.get {rs : List Nat} {d e : Die} (h : OnlyRegs rs d e) {f : Fld} (hf : f.addr ∉ rs) : e.get f = d.get f := by
  simp only [Die.get, h f.addr hf]

theorem LogsOnly.boot {d e : Die} (h : LogsOnly d e) : e.boot = d.boot := by rw [h]
theorem LogsOnly.clock {d e : Die} (h : LogsOnly d e) : e.clock = d.clock := by rw [h]
theorem LogsOnly.tide {d e : Die} (h : LogsOnly d e) : e.tide = d.tide := by rw [h]
theorem LogsOnly.links {d e : Die} (h : LogsOnly d e) : e.links = d.links := by rw [h]

theorem OnlyRegs.emit {rs : List Nat} {d e : Die} (h : OnlyRegs rs d e) (o : Out) : OnlyRegs rs d (e.emit o) :=
  fun a ha => (Die.emit_getW e o a).trans (h a ha)

theorem OnlyRegs.answer {rs : List Nat} {d e : Die} (h : OnlyRegs rs d e) (ag : Agent) (c : Nat) :
    OnlyRegs rs d (e.answer ag c) := h.emit (.status ag c)

theorem LogsOnly.foldl {β : Type} {f : Die → β → Die} (hf : ∀ e x, LogsOnly e (f e x)) (l : List β) (d : Die) :
    LogsOnly d (l.foldl f d) :=
  List.foldlRecOn l f (LogsOnly.refl d) fun e he x _ => he.trans (hf e x)

theorem OnlyRegs.foldl {β : Type} {rs : List Nat} {f : Die → β → Die} {l : List β}
    (hf : ∀ e, ∀ x ∈ l, OnlyRegs rs e (f e x)) (d : Die) : OnlyRegs rs d (l.foldl f d) :=
  List.foldlRecOn l f (OnlyRegs.refl rs d) fun e he x hx => he.trans (hf e x hx)

/-- A one-bit field raised, and the writer answered: the field reads 1, and nothing else of its register, no other register and no
byte of memory moves. -/
theorem Die.raise_answer_effect (d : Die) (f : Fld) (ag : Agent) (c : Nat) (hw : f.width = 1) (hf : f.lo + f.width ≤ 32) :
    ((d.raise f).answer ag c).get f = 1 ∧ OnlyRegs [f.addr] d ((d.raise f).answer ag c) ∧
      SameMem d ((d.raise f).answer ag c) ∧ OtherBits f d ((d.raise f).answer ag c) := by
  refine ⟨?_, (onlyRegs_put d 1 (List.mem_singleton_self _)).answer ag c, SameMem.refl d, otherBits_put d f 1 hf⟩
  rw [Die.answer_get, Die.raise_eq, Die.get_put_same d f 1 hf, hw]
  rfl

/-- The registers that records move lie below the windows of the tiles. -/
theorem logRegs_lt_tileAddr {a : Nat} (h : a ∈ logRegs) (t : Nat) : a < tileAddr t := by
  have hlow : ∀ b ∈ logRegs, b < 0x0100000000 := by decide
  have := hlow a h
  unfold tileAddr
  omega

/-! ### Commands that write a register of a tile -/

theorem Die.lt_of_enabled {d : Die} {t : Nat} (h : d.enabled t = true) : t < 64 := by
  simp only [Die.enabled, Bool.and_eq_true, decide_eq_true_eq] at h
  exact h.1

/-- Nothing stops a write in the window of a tile that accepts accesses. -/
theorem Die.windowStop_eq_none {d : Die} {t : Nat} (h : d.tileAnswers t = true) (ag : Agent) (a w : Nat) :
    d.windowStop ag t a w = none := by
  simp only [Die.tileAnswers, Bool.and_eq_true, Bool.not_eq_true'] at h
  obtain ⟨⟨⟨hen, hready⟩, hpark⟩, hheld⟩ := h
  simp [Die.windowStop, hen, hready, hpark, hheld]

/-- A register write that the tile accepts, with operands in range, has its effect. -/
theorem tileCmd_ok {ag : Agent} {t a w : Nat} {ok : Bool} {f : Die → Die} {s : State} (hl : s.die.live = true)
    (hw : s.die.tileWrite ag t = true) (hok : ok = true) : tileCmd ag t a w ok f s = .next { s with die := f s.die } := by
  simp only [Die.tileWrite, Bool.and_eq_true] at hw
  obtain ⟨hctl, hans⟩ := hw
  have hen : s.die.enabled t = true := by
    simp only [Die.tileAnswers, Bool.and_eq_true] at hans
    exact hans.1.1.1
  unfold tileCmd
  rw [mainCmd_ok hl (by simp [hctl, hok, Die.lt_of_enabled hen])]
  simp [Die.tileWindow, Die.windowStop_eq_none hans]

end Sys2Proof.Machine
end

section
/-! PROOFS. Writes of array registers (R109, R113, R117, R120, R121, R156, R163). -/
namespace Sys2Proof.Machine

/-! ### The commands -/

section
variable {s : State} {ag : Agent} {t a : Nat}

theorem exec_arrCfgWrite (hl : s.die.live = true) (hw : s.die.tileWrite ag t = true) (ha : a < 272) (w : Nat) :
    exec (.arrCfgWrite ag t a w) s = .next { s with die := s.die.arrCfgWrite ag t a w } :=
  tileCmd_ok hl hw (by simpa using ha)

theorem exec_arrCntClr (hl : s.die.live = true) (hw : s.die.tileWrite ag t = true) (ha : a < 272) :
    exec (.arrCntClr ag t a) s = .next { s with die := (s.die.raise (Reg.ARR_STATUS_CNT_CLR t a)).answer ag stOk } :=
  tileCmd_ok hl hw (by simpa using ha)

theorem exec_arrPredMaxClr (hl : s.die.live = true) (hw : s.die.tileWrite ag t = true) (ha : a < 272) :
    exec (.arrPredMaxClr ag t a) s =
      .next { s with die := (s.die.modArr t a (fun x => { x with predClr := true })).answer ag stOk } :=
  tileCmd_ok hl hw (by simpa using ha)

theorem exec_arrColmapWrite (hl : s.die.live = true) (hw : s.die.tileWrite ag t = true) (ha : a < 272) {sp : Nat} (hsp : sp < 8)
    (w : Nat) : exec (.arrColmapWrite ag t a sp w) s = .next { s with die := s.die.colmapWrite ag t a sp w } :=
  tileCmd_ok hl hw (by simp [ha, hsp])

theorem exec_offrWrite (hl : s.die.live = true) (hw : s.die.tileWrite ag t = true) (ha : a < 272) {v : Nat} (hv : v < 66)
    (w : Nat) : exec (.offrWrite ag t a v w) s = .next { s with die := s.die.plainWrite ag (Reg.ENG_OFFR t a v) w t } :=
  tileCmd_ok hl hw (by simp [ha, hv])

theorem exec_engArithCntClr (hl : s.die.live = true) (hw : s.die.tileWrite ag t = true) :
    exec (.engArithCntClr ag t) s = .next { s with die := (s.die.raise (Reg.ENG_ARITH_CTRL_CNT_CLR t)).answer ag stOk } :=
  tileCmd_ok hl hw rfl

end

/-! ### ARR_CFG and ARR_COLMAP -/

variable (d : Die) (ag : Agent) (t a sp w : Nat)

theorem Die.arrCfgWrite_of_busy (h : d.arrState t a = asServing ∨ d.arrState t a = asCalibrating) :
    d.arrCfgWrite ag t a w = (d.recordA 0x11 3 t a ag (Reg.ARR_CFG t a) w stBusy).answer ag stBusy := if_pos h

theorem Die.arrCfgWrite_of_idle (h1 : d.arrState t a ≠ asServing) (h2 : d.arrState t a ≠ asCalibrating) :
    d.arrCfgWrite ag t a w = d.plainWrite ag (Reg.ARR_CFG t a) w t := if_neg (not_or.2 ⟨h1, h2⟩)

/-- The word that a write of `w` leaves in the ARR_COLMAP of spare `sp` that held `old`: VALID stays where PROG_OK is 0 and it would
be set, COL where it lies outside the spare's range (R109, R121). -/
def colmapWord (old sp w : Nat) : Nat :=
  let n := if bit w 31 && !bit old 30 then old else setBits old 31 1 (w / 2 ^ 31)
  if w % 256 / 32 ≠ sp then n else setBits n 0 8 w

theorem colmapWord_lt {old : Nat} (h : old < 2 ^ 32) : colmapWord old sp w < 2 ^ 32 := by
  have hn : (if bit w 31 && !bit old 30 then old else setBits old 31 1 (w / 2 ^ 31)) < 2 ^ 32 := by
    split
    · exact h
    · exact setBits_lt _ _ _ _ 32 h (by decide)
  unfold colmapWord
  dsimp only
  split
  · exact hn
  · exact setBits_lt _ _ _ _ 32 hn (by decide)

/-- VALID of the word is that of the word `n` which the COL field is then written into. -/
theorem bits_colmapWord_valid (old : Nat) : bits (colmapWord old sp w) 31 1 =
    bits (if bit w 31 && !bit old 30 then old else setBits old 31 1 (w / 2 ^ 31)) 31 1 := by
  unfold colmapWord
  dsimp only
  split
  · rfl
  · exact bits_setBits_above _ _ _ _ _ _ (by decide)

/-- VALID cannot be set while PROG_OK is 0. -/
theorem bits_colmapWord_refused {old w : Nat} (hw : bit w 31 = true) (hp : bit old 30 = false) :
    bits (colmapWord old sp w) 31 1 = bits old 31 1 := by
  rw [bits_colmapWord_valid]
  simp [hw, hp]

/-- VALID is written where PROG_OK is 1. -/
theorem bits_colmapWord_accepted {old : Nat} (hp : bit old 30 = true) : bits (colmapWord old sp w) 31 1 = bits w 31 1 := by
  rw [bits_colmapWord_valid]
  simp only [hp, Bool.not_true, Bool.and_false, Bool.false_eq_true, if_false, bits_setBits_same]
  rfl

/-- COL is written where it lies in the spare's range. -/
theorem bits_colmapWord_col (old : Nat) (h : w % 256 / 32 = sp) : bits (colmapWord old sp w) 0 8 = w % 256 := by
  simp [colmapWord, h]

/-- A field of ARR_COLMAP that software writes. -/
def colmapField (lo width : Nat) : FieldSpec :=
  { lo := lo, width := width, acc := .rw, onReset := .plain, reset := 0, legal := [] }

/-- The fields of a write of ARR_COLMAP that are refused: VALID and COL (R14). -/
def colmapRefused (old sp w : Nat) : List FieldSpec :=
  (if bit w 31 && !bit old 30 then [colmapField 31 1] else []) ++
  (if w % 256 / 32 ≠ sp then [colmapField 0 8] else [])

/-- A write of ARR_COLMAP stores its word, records what it refuses and answers OK. -/
theorem Die.colmapWrite_eq : d.colmapWrite ag t a sp w =
    ((d.putW (Reg.ARR_COLMAP t a sp) (w32 (colmapWord (d.getW (Reg.ARR_COLMAP t a sp)).toNat sp w))).recordRefused ag
      (Reg.ARR_COLMAP t a sp) w t (colmapRefused (d.getW (Reg.ARR_COLMAP t a sp)).toNat sp w)).answer ag stOk := by
  simp only [Die.colmapWrite, Die.recordRefused, colmapRefused, colmapWord, decide_eq_true_eq]
  split <;> split <;> rfl

theorem Die.colmapWrite_sameMem : SameMem d (d.colmapWrite ag t a sp w) := by
  rw [Die.colmapWrite_eq]
  exact ((logsOnly_putW _ _ _).trans (Die.recordRefused_logsOnly _ _ _ _ _ _)).sameMem

theorem Die.colmapWrite_onlyRegs : OnlyRegs (Reg.ARR_COLMAP t a sp :: logRegs) d (d.colmapWrite ag t a sp w) := by
  rw [Die.colmapWrite_eq]
  exact ((onlyRegs_putW d _ List.mem_cons_self).trans
    ((Die.recordRefused_onlyRegs _ _ _ _ _ _).mono fun _ h => List.mem_cons_of_mem _ h)).answer ag stOk

/-- A write that refuses nothing moves its register alone. -/
theorem Die.colmapWrite_onlyRegs_of_accepted (hp : bit (d.getW (Reg.ARR_COLMAP t a sp)).toNat 30 = true)
    (hc : w % 256 / 32 = sp) : OnlyRegs [Reg.ARR_COLMAP t a sp] d (d.colmapWrite ag t a sp w) := by
  have hnone : colmapRefused (d.getW (Reg.ARR_COLMAP t a sp)).toNat sp w = [] := by simp [colmapRefused, hp, hc]
  rw [Die.colmapWrite_eq, hnone]
  exact (onlyRegs_putW d _ (List.mem_singleton_self _)).answer ag stOk

theorem Die.colmapWrite_word : ((d.colmapWrite ag t a sp w).getW (Reg.ARR_COLMAP t a sp)).toNat =
    colmapWord (d.getW (Reg.ARR_COLMAP t a sp)).toNat sp w := by
  have hlog : Reg.ARR_COLMAP t a sp ∉ logRegs := fun h => by
    have := logRegs_lt_tileAddr h t
    unfold Reg.ARR_COLMAP arrAddr at this
    omega
  rw [Die.colmapWrite_eq, Die.answer_getW, Die.recordRefused_onlyRegs _ _ _ _ _ _ _ hlog, Die.getW_putW_same]
  exact w32_toNat_of_lt (colmapWord_lt sp w (d.getW _).isLt)

theorem Die.colmapWrite_answer : (d.colmapWrite ag t a sp w).out.head? = some (.status ag stOk) := by
  rw [Die.colmapWrite_eq]
  rfl

/-! ### The statement -/

/-- Settles O20: each write comes to its effect on the tile's window, and what it moves is read off that effect. -/
theorem arrayRegisterWritesKeepTheirRules : Obligations.ArrayRegisterWritesKeepTheirRules := by
  intro s ag t a w hl hw ha _
  refine ⟨fun hb => ?_, fun h1 h2 => ?_, ?_, ?_, fun sp hsp hv hp => ?_, fun sp hsp hp hc => ?_, fun v hv => ?_, ?_,
    fun sp hsp => exec_arrColmapWrite hl hw ha hsp w⟩
  · refine ⟨_, exec_arrCfgWrite hl hw ha w, ?_⟩
    simp only [Die.arrCfgWrite_of_busy s.die ag t a w hb]
    exact ⟨Die.recordA_onlyRegs _ _ _ _ _ _ _ _ _, (Die.recordA_logsOnly _ _ _ _ _ _ _ _ _).sameMem,
      Die.recordA_recorded _ _ _ _ _ _ _ _ _, rfl⟩
  · have hexec := exec_arrCfgWrite hl hw ha w
    rw [Die.arrCfgWrite_of_idle s.die ag t a w h1 h2] at hexec
    exact ⟨hexec, _, hexec, Die.plainWrite_onlyRegs _ _ _ _ _, (Die.plainWrite_logsOnly _ _ _ _ _).sameMem⟩
  · exact ⟨_, exec_arrCntClr hl hw ha, Die.raise_answer_effect s.die (Reg.ARR_STATUS_CNT_CLR t a) ag stOk rfl le_rfl⟩
  · exact ⟨_, exec_arrPredMaxClr hl hw ha, by simp, rfl, SameMem.refl _⟩
  · refine ⟨_, exec_arrColmapWrite hl hw ha hsp w, Die.colmapWrite_sameMem _ _ _ _ _ _, ?_,
      Die.colmapWrite_onlyRegs _ _ _ _ _ _⟩
    rw [Die.colmapWrite_word, bits_colmapWord_refused sp hv hp]
  · refine ⟨_, exec_arrColmapWrite hl hw ha hsp w, Die.colmapWrite_answer _ _ _ _ _ _, ?_, ?_,
      Die.colmapWrite_onlyRegs_of_accepted _ _ _ _ _ _ hp hc⟩
    · rw [Die.colmapWrite_word, bits_colmapWord_accepted sp w hp]
    · rw [Die.colmapWrite_word, bits_colmapWord_col sp w _ hc]
  · exact ⟨exec_offrWrite hl hw ha hv w, _, exec_offrWrite hl hw ha hv w, Die.plainWrite_onlyRegs _ _ _ _ _⟩
  · obtain ⟨hget, hregs, hmem, -⟩ :=
      Die.raise_answer_effect s.die (Reg.ENG_ARITH_CTRL_CNT_CLR t) ag stOk rfl le_rfl
    exact ⟨_, exec_engArithCntClr hl hw, hget, hregs, hmem⟩

end Sys2Proof.Machine
end

section
/-! PROOFS. Requests of resets (R516, R518, R525, R527). -/
namespace Sys2Proof.Machine

/-! ### The commands -/

section
variable {s : State} {ag : Agent}

/-- A command that an agent may give who may write registers has its effect. -/
theorem writeCmd_ok (hl : s.die.live = true) (hw : s.die.mayWrite ag = true) (f : Die → Die) :
    mainCmd (fun d => d.mayWrite ag) f s = .next { s with die := f s.die } := mainCmd_ok hl hw

theorem exec_resetModuleReq (hl : s.die.live = true) (hw : s.die.mayWrite ag = true) :
    exec (.resetModuleReq ag) s = .next { s with die := s.die.askReset ag 0 3 } :=
  writeCmd_ok hl hw fun d => d.askReset ag 0 3

theorem exec_resetCoreReq (hl : s.die.live = true) (hw : s.die.mayWrite ag = true) :
    exec (.resetCoreReq ag) s = .next { s with die := s.die.askReset ag 1 4 } :=
  writeCmd_ok hl hw fun d => d.askReset ag 1 4

theorem exec_resetComputeReq (hl : s.die.live = true) (hw : s.die.mayWrite ag = true) :
    exec (.resetComputeReq ag) s = .next { s with die := s.die.askReset ag 2 7 } :=
  writeCmd_ok hl hw fun d => d.askReset ag 2 7

theorem exec_resetHostportReq (hl : s.die.live = true) (hw : s.die.mayWrite ag = true) :
    exec (.resetHostportReq ag) s = .next { s with die := s.die.askReset ag 3 11 } :=
  writeCmd_ok hl hw fun d => d.askReset ag 3 11

theorem exec_resetMonitorReq (hl : s.die.live = true) (hw : s.die.mayWrite ag = true) :
    exec (.resetMonitorReq ag) s = .next { s with die := s.die.askReset ag 4 12 } :=
  writeCmd_ok hl hw fun d => d.askReset ag 4 12

theorem exec_resetLinkReq (hl : s.die.live = true) (hw : s.die.mayWrite ag = true) {k : Nat} (hk : k < 6) :
    exec (.resetLinkReq ag k) s = .next { s with die := s.die.askReset ag (5 + k) 10 } :=
  mainCmd_ok (ok := fun d => d.mayWrite ag && decide (k < 6)) (f := fun d => d.askReset ag (5 + k) 10) hl (by simp [hw, hk])

theorem exec_tileReset (hl : s.die.live = true) (hc : s.die.mayControl ag = true) {n : Nat} (hn : n < 64) :
    exec (.tileReset ag n) s = .next { s with die := s.die.tileReset ag n } :=
  mainCmd_ok (ok := fun d => d.mayControl ag && decide (n < 64)) (f := fun d => d.tileReset ag n) hl (by simp [hc, hn])

end

/-! ### A request, and the registers that show it -/

/-- The word of RST_CTRL while these resets are in progress (R525). -/
def rstCtrlWord (rs : List ResetRun) : Nat :=
  let reg (dom cause : Nat) : Bool := rs.any (fun r => r.dom == dom && r.cause == cause)
  b2n (reg 0 3) * 2 ^ 31 + b2n (reg 1 4) * 2 ^ 30 + b2n (reg 2 7) * 2 ^ 29 + b2n (reg 3 11) * 2 ^ 28 +
    b2n (reg 4 12) * 2 ^ 27 + ((List.range 6).map (fun k => b2n (reg (5 + k) 10) * 2 ^ k)).sum

variable (d : Die) (ag : Agent) (dom cause : Nat)

theorem Die.syncResets_logsOnly : LogsOnly d d.syncResets :=
  (((((logsOnly_putW d _ _).trans (logsOnly_putW _ _ _)).trans (logsOnly_putW _ _ _)).trans (logsOnly_put _ _ _)).trans
    (logsOnly_put _ _ _)).trans (logsOnly_put _ _ _)

theorem Die.syncResets_out : d.syncResets.out = d.out := by
  simp only [Die.syncResets, Die.put_out, Die.putW_out]

/-- The registers that show the resets in progress. -/
theorem Die.syncResets_onlyRegs :
    OnlyRegs [Reg.RST_CTRL, Reg.RST_TILE 0, Reg.RST_TILE 1, Reg.RST_STATUS] d d.syncResets := by
  unfold Die.syncResets
  refine (((((onlyRegs_putW d _ ?_).trans (onlyRegs_putW _ _ ?_)).trans (onlyRegs_putW _ _ ?_)).trans
    (onlyRegs_put _ _ ?_)).trans (onlyRegs_put _ _ ?_)).trans (onlyRegs_put _ _ ?_) <;> decide

theorem Die.syncResets_ctrl : d.syncResets.getW Reg.RST_CTRL = w32 (rstCtrlWord d.boot.resets) := by
  unfold Die.syncResets
  dsimp only
  rw [Die.getW_put_ne _ _ _ (by decide), Die.getW_put_ne _ _ _ (by decide), Die.getW_put_ne _ _ _ (by decide),
    Die.getW_putW_ne _ _ (by decide), Die.getW_putW_ne _ _ (by decide), Die.getW_putW_same]
  rfl

/-- The registers are brought up to date and the writer is answered: what they then show and leave alone. -/
theorem Die.syncResets_answer_effect :
    (d.syncResets.answer ag stOk).boot = d.boot ∧
    (d.syncResets.answer ag stOk).getW Reg.RST_CTRL = w32 (rstCtrlWord d.boot.resets) ∧
    SameMem d (d.syncResets.answer ag stOk) ∧
    OnlyRegs [Reg.RST_CTRL, Reg.RST_TILE 0, Reg.RST_TILE 1, Reg.RST_STATUS] d (d.syncResets.answer ag stOk) ∧
    (d.syncResets.answer ag stOk).out = .status ag stOk :: d.out := by
  have hlogs : LogsOnly d (d.syncResets.answer ag stOk) := (Die.syncResets_logsOnly d).trans (logsOnly_answer _ ag stOk)
  exact ⟨hlogs.boot, by rw [Die.answer_getW, Die.syncResets_ctrl], hlogs.sameMem, (Die.syncResets_onlyRegs d).answer ag stOk,
    by rw [Die.answer_out, Die.syncResets_out]⟩

/-- With no reset in progress a request puts its own in progress. -/
theorem Die.requestReset_of_none (h : d.boot.resets = []) : d.requestReset dom cause =
    { d with boot := { d.boot with resets := [{ dom := dom, cause := cause }] } } := by
  simp [Die.requestReset, h]

/-- A request that a reset in progress contains changes nothing (R518). -/
theorem Die.requestReset_of_contained (h : d.boot.resets.any (fun r => domContains r.dom dom) = true) :
    d.requestReset dom cause = d := by
  obtain ⟨r, hr, hd⟩ := List.any_eq_true.1 h
  exact if_pos (List.any_eq_true.2 ⟨r, hr, by simp [hd]⟩)

/-- What a register shows and leaves alone once it has started a reset, with none in progress before. -/
theorem Die.askReset_starts (h : d.boot.resets = []) :
    (d.askReset ag dom cause).boot = { d.boot with resets := [{ dom := dom, cause := cause }] } ∧
    (d.askReset ag dom cause).getW Reg.RST_CTRL = w32 (rstCtrlWord [{ dom := dom, cause := cause }]) ∧
    SameMem d (d.askReset ag dom cause) ∧
    OnlyRegs [Reg.RST_CTRL, Reg.RST_TILE 0, Reg.RST_TILE 1, Reg.RST_STATUS] d (d.askReset ag dom cause) ∧
    (d.askReset ag dom cause).out = .status ag stOk :: d.out := by
  unfold Die.askReset
  rw [Die.requestReset_of_none d dom cause h]
  exact Die.syncResets_answer_effect { d with boot := { d.boot with resets := [{ dom := dom, cause := cause }] } } ag

/-- A request that a reset in progress contains is answered OK and starts nothing. -/
theorem Die.askReset_of_contained (h : d.boot.resets.any (fun r => domContains r.dom dom) = true) :
    (d.askReset ag dom cause).boot = d.boot ∧ (d.askReset ag dom cause).out.head? = some (.status ag stOk) := by
  unfold Die.askReset
  rw [Die.requestReset_of_contained d dom cause h]
  exact ⟨by rw [Die.answer_boot, (Die.syncResets_logsOnly d).boot], rfl⟩

/-- The reset of a link alone shows in its bit of RST_CTRL.LINK. -/
theorem rstCtrlWord_link {k : Nat} (hk : k < 6) : rstCtrlWord [{ dom := 5 + k, cause := 10 }] = 2 ^ k := by
  have hall : ∀ k < 6, rstCtrlWord [{ dom := 5 + k, cause := 10 }] = 2 ^ k := by decide
  exact hall k hk

/-! ### A tile reset -/

variable (n : Nat)

theorem Die.tileReset_of_disabled (h : d.enabled n = false) : d.tileReset ag n = d.answer ag stOk := by
  simp [Die.tileReset, h]

theorem Die.tileReset_of_armed (h : d.enabled n = true) (ha : d.armed = true) :
    d.tileReset ag n = (d.record 0x04 3 n 0xFFFF [n]).answer ag stBusy := by
  simp [Die.tileReset, h, ha]

theorem Die.tileReset_of_unarmed (h : d.enabled n = true) (ha : d.armed = false) :
    d.tileReset ag n = d.askReset ag (16 + n) 9 := by
  simp [Die.tileReset, h, ha]

/-! ### The statement -/

/-- The register requests of R525, each with its domain, its cause and the word it shows in RST_CTRL. -/
theorem resetReq_asks {s : State} {ag : Agent} (hl : s.die.live = true) (hw : s.die.mayWrite ag = true) {c : Instr}
    {dom cause w : Nat}
    (h : (c, dom, cause, w) ∈ [(Instr.resetModuleReq ag, 0, 3, 2 ^ 31), (Instr.resetCoreReq ag, 1, 4, 2 ^ 30),
      (Instr.resetComputeReq ag, 2, 7, 2 ^ 29), (Instr.resetHostportReq ag, 3, 11, 2 ^ 28),
      (Instr.resetMonitorReq ag, 4, 12, 2 ^ 27), (Instr.resetLinkReq ag 0, 5, 10, 1), (Instr.resetLinkReq ag 5, 10, 10, 32)]) :
    exec c s = .next { s with die := s.die.askReset ag dom cause } ∧ rstCtrlWord [{ dom := dom, cause := cause }] = w := by
  simp only [List.mem_cons, List.not_mem_nil, or_false, Prod.mk.injEq] at h
  obtain ⟨rfl, rfl, rfl, rfl⟩ | ⟨rfl, rfl, rfl, rfl⟩ | ⟨rfl, rfl, rfl, rfl⟩ | ⟨rfl, rfl, rfl, rfl⟩ | ⟨rfl, rfl, rfl, rfl⟩ |
    ⟨rfl, rfl, rfl, rfl⟩ | ⟨rfl, rfl, rfl, rfl⟩ := h
  · exact ⟨exec_resetModuleReq hl hw, by decide⟩
  · exact ⟨exec_resetCoreReq hl hw, by decide⟩
  · exact ⟨exec_resetComputeReq hl hw, by decide⟩
  · exact ⟨exec_resetHostportReq hl hw, by decide⟩
  · exact ⟨exec_resetMonitorReq hl hw, by decide⟩
  · exact ⟨exec_resetLinkReq hl hw (by decide), rstCtrlWord_link (k := 0) (by decide)⟩
  · exact ⟨exec_resetLinkReq hl hw (by decide), rstCtrlWord_link (k := 5) (by decide)⟩

/-- Settles O23: each request is `askReset` of its domain and cause, which starts the reset where none is in progress. -/
theorem resetRequestsStartTheirDomain : Obligations.ResetRequestsStartTheirDomain := by
  intro s ag hl hw
  refine ⟨fun hnone => ⟨fun c dom cause w hmem => ?_, fun k hk => ?_, fun n hc hen hna => ?_⟩, fun n hc hen ha => ?_,
    fun n hn hc hdis => ?_, fun hcore => ?_, exec_resetModuleReq hl hw, exec_resetCoreReq hl hw, exec_resetComputeReq hl hw,
    exec_resetHostportReq hl hw, exec_resetMonitorReq hl hw, fun k hk => exec_resetLinkReq hl hw hk,
    fun n hc hn => exec_tileReset hl hc hn⟩
  · obtain ⟨hexec, hword⟩ := resetReq_asks hl hw hmem
    have hstart := Die.askReset_starts s.die ag dom cause hnone
    rw [hword] at hstart
    exact ⟨_, hexec, rfl, rfl, hstart⟩
  · obtain ⟨hboot, hctrl, -⟩ := Die.askReset_starts s.die ag (5 + k) 10 hnone
    rw [rstCtrlWord_link hk] at hctrl
    exact ⟨_, exec_resetLinkReq hl hw hk, by rw [hboot], hctrl⟩
  · obtain ⟨hboot, -, hmem, -⟩ := Die.askReset_starts s.die ag (16 + n) 9 hnone
    refine ⟨_, exec_tileReset hl hc (Die.lt_of_enabled hen), ?_⟩
    rw [Die.tileReset_of_unarmed s.die ag n hen hna]
    exact ⟨by rw [hboot], hmem⟩
  · refine ⟨_, exec_tileReset hl hc (Die.lt_of_enabled hen), ?_⟩
    rw [Die.tileReset_of_armed s.die ag n hen ha]
    exact ⟨(Die.record_logsOnly _ _ _ _ _ _).boot, Die.record_recorded _ _ _ _ _ _, rfl,
      (Die.record_onlyRegs _ _ _ _ _ _).answer ag stBusy⟩
  · rw [exec_tileReset hl hc hn, Die.tileReset_of_disabled s.die ag n hdis]
  · have hcontained : s.die.boot.resets.any (fun r => domContains r.dom 2) = true := by
      obtain ⟨r, hr, hd⟩ := List.any_eq_true.1 hcore
      exact List.any_eq_true.2 ⟨r, hr, by simp [beq_iff_eq.1 hd, domContains]⟩
    exact ⟨_, exec_resetComputeReq hl hw, Die.askReset_of_contained s.die ag 2 7 hcontained⟩

end Sys2Proof.Machine
end

section
/-! PROOFS. The step with no command waiting: one reference clock cycle (R6, R26, R46, R425, R475). -/
namespace Sys2Proof.Machine

variable (d : Die)

/-! ### The transmit queue and the credit counters -/

theorem Die.sendNow_logsOnly (o : Out) : LogsOnly d (d.sendNow o) := (logsOnly_bump d _ _).trans (logsOnly_emit _ o)

theorem Die.sendNow_onlyRegs (o : Out) : OnlyRegs [Reg.HP_TX_FRAMES] d (d.sendNow o) :=
  (onlyRegs_bump d (f := ⟨Reg.HP_TX_FRAMES, 0, 32⟩) 1 (List.mem_singleton_self _)).emit o

/-- With no frame waiting the transmit queue sends nothing. -/
theorem Die.txServe_of_empty (h : d.host.txWait = []) : d.txServe = d := by
  simp [Die.txServe, h]

theorem Die.txServe_logsOnly : LogsOnly d d.txServe := by
  unfold Die.txServe
  dsimp only
  split
  · exact LogsOnly.refl d
  · exact LogsOnly.trans (e := { d with host := _ }) rfl (LogsOnly.foldl (fun e (q : Nat × Out) => e.sendNow_logsOnly q.2) _ _)

theorem Die.txServe_onlyRegs : OnlyRegs [Reg.HP_TX_FRAMES] d d.txServe := by
  unfold Die.txServe
  dsimp only
  split
  · exact OnlyRegs.refl _ d
  · exact OnlyRegs.trans (e := { d with host := _ }) (fun _ _ => rfl)
      (OnlyRegs.foldl (fun e (q : Nat × Out) _ => e.sendNow_onlyRegs q.2) _)

theorem Die.countWaits_logsOnly : LogsOnly d d.countWaits := by
  unfold Die.countWaits
  refine LogsOnly.foldl (fun e k => ?_) _ d
  split
  · exact logsOnly_bump e _ _
  · exact LogsOnly.refl e

theorem Die.countWaits_onlyRegs : OnlyRegs ((List.range 6).map Reg.LNK_CREDIT_WAIT) d d.countWaits := by
  unfold Die.countWaits
  refine OnlyRegs.foldl (fun e k hk => ?_) d
  split
  · exact onlyRegs_bump e 1 (List.mem_map_of_mem hk)
  · exact OnlyRegs.refl _ e

theorem Die.countWaits_out : d.countWaits.out = d.out := by
  unfold Die.countWaits
  refine List.foldlRecOn (motive := fun e : Die => e.out = d.out) _ _ rfl fun e he k _ => ?_
  split
  · rw [Die.bump, Die.put_out, he]
  · exact he

/-- Where no link's flit waits for credit nothing is counted. -/
theorem Die.countWaits_of_none (h : ∀ k, k < 6 → d.linkUp k = true → waitsCredit (d.link k) = false) : d.countWaits = d := by
  unfold Die.countWaits
  refine List.foldlRecOn (motive := fun e : Die => e = d) _ _ rfl fun e he k hk => ?_
  subst he
  cases hup : e.linkUp k with
  | false => simp
  | true => simp [h k (List.mem_range.1 hk) hup]

/-! ### One cycle of device time -/

/-- The die with device time and the cells' time moved by one reference cycle (R6, R125). -/
def Die.clockOn (d : Die) : Die :=
  { d with clock := { d.clock with quarter := d.clock.quarter + 1, aging := d.clock.aging + 1 } }

theorem Die.clockTick_eq : d.clockTick = d.clockOn.txServe.countWaits := rfl

theorem Die.clockTick_logsOnly : LogsOnly d.clockOn d.clockTick :=
  (Die.txServe_logsOnly _).trans (Die.countWaits_logsOnly _)

theorem Die.clockTick_onlyRegs : OnlyRegs (Reg.HP_TX_FRAMES :: (List.range 6).map Reg.LNK_CREDIT_WAIT) d d.clockTick :=
  ((Die.txServe_onlyRegs d.clockOn).mono (by simp)).trans
    ((Die.countWaits_onlyRegs _).mono fun _ h => List.mem_cons_of_mem _ h)

/-- With no frame waiting a cycle only counts the waits for credit. -/
theorem Die.clockTick_of_empty (h : d.host.txWait = []) : d.clockTick = d.clockOn.countWaits := by
  rw [Die.clockTick_eq, Die.txServe_of_empty d.clockOn h]

/-- A cycle leaves the clock divider alone, whose register neither the transmit queue nor the credit counters write. -/
theorem Die.clockTick_clockDiv : d.clockTick.clockDiv = d.clockDiv := by
  unfold Die.clockDiv
  rw [(Die.clockTick_onlyRegs d).get (by decide)]

/-- Between two tile cycles a reference cycle only counts (R211, R230). -/
theorem Die.divTick_of_lt (h : d.tide.divCtr + 1 < d.clockDiv) :
    d.divTick = d.modTide (fun t => { t with divCtr := t.divCtr + 1 }) := if_neg (Nat.not_le.2 h)

/-! ### The step -/

theorem Die.refCycle_of_not_live (h : d.live = false) : d.refCycle = d := by simp [Die.refCycle, h]

theorem Die.refCycle_of_held (hl : d.live = true) (hc : d.computeHeld = true) : d.refCycle = d.clockTick := by
  simp [Die.refCycle, hl, hc]

theorem Die.refCycle_of_lt (hl : d.live = true) (hc : d.computeHeld = false) (h : d.tide.divCtr + 1 < d.clockDiv) :
    d.refCycle = d.clockTick.modTide (fun t => { t with divCtr := t.divCtr + 1 }) := by
  have htide : d.clockTick.tide = d.tide := (Die.clockTick_logsOnly d).tide
  rw [← Die.divTick_of_lt d.clockTick (by rw [htide, Die.clockTick_clockDiv]; exact h)]
  simp [Die.refCycle, hl, hc]

theorem step_of_idle {s : State} (h : s.pending = []) : step s = .next { s with die := s.die.refCycle } := by
  simp [step, h, State.tick]

/-- Settles O2: the step is `refCycle`, which does nothing without power, passes a clock tick while COMPUTE is held, and counts
toward the next tile cycle otherwise. -/
theorem idleStepIsOneReferenceCycle : Obligations.IdleStepIsOneReferenceCycle := by
  intro s hidle
  rw [step_of_idle hidle]
  refine ⟨fun hl => ?_, fun hl hc => ?_, fun hl hc hdiv => ?_⟩
  · rw [Die.refCycle_of_not_live s.die hl]
  · rw [Die.refCycle_of_held s.die hl hc]
    refine ⟨rfl, fun htx hwait => ?_⟩
    rw [Die.clockTick_of_empty s.die htx, Die.countWaits_of_none s.die.clockOn hwait]
    rfl
  · rw [Die.refCycle_of_lt s.die hl hc hdiv]
    have hlogs := Die.clockTick_logsOnly s.die
    refine ⟨_, rfl, hidle, rfl, congrArg Clock.quarter hlogs.clock, congrArg (fun t : Tide => t.divCtr + 1) hlogs.tide,
      hlogs.sameMem, hlogs.links, Die.clockTick_onlyRegs s.die, fun htx => ?_⟩
    rw [Die.clockTick_of_empty s.die htx]
    exact ⟨Die.countWaits_out s.die.clockOn, Die.countWaits_onlyRegs s.die.clockOn⟩

end Sys2Proof.Machine
end

section
/-! PROOFS. The carrier: everything that a command can do to it, and that each move keeps it sound (R22 to R29, R32, R43, R44). -/
namespace Sys2Proof.Machine

/-! ### The invariant as propositions -/

/-- The carrier invariant, clause by clause. -/
structure Carrier.Sound (c : Carrier) : Prop where
  faults : c.faultWf = true
  inRange : c.debounced = true → c.inRange = true
  debounced : c.running = true → c.debounced = true
  railsUp_le : c.railsUp ≤ 10
  railsUp_on : c.seq = .on → c.railsUp = 10
  starting_none : c.starting = none → c.seq ≠ .sequencing
  starting_some : ∀ r, c.starting = some r → (c.seq = .sequencing ∨ c.seq = .shuttingDown) ∧ r = c.railsUp ∧ r < 10
  railsUp_off : c.railsUp = 0 ∨ c.seq = .sequencing ∨ c.seq = .on ∨ c.seq = .shuttingDown
  hold : c.held = true → c.seq = .standby ∨ c.seq = .shuttingDown

theorem carrier_inputWf_iff (c : Carrier) :
    c.inputWf = true ↔ (c.debounced = true → c.inRange = true) ∧ (c.running = true → c.debounced = true) := by
  simp only [Carrier.inputWf, Bool.and_eq_true, Bool.or_eq_true, Bool.not_eq_true', Bool.eq_false_iff, ne_eq, ← imp_iff_not_or]

theorem carrier_holdWf_iff (c : Carrier) :
    c.holdWf = true ↔ (c.held = true → c.seq = .standby ∨ c.seq = .shuttingDown) := by
  simp only [Carrier.holdWf, Bool.or_eq_true, Bool.not_eq_true', beq_iff_eq, Bool.eq_false_iff, ne_eq, or_assoc, imp_iff_not_or]

theorem carrier_railsWf_iff (c : Carrier) :
    c.railsWf = true ↔ c.railsUp ≤ 10 ∧ (c.seq = .on → c.railsUp = 10) ∧ (c.starting = none → c.seq ≠ .sequencing) ∧
      (∀ r, c.starting = some r → (c.seq = .sequencing ∨ c.seq = .shuttingDown) ∧ r = c.railsUp ∧ r < 10) ∧
      (c.railsUp = 0 ∨ c.seq = .sequencing ∨ c.seq = .on ∨ c.seq = .shuttingDown) := by
  simp only [Carrier.railsWf, Bool.and_eq_true, Bool.or_eq_true, decide_eq_true_eq, bne_iff_ne, beq_iff_eq, ne_eq,
    ← imp_iff_not_or, and_assoc, or_assoc]
  cases c.starting <;> simp [and_assoc]

theorem carrier_wf_iff_sound (c : Carrier) : c.wf = true ↔ c.Sound := by
  rw [carrier_wf_iff, carrier_inputWf_iff, carrier_railsWf_iff, carrier_holdWf_iff]
  exact ⟨fun ⟨hf, ⟨hi, hd⟩, ⟨hu, hon, hn, hs, ho⟩, hh⟩ => ⟨hf, hi, hd, hu, hon, hn, hs, ho, hh⟩,
    fun h => ⟨h.faults, ⟨h.inRange, h.debounced⟩, ⟨h.railsUp_le, h.railsUp_on, h.starting_none, h.starting_some, h.railsUp_off⟩, h.hold⟩⟩

/-- The sequencer is in a state in which no main rail is up. -/
def Carrier.resting (c : Carrier) : Prop := c.seq ≠ .sequencing ∧ c.seq ≠ .on ∧ c.seq ≠ .shuttingDown

/-- A resting carrier is sound with its rails off, where a charge waits for the debounce and a hold for STANDBY. -/
theorem sound_of_resting {c : Carrier} (hrest : c.resting) (hf : c.faultWf = true) (hi : c.debounced = true → c.inRange = true)
    (hu : c.railsUp = 0) (hs : c.starting = none) (hc : c.seq = .charging → c.debounced = true)
    (hh : c.held = true → c.seq = .standby) : c.Sound := by
  obtain ⟨hseq, hon, hdown⟩ := hrest
  refine ⟨hf, hi, fun hr => ?_, by omega, fun hq => absurd hq hon, fun _ => hseq, fun r hr => ?_, .inl hu, fun hq => .inl (hh hq)⟩
  · simp only [Carrier.running, Bool.or_eq_true, beq_iff_eq] at hr
    exact hc (by tauto)
  · rw [hs] at hr
    cases hr

section
variable {c : Carrier} (h : c.Sound)
include h

theorem Carrier.Sound.railsUp_of_resting (hrest : c.resting) : c.railsUp = 0 := by
  obtain ⟨hseq, hon, hdown⟩ := hrest
  have := h.railsUp_off
  tauto

theorem Carrier.Sound.starting_of_resting (hrest : c.resting) : c.starting = none := by
  obtain ⟨hseq, hon, hdown⟩ := hrest
  cases hs : c.starting with
  | none => rfl
  | some r => exact absurd (h.starting_some r hs).1 (by tauto)

/-- A sound carrier that rests moves soundly to another state of rest. -/
theorem Carrier.Sound.move (hrest : c.resting) {q : SeqState} (hq : q ≠ .sequencing ∧ q ≠ .on ∧ q ≠ .shuttingDown)
    (hc : q = .charging → c.debounced = true) (hh : c.held = true → q = .standby) : Carrier.Sound { c with seq := q } :=
  sound_of_resting hq h.faults h.inRange (h.railsUp_of_resting hrest) (h.starting_of_resting hrest) hc hh

/-- The input may change where the main conversion does not run. -/
theorem Carrier.Sound.setInput {low high deb : Bool} (hi : deb = true → low = false ∧ high = false)
    (hr : c.running = true → deb = true) : Carrier.Sound { c with uvlo := low, ovlo := high, debounced := deb } :=
  ⟨h.faults, fun hd => by simp [Carrier.inRange, hi hd], hr, h.railsUp_le, h.railsUp_on, h.starting_none, h.starting_some,
    h.railsUp_off, h.hold⟩

end

/-! ### Every operation on the carrier keeps it sound -/

@[simp] theorem Carrier.latch_seq (c : Carrier) (k r : Nat) : (c.latch k r).seq = c.seq := by unfold Carrier.latch; split <;> rfl
@[simp] theorem Carrier.latch_debounced (c : Carrier) (k r : Nat) : (c.latch k r).debounced = c.debounced := by
  unfold Carrier.latch; split <;> rfl
@[simp] theorem Carrier.latch_inRange (c : Carrier) (k r : Nat) : (c.latch k r).inRange = c.inRange := by
  unfold Carrier.latch; split <;> rfl
@[simp] theorem Carrier.latch_held (c : Carrier) (k r : Nat) : (c.latch k r).held = c.held := by
  unfold Carrier.latch; split <;> rfl
@[simp] theorem Carrier.latch_railsUp (c : Carrier) (k r : Nat) : (c.latch k r).railsUp = c.railsUp := by
  unfold Carrier.latch; split <;> rfl
@[simp] theorem Carrier.latch_starting (c : Carrier) (k r : Nat) : (c.latch k r).starting = c.starting := by
  unfold Carrier.latch; split <;> rfl
@[simp] theorem Carrier.latch_running (c : Carrier) (k r : Nat) : (c.latch k r).running = c.running := by simp [Carrier.running]
@[simp] theorem Carrier.note_railsWf (c : Carrier) (k : Nat) : (c.note k).railsWf = c.railsWf := by
  unfold Carrier.note; split <;> rfl
@[simp] theorem Carrier.note_debounced (c : Carrier) (k : Nat) : (c.note k).debounced = c.debounced := by
  unfold Carrier.note; split <;> rfl

/-- A latched fault of a cause from 1 to 5, with a rail only for causes up to 3, is sound. -/
theorem Carrier.Sound.latch {c : Carrier} (h : c.Sound) {k r : Nat} (hk : 1 ≤ k ∧ k ≤ 5 ∧ r ≤ 9 ∧ (r = 0 ∨ k ≤ 3)) :
    (c.latch k r).Sound := by
  refine ⟨carrier_faultWf_latch c k r h.faults hk, ?_, ?_, ?_, ?_, ?_, ?_, ?_, ?_⟩ <;>
    simp only [Carrier.latch_seq, Carrier.latch_debounced, Carrier.latch_inRange, Carrier.latch_held, Carrier.latch_railsUp,
      Carrier.latch_starting, Carrier.latch_running]
  exacts [h.inRange, h.debounced, h.railsUp_le, h.railsUp_on, h.starting_none, h.starting_some, h.railsUp_off, h.hold]

/-- A shutdown of a sound carrier is sound, whatever becomes of the input. -/
theorem sound_shutDown {s : State} (b : Bool) (hf : s.carrier.faultWf = true) (hr : s.carrier.railsWf = true)
    (hi : s.carrier.debounced = false ∨ s.carrier.inRange = true) : (s.shutDown b).carrier.Sound :=
  (carrier_wf_iff_sound _).1 (carrier_wf_shutDown s b hf hr hi)

theorem Carrier.Sound.railsWf {c : Carrier} (h : c.Sound) : c.railsWf = true :=
  (carrier_railsWf_iff c).2 ⟨h.railsUp_le, h.railsUp_on, h.starting_none, h.starting_some, h.railsUp_off⟩

theorem Carrier.Sound.not_debounced_or_inRange {c : Carrier} (h : c.Sound) : c.debounced = false ∨ c.inRange = true :=
  carrier_inRange ((carrier_inputWf_iff c).2 ⟨h.inRange, h.debounced⟩)

theorem Carrier.Sound.shuttingDown {c : Carrier} (h : c.Sound) (b : Bool) :
    Carrier.Sound { c with seq := .shuttingDown, toFault := b } := by
  have := sound_shutDown (s := { pending := [], carrier := c, die := {} }) b h.faults h.railsWf h.not_debounced_or_inRange
  rwa [State.shutDown_carrier] at this

theorem Carrier.Sound.switchOff {c : Carrier} (h : c.Sound) : Carrier.Sound { c with switchOn := false } :=
  ⟨h.faults, h.inRange, h.debounced, h.railsUp_le, h.railsUp_on, h.starting_none, h.starting_some, h.railsUp_off, h.hold⟩

theorem Carrier.Sound.shutDown {s : State} (h : s.carrier.Sound) (b : Bool) : (s.shutDown b).carrier.Sound :=
  sound_shutDown b h.faults h.railsWf h.not_debounced_or_inRange

theorem resting_of_not_running {c : Carrier} (hr : c.running = false) (hd : c.seq ≠ .shuttingDown) : c.resting := by
  simp only [Carrier.running, Bool.or_eq_false_iff, beq_eq_false_iff_ne] at hr
  exact ⟨hr.1.2, hr.2, hd⟩

/-- No hold stands outside STANDBY and a shutdown. -/
theorem Carrier.Sound.held_eq_false {c : Carrier} (h : c.Sound) (h1 : c.seq ≠ .standby) (h2 : c.seq ≠ .shuttingDown) :
    c.held = false := by
  have := h.hold
  cases hh : c.held <;> simp_all

theorem Carrier.Sound.not_running_of_out {c : Carrier} (h : c.Sound) (hr : c.inRange = false) : c.running = false := by
  have h1 := h.inRange
  have h2 := h.debounced
  cases hrun : c.running <;> simp_all

theorem Carrier.Sound.inputIn {c : Carrier} (h : c.Sound) (hr : c.inRange = false) : c.inputIn.Sound := by
  have hin := h.setInput (low := false) (high := false) (deb := false) (fun _ => ⟨rfl, rfl⟩) (by simp [h.not_running_of_out hr])
  unfold Carrier.inputIn
  split
  · rename_i hq
    simp only [Bool.and_eq_true, beq_iff_eq, Bool.not_eq_true'] at hq
    obtain ⟨hstandby, hfree⟩ := hq
    exact hin.move (by simp [Carrier.resting, hstandby]) (by simp) nofun (fun hh => absurd (hfree.symm.trans hh) nofun)
  · exact hin

/-- A sound carrier in DEBOUNCE moves soundly to a state of rest. -/
theorem Carrier.Sound.leaveDebounce {c : Carrier} (h : c.Sound) (hd : c.seq = .debounce) {q : SeqState}
    (hq : q ≠ .sequencing ∧ q ≠ .on ∧ q ≠ .shuttingDown) (hc : q = .charging → c.debounced = true) :
    Carrier.Sound { c with seq := q } := by
  have hfree := h.held_eq_false (by simp [hd]) (by simp [hd])
  exact h.move (by simp [Carrier.resting, hd]) hq hc (by simp [hfree])

theorem Carrier.Sound.debounceEnd {c : Carrier} (h : c.Sound) (hr : c.inRange = true) : c.debounceEnd.Sound := by
  have hin := h.setInput (low := c.uvlo) (high := c.ovlo) (deb := true)
    (fun _ => by simpa [Carrier.inRange] using hr) (fun _ => rfl)
  unfold Carrier.debounceEnd
  split
  · rename_i hq
    simp only [Bool.and_eq_true, beq_iff_eq] at hq
    exact hin.leaveDebounce hq.1 (by simp) (fun _ => rfl)
  · exact hin

theorem Carrier.Sound.offTimeEnd {c : Carrier} (h : c.Sound) : c.offTimeEnd.Sound := by
  have hoff : Carrier.Sound { c with offTimeMet := true } := ⟨h.faults, h.inRange, h.debounced, h.railsUp_le, h.railsUp_on,
    h.starting_none, h.starting_some, h.railsUp_off, h.hold⟩
  unfold Carrier.offTimeEnd
  split
  · rename_i hq
    simp only [Bool.and_eq_true, beq_iff_eq] at hq
    exact hoff.leaveDebounce hq.1 (by simp) (fun _ => hq.2)
  · exact hoff

theorem Carrier.Sound.clearLatched {c : Carrier} (h : c.Sound) : c.clearLatched.Sound :=
  ⟨carrier_faultWf_clear c, h.inRange, h.debounced, h.railsUp_le, h.railsUp_on, h.starting_none, h.starting_some, h.railsUp_off,
    h.hold⟩

/-- The released pin ends the holds and FAULT; only a held or faulted sequencer that has reached off goes on to a new start. -/
theorem Carrier.Sound.resetReleased {c : Carrier} (h : c.Sound) : c.resetReleased.Sound := by
  have hfree : Carrier.Sound { c with resetLow := false, offHold := false, abortHold := false } := ⟨h.faults, h.inRange,
    h.debounced, h.railsUp_le, h.railsUp_on, h.starting_none, h.starting_some, h.railsUp_off, nofun⟩
  unfold Carrier.resetReleased
  dsimp only
  split
  · exact hfree
  · rename_i hwants
    split
    · exact ⟨h.faults, h.inRange, h.debounced, h.railsUp_le, h.railsUp_on, h.starting_none, h.starting_some, h.railsUp_off, nofun⟩
    · rename_i hdown
      have hseq : c.seq = .standby ∨ c.seq = .fault := by
        have := h.hold
        simp only [Bool.not_eq_true', Bool.or_eq_false_iff, beq_eq_false_iff_ne, beq_iff_eq] at hwants hdown
        cases hh : c.held <;> simp_all
      have hrest : c.resting := by rcases hseq with hq | hq <;> simp [Carrier.resting, hq]
      refine hfree.move hrest ?_ ?_ nofun
      · split
        · decide
        · split <;> decide
      · split
        · nofun
        · split
          · rename_i hd
            exact fun _ => hd
          · nofun

section
variable {s : State} (h : s.carrier.Sound)
include h

theorem sound_inputOut (high : Bool) : (s.inputOut high).carrier.Sound := by
  unfold State.inputOut
  dsimp only
  split
  · refine sound_shutDown false (carrier_faultWf_note _ _ h.faults (by cases high <;> simp)) ?_ (.inl ?_)
    · rw [Carrier.note_railsWf]
      exact h.railsWf
    · rw [Carrier.note_debounced]
  · rename_i hrun
    have hin := h.setInput (low := !high) (high := high) (deb := false) nofun (fun hr => absurd hr hrun)
    split
    · rename_i hq
      exact hin.leaveDebounce (beq_iff_eq.1 hq) (by simp) nofun
    · exact hin

theorem sound_hotSwapOn (hq : s.carrier.seq = .charging) :
    Carrier.Sound { s.carrier with seq := .sequencing, switchOn := true, starting := some 0 } := by
  have hrest : s.carrier.resting := by simp [Carrier.resting, hq]
  have hd := h.debounced (by simp [Carrier.running, hq])
  have hu := h.railsUp_of_resting hrest
  have hfree := h.held_eq_false (by simp [hq]) (by simp [hq])
  refine ⟨h.faults, h.inRange, fun _ => hd, h.railsUp_le, nofun, nofun, ?_, .inl hu, fun hh => absurd (hfree.symm.trans hh) nofun⟩
  rintro r ⟨⟩
  exact ⟨.inl rfl, hu.symm, by decide⟩

theorem sound_railGood (hq : s.carrier.seq = .sequencing) {r : Nat} (hr : s.carrier.starting = some r) :
    (s.railGood r).carrier.Sound := by
  have hd := h.debounced (by simp [Carrier.running, hq])
  have hfree := h.held_eq_false (by simp [hq]) (by simp [hq])
  obtain ⟨-, hup, hlt⟩ := h.starting_some r hr
  unfold State.railGood
  dsimp only
  split
  · rename_i hlast
    exact ⟨h.faults, h.inRange, fun _ => hd, by simp; omega, fun _ => hlast, nofun, nofun, by simp,
      fun hh => absurd (hfree.symm.trans hh) nofun⟩
  · refine ⟨h.faults, h.inRange, fun _ => hd, by simp; omega, fun hon => absurd (hq.symm.trans hon) nofun, nofun, ?_, by simp [hq],
      fun hh => absurd (hfree.symm.trans hh) nofun⟩
    rintro _ ⟨⟩
    exact ⟨.inl hq, rfl, by omega⟩

theorem railLive_lt {rail : Nat} {high : Bool} (hl : s.carrier.railLive rail high = true) : rail ≤ 9 := by
  have hu := h.railsUp_le
  simp only [Carrier.railLive, Bool.or_eq_true, Bool.and_eq_true, decide_eq_true_eq, beq_iff_eq] at hl
  rcases hl with ⟨hlt, -⟩ | ⟨-, hs⟩
  · omega
  · have := (h.starting_some rail hs).2.2
    omega

end

/-- A carrier with all rails off that rests after a latched fault is sound. -/
theorem sound_restFault {s : State} (hf : s.carrier.faultWf = true) (hi : s.carrier.debounced = true → s.carrier.inRange = true)
    (hu : s.carrier.railsUp = 0) (hs : s.carrier.starting = none) : s.restFault.carrier.Sound := by
  unfold State.restFault
  dsimp only
  split
  · exact sound_of_resting (by simp [Carrier.resting]) hf hi hu hs nofun (fun _ => rfl)
  · rename_i hoff
    exact sound_of_resting (by simp [Carrier.resting]) hf hi hu hs nofun (fun hh => by simp_all [Carrier.held])

section
variable {s : State} (h : s.carrier.Sound)
include h

theorem sound_lidFault : s.lidFault.carrier.Sound := by
  have hl := h.latch (k := 5) (r := 0) (by decide)
  unfold State.lidFault
  dsimp only
  split
  · exact Carrier.Sound.shutDown (s := { s with carrier := s.carrier.latch 5 0 }) hl true
  · rename_i hq
    simp only [Bool.or_eq_true, beq_iff_eq, not_or, Bool.not_eq_true] at hq
    have hrest : (s.carrier.latch 5 0).resting := by
      have := resting_of_not_running hq.1 hq.2
      simpa [Carrier.resting] using this
    exact sound_restFault hl.faults hl.inRange (hl.railsUp_of_resting hrest) (hl.starting_of_resting hrest)

theorem sound_railsOff : s.railsOff.carrier.Sound := by
  unfold State.railsOff
  dsimp only
  split
  · exact sound_restFault h.faults h.inRange rfl rfl
  · split
    · exact sound_of_resting (by simp [Carrier.resting]) h.faults h.inRange rfl rfl nofun (fun _ => rfl)
    · rename_i hq
      simp only [Bool.or_eq_true, not_or, Bool.not_eq_true] at hq
      refine sound_of_resting ?_ h.faults h.inRange rfl rfl ?_ (fun hh => absurd (hq.1.symm.trans hh) nofun)
      · simp only [Carrier.resting]; split <;> simp
      · simp only; split
        · rename_i hp
          simp only [Bool.and_eq_true] at hp
          exact fun _ => hp.2
        · nofun

theorem sound_offReq : s.offReq.carrier.Sound := by
  unfold State.offReq
  dsimp only
  split
  · exact sound_shutDown false h.faults h.railsWf h.not_debounced_or_inRange
  · rename_i hrun
    split
    · rename_i hdown
      exact ⟨h.faults, h.inRange, h.debounced, h.railsUp_le, h.railsUp_on, h.starting_none, h.starting_some, h.railsUp_off,
        fun _ => .inr (beq_iff_eq.1 hdown)⟩
    · rename_i hdown
      have hrest := resting_of_not_running (Bool.eq_false_iff.2 hrun) (mt beq_iff_eq.2 hdown)
      exact sound_of_resting (by simp [Carrier.resting]) h.faults h.inRange (h.railsUp_of_resting hrest)
        (h.starting_of_resting hrest) nofun (fun _ => rfl)

theorem sound_seqStore (w : Nat) : (s.seqStore w).carrier.Sound := by
  unfold State.seqStore
  dsimp only
  split <;> split
  · exact sound_offReq (s := { s with carrier := s.carrier.clearLatched }) h.clearLatched
  · exact sound_offReq h
  · exact h.clearLatched
  · exact h

theorem sound_modResetAssert : s.modResetAssert.carrier.Sound := by
  have hlow : Carrier.Sound { s.carrier with resetLow := true } := ⟨h.faults, h.inRange, h.debounced, h.railsUp_le, h.railsUp_on,
    h.starting_none, h.starting_some, h.railsUp_off, h.hold⟩
  have habort : ∀ t : State, t.carrier = { s.carrier with resetLow := true, abortHold := true } → (t.shutDown false).carrier.Sound :=
    fun t ht => sound_shutDown false (by rw [ht]; exact h.faults) (by rw [ht]; exact h.railsWf)
      (by rw [ht]; exact h.not_debounced_or_inRange)
  unfold State.modResetAssert
  dsimp only
  split
  case h_1 => exact hlow
  case h_2 hd =>
    have hrest : s.carrier.resting := by simp [Carrier.resting, hd]
    exact sound_of_resting (by simp [Carrier.resting]) h.faults h.inRange (h.railsUp_of_resting hrest)
      (h.starting_of_resting hrest) nofun (fun _ => rfl)
  case h_3 | h_4 => exact habort _ rfl
  case h_5 => exact hlow

end

/-! ### What each command moves -/

/-- The command answers a next state and moves neither the queue nor the carrier. -/
def MovesDieOnly (s : State) (o : Host.Outcome State Fault Refusal) : Prop :=
  ∃ t : State, o = .next t ∧ t.pending = s.pending ∧ t.carrier = s.carrier

theorem movesDieOnly_ite (ok : Bool) (d : Die) (s : State) : MovesDieOnly s (.next (if ok then { s with die := d } else s)) := by
  cases ok <;> exact ⟨_, rfl, rfl, rfl⟩

theorem tileCmd_movesDieOnly (ag : Agent) (t a w : Nat) (ok : Bool) (f : Die → Die) (s : State) :
    MovesDieOnly s (tileCmd ag t a w ok f s) := mainCmd_answers _ _ s

theorem crcCmd_movesDieOnly (ag : Agent) (u : CrcUnit) (off w : Nat) (f : Die → Die) (s : State) :
    MovesDieOnly s (crcCmd ag u off w f s) := by
  cases u with
  | edge k => exact mainCmd_answers _ _ _
  | tile t => exact tileCmd_movesDieOnly _ _ _ _ _ _ _

theorem dmaCmd_movesDieOnly (ag : Agent) (e : DmaEng) (off w : Nat) (ok : Bool) (f : Die → Die) (s : State) :
    MovesDieOnly s (dmaCmd ag e off w ok f s) := by
  cases e with
  | edge => exact mainCmd_answers _ _ _
  | tile t => exact tileCmd_movesDieOnly _ _ _ _ _ _ _

theorem exec_movesDieOnly {c : Instr} (hc : movesCarrier c = false) (s : State) : MovesDieOnly s (exec c s) := by
  cases c
  case standbyPowerUp | standbyPowerLoss | inputInRange | inputOutOfRange | debounceExpiry | hotSwapOn | railGood |
    railStartTimeout | railFault | railsOff | offTimeExpiry | inputOvercurrent | lidOvertemp | offReq | faultLatchedClear |
    modResetAssert | modResetRelease | mgmtTransfer | regWrite | registerWrite => cases hc
  case crcFeed8 | crcFeed16 | crcFeed32 | crcValueWrite | crcInit | crcConfigWrite => exact crcCmd_movesDieOnly _ _ _ _ _ s
  case chStart | chFetch | chStop | dmaCfgWrite | dmaDescRegWrite => exact dmaCmd_movesDieOnly _ _ _ _ _ _ s
  all_goals exact movesDieOnly_ite _ _ s

theorem step_of_pending {s : State} {c : Instr} {r : List Instr} (h : s.pending = c :: r) :
    step s = exec c { s with pending := r } := by simp [step, h]

/-- Everything that a command can do to the carrier (R22 to R29, R32, R43, R44). -/
inductive CarrierStep (s : State) : Instr → Carrier → Prop where
  | stays (c : Instr) : CarrierStep s c s.carrier
  | standbyPowerUp : s.carrier.standby = false → CarrierStep s .standbyPowerUp {}
  | standbyPowerLoss : CarrierStep s .standbyPowerLoss { standby := false, seq := .off }
  | inputInRange : s.carrier.inRange = false → CarrierStep s .inputInRange s.carrier.inputIn
  | inputOutOfRange (high : Bool) : CarrierStep s (.inputOutOfRange high) (s.inputOut high).carrier
  | debounceExpiry : s.carrier.inRange = true → CarrierStep s .debounceExpiry s.carrier.debounceEnd
  | offTimeExpiry : s.carrier.seq ≠ .shuttingDown → CarrierStep s .offTimeExpiry s.carrier.offTimeEnd
  | hotSwapOn : s.carrier.seq = .charging →
      CarrierStep s .hotSwapOn { s.carrier with seq := .sequencing, switchOn := true, starting := some 0 }
  | railGood (r : Nat) : s.carrier.seq = .sequencing → s.carrier.starting = some r → CarrierStep s .railGood (s.railGood r).carrier
  | railStartTimeout (r : Nat) : s.carrier.seq = .sequencing → s.carrier.starting = some r →
      CarrierStep s .railStartTimeout { s.carrier.latch 1 r with seq := .shuttingDown, toFault := true }
  | railFault (rail : Nat) (high : Bool) : s.carrier.railLive rail high = true →
      CarrierStep s (.railFault rail high)
        { s.carrier.latch (if high then 3 else 2) rail with seq := .shuttingDown, toFault := true }
  | inputOvercurrent :
      CarrierStep s .inputOvercurrent { s.carrier.latch 4 0 with switchOn := false, seq := .shuttingDown, toFault := true }
  | lidOvertemp : CarrierStep s .lidOvertemp s.lidFault.carrier
  | railsOff : CarrierStep s .railsOff s.railsOff.carrier
  | write (c : Instr) (t : State) (w : Nat) : t.carrier = s.carrier → c ≠ .railsOff → c ≠ .standbyPowerLoss →
      CarrierStep s c (t.seqStore w).carrier
  | modResetAssert : CarrierStep s .modResetAssert s.modResetAssert.carrier
  | modResetRelease : CarrierStep s .modResetRelease s.carrier.resetReleased

/-- A command whose effect on the carrier is known where its conditions hold. -/
theorem carrierStep_ite {c : Instr} {s u : State} {ok : Bool} (hp : u.pending = s.pending)
    (hstep : ok = true → CarrierStep s c u.carrier) :
    ∃ t : State, Host.Outcome.next (φ := Fault) (ρ := Refusal) (if ok then u else s) = .next t ∧ t.pending = s.pending ∧
      CarrierStep s c t.carrier := by
  cases ok with
  | false => exact ⟨s, rfl, rfl, .stays c⟩
  | true => exact ⟨u, rfl, hp, hstep rfl⟩

theorem regWriteSeq_pending (s : State) (m : MsgHead) (w : Nat) : (s.regWriteSeq m w).pending = s.pending := by
  unfold State.regWriteSeq
  dsimp only
  split
  · rfl
  · split <;> simp

theorem regWriteSeq_carrierStep (s : State) (m : MsgHead) (a w : Nat) :
    CarrierStep s (.regWrite m a w) (s.regWriteSeq m w).carrier := by
  unfold State.regWriteSeq
  dsimp only
  split
  · exact .stays _
  · split
    · exact .stays _
    · exact .write _ _ w rfl nofun nofun

theorem j3Access_pending (s : State) (write : Bool) (a w : Nat) : (s.j3Access write a w).pending = s.pending := by
  unfold State.j3Access
  dsimp only
  repeat' split
  all_goals simp

theorem j3Access_carrierStep (s : State) (legacy write : Bool) (d : Die) (a w : Nat) :
    CarrierStep s (.mgmtTransfer legacy write a w) (State.j3Access { s with die := d } write a w).carrier := by
  unfold State.j3Access
  dsimp only
  split
  · split
    · exact .write _ _ w rfl nofun nofun
    · exact .stays _
  · split
    · exact .stays _
    · split <;> exact .stays _

theorem starting_getD {o : Option Nat} (h : o.isSome = true) : o = some (o.getD 0) := by
  cases o with
  | none => cases h
  | some r => rfl

/-- Every command answers a next state, leaves the queue alone, and moves the carrier in one of the ways listed. -/
theorem exec_carrierStep (c : Instr) (s : State) :
    ∃ t : State, exec c s = .next t ∧ t.pending = s.pending ∧ CarrierStep s c t.carrier := by
  by_cases hc : movesCarrier c = false
  · obtain ⟨t, ht, hp, hcar⟩ := exec_movesDieOnly hc s
    exact ⟨t, ht, hp, hcar ▸ .stays c⟩
  · cases c
    case standbyPowerUp => exact carrierStep_ite rfl fun hok => .standbyPowerUp (by simpa using hok)
    case standbyPowerLoss => exact carrierStep_ite rfl fun _ => .standbyPowerLoss
    case inputInRange => exact carrierStep_ite rfl fun hok => .inputInRange (by simp at hok; exact hok.2)
    case inputOutOfRange high => exact carrierStep_ite (s.inputOut_pending high) fun _ => .inputOutOfRange high
    case debounceExpiry => exact carrierStep_ite rfl fun hok => .debounceExpiry (by simp at hok; exact hok.1.2)
    case offTimeExpiry => exact carrierStep_ite rfl fun hok => .offTimeExpiry (by simp at hok; exact hok.2)
    case hotSwapOn => exact carrierStep_ite rfl fun hok => .hotSwapOn (by simpa using hok)
    case railGood =>
      refine carrierStep_ite (s.railGood_pending _) fun hok => ?_
      simp only [Bool.and_eq_true, beq_iff_eq] at hok
      exact .railGood _ hok.1 (starting_getD hok.2)
    case railStartTimeout =>
      refine carrierStep_ite (State.shutDown_pending _ true) fun hok => ?_
      simp only [Bool.and_eq_true, beq_iff_eq] at hok
      rw [State.shutDown_carrier]
      exact .railStartTimeout _ hok.1 (starting_getD hok.2)
    case railFault rail high =>
      refine carrierStep_ite (State.shutDown_pending _ true) fun hok => ?_
      rw [State.shutDown_carrier]
      exact .railFault rail high hok
    case inputOvercurrent =>
      refine carrierStep_ite (State.shutDown_pending _ true) fun _ => ?_
      rw [State.shutDown_carrier]
      exact .inputOvercurrent
    case lidOvertemp => exact carrierStep_ite s.lidFault_pending fun _ => .lidOvertemp
    case railsOff => exact carrierStep_ite s.railsOff_pending fun _ => .railsOff
    case offReq ag => exact carrierStep_ite (s.seqWrite_pending _ _) fun _ => .write _ s _ rfl nofun nofun
    case faultLatchedClear ag => exact carrierStep_ite (s.seqWrite_pending _ _) fun _ => .write _ s _ rfl nofun nofun
    case modResetAssert => exact carrierStep_ite s.modResetAssert_pending fun _ => .modResetAssert
    case modResetRelease => exact carrierStep_ite rfl fun _ => .modResetRelease
    case mgmtTransfer legacy write a w =>
      exact carrierStep_ite (j3Access_pending _ _ _ _) fun _ => j3Access_carrierStep s legacy write _ a w
    case regWrite m a w =>
      refine carrierStep_ite (u := if a = Reg.PWR_SEQ_STATUS then s.regWriteSeq m w else _) ?_ fun _ => ?_ <;> split
      · exact regWriteSeq_pending s m w
      · rfl
      · exact regWriteSeq_carrierStep s m a w
      · exact .stays _
    case registerWrite ag a w =>
      refine carrierStep_ite (u := if a = Reg.PWR_SEQ_STATUS then s.seqWrite ag w else _) ?_ fun _ => ?_ <;> split
      · exact s.seqWrite_pending ag w
      · rfl
      · exact .write _ s w rfl nofun nofun
      · exact .stays _
    all_goals exact absurd rfl hc

/-- Settles O5: a command that is none of the carrier's own can only put another die in place of the die. -/
theorem otherCommandsLeaveTheCarrierAlone : Obligations.OtherCommandsLeaveTheCarrierAlone := by
  intro c s
  cases hc : movesCarrier c with
  | true =>
    obtain ⟨t, ht, hp, -⟩ := exec_carrierStep c s
    exact ⟨t, ht, hp, nofun⟩
  | false =>
    obtain ⟨t, ht, hp, hcar⟩ := exec_movesDieOnly hc s
    exact ⟨t, ht, hp, fun _ => hcar⟩

/-- Each move of the carrier keeps it sound. -/
theorem CarrierStep.sound {s : State} {c : Instr} {e : Carrier} (h : CarrierStep s c e) (hs : s.carrier.Sound) : e.Sound := by
  cases h with
  | stays => exact hs
  | standbyPowerUp _ => exact (carrier_wf_iff_sound _).1 (by decide)
  | standbyPowerLoss => exact (carrier_wf_iff_sound _).1 (by decide)
  | inputInRange hr => exact hs.inputIn hr
  | inputOutOfRange high => exact sound_inputOut hs high
  | debounceExpiry hr => exact hs.debounceEnd hr
  | offTimeExpiry _ => exact hs.offTimeEnd
  | hotSwapOn hq => exact sound_hotSwapOn hs hq
  | railGood r hq hr => exact sound_railGood hs hq hr
  | railStartTimeout r hq hr =>
    have hlt := (hs.starting_some r hr).2.2
    exact (hs.latch (k := 1) (r := r) (by omega)).shuttingDown true
  | railFault rail high hl =>
    have hlt := railLive_lt hs hl
    exact (hs.latch (k := if high then 3 else 2) (r := rail) (by cases high <;> simp [hlt])).shuttingDown true
  | inputOvercurrent => exact (hs.latch (k := 4) (r := 0) (by decide)).switchOff.shuttingDown true
  | lidOvertemp => exact sound_lidFault hs
  | railsOff => exact sound_railsOff hs
  | write _ t w ht _ _ => exact sound_seqStore (ht ▸ hs) w
  | modResetAssert => exact sound_modResetAssert hs
  | modResetRelease => exact hs.resetReleased

/-- Settles O4: an idle step leaves the carrier alone, and each move of a command keeps it sound. -/
theorem everyStepKeepsTheCarrierSound : Obligations.EveryStepKeepsTheCarrierSound := by
  intro s t hs hstep
  rw [carrier_wf_iff_sound] at hs ⊢
  cases hp : s.pending with
  | nil =>
    rw [step_of_idle hp] at hstep
    cases hstep
    exact hs
  | cons c r =>
    rw [step_of_pending hp] at hstep
    obtain ⟨u, hu, -, hcar⟩ := exec_carrierStep c { s with pending := r }
    obtain rfl : u = t := by simpa [hu] using hstep
    exact hcar.sound hs

end Sys2Proof.Machine
end

section
/-! PROOFS. The carrier's commands: standby power, the input, the rails, faults, the holds and MOD_RESET_N (R22 to R29, R32, R42 to R44). -/
namespace Sys2Proof.Machine

/-! ### A shutdown in progress (R25) -/

theorem seqStore_shuttingDown {s : State} (hd : s.carrier.seq = .shuttingDown) (w : Nat) :
    (s.seqStore w).carrier.seq = .shuttingDown ∧ (s.seqStore w).carrier.railsUp = s.carrier.railsUp := by
  have hoff : ∀ t : State, t.carrier.seq = .shuttingDown → t.offReq.carrier.seq = .shuttingDown ∧
      t.offReq.carrier.railsUp = t.carrier.railsUp := by
    intro t ht
    simp [State.offReq, Carrier.running, ht]
  unfold State.seqStore
  dsimp only
  split <;> split
  · exact hoff _ hd
  · exact hoff s hd
  · exact ⟨hd, rfl⟩
  · exact ⟨hd, rfl⟩

/-- Until the rails reach off or standby power is lost, nothing that a command does reverses a shutdown. -/
theorem CarrierStep.shuttingDown {s : State} {c : Instr} {e : Carrier} (h : CarrierStep s c e) (hs : s.carrier.standby = true)
    (hd : s.carrier.seq = .shuttingDown) (hoff : c ≠ .railsOff) (hloss : c ≠ .standbyPowerLoss) :
    e.seq = .shuttingDown ∧ e.railsUp = s.carrier.railsUp := by
  cases h with
  | stays => exact ⟨hd, rfl⟩
  | standbyPowerUp hup => simp [hs] at hup
  | standbyPowerLoss => exact absurd rfl hloss
  | inputInRange _ => simp [Carrier.inputIn, hd]
  | inputOutOfRange high => simp [State.inputOut, Carrier.running, hd]
  | debounceExpiry _ => simp [Carrier.debounceEnd, hd]
  | offTimeExpiry hq => exact absurd hd hq
  | hotSwapOn hq => simp [hd] at hq
  | railGood r hq _ => simp [hd] at hq
  | railStartTimeout r hq _ => simp [hd] at hq
  | railFault rail high _ => simp
  | inputOvercurrent => simp
  | lidOvertemp => simp [State.lidFault, hd]
  | railsOff => exact absurd rfl hoff
  | write _ t w ht _ _ => rw [← ht] at hd ⊢; exact seqStore_shuttingDown hd w
  | modResetAssert => simp [State.modResetAssert, hd]
  | modResetRelease => simp only [Carrier.resetReleased]; split <;> simp [hd]

/-! ### The commands to the carrier, where their conditions hold -/

/-- A command whose conditions hold has its effect. -/
theorem next_ite_pos {ok : Bool} {s u : State} (h : ok = true) :
    Host.Outcome.next (φ := Fault) (ρ := Refusal) (if ok then u else s) = .next u := by rw [if_pos h]

section
variable {s : State}

theorem exec_standbyPowerUp (h : s.carrier.standby = false) : exec .standbyPowerUp s = .next { s with carrier := {} } :=
  next_ite_pos (by simp [h])

theorem exec_standbyPowerLoss (h : s.carrier.standby = true) : exec .standbyPowerLoss s =
    .next { s with carrier := { standby := false, seq := .off }, die := s.die.standbyLost } := next_ite_pos h

theorem exec_managementAlive (h : s.carrier.standby = true) (ha : s.die.mgmt.alive = false) :
    exec .managementAlive s = .next { s with die := { s.die with
      mgmt := { s.die.mgmt with alive := true, mode := .undecided, dynAddr := none } } } := next_ite_pos (by simp [h, ha])

theorem exec_inputInRange (h : s.carrier.standby = true) (hr : s.carrier.inRange = false) :
    exec .inputInRange s = .next { s with carrier := s.carrier.inputIn } := next_ite_pos (by simp [h, hr])

theorem exec_inputOutOfRange (h : s.carrier.standby = true) (high : Bool) :
    exec (.inputOutOfRange high) s = .next (s.inputOut high) := next_ite_pos h

theorem exec_debounceExpiry (h : s.carrier.standby = true) (hr : s.carrier.inRange = true) (hd : s.carrier.debounced = false) :
    exec .debounceExpiry s = .next { s with carrier := s.carrier.debounceEnd } := next_ite_pos (by simp [h, hr, hd])

theorem exec_offTimeExpiry (h : s.carrier.standby = true) (ho : s.carrier.offTimeMet = false) (hu : s.carrier.railsUp = 0)
    (hq : s.carrier.seq ≠ .shuttingDown) : exec .offTimeExpiry s = .next { s with carrier := s.carrier.offTimeEnd } :=
  next_ite_pos (by simp [h, ho, hu, hq])

theorem exec_hotSwapOn (hq : s.carrier.seq = .charging) : exec .hotSwapOn s = .next { s with carrier := { s.carrier with
    seq := .sequencing, switchOn := true, starting := some 0 } } := next_ite_pos (by simp [hq])

theorem exec_railGood (hq : s.carrier.seq = .sequencing) (hs : s.carrier.starting.isSome = true) :
    exec .railGood s = .next (s.railGood (s.carrier.starting.getD 0)) := next_ite_pos (by simp [hq, hs])

theorem exec_railStartTimeout (hq : s.carrier.seq = .sequencing) (hs : s.carrier.starting.isSome = true) :
    exec .railStartTimeout s = .next ({ s with carrier := s.carrier.latch 1 (s.carrier.starting.getD 0) }.shutDown true) :=
  next_ite_pos (by simp [hq, hs])

theorem exec_railFault {rail : Nat} {high : Bool} (hl : s.carrier.railLive rail high = true) : exec (.railFault rail high) s =
    .next ({ s with carrier := s.carrier.latch (if high then 3 else 2) rail }.shutDown true) := next_ite_pos hl

theorem exec_inputOvercurrent (hc : s.carrier.conducts = true) : exec .inputOvercurrent s =
    .next ({ s with carrier := { s.carrier.latch 4 0 with switchOn := false } }.shutDown true) := next_ite_pos hc

theorem exec_lidOvertemp (h : s.carrier.standby = true) : exec .lidOvertemp s = .next s.lidFault := next_ite_pos h

theorem exec_railsOff (hq : s.carrier.seq = .shuttingDown) : exec .railsOff s = .next s.railsOff := next_ite_pos (by simp [hq])

theorem exec_offReq {ag : Agent} (h : s.carrier.standby = true) (hr : s.seqReach ag = true) :
    exec (.offReq ag) s = .next (s.seqWrite ag 0x80000000) := next_ite_pos (by simp [h, hr])

theorem exec_faultLatchedClear {ag : Agent} (h : s.carrier.standby = true) (hr : s.seqReach ag = true) :
    exec (.faultLatchedClear ag) s = .next (s.seqWrite ag 2) := next_ite_pos (by simp [h, hr])

theorem exec_modResetAssert (h : s.carrier.standby = true) (hl : s.carrier.resetLow = false) :
    exec .modResetAssert s = .next s.modResetAssert := next_ite_pos (by simp [h, hl])

theorem exec_modResetRelease (h : s.carrier.standby = true) (hl : s.carrier.resetLow = true) :
    exec .modResetRelease s = .next { s with carrier := s.carrier.resetReleased } := next_ite_pos (by simp [h, hl])

end

/-! ### What a shutdown, a rest and a MODULE reset leave -/

/-- What the assertion of a MODULE reset leaves of the management domain and the non-volatile store. -/
theorem Die.moduleAssert_mgmt (d : Die) (cause : Nat) : (d.moduleAssert cause).mgmt =
    { d.mgmt with dieReset := true, ready := false, tripLow := false, cause := cause } := by
  simp [Die.moduleAssert, Die.loseStack, Die.dropMem, Die.resetArrays]

theorem Die.moduleAssert_nv (d : Die) (cause : Nat) : (d.moduleAssert cause).nv = d.nv := by
  simp [Die.moduleAssert, Die.loseStack, Die.dropMem, Die.resetArrays]

theorem State.dropDie_powered (s : State) : s.dropDie.die.mgmt.powered = false := by
  unfold State.dropDie
  split
  · rfl
  · rename_i h
    exact Bool.eq_false_iff.2 h

theorem State.shutDown_powered (s : State) (b : Bool) : (s.shutDown b).die.mgmt.powered = false := by
  rw [State.shutDown_die, State.dropDie_powered]

theorem State.enterFault_recorded (s : State) : s.enterFault.die.get Reg.BOOT_START_PWR_FAULT = 1 :=
  Die.get_put_same s.die Reg.BOOT_START_PWR_FAULT 1 (by decide)

theorem State.restFault_recorded (s : State) : s.restFault.die.get Reg.BOOT_START_PWR_FAULT = 1 := by
  unfold State.restFault
  dsimp only
  split <;> exact State.enterFault_recorded _

theorem State.restFault_seq (s : State) : s.restFault.carrier.seq = if s.carrier.offHold = true then .standby else .fault := by
  unfold State.restFault
  dsimp only
  split <;> rfl

theorem State.restFault_carrier (s : State) : s.restFault.carrier = { s.carrier with
    abortHold := false, seq := if s.carrier.offHold = true then .standby else .fault } := by
  unfold State.restFault
  dsimp only
  split <;> simp [*]

theorem Carrier.latch_of_not_latched {c : Carrier} (h : c.latched = false) (k r : Nat) :
    c.latch k r = { c with latched := true, faultCause := k, faultRail := r } := by simp [Carrier.latch, h]

theorem Carrier.latch_of_latched {c : Carrier} (h : c.latched = true) (k r : Nat) : c.latch k r = c := by simp [Carrier.latch, h]

theorem Carrier.note_of_not_latched {c : Carrier} (h : c.latched = false) (k : Nat) :
    c.note k = { c with faultCause := k, faultRail := 0 } := by simp [Carrier.note, h]

theorem Carrier.note_of_latched {c : Carrier} (h : c.latched = true) (k : Nat) : c.note k = c := by simp [Carrier.note, h]

/-- An ordinary shutdown that reaches off rests in STANDBY under a hold or without input, and otherwise starts anew (R25, R43). -/
theorem State.railsOff_seq_of_ordinary {s : State} (h : s.carrier.toFault = false) : s.railsOff.carrier.seq =
    if s.carrier.held || !s.carrier.inRange then .standby
    else if s.carrier.pendingStart && s.carrier.debounced then .charging else .debounce := by
  have hheld : Carrier.held { s.carrier with
    railsUp := 0, starting := none, switchOn := false, offTimeMet := false, toFault := false, pendingStart := false } =
      s.carrier.held := rfl
  have hin : Carrier.inRange { s.carrier with
    railsUp := 0, starting := none, switchOn := false, offTimeMet := false, toFault := false, pendingStart := false } =
      s.carrier.inRange := rfl
  simp only [State.railsOff, h, hheld, hin, Bool.false_eq_true, if_false]
  split <;> rfl

/-- A shutdown begun by a latched fault ends at rest after the fault (R28). -/
theorem State.railsOff_of_fault {s : State} (h : s.carrier.toFault = true) :
    s.railsOff.carrier.seq = (if s.carrier.offHold = true then .standby else .fault) ∧
    s.railsOff.die.get Reg.BOOT_START_PWR_FAULT = 1 := by
  unfold State.railsOff
  rw [if_pos h]
  exact ⟨State.restFault_seq _, State.restFault_recorded _⟩

theorem State.railsOff_rest (s : State) : s.railsOff.carrier.railsUp = 0 ∧ s.railsOff.carrier.switchOn = false ∧
    s.railsOff.carrier.offTimeMet = false ∧ s.railsOff.carrier.faultCause = s.carrier.faultCause := by
  unfold State.railsOff
  dsimp only
  split
  · simp [State.restFault_carrier]
  · split <;> simp

/-- The lid is too hot while the rails may carry current (R28). -/
theorem State.lidFault_of_powered {s : State} (h : s.carrier.running = true ∨ s.carrier.seq = .shuttingDown) :
    s.lidFault = { s with carrier := s.carrier.latch 5 0 }.shutDown true := if_pos (by simpa using h)

theorem State.lidFault_of_off {s : State} (h : s.carrier.running = false) (hq : s.carrier.seq ≠ .shuttingDown) :
    s.lidFault = { s with carrier := s.carrier.latch 5 0 }.restFault := if_neg (by simp [h, hq])

/-- OFF_REQ of a running module takes its rails down (R29). -/
theorem State.offReq_of_running {s : State} (h : s.carrier.running = true) : s.offReq =
    { s with carrier := { s.carrier with offHold := true, abortHold := false, pendingStart := false } }.shutDown false := if_pos h

theorem State.offReq_of_rest {s : State} (h : s.carrier.running = false) (hq : s.carrier.seq ≠ .shuttingDown) : s.offReq =
    { s with carrier := { s.carrier with seq := .standby, offHold := true, abortHold := false, pendingStart := false } } := by
  have hrun : Carrier.running { s.carrier with offHold := true, abortHold := false, pendingStart := false } = false := h
  simp [State.offReq, hrun, hq]

theorem State.seqWrite_off (s : State) (ag : Agent) :
    s.seqWrite ag 0x80000000 = { s.offReq with die := s.offReq.die.answer ag stOk } := rfl

theorem State.seqWrite_clear (s : State) (ag : Agent) : s.seqWrite ag 2 = { s with
    carrier := { s.carrier with latched := false, faultCause := 0, faultRail := 0 }, die := s.die.answer ag stOk } := rfl

/-! ### The statements -/

/-- Settles O3: each part is read off the state after reset. -/
theorem resetLeavesTheSpecifiedState : Obligations.ResetLeavesTheSpecifiedState :=
  ⟨rfl, by decide, rfl, rfl, rfl, by decide, rfl, rfl, rfl, memory_wf_reset, fun _ => rfl, fun a => by
    show State.reset.die.memDefault a = 0
    simp [Die.memDefault, State.reset]⟩

/-- Settles O6: the loss of standby power is a MODULE reset that the always-on domain's registers, the strandline and management
go with. -/
theorem standbyPowerStartsAndEndsTheSequencer : Obligations.StandbyPowerStartsAndEndsTheSequencer := by
  intro s
  have hlost : s.die.standbyLost.host = (s.die.moduleAssert 1).host ∧ s.die.standbyLost.tiles = (s.die.moduleAssert 1).tiles ∧
      s.die.standbyLost.nv = (s.die.moduleAssert 1).nv := by simp [Die.standbyLost]
  obtain ⟨hhost, htiles, hnv⟩ := hlost
  exact ⟨fun h => ⟨exec_standbyPowerUp h, by decide⟩,
    fun h => ⟨_, exec_standbyPowerLoss h, rfl, rfl, rfl, rfl, hhost, htiles, hnv.trans (Die.moduleAssert_nv _ _),
      Die.get_put_same _ Reg.BOOT_START_PWR_FAULT 0 (by decide)⟩,
    fun h ha => exec_managementAlive h ha⟩

/-- The input leaves its range while the main conversion runs (R23, R29). -/
theorem State.inputOut_of_running {s : State} (h : s.carrier.running = true) (high : Bool) : s.inputOut high =
    State.shutDown { s with
      carrier := Carrier.note { s.carrier with uvlo := !high, ovlo := high, debounced := false } (if high then 7 else 6) } false :=
  if_pos h

theorem State.inputOut_of_idle {s : State} (h : s.carrier.running = false) (high : Bool) : s.inputOut high =
    { s with carrier := { s.carrier with
      uvlo := !high, ovlo := high, debounced := false,
      seq := if s.carrier.seq = .debounce then .standby else s.carrier.seq } } := by
  have hrun : Carrier.running { s.carrier with uvlo := !high, ovlo := high, debounced := false } = false := h
  simp [State.inputOut, hrun]

/-- Settles O7: each event of the input comes to its equation, with and without a fault latched before. -/
theorem inputRangeGovernsTheMainConversion : Obligations.InputRangeGovernsTheMainConversion := by
  intro s h
  refine ⟨fun hr => ?_, fun high hrun => ?_, fun high hrun => ?_, fun hr hd => ?_, fun ho hu hq => ?_⟩
  · rw [exec_inputInRange h hr]
    simp [Carrier.inputIn]
  · refine ⟨_, exec_inputOutOfRange h high, s.inputOut_pending high, ?_⟩
    rw [State.inputOut_of_running hrun, State.shutDown_powered, State.shutDown_carrier]
    cases hl : s.carrier.latched with
    | true => simp [Carrier.note_of_latched, Carrier.pwrGood, hl]
    | false => simp [Carrier.note_of_not_latched, Carrier.pwrGood, hl]
  · rw [exec_inputOutOfRange h, State.inputOut_of_idle hrun]
  · rw [exec_debounceExpiry h hr hd]
    simp [Carrier.debounceEnd]
  · rw [exec_offTimeExpiry h ho hu hq]
    simp [Carrier.offTimeEnd]

/-- Settles O8: a good rail is the last or starts the next, and a shutdown that reaches off rests by what began it. -/
theorem railsRiseInOrderAndShutdownsReachOff : Obligations.RailsRiseInOrderAndShutdownsReachOff := by
  intro s
  refine ⟨exec_hotSwapOn, fun r hq hs hr => ?_, fun hq hs => ?_, fun hq => ?_, exec_railGood, exec_railsOff⟩
  · rw [exec_railGood hq (by simp [hs])]
    simp [State.railGood, hs, hr]
  · refine ⟨_, exec_railGood hq (by simp [hs]), ?_⟩
    simp [State.railGood, hs, Carrier.pwrGood]
  · obtain ⟨hup, hsw, hoff, hcause⟩ := s.railsOff_rest
    refine ⟨_, exec_railsOff hq, s.railsOff_pending, hup, hsw, hoff, hcause, fun hf ho => ?_, fun hf ho => ?_, fun hf hh => ?_,
      fun hf hh hr hp => ?_⟩
    · obtain ⟨hseq, hrec⟩ := State.railsOff_of_fault hf
      exact ⟨by simp [hseq, ho], hrec⟩
    · simp [(State.railsOff_of_fault hf).1, ho]
    · rw [State.railsOff_seq_of_ordinary hf]
      rcases hh with hh | hh <;> simp [hh]
    · simp [State.railsOff_seq_of_ordinary hf, hh, hr, hp]

/-- Settles O9: each fault latches its cause where none is latched and shuts the rails down, or rests where they are off. -/
theorem latchedFaultsShutDownWithTheirCause : Obligations.LatchedFaultsShutDownWithTheirCause := by
  intro s
  refine ⟨fun r hq hs hl => ?_, fun rail high hlive hl => ?_, fun hc hl => ?_, fun h hrun hl => ?_, fun h hrun hq hl => ?_,
    fun hc hl => ?_, exec_railStartTimeout, fun rail high hlive => exec_railFault hlive, exec_inputOvercurrent, exec_lidOvertemp⟩
  · refine ⟨_, exec_railStartTimeout hq (by simp [hs]), State.shutDown_pending _ _, State.shutDown_powered _ _, ?_⟩
    simp [Carrier.latch_of_not_latched hl, hs]
  · refine ⟨_, exec_railFault hlive, State.shutDown_pending _ _, State.shutDown_powered _ _, ?_⟩
    simp [Carrier.latch_of_not_latched hl]
  · refine ⟨_, exec_inputOvercurrent hc, State.shutDown_pending _ _, State.shutDown_powered _ _, ?_⟩
    simp [Carrier.latch_of_not_latched hl]
  · rw [exec_lidOvertemp h, State.lidFault_of_powered hrun]
    refine ⟨_, rfl, State.shutDown_pending _ _, State.shutDown_powered _ _, ?_⟩
    simp [Carrier.latch_of_not_latched hl]
  · rw [exec_lidOvertemp h, State.lidFault_of_off hrun hq]
    refine ⟨_, rfl, State.restFault_pending _, ?_⟩
    simp [State.restFault_carrier, State.restFault_recorded, Carrier.latch_of_not_latched hl]
  · refine ⟨_, exec_inputOvercurrent hc, ?_⟩
    simp [Carrier.latch_of_latched hl]

/-- Settles O10: a write of OFF_REQ is `offReq` and one of FAULT_LATCHED clears the fault record. -/
theorem sequencerWritesHoldAndClear : Obligations.SequencerWritesHoldAndClear := by
  intro s ag h hr
  refine ⟨fun hrun => ?_, fun hrun hq => ?_, ?_, fun ag h hr => exec_offReq h hr⟩
  · refine ⟨_, exec_offReq h hr, s.seqWrite_pending ag _, ?_⟩
    simp [State.seqWrite_off, State.offReq_of_running hrun, Carrier.pwrGood]
  · refine ⟨_, exec_offReq h hr, ?_, ?_, s.seqWrite_pending ag _⟩
    · simp [State.seqWrite_off, State.offReq_of_rest hrun hq]
    · simp [State.seqWrite_off, State.offReq_of_rest hrun hq]
  · rw [exec_faultLatchedClear h hr, State.seqWrite_clear]

/-- Settles O11: what the pin does depends on the sequencer's state; the addresses are two commands to the die. -/
theorem modResetAndBusAddressing : Obligations.ModResetAndBusAddressing := by
  intro s
  refine ⟨fun h hl hq => ?_, fun h hl hq => ?_, fun h hl hh hq => ?_, fun h hl hq => ?_, fun a hr hm hd ha => ?_, fun a hr hm ha => ?_,
    exec_modResetAssert, exec_modResetRelease⟩
  · refine ⟨_, exec_modResetAssert h hl, s.modResetAssert_pending, ?_⟩
    simp [State.modResetAssert, hq, Die.moduleAssert_mgmt, Die.moduleAssert_nv]
  · refine ⟨_, exec_modResetAssert h hl, ?_⟩
    rcases hq with hq | hq <;> simp [State.modResetAssert, hq]
  · rw [exec_modResetRelease h hl]
    simp [Carrier.resetReleased, hh, hq]
  · rw [exec_modResetRelease h hl]
    simp [Carrier.resetReleased, hq]
  · exact next_ite_pos (by simp [hr, hm, hd, ha])
  · exact next_ite_pos (by simp [hr, hm, ha])

/-- Settles O13: no move of the carrier but its end reverses a shutdown, and off time and debounce meet in either order. -/
theorem shutdownsAreNeverReversed : Obligations.ShutdownsAreNeverReversed := by
  intro s h hwf
  have hs := (carrier_wf_iff_sound _).1 hwf
  refine ⟨fun hq => ⟨fun c t ht hoff hloss => ?_, fun hr => ?_, ?_⟩, fun hq => ⟨fun hd hr => ?_, fun ho => ?_⟩, fun hq => ?_⟩
  · obtain ⟨u, hu, -, hstep⟩ := exec_carrierStep c s
    obtain rfl : u = t := by simpa [hu] using ht
    exact hstep.shuttingDown h hq hoff hloss
  · refine ⟨_, exec_inputInRange h hr, ?_⟩
    simp [Carrier.inputIn, Carrier.inRange, hq]
  · obtain ⟨hup, hsw, hoff, -⟩ := s.railsOff_rest
    refine ⟨_, exec_railsOff hq, hup, hsw, hoff, fun hf hh hr hp => ?_⟩
    simp [State.railsOff_seq_of_ordinary hf, hh, hr, hp]
  · refine ⟨_, exec_debounceExpiry h hr hd, ?_⟩
    simp [Carrier.debounceEnd, hq]
  · have hu := hs.railsUp_of_resting (by simp [Carrier.resting, hq])
    refine ⟨_, exec_offTimeExpiry h ho hu (by simp [hq]), ?_⟩
    simp [Carrier.offTimeEnd, hq]
  · exact ⟨_, exec_hotSwapOn hq, rfl, rfl, hs.railsUp_of_resting (by simp [Carrier.resting, hq])⟩

end Sys2Proof.Machine
end

section
/-! PROOFS. The reference clock, the alarm pin and the registers' readiness (R43, R46, R47, R554). -/
namespace Sys2Proof.Machine

section
variable {s : State}

theorem exec_refLost (hl : s.die.live = true) (hs : s.die.on Reg.GLB_CLK_STATUS_REF_SEL = true) :
    exec .refLost s = .next { s with die := s.die.refLost } :=
  mainCmd_ok (ok := fun d => d.on Reg.GLB_CLK_STATUS_REF_SEL) (f := fun d => d.refLost) hl hs

theorem exec_refclkPresenceChange (hl : s.die.live = true) {present : Bool} (hp : s.die.mgmt.refIn ≠ present) :
    exec (.refclkPresenceChange present) s = .next { s with
      die := if !present && s.die.on Reg.GLB_CLK_STATUS_REF_SEL then s.die.refLost
        else Die.put { s.die with mgmt := { s.die.mgmt with refIn := present } } Reg.GLB_CLK_STATUS_REF_PRESENT (b2n present) } :=
  next_ite_pos (by simp [hl, hp])

theorem exec_registersReady (hl : s.die.live = true) (hr : s.die.mgmt.ready = false) :
    exec .registersReady s = .next { s with die := { s.die with mgmt := { s.die.mgmt with ready := true } } } :=
  next_ite_pos (by simp [hl, hr])

/-- A fall of the alarm pin latches it, and in a live die it is an alarm of source 4. -/
theorem exec_secAlarmNAssert (hx : s.die.sec.extLow = false) : exec .secAlarmNAssert s = .next { s with
      die := if s.die.live then Die.raiseAlarm { s.die with sec := { s.die.sec with extLow := true } } 4
        else { s.die with sec := { s.die.sec with extLow := true } } } :=
  next_ite_pos (by simp [hx])

theorem exec_securityAlarm_pin (hl : s.die.live = true) :
    exec (.securityAlarm 4) s = .next { s with die := s.die.raiseAlarm 4 } := next_ite_pos (by simp [hl])

theorem exec_secAlarmNRelease (hx : s.die.sec.extLow = true) : exec .secAlarmNRelease s =
    .next { s with die := { s.die with sec := { s.die.sec with extLow := false } } } := next_ite_pos hx

end

/-! ### REF_LOST and REF_PRESENT -/

variable (d : Die)

/-- The fields of GLB_CLK_STATUS after the loss of the selected clock. -/
def Die.clockLost (d : Die) : Die :=
  (((({ d with mgmt := { d.mgmt with refIn := false } } : Die).put Reg.GLB_CLK_STATUS_REF_SEL 0).put
    Reg.GLB_CLK_STATUS_REF_PRESENT 0).put Reg.GLB_CLK_STATUS_REF_LOST 1)

theorem Die.refLost_eq : d.refLost = d.clockLost.record 0x01 8 99 0xFFFF [] := rfl

theorem Die.clockLost_onlyRegs : OnlyRegs [Reg.GLB_CLK_STATUS] d d.clockLost :=
  OnlyRegs.trans (e := { d with mgmt := _ }) (fun _ _ => rfl)
    (((onlyRegs_put _ 0 (by decide)).trans (onlyRegs_put _ 0 (by decide))).trans (onlyRegs_put _ 1 (by decide)))

theorem Die.clockLost_fields : d.clockLost.get Reg.GLB_CLK_STATUS_REF_SEL = 0 ∧
    d.clockLost.get Reg.GLB_CLK_STATUS_REF_PRESENT = 0 ∧ d.clockLost.get Reg.GLB_CLK_STATUS_REF_LOST = 1 := by
  unfold Die.clockLost
  refine ⟨?_, ?_, ?_⟩ <;> simp (disch := decide) only [Die.get_put_same, Die.get_put_field] <;> rfl

/-- What the loss of the selected clock leaves (R47). -/
theorem Die.refLost_effect : d.refLost.get Reg.GLB_CLK_STATUS_REF_SEL = 0 ∧ d.refLost.get Reg.GLB_CLK_STATUS_REF_PRESENT = 0 ∧
    d.refLost.get Reg.GLB_CLK_STATUS_REF_LOST = 1 ∧ d.refLost.mgmt = { d.mgmt with refIn := false } ∧ SameMem d d.refLost ∧
    OnlyRegs (Reg.GLB_CLK_STATUS :: logRegs) d d.refLost := by
  have hregs := Die.record_onlyRegs d.clockLost 0x01 8 99 0xFFFF []
  have hlogs := Die.record_logsOnly d.clockLost 0x01 8 99 0xFFFF []
  obtain ⟨hsel, hpresent, hlost⟩ := d.clockLost_fields
  rw [Die.refLost_eq]
  refine ⟨?_, ?_, ?_, ?_, fun a => hlogs.sameMem a, ?_⟩
  · rw [hregs.get (by decide), hsel]
  · rw [hregs.get (by decide), hpresent]
  · rw [hregs.get (by decide), hlost]
  · rw [hlogs]
    rfl
  · exact (d.clockLost_onlyRegs.mono (by simp)).trans (hregs.mono fun _ h => List.mem_cons_of_mem _ h)

/-- What a clock that appears, or leaves unselected, leaves (R46). -/
theorem Die.refPresent_effect (present : Bool) (e : Die)
    (he : e = Die.put { d with mgmt := { d.mgmt with refIn := present } } Reg.GLB_CLK_STATUS_REF_PRESENT (b2n present)) :
    e.get Reg.GLB_CLK_STATUS_REF_PRESENT = b2n present ∧
    e.get Reg.GLB_CLK_STATUS_REF_SEL = d.get Reg.GLB_CLK_STATUS_REF_SEL ∧ e.mgmt = { d.mgmt with refIn := present } ∧ SameMem d e ∧
    OnlyRegs [Reg.GLB_CLK_STATUS] d e := by
  subst he
  have hregs : OnlyRegs [Reg.GLB_CLK_STATUS] { d with mgmt := { d.mgmt with refIn := present } }
      (Die.put { d with mgmt := { d.mgmt with refIn := present } } Reg.GLB_CLK_STATUS_REF_PRESENT (b2n present)) :=
    onlyRegs_put _ _ (by decide)
  refine ⟨?_, ?_, rfl, fun _ => rfl, hregs⟩
  · simp (disch := decide) only [Die.get_put_same]
    cases present <;> rfl
  · simp (disch := decide) only [Die.get_put_field]
    rfl

/-- Settles O12: a change of the clock is the loss of the selected one or a change of REF_PRESENT; the pin's fall is an alarm. -/
theorem clockAndPinEventsAreKept : Obligations.ClockAndPinEventsAreKept := by
  intro s
  refine ⟨fun hl hs => ?_, fun hl hr => ?_, fun hl hr hs => ?_, exec_registersReady, fun hx hl => ?_, fun hx hl => ?_,
    exec_secAlarmNRelease, fun present hl hp => ?_⟩
  · obtain ⟨hsel, hpresent, hlost, hmgmt, hmem, hregs⟩ := s.die.refLost_effect
    exact ⟨_, exec_refLost hl hs, rfl, rfl, hsel, hpresent, hlost, hmgmt, hmem, hregs⟩
  · obtain ⟨hpresent, hsel, -, hmem, hregs⟩ := s.die.refPresent_effect true _ rfl
    exact ⟨_, exec_refclkPresenceChange hl (by simp [hr]), rfl, rfl, hpresent, hsel, hmem, hregs⟩
  · obtain ⟨hpresent, -, -, -, hregs⟩ := s.die.refPresent_effect false _ rfl
    refine ⟨_, exec_refclkPresenceChange hl (by simp [hr]), ?_⟩
    simp only [hs, Bool.and_false, Bool.false_eq_true, if_false]
    exact ⟨hpresent, hregs⟩
  · rw [exec_secAlarmNAssert hx, if_neg (by simp [hl])]
  · have hlive : Die.live { s.die with sec := { s.die.sec with extLow := true } } = true := hl
    refine ⟨?_, _, exec_secAlarmNAssert hx, rfl, rfl⟩
    rw [exec_secAlarmNAssert hx, exec_securityAlarm_pin (s := { s with die := _ }) hlive, if_pos hl]
  · refine ⟨_, exec_refclkPresenceChange hl hp, rfl, rfl, ?_⟩
    by_cases hlost : present = false ∧ s.die.on Reg.GLB_CLK_STATUS_REF_SEL = true
    · obtain ⟨rfl, hs⟩ := hlost
      simp only [hs, Bool.not_false, Bool.and_self, if_true]
      exact ⟨s.die.refLost_effect.2.1, by simp, fun _ _ => trivial⟩
    · obtain ⟨hpresent, -, hmgmt, -, hregs⟩ := s.die.refPresent_effect present _ rfl
      rw [if_neg (by simpa using hlost)]
      exact ⟨hpresent, fun _ => ⟨hmgmt, hregs⟩, fun hp hs => absurd ⟨hp, hs⟩ hlost⟩

end Sys2Proof.Machine
end

section
/-! PROOFS. The power guard, the integrators, the cap loop and the thermal trip (R21, R32, R483, R484, R489, R490, R492). -/
namespace Sys2Proof.Machine

/-! ### Records among other writes -/

/-- A record stays the one that was sent, whatever else moves beside the strandline's queue, its counter and the time. -/
theorem Recorded.frame {src ev dom sub : Nat} {d d' e e' : Die} (h : Recorded src ev dom sub d e)
    (hd : d'.strand = d.strand ∧ d'.clock = d.clock ∧ d'.getW Reg.STL_HEAD = d.getW Reg.STL_HEAD)
    (he : e'.strand = e.strand ∧ e'.getW Reg.STL_HEAD = e.getW Reg.STL_HEAD) : Recorded src ev dom sub d' e' := by
  obtain ⟨hstrand, hclock, hhead⟩ := hd
  obtain ⟨hstrand', hhead'⟩ := he
  unfold Recorded Die.now at *
  rwa [hstrand, hclock, hhead, hstrand', hhead']

/-- A record and an alert sent together: the record stands in the queue, and only the log's registers move. -/
theorem Die.recordAlert_effect (d : Die) (src ev dom sub : Nat) (det : List Nat) (b : Nat) :
    Recorded src ev dom sub d ((d.record src ev dom sub det).alert b) ∧
    LogsOnly d ((d.record src ev dom sub det).alert b) ∧ OnlyRegs logRegs d ((d.record src ev dom sub det).alert b) := by
  have hregs := Die.alert_onlyRegs (d.record src ev dom sub det) b
  exact ⟨(Die.record_recorded d src ev dom sub det).frame ⟨rfl, rfl, rfl⟩ ⟨Die.alert_strand _ _, hregs _ (by decide)⟩,
    (Die.record_logsOnly _ _ _ _ _ _).trans (Die.alert_logsOnly _ _),
    (Die.record_onlyRegs _ _ _ _ _ _).trans (hregs.mono (by decide))⟩

/-! ### The guard -/

variable (d : Die)

/-- The guard's registers as it fires with `cause`: its bits, and PWR_FAST merged into the demand (R490). -/
def Die.guardSet (d : Die) (cause : Nat) : Die :=
  (((d.put Reg.PWR_GUARD_CAUSE cause).put ⟨Reg.PWR_GUARD, cause, 1⟩ 1).put Reg.PWR_GUARD_ACTIVE 1).putW Reg.TIDE_THROTTLE
    (w32 (mergeThrottle d.sense.demand d.fastDemand))

/-- A firing counted. -/
def Die.guardCounted (d : Die) : Die :=
  { d with sense := { d.sense with fired := true, guardCount := d.sense.guardCount + 1 } }

theorem Die.guardCounted_getW (a : Nat) : d.guardCounted.getW a = d.getW a := rfl
theorem Die.guardCounted_byteAt (a : Nat) : d.guardCounted.byteAt a = d.byteAt a := rfl
theorem Die.guardSet_byteAt (cause a : Nat) : (d.guardSet cause).byteAt a = d.byteAt a := by simp [Die.guardSet]
theorem Die.guardSet_strand (cause : Nat) : (d.guardSet cause).strand = d.strand := by simp [Die.guardSet]
theorem Die.guardSet_clock (cause : Nat) : (d.guardSet cause).clock = d.clock := by simp [Die.guardSet]
theorem Die.guardSet_sense (cause : Nat) : (d.guardSet cause).sense = d.sense := by simp [Die.guardSet]
theorem Die.guardCounted_strand : d.guardCounted.strand = d.strand := rfl
theorem Die.guardCounted_clock : d.guardCounted.clock = d.clock := rfl

theorem Die.guardFire_eq (cause : Nat) :
    d.guardFire cause = ((d.guardSet cause).guardCounted.record 0x02 1 99 0xFFFF [cause]).alert alPower := by
  have hfast : ((((d.put Reg.PWR_GUARD_CAUSE cause).put ⟨Reg.PWR_GUARD, cause, 1⟩ 1).put Reg.PWR_GUARD_ACTIVE 1)).fastDemand =
      d.fastDemand := by
    unfold Die.fastDemand
    rw [Die.getW_put_ne _ _ _ (by decide), Die.getW_put_ne _ _ _ (show _ ≠ Reg.PWR_GUARD by decide), Die.getW_put_ne _ _ _ (by decide)]
  simp only [Die.guardFire, Die.raise_eq, hfast]
  rfl

theorem Die.guardSet_onlyRegs (cause : Nat) : OnlyRegs [Reg.PWR_GUARD, Reg.TIDE_THROTTLE] d (d.guardSet cause) :=
  (((onlyRegs_put d _ (by decide)).trans (onlyRegs_put _ _ (by simp))).trans (onlyRegs_put _ _ (by decide))).trans
    (onlyRegs_putW _ _ (by decide))

theorem Die.guardSet_fields {cause : Nat} (h1 : 1 ≤ cause) (h4 : cause ≤ 4) :
    (d.guardSet cause).get Reg.PWR_GUARD_CAUSE = cause ∧ (d.guardSet cause).get ⟨Reg.PWR_GUARD, cause, 1⟩ = 1 ∧
    (d.guardSet cause).get Reg.PWR_GUARD_ACTIVE = 1 ∧
    (d.guardSet cause).getW Reg.TIDE_THROTTLE = w32 (mergeThrottle d.sense.demand d.fastDemand) := by
  have hlast : OnlyRegs [Reg.TIDE_THROTTLE]
      (((d.put Reg.PWR_GUARD_CAUSE cause).put ⟨Reg.PWR_GUARD, cause, 1⟩ 1).put Reg.PWR_GUARD_ACTIVE 1) (d.guardSet cause) :=
    onlyRegs_putW _ _ (by simp)
  have hbit : (⟨Reg.PWR_GUARD, cause, 1⟩ : Fld).lo + (⟨Reg.PWR_GUARD, cause, 1⟩ : Fld).width ≤ 8 := by show cause + 1 ≤ 8; omega
  refine ⟨?_, ?_, ?_, Die.getW_putW_same _ _ _⟩
  · rw [hlast.get (by decide), Die.get_put_field _ Reg.PWR_GUARD_ACTIVE Reg.PWR_GUARD_CAUSE _ (by decide) rfl (by decide),
      Die.get_put_field _ ⟨Reg.PWR_GUARD, cause, 1⟩ Reg.PWR_GUARD_CAUSE _ (by omega) rfl (.inr hbit), Die.get_put_same _ _ _ (by decide)]
    exact Nat.mod_eq_of_lt (by show cause < 8; omega)
  · rw [hlast.get (show Reg.PWR_GUARD ∉ _ by decide), Die.get_put_field _ Reg.PWR_GUARD_ACTIVE ⟨Reg.PWR_GUARD, cause, 1⟩ _ (by decide) rfl (.inr h1),
      Die.get_put_same _ _ _ (by omega)]
    rfl
  · rw [hlast.get (by decide), Die.get_put_same _ _ _ (by decide)]
    rfl

/-- What a firing of the guard leaves (R490). -/
theorem Die.guardFire_effect {cause : Nat} (h1 : 1 ≤ cause) (h4 : cause ≤ 4) :
    ((d.guardFire cause).get Reg.PWR_GUARD_CAUSE = cause ∧ (d.guardFire cause).get ⟨Reg.PWR_GUARD, cause, 1⟩ = 1 ∧
      (d.guardFire cause).get Reg.PWR_GUARD_ACTIVE = 1 ∧
      (d.guardFire cause).getW Reg.TIDE_THROTTLE = w32 (mergeThrottle d.sense.demand d.fastDemand)) ∧
    Recorded 0x02 1 99 0xFFFF d (d.guardFire cause) ∧ SameMem d (d.guardFire cause) ∧
    OnlyRegs (Reg.PWR_GUARD :: Reg.TIDE_THROTTLE :: logRegs) d (d.guardFire cause) ∧
    (d.guardFire cause).sense = { d.sense with fired := true, guardCount := d.sense.guardCount + 1 } := by
  obtain ⟨hcause, hbit, hactive, hthr⟩ := d.guardSet_fields h1 h4
  have hset := d.guardSet_onlyRegs cause
  obtain ⟨hrec, hlogs, hregs⟩ := (d.guardSet cause).guardCounted.recordAlert_effect 0x02 1 99 0xFFFF [cause] alPower
  have hcount : OnlyRegs logRegs (d.guardSet cause) (d.guardSet cause).guardCounted :=
    fun a _ => Die.guardCounted_getW _ a
  rw [Die.guardFire_eq]
  generalize ((d.guardSet cause).guardCounted.record 0x02 1 99 0xFFFF [cause]).alert alPower = e at *
  have hregs' := hcount.trans hregs
  refine ⟨⟨?_, ?_, ?_, ?_⟩, hrec.frame ⟨?_, ?_, ?_⟩ ⟨rfl, rfl⟩, fun a => ?_, ?_, ?_⟩
  · rw [hregs'.get (by decide), hcause]
  · rw [hregs'.get (show Reg.PWR_GUARD ∉ _ by decide), hbit]
  · rw [hregs'.get (by decide), hactive]
  · rw [hregs' _ (by decide), hthr]
  · rw [Die.guardCounted_strand, Die.guardSet_strand]
  · rw [Die.guardCounted_clock, Die.guardSet_clock]
  · rw [Die.guardCounted_getW, hset _ (by decide)]
  · rw [hlogs.sameMem a, Die.guardCounted_byteAt, Die.guardSet_byteAt]
  · exact (hset.mono (by simp)).trans (hregs'.mono (by simp +contextual))
  · rw [hlogs]
    show (d.guardSet cause).guardCounted.sense = _
    rw [Die.guardCounted, Die.guardSet_sense]

/-! ### Triggers -/

theorem Die.setConv_eq (c : Nat) (x : Conv) : d.setConv c x = { d with sense := (d.setConv c x).sense } := by
  unfold Die.setConv
  split <;> rfl

/-- A trigger moves the monitor's sequencers and MON_STATUS. -/
theorem Die.triggerOn_eq (c src : Nat) :
    d.triggerOn c src = { d with sense := (d.triggerOn c src).sense, regs := (d.triggerOn c src).regs } := by
  unfold Die.triggerOn
  dsimp only
  repeat' split
  · rfl
  · rfl
  · rw [Die.setConv_eq]
  · rw [Die.setConv_eq]

theorem Die.triggerOn_onlyRegs (c src : Nat) : OnlyRegs [Reg.MON_STATUS] d (d.triggerOn c src) := by
  have hconv : ∀ (e : Die) (x : Conv), OnlyRegs [Reg.MON_STATUS] e (e.setConv c x) := by
    intro e x
    rw [Die.setConv_eq]
    exact fun _ _ => rfl
  unfold Die.triggerOn
  dsimp only
  repeat' split
  · exact OnlyRegs.refl _ d
  · exact onlyRegs_put d 1 (by decide)
  · exact OnlyRegs.trans (e := { d with sense := _ }) (fun _ _ => rfl) (hconv _ _)
  · exact hconv _ _

/-- What a trigger leaves alone. -/
theorem Die.trigger_frame (src : Nat) : (d.trigger src).strand = d.strand ∧ SameMem d (d.trigger src) ∧
    OnlyRegs [Reg.MON_STATUS] d (d.trigger src) := by
  have h0 := d.triggerOn_eq 0 src
  have h1 := (d.triggerOn 0 src).triggerOn_eq 1 src
  refine ⟨?_, fun a => ?_, (d.triggerOn_onlyRegs 0 src).trans (Die.triggerOn_onlyRegs _ 1 src)⟩
  · unfold Die.trigger
    rw [h1, h0]
  · unfold Die.trigger
    rw [h1, h0]
    rfl

/-! ### Windows and demands -/

theorem Die.put64_onlyRegs (a v : Nat) : OnlyRegs [a, a + 4] d (d.put64 a v) :=
  (onlyRegs_putW d _ (by simp)).trans (onlyRegs_putW _ _ (by simp))

/-- A 64-bit quantity reads what was written, cut to 64 bits (R9). -/
theorem Die.get64_put64 (a v : Nat) : (d.put64 a v).get64 a = v % 2 ^ 64 := by
  unfold Die.get64 Die.put64
  rw [Die.getW_putW_ne _ _ (by omega), Die.getW_putW_same, Die.getW_putW_same, w32_toNat, w32_toNat]
  omega

theorem Die.get64_congr {e : Die} {a : Nat} {rs : List Nat} (h : OnlyRegs rs d e) (h0 : a ∉ rs) (h1 : a + 4 ∉ rs) :
    e.get64 a = d.get64 a := by
  unfold Die.get64
  rw [h _ h0, h _ h1]

theorem Die.writeDemand_onlyRegs (w : Nat) : OnlyRegs [Reg.TIDE_THROTTLE] d (d.writeDemand w) :=
  OnlyRegs.trans (e := { d with sense := _ }) (fun _ _ => rfl) (onlyRegs_putW _ _ (by decide))

theorem Die.writeDemand_sense (w : Nat) : (d.writeDemand w).sense = { d.sense with demand := w } := rfl

theorem Die.writeThrottle_onlyRegs : OnlyRegs [Reg.TIDE_THROTTLE] d d.writeThrottle := d.writeDemand_onlyRegs _

/-- A demand written leaves the cap loop's settings. -/
theorem Die.writeThrottle_cap : d.writeThrottle.sense.sCap = d.sense.sCap ∧ d.writeThrottle.sense.kCap = d.sense.kCap := by
  unfold Die.writeThrottle
  rw [Die.writeDemand_sense]
  exact ⟨rfl, rfl⟩

/-! ### The integrators -/

/-- A sample adds up its readings, and then fires the guard or not (R483, R490). -/
theorem Die.intSample_cases (v i : Nat) : ∃ e : Die, (d.intSample v i = e ∨ d.intSample v i = e.guardFire 3) ∧
    e.sense.samples = d.sense.samples + 1 ∧ e.sense.vSum = d.sense.vSum + d.intReading 2 v ∧
    e.sense.iSum = d.sense.iSum + d.intReading 3 i ∧
    e.sense.acc = d.sense.acc + d.intReading 2 v * d.intReading 3 i / 1000 ∧ SameMem d e := by
  unfold Die.intSample
  dsimp only
  refine ⟨_, (ite_eq_or_eq _ _ _).symm, ?_⟩
  simp only [Die.put_sense, SameMem, Die.put_byteAt]
  exact ⟨trivial, trivial, trivial, trivial, fun _ => rfl⟩

/-- What a sample adds up, whatever the guard makes of it. -/
theorem Die.intSample_sums (v i : Nat) :
    (d.intSample v i).sense.samples = d.sense.samples + 1 ∧
    (d.intSample v i).sense.vSum = d.sense.vSum + d.intReading 2 v ∧
    (d.intSample v i).sense.iSum = d.sense.iSum + d.intReading 3 i ∧
    (d.intSample v i).sense.acc = d.sense.acc + d.intReading 2 v * d.intReading 3 i / 1000 ∧
    SameMem d (d.intSample v i) := by
  obtain ⟨e, he, hsamples, hv, hi, hacc, hmem⟩ := d.intSample_cases v i
  rcases he with he | he
  · rw [he]
    exact ⟨hsamples, hv, hi, hacc, hmem⟩
  · obtain ⟨-, -, hmem', -, hsense⟩ := e.guardFire_effect (cause := 3) (by decide) (by decide)
    rw [he, hsense]
    exact ⟨hsamples, hv, hi, hacc, fun a => (hmem' a).trans (hmem a)⟩

/-- The registers that a window's end writes before the coefficients (R483, R484). -/
def Die.windowRegs (d : Die) (short : Bool) : Die :=
  (((((d.put64 (Reg.MON_INT_WIN 0) (d.sense.winStart / windowNs d.sense.intCfg)).putW Reg.MON_INT_E
      (w32 (d.sense.acc / 1000))).putW Reg.MON_INT_AVG
      (w32 (min 65535 (d.sense.iSum / max 1 d.sense.samples) + min 65535 (d.sense.vSum / max 1 d.sense.samples) * 65536))).putW
      Reg.MON_INT_PMAX (w32 (min 65535 (d.sense.pMax / 100) + b2n (short || d.sense.short) * 65536 + b2n d.sense.gap * 131072))).bump64
      (Reg.MON_ENERGY 0) (d.sense.acc / 1000))

/-- The coefficients that wait take force. -/
def Die.scalsIn (d : Die) (l : List (Nat × Nat × Nat)) : Die :=
  l.foldl (fun x p => x.putW (Reg.MON_SCAL p.1) (w32 (p.2.1 * 65536 + p.2.2))) d

theorem Die.scalsIn_onlyRegs (l : List (Nat × Nat × Nat)) (hl : ∀ p ∈ l, p.1 < 4) (e : Die) :
    OnlyRegs [Reg.MON_SCAL 0, Reg.MON_SCAL 1, Reg.MON_SCAL 2, Reg.MON_SCAL 3] e (e.scalsIn l) := by
  refine List.foldlRecOn l _ (OnlyRegs.refl _ e) fun x hx p hp => hx.trans (onlyRegs_putW x _ ?_)
  have hp4 : p.1 < 4 := hl p hp
  interval_cases p.1 <;> simp

theorem Die.scalsIn_keeps (l : List (Nat × Nat × Nat)) (e : Die) : (e.scalsIn l).tenancy = e.tenancy :=
  List.foldlRecOn (motive := fun x : Die => x.tenancy = e.tenancy) l _ rfl fun _ hx _ _ => hx

theorem Die.windowRegs_values (short : Bool) :
    (d.windowRegs short).getW Reg.MON_INT_E = w32 (d.sense.acc / 1000) ∧
    (d.windowRegs short).get64 (Reg.MON_ENERGY 0) = (d.get64 (Reg.MON_ENERGY 0) + d.sense.acc / 1000) % 2 ^ 64 := by
  constructor
  · unfold Die.windowRegs Die.bump64
    rw [Die.put64_onlyRegs _ _ _ _ (by decide), Die.getW_putW_ne _ _ (by decide), Die.getW_putW_ne _ _ (by decide),
      Die.getW_putW_same]
  · unfold Die.windowRegs Die.bump64
    have hregs : ∀ (n : Nat) (v w x : Word), OnlyRegs [Reg.MON_INT_WIN 0, Reg.MON_INT_WIN 0 + 4, Reg.MON_INT_E, Reg.MON_INT_AVG, Reg.MON_INT_PMAX] d
        ((((d.put64 (Reg.MON_INT_WIN 0) n).putW Reg.MON_INT_E v).putW Reg.MON_INT_AVG w).putW Reg.MON_INT_PMAX x) := fun n v w x =>
      ((((d.put64_onlyRegs _ n).mono (by simp)).trans (onlyRegs_putW _ v (by simp))).trans (onlyRegs_putW _ w (by simp))).trans
        (onlyRegs_putW _ x (by simp))
    rw [Die.get64_put64, Die.get64_congr d (hregs _ _ _ _) (by decide) (by decide)]

/-- The integrators start again after a window of `d` (R484). -/
def Die.windowRestart (x d : Die) : Die :=
  { x with
    sense := { x.sense with
      acc := d.sense.acc % 1000, vSum := 0, iSum := 0, samples := 0, pMax := 0, winStart := d.now,
      short := decide (d.now % windowNs (d.get Reg.MON_INT_CFG_KIND, d.get Reg.MON_INT_CFG_LEN) ≠ 0), gap := false,
      intCfg := (d.get Reg.MON_INT_CFG_KIND, d.get Reg.MON_INT_CFG_LEN), scalNext := [],
      calV := x.nv.scalV, calI := x.nv.scalI },
    tenancy := if d.computeHeld then x.tenancy
      else { x.tenancy with energy := x.tenancy.energy ++ [(d.sense.acc / 1000, d.sense.winStart, d.now)] } }

theorem Die.windowEnd_eq (short : Bool) :
    d.windowEnd short = ((d.windowRegs short).scalsIn d.sense.scalNext).windowRestart d := rfl

theorem Die.windowRestart_fields (x : Die) : (x.windowRestart d).sense.acc = d.sense.acc % 1000 ∧
    (x.windowRestart d).sense.samples = 0 ∧ (x.windowRestart d).sense.scalNext = [] ∧
    (x.windowRestart d).tenancy.energy = (if d.computeHeld then x.tenancy.energy
      else x.tenancy.energy ++ [(d.sense.acc / 1000, d.sense.winStart, d.now)]) ∧ OnlyRegs [] x (x.windowRestart d) := by
  refine ⟨rfl, rfl, rfl, ?_, fun _ _ => rfl⟩
  unfold Die.windowRestart
  dsimp only
  split <;> rfl

theorem Die.windowRegs_tenancy (short : Bool) : (d.windowRegs short).tenancy = d.tenancy := by
  simp [Die.windowRegs, Die.bump64, Die.put64]

/-- What a window's end reports and restarts (R483, R484). -/
theorem Die.windowEnd_reports (short : Bool) (hl : ∀ p ∈ d.sense.scalNext, p.1 < 4) :
    (d.windowEnd short).getW Reg.MON_INT_E = w32 (d.sense.acc / 1000) ∧
    (d.windowEnd short).get64 (Reg.MON_ENERGY 0) = (d.get64 (Reg.MON_ENERGY 0) + d.sense.acc / 1000) % 2 ^ 64 ∧
    (d.windowEnd short).sense.acc = d.sense.acc % 1000 ∧ (d.windowEnd short).sense.samples = 0 ∧
    (d.windowEnd short).sense.scalNext = [] ∧
    (d.windowEnd short).tenancy.energy = (if d.computeHeld then d.tenancy.energy
      else d.tenancy.energy ++ [(d.sense.acc / 1000, d.sense.winStart, d.now)]) := by
  obtain ⟨hacc, hsamples, hnext, hten, hsame⟩ :=
    d.windowRestart_fields ((d.windowRegs short).scalsIn d.sense.scalNext)
  have hregs := (Die.scalsIn_onlyRegs _ hl (d.windowRegs short)).trans (hsame.mono (by simp))
  obtain ⟨he, henergy⟩ := d.windowRegs_values short
  rw [Die.scalsIn_keeps, Die.windowRegs_tenancy] at hten
  rw [Die.windowEnd_eq]
  exact ⟨(hregs _ (by decide)).trans he, (Die.get64_congr _ hregs (by decide) (by decide)).trans henergy, hacc, hsamples, hnext, hten⟩

/-! ### The cap loop -/

/-- The cap loop's state after new settings. -/
def Die.withCap (d : Die) (sCap kCap : Nat) : Die :=
  { d with sense := { d.sense with sCap := sCap, kCap := kCap, fired := false } }

theorem Die.withCap_writeThrottle (sCap kCap : Nat) :
    (d.withCap sCap kCap).writeThrottle.sense.sCap = sCap ∧ (d.withCap sCap kCap).writeThrottle.sense.kCap = kCap ∧
    OnlyRegs [Reg.TIDE_THROTTLE] d (d.withCap sCap kCap).writeThrottle := by
  obtain ⟨hs, hk⟩ := (d.withCap sCap kCap).writeThrottle_cap
  exact ⟨hs, hk, OnlyRegs.trans (e := d.withCap sCap kCap) (fun _ _ => rfl) (Die.writeThrottle_onlyRegs _)⟩

section
variable {d} {p : Nat} (hp : p = (d.sense.means.take 10).sum / max 1 (d.sense.means.take 10).length)
  (hf : d.sense.fired = false) (ha : d.on Reg.PWR_GUARD_ACTIVE = false)
include hp hf ha

/-- Between 98 % of the cap and the cap the settings stay (R492). -/
theorem Die.capLoop_inside (h1 : p ≤ d.sense.cap * 1000) (h2 : 98 * d.sense.cap * 1000 ≤ p * 100) :
    d.capLoop = (d.withCap d.sense.sCap d.sense.kCap).writeThrottle := by
  unfold Die.capLoop
  simp only [← hp, ha, hf, Bool.false_eq_true, if_false, if_neg (Nat.not_lt.mpr h1), if_neg (Nat.not_lt.mpr h2)]
  rfl

/-- Above the cap with the stretch at its end the divider starts at 8. -/
theorem Die.capLoop_above (h1 : d.sense.cap * 1000 < p) (h2 : 255 ≤ d.sense.sCap) (h3 : d.sense.kCap = 0) :
    d.capLoop = (d.withCap d.sense.sCap 8).writeThrottle := by
  unfold Die.capLoop
  simp only [← hp, ha, hf, h3, Bool.false_eq_true, if_false, if_pos h1, if_neg (Nat.not_lt.mpr h2), if_true]
  rfl

/-- Below 98 % of the cap the stretch goes down. -/
theorem Die.capLoop_below (h1 : p * 100 < 98 * d.sense.cap * 1000) (h3 : d.sense.kCap = 0) :
    d.capLoop = (d.withCap (d.sense.sCap - 1) d.sense.kCap).writeThrottle := by
  unfold Die.capLoop
  simp only [← hp, ha, hf, h3, Bool.false_eq_true, if_false, if_neg (show ¬ d.sense.cap * 1000 < p by omega), if_pos h1, ne_eq,
    not_true_eq_false]
  rfl

end

end Sys2Proof.Machine
end

section
/-! PROOFS. The thermal trip, and the commands of the guard and the integrators (R489, R490). -/
namespace Sys2Proof.Machine
variable (d : Die)

/-! ### The thermal trip -/

/-- The trip's bits and its count (R489). -/
def Die.tripBits (d : Die) : Die :=
  ((d.put Reg.THM_TRIP_TRIP 1).put Reg.THM_TRIP_TRIPPED 1).bump Reg.THM_TRIP_CNT_COUNT 1

/-- THERMTRIP_N goes low. -/
def Die.tripPin (d : Die) : Die := { d with mgmt := { d.mgmt with tripLow := true } }

/-- The die with the trip's bits, its count and THERMTRIP_N (R489). -/
def Die.tripSet (d : Die) : Die := d.tripBits.tripPin

/-- The trip with its alert and its record. -/
def Die.tripped (d : Die) : Die := (d.tripSet.alert alThermal).record 0x09 1 94 0xFFFF [d.tripSet.diode]

/-- The clocks of the tiles gated at once (R489). -/
def Die.gateClocks (d : Die) : Die := { d with sense := { d.sense with gated := true } }

theorem Die.gateClocks_gated : d.gateClocks.sense.gated = true := rfl
theorem Die.gateClocks_frame : d.gateClocks.mgmt = d.mgmt ∧ d.gateClocks.strand = d.strand ∧
    (∀ a, d.gateClocks.getW a = d.getW a) ∧ SameMem d d.gateClocks := ⟨rfl, rfl, fun _ => rfl, fun _ => rfl⟩

theorem Die.thermalTrip_eq : d.thermalTrip = if d.armed then d.tripped.faultStop 6 d.coord else d.tripped.gateClocks := rfl

theorem Die.tripPin_onlyRegs (rs : List Nat) : OnlyRegs rs d d.tripPin := fun _ _ => rfl
theorem Die.tripPin_strand : d.tripPin.strand = d.strand := rfl
theorem Die.tripPin_clock : d.tripPin.clock = d.clock := rfl
theorem Die.tripPin_tide : d.tripPin.tide = d.tide := rfl
theorem Die.tripPin_byteAt (a : Nat) : d.tripPin.byteAt a = d.byteAt a := rfl
theorem Die.tripPin_mgmt : d.tripPin.mgmt.tripLow = true := rfl

theorem Die.tripSet_onlyRegs : OnlyRegs [Reg.THM_TRIP, Reg.THM_TRIP_CNT] d d.tripSet :=
  (((onlyRegs_put d _ (by decide)).trans (onlyRegs_put _ _ (by decide))).trans (onlyRegs_bump _ _ (by decide))).trans
    (Die.tripPin_onlyRegs _ _)

theorem Die.tripSet_fields : d.tripSet.get Reg.THM_TRIP_TRIP = 1 ∧ d.tripSet.get Reg.THM_TRIP_TRIPPED = 1 := by
  have hlast : OnlyRegs [Reg.THM_TRIP_CNT] ((d.put Reg.THM_TRIP_TRIP 1).put Reg.THM_TRIP_TRIPPED 1) d.tripSet :=
    (onlyRegs_bump _ _ (by decide)).trans (Die.tripPin_onlyRegs _ _)
  constructor
  · rw [hlast.get (by decide), Die.get_put_field _ Reg.THM_TRIP_TRIPPED Reg.THM_TRIP_TRIP _ (by decide) rfl (by decide),
      Die.get_put_same _ _ _ (by decide)]
    rfl
  · rw [hlast.get (by decide), Die.get_put_same _ _ _ (by decide)]
    rfl

theorem Die.bump_strand (f : Fld) (n : Nat) : (d.bump f n).strand = d.strand := rfl
theorem Die.bump_clock (f : Fld) (n : Nat) : (d.bump f n).clock = d.clock := rfl
theorem Die.bump_tide (f : Fld) (n : Nat) : (d.bump f n).tide = d.tide := rfl
theorem Die.bump_byteAt (f : Fld) (n a : Nat) : (d.bump f n).byteAt a = d.byteAt a := rfl

theorem Die.tripSet_strand : d.tripSet.strand = d.strand := by
  rw [Die.tripSet, Die.tripPin_strand, Die.tripBits, Die.bump_strand, Die.put_strand, Die.put_strand]
theorem Die.tripSet_clock : d.tripSet.clock = d.clock := by
  rw [Die.tripSet, Die.tripPin_clock, Die.tripBits, Die.bump_clock, Die.put_clock, Die.put_clock]
theorem Die.tripSet_tide : d.tripSet.tide = d.tide := by
  rw [Die.tripSet, Die.tripPin_tide, Die.tripBits, Die.bump_tide, Die.put_tide, Die.put_tide]
theorem Die.tripSet_low : d.tripSet.mgmt.tripLow = true := Die.tripPin_mgmt _
theorem Die.tripSet_byteAt (a : Nat) : d.tripSet.byteAt a = d.byteAt a := by
  rw [Die.tripSet, Die.tripPin_byteAt, Die.tripBits, Die.bump_byteAt, Die.put_byteAt, Die.put_byteAt]

/-- What every trip leaves, armed or not. -/
theorem Die.tripped_effect :
    d.tripped.get Reg.THM_TRIP_TRIP = 1 ∧ d.tripped.get Reg.THM_TRIP_TRIPPED = 1 ∧ Recorded 0x09 1 94 0xFFFF d d.tripped ∧
    OnlyRegs (Reg.THM_TRIP :: Reg.THM_TRIP_CNT :: logRegs) d d.tripped ∧ LogsOnly d.tripSet d.tripped := by
  have halert := Die.alert_onlyRegs d.tripSet alThermal
  have hrec := Die.record_recorded (d.tripSet.alert alThermal) 0x09 1 94 0xFFFF [d.tripSet.diode]
  have hregs : OnlyRegs logRegs d.tripSet d.tripped :=
    (halert.mono (by decide)).trans (Die.record_onlyRegs _ _ _ _ _ _)
  have hset := d.tripSet_onlyRegs
  obtain ⟨htrip, htripped⟩ := d.tripSet_fields
  refine ⟨?_, ?_, hrec.frame ⟨?_, ?_, ?_⟩ ⟨rfl, rfl⟩, ?_, (Die.alert_logsOnly _ _).trans (Die.record_logsOnly _ _ _ _ _ _)⟩
  · rw [hregs.get (by decide), htrip]
  · rw [hregs.get (by decide), htripped]
  · rw [Die.alert_strand, Die.tripSet_strand]
  · rw [(Die.alert_logsOnly _ _).clock, Die.tripSet_clock]
  · rw [halert _ (by decide), hset _ (by decide)]
  · exact (hset.mono (by simp)).trans (hregs.mono (by simp +contextual))

/-- Disabling tiles leaves the tide block alone. -/
theorem Die.setEnable_tide (t : Nat) (en : Bool) : (d.setEnable t en).tide = d.tide := by
  have hmod : ∀ (e : Die) (f : Tile1 → Tile1), (e.modTile t f).tide = e.tide := fun _ _ => rfl
  unfold Die.setEnable
  simp only [Die.raise_eq, Die.clear_eq]
  split
  · split
    · rw [hmod]
    · rw [Die.put_tide]
  · rw [hmod, Die.put_tide]

theorem Die.enableAll_tide (en : Bool) : (d.enableAll en).tide = d.tide :=
  List.foldlRecOn (motive := fun e : Die => e.tide = d.tide) _ _ rfl fun e he t _ => (e.setEnable_tide t en).trans he

theorem Die.sendMark_tide (k : Nat) (stop fault : Bool) (cause coord : Nat) :
    (d.sendMark k stop fault cause coord).tide = d.tide := rfl

theorem Die.sendMarks_tide (stop fault : Bool) (cause coord : Nat) : (d.sendMarks stop fault cause coord).tide = d.tide :=
  List.foldlRecOn (motive := fun e : Die => e.tide = d.tide) _ _ rfl fun e he k _ =>
    (e.sendMark_tide k stop fault cause coord).trans he

/-- A fault stop of an armed module keeps its cause and stops at the boundary (R466). -/
theorem Die.faultStop_tide (ha : d.armed = true) (hf : d.tide.fault = none) (cause coord : Nat) :
    (d.faultStop cause coord).tide = { d.tide with stopNow := true, stopFlag := true, fault := some (cause, coord) } := by
  unfold Die.faultStop
  rw [if_pos (by rw [ha, hf]; rfl), Die.enableAll_tide, (Die.record_logsOnly _ _ _ _ _ _).tide, Die.sendMarks_tide]

/-- An unarmed trip gates the clocks of the tiles at once (R489). -/
theorem Die.thermalTrip_unarmed (ha : d.armed = false) :
    d.thermalTrip.get Reg.THM_TRIP_TRIP = 1 ∧ d.thermalTrip.get Reg.THM_TRIP_TRIPPED = 1 ∧ d.thermalTrip.mgmt.tripLow = true ∧
    d.thermalTrip.sense.gated = true ∧ Recorded 0x09 1 94 0xFFFF d d.thermalTrip ∧ SameMem d d.thermalTrip ∧
    OnlyRegs (Reg.THM_TRIP :: Reg.THM_TRIP_CNT :: logRegs) d d.thermalTrip := by
  obtain ⟨htrip, htripped, hrec, hregs, hlogs⟩ := d.tripped_effect
  obtain ⟨hmgmt, hstrand, hget, hmem⟩ := d.tripped.gateClocks_frame
  have hsame : OnlyRegs [] d.tripped d.tripped.gateClocks := fun a _ => hget a
  have hpin : d.tripped.mgmt = d.tripSet.mgmt := by rw [hlogs]
  rw [Die.thermalTrip_eq, ha, if_neg (by decide)]
  refine ⟨(hsame.get (by decide)).trans htrip, (hsame.get (by decide)).trans htripped, ?_, Die.gateClocks_gated _,
    hrec.frame ⟨rfl, rfl, rfl⟩ ⟨hstrand, hget _⟩, fun a => ?_, hregs.trans (hsame.mono (by simp))⟩
  · rw [hmgmt, hpin]
    exact d.tripSet_low
  · rw [hmem a, hlogs.sameMem a, d.tripSet_byteAt a]

/-- A trip of an armed module is a fault stop with cause 6 (R489). -/
theorem Die.thermalTrip_armed (ha : d.armed = true) (hf : d.tide.fault = none) :
    d.thermalTrip.tide = { d.tide with stopNow := true, stopFlag := true, fault := some (6, d.coord) } := by
  obtain ⟨-, -, -, hregs, hlogs⟩ := d.tripped_effect
  have htide : d.tripped.tide = d.tide := hlogs.tide.trans d.tripSet_tide
  have harmed : d.tripped.armed = true := by
    unfold Die.armed Die.tideState at ha ⊢
    rwa [hregs.get (by decide)]
  rw [Die.thermalTrip_eq, if_pos ha, Die.faultStop_tide _ harmed (by rw [htide, hf]), htide]

/-! ### The obligation -/

/-- Settling and its time, before the run bit is raised (R484). -/
def Die.intSettle (d : Die) : Die :=
  { d with sense := { d.sense with settled := true, winStart := d.now, short := true, gap := true } }

theorem Die.intSettle_sense : d.intSettle.sense = { d.sense with settled := true, winStart := d.now, short := true, gap := true } := rfl
theorem Die.intSettle_getW (a : Nat) : d.intSettle.getW a = d.getW a := rfl

/-- G2 marked as fired for this excess (R490). -/
def Die.g2Mark (d : Die) : Die := { d with sense := { d.sense with g2Fired := true } }

theorem Die.g2Mark_frame : d.g2Mark.strand = d.strand ∧ d.g2Mark.clock = d.clock ∧ ∀ a, d.g2Mark.getW a = d.getW a :=
  ⟨rfl, rfl, fun _ => rfl⟩

variable {s : State}

theorem powerAlarm_fires (hl : s.die.live = true) : ∃ t : State, exec .powerAlarm s = .next t ∧
    t.die.get Reg.PWR_GUARD_CAUSE = 1 ∧ t.die.get Reg.PWR_GUARD_G1 = 1 ∧
    t.die.get Reg.PWR_GUARD_ACTIVE = 1 ∧ t.die.getW Reg.TIDE_THROTTLE = w32 (mergeThrottle s.die.sense.demand s.die.fastDemand) ∧
    Recorded 0x02 1 99 0xFFFF s.die t.die ∧ SameMem s.die t.die ∧
    OnlyRegs (Reg.PWR_GUARD :: Reg.TIDE_THROTTLE :: Reg.MON_STATUS :: logRegs) s.die t.die := by
  have hexec : exec .powerAlarm s = .next { s with die := (s.die.guardFire 1).trigger 1 } :=
    mainCmd_ok (ok := fun _ => true) (f := fun d => (d.guardFire 1).trigger 1) hl rfl
  obtain ⟨⟨hcause, hbit, hactive, hthr⟩, hrec, hmem, hregs, -⟩ := s.die.guardFire_effect (cause := 1) (by decide) (by decide)
  obtain ⟨hstrand, hmem', hregs'⟩ := (s.die.guardFire 1).trigger_frame 1
  refine ⟨_, hexec, ?_⟩
  generalize (s.die.guardFire 1).trigger 1 = e at *
  refine ⟨(hregs'.get (by decide)).trans hcause, (hregs'.get (by decide)).trans hbit, (hregs'.get (by decide)).trans hactive,
    (hregs' _ (by decide)).trans hthr, hrec.frame ⟨rfl, rfl, rfl⟩ ⟨hstrand, hregs' _ (by decide)⟩,
    fun a => (hmem' a).trans (hmem a), ?_⟩
  exact (hregs.mono (by simp +contextual)).trans (hregs'.mono (by simp))

theorem guardG2Expiry_fires (hl : s.die.live = true) (h1 : 8000 ≤ s.die.sense.g2) (h2 : s.die.sense.g2Fired = false) :
    ∃ t : State, exec .guardG2Expiry s = .next t ∧
    t.die.get Reg.PWR_GUARD_CAUSE = 2 ∧ t.die.get Reg.PWR_GUARD_G2 = 1 ∧ t.die.sense.g2Fired = true ∧
    Recorded 0x02 1 99 0xFFFF s.die t.die ∧ OnlyRegs (Reg.PWR_GUARD :: Reg.TIDE_THROTTLE :: logRegs) s.die t.die := by
  have hexec : exec .guardG2Expiry s = .next { s with die := s.die.g2Mark.guardFire 2 } :=
    mainCmd_ok (ok := fun d => decide (8000 ≤ d.sense.g2) && !d.sense.g2Fired) (f := fun d => d.g2Mark.guardFire 2) hl
      (by simp [h1, h2])
  obtain ⟨⟨hcause, hbit, -, -⟩, hrec, -, hregs, hsense⟩ := s.die.g2Mark.guardFire_effect (cause := 2) (by decide) (by decide)
  obtain ⟨hstrand, hclock, hget⟩ := s.die.g2Mark_frame
  refine ⟨_, hexec, hcause, hbit, ?_, hrec.frame ⟨hstrand.symm, hclock.symm, (hget _).symm⟩ ⟨rfl, rfl⟩,
    OnlyRegs.trans (e := s.die.g2Mark) (fun a _ => hget a) hregs⟩
  show (s.die.g2Mark.guardFire 2).sense.g2Fired = true
  rw [hsense]
  rfl

theorem guardHoldExpiry_releases (hl : s.die.live = true) (ha : s.die.on Reg.PWR_GUARD_ACTIVE = true)
    (hp : s.die.guardPresent = false) : ∃ t : State, exec .guardHoldExpiry s = .next t ∧
    t.die.get Reg.PWR_GUARD_ACTIVE = 0 ∧ t.die.getW Reg.TIDE_THROTTLE = w32 s.die.sense.demand ∧
    OnlyRegs [Reg.PWR_GUARD, Reg.TIDE_THROTTLE] s.die t.die ∧ t.die.sense = s.die.sense := by
  have hexec : exec .guardHoldExpiry s = .next { s with
      die := (s.die.put Reg.PWR_GUARD_ACTIVE 0).putW Reg.TIDE_THROTTLE (w32 s.die.sense.demand) } :=
    mainCmd_ok (ok := fun d => d.on Reg.PWR_GUARD_ACTIVE && !d.guardPresent)
      (f := fun d => (d.put Reg.PWR_GUARD_ACTIVE 0).putW Reg.TIDE_THROTTLE (w32 d.sense.demand)) hl (by simp [ha, hp])
  have hlast : OnlyRegs [Reg.TIDE_THROTTLE] (s.die.put Reg.PWR_GUARD_ACTIVE 0)
      ((s.die.put Reg.PWR_GUARD_ACTIVE 0).putW Reg.TIDE_THROTTLE (w32 s.die.sense.demand)) := onlyRegs_putW _ _ (by simp)
  refine ⟨_, hexec, ?_, Die.getW_putW_same _ _ _, ?_, ?_⟩
  · exact (hlast.get (by decide)).trans (Die.get_put_same _ _ _ (by decide))
  · exact OnlyRegs.trans (e := s.die.put Reg.PWR_GUARD_ACTIVE 0) (onlyRegs_put _ _ (by decide)) (onlyRegs_putW _ _ (by decide))
  · dsimp only
    rw [Die.putW_sense, Die.put_sense]

theorem intSettled_starts (hl : s.die.live = true) (he : s.die.on Reg.MON_CTRL_EN_INT = true) (hs : s.die.sense.settled = false)
    (hd : s.die.sense.intDowning = false) : ∃ t : State,
    exec .intSettled s = .next t ∧ t.die.intSilent = false ∧ t.die.get (runBit 2) = 1 ∧
    OnlyRegs [Reg.MON_STATUS] s.die t.die := by
  have hexec : exec .intSettled s = .next { s with die := s.die.intSettle.put (runBit 2) 1 } :=
    mainCmd_ok (ok := fun d => d.on Reg.MON_CTRL_EN_INT && !d.sense.settled && !d.sense.intDowning)
      (f := fun d => d.intSettle.put (runBit 2) 1) hl (by simp [he, hs, hd])
  have hregs : OnlyRegs [Reg.MON_STATUS] s.die (s.die.intSettle.put (runBit 2) 1) :=
    OnlyRegs.trans (e := s.die.intSettle) (fun a _ => s.die.intSettle_getW a) (onlyRegs_put _ _ (by decide))
  refine ⟨_, hexec, ?_, (Die.get_put_same _ _ _ (by decide)).trans rfl, hregs⟩
  show Die.intSilent _ = false
  unfold Die.intSilent Die.on at *
  rw [hregs.get (by decide), Die.put_sense, Die.intSettle_sense, he, hd]
  rfl

theorem exec_capLoop (hl : s.die.live = true) (hf : s.die.fwRuns = true) :
    exec .capLoop s = .next { s with die := s.die.capLoop } :=
  mainCmd_ok (ok := fun d => d.fwRuns) (f := fun d => d.capLoop) hl hf

theorem exec_thermalTrip (hl : s.die.live = true) (ht : s.die.on Reg.THM_TRIP_TRIP = false) :
    exec .thermalTrip s = .next { s with die := s.die.thermalTrip } :=
  mainCmd_ok (ok := fun d => !d.on Reg.THM_TRIP_TRIP) (f := fun d => d.thermalTrip) hl (by simp [ht])

theorem exec_intWindowEnd (hl : s.die.live = true) (hs : s.die.intSilent = false) :
    exec .intWindowEnd s = .next { s with die := s.die.windowEnd false } :=
  mainCmd_ok (ok := fun d => !d.intSilent) (f := fun d => d.windowEnd false) hl (by simp [hs])

theorem exec_intSample (hl : s.die.live = true) (hs : s.die.intSilent = false) (v i : Nat) :
    exec (.intSample v i) s = .next { s with die := s.die.intSample v i } :=
  mainCmd_ok (ok := fun d => !d.intSilent) (f := fun d => d.intSample v i) hl (by simp [hs])

/-- The trip's end, from the die whose bits are cleared (R489). -/
def Die.tripEnd (x d : Die) : Die :=
  { x with sense := { d.sense with gated := false }, mgmt := { d.mgmt with tripLow := false } }

theorem Die.tripEnd_fields (x : Die) : (x.tripEnd d).sense.gated = false ∧ (x.tripEnd d).mgmt.tripLow = false ∧
    OnlyRegs [] x (x.tripEnd d) := ⟨rfl, rfl, fun _ _ => rfl⟩

theorem thermalTripRelease_releases (hl : s.die.live = true) (ht : s.die.on Reg.THM_TRIP_TRIP = true) : ∃ t : State,
    exec .thermalTripRelease s = .next t ∧
    t.die.get Reg.THM_TRIP_TRIP = 0 ∧ t.die.get Reg.THM_TRIP_RELEASING = 0 ∧ t.die.sense.gated = false ∧
    t.die.mgmt.tripLow = false ∧ OnlyRegs [Reg.THM_TRIP] s.die t.die := by
  have hexec : exec .thermalTripRelease s = .next { s with
      die := ((s.die.put Reg.THM_TRIP_TRIP 0).put Reg.THM_TRIP_RELEASING 0).tripEnd s.die } :=
    mainCmd_ok (ok := fun d => d.on Reg.THM_TRIP_TRIP)
      (f := fun d => ((d.put Reg.THM_TRIP_TRIP 0).put Reg.THM_TRIP_RELEASING 0).tripEnd d) hl ht
  obtain ⟨hgated, hlow, hsame⟩ := s.die.tripEnd_fields ((s.die.put Reg.THM_TRIP_TRIP 0).put Reg.THM_TRIP_RELEASING 0)
  refine ⟨_, hexec, ?_, ?_, hgated, hlow, ?_⟩
  · refine (hsame.get (by decide)).trans ?_
    rw [Die.get_put_field _ Reg.THM_TRIP_RELEASING Reg.THM_TRIP_TRIP _ (by decide) rfl (by decide),
      Die.get_put_same _ _ _ (by decide)]
    rfl
  · refine (hsame.get (by decide)).trans ?_
    rw [Die.get_put_same _ _ _ (by decide)]
    rfl
  · exact ((onlyRegs_put s.die _ (by decide)).trans (onlyRegs_put _ _ (by decide))).trans (hsame.mono (by simp))

/-- The hour's readings moved to the store (R21). -/
def Die.hourStored (d : Die) : Die :=
  { d with
    nv := { d.nv with jctSum := d.nv.jctSum + d.sense.hourSum, jctCount := d.nv.jctCount + d.sense.hourCount }
    sense := { d.sense with hourSum := 0, hourCount := 0 } }

theorem Die.hourStored_junctionAvg : d.hourStored.junctionAvg = d.junctionAvg := by
  simp [Die.junctionAvg, Die.hourStored]

theorem exec_junctionAvgStore (hl : s.die.live = true) (hf : s.die.fwRuns = true) :
    exec .junctionAvgStore s = .next { s with die := s.die.hourStored } :=
  mainCmd_ok (ok := fun d => d.fwRuns) (f := fun d => d.hourStored) hl hf

/-- Settles O29: each command runs its operation, and every operation is a chain of register writes whose frames and fields the
lemmas above state; a firing of the guard is one such chain, which G1, G2, G3 and MON share. -/
theorem guardIntegratorsAndTripAct : Obligations.GuardIntegratorsAndTripAct := by
  unfold Obligations.GuardIntegratorsAndTripAct
  intro s hl
  refine ⟨powerAlarm_fires hl, guardG2Expiry_fires hl, guardHoldExpiry_releases hl, ?_, ?_, intSettled_starts hl, ?_, ?_, ?_,
    thermalTripRelease_releases hl, ?_, exec_intWindowEnd hl, exec_capLoop hl, exec_thermalTrip hl⟩
  · exact fun v i hs => ⟨_, exec_intSample hl hs v i, s.die.intSample_sums v i⟩
  · exact fun hs hscal => ⟨_, exec_intWindowEnd hl hs, s.die.windowEnd_reports false hscal⟩
  · intro hrun hfired hactive p hp
    refine ⟨fun h1 h2 => ⟨_, exec_capLoop hl hrun, ?_⟩, fun h1 h2 h3 => ⟨_, exec_capLoop hl hrun, ?_⟩,
      fun h1 h3 => ⟨_, exec_capLoop hl hrun, ?_⟩⟩
    · dsimp only
      rw [Die.capLoop_inside hp hfired hactive h1 h2]
      exact Die.withCap_writeThrottle _ _ _
    · dsimp only
      rw [Die.capLoop_above hp hfired hactive h1 h2 h3]
      exact (Die.withCap_writeThrottle _ _ _).2
    · dsimp only
      rw [Die.capLoop_below hp hfired hactive h1 h3]
      exact ⟨(Die.withCap_writeThrottle _ _ _).1, (Die.withCap_writeThrottle _ _ _).2.2⟩
  · exact fun ht ha => ⟨_, exec_thermalTrip hl ht, s.die.thermalTrip_unarmed ha⟩
  · intro ht ha hf
    refine ⟨_, exec_thermalTrip hl ht, ?_⟩
    dsimp only
    rw [s.die.thermalTrip_armed ha hf]
    exact ⟨rfl, rfl⟩
  · exact fun hrun => ⟨_, exec_junctionAvgStore hl hrun, s.die.hourStored_junctionAvg, rfl⟩

end Sys2Proof.Machine
end

section
/-! PROOFS. What a tile's reset does outside its window (R395, R516). -/
namespace Sys2Proof.Machine

variable (d : Die)

/-! ### What a tile's reset leaves of the memory outside its window -/

/-- Entries that a filter on addresses keeps read as before. -/
theorem amGet_filter_of_pos {α : Type} (c : α) (m : List (Nat × α)) (p : Nat → Bool) {k : Nat} (hk : p k = true) :
    amGet c (m.filter (fun q => p q.1)) k = amGet c m k := by
  induction m with
  | nil => rfl
  | cons q r ih =>
    by_cases hp : p q.1 = true
    · rw [List.filter_cons_of_pos (by exact hp)]
      unfold amGet
      rw [ih]
    · have hne : q.1 ≠ k := fun e => hp (e ▸ hk)
      rw [List.filter_cons_of_neg (by exact hp), ih]
      conv_rhs => unfold amGet
      simp [hne]

theorem Die.dropMem_byteAt {gone : Nat → Bool} {a : Nat} (h : gone a = false) : (d.dropMem gone).byteAt a = d.byteAt a :=
  amGet_filter_of_pos (d.memDefault a) d.mem (fun b => !gone b) (by simp [h])

theorem Die.resetArrays_byteAt (hit : Nat → Bool) (a : Nat) : (d.resetArrays hit).byteAt a = d.byteAt a := rfl
theorem Die.upkeepReset_byteAt (hit : Nat → Bool) (a : Nat) : (d.upkeepReset hit).byteAt a = d.byteAt a := rfl
theorem Die.firstShadows_byteAt (t a : Nat) : (d.firstShadows t).byteAt a = d.byteAt a := rfl

/-- A die folded through steps that leave the memory reads the same memory. -/
theorem SameMem.foldl {β : Type} {f : Die → β → Die} (hf : ∀ e x, SameMem e (f e x)) (l : List β) : SameMem d (l.foldl f d) :=
  List.foldlRecOn l f (SameMem.refl d) fun e he x _ a => (hf e x a).trans (he a)

theorem Die.applyDefects_sameMem (t : Nat) : SameMem d (d.applyDefects t) :=
  SameMem.foldl d (fun e _ a => Die.put_byteAt e _ _ a) _

theorem Die.reapply_sameMem (hit : Nat → Bool) : SameMem d (d.reapply hit) :=
  SameMem.foldl d (fun e t a => (Die.firstShadows_byteAt _ t a).trans (e.applyDefects_sameMem t a)) _

/-- Outside the windows of the tiles it resets, a reset of tiles leaves what their requests in slots have written (R395). -/
theorem Die.resetTiles_byteAt (hit : Nat → Bool) {a : Nat}
    (ha : (decide (tileAddr 0 ≤ a) && decide (a < tileAddr 64) && hit ((a - tileAddr 0) / 0x1000000)) = false) :
    (d.resetTiles hit).byteAt a = (d.finishReqs hit).byteAt a := by
  have hunits : ∀ (x : Die) (ts : List (Nat × Tile1)) (dm : List (Nat × DmaRun)) (tn : List (Nat × Nat)) (ms : Mesh),
      Die.byteAt { x with tiles := ts, dma := dm, dmaTurn := tn, mesh := ms } a = x.byteAt a := fun _ _ _ _ _ => rfl
  unfold Die.resetTiles
  refine (SameMem.foldl _ (fun e t b => ?_) _ a).trans ?_
  · split
    · simp
    · rfl
  · rw [hunits, Die.dropMem_byteAt _ ha, Die.upkeepReset_byteAt, Die.resetArrays_byteAt, Die.resetRegs_byteAt]

/-- The die whose resets asked for are `rs`. -/
def Die.withResets (d : Die) (rs : List ResetRun) : Die := { d with boot := { d.boot with resets := rs } }

/-- The assertion of a tile's reset, in memory outside the tile: what its requests in slots have written. -/
theorem Die.resetAssert_tile_byteAt {r : ResetRun} {n : Nat} (hr : d.boot.resets = [r]) (ha : r.asserted = false)
    (hd : r.dom = 16 + n) {a : Nat} (hout : a < tileAddr 0 ∨ tileAddr 64 ≤ a) :
    d.resetAssert.byteAt a = ((d.withResets (markAsserted [r])).finishReqs (fun t => t == n)).byteAt a := by
  have hmiss : (decide (tileAddr 0 ≤ a) && decide (a < tileAddr 64) && ((a - tileAddr 0) / 0x1000000 == n)) = false := by
    rcases hout with h | h
    · simp [Nat.not_le.mpr h]
    · simp [Nat.not_lt.mpr h]
  have hassert : ∀ e : Die, (e.assertReset r).byteAt a = (e.finishReqs (fun t => t == n)).byteAt a := by
    intro e
    have heq : e.assertReset r = (e.resetTiles (fun t => t == n)).reapply (fun t => t == n && e.enabled t) := by
      unfold Die.assertReset
      rw [hd, Nat.add_comm]
      exact if_neg (by omega)
    rw [heq, Die.reapply_sameMem _ _ a, Die.resetTiles_byteAt _ _ hmiss]
  unfold Die.resetAssert
  rw [hr, List.find?_cons_of_pos (by simp [ha])]
  dsimp only
  rw [if_neg (by omega), (Die.syncResets_logsOnly _).sameMem a, hassert]
  rfl

/-! ### The refuting state -/

/-- A tile that has a write of one byte to DRAM in a slot, and a reset of that tile asked for. -/
def State.midWrite : State :=
  { pending := [], carrier := {},
    die := {
      mgmt := { powered := true, dieReset := false }
      boot := { resets := [{ dom := 16, cause := 9 }] }
      tiles := [(0, { reqs := [{ cls := .sched, thread := 0, tag := 0, addr := dramBase, len := 1, write := some [1], issued := true }] })] } }

/-- The request completes: its byte stands in DRAM (R395). -/
theorem State.midWrite_finished :
    ((State.midWrite.die.withResets (markAsserted [{ dom := 16, cause := 9 }])).finishReqs (fun t => t == 0)).byteAt dramBase = 1 := by
  decide

theorem State.midWrite_resetAssert : State.midWrite.die.resetAssert.byteAt dramBase = 1 := by
  rw [Die.resetAssert_tile_byteAt _ (r := { dom := 16, cause := 9 }) (n := 0) rfl rfl rfl (.inr (by decide))]
  exact State.midWrite_finished

theorem exec_resetAssert {s : State} (hl : s.die.live = true) (ha : s.die.boot.resets.any (fun r => !r.asserted) = true) :
    exec .resetAssert s = .next { s with die := s.die.resetAssert } :=
  mainCmd_ok (ok := fun d => d.boot.resets.any (fun r => !r.asserted)) (f := fun d => d.resetAssert) hl ha

/-- Refutes O24: a write that the tile has in a slot completes at its reset (R395) and changes a byte of DRAM, which lies outside
the tile. -/
theorem not_resetsTakeAwayAndGiveBack : ¬ Obligations.ResetsTakeAwayAndGiveBack := by
  unfold Obligations.ResetsTakeAwayAndGiveBack
  intro h
  obtain ⟨hassert, -⟩ := h State.midWrite
  obtain ⟨-, -, -, -, -, htile⟩ := hassert rfl { dom := 16, cause := 9 } rfl rfl
  obtain ⟨t, hexec, -, -, -, -, hframe⟩ := htile 0 rfl (by decide)
  rw [exec_resetAssert rfl rfl] at hexec
  have hbyte : State.midWrite.die.resetAssert.byteAt dramBase = State.midWrite.die.byteAt dramBase := by
    rw [← hframe dramBase (by decide), ← Host.Outcome.next.inj hexec]
  rw [State.midWrite_resetAssert] at hbyte
  exact absurd hbyte (by decide)

end Sys2Proof.Machine
end

section
/-! PROOFS. What a response to a session carries, and a register read beside an authentication run (R431, R437, R542, R557). -/
namespace Sys2Proof.Machine

variable {d : Die}

/-! ### Frames sent -/

/-- Only one frame of a priority is the last. -/
theorem Sent.unique {p : Nat} {o o' : Out} {e : Die} (h : Sent p o e) (h' : Sent p o' e) : o = o' := by
  obtain ⟨hout, hwait⟩ := h
  obtain ⟨hout', hwait'⟩ := h'
  cases hheld : e.txHeld p with
  | false => exact Option.some.inj ((hout hheld).symm.trans (hout' hheld))
  | true => exact (Prod.mk.inj (Option.some.inj ((hwait hheld).symm.trans (hwait' hheld)))).2

theorem Die.bump_host (f : Fld) (n : Nat) : (d.bump f n).host = d.host := rfl

/-- What holds a priority back, the count of frames and what is emitted do not move. -/
theorem Die.sendNow_txHeld (o : Out) (p : Nat) : (d.sendNow o).txHeld p = d.txHeld p := by
  have hregs : OnlyRegs [Reg.HP_TX_FRAMES] d (d.sendNow o) := Die.sendNow_onlyRegs d o
  have hhost : (d.sendNow o).host = d.host := by
    unfold Die.sendNow
    rw [Die.emit_host, Die.bump_host]
  have hclock : (d.sendNow o).clock = d.clock := (Die.sendNow_logsOnly d o).clock
  unfold Die.txHeld Die.txPausedNow Die.portUp
  rw [hregs.get (by decide), hregs.get (by decide), hhost, hclock]

/-- A frame sent is the last that was sent, or the last that waits (R425). -/
theorem Die.send_sent (p : Nat) (o : Out) : Sent p o (d.send p o) := by
  unfold Die.send
  cases hheld : d.txHeld p with
  | false =>
    rw [if_neg (by decide)]
    exact ⟨fun _ => rfl, fun h => absurd h (by rw [Die.sendNow_txHeld, hheld]; decide)⟩
  | true =>
    rw [if_pos rfl]
    have hstill : Die.txHeld { d with host := { d.host with txWait := d.host.txWait ++ [(p, o)] } } p = true := by
      unfold Die.txHeld
      simp
    exact ⟨fun h => absurd h (by rw [hstill]; decide), fun _ => by simp⟩

/-- Sending leaves the classes of messages. -/
theorem Die.send_pcpOf (p : Nat) (o : Out) (opcode : Nat) : (d.send p o).pcpOf opcode = d.pcpOf opcode := by
  have hregs : OnlyRegs [Reg.HP_TX_FRAMES] d (d.send p o) := by
    unfold Die.send
    split
    · exact fun _ _ => rfl
    · exact Die.sendNow_onlyRegs d o
  unfold Die.pcpOf
  split <;> exact hregs.get (by decide)

/-! ### Responses -/

/-- A response is told to its session under the session's next SEQ (R427, R431). -/
theorem Die.respond_told {slot : Nat} {x : Session} (hx : d.session slot = some x) (opcode status seq : Nat) (bs : List Byte) :
    Told x.src opcode (x.message 1 opcode status seq bs) (d.respond slot opcode status seq bs) := by
  unfold Die.respond
  rw [hx]
  unfold Told Die.sayTo Die.sendYct
  rw [Die.send_pcpOf]
  exact Die.send_sent _ _

/-- Messages of a session that are the same carry the same payload. -/
theorem Session.message_payload {x y : Session} {flags opcode status seq : Nat} {p q : List Byte} (hl : p.length = q.length)
    (h : x.message flags opcode status seq p = y.message flags opcode status seq q) : p = q := by
  unfold Session.message yctHead at h
  obtain ⟨hhead, -⟩ := List.append_inj' h (by simp [kmac])
  exact (List.append_inj' hhead hl).2

/-! ### A read of SEC_STATUS -/

/-- A read of a register that nothing refuses and no holding register takes part in returns its word (R437). -/
theorem Die.read32_register {ag : Agent} {a : Nat} (hg : (d.gate ag a false 0).isNone = true)
    (hm : (isDram a || (sramTile a).isSome) = false) (hl : isLow64 a = false) (hh : look (d.hold64 ag) a = none) :
    d.read32 ag a = (d, d.readWord a, stOk) := by
  unfold Die.read32
  rw [Option.isNone_iff_eq_none.mp hg]
  simp only [hm, Bool.false_eq_true, if_false, Die.readReg, hl, hh]

/-- A session of key slot 0 that holds CONTROL. -/
def Session.control : Session := { id := 1, keySlot := 0, roles := 1, idleTmo := 0, version := 1, src := {}, key := [] }

/-- The port is UP and one session is open, from whose source one message has failed its tag since the last that passed (R542). -/
def State.afterAuthFail : State :=
  { pending := [], carrier := {},
    die := ({
      mgmt := { powered := true, dieReset := false }
      host := { sessions := [(0, Session.control)], runs := [(srcKey {}, 1)] } } : Die).put Reg.HP_STATUS_STATE 2 }

/-- The session's first request. -/
def State.firstRequest : MsgHead := { slot := 0, seq := 1, len := 16 }

/-- The die once the request has passed: its SEQ is noted, and the run of its source is over (R431, R542). -/
def State.afterPass : Die := (State.afterAuthFail.die.putSession 0 (noteSeq Session.control 1)).setRun {} 0

theorem State.afterAuthFail_gate :
    State.afterAuthFail.die.requestGate State.firstRequest 0x10 0 true = (State.afterPass, some (noteSeq Session.control 1)) := by
  rfl

theorem State.afterPass_read :
    State.afterPass.read32 (.session 0) Reg.SEC_STATUS = (State.afterPass, State.afterPass.readWord Reg.SEC_STATUS, stOk) :=
  Die.read32_register (by decide) (by decide) (by decide) (by decide)

/-- The read is answered with the word as it is after the pass. -/
theorem State.afterAuthFail_regRead (word : Nat) :
    State.afterAuthFail.die.regReadReq State.firstRequest Reg.SEC_STATUS word =
      State.afterPass.respond 0 0x10 stOk 1 (regPayload Reg.SEC_STATUS (State.afterPass.readWord Reg.SEC_STATUS)) := by
  have hlen : decide (State.firstRequest.len = 16) = true := rfl
  unfold Die.regReadReq Die.request
  rw [hlen, State.afterAuthFail_gate]
  dsimp only
  rw [if_neg (by decide)]
  show Die.respond (State.afterPass.read32 (.session 0) Reg.SEC_STATUS).1 0 0x10
    (State.afterPass.read32 (.session 0) Reg.SEC_STATUS).2.2 1
    (regPayload Reg.SEC_STATUS (State.afterPass.read32 (.session 0) Reg.SEC_STATUS).2.1) = _
  rw [State.afterPass_read]

theorem exec_regRead {s : State} {m : MsgHead} {addr : Nat} (hl : s.die.live = true) (hm : s.die.canRequest m = true)
    (ha : addr < 2 ^ 64) : exec (.regRead m addr) s = .next { s with die := s.die.regReadReq m addr s.carrier.word } :=
  mainCmd_ok (ok := fun d => d.canRequest m && decide (addr < 2 ^ 64)) (f := fun d => d.regReadReq m addr s.carrier.word) hl
    (by rw [hm, decide_eq_true ha]; rfl)

/-- The read shows SEC_STATUS.AUTH_MAX after the pass, not before it (R542, R557). -/
theorem State.afterAuthFail_payload :
    regPayload Reg.SEC_STATUS (State.afterPass.readWord Reg.SEC_STATUS) ≠
      regPayload Reg.SEC_STATUS (State.afterAuthFail.die.readWord Reg.SEC_STATUS) := by
  decide

/-- Refutes O59: the request that reads SEC_STATUS itself ends the run of its source (R542), so the read returns AUTH_MAX 0 where
the statement has the 1 of the state before. -/
theorem not_registerAccessesFollowTheAddressMap : ¬ Obligations.RegisterAccessesFollowTheAddressMap := by
  unfold Obligations.RegisterAccessesFollowTheAddressMap
  intro h
  obtain ⟨hread, -⟩ := h State.afterAuthFail
  obtain ⟨-, -, -, hregs, -⟩ := hread State.firstRequest Reg.SEC_STATUS (by decide) rfl (by decide)
  obtain ⟨-, -, hplain⟩ := hregs (Option.isNone_iff_eq_none.mp (by decide)) (by decide) (by decide) (by decide) (by decide) (by decide)
  obtain ⟨u, hexec, ⟨x, hx, htold⟩, -, -⟩ := hplain (by decide) (by decide)
  rw [exec_regRead (by decide) (by decide) (by decide), State.afterAuthFail_regRead] at hexec
  rw [← Host.Outcome.next.inj hexec] at htold
  have htold' := State.afterPass.respond_told (slot := 0) (x := noteSeq Session.control 1) rfl 0x10 stOk 1
    (regPayload Reg.SEC_STATUS (State.afterPass.readWord Reg.SEC_STATUS))
  obtain rfl : Session.control = x := Option.some.inj hx
  have hmessage := (Out.yct.inj (htold'.unique htold)).2.2
  exact State.afterAuthFail_payload (Session.message_payload rfl hmessage)

end Sys2Proof.Machine
end

section
/-! PROOFS. The packet plane: packets injected and the router's grants (R61 to R68, R517). -/
namespace Sys2Proof.Machine

/-! ### Injection -/

section
variable {s : State} {src dst : MeshUnit} {vc tenant : Nat} {body : PktBody} {sys : Bool}

/-- A source that a reset asked for keeps quiet injects nothing (R517). -/
theorem exec_packetInject_of_quiesces (hq : s.die.quiesces = true) (hu : underCompute src = true) :
    exec (.packetInject src dst vc tenant body sys) s = .next s := by
  show execPacketInject src dst vc tenant body sys s = .next s
  unfold execPacketInject mainCmd
  exact dieCmd_not (by simp [hq, hu])

theorem exec_packetInject (hl : s.die.live = true) (hsrc : s.die.unitOk src = true) (hdst : s.die.unitOk dst = true)
    (hne : src ≠ dst) (hvc : vc < 3) (ht : tenant < 4096) (ha : body.addr < 2 ^ 48) (hlen : body.data.length ≤ 1024)
    (hroom : s.die.injected src < 32) (htransit : vc = 2 ↔ isLinkUnit src = true ∧ isLinkUnit dst = true)
    (hheld : s.die.computeHeld = true → underCompute src = false ∧ underCompute dst = false)
    (hq : s.die.quiesces = true → underCompute src = false) :
    exec (.packetInject src dst vc tenant body sys) s =
      .next { s with die := s.die.meshIn (s.die.newPkt src dst vc tenant sys body.addr body.data) } := by
  have hvc2 : ((vc == 2) == (isLinkUnit src && isLinkUnit dst)) = true := by
    rw [beq_iff_eq, Bool.eq_iff_iff, beq_iff_eq, Bool.and_eq_true]
    exact htransit
  have hfree : (s.die.computeHeld && (underCompute src || underCompute dst)) = false := by
    rw [Bool.and_eq_false_imp, Bool.or_eq_false_iff]
    exact hheld
  have hsends : (s.die.quiesces && underCompute src) = false := by
    rw [Bool.and_eq_false_imp]
    exact hq
  show execPacketInject src dst vc tenant body sys s = _
  refine mainCmd_ok hl ?_
  rw [hsrc, hdst, decide_eq_true hne, decide_eq_true hvc, decide_eq_true ht, decide_eq_true ha, decide_eq_true hlen,
    decide_eq_true hroom, hvc2, hfree, hsends]
  rfl

end

/-- Settles O14: the packet that enters the plane is the model's new packet of these operands. -/
theorem injectedPacketTakesItsStamp : Obligations.InjectedPacketTakesItsStamp := by
  intro s src dst vc tenant body sys hl hsrc hdst hne hvc ht ha hlen hroom htransit hheld
  refine ⟨exec_packetInject_of_quiesces, fun hq => ?_⟩
  have hstamp : (s.die.newPkt src dst vc tenant sys body.addr body.data).vc = 0 →
      (s.die.newPkt src dst vc tenant sys body.addr body.data).stamp = s.die.tideNum % 4096 := fun h => if_pos h
  exact ⟨s.die.newPkt src dst vc tenant sys body.addr body.data,
    exec_packetInject hl hsrc hdst hne hvc ht ha hlen hroom htransit hheld hq,
    rfl, rfl, rfl, rfl, rfl, rfl, rfl, rfl, hstamp, by cases src <;> rfl⟩

/-! ### What an output grants -/

section
variable {d : Die} {r o : Nat}

theorem Die.roundRobin_mem {vc : Nat} {l : List (Nat × Pkt)} {q : Nat × Pkt} (h : d.roundRobin r o vc l = some q) : q ∈ l := by
  unfold Die.roundRobin at h
  refine List.foldlRecOn (motive := fun b => ∀ x, b = some x → x ∈ l) l _ (by simp) ?_ q h
  intro b hb x hx y hy
  cases b with
  | none => exact Option.some.inj hy ▸ hx
  | some z =>
    dsimp only at hy
    split at hy
    · exact Option.some.inj hy ▸ hx
    · exact hb y hy

theorem Die.mem_of_mem_vc0Choice {l : List (Nat × Pkt)} {q : Nat × Pkt} (h : q ∈ d.vc0Choice l) : q ∈ l := by
  unfold Die.vc0Choice at h
  dsimp only at h
  split at h
  · exact h
  · split at h <;> exact List.mem_of_mem_filter h

/-- Everything an output can grant: a ready packet of VC1, or, with none of VC1 ready, another ready packet (R64). -/
theorem Die.grant_cases {q : Nat × Pkt} (h : d.grant r o = some q) :
    q ∈ (d.ready r o).filter (fun x => x.2.vc == 1) ∨
      (d.ready r o).filter (fun x => x.2.vc == 1) = [] ∧ q ∈ d.ready r o := by
  unfold Die.grant at h
  extract_lets ready onVc turn at h
  split at h
  · exact .inl (Die.roundRobin_mem h)
  next hvc1 =>
    have hnone : (d.ready r o).filter (fun x => x.2.vc == 1) = [] := by simpa [onVc] using hvc1
    refine .inr ⟨hnone, ?_⟩
    split at h
    · exact List.mem_of_mem_filter (Die.mem_of_mem_vc0Choice (Die.roundRobin_mem h))
    · exact List.mem_of_mem_filter (Die.roundRobin_mem h)

theorem Die.grant_mem_ready {q : Nat × Pkt} (h : d.grant r o = some q) : q ∈ d.ready r o := by
  rcases Die.grant_cases h with hvc1 | ⟨-, hready⟩
  · exact List.mem_of_mem_filter hvc1
  · exact hready

theorem Die.grant_vc1_first {q : Nat × Pkt} (h : d.grant r o = some q) (hx : ∃ x ∈ d.ready r o, x.2.vc = 1) : q.2.vc = 1 := by
  rcases Die.grant_cases h with hvc1 | ⟨hnone, -⟩
  · exact beq_iff_eq.mp (List.mem_filter.mp hvc1).2
  · obtain ⟨x, hmem, hvc⟩ := hx
    exact absurd (beq_iff_eq.mpr hvc) (List.filter_eq_nil_iff.mp hnone x hmem)

end

/-! ### What a grant moves -/

section
variable {d : Die}

/-- Router `r` finds `p`, a VC0 packet of age 2,048 or more, and marks it old (R68). -/
def Die.marksOld (d : Die) (r : Nat) (p : Pkt) : Bool := p.foundBy r && p.vc == 0 && !p.old && decide (2048 ≤ d.age p)

/-- No packet on the die is to be marked old by any router (R68). -/
def Die.noneToMark (d : Die) : Prop := ∀ p ∈ d.mesh.pkts, p.old = true ∨ p.vc ≠ 0 ∨ d.age p < 2048

theorem Die.marksOld_of_noneToMark (h : d.noneToMark) (r : Nat) {p : Pkt} (hp : p ∈ d.mesh.pkts) : d.marksOld r p = false := by
  unfold Die.marksOld
  rcases h p hp with hold | hvc | hage
  · simp [hold]
  · simp [hvc]
  · simp [Nat.not_le.mpr hage]

/-- A router that finds no packet to mark old leaves the die as it is (R68). -/
theorem Die.markOld_of_noneToMark (h : d.noneToMark) (r : Nat) : d.markOld r = d := by
  have hfound : d.mesh.pkts.filter (d.marksOld r) = [] :=
    List.filter_eq_nil_iff.mpr fun p hp => by simp [Die.marksOld_of_noneToMark h r hp]
  have hpkts : d.mesh.pkts.map (fun p => if d.marksOld r p then { p with old := true } else p) = d.mesh.pkts :=
    (List.map_congr_left fun p hp => if_neg (by simp [Die.marksOld_of_noneToMark h r hp])).trans (List.map_id _)
  show (d.mesh.pkts.filter (d.marksOld r)).foldl _ { d with mesh := { d.mesh with
    pkts := d.mesh.pkts.map (fun p => if d.marksOld r p then { p with old := true } else p) } } = d
  rw [hfound, hpkts]
  rfl

theorem Die.deliverPkt_mesh (p : Pkt) : (d.deliverPkt p).mesh = d.mesh := by
  unfold Die.deliverPkt
  rw [Die.emit_mesh]
  split
  · split <;> rfl
  · rfl

theorem Die.deliverPkt_out (p : Pkt) :
    (d.deliverPkt p).out = .delivered p.src p.dst p.vc p.tenant p.addr p.data :: d.out := by
  unfold Die.deliverPkt
  rw [Die.emit_out]
  split
  · split <;> rfl
  · rfl

/-- A hop to a next place puts the packet there last and moves nothing but the packet plane. -/
theorem Die.hop_of_next {r o : Nat} {q : Nat × Pkt} {pl : Place} (h : q.2.next r o = some pl) :
    (d.hop r o q).mesh.pkts = d.mesh.pkts.erase q.2 ++ [{ q.2 with place := pl }] ∧
      d.hop r o q = { d with mesh := (d.hop r o q).mesh } := by
  unfold Die.hop
  rw [h]
  exact ⟨rfl, rfl⟩

/-- A hop with no next place delivers the packet. -/
theorem Die.hop_of_last {r o : Nat} {q : Nat × Pkt} (h : q.2.next r o = none) :
    (d.hop r o q).mesh.pkts = d.mesh.pkts.erase q.2 ∧
      (d.hop r o q).out = .delivered q.2.src q.2.dst q.2.vc q.2.tenant q.2.addr q.2.data :: d.out := by
  unfold Die.hop
  rw [h]
  exact ⟨congrArg Mesh.pkts (Die.deliverPkt_mesh q.2), Die.deliverPkt_out q.2⟩

theorem Die.packetHop_of_grant {r o : Nat} {q : Nat × Pkt} (h : d.noneToMark) (hg : d.grant r o = some q) :
    d.packetHop r o = d.hop r o q := by
  simp only [Die.packetHop, Die.markOld_of_noneToMark h, hg]

theorem Die.packetHop_of_no_grant {r o : Nat} (h : d.noneToMark) (hg : d.grant r o = none) : d.packetHop r o = d := by
  simp only [Die.packetHop, Die.markOld_of_noneToMark h, hg]

end

theorem exec_packetHop {s : State} {r o : Nat} (hl : s.die.live = true)
    (hr : r < 64 ∧ o < 5 ∨ 64 ≤ r ∧ r < 72 ∧ o < 4 + attachments (r - 64)) (hruns : s.die.routerRuns r = true) :
    exec (.packetHop r o) s = .next { s with die := s.die.packetHop r o } :=
  mainCmd_ok (ok := fun d => (decide (r < 64 ∧ o < 5) || decide (64 ≤ r ∧ r < 72 ∧ o < 4 + attachments (r - 64))) &&
    d.routerRuns r) (f := fun d => d.packetHop r o) hl (by simpa [hruns] using hr)

/-- Settles O15: a grant is a ready packet, and PACKET_HOP is one hop of what is granted. -/
theorem routerGrantsAndMovesOnePacket : Obligations.RouterGrantsAndMovesOnePacket := by
  intro s r o hl hr hruns
  have hexec := exec_packetHop hl hr hruns
  refine ⟨fun q hg => ⟨Die.grant_mem_ready hg, Die.grant_vc1_first hg⟩, fun hyoung => ⟨fun q pl hg hnext => ?_,
    fun q hg hlast => ?_, fun hg => ?_⟩, fun router outPort hrouter hrun => exec_packetHop hl hrouter hrun⟩
  · obtain ⟨hpkts, hrest⟩ := Die.hop_of_next (d := s.die) hnext
    rw [Die.packetHop_of_grant hyoung hg] at hexec
    refine ⟨_, hexec, rfl, rfl, hpkts, ?_, ?_, ?_⟩ <;> (dsimp only; rw [hrest])
  · rw [Die.packetHop_of_grant hyoung hg] at hexec
    exact ⟨_, hexec, Die.hop_of_last hlast⟩
  · rw [hexec, Die.packetHop_of_no_grant hyoung hg]

end Sys2Proof.Machine
end

section
/-! PROOFS. A packet that leaves on a Swell link for a module beyond the neighbour (R457). -/
namespace Sys2Proof.Machine

/-- The channel of a packet stands in the first of its flits. -/
theorem cutFlits_channel_inj {n v w : Nat} {first : Bool} {bs : List Byte}
    (h : cutFlits (n + 1) v first bs = cutFlits (n + 1) w first bs) : v = w := by
  unfold cutFlits at h
  split at h <;> simp only [List.cons.injEq, Prod.mk.injEq] at h <;> omega

theorem Die.sendPacket_txPackets (d : Die) (k vc : Nat) (bs : List Byte) :
    ((d.sendPacket k vc bs).link k).txPackets = (d.link k).txPackets ++ cutFlits 6 vc true bs :=
  congrArg Link.txPackets (Die.link_modLink_same d k _)

theorem exec_attachmentCross {s : State} {k att : Nat} (hl : s.die.live = true) (ha : att < attachments k) :
    exec (.attachmentCross k att) s = .next { s with die := s.die.attachmentCross k att } :=
  mainCmd_ok (ok := fun _ => decide (att < attachments k)) (f := fun d => d.attachmentCross k att) hl (decide_eq_true ha)

/-- A part of a shard that the edge DMA sends on VC0 over LINK_5: its first hop, on a route that ends at coordinates 1 (R60, R457). -/
def Pkt.farShard : Pkt :=
  { src := .edge 0 1, dst := .edge 5 1, vc := 0, tenant := 0, sys := false, addr := 0, data := [0], route := some 0x8001, stamp := 0,
    old := false, place := .attach 5 1 }

/-- LINK_5 is UP to a partner at coordinates 0, and that packet is the head of its attachment. -/
def State.farCrossing : State :=
  { pending := [], carrier := {},
    die := ({
      mgmt := { powered := true, dieReset := false }
      mesh := { pkts := [Pkt.farShard] } } : Die).put (Reg.LNK_STATUS_STATE 5) 4 }

/-- The packet crosses onto the link on VC2, since its destination lies beyond the neighbour (R457). -/
theorem State.farCrossing_cross : State.farCrossing.die.attachmentCross 5 1 =
    Die.sendPacket { State.farCrossing.die with mesh := {} } 5 2
      (natLe 4 (State.farCrossing.die.routeOf 5 Pkt.farShard) ++ Pkt.farShard.headerBytes ++ Pkt.farShard.data) := by
  rfl

/-- Refutes O16: a VC0 packet whose route ends beyond the neighbour goes onto its Swell link on VC2 (R457), where the statement has
its flits marked with its own VC0. -/
theorem not_attachmentCrossingChargesTokens : ¬ Obligations.AttachmentCrossingChargesTokens := by
  unfold Obligations.AttachmentCrossingChargesTokens
  intro h
  obtain ⟨hcross, -⟩ := h State.farCrossing 5 1 (by decide) (by decide) (by decide)
  obtain ⟨t, hexec, -, -, -, -, hlink, -⟩ :=
    hcross Pkt.farShard [] (by decide) (by decide) (by decide) (by decide) (by decide)
  obtain ⟨-, -, htx⟩ := hlink 5 (by decide) (by decide)
  rw [exec_attachmentCross (by decide) (by decide), State.farCrossing_cross] at hexec
  rw [← Host.Outcome.next.inj hexec, Die.sendPacket_txPackets] at htx
  exact absurd (cutFlits_channel_inj (List.append_cancel_left htx)) (by decide)

end Sys2Proof.Machine
end

section
/-! PROOFS. A write that sets BKT_EN while the firmware runs (R66, R81, R361). -/
namespace Sys2Proof.Machine

theorem exec_meshCtrlWrite {s : State} {ag : Agent} (hl : s.die.live = true) (hag : s.die.mayControl ag = true) (w : Nat) :
    exec (.meshCtrlWrite ag w) s = .next { s with die := s.die.meshCtrl ag (w % 2 ^ 32) } :=
  mainCmd_ok (ok := fun d => d.mayControl ag) (f := fun d => d.meshCtrl ag (w % 2 ^ 32)) hl hag

/-- A tenant whose bandwidth the edge buckets limit (R358). -/
def TenantParams.bucketed : TenantParams :=
  { enabled := true, weight := 1, bkt := true, maxCtx := 0, maxPages := 0, tokenQuota := 0, resvOut := 0, drop := false,
    reuse := 0, packId := 0 }

/-- The Lighthouse firmware runs, BKT_EN is clear, and tenant 0 is enabled with BKT = 1. -/
def State.bucketsOff : State :=
  { pending := [], carrier := {},
    die := ({
      mgmt := { alive := true, powered := true, dieReset := false, ready := true }
      tenancy := { acting := [(0, TenantParams.bucketed)] } } : Die).put Reg.BOOT_STAGE_STAGE 6 }

/-- The firmware gives tenant 0 its RATE in place of the 0xFFFF of reset (R361). -/
theorem State.bucketsOff_rate : (State.bucketsOff.die.meshCtrl .j3 4).getW (Reg.GLB_TBKT_RATE 0) ≠
    State.bucketsOff.die.getW (Reg.GLB_TBKT_RATE 0) := by
  decide

/-- Refutes O17: a write that sets BKT_EN has the firmware program GLB_TBKT (R361), so registers beside GLB_MESH_CTRL and the log
move. -/
theorem not_meshControlChangesModeOnlyInItsWindow : ¬ Obligations.MeshControlChangesModeOnlyInItsWindow := by
  unfold Obligations.MeshControlChangesModeOnlyInItsWindow
  intro h
  obtain ⟨t, hexec, -, -, -, -, hregs, -⟩ := h State.bucketsOff .j3 4 (by decide) (by decide) (by decide)
  rw [exec_meshCtrlWrite (by decide) (by decide)] at hexec
  have hrate := hregs (Reg.GLB_TBKT_RATE 0) (by decide)
  rw [← Host.Outcome.next.inj hexec] at hrate
  exact State.bucketsOff_rate hrate

end Sys2Proof.Machine
end

section
/-! SUPPORT. What the reports of a working tile leave alone: faults, the messages to the slice's front, and the injectors. -/
namespace Sys2Proof.Machine

/-- Arrays, tiles, what the firmware keeps of them, key/value storage and memory are as before. -/
structure KeepsWork (d e : Die) : Prop where
  arrays : e.arrays = d.arrays
  tiles : e.tiles = d.tiles
  upkeep : e.upkeep = d.upkeep
  kv : e.serve.kv = d.serve.kv
  mem : SameMem d e

variable {d e f : Die}

theorem KeepsWork.refl (d : Die) : KeepsWork d d := ⟨rfl, rfl, rfl, rfl, SameMem.refl d⟩

theorem KeepsWork.trans (h : KeepsWork d e) (k : KeepsWork e f) : KeepsWork d f :=
  ⟨k.arrays.trans h.arrays, k.tiles.trans h.tiles, k.upkeep.trans h.upkeep, k.kv.trans h.kv, fun a => (k.mem a).trans (h.mem a)⟩

theorem KeepsWork.arr (h : KeepsWork d e) (t a : Nat) : e.arr t a = d.arr t a := by unfold Die.arr; rw [h.arrays]

theorem KeepsWork.tile (h : KeepsWork d e) (t : Nat) : e.tile t = d.tile t := by unfold Die.tile; rw [h.tiles]

theorem LogsOnly.keepsWork (h : LogsOnly d e) : KeepsWork d e := by
  refine ⟨?_, ?_, ?_, ?_, h.sameMem⟩ <;> rw [h]

theorem Die.putW_keepsWork (d : Die) (a : Nat) (w : Word) : KeepsWork d (d.putW a w) := (logsOnly_putW d a w).keepsWork
theorem Die.put_keepsWork (d : Die) (g : Fld) (v : Nat) : KeepsWork d (d.put g v) := (logsOnly_put d g v).keepsWork
theorem Die.raise_keepsWork (d : Die) (g : Fld) : KeepsWork d (d.raise g) := d.put_keepsWork g 1
theorem Die.bump_keepsWork (d : Die) (g : Fld) (n : Nat) : KeepsWork d (d.bump g n) := d.put_keepsWork g _
theorem Die.bump64_keepsWork (d : Die) (a n : Nat) : KeepsWork d (d.bump64 a n) :=
  (d.putW_keepsWork _ _).trans (Die.putW_keepsWork _ _ _)
theorem Die.atLeast_keepsWork (d : Die) (g : Fld) (n : Nat) : KeepsWork d (d.atLeast g n) := d.put_keepsWork g _
theorem Die.record_keepsWork (d : Die) (src ev dom sub : Nat) (det : List Nat) : KeepsWork d (d.record src ev dom sub det) :=
  (d.record_logsOnly src ev dom sub det).keepsWork

/-- One of two things that keep the work does. -/
theorem KeepsWork.ite {b : Bool} (he : KeepsWork d e) (hf : KeepsWork d f) : KeepsWork d (if b then e else f) := by
  cases b
  · exact hf
  · exact he

theorem Die.raiseIf_keepsWork (d : Die) (p : Prop) [Decidable p] (g : Fld) : KeepsWork d (if p then d.raise g else d) := by
  split
  · exact d.raise_keepsWork g
  · exact KeepsWork.refl d

/-! ### Messages to the front and injectors -/

/-- A message toward the front enters the packet plane and goes out; nothing else moves. -/
theorem Die.toFront_eq (d : Die) (kind : Nat) (words : List Nat) :
    ∃ (m : Mesh) (o : List Out), d.toFront kind words = { d with mesh := m, out := o } := by
  have hlink : ∀ (src : MeshUnit) (k vc tenant : Nat) (sys : Bool) (route : Option Nat) (bs : List Byte),
      ∃ m : Mesh, d.toLink src k vc tenant sys route bs = { d with mesh := m } := by
    intro src k vc tenant sys route bs
    unfold Die.toLink
    split
    · refine List.foldlRecOn (motive := fun e : Die => ∃ m : Mesh, e = { d with mesh := m }) _ _ ⟨d.mesh, rfl⟩ ?_
      rintro _ ⟨m, rfl⟩ c -
      exact ⟨_, rfl⟩
    · exact ⟨d.mesh, rfl⟩
  unfold Die.toFront
  split
  · unfold Die.tellLink
    obtain ⟨m, hm⟩ := hlink (.edge 1 0) _ 1 0 true none ((kind :: words).map (natLe 8)).flatten
    rw [hm]
    exact ⟨m, _, rfl⟩
  · exact ⟨d.mesh, d.out, rfl⟩

/-- A step in flight is marked, and the front learns of it. -/
theorem Die.modStep_toFront_eq (d : Die) (n : Nat) (g : StepRec → StepRec) (kind : Nat) (words : List Nat) :
    KeepsWork d ((d.modStep n g).toFront kind words) ∧ ((d.modStep n g).toFront kind words).regs = d.regs := by
  obtain ⟨m, o, h⟩ := (d.modStep n g).toFront_eq kind words
  rw [h]
  exact ⟨⟨rfl, rfl, rfl, rfl, SameMem.refl d⟩, rfl⟩

theorem Die.stepFault_keepsWork (d : Die) : KeepsWork d d.stepFault ∧ d.stepFault.regs = d.regs := by
  unfold Die.stepFault
  split
  · exact d.modStep_toFront_eq _ _ _ _
  · exact ⟨KeepsWork.refl d, rfl⟩

theorem Die.stepDegradedAt_keepsWork (d : Die) (n : Nat) : KeepsWork d (d.stepDegradedAt n) := by
  unfold Die.stepDegradedAt
  split
  · exact (d.modStep_toFront_eq _ _ _ _).1
  · exact KeepsWork.refl d

/-- An injector's own state, and the record that it is done. -/
theorem Die.ptbDone_keepsWork (d : Die) (i : Nat) : KeepsWork d (d.ptbDone i) :=
  KeepsWork.trans (e := d.setInj i {}) ⟨rfl, rfl, rfl, rfl, SameMem.refl d⟩ (Die.record_keepsWork _ _ _ _ _ _)

theorem Die.ptbFire_keepsWork (d : Die) (i : Nat) : KeepsWork d (d.ptbFire i) := by
  have hcount : KeepsWork d ((d.put (Reg.PTB_COUNT_COUNT i) (d.get (Reg.PTB_COUNT_COUNT i) - 1)).bump (Reg.PTB_FIRED_COUNT i) 1) :=
    (d.put_keepsWork _ _).trans (Die.bump_keepsWork _ _ _)
  unfold Die.ptbFire
  dsimp only
  split
  · exact (hcount.trans (Die.put_keepsWork _ (Reg.PTB_CFG_EN i) 0)).trans (Die.ptbDone_keepsWork _ i)
  · exact hcount

end Sys2Proof.Machine
end

section
/-! PROOFS. Strokes of an array (R96 to R103, R112, R118). -/
namespace Sys2Proof.Machine

/-! ### Registers of a tile and records -/

/-- No register of a tile is one that records move. -/
theorem not_mem_logRegs {a t : Nat} (h : tileAddr t ≤ a) : a ∉ logRegs :=
  fun hm => absurd (logRegs_lt_tileAddr hm t) (Nat.not_lt.2 h)

theorem tileAddr_le_arrAddr (t a : Nat) : tileAddr t ≤ arrAddr t a := by unfold arrAddr; omega

/-! ### The commands -/

section
variable {s : State} {t a : Nat}

theorem exec_strokeIssue (hl : s.die.live = true) (hr : s.die.tileRuns t = true) (ha : a < 272)
    (hm : (s.die.arr t a).mayIssue = true) : exec (.strokeIssue t a) s = .next { s with die := s.die.strokeIssue t a } :=
  mainCmd_ok (ok := fun d => d.tileRuns t && decide (a < 272) && (d.arr t a).mayIssue) (f := fun d => d.strokeIssue t a) hl
    (by simp [hr, ha, hm])

theorem exec_strokeComplete (hl : s.die.live = true) (hr : s.die.tileRuns t = true) (ha : a < 272)
    (hf : (s.die.arr t a).flights.isEmpty = false) :
    exec (.strokeComplete t a) s = .next { s with die := s.die.strokeComplete t a } :=
  mainCmd_ok (ok := fun d => d.tileRuns t && decide (a < 272) && !(d.arr t a).flights.isEmpty)
    (f := fun d => d.strokeComplete t a) hl (by simp [hr, ha, hf])

end

/-! ### Issue -/

variable (d : Die) (t a : Nat)

theorem Array1.mayIssue_of_waiting {x : Array1} {i : StrokeIn} {rest : List StrokeIn} (hw : x.waiting = i :: rest)
    (hd : x.drive = 0) (hn : x.flights.length + x.results.length < 2) : x.mayIssue = true := by
  simp [Array1.mayIssue, hw, hd, hn]

/-- A stroke issued outside SERVING is rejected, and only its array moves (R112). -/
theorem Die.strokeIssue_of_not_serving {i : StrokeIn} {rest : List StrokeIn} (hw : (d.arr t a).waiting = i :: rest)
    (hs : d.arrState t a ≠ asServing) : ∃ f : Flight, f.rejected = true ∧ f.inp = i ∧
      d.strokeIssue t a = d.setArr t a { d.arr t a with
        waiting := rest, flights := (d.arr t a).flights ++ [f], drive := drivePhases i.aw4 false false } := by
  unfold Die.strokeIssue
  simp only [hw, if_pos hs]
  exact ⟨_, rfl, rfl, rfl⟩

/-- The decision of a phase: split above the cliff while the budget lasts, lost after it (R101, R102). -/
theorem splitDecision_eq (p cliff budget : Nat) : splitDecision p cliff budget =
    (decide (cliff < p ∧ 0 < budget), decide (cliff < p ∧ budget = 0), budget - b2n (decide (cliff < p ∧ 0 < budget))) := by
  unfold splitDecision
  by_cases hp : cliff < p
  · by_cases hb : 0 < budget
    · simp [hp, hb, Nat.ne_of_gt (Nat.zero_lt_of_lt hp), Nat.ne_of_gt hb, b2n]
    · simp [hp, Nat.ne_of_gt (Nat.zero_lt_of_lt hp), Nat.eq_zero_of_not_pos hb, b2n]
  · simp [hp, b2n]

/-- A slack phase takes no decision. -/
theorem splitDecision_slack (cliff budget : Nat) : splitDecision 0 cliff budget = (false, false, budget) := by
  simp [splitDecision]

/-- What the registers, the step and the injector show of a stroke that has issued, beside its array. -/
theorem Die.issueMarks_keepsWork (p n : Nat) (spent degraded fired : Bool) :
    KeepsWork d (let d2 := d.atLeast (Reg.ARR_PRED_MAX_MAX t a) p
      let d3 := if spent then d2.raise (Reg.ARR_STATUS_BUDGET_SPENT t a) else d2
      let d4 := if degraded then d3.stepDegradedAt n else d3
      if fired then d4.ptbFire 4 else d4) := by
  have h2 := d.atLeast_keepsWork (Reg.ARR_PRED_MAX_MAX t a) p
  have h3 := h2.trans (KeepsWork.ite (b := spent) (Die.raise_keepsWork _ (Reg.ARR_STATUS_BUDGET_SPENT t a)) (KeepsWork.refl _))
  have h4 := h3.trans (KeepsWork.ite (b := degraded) (Die.stepDegradedAt_keepsWork _ n) (KeepsWork.refl _))
  exact h4.trans (KeepsWork.ite (b := fired) (Die.ptbFire_keepsWork _ 4) (KeepsWork.refl _))

/-- A stroke of 4-bit codes issued in SERVING: what its flight holds, and the array it leaves. -/
theorem Die.strokeIssue_of_serving {i : StrokeIn} {rest : List StrokeIn} (hw : (d.arr t a).waiting = i :: rest)
    (hs : d.arrState t a = asServing) (h4 : i.aw4 = true) : ∃ f : Flight,
      (f.rejected = false ∧ f.inp = i ∧ f.p0 = (i.codes.map Int.natAbs).sum ∧ f.p1 = 0 ∧
        f.split0 = decide ((d.arr t a).cliff % 2 ^ 13 < f.p0 ∧ 0 < (d.arr t a).budget) ∧
        f.lost0 = decide ((d.arr t a).cliff % 2 ^ 13 < f.p0 ∧ (d.arr t a).budget = 0)) ∧
      KeepsWork (d.setArr t a { d.arr t a with
        waiting := rest, flights := (d.arr t a).flights ++ [f], budget := (d.arr t a).budget - b2n f.split0
        phases := (d.arr t a).phases + (1 + b2n f.split0), drive := 1 + b2n f.split0 }) (d.strokeIssue t a) := by
  have h1 : predictor (digits1 true i.codes) = 0 := rfl
  unfold Die.strokeIssue
  simp only [hw, hs, h4, ne_eq, not_true_eq_false, if_false, h1, splitDecision_slack]
  simp only [splitDecision_eq]
  exact ⟨_, ⟨rfl, rfl, rfl, rfl, rfl, rfl⟩, Die.issueMarks_keepsWork _ t a _ _ _ _ _⟩

/-! ### Completion -/

/-- Completion puts one record into the result buffer, whose columns are those of the record, and then counts it. -/
theorem Die.strokeComplete_of_flight {f : Flight} {rest : List Flight} (hf : (d.arr t a).flights = f :: rest) :
    ∃ (r : Record) (e : Die), r = d.recordOf t a (d.arr t a) f d.freeCtr ((d.arr t a).seq + 1) ∧
      e = { d.setArr t a { d.arr t a with
        flights := rest, results := (d.arr t a).results ++ [r], seq := (d.arr t a).seq + 1
        drive := (d.arr t a).driveAfter rest.length (d.arr t a).refFlights } with freeCtr := d.freeCtr + 1024 } ∧
      d.strokeComplete t a = (e.countStroke t a f (r.header.getD 3 0)).soundSelect t a f r := by
  unfold Die.strokeComplete
  simp only [hf]
  exact ⟨_, _, rfl, rfl, rfl⟩

/-- The columns of a rejected stroke are zero (R112). -/
theorem Die.recordOf_columns_rejected (x : Array1) {f : Flight} (n seq : Nat) (h : f.rejected = true) :
    (d.recordOf t a x f n seq).columns = List.replicate (if f.inp.aw4 then 256 else 512) 0 := by
  simp only [Die.recordOf, h, if_true]

/-- The words of a slack phase: exact zero, marked SLACK (R99). -/
theorem Die.phaseWords_slack (ix : Nat) (x : Array1) (f : Flight) (now : Latch) (ds : List Int) (split : Bool) (k n : Nat) :
    d.phaseWords ix x f now ds 0 split k n = List.replicate 256 (2 ^ 13) := by
  unfold Die.phaseWords
  rw [show (fun j => if 0 = 0 then columnWord 0 false false true else d.phaseWord ix x f now ds split k (n + j) j) =
    fun _ => 2 ^ 13 from funext fun j => if_pos rfl, List.map_const', List.length_range]

/-- The columns of a stroke of 4-bit codes in slack water. -/
theorem Die.recordOf_columns_slack (x : Array1) {f : Flight} (n seq : Nat) (h : f.rejected = false) (h4 : f.inp.aw4 = true)
    (hp : f.p0 = 0) (hc : f.clipCol = none) : (d.recordOf t a x f n seq).columns = List.replicate 256 (2 ^ 13) := by
  simp only [Die.recordOf, h, h4, hp, hc, Die.phaseWords_slack, Bool.false_eq_true, if_false, if_true, List.append_nil]

/-- What a rejected stroke counts: REJECT_CNT, REJECT and the log, and no other register (R112, R118). -/
theorem Die.reject_effect (det : List Nat) :
    let e := ((d.bump (Reg.ARR_REJECT_CNT_COUNT t a) 1).raise (Reg.ARR_STATUS_REJECT t a)).record 0x11 2 t a det
    e.get (Reg.ARR_STATUS_REJECT t a) = 1 ∧ KeepsWork d e ∧
    OnlyRegs (Reg.ARR_REJECT_CNT t a :: Reg.ARR_STATUS t a :: logRegs) d e := by
  have hrec := Die.record_onlyRegs ((d.bump (Reg.ARR_REJECT_CNT_COUNT t a) 1).raise (Reg.ARR_STATUS_REJECT t a)) 0x11 2 t a det
  refine ⟨?_, ((d.bump_keepsWork _ _).trans (Die.raise_keepsWork _ _)).trans (Die.record_keepsWork _ _ _ _ _ _), ?_⟩
  · rw [hrec.get (not_mem_logRegs (t := t) ((tileAddr_le_arrAddr t a).trans (Nat.le_add_right _ _))), Die.raise_eq,
      Die.get_put_same _ _ _ (by simp [Reg.ARR_STATUS_REJECT])]
    rfl
  · exact ((onlyRegs_bump d 1 List.mem_cons_self).trans
      (onlyRegs_put _ 1 (List.mem_cons_of_mem _ List.mem_cons_self))).trans
      (hrec.mono fun _ hb => List.mem_cons_of_mem _ (List.mem_cons_of_mem _ hb))

/-- The counts and status bits of a completed stroke. -/
theorem Die.countStroke_keepsWork (f : Flight) (clips : Nat) : KeepsWork d (d.countStroke t a f clips) := by
  unfold Die.countStroke
  split
  · exact (d.reject_effect t a _).2.1
  · refine KeepsWork.trans ?_ (Die.raiseIf_keepsWork _ _ _)
    refine KeepsWork.trans ?_ (Die.raiseIf_keepsWork _ _ _)
    refine KeepsWork.trans ?_ (Die.raiseIf_keepsWork _ _ _)
    refine KeepsWork.trans ?_ (Die.bump_keepsWork _ _ _)
    refine KeepsWork.trans ?_ (Die.bump_keepsWork _ _ _)
    refine KeepsWork.trans ?_ (Die.bump_keepsWork _ _ _)
    refine KeepsWork.trans ?_ (Die.bump_keepsWork _ _ _)
    exact Die.bump64_keepsWork _ _ _

theorem Die.countStroke_rejected {f : Flight} (h : f.rejected = true) (clips : Nat) : d.countStroke t a f clips =
    ((d.bump (Reg.ARR_REJECT_CNT_COUNT t a) 1).raise (Reg.ARR_STATUS_REJECT t a)).record 0x11 2 t a
      [f.inp.logical, d.arrState t a] := if_pos h

/-- Sounding selects no stroke that was rejected or in slack water (R306). -/
theorem Die.soundSelect_of_not_eligible {f : Flight} (r : Record) (h : f.rejected = true ∨ f.p0 = 0 ∧ f.p1 = 0) :
    d.soundSelect t a f r = d := by
  have hno : (f.rejected || (f.p0 == 0 && f.p1 == 0)) = true := by
    rcases h with h | ⟨h0, h1⟩
    · simp [h]
    · simp [h0, h1]
  exact if_pos hno

/-- A stroke that sounding does not select completes: its record stands last in the result buffer, and its counts move no more than
registers and the log. -/
theorem Die.strokeComplete_effect {f : Flight} {rest : List Flight} (hf : (d.arr t a).flights = f :: rest)
    (hsel : f.rejected = true ∨ f.p0 = 0 ∧ f.p1 = 0) :
    (d.strokeComplete t a).arr t a = { d.arr t a with
        flights := rest
        results := (d.arr t a).results ++ [d.recordOf t a (d.arr t a) f d.freeCtr ((d.arr t a).seq + 1)]
        seq := (d.arr t a).seq + 1
        drive := (d.arr t a).driveAfter rest.length (d.arr t a).refFlights } ∧
      SameMem d (d.strokeComplete t a) ∧
      (f.rejected = true → (d.strokeComplete t a).get (Reg.ARR_STATUS_REJECT t a) = 1 ∧
        OnlyRegs (Reg.ARR_REJECT_CNT t a :: Reg.ARR_STATUS t a :: logRegs) d (d.strokeComplete t a)) := by
  obtain ⟨r, e, hr, he, h⟩ := d.strokeComplete_of_flight t a hf
  rw [h, Die.soundSelect_of_not_eligible _ t a r hsel, ← hr]
  have hkeep := e.countStroke_keepsWork t a f (r.header.getD 3 0)
  have hmem : SameMem d e := by rw [he]; exact SameMem.refl d
  refine ⟨?_, fun b => (hkeep.mem b).trans (hmem b), fun hrej => ?_⟩
  · rw [hkeep.arr, he]
    exact Die.arr_setArr_same d t a _
  · rw [e.countStroke_rejected t a hrej]
    obtain ⟨hget, -, hregs⟩ := e.reject_effect t a [f.inp.logical, e.arrState t a]
    exact ⟨hget, OnlyRegs.trans (e := e) (by rw [he]; exact fun _ _ => rfl) hregs⟩

/-! ### The statement -/

/-- Settles O18: an issue is the rejection or the decision of its phases, a completion is the record and its counts. -/
theorem strokesTakeDecisionsAndLeaveOneRecord : Obligations.StrokesTakeDecisionsAndLeaveOneRecord := by
  intro s t a hl hr ha
  refine ⟨fun i rest hw hd hn => ?_, fun f rest hf hrej => ?_, fun f rest hf hrej h4 hp0 hp1 _ _ _ _ hc => ?_,
    fun hm => exec_strokeIssue hl hr ha hm, fun hf => exec_strokeComplete hl hr ha hf⟩
  · have hexec := exec_strokeIssue hl hr ha (Array1.mayIssue_of_waiting hw hd hn)
    refine ⟨fun hs => ?_, fun hs h4 => ?_⟩
    · obtain ⟨f, hrej, hinp, hd⟩ := s.die.strokeIssue_of_not_serving t a hw hs
      refine ⟨_, hexec, f, hrej, hinp, ?_⟩
      rw [hd]
      exact ⟨Die.arr_setArr_same _ _ _ _, rfl, SameMem.refl _, rfl, rfl⟩
    · obtain ⟨f, ⟨hrej, hinp, hp0, hp1, hsplit, hlost⟩, hkeep⟩ := s.die.strokeIssue_of_serving t a hw hs h4
      have harr := hkeep.arr t a
      rw [Die.arr_setArr_same] at harr
      refine ⟨_, hexec, f, hrej, hinp, hp0, hp1, by rw [hsplit, decide_eq_true_iff], by rw [hlost, decide_eq_true_iff], ?_⟩
      rw [harr]
      exact ⟨rfl, rfl, rfl, rfl, hkeep.mem⟩
  · obtain ⟨harr, hmem, hrest⟩ := s.die.strokeComplete_effect t a hf (.inl hrej)
    obtain ⟨hget, hregs⟩ := hrest hrej
    exact ⟨_, exec_strokeComplete hl hr ha (by rw [hf]; rfl), _, rfl, rfl, harr, s.die.recordOf_columns_rejected t a _ _ _ hrej,
      rfl, rfl, hget, hmem, hregs⟩
  · obtain ⟨harr, hmem, -⟩ := s.die.strokeComplete_effect t a hf (.inr ⟨hp0, hp1⟩)
    exact ⟨_, exec_strokeComplete hl hr ha (by rw [hf]; rfl), _, congrArg Array1.results harr,
      s.die.recordOf_columns_slack t a _ _ _ hrej h4 hp0 hc, hmem⟩

end Sys2Proof.Machine
end

section
/-! PROOFS. Reference strokes of an array (R107, R110, R112, R119). -/
namespace Sys2Proof.Machine

theorem exec_refStrokeIssue {s : State} {t a : Nat} (hl : s.die.live = true) (hr : s.die.tileRuns t = true) (ha : a < 272)
    (hm : s.die.refMayIssue t a = true) : exec (.refStrokeIssue t a) s = .next { s with die := s.die.refIssue t a } :=
  mainCmd_ok (ok := fun d => d.tileRuns t && decide (a < 272) && d.refMayIssue t a) (f := fun d => d.refIssue t a) hl
    (by simp [hr, ha, hm])

theorem exec_refStrokeComplete {s : State} {t a : Nat} (hl : s.die.live = true) (hr : s.die.tileRuns t = true) (ha : a < 272)
    (hf : 0 < (s.die.arr t a).refFlights) : exec (.refStrokeComplete t a) s = .next { s with die := s.die.refComplete t a } :=
  mainCmd_ok (ok := fun d => d.tileRuns t && decide (a < 272) && decide (0 < (d.arr t a).refFlights))
    (f := fun d => d.refComplete t a) hl (by simp [hr, ha, hf])

variable (d : Die) (t a : Nat)

/-- A reference stroke accepted in READY or SERVING drives one phase and keeps the trim it drove under. -/
theorem Die.refIssue_of_accepted (h : d.arrState t a = asReady ∨ d.arrState t a = asServing) :
    d.refIssue t a = (d.modArr t a (fun x => { x with refWaiting := x.refWaiting - 1 })).modArr t a (fun x => { x with
      refFlights := x.refFlights + 1, phases := x.phases + 1, drive := 1
      refTrims := x.refTrims ++ [(x.phases, (d.getW (Reg.CAL_CREFA t a 0)).toNat)] }) := if_pos h

/-- In every other state it is rejected at once, and counted as every rejected stroke is (R112). -/
theorem Die.refIssue_of_rejected (h1 : d.arrState t a ≠ asReady) (h2 : d.arrState t a ≠ asServing) :
    d.refIssue t a = (((d.modArr t a (fun x => { x with refWaiting := x.refWaiting - 1 })).bump
      (Reg.ARR_REJECT_CNT_COUNT t a) 1).raise (Reg.ARR_STATUS_REJECT t a)).record 0x11 2 t a [0x100, d.arrState t a] :=
  if_neg (not_or.2 ⟨h1, h2⟩)

/-- What the firmware keeps of a reference stroke stands in its own calibration record. -/
theorem Die.keepRef_frame (g o ab : Int) :
    (d.keepRef t a g o ab).regs = d.regs ∧ (d.keepRef t a g o ab).arrays = d.arrays ∧ SameMem d (d.keepRef t a g o ab) := by
  unfold Die.keepRef
  split
  · exact ⟨rfl, rfl, SameMem.refl d⟩
  · exact ⟨rfl, rfl, SameMem.refl d⟩

theorem enc_lt (w : Nat) (i : Int) : enc w i < 2 ^ w := by
  have hpos : (0 : Int) < (2 ^ w : Nat) := by exact_mod_cast Nat.two_pow_pos w
  have hlt := Int.emod_lt_of_pos i hpos
  have hnn := Int.emod_nonneg i (Int.ne_of_gt hpos)
  unfold enc
  omega

/-- The word of REF_RESULT has VALID, bit 31, set whatever its three codes are (R119). -/
theorem refResult_valid (clip : Bool) (g o ab : Int) :
    bits (w32 (2 ^ 31 + b2n clip * 2 ^ 30 + enc 8 ab * 2 ^ 16 + enc 8 o * 2 ^ 8 + enc 8 g)).toNat 31 1 = 1 := by
  have hg := enc_lt 8 g
  have ho := enc_lt 8 o
  have hab := enc_lt 8 ab
  have hc : b2n clip ≤ 1 := by cases clip <;> decide
  simp only [bits, w32, BitVec.toNat_ofNat]
  omega

/-- The registers a reference stroke writes as it completes: the word stands in ARR_REF_RESULT, and the stroke is counted. -/
theorem Die.refRegs_effect (w : Word) (clip : Bool) (g o ab : Int) :
    let d1 := (d.putW (Reg.ARR_REF_RESULT t a) w).bump (Reg.ARR_REF_CNT_COUNT t a) 1
    let e := (if clip then d1.raise (Reg.ARR_STATUS_REF_CLIP t a) else d1).keepRef t a g o ab
    e.getW (Reg.ARR_REF_RESULT t a) = w ∧ SameMem d e ∧ e.arrays = d.arrays ∧
    OnlyRegs [Reg.ARR_REF_RESULT t a, Reg.ARR_REF_CNT t a, Reg.ARR_STATUS t a] d e := by
  intro d1 e
  obtain ⟨hregs, harrays, hmem⟩ := Die.keepRef_frame (if clip then d1.raise (Reg.ARR_STATUS_REF_CLIP t a) else d1) t a g o ab
  have hkeep : KeepsWork d (if clip then d1.raise (Reg.ARR_STATUS_REF_CLIP t a) else d1) :=
    ((d.putW_keepsWork _ _).trans (Die.bump_keepsWork _ _ _)).trans (KeepsWork.ite (Die.raise_keepsWork _ _) (KeepsWork.refl _))
  have hlast : OnlyRegs [Reg.ARR_REF_CNT t a, Reg.ARR_STATUS t a] (d.putW (Reg.ARR_REF_RESULT t a) w) e := by
    have hbump : OnlyRegs [Reg.ARR_REF_CNT t a, Reg.ARR_STATUS t a] (d.putW (Reg.ARR_REF_RESULT t a) w) d1 :=
      onlyRegs_bump _ 1 List.mem_cons_self
    have hclip : OnlyRegs [Reg.ARR_REF_CNT t a, Reg.ARR_STATUS t a] d1
        (if clip then d1.raise (Reg.ARR_STATUS_REF_CLIP t a) else d1) := by
      cases clip with
      | false => exact OnlyRegs.refl _ _
      | true => exact onlyRegs_put _ 1 (List.mem_cons_of_mem _ List.mem_cons_self)
    exact hbump.trans (hclip.trans fun _ _ => by unfold Die.getW; rw [hregs])
  have hne : Reg.ARR_REF_RESULT t a ∉ [Reg.ARR_REF_CNT t a, Reg.ARR_STATUS t a] := by
    simp [Reg.ARR_REF_RESULT, Reg.ARR_REF_CNT, Reg.ARR_STATUS]
  exact ⟨(hlast _ hne).trans (Die.getW_putW_same _ _ _), fun b => (hmem b).trans (hkeep.mem b), harrays.trans hkeep.arrays,
    (onlyRegs_putW d w List.mem_cons_self).trans (hlast.mono fun _ hb => List.mem_cons_of_mem _ hb)⟩

/-- A completed reference stroke: its array has one in flight fewer, and VALID stands in ARR_REF_RESULT. -/
theorem Die.refComplete_effect :
    bits ((d.refComplete t a).getW (Reg.ARR_REF_RESULT t a)).toNat 31 1 = 1 ∧ SameMem d (d.refComplete t a) ∧
    (d.refComplete t a).arr t a = { d.arr t a with
      refFlights := (d.arr t a).refFlights - 1, refTrims := (d.arr t a).refTrims.drop 1
      drive := (d.arr t a).driveAfter (d.arr t a).flights.length ((d.arr t a).refFlights - 1) } ∧
    OnlyRegs [Reg.ARR_REF_RESULT t a, Reg.ARR_REF_CNT t a, Reg.ARR_STATUS t a] d (d.refComplete t a) := by
  unfold Die.refComplete
  dsimp only
  generalize (isClip _ || isClip _ || isClip _) = clip
  obtain ⟨hw, hmem, harrays, hregs⟩ := Die.refRegs_effect
    { d.setArr t a { d.arr t a with
        refFlights := (d.arr t a).refFlights - 1, refTrims := (d.arr t a).refTrims.drop 1
        drive := (d.arr t a).driveAfter (d.arr t a).flights.length ((d.arr t a).refFlights - 1) } with freeCtr := d.freeCtr + 3 }
    t a _ clip _ _ _
  refine ⟨(congrArg (fun w : Word => bits w.toNat 31 1) hw).trans (refResult_valid _ _ _ _), hmem, ?_, hregs⟩
  unfold Die.arr at harrays ⊢
  rw [harrays]
  exact Die.arr_setArr_same d t a _

/-- Settles O19: acceptance and rejection are the two branches of an issue; a completion writes its word and counts. -/
theorem referenceStrokesIssueOnlyInReadyOrServing : Obligations.ReferenceStrokesIssueOnlyInReadyOrServing := by
  intro s t a hl hr ha
  refine ⟨fun hw hd hs => ?_, fun hw h1 h2 => ?_, fun hf => ?_⟩
  · have hm : s.die.refMayIssue t a = true := by simp [Die.refMayIssue, hw, hd]
    refine ⟨_, exec_refStrokeIssue hl hr ha hm, ?_⟩
    rw [Die.refIssue_of_accepted _ t a hs]
    exact ⟨rfl, SameMem.refl _, by rw [Die.arr_modArr_same, Die.arr_modArr_same], rfl, rfl⟩
  · have hm : s.die.refMayIssue t a = true := by simp [Die.refMayIssue, hw, h1, h2]
    refine ⟨_, exec_refStrokeIssue hl hr ha hm, ?_⟩
    rw [Die.refIssue_of_rejected _ t a h1 h2]
    obtain ⟨hget, hkeep, hregs⟩ :=
      (s.die.modArr t a fun x => { x with refWaiting := x.refWaiting - 1 }).reject_effect t a [0x100, s.die.arrState t a]
    exact ⟨hget, (hkeep.arr t a).trans (Die.arr_modArr_same _ t a _), hkeep.mem, hregs⟩
  · obtain ⟨hvalid, hmem, harr, hregs⟩ := s.die.refComplete_effect t a
    exact ⟨_, exec_refStrokeComplete hl hr ha hf, hvalid, hmem, harr, hregs, rfl, rfl⟩

end Sys2Proof.Machine
end

section
/-! PROOFS. Requests for the array map (R111, R269, R270). -/
namespace Sys2Proof.Machine

/-! ### A refused request -/

/-- Events leave what has been sent. -/
theorem Die.event_out (d : Die) (slot kind : Nat) (body : List Byte) : (d.event slot kind body).out = d.out := by
  unfold Die.event
  cases d.session slot with
  | none => simp [Die.bump]
  | some x =>
    dsimp only
    split
    · simp
    · simp [Die.bump]

theorem Die.eventAll_out (d : Die) (kind : Nat) (body : List Byte) : (d.eventAll kind body).out = d.out := by
  unfold Die.eventAll
  split
  · simp [Die.bump]
  · exact List.foldlRecOn (motive := fun e : Die => e.out = d.out) _ _ rfl fun e he slot _ => (e.event_out slot kind body).trans he

/-- An alert leaves standing what has been sent: it sends behind it. -/
theorem Die.out_subset_alert (d : Die) (b : Nat) : d.out ⊆ (d.alert b).out := by
  unfold Die.alert
  dsimp only
  split
  · simp
  · rw [Die.eventAll_out]
    split
    · simp
    · simp

theorem Die.accept_out (d : Die) (r : Rec) : (d.accept r).out = d.out := by
  unfold Die.accept
  exact Die.putW_out _ _ _

/-- What a lost record counts leaves standing what has been sent. -/
theorem Die.out_subset_lostRecord {d x : Die} (hx : x.out = d.out) :
    d.out ⊆ (((x.bump Reg.STL_LOST_COUNT 1).raise Reg.STL_STATUS_QFULL).alert alLost).out := by
  have hbump : ((x.bump Reg.STL_LOST_COUNT 1).raise Reg.STL_STATUS_QFULL).out = d.out := by simp [Die.bump, hx]
  rw [← hbump]
  exact Die.out_subset_alert _ _

/-- So does a record, which alerts where it is lost. -/
theorem Die.out_subset_record (d : Die) (src ev dom sub : Nat) (det : List Nat) : d.out ⊆ (d.record src ev dom sub det).out := by
  by_cases h : d.strand.queue.length < 512
  · rw [show d.record src ev dom sub det = d.accept (d.mkRec src ev dom sub det false) from if_pos h, Die.accept_out]
    exact List.Subset.refl _
  · obtain ⟨x, hx, heq⟩ : ∃ x : Die, x.out = d.out ∧ d.record src ev dom sub det =
        ((x.bump Reg.STL_LOST_COUNT 1).raise Reg.STL_STATUS_QFULL).alert alLost :=
      ⟨{ d with strand := { d.strand with dropped := d.strand.dropped + 1 } }, rfl, if_neg h⟩
    rw [heq]
    exact Die.out_subset_lostRecord hx

/-- A refused request tells the firmware and the log, and nothing else moves (R111). -/
theorem Die.refuseReq_refused (d : Die) (t a req : Nat) : ReqRefused t a req d (d.refuseReq t a req) := by
  have hlogs : LogsOnly d (d.refuseReq t a req) := (logsOnly_emit d _).trans (Die.record_logsOnly _ _ _ _ _ _)
  refine ⟨Die.out_subset_record _ _ _ _ _ _ List.mem_cons_self, ?_, by rw [hlogs], by rw [hlogs], hlogs.sameMem, ?_⟩
  · exact (Die.record_recorded (d.emit (.firmware 3 [t, a, req, d.arrState t a])) 0x11 1 t a [d.arrState t a, req]).frame
      ⟨rfl, rfl, rfl⟩ ⟨rfl, rfl⟩
  · exact Die.record_onlyRegs (d.emit _) _ _ _ _ _

/-! ### A change put down for the boundary -/

/-- PEND and NEXT of the entry change; VALID and PHYS, every other register, the arrays and the memory stay. -/
theorem Die.putPending_effect (d : Die) (t l next : Nat) (k : MapKind) (hn : next < 2 ^ 9) :
    (d.putPending t l next k).on (Reg.TILE_AMAP_PEND t l) = true ∧
    (d.putPending t l next k).get (Reg.TILE_AMAP_NEXT t l) = next ∧
    look (d.putPending t l next k).mapPend (256 * t + l) = some k ∧
    (d.putPending t l next k).on (Reg.TILE_AMAP_VALID t l) = d.on (Reg.TILE_AMAP_VALID t l) ∧
    (d.putPending t l next k).get (Reg.TILE_AMAP_PHYS t l) = d.get (Reg.TILE_AMAP_PHYS t l) ∧
    (d.putPending t l next k).arrays = d.arrays ∧
    OnlyRegs [Reg.TILE_AMAP t l] d (d.putPending t l next k) ∧ SameMem d (d.putPending t l next k) := by
  obtain ⟨e, he⟩ : ∃ e, e = (d.put (Reg.TILE_AMAP_PEND t l) 1).put (Reg.TILE_AMAP_NEXT t l) next := ⟨_, rfl⟩
  have hput : d.putPending t l next k = { e with mapPend := keep e.mapPend (256 * t + l) k } := by rw [he]; rfl
  have hother : ∀ g : Fld, g.addr = Reg.TILE_AMAP t l → g.lo + g.width ≤ 16 ∨ g.lo = 31 → e.get g = d.get g := by
    intro g ha hg
    rw [he, Die.get_put_field _ _ _ _ (by simp [Reg.TILE_AMAP_NEXT]) ha (by simp only [Reg.TILE_AMAP_NEXT]; omega),
      Die.get_put_field _ _ _ _ (by simp [Reg.TILE_AMAP_PEND]) ha (by simp only [Reg.TILE_AMAP_PEND]; omega)]
  have hpend : e.get (Reg.TILE_AMAP_PEND t l) = 1 := by
    rw [he, Die.get_put_field _ (Reg.TILE_AMAP_NEXT t l) (Reg.TILE_AMAP_PEND t l) _ (by simp [Reg.TILE_AMAP_NEXT]) rfl
      (.inr (by simp [Reg.TILE_AMAP_NEXT, Reg.TILE_AMAP_PEND])), Die.get_put_same _ _ _ (by simp [Reg.TILE_AMAP_PEND])]
    rfl
  have hnext : e.get (Reg.TILE_AMAP_NEXT t l) = next := by
    rw [he, Die.get_put_same _ _ _ (by simp [Reg.TILE_AMAP_NEXT])]
    exact Nat.mod_eq_of_lt hn
  have hkeep : KeepsWork d e := by rw [he]; exact (d.put_keepsWork _ 1).trans (Die.put_keepsWork _ _ next)
  have hregs : OnlyRegs [Reg.TILE_AMAP t l] d e := by
    rw [he]
    exact (onlyRegs_put d (f := Reg.TILE_AMAP_PEND t l) 1 List.mem_cons_self).trans
      (onlyRegs_put (f := Reg.TILE_AMAP_NEXT t l) _ next List.mem_cons_self)
  rw [hput]
  refine ⟨?_, hnext, look_keep_same _ _ _, ?_, hother _ rfl (by simp [Reg.TILE_AMAP_PHYS]), hkeep.arrays, hregs, hkeep.mem⟩
  · exact decide_eq_true hpend
  · exact congrArg (fun n => decide (n = 1)) (hother (Reg.TILE_AMAP_VALID t l) rfl (.inr rfl))

/-! ### The commands -/

section
variable {s : State} {t l a : Nat}

theorem exec_map (hl : s.die.live = true) (ho : s.die.reqOk t a = true) (hl' : l < 256) (hi : s.die.mapIssued t l a = true) :
    exec (.map t l a) s = .next { s with die := s.die.mapReq t l a } :=
  mainCmd_ok (ok := fun d => d.reqOk t a && decide (l < 256) && d.mapIssued t l a) (f := fun d => d.mapReq t l a) hl
    (by simp [ho, hl', hi])

theorem exec_swap (hl : s.die.live = true) (ho : s.die.reqOk t a = true) (hl' : l < 256) (hi : s.die.swapIssued t l a = true) :
    exec (.swap t l a) s = .next { s with die := s.die.swapReq t l a .swap 5 } :=
  mainCmd_ok (ok := fun d => d.reqOk t a && decide (l < 256) && d.swapIssued t l a) (f := fun d => d.swapReq t l a .swap 5) hl
    (by simp [ho, hl', hi])

theorem exec_remap (hl : s.die.live = true) (ho : s.die.reqOk t a = true) (hl' : l < 256) (hi : s.die.remapIssued t l a = true) :
    exec (.remap t l a) s = .next { s with die := s.die.swapReq t l a .remap 6 } :=
  mainCmd_ok (ok := fun d => d.reqOk t a && decide (l < 256) && d.remapIssued t l a) (f := fun d => d.swapReq t l a .remap 6) hl
    (by simp [ho, hl', hi])

theorem exec_unmap (hl : s.die.live = true) (ho : s.die.reqOk t 0 = true) (hl' : l < 256) :
    exec (.unmap t l) s = .next { s with die := s.die.unmapReq t l } :=
  mainCmd_ok (ok := fun d => d.reqOk t 0 && decide (l < 256)) (f := fun d => d.unmapReq t l) hl (by simp [ho, hl'])

/-- A request that the firmware does not issue leaves the state as it is (log entry 58). -/
theorem exec_map_unissued (hi : s.die.mapIssued t l a = false) : exec (.map t l a) s = .next s :=
  dieCmd_not (ok := fun d => d.live && (d.reqOk t a && decide (l < 256) && d.mapIssued t l a)) (f := fun d => d.mapReq t l a)
    (by simp [hi])

theorem exec_swap_unissued (hi : s.die.swapIssued t l a = false) : exec (.swap t l a) s = .next s :=
  dieCmd_not (ok := fun d => d.live && (d.reqOk t a && decide (l < 256) && d.swapIssued t l a))
    (f := fun d => d.swapReq t l a .swap 5) (by simp [hi])

theorem exec_remap_unissued (hi : s.die.remapIssued t l a = false) : exec (.remap t l a) s = .next s :=
  dieCmd_not (ok := fun d => d.live && (d.reqOk t a && decide (l < 256) && d.remapIssued t l a))
    (f := fun d => d.swapReq t l a .remap 6) (by simp [hi])

end

/-- MAP, SWAP and REMAP alike: a request that asks VALID to be `v` puts its change down where the array may enter, VALID is so and
nothing pends, and is refused otherwise. -/
theorem mapRequest_effect {i : Instr} {s : State} {t l a req : Nat} {k : MapKind} {v : Bool} (ha : a < 2 ^ 9)
    {e : Die} (hexec : exec i s = .next { s with die := e })
    (he : e = if s.die.mayEnter t a && s.die.on (Reg.TILE_AMAP_VALID t l) == v && !s.die.on (Reg.TILE_AMAP_PEND t l) then
      s.die.putPending t l a k else s.die.refuseReq t a req) :
    (s.die.mayEnter t a = true → s.die.on (Reg.TILE_AMAP_VALID t l) = v → s.die.on (Reg.TILE_AMAP_PEND t l) = false →
      ∃ u : State, exec i s = .next u ∧ u.die.on (Reg.TILE_AMAP_PEND t l) = true ∧ u.die.get (Reg.TILE_AMAP_NEXT t l) = a ∧
      look u.die.mapPend (256 * t + l) = some k ∧ u.die.on (Reg.TILE_AMAP_VALID t l) = v ∧
      u.die.get (Reg.TILE_AMAP_PHYS t l) = s.die.get (Reg.TILE_AMAP_PHYS t l) ∧ u.die.arrays = s.die.arrays ∧
      OnlyRegs [Reg.TILE_AMAP t l] s.die u.die ∧ SameMem s.die u.die) ∧
    (s.die.mayEnter t a = false ∨ s.die.on (Reg.TILE_AMAP_VALID t l) = !v ∨ s.die.on (Reg.TILE_AMAP_PEND t l) = true →
      ∃ u : State, exec i s = .next u ∧ ReqRefused t a req s.die u.die) := by
  refine ⟨fun hm hv hp => ⟨_, hexec, ?_⟩, fun hno => ⟨_, hexec, ?_⟩⟩
  · rw [he, if_pos (by simp [hm, hv, hp])]
    obtain ⟨h1, h2, h3, h4, h5, h6, h7, h8⟩ := s.die.putPending_effect t l a k ha
    exact ⟨h1, h2, h3, h4.trans hv, h5, h6, h7, h8⟩
  · rw [he, if_neg (by rcases hno with h | h | h <;> simp [h])]
    exact s.die.refuseReq_refused t a req

/-- Settles O42: MAP, SWAP and REMAP are one request with VALID clear or set; UNMAP asks for the array that serves. -/
theorem mapRequestsWaitForTheBoundary : Obligations.MapRequestsWaitForTheBoundary := by
  intro s t l a hl hf hr hl' ha
  have ho : ∀ b, b < 272 → s.die.reqOk t b = true := fun b hb => by simp [Die.reqOk, hf, hr, hb]
  have ha9 : a < 2 ^ 9 := by omega
  refine ⟨fun k hk => ?_, fun x hx hs hp => ?_, fun hx => ?_, fun ho => exec_unmap hl ho hl'⟩
  · simp only [List.mem_cons, List.not_mem_nil, or_false] at hk
    rcases hk with rfl | rfl | rfl
    · have heff := fun hi => mapRequest_effect ha9 (exec_map (a := a) hl (ho a ha) hl' hi) (v := false)
        (by rw [Die.mapReq, beq_false])
      exact ⟨exec_map_unissued, fun hi => (heff hi).1, fun hi => (heff hi).2⟩
    · have heff := fun hi => mapRequest_effect ha9 (exec_swap (a := a) hl (ho a ha) hl' hi) (v := true)
        (by rw [Die.swapReq, beq_true])
      exact ⟨exec_swap_unissued, fun hi => (heff hi).1, fun hi => (heff hi).2⟩
    · have heff := fun hi => mapRequest_effect ha9 (exec_remap (a := a) hl (ho a ha) hl' hi) (v := true)
        (by rw [Die.swapReq, beq_true])
      exact ⟨exec_remap_unissued, fun hi => (heff hi).1, fun hi => (heff hi).2⟩
  · refine ⟨_, exec_unmap hl (ho 0 (by decide)) hl', ?_⟩
    have hput : s.die.unmapReq t l = s.die.putPending t l 0x1FF .unmap := by
      unfold Die.unmapReq
      rw [hx]
      exact if_pos ⟨hs, by rw [hp]; rfl⟩
    obtain ⟨h1, h2, h3, h4, h5, -, h7, h8⟩ := s.die.putPending_effect t l 0x1FF .unmap (by decide)
    rw [hput]
    refine ⟨h1, h2, h3, ?_, h7, h8⟩
    simpa only [Die.serving, h4, h5] using hx
  · exact ⟨_, exec_unmap hl (ho 0 (by decide)) hl', by unfold Die.unmapReq; rw [hx]; exact s.die.refuseReq_refused t 0x1FF 4⟩

end Sys2Proof.Machine
end

section
/-! PROOFS. A programming request that ends over a loose cell outside the array (R111). -/
namespace Sys2Proof.Machine

theorem exec_programDone {s : State} {t a : Nat} {stuck : List (Nat × Nat × Nat)} (hl : s.die.live = true)
    (hr : s.die.tileRuns t = true) (ha : a < 272) (hc : s.die.programCanEnd t a stuck = true) :
    exec (.programDone t a stuck) s = .next { s with die := s.die.programDone1 t a stuck } :=
  mainCmd_ok (ok := fun d => d.tileRuns t && decide (a < 272) && d.programCanEnd t a stuck)
    (f := fun d => d.programDone1 t a stuck) hl (by simp [hr, ha, hc])

/-- Marking the spare columns is a matter of registers. -/
theorem Die.markSpares_keepsWork (d : Die) (t a : Nat) (spares : List (Nat × Nat)) (stuck : List Nat) :
    KeepsWork d (d.markSpares t a spares stuck) := by
  refine List.foldlRecOn (motive := KeepsWork d) _ _ (KeepsWork.refl d) fun e he j _ => ?_
  split
  · exact he.trans ((e.put_keepsWork _ 0).trans (Die.put_keepsWork _ _ 0))
  · split
    · exact he.trans (e.putW_keepsWork _ _)
    · exact he.trans (e.raise_keepsWork _)

/-- A request over all rows that ends with no stuck cell keeps every array as its last write left it. -/
theorem Die.programGood_arr (d : Die) (t a l : Nat) (spares : List (Nat × Nat)) :
    (d.programGood t a l spares none).arr t a = d.arr t a := by
  unfold Die.programGood
  dsimp only
  rw [Die.modCal_arr]
  exact ((d.markSpares_keepsWork t a spares _).trans (Die.putW_keepsWork _ _ _)).arr t a

/-- A request over all rows that ends with no stuck cell takes the cells of those rows, 512 of 266 columns, out of the
loose ones. -/
theorem Die.programDone1_loose (d : Die) (t a l : Nat) (targets : List (Nat × (Nat × Nat))) (spares : List (Nat × Nat))
    (hj : (d.arr t a).job = .program l targets spares none) :
    ((d.programDone1 t a []).arr t a).loose = (d.arr t a).loose.filter (fun ix => decide (512 ≤ ix / 266)) := by
  unfold Die.programDone1
  simp only [hj, List.filter_nil, List.isEmpty_nil, if_true, Die.programGood_arr, Die.arr_modArr_same, Array1.programmed]
  simp

/-- Array 0 of tile 0 is being programmed with an empty image, and cell 136192 = 512 * 266 is among its loose cells: one row past
the last. -/
def State.looseBeyond : State :=
  { pending := [], carrier := {},
    die := ({ mgmt := { powered := true, dieReset := false }, boot := { mapsApplied := true } } : Die).setArr 0 0
      { job := .program 0 [] [] none, loose := [136192] } }

/-- Refutes O41: a pass over all rows leaves standing a loose cell numbered past them, so the loose cells are not those it found
stuck. -/
theorem not_arrayRequestsFollowTheArrayState : ¬ Obligations.ArrayRequestsFollowTheArrayState := by
  unfold Obligations.ArrayRequestsFollowTheArrayState
  intro h
  have hjob : (State.looseBeyond.die.arr 0 0).job = .program 0 [] [] none := by decide
  obtain ⟨-, -, hdone, -⟩ := h State.looseBeyond 0 0 (by decide) (by decide) (by decide)
  obtain ⟨u, hexec, -, -, -, hloose, -⟩ := (hdone 0 [] [] [] hjob (by decide)).1 (by simp)
  rw [exec_programDone (by decide) (by decide) (by decide) (by decide)] at hexec
  rw [← Host.Outcome.next.inj hexec, Die.programDone1_loose _ 0 0 0 [] [] hjob] at hloose
  exact absurd hloose (by decide)

end Sys2Proof.Machine
end

section
/-! SUPPORT. What a tile's engine notes beside the data it works on: its counters, status bits, faults and reports. -/
namespace Sys2Proof.Machine

/-- The work is as before, and so are the tables of tile `n`: its regions and its array map stand between these addresses. -/
structure Notes (n : Nat) (d e : Die) : Prop where
  work : KeepsWork d e
  tables : ∀ a, tileAddr n + 0x810000 ≤ a → a < tileAddr n + 0x900000 → e.getW a = d.getW a

/-- An address outside the tables of tile `n`. -/
def offTables (n a : Nat) : Prop := a < tileAddr n + 0x810000 ∨ tileAddr n + 0x900000 ≤ a

variable {d e f : Die} {n : Nat}

theorem Notes.refl (n : Nat) (d : Die) : Notes n d d := ⟨KeepsWork.refl d, fun _ _ _ => rfl⟩

theorem Notes.trans (h : Notes n d e) (k : Notes n e f) : Notes n d f :=
  ⟨h.work.trans k.work, fun a h1 h2 => (k.tables a h1 h2).trans (h.tables a h1 h2)⟩

/-- Registers outside the tables may move. -/
theorem KeepsWork.notes {rs : List Nat} (h : KeepsWork d e) (hr : OnlyRegs rs d e) (ho : ∀ a ∈ rs, offTables n a) :
    Notes n d e :=
  ⟨h, fun a h1 h2 => hr a fun hm => by have := ho a hm; unfold offTables at this; omega⟩

theorem Die.putW_notes (d : Die) {a : Nat} (w : Word) (h : offTables n a) : Notes n d (d.putW a w) :=
  (d.putW_keepsWork a w).notes (onlyRegs_putW d w List.mem_cons_self) (List.forall_mem_singleton.2 h)

theorem Die.put_notes (d : Die) {g : Fld} (v : Nat) (h : offTables n g.addr) : Notes n d (d.put g v) := d.putW_notes _ h
theorem Die.raise_notes (d : Die) {g : Fld} (h : offTables n g.addr) : Notes n d (d.raise g) := d.put_notes 1 h
theorem Die.bump_notes (d : Die) {g : Fld} (v : Nat) (h : offTables n g.addr) : Notes n d (d.bump g v) := d.put_notes _ h

theorem offTables_of_logRegs {a : Nat} (h : a ∈ logRegs) : offTables n a := .inl (by have := logRegs_lt_tileAddr h n; omega)

theorem Die.record_notes (d : Die) (src ev dom sub : Nat) (det : List Nat) : Notes n d (d.record src ev dom sub det) :=
  (d.record_keepsWork src ev dom sub det).notes (d.record_onlyRegs src ev dom sub det) fun _ => offTables_of_logRegs

theorem Die.emit_notes (d : Die) (o : Out) : Notes n d (d.emit o) := ⟨(logsOnly_emit d o).keepsWork, fun _ _ _ => rfl⟩

theorem Die.stepFault_notes (d : Die) : Notes n d d.stepFault :=
  ⟨d.stepFault_keepsWork.1, fun a _ _ => by unfold Die.getW; rw [d.stepFault_keepsWork.2]⟩

/-! ### Faults -/

/-- The latch of the first fault (R200). -/
theorem Die.faultLatch_notes (d : Die) (p : Prop) [Decidable p] (t : Nat) (w0 w1 w2 : Word) : Notes t d
    (if p then d else ((d.putW (Reg.ENG_FAULT_INFO0 t) w0).putW (Reg.ENG_FAULT_INFO1 t) w1).putW (Reg.ENG_FAULT_INFO2 t) w2) := by
  split
  · exact Notes.refl t d
  · exact ((d.putW_notes w0 (.inl (by unfold Reg.ENG_FAULT_INFO0; omega))).trans
      (Die.putW_notes _ w1 (.inl (by unfold Reg.ENG_FAULT_INFO1; omega)))).trans
      (Die.putW_notes _ w2 (.inl (by unfold Reg.ENG_FAULT_INFO2; omega)))

/-- A fault is counted in a register of the tile's control block, shown in ENG_STATUS and recorded. -/
theorem Die.faultCount_notes (d : Die) {t cnt : Nat} {status : Fld} (ev : Nat) (words : List Nat)
    (hc : cnt < tileAddr t + 0x810000) (hs : status.addr < tileAddr t + 0x810000) :
    Notes t d (((d.bump ⟨cnt, 0, 32⟩ 1).raise status).record 0x10 ev t 0xFFFF words) :=
  ((d.bump_notes 1 (.inl hc)).trans (Die.raise_notes _ (.inl hs))).trans (Die.record_notes _ _ _ _ _ _)

theorem Die.tileFault_notes (d : Die) (t kind thread opcode region offset tag : Nat) :
    Notes t d (d.tileFault t kind thread opcode region offset tag) := by
  unfold Die.tileFault
  refine Notes.trans ?_ (Die.stepFault_notes _)
  refine Notes.trans ?_ (Die.emit_notes _ _)
  by_cases h : kind = fkMalformed
  · rw [if_pos h]
    exact (d.faultLatch_notes _ t _ _ _).trans (Die.faultCount_notes _ _ _ (by unfold Reg.ENG_BADDESC_CNT; omega)
      (by simp [Reg.ENG_STATUS_BAD_DESC, Reg.ENG_STATUS]))
  · rw [if_neg h]
    exact (d.faultLatch_notes _ t _ _ _).trans (Die.faultCount_notes _ _ _ (by unfold Reg.ENG_FAULT_CNT; omega)
      (by simp [Reg.ENG_STATUS_FAULT, Reg.ENG_STATUS]))

/-! ### Counters of the arithmetic -/

/-- A count in the arithmetic block, and its bit in ENG_ARITH_STATUS. -/
theorem Die.arithCount_notes (d : Die) {t : Nat} {cnt bit : Fld} (v : Nat) (hc : tileAddr t + 0x900000 ≤ cnt.addr)
    (hb : bit.addr = Reg.ENG_ARITH_STATUS t) : Notes t d ((d.bump cnt v).raise bit) :=
  (d.bump_notes v (.inr hc)).trans (Die.raise_notes _ (.inr (by rw [hb]; unfold Reg.ENG_ARITH_STATUS; omega)))

theorem Die.countNonfinite_notes (d : Die) (t n : Nat) : Notes t d (d.countNonfinite t n) := by
  unfold Die.countNonfinite
  split
  · exact Notes.refl t d
  · exact d.arithCount_notes _ (by simp [Reg.ENG_NONFINITE_CNT_COUNT, Reg.ENG_NONFINITE_CNT]) rfl

theorem Die.countPoisoned_notes (d : Die) (t n : Nat) : Notes t d (d.countPoisoned t n) := by
  unfold Die.countPoisoned
  split
  · exact Notes.refl t d
  · exact d.arithCount_notes _ (by simp [Reg.ENG_D_POISON_CNT_COUNT, Reg.ENG_D_POISON_CNT]) rfl

theorem Die.countReserved_notes (d : Die) (t n : Nat) : Notes t d (d.countReserved t n) := by
  unfold Die.countReserved
  split
  · exact Notes.refl t d
  · exact d.arithCount_notes _ (by simp [Reg.ENG_D_RSVD_CNT_COUNT, Reg.ENG_D_RSVD_CNT]) rfl

theorem Die.countQuant_notes (d : Die) (t layer : Nat) (k : QuantCase) : Notes t d (d.countQuant t layer k) := by
  unfold Die.countQuant
  cases k with
  | poison => exact d.bump_notes 1 (.inr (by simp [Reg.ENG_Q_POISON_CNT_COUNT, Reg.ENG_Q_POISON_CNT]))
  | zero => exact d.bump_notes 1 (.inr (by simp [Reg.ENG_Q_ZERO_CNT_COUNT, Reg.ENG_Q_ZERO_CNT]))
  | under => exact d.arithCount_notes _ (by simp [Reg.ENG_Q_UNDER_CNT_COUNT, Reg.ENG_Q_UNDER_CNT]) rfl
  | sat =>
    exact (d.arithCount_notes _ (by simp [Reg.ENG_Q_SAT_CNT_COUNT, Reg.ENG_Q_SAT_CNT]) rfl).trans
      (Die.bump_notes _ 1 (.inr (by unfold Reg.ENG_LAYER_STAT_QSAT_COUNT Reg.ENG_LAYER_STAT_QSAT; dsimp only; omega)))
  | plain => exact Notes.refl t d

theorem Die.quantBlock_notes (d : Die) (t : Nat) (r : List Word) (k16 : Nat) (aw4 : Bool) :
    Notes t d (d.quantBlock t r k16 aw4).1 := by
  unfold Die.quantBlock
  dsimp only
  cases clampOf r k16 (if aw4 then 7 else 127) with
  | poison => exact Notes.refl t d
  | overflow => exact d.arithCount_notes _ (by simp [Reg.ENG_RMS_OVF_CNT_COUNT, Reg.ENG_RMS_OVF_CNT]) rfl
  | zero => exact d.bump_notes 1 (.inr (by simp [Reg.ENG_A_ZERO_CNT_COUNT, Reg.ENG_A_ZERO_CNT]))
  | scale => exact Notes.refl t d

/-- The outputs of a unit: as many as its results, with their count. -/
theorem Die.engOut_effect (d : Die) (t : Nat) (tainted : Bool) (l : List Word) :
    Notes t d (d.engOut t tainted l).1 ∧ (d.engOut t tainted l).2.1.length = l.length := by
  cases tainted with
  | true => exact ⟨Notes.refl t d, List.length_map _⟩
  | false => exact ⟨d.countNonfinite_notes t _, List.length_map _⟩

theorem Die.elementwise_effect (d : Die) (t : Nat) (l : List (Bool × Word)) :
    Notes t d (d.elementwise t l).1 ∧ (d.elementwise t l).2.1.length = l.length :=
  ⟨d.countNonfinite_notes t _, List.length_map _⟩

end Sys2Proof.Machine
end

section
/-! SUPPORT. How many words and bytes the operations of an engine form. -/
namespace Sys2Proof.Machine

theorem natLe_length (n v : Nat) : (natLe n v).length = n := by
  induction n generalizing v with
  | zero => rfl
  | succ k ih => rw [natLe, List.length_cons, ih]

theorem wordsBytes_length (l : List Word) : (wordsBytes l).length = 4 * l.length := by
  unfold wordsBytes
  induction l with
  | nil => rfl
  | cons w r ih => rw [List.map_cons, List.flatten_cons, List.length_append, ih, natLe_length, List.length_cons]; omega

theorem narrowBytes_length_le (bf : Bool) (l : List Word) : (narrowBytes bf l).length ≤ (if bf then 2 else 4) * l.length := by
  cases bf with
  | false => exact (wordsBytes_length l).le
  | true =>
    simp only [narrowBytes, if_true]
    induction l with
    | nil => exact le_rfl
    | cons w r ih => rw [List.map_cons, List.flatten_cons, List.length_append, natLe_length, List.length_cons]; omega

theorem pattern64_length (p : Nat) : (pattern64 p).length = 64 := by
  simp [pattern64, natLe_length]

theorem Die.bytesAt_length (d : Die) (a n : Nat) : (d.bytesAt a n).length = n := by
  simp [Die.bytesAt]

/-! ### Words in -/

/-- The words of the first `m` blocks of 32. -/
theorem length_poisonBlocks_range (l : List Word) (m : Nat) :
    (((List.range m).map (fun k =>
      let b := (l.drop (32 * k)).take 32
      if b.any fpBad then List.replicate b.length fpPoison else b)).flatten).length = min l.length (32 * m) := by
  induction m with
  | zero => simp
  | succ k ih =>
    have hblock : ∀ b : List Word, (if b.any fpBad then List.replicate b.length fpPoison else b).length = b.length := by
      intro b
      split
      · exact List.length_replicate
      · rfl
    rw [List.range_succ, List.map_append, List.flatten_append, List.length_append, ih, List.map_singleton, List.flatten_singleton,
      hblock, List.length_take, List.length_drop]
    omega

/-- Poison leaves a vector as long as it was. -/
theorem poisonBlocks_length (l : List Word) : (poisonBlocks l).length = l.length := by
  unfold poisonBlocks
  rw [length_poisonBlocks_range]
  omega

theorem wordsIn_length (bs : Option (List Byte)) (n : Nat) : (wordsIn bs n).length = n := by
  cases bs with
  | none => exact List.length_replicate
  | some l => simp [wordsIn, poisonBlocks_length]

theorem bfsIn_length (bs : Option (List Byte)) (n : Nat) : (bfsIn bs n).length = n := by
  cases bs with
  | none => exact List.length_replicate
  | some l => simp [bfsIn, poisonBlocks_length]

/-! ### Blocks -/

theorem rotateBlock_length (x : List Word) (seed b : Nat) : (rotateBlock x seed b).length = 512 := by
  unfold rotateBlock
  rw [List.length_map]
  refine List.foldlRecOn (motive := fun v : List Word => v.length = 512) _ _ (by simp) fun v hv k _ => ?_
  rw [butterfly, List.length_map, List.length_range, hv]

theorem elementCodes_length (fmt8 : Bool) (bs : List Byte) : (elementCodes fmt8 bs).length = 32 := by
  cases fmt8 <;> simp [elementCodes]

theorem shingleDecode_length (fmt8 : Bool) (scale : Nat) (bs : List Byte) : (shingleDecode fmt8 scale bs).1.length = 32 := by
  unfold shingleDecode
  split
  · exact List.length_replicate
  · split
    · exact List.length_replicate
    · exact (List.length_map _).trans (elementCodes_length fmt8 bs)

theorem shingleQuantise_length {x : List Word} (hx : x.length = 32) (q : Nat) : (shingleQuantise x q).2.1.length = 32 := by
  have hels : ∀ (els : List Int) (code : Nat) (k : QuantCase), els.length = 32 →
      (if els.all (fun e => e == 0) then (0, List.replicate 32 (0 : Int), QuantCase.under) else (code, els, k)).2.1.length =
        32 := by
    intro els code k h
    split
    · exact List.length_replicate
    · exact h
  unfold shingleQuantise
  split
  · exact List.length_replicate
  · dsimp only
    split
    · exact List.length_replicate
    · exact hels _ _ _ ((List.length_map _).trans hx)

theorem elementBytes_length {els : List Int} (h : els.length = 32) (fmt8 : Bool) :
    (elementBytes fmt8 els).length = shingleEb fmt8 := by
  cases fmt8 <;> simp [elementBytes, shingleEb, h]

end Sys2Proof.Machine
end

section
/-! SUPPORT. What an engine operation leaves alone while it works: everything but the bytes of its destination. -/
namespace Sys2Proof.Machine

/-- Address of the first byte of a descriptor's destination. -/
def Die.dstAt (d : Die) (u : Cur) : Nat := d.rgnAddr u.t (opRgn u.c.d) (opOff u.c.d)

/-- Work for the descriptor `u` leaves the executing descriptors, the tile's tables, the key/value storage and every byte outside
the first `L` bytes of the destination. -/
structure WorksIn (u : Cur) (L : Nat) (d e : Die) : Prop where
  execs : (e.tile u.t).execs = (d.tile u.t).execs
  tables : ∀ a, tileAddr u.t + 0x810000 ≤ a → a < tileAddr u.t + 0x900000 → e.getW a = d.getW a
  kv : e.serve.kv = d.serve.kv
  mem : SameMemBut (d.dstAt u) L d e

variable {u : Cur} {L : Nat} {d e f : Die}

theorem WorksIn.refl (u : Cur) (L : Nat) (d : Die) : WorksIn u L d d := ⟨rfl, fun _ _ _ => rfl, rfl, fun _ _ => rfl⟩

/-- The regions stand where they stood. -/
theorem WorksIn.rgnAddr (h : WorksIn u L d e) (w : Word) (off : Nat) :
    e.rgnAddr u.t (opRgn w) off = d.rgnAddr u.t (opRgn w) off := by
  have hlt : opRgn w < 256 := Nat.mod_lt _ (by decide)
  unfold Die.rgnAddr Die.rgnOff Die.get
  rw [h.tables _ (by unfold Reg.ENG_RGN_BASE_BASE Reg.ENG_RGN_BASE; dsimp only; omega)
    (by unfold Reg.ENG_RGN_BASE_BASE Reg.ENG_RGN_BASE; dsimp only; omega)]

theorem WorksIn.dstAt (h : WorksIn u L d e) : e.dstAt u = d.dstAt u := h.rgnAddr u.c.d _

theorem WorksIn.trans (h : WorksIn u L d e) (k : WorksIn u L e f) : WorksIn u L d f :=
  ⟨k.execs.trans h.execs, fun a h1 h2 => (k.tables a h1 h2).trans (h.tables a h1 h2), k.kv.trans h.kv,
    fun c hc => (k.mem c (h.dstAt ▸ hc)).trans (h.mem c hc)⟩

/-- The shape of the key/value pages is a matter of the storage. -/
theorem WorksIn.kvShape (h : WorksIn u L d e) (t : Nat) (w : Word) : e.kvShape t w = d.kvShape t w := by
  unfold Die.kvShape Die.kvPart
  rw [h.kv]

theorem SameMem.but (h : SameMem d e) (a n : Nat) : SameMemBut a n d e := fun c _ => h c

theorem Notes.worksIn (h : Notes u.t d e) : WorksIn u L d e :=
  ⟨by rw [h.work.tile], h.tables, h.work.kv, h.work.mem.but _ _⟩

theorem WorksIn.foldl {β : Type} {g : Die → β → Die} {l : List β} (h : ∀ e, ∀ x ∈ l, WorksIn u L e (g e x)) (d : Die) :
    WorksIn u L d (l.foldl g d) :=
  List.foldlRecOn l g (WorksIn.refl u L d) fun e he x hx => he.trans (h e x hx)

/-- Work that carries something along. -/
theorem WorksIn.foldl_fst {α β : Type} {g : Die × α → β → Die × α} {l : List β}
    (h : ∀ p, ∀ x ∈ l, WorksIn u L d p.1 → WorksIn u L p.1 (g p x).1) (p : Die × α) (hp : WorksIn u L d p.1) :
    WorksIn u L d (l.foldl g p).1 :=
  List.foldlRecOn (motive := fun q : Die × α => WorksIn u L d q.1) l g hp fun q hq x hx => hq.trans (h q x hx hq)

/-! ### Units -/

theorem Die.units_worksIn {n : Nat} {g : Die → Nat → Die × Bool} (h : ∀ e i, i < n → WorksIn u L e (g e i).1) (d : Die) :
    WorksIn u L d (d.units n g).d ∧ (d.units n g).drained = true :=
  List.foldlRecOn (motive := fun r : Done => WorksIn u L d r.d ∧ r.drained = true) _ _ ⟨WorksIn.refl u L d, rfl⟩
    fun r hr i hi => ⟨hr.1.trans (h r.d i (List.mem_range.1 hi)), rfl⟩

theorem Die.moveUnits_worksIn {n : Nat} {g : Die → Nat → Die × Bool × Nat}
    (h : ∀ e i, i < n → WorksIn u L d e → WorksIn u L e (g e i).1) :
    WorksIn u L d (d.moveUnits n g).d ∧ (d.moveUnits n g).drained = true :=
  List.foldlRecOn (motive := fun r : Done => WorksIn u L d r.d ∧ r.drained = true) _ _ ⟨WorksIn.refl u L d, rfl⟩
    fun r hr i hi => ⟨hr.1.trans (h r.d i (List.mem_range.1 hi) hr.1), rfl⟩

/-! ### Reads and writes -/

/-- A read moves nothing but what a refused one notes, and gives as many bytes as it asks for. -/
theorem Die.engReadAs_effect (d : Die) (u : Cur) (right : Nat) (w : Word) (off len : Nat) :
    Notes u.t d (d.engReadAs u right w off len).1 ∧ ∀ bs, (d.engReadAs u right w off len).2 = some bs → bs.length = len := by
  unfold Die.engReadAs
  dsimp only
  split
  · exact ⟨Notes.refl _ _, fun _ h => nomatch h⟩
  · split
    · exact ⟨d.tileFault_notes _ _ _ _ _ _ _, fun _ h => nomatch h⟩
    · split
      · exact ⟨Notes.refl _ _, fun _ h => nomatch h⟩
      · exact ⟨Notes.refl _ _, fun bs h => by rw [← Option.some.inj h]; exact d.bytesAt_length _ _⟩

theorem Die.engRead_notes (d : Die) (u : Cur) (w : Word) (off len : Nat) : Notes u.t d (d.engRead u w off len).1 :=
  (d.engReadAs_effect u rightR w off len).1

theorem Die.engRead_length (d : Die) (u : Cur) (w : Word) (off len : Nat) {bs : List Byte}
    (h : (d.engRead u w off len).2 = some bs) : bs.length = len := (d.engReadAs_effect u rightR w off len).2 bs h

theorem Die.engRead_worksIn (d : Die) (w : Word) (off len : Nat) : WorksIn u L d (d.engRead u w off len).1 :=
  (d.engRead_notes u w off len).worksIn

/-- A write into the first `L` bytes of the destination; a refused one is a fault. -/
theorem Die.engWrite_worksIn (d : Die) {off : Nat} {bs : List Byte} (h : off + bs.length ≤ L) :
    WorksIn u L d (d.engWrite u u.c.d off bs) := by
  unfold Die.engWrite
  dsimp only
  split
  · exact WorksIn.refl u L d
  · split
    · exact (d.tileFault_notes _ _ _ _ _ _ _).worksIn
    · have haddr : d.rgnAddr u.t (opRgn u.c.d) (opOff u.c.d + off) = d.dstAt u + off := by
        unfold Die.dstAt Die.rgnAddr; omega
      rw [haddr]
      refine ⟨by rw [Die.setBytes_tile], fun a _ _ => by rw [Die.setBytes_getW], by rw [Die.setBytes_serve], fun c hc => ?_⟩
      exact d.byteAt_setBytes_out bs _ c (by omega)

/-! ### A tile's own state -/

/-- Only the state of tile `n` moves, and its executing descriptors stay: counts of its banks, its buffers, its requests. -/
structure OwnState (n : Nat) (d e : Die) : Prop where
  execs : (e.tile n).execs = (d.tile n).execs
  rest : e = { d with tiles := e.tiles }

theorem OwnState.refl (n : Nat) (d : Die) : OwnState n d d := ⟨rfl, rfl⟩

theorem OwnState.trans {n : Nat} (h : OwnState n d e) (k : OwnState n e f) : OwnState n d f :=
  ⟨k.execs.trans h.execs, by rw [k.rest, h.rest]⟩

theorem OwnState.regs {n : Nat} (h : OwnState n d e) : e.regs = d.regs := by rw [h.rest]
theorem OwnState.arrays {n : Nat} (h : OwnState n d e) : e.arrays = d.arrays := by rw [h.rest]
theorem OwnState.mem {n : Nat} (h : OwnState n d e) : SameMem d e := by rw [h.rest]; exact fun _ => rfl

theorem OwnState.worksIn (h : OwnState u.t d e) : WorksIn u L d e :=
  ⟨h.execs, fun _ _ _ => by rw [h.rest]; rfl, by rw [h.rest], h.mem.but _ _⟩

theorem Die.modTile_own (d : Die) {n : Nat} (g : Tile1 → Tile1) (hg : (g (d.tile n)).execs = (d.tile n).execs) :
    OwnState n d (d.modTile n g) := ⟨by rw [Die.tile_modTile_same, hg], rfl⟩

theorem OwnState.foldl {n : Nat} {β : Type} {g : Die → β → Die} {l : List β} (h : ∀ e, ∀ x ∈ l, OwnState n e (g e x))
    (d : Die) :
    OwnState n d (l.foldl g d) :=
  List.foldlRecOn l g (OwnState.refl n d) fun e he x hx => he.trans (h e x hx)

theorem Die.sramUse_own (d : Die) (n off len : Nat) : OwnState n d (d.sramUse n off len) := by
  unfold Die.sramUse
  split
  · exact OwnState.refl n d
  · exact d.modTile_own _ rfl

theorem Die.useOps_own (d : Die) (u : Cur) : OwnState u.t d (d.useOps u) :=
  OwnState.foldl (fun e _ _ => e.sramUse_own _ _ _) d

theorem Die.mark_own (d : Die) (n r : Nat) (full poison : Bool) : OwnState n d (d.mark n r full poison) := d.modTile_own _ rfl

theorem Die.emptySrc_own (d : Die) (n : Nat) (c : Desc) : OwnState n d (d.emptySrc n c) := by
  unfold Die.emptySrc
  split
  · refine OwnState.foldl (fun e w _ => ?_) d
    split
    · exact e.mark_own _ _ _ _
    · exact OwnState.refl n e
  · exact OwnState.refl n d

theorem Die.ask_worksIn (d : Die) (a n : Nat) (write : Option (List Byte)) (sram : Option Nat) :
    WorksIn u L d (d.ask u a n write sram) := (d.modTile_own _ rfl).worksIn

end Sys2Proof.Machine
end

section
/-! PROOFS. How a clean descriptor runs: no access of its operands is refused, and its outcome is kept with it (R174, R185,
R188). -/
namespace Sys2Proof.Machine

/-! ### The descriptor that can run -/

theorem mem_modFirst_of_mem {α : Type} [DecidableEq α] {x : α} {l : List α} (h : x ∈ l) (g : α → α) :
    g x ∈ modFirst (fun y => y == x) g l := by
  induction l with
  | nil => exact absurd h List.not_mem_nil
  | cons y r ih =>
    unfold modFirst
    by_cases hy : y = x
    · rw [if_pos (by simpa using hy), hy]
      exact List.mem_cons_self
    · rw [if_neg (by simpa using hy)]
      exact List.mem_cons_of_mem _ (ih ((List.mem_cons.1 h).resolve_left fun e => hy e.symm))

theorem Die.runnable_spec {d : Die} {n th : Nat} {c : Desc} {e : Exec} (h : d.runnable n th c = some e) :
    e ∈ (d.tile n).execs ∧ e.thread = th ∧ e.desc = c := by
  unfold Die.runnable at h
  split at h
  case h_2 => exact nomatch h
  case h_1 x hx =>
    split at h
    · exact nomatch h
    · obtain rfl := Option.some.inj h
      have hp := List.find?_some hx
      simp only [Bool.and_eq_true, beq_iff_eq] at hp
      obtain ⟨⟨⟨⟨ht, hc⟩, -⟩, -⟩, -⟩ := hp
      exact ⟨List.mem_of_find?_eq_some hx, ht, hc⟩

/-! ### Its accesses -/

/-- No access of a clean descriptor is refused. -/
theorem Die.checkSpans_of_clean (d : Die) (u : Cur) (right : Nat) {l : List Span}
    (h : ∀ x ∈ l, (d.engRefuses u.t x.rgn x.off x.len right).isNone = true) :
    l.eraseDups.foldl (fun (p : Die × List Span) x => p.1.checkSpan u right p.2 x) (d, []) = (d, []) := by
  refine List.foldlRecOn (motive := fun p : Die × List Span => p = (d, [])) _ _ rfl fun p hp x hx => ?_
  subst hp
  unfold Die.checkSpan
  rw [Option.isNone_iff_eq_none.1 (h x (List.mem_eraseDups.1 hx))]

/-- What `runsClean` says, part by part. -/
theorem Die.runsClean_spec {d : Die} {n th : Nat} {c : Desc} (h : d.runsClean n th c = true) :
    d.live = true ∧ d.tileRuns n = true ∧ (∃ e, d.runnable n th c = some e) ∧ malformed c (d.threadClass n th) = false ∧
      d.checkOps n th c = (d, { t := n, th := th, c := c }) := by
  unfold Die.runsClean at h
  simp only [Bool.and_eq_true, Bool.not_eq_true', List.all_eq_true] at h
  obtain ⟨⟨⟨⟨⟨hl, hr⟩, he⟩, hm⟩, hread⟩, hwrite⟩ := h
  refine ⟨hl, hr, Option.isSome_iff_exists.1 he, hm, ?_⟩
  unfold Die.checkOps
  dsimp only
  rw [d.checkSpans_of_clean { t := n, th := th, c := c } _ hread]
  dsimp only
  rw [d.checkSpans_of_clean { t := n, th := th, c := c } _ hwrite]

/-- The operation works for this: its tile, thread and words, no operand refused, and its number. -/
def Exec.cur (e : Exec) (n : Nat) : Cur := { t := n, th := e.thread, c := e.desc, id := e.id }

/-- Its accesses to the banks are counted as it begins (R182). -/
def Die.begun (d : Die) (n : Nat) (e : Exec) : Die :=
  if e.checked then d else d.useOps { t := n, th := e.thread, c := e.desc }

theorem Die.begun_own (d : Die) (n : Nat) (e : Exec) : OwnState n d (d.begun n e) := by
  unfold Die.begun
  split
  · exact OwnState.refl n d
  · exact d.useOps_own { t := n, th := e.thread, c := e.desc }

/-- A clean descriptor that can run: its operation is carried out on it, and its outcome stands with it in the tile's list. -/
theorem Die.runOp_of_clean {d : Die} {n th : Nat} {c : Desc} {e : Exec} (hc : d.runsClean n th c = true)
    (he : d.runnable n th c = some e) {f : Die → Cur → Exec → Done} {r : Done} (hr : f (d.begun n e) (e.cur n) e = r)
    (hx : (r.d.tile n).execs = (d.tile n).execs) :
    (∃ y ∈ ((d.runOp n th c f).tile n).execs, y.thread = th ∧ y.desc = c ∧ y.ran = r.drained ∧ y.units = r.units) ∧
      (d.runOp n th c f).regs = r.d.regs ∧ (d.runOp n th c f).arrays = r.d.arrays ∧ SameMem r.d (d.runOp n th c f) := by
  obtain ⟨hmem, rfl, rfl⟩ := Die.runnable_spec he
  obtain ⟨-, -, -, -, hops⟩ := Die.runsClean_spec hc
  obtain ⟨b, hb, hown⟩ : ∃ b, b = (if r.drained then r.d.emptySrc n e.desc else r.d) ∧ OwnState n r.d b := by
    refine ⟨_, rfl, ?_⟩
    split
    · exact r.d.emptySrc_own n e.desc
    · exact OwnState.refl n r.d
  obtain ⟨g, hg, hrun⟩ : ∃ g : Exec → Exec, (∀ y, (g y).thread = y.thread ∧ (g y).desc = y.desc ∧ (g y).ran = r.drained ∧
      (g y).units = r.units) ∧ d.runOp n e.thread e.desc f = b.modExec n (fun y => y == e) g := by
    refine ⟨fun y => { y with
      ran := r.drained, poison := y.poison || r.bad || !([] : List Span).isEmpty, checked := true, reqs := r.reqs,
      blocks := r.blocks, units := r.units }, fun y => ⟨rfl, rfl, rfl, rfl⟩, ?_⟩
    subst hr
    unfold Die.runOp
    rw [he, hops, hb]
    rfl
  rw [hrun]
  refine ⟨⟨g e, ?_, hg e⟩, hown.regs, hown.arrays, hown.mem⟩
  unfold Die.modExec
  rw [Die.tile_modTile_same]
  exact mem_modFirst_of_mem (by rw [hown.execs, hx]; exact hmem) g

/-! ### Operations that run inside their destination -/

/-- What the statement asks of a descriptor's command. -/
def RunsInside (i : Instr) (n th : Nat) (c : Desc) (s : State) : Prop :=
  ∃ t : State, exec i s = .next t ∧ t.pending = s.pending ∧ t.carrier = s.carrier ∧ Ran n th c t.die ∧
    ∀ a, (∀ x ∈ s.die.dstSpans n c, a < s.die.rgnAddr n x.rgn x.off ∨ s.die.rgnAddr n x.rgn x.off + x.len ≤ a) →
      t.die.byteAt a = s.die.byteAt a

section
variable {i : Instr} {op n th L : Nat} {c : Desc} {s : State} {f : Die → Cur → Exec → Done}

theorem exec_opCmd {g : Die → Die} (hexec : ∀ s, exec i s = opCmd op n c g s) (hc : s.die.runsClean n th c = true)
    (hop : descOp c = op) : exec i s = .next { s with die := g s.die } := by
  obtain ⟨hl, hr, -⟩ := Die.runsClean_spec hc
  rw [hexec]
  exact mainCmd_ok (ok := fun d => d.tileRuns n && descOp c == op) (f := g) hl (by simp [hr, hop])

/-- An operation whose work stays in the first `L` bytes of its destination runs, and nothing else of memory changes. -/
theorem exec_ran (hexec : ∀ s, exec i s = opCmd op n c (fun d => d.runOp n th c f) s) (hc : s.die.runsClean n th c = true)
    (hop : descOp c = op)
    (hf : ∀ u d e, u.t = n → u.c = c → WorksIn u L s.die d → WorksIn u L d (f d u e).d ∧ (f d u e).drained = true) :
    ∃ t : State, exec i s = .next t ∧ t.pending = s.pending ∧ t.carrier = s.carrier ∧ Ran n th c t.die ∧
      SameMemBut (s.die.rgnAddr n (opRgn c.d) (opOff c.d)) L s.die t.die := by
  obtain ⟨-, -, ⟨e, he⟩, -⟩ := Die.runsClean_spec hc
  obtain ⟨-, hth, hdesc⟩ := Die.runnable_spec he
  have hbegun : WorksIn (e.cur n) L s.die (s.die.begun n e) := (s.die.begun_own n e).worksIn
  obtain ⟨hworks, hdrained⟩ := hf (e.cur n) (s.die.begun n e) e rfl hdesc hbegun
  have hall := hbegun.trans hworks
  obtain ⟨⟨y, hy, hyth, hyc, hyran, -⟩, -, -, hmem⟩ := Die.runOp_of_clean hc he rfl hall.execs
  refine ⟨_, exec_opCmd hexec hc hop, rfl, rfl, ⟨y, hy, hyth, hyc, hyran.trans hdrained⟩,
    fun a ha => (hmem a).trans (hall.mem a ?_)⟩
  unfold Die.dstAt Exec.cur
  rw [hdesc]
  exact ha

/-- Operations that write their results into the destination as they run. -/
def writingOps : List Nat :=
  [ocCopy, ocFill, ocLoad, ocRotate, ocVsum, ocSquant, ocSdeq, ocLinear, ocSoftmax, ocNorm, ocAct, ocEwise, ocPosrot, ocSteer,
    ocKvWrite, ocSelect]

/-- A clean descriptor of an operation that writes names its destination (R190). -/
theorem hasOp_dst_of_clean (hc : s.die.runsClean n th c = true)
    (hop : descOp c = op) (hw : op ∈ writingOps) : hasOp c.d = true := by
  obtain ⟨-, -, -, hm, -⟩ := Die.runsClean_spec hc
  have hok : operandsOk c = true := by
    simp only [malformed, Bool.or_eq_false_iff, Bool.not_eq_false'] at hm
    exact hm.1.2
  subst hop
  simp only [writingOps, List.mem_cons, List.not_mem_nil, or_false] at hw
  rcases hw with h | h | h | h | h | h | h | h | h | h | h | h | h | h | h | h
  all_goals
    simp only [operandsOk, h, needs, ocCopy, ocFill, ocLoad, ocRotate, ocVsum, ocSquant, ocSdeq, ocLinear, ocSoftmax, ocNorm,
      ocAct, ocEwise, ocPosrot, ocSteer, ocKvWrite, ocSelect, Bool.and_eq_true] at hok
    simp only [hok]

theorem runsInside_of_dst (hexec : ∀ s, exec i s = opCmd op n c (fun d => d.runOp n th c f) s)
    (hc : s.die.runsClean n th c = true) (hop : descOp c = op) (hw : op ∈ writingOps) (hspan : s.die.dstSpans n c = span c.d L)
    (hf : ∀ u d e, u.t = n → u.c = c → WorksIn u L s.die d → WorksIn u L d (f d u e).d ∧ (f d u e).drained = true) :
    RunsInside i n th c s := by
  obtain ⟨t, hexec, hp, hcar, hran, hmem⟩ := exec_ran hexec hc hop hf
  refine ⟨t, hexec, hp, hcar, hran, fun a ha => hmem a (ha ⟨opRgn c.d, opOff c.d, L⟩ ?_)⟩
  rw [hspan, span, if_pos (hasOp_dst_of_clean hc hop hw)]
  exact List.mem_singleton_self _

theorem runsInside_of_none (hexec : ∀ s, exec i s = opCmd op n c (fun d => d.runOp n th c f) s)
    (hc : s.die.runsClean n th c = true) (hop : descOp c = op)
    (hf : ∀ u d e, u.t = n → u.c = c → WorksIn u 0 d (f d u e).d ∧ (f d u e).drained = true) : RunsInside i n th c s := by
  obtain ⟨t, hexec, hp, hcar, hran, hmem⟩ := exec_ran hexec hc hop fun u d e ht hd _ => hf u d e ht hd
  exact ⟨t, hexec, hp, hcar, hran, fun a _ => hmem a (by omega)⟩

end

end Sys2Proof.Machine
end

section
/-! PROOFS. Each operation's work stays in its destination (R133, R144 to R147, R157, R171, R181, R191, R195, R368). -/
namespace Sys2Proof.Machine

variable {u : Cur} {i : Nat} (d : Die)

/-! ### A unit of a destination of equal units -/

theorem Die.engWrite_unit {sz n : Nat} {bs : List Byte} (hi : i < n) (hl : bs.length ≤ sz) :
    WorksIn u (sz * n) d (d.engWrite u u.c.d (sz * i) bs) := by
  refine d.engWrite_worksIn ?_
  calc sz * i + bs.length ≤ sz * i + sz := Nat.add_le_add_left hl _
    _ = sz * (i + 1) := (Nat.mul_succ _ _).symm
    _ ≤ sz * n := Nat.mul_le_mul_left _ hi

/-- Bytes read, or zeros in their place. -/
theorem Die.engRead_getD_length (w : Word) (off len : Nat) : ((d.engRead u w off len).2.getD (zeros len)).length = len := by
  cases h : (d.engRead u w off len).2 with
  | none => exact List.length_replicate
  | some bs => exact d.engRead_length u w off len h

/-- Words of a unit whose results are counted as they are formed. -/
theorem Die.engOut_unit {sz n : Nat} (tainted : Bool) {l : List Word} (hi : i < n) (hl : 4 * l.length ≤ sz) :
    WorksIn u (sz * n) d ((d.engOut u.t tainted l).1.engWrite u u.c.d (sz * i) (wordsBytes (d.engOut u.t tainted l).2.1)) := by
  obtain ⟨hnotes, hlen⟩ := d.engOut_effect u.t tainted l
  exact hnotes.worksIn.trans (Die.engWrite_unit _ hi (by rw [wordsBytes_length, hlen]; exact hl))

/-- A unit of 32 elements formed one by one. -/
theorem Die.elementwise_unit {n : Nat} {l : List (Bool × Word)} (hi : i < n) (hl : l.length ≤ 32) :
    WorksIn u (128 * n) d ((d.elementwise u.t l).1.engWrite u u.c.d (128 * i) (wordsBytes (d.elementwise u.t l).2.1)) := by
  obtain ⟨hnotes, hlen⟩ := d.elementwise_effect u.t l
  exact hnotes.worksIn.trans (Die.engWrite_unit _ hi (by rw [wordsBytes_length, hlen]; omega))

/-! ### Movers -/

theorem Die.copyUnit_worksIn {n : Nat} (hi : i < n) : WorksIn u (64 * n) d (d.copyUnit u i).1 :=
  (d.engRead_worksIn u.c.a (64 * i) 64).trans (Die.engWrite_unit _ hi (d.engRead_getD_length _ _ _).le)

theorem Die.unitAt_worksIn {L : Nat} : WorksIn u L d (d.unitAt u i).1 := by
  unfold Die.unitAt
  dsimp only
  split
  · exact d.engRead_worksIn _ _ _
  · exact WorksIn.refl _ _ _

theorem Die.loadOne_worksIn {n : Nat} (hi : i < n) : WorksIn u (loadUnit (descP0 u.c) * n) d (d.loadOne u i).1 := by
  have hzeros : ∀ e : Die, WorksIn u (loadUnit (descP0 u.c) * n) e
      (e.engWrite u u.c.d (loadUnit (descP0 u.c) * i) (zeros (loadUnit (descP0 u.c)))) := fun e =>
    e.engWrite_unit hi List.length_replicate.le
  unfold Die.loadOne
  dsimp only
  split
  · exact (d.unitAt_worksIn).trans (hzeros _)
  · split
    · exact ((d.unitAt_worksIn).trans (Die.tileFault_notes _ _ _ _ _ _ _ _).worksIn).trans (hzeros _)
    · split
      · exact d.unitAt_worksIn
      · exact (d.unitAt_worksIn).trans (Die.ask_worksIn _ _ _ _ _)

theorem Die.storeOne_worksIn {L : Nat} : WorksIn u L d (d.storeOne u i).1 := by
  have hread := (d.unitAt_worksIn (L := L)).trans
    (Die.engRead_worksIn (u := u) (d.unitAt u i).1 u.c.a (loadUnit (descP0 u.c) * i) (loadUnit (descP0 u.c)))
  unfold Die.storeOne
  dsimp only
  split
  · exact hread
  · split
    · exact hread.trans (Die.tileFault_notes _ _ _ _ _ _ _ _).worksIn
    · exact hread.trans (Die.ask_worksIn _ _ _ _ _)

theorem Die.bufSet_worksIn {L : Nat} : WorksIn u L d (d.bufSet u.t u.c) := by
  unfold Die.bufSet
  split
  · exact (d.mark_own _ _ _ _).worksIn
  · exact WorksIn.refl _ _ _

/-! ### Around the arrays -/

theorem Die.rotateUnit_worksIn {n : Nat} (hi : i < n) : WorksIn u (2048 * n) d (d.rotateUnit u i).1 :=
  (d.engRead_worksIn u.c.a _ _).trans (Die.engOut_unit _ _ hi (by rw [rotateBlock_length]))

theorem Die.quantA_worksIn {L : Nat} : WorksIn u L d (d.quantA u).d ∧ (d.quantA u).drained = true :=
  List.foldlRecOn (motive := fun r : Done => WorksIn u L d r.d ∧ r.drained = true) _ _ ⟨WorksIn.refl u L d, rfl⟩
    fun _ hr _ _ => ⟨hr.1.trans ((Die.engRead_worksIn _ _ _ _).trans (Die.quantBlock_notes _ _ _ _ _).worksIn), hr.2⟩

theorem Die.modArr_worksIn {L : Nat} (t a : Nat) (g : Array1 → Array1) : WorksIn u L d (d.modArr t a g) :=
  ⟨rfl, fun _ _ _ => rfl, rfl, fun _ _ => rfl⟩

theorem Die.refStrokes_worksIn {L : Nat} (t first n : Nat) : WorksIn u L d (d.refStrokes t first n) := by
  refine WorksIn.foldl (fun e j _ => ?_) d
  split
  · exact e.modArr_worksIn _ _ _
  · exact WorksIn.refl _ _ _

theorem Die.vsumB_worksIn {L : Nat} : WorksIn u L d (d.vsumB u i).1 := by
  unfold Die.vsumB
  split
  · exact d.engRead_worksIn _ _ _
  · exact d.engRead_worksIn _ _ _
  · dsimp only
    split
    · exact (d.engRead_worksIn _ _ _).trans (Die.countPoisoned_notes _ _ _).worksIn
    · exact d.engRead_worksIn _ _ _

theorem Die.vsumUnit_worksIn {n : Nat} (hi : i < n) : WorksIn u (128 * n) d (d.vsumUnit u i).1 :=
  ((d.engRead_worksIn u.c.a _ _).trans (Die.vsumB_worksIn _)).trans
    (Die.elementwise_unit _ hi (by simp only [List.length_map, List.length_zip, wordsIn_length]; omega))

/-! ### Vectors -/

/-- A vector read is as long as asked for. -/
theorem Die.readVector_effect {L : Nat} (w : Word) (n : Nat) :
    WorksIn u L d (d.readVector u w n).1 ∧ (d.readVector u w n).2.length = 32 * n := by
  unfold Die.readVector
  induction n with
  | zero => exact ⟨WorksIn.refl u L d, rfl⟩
  | succ k ih =>
    rw [List.range_succ, List.foldl_append]
    refine ⟨ih.1.trans (Die.engRead_worksIn _ _ _ _), ?_⟩
    simp only [List.foldl_cons, List.foldl_nil, List.length_append, wordsIn_length, ih.2]
    omega

theorem Die.writeVector_worksIn {n : Nat} {l : List Word} (hl : l.length ≤ 32 * n) :
    WorksIn u (128 * n) d (d.writeVector u u.c.d l) := by
  refine WorksIn.foldl (fun e j hj => e.engWrite_unit ?_ ?_) d
  · have := List.mem_range.1 hj
    omega
  · rw [wordsBytes_length, List.length_take]
    omega

theorem softmaxOf_length (l : List Word) (temp : Word) : (softmaxOf l temp).length = l.length := by
  simp [softmaxOf]

theorem Die.softmax_worksIn : WorksIn u (128 * descCount u.c) d (d.softmax u).d ∧ (d.softmax u).drained = true := by
  obtain ⟨hread, hlen⟩ := d.readVector_effect (u := u) (L := 128 * descCount u.c) u.c.a (descCount u.c)
  obtain ⟨hnotes, hout⟩ := (d.readVector u u.c.a (descCount u.c)).1.engOut_effect u.t
    ((d.readVector u u.c.a (descCount u.c)).2.any fpBad || fpBad u.c.p1)
    (softmaxOf (d.readVector u u.c.a (descCount u.c)).2 u.c.p1)
  refine ⟨(hread.trans hnotes.worksIn).trans (Die.writeVector_worksIn _ ?_), rfl⟩
  exact (hout.trans ((softmaxOf_length _ _).trans hlen)).le

/-- The scales of NORM are read as they are. -/
theorem Die.normScales_effect {L : Nat} (w : Word) (n : Nat) :
    let g := (List.range n).foldl (fun (r : Die × List Word) i =>
      let q := r.1.engRead u w (64 * i) 64
      (q.1, r.2 ++ bfsIn q.2 32)) (d, [])
    WorksIn u L d g.1 ∧ g.2.length = 32 * n := by
  dsimp only
  induction n with
  | zero => exact ⟨WorksIn.refl u L d, rfl⟩
  | succ k ih =>
    rw [List.range_succ, List.foldl_append]
    refine ⟨ih.1.trans (Die.engRead_worksIn _ _ _ _), ?_⟩
    simp only [List.foldl_cons, List.foldl_nil, List.length_append, bfsIn_length, ih.2]
    omega

theorem Die.norm_worksIn : WorksIn u (128 * descCount u.c) d (d.norm u).d ∧ (d.norm u).drained = true := by
  obtain ⟨hread, -⟩ := d.readVector_effect (u := u) (L := 128 * descCount u.c) u.c.a (descCount u.c)
  obtain ⟨hscales, hlen⟩ := (d.readVector u u.c.a (descCount u.c)).1.normScales_effect (u := u)
    (L := 128 * descCount u.c) u.c.b (descCount u.c)
  unfold Die.norm
  dsimp only
  refine ⟨(hread.trans hscales).trans ?_, rfl⟩
  obtain ⟨hnotes, hout⟩ := Die.elementwise_effect _ u.t _
  refine hnotes.worksIn.trans (Die.writeVector_worksIn _ (hout.le.trans ?_))
  rw [List.length_map, List.length_zip, hlen]
  omega

theorem Die.actUnit_worksIn {n : Nat} (hi : i < n) : WorksIn u (128 * n) d (d.actUnit u i).1 :=
  (d.engRead_worksIn u.c.a _ _).trans (Die.elementwise_unit _ hi (by rw [List.length_map, wordsIn_length]))

theorem Die.ewiseUnit_worksIn {n : Nat} (hi : i < n) : WorksIn u (128 * n) d (d.ewiseUnit u i).1 := by
  have hb : WorksIn u (128 * n) (d.engRead u u.c.a (128 * i) 128).1
      (if bit (descP0 u.c) 3 then (d.engRead u u.c.a (128 * i) 128).1.engRead u u.c.b 0 4
        else (d.engRead u u.c.a (128 * i) 128).1.engRead u u.c.b (128 * i) 128).1 := by
    split
    · exact Die.engRead_worksIn _ _ _ _
    · exact Die.engRead_worksIn _ _ _ _
  have hx : ∀ (e : Die) (p : Prop) [Decidable p],
      WorksIn u (128 * n) e (if p then e.engRead u u.c.x (128 * i) 128 else (e, some (zeros 128))).1 := by
    intro e p _
    split
    · exact e.engRead_worksIn _ _ _
    · exact WorksIn.refl _ _ _
  unfold Die.ewiseUnit
  refine (((d.engRead_worksIn u.c.a _ _).trans hb).trans (hx _ (descP0 u.c % 8 = 4))).trans (Die.elementwise_unit _ hi ?_)
  simp only [List.length_map, List.length_zip, wordsIn_length]
  omega

theorem Die.posrotUnit_worksIn {n : Nat} (hi : i < n) : WorksIn u (128 * n) d (d.posrotUnit u i).1 :=
  ((d.engRead_worksIn u.c.a _ _).trans (Die.engRead_worksIn _ u.c.x _ _)).trans
    (Die.engOut_unit _ _ hi (by rw [List.length_map, List.length_range]))

/-! ### STEER and SELECT -/

theorem Die.steerUnit_worksIn {n : Nat} (hi : i < n) : WorksIn u (128 * n) d (d.steerUnit u i).1 := by
  have hpoison : (wordsBytes (List.replicate 32 fpPoison)).length ≤ 128 := by
    rw [wordsBytes_length, List.length_replicate]
  have hread := (d.engRead_worksIn (u := u) (L := 128 * n) u.c.a (128 * i) 128).trans
    (Die.engRead_worksIn _ u.c.x (4 * (i / max 1 (descP0 u.c))) 4)
  unfold Die.steerUnit
  dsimp only
  split
  · exact hread.trans (Die.engWrite_unit _ hi hpoison)
  · split
    · refine hread.trans (Die.engWrite_unit _ hi ?_)
      split
      next bs hbs => exact (d.engRead_length u _ _ _ hbs).le
      next => exact hpoison
    · refine (((hread.trans (Die.engRead_worksIn _ _ _ _)).trans (Die.engRead_worksIn _ _ _ _)).trans
        (Die.countPoisoned_notes _ _ _).worksIn).trans (Die.elementwise_unit _ hi ?_)
      simp only [List.length_map, List.length_zip, wordsIn_length]
      omega

theorem Die.select_worksIn : WorksIn u 16 d (d.select u).d ∧ (d.select u).drained = true := by
  have hread := (d.readVector_effect (u := u) (L := 16) u.c.a (descCount u.c)).1
  have hpoison : 0 + (zeros 4 ++ natLe 4 fpPoison.toNat ++ natLe 4 1 ++ zeros 4).length ≤ 16 := by simp [natLe_length, zeros]
  unfold Die.select
  dsimp only
  split
  · exact ⟨hread.trans (Die.engWrite_worksIn _ hpoison), rfl⟩
  · split
    · exact ⟨(hread.trans (Die.countNonfinite_notes _ _ _).worksIn).trans (Die.engWrite_worksIn _ hpoison), rfl⟩
    · exact ⟨hread.trans (Die.engWrite_worksIn _ (by simp [natLe_length, zeros])), rfl⟩

/-! ### LINEAR -/

theorem Die.linearUnit_worksIn {n : Nat} (hi : i < n) (vb : Option (List Byte)) (v : List Word) :
    WorksIn u (4 * n) d (d.linearUnit u vb v i).1 :=
  (((d.engRead_worksIn u.c.b _ _).trans (Die.countReserved_notes _ _ _).worksIn).trans
    (Die.countPoisoned_notes _ _ _).worksIn).trans (Die.engOut_unit _ _ hi (by simp))

theorem Die.linear_worksIn : WorksIn u (4 * descCount u.c) d (d.linear u).d ∧ (d.linear u).drained = true := by
  have hunits := fun e : Die => Die.units_worksIn (n := descCount u.c) (fun b j hj => b.linearUnit_worksIn (u := u) hj
    (d.engRead u u.c.a 0 (linearBytes (descP1 u.c) (linearTypes (descP0 u.c)).1)).2
    (linearIn (d.engRead u u.c.a 0 (linearBytes (descP1 u.c) (linearTypes (descP0 u.c)).1)).2 (descP1 u.c)
      (linearTypes (descP0 u.c)).1)) e
  refine ⟨(((d.engRead_worksIn u.c.a _ _).trans (Die.countReserved_notes _ _ _).worksIn).trans
    (Die.countPoisoned_notes _ _ _).worksIn).trans (hunits _).1, (hunits _).2⟩

/-! ### Shingle conversion -/

theorem Die.sdeqUnit_worksIn {n : Nat} (hi : i < n) :
    WorksIn u ((if bit (descP0 u.c) 1 then 64 else 128) * n) d (d.sdeqUnit u i).1 := by
  have hnarrow : ∀ l : List Word, l.length = 32 → (narrowBytes (bit (descP0 u.c) 1) l).length ≤
      (if bit (descP0 u.c) 1 then 64 else 128) := by
    intro l hl
    have := narrowBytes_length_le (bit (descP0 u.c) 1) l
    split at this
    · rename_i h; rw [if_pos h]; omega
    · rename_i h; rw [if_neg h]; omega
  unfold Die.sdeqUnit
  dsimp only
  generalize (if bit (descP0 u.c) 1 = true then 64 else 128) = sz at hnarrow ⊢
  split
  · exact ((((d.engRead_worksIn _ _ _).trans (Die.engRead_worksIn _ _ _ _)).trans (Die.countReserved_notes _ _ _).worksIn).trans
      (Die.countPoisoned_notes _ _ _).worksIn).trans (Die.engWrite_unit _ hi (hnarrow _ (shingleDecode_length _ _ _)))
  · exact ((d.engRead_worksIn _ _ _).trans (Die.engRead_worksIn _ _ _ _)).trans
      (Die.engWrite_unit _ hi (hnarrow _ List.length_replicate))

end Sys2Proof.Machine
end

section
/-! PROOFS. Operations whose destination is laid out in panels or vectors: SQUANT and KV_WRITE (R144 to R149, R335 to R338). -/
namespace Sys2Proof.Machine

variable {u : Cur} {i : Nat} (d : Die)

/-! ### Panels -/

theorem le_panelBytes (m eb : Nat) : m * (eb + 1) ≤ panelBytes m eb := by
  unfold panelBytes
  omega

/-- Block `i` of `total` lies in a panel that ends within the panels of `total`. -/
theorem panel_end_le {n total : Nat} (eb : Nat) (hi : i < total) (hn : 0 < n) :
    i % n < min n (total - n * (i / n)) ∧
      i / n * panelBytes n eb + panelBytes (min n (total - n * (i / n))) eb ≤ panelsBytes total n eb := by
  have hmod := Nat.mod_lt i hn
  have hsplit := Nat.div_add_mod i n
  have htotal := Nat.div_add_mod total n
  unfold panelsBytes
  rcases Nat.lt_or_ge (i / n) (total / n) with hp | hp
  · have hfull : n * (i / n) + n ≤ n * (total / n) := by
      rw [← Nat.mul_succ]
      exact Nat.mul_le_mul_left n hp
    rw [show min n (total - n * (i / n)) = n by omega]
    refine ⟨hmod, ?_⟩
    rw [← Nat.succ_mul]
    exact (Nat.mul_le_mul_right _ hp).trans (Nat.le_add_right _ _)
  · have hlast : i / n = total / n := Nat.le_antisymm (Nat.div_le_div_right hi.le) hp
    rw [hlast] at hsplit ⊢
    have hlt := Nat.mod_lt total hn
    rw [show min n (total - n * (total / n)) = total % n by omega, if_neg (by omega)]
    exact ⟨by omega, le_rfl⟩

theorem Die.squantUnit_worksIn {n total : Nat} (hi : i < total) (hcount : descCount u.c = total)
    (hn : bits (descP0 u.c) 8 8 = n) (hpos : 0 < n) :
    WorksIn u (panelsBytes total n (shingleEb (bit (descP0 u.c) 0))) d (d.squantUnit u i).1 := by
  unfold Die.squantUnit
  dsimp only [panelPlace]
  rw [hcount, hn, Nat.mul_comm (i / n) n]
  generalize bit (descP0 u.c) 0 = fmt8
  obtain ⟨hk, hend⟩ := panel_end_le (shingleEb fmt8) hi hpos
  generalize min n (total - n * (i / n)) = m at hk hend ⊢
  have hpanel := le_panelBytes m (shingleEb fmt8)
  have hplace : i % n * shingleEb fmt8 + shingleEb fmt8 ≤ m * shingleEb fmt8 := by
    rw [← Nat.succ_mul]
    exact Nat.mul_le_mul_right _ hk
  rw [Nat.mul_succ] at hpanel
  have hquant := (d.engRead_worksIn (u := u) (L := panelsBytes total n (shingleEb fmt8)) u.c.a (128 * i) 128).trans
    (Die.countQuant_notes _ _ (descLayer u.c)
      (shingleQuantise (wordsIn (d.engRead u u.c.a (128 * i) 128).2 32) (shingleQ fmt8)).2.2).worksIn
  have helement := hquant.trans (Die.engWrite_worksIn _ (off := i / n * panelBytes n (shingleEb fmt8) + i % n * shingleEb fmt8)
    (bs := elementBytes fmt8 (shingleQuantise (wordsIn (d.engRead u u.c.a (128 * i) 128).2 32) (shingleQ fmt8)).2.1)
    (by rw [elementBytes_length (shingleQuantise_length (wordsIn_length _ 32) _)]; omega))
  have hscale := helement.trans (Die.engWrite_worksIn _ (off := i / n * panelBytes n (shingleEb fmt8) + m * shingleEb fmt8 + i % n)
    (bs := natLe 1 (shingleQuantise (wordsIn (d.engRead u u.c.a (128 * i) 128).2 32) (shingleQ fmt8)).1)
    (by rw [natLe_length]; omega))
  split
  · refine hscale.trans (Die.engWrite_worksIn _ ?_)
    rw [zeros, List.length_replicate, Nat.mul_succ]
    omega
  · exact hscale

/-! ### KV_WRITE -/

theorem Die.kvBlock_worksIn {N stage : Nat} (hs : stage < N) (fmt8 : Bool) {x : List Word} (hx : x.length = 32) :
    WorksIn u ((shingleEb fmt8 + 1) * N) d (d.kvBlock u stage fmt8 x).1 := by
  refine (Die.countQuant_notes d u.t _ _).worksIn.trans (Die.engWrite_unit _ hs ?_)
  rw [List.length_append, elementBytes_length (shingleQuantise_length hx _), natLe_length]

theorem Die.askBytes_worksIn {L : Nat} (a : Nat) (bs : List Byte) : WorksIn u L d (d.askBytes u a bs).1 := by
  unfold Die.askBytes
  dsimp only
  split
  · exact WorksIn.foldl (fun e _ _ => e.ask_worksIn _ _ _ _) d
  · exact (d.tileFault_notes _ _ _ _ _ _ _).worksIn

theorem Die.kvVector_worksIn {N stage dim : Nat} (hs : stage + dim / 32 ≤ N) (area : Option Nat) (slot src : Nat) (fmt8 : Bool) :
    WorksIn u ((shingleEb fmt8 + 1) * N) d (d.kvVector u area slot dim stage src fmt8).1 := by
  have hblocks := WorksIn.foldl_fst (u := u) (L := (shingleEb fmt8 + 1) * N) (l := List.range (dim / 32))
    (g := fun (r : Die × List Byte × List Nat) k =>
      let p := r.1.engRead u u.c.a (src + 128 * k) 128
      let q := p.1.kvBlock u (stage + k) fmt8 (wordsIn p.2 32)
      (q.1, r.2.1 ++ q.2.1, r.2.2 ++ [q.2.2]))
    (fun r k hk _ => (r.1.engRead_worksIn u.c.a (src + 128 * k) 128).trans
      (Die.kvBlock_worksIn _ (by have := List.mem_range.1 hk; omega) fmt8 (wordsIn_length _ 32))) (d, [], []) (WorksIn.refl u _ d)
  cases area with
  | none => exact hblocks
  | some a => exact (hblocks.trans (Die.askBytes_worksIn _ _ _)).trans (Die.askBytes_worksIn _ _ _)

/-- The page that holds a position is looked up in the list, where it is listed. -/
theorem Die.kvPage_worksIn {L : Nat} (hd : Die × Option (Nat × Nat)) (pos : Nat) (h : WorksIn u L d hd.1) :
    WorksIn u L d (match hd.2 with
      | some (seg, np) =>
        if pos / 64 < np then (let q := hd.1.pageOf u (pos / 64); (q.1, q.2.map (· + seg))) else (hd.1, none)
      | none => (hd.1, none)).1 := by
  split
  · split
    · exact h.trans (Die.engRead_worksIn _ _ _ _)
    · exact h
  · exact h

/-- The blocks of head vector `v` of token `i` stand within those of all `count` tokens. -/
theorem kvStage_le {h per i v count : Nat} (hi : i < count) (hv : v < 2 * h) :
    (2 * h * i + v) * per + per ≤ 2 * h * per * count := by
  calc (2 * h * i + v) * per + per = (2 * h * i + v + 1) * per := (Nat.succ_mul _ _).symm
    _ ≤ (2 * h * i + 2 * h) * per := Nat.mul_le_mul_right _ (by omega)
    _ = 2 * h * per * (i + 1) := by ring
    _ ≤ 2 * h * per * count := Nat.mul_le_mul_left _ hi

theorem Die.kvToken_worksIn {h dim count : Nat} (hi : i < count) (hshape : d.kvShape u.t u.c.b = (h, dim)) :
    WorksIn u ((shingleEb (bit (descP0 u.c) 0) + 1) * (2 * h * (dim / 32) * count)) d (d.kvToken u i).1 := by
  unfold Die.kvToken
  rw [hshape]
  dsimp only
  refine WorksIn.foldl_fst ?_ _ ?_
  · intro r v hv _
    exact Die.kvVector_worksIn r.1 (kvStage_le hi (List.mem_range.1 hv)) _ _ _ _
  · exact Die.kvPage_worksIn d (d.pageHead u) (descP1 u.c + i) (d.engRead_worksIn _ _ _)

end Sys2Proof.Machine
end

section
/-! PROOFS. The strokes of a STROKE descriptor (R97, R141, R194). -/
namespace Sys2Proof.Machine

variable {u : Cur} {L : Nat} {d e : Die}

/-- The array that serves a logical array, where the map has an entry for it. -/
def Die.served (d : Die) (t l : Nat) : Option Nat := if l < 256 then d.serving t l else none

theorem Die.inputFree_iff (d : Die) (t l : Nat) :
    d.inputFree t l = true ↔ ∀ a, d.served t l = some a → (d.arr t a).waiting.isEmpty = true := by
  unfold Die.inputFree
  cases h : d.served t l with
  | none =>
    unfold Die.served at h
    rw [h]
    simp
  | some a =>
    unfold Die.served at h
    rw [h]
    simp

theorem WorksIn.served (h : WorksIn u L d e) (l : Nat) : e.served u.t l = d.served u.t l := by
  unfold Die.served
  split
  next hl =>
    have hword : e.getW (Reg.TILE_AMAP u.t l) = d.getW (Reg.TILE_AMAP u.t l) :=
      h.tables _ (by unfold Reg.TILE_AMAP; omega) (by unfold Reg.TILE_AMAP; omega)
    have hget : ∀ g : Fld, g.addr = Reg.TILE_AMAP u.t l → e.get g = d.get g := fun g hg => by
      unfold Die.get
      rw [hg, hword]
    unfold Die.serving Die.on
    rw [hget (Reg.TILE_AMAP_VALID u.t l) rfl, hget (Reg.TILE_AMAP_PHYS u.t l) rfl]
  next => rfl

/-! ### One stroke -/

theorem Die.countOutliers_notes (d : Die) (t l layer nout cap : Nat) : Notes t d (d.countOutliers t l layer nout cap) := by
  have hkept := d.bump_notes (n := t) (g := Reg.ENG_OUTL_CNT_KEPT_COUNT t l) (min nout cap)
    (.inr (by unfold Reg.ENG_OUTL_CNT_KEPT_COUNT Reg.ENG_OUTL_CNT_KEPT; dsimp only; omega))
  have hdrop := fun v => ((hkept.trans (Die.bump_notes _ (g := Reg.ENG_OUTL_CNT_DROP_COUNT t l) v
    (.inr (by unfold Reg.ENG_OUTL_CNT_DROP_COUNT Reg.ENG_OUTL_CNT_DROP; dsimp only; omega)))).trans
    (Die.bump_notes _ (g := Reg.ENG_LAYER_STAT_DROP_COUNT t layer) v
      (.inr (by unfold Reg.ENG_LAYER_STAT_DROP_COUNT Reg.ENG_LAYER_STAT_DROP; dsimp only; omega)))).trans
    (Die.raise_notes _ (g := Reg.ENG_ARITH_STATUS_OUTL_DROP t)
      (.inr (by unfold Reg.ENG_ARITH_STATUS_OUTL_DROP Reg.ENG_ARITH_STATUS; dsimp only; omega)))
  unfold Die.countOutliers
  dsimp only
  split
  · exact hkept
  · split
    · exact hdrop _
    · exact ((hdrop _).trans (Die.raise_notes _ (.inr (by unfold Reg.ENG_OUTL_FLAG; dsimp only; omega)))).trans
        (Die.record_notes _ _ _ _ _ _)

/-- The injector's registers lie below every tile's. -/
theorem Die.ptbFire_notes (d : Die) (n : Nat) : Notes n d (d.ptbFire 5) := by
  have hlow : ∀ a : Nat, a < 0x0100000000 → offTables n a := fun a ha => .inl (by unfold tileAddr; omega)
  have hcount : Notes n d ((d.put (Reg.PTB_COUNT_COUNT 5) (d.get (Reg.PTB_COUNT_COUNT 5) - 1)).bump (Reg.PTB_FIRED_COUNT 5) 1) :=
    (d.put_notes _ (hlow _ (by decide))).trans (Die.bump_notes _ 1 (hlow _ (by decide)))
  have hdone : ∀ e : Die, Notes n e (e.ptbDone 5) := fun e =>
    Notes.trans (e := e.setInj 5 {}) ⟨⟨rfl, rfl, rfl, rfl, SameMem.refl e⟩, fun _ _ _ => rfl⟩ (Die.record_notes _ _ _ _ _ _)
  unfold Die.ptbFire
  dsimp only
  split
  · exact (hcount.trans (Die.put_notes _ (g := Reg.PTB_CFG_EN 5) 0 (hlow _ (by decide)))).trans (hdone _)
  · exact hcount

theorem arr_modArr_ne (d : Die) {t a b : Nat} (g : Array1 → Array1) (h : b ≠ a) : (d.modArr t a g).arr t b = d.arr t b :=
  Die.arr_setArr_ne d _ (by unfold arrIx; omega)

/-- The injector that takes a stroke's outlier capacity away (R577). -/
theorem Die.strokeInject_effect (d : Die) (u : Cur) (l : Nat) (inj : Bool) :
    WorksIn u 0 d (if inj then (d.ptbFire 5).modTile u.t (fun x => { x with noOutl := x.noOutl ++ [l] }) else d) ∧
      (if inj then (d.ptbFire 5).modTile u.t (fun x => { x with noOutl := x.noOutl ++ [l] }) else d).arrays = d.arrays := by
  cases inj with
  | false => exact ⟨WorksIn.refl u 0 d, rfl⟩
  | true =>
    have hfire := d.ptbFire_notes u.t
    have hown := (d.ptbFire 5).modTile_own (n := u.t) (fun x => { x with noOutl := x.noOutl ++ [l] }) rfl
    rw [if_pos rfl]
    exact ⟨hfire.worksIn.trans hown.worksIn, hown.arrays.trans hfire.work.arrays⟩

/-- A stroke moves the array that serves it alone. -/
theorem Die.strokeOne_effect (d : Die) (u : Cur) (l i : Nat) (bs : Option (List Byte)) :
    WorksIn u 0 d (d.strokeOne u l i bs) ∧
      ∀ b, d.served u.t l ≠ some b → (d.strokeOne u l i bs).arr u.t b = d.arr u.t b := by
  unfold Die.strokeOne
  dsimp only
  split
  next h =>
    have hbad : Notes u.t d (d.bump ⟨Reg.ENG_BADDESC_CNT u.t, 0, 32⟩ 1) :=
      d.bump_notes 1 (.inl (by unfold Reg.ENG_BADDESC_CNT; dsimp only; omega))
    have hown := (d.bump ⟨Reg.ENG_BADDESC_CNT u.t, 0, 32⟩ 1).modTile_own (n := u.t)
      (fun x => { x with rejected := x.rejected ++ [l] }) rfl
    refine ⟨hbad.worksIn.trans hown.worksIn, fun b _ => ?_⟩
    unfold Die.arr
    rw [hown.arrays, hbad.work.arrays]
  next a h =>
    have hcount := d.countOutliers_notes u.t l (descLayer u.c) (leAt (bs.getD (zeros 1024)) 516 2)
      (if d.overflowInject u.t l then 0 else capacityOf (bits (descP0 u.c) 5 3))
    obtain ⟨hworks, harrays⟩ := Die.strokeInject_effect _ u l (d.overflowInject u.t l)
    refine ⟨(hcount.worksIn.trans hworks).trans (Die.modArr_worksIn _ _ _ _), fun b hb => ?_⟩
    rw [arr_modArr_ne _ _ (fun hba => hb (by rw [hba]; exact h))]
    unfold Die.arr
    rw [harrays, hcount.work.arrays]

/-! ### The strokes of a descriptor -/

/-- A stroke whose array's input register is not free stays where it is. -/
theorem Die.strokeUnits_blocked {done : Nat} (h : d.inputFree u.t (strokeArray u.c done) = false) (n : Nat) :
    d.strokeUnits u n done = (d, false, done) := by
  cases n with
  | zero => rfl
  | succ k => exact if_pos (by rw [h]; rfl)

/-- Otherwise it is latched, and the next follows. -/
theorem Die.strokeUnits_free {done : Nat} (h : d.inputFree u.t (strokeArray u.c done) = true) (k : Nat)
    {p : Die × Option (List Byte)} (hp : d.engRead u u.c.a (if bit (descP0 u.c) 0 then 0 else 1024 * done) 1024 = p)
    {r : Die × Bool × Nat} (hr : (p.1.strokeOne u (strokeArray u.c done) done p.2).strokeUnits u k (done + 1) = r) :
    d.strokeUnits u (k + 1) done = (r.1, r.2.1 || p.2.isNone, r.2.2) := by
  subst hr hp
  exact if_neg (by rw [h]; decide)

/-- Strokes on different arrays, each free as the first is latched, are all latched. -/
theorem Die.strokeUnits_all (u : Cur) (n : Nat) : ∀ (done : Nat) (d : Die),
    (∀ j, done ≤ j → j < done + n → d.inputFree u.t (strokeArray u.c j) = true) →
    (∀ i j a, i < j → j < done + n → d.served u.t (strokeArray u.c i) = some a →
      d.served u.t (strokeArray u.c j) ≠ some a) →
    WorksIn u 0 d (d.strokeUnits u n done).1 ∧ (d.strokeUnits u n done).2.2 = done + n := by
  induction n with
  | zero => exact fun done d _ _ => ⟨WorksIn.refl u 0 d, rfl⟩
  | succ k ih =>
    intro done d hfree hapart
    obtain ⟨p, hp⟩ : ∃ p, d.engRead u u.c.a (if bit (descP0 u.c) 0 then 0 else 1024 * done) 1024 = p := ⟨_, rfl⟩
    have hread : Notes u.t d p.1 := hp ▸ d.engRead_notes _ _ _ _
    obtain ⟨hone, harr⟩ := p.1.strokeOne_effect u (strokeArray u.c done) done p.2
    have hworks := hread.worksIn.trans hone
    have hrest := ih (done + 1) (p.1.strokeOne u (strokeArray u.c done) done p.2) ?_ ?_
    · rw [Die.strokeUnits_free (hfree done le_rfl (by omega)) k hp rfl]
      exact ⟨hworks.trans hrest.1, hrest.2.trans (by omega)⟩
    · intro j hj hlt
      rw [Die.inputFree_iff, hworks.served]
      intro b hb
      have hother : p.1.served u.t (strokeArray u.c done) ≠ some b := fun ha =>
        hapart done j b hj (by omega) ((hread.worksIn (L := 0)).served _ ▸ ha) hb
      rw [harr b hother, hread.work.arr]
      exact (d.inputFree_iff _ _).1 (hfree j (by omega) (by omega)) b hb
    · intro i j a hij hlt hi
      rw [hworks.served] at hi ⊢
      exact hapart i j a hij (by omega) hi

theorem OwnState.inputFree {n : Nat} (h : OwnState n d e) (t l : Nat) : e.inputFree t l = d.inputFree t l := by
  rw [h.rest]
  rfl

/-! ### The descriptor -/

/-- The operation of STROKE. -/
def strokeOp (c : Desc) (d : Die) (u : Cur) (e : Exec) : Done :=
  let r := d.strokeUnits u (descCount c - e.units) e.units
  { d := r.1, bad := r.2.1, units := r.2.2, drained := r.2.2 == descCount c }

section
variable {s : State} {n th : Nat} {c : Desc} {x : Exec}

theorem exec_stroke (hc : s.die.runsClean n th c = true) (hop : descOp c = ocStroke) :
    exec (.stroke n th c) s = .next { s with die := s.die.runOp n th c (strokeOp c) } :=
  exec_opCmd (op := ocStroke) (g := fun d => d.runOp n th c (strokeOp c)) (fun _ => rfl) hc hop

/-- With the input register of every array free, a STROKE is carried out. -/
theorem stroke_ran (hc : s.die.runsClean n th c = true) (hop : descOp c = ocStroke) (hx : s.die.runnable n th c = some x)
    (hle : x.units ≤ descCount c) (hfree : ∀ i, i < descCount c → s.die.inputFree n (strokeArray c i) = true)
    (hapart : ∀ i j a, i < j → j < descCount c → s.die.serving n (strokeArray c i) = some a →
      s.die.serving n (strokeArray c j) ≠ some a) :
    ∃ t : State, exec (.stroke n th c) s = .next t ∧ t.pending = s.pending ∧ t.carrier = s.carrier ∧ Ran n th c t.die ∧
      SameMem s.die t.die := by
  obtain ⟨-, rfl, rfl⟩ := Die.runnable_spec hx
  have hbegun := s.die.begun_own n x
  have hworks : WorksIn (x.cur n) 0 s.die (s.die.begun n x) := hbegun.worksIn
  have hserved : ∀ l a, (s.die.begun n x).served n l = some a → s.die.serving n l = some a := by
    intro l a h
    rw [show (s.die.begun n x).served n l = s.die.served n l from hworks.served l] at h
    unfold Die.served at h
    split at h
    · exact h
    · exact nomatch h
  obtain ⟨hall, hunits⟩ := Die.strokeUnits_all (x.cur n) (descCount x.desc - x.units) x.units (s.die.begun n x)
    (fun j _ hj => (hbegun.inputFree n _).trans (hfree j (by omega)))
    (fun i j a hij hj hi hj' => hapart i j a hij (by omega) (hserved _ _ hi) (hserved _ _ hj'))
  have htotal := hworks.trans hall
  obtain ⟨⟨y, hy, hyth, hyc, hyran, -⟩, -, -, hmem⟩ := Die.runOp_of_clean hc hx (f := strokeOp x.desc) rfl htotal.execs
  refine ⟨_, exec_stroke hc hop, rfl, rfl, ⟨y, hy, hyth, hyc, hyran.trans ?_⟩,
    fun a => (hmem a).trans (htotal.mem a (by omega))⟩
  exact beq_iff_eq.2 (hunits.trans (by omega))

/-- While the input register of its next array is not free, a STROKE waits, and no array and no register moves. -/
theorem stroke_waits (hc : s.die.runsClean n th c = true) (hop : descOp c = ocStroke) (hx : s.die.runnable n th c = some x)
    (hlt : x.units < descCount c) (hblocked : s.die.inputFree n (strokeArray c x.units) = false) :
    ∃ t : State, exec (.stroke n th c) s = .next t ∧
      (∃ y ∈ (t.die.tile n).execs, y.thread = th ∧ y.desc = c ∧ y.ran = false ∧ y.units = x.units) ∧
      t.die.arrays = s.die.arrays ∧ t.die.regs = s.die.regs ∧ SameMem s.die t.die := by
  obtain ⟨-, rfl, rfl⟩ := Die.runnable_spec hx
  have hbegun := s.die.begun_own n x
  have hop' : strokeOp x.desc (s.die.begun n x) (x.cur n) x = { d := s.die.begun n x, units := x.units, drained := false } := by
    unfold strokeOp
    rw [Die.strokeUnits_blocked (u := x.cur n) ((hbegun.inputFree n _).trans hblocked)]
    simp [Nat.ne_of_lt hlt]
  obtain ⟨hy, hregs, harrays, hmem⟩ := Die.runOp_of_clean hc hx (f := strokeOp x.desc) hop' hbegun.execs
  exact ⟨_, exec_stroke hc hop, hy, harrays.trans hbegun.arrays, hregs.trans hbegun.regs,
    fun a => (hmem a).trans (hbegun.mem a)⟩

end

end Sys2Proof.Machine
end

section
/-! PROOFS. A clean descriptor runs inside its operands (R174, R176, R186, R188, R190, R191, R194). -/
namespace Sys2Proof.Machine

section
variable {i : Instr} {op n th L : Nat} {c : Desc} {s : State}

/-- An operation of COUNT units, each of which stays in the destination. -/
theorem runsInside_of_units {g : Die → Cur → Nat → Die × Bool}
    (hexec : ∀ s, exec i s = opCmd op n c (fun d => d.runOp n th c fun d u _ => d.units (descCount c) (fun e k => g e u k)) s)
    (hc : s.die.runsClean n th c = true) (hop : descOp c = op) (hw : op ∈ writingOps) (hspan : s.die.dstSpans n c = span c.d L)
    (hg : ∀ u e k, u.c = c → k < descCount c → WorksIn u L e (g e u k).1) : RunsInside i n th c s :=
  runsInside_of_dst hexec hc hop hw hspan fun u d _ _ huc _ => Die.units_worksIn (fun b k hk => hg u b k huc hk) d

/-- SQUANT's panels hold between 1 and 32 blocks (R190). -/
theorem panelBlocks_pos (hc : s.die.runsClean n th c = true) (hop : descOp c = ocSquant) : 0 < bits (descP0 c) 8 8 := by
  obtain ⟨-, -, -, hm, -⟩ := Die.runsClean_spec hc
  have hok : p0Ok c = true := by
    simp only [malformed, Bool.or_eq_false_iff, Bool.not_eq_false'] at hm
    exact hm.1.1.1.2
  simp only [p0Ok, hop, ocSquant, Bool.and_eq_true, decide_eq_true_eq] at hok
  exact hok.2.1

theorem squant_runsInside (hc : s.die.runsClean n th c = true) (hop : descOp c = ocSquant) :
    RunsInside (.squant n th c) n th c s := by
  have hpos := panelBlocks_pos hc hop
  have hspan : s.die.dstSpans n c =
      span c.d (panelsBytes (descCount c) (bits (descP0 c) 8 8) (shingleEb (bit (descP0 c) 0))) := by
    rw [← Nat.max_eq_right hpos, Die.dstSpans, hop]
    rfl
  refine runsInside_of_units (fun _ => rfl) hc hop (by decide) hspan fun u e k huc hk => ?_
  subst huc
  exact e.squantUnit_worksIn hk rfl rfl hpos

theorem kvWrite_runsInside (hc : s.die.runsClean n th c = true) (hop : descOp c = ocKvWrite) :
    RunsInside (.kvWrite n th c) n th c s := by
  obtain ⟨⟨h, dim⟩, hshape⟩ : ∃ p, s.die.kvShape n c.b = p := ⟨_, rfl⟩
  have hspan : s.die.dstSpans n c =
      span c.d ((shingleEb (bit (descP0 c) 0) + 1) * (2 * h * (dim / 32) * descCount c)) := by
    rw [show (shingleEb (bit (descP0 c) 0) + 1) * (2 * h * (dim / 32) * descCount c) =
      2 * h * (dim / 32) * (shingleEb (bit (descP0 c) 0) + 1) * descCount c by ring, Die.dstSpans, hop, hshape]
    rfl
  refine runsInside_of_dst (fun _ => rfl) hc hop (by decide) hspan fun u d e hut huc hw => ?_
  subst hut huc
  exact Die.moveUnits_worksIn fun b k hk hb => b.kvToken_worksIn hk ((hb.kvShape _ _).trans ((hw.kvShape _ _).trans hshape))

end

/-- The statement's list, operation by operation. -/
theorem operations_runInside {s : State} {n th : Nat} {c : Desc} (hc : s.die.runsClean n th c = true) (k : Instr × Nat)
    (hk : k ∈ [(.nop n th c, ocNop), (.copy n th c, ocCopy), (.fill n th c, ocFill), (.bufWait n th c, ocBufWait),
      (.bufSet n th c, ocBufSet), (.event n th c, ocEvent), (.load n th c, ocLoad), (.store n th c, ocStore),
      (.rotate n th c, ocRotate), (.quantA n th c, ocQuantA), (.refStroke n th c, ocRefStroke),
      (.vsum n th c, ocVsum), (.squant n th c, ocSquant), (.sdeq n th c, ocSdeq), (.linear n th c, ocLinear),
      (.softmax n th c, ocSoftmax), (.norm n th c, ocNorm), (.act n th c, ocAct), (.ewise n th c, ocEwise),
      (.posrot n th c, ocPosrot), (.steer n th c, ocSteer), (.kvWrite n th c, ocKvWrite), (.select n th c, ocSelect)])
    (hop : descOp c = k.2) : RunsInside k.1 n th c s := by
  simp only [List.mem_cons, List.not_mem_nil, or_false] at hk
  rcases hk with rfl | rfl | rfl | rfl | rfl | rfl | rfl | rfl | rfl | rfl | rfl | rfl | rfl | rfl | rfl | rfl | rfl | rfl |
    rfl | rfl | rfl | rfl | rfl
  all_goals dsimp only at hop ⊢
  · exact runsInside_of_none (fun _ => rfl) hc hop fun u d _ _ _ => ⟨WorksIn.refl u 0 d, rfl⟩
  · exact runsInside_of_units (fun _ => rfl) hc hop (by decide) (by rw [Die.dstSpans, hop]; rfl)
      fun _ e _ _ hk => e.copyUnit_worksIn hk
  · exact runsInside_of_units (g := fun e u k => (e.engWrite u c.d (64 * k) (pattern64 (descP1 c)), false)) (fun _ => rfl) hc hop
      (by decide) (by rw [Die.dstSpans, hop]; rfl) fun _ e _ huc hk => huc ▸ e.engWrite_unit hk (pattern64_length _).le
  · exact runsInside_of_none (fun _ => rfl) hc hop fun u d _ _ _ => ⟨WorksIn.refl u 0 d, rfl⟩
  · refine runsInside_of_none (fun _ => rfl) hc hop fun u d _ hut huc => ⟨?_, rfl⟩
    subst hut huc
    exact d.bufSet_worksIn
  · exact runsInside_of_none (fun _ => rfl) hc hop fun u d _ _ _ => ⟨(d.emit_notes _).worksIn, rfl⟩
  · refine runsInside_of_dst (fun _ => rfl) hc hop (by decide) (by rw [Die.dstSpans, hop]; rfl) fun u d _ _ huc _ => ?_
    subst huc
    exact Die.moveUnits_worksIn fun e _ hk _ => e.loadOne_worksIn hk
  · exact runsInside_of_none (fun _ => rfl) hc hop fun u d _ _ _ => Die.moveUnits_worksIn fun e _ _ _ => e.storeOne_worksIn
  · exact runsInside_of_units (fun _ => rfl) hc hop (by decide) (by rw [Die.dstSpans, hop]; rfl)
      fun _ e _ _ hk => e.rotateUnit_worksIn hk
  · exact runsInside_of_none (fun _ => rfl) hc hop fun u d _ _ _ => d.quantA_worksIn
  · exact runsInside_of_none (fun _ => rfl) hc hop fun u d _ _ _ => ⟨d.refStrokes_worksIn _ _ _, rfl⟩
  · exact runsInside_of_units (fun _ => rfl) hc hop (by decide) (by rw [Die.dstSpans, hop]; rfl)
      fun _ e _ _ hk => e.vsumUnit_worksIn hk
  · exact squant_runsInside hc hop
  · exact runsInside_of_units (fun _ => rfl) hc hop (by decide) (by rw [Die.dstSpans, hop]; rfl)
      fun _ e _ huc hk => huc ▸ e.sdeqUnit_worksIn hk
  · exact runsInside_of_dst (fun _ => rfl) hc hop (by decide) (by rw [Die.dstSpans, hop]; rfl)
      fun u d _ _ huc _ => huc ▸ d.linear_worksIn
  · exact runsInside_of_dst (fun _ => rfl) hc hop (by decide) (by rw [Die.dstSpans, hop]; rfl)
      fun u d _ _ huc _ => huc ▸ d.softmax_worksIn
  · exact runsInside_of_dst (fun _ => rfl) hc hop (by decide) (by rw [Die.dstSpans, hop]; rfl)
      fun u d _ _ huc _ => huc ▸ d.norm_worksIn
  · exact runsInside_of_units (fun _ => rfl) hc hop (by decide) (by rw [Die.dstSpans, hop]; rfl)
      fun _ e _ _ hk => e.actUnit_worksIn hk
  · exact runsInside_of_units (fun _ => rfl) hc hop (by decide) (by rw [Die.dstSpans, hop]; rfl)
      fun _ e _ _ hk => e.ewiseUnit_worksIn hk
  · exact runsInside_of_units (fun _ => rfl) hc hop (by decide) (by rw [Die.dstSpans, hop]; rfl)
      fun _ e _ _ hk => e.posrotUnit_worksIn hk
  · exact runsInside_of_units (fun _ => rfl) hc hop (by decide) (by rw [Die.dstSpans, hop]; rfl)
      fun _ e _ _ hk => e.steerUnit_worksIn hk
  · exact kvWrite_runsInside hc hop
  · exact runsInside_of_dst (fun _ => rfl) hc hop (by decide) (by rw [Die.dstSpans, hop]; rfl)
      fun u d _ _ _ _ => d.select_worksIn

/-- Settles O31: each operation works inside its destination; a STROKE latches its strokes, or waits for the next array. -/
theorem cleanDescriptorsRunInsideTheirOperands : Obligations.CleanDescriptorsRunInsideTheirOperands := by
  intro s n th c hc
  exact ⟨fun k hk hop => operations_runInside hc k hk hop, fun e hop he hle hfree hapart => stroke_ran hc hop he hle hfree hapart,
    fun e hop he hlt hblocked _ => stroke_waits hc hop he hlt hblocked⟩

end Sys2Proof.Machine
end

section
/-! PROOFS. Writes of a tile's regions and of its engine's registers (R163, R184, R198, R200, R202, R203). -/
namespace Sys2Proof.Machine

/-! ### The commands -/

section
variable {s : State} {ag : Agent} {n : Nat}

theorem exec_rgnWrite (hl : s.die.live = true) (hw : s.die.tileWrite ag n = true) {r : Nat} (hr : r < 255) (limit : Bool)
    (w : Nat) : exec (.rgnWrite ag n r limit w) s = .next { s with die := s.die.rgnWrite ag n r limit (w % 2 ^ 32) } :=
  tileCmd_ok hl hw (by simpa using hr)

theorem exec_engEnableWrite (hl : s.die.live = true) (hw : s.die.tileWrite ag n = true) (en : Bool) :
    exec (.engEnableWrite ag n en) s = .next { s with die := s.die.engEnable ag n en } :=
  tileCmd_ok hl hw rfl

theorem exec_engCntClr (hl : s.die.live = true) (hw : s.die.tileWrite ag n = true) :
    exec (.engCntClr ag n) s = .next { s with die := (s.die.raise (Reg.ENG_CTRL_CNT_CLR n)).answer ag stOk } :=
  tileCmd_ok hl hw rfl

theorem exec_faultInfoClear (hl : s.die.live = true) (hw : s.die.tileWrite ag n = true) :
    exec (.faultInfoClear ag n) s = .next { s with die := s.die.faultClear ag n } :=
  tileCmd_ok hl hw rfl

theorem exec_reqHwmClr (hl : s.die.live = true) (hw : s.die.tileWrite ag n = true) :
    exec (.reqHwmClr ag n) s = .next { s with die := (s.die.clear (Reg.ENG_REQ_HWM_MAX n)).answer ag stOk } :=
  tileCmd_ok hl hw rfl

theorem exec_threadClassWrite (hl : s.die.live = true) (hw : s.die.tileWrite ag n = true) {th : Nat} (hth : th < 64)
    (cls : Nat) : exec (.threadClassWrite ag n th cls) s = .next { s with die := s.die.threadClassWrite ag n th cls } :=
  tileCmd_ok hl hw (by simpa using hth)

end

variable (d : Die) (ag : Agent) (n r : Nat)

/-! ### A write refused for the present -/

/-- A busy write answers BUSY, and moves what its record moves. -/
theorem Die.busy_effect (a w : Nat) : (d.busy ag a w).out.head? = some (.status ag stBusy) ∧
    OnlyRegs logRegs d (d.busy ag a w) ∧ SameMem d (d.busy ag a w) :=
  ⟨rfl, (d.recordA_onlyRegs _ _ _ _ _ _ _ _).answer ag stBusy, (d.recordA_logsOnly _ _ _ _ _ _ _ _).sameMem⟩

/-! ### Regions (R184) -/

theorem Die.rgnWrite_of_armed (ha : d.armed = true) (limit : Bool) (w : Nat) :
    d.rgnWrite ag n r limit w = d.busy ag (if limit then Reg.ENG_RGN_LIMIT n r else Reg.ENG_RGN_BASE n r) w := if_pos ha

/-- The region's words name it as valid, and it overlaps another valid region or leaves the SRAM. -/
def Die.rgnClashes : Bool :=
  d.rgnValid n r && d.rgnBad n r (d.get (Reg.ENG_RGN_BASE_BASE n r)) (d.get (Reg.ENG_RGN_LIMIT_SIZE n r))

/-- A region that clashes loses VALID, with a record. -/
def Die.rgnSettle : Die :=
  if d.rgnClashes n r then (d.clear (Reg.ENG_RGN_LIMIT_VALID n r)).record 0x10 4 n 0xFFFF [r] else d

theorem Die.rgnWrite_of_unarmed (ha : d.armed = false) (limit : Bool) (w : Nat) :
    d.rgnWrite ag n r limit w =
      (d.plainWrite ag (if limit then Reg.ENG_RGN_LIMIT n r else Reg.ENG_RGN_BASE n r) w n).rgnSettle n r :=
  if_neg (by rw [ha]; decide)

theorem rgnLimit_not_mem_logRegs : Reg.ENG_RGN_LIMIT n r ∉ logRegs := fun h => by
  have := logRegs_lt_tileAddr h n
  unfold Reg.ENG_RGN_LIMIT at this
  omega

/-- A region whose VALID is cleared and recorded is not valid. -/
theorem Die.rgnValid_dropped (det : List Nat) :
    ((d.clear (Reg.ENG_RGN_LIMIT_VALID n r)).record 0x10 4 n 0xFFFF det).rgnValid n r = false := by
  have hrec := (d.clear (Reg.ENG_RGN_LIMIT_VALID n r)).record_onlyRegs 0x10 4 n 0xFFFF det
  have hzero : (d.clear (Reg.ENG_RGN_LIMIT_VALID n r)).get (Reg.ENG_RGN_LIMIT_VALID n r) = 0 := d.get_put_same _ 0 le_rfl
  unfold Die.rgnValid Die.on
  rw [hrec.get (rgnLimit_not_mem_logRegs n r), hzero]
  exact Bool.and_false _

/-- The region is not valid, or fits among the others. -/
theorem Die.rgnSettle_fits : (d.rgnSettle n r).rgnClashes n r = false := by
  by_cases h : d.rgnClashes n r = true
  · rw [Die.rgnSettle, if_pos h, Die.rgnClashes, Die.rgnValid_dropped, Bool.false_and]
  · rw [Die.rgnSettle, if_neg h]
    exact Bool.eq_false_iff.2 h

theorem Die.rgnSettle_frame :
    SameMem d (d.rgnSettle n r) ∧ OnlyRegs (Reg.ENG_RGN_LIMIT n r :: logRegs) d (d.rgnSettle n r) := by
  unfold Die.rgnSettle
  split
  · exact ⟨((logsOnly_put d _ 0).trans (Die.record_logsOnly _ _ _ _ _ _)).sameMem,
      (onlyRegs_put d (f := Reg.ENG_RGN_LIMIT_VALID n r) 0 List.mem_cons_self).trans
        ((Die.record_onlyRegs _ _ _ _ _ _).mono fun _ hb => List.mem_cons_of_mem _ hb)⟩
  · exact ⟨SameMem.refl d, OnlyRegs.refl _ d⟩

/-- A write moves the region's two words and what records move. -/
theorem Die.rgnWrite_frame (ha : d.armed = false) (limit : Bool) (w : Nat) :
    SameMem d (d.rgnWrite ag n r limit w) ∧
      OnlyRegs (Reg.ENG_RGN_LIMIT n r :: Reg.ENG_RGN_BASE n r :: logRegs) d (d.rgnWrite ag n r limit w) := by
  rw [d.rgnWrite_of_unarmed ag n r ha]
  obtain ⟨hmem, hregs⟩ := Die.rgnSettle_frame
    (d.plainWrite ag (if limit then Reg.ENG_RGN_LIMIT n r else Reg.ENG_RGN_BASE n r) w n) n r
  refine ⟨fun a => (hmem a).trans ((d.plainWrite_logsOnly _ _ _ _).sameMem a),
    ((d.plainWrite_onlyRegs _ _ _ _).mono ?_).trans (hregs.mono (by simp +contextual))⟩
  cases limit <;> simp +contextual

/-! ### ENG_CTRL.ENABLE (R198) -/

/-- An enable during a stop is deferred. -/
theorem Die.engEnable_of_stopping (h : (d.tile n).stopping = true) :
    d.engEnable ag n true = (d.modTile n (fun x => { x with enableDeferred := true })).answer ag stOk := by
  simp [Die.engEnable, Die.setEnable, h]

theorem Die.engEnable_of_not_stopping (h : (d.tile n).stopping = false) :
    d.engEnable ag n true = (d.raise (Reg.ENG_CTRL_ENABLE n)).answer ag stOk := by
  simp [Die.engEnable, Die.setEnable, h]

theorem Die.engEnable_false : d.engEnable ag n false = ((d.clear (Reg.ENG_CTRL_ENABLE n)).modTile n (fun x =>
    { x with stopping := x.stopping || x.dispatching, enableDeferred := false })).answer ag stOk := rfl

/-- ENABLE cleared: a tile that dispatches stops. -/
theorem Die.engDisable_effect : (d.engEnable ag n false).get (Reg.ENG_CTRL_ENABLE n) = 0 ∧
    ((d.engEnable ag n false).tile n).stopping = ((d.tile n).stopping || (d.tile n).dispatching) ∧
    OnlyRegs [Reg.ENG_CTRL n] d (d.engEnable ag n false) ∧ SameMem d (d.engEnable ag n false) := by
  have hput : (d.put (Reg.ENG_CTRL_ENABLE n) 0).get (Reg.ENG_CTRL_ENABLE n) = 0 :=
    d.get_put_same _ 0 (by simp [Reg.ENG_CTRL_ENABLE])
  have hregs : OnlyRegs [Reg.ENG_CTRL n] d (d.put (Reg.ENG_CTRL_ENABLE n) 0) :=
    onlyRegs_put d 0 (List.mem_singleton_self (Reg.ENG_CTRL n))
  rw [Die.engEnable_false, Die.clear_eq]
  refine ⟨?_, ?_, OnlyRegs.answer (fun a ha => ?_) ag stOk, fun a => ?_⟩
  · rw [Die.answer_get, Die.modTile_get, hput]
  · rw [Die.answer_tile, Die.tile_modTile_same, Die.put_tile]
  · rw [Die.modTile_getW, hregs a ha]
  · rw [Die.answer_byteAt, Die.modTile_byteAt, Die.put_byteAt]

/-! ### The clears (R200, R202) -/

theorem Die.faultClear_effect : (d.faultClear ag n).getW (Reg.ENG_FAULT_INFO0 n) = 0 ∧
    (d.faultClear ag n).getW (Reg.ENG_FAULT_INFO1 n) = 0 ∧ (d.faultClear ag n).getW (Reg.ENG_FAULT_INFO2 n) = 0 ∧
    OnlyRegs [Reg.ENG_FAULT_INFO0 n, Reg.ENG_FAULT_INFO1 n, Reg.ENG_FAULT_INFO2 n] d (d.faultClear ag n) := by
  have h01 : Reg.ENG_FAULT_INFO0 n ≠ Reg.ENG_FAULT_INFO1 n := by unfold Reg.ENG_FAULT_INFO0 Reg.ENG_FAULT_INFO1; omega
  have h02 : Reg.ENG_FAULT_INFO0 n ≠ Reg.ENG_FAULT_INFO2 n := by unfold Reg.ENG_FAULT_INFO0 Reg.ENG_FAULT_INFO2; omega
  have h12 : Reg.ENG_FAULT_INFO1 n ≠ Reg.ENG_FAULT_INFO2 n := by unfold Reg.ENG_FAULT_INFO1 Reg.ENG_FAULT_INFO2; omega
  unfold Die.faultClear
  simp only [Die.answer_getW]
  refine ⟨?_, ?_, Die.getW_putW_same _ _ _, ?_⟩
  · rw [Die.getW_putW_ne _ _ h02, Die.getW_putW_ne _ _ h01, Die.getW_putW_same]
  · rw [Die.getW_putW_ne _ _ h12, Die.getW_putW_same]
  · exact (((onlyRegs_putW d _ (by simp)).trans (onlyRegs_putW _ _ (by simp))).trans (onlyRegs_putW _ _ (by simp))).answer ag stOk

/-! ### ENG_THREAD.CLASS (R203) -/

theorem Die.threadClassWrite_of_armed (ha : d.armed = true) (th cls : Nat) :
    d.threadClassWrite ag n th cls = d.busy ag (Reg.ENG_THREAD n th) (cls % 4 * 16) := if_pos ha

theorem Die.threadClassWrite_of_unarmed (ha : d.armed = false) (th cls : Nat) :
    d.threadClassWrite ag n th cls = (d.put (Reg.ENG_THREAD_CLASS n th) cls).answer ag stOk := if_neg (by rw [ha]; decide)

/-- Under an armed table the class stays. -/
theorem Die.threadClass_busy (th a w : Nat) : (d.busy ag a w).threadClass n th = d.threadClass n th := by
  refine (d.busy_effect ag a w).2.1.get fun h => ?_
  have := logRegs_lt_tileAddr h n
  simp only [Reg.ENG_THREAD_CLASS, Reg.ENG_THREAD] at this
  omega

/-! ### The statement -/

/-- Settles O35: each write comes to its effect on the tile's window; a region that would clash loses VALID. -/
theorem engineRegistersKeepTheirRules : Obligations.EngineRegistersKeepTheirRules := by
  intro s ag n hl hw
  refine ⟨fun r limit w hr ha => ?_, fun r limit w hr ha => ?_, fun hs => ?_, fun hs => ?_, ?_, ?_, ?_, ?_,
    fun th cls hth ha hcls => ?_, fun th cls hth ha => ?_⟩
  · refine ⟨_, exec_rgnWrite hl hw hr limit w, ?_⟩
    dsimp only
    rw [Die.rgnWrite_of_armed _ _ _ _ ha]
    exact Die.busy_effect _ _ _ _
  · refine ⟨_, exec_rgnWrite hl hw hr limit w, fun hv => ?_, Die.rgnWrite_frame _ _ _ _ ha _ _⟩
    have hfits := Die.rgnSettle_fits
      (s.die.plainWrite ag (if limit then Reg.ENG_RGN_LIMIT n r else Reg.ENG_RGN_BASE n r) (w % 2 ^ 32) n) n r
    rw [← Die.rgnWrite_of_unarmed _ _ _ _ ha] at hfits
    rwa [Die.rgnClashes, hv, Bool.true_and] at hfits
  · refine ⟨_, exec_engEnableWrite hl hw true, ?_⟩
    dsimp only
    rw [Die.engEnable_of_stopping _ _ _ hs]
    exact ⟨by simp, by simp⟩
  · refine ⟨_, exec_engEnableWrite hl hw true, ?_⟩
    dsimp only
    rw [Die.engEnable_of_not_stopping _ _ _ hs]
    obtain ⟨hget, hregs, -, -⟩ := s.die.raise_answer_effect (Reg.ENG_CTRL_ENABLE n) ag stOk rfl (by simp [Reg.ENG_CTRL_ENABLE])
    exact ⟨hget, hregs, by simp⟩
  · exact ⟨_, exec_engEnableWrite hl hw false, Die.engDisable_effect _ _ _⟩
  · obtain ⟨hget, hregs, -, hother⟩ := s.die.raise_answer_effect (Reg.ENG_CTRL_CNT_CLR n) ag stOk rfl le_rfl
    exact ⟨_, exec_engCntClr hl hw, hget, hother, hregs⟩
  · exact ⟨_, exec_faultInfoClear hl hw, Die.faultClear_effect _ _ _⟩
  · refine ⟨_, exec_reqHwmClr hl hw, ?_, (onlyRegs_put s.die (f := Reg.ENG_REQ_HWM_MAX n) 0 (List.mem_singleton_self _)).answer ag stOk, by simp⟩
    dsimp only
    rw [Die.answer_get, Die.clear_eq]
    exact s.die.get_put_same (Reg.ENG_REQ_HWM_MAX n) 0 (by simp [Reg.ENG_REQ_HWM_MAX])
  · have hfit : (Reg.ENG_THREAD_CLASS n th).lo + (Reg.ENG_THREAD_CLASS n th).width ≤ 32 := by simp [Reg.ENG_THREAD_CLASS]
    refine ⟨_, exec_threadClassWrite hl hw hth cls, ?_⟩
    dsimp only
    rw [Die.threadClassWrite_of_unarmed _ _ _ ha]
    refine ⟨?_, fun g hg hbits => (Die.answer_get _ _ _ _).trans (otherBits_put s.die _ cls hfit g hg hbits),
      (onlyRegs_put s.die (f := Reg.ENG_THREAD_CLASS n th) cls (List.mem_singleton_self _)).answer ag stOk⟩
    rw [Die.threadClass, Die.answer_get, s.die.get_put_same (Reg.ENG_THREAD_CLASS n th) cls hfit]
    exact Nat.mod_eq_of_lt hcls
  · refine ⟨_, exec_threadClassWrite hl hw hth cls, ?_⟩
    dsimp only
    rw [Die.threadClassWrite_of_armed _ _ _ ha]
    exact ⟨Die.threadClass_busy _ _ _ _ _ _, (Die.busy_effect _ _ _ _).1⟩

end Sys2Proof.Machine
end

section
/-! PROOFS. How a descriptor that fetches asks for its lines, and runs once they are back (R159, R177, R191, R194). -/
namespace Sys2Proof.Machine

/-! ### Asking -/

section
variable {d : Die} {n th : Nat} {c : Desc} {e : Exec} {asks : Die → Cur → List (Nat × Nat)} {f : Die → Cur → Exec → Done}

/-- The lines that a descriptor asks for: those it may reach. -/
def Die.lines (d : Die) (n th : Nat) (c : Desc) (asks : Die → Cur → List (Nat × Nat)) : List (Nat × Nat) :=
  (asks d { t := n, th := th, c := c }).filter (fun p => tileReqOk (descOp c) (d.threadClass n th) p.1 p.2)

/-- The request of a descriptor for one of its lines. -/
def Die.lineReq (d : Die) (n th : Nat) (c : Desc) (id : Nat) (p : Nat × Nat) : Req :=
  { cls := d.reqClass n th (descOp c), thread := th, tag := descTag c, addr := p.1, len := p.2, owner := id }

/-- With lines to ask for, a descriptor makes its requests, and waits for them. -/
theorem Die.runFetch_asks (he : d.runnable n th c = some e) (ha : e.asked = false) (hl : d.lines n th c asks ≠ []) :
    d.runFetch n th c asks f =
      (d.modTile n (fun x => { x with reqs := x.reqs ++ (d.lines n th c asks).map (d.lineReq n th c e.id) })).modExec n
        (fun y => y == e) (fun y => { y with asked := true, reqs := (d.lines n th c asks).length }) := by
  unfold Die.runFetch
  rw [he]
  dsimp only
  rw [ha, if_neg Bool.false_ne_true]
  exact if_neg (by simpa [Die.lines] using hl)

/-- With its lines back, or none to ask for, it runs. -/
theorem Die.runFetch_runs (he : d.runnable n th c = some e) (h : e.asked = true ∨ d.lines n th c asks = []) :
    d.runFetch n th c asks f = d.runOp n th c f := by
  unfold Die.runFetch
  rw [he]
  refine if_pos ?_
  rcases h with ha | hl
  · simp [ha]
  · cases e.asked
    · exact List.isEmpty_iff.2 hl
    · rfl

end

section
variable {i : Instr} {op n th : Nat} {c : Desc} {s : State} {e : Exec} {asks : Die → Cur → List (Nat × Nat)}
  {f : Die → Cur → Exec → Done}

/-- What the statement asks of a descriptor that still has lines to ask for. -/
def AsksFirst (i : Instr) (op n th : Nat) (c : Desc) (l : List (Nat × Nat)) (e : Exec) (s : State) : Prop :=
  ∃ t : State, exec i s = .next t ∧ t.pending = s.pending ∧
    t.carrier = s.carrier ∧ t.die.regs = s.die.regs ∧ SameMem s.die t.die ∧
    (t.die.tile n).reqs = (s.die.tile n).reqs ++ (l.filter (fun p => tileReqOk op (s.die.threadClass n th) p.1 p.2)).map (fun p =>
      { cls := s.die.reqClass n th op, thread := th, tag := descTag c, addr := p.1, len := p.2, owner := e.id })

theorem asksFirst_of_lines (hexec : ∀ s, exec i s = opCmd op n c (fun d => d.runFetch n th c asks f) s)
    (hc : s.die.runsClean n th c = true) (hop : descOp c = op) (he : s.die.runnable n th c = some e) (ha : e.asked = false)
    {l : List (Nat × Nat)} (hasks : asks s.die { t := n, th := th, c := c } = l)
    (hl : l.filter (fun p => tileReqOk op (s.die.threadClass n th) p.1 p.2) ≠ []) : AsksFirst i op n th c l e s := by
  subst hop hasks
  refine ⟨_, exec_opCmd hexec hc rfl, rfl, rfl, ?_⟩
  dsimp only
  rw [Die.runFetch_asks he ha hl]
  unfold Die.modExec
  exact ⟨rfl, SameMem.refl _, by rw [Die.tile_modTile_same, Die.tile_modTile_same]; rfl⟩

/-- A descriptor whose lines are back is carried out as its operation. -/
theorem exec_fetched (hexec : ∀ s, exec i s = opCmd op n c (fun d => d.runFetch n th c asks f) s)
    (hc : s.die.runsClean n th c = true) (hop : descOp c = op) (he : s.die.runnable n th c = some e)
    {l : List (Nat × Nat)} (hasks : asks s.die { t := n, th := th, c := c } = l)
    (h : e.asked = true ∨ l.filter (fun p => tileReqOk op (s.die.threadClass n th) p.1 p.2) = []) :
    exec i s = .next { s with die := s.die.runOp n th c f } := by
  subst hop hasks
  rw [exec_opCmd hexec hc rfl, Die.runFetch_runs he h]

/-! ### Running -/

/-- An operation that drains and leaves the executing descriptors as they were has been carried out; memory is as it left it. -/
theorem ran_of_execs {r : Done} (hexec : exec i s = .next { s with die := s.die.runOp n th c f })
    (hc : s.die.runsClean n th c = true) (he : s.die.runnable n th c = some e) (hr : f (s.die.begun n e) (e.cur n) e = r)
    (hx : (r.d.tile n).execs = (s.die.tile n).execs) (hd : r.drained = true) :
    ∃ t : State, exec i s = .next t ∧ t.pending = s.pending ∧ t.carrier = s.carrier ∧ Ran n th c t.die ∧ SameMem r.d t.die := by
  obtain ⟨⟨y, hy, hyth, hyc, hyran, -⟩, -, -, hmem⟩ := Die.runOp_of_clean hc he hr hx
  exact ⟨_, hexec, rfl, rfl, ⟨y, hy, hyth, hyc, hyran.trans hd⟩, hmem⟩

/-- An operation whose work stays in the first `L` bytes of its destination. -/
theorem ran_of_worksIn {L : Nat} (hexec : exec i s = .next { s with die := s.die.runOp n th c f })
    (hc : s.die.runsClean n th c = true)
    (hf : ∀ u d e, u.c = c → WorksIn u L d (f d u e).d ∧ (f d u e).drained = true) :
    ∃ t : State, exec i s = .next t ∧ t.pending = s.pending ∧ t.carrier = s.carrier ∧ Ran n th c t.die ∧
      SameMemBut (s.die.opAt n c.d) L s.die t.die := by
  obtain ⟨-, -, ⟨e, he⟩, -⟩ := Die.runsClean_spec hc
  obtain ⟨-, -, hdesc⟩ := Die.runnable_spec he
  obtain ⟨hworks, hdrained⟩ := hf (e.cur n) (s.die.begun n e) e hdesc
  have hbegun : WorksIn (e.cur n) L s.die (s.die.begun n e) := (s.die.begun_own n e).worksIn
  have hall := hbegun.trans hworks
  obtain ⟨t, hexec, hp, hcar, hran, hmem⟩ := ran_of_execs hexec hc he rfl hall.execs hdrained
  refine ⟨t, hexec, hp, hcar, hran, fun a ha => (hmem a).trans (hall.mem a ?_)⟩
  unfold Die.dstAt Exec.cur
  rw [hdesc]
  exact ha

end

end Sys2Proof.Machine
end

section
/-! PROOFS. The work of OUTLIER, EXACT, CORR_Z, CORR_B and LOAD_INPUT stays in their destination (R138, R140, R142, R151, R159,
R192). -/
namespace Sys2Proof.Machine

variable {u : Cur} {i : Nat} (d : Die)

/-! ### Reads from DRAM -/

theorem Die.dramRead_notes (a n : Nat) : Notes u.t d (d.dramRead u a n).1 := by
  unfold Die.dramRead
  split
  · exact d.tileFault_notes _ _ _ _ _ _ _
  · split
    · exact Notes.refl _ _
    · exact Notes.refl _ _

theorem Die.goldRows_notes (page : Nat) (l : List (Nat × Word)) : Notes u.t d (d.goldRows u page l).1 := by
  unfold Die.goldRows
  exact List.foldlRecOn (motive := fun r : Die × Option (List (Word × List Byte)) => Notes u.t d r.1) _ _ (Notes.refl u.t d)
    fun r hr p _ => hr.trans (r.1.dramRead_notes _ _)

/-! ### OUTLIER and EXACT -/

/-- The golden rows that unit `i` of an OUTLIER works on. -/
def Die.outlierRows (d : Die) (u : Cur) (i : Nat) : Die × Option (List (Word × List Byte)) :=
  let p := d.engRead u u.c.a (1024 * i) 1024
  let b := p.1.modTile u.t (fun x => { x with noOutl := dropPick (fun y => y == bits (descP0 u.c) 8 8 + i) x.noOutl })
  match p.2 with
  | some y => if bit (leAt y 518 2) 0 then (b, none) else b.goldRows u (goldenOf u.c i) (keptOf y (p.1.capacityAt u i))
  | none => (b, none)

/-- The outlier sums of unit `i` are written, or poison in their place. -/
def Die.outlierPut (d : Die) (u : Cur) (i : Nat) (rows : Option (List (Word × List Byte))) : Die × Bool :=
  match rows with
  | none => (d.engWrite u u.c.d (2048 * i) (wordsBytes (List.replicate 256 fpPoison)), true)
  | some l =>
    let o := (d.countReserved u.t (l.map (fun q => reservedCodes q.2)).sum).engOut u.t (l.any (fun q => fpBad q.1))
      ((List.range 256).map (outlierSum l))
    (o.1.engWrite u u.c.d (2048 * i) (wordsBytes o.2.1), o.2.2)

theorem Die.outlierUnit_eq : d.outlierUnit u i = (d.outlierRows u i).1.outlierPut u i (d.outlierRows u i).2 := rfl

theorem Die.outlierRows_worksIn {L : Nat} : WorksIn u L d (d.outlierRows u i).1 := by
  have hown := (d.engRead_worksIn (u := u) (L := L) u.c.a (1024 * i) 1024).trans ((Die.modTile_own _ (n := u.t)
    (fun x => { x with noOutl := dropPick (fun y => y == bits (descP0 u.c) 8 8 + i) x.noOutl }) rfl).worksIn)
  unfold Die.outlierRows
  dsimp only
  split
  · split
    · exact hown
    · exact hown.trans (Die.goldRows_notes _ _ _).worksIn
  · exact hown

theorem Die.outlierPut_worksIn {n : Nat} (hi : i < n) (rows : Option (List (Word × List Byte))) :
    WorksIn u (2048 * n) d (d.outlierPut u i rows).1 := by
  cases rows with
  | none => exact d.engWrite_unit hi (by rw [wordsBytes_length, List.length_replicate]; omega)
  | some l => exact (d.countReserved_notes _ _).worksIn.trans (Die.engOut_unit _ _ hi (by simp))

theorem Die.outlierUnit_worksIn {n : Nat} (hi : i < n) : WorksIn u (2048 * n) d (d.outlierUnit u i).1 := by
  rw [Die.outlierUnit_eq]
  exact (d.outlierRows_worksIn).trans (Die.outlierPut_worksIn _ hi _)

/-- The ideal values of unit `i` of an EXACT stand in the second half of its unit. -/
theorem Die.engWrite_exact {n : Nat} (hi : i < n) {l : List Word} (hl : l.length = 256) :
    WorksIn u (2048 * n) d (d.engWrite u u.c.d (2048 * i + 1024) (wordsBytes l)) :=
  d.engWrite_worksIn (by rw [wordsBytes_length, hl]; omega)

theorem Die.exactUnit_worksIn {n : Nat} (hi : i < n) : WorksIn u (2048 * n) d (d.exactUnit u i).1 := by
  have hread := (d.engRead_worksIn (u := u) (L := 2048 * n) u.c.a (1024 * i) 1024).trans
    (Die.dramRead_notes (u := u) _ (goldenOf u.c i) 65536).worksIn
  unfold Die.exactUnit
  dsimp only
  split
  · split
    · exact hread.trans (Die.engWrite_exact _ hi List.length_replicate)
    · exact (hread.trans (Die.countReserved_notes _ _ _).worksIn).trans (Die.engWrite_exact _ hi (by simp))
  · exact hread.trans (Die.engWrite_exact _ hi List.length_replicate)

/-! ### CORR_Z and CORR_B -/

theorem Die.factor_notes (off blocks : Nat) : Notes u.t d (d.factor u off blocks).1 := by
  have hread : Notes u.t d (if bit (descP0 u.c) 0 then d.engRead u u.c.x off (panelsBytes blocks 32 32)
      else d.dramRead u (unitAddr (descP1 u.c) + off) (panelsBytes blocks 32 32)).1 := by
    split
    · exact d.engRead_notes _ _ _ _
    · exact d.dramRead_notes _ _
  unfold Die.factor
  dsimp only
  split
  · exact hread
  · exact hread.trans (Die.countPoisoned_notes _ _ _)

/-- Results formed one after the other: each is noted, and there is one for each. -/
theorem Notes.results {t : Nat} {g : Die × List Word × Bool → Nat → Die × List Word × Bool}
    (h : ∀ a j, Notes t a.1 (g a j).1 ∧ (g a j).2.1.length = a.2.1.length + 1) (n : Nat) :
    Notes t d ((List.range n).foldl g (d, [], false)).1 ∧ ((List.range n).foldl g (d, [], false)).2.1.length = n := by
  induction n with
  | zero => exact ⟨Notes.refl t d, rfl⟩
  | succ k ih =>
    rw [List.range_succ, List.foldl_append]
    obtain ⟨hnotes, hlen⟩ := h ((List.range k).foldl g (d, [], false)) k
    exact ⟨ih.1.trans hnotes, hlen.trans (by rw [ih.2])⟩

/-- One result more. -/
theorem Die.engOut_append (t : Nat) (tainted : Bool) (w : Word) (l : List Word) :
    Notes t d (d.engOut t tainted [w]).1 ∧ (l ++ (d.engOut t tainted [w]).2.1).length = l.length + 1 := by
  obtain ⟨hnotes, hlen⟩ := d.engOut_effect t tainted [w]
  exact ⟨hnotes, by rw [List.length_append, hlen, List.length_singleton]⟩

theorem Die.corrZ_worksIn : WorksIn u (4 * bits (descP0 u.c) 9 7) d (d.corrZ u).d ∧ (d.corrZ u).drained = true := by
  obtain ⟨r, hr⟩ : ∃ r, (List.range (descCount u.c)).foldl (fun (a : Die × List Word) i =>
    let p := a.1.engRead u u.c.a (2048 * i) 2048
    (p.1, a.2 ++ wordsIn p.2 512)) (d, []) = r := ⟨_, rfl⟩
  have hread : Notes u.t d r.1 := by
    subst hr
    exact List.foldlRecOn (motive := fun r : Die × List Word => Notes u.t d r.1) _ _ (Notes.refl u.t d)
      fun a ha i _ => ha.trans (a.1.engRead_notes _ _ _ _)
  unfold Die.corrZ
  dsimp only
  rw [hr]
  obtain ⟨hz, hlen⟩ := Notes.results r.1 (t := u.t) (g := fun (a : Die × List Word × Bool) t =>
    let f := a.1.factor u (t * panelsBytes (16 * descCount u.c) 32 32) (16 * descCount u.c)
    let o := f.1.engOut u.t (r.2.any fpBad || f.2.any fpBad) [dotFrom 0 (r.2.zip f.2)]
    (o.1, a.2.1 ++ o.2.1, a.2.2 || o.2.2)) (fun a j =>
      ⟨(a.1.factor_notes _ _).trans (Die.engOut_append _ _ _ _ a.2.1).1, (Die.engOut_append _ _ _ _ a.2.1).2⟩)
    (bits (descP0 u.c) 9 7)
  exact ⟨(hread.trans hz).worksIn.trans (Die.engWrite_worksIn _ (by rw [wordsBytes_length, hlen]; omega)), rfl⟩

theorem Die.corrB_worksIn : WorksIn u (4 * descCount u.c) d (d.corrB u).d ∧ (d.corrB u).drained = true := by
  obtain ⟨p, hp⟩ : ∃ p, d.engRead u u.c.a 0 (4 * bits (descP0 u.c) 9 7) = p := ⟨_, rfl⟩
  obtain ⟨f, hf⟩ : ∃ f, (List.range (bits (descP0 u.c) 9 7)).foldl (fun (a : Die × List (List Word)) t =>
    let q := a.1.factor u (t * panelsBytes ((descCount u.c + 31) / 32) 32 32) ((descCount u.c + 31) / 32)
    (q.1, a.2 ++ [q.2])) (p.1, []) = f := ⟨_, rfl⟩
  have hread : Notes u.t d p.1 := hp ▸ d.engRead_notes _ _ _ _
  have hfactor : Notes u.t p.1 f.1 := by
    subst hf
    exact List.foldlRecOn (motive := fun r : Die × List (List Word) => Notes u.t p.1 r.1) _ _ (Notes.refl u.t p.1)
      fun a ha t _ => ha.trans (a.1.factor_notes _ _)
  unfold Die.corrB
  dsimp only
  rw [hp, hf]
  obtain ⟨hb, hlen⟩ := Notes.results f.1 (t := u.t) (g := fun (a : Die × List Word × Bool) j =>
    let col := f.2.map (fun v => v.getD j 0)
    let o := a.1.engOut u.t ((wordsIn p.2 (bits (descP0 u.c) 9 7)).any fpBad || col.any fpBad)
      [dotFrom 0 ((wordsIn p.2 (bits (descP0 u.c) 9 7)).zip col)]
    (o.1, a.2.1 ++ o.2.1, a.2.2 || o.2.2)) (fun a j => Die.engOut_append _ _ _ _ a.2.1) (descCount u.c)
  exact ⟨((hread.trans hfactor).trans hb).worksIn.trans (Die.engWrite_worksIn _ (by rw [wordsBytes_length, hlen]; omega)), rfl⟩

/-! ### LOAD_INPUT -/

theorem length_flatten_map {α β : Type} {g : α → List β} {m : Nat} (h : ∀ a, (g a).length = m) (l : List α) :
    (l.map g).flatten.length = m * l.length := by
  induction l with
  | nil => rfl
  | cons a r ih => rw [List.map_cons, List.flatten_cons, List.length_append, ih, h, List.length_cons, Nat.mul_succ, Nat.add_comm]

/-- An entry of the ranking takes eight bytes, present or not. -/
theorem CodeBlock.bytes_length (b : CodeBlock) : b.bytes.length = 1024 := by
  unfold CodeBlock.bytes
  simp only [List.length_append, natLe_length, zeros, List.length_replicate, List.length_map, List.length_range]
  rw [length_flatten_map (m := 8) (fun k => by split <;> simp [natLe_length])]
  simp only [List.length_range]

theorem Die.loadInputUnit_worksIn {n : Nat} (hi : i < n) : WorksIn u (1024 * n) d (d.loadInputUnit u i).1 :=
  (d.engRead_worksIn u.c.a _ _).trans (Die.engWrite_unit _ hi (CodeBlock.bytes_length _).le)

end Sys2Proof.Machine
end

section
/-! PROOFS. ATTN works in its destination and in the running state at X (R191, R338). -/
namespace Sys2Proof.Machine

/-! ### Work that leaves given bytes alone -/

/-- Work for the descriptor `u` leaves the executing descriptors, the tile's tables, the key/value storage and every byte at an
address of `P`. -/
structure Leaves (u : Cur) (P : Nat → Prop) (d e : Die) : Prop where
  execs : (e.tile u.t).execs = (d.tile u.t).execs
  tables : ∀ a, tileAddr u.t + 0x810000 ≤ a → a < tileAddr u.t + 0x900000 → e.getW a = d.getW a
  kv : e.serve.kv = d.serve.kv
  mem : ∀ a, P a → e.byteAt a = d.byteAt a

variable {u : Cur} {P : Nat → Prop} {d e f : Die} {i : Nat}

theorem WorksIn.leaves {L : Nat} (h : WorksIn u L d e) (hP : ∀ a, P a → a < d.dstAt u ∨ d.dstAt u + L ≤ a) : Leaves u P d e :=
  ⟨h.execs, h.tables, h.kv, fun a ha => h.mem a (hP a ha)⟩

theorem Leaves.refl (u : Cur) (P : Nat → Prop) (d : Die) : Leaves u P d d := ⟨rfl, fun _ _ _ => rfl, rfl, fun _ _ => rfl⟩

theorem Leaves.trans (h : Leaves u P d e) (k : Leaves u P e f) : Leaves u P d f :=
  ⟨k.execs.trans h.execs, fun a h1 h2 => (k.tables a h1 h2).trans (h.tables a h1 h2), k.kv.trans h.kv,
    fun a ha => (k.mem a ha).trans (h.mem a ha)⟩

theorem Notes.leaves (h : Notes u.t d e) : Leaves u P d e := ⟨by rw [h.work.tile], h.tables, h.work.kv, fun a _ => h.work.mem a⟩

theorem Leaves.rgnAddr (h : Leaves u P d e) (w : Word) (off : Nat) :
    e.rgnAddr u.t (opRgn w) off = d.rgnAddr u.t (opRgn w) off := by
  have hlt : opRgn w < 256 := Nat.mod_lt _ (by decide)
  unfold Die.rgnAddr Die.rgnOff Die.get
  rw [h.tables _ (by unfold Reg.ENG_RGN_BASE_BASE Reg.ENG_RGN_BASE; dsimp only; omega)
    (by unfold Reg.ENG_RGN_BASE_BASE Reg.ENG_RGN_BASE; dsimp only; omega)]

theorem Leaves.kvShape (h : Leaves u P d e) (t : Nat) (w : Word) : e.kvShape t w = d.kvShape t w := by
  unfold Die.kvShape Die.kvPart
  rw [h.kv]

/-- No byte of `P` lies in the first `L` bytes of an operand. -/
def Die.Spared (d : Die) (u : Cur) (P : Nat → Prop) (w : Word) (L : Nat) : Prop :=
  ∀ a, P a → a < d.rgnAddr u.t (opRgn w) (opOff w) ∨ d.rgnAddr u.t (opRgn w) (opOff w) + L ≤ a

theorem Leaves.spared (h : Leaves u P d e) {w : Word} {L : Nat} (hs : d.Spared u P w L) : e.Spared u P w L := by
  unfold Die.Spared
  rw [h.rgnAddr]
  exact hs

/-- A write into unit `i` of `n` units of an operand. -/
theorem Die.engWrite_leaves {w : Word} {sz n : Nat} (hs : d.Spared u P w (sz * n)) {bs : List Byte} (hi : i < n)
    (hl : bs.length ≤ sz) : Leaves u P d (d.engWrite u w (sz * i) bs) := by
  have hend : sz * i + bs.length ≤ sz * n := calc
    sz * i + bs.length ≤ sz * i + sz := Nat.add_le_add_left hl _
    _ = sz * (i + 1) := (Nat.mul_succ _ _).symm
    _ ≤ sz * n := Nat.mul_le_mul_left _ hi
  unfold Die.engWrite
  dsimp only
  split
  · exact Leaves.refl u P d
  · split
    · exact (d.tileFault_notes _ _ _ _ _ _ _).leaves
    · have haddr : d.rgnAddr u.t (opRgn w) (opOff w + sz * i) = d.rgnAddr u.t (opRgn w) (opOff w) + sz * i := by
        unfold Die.rgnAddr; omega
      rw [haddr]
      refine ⟨by rw [Die.setBytes_tile], fun a _ _ => by rw [Die.setBytes_getW], by rw [Die.setBytes_serve], fun a ha => ?_⟩
      exact d.byteAt_setBytes_out bs _ a (by have := hs a ha; omega)

theorem Die.units_leaves {n : Nat} {g : Die → Nat → Die × Bool} (h : ∀ e i, i < n → Leaves u P d e → Leaves u P e (g e i).1) :
    Leaves u P d (d.units n g).d ∧ (d.units n g).drained = true :=
  List.foldlRecOn (motive := fun r : Done => Leaves u P d r.d ∧ r.drained = true) _ _ ⟨Leaves.refl u P d, rfl⟩
    fun r hr i hi => ⟨hr.1.trans (h r.d i (List.mem_range.1 hi) hr.1), rfl⟩

/-! ### The pages of a context -/

theorem Die.pageOf_notes (d : Die) (k : Nat) : Notes u.t d (d.pageOf u k).1 := d.engRead_notes _ _ _ _

/-- One page of a context is read, and what it holds is counted. -/
theorem Die.attnRead_notes (d : Die) : Notes u.t d (d.attnRead u).1 := by
  unfold Die.attnRead
  dsimp only
  have hhead : Notes u.t d (d.pageHead u).1 := d.engRead_notes _ _ _ _
  split
  · exact hhead
  · refine List.foldlRecOn (motive := fun r : Die × Bool × List Word => Notes u.t d r.1) _ _ hhead fun r hr k _ => ?_
    have hpage : ∀ p : Prop, ∀ [Decidable p], Notes u.t d (if p then (r.1, none) else r.1.pageOf u k).1 := by
      intro p _
      split
      · exact hr
      · exact hr.trans (r.1.pageOf_notes k)
    split
    · exact hpage _
    · split
      · exact (hpage _).trans (Die.dramRead_notes _ _ _)
      · exact (((hpage _).trans (Die.dramRead_notes _ _ _)).trans (Die.countReserved_notes _ _ _)).trans
          (Die.countPoisoned_notes _ _ _)

/-- A unit of ATTN's running state (in units of `sx` bytes) and of its output (in units of `sd`) are formed and written. -/
theorem Die.attnOut_leaves {sx sd n : Nat} (bad : Bool) {l m : List Word} (hi : i < n) (hl : 4 * l.length ≤ sx) (hm : 4 * m.length ≤ sd)
    (hx : d.Spared u P u.c.x (sx * n)) (hd : d.Spared u P u.c.d (sd * n)) :
    Leaves u P d ((((d.engOut u.t bad l).1.engOut u.t bad m).1.engWrite u u.c.x (sx * i)
      (wordsBytes (d.engOut u.t bad l).2.1)).engWrite u u.c.d (sd * i) (wordsBytes ((d.engOut u.t bad l).1.engOut u.t bad m).2.1)) := by
  obtain ⟨hstate, hslen⟩ := d.engOut_effect u.t bad l
  obtain ⟨hout, holen⟩ := (d.engOut u.t bad l).1.engOut_effect u.t bad m
  have hformed : Leaves u P d ((d.engOut u.t bad l).1.engOut u.t bad m).1 := (hstate.trans hout).leaves
  have hwritten := hformed.trans (Die.engWrite_leaves (hformed.spared hx) hi (by rw [wordsBytes_length, hslen]; exact hl))
  exact hwritten.trans (Die.engWrite_leaves (hwritten.spared hd) hi (by rw [wordsBytes_length, holen]; exact hm))

/-- A unit of ATTN works in its unit of the running state and of the output, for `h` heads. -/
theorem Die.attnUnit_leaves {h q dim n : Nat} (hh : (d.kvShape u.t u.c.b).1 = h) (hq : bits (descP0 u.c) 8 8 = q)
    (hdim : (if bit (descP0 u.c) 1 then 128 else 64) = dim) (hi : i < n) (hx : d.Spared u P u.c.x (8 * h * q * n))
    (hd : d.Spared u P u.c.d (4 * (h * q * dim) * n)) : Leaves u P d (d.attnUnit u i).1 := by
  have hread : Leaves u P d ((d.engRead u u.c.a (2 * (h * q * dim) * i) (2 * (h * q * dim))).1.engRead u u.c.x (8 * h * q * i)
      (8 * h * q)).1 := ((d.engRead_notes u _ _ _).trans (Die.engRead_notes _ u _ _ _)).leaves
  have hpages := hread.trans (Die.attnRead_notes _).leaves
  unfold Die.attnUnit
  dsimp only
  rw [hh, hq, hdim]
  refine hpages.trans (Die.attnOut_leaves _ hi ?_ ?_ (hpages.spared hx) (hpages.spared hd))
  · rw [List.length_map, List.length_range, ← Nat.mul_assoc, ← Nat.mul_assoc]
  · rw [List.length_map, List.length_range]

end Sys2Proof.Machine
end

section
/-! PROOFS. A fetching descriptor whose lines are back runs, and writes in its destination alone (R138, R151, R159, R191, R338). -/
namespace Sys2Proof.Machine

variable {i : Instr} {op n th : Nat} {c : Desc} {s : State} {e : Exec} {L : Nat} {f : Die → Cur → Exec → Done}

/-- The operations that fetch and then write. -/
def fetchingOps : List Nat := [ocOutlier, ocExact, ocCorrZ, ocCorrB, ocAttn]

theorem operandsOk_of_clean (hc : s.die.runsClean n th c = true) : operandsOk c = true := by
  obtain ⟨-, -, -, hm, -⟩ := Die.runsClean_spec hc
  simp only [malformed, Bool.or_eq_false_iff, Bool.not_eq_false'] at hm
  exact hm.1.2

/-- A clean descriptor of an operation that fetches and writes names its destination (R190). -/
theorem hasOp_dst_of_fetching (hc : s.die.runsClean n th c = true) (hw : descOp c ∈ fetchingOps) : hasOp c.d = true := by
  have hok := operandsOk_of_clean hc
  simp only [fetchingOps, List.mem_cons, List.not_mem_nil, or_false] at hw
  rcases hw with h | h | h | h | h
  all_goals
    simp only [operandsOk, h, needs, ocOutlier, ocExact, ocCorrZ, ocCorrB, ocAttn, Bool.and_eq_true] at hok
    simp only [hok]

/-- A clean ATTN names its running state (R190). -/
theorem hasOp_state_of_attn (hc : s.die.runsClean n th c = true) (hop : descOp c = ocAttn) : hasOp c.x = true := by
  have hok := operandsOk_of_clean hc
  simp only [operandsOk, hop, needs, ocAttn, Bool.and_eq_true] at hok
  simp only [hok]

theorem mem_span {w : Word} (h : hasOp w = true) (L : Nat) : (⟨opRgn w, opOff w, L⟩ : Span) ∈ span w L := by
  rw [span, if_pos h]
  exact List.mem_singleton_self _

theorem runsInside_of_worksIn (hexec : exec i s = .next { s with die := s.die.runOp n th c f })
    (hc : s.die.runsClean n th c = true) (hw : descOp c ∈ fetchingOps) (hspan : s.die.dstSpans n c = span c.d L)
    (hf : ∀ u d e, u.c = c → WorksIn u L d (f d u e).d ∧ (f d u e).drained = true) : RunsInside i n th c s := by
  obtain ⟨t, hexec, hp, hcar, hran, hmem⟩ := ran_of_worksIn hexec hc hf
  refine ⟨t, hexec, hp, hcar, hran, fun a ha => hmem a (ha ⟨opRgn c.d, opOff c.d, L⟩ ?_)⟩
  rw [hspan]
  exact mem_span (hasOp_dst_of_fetching hc hw) L

theorem outlier_runsInside (hc : s.die.runsClean n th c = true) (hop : descOp c = ocOutlier)
    (he : s.die.runnable n th c = some e) (h : e.asked = true ∨ (s.die.outlierAsks { t := n, th := th, c := c }).filter
      (fun p => tileReqOk ocOutlier (s.die.threadClass n th) p.1 p.2) = []) : RunsInside (.outlier n th c) n th c s :=
  runsInside_of_worksIn (L := 2048 * descCount c)
    (exec_fetched (op := ocOutlier) (asks := fun d u => d.outlierAsks u) (fun _ => rfl) hc hop he rfl h)
    hc (by rw [hop]; decide) (by rw [Die.dstSpans, hop]; rfl) fun _ d _ _ => Die.units_worksIn (fun e _ hi => e.outlierUnit_worksIn hi) d

theorem exact_runsInside (hc : s.die.runsClean n th c = true) (hop : descOp c = ocExact)
    (he : s.die.runnable n th c = some e) (h : e.asked = true ∨ (exactAsks c).filter
      (fun p => tileReqOk ocExact (s.die.threadClass n th) p.1 p.2) = []) : RunsInside (.exact n th c) n th c s :=
  runsInside_of_worksIn (L := 2048 * descCount c)
    (exec_fetched (op := ocExact) (asks := fun _ _ => exactAsks c) (fun _ => rfl) hc hop he rfl h)
    hc (by rw [hop]; decide) (by rw [Die.dstSpans, hop]; rfl) fun _ d _ _ => Die.units_worksIn (fun e _ hi => e.exactUnit_worksIn hi) d

theorem corrZ_runsInside (hc : s.die.runsClean n th c = true) (hop : descOp c = ocCorrZ)
    (he : s.die.runnable n th c = some e)
    (h : e.asked = true ∨ (factorAsks c (bits (descP0 c) 9 7 * panelsBytes (16 * descCount c) 32 32)).filter
      (fun p => tileReqOk ocCorrZ (s.die.threadClass n th) p.1 p.2) = []) : RunsInside (.corrZ n th c) n th c s :=
  runsInside_of_worksIn (L := 4 * bits (descP0 c) 9 7)
    (exec_fetched (op := ocCorrZ) (asks := fun _ _ => factorAsks c (bits (descP0 c) 9 7 * panelsBytes (16 * descCount c) 32 32))
      (f := fun d u _ => d.corrZ u) (fun _ => rfl) hc hop he rfl h)
    hc (by rw [hop]; decide) (by rw [Die.dstSpans, hop]; rfl) fun _ d _ hu => hu ▸ d.corrZ_worksIn

theorem corrB_runsInside (hc : s.die.runsClean n th c = true) (hop : descOp c = ocCorrB)
    (he : s.die.runnable n th c = some e)
    (h : e.asked = true ∨ (factorAsks c (bits (descP0 c) 9 7 * panelsBytes ((descCount c + 31) / 32) 32 32)).filter
      (fun p => tileReqOk ocCorrB (s.die.threadClass n th) p.1 p.2) = []) : RunsInside (.corrB n th c) n th c s :=
  runsInside_of_worksIn (L := 4 * descCount c)
    (exec_fetched (op := ocCorrB)
      (asks := fun _ _ => factorAsks c (bits (descP0 c) 9 7 * panelsBytes ((descCount c + 31) / 32) 32 32))
      (f := fun d u _ => d.corrB u) (fun _ => rfl) hc hop he rfl h)
    hc (by rw [hop]; decide) (by rw [Die.dstSpans, hop]; rfl) fun _ d _ hu => hu ▸ d.corrB_worksIn

/-! ### ATTN -/

/-- The bytes that a descriptor may not write: those in none of its destinations. -/
def Outside (d : Die) (n : Nat) (c : Desc) (a : Nat) : Prop :=
  ∀ x ∈ d.dstSpans n c, a < d.rgnAddr n x.rgn x.off ∨ d.rgnAddr n x.rgn x.off + x.len ≤ a

theorem dstSpans_attn (d : Die) (hop : descOp c = ocAttn) : d.dstSpans n c =
    span c.d (4 * (d.kvShape n c.b).1 * bits (descP0 c) 8 8 * (if bit (descP0 c) 1 then 128 else 64) * descCount c) ++
      span c.x (8 * (d.kvShape n c.b).1 * bits (descP0 c) 8 8 * descCount c) := by
  rw [Die.dstSpans, hop]
  rfl

theorem attn_runsInside (hc : s.die.runsClean n th c = true) (hop : descOp c = ocAttn)
    (he : s.die.runnable n th c = some e) (h : e.asked = true ∨ (s.die.attnAsks { t := n, th := th, c := c }).filter
      (fun p => tileReqOk ocAttn (s.die.threadClass n th) p.1 p.2) = []) : RunsInside (.attn n th c) n th c s := by
  obtain ⟨-, -, hdesc⟩ := Die.runnable_spec he
  have hcur : (e.cur n).c = c := hdesc
  have hspans := dstSpans_attn (n := n) s.die hop
  have hx : s.die.Spared (e.cur n) (Outside s.die n c) (e.cur n).c.x
      (8 * (s.die.kvShape n c.b).1 * bits (descP0 c) 8 8 * descCount c) := fun a ha => by
    rw [hcur]
    refine ha ⟨opRgn c.x, opOff c.x, _⟩ ?_
    rw [hspans]
    exact List.mem_append_right _ (mem_span (hasOp_state_of_attn hc hop) _)
  have hd : s.die.Spared (e.cur n) (Outside s.die n c) (e.cur n).c.d
      (4 * ((s.die.kvShape n c.b).1 * bits (descP0 c) 8 8 * (if bit (descP0 c) 1 then 128 else 64)) * descCount c) := fun a ha => by
    rw [hcur, ← Nat.mul_assoc, ← Nat.mul_assoc]
    refine ha ⟨opRgn c.d, opOff c.d, _⟩ ?_
    rw [hspans]
    exact List.mem_append_left _ (mem_span (hasOp_dst_of_fetching hc (by rw [hop]; decide)) _)
  have hbegun : Leaves (e.cur n) (Outside s.die n c) s.die (s.die.begun n e) :=
    ((s.die.begun_own n e).worksIn (u := e.cur n) (L := 0)).leaves fun a _ => by omega
  obtain ⟨hunits, hdrained⟩ := Die.units_leaves (u := e.cur n) (P := Outside s.die n c) (d := s.die.begun n e)
    (n := descCount c) (g := fun d i => d.attnUnit (e.cur n) i) fun d i hi hleaves => by
      have hall := hbegun.trans hleaves
      refine Die.attnUnit_leaves (h := (s.die.kvShape n c.b).1) ?_ ?_ ?_ hi (hall.spared hx) (hall.spared hd)
      · rw [hall.kvShape, hcur]; rfl
      · rw [hcur]
      · rw [hcur]
  obtain ⟨t, hexec, hp, hcar, hran, hmem⟩ := ran_of_execs
    (exec_fetched (i := .attn n th c) (op := ocAttn) (asks := fun d u => d.attnAsks u)
      (f := fun d u _ => d.units (descCount c) fun e i => e.attnUnit u i) (fun _ => rfl) hc hop he rfl h) hc he rfl
    (hbegun.trans hunits).execs hdrained
  exact ⟨t, hexec, hp, hcar, hran, fun a ha => (hmem a).trans ((hbegun.trans hunits).mem a ha)⟩

end Sys2Proof.Machine
end

section
/-! PROOFS. SOUND, its reports and what the firmware does after a failed item leave every executing descriptor (R309 to R312,
R317, R318, R322, R325). -/
namespace Sys2Proof.Machine

/-- Each tile's executing descriptors are as they were. -/
def SameExecs (d e : Die) : Prop := ∀ t, (e.tile t).execs = (d.tile t).execs

variable {d e f : Die}

theorem SameExecs.refl (d : Die) : SameExecs d d := fun _ => rfl

theorem SameExecs.trans (h : SameExecs d e) (k : SameExecs e f) : SameExecs d f := fun t => (k t).trans (h t)

theorem sameExecs_of_tiles (h : e.tiles = d.tiles) : SameExecs d e := fun t => by unfold Die.tile; rw [h]

theorem LogsOnly.sameExecs (h : LogsOnly d e) : SameExecs d e := sameExecs_of_tiles h.keepsWork.tiles

theorem Notes.sameExecs {n : Nat} (h : Notes n d e) : SameExecs d e := sameExecs_of_tiles h.work.tiles

theorem sameExecs_ite {p : Prop} [Decidable p] (h : SameExecs d e) (k : SameExecs d f) : SameExecs d (if p then e else f) := by
  split
  · exact h
  · exact k

theorem SameExecs.foldl {β : Type} {g : Die → β → Die} (hg : ∀ e x, SameExecs e (g e x)) (l : List β) (d : Die) :
    SameExecs d (l.foldl g d) :=
  List.foldlRecOn (motive := fun e => SameExecs d e) _ _ (SameExecs.refl d) fun e h x _ => h.trans (hg e x)

theorem Die.setTile_sameExecs (d : Die) (t : Nat) (x : Tile1) (h : x.execs = (d.tile t).execs) : SameExecs d (d.setTile t x) := by
  intro u
  by_cases hu : u = t
  · subst hu; rw [Die.tile_setTile_same, h]
  · rw [Die.tile_setTile_ne d x hu]

/-! ### Reports (R318 to R320) -/

theorem Die.trigger_sameExecs (d : Die) (src : Nat) : SameExecs d (d.trigger src) := by
  have hon : ∀ (e : Die) (c : Nat), SameExecs e (e.triggerOn c src) := fun e c =>
    sameExecs_of_tiles (by rw [Die.triggerOn_eq])
  exact (hon d 0).trans (hon _ 1)

theorem Die.sendReport_sameExecs (d : Die) (bs : List Byte) : SameExecs d (d.sendReport bs) := by
  unfold Die.sendReport
  dsimp only
  refine sameExecs_ite (SameExecs.trans (sameExecs_of_tiles ?_) (Die.eventAll_logsOnly _ _ _).sameExecs) (sameExecs_of_tiles ?_)
  · rfl
  · rfl

theorem Die.finishHang_sameExecs (d : Die) (diode core : Nat) : SameExecs d (d.finishHang diode core) := by
  unfold Die.finishHang
  split
  · exact SameExecs.refl d
  · exact sameExecs_of_tiles rfl

theorem Die.finishReports_sameExecs (d : Die) (diode core : Nat) : SameExecs d (d.finishReports diode core) := by
  unfold Die.finishReports
  dsimp only
  refine ((d.finishHang_sameExecs diode core).trans (sameExecs_of_tiles ?_)).trans
    (SameExecs.foldl (fun e bs => e.sendReport_sameExecs bs) _ _)
  rfl

theorem Die.report_sameExecs (d : Die) (r : Report) : SameExecs d (d.report r) := by
  unfold Die.report
  dsimp only
  have hkept : SameExecs d { d with upkeep := { d.upkeep with
      reports := (d.reportBytes r :: d.upkeep.reports).take 1024, unsent := min 1024 (d.upkeep.unsent + 1) } } :=
    sameExecs_of_tiles rfl
  refine sameExecs_ite (SameExecs.trans ?_ (Die.trigger_sameExecs _ _)) (SameExecs.trans ?_ (Die.finishReports_sameExecs _ _ _))
  · exact hkept.trans (Die.record_logsOnly _ _ _ _ _ _).sameExecs
  · exact hkept.trans (Die.record_logsOnly _ _ _ _ _ _).sameExecs

/-! ### Claims (R322, R325) -/

theorem Die.setEnable_sameExecs (d : Die) (t : Nat) (en : Bool) : SameExecs d (d.setEnable t en) := by
  unfold Die.setEnable
  split
  · split
    · exact d.setTile_sameExecs t _ rfl
    · exact sameExecs_of_tiles (Die.put_tiles _ _ _)
  · exact SameExecs.trans (sameExecs_of_tiles (Die.put_tiles _ _ _)) (Die.setTile_sameExecs _ t _ rfl)

theorem Die.enableAll_sameExecs (d : Die) (en : Bool) : SameExecs d (d.enableAll en) :=
  SameExecs.foldl (fun e t => e.setEnable_sameExecs t en) _ _

theorem Die.sendMarks_sameExecs (d : Die) (stop fault : Bool) (cause coord : Nat) :
    SameExecs d (d.sendMarks stop fault cause coord) :=
  SameExecs.foldl (fun e k => sameExecs_of_tiles (by unfold Die.sendMark; rw [Die.emit_tiles, Die.modLink_tiles])) _ _

theorem Die.faultStop_sameExecs (d : Die) (cause coord : Nat) : SameExecs d (d.faultStop cause coord) := by
  unfold Die.faultStop
  dsimp only
  split
  · refine ((SameExecs.trans (sameExecs_of_tiles ?_) (Die.sendMarks_sameExecs _ _ _ _ _)).trans
      (Die.record_logsOnly _ _ _ _ _ _).sameExecs).trans (Die.enableAll_sameExecs _ _)
    rfl
  · exact SameExecs.refl d

theorem Die.stopNowFw_sameExecs (d : Die) : SameExecs d d.stopNowFw := d.faultStop_sameExecs _ _

theorem Die.tellLink_sameExecs (d : Die) (k kind : Nat) (words : List Nat) : SameExecs d (d.tellLink k kind words) := by
  unfold Die.tellLink
  refine SameExecs.trans ?_ (logsOnly_emit _ _).sameExecs
  unfold Die.toLink
  split
  · exact SameExecs.foldl (fun e c => sameExecs_of_tiles (e := e.meshIn _) rfl) _ _
  · exact SameExecs.refl d

theorem Die.relayAborts_sameExecs (d : Die) : SameExecs d d.relayAborts := by
  have hup : SameExecs d (if d.relay.role = 1 ∧ d.relay.upLink < 6 then d.tellLink d.relay.upLink lmRelayAbort [] else d) := by
    split
    · exact d.tellLink_sameExecs _ _ _
    · exact SameExecs.refl d
  unfold Die.relayAborts
  dsimp only
  split
  · exact hup.trans (Die.tellLink_sameExecs _ _ _ _)
  · exact hup

theorem Die.relayFail_sameExecs (d : Die) (code : Nat) : SameExecs d (d.relayFail code) := by
  have hset : ∀ e : Die, e.tiles = d.tiles → SameExecs d (e.relayAborts.record 0x20 3 0xFF 0xFFFF [code, d.relay.missing.length]) :=
    fun e h => ((sameExecs_of_tiles h).trans e.relayAborts_sameExecs).trans (Die.record_logsOnly _ _ _ _ _ _).sameExecs
  unfold Die.relayFail
  dsimp only
  refine sameExecs_ite (SameExecs.trans ?_ (Die.eventAll_logsOnly _ _ _).sameExecs) ?_
  · exact hset _ rfl
  · exact hset _ rfl

theorem Die.exhausted_sameExecs (d : Die) (t l : Nat) (a : Option Nat) (kind : Nat) : SameExecs d (d.exhausted t l a kind) := by
  have hraise : SameExecs d (if kind = 8 then d.raise (Reg.TILE_SPARE_EXHAUSTED t) else d) :=
    sameExecs_ite (sameExecs_of_tiles (Die.put_tiles _ _ _)) (SameExecs.refl d)
  have hreport := fun r => hraise.trans (Die.report_sameExecs _ r)
  have hstop := fun r => (hreport r).trans (Die.stopNowFw_sameExecs _)
  have hrelay : ∀ e : Die, SameExecs d e → SameExecs d (if (e.relay.state = rsReceiving ∨ e.relay.state = rsProgramming) ∧
      kind = 8 ∧ (e.imageOf t l).isSome then e.relayFail 9 else e) := fun e h =>
    sameExecs_ite (h.trans (e.relayFail_sameExecs 9)) h
  unfold Die.exhausted
  dsimp only
  refine hrelay _ ?_
  cases a with
  | none => exact hstop _
  | some x =>
    have hdegraded : ∀ r h g v, SameExecs d ((((if kind = 8 then d.raise (Reg.TILE_SPARE_EXHAUSTED t) else d).report r).modCal
        t x h).put g v) := fun r h g v => (hreport r).trans (sameExecs_of_tiles (by rw [Die.put_tiles, Die.modCal_tiles]))
    exact sameExecs_ite (sameExecs_ite hraise (hdegraded _ _ _ _)) (hstop _)

theorem Die.dropSwap_sameExecs (d : Die) (t l : Nat) : SameExecs d (d.dropSwap t l) := by
  unfold Die.dropSwap
  dsimp only
  refine sameExecs_ite (sameExecs_of_tiles ?_) (SameExecs.refl d)
  rw [Die.put_tiles, Die.clear, Die.put_tiles]

theorem Die.takeSpare_sameExecs (d : Die) (c : Claim) (h : Nat) : SameExecs d (d.takeSpare c h) := by
  obtain ⟨e, he, htiles⟩ : ∃ e, d.takeSpare c h = (match d.upkeep.refreshes.find? (fun x => x.1 == c.tile && x.2.2 == h) with
      | none => e
      | some x =>
        if x.2.1 = c.logical then
          (if look e.mapPend (256 * c.tile + c.logical) = some .swap ∧ c.outgoing.isSome then
            { e with mapPend := keep e.mapPend (256 * c.tile + c.logical) .remap } else e)
        else (e.dropSwap c.tile x.2.1).dueFirst c.tile x.2.1) ∧ e.tiles = d.tiles := ⟨_, rfl, rfl⟩
  rw [he]
  refine (sameExecs_of_tiles htiles).trans ?_
  split
  · exact SameExecs.refl e
  · exact sameExecs_ite (sameExecs_ite (sameExecs_of_tiles rfl) (SameExecs.refl e))
      ((e.dropSwap_sameExecs _ _).trans (sameExecs_of_tiles rfl))

/-- Claims are served in turn: by a spare, or by the report that there is none. -/
theorem Die.serveClaims_sameExecs (d : Die) (l : List Claim) : SameExecs d (d.serveClaims l) := by
  induction l generalizing d with
  | nil => exact SameExecs.refl d
  | cons c r ih =>
    unfold Die.serveClaims
    dsimp only
    split
    · refine SameExecs.trans (SameExecs.trans ?_ (Die.exhausted_sameExecs _ _ _ _ _)) (ih _)
      split
      · refine SameExecs.trans (sameExecs_of_tiles ?_) (Die.report_sameExecs _ _)
        rfl
      · exact sameExecs_of_tiles rfl
    · split
      · exact ih d
      · exact ((d.takeSpare_sameExecs c _).trans (logsOnly_emit _ _).sameExecs).trans (ih _)

theorem Die.remapClaim_sameExecs (d : Die) (t l : Nat) (a repair : Option Nat) : SameExecs d (d.remapClaim t l a repair) := by
  unfold Die.remapClaim
  dsimp only
  refine SameExecs.trans (sameExecs_ite (sameExecs_of_tiles ?_) (sameExecs_of_tiles ?_)) (Die.serveClaims_sameExecs _ _)
  · rfl
  · rfl

/-! ### A failed item (R312) -/

theorem Die.unmapEntry_tiles (d : Die) (t l : Nat) : (d.unmapEntry t l).tiles = d.tiles := by
  unfold Die.unmapEntry
  dsimp only
  rw [Die.putW_tiles]

theorem Die.condemnArr_sameExecs (d : Die) (t a : Nat) : SameExecs d (d.condemnArr t a) := by
  unfold Die.condemnArr
  dsimp only
  refine sameExecs_of_tiles ?_
  rw [Die.modCal_tiles, Die.setArrState, Die.putW_tiles, Die.tick1_tiles, Die.modArr_tiles]
  split
  · exact d.unmapEntry_tiles t _
  · rfl

theorem Die.withhold_sameExecs (d : Die) (t a : Nat) : SameExecs d (d.withhold t a) := by
  unfold Die.withhold
  refine sameExecs_of_tiles ?_
  rfl

theorem Die.soundFailed_sameExecs (d : Die) (t a l : Nat) (r : Report) : SameExecs d (d.soundFailed t a l r) := by
  unfold Die.soundFailed
  dsimp only
  refine sameExecs_ite (d.report_sameExecs _) ?_
  split
  · have hreport : ∀ r, SameExecs d ((d.modCal t a (fun c => { c with condemned := true })).report r) := fun r =>
      SameExecs.trans (sameExecs_of_tiles (Die.modCal_tiles _ _ _ _)) (Die.report_sameExecs _ r)
    exact sameExecs_ite ((hreport _).trans (Die.remapClaim_sameExecs _ _ _ _ _)) ((hreport _).trans (Die.condemnArr_sameExecs _ _ _))
  · refine SameExecs.trans ?_ (Die.report_sameExecs _ _)
    have hwatch : ∀ f, SameExecs d ((d.put (Reg.SND_CFG_FRAC t a) (d.watchCode t a)).modCal t a f) := fun f =>
      sameExecs_of_tiles (by rw [Die.modCal_tiles, Die.put_tiles])
    exact sameExecs_ite ((hwatch _).trans (Die.withhold_sameExecs _ _ _)) (hwatch _)

/-! ### SOUND -/

theorem Die.engWrite_sameExecs (d : Die) (u : Cur) (w : Word) (off : Nat) (bs : List Byte) : SameExecs d (d.engWrite u w off bs) := by
  unfold Die.engWrite
  dsimp only
  refine sameExecs_ite (SameExecs.refl d) ?_
  split
  · exact (d.tileFault_notes _ _ _ _ _ _ _).sameExecs
  · exact sameExecs_of_tiles (Die.setBytes_tiles _ _ _)

theorem Die.ringAdvance_sameExecs (d : Die) (t n : Nat) : SameExecs d (d.ringAdvance t n) := by
  induction n generalizing d with
  | zero => exact SameExecs.refl d
  | succ k ih =>
    unfold Die.ringAdvance
    dsimp only
    refine sameExecs_ite (SameExecs.refl d) (SameExecs.trans ?_ (ih _))
    refine SameExecs.trans (e := d.setTile t _) ?_ (sameExecs_of_tiles (Die.put_tiles _ _ _))
    exact d.setTile_sameExecs t _ rfl

theorem Die.soundSkip_sameExecs (d : Die) (u : Cur) (phys : Nat) : SameExecs d (d.soundSkip u phys) :=
  (d.engWrite_sameExecs u u.c.a 693 [4]).trans ((logsOnly_bump _ _ _).trans (logsOnly_bump _ _ _)).sameExecs

theorem Die.soundStats_tiles (d : Die) (t : Nat) (x : SoundItem) : (d.soundStats t x).tiles = d.tiles := rfl

theorem Die.soundNoted_sameExecs (d : Die) (t a : Nat) (w : Word) :
    SameExecs d ((((d.bump (Reg.SND_TILE_FAIL_COUNT t) 1).bump (Reg.SND_FAIL_COUNT t a) 1).raise (Reg.SND_TILE_STATUS_FAIL t)).putW
      (Reg.SND_LAST t a) w) :=
  sameExecs_of_tiles (by rw [Die.putW_tiles, Die.raise, Die.put_tiles, Die.bump, Die.put_tiles, Die.bump, Die.put_tiles])

theorem Die.soundCompare_sameExecs (d : Die) (u : Cur) (x : SoundItem) (image : List Byte) :
    SameExecs d (d.soundCompare u x image) := by
  have hwrite : ∀ bs cs, SameExecs d ((d.engWrite u u.c.a 693 bs).engWrite u u.c.a 712 cs) := fun bs cs =>
    (d.engWrite_sameExecs u u.c.a 693 bs).trans (Die.engWrite_sameExecs _ u u.c.a 712 cs)
  have hcount : ∀ bs cs n, SameExecs d (((((d.engWrite u u.c.a 693 bs).engWrite u u.c.a 712 cs).bump
      (Reg.SND_TILE_DONE_COUNT u.t) 1).bump (Reg.SND_TILE_COL_EXCL_COUNT u.t) n).soundStats u.t x) := fun bs cs n =>
    (hwrite bs cs).trans (sameExecs_of_tiles (by rw [Die.soundStats_tiles, Die.bump, Die.put_tiles, Die.bump, Die.put_tiles]))
  unfold Die.soundCompare
  dsimp only
  refine sameExecs_ite (SameExecs.trans ?_ (Die.soundFailed_sameExecs _ _ _ _ _)) (hcount _ _ _)
  exact (hcount _ _ _).trans (Die.soundNoted_sameExecs _ _ _ _)

theorem Die.soundImage_sameExecs (d : Die) (u : Cur) (x : SoundItem) : SameExecs d (d.soundImage u x).1 := by
  unfold Die.soundImage
  dsimp only
  split
  · exact (d.tileFault_notes _ _ _ _ _ _ _).sameExecs
  · split
    · exact SameExecs.refl d
    · exact SameExecs.refl d

theorem Die.sound_sameExecs (d : Die) (u : Cur) : SameExecs d (d.sound u) := by
  have hread : SameExecs d (d.engRead u u.c.a 0 736).1 := (d.engRead_notes u u.c.a 0 736).sameExecs
  unfold Die.sound
  dsimp only
  split
  case h_1 => exact hread.trans (Die.ringAdvance_sameExecs _ _ _)
  case h_2 b _ =>
    refine SameExecs.trans ?_ (Die.ringAdvance_sameExecs _ _ _)
    refine SameExecs.trans (hread.trans (Die.soundImage_sameExecs _ u (soundItem b))) ?_
    split
    · exact Die.soundSkip_sameExecs _ _ _
    · exact Die.soundCompare_sameExecs _ _ _ _

/-- A SOUND whose golden sectors are back runs. -/
theorem sound_runs {n th : Nat} {c : Desc} {s : State} {e : Exec} (hc : s.die.runsClean n th c = true) (hop : descOp c = ocSound)
    (he : s.die.runnable n th c = some e) (h : e.asked = true ∨ (s.die.soundAsks { t := n, th := th, c := c }).filter
      (fun p => tileReqOk ocSound (s.die.threadClass n th) p.1 p.2) = []) :
    ∃ t : State, exec (.sound n th c) s = .next t ∧ t.pending = s.pending ∧ t.carrier = s.carrier ∧ Ran n th c t.die := by
  have hx : ((((s.die.begun n e).sound (e.cur n))).tile n).execs = (s.die.tile n).execs :=
    (((s.die.begun n e).sound_sameExecs (e.cur n)) n).trans (s.die.begun_own n e).execs
  obtain ⟨t, hexec, hp, hcar, hran, -⟩ := ran_of_execs (exec_fetched (i := .sound n th c) (op := ocSound)
    (asks := fun d u => d.soundAsks u) (f := fun d u _ => { d := d.sound u }) (fun _ => rfl) hc hop he rfl h) hc he rfl hx rfl
  exact ⟨t, hexec, hp, hcar, hran⟩

end Sys2Proof.Machine
end

section
/-! PROOFS. LOAD_INPUT converts its blocks; raw A4 codes out of range make it malformed (R138, R190, R192). -/
namespace Sys2Proof.Machine

section
variable {n th : Nat} {c : Desc} {s : State}

theorem exec_loadInput (hc : s.die.runsClean n th c = true) (hop : descOp c = ocLoadInput) :
    exec (.loadInput n th c) s = .next { s with die := s.die.loadInput n th c } :=
  exec_opCmd (op := ocLoadInput) (g := fun d => d.loadInput n th c) (fun _ => rfl) hc hop

/-- The blocks of a LOAD_INPUT, one after the other. -/
theorem Die.loadInput_of_good {d : Die} {e : Exec} (he : d.runnable n th c = some e) (hraw : d.rawBad n c = false) :
    d.loadInput n th c = d.runOp n th c (fun d u _ => d.units (descCount c) (fun e i => e.loadInputUnit u i)) := by
  unfold Die.loadInput
  rw [he]
  dsimp only
  rw [if_neg (by rw [hraw]; exact Bool.false_ne_true)]

theorem Die.loadInput_of_bad {d : Die} {e : Exec} (he : d.runnable n th c = some e) (hraw : d.rawBad n c = true) :
    d.loadInput n th c =
      ((d.modTile n (fun x => { x with execs := dropPick (fun y => y == e) x.execs })).malform n th c e.due).settleStop n := by
  unfold Die.loadInput
  rw [he]
  dsimp only
  rw [if_pos hraw]

theorem loadInput_runs (hc : s.die.runsClean n th c = true) (hop : descOp c = ocLoadInput) (hraw : s.die.rawBad n c = false) :
    ∃ t : State, exec (.loadInput n th c) s = .next t ∧ Ran n th c t.die ∧
      ∀ a, a < s.die.opAt n c.d ∨ s.die.opAt n c.d + 1024 * descCount c ≤ a → t.die.byteAt a = s.die.byteAt a := by
  obtain ⟨-, -, ⟨e, he⟩, -⟩ := Die.runsClean_spec hc
  have hexec := exec_loadInput hc hop
  rw [Die.loadInput_of_good he hraw] at hexec
  obtain ⟨t, ht, -, -, hran, hmem⟩ := ran_of_worksIn (L := 1024 * descCount c) hexec hc
    fun u d _ _ => Die.units_worksIn (fun e i hi => e.loadInputUnit_worksIn hi) d
  exact ⟨t, ht, hran, hmem⟩

end

/-! ### A malformed descriptor retires -/

/-- Memory is as before, and so is the bit that shows a malformed descriptor. -/
structure KeepsBad (t : Nat) (d e : Die) : Prop where
  mem : SameMem d e
  bad : e.get (Reg.ENG_STATUS_BAD_DESC t) = d.get (Reg.ENG_STATUS_BAD_DESC t)

variable {d e f : Die} {t : Nat}

theorem KeepsBad.refl (t : Nat) (d : Die) : KeepsBad t d d := ⟨SameMem.refl d, rfl⟩

theorem KeepsBad.trans (h : KeepsBad t d e) (k : KeepsBad t e f) : KeepsBad t d f :=
  ⟨fun a => (k.mem a).trans (h.mem a), k.bad.trans h.bad⟩

theorem OnlyRegs.keepsBad {rs : List Nat} (h : OnlyRegs rs d e) (hm : SameMem d e) (hr : Reg.ENG_STATUS t ∉ rs) : KeepsBad t d e :=
  ⟨hm, h.get hr⟩

theorem Die.modTile_keepsBad (d : Die) (k : Nat) (g : Tile1 → Tile1) : KeepsBad t d (d.modTile k g) :=
  ⟨fun a => Die.modTile_byteAt d k g a, Die.modTile_get d k g _⟩

theorem Die.putW_keepsBad (d : Die) {a : Nat} (w : Word) (h : a ≠ Reg.ENG_STATUS t) : KeepsBad t d (d.putW a w) :=
  (onlyRegs_putW d w (List.mem_singleton_self a)).keepsBad (fun _ => rfl) (by simpa using h.symm)

theorem Die.put_keepsBad (d : Die) {g : Fld} (v : Nat) (h : g.addr ≠ Reg.ENG_STATUS t) : KeepsBad t d (d.put g v) := d.putW_keepsBad _ h

/-- The bits of ENG_STATUS above it. -/
theorem Die.status_keepsBad (d : Die) {g : Fld} (v : Nat) (ha : g.addr = Reg.ENG_STATUS t) (hlo : 3 ≤ g.lo)
    (hf : g.lo + g.width ≤ 32) : KeepsBad t d (d.put g v) :=
  ⟨fun _ => rfl, d.get_put_field g _ v hf ha.symm (.inl hlo)⟩

theorem Die.record_keepsBad (d : Die) (src ev dom sub : Nat) (det : List Nat) : KeepsBad t d (d.record src ev dom sub det) :=
  (d.record_onlyRegs src ev dom sub det).keepsBad (d.record_logsOnly src ev dom sub det).sameMem fun h => by
    have := logRegs_lt_tileAddr h t
    unfold Reg.ENG_STATUS at this
    omega

theorem Die.markDst_keepsBad (d : Die) (k : Nat) (c : Desc) (p : Bool) : KeepsBad t d (d.markDst k c p) := by
  unfold Die.markDst
  split
  · exact d.modTile_keepsBad _ _
  · exact KeepsBad.refl t d

theorem Die.poolLate_keepsBad (d : Die) (due : Option Nat) (tag : Nat) : KeepsBad t d (d.poolLate t due tag) := by
  have hlate : KeepsBad t d ((d.bump ⟨Reg.ENG_LATE_CNT t, 0, 32⟩ 1).raise (Reg.ENG_STATUS_LATE t)) :=
    (d.put_keepsBad _ (by simp [Reg.ENG_LATE_CNT, Reg.ENG_STATUS])).trans
      (Die.status_keepsBad _ _ rfl (by simp [Reg.ENG_STATUS_LATE]) (by simp [Reg.ENG_STATUS_LATE]))
  unfold Die.poolLate
  split
  · exact KeepsBad.refl t d
  · split
    · exact KeepsBad.refl t d
    · dsimp only
      split
      · exact hlate
      · exact (hlate.trans (Die.modTile_keepsBad _ _ _)).trans (Die.record_keepsBad _ _ _ _ _ _)

theorem Die.countRetired_keepsBad (d : Die) : KeepsBad t d (d.countRetired t) :=
  (d.putW_keepsBad _ (by unfold Reg.ENG_DESC_RETIRED Reg.ENG_STATUS; omega)).trans
    (Die.putW_keepsBad _ _ (by unfold Reg.ENG_DESC_RETIRED Reg.ENG_STATUS; omega))

theorem Die.retired_keepsBad (d : Die) (th : Nat) (c : Desc) (due : Option Nat) : KeepsBad t d (d.retired t th c due) := by
  have hevent : KeepsBad t d (d.evtEvent t th c) := by
    unfold Die.evtEvent
    split
    · exact ⟨fun _ => rfl, rfl⟩
    · exact KeepsBad.refl t d
  exact (hevent.trans (Die.countRetired_keepsBad _)).trans (Die.poolLate_keepsBad _ _ _)

theorem Die.settleStop_keepsBad (d : Die) : KeepsBad t d (d.settleStop t) := by
  have hstop : ∀ g, KeepsBad t d ((d.raise (Reg.ENG_STATUS_STOPPED t)).modTile t g) := fun g =>
    (d.status_keepsBad 1 rfl (by simp [Reg.ENG_STATUS_STOPPED]) (by simp [Reg.ENG_STATUS_STOPPED])).trans
      (Die.modTile_keepsBad _ _ g)
  unfold Die.settleStop
  dsimp only
  split
  · split
    · exact (hstop _).trans (Die.put_keepsBad _ _ (by simp [Reg.ENG_CTRL_ENABLE, Reg.ENG_CTRL, Reg.ENG_STATUS]))
    · exact hstop _
  · exact KeepsBad.refl t d

/-- A malformed descriptor is shown in ENG_STATUS (R190, R201). -/
theorem Die.tileFault_malformed (d : Die) (t th op rgn off tag : Nat) :
    (d.tileFault t fkMalformed th op rgn off tag).get (Reg.ENG_STATUS_BAD_DESC t) = 1 := by
  unfold Die.tileFault
  dsimp only
  rw [if_pos rfl, Die.get, Die.getW, (Die.stepFault_keepsWork _).2]
  refine ((Die.record_keepsBad (t := t) _ _ _ _ _ _).bad.trans ?_)
  exact Die.get_put_same _ _ 1 (by simp [Reg.ENG_STATUS_BAD_DESC])

theorem Die.malform_effect (d : Die) (t th : Nat) (c : Desc) (due : Option Nat) :
    SameMem d (d.malform t th c due) ∧ (d.malform t th c due).get (Reg.ENG_STATUS_BAD_DESC t) = 1 := by
  have hretired := Die.retired_keepsBad (t := t)
    ((d.markDst t c true).tileFault t fkMalformed th (descOp c) 0xFF 0 (descTag c)) th c due
  refine ⟨fun a => ?_, hretired.bad.trans (Die.tileFault_malformed _ _ _ _ _ _ _)⟩
  exact ((hretired.mem a).trans ((Die.tileFault_notes _ _ _ _ _ _ _ _).work.mem a)).trans
    ((d.markDst_keepsBad (t := t) t c true).mem a)

theorem loadInput_malformed {n th : Nat} {c : Desc} {s : State} (hc : s.die.runsClean n th c = true)
    (hop : descOp c = ocLoadInput) (hraw : s.die.rawBad n c = true) : ∃ t : State, exec (.loadInput n th c) s = .next t ∧
      SameMem s.die t.die ∧ t.die.get (Reg.ENG_STATUS_BAD_DESC n) = 1 := by
  obtain ⟨-, -, ⟨e, he⟩, -⟩ := Die.runsClean_spec hc
  obtain ⟨hmem, hbad⟩ := Die.malform_effect
    (s.die.modTile n (fun x => { x with execs := dropPick (fun y => y == e) x.execs })) n th c e.due
  have hstop := Die.settleStop_keepsBad (t := n)
    ((s.die.modTile n (fun x => { x with execs := dropPick (fun y => y == e) x.execs })).malform n th c e.due)
  refine ⟨_, exec_loadInput hc hop, ?_⟩
  dsimp only
  rw [Die.loadInput_of_bad he hraw]
  exact ⟨fun a => ((hstop.mem a).trans (hmem a)).trans (Die.modTile_byteAt _ _ _ a), hstop.bad.trans hbad⟩

end Sys2Proof.Machine
end

section
/-! PROOFS. A COMBINE at the head of the pipeline runs with its records and leaves the pipeline (R155, R177, R193). -/
namespace Sys2Proof.Machine

variable {u : Cur} {d : Die}

/-! ### What a COMBINE reads and counts -/

theorem Die.combineIn_notes (d : Die) (u : Cur) (e : Exec) (i : Nat) : Notes u.t d (d.combineIn u e i).1 := by
  have hblock := (d.engRead_notes u u.c.a (1024 * i) 1024).trans (Die.engRead_notes _ u u.c.b (512 * i) 512)
  unfold Die.combineIn
  dsimp only
  have hside : ∀ p : Prop, ∀ [Decidable p], Notes u.t d (if p then
      ((d.engRead u u.c.a (1024 * i) 1024).1.engRead u u.c.b (512 * i) 512).1.engRead u u.c.x (2048 * i) 2048
      else (((d.engRead u u.c.a (1024 * i) 1024).1.engRead u u.c.b (512 * i) 512).1, none)).1 := by
    intro p _
    split
    · exact hblock.trans (Die.engRead_notes _ _ _ _ _)
    · exact hblock
  split
  · split
    · exact (hside _).trans (Die.engRead_notes _ _ _ _ _)
    · exact hside _
  · exact hside _

theorem Die.combineCount_notes (d : Die) (t : Nat) (x : CombineIn) : Notes t d (d.combineCount t x) := by
  have hpoison : ∀ (e : Die) (p : Prop) [Decidable p], Notes t e (if p then e.countPoisoned t 1 else e) := by
    intro e p _
    split
    · exact e.countPoisoned_notes t 1
    · exact Notes.refl t e
  unfold Die.combineCount
  dsimp only
  refine Notes.trans ?_ (hpoison _ _)
  split
  · have hlayer : ∀ (v w l : Nat), Notes t d ((d.bump (Reg.ENG_LAYER_STAT_CLIP_COUNT t l) v).bump
        (Reg.ENG_LAYER_STAT_LOST_COUNT t l) w) := fun v w l =>
      (d.bump_notes v (.inr (by unfold Reg.ENG_LAYER_STAT_CLIP_COUNT Reg.ENG_LAYER_STAT_CLIP; dsimp only; omega))).trans
        (Die.bump_notes _ w (.inr (by unfold Reg.ENG_LAYER_STAT_LOST_COUNT Reg.ENG_LAYER_STAT_LOST; dsimp only; omega)))
    split
    · exact (hlayer _ _ _).trans (Die.arithCount_notes _ 1 (by simp [Reg.ENG_D_POISON_CNT_COUNT, Reg.ENG_D_POISON_CNT]) rfl)
    · exact hlayer _ _ _
  · exact Notes.refl t d

/-- The accumulator after the units of a COMBINE: 256 columns. -/
theorem Die.combineUnits_notes {g : Die × List (Word × Bool) → Nat → Die × List (Word × Bool)} {t : Nat}
    (hg : ∀ a i, Notes t a.1 (g a i).1 ∧ (a.2.length = 256 → (g a i).2.length = 256)) (l : List Nat)
    (a : Die × List (Word × Bool)) (ha : a.2.length = 256) : Notes t a.1 (l.foldl g a).1 ∧ (l.foldl g a).2.length = 256 :=
  List.foldlRecOn (motive := fun r : Die × List (Word × Bool) => Notes t a.1 r.1 ∧ r.2.length = 256) _ _
    ⟨Notes.refl t a.1, ha⟩ fun r hr i _ => ⟨hr.1.trans (hg r i).1, (hg r i).2 hr.2⟩

/-- A COMBINE notes what it meets, and writes its 256 results. -/
theorem Die.combine_effect (d : Die) (u : Cur) (e : Exec) : ∃ b l, Notes u.t d b ∧ l.length = 256 ∧
    (d.combine u e).d = b.engWrite u u.c.d 0 (wordsBytes l) := by
  obtain ⟨p, hp⟩ : ∃ p, (if bit (descP0 u.c) 0 then (d, some (zeros 1024)) else d.engRead u u.c.d 0 1024) = p := ⟨_, rfl⟩
  have hread : Notes u.t d p.1 := by
    subst hp
    split
    · exact Notes.refl u.t d
    · exact d.engRead_notes u u.c.d 0 1024
  obtain ⟨hunits, hlen⟩ := Die.combineUnits_notes (t := u.t) (g := fun (a : Die × List (Word × Bool)) i =>
    let q := a.1.combineIn u e i
    (q.1.combineCount u.t q.2, ((List.range 256).zip a.2).map (fun c => combineColumn q.2 c.2 c.1)))
    (fun a i => ⟨(a.1.combineIn_notes u e i).trans (Die.combineCount_notes _ _ _), fun h => by simp [h]⟩)
    (List.range (descCount u.c)) (p.1, (wordsIn p.2 256).map (fun w => (w, fpBad w))) (by simp [wordsIn_length])
  unfold Die.combine
  dsimp only
  rw [hp]
  exact ⟨_, _, (hread.trans hunits).trans (Die.countNonfinite_notes _ _ _), by rw [List.length_map, hlen], rfl⟩

theorem Die.combine_worksIn (d : Die) (u : Cur) (e : Exec) : WorksIn u 1024 d (d.combine u e).d := by
  obtain ⟨b, l, hnotes, hlen, heq⟩ := d.combine_effect u e
  rw [heq]
  exact hnotes.worksIn.trans (b.engWrite_worksIn (by rw [wordsBytes_length, hlen]))

/-! ### The pipeline -/

/-- Each tile's pipeline is as it was. -/
def SamePipe (d e : Die) : Prop := ∀ t, (e.tile t).pipe = (d.tile t).pipe

theorem SamePipe.refl (d : Die) : SamePipe d d := fun _ => rfl

theorem SamePipe.trans {e f : Die} (h : SamePipe d e) (k : SamePipe e f) : SamePipe d f := fun t => (k t).trans (h t)

theorem Die.modTile_samePipe (d : Die) (n : Nat) (g : Tile1 → Tile1) (h : (g (d.tile n)).pipe = (d.tile n).pipe) :
    SamePipe d (d.modTile n g) := by
  intro t
  by_cases ht : t = n
  · subst ht; rw [Die.tile_modTile_same, h]
  · rw [Die.tile_modTile_ne d g ht]

theorem SamePipe.foldl {β : Type} {g : Die → β → Die} (hg : ∀ e x, SamePipe e (g e x)) (l : List β) (d : Die) :
    SamePipe d (l.foldl g d) :=
  List.foldlRecOn (motive := fun e => SamePipe d e) _ _ (SamePipe.refl d) fun e h x _ => h.trans (hg e x)

theorem samePipe_of_tiles {e : Die} (h : e.tiles = d.tiles) : SamePipe d e := fun t => by unfold Die.tile; rw [h]

theorem Die.useOps_samePipe (d : Die) (u : Cur) : SamePipe d (d.useOps u) := by
  refine SamePipe.foldl (fun e x => ?_) _ d
  unfold Die.sramUse
  split
  · exact SamePipe.refl e
  · exact e.modTile_samePipe _ _ rfl

theorem Die.begun_samePipe (d : Die) (n : Nat) (e : Exec) : SamePipe d (d.begun n e) := by
  unfold Die.begun
  split
  · exact SamePipe.refl d
  · exact d.useOps_samePipe _

theorem Die.emptySrc_samePipe (d : Die) (t : Nat) (c : Desc) : SamePipe d (d.emptySrc t c) := by
  unfold Die.emptySrc
  split
  · refine SamePipe.foldl (fun e w => ?_) _ d
    split
    · exact e.modTile_samePipe _ _ rfl
    · exact SamePipe.refl e
  · exact SamePipe.refl d

theorem Die.engWrite_tiles (d : Die) (u : Cur) (w : Word) (off : Nat) (bs : List Byte) :
    (d.engWrite u w off bs).tiles = d.tiles := by
  unfold Die.engWrite
  dsimp only
  split
  · rfl
  · split
    · exact (d.tileFault_notes _ _ _ _ _ _ _).work.tiles
    · exact d.setBytes_tiles _ _

theorem Die.combine_samePipe (d : Die) (u : Cur) (e : Exec) : SamePipe d (d.combine u e).d := by
  obtain ⟨b, l, hnotes, -, heq⟩ := d.combine_effect u e
  rw [heq]
  exact samePipe_of_tiles ((b.engWrite_tiles _ _ _ _).trans hnotes.work.tiles)

/-- A clean descriptor's operation leaves the pipelines as its work does. -/
theorem Die.runOp_samePipe {n th : Nat} {c : Desc} {f : Die → Cur → Exec → Done} (hc : d.runsClean n th c = true)
    (hf : ∀ d u e, SamePipe d (f d u e).d) : SamePipe d (d.runOp n th c f) := by
  obtain ⟨-, -, ⟨e, he⟩, -, hops⟩ := Die.runsClean_spec hc
  obtain ⟨-, rfl, rfl⟩ := Die.runnable_spec he
  have hwork := (d.begun_samePipe n e).trans (hf (d.begun n e) (e.cur n) e)
  have hdone : ∀ r : Done, SamePipe d r.d → SamePipe d (if r.drained then r.d.emptySrc n e.desc else r.d) := by
    intro r hr
    split
    · exact hr.trans (r.d.emptySrc_samePipe _ _)
    · exact hr
  unfold Die.runOp
  rw [he, hops]
  exact (hdone _ hwork).trans (Die.modTile_samePipe _ _ _ rfl)

/-! ### COMBINE -/

theorem Die.combineRun_of_head {n th : Nat} {c : Desc} {e : Exec} (hc : d.runsClean n th c = true)
    (he : d.pipeHead n = some e) (hdesc : e.desc = c) (hth : e.thread = th)
    (hrecs : bit (descP0 c) 2 = true ∨ e.recs.length = descCount c) : d.combineRun n th c =
      (d.runOp n th c (fun d u e => d.combine u e)).modTile n (fun x => { x with pipe := x.pipe.tail }) := by
  obtain ⟨-, -, ⟨y, hy⟩, -⟩ := Die.runsClean_spec hc
  unfold Die.combineRun
  rw [he]
  exact if_pos ⟨hdesc, hth, hrecs, by rw [hy]; rfl⟩

theorem combine_runs {n th : Nat} {c : Desc} {s : State} {e : Exec} (hc : s.die.runsClean n th c = true)
    (hop : descOp c = ocCombine) (he : s.die.pipeHead n = some e) (hdesc : e.desc = c) (hth : e.thread = th)
    (hrecs : bit (descP0 c) 2 = true ∨ e.recs.length = descCount c) : ∃ t : State, exec (.combine n th c) s = .next t ∧
      Ran n th c t.die ∧ (t.die.tile n).pipe = (s.die.tile n).pipe.tail ∧
      ∀ a, a < s.die.opAt n c.d ∨ s.die.opAt n c.d + 1024 ≤ a → t.die.byteAt a = s.die.byteAt a := by
  obtain ⟨-, -, ⟨y, hy⟩, -⟩ := Die.runsClean_spec hc
  obtain ⟨-, -, hcur⟩ := Die.runnable_spec hy
  have hbegun : WorksIn (y.cur n) 1024 s.die (s.die.begun n y) := (s.die.begun_own n y).worksIn
  have hall := hbegun.trans (Die.combine_worksIn _ (y.cur n) y)
  obtain ⟨⟨z, hz, hzth, hzc, hzran, -⟩, -, -, hmem⟩ := Die.runOp_of_clean (f := fun d u e => d.combine u e) hc hy rfl hall.execs
  refine ⟨_, exec_opCmd (op := ocCombine) (g := fun d => d.combineRun n th c) (fun _ => rfl) hc hop, ?_⟩
  dsimp only
  rw [Die.combineRun_of_head hc he hdesc hth hrecs]
  refine ⟨⟨z, ?_, hzth, hzc, hzran⟩, ?_, fun a ha => ?_⟩
  · rw [Die.tile_modTile_same]
    exact hz
  · rw [Die.tile_modTile_same, ← Die.runOp_samePipe hc (fun d u e => d.combine_samePipe u e) n]
  · refine ((Die.modTile_byteAt _ _ _ a).trans (hmem a)).trans (hall.mem a ?_)
    unfold Die.dstAt Exec.cur
    rw [hcur]
    exact ha

end Sys2Proof.Machine
end

section
/-! PROOFS. QUANT_A writes its next code block where the block stands in its destination (R580). -/
namespace Sys2Proof.Machine

/-- Written bytes read back. -/
theorem Die.bytesAt_setBytes (d : Die) (a : Nat) (bs : List Byte) : (d.setBytes a bs).bytesAt a bs.length = bs := by
  refine List.ext_getElem (by simp [Die.bytesAt]) fun i h1 h2 => ?_
  simp only [Die.bytesAt, List.getElem_map, List.getElem_range]
  exact d.byteAt_setBytes_in bs a i h2

theorem Die.quantPut_of_allowed {d : Die} {t : Nat} {c : Desc}
    (h : d.engRefuses t (opRgn c.d) (opOff c.d) (1024 * descCount c) rightW = none) (off : Nat) (bs : List Byte) :
    d.quantPut t c off bs = d.setBytes (d.rgnAddr t (opRgn c.d) (opOff c.d + off)) bs := by
  unfold Die.quantPut
  rw [h]
  rfl

/-- With another block left, the block is written and the descriptor keeps the rest. -/
theorem Die.quantDone_of_more {d : Die} {t th tag : Nat} {e : Exec} {b : List Byte} {bs : List (List Byte)}
    (he : (d.tile t).execs.find? (ofTag th tag (fun e => !e.blocks.isEmpty && !e.waitLg)) = some e)
    (hb : e.blocks = b :: bs) (hbs : bs ≠ [])
    (hr : d.engRefuses t (opRgn e.desc.d) (opOff e.desc.d) (1024 * descCount e.desc) rightW = none) :
    d.quantDone t th tag = (d.setBytes (d.rgnAddr t (opRgn e.desc.d) (opOff e.desc.d +
      1024 * (descCount e.desc - (bs.length + 1)))) b).modExec t (fun y => y == e) (fun _ => { e with blocks := bs }) := by
  unfold Die.quantDone
  rw [he]
  dsimp only
  rw [Die.quantPut_of_allowed hr, hb]
  exact if_neg (by simpa using hbs)

variable {s : State} {n th tag : Nat}

theorem exec_quantAUnitDone (hl : s.die.live = true) (hr : s.die.tileRuns n = true) :
    exec (.quantAUnitDone n th tag) s = .next { s with die := s.die.quantDone n th tag } :=
  mainCmd_ok (ok := fun d => d.tileRuns n) (f := fun d => d.quantDone n th tag) hl hr

theorem quantAUnitDone_writes {e : Exec} {b : List Byte} {bs : List (List Byte)} (hl : s.die.live = true)
    (hr : s.die.tileRuns n = true)
    (he : (s.die.tile n).execs.find? (ofTag th tag (fun e => !e.blocks.isEmpty && !e.waitLg)) = some e)
    (hb : e.blocks = b :: bs) (hbs : bs ≠ [])
    (hok : s.die.engRefuses n (opRgn e.desc.d) (opOff e.desc.d) (1024 * descCount e.desc) rightW = none) : ∃ t : State,
    exec (.quantAUnitDone n th tag) s = .next t ∧ t.die.regs = s.die.regs ∧
    t.die.bytesAt (s.die.rgnAddr n (opRgn e.desc.d) (opOff e.desc.d + 1024 * (descCount e.desc - (bs.length + 1)))) b.length = b ∧
    SameMemBut (s.die.rgnAddr n (opRgn e.desc.d) (opOff e.desc.d + 1024 * (descCount e.desc - (bs.length + 1)))) b.length
      s.die t.die ∧ ∃ y ∈ (t.die.tile n).execs, y = { e with blocks := bs } := by
  refine ⟨_, exec_quantAUnitDone hl hr, ?_⟩
  dsimp only
  rw [Die.quantDone_of_more he hb hbs hok]
  unfold Die.modExec
  refine ⟨?_, ?_, fun a ha => ?_, _, ?_, rfl⟩
  · rw [Die.modTile_regs, Die.setBytes_regs]
  · exact Die.bytesAt_setBytes s.die _ b
  · rw [Die.modTile_byteAt]
    exact s.die.byteAt_setBytes_out b _ a ha
  · rw [Die.tile_modTile_same, Die.setBytes_tile]
    exact mem_modFirst_of_mem (List.mem_of_find?_eq_some he) fun _ => { e with blocks := bs }

end Sys2Proof.Machine
end

section
/-! PROOFS. Operations that fetch, quantise or combine (O33). -/
namespace Sys2Proof.Machine

variable {s : State} {n th : Nat} {c : Desc} {e : Exec}

/-- The operations that fetch and then write in their destination, with the lines they ask for. -/
def Die.fetchingLines (d : Die) (n th : Nat) (c : Desc) : List ((Instr × Nat) × List (Nat × Nat)) :=
  [((.outlier n th c, ocOutlier), d.outlierAsks { t := n, th := th, c := c }),
    ((.exact n th c, ocExact), exactAsks c),
    ((.corrZ n th c, ocCorrZ), factorAsks c (bits (descP0 c) 9 7 * panelsBytes (16 * descCount c) 32 32)),
    ((.corrB n th c, ocCorrB), factorAsks c (bits (descP0 c) 9 7 * panelsBytes ((descCount c + 31) / 32) 32 32)),
    ((.attn n th c, ocAttn), d.attnAsks { t := n, th := th, c := c })]

theorem Die.mem_fetchingLines {d : Die} {k : Instr × Nat} {l : List (Nat × Nat)} (h : (k, l) ∈ d.fetchingLines n th c) :
    k = (.outlier n th c, ocOutlier) ∧ l = d.outlierAsks { t := n, th := th, c := c } ∨
    k = (.exact n th c, ocExact) ∧ l = exactAsks c ∨
    k = (.corrZ n th c, ocCorrZ) ∧ l = factorAsks c (bits (descP0 c) 9 7 * panelsBytes (16 * descCount c) 32 32) ∨
    k = (.corrB n th c, ocCorrB) ∧ l = factorAsks c (bits (descP0 c) 9 7 * panelsBytes ((descCount c + 31) / 32) 32 32) ∨
    k = (.attn n th c, ocAttn) ∧ l = d.attnAsks { t := n, th := th, c := c } := by
  simpa only [Die.fetchingLines, List.mem_cons, List.not_mem_nil, or_false, Prod.mk.injEq] using h

/-- Each operation that fetches asks for its lines first. -/
theorem fetching_asksFirst (hc : s.die.runsClean n th c = true) {k : Instr × Nat} {l : List (Nat × Nat)}
    (hk : (k, l) ∈ s.die.fetchingLines n th c ++ [((.sound n th c, ocSound), s.die.soundAsks { t := n, th := th, c := c })])
    (hop : descOp c = k.2) (he : s.die.runnable n th c = some e) (ha : e.asked = false)
    (hl : l.filter (fun p => tileReqOk k.2 (s.die.threadClass n th) p.1 p.2) ≠ []) : AsksFirst k.1 k.2 n th c l e s := by
  rcases List.mem_append.1 hk with hk | hk
  · rcases Die.mem_fetchingLines hk with ⟨rfl, rfl⟩ | ⟨rfl, rfl⟩ | ⟨rfl, rfl⟩ | ⟨rfl, rfl⟩ | ⟨rfl, rfl⟩
    · exact asksFirst_of_lines (asks := fun d u => d.outlierAsks u)
        (f := fun d u _ => d.units (descCount c) (fun e i => e.outlierUnit u i)) (fun _ => rfl) hc hop he ha rfl hl
    · exact asksFirst_of_lines (asks := fun _ _ => exactAsks c)
        (f := fun d u _ => d.units (descCount c) (fun e i => e.exactUnit u i)) (fun _ => rfl) hc hop he ha rfl hl
    · exact asksFirst_of_lines (asks := fun _ _ => factorAsks c (bits (descP0 c) 9 7 * panelsBytes (16 * descCount c) 32 32))
        (f := fun d u _ => d.corrZ u) (fun _ => rfl) hc hop he ha rfl hl
    · exact asksFirst_of_lines
        (asks := fun _ _ => factorAsks c (bits (descP0 c) 9 7 * panelsBytes ((descCount c + 31) / 32) 32 32))
        (f := fun d u _ => d.corrB u) (fun _ => rfl) hc hop he ha rfl hl
    · exact asksFirst_of_lines (asks := fun d u => d.attnAsks u)
        (f := fun d u _ => d.units (descCount c) (fun e i => e.attnUnit u i)) (fun _ => rfl) hc hop he ha rfl hl
  · simp only [List.mem_singleton, Prod.mk.injEq] at hk
    obtain ⟨rfl, hasks⟩ := hk
    exact asksFirst_of_lines (asks := fun d u => d.soundAsks u) (f := fun d u _ => { d := d.sound u }) (fun _ => rfl) hc hop he
      ha hasks.symm hl

/-- Each operation that fetches and writes runs in its destination once its lines are back. -/
theorem fetching_runsInside (hc : s.die.runsClean n th c = true) {k : Instr × Nat} {l : List (Nat × Nat)}
    (hk : (k, l) ∈ s.die.fetchingLines n th c) (hop : descOp c = k.2) (he : s.die.runnable n th c = some e)
    (h : e.asked = true ∨ l.filter (fun p => tileReqOk k.2 (s.die.threadClass n th) p.1 p.2) = []) :
    RunsInside k.1 n th c s := by
  rcases Die.mem_fetchingLines hk with ⟨rfl, rfl⟩ | ⟨rfl, rfl⟩ | ⟨rfl, rfl⟩ | ⟨rfl, rfl⟩ | ⟨rfl, rfl⟩
  · exact outlier_runsInside hc hop he h
  · exact exact_runsInside hc hop he h
  · exact corrZ_runsInside hc hop he h
  · exact corrB_runsInside hc hop he h
  · exact attn_runsInside hc hop he h

/-- Settles O33: each command comes to its operation's work, whose frame says what it may write. -/
theorem fetchingAndPipelinedOperationsRun : Obligations.FetchingAndPipelinedOperationsRun := by
  unfold Obligations.FetchingAndPipelinedOperationsRun
  intro s n th c
  refine ⟨fun hc => ⟨fun k l e hk hop he ha hl => fetching_asksFirst hc hk hop he ha hl,
    fun k l e hk hop he h => fetching_runsInside hc hk hop he h, fun e => sound_runs hc, loadInput_runs hc, loadInput_malformed hc,
    fun e => combine_runs hc⟩, fun tag e b bs => quantAUnitDone_writes, fun tile thread tag => exec_quantAUnitDone⟩

end Sys2Proof.Machine
end

section
/-! PROOFS. The master of a slice hears a beacon whose phase is not its own (R218, R219). -/
namespace Sys2Proof.Machine

theorem exec_tideMarkReceive {s : State} {k : Nat} {m : Mark} (hl : s.die.live = true) (hk : k < 6) (hup : s.die.linkUp k = true)
    (hbit : bit s.die.sliceMask k = true) (hm : m.credits.length = 4) :
    exec (.tideMarkReceive k m) s = .next { s with die := s.die.markReceive k m } :=
  mainCmd_ok (ok := fun d => decide (k < 6) && d.linkUp k && bit d.sliceMask k && decide (m.credits.length = 4))
    (f := fun d => d.markReceive k m) hl (by simp [hk, hup, hbit, hm])

/-- A tide master, RUNNING in step phase 0, whose link 5 is a slice link and UP. -/
def State.masterRunning : State :=
  { pending := [], carrier := {}
    die := { (({ mgmt := { powered := true, dieReset := false } : Die }.put Reg.TIDE_STATUS_STATE 4).raise
      Reg.TIDE_SLICE_MASTER).put (Reg.LNK_STATUS_STATE 5) 4 with sliceMask := 32 } }

/-- A mark without FAULT whose beacon shows step phase 1. -/
def Mark.otherPhase : Mark :=
  { tide := 0, stop := false, fault := false, beacon := some (0, 1, 0), demand := 0, applied := 0, credits := [0, 0, 0, 0],
    fCoord := 0, fCause := 0, retried := false }

theorem State.masterRunning_diverges :
    (State.masterRunning.die.markReceive 5 Mark.otherPhase).on Reg.TIDE_STATUS_DIVERGE = true ∧
      State.masterRunning.die.on Reg.TIDE_STATUS_DIVERGE = false := by
  decide +kernel

/-- Refutes O38: a RUNNING master that receives a beacon of another phase sets DIVERGE (R219), where the statement has every
register as it was. -/
theorem not_marksGateAndTideRegistersKeepTheirRules : ¬ Obligations.MarksGateAndTideRegistersKeepTheirRules := by
  unfold Obligations.MarksGateAndTideRegistersKeepTheirRules
  intro h
  obtain ⟨hmark, -⟩ := h State.masterRunning (by decide)
  obtain ⟨hkept, -⟩ := hmark 5 Mark.otherPhase (by decide) (by decide) (by decide) rfl
  obtain ⟨u, hexec, -, -, hregs, -⟩ := hkept rfl (.inl (by decide))
  rw [exec_tideMarkReceive (by decide) (by decide) (by decide) (by decide) rfl] at hexec
  rw [← Host.Outcome.next.inj hexec] at hregs
  obtain ⟨hset, hclear⟩ := State.masterRunning_diverges
  have hsame : (State.masterRunning.die.markReceive 5 Mark.otherPhase).on Reg.TIDE_STATUS_DIVERGE =
      State.masterRunning.die.on Reg.TIDE_STATUS_DIVERGE := by
    unfold Die.on Die.get Die.getW
    rw [hregs]
  exact absurd (hset.symm.trans (hsame.trans hclear)) (by decide)

end Sys2Proof.Machine
end

section
/-! PROOFS. The accesses of a clean descriptor, and what its command moves beside its operation's work (R182, R185, R186, R188). -/
namespace Sys2Proof.Machine

variable {d e : Die}

/-! ### Bytes -/

theorem Die.setBytes_append (d : Die) (a : Nat) (bs cs : List Byte) :
    d.setBytes a (bs ++ cs) = (d.setBytes a bs).setBytes (a + bs.length) cs := by
  induction bs generalizing d a with
  | nil => rfl
  | cons b r ih =>
    rw [List.cons_append, Die.setBytes, ih, List.length_cons, Nat.add_comm r.length 1, ← Nat.add_assoc]
    rfl

theorem Die.bytesAt_add (d : Die) (a m n : Nat) : d.bytesAt a (m + n) = d.bytesAt a m ++ d.bytesAt (a + m) n := by
  simp [Die.bytesAt, List.range_add, Nat.add_assoc]

theorem Die.bytesAt_congr {a n : Nat} (h : ∀ c, a ≤ c → c < a + n → e.byteAt c = d.byteAt c) : e.bytesAt a n = d.bytesAt a n :=
  List.map_congr_left fun i hi => h (a + i) (by omega) (by have := List.mem_range.1 hi; omega)

theorem SameMem.bytesAt (h : SameMem d e) (a n : Nat) : e.bytesAt a n = d.bytesAt a n := Die.bytesAt_congr fun c _ _ => h c

/-- The bytes of equal units, one unit after the other. -/
theorem Die.bytesAt_units (d : Die) (a sz m : Nat) :
    ((List.range m).map (fun i => d.bytesAt (a + sz * i) sz)).flatten = d.bytesAt a (sz * m) := by
  induction m with
  | zero => rfl
  | succ k ih =>
    rw [List.range_succ, List.map_append, List.flatten_append, ih, List.map_singleton, List.flatten_singleton, Nat.mul_succ,
      Die.bytesAt_add]

/-! ### Regions -/

theorem Die.getW_of_regs (h : e.regs = d.regs) (a : Nat) : e.getW a = d.getW a := by
  unfold Die.getW
  rw [h]

/-- A field reads as its register does. -/
theorem Die.get_of_getW {f : Fld} (h : e.getW f.addr = d.getW f.addr) : e.get f = d.get f := by
  unfold Die.get
  rw [h]

/-- What refuses an access stands in its region's LIMIT. -/
theorem Die.engRefuses_of_limit {t r : Nat} (h : e.getW (Reg.ENG_RGN_LIMIT t r) = d.getW (Reg.ENG_RGN_LIMIT t r)) (off len b : Nat) :
    e.engRefuses t r off len b = d.engRefuses t r off len b := by
  unfold Die.engRefuses Die.rgnValid Die.rgnSize Die.rgnRight Die.on
  rw [Die.get_of_getW (f := Reg.ENG_RGN_LIMIT_VALID t r) h, Die.get_of_getW (f := Reg.ENG_RGN_LIMIT_SIZE t r) h, h]

theorem Die.rgnFE_of_limit {t r : Nat} (h : e.getW (Reg.ENG_RGN_LIMIT t r) = d.getW (Reg.ENG_RGN_LIMIT t r)) :
    e.rgnFE t r = d.rgnFE t r := by
  unfold Die.rgnFE Die.rgnValid Die.on
  rw [Die.get_of_getW (f := Reg.ENG_RGN_LIMIT_VALID t r) h, Die.get_of_getW (f := Reg.ENG_RGN_LIMIT_FE t r) h]

theorem Die.engRefuses_of_regs (h : e.regs = d.regs) (t r off len b : Nat) :
    e.engRefuses t r off len b = d.engRefuses t r off len b := Die.engRefuses_of_limit (Die.getW_of_regs h _) off len b

theorem Die.rgnAddr_of_regs (h : e.regs = d.regs) (t r off : Nat) : e.rgnAddr t r off = d.rgnAddr t r off := by
  unfold Die.rgnAddr Die.rgnOff
  rw [Die.get_of_getW (Die.getW_of_regs h _)]

theorem Die.rgnFE_of_regs (h : e.regs = d.regs) (t r : Nat) : e.rgnFE t r = d.rgnFE t r :=
  Die.rgnFE_of_limit (Die.getW_of_regs h _)

theorem Die.threadClass_of_regs (h : e.regs = d.regs) (t th : Nat) : e.threadClass t th = d.threadClass t th :=
  Die.get_of_getW (Die.getW_of_regs h _)

theorem Die.rgnAddr_add (d : Die) (t r off k : Nat) : d.rgnAddr t r (off + k) = d.rgnAddr t r off + k := by
  unfold Die.rgnAddr
  omega

/-- A part of an allowed access is allowed. -/
theorem Die.engRefuses_part {t r off len b off' len' : Nat} (h : d.engRefuses t r off len b = none)
    (hle : off' + len' ≤ off + len) : d.engRefuses t r off' len' b = none := by
  unfold Die.engRefuses at h ⊢
  by_cases hv : (!d.rgnValid t r) = true
  · rw [if_pos hv] at h
    exact nomatch h
  · rw [if_neg hv] at h ⊢
    by_cases hs : d.rgnSize t r < off + len
    · rw [if_pos hs] at h
      exact nomatch h
    · rw [if_neg hs] at h
      rwa [if_neg (by omega)]

section
variable {n th : Nat} {c : Desc} {w : Word} {L : Nat}

theorem Die.read_allowed (hc : d.runsClean n th c = true) (h : (⟨opRgn w, opOff w, L⟩ : Span) ∈ d.readSpans n c) :
    d.engRefuses n (opRgn w) (opOff w) L (if descOp c = ocPost then rightDS else rightR) = none := by
  unfold Die.runsClean at hc
  simp only [Bool.and_eq_true, List.all_eq_true] at hc
  obtain ⟨⟨-, hread⟩, -⟩ := hc
  exact Option.isNone_iff_eq_none.1 (hread _ h)

theorem Die.write_allowed (hc : d.runsClean n th c = true) (h : (⟨opRgn w, opOff w, L⟩ : Span) ∈ d.dstSpans n c) :
    d.engRefuses n (opRgn w) (opOff w) L rightW = none := by
  unfold Die.runsClean at hc
  simp only [Bool.and_eq_true, List.all_eq_true] at hc
  obtain ⟨-, hwrite⟩ := hc
  exact Option.isNone_iff_eq_none.1 (hwrite _ h)

/-- Only STEER reads operands beside those that R191 names. -/
theorem Die.readSpans_eq_srcSpans (d : Die) (n : Nat) (h : descOp c ≠ ocSteer) : d.readSpans n c = d.srcSpans n c := by
  unfold Die.readSpans
  exact if_neg fun hs => h hs.1

end

/-! ### Reads and writes that are allowed -/

section
variable {u : Cur} {right : Nat} {w : Word} {off len : Nat} {bs : List Byte}

/-- An allowed read moves nothing. -/
theorem Die.engReadAs_fst (h : d.engRefuses u.t (opRgn w) (opOff w + off) len right = none) :
    (d.engReadAs u right w off len).1 = d := by
  unfold Die.engReadAs
  dsimp only
  rw [h]
  split
  · rfl
  · dsimp only
    split <;> rfl

/-- An allowed read of a buffer without poison gives its bytes. -/
theorem Die.engReadAs_of_allowed (hno : u.noRead = [])
    (h : d.engRefuses u.t (opRgn w) (opOff w + off) len right = none)
    (hp : (d.rgnFE u.t (opRgn w) && d.isPoison u.t (opRgn w)) = false) :
    d.engReadAs u right w off len = (d, some (d.bytesAt (d.rgnAddr u.t (opRgn w) (opOff w + off)) len)) := by
  unfold Die.engReadAs
  dsimp only
  rw [h, hno, hp]
  rfl

theorem Die.engWrite_of_allowed (hno : u.noWrite = [])
    (h : d.engRefuses u.t (opRgn w) (opOff w + off) bs.length rightW = none) :
    d.engWrite u w off bs = d.setBytes (d.rgnAddr u.t (opRgn w) (opOff w + off)) bs := by
  unfold Die.engWrite
  dsimp only
  rw [h, hno]
  rfl

/-- Units that each write their block write the blocks one after the other. -/
theorem Die.units_setBytes {m sz a : Nat} {blk : Nat → List Byte} {g : Die → Nat → Die × Bool} (hlen : ∀ i, (blk i).length = sz)
    (h : ∀ e i, i < m → e = d.setBytes a ((List.range i).map blk).flatten → (g e i).1 = e.setBytes (a + sz * i) (blk i)) :
    (d.units m g).d = d.setBytes a ((List.range m).map blk).flatten := by
  have hall : ∀ k, k ≤ m → (d.units k g).d = d.setBytes a ((List.range k).map blk).flatten := by
    intro k hk
    induction k with
    | zero => rfl
    | succ j ih =>
      have hj := ih (by omega)
      unfold Die.units at hj ⊢
      rw [List.range_succ, List.foldl_append, List.foldl_cons, List.foldl_nil]
      dsimp only
      rw [h _ j (by omega) hj, hj, List.map_append, List.flatten_append, Die.setBytes_append, length_flatten_map hlen,
        List.length_range, List.map_singleton, List.flatten_singleton]
  exact hall m le_rfl

end

/-! ### Around an operation -/

/-- Nothing differs but what begins and ends an operation of tile `n`: counts of its banks, marks of its buffers, and its executing
descriptors. -/
structure Around (n : Nat) (d e : Die) : Prop where
  tile : ∃ fe xs bs, e.tile n = { d.tile n with fe := fe, execs := xs, banks := bs }
  rest : e = { d with tiles := e.tiles }

variable {n : Nat}

theorem Around.regs (h : Around n d e) : e.regs = d.regs := by rw [h.rest]
theorem Around.out (h : Around n d e) : e.out = d.out := by rw [h.rest]
theorem Around.mem (h : Around n d e) : SameMem d e := by rw [h.rest]; exact fun _ => rfl
theorem Around.reqs (h : Around n d e) : (e.tile n).reqs = (d.tile n).reqs := by obtain ⟨_, _, _, ht⟩ := h.tile; rw [ht]
theorem Around.pool (h : Around n d e) : (e.tile n).pool = (d.tile n).pool := by obtain ⟨_, _, _, ht⟩ := h.tile; rw [ht]
theorem Around.streams (h : Around n d e) : (e.tile n).streams = (d.tile n).streams := by obtain ⟨_, _, _, ht⟩ := h.tile; rw [ht]
theorem Around.onlyRegs (h : Around n d e) (rs : List Nat) : OnlyRegs rs d e := fun a _ => Die.getW_of_regs h.regs a

theorem Around.trans {f : Die} (h : Around n d e) (k : Around n e f) : Around n d f := by
  obtain ⟨⟨_, _, _, ht⟩, hr⟩ := h
  obtain ⟨⟨_, _, _, kt⟩, kr⟩ := k
  exact ⟨⟨_, _, _, by rw [kt, ht]⟩, by rw [kr, hr]⟩

/-- An access to the SRAM counts at its banks alone. -/
theorem Die.sramUse_tile (d : Die) (n off len : Nat) : ∃ bs, (d.sramUse n off len).tile n = { d.tile n with banks := bs } := by
  unfold Die.sramUse
  split
  · exact ⟨_, rfl⟩
  · exact ⟨_, by rw [Die.tile_modTile_same]⟩

theorem Die.begun_tile (d : Die) (n : Nat) (x : Exec) : ∃ bs, (d.begun n x).tile n = { d.tile n with banks := bs } := by
  unfold Die.begun
  split
  · exact ⟨_, rfl⟩
  · unfold Die.useOps
    refine List.foldlRecOn (motive := fun e : Die => ∃ bs, e.tile n = { d.tile n with banks := bs }) _ _ ⟨_, rfl⟩ ?_
    rintro e ⟨_, he⟩ y -
    obtain ⟨bs, hbs⟩ := e.sramUse_tile n (d.rgnOff n y.rgn + y.off) y.len
    exact ⟨bs, by rw [hbs, he]⟩

theorem Die.begun_around (d : Die) (n : Nat) (x : Exec) : Around n d (d.begun n x) := by
  obtain ⟨_, hbs⟩ := d.begun_tile n x
  exact ⟨⟨_, _, _, hbs⟩, (d.begun_own n x).rest⟩

theorem Die.begun_isPoison (d : Die) (n : Nat) (x : Exec) (r : Nat) : (d.begun n x).isPoison n r = d.isPoison n r := by
  obtain ⟨_, hbs⟩ := d.begun_tile n x
  unfold Die.isPoison Die.feOf
  rw [hbs]

theorem Die.emptySrc_around (d : Die) (n : Nat) (c : Desc) : Around n d (d.emptySrc n c) := by
  refine ⟨?_, (d.emptySrc_own n c).rest⟩
  unfold Die.emptySrc
  split
  · refine List.foldlRecOn (motive := fun e : Die => ∃ fe xs bs, e.tile n = { d.tile n with fe := fe, execs := xs, banks := bs })
      _ _ ⟨_, _, _, rfl⟩ ?_
    rintro e ⟨fe, xs, bs, he⟩ w -
    split
    · exact ⟨_, xs, bs, by unfold Die.mark; rw [Die.tile_modTile_same, he]⟩
    · exact ⟨fe, xs, bs, he⟩
  · exact ⟨_, _, _, rfl⟩

theorem Die.emptySrc_of_not {c : Desc} (d : Die) (n : Nat) (h : descFeSrc c = false) : d.emptySrc n c = d := by
  unfold Die.emptySrc
  rw [h]
  rfl

theorem Die.modExec_around (d : Die) (n : Nat) (p : Exec → Bool) (g : Exec → Exec) : Around n d (d.modExec n p g) :=
  ⟨⟨_, _, _, Die.tile_modTile_same d n _⟩, rfl⟩

section
variable {th : Nat} {c : Desc} {x : Exec} {f : Die → Cur → Exec → Done} {r : Done}

/-- The command of a clean descriptor: its operation's work, the buffers of A and B emptied once it is done, and its outcome with it. -/
theorem Die.runOp_eq_of_clean (hc : d.runsClean n th c = true) (hx : d.runnable n th c = some x)
    (hr : f (d.begun n x) (x.cur n) x = r) : ∃ g : Exec → Exec,
      d.runOp n th c f = (if r.drained then r.d.emptySrc n c else r.d).modExec n (fun y => y == x) g := by
  obtain ⟨-, rfl, rfl⟩ := Die.runnable_spec hx
  obtain ⟨-, -, -, -, hops⟩ := Die.runsClean_spec hc
  refine ⟨fun y => { y with
    ran := r.drained, poison := y.poison || r.bad || !([] : List Span).isEmpty, checked := true, reqs := r.reqs,
    blocks := r.blocks, units := r.units }, ?_⟩
  subst hr
  unfold Die.runOp
  rw [hx, hops]
  rfl

theorem Die.runOp_around (hc : d.runsClean n th c = true) (hx : d.runnable n th c = some x)
    (hr : f (d.begun n x) (x.cur n) x = r) : Around n r.d (d.runOp n th c f) := by
  obtain ⟨g, hg⟩ := Die.runOp_eq_of_clean hc hx hr
  rw [hg]
  refine Around.trans ?_ (Die.modExec_around _ _ _ _)
  split
  · exact r.d.emptySrc_around n c
  · exact ⟨⟨_, _, _, rfl⟩, rfl⟩

end

end Sys2Proof.Machine
end

section
/-! PROOFS. What the data movers and the control operations leave (R178, R181, R187, R191, R214). -/
namespace Sys2Proof.Machine

/-! ### Operands -/

section
variable {s : State} {n th L : Nat} {c : Desc}

/-- Operations here that read at A. -/
def movingOps : List Nat := [ocCopy, ocStore, ocDmaStart, ocPost]

/-- A clean descriptor of an operation that reads at A names its source (R190). -/
theorem hasOp_src_of_moving (hc : s.die.runsClean n th c = true) (hw : descOp c ∈ movingOps) : hasOp c.a = true := by
  have hok := operandsOk_of_clean hc
  simp only [movingOps, List.mem_cons, List.not_mem_nil, or_false] at hw
  rcases hw with h | h | h | h
  all_goals
    simp only [operandsOk, h, needs, ocCopy, ocStore, ocDmaStart, ocPost, Bool.and_eq_true] at hok
    simp only [hok]

/-- Its reads within the bytes it reads at A are allowed. -/
theorem src_allowed (hc : s.die.runsClean n th c = true) (hw : descOp c ∈ movingOps)
    (hspan : ∀ x ∈ span c.a L, x ∈ s.die.srcSpans n c) {off len : Nat} (hle : off + len ≤ L) :
    s.die.engRefuses n (opRgn c.a) (opOff c.a + off) len (if descOp c = ocPost then rightDS else rightR) = none := by
  have hsteer : descOp c ≠ ocSteer := fun h => absurd (h ▸ hw) (by decide)
  refine Die.engRefuses_part (Die.read_allowed (L := L) hc ?_) (by omega)
  rw [Die.readSpans_eq_srcSpans _ _ hsteer]
  exact hspan _ (mem_span (hasOp_src_of_moving hc hw) L)

/-- A clean descriptor's writes within the bytes it writes at D are allowed. -/
theorem dst_allowed (hc : s.die.runsClean n th c = true) (hw : descOp c ∈ writingOps) (hspan : s.die.dstSpans n c = span c.d L)
    {off len : Nat} (hle : off + len ≤ L) : s.die.engRefuses n (opRgn c.d) (opOff c.d + off) len rightW = none := by
  refine Die.engRefuses_part (Die.write_allowed (L := L) hc ?_) (by omega)
  rw [hspan]
  exact mem_span (hasOp_dst_of_clean hc rfl hw) L

end

/-! ### COPY and FILL -/

section
variable {s : State} {n th : Nat} {c : Desc}

/-- A unit that ends among the first `m` units ends among their bytes. -/
theorem unit_le {i m : Nat} (sz : Nat) (h : i < m) : sz * i + sz ≤ sz * m := by
  rw [← Nat.mul_succ]
  exact Nat.mul_le_mul_left sz h

/-- An operation whose units write these blocks one after the other at D leaves them there. -/
theorem units_leave_blocks {i : Instr} {op : Nat} {g : Die → Cur → Nat → Die × Bool} {blk : Nat → List Byte}
    (hexec : ∀ s, exec i s = opCmd op n c (fun d => d.runOp n th c fun d u _ => d.units (descCount c) (fun e k => g e u k)) s)
    (hc : s.die.runsClean n th c = true) (hop : descOp c = op) {x : Exec} (hx : s.die.runnable n th c = some x)
    (hlen : ∀ k, (blk k).length = 64)
    (hg : ∀ e k, k < descCount c →
      e = (s.die.begun n x).setBytes (s.die.opAt n c.d) ((List.range k).map blk).flatten →
      (g e (x.cur n) k).1 = e.setBytes (s.die.opAt n c.d + 64 * k) (blk k)) :
    ∃ t : State, exec i s = .next t ∧ t.die.regs = s.die.regs ∧
      t.die.bytesAt (s.die.opAt n c.d) (64 * descCount c) = ((List.range (descCount c)).map blk).flatten := by
  have hbegun := s.die.begun_around n x
  have haround := Die.runOp_around hc hx (f := fun d u _ => d.units (descCount c) (fun e k => g e u k)) rfl
  rw [Die.units_setBytes hlen hg] at haround
  refine ⟨_, exec_opCmd hexec hc hop, haround.regs.trans ((Die.setBytes_regs _ _ _).trans hbegun.regs), ?_⟩
  have hall := Die.bytesAt_setBytes (s.die.begun n x) (s.die.opAt n c.d) ((List.range (descCount c)).map blk).flatten
  rw [length_flatten_map hlen, List.length_range] at hall
  exact (haround.mem.bytesAt _ _).trans hall

/-- A unit of COPY moves its bytes. -/
theorem Die.copyUnit_of_allowed {d : Die} {u : Cur} {i : Nat} (hr : u.noRead = []) (hw : u.noWrite = [])
    (hread : d.engRefuses u.t (opRgn u.c.a) (opOff u.c.a + 64 * i) 64 rightR = none)
    (hwrite : d.engRefuses u.t (opRgn u.c.d) (opOff u.c.d + 64 * i) 64 rightW = none)
    (hp : (d.rgnFE u.t (opRgn u.c.a) && d.isPoison u.t (opRgn u.c.a)) = false) :
    (d.copyUnit u i).1 = d.setBytes (d.rgnAddr u.t (opRgn u.c.d) (opOff u.c.d + 64 * i))
      (d.bytesAt (d.rgnAddr u.t (opRgn u.c.a) (opOff u.c.a + 64 * i)) 64) := by
  unfold Die.copyUnit Die.engRead
  rw [Die.engReadAs_of_allowed hr hread hp]
  exact Die.engWrite_of_allowed hw (by rw [Option.getD_some, Die.bytesAt_length]; exact hwrite)

theorem copy_leaves (hc : s.die.runsClean n th c = true) (hop : descOp c = ocCopy)
    (hp : (s.die.rgnFE n (opRgn c.a) && s.die.isPoison n (opRgn c.a)) = false)
    (hapart : apart (s.die.opAt n c.a) (64 * descCount c) (s.die.opAt n c.d) (64 * descCount c)) :
    ∃ t : State, exec (.copy n th c) s = .next t ∧ t.die.regs = s.die.regs ∧
      t.die.bytesAt (s.die.opAt n c.d) (64 * descCount c) = s.die.bytesAt (s.die.opAt n c.a) (64 * descCount c) := by
  obtain ⟨-, -, ⟨x, hx⟩, -⟩ := Die.runsClean_spec hc
  obtain ⟨-, rfl, rfl⟩ := Die.runnable_spec hx
  have hbegun := s.die.begun_around n x
  rw [← s.die.bytesAt_units]
  refine units_leave_blocks (g := fun e u k => e.copyUnit u k) (fun _ => rfl) hc hop hx (fun k => Die.bytesAt_length _ _ _) ?_
  intro e k hk he
  have hend := unit_le 64 hk
  have hregs : e.regs = s.die.regs := by rw [he, Die.setBytes_regs, hbegun.regs]
  have hpoison : (e.rgnFE n (opRgn x.desc.a) && e.isPoison n (opRgn x.desc.a)) = false := by
    rw [Die.rgnFE_of_regs hregs, ← hp, ← s.die.begun_isPoison n x]
    unfold Die.isPoison Die.feOf
    rw [he, Die.setBytes_tile]
  have hread := src_allowed hc (by rw [hop]; decide) (L := 64 * descCount x.desc) (by rw [Die.srcSpans, hop]; exact fun _ h => h)
    hend
  have hwrite := dst_allowed hc (by rw [hop]; decide) (L := 64 * descCount x.desc) (by rw [Die.dstSpans, hop]; rfl) hend
  have hbytes : e.bytesAt (s.die.opAt n x.desc.a + 64 * k) 64 = s.die.bytesAt (s.die.opAt n x.desc.a + 64 * k) 64 := by
    refine Die.bytesAt_congr fun b hlo hhi => ?_
    unfold apart at hapart
    rw [he, Die.byteAt_setBytes_out _ _ _ _ (by
      rw [length_flatten_map (fun k => Die.bytesAt_length _ _ _), List.length_range]; omega)]
    exact hbegun.mem b
  rw [hop, if_neg (by decide)] at hread
  rw [Die.copyUnit_of_allowed (u := x.cur n) rfl rfl ((Die.engRefuses_of_regs hregs _ _ _ _ _).trans hread)
    ((Die.engRefuses_of_regs hregs _ _ _ _ _).trans hwrite) hpoison, Die.rgnAddr_of_regs hregs, Die.rgnAddr_of_regs hregs,
    Die.rgnAddr_add, Die.rgnAddr_add]
  exact congrArg _ hbytes

theorem fill_leaves (hc : s.die.runsClean n th c = true) (hop : descOp c = ocFill) :
    ∃ t : State, exec (.fill n th c) s = .next t ∧ t.die.regs = s.die.regs ∧ t.die.bytesAt (s.die.opAt n c.d) (64 * descCount c) =
      (List.replicate (descCount c) (pattern64 (descP1 c))).flatten := by
  obtain ⟨-, -, ⟨x, hx⟩, -⟩ := Die.runsClean_spec hc
  obtain ⟨-, rfl, rfl⟩ := Die.runnable_spec hx
  have hbegun := s.die.begun_around n x
  rw [show List.replicate (descCount x.desc) (pattern64 (descP1 x.desc)) =
    (List.range (descCount x.desc)).map (fun _ => pattern64 (descP1 x.desc)) by simp]
  refine units_leave_blocks (g := fun e u k => (e.engWrite u x.desc.d (64 * k) (pattern64 (descP1 x.desc)), false)) (fun _ => rfl)
    hc hop hx (fun _ => pattern64_length _) ?_
  intro e k hk he
  have hregs : e.regs = s.die.regs := by rw [he, Die.setBytes_regs, hbegun.regs]
  have hwrite := dst_allowed hc (by rw [hop]; decide) (L := 64 * descCount x.desc) (by rw [Die.dstSpans, hop]; rfl) (unit_le 64 hk)
  dsimp only
  rw [Die.engWrite_of_allowed (u := x.cur n) rfl
    ((Die.engRefuses_of_regs hregs _ _ _ _ _).trans (by rw [pattern64_length]; exact hwrite)),
    Die.rgnAddr_of_regs hregs, Die.rgnAddr_add]
  rfl

end

/-! ### LOAD and STORE -/

section
variable {s : State} {n th : Nat} {c : Desc}

/-- Units that each ask for one request. -/
theorem Die.moveUnits_asks {d : Die} {u : Cur} {m : Nat} {g : Die → Nat → Die × Bool × Nat}
    (h : ∀ e i, i < m → OwnState u.t d e → ∃ a l w x, (g e i).1 = e.ask u a l w x) :
    OwnState u.t d (d.moveUnits m g).d ∧ ((d.moveUnits m g).d.tile u.t).reqs.length = (d.tile u.t).reqs.length + m := by
  have hall : ∀ k, k ≤ m → OwnState u.t d (d.moveUnits k g).d ∧
      ((d.moveUnits k g).d.tile u.t).reqs.length = (d.tile u.t).reqs.length + k := by
    intro k hk
    induction k with
    | zero => exact ⟨OwnState.refl _ _, rfl⟩
    | succ j ih =>
      obtain ⟨hown, hlen⟩ := ih (by omega)
      obtain ⟨a, l, w, x, hask⟩ := h _ j (by omega) hown
      unfold Die.moveUnits at hown hlen hask ⊢
      rw [List.range_succ, List.foldl_append, List.foldl_cons, List.foldl_nil]
      dsimp only
      rw [hask]
      unfold Die.ask
      refine ⟨hown.trans (Die.modTile_own _ _ rfl), ?_⟩
      rw [Die.tile_modTile_same]
      dsimp only
      rw [List.length_append, hlen]
      rfl
  exact hall m le_rfl

/-- An operation whose units each make one request. -/
theorem moves_request {i : Instr} {op : Nat} {g : Die → Cur → Nat → Die × Bool × Nat}
    (hexec : ∀ s, exec i s = opCmd op n c (fun d => d.runOp n th c fun d u _ => d.moveUnits (descCount c) (fun e k => g e u k)) s)
    (hc : s.die.runsClean n th c = true) (hop : descOp c = op) {x : Exec} (hx : s.die.runnable n th c = some x)
    (hg : ∀ e k, k < descCount c → e.regs = s.die.regs → ∃ a l w y, (g e (x.cur n) k).1 = e.ask (x.cur n) a l w y) :
    ∃ t : State, exec i s = .next t ∧ SameMem s.die t.die ∧ t.die.regs = s.die.regs ∧
      (t.die.tile n).reqs.length = (s.die.tile n).reqs.length + descCount c := by
  have hbegun := s.die.begun_around n x
  obtain ⟨hown, hlen⟩ := Die.moveUnits_asks (u := x.cur n) (d := s.die.begun n x) (m := descCount c)
    (g := fun e k => g e (x.cur n) k) fun e k hk he => hg e k hk (he.regs.trans hbegun.regs)
  have haround := Die.runOp_around hc hx (f := fun d u _ => d.moveUnits (descCount c) (fun e k => g e u k)) rfl
  refine ⟨_, exec_opCmd hexec hc hop, fun a => ((haround.mem a).trans (hown.mem a)).trans (hbegun.mem a),
    haround.regs.trans (hown.regs.trans hbegun.regs), ?_⟩
  dsimp only
  rw [haround.reqs, ← hbegun.reqs]
  exact hlen

/-- With no list at X, a unit stands at its number. -/
theorem Die.unitAt_of_none {u : Cur} (d : Die) (h : hasOp u.c.x = false) (i : Nat) :
    d.unitAt u i = (d, some (unitAddr (descP1 u.c) + loadUnit (descP0 u.c) * i)) := by
  unfold Die.unitAt
  dsimp only
  rw [h]
  rfl

/-- A unit of LOAD that may reach its line asks for it. -/
theorem Die.loadOne_asks {d : Die} {u : Cur} {i : Nat} (hx : hasOp u.c.x = false) (hw : u.noWrite = [])
    (hok : d.reqAllowed u (unitAddr (descP1 u.c) + loadUnit (descP0 u.c) * i) (loadUnit (descP0 u.c)) = true) :
    ∃ a l w y, (d.loadOne u i).1 = d.ask u a l w y := by
  unfold Die.loadOne
  dsimp only
  rw [d.unitAt_of_none hx]
  dsimp only
  rw [if_neg (by rw [hok]; decide), if_neg (by rw [hw]; exact Bool.false_ne_true)]
  exact ⟨_, _, _, _, rfl⟩

/-- A unit of STORE that may reach its line asks for the write. -/
theorem Die.storeOne_asks {d : Die} {u : Cur} {i : Nat} (hx : hasOp u.c.x = false)
    (hread : d.engRefuses u.t (opRgn u.c.a) (opOff u.c.a + loadUnit (descP0 u.c) * i) (loadUnit (descP0 u.c)) rightR = none)
    (hok : d.reqAllowed u (unitAddr (descP1 u.c) + loadUnit (descP0 u.c) * i) (loadUnit (descP0 u.c)) = true) :
    ∃ a l w y, (d.storeOne u i).1 = d.ask u a l w y := by
  have hfst : (d.engRead u u.c.a (loadUnit (descP0 u.c) * i) (loadUnit (descP0 u.c))).1 = d := Die.engReadAs_fst hread
  unfold Die.storeOne
  dsimp only
  rw [d.unitAt_of_none hx]
  dsimp only
  rw [hfst, if_neg (by rw [hok]; decide)]
  exact ⟨_, _, _, _, rfl⟩

theorem load_requests (hc : s.die.runsClean n th c = true) (hop : descOp c = ocLoad) (hnone : hasOp c.x = false)
    (hok : ∀ i, i < descCount c → tileReqOk ocLoad (s.die.threadClass n th) (unitAddr (descP1 c) + loadUnit (descP0 c) * i)
      (loadUnit (descP0 c)) = true) :
    ∃ t : State, exec (.load n th c) s = .next t ∧ SameMem s.die t.die ∧ t.die.regs = s.die.regs ∧
      (t.die.tile n).reqs.length = (s.die.tile n).reqs.length + descCount c := by
  obtain ⟨-, -, ⟨x, hx⟩, -⟩ := Die.runsClean_spec hc
  obtain ⟨-, rfl, rfl⟩ := Die.runnable_spec hx
  refine moves_request (g := fun e u k => e.loadOne u k) (fun _ => rfl) hc hop hx fun e k hk hregs => ?_
  refine Die.loadOne_asks (u := x.cur n) hnone rfl ?_
  unfold Die.reqAllowed
  rw [Die.threadClass_of_regs hregs]
  exact hop ▸ hok k hk

theorem store_requests (hc : s.die.runsClean n th c = true) (hop : descOp c = ocStore) (hnone : hasOp c.x = false)
    (hok : ∀ i, i < descCount c → tileReqOk ocStore (s.die.threadClass n th) (unitAddr (descP1 c) + loadUnit (descP0 c) * i)
      (loadUnit (descP0 c)) = true) :
    ∃ t : State, exec (.store n th c) s = .next t ∧ SameMem s.die t.die ∧ t.die.regs = s.die.regs ∧
      (t.die.tile n).reqs.length = (s.die.tile n).reqs.length + descCount c := by
  obtain ⟨-, -, ⟨x, hx⟩, -⟩ := Die.runsClean_spec hc
  obtain ⟨-, rfl, rfl⟩ := Die.runnable_spec hx
  refine moves_request (g := fun e u k => e.storeOne u k) (fun _ => rfl) hc hop hx fun e k hk hregs => ?_
  have hread := src_allowed hc (by rw [hop]; decide) (L := loadUnit (descP0 x.desc) * descCount x.desc)
    (by rw [Die.srcSpans, hop]; exact fun _ h => List.mem_append_left _ h) (unit_le (loadUnit (descP0 x.desc)) hk)
  rw [hop, if_neg (by decide)] at hread
  refine Die.storeOne_asks (u := x.cur n) hnone ((Die.engRefuses_of_regs hregs _ _ _ _ _).trans hread) ?_
  unfold Die.reqAllowed
  rw [Die.threadClass_of_regs hregs]
  exact hop ▸ hok k hk

end

/-! ### Buffers, events, streams -/

section
variable {s : State} {n th : Nat} {c : Desc}

theorem bufSet_marks (hc : s.die.runsClean n th c = true) (hop : descOp c = ocBufSet) (hsrc : descFeSrc c = false)
    (hfe : s.die.rgnFE n (opRgn c.d) = true) : ∃ t : State, exec (.bufSet n th c) s = .next t ∧ t.die.regs = s.die.regs ∧
      t.die.feOf n (opRgn c.d) = (!bit (descP0 c) 0, !bit (descP0 c) 0 && bit (descP0 c) 1) := by
  obtain ⟨-, -, ⟨x, hx⟩, -⟩ := Die.runsClean_spec hc
  have hbegun := s.die.begun_around n x
  have hmark : (s.die.begun n x).bufSet n c =
      (s.die.begun n x).mark n (opRgn c.d) (!bit (descP0 c) 0) (bit (descP0 c) 1) :=
    if_pos ((Die.rgnFE_of_regs hbegun.regs _ _).trans hfe)
  obtain ⟨g, hrun⟩ := Die.runOp_eq_of_clean hc hx (f := fun d _ _ => { d := d.bufSet n c }) rfl
  refine ⟨_, exec_opCmd (op := ocBufSet) (g := fun d => d.runOp n th c fun d _ _ => { d := d.bufSet n c }) (fun _ => rfl) hc hop, ?_⟩
  dsimp only
  rw [hrun, if_pos rfl, Die.emptySrc_of_not _ _ hsrc, hmark]
  refine ⟨hbegun.regs, ?_⟩
  unfold Die.feOf Die.modExec Die.mark
  rw [Die.tile_modTile_same, Die.tile_modTile_same]
  exact amGet_amSet_same _ _ _ _

theorem event_tells (hc : s.die.runsClean n th c = true) (hop : descOp c = ocEvent) :
    ∃ t : State, exec (.event n th c) s = .next t ∧ t.die.regs = s.die.regs ∧
      t.die.out = .firmware 8 [n, th, descTag c, descP1 c] :: s.die.out := by
  obtain ⟨-, -, ⟨x, hx⟩, -⟩ := Die.runsClean_spec hc
  have hbegun := s.die.begun_around n x
  have haround := Die.runOp_around hc hx (f := fun d _ _ => { d := d.emit (.firmware 8 [n, th, descTag c, descP1 c]) }) rfl
  refine ⟨_, exec_opCmd (op := ocEvent)
    (g := fun d => d.runOp n th c fun d _ _ => { d := d.emit (.firmware 8 [n, th, descTag c, descP1 c]) }) (fun _ => rfl) hc hop,
    haround.regs.trans hbegun.regs, haround.out.trans ?_⟩
  rw [Die.emit_out, hbegun.out]

theorem look_amErase {α : Type} (m : List (Nat × α)) (k : Nat) : look (amErase m k) k = none := by
  induction m with
  | nil => rfl
  | cons p r ih =>
    rw [amErase]
    split
    · exact ih
    next h => rw [look, if_neg h, ih]

theorem tideEnd_endsStream (hc : s.die.runsClean n th c = true) (hop : descOp c = ocTideEnd)
    (hlast : (s.die.execsOf n th).length = 1) : ∃ t : State, exec (.tideEnd n th c) s = .next t ∧
      Ran n th c t.die ∧ look (t.die.tile n).streams th = none ∧ SameMem s.die t.die ∧ t.die.regs = s.die.regs := by
  obtain ⟨-, -, ⟨x, hx⟩, -⟩ := Die.runsClean_spec hc
  have hbegun := s.die.begun_around n x
  have hend := (s.die.begun n x).modTile_own (n := n) (fun y => { y with streams := amErase y.streams th }) rfl
  have haround := Die.runOp_around hc hx
    (f := fun d _ _ => { d := d.modTile n (fun y => { y with streams := amErase y.streams th }) }) rfl
  have hexec := exec_opCmd (i := .tideEnd n th c) (op := ocTideEnd) (g := fun d =>
    if (d.execsOf n th).length = 1 then
      d.runOp n th c (fun d _ _ => { d := d.modTile n (fun y => { y with streams := amErase y.streams th }) })
    else d) (fun _ => rfl) hc hop
  rw [if_pos hlast] at hexec
  obtain ⟨t, ht, -, -, hran, hmem⟩ := ran_of_execs hexec hc hx rfl (hend.execs.trans (s.die.begun_own n x).execs) rfl
  obtain rfl := Host.Outcome.next.inj (hexec.symm.trans ht)
  refine ⟨_, ht, hran, ?_, fun a => ((hmem a).trans (hend.mem a)).trans (hbegun.mem a), haround.regs.trans hbegun.regs⟩
  dsimp only
  rw [haround.streams, Die.tile_modTile_same]
  exact look_amErase _ _

end

/-! ### DMA_START and POST -/

section
variable {s : State} {n th : Nat} {c : Desc}

theorem Die.putRun_keepsWork (d : Die) (e : DmaEng) (ch : Nat) (r : DmaRun) : KeepsWork d (d.putRun e ch r) :=
  ⟨rfl, rfl, rfl, rfl, SameMem.refl d⟩

theorem Die.crcStart_keepsWork (d : Die) (u : CrcUnit) : KeepsWork d (d.crcStart u) := d.putW_keepsWork _ _

theorem Die.dmaBegin_keepsWork (d : Die) (e : DmaEng) (ch : Nat) (r : DmaRun) : KeepsWork d (d.dmaBegin e ch r) := by
  unfold Die.dmaBegin
  dsimp only
  generalize hd : Die.raise _ _ = d2
  have h2 : KeepsWork d d2 := by rw [← hd]; exact ⟨rfl, rfl, rfl, rfl, SameMem.refl d⟩
  split
  · exact h2.trans (d2.putRun_keepsWork _ _ _)
  · split
    · exact h2.trans (d2.putRun_keepsWork _ _ _)
    · split
      · exact h2.trans (d2.putRun_keepsWork _ _ _)
      · split
        · exact (h2.trans (d2.put_keepsWork _ _)).trans (Die.putRun_keepsWork _ _ _ _)
        · have hbound := (h2.trans (d2.raise_keepsWork (crcBoundF (dmaUnit e r)))).trans
            (Die.putRun_keepsWork _ e ch { r with bound := true })
          split
          · exact hbound
          · exact hbound.trans (Die.crcStart_keepsWork _ _)

theorem Die.dmaStart_keepsWork {d : Die} {u : Cur} (h : d.engRefuses u.t (opRgn u.c.a) (opOff u.c.a) 32 rightR = none) (ch : Nat) :
    KeepsWork d (d.dmaStart u ch).d := by
  have hfst : (d.engRead u u.c.a 0 32).1 = d := Die.engReadAs_fst h
  unfold Die.dmaStart
  dsimp only
  rw [hfst]
  split
  · exact d.dmaBegin_keepsWork _ _ _
  · exact ((d.put_keepsWork _ _).trans (Die.raise_keepsWork _ _)).trans (Die.putRun_keepsWork _ _ _ _)

theorem Die.dmaStart_drained (d : Die) (u : Cur) (ch : Nat) : (d.dmaStart u ch).drained = true := by
  unfold Die.dmaStart
  dsimp only
  split <;> rfl

theorem dmaStart_runs (hc : s.die.runsClean n th c = true) (hop : descOp c = ocDmaStart)
    (hidle : s.die.get (chState (.tile n) (descP0 c)) = 0) : ∃ t : State, exec (.dmaStart n th c) s = .next t ∧
      Ran n th c t.die ∧ SameMem s.die t.die := by
  obtain ⟨-, -, ⟨x, hx⟩, -⟩ := Die.runsClean_spec hc
  obtain ⟨-, rfl, rfl⟩ := Die.runnable_spec hx
  have hbegun := s.die.begun_around n x
  have hread := src_allowed hc (by rw [hop]; decide) (L := 32) (off := 0) (len := 32)
    (by rw [Die.srcSpans, hop]; exact fun _ h => h) (by omega)
  rw [hop, if_neg (by decide)] at hread
  have hwork := Die.dmaStart_keepsWork (d := s.die.begun n x) (u := x.cur n)
    ((Die.engRefuses_of_regs hbegun.regs _ _ _ _ _).trans hread) (descP0 x.desc)
  have hexec := exec_opCmd (i := .dmaStart n x.thread x.desc) (op := ocDmaStart) (g := fun d =>
    if d.get (chState (.tile n) (descP0 x.desc)) = 0 then
      d.runOp n x.thread x.desc (fun d u _ => d.dmaStart u (descP0 x.desc)) else d) (fun _ => rfl) hc hop
  rw [if_pos hidle] at hexec
  obtain ⟨t, ht, -, -, hran, hmem⟩ := ran_of_execs hexec hc hx rfl
    ((congrArg Tile1.execs (hwork.tile n)).trans (s.die.begun_own n x).execs) (Die.dmaStart_drained _ _ _)
  exact ⟨t, ht, hran, fun a => ((hmem a).trans (hwork.mem a)).trans (hbegun.mem a)⟩

/-! ### POST -/

/-- `k` descriptors more wait in the pool queue of tile `n`, and nothing else has moved but what ENG_POOL_STATUS shows. -/
structure Posted (n k : Nat) (d e : Die) : Prop where
  execs : (e.tile n).execs = (d.tile n).execs
  fe : (e.tile n).fe = (d.tile n).fe
  pool : (e.tile n).pool.length = (d.tile n).pool.length + k
  mem : SameMem d e
  regs : OnlyRegs [Reg.ENG_POOL_STATUS n] d e

theorem Posted.refl (n : Nat) (d : Die) : Posted n 0 d d := ⟨rfl, rfl, rfl, SameMem.refl d, OnlyRegs.refl _ d⟩

theorem Posted.trans {k j : Nat} {d e f : Die} (h : Posted n k d e) (i : Posted n j e f) : Posted n (k + j) d f :=
  ⟨i.execs.trans h.execs, i.fe.trans h.fe, by rw [i.pool, h.pool, Nat.add_assoc], fun a => (i.mem a).trans (h.mem a),
    h.regs.trans i.regs⟩

/-- ENG_POOL_STATUS is no register of a region. -/
theorem Posted.limit {k : Nat} {d e : Die} (h : Posted n k d e) (r : Nat) :
    e.getW (Reg.ENG_RGN_LIMIT n r) = d.getW (Reg.ENG_RGN_LIMIT n r) :=
  h.regs _ (List.mem_singleton.not.2 (by unfold Reg.ENG_RGN_LIMIT Reg.ENG_POOL_STATUS; omega))

theorem Posted.isPoison {k : Nat} {d e : Die} (h : Posted n k d e) (r : Nat) : e.isPoison n r = d.isPoison n r := by
  unfold Die.isPoison Die.feOf
  rw [h.fe]

/-- The pool queue takes an entry, and ENG_POOL_STATUS shows its new depth where none was greater (R204). -/
def Die.postEntry (d : Die) (n : Nat) (q : PoolEntry) : Die :=
  (d.modTile n (fun x => { x with pool := x.pool ++ [q] })).atLeast (Reg.ENG_POOL_STATUS_MAX n)
    ((d.modTile n (fun x => { x with pool := x.pool ++ [q] })).tile n).pool.length

theorem Die.postEntry_tile (d : Die) (n : Nat) (q : PoolEntry) :
    (d.postEntry n q).tile n = { d.tile n with pool := (d.tile n).pool ++ [q] } := by
  unfold Die.postEntry Die.atLeast
  rw [Die.put_tile, Die.tile_modTile_same]

theorem Die.postEntry_posted (d : Die) (n : Nat) (q : PoolEntry) : Posted n 1 d (d.postEntry n q) := by
  have hpool : ((d.postEntry n q).tile n).pool.length = (d.tile n).pool.length + 1 := by
    rw [Die.postEntry_tile]
    exact List.length_append
  refine ⟨?_, ?_, hpool, Die.put_byteAt (d.modTile n _) _ _, onlyRegs_put (d.modTile n _) _ (List.mem_singleton_self _)⟩
  all_goals rw [Die.postEntry_tile]

/-- With room in the queue, and its source allowed and not poisoned, POST posts its next descriptor and goes on. -/
theorem Die.postUnits_succ {d : Die} {u : Cur} {done : Nat} (hno : u.noRead = [])
    (hread : d.engRefuses u.t (opRgn u.c.a) (opOff u.c.a + 32 * done) 32 rightDS = none)
    (hp : (d.rgnFE u.t (opRgn u.c.a) && d.isPoison u.t (opRgn u.c.a)) = false) (hroom : (d.tile u.t).pool.length < 256) (k : Nat) :
    ∃ q, d.postUnits u (k + 1) done = (d.postEntry u.t q).postUnits u k (done + 1) := by
  rw [Die.postUnits, if_neg (Nat.not_le.2 hroom), Die.engReadAs_of_allowed hno hread hp]
  exact ⟨_, rfl⟩

theorem Die.postUnits_all {u : Cur} (hno : u.noRead = []) (m : Nat) : ∀ (done : Nat) (d : Die),
    (∀ j, done ≤ j → j < done + m → d.engRefuses u.t (opRgn u.c.a) (opOff u.c.a + 32 * j) 32 rightDS = none) →
    (d.rgnFE u.t (opRgn u.c.a) && d.isPoison u.t (opRgn u.c.a)) = false → (d.tile u.t).pool.length + m ≤ 256 →
    Posted u.t m d (d.postUnits u m done).1 ∧ (d.postUnits u m done).2.2 = done + m := by
  induction m with
  | zero => exact fun done d _ _ _ => ⟨Posted.refl _ d, rfl⟩
  | succ k ih =>
    intro done d hread hp hroom
    obtain ⟨q, hstep⟩ := Die.postUnits_succ hno (hread done le_rfl (by omega)) hp (by omega) k
    have hone := d.postEntry_posted u.t q
    obtain ⟨hrest, hdone⟩ := ih (done + 1) (d.postEntry u.t q)
      (fun j hlo hhi => (Die.engRefuses_of_limit (hone.limit _) _ _ _).trans (hread j (by omega) (by omega)))
      (by rw [Die.rgnFE_of_limit (hone.limit _), hone.isPoison]; exact hp)
      (by rw [hone.pool]; omega)
    rw [hstep]
    exact ⟨Nat.add_comm 1 k ▸ hone.trans hrest, by rw [hdone]; omega⟩

/-- The operation of POST. -/
def postOp (c : Desc) (d : Die) (u : Cur) (e : Exec) : Done :=
  let r := d.postUnits u (descCount c - e.units) e.units
  { d := r.1, bad := r.2.1, units := r.2.2, drained := r.2.2 == descCount c }

theorem post_posts (hc : s.die.runsClean n th c = true) (hop : descOp c = ocPost) {x : Exec} (hx : s.die.runnable n th c = some x)
    (hp : (s.die.rgnFE n (opRgn c.a) && s.die.isPoison n (opRgn c.a)) = false) (hle : x.units ≤ descCount c)
    (hroom : (s.die.tile n).pool.length + (descCount c - x.units) ≤ 256) : ∃ t : State, exec (.post n th c) s = .next t ∧
      Ran n th c t.die ∧ (t.die.tile n).pool.length = (s.die.tile n).pool.length + (descCount c - x.units) ∧
      SameMem s.die t.die ∧ OnlyRegs [Reg.ENG_POOL_STATUS n] s.die t.die := by
  obtain ⟨-, rfl, rfl⟩ := Die.runnable_spec hx
  have hbegun := s.die.begun_around n x
  have hread : ∀ j, x.units ≤ j → j < x.units + (descCount x.desc - x.units) →
      (s.die.begun n x).engRefuses n (opRgn x.desc.a) (opOff x.desc.a + 32 * j) 32 rightDS = none := by
    intro j _ hj
    have hsrc := src_allowed hc (by rw [hop]; decide) (L := 32 * descCount x.desc) (by rw [Die.srcSpans, hop]; exact fun _ h => h)
      (unit_le (i := j) 32 (by omega))
    rw [if_pos hop] at hsrc
    exact (Die.engRefuses_of_regs hbegun.regs _ _ _ _ _).trans hsrc
  obtain ⟨hposted, hdone⟩ := Die.postUnits_all (u := x.cur n) rfl (descCount x.desc - x.units) x.units (s.die.begun n x) hread
    (by rw [Die.rgnFE_of_regs hbegun.regs, show (x.cur n).t = n from rfl, Die.begun_isPoison]; exact hp)
    (by rw [show (x.cur n).t = n from rfl, hbegun.pool]; exact hroom)
  have hpool := (Die.runOp_around hc hx (f := postOp x.desc) rfl).pool
  have hregs := (Die.runOp_around hc hx (f := postOp x.desc) rfl).onlyRegs [Reg.ENG_POOL_STATUS n]
  have hexec := exec_opCmd (i := .post n x.thread x.desc) (op := ocPost)
    (g := fun d => d.runOp n x.thread x.desc (postOp x.desc)) (fun _ => rfl) hc hop
  obtain ⟨t, ht, -, -, hran, hmem⟩ := ran_of_execs hexec hc hx rfl (hposted.execs.trans (s.die.begun_own n x).execs) (beq_iff_eq.2 (hdone.trans (by omega)))
  obtain rfl := Host.Outcome.next.inj (hexec.symm.trans ht)
  refine ⟨_, ht, hran, (congrArg List.length hpool).trans (hposted.pool.trans ?_), fun a => ((hmem a).trans (hposted.mem a)).trans (hbegun.mem a),
    ((hbegun.onlyRegs _).trans hposted.regs).trans hregs⟩
  exact congrArg (fun l => l.length + (descCount x.desc - x.units)) hbegun.pool

end

/-- Settles O32: what each operation leaves as it works, with nothing else moved as it begins and ends. -/
theorem moversAndControlLeaveTheirResults : Obligations.MoversAndControlLeaveTheirResults := by
  unfold Obligations.MoversAndControlLeaveTheirResults
  intro s n th c hc
  refine ⟨copy_leaves hc, fill_leaves hc, load_requests hc, store_requests hc, bufSet_marks hc, event_tells hc,
    tideEnd_endsStream hc, dmaStart_runs hc, fun hop hnew hp hroom => ?_, fun e hop he hp hle hroom => ?_⟩
  · obtain ⟨-, -, ⟨x, hx⟩, -⟩ := Die.runsClean_spec hc
    have hunits := hnew x hx
    have hposts := post_posts hc hop hx hp (by omega)
    rw [hunits] at hposts
    exact hposts hroom
  · obtain ⟨t, ht, hran, hpool, hmem, -⟩ := post_posts hc hop he hp hle hroom
    exact ⟨t, ht, hran, hpool, hmem⟩

end Sys2Proof.Machine
end

section
/-! PROOFS. What a thread does with its next descriptor (R173, R176, R187, R190). -/
namespace Sys2Proof.Machine

variable {d e : Die} {n th : Nat} {c : Desc}

/-! ### What a dispatch looks at -/

/-- What a descriptor waits for is a matter of the executing ones, the regions and the memory. -/
theorem OwnState.overlaps (h : OwnState n d e) (th : Nat) (c : Desc) : e.overlaps n th c = d.overlaps n th c := by
  have hread : e.readBytes n c = d.readBytes n c := by
    rw [h.rest]
    rfl
  have hdst : ∀ x, e.dstSpans n x = d.dstSpans n x := fun x => by
    rw [h.rest]
    rfl
  unfold Die.overlaps Die.execsOf
  simp only [hread, hdst, h.execs]

theorem Die.dispatch_of_sched {off : Nat} (hcls : d.threadClass n th = 1) (hoff : look (d.tile n).streams th = some off) :
    d.dispatch n th = d.dispatchSched n th off := by
  unfold Die.dispatch
  rw [hcls, hoff]
  rfl

/-- The tile once a thread's descriptor has been fetched and taken off its stream. -/
def Die.fetched (d : Die) (n th off : Nat) : Die :=
  (d.sramUse n (d.rgnOff n 0 + off) 32).modTile n (fun x => { x with streams := keep x.streams th (off + 32) })

theorem Die.fetched_own (d : Die) (n th off : Nat) : OwnState n d (d.fetched n th off) :=
  (d.sramUse_own _ _ _).trans (Die.modTile_own _ _ rfl)

theorem Die.fetched_streams (d : Die) (n th off : Nat) : look ((d.fetched n th off).tile n).streams th = some (off + 32) := by
  unfold Die.fetched
  rw [Die.tile_modTile_same]
  exact look_keep_same _ _ _

theorem Die.dispatchSched_of_allowed {off : Nat} (h : d.engRefuses n 0 off 32 rightDS = none) :
    d.dispatchSched n th off = (d.sramUse n (d.rgnOff n 0 + off) 32).takeDesc n th (d.descAt (d.rgnAddr n 0 off)) none
      (fun e => e.modTile n (fun x => { x with streams := keep x.streams th (off + 32) })) := by
  unfold Die.dispatchSched
  rw [h]

theorem Die.dispatchSched_of_refused {off k : Nat} (h : d.engRefuses n 0 off 32 rightDS = some k) :
    d.dispatchSched n th off =
      (d.modTile n (fun x => { x with streams := amErase x.streams th })).tileFault n k th 0 0 off 0 := by
  unfold Die.dispatchSched
  rw [h]

/-- A well formed descriptor that waits for no earlier one starts. -/
theorem Die.dispatch_starts {off : Nat} (hcls : d.threadClass n th = 1) (hoff : look (d.tile n).streams th = some off)
    (hok : d.engRefuses n 0 off 32 rightDS = none) (hm : malformed (d.descAt (d.rgnAddr n 0 off)) 1 = false)
    (ho : d.overlaps n th (d.descAt (d.rgnAddr n 0 off)) = false) :
    d.dispatch n th = (d.fetched n th off).startExec n th (d.descAt (d.rgnAddr n 0 off)) none := by
  have hown := d.sramUse_own n (d.rgnOff n 0 + off) 32
  rw [Die.dispatch_of_sched hcls hoff, Die.dispatchSched_of_allowed hok, Die.takeDesc, Die.threadClass_of_regs hown.regs, hcls,
    hm, hown.overlaps, ho]
  rfl

theorem Die.dispatch_malforms {off : Nat} (hcls : d.threadClass n th = 1) (hoff : look (d.tile n).streams th = some off)
    (hok : d.engRefuses n 0 off 32 rightDS = none) (hm : malformed (d.descAt (d.rgnAddr n 0 off)) 1 = true) :
    d.dispatch n th = (d.fetched n th off).malform n th (d.descAt (d.rgnAddr n 0 off)) none := by
  have hown := d.sramUse_own n (d.rgnOff n 0 + off) 32
  rw [Die.dispatch_of_sched hcls hoff, Die.dispatchSched_of_allowed hok, Die.takeDesc, Die.threadClass_of_regs hown.regs, hcls, hm]
  rfl

/-! ### Marks, events and faults leave the executing descriptors -/

theorem Die.modTile_sameExecs (d : Die) (n : Nat) (g : Tile1 → Tile1) (h : (g (d.tile n)).execs = (d.tile n).execs) :
    SameExecs d (d.modTile n g) := d.setTile_sameExecs n _ h

theorem Die.markDst_sameExecs (d : Die) (n : Nat) (c : Desc) (p : Bool) : SameExecs d (d.markDst n c p) := by
  unfold Die.markDst
  split
  · exact d.modTile_sameExecs n _ rfl
  · exact SameExecs.refl d

/-- A descriptor of no pool thread has no due tide, and retires with its event and its count. -/
theorem Die.retired_of_sched (d : Die) (n th : Nat) (c : Desc) : d.retired n th c none = (d.evtEvent n th c).countRetired n := rfl

theorem Die.evtEvent_keepsWork (d : Die) (n th : Nat) (c : Desc) : KeepsWork d (d.evtEvent n th c) ∧ (d.evtEvent n th c).regs = d.regs := by
  unfold Die.evtEvent
  split
  · exact ⟨(logsOnly_emit d _).keepsWork, rfl⟩
  · exact ⟨KeepsWork.refl d, rfl⟩

theorem Die.malform_sameExecs (d : Die) (n th : Nat) (c : Desc) : SameExecs d (d.malform n th c none) := by
  have hfault := (d.markDst n c true).tileFault_notes n fkMalformed th (descOp c) 0xFF 0 (descTag c)
  unfold Die.malform
  refine ((d.markDst_sameExecs n c true).trans hfault.sameExecs).trans (sameExecs_of_tiles ?_)
  rw [Die.retired_of_sched]
  exact ((Die.evtEvent_keepsWork _ _ _ _).1.trans (Die.bump64_keepsWork _ _ _)).tiles

/-- The faults of an access are not that of a malformed descriptor (R200). -/
theorem Die.engRefuses_ne_malformed {r off len b k : Nat} (h : d.engRefuses n r off len b = some k) : k ≠ fkMalformed := by
  unfold Die.engRefuses at h
  split at h
  · exact Option.some.inj h ▸ by decide
  · split at h
    · exact Option.some.inj h ▸ by decide
    · split at h
      · exact Option.some.inj h ▸ by decide
      · exact nomatch h

/-- A refused access is shown in ENG_STATUS (R186, R201). -/
theorem Die.tileFault_refused (d : Die) {k : Nat} (hk : k ≠ fkMalformed) (n th op rgn off tag : Nat) :
    (d.tileFault n k th op rgn off tag).get (Reg.ENG_STATUS_FAULT n) = 1 := by
  have hlog : (Reg.ENG_STATUS_FAULT n).addr ∉ logRegs := fun h => by
    have := logRegs_lt_tileAddr h n
    unfold Reg.ENG_STATUS_FAULT Reg.ENG_STATUS at this
    dsimp only at this
    omega
  unfold Die.tileFault
  dsimp only
  rw [if_neg hk, Die.get_of_getW (Die.getW_of_regs (Die.stepFault_keepsWork _).2 _), Die.emit_get, (Die.record_onlyRegs _ _ _ _ _ _).get hlog]
  exact Die.get_put_same _ _ 1 (by simp [Reg.ENG_STATUS_FAULT])

/-! ### The command -/

section
variable {s : State} {off : Nat}

theorem exec_descriptorDispatch (hl : s.die.live = true) (hm : s.die.mayDispatch n th = true) :
    exec (.descriptorDispatch n th) s = .next { s with die := s.die.dispatch n th } :=
  mainCmd_ok (ok := fun d => d.mayDispatch n th) (f := fun d => d.dispatch n th) hl hm

theorem descriptorDispatch_starts (hl : s.die.live = true) (hmay : s.die.mayDispatch n th = true)
    (hcls : s.die.threadClass n th = 1) (hoff : look (s.die.tile n).streams th = some off)
    (hok : s.die.engRefuses n 0 off 32 rightDS = none) (hcd : c = s.die.descAt (s.die.rgnAddr n 0 off))
    (hm : malformed c 1 = false) (ho : s.die.overlaps n th c = false) :
    ∃ t : State, exec (.descriptorDispatch n th) s = .next t ∧ t.pending = s.pending ∧
      t.carrier = s.carrier ∧ (∃ x : Exec, x.thread = th ∧ x.desc = c ∧ x.ran = false ∧
        (t.die.tile n).execs = (s.die.tile n).execs ++ [x]) ∧ look (t.die.tile n).streams th = some (off + 32) ∧
      t.die.regs = s.die.regs ∧ SameMem s.die t.die := by
  subst hcd
  have hown := s.die.fetched_own n th off
  refine ⟨_, exec_descriptorDispatch hl hmay, rfl, rfl, ?_⟩
  dsimp only
  rw [Die.dispatch_starts hcls hoff hok hm ho]
  unfold Die.startExec
  rw [Die.tile_modTile_same]
  exact ⟨⟨_, rfl, rfl, rfl, congrArg (· ++ _) hown.execs⟩, s.die.fetched_streams n th off, hown.regs, hown.mem⟩

theorem descriptorDispatch_malformed (hl : s.die.live = true) (hmay : s.die.mayDispatch n th = true)
    (hcls : s.die.threadClass n th = 1) (hoff : look (s.die.tile n).streams th = some off)
    (hok : s.die.engRefuses n 0 off 32 rightDS = none) (hcd : c = s.die.descAt (s.die.rgnAddr n 0 off))
    (hm : malformed c 1 = true) :
    ∃ t : State, exec (.descriptorDispatch n th) s = .next t ∧ t.die.get (Reg.ENG_STATUS_BAD_DESC n) = 1 ∧
      (t.die.tile n).execs = (s.die.tile n).execs ∧ SameMem s.die t.die := by
  subst hcd
  have hown := s.die.fetched_own n th off
  obtain ⟨hmem, hbad⟩ := (s.die.fetched n th off).malform_effect n th (s.die.descAt (s.die.rgnAddr n 0 off)) none
  refine ⟨_, exec_descriptorDispatch hl hmay, ?_⟩
  dsimp only
  rw [Die.dispatch_malforms hcls hoff hok hm]
  exact ⟨hbad, (Die.malform_sameExecs _ _ _ _ n).trans hown.execs, fun a => (hmem a).trans (hown.mem a)⟩

theorem descriptorDispatch_endsStream (hl : s.die.live = true) (hmay : s.die.mayDispatch n th = true)
    (hcls : s.die.threadClass n th = 1) (hoff : look (s.die.tile n).streams th = some off)
    (href : s.die.engRefuses n 0 off 32 rightDS ≠ none) :
    ∃ t : State, exec (.descriptorDispatch n th) s = .next t ∧ look (t.die.tile n).streams th = none ∧
      t.die.get (Reg.ENG_STATUS_FAULT n) = 1 ∧ SameMem s.die t.die := by
  obtain ⟨k, hk⟩ := Option.ne_none_iff_exists'.1 href
  have hfault := (s.die.modTile n (fun x => { x with streams := amErase x.streams th })).tileFault_notes n k th 0 0 off 0
  refine ⟨_, exec_descriptorDispatch hl hmay, ?_⟩
  dsimp only
  rw [Die.dispatch_of_sched hcls hoff, Die.dispatchSched_of_refused hk]
  refine ⟨?_, Die.tileFault_refused _ (Die.engRefuses_ne_malformed hk) _ _ _ _ _ _, hfault.work.mem⟩
  rw [hfault.work.tile, Die.tile_modTile_same]
  exact look_amErase _ _

end

end Sys2Proof.Machine
end

section
/-! PROOFS. Lane groups, retirement, and the combine pipeline's intake (R175, R177, R178, R188, R194, R201). -/
namespace Sys2Proof.Machine

variable {d : Die} {n : Nat} {e : Exec}

/-- The first element that a predicate finds is the one that is changed. -/
theorem mem_modFirst_of_find {α : Type} {p : α → Bool} {x : α} {l : List α} (h : l.find? p = some x) (g : α → α) :
    g x ∈ modFirst p g l := by
  induction l with
  | nil => exact nomatch h
  | cons y r ih =>
    rw [modFirst]
    by_cases hy : p y = true
    · rw [List.find?_cons_of_pos hy] at h
      obtain rfl := Option.some.inj h
      rw [if_pos hy]
      exact List.mem_cons_self
    · rw [List.find?_cons_of_neg hy] at h
      rw [if_neg hy]
      exact List.mem_cons_of_mem _ (ih h)

theorem length_modFirst {α : Type} (p : α → Bool) (g : α → α) (l : List α) : (modFirst p g l).length = l.length := by
  induction l with
  | nil => rfl
  | cons y r ih =>
    rw [modFirst]
    split
    · rfl
    · rw [List.length_cons, List.length_cons, ih]

theorem length_dropPick_of_find {α : Type} {p : α → Bool} {x : α} {l : List α} (h : l.find? p = some x) :
    (dropPick p l).length + 1 = l.length := by
  induction l with
  | nil => exact nomatch h
  | cons y r ih =>
    rw [dropPick]
    by_cases hy : p y = true
    · rw [if_pos hy]
      rfl
    · rw [List.find?_cons_of_neg hy] at h
      rw [if_neg hy, List.length_cons, List.length_cons, ih h]

/-! ### Lane groups (R175) -/

/-- The descriptor to be served is one that executes. -/
theorem Die.laneNext_mem (h : d.laneNext n = some e) : e ∈ (d.tile n).execs := by
  unfold Die.laneNext at h
  dsimp only at h
  split at h
  · exact List.mem_of_mem_filter (List.mem_of_find?_eq_some h)
  · refine List.foldlRecOn (motive := fun b : Option Exec => ∀ y, b = some y → y ∈ (d.tile n).execs) _ _
      (fun y hy => absurd hy.symm (Option.some_ne_none y)) ?_ e h
    intro b hb x hx y hy
    have hmem : x ∈ (d.tile n).execs := List.mem_of_mem_filter (List.mem_of_mem_filter hx)
    split at hy
    · exact Option.some.inj hy ▸ hmem
    next z =>
      split at hy
      · exact Option.some.inj hy ▸ hmem
      · exact hb y hy

theorem Die.laneGrant_of_free (h : d.laneNext n = some e) (hfree : lanesOf e.desc ≤ (d.tile n).freeLanes) :
    d.laneGrant n = (d.modExec n (fun y => y == e) (fun y => { y with waitLg := false, lgs := lanesOf e.desc })).modTile n
      (fun x => { x with reserve := none }) := by
  unfold Die.laneGrant
  rw [h]
  exact if_pos hfree

theorem Die.laneGrant_of_short (h : d.laneNext n = some e) (hshort : (d.tile n).freeLanes < lanesOf e.desc) :
    d.laneGrant n = d.modTile n (fun x => { x with reserve := some e.id }) := by
  unfold Die.laneGrant
  rw [h]
  exact if_neg (Nat.not_le.2 hshort)

section
variable {s : State} {th tag : Nat}

theorem exec_laneGroupGrant (hl : s.die.live = true) (hr : s.die.tileRuns n = true) :
    exec (.laneGroupGrant n) s = .next { s with die := s.die.laneGrant n } :=
  mainCmd_ok (ok := fun d => d.tileRuns n) (f := fun d => d.laneGrant n) hl hr

theorem laneGroupGrant_grants (hl : s.die.live = true) (hr : s.die.tileRuns n = true) (he : s.die.laneNext n = some e)
    (hfree : lanesOf e.desc ≤ (s.die.tile n).freeLanes) : ∃ t : State, exec (.laneGroupGrant n) s = .next t ∧
      { e with waitLg := false, lgs := lanesOf e.desc } ∈ (t.die.tile n).execs ∧ (t.die.tile n).reserve = none ∧
      t.die.regs = s.die.regs ∧ SameMem s.die t.die := by
  refine ⟨_, exec_laneGroupGrant hl hr, ?_⟩
  dsimp only
  rw [Die.laneGrant_of_free he hfree]
  unfold Die.modExec
  rw [Die.tile_modTile_same, Die.tile_modTile_same]
  exact ⟨mem_modFirst_of_mem (Die.laneNext_mem he) (fun y => { y with waitLg := false, lgs := lanesOf e.desc }), rfl, rfl,
    SameMem.refl _⟩

theorem laneGroupGrant_reserves (hl : s.die.live = true) (hr : s.die.tileRuns n = true) (he : s.die.laneNext n = some e)
    (hshort : (s.die.tile n).freeLanes < lanesOf e.desc) : ∃ t : State, exec (.laneGroupGrant n) s = .next t ∧
      (t.die.tile n).reserve = some e.id ∧ (t.die.tile n).execs = (s.die.tile n).execs ∧ t.die.regs = s.die.regs := by
  refine ⟨_, exec_laneGroupGrant hl hr, ?_⟩
  dsimp only
  rw [Die.laneGrant_of_short he hshort, Die.tile_modTile_same]
  exact ⟨rfl, rfl, rfl⟩

theorem grantExpiry_givesBack (hl : s.die.live = true) (hr : s.die.tileRuns n = true)
    (he : (s.die.tile n).execs.find? (ofTag th tag (fun e => decide (0 < e.lgs) && descOp e.desc != ocSound)) = some e) :
    ∃ t : State, exec (.grantExpiry n th tag) s = .next t ∧
      { e with lgs := 0, waitLg := true, since := s.die.clock.quarter } ∈ (t.die.tile n).execs ∧ t.die.regs = s.die.regs ∧
      SameMem s.die t.die := by
  refine ⟨_, mainCmd_ok (ok := fun d => d.tileRuns n) (f := fun d => d.modExec n
    (ofTag th tag (fun e => decide (0 < e.lgs) && descOp e.desc != ocSound))
    (fun e => { e with lgs := 0, waitLg := true, since := d.clock.quarter })) hl hr, ?_⟩
  unfold Die.modExec
  refine ⟨?_, rfl, SameMem.refl _⟩
  rw [Die.tile_modTile_same]
  exact mem_modFirst_of_find he fun e => { e with lgs := 0, waitLg := true, since := s.die.clock.quarter }

end

/-! ### Retirement (R188, R201) -/

/-- The end of a stop moves bits of ENG_STATUS and ENG_CTRL. -/
theorem Die.settleStop_effect (d : Die) (n : Nat) : SameExecs d (d.settleStop n) ∧ SameMem d (d.settleStop n) ∧
    OnlyRegs [Reg.ENG_STATUS n, Reg.ENG_CTRL n] d (d.settleStop n) := by
  obtain ⟨f, hf⟩ : ∃ f, f = (d.raise (Reg.ENG_STATUS_STOPPED n)).modTile n (fun x => { x with stopping := false, enableDeferred := false }) :=
    ⟨_, rfl⟩
  have hstop : d.settleStop n = d ∨ d.settleStop n = f ∨ d.settleStop n = f.raise (Reg.ENG_CTRL_ENABLE n) := by
    unfold Die.settleStop
    dsimp only
    rw [← hf]
    split
    · split
      · exact .inr (.inr rfl)
      · exact .inr (.inl rfl)
    · exact .inl rfl
  have hexecs : SameExecs d f := by
    rw [hf]
    exact (sameExecs_of_tiles (d.raise_keepsWork _).tiles).trans (Die.modTile_sameExecs _ n _ rfl)
  have hregs : OnlyRegs [Reg.ENG_STATUS n, Reg.ENG_CTRL n] d f := fun a ha => by
    rw [hf, Die.modTile_getW]
    exact onlyRegs_put d (f := Reg.ENG_STATUS_STOPPED n) 1 List.mem_cons_self a ha
  refine ⟨?_, (Die.settleStop_keepsBad (t := n) d).mem, ?_⟩
  · obtain h | h | h := hstop <;> rw [h]
    · exact SameExecs.refl d
    · exact hexecs
    · exact hexecs.trans (sameExecs_of_tiles (f.raise_keepsWork _).tiles)
  · obtain h | h | h := hstop <;> rw [h]
    · exact OnlyRegs.refl _ d
    · exact hregs
    · exact hregs.trans (onlyRegs_put f (f := Reg.ENG_CTRL_ENABLE n) 1 (List.mem_cons_of_mem _ List.mem_cons_self))

theorem OnlyRegs.get64 {rs : List Nat} {f : Die} (h : OnlyRegs rs d f) {a : Nat} (ha : a ∉ rs) (hb : a + 4 ∉ rs) :
    f.get64 a = d.get64 a := by
  unfold Die.get64
  rw [h a ha, h (a + 4) hb]

theorem Die.markDst_regs (d : Die) (n : Nat) (c : Desc) (p : Bool) : (d.markDst n c p).regs = d.regs := by
  unfold Die.markDst
  split <;> rfl

/-- With no delay put before it, a finished descriptor retires. -/
theorem Die.descRetire_of_finished {th tag : Nat} (he : (d.tile n).execs.find? (ofTag th tag Exec.finished) = some e)
    (hinj : d.lateInject n e = false) (hlate : e.lateUntil = none) : d.descRetire n th tag = d.retireExec n e := by
  unfold Die.descRetire
  rw [he]
  dsimp only
  unfold Die.tryRetire
  rw [hinj, hlate]
  rfl

/-- A descriptor of no pool thread leaves the executing ones and is counted. -/
theorem Die.retireExec_effect (hdue : e.due = none) :
    ((d.retireExec n e).tile n).execs = dropPick (fun y => y == e) (d.tile n).execs ∧
      (d.retireExec n e).get64 (Reg.ENG_DESC_RETIRED n 0) = (d.get64 (Reg.ENG_DESC_RETIRED n 0) + 1) % 2 ^ 64 ∧
      SameMem d (d.retireExec n e) := by
  obtain ⟨f, hf⟩ : ∃ f, f = (d.modTile n (fun x => { x with execs := dropPick (fun y => y == e) x.execs })).markDst n e.desc e.poison :=
    ⟨_, rfl⟩
  obtain ⟨hevent, hregs⟩ := f.evtEvent_keepsWork n e.thread e.desc
  have hcount := (f.evtEvent n e.thread e.desc).bump64_keepsWork (Reg.ENG_DESC_RETIRED n 0) 1
  obtain ⟨hexecs, hmem, hstop⟩ := ((f.evtEvent n e.thread e.desc).countRetired n).settleStop_effect n
  have hdrop : (f.tile n).execs = dropPick (fun y => y == e) (d.tile n).execs := by
    rw [hf, Die.markDst_sameExecs, Die.tile_modTile_same]
  have hfregs : f.regs = d.regs := by
    rw [hf, Die.markDst_regs]
    rfl
  have hfmem : SameMem d f := fun a => by
    rw [hf, (Die.markDst_keepsBad (t := n) _ _ _ _).mem a]
    rfl
  have hret : d.retireExec n e = ((f.evtEvent n e.thread e.desc).countRetired n).settleStop n := by
    unfold Die.retireExec
    rw [hdue, hf]
    rfl
  rw [hret]
  refine ⟨?_, ?_, fun a => (((hmem a).trans (hcount.mem a)).trans (hevent.mem a)).trans (hfmem a)⟩
  · rw [hexecs n, ← hdrop, ← hevent.tile]
    exact congrArg Tile1.execs (hcount.tile n)
  · rw [hstop.get64 (by simp [Reg.ENG_DESC_RETIRED, Reg.ENG_STATUS, Reg.ENG_CTRL])
      (by simp [Reg.ENG_DESC_RETIRED, Reg.ENG_STATUS, Reg.ENG_CTRL]), Die.countRetired, Die.bump64, Die.get64_put64]
    unfold Die.get64
    rw [Die.getW_of_regs (hregs.trans hfregs), Die.getW_of_regs (hregs.trans hfregs)]

section
variable {s : State} {th tag : Nat}

theorem exec_descriptorRetire (hl : s.die.live = true) (hr : s.die.tileRuns n = true) :
    exec (.descriptorRetire n th tag) s = .next { s with die := s.die.descRetire n th tag } :=
  mainCmd_ok (ok := fun d => d.tileRuns n) (f := fun d => d.descRetire n th tag) hl hr

theorem descriptorRetire_retires (hl : s.die.live = true) (hr : s.die.tileRuns n = true)
    (he : (s.die.tile n).execs.find? (ofTag th tag Exec.finished) = some e) (hinj : s.die.lateInject n e = false)
    (hlate : e.lateUntil = none) (hdue : e.due = none) : ∃ t : State, exec (.descriptorRetire n th tag) s = .next t ∧
      (t.die.tile n).execs = dropPick (fun y => y == e) (s.die.tile n).execs ∧
      t.die.get64 (Reg.ENG_DESC_RETIRED n 0) = (s.die.get64 (Reg.ENG_DESC_RETIRED n 0) + 1) % 2 ^ 64 ∧ SameMem s.die t.die := by
  refine ⟨_, exec_descriptorRetire hl hr, ?_⟩
  dsimp only
  rw [Die.descRetire_of_finished he hinj hlate]
  exact Die.retireExec_effect hdue

end

/-! ### The combine pipeline's intake (R177, R194) -/

/-- The head of the pipeline is one of the executing descriptors. -/
theorem Die.pipeHead_mem (h : d.pipeHead n = some e) : e ∈ (d.tile n).execs := by
  unfold Die.pipeHead at h
  split at h
  · exact List.mem_of_find?_eq_some h
  · exact nomatch h

/-- A record taken from an array is the first of its logical array there. -/
theorem Die.nextRecord_find {l a : Nat} {r : Record} (h : d.nextRecord n l = some (r, some a)) :
    (d.arr n a).results.find? (fun y => y.logical == l) = some r := by
  have hfrom : ∀ b, (match (d.arr n b).results.find? (fun y => y.logical == l) with
      | some q => some (q, some b)
      | none => none) = some (r, some a) → (d.arr n a).results.find? (fun y => y.logical == l) = some r := by
    intro b hb
    split at hb
    next q hq =>
      obtain ⟨rfl, hba⟩ := Prod.mk.inj (Option.some.inj hb)
      exact Option.some.inj hba ▸ hq
    next => exact nomatch hb
  unfold Die.nextRecord at h
  dsimp only at h
  split at h
  · exact hfrom _ h
  · split at h
    · exact nomatch (Prod.mk.inj (Option.some.inj h)).2
    · split at h
      · exact hfrom _ h
      · exact nomatch h

theorem Die.recordAccept_of_array {r : Record} {a : Nat} (he : d.pipeHead n = some e) (hx : bit (descP0 e.desc) 2 = false)
    (hlt : e.recs.length < descCount e.desc)
    (hr : d.nextRecord n (bits (descP0 e.desc) 8 8 + e.recs.length) = some (r, some a)) :
    d.recordAccept n = (d.modArr n a (fun x => { x with
      results := dropPick (fun y => y.logical == bits (descP0 e.desc) 8 8 + e.recs.length) x.results })).modExec n
        (fun y => y == e) (fun y => { y with recs := y.recs ++ [r] }) := by
  unfold Die.recordAccept
  rw [he]
  dsimp only
  rw [if_neg (by simp [hx, hlt]), hr]

section
variable {s : State}

theorem exec_combineRecordAccept (hl : s.die.live = true) (hr : s.die.tileRuns n = true) :
    exec (.combineRecordAccept n) s = .next { s with die := s.die.recordAccept n } :=
  mainCmd_ok (ok := fun d => d.tileRuns n) (f := fun d => d.recordAccept n) hl hr

theorem combineRecordAccept_takes {r : Record} {a : Nat} (hl : s.die.live = true) (hruns : s.die.tileRuns n = true)
    (he : s.die.pipeHead n = some e) (hx : bit (descP0 e.desc) 2 = false) (hlt : e.recs.length < descCount e.desc)
    (hr : s.die.nextRecord n (bits (descP0 e.desc) 8 8 + e.recs.length) = some (r, some a)) :
    ∃ t : State, exec (.combineRecordAccept n) s = .next t ∧ { e with recs := e.recs ++ [r] } ∈ (t.die.tile n).execs ∧
      (t.die.arr n a).results.length + 1 = (s.die.arr n a).results.length ∧ t.die.regs = s.die.regs ∧ SameMem s.die t.die := by
  refine ⟨_, exec_combineRecordAccept hl hruns, ?_⟩
  dsimp only
  rw [Die.recordAccept_of_array he hx hlt hr]
  unfold Die.modExec
  refine ⟨?_, ?_, rfl, fun _ => rfl⟩
  · rw [Die.tile_modTile_same]
    exact mem_modFirst_of_mem (Die.pipeHead_mem he) fun y => { y with recs := y.recs ++ [r] }
  · rw [Die.modTile_arr, Die.arr_modArr_same]
    exact length_dropPick_of_find (Die.nextRecord_find hr)

end

end Sys2Proof.Machine
end

section
/-! PROOFS. DRAM requests take their slots and complete (R179 to R181, R202). -/
namespace Sys2Proof.Machine

variable {d e : Die} {n : Nat} {k : ReqClass}

/-! ### A request takes a slot (R180, R202) -/

/-- The first waiting request of a class has taken a slot. -/
def Die.slotTaken (d : Die) (n : Nat) (k : ReqClass) : Die :=
  d.modTile n (fun x => { x with
    reqs := modFirst (fun r => !r.issued && r.cls == k) (fun r => { r with issued := true }) x.reqs })

theorem Die.reqIssue_of_dma (h : d.nextClass n = some .dma) : d.reqIssue n = d := by
  unfold Die.reqIssue
  rw [h]

theorem Die.reqIssue_of_class (h : d.nextClass n = some k) (hk : k ≠ .dma) :
    d.reqIssue n = (d.slotTaken n k).atLeast (Reg.ENG_REQ_HWM_MAX n) ((d.slotTaken n k).slotsUsed n) := by
  unfold Die.reqIssue
  rw [h]
  cases k with
  | dma => exact absurd rfl hk
  | outl => rfl
  | corr => rfl
  | sched => rfl
  | pool => rfl
  | sound => rfl

/-- The class whose turn it is, if it is not the tile DMA's, has a request that waits. -/
theorem Die.waits_of_nextClass (h : d.nextClass n = some k) (hk : k ≠ .dma) :
    (d.tile n).reqs.any (fun r => !r.issued && r.cls == k) = true := by
  have hmem : k ∈ d.slotWaiters n := by
    unfold Die.nextClass at h
    split at h
    next q hq =>
      obtain rfl := Option.some.inj h
      exact List.mem_of_find?_eq_some hq
    next => exact List.mem_of_head? h
  have hwait := (List.mem_filter.1 hmem).2
  simpa [hk] using (Bool.and_eq_true_iff.1 hwait).1

/-- One more request of the class, and of no other, is in its slot. -/
theorem length_issued_modFirst {l : List Req} (h : l.any (fun r => !r.issued && r.cls == k) = true) (c : ReqClass) :
    ((modFirst (fun r => !r.issued && r.cls == k) (fun r => { r with issued := true }) l).filter
      (fun r => r.issued && r.cls == c)).length =
      (l.filter (fun r => r.issued && r.cls == c)).length + if c = k then 1 else 0 := by
  induction l with
  | nil => exact absurd h Bool.false_ne_true
  | cons r l ih =>
    rw [modFirst]
    by_cases hr : (!r.issued && r.cls == k) = true
    · obtain ⟨hwait, hcls⟩ : r.issued = false ∧ r.cls = k := by simpa using hr
      rw [if_pos hr]
      by_cases hc : c = k
      · simp [hwait, hcls, hc]
      · simp [hwait, hcls, hc, Ne.symm hc]
    · rw [if_neg hr]
      rw [List.any_cons, Bool.eq_false_iff.2 hr, Bool.false_or] at h
      rw [List.filter_cons, List.filter_cons]
      split
      · rw [List.length_cons, List.length_cons, ih h, Nat.add_right_comm]
      · exact ih h

theorem Die.slotsOf_congr (ht : e.tile n = d.tile n) (hd : e.dma = d.dma) (c : ReqClass) : e.slotsOf n c = d.slotsOf n c := by
  unfold Die.slotsOf Die.dmaSlots Die.readSlots Die.dmaRuns Die.run
  rw [ht, hd]

theorem Die.slotsUsed_congr (ht : e.tile n = d.tile n) (hd : e.dma = d.dma) : e.slotsUsed n = d.slotsUsed n := by
  unfold Die.slotsUsed
  rw [funext (Die.slotsOf_congr ht hd)]

theorem Die.slotsOf_slotTaken (h : (d.tile n).reqs.any (fun r => !r.issued && r.cls == k) = true) (c : ReqClass) :
    (d.slotTaken n k).slotsOf n c = d.slotsOf n c + if c = k then 1 else 0 := by
  have hdma : (d.slotTaken n k).dmaSlots n = d.dmaSlots n := rfl
  unfold Die.slotsOf
  rw [hdma, Die.slotTaken, Die.tile_modTile_same, length_issued_modFirst h, Nat.add_right_comm]

theorem Die.slotsUsed_slotTaken (h : (d.tile n).reqs.any (fun r => !r.issued && r.cls == k) = true) :
    (d.slotTaken n k).slotsUsed n = d.slotsUsed n + 1 := by
  have hone : (reqClasses.map fun c => if c = k then 1 else 0).sum = 1 := by cases k <;> rfl
  unfold Die.slotsUsed
  rw [funext (Die.slotsOf_slotTaken h), List.sum_map_add, hone]

section
variable {s : State}

theorem exec_dramRequestIssue (hl : s.die.live = true) (hr : s.die.tileRuns n = true) :
    exec (.dramRequestIssue n) s = .next { s with die := s.die.reqIssue n } :=
  mainCmd_ok (ok := fun d => d.tileRuns n) (f := fun d => d.reqIssue n) hl hr

/-- The slot that is the tile DMA's turn waits for the DMA's own beat. -/
theorem dramRequestIssue_waits (hl : s.die.live = true) (hr : s.die.tileRuns n = true) (h : s.die.nextClass n = some .dma) :
    exec (.dramRequestIssue n) s = .next s := by
  rw [exec_dramRequestIssue hl hr, Die.reqIssue_of_dma h]

theorem dramRequestIssue_takesSlot (hl : s.die.live = true) (hr : s.die.tileRuns n = true) (h : s.die.nextClass n = some k)
    (hk : k ≠ .dma) : ∃ t : State, exec (.dramRequestIssue n) s = .next t ∧ t.die.slotsUsed n = s.die.slotsUsed n + 1 ∧
      (t.die.tile n).reqs.length = (s.die.tile n).reqs.length ∧ OnlyRegs [Reg.ENG_REQ_HWM n] s.die t.die ∧
      SameMem s.die t.die := by
  refine ⟨_, exec_dramRequestIssue hl hr, ?_⟩
  dsimp only
  rw [Die.reqIssue_of_class h hk, Die.atLeast]
  refine ⟨?_, ?_, fun a ha => (onlyRegs_put _ (f := Reg.ENG_REQ_HWM_MAX n) _ List.mem_cons_self a ha).trans
    (Die.modTile_getW _ n _ a), fun a => Die.put_byteAt _ _ _ a⟩
  · rw [Die.slotsUsed_congr (Die.put_tile _ _ _ n) (Die.put_dma _ _ _), Die.slotsUsed_slotTaken (Die.waits_of_nextClass h hk)]
  · rw [Die.put_tile, Die.slotTaken, Die.tile_modTile_same]
    exact length_modFirst _ _ _

end

/-! ### A request completes (R179, R181) -/

/-- A read that meets no uncorrectable sector reports nothing. -/
theorem Die.readReport_of_clean {a len : Nat} (h : d.rangePoison a len = false) : d.readReport a len = d := by
  refine List.foldlRecOn (motive := fun e => e = d) _ _ rfl fun e he x hx => ?_
  have hx : d.badSector x = false := Bool.eq_false_iff.2 (List.any_eq_false.1 h x hx)
  obtain ⟨hpat, herr⟩ := Bool.or_eq_false_iff.1 hx
  rw [he, Die.readSector, Die.reportBad, hpat, Option.isNone_iff_eq_none.1 (Option.isSome_eq_false_iff.1 herr)]
  rfl

/-- A clean read for tile SRAM brings its bytes there. -/
theorem Die.reqEffect_of_read {r : Req} {a : Nat} (hw : r.write = none) (ha : r.sram = some a)
    (hok : d.rangePoison r.addr r.len = false) :
    d.reqEffect n r = ((d.sramUse n a r.len).setBytes (tileAddr n + a) (d.bytesAt r.addr r.len), false) := by
  unfold Die.reqEffect
  rw [hw, ha, hok, Die.readReport_of_clean hok]
  rfl

theorem sectors_aligned {a : Nat} (h : a % 64 = 0) : sectors a 64 = [a] := by
  unfold sectors
  rw [if_neg (by decide), show (a + 64 - 1) / 64 - a / 64 + 1 = 1 by omega]
  simp only [List.range_one, List.map_cons, List.map_nil, List.cons.injEq, and_true]
  omega

theorem sectorPart_whole (a : Nat) {bs : List Byte} (h : bs.length = 64) : sectorPart a (bs.map some) a = bs.map some := by
  refine List.ext_getElem (by simp [sectorPart, h]) fun i h1 h2 => ?_
  have hi : i < bs.length := by simpa using h2
  simp [sectorPart, hi]

theorem Die.setSome_map_some (d : Die) (a : Nat) (bs : List Byte) : d.setSome a (bs.map some) = d.setBytes a bs := by
  induction bs generalizing d a with
  | nil => rfl
  | cons b bs ih => exact ih _ _

/-- A whole sector is written as it is. -/
theorem Die.putDram_sector (d : Die) {a : Nat} {bs : List Byte} (hb : bs.length = 64) (ha : a % 64 = 0) :
    d.putDram a (bs.map some) = (d.clearBad a).setBytes a bs := by
  unfold Die.putDram
  rw [List.length_map, hb, sectors_aligned ha, List.foldl_cons, List.foldl_nil, sectorPart_whole a hb, Die.writeSector,
    if_pos (by simp), Die.setSome_map_some]

/-- What a completion does beside its effect moves the tile's lists alone. -/
theorem Die.reqComplete_after (d : Die) (n i : Nat) (r : Req) : SameMem (d.reqEffect n r).1 (d.reqComplete n i r) ∧
    (d.reqComplete n i r).regs = (d.reqEffect n r).1.regs ∧
    ((d.reqComplete n i r).tile n).reqs = (((d.reqEffect n r).1).tile n).reqs.eraseIdx i := by
  refine ⟨fun _ => rfl, rfl, ?_⟩
  unfold Die.reqComplete Die.modExec
  rw [Die.tile_modTile_same, Die.tile_modTile_same]

section
variable {s : State} {i : Nat} {r : Req}

theorem exec_dramRequestComplete (hl : s.die.live = true) (hr : s.die.tileRuns n = true) (hi : (s.die.tile n).reqs[i]? = some r)
    (hc : s.die.canComplete r = true) : exec (.dramRequestComplete n i) s = .next { s with die := s.die.reqComplete n i r } := by
  refine (mainCmd_ok (s := s) (ok := fun d => d.tileRuns n && (match (d.tile n).reqs[i]? with
      | some r => d.canComplete r
      | none => false))
    (f := fun d => match (d.tile n).reqs[i]? with | some r => d.reqComplete n i r | none => d) hl ?_).trans ?_
  · rw [hi, hr]
    exact hc
  · rw [hi]

theorem dramRequestComplete_reads {a : Nat} (hl : s.die.live = true) (hr : s.die.tileRuns n = true)
    (hi : (s.die.tile n).reqs[i]? = some r) (hc : s.die.canComplete r = true) (hw : r.write = none) (ha : r.sram = some a)
    (hok : s.die.rangePoison r.addr r.len = false) : ∃ t : State, exec (.dramRequestComplete n i) s = .next t ∧
      t.die.bytesAt (tileAddr n + a) r.len = s.die.bytesAt r.addr r.len ∧ SameMemBut (tileAddr n + a) r.len s.die t.die ∧
      (t.die.tile n).reqs = (s.die.tile n).reqs.eraseIdx i := by
  have hlen := s.die.bytesAt_length r.addr r.len
  obtain ⟨bs, hbanks⟩ := s.die.sramUse_tile n a r.len
  obtain ⟨hmem, -, hreqs⟩ := s.die.reqComplete_after n i r
  rw [Die.reqEffect_of_read hw ha hok] at hmem hreqs
  refine ⟨_, exec_dramRequestComplete hl hr hi hc, ?_, fun c hout => ?_, ?_⟩
  · dsimp only
    rw [hmem.bytesAt]
    have hback := (s.die.sramUse n a r.len).bytesAt_setBytes (tileAddr n + a) (s.die.bytesAt r.addr r.len)
    rwa [hlen] at hback
  · exact ((hmem c).trans (Die.byteAt_setBytes_out _ _ _ _ (by rwa [hlen]))).trans
      ((s.die.sramUse_own n a r.len).mem c)
  · rw [hreqs, Die.setBytes_tile, hbanks]

theorem dramRequestComplete_writes {bs : List Byte} (hl : s.die.live = true) (hr : s.die.tileRuns n = true)
    (hi : (s.die.tile n).reqs[i]? = some r) (hc : s.die.canComplete r = true) (hw : r.write = some bs) (hb : bs.length = 64)
    (ha : r.addr % 64 = 0) : ∃ t : State, exec (.dramRequestComplete n i) s = .next t ∧ t.die.bytesAt r.addr 64 = bs ∧
      SameMemBut r.addr 64 s.die t.die ∧ t.die.regs = s.die.regs := by
  obtain ⟨hmem, hregs, -⟩ := s.die.reqComplete_after n i r
  have heff : (s.die.reqEffect n r).1 = (s.die.clearBad r.addr).setBytes r.addr bs := by
    unfold Die.reqEffect
    rw [hw]
    exact s.die.putDram_sector hb ha
  rw [heff] at hmem hregs
  refine ⟨_, exec_dramRequestComplete hl hr hi hc, ?_, fun c hout => ?_, ?_⟩
  · dsimp only
    rw [hmem.bytesAt, ← hb]
    exact Die.bytesAt_setBytes _ _ _
  · exact (hmem c).trans (Die.byteAt_setBytes_out _ _ _ _ (by rwa [hb]))
  · exact hregs.trans (Die.setBytes_regs _ _ _)

end

end Sys2Proof.Machine
end

section
/-! PROOFS. A zeroed SRAM (R185), and what tile engines dispatch and retire. -/
namespace Sys2Proof.Machine

variable {d e : Die} {n : Nat}

/-! ### A reset of registers without kept fields (R15) -/

/-- Every field of the register returns to its reset value. -/
def PlainReset (a : Nat) : Prop := ∀ f ∈ (regSpec a).getD [], f.onReset = .plain

theorem afterReset_of_plain {fs : List FieldSpec} (h : ∀ f ∈ fs, f.onReset = .plain) (reset old nv : Nat) :
    afterReset fs reset old nv = reset :=
  List.foldlRecOn (motive := fun o => o = reset) fs _ rfl fun o ho f hf => by
    rw [h f hf]
    exact ho

/-- No entry is left of a register that is back at its reset word. -/
theorem Die.resetEntry_of_plain {p : Nat × Word} (h : PlainReset p.1) : d.resetEntry p = none := by
  unfold PlainReset at h
  unfold Die.resetEntry
  split
  · rfl
  next fs hfs =>
    rw [hfs, Option.getD_some] at h
    dsimp only
    rw [afterReset_of_plain h, w32, BitVec.ofNat_toNat, BitVec.setWidth_eq, if_pos rfl]

theorem Die.resetEntry_key {p q : Nat × Word} (h : d.resetEntry p = some q) : q.1 = p.1 := by
  unfold Die.resetEntry at h
  split at h
  · exact nomatch h
  · dsimp only at h
    split at h
    · exact nomatch h
    · exact Option.some.inj h ▸ rfl

/-- A key that is in no entry reads the default. -/
theorem amGet_of_forall_ne {α : Type} {c : α} {m : List (Nat × α)} {k : Nat} (h : ∀ p ∈ m, p.1 ≠ k) : amGet c m k = c := by
  induction m with
  | nil => rfl
  | cons p r ih =>
    rw [amGet, if_neg (h p List.mem_cons_self)]
    exact ih fun q hq => h q (List.mem_cons_of_mem p hq)

theorem Die.resetRegs_getW {c : Nat → Bool} {a : Nat} (hc : c a = true) (hp : PlainReset a) :
    (d.resetRegs c).getW a = resetWord a := by
  unfold Die.resetRegs
  refine List.foldlRecOn (motive := fun e : Die => e.getW a = resetWord a) _ _ (amGet_of_forall_ne fun q hq hqa => ?_)
    fun e he p _ => ?_
  · obtain ⟨p, -, hpq⟩ := List.mem_filterMap.1 hq
    split at hpq
    · have hpa : p.1 = a := (Die.resetEntry_key hpq).symm.trans hqa
      rw [Die.resetEntry_of_plain (hpa ▸ hp)] at hpq
      exact nomatch hpq
    next hcp =>
      obtain rfl := Option.some.inj hpq
      exact hcp (hqa ▸ hc)
  · split
    · by_cases hpa : p.1 = a
      · rw [hpa, Die.getW_putW_same, afterReset_of_plain hp, w32, BitVec.ofNat_toNat, BitVec.setWidth_eq]
      · rw [Die.getW_putW_ne _ _ (Ne.symm hpa), he]
    · exact he

/-! ### The limits of the regions after a reset (R184) -/

/-- The fields of ENG_RGN_LIMIT. -/
def rgnLimitFields : List FieldSpec :=
  [⟨31, 1, .rw, .plain, 0, []⟩, ⟨30, 1, .rw, .plain, 0, []⟩, ⟨29, 1, .rw, .plain, 0, []⟩, ⟨28, 1, .rw, .plain, 0, []⟩,
    ⟨27, 1, .rw, .plain, 0, []⟩, ⟨26, 1, .rw, .plain, 0, []⟩, ⟨25, 1, .rw, .plain, 0, []⟩,
    ⟨0, 18, .rw, .plain, 0, [(1, 0x20000)]⟩]

/-- A limit lies at the odd words of the table. -/
theorem findRow_rgnLimit {r : Nat} (hr : r < 255) :
    findRow tile81Rows (0x810004 + 8 * r) = some ⟨0x810004, 8, 255, rgnLimitFields⟩ := by
  unfold findRow tile81Rows
  rw [List.find?_cons_of_neg (by simp; omega), List.find?_cons_of_pos (by simp; omega)]
  rfl

theorem rgnLimit_offset (n : Nat) {r : Nat} (hr : r < 255) :
    (Reg.ENG_RGN_LIMIT n r - tileAddr 0) % 0x1000000 = 0x810004 + 8 * r := by
  unfold Reg.ENG_RGN_LIMIT tileAddr
  omega

theorem rgnLimit_inTiles {r : Nat} (hn : n < 64) (hr : r < 255) :
    tileAddr 0 ≤ Reg.ENG_RGN_LIMIT n r ∧ Reg.ENG_RGN_LIMIT n r < tileAddr 64 := by
  unfold Reg.ENG_RGN_LIMIT tileAddr
  omega

/-- The address map knows a register of a tile by its place in the window. -/
theorem regSpec_rgnLimit {r : Nat} (hn : n < 64) (hr : r < 255) : regSpec (Reg.ENG_RGN_LIMIT n r) = some rgnLimitFields := by
  have hoff := rgnLimit_offset n hr
  have htile := rgnLimit_inTiles hn hr
  have h0 : tileAddr 0 = 0x100000000 := rfl
  generalize Reg.ENG_RGN_LIMIT n r = a at hoff htile ⊢
  unfold regSpec
  dsimp only
  rw [hoff, if_neg (by omega), if_neg (by omega), if_pos htile, if_neg (by omega), if_neg (by omega),
    show (0x810004 + 8 * r) / 0x10000 = 0x81 by omega]
  exact congrArg (Option.map _) (findRow_rgnLimit hr)

theorem plainReset_rgnLimit {r : Nat} (hn : n < 64) (hr : r < 255) : PlainReset (Reg.ENG_RGN_LIMIT n r) := by
  unfold PlainReset
  rw [regSpec_rgnLimit hn hr]
  decide

theorem resetOverride_rgnLimit {r : Nat} (hn : n < 64) (hr : r < 255) : resetOverride (Reg.ENG_RGN_LIMIT n r) = none := by
  have hoff := rgnLimit_offset n hr
  have htile := rgnLimit_inTiles hn hr
  have h0 : tileAddr 0 = 0x100000000 := rfl
  generalize Reg.ENG_RGN_LIMIT n r = a at hoff htile ⊢
  generalize ho : (a - tileAddr 0) % 0x1000000 = o at hoff
  unfold resetOverride
  dsimp only
  rw [ho, if_neg (by omega), if_neg (by omega), if_neg (by omega), if_pos htile, if_neg (by omega), if_neg (by omega)]

theorem resetWord_of_fields {a : Nat} {fs : List FieldSpec} (hover : resetOverride a = none) (hspec : regSpec a = some fs) :
    resetWord a = w32 (fieldsReset fs) := by
  unfold resetWord
  rw [hover, hspec]

theorem resetWord_rgnLimit {r : Nat} (hn : n < 64) (hr : r < 255) : resetWord (Reg.ENG_RGN_LIMIT n r) = 0 :=
  (resetWord_of_fields (resetOverride_rgnLimit hn hr) (regSpec_rgnLimit hn hr)).trans (by decide)

/-- A region whose limit is zero is not valid. -/
theorem Die.rgnValid_of_zero {r : Nat} (h : e.getW (Reg.ENG_RGN_LIMIT n r) = 0) : e.rgnValid n r = false := by
  have hget : e.get (Reg.ENG_RGN_LIMIT_VALID n r) = 0 := by
    unfold Die.get Reg.ENG_RGN_LIMIT_VALID
    dsimp only
    rw [h]
    decide
  rw [Die.rgnValid, Die.on, hget]
  exact Bool.and_false _

theorem Die.rgnValid_of_le {r : Nat} (h : 255 ≤ r) : e.rgnValid n r = false := by
  rw [Die.rgnValid, decide_eq_false (Nat.not_lt.2 h), Bool.false_and]

/-! ### The tile's SRAM is zero (R185) -/

theorem sramTile_eq_some_iff {a : Nat} (hn : n < 64) :
    sramTile a = some n ↔ within (tileAddr n) (tileAddr n + 0x800000) a = true := by
  have h0 : tileAddr 0 = 0x100000000 := rfl
  have h64 : tileAddr 64 = 0x140000000 := rfl
  unfold sramTile within
  rw [Bool.and_eq_true, decide_eq_true_eq, decide_eq_true_eq, h0, h64]
  unfold tileAddr
  constructor
  · intro h
    split at h
    · have := Option.some.inj h
      omega
    · exact nomatch h
  · intro h
    rw [if_pos (by omega), Option.some.injEq]
    omega

/-- A byte of tile SRAM that is in no entry reads zero. -/
theorem Die.dropMem_byteAt_gone {gone : Nat → Bool} {a : Nat} (h : gone a = true) : (d.dropMem gone).byteAt a = d.memDefault a :=
  amGet_of_forall_ne fun p hp hpa => by
    have := (List.mem_filter.1 hp).2
    rw [hpa, h] at this
    exact nomatch this

theorem Die.memDefault_sram {a : Nat} (hn : n < 64) (h : within (tileAddr n) (tileAddr n + 0x800000) a = true) :
    d.memDefault a = 0 := by
  have hdram : isDram a = false := by
    unfold within tileAddr at h
    rw [Bool.and_eq_true, decide_eq_true_eq, decide_eq_true_eq] at h
    unfold isDram within dramBase
    rw [decide_eq_false (by omega), Bool.false_and]
  unfold Die.memDefault
  rw [hdram]
  rfl

theorem Die.zeroSram_effect (hn : n < 64) : ((d.zeroSram n).tile n).ready = true ∧ ((d.zeroSram n).tile n).fe = [] ∧
    (∀ a, sramTile a = some n → (d.zeroSram n).byteAt a = 0) ∧
    (∀ a, sramTile a ≠ some n → (d.zeroSram n).byteAt a = d.byteAt a) ∧ ∀ r, (d.zeroSram n).rgnValid n r = false := by
  have hbyte : ∀ a, (d.zeroSram n).byteAt a =
      (d.dropMem (within (tileAddr n) (tileAddr n + 0x800000))).byteAt a := fun a => by
    unfold Die.zeroSram
    rw [Die.modTile_byteAt, Die.resetRegs_byteAt]
  refine ⟨?_, ?_, fun a ha => ?_, fun a ha => ?_, fun r => ?_⟩
  · rw [Die.zeroSram, Die.tile_modTile_same]
  · rw [Die.zeroSram, Die.tile_modTile_same]
  · have hin := (sramTile_eq_some_iff hn).1 ha
    rw [hbyte, Die.dropMem_byteAt_gone hin, Die.memDefault_sram hn hin]
  · rw [hbyte, Die.dropMem_byteAt _ (Bool.eq_false_iff.2 fun hin => ha ((sramTile_eq_some_iff hn).2 hin))]
  · obtain hr | hr := Nat.lt_or_ge r 255
    · have hin : within (Reg.ENG_RGN_BASE n 0) (Reg.ENG_RGN_BASE n 0 + 0x1000) (Reg.ENG_RGN_LIMIT n r) = true := by
        unfold within Reg.ENG_RGN_LIMIT Reg.ENG_RGN_BASE
        rw [Bool.and_eq_true, decide_eq_true_eq, decide_eq_true_eq]
        omega
      refine Die.rgnValid_of_zero ?_
      rw [Die.zeroSram, Die.modTile_getW, Die.resetRegs_getW hin (plainReset_rgnLimit hn hr), resetWord_rgnLimit hn hr]
    · exact Die.rgnValid_of_le hr

theorem sramZeroComplete_zeroes {s : State} (hl : s.die.live = true) (hen : s.die.enabled n = true)
    (hready : (s.die.tile n).ready = false) (hheld : s.die.tileHeld n = false) : ∃ t : State,
    exec (.sramZeroComplete n) s = .next t ∧ (t.die.tile n).ready = true ∧ (t.die.tile n).fe = [] ∧
    (∀ a, sramTile a = some n → t.die.byteAt a = 0) ∧ (∀ a, sramTile a ≠ some n → t.die.byteAt a = s.die.byteAt a) ∧
    ∀ r, t.die.rgnValid n r = false :=
  ⟨_, mainCmd_ok (ok := fun d => d.enabled n && !(d.tile n).ready && !d.tileHeld n) (f := fun d => d.zeroSram n) hl
    (by simp [hen, hready, hheld]), Die.zeroSram_effect (Die.lt_of_enabled hen)⟩

/-- Settles O34: each clause is the equation of its command, and the effect of the operation on the die. -/
theorem enginesDispatchAndRetire : Obligations.EnginesDispatchAndRetire := by
  unfold Obligations.EnginesDispatchAndRetire
  intro s n hl
  exact
    ⟨fun _ _ hmay hcls hoff => ⟨fun _ => descriptorDispatch_starts hl hmay hcls hoff,
        fun _ => descriptorDispatch_malformed hl hmay hcls hoff, descriptorDispatch_endsStream hl hmay hcls hoff⟩,
      fun _ hr he => ⟨laneGroupGrant_grants hl hr he, laneGroupGrant_reserves hl hr he⟩,
      fun _ _ _ => grantExpiry_givesBack hl,
      dramRequestIssue_waits hl,
      fun _ => dramRequestIssue_takesSlot hl,
      fun _ _ _ => dramRequestComplete_reads hl,
      fun _ _ _ => dramRequestComplete_writes hl,
      fun _ _ _ => descriptorRetire_retires hl,
      fun _ _ _ => combineRecordAccept_takes hl,
      sramZeroComplete_zeroes hl,
      fun _ => exec_descriptorDispatch hl,
      fun _ _ => exec_dramRequestComplete hl,
      fun _ _ => exec_descriptorRetire hl,
      exec_combineRecordAccept hl⟩

end Sys2Proof.Machine
end

section
/-! PROOFS. The loader's lag and TIDE_SLICE.LAG (R240, R250, R464). -/
namespace Sys2Proof.Machine

/-- A table without tiles whose LAG is 16, one more than TIDE_SLICE.LAG holds; the loader refuses a LAG above 7 (R240). -/
def Table.lag16 : Table :=
  { base := dramBase, size := 4096, period := 4096, slack := 204, tides := 1, nSched := 1, nPool := 0, nSound := 0, lag := 16,
    decode := 1, chunk := 0, chunkTok := 0, attnBudget := 1, ext := (1, 1, 1), org := (0, 0, 0), coord := (0, 0, 0), flags := 0,
    tiles := [], tp := [], links := [], refresh := [], matrices := [], berths := [] }

/-- A module, LOADED with that table, whose start tide is 2 and whose tide number is 0. -/
def State.loadedLag16 : State :=
  { pending := [], carrier := {}
    die := { ({ mgmt := { powered := true, dieReset := false, alive := true, ready := true } : Die }.put
      Reg.TIDE_STATUS_STATE 2).put64 (Reg.TIDE_START 0) 2 with tide := { table := some Table.lag16 } } }

theorem State.loadedLag16_armable : State.loadedLag16.die.live = true ∧ State.loadedLag16.die.computeHeld = false ∧
    State.loadedLag16.die.mayControl .j3 = true ∧ State.loadedLag16.die.tideState = 2 ∧
    State.loadedLag16.die.on Reg.THM_TRIP_TRIP = false ∧ State.loadedLag16.die.fwRuns = false ∧
    State.loadedLag16.die.tideNum + 2 ≤ State.loadedLag16.die.get64 (Reg.TIDE_START 0) := by
  decide +kernel

/-- Refutes O36: TIDE_SLICE.LAG has 4 bits (R250), so an ARM cannot leave 16 there, where the statement has LAG modulo 256. -/
theorem not_tideRequestsFollowTheState : ¬ Obligations.TideRequestsFollowTheState := by
  unfold Obligations.TideRequestsFollowTheState
  intro h
  obtain ⟨hlive, hheld, hctl, hstate, htrip, hfw, hstart⟩ := State.loadedLag16_armable
  obtain ⟨hrequests, -⟩ := h State.loadedLag16 .j3 hlive hheld
  obtain ⟨-, -, -, harm, -⟩ := hrequests hctl
  obtain ⟨u, -, -, -, -, -, hlag, -⟩ := harm Table.lag16 rfl hstate htrip hfw hstart
  have hfits : u.die.get Reg.TIDE_SLICE_LAG < 2 ^ 4 := u.die.get_lt Reg.TIDE_SLICE_LAG
  rw [hlag] at hfits
  exact absurd hfits (by decide)

end Sys2Proof.Machine
end

section
/-! PROOFS. What the work of a boundary leaves of the tide's counts, its state and its number (R206, R207, R239). -/
namespace Sys2Proof.Machine

/-- The table, and how far the tide that runs has come: its cycle, its schedule count, and its windows by what became of them. -/
def Tide.counts (t : Tide) : Option Table × Nat × Nat × List Nat × List Nat × List (Nat × Nat × Option Nat) :=
  (t.table, t.w, t.sc, t.checked, t.done, t.failed)

/-- The counts of the die's tide. -/
def Die.tideCounts (d : Die) : Option Table × Nat × Nat × List Nat × List Nat × List (Nat × Nat × Option Nat) := d.tide.counts

/-- The registers of the tide's state and number, and that of BKT_EN, without which no bucket is programmed (R361). -/
def tideWords : List Nat := [Reg.GLB_MESH_CTRL, Reg.TIDE_STATUS, Reg.TIDE_NUM 0, Reg.TIDE_NUM 0 + 4]

/-- The counts and these registers are as they were. -/
structure KeepsTide (d e : Die) : Prop where
  counts : e.tideCounts = d.tideCounts
  words : ∀ a ∈ tideWords, e.getW a = d.getW a

variable {d e f : Die}

theorem KeepsTide.refl (d : Die) : KeepsTide d d := ⟨rfl, fun _ _ => rfl⟩

theorem KeepsTide.trans (h : KeepsTide d e) (k : KeepsTide e f) : KeepsTide d f :=
  ⟨k.counts.trans h.counts, fun a ha => (k.words a ha).trans (h.words a ha)⟩

theorem KeepsTide.ite {p : Prop} [Decidable p] (h : KeepsTide d e) (k : KeepsTide d f) : KeepsTide d (if p then e else f) := by
  split
  · exact h
  · exact k

theorem KeepsTide.foldl {β : Type} {g : Die → β → Die} {l : List β} (hg : ∀ e, ∀ x ∈ l, KeepsTide e (g e x)) (d : Die) :
    KeepsTide d (l.foldl g d) :=
  List.foldlRecOn (motive := fun e => KeepsTide d e) _ _ (KeepsTide.refl d) fun e h x hx => h.trans (hg e x hx)

/-- Where neither the tide block nor a register moves, the tide is kept. -/
theorem keepsTide_of_eq (ht : e.tide = d.tide) (hr : e.regs = d.regs) : KeepsTide d e :=
  ⟨by unfold Die.tideCounts; rw [ht], fun a _ => Die.getW_of_regs hr a⟩

theorem OnlyRegs.keepsTide {rs : List Nat} (h : OnlyRegs rs d e) (ht : e.tide = d.tide) (hrs : ∀ a ∈ tideWords, a ∉ rs) :
    KeepsTide d e :=
  ⟨by unfold Die.tideCounts; rw [ht], fun a ha => h a (hrs a ha)⟩

/-! ### Registers -/

theorem Die.putW_keepsTide (d : Die) {a : Nat} (w : Word) (h : a ∉ tideWords) : KeepsTide d (d.putW a w) :=
  ⟨rfl, fun _ hb => Die.getW_putW_ne d w fun hba => h (hba ▸ hb)⟩

theorem Die.put_keepsTide (d : Die) {g : Fld} (v : Nat) (h : g.addr ∉ tideWords) : KeepsTide d (d.put g v) := d.putW_keepsTide _ h
theorem Die.raise_keepsTide (d : Die) {g : Fld} (h : g.addr ∉ tideWords) : KeepsTide d (d.raise g) := d.put_keepsTide 1 h
theorem Die.clear_keepsTide (d : Die) {g : Fld} (h : g.addr ∉ tideWords) : KeepsTide d (d.clear g) := d.put_keepsTide 0 h
theorem Die.bump_keepsTide (d : Die) {g : Fld} (v : Nat) (h : g.addr ∉ tideWords) : KeepsTide d (d.bump g v) := d.put_keepsTide _ h

/-- The registers of the tide lie below those of the later blocks and below the windows of the tiles (R75, R76). -/
theorem not_mem_tideWords {a : Nat} (h : Reg.TIDE_POS ≤ a) : a ∉ tideWords := fun hm =>
  absurd ((by decide : ∀ b ∈ tideWords, b < Reg.TIDE_POS) a hm) (Nat.not_lt.2 h)

theorem tileAddr_not_mem {t a : Nat} (h : tileAddr t ≤ a) : a ∉ tideWords :=
  not_mem_tideWords (Nat.le_trans (by unfold tileAddr Reg.TIDE_POS; omega) h)

/-- A register of a tile. -/
theorem tileReg_not_mem (t k : Nat) : tileAddr t + k ∉ tideWords := tileAddr_not_mem (Nat.le_add_right _ k)

/-- A register of an array of registers of a tile. -/
theorem tileRegs_not_mem (t k i : Nat) : tileAddr t + k + i ∉ tideWords :=
  tileAddr_not_mem ((Nat.le_add_right _ k).trans (Nat.le_add_right _ i))

/-- A register of a physical array. -/
theorem arrReg_not_mem (t a k : Nat) : arrAddr t a + k ∉ tideWords :=
  tileAddr_not_mem ((tileAddr_le_arrAddr t a).trans (Nat.le_add_right _ k))

/-- A register of an array of registers of a physical array. -/
theorem arrRegs_not_mem (t a k i : Nat) : arrAddr t a + k + i ∉ tideWords :=
  tileAddr_not_mem ((tileAddr_le_arrAddr t a).trans ((Nat.le_add_right _ k).trans (Nat.le_add_right _ i)))

/-! ### Records, events, messages and triggers -/

theorem Die.eventAll_keepsTide (d : Die) (kind : Nat) (body : List Byte) : KeepsTide d (d.eventAll kind body) :=
  (d.eventAll_onlyRegs kind body).keepsTide (d.eventAll_logsOnly kind body).tide (by decide)

theorem Die.record_keepsTide (d : Die) (src ev dom sub : Nat) (det : List Nat) : KeepsTide d (d.record src ev dom sub det) :=
  (d.record_onlyRegs src ev dom sub det).keepsTide (d.record_logsOnly src ev dom sub det).tide (by decide)

theorem Die.trigger_keepsTide (d : Die) (src : Nat) : KeepsTide d (d.trigger src) := by
  have hon : ∀ (e : Die) (c : Nat), KeepsTide e (e.triggerOn c src) := fun e c =>
    (e.triggerOn_onlyRegs c src).keepsTide (by rw [Die.triggerOn_eq]) (by decide)
  exact (hon d 0).trans (hon _ 1)

theorem Die.emit_keepsTide (d : Die) (o : Out) : KeepsTide d (d.emit o) := keepsTide_of_eq rfl rfl

theorem Die.tellLink_keepsTide (d : Die) (k kind : Nat) (words : List Nat) : KeepsTide d (d.tellLink k kind words) := by
  unfold Die.tellLink Die.toLink
  refine KeepsTide.trans (KeepsTide.ite (KeepsTide.foldl (fun e c _ => ?_) d) (KeepsTide.refl d)) (Die.emit_keepsTide _ _)
  exact keepsTide_of_eq rfl rfl

theorem Die.toFront_keepsTide (d : Die) (kind : Nat) (words : List Nat) : KeepsTide d (d.toFront kind words) := by
  unfold Die.toFront
  split
  · exact d.tellLink_keepsTide _ kind words
  · exact KeepsTide.refl d

theorem Die.sendMark_keepsTide (d : Die) (k : Nat) (stop fault : Bool) (cause coord : Nat) :
    KeepsTide d (d.sendMark k stop fault cause coord) := keepsTide_of_eq rfl rfl

theorem Die.sendMarks_keepsTide (d : Die) (stop fault : Bool) (cause coord : Nat) :
    KeepsTide d (d.sendMarks stop fault cause coord) := KeepsTide.foldl (fun e k _ => e.sendMark_keepsTide k stop fault cause coord) d

theorem Die.modTile_keepsTide (d : Die) (t : Nat) (g : Tile1 → Tile1) : KeepsTide d (d.modTile t g) := keepsTide_of_eq rfl rfl

theorem Die.setEnable_keepsTide (d : Die) (t : Nat) (en : Bool) : KeepsTide d (d.setEnable t en) := by
  have hctrl : (Reg.ENG_CTRL_ENABLE t).addr ∉ tideWords := tileReg_not_mem t _
  unfold Die.setEnable
  exact ((d.modTile_keepsTide t _).ite (d.raise_keepsTide hctrl)).ite ((d.clear_keepsTide hctrl).trans (Die.modTile_keepsTide _ t _))

theorem Die.enableAll_keepsTide (d : Die) (en : Bool) : KeepsTide d (d.enableAll en) :=
  KeepsTide.foldl (fun e t _ => e.setEnable_keepsTide t en) d

/-- A fault stop moves the flags of the tide block and none of its counts (R466). -/
theorem Die.faultStop_keepsTide (d : Die) (cause coord : Nat) : KeepsTide d (d.faultStop cause coord) := by
  unfold Die.faultStop
  have hflags : KeepsTide d { d with tide := { d.tide with stopNow := true, stopFlag := true, fault := some (cause, coord) } } :=
    ⟨rfl, fun _ _ => rfl⟩
  exact (((hflags.trans (Die.sendMarks_keepsTide _ true true cause coord)).trans (Die.record_keepsTide _ _ _ _ _ _)).trans
    (Die.enableAll_keepsTide _ false)).ite (KeepsTide.refl d)

theorem Die.toChildren_keepsTide (d : Die) (kind : Nat) (words : List Nat) : KeepsTide d (d.toChildren kind words) :=
  KeepsTide.foldl (fun e k _ => (e.tellLink_keepsTide k kind words).ite (e.faultStop_keepsTide 1 e.coord)) d

theorem Die.stepFault_keepsTide (d : Die) : KeepsTide d d.stepFault := by
  have hmod : ∀ n, KeepsTide d (d.modStep n (fun x => { x with faulted := true })) := fun n => keepsTide_of_eq rfl rfl
  unfold Die.stepFault Die.stepFaultAt
  exact ((hmod _).trans (Die.toFront_keepsTide _ _ _)).ite (KeepsTide.refl d)

theorem Die.tileFault_keepsTide (d : Die) (t kind thread opcode region offset tag : Nat) :
    KeepsTide d (d.tileFault t kind thread opcode region offset tag) := by
  have hlatch : ∀ w0 w1 w2, KeepsTide d (if d.on (Reg.ENG_FAULT_INFO0_VALID t) then d else
      ((d.putW (Reg.ENG_FAULT_INFO0 t) w0).putW (Reg.ENG_FAULT_INFO1 t) w1).putW (Reg.ENG_FAULT_INFO2 t) w2) := fun w0 w1 w2 =>
    (KeepsTide.refl d).ite (((d.putW_keepsTide w0 (tileReg_not_mem t _)).trans (Die.putW_keepsTide _ w1 (tileReg_not_mem t _))).trans
      (Die.putW_keepsTide _ w2 (tileReg_not_mem t _)))
  have hcount : ∀ {e : Die} {cnt status : Fld} {ev : Nat} {words : List Nat}, cnt.addr ∉ tideWords → status.addr ∉ tideWords →
      KeepsTide e (((e.bump cnt 1).raise status).record 0x10 ev t 0xFFFF words) := fun hc hs =>
    ((Die.bump_keepsTide _ 1 hc).trans (Die.raise_keepsTide _ hs)).trans (Die.record_keepsTide _ _ _ _ _ _)
  unfold Die.tileFault
  dsimp only
  refine KeepsTide.trans (KeepsTide.trans ?_ (Die.emit_keepsTide _ _)) (Die.stepFault_keepsTide _)
  exact ((hlatch _ _ _).trans (hcount (tileReg_not_mem t _) (tileReg_not_mem t _))).ite
    ((hlatch _ _ _).trans (hcount (tileReg_not_mem t _) (tileReg_not_mem t _)))

theorem Die.send_keepsTide (d : Die) (p : Nat) (o : Out) : KeepsTide d (d.send p o) := by
  have hnow : KeepsTide d (d.sendNow o) := (d.bump_keepsTide 1 (by decide)).trans (Die.emit_keepsTide _ o)
  unfold Die.send
  exact KeepsTide.ite (keepsTide_of_eq rfl rfl) hnow

theorem Die.sayTo_keepsTide (d : Die) (slot : Nat) (x : Session) (flags opcode status reqSeq : Nat) (payload : List Byte) :
    KeepsTide d (d.sayTo slot x flags opcode status reqSeq payload) :=
  KeepsTide.trans (e := d.putSession slot { x with devSeq := x.devSeq + 1 }) (keepsTide_of_eq rfl rfl) (Die.send_keepsTide _ _ _)


/-! ### Contexts, pages and the tree of prefixes -/

theorem Die.setBytes_keepsTide (d : Die) (a : Nat) (bs : List Byte) : KeepsTide d (d.setBytes a bs) :=
  keepsTide_of_eq (d.setBytes_tide a bs) (d.setBytes_regs a bs)

theorem Die.modCtx_keepsTide (d : Die) (n : Nat) (g : Ctx → Ctx) : KeepsTide d (d.modCtx n g) :=
  KeepsTide.trans (e := { d with serve := { d.serve with ctxs := amSet {} d.serve.ctxs n (g (d.ctx n)) } }) (keepsTide_of_eq rfl rfl)
    (Die.setBytes_keepsTide _ _ _)

theorem Die.putNode_keepsTide (d : Die) (i : Nat) (x : Node) : KeepsTide d (d.putNode i x) := keepsTide_of_eq rfl rfl

theorem Die.dropPage_keepsTide (d : Die) (u : Nat) : KeepsTide d (d.dropPage u) := by
  unfold Die.dropPage
  exact (KeepsTide.refl d).ite (keepsTide_of_eq rfl rfl)

theorem Die.addPageTime_keepsTide (d : Die) (t : Nat) (ns : Nat × Nat) : KeepsTide d (d.addPageTime t ns) := keepsTide_of_eq rfl rfl

theorem Die.addTides_keepsTide (d : Die) (t k time : Nat) : KeepsTide d (d.addTides t k time) := by
  have hmeter : ∀ g, KeepsTide d (d.modMeter t g) := fun g => keepsTide_of_eq rfl rfl
  unfold Die.addTides
  dsimp only
  split
  · exact KeepsTide.ite (keepsTide_of_eq rfl rfl) (hmeter _)
  · exact hmeter _

theorem Die.accrueCtx_keepsTide (d : Die) (n : Nat) : KeepsTide d (d.accrueCtx n) := by
  unfold Die.accrueCtx
  exact (d.addPageTime_keepsTide _ _).trans (Die.modCtx_keepsTide _ n _)

theorem Die.accrueNode_keepsTide (d : Die) (i : Nat) (x : Node) : KeepsTide d (d.accrueNode i x) := by
  unfold Die.accrueNode
  exact ((d.addPageTime_keepsTide _ _).ite (KeepsTide.refl d)).trans (keepsTide_of_eq rfl rfl)

theorem Die.accrueAll_keepsTide (d : Die) : KeepsTide d d.accrueAll := by
  unfold Die.accrueAll
  refine KeepsTide.trans ?_ (KeepsTide.foldl (fun e p _ => e.accrueNode_keepsTide p.1 p.2) _)
  refine KeepsTide.foldl (fun e p _ => ?_) d
  exact e.accrueCtx_keepsTide p.1

theorem Die.addChild_keepsTide (d : Die) (parent : Option Nat) (more : Bool) : KeepsTide d (d.addChild parent more) := by
  unfold Die.addChild
  split
  · exact KeepsTide.refl d
  · split
    · exact KeepsTide.refl d
    · exact d.putNode_keepsTide _ _

theorem Die.deleteNode_keepsTide (d : Die) (i : Nat) : KeepsTide d (d.deleteNode i) := by
  unfold Die.deleteNode
  split
  · exact KeepsTide.refl d
  · refine KeepsTide.trans (KeepsTide.trans (keepsTide_of_eq ?_ ?_) (Die.addChild_keepsTide _ _ false)) (Die.dropPage_keepsTide _ _)
    · rfl
    · rfl

theorem Die.modHeld_keepsTide (d : Die) (n : Nat) (g : Ctx → Ctx) : KeepsTide d (d.modHeld n g) := by
  unfold Die.modHeld
  exact KeepsTide.ite (keepsTide_of_eq rfl rfl) (d.modCtx_keepsTide n g)

theorem Die.dropRef_keepsTide (d : Die) (i : Nat) : KeepsTide d (d.dropRef i) := by
  unfold Die.dropRef
  split
  · exact KeepsTide.refl d
  · exact ((d.putNode_keepsTide i _).trans (Die.deleteNode_keepsTide _ i)).ite (d.putNode_keepsTide i _)

theorem Die.leaveFrom_keepsTide (d : Die) (n page : Nat) : KeepsTide d (d.leaveFrom n page) := by
  have hleaving : ∀ (e : Die) (l : List (Nat × Ctx)), KeepsTide e { e with serve := { e.serve with leaving := l } } :=
    fun _ _ => keepsTide_of_eq rfl rfl
  have hheld : ∀ (l : List Nat) (g : Ctx → Ctx), KeepsTide d ((l.foldl (fun e i => e.dropRef i) d).modHeld n g) := fun l g =>
    (KeepsTide.foldl (fun e i _ => e.dropRef_keepsTide i) d).trans (Die.modHeld_keepsTide _ n g)
  unfold Die.leaveFrom
  dsimp only
  refine KeepsTide.trans (KeepsTide.trans ?_ ((hleaving _ _).ite (KeepsTide.refl _)))
    (KeepsTide.foldl (fun e u _ => e.dropPage_keepsTide u) _)
  split
  · exact (hheld _ _).ite ((hheld _ _).trans (Die.setBytes_keepsTide _ _ _))
  · exact hheld _ _

theorem Die.prefixOp_keepsTide (d : Die) (o : PrefixOp) : KeepsTide d (d.prefixOp o) := by
  cases o with
  | hold n i =>
    dsimp only [Die.prefixOp]
    split
    · exact KeepsTide.refl d
    · exact (d.putNode_keepsTide i _).trans (Die.modHeld_keepsTide _ n _)
  | make i n page key parent tenant pack =>
    dsimp only [Die.prefixOp]
    split
    · exact KeepsTide.refl d
    · exact ((d.addChild_keepsTide parent true).trans (Die.putNode_keepsTide _ i _)).trans (Die.modHeld_keepsTide _ n _)
  | delete i => exact d.deleteNode_keepsTide i
  | publish i key parent =>
    have hmoved := fun p => (d.addChild_keepsTide p false).trans (Die.addChild_keepsTide _ parent true)
    dsimp only [Die.prefixOp]
    split
    · exact KeepsTide.refl d
    · split
      · exact hmoved _
      · exact (hmoved _).trans (Die.putNode_keepsTide _ i _)
  | unkey i =>
    dsimp only [Die.prefixOp]
    split
    · exact KeepsTide.refl d
    · exact d.putNode_keepsTide i _
  | leave n page => exact d.leaveFrom_keepsTide n page

theorem Die.sendOps_keepsTide (d : Die) : KeepsTide d d.sendOps := by
  have hserve : ∀ x : Serve, KeepsTide d { d with serve := x } := fun _ => keepsTide_of_eq rfl rfl
  unfold Die.sendOps
  exact (KeepsTide.refl d).ite ((hserve _).trans (Die.toChildren_keepsTide _ _ _))

theorem Die.prefixDo_keepsTide (d : Die) (o : PrefixOp) : KeepsTide d (d.prefixDo o) := by
  have hops : ∀ (e : Die) (l : List PrefixOp), KeepsTide e { e with serve := { e.serve with planOps := l } } :=
    fun _ _ => keepsTide_of_eq rfl rfl
  unfold Die.prefixDo
  exact (d.prefixOp_keepsTide o).trans ((KeepsTide.refl _).ite
    ((hops _ _).ite ((hops _ _).trans (Die.sendOps_keepsTide _))))

theorem Die.evictOne_keepsTide (h : d.evictOne = some e) : KeepsTide d e := by
  unfold Die.evictOne at h
  split at h
  · cases h
  · next i hi =>
    rw [← Option.some.inj h]
    exact (d.prefixDo_keepsTide (.delete i)).trans (keepsTide_of_eq rfl rfl)

theorem Die.evictWhile_keepsTide (fuel : Nat) (more : Die → Bool) (d : Die) : KeepsTide d (Die.evictWhile fuel more d) := by
  induction fuel generalizing d with
  | zero => exact KeepsTide.refl d
  | succ k ih =>
    unfold Die.evictWhile
    split
    · split
      · exact KeepsTide.refl d
      · next e he => exact (Die.evictOne_keepsTide he).trans (ih e)
    · exact KeepsTide.refl d

theorem Die.trimTree_keepsTide (d : Die) : KeepsTide d d.trimTree := by
  unfold Die.trimTree
  split
  · exact KeepsTide.refl d
  · exact Die.evictWhile_keepsTide _ _ d

theorem Die.treeOut_keepsTide (d : Die) (old : List (Nat × Node)) : KeepsTide d (d.treeOut old) := by
  have htwo : ∀ (e : Die) (a b : Nat) (bs cs : List Byte), KeepsTide e ((e.setBytes a bs).setBytes b cs) := fun e a b bs cs =>
    (e.setBytes_keepsTide a bs).trans (Die.setBytes_keepsTide _ b cs)
  unfold Die.treeOut
  split
  · exact KeepsTide.refl d
  · exact KeepsTide.trans (KeepsTide.foldl (fun e q _ => htwo e _ _ _ _) d) (KeepsTide.foldl (fun e q _ => htwo e _ _ _ _) _)

theorem Die.withTree_keepsTide {g : Die → Die} (h : KeepsTide d (g d)) : KeepsTide d (d.withTree g) := by
  unfold Die.withTree
  exact h.ite (h.trans (Die.treeOut_keepsTide _ _))

/-! ### The stream of results and the states of contexts -/

theorem Die.sendStream_keepsTide (fuel : Nat) (d : Die) (l : List StreamOut) : KeepsTide d (Die.sendStream fuel d l) := by
  induction fuel generalizing d l with
  | zero => exact KeepsTide.refl d
  | succ k ih =>
    unfold Die.sendStream
    refine (KeepsTide.refl d).ite (KeepsTide.trans ?_ (ih _ _))
    split
    · exact d.bump_keepsTide 1 (by decide)
    · split
      · exact KeepsTide.refl d
      · exact d.sayTo_keepsTide _ _ _ _ _ _ _

theorem Die.flushStream_keepsTide (d : Die) : KeepsTide d d.flushStream := by
  have hbuf : KeepsTide d { d with serve := { d.serve with outBuf := [] } } := keepsTide_of_eq rfl rfl
  unfold Die.flushStream
  exact (KeepsTide.refl d).ite (hbuf.trans (Die.sendStream_keepsTide _ _ _))

theorem Die.entry_keepsTide (d : Die) (x : StreamOut) : KeepsTide d (d.entry x) :=
  KeepsTide.trans (e := { d with serve := { d.serve with outBuf := d.serve.outBuf ++ [x] } }) (keepsTide_of_eq rfl rfl)
    (Die.flushStream_keepsTide _)

theorem Die.ctxTo_keepsTide (d : Die) (n state reason : Nat) : KeepsTide d (d.ctxTo n state reason) := by
  unfold Die.ctxTo Die.tellCtx
  exact (d.modCtx_keepsTide n _).trans ((Die.toChildren_keepsTide _ _ _).ite (KeepsTide.refl _))

theorem Die.ctxOver_keepsTide (d : Die) (n state reason : Nat) : KeepsTide d (d.ctxOver n state reason) := by
  unfold Die.ctxOver
  refine KeepsTide.trans (KeepsTide.trans ?_ (Die.modCtx_keepsTide _ n _)) (Die.ctxTo_keepsTide _ n state reason)
  refine (d.accrueCtx_keepsTide n).trans (Die.withTree_keepsTide ?_)
  exact (Die.prefixDo_keepsTide _ _).trans (Die.trimTree_keepsTide _)

theorem Die.endCtx_keepsTide (d : Die) (n state reason : Nat) : KeepsTide d (d.endCtx n state reason) := by
  have hover := d.ctxOver_keepsTide n state reason
  unfold Die.endCtx
  exact (hover.trans (Die.entry_keepsTide _ _)).ite hover

theorem Die.parkCtx_keepsTide (d : Die) (n reason : Nat) : KeepsTide d (d.parkCtx n reason) :=
  (d.modCtx_keepsTide n _).trans (Die.ctxTo_keepsTide _ n _ reason)

theorem Die.pendCtx_keepsTide (d : Die) (n : Nat) : KeepsTide d (d.pendCtx n) := by
  have hpend := d.modCtx_keepsTide n (fun x => { x with pend := 0 })
  have hpark := fun r => hpend.trans (Die.parkCtx_keepsTide _ n r)
  unfold Die.pendCtx
  refine hpend.ite ?_
  split
  · exact hpend.trans (Die.endCtx_keepsTide _ n _ _)
  · exact (hpark 32).ite hpend
  · exact (hpark 34).ite hpend
  · exact hpend

theorem Die.tellFree_keepsTide (d : Die) : KeepsTide d d.tellFree := by
  unfold Die.tellFree
  exact (KeepsTide.refl d).ite (d.toFront_keepsTide _ _)

/-! ### Steps -/

theorem Die.logSteps_keepsTide (d : Die) : KeepsTide d d.logSteps := keepsTide_of_eq rfl rfl

theorem Die.stepRetired_keepsTide (d : Die) (s : StepRec) (troubled : List Nat) (time : Nat) :
    KeepsTide d (d.stepRetired s troubled time) := by
  have hserve : ∀ (e : Die) (l : List StepRec), KeepsTide e { e with serve := { e.serve with steps := l } } :=
    fun _ _ => keepsTide_of_eq rfl rfl
  unfold Die.stepRetired
  dsimp only
  refine KeepsTide.trans (KeepsTide.trans (KeepsTide.trans ?_ (Die.accrueAll_keepsTide _)) (Die.flushStream_keepsTide _))
    (Die.logSteps_keepsTide _)
  refine KeepsTide.trans ?_ ((Die.toChildren_keepsTide _ _ _).ite (Die.tellFree_keepsTide _))
  refine KeepsTide.trans ?_ (KeepsTide.foldl (fun e b _ => e.pendCtx_keepsTide b.ctx) _)
  exact ((KeepsTide.foldl (fun e b _ => e.addTides_keepsTide b.tenant _ time) d).trans (Die.addTides_keepsTide _ _ _ time)).trans
    (hserve _ _)

theorem Die.stepStarts_keepsTide (d : Die) (n : Nat) : KeepsTide d (d.stepStarts n) := keepsTide_of_eq rfl rfl

theorem Die.stepEnds_keepsTide (d : Die) (n : Nat) : KeepsTide d (d.stepEnds n) := by
  have hserve : ∀ l : List StepRec, KeepsTide d { d with serve := { d.serve with steps := l } } := fun _ => keepsTide_of_eq rfl rfl
  unfold Die.stepEnds
  dsimp only
  split
  · exact (hserve _).trans (Die.stepRetired_keepsTide _ _ _ _)
  · exact (hserve _).trans (Die.logSteps_keepsTide _)

theorem Die.dropSteps_keepsTide (d : Die) (stay : StepRec → Bool) : KeepsTide d (d.dropSteps stay) := keepsTide_of_eq rfl rfl

theorem Die.tableStops_keepsTide (d : Die) (abandon : Bool) : KeepsTide d (d.tableStops abandon) := by
  unfold Die.tableStops
  refine KeepsTide.trans (KeepsTide.trans ?_ (Die.sendOps_keepsTide _)) (Die.flushStream_keepsTide _)
  refine (d.dropSteps_keepsTide _).trans (KeepsTide.foldl (fun e n _ => ?_) _)
  exact ((e.modCtx_keepsTide n _).ite (KeepsTide.refl e)).ite
    ((e.pendCtx_keepsTide n).ite ((e.parkCtx_keepsTide n 34).ite (KeepsTide.refl e)))

theorem Die.stepsAbandoned_keepsTide (d : Die) : KeepsTide d d.stepsAbandoned := by
  unfold Die.stepsAbandoned
  refine KeepsTide.trans (KeepsTide.trans ?_ (Die.sendOps_keepsTide _)) (Die.flushStream_keepsTide _)
  refine (d.dropSteps_keepsTide _).trans (KeepsTide.foldl (fun e n _ => ?_) _)
  exact (e.endCtx_keepsTide n _ _).ite ((KeepsTide.refl e).ite (e.pendCtx_keepsTide n))

end Sys2Proof.Machine
end

section
/-! PROOFS. The upkeep of arrays at a boundary: reports, claims, the array map and the engines (R206). -/
namespace Sys2Proof.Machine
variable {d e f : Die}

/-! ### Reports, claims and the relay -/

theorem Die.sendReport_keepsTide (d : Die) (bs : List Byte) : KeepsTide d (d.sendReport bs) := by
  have hrate : ∀ r, KeepsTide d { d with upkeep := { d.upkeep with rate := r } } := fun _ => keepsTide_of_eq rfl rfl
  unfold Die.sendReport
  exact ((hrate _).trans (Die.eventAll_keepsTide _ _ _)).ite (hrate _)

theorem Die.finishReports_keepsTide (d : Die) (diode core : Nat) : KeepsTide d (d.finishReports diode core) := by
  have hhang : KeepsTide d (d.finishHang diode core) := by
    unfold Die.finishHang
    exact (KeepsTide.refl d).ite (keepsTide_of_eq rfl rfl)
  unfold Die.finishReports
  refine KeepsTide.trans (hhang.trans ?_) (KeepsTide.foldl (fun e bs _ => e.sendReport_keepsTide bs) _)
  exact keepsTide_of_eq rfl rfl

theorem Die.report_keepsTide (d : Die) (r : Report) : KeepsTide d (d.report r) := by
  have hstored : ∀ (u : Upkeep) src ev dom sub det, KeepsTide d (Die.record { d with upkeep := u } src ev dom sub det) :=
    fun u src ev dom sub det => KeepsTide.trans (e := { d with upkeep := u }) (keepsTide_of_eq rfl rfl) (Die.record_keepsTide _ _ _ _ _ _)
  unfold Die.report
  exact ((hstored _ _ _ _ _ _).trans (Die.trigger_keepsTide _ 2)).ite
    ((hstored _ _ _ _ _ _).trans (Die.finishReports_keepsTide _ _ _))

theorem Die.relayAborts_keepsTide (d : Die) : KeepsTide d d.relayAborts := by
  have hup : KeepsTide d (if d.relay.role = 1 ∧ d.relay.upLink < 6 then d.tellLink d.relay.upLink lmRelayAbort [] else d) :=
    (d.tellLink_keepsTide _ _ _).ite (KeepsTide.refl d)
  unfold Die.relayAborts
  exact (hup.trans (Die.tellLink_keepsTide _ _ _ _)).ite hup

theorem Die.relayFail_keepsTide (d : Die) (code : Nat) : KeepsTide d (d.relayFail code) := by
  have hrelay : ∀ x : Relay, KeepsTide d { d with relay := x } := fun _ => keepsTide_of_eq rfl rfl
  have hfailed : ∀ (x : Relay) det, KeepsTide d ((Die.relayAborts { d with relay := x }).record 0x20 3 0xFF 0xFFFF det) := fun x det =>
    ((hrelay x).trans (Die.relayAborts_keepsTide _)).trans (Die.record_keepsTide _ _ _ _ _ _)
  unfold Die.relayFail
  exact ((hfailed _ _).trans (Die.eventAll_keepsTide _ _ _)).ite (hfailed _ _)

theorem Die.modCal_keepsTide (d : Die) (t a : Nat) (g : ArrCal → ArrCal) : KeepsTide d (d.modCal t a g) := keepsTide_of_eq rfl rfl

theorem Die.exhausted_keepsTide (d : Die) (t l : Nat) (a : Option Nat) (kind : Nat) : KeepsTide d (d.exhausted t l a kind) := by
  have hraise : KeepsTide d (if kind = 8 then d.raise (Reg.TILE_SPARE_EXHAUSTED t) else d) :=
    (d.raise_keepsTide (tileReg_not_mem t _)).ite (KeepsTide.refl d)
  have hstop : ∀ (e : Die) (r : Report), KeepsTide e (e.report r).stopNowFw := fun e r =>
    (e.report_keepsTide r).trans (Die.faultStop_keepsTide _ 2 _)
  have hfrac : ∀ (e : Die) (r : Report) (x : Nat) g v, KeepsTide e (((e.report r).modCal t x g).put (Reg.SND_CFG_FRAC t x) v) :=
    fun e r x g v => ((e.report_keepsTide r).trans (Die.modCal_keepsTide _ t x g)).trans (Die.put_keepsTide _ v (arrReg_not_mem t x _))
  have hrelay : ∀ {e : Die} {p : Prop} [Decidable p], KeepsTide d e → KeepsTide d (if p then e.relayFail 9 else e) := fun h =>
    (h.trans (Die.relayFail_keepsTide _ 9)).ite h
  unfold Die.exhausted
  dsimp only
  refine hrelay ?_
  split
  · refine KeepsTide.ite (KeepsTide.ite hraise ?_) ?_
    · exact hraise.trans (hfrac _ _ _ _ _)
    · exact hraise.trans (hstop _ _)
  · exact hraise.trans (hstop _ _)

/-- A field of the map of a tile's arrays. -/
theorem amap_not_mem (t l : Nat) : Reg.TILE_AMAP t l ∉ tideWords := tileRegs_not_mem t _ _

/-- A pending map change is taken back from its register. -/
theorem Die.pendClear_keepsTide (d : Die) (t l : Nat) :
    KeepsTide d ((d.clear (Reg.TILE_AMAP_PEND t l)).put (Reg.TILE_AMAP_NEXT t l) 0x1FF) :=
  (d.clear_keepsTide (amap_not_mem t l)).trans (Die.put_keepsTide _ _ (amap_not_mem t l))

theorem Die.dropSwap_keepsTide (d : Die) (t l : Nat) : KeepsTide d (d.dropSwap t l) := by
  have hmap : ∀ (e : Die) (m : List (Nat × MapKind)), KeepsTide e { e with mapPend := m } := fun _ _ => keepsTide_of_eq rfl rfl
  unfold Die.dropSwap
  exact KeepsTide.ite ((d.pendClear_keepsTide t l).trans (hmap _ _)) (KeepsTide.refl d)

theorem Die.takeSpare_keepsTide (d : Die) (c : Claim) (h : Nat) : KeepsTide d (d.takeSpare c h) := by
  have hupkeep : ∀ u t l, KeepsTide d (Die.setShadows { d with upkeep := u } t l) := fun _ _ _ => keepsTide_of_eq rfl rfl
  unfold Die.takeSpare
  dsimp only
  split
  · exact hupkeep _ _ _
  · refine KeepsTide.ite (KeepsTide.ite ?_ (hupkeep _ _ _)) ?_
    · exact keepsTide_of_eq rfl rfl
    · exact ((hupkeep _ _ _).trans (Die.dropSwap_keepsTide _ _ _)).trans (keepsTide_of_eq rfl rfl)

theorem Die.serveClaims_keepsTide (d : Die) (l : List Claim) : KeepsTide d (d.serveClaims l) := by
  induction l generalizing d with
  | nil => exact KeepsTide.refl d
  | cons c r ih =>
    have hdropped : ∀ u : Upkeep, KeepsTide d { d with upkeep := u } := fun _ => keepsTide_of_eq rfl rfl
    unfold Die.serveClaims
    split
    · refine KeepsTide.trans (KeepsTide.trans ?_ (Die.exhausted_keepsTide _ _ _ _ _)) (ih _)
      split
      · exact (hdropped _).trans (Die.report_keepsTide _ _)
      · exact hdropped _
    · split
      · exact ih d
      · exact ((d.takeSpare_keepsTide c _).trans (Die.emit_keepsTide _ _)).trans (ih _)

theorem Die.dueBoundary_keepsTide (d : Die) : KeepsTide d d.dueBoundary := by
  have hdefer : ∀ (e : Die) (t l : Nat), KeepsTide e (e.deferDue t l) := by
    intro e t l
    have hupkeep : ∀ m, KeepsTide e { e with upkeep := { e.upkeep with deferred := m } } := fun _ => keepsTide_of_eq rfl rfl
    unfold Die.deferDue
    refine KeepsTide.ite (KeepsTide.ite (KeepsTide.refl e) ?_) (hupkeep _)
    exact (hupkeep _).trans (Die.record_keepsTide _ _ _ _ _ _)
  have hdue : ∀ m, KeepsTide d { d with upkeep := { d.upkeep with due := m } } := fun _ => keepsTide_of_eq rfl rfl
  unfold Die.dueBoundary
  exact (hdue _).trans (KeepsTide.foldl (fun e x _ => hdefer e x.tile x.logical) _)

theorem Die.soundForce_keepsTide (d : Die) (t w seed : Nat) : KeepsTide d (d.soundForce t w seed) := by
  unfold Die.soundForce
  refine KeepsTide.trans (KeepsTide.trans ?_ (Die.putW_keepsTide _ _ (tileReg_not_mem t _))) (Die.modTile_keepsTide _ t _)
  exact d.putW_keepsTide _ (tileReg_not_mem t _)

theorem Die.upkeepBoundary_keepsTide (d : Die) : KeepsTide d d.upkeepBoundary := by
  have hset : ∀ (e : Die) (u : Upkeep), KeepsTide e { e with upkeep := u } := fun _ _ => keepsTide_of_eq rfl rfl
  have hsound : KeepsTide d (d.upkeep.nextSound.foldl (fun e p => e.soundForce p.1 p.2.1 p.2.2) d) :=
    KeepsTide.foldl (fun e p _ => e.soundForce_keepsTide p.1 p.2.1 p.2.2) d
  unfold Die.upkeepBoundary
  dsimp only
  refine hsound.trans ((hset _ _).trans (KeepsTide.ite ?_ (KeepsTide.refl _)))
  exact (Die.dueBoundary_keepsTide _).trans (Die.serveClaims_keepsTide _ _)

/-! ### The array map -/

theorem Die.setArrState_keepsTide (d : Die) (t a st : Nat) (inPlace : Bool) (l : Nat) :
    KeepsTide d (d.setArrState t a st inPlace l) := by
  unfold Die.setArrState
  exact d.putW_keepsTide _ (arrReg_not_mem t a _)

theorem Die.refuseReq_keepsTide (d : Die) (t a req : Nat) : KeepsTide d (d.refuseReq t a req) := by
  unfold Die.refuseReq
  exact (d.emit_keepsTide _).trans (Die.record_keepsTide _ _ _ _ _ _)

theorem Die.unmapEntry_keepsTide (d : Die) (t l : Nat) : KeepsTide d (d.unmapEntry t l) := by
  have hmap : ∀ (e : Die) (m : List (Nat × MapKind)), KeepsTide e { e with mapPend := m } := fun _ _ => keepsTide_of_eq rfl rfl
  unfold Die.unmapEntry
  exact (d.putW_keepsTide _ (amap_not_mem t l)).trans (hmap _ _)

theorem Die.leaves_keepsTide (d : Die) (t a : Nat) : KeepsTide d (d.leaves t a) := by
  have hupkeep : ∀ (e : Die) (u : Upkeep), KeepsTide e { e with upkeep := u } := fun _ _ => keepsTide_of_eq rfl rfl
  unfold Die.leaves
  dsimp only
  refine KeepsTide.trans (KeepsTide.trans ?_ (Die.modCal_keepsTide _ t a _)) (KeepsTide.ite (hupkeep _ _) (KeepsTide.refl _))
  exact KeepsTide.ite (d.setArrState_keepsTide t a _ _ _) (d.setArrState_keepsTide t a _ _ _)

theorem Die.enters_keepsTide (d : Die) (t l a : Nat) : KeepsTide d (d.enters t l a) := by
  have hset : ∀ (e : Die) (m : List (Nat × MapKind)) (u : Upkeep), KeepsTide e { e with mapPend := m, upkeep := u } :=
    fun _ _ _ => keepsTide_of_eq rfl rfl
  unfold Die.enters
  dsimp only
  refine KeepsTide.trans ?_ (hset _ _ _)
  exact (d.putW_keepsTide _ (amap_not_mem t l)).trans (Die.setArrState_keepsTide _ t a _ _ l)

theorem Die.mapRefused_keepsTide (d : Die) (t l a : Nat) (k : MapKind) : KeepsTide d (d.mapRefused t l a k) := by
  have hset : ∀ (e : Die) (m : List (Nat × MapKind)) (u : Upkeep), KeepsTide e { e with mapPend := m, upkeep := u } :=
    fun _ _ _ => keepsTide_of_eq rfl rfl
  unfold Die.mapRefused
  dsimp only
  exact ((d.pendClear_keepsTide t l).trans (hset _ _ _)).trans (Die.refuseReq_keepsTide _ t a _)

theorem Die.returnArray_keepsTide (d : Die) (t a : Nat) : KeepsTide d (d.returnArray t a) := by
  have hset : ∀ l, KeepsTide d (d.setShadows t l) := fun _ => keepsTide_of_eq rfl rfl
  unfold Die.returnArray
  exact KeepsTide.ite (hset _) (KeepsTide.refl d)

theorem Die.condemnArr_keepsTide (d : Die) (t a : Nat) : KeepsTide d (d.condemnArr t a) := by
  have hout : KeepsTide d (match d.mappedTo t a with | some l => d.unmapEntry t l | none => d) := by
    split
    · exact d.unmapEntry_keepsTide t _
    · exact KeepsTide.refl d
  have harr : ∀ (e : Die) (g : Array1 → Array1), KeepsTide e (e.modArr t a g).tick1 := fun _ _ => keepsTide_of_eq rfl rfl
  have hset : ∀ (e : Die) (n : NvStore) (u : Upkeep), KeepsTide e { e with nv := n, upkeep := u } := fun _ _ _ => keepsTide_of_eq rfl rfl
  unfold Die.condemnArr
  dsimp only
  refine KeepsTide.trans (KeepsTide.trans (KeepsTide.trans ?_ (Die.setArrState_keepsTide _ t a _ _ _))
    (Die.modCal_keepsTide _ t a _)) (hset _ _ _)
  exact hout.trans (harr _ _)

theorem Die.mapChange_keepsTide (d : Die) (t l : Nat) (k : MapKind) : KeepsTide d (d.mapChange t l k) := by
  have hrefused := fun a => d.mapRefused_keepsTide t l a k
  have hin := fun a => d.enters_keepsTide t l a
  have hthrough := fun a next => (d.leaves_keepsTide t a).trans (Die.enters_keepsTide _ t l next)
  unfold Die.mapChange
  dsimp only
  split
  case h_1 =>
    split
    · exact (d.unmapEntry_keepsTide t l).trans (Die.leaves_keepsTide _ t _)
    · exact d.unmapEntry_keepsTide t l
  case h_2 => exact KeepsTide.ite (hin _) (hrefused _)
  case h_3 =>
    refine KeepsTide.ite ?_ (hrefused _)
    split
    · exact (hthrough _ _).trans (Die.returnArray_keepsTide _ t _)
    · exact hin _
  case h_4 =>
    refine KeepsTide.ite ?_ (hrefused _)
    split
    · exact (hthrough _ _).trans (Die.condemnArr_keepsTide _ t _)
    · exact hin _

theorem Die.endRank_keepsTide (d : Die) (x : RankUse) : KeepsTide d (d.endRank x) := by
  have hupkeep : ∀ u : Upkeep, KeepsTide d { d with upkeep := u } := fun _ => keepsTide_of_eq rfl rfl
  have hzero : ∀ (e : Die) (m g n : Nat), KeepsTide e (e.zeroSlot m g n) := fun e m g n =>
    KeepsTide.foldl (fun c p _ => c.setBytes_keepsTide p.1 (zeros p.2)) e
  unfold Die.endRank
  refine KeepsTide.trans (KeepsTide.trans ((hupkeep _).trans (hzero _ _ _ _)) (Die.put_keepsTide _ 0 ?_)) (Die.modCal_keepsTide _ _ _ _)
  exact arrRegs_not_mem _ _ _ _

theorem Die.mapBoundary_keepsTide (d : Die) (pos0 : Bool) : KeepsTide d (d.mapBoundary pos0) := by
  have hranks : ∀ e : Die, KeepsTide e e.freeRanks := fun e => KeepsTide.foldl (fun c x _ => c.endRank_keepsTide x) e
  have hrelay : ∀ (e : Die) (x : Relay), KeepsTide e { e with relay := x } := fun _ _ => keepsTide_of_eq rfl rfl
  unfold Die.mapBoundary Die.relayCheck
  refine KeepsTide.ite (KeepsTide.refl d) (KeepsTide.trans (KeepsTide.trans ?_ (hranks _)) (KeepsTide.ite (hrelay _ _) (KeepsTide.refl _)))
  exact KeepsTide.foldl (fun e p _ => e.mapChange_keepsTide _ _ p.2) d

/-! ### Tiles and arrays -/

theorem Die.settleStop_keepsTide (d : Die) (t : Nat) : KeepsTide d (d.settleStop t) := by
  have hstopped : ∀ g, KeepsTide d ((d.raise (Reg.ENG_STATUS_STOPPED t)).modTile t g) := fun g =>
    (d.raise_keepsTide (tileReg_not_mem t _)).trans (Die.modTile_keepsTide _ t g)
  unfold Die.settleStop
  exact (((hstopped _).trans (Die.raise_keepsTide _ (tileReg_not_mem t _))).ite (hstopped _)).ite (KeepsTide.refl d)

theorem Die.engBoundary_keepsTide (d : Die) (t : Nat) (done : Bool) : KeepsTide d (d.engBoundary t done) := by
  have hdone : KeepsTide d (if done then d.bumpWrap (Reg.ENG_TIDE_DONE_COUNT t) 1 else d) :=
    (d.put_keepsTide _ (tileReg_not_mem t _)).ite (KeepsTide.refl d)
  have hclear : ∀ (e : Die) (g : Tile1 → Tile1), KeepsTide e
      ((([Reg.ENG_FAULT_CNT t, Reg.ENG_BADDESC_CNT t, Reg.ENG_LATE_CNT t].foldl (fun e r => e.putW r 0) e).clear
        (Reg.ENG_CTRL_CNT_CLR t)).modTile t g) := fun e g =>
    ((KeepsTide.foldl (fun c r hr => c.putW_keepsTide 0 (by
      rcases List.mem_cons.1 hr with rfl | hr
      · exact tileReg_not_mem t _
      · rcases List.mem_pair.1 hr with rfl | rfl
        · exact tileReg_not_mem t _
        · exact tileReg_not_mem t _)) e).trans (Die.clear_keepsTide _ (tileReg_not_mem t _))).trans (Die.modTile_keepsTide _ t g)
  unfold Die.engBoundary
  extract_lets d0 d1 d2
  have hcleared : KeepsTide d0 d1 := KeepsTide.ite (hclear _ _) (KeepsTide.refl _)
  have hlate : KeepsTide d d2 := (KeepsTide.trans (e := d0) hdone hcleared).trans (Die.modTile_keepsTide _ t _)
  exact KeepsTide.ite ((hlate.trans (Die.clear_keepsTide _ (tileReg_not_mem t _))).trans (Die.modTile_keepsTide _ t _))
    ((hlate.trans (Die.modTile_keepsTide _ t _)).trans (Die.settleStop_keepsTide _ t))

end Sys2Proof.Machine
end

section
/-! PROOFS. The rest of a boundary's work on tiles, buckets and injectors (R206, R361, R577). -/
namespace Sys2Proof.Machine
variable {d e f : Die}

/-! ### Counters, trims and sounding at a boundary -/

theorem Die.arithBoundary_keepsTide (d : Die) (t : Nat) : KeepsTide d (d.arithBoundary t) := by
  have hdrop : ∀ p : Nat → Bool, (∀ a ∈ tideWords, p a = true) → KeepsTide d { d with regs := d.regs.filter (fun q => p q.1) } :=
    fun p hp => ⟨rfl, fun a ha => amGet_filter_of_pos (resetWord a) d.regs p (hp a ha)⟩
  unfold Die.arithBoundary
  extract_lets lo hi
  refine KeepsTide.ite (KeepsTide.trans ?_ (Die.clear_keepsTide _ (tileReg_not_mem t _))) (KeepsTide.refl d)
  refine hdrop (fun a => !(within lo (tileAddr t + 0x900034) a || within (tileAddr t + 0x901000) hi a)) fun a ha => ?_
  have hbelow : ∀ k, ¬ tileAddr t + k ≤ a := fun k h => tileAddr_not_mem ((Nat.le_add_right _ k).trans h) ha
  simp [within, hbelow, lo]

theorem trimWords_not_mem (t a : Nat) : ∀ p ∈ trimWords t a, p.2.1 ∉ tideWords := by
  intro p hp
  rcases List.mem_append.1 hp with h | h
  · obtain ⟨v, -, rfl⟩ := List.mem_map.1 h
    exact arrRegs_not_mem t a _ _
  · obtain ⟨w, -, rfl⟩ := List.mem_map.1 h
    exact arrRegs_not_mem t a _ _

theorem Die.trimBoundary_keepsTide (d : Die) (t a : Nat) : KeepsTide d (d.trimBoundary t a) := by
  have hact : ∀ (e : Die) (v : Nat), KeepsTide e (e.put (Reg.CAL_GAIN_ACT t a) v) := fun e v => e.put_keepsTide v (arrReg_not_mem t a _)
  have htrims : ∀ (e : Die) (g : Die → Nat × Nat × Nat → Word),
      KeepsTide e ((trimWords t a).foldl (fun e p => e.putW p.2.1 (g e p)) e) := fun e g =>
    KeepsTide.foldl (fun e p hp => e.putW_keepsTide _ (trimWords_not_mem t a p hp)) e
  unfold Die.trimBoundary
  extract_lets snap d1
  have hsnap : KeepsTide d d1 := d.clear_keepsTide (arrReg_not_mem t a _)
  refine KeepsTide.ite ?_ (KeepsTide.ite hsnap ?_)
  · exact (hsnap.trans (htrims d1 fun e p => e.getW p.1)).trans (hact _ _)
  · exact (hsnap.trans (htrims d1 fun e p => w32 (stepWord p.2.2 (e.num p.1) (e.num p.2.1)))).trans (hact _ _)

theorem Die.arrayBoundary_keepsTide (d : Die) (t a : Nat) : KeepsTide d (d.arrayBoundary t a) := keepsTide_of_eq rfl rfl

theorem Die.soundBoundary_keepsTide (d : Die) (t : Nat) (arrs : List Nat) : KeepsTide d (d.soundBoundary t arrs) := by
  have htile : ∀ (e : Die) (l : List Nat), (∀ r ∈ l, tileAddr t ≤ r) → KeepsTide e (l.foldl (fun e r => e.putW r 0) e) := fun e l hl =>
    KeepsTide.foldl (fun e r hr => e.putW_keepsTide 0 (tileAddr_not_mem (hl r hr))) e
  have harr : ∀ (e : Die), KeepsTide e
      (arrs.foldl (fun e a => ((e.putW (Reg.SND_CAPT t a) 0).putW (Reg.SND_FAIL t a) 0).putW (Reg.SND_SKIP t a) 0) e) := fun e =>
    KeepsTide.foldl (fun e a _ => ((e.putW_keepsTide 0 (arrReg_not_mem t a _)).trans (Die.putW_keepsTide _ 0 (arrReg_not_mem t a _))).trans
      (Die.putW_keepsTide _ 0 (arrReg_not_mem t a _))) e
  unfold Die.soundBoundary
  extract_lets e d1
  have hcounters : KeepsTide d e := htile d _ (by
    simp only [List.forall_mem_cons, List.not_mem_nil, false_imp_iff, forall_const, and_true]
    exact ⟨Nat.le_add_right _ _, Nat.le_add_right _ _, Nat.le_add_right _ _, Nat.le_add_right _ _, Nat.le_add_right _ _,
      Nat.le_add_right _ _, Nat.le_add_right _ _, Nat.le_add_right _ _⟩)
  have hcleared : KeepsTide d d1 :=
    KeepsTide.ite ((hcounters.trans (harr e)).trans (Die.clear_keepsTide _ (tileReg_not_mem t _))) (KeepsTide.refl d)
  exact KeepsTide.ite (hcleared.trans (Die.modTile_keepsTide _ t _)) hcleared

theorem Die.tilesBoundary_keepsTide (d : Die) (done : List Nat) (pos0 : Bool) : KeepsTide d (d.tilesBoundary done pos0) := by
  unfold Die.tilesBoundary
  refine KeepsTide.trans (KeepsTide.trans (KeepsTide.trans ?_ (Die.mapBoundary_keepsTide _ pos0)) (KeepsTide.foldl (fun e i _ => ?_) _))
    (KeepsTide.foldl (fun e t _ => e.soundBoundary_keepsTide t _) _)
  · exact KeepsTide.foldl (fun e t _ => (e.engBoundary_keepsTide t _).trans (Die.arithBoundary_keepsTide _ t)) d
  · exact (e.trimBoundary_keepsTide _ _).trans (Die.arrayBoundary_keepsTide _ _ _)

/-! ### Enables, refresh windows, streams, buckets and injectors -/

theorem Die.tideEnables_keepsTide (d : Die) : KeepsTide d d.tideEnables := by
  unfold Die.tideEnables
  split
  · exact KeepsTide.refl d
  · exact KeepsTide.ite (d.enableAll_keepsTide true) (KeepsTide.ite (d.enableAll_keepsTide false) (KeepsTide.refl d))

theorem Die.refreshBoundary_keepsTide (d : Die) : KeepsTide d d.refreshBoundary := by
  have harr : ∀ (e : Die) (t a : Nat) (g : Array1 → Array1), KeepsTide e (e.modArr t a g) := fun _ _ _ _ => keepsTide_of_eq rfl rfl
  unfold Die.refreshBoundary
  extract_lets d1
  have hclosed : KeepsTide d d1 := KeepsTide.foldl (fun e p _ => KeepsTide.ite (harr e _ _ _) (KeepsTide.refl e)) d
  split
  · exact hclosed
  · refine KeepsTide.ite hclosed (hclosed.trans (KeepsTide.foldl (fun e w _ => KeepsTide.foldl (fun f l _ => ?_) e) d1))
    refine KeepsTide.ite ?_ (KeepsTide.refl f)
    split
    · exact harr f _ _ _
    · exact KeepsTide.refl f

theorem Die.sramUse_keepsTide (d : Die) (t off n : Nat) : KeepsTide d (d.sramUse t off n) := by
  unfold Die.sramUse
  exact KeepsTide.ite (KeepsTide.refl d) (d.modTile_keepsTide t _)

theorem Die.startStream_keepsTide (d : Die) (t th nSched pos : Nat) : KeepsTide d (d.startStream t th nSched pos) := by
  unfold Die.startStream
  dsimp only
  split
  · exact d.tileFault_keepsTide _ _ _ _ _ _ _
  · exact KeepsTide.ite (d.sramUse_keepsTide t _ _) ((d.sramUse_keepsTide t _ _).trans (Die.modTile_keepsTide _ t _))

theorem Die.streamsBoundary_keepsTide (d : Die) : KeepsTide d d.streamsBoundary := by
  have hstreams : ∀ (e : Die) (t nSched pos : Nat), KeepsTide e (e.startStreams t nSched pos) := fun e t nSched pos =>
    KeepsTide.foldl (fun f th _ => f.startStream_keepsTide t th nSched pos) e
  unfold Die.streamsBoundary
  split
  · exact KeepsTide.refl d
  · exact KeepsTide.ite (KeepsTide.foldl (fun e t _ => KeepsTide.ite (hstreams e t _ _) (KeepsTide.refl e)) d) (KeepsTide.refl d)

theorem Die.bucketBoundary_keepsTide (d : Die) : KeepsTide d d.bucketBoundary := by
  have hmesh : ∀ (e : Die) (m : Mesh), KeepsTide e { e with mesh := m } := fun _ _ => keepsTide_of_eq rfl rfl
  have hbucket : ∀ (e : Die) (k t : Nat) (v : Int), KeepsTide e (e.setBucket k t v) := fun _ _ _ _ => keepsTide_of_eq rfl rfl
  unfold Die.bucketBoundary
  dsimp only
  refine KeepsTide.ite (KeepsTide.trans ?_ (hmesh _ _)) (hmesh d _)
  exact (hmesh d _).trans (KeepsTide.foldl (fun e t _ => KeepsTide.foldl (fun e k _ => hbucket e k t _) e) _)

/-- A register of an injector. -/
theorem ptbReg_not_mem {a : Nat} (h : Reg.TIDE_POS ≤ a) (i : Nat) : a + 0x20 * i ∉ tideWords :=
  not_mem_tideWords (h.trans (Nat.le_add_right a _))

theorem Die.ptbFire_keepsTide (d : Die) (i : Nat) : KeepsTide d (d.ptbFire i) := by
  have hinj : ∀ (e : Die) (x : Injector), KeepsTide e (e.setInj i x) := fun _ _ => keepsTide_of_eq rfl rfl
  have hdone : ∀ e : Die, KeepsTide e (e.ptbDone i) := fun e => (hinj e _).trans (Die.record_keepsTide _ _ _ _ _ _)
  unfold Die.ptbFire
  extract_lets c d1
  have hcounted : KeepsTide d d1 := (d.put_keepsTide c (ptbReg_not_mem (by decide) i)).trans (Die.bump_keepsTide _ 1 (ptbReg_not_mem (by decide) i))
  exact KeepsTide.ite ((hcounted.trans (Die.clear_keepsTide _ (ptbReg_not_mem (by decide) i))).trans (hdone _)) hcounted

theorem Die.injectBoundary_keepsTide (d : Die) : KeepsTide d d.injectBoundary := by
  have hinj : ∀ (e : Die) (i : Nat) (x : Injector), KeepsTide e (e.setInj i x) := fun _ _ _ => keepsTide_of_eq rfl rfl
  have hmesh : ∀ (e : Die) (m : Mesh), KeepsTide e { e with mesh := m } := fun _ _ => keepsTide_of_eq rfl rfl
  unfold Die.injectBoundary
  extract_lets d1
  have harmed : KeepsTide d d1 := by
    refine KeepsTide.foldl (fun e i _ => KeepsTide.ite ?_ (KeepsTide.refl e)) d
    exact (hinj e i _).trans (Die.record_keepsTide _ _ _ _ _ _)
  exact KeepsTide.ite ((harmed.trans (hmesh _ _)).trans (Die.ptbFire_keepsTide _ 1)) harmed

end Sys2Proof.Machine
end

section
/-! PROOFS. A boundary begins a new tide, one later, at cycle and schedule count zero (R206, R207, R239). -/
namespace Sys2Proof.Machine
variable {d e f : Die}

/-! ### The work of a boundary as a whole -/

/-- The die once the boundary has charged the tide that ends and begun the next one (R206, R207, R210, R238). -/
def Die.tideBegun (d : Die) : Die :=
  ((((if d.landRest.on Reg.TIDE_STATUS_FROZEN then d.landRest.scResume else d.landRest).chargeTide.clearStalls.bump64
    (Reg.TIDE_NUM 0) 1).freshTide).newPeriod).applyThrottle

/-- After the new tide has begun and the table has its next state, the boundary's work keeps the tide. -/
theorem Die.takeBoundary_keepsTide (d : Die) : KeepsTide (d.tideBegun.nextState d.positioned) d.takeBoundary := by
  have hgated : ∀ (e : Die) (x : Sense), KeepsTide e { e with sense := x } := fun _ _ => keepsTide_of_eq rfl rfl
  unfold Die.takeBoundary
  extract_lets was done dl d0 d1 d2 sense d3 d4 d5
  have htrip : KeepsTide d2 d3 := KeepsTide.ite (hgated d2 _) (KeepsTide.refl d2)
  have htiles : KeepsTide d3 d4 := (d3.upkeepBoundary_keepsTide).trans (Die.tilesBoundary_keepsTide _ _ _)
  have hrest : KeepsTide d4 d5 := ((((d4.tideEnables_keepsTide).trans (Die.refreshBoundary_keepsTide _)).trans
    (Die.streamsBoundary_keepsTide _)).trans (Die.bucketBoundary_keepsTide _)).trans (Die.injectBoundary_keepsTide _)
  exact ((htrip.trans htiles).trans hrest).trans (d5.sendMarks_keepsTide _ _ _ _)

/-! ### The counts of the new tide -/

theorem Die.modTide_counts (d : Die) {g : Tide → Tide} (h : ∀ t, (g t).counts = t.counts) : (d.modTide g).tideCounts = d.tideCounts :=
  h d.tide

theorem Die.put_counts (d : Die) (g : Fld) (v : Nat) : (d.put g v).tideCounts = d.tideCounts := congrArg Tide.counts (d.put_tide g v)
theorem Die.putW_counts (d : Die) (a : Nat) (w : Word) : (d.putW a w).tideCounts = d.tideCounts :=
  congrArg Tide.counts (d.putW_tide a w)

theorem Die.bktProgram_tide (d : Die) : d.bktProgram.tide = d.tide := by
  unfold Die.bktProgram
  dsimp only
  split
  · exact List.foldlRecOn (motive := fun (e : Die) => e.tide = d.tide) _ _ rfl fun _ h _ _ => h
  · rfl

theorem Die.newPeriod_counts (d : Die) : d.newPeriod.tideCounts = d.tideCounts := by
  unfold Die.newPeriod
  extract_lets p d1
  have hperiod : d1.tideCounts = d.tideCounts := d.modTide_counts fun _ => rfl
  split
  · rfl
  · split
    · exact (congrArg Tide.counts d1.bktProgram_tide).trans hperiod
    · exact hperiod

theorem Die.applyThrottle_counts (d : Die) : d.applyThrottle.tideCounts = d.tideCounts := by
  unfold Die.applyThrottle
  extract_lets own a new d1
  have happlied : d1.tideCounts = d.tideCounts := (Die.put_counts _ _ _).trans (d.putW_counts _ _)
  split
  · exact happlied
  · exact (d1.trigger_keepsTide 3).counts.trans happlied

theorem Die.freshTide_counts (d : Die) : ∃ tb, d.freshTide.tideCounts = (tb, 0, 0, [], [], []) := ⟨_, rfl⟩

theorem Die.tideBegun_counts (d : Die) : ∃ tb, d.tideBegun.tideCounts = (tb, 0, 0, [], [], []) := by
  obtain ⟨tb, hfresh⟩ := Die.freshTide_counts
    ((if d.landRest.on Reg.TIDE_STATUS_FROZEN then d.landRest.scResume else d.landRest).chargeTide.clearStalls.bump64 (Reg.TIDE_NUM 0) 1)
  exact ⟨tb, (Die.applyThrottle_counts _).trans ((Die.newPeriod_counts _).trans hfresh)⟩

/-! ### The next state of the table -/

theorem Die.tableIdle_counts (d : Die) (abandon : Bool) : (d.tableIdle abandon).tideCounts = d.tideCounts := by
  unfold Die.tableIdle
  extract_lets d1
  have hstops : KeepsTide d d1 := by
    simp only [d1]
    split
    · exact d.stepsAbandoned_keepsTide
    · exact d.tableStops_keepsTide abandon
  rw [Die.modTide_counts, Die.putW_counts, Die.putW_counts, Die.put_counts, hstops.counts]
  exact fun _ => rfl

theorem Die.advance_counts (d : Die) (tides : Nat) : (d.advance tides).tideCounts = d.tideCounts := by
  unfold Die.advance
  split
  · rw [Die.modTide_counts, Die.put_counts]
    exact fun _ => rfl
  · rw [(Die.stepStarts_keepsTide _ _).counts, Die.modTide_counts, Die.put_counts, Die.put_counts]
    exact fun _ => rfl

theorem Die.nextPosition_counts (d : Die) (tb : Table) (was : Bool) : (d.nextPosition tb was).tideCounts = d.tideCounts := by
  unfold Die.nextPosition
  extract_lets last d1 skip
  have hends : KeepsTide d d1 := KeepsTide.ite (d.stepEnds_keepsTide _) (KeepsTide.refl d)
  split
  · exact (d1.tableIdle_counts false).trans hends.counts
  · split
    · rw [Die.modTide_counts, hends.counts]
      exact fun _ => rfl
    · rw [Die.advance_counts, Die.modTide_counts, hends.counts]
      exact fun _ => rfl

theorem Die.nextState_counts (d : Die) (was : Bool) : (d.nextState was).tideCounts = d.tideCounts := by
  unfold Die.nextState
  split
  · rfl
  · split
    · exact d.tableIdle_counts true
    · split
      · rw [(Die.stepStarts_keepsTide _ _).counts, Die.modTide_counts, Die.put_counts, Die.put_counts, Die.put_counts]
        exact fun _ => rfl
      · split
        · exact d.nextPosition_counts _ was
        · rfl

theorem Die.nextState_of_noTable (h : d.tide.table = none) (was : Bool) : d.nextState was = d := by
  unfold Die.nextState
  rw [h]

/-- A boundary begins its tide at cycle and schedule count zero, with no window checked, done or failed (R206, R209, R210). -/
theorem Die.takeBoundary_counts (d : Die) : ∃ tb, d.takeBoundary.tideCounts = (tb, 0, 0, [], [], []) := by
  obtain ⟨tb, hbegun⟩ := d.tideBegun_counts
  exact ⟨tb, d.takeBoundary_keepsTide.counts.trans ((Die.nextState_counts _ _).trans hbegun)⟩

/-! ### State and number of the tide without a table -/

/-- The table, its state, the tide's number and BKT_EN are as they were. -/
structure KeepsState (d e : Die) : Prop where
  table : e.tide.table = d.tide.table
  state : e.tideState = d.tideState
  num : e.tideNum = d.tideNum
  bktEn : e.on Reg.GLB_MESH_CTRL_BKT_EN = d.on Reg.GLB_MESH_CTRL_BKT_EN

theorem KeepsState.trans (h : KeepsState d e) (k : KeepsState e f) : KeepsState d f :=
  ⟨k.table.trans h.table, k.state.trans h.state, k.num.trans h.num, k.bktEn.trans h.bktEn⟩

theorem Die.tideState_of_getW (h : e.getW Reg.TIDE_STATUS = d.getW Reg.TIDE_STATUS) : e.tideState = d.tideState :=
  congrArg (fun w : Word => bits w.toNat 0 4) h

theorem KeepsTide.keepsState (h : KeepsTide d e) : KeepsState d e where
  table := congrArg (fun c => c.1) h.counts
  state := Die.tideState_of_getW (h.words _ (by decide))
  num := congrArg₂ (fun lo hi : Word => lo.toNat + hi.toNat * 2 ^ 32) (h.words (Reg.TIDE_NUM 0) (by decide))
    (h.words (Reg.TIDE_NUM 0 + 4) (by decide))
  bktEn := congrArg (fun w : Word => decide (bits w.toNat 2 1 = 1)) (h.words Reg.GLB_MESH_CTRL (by decide))

theorem KeepsState.refl (d : Die) : KeepsState d d := (KeepsTide.refl d).keepsState

/-- A field of TIDE_STATUS above its STATE. -/
theorem Die.putStatus_keepsState (d : Die) {g : Fld} (v : Nat) (ha : g.addr = Reg.TIDE_STATUS) (hlo : 4 ≤ g.lo)
    (hw : g.lo + g.width ≤ 32) : KeepsState d (d.put g v) := by
  have hword : ∀ a, a ≠ Reg.TIDE_STATUS → (d.put g v).getW a = d.getW a := fun a h => Die.getW_put_ne d g v (ha ▸ h)
  have hon : (d.put g v).get Reg.GLB_MESH_CTRL_BKT_EN = d.get Reg.GLB_MESH_CTRL_BKT_EN :=
    Die.get_put_addr d g _ v (ha ▸ by decide)
  exact {
    table := rfl
    state := Die.get_put_field d g _ v hw ha.symm (Or.inl hlo)
    num := congrArg₂ (fun lo hi : Word => lo.toNat + hi.toNat * 2 ^ 32) (hword _ (by decide)) (hword _ (by decide))
    bktEn := congrArg (fun n => decide (n = 1)) hon }

theorem Die.clearStatus_keepsState (d : Die) {g : Fld} (ha : g.addr = Reg.TIDE_STATUS) (hlo : 4 ≤ g.lo) (hw : g.lo + g.width ≤ 32) :
    KeepsState d (d.clear g) := d.putStatus_keepsState 0 ha hlo hw

theorem Die.put64_keepsTide (d : Die) {a : Nat} (v : Nat) (h : Reg.TIDE_POS ≤ a) : KeepsTide d (d.put64 a v) :=
  (d.putW_keepsTide _ (not_mem_tideWords h)).trans (Die.putW_keepsTide _ _ (not_mem_tideWords (h.trans (Nat.le_add_right a 4))))

theorem Die.scResume_keepsState (d : Die) : KeepsState d d.scResume := by
  have hcharge := fun c n => (d.put64_keepsTide (a := Reg.TIDE_STALL_FREEZE_LO c) n (Nat.le_add_right_of_le (by decide))).keepsState
  have hmod : ∀ (e : Die) (n c : Nat), KeepsState e (e.modTide (fun t => { t with freeze := n, freezeCause := c })) :=
    fun _ _ _ => ⟨rfl, rfl, rfl, rfl⟩
  unfold Die.scResume Die.bump64
  exact ((hcharge _ _).trans (Die.clearStatus_keepsState _ rfl (by decide) (by decide))).trans (hmod _ _ _)

theorem Die.chargeTide_keepsTide (d : Die) : KeepsTide d d.chargeTide := by
  have hstretch : ∀ (e : Die) (c n : Nat), KeepsTide e (e.bump64 (Reg.TIDE_STALL_STRETCH_LO c) n) := fun e c n =>
    e.put64_keepsTide _ (Nat.le_add_right_of_le (by decide))
  unfold Die.chargeTide
  extract_lets td dv late c e d1 len
  have hlate : KeepsTide d e := KeepsTide.ite (KeepsTide.refl d) ((hstretch d _ _).trans (Die.bump_keepsTide _ 1 (by decide)))
  have hcharged : KeepsTide d d1 := KeepsTide.ite ((hstretch d _ _).trans (Die.bump_keepsTide _ 1 (by decide)))
    (KeepsTide.ite hlate (hlate.trans (hstretch e _ _)))
  exact ((hcharged.trans (d1.put_keepsTide len (by decide))).trans (Die.put_keepsTide _ _ (by decide))).trans
    (Die.put_keepsTide _ _ (by decide))

theorem Die.clearStalls_keepsTide (d : Die) : KeepsTide d d.clearStalls := by
  have hstall : ∀ (e : Die) (c : Nat), KeepsTide e
      ((e.put64 (Reg.TIDE_STALL_STRETCH_LO c) 0).put64 (Reg.TIDE_STALL_FREEZE_LO c) 0) := fun e c =>
    (e.put64_keepsTide 0 (Nat.le_add_right_of_le (by decide))).trans (Die.put64_keepsTide _ 0 (Nat.le_add_right_of_le (by decide)))
  unfold Die.clearStalls
  refine KeepsTide.ite (KeepsTide.trans ?_ (KeepsTide.foldl (fun e c _ => hstall e c) _)) (KeepsTide.refl d)
  exact (((d.clear_keepsTide (by decide)).trans (Die.putW_keepsTide _ 0 (by decide))).trans (Die.putW_keepsTide _ 0 (by decide))).trans
    (Die.putW_keepsTide _ 0 (by decide))

theorem Die.freshTide_keepsState (d : Die) : KeepsState d d.freshTide := by
  have hmod : ∀ (e : Die) (g : Tide → Tide), (g e.tide).table = e.tide.table → KeepsState e (e.modTide g) := fun _ _ h => ⟨h, rfl, rfl, rfl⟩
  unfold Die.freshTide
  exact (((d.clearStatus_keepsState rfl (by decide) (by decide)).trans (Die.clearStatus_keepsState _ rfl (by decide) (by decide))).trans
    (Die.clearStatus_keepsState _ rfl (by decide) (by decide))).trans (hmod _ _ rfl)

theorem Die.newPeriod_keepsState (h : d.on Reg.GLB_MESH_CTRL_BKT_EN = false) : KeepsState d d.newPeriod := by
  have hperiod : ∀ p, KeepsState d (d.modTide (fun t => { t with period := p })) := fun _ => ⟨rfl, rfl, rfl, rfl⟩
  have hbkt : ∀ e : Die, e.on Reg.GLB_MESH_CTRL_BKT_EN = false → e.bktProgram = e := fun e he => by
    unfold Die.bktProgram
    rw [he]
    rfl
  unfold Die.newPeriod
  extract_lets p d1
  have hd1 : KeepsState d d1 := hperiod p
  rw [hbkt d1 (hd1.bktEn.trans h)]
  split
  · exact KeepsState.refl d
  · split
    · exact hd1
    · exact hd1

theorem Die.applyThrottle_keepsState (d : Die) : KeepsState d d.applyThrottle := by
  unfold Die.applyThrottle
  extract_lets own a new d1
  have happlied : KeepsState d d1 := ((d.putW_keepsTide new (by decide)).keepsState).trans
    (Die.putStatus_keepsState _ _ rfl (by decide) (by decide))
  split
  · exact happlied
  · exact happlied.trans (d1.trigger_keepsTide 3).keepsState

theorem Die.landRest_of_noTable (h : d.tide.table = none) : d.landRest = d := by
  unfold Die.landRest Die.winsNow
  rw [h]
  rfl

/-- One more tide: its number is one higher, modulo 2 to the 64 (R206, R246), and nothing else of the tide's state moves. -/
theorem Die.bumpTideNum_state (d : Die) : (d.bump64 (Reg.TIDE_NUM 0) 1).tide.table = d.tide.table ∧
    (d.bump64 (Reg.TIDE_NUM 0) 1).tideState = d.tideState ∧ (d.bump64 (Reg.TIDE_NUM 0) 1).tideNum = (d.tideNum + 1) % 2 ^ 64 ∧
    (d.bump64 (Reg.TIDE_NUM 0) 1).on Reg.GLB_MESH_CTRL_BKT_EN = d.on Reg.GLB_MESH_CTRL_BKT_EN := by
  have hregs : OnlyRegs [Reg.TIDE_NUM 0, Reg.TIDE_NUM 0 + 4] d (d.bump64 (Reg.TIDE_NUM 0) 1) := d.put64_onlyRegs _ _
  exact ⟨by simp [Die.bump64, Die.put64], Die.tideState_of_getW (hregs _ (by decide)), d.get64_put64 _ _,
    congrArg (fun w : Word => decide (bits w.toNat 2 1 = 1)) (hregs Reg.GLB_MESH_CTRL (by decide))⟩

/-- Without a table the state stays and the number is one higher (R206, R239). -/
theorem Die.takeBoundary_of_noTable (ht : d.tide.table = none) (hbkt : d.on Reg.GLB_MESH_CTRL_BKT_EN = false) :
    d.takeBoundary.tideNum = (d.tideNum + 1) % 2 ^ 64 ∧ d.takeBoundary.tideState = d.tideState := by
  have hresumed : KeepsState d (if d.on Reg.TIDE_STATUS_FROZEN then d.scResume else d) := by
    split
    · exact d.scResume_keepsState
    · exact KeepsState.refl d
  have hcharged : KeepsState d (if d.on Reg.TIDE_STATUS_FROZEN then d.scResume else d).chargeTide.clearStalls :=
    (hresumed.trans (Die.chargeTide_keepsTide _).keepsState).trans (Die.clearStalls_keepsTide _).keepsState
  obtain ⟨htable, hstate, hnum, hen⟩ := Die.bumpTideNum_state
    (if d.on Reg.TIDE_STATUS_FROZEN then d.scResume else d).chargeTide.clearStalls
  have hfresh := Die.freshTide_keepsState
    ((if d.on Reg.TIDE_STATUS_FROZEN then d.scResume else d).chargeTide.clearStalls.bump64 (Reg.TIDE_NUM 0) 1)
  have hbegun := (hfresh.trans (Die.newPeriod_keepsState (hfresh.bktEn.trans (hen.trans (hcharged.bktEn.trans hbkt))))).trans
    (Die.applyThrottle_keepsState _)
  have hafter : KeepsState d.tideBegun d.takeBoundary := by
    have hnone : d.tideBegun.tide.table = none := by
      unfold Die.tideBegun
      rw [Die.landRest_of_noTable ht]
      exact hbegun.table.trans (htable.trans (hcharged.table.trans ht))
    have h := d.takeBoundary_keepsTide.keepsState
    rwa [Die.nextState_of_noTable hnone] at h
  unfold Die.tideBegun at hafter
  rw [Die.landRest_of_noTable ht] at hafter
  constructor
  · rw [hafter.num, hbegun.num, hnum, hcharged.num]
  · rw [hafter.state, hbegun.state, hstate, hcharged.state]

end Sys2Proof.Machine
end

section
/-! PROOFS. What windows move at their ends, and what a freeze is charged to (R210, R215, R227, R233, R234). -/
namespace Sys2Proof.Machine
variable {d e f : Die}

/-! ### What a window's end changes beside memory -/

/-- Nothing but the tiles' own state differs. -/
def TilesOnly (d e : Die) : Prop := e = { d with tiles := e.tiles }

theorem TilesOnly.refl (d : Die) : TilesOnly d d := rfl

theorem TilesOnly.trans (h : TilesOnly d e) (k : TilesOnly e f) : TilesOnly d f := by
  unfold TilesOnly at *
  rw [k, h]

theorem TilesOnly.regs (h : TilesOnly d e) : e.regs = d.regs := by rw [h]
theorem TilesOnly.tide (h : TilesOnly d e) : e.tide = d.tide := by rw [h]
theorem TilesOnly.links (h : TilesOnly d e) : e.links = d.links := by rw [h]
theorem TilesOnly.mem (h : TilesOnly d e) : SameMem d e := by
  rw [h]
  exact fun _ => rfl

theorem Die.link_of_links (h : e.links = d.links) (k : Nat) : e.link k = d.link k := by
  unfold Die.link
  rw [h]

theorem Die.sramUse_tilesOnly (d : Die) (t off n : Nat) : TilesOnly d (d.sramUse t off n) := (d.sramUse_own t off n).rest
theorem Die.mark_tilesOnly (d : Die) (t r : Nat) (full poison : Bool) : TilesOnly d (d.mark t r full poison) := rfl

theorem Die.emptyEnd_tilesOnly (d : Die) (on : Bool) (t op : Nat) : TilesOnly d (d.emptyEnd on t op) := by
  unfold Die.emptyEnd
  split
  · exact d.mark_tilesOnly t _ _ _
  · exact TilesOnly.refl d

theorem Die.fullEnd_tilesOnly (d : Die) (on : Bool) (t op : Nat) (poison : Bool) : TilesOnly d (d.fullEnd on t op poison) := by
  unfold Die.fullEnd
  split
  · exact d.mark_tilesOnly t _ _ _
  · exact TilesOnly.refl d

theorem Die.taintEnd_tilesOnly (d : Die) (poison : Bool) (t op : Nat) : TilesOnly d (d.taintEnd poison t op) := by
  unfold Die.taintEnd
  split
  · rfl
  · exact TilesOnly.refl d

/-! ### Full and empty -/

theorem Die.feOf_mark_same (d : Die) (t r : Nat) (full poison : Bool) : (d.mark t r full poison).feOf t r = (full, full && poison) := by
  simp [Die.mark, Die.feOf]

theorem Die.feOf_modTile_ne (d : Die) {t n : Nat} (g : Tile1 → Tile1) (r : Nat) (h : n ≠ t) : (d.modTile t g).feOf n r = d.feOf n r := by
  unfold Die.feOf
  rw [Die.tile_modTile_ne _ _ h]

theorem Die.feOf_sramUse (d : Die) (t off len n r : Nat) : (d.sramUse t off len).feOf n r = d.feOf n r := by
  by_cases h : n = t
  · subst h
    obtain ⟨bs, hbanks⟩ := d.sramUse_tile n off len
    unfold Die.feOf
    rw [hbanks]
  · unfold Die.sramUse
    split
    · rfl
    · exact d.feOf_modTile_ne _ r h

theorem Die.feOf_setBytes (d : Die) (a : Nat) (bs : List Byte) (n r : Nat) : (d.setBytes a bs).feOf n r = d.feOf n r := by
  unfold Die.feOf
  rw [Die.setBytes_tile]

theorem Die.feOf_emptyEnd_ne (d : Die) (on : Bool) {t n : Nat} (op r : Nat) (h : n ≠ t) : (d.emptyEnd on t op).feOf n r = d.feOf n r := by
  unfold Die.emptyEnd
  split
  · exact d.feOf_modTile_ne _ r h
  · rfl

/-- A window with FULL_DST leaves its full/empty destination FULL, poisoned with its bytes or as before (R215, R217). -/
theorem Die.feOf_fullEnd (d : Die) {t op : Nat} (poison : Bool) (h : d.rgnFE t (op / 2 ^ 24) = true) :
    (d.fullEnd true t op poison).feOf t (op / 2 ^ 24) = (true, poison || d.isPoison t (op / 2 ^ 24)) := by
  unfold Die.fullEnd
  rw [h, Bool.and_self, if_pos rfl, Die.feOf_mark_same, Bool.true_and]

/-! ### The tide plane's reads and writes -/

/-- A port leads to another tile (R77). -/
theorem portTile_ne {t p n : Nat} (h : portTile t p = some n) : n ≠ t := by
  unfold portTile at h
  split at h <;> grind

theorem Die.tpRead_ok {t op n : Nat} (h : d.engRefuses t (op / 2 ^ 24) (op % 2 ^ 24) n rightTP = none) :
    d.tpRead t op n = (d.sramUse t (d.rgnOff t (op / 2 ^ 24) + op % 2 ^ 24) n,
      some (d.bytesAt (d.rgnAddr t (op / 2 ^ 24) (op % 2 ^ 24)) n)) := by
  unfold Die.tpRead
  rw [h]

theorem Die.tpWrite_ok {t op : Nat} {bs : List Byte} (h : d.engRefuses t (op / 2 ^ 24) (op % 2 ^ 24) bs.length rightTP = none) :
    d.tpWrite t op bs = (d.sramUse t (d.rgnOff t (op / 2 ^ 24) + op % 2 ^ 24) bs.length).setBytes
      (d.rgnAddr t (op / 2 ^ 24) (op % 2 ^ 24)) bs := by
  unfold Die.tpWrite
  rw [h]

/-- `e` differs from `d` in the bytes `bs` from address `a`, and beside them in the tiles' own state. -/
structure Landed (a : Nat) (bs : List Byte) (d e : Die) : Prop where
  regs : e.regs = d.regs
  tide : e.tide = d.tide
  links : e.links = d.links
  bytes : e.bytesAt a bs.length = bs
  others : SameMemBut a bs.length d e

theorem Landed.tilesOnly {a : Nat} {bs : List Byte} (h : Landed a bs d e) (k : TilesOnly e f) : Landed a bs d f where
  regs := k.regs.trans h.regs
  tide := k.tide.trans h.tide
  links := k.links.trans h.links
  bytes := (k.mem.bytesAt a _).trans h.bytes
  others := fun c hc => (k.mem c).trans (h.others c hc)

theorem Die.tpWrite_landed {t op : Nat} {bs : List Byte} (h : d.engRefuses t (op / 2 ^ 24) (op % 2 ^ 24) bs.length rightTP = none) :
    Landed (d.rgnAddr t (op / 2 ^ 24) (op % 2 ^ 24)) bs d (d.tpWrite t op bs) := by
  rw [Die.tpWrite_ok h]
  have huse := d.sramUse_tilesOnly t (d.rgnOff t (op / 2 ^ 24) + op % 2 ^ 24) bs.length
  exact {
    regs := (Die.setBytes_regs _ _ _).trans huse.regs
    tide := (Die.setBytes_tide _ _ _).trans huse.tide
    links := (Die.setBytes_links _ _ _).trans huse.links
    bytes := Die.bytesAt_setBytes _ _ _
    others := fun c hc => (Die.byteAt_setBytes_out _ _ _ _ hc).trans (huse.mem c) }

theorem Die.feOf_tpWrite {t op : Nat} {bs : List Byte} (h : d.engRefuses t (op / 2 ^ 24) (op % 2 ^ 24) bs.length rightTP = none)
    (n r : Nat) : (d.tpWrite t op bs).feOf n r = d.feOf n r := by
  rw [Die.tpWrite_ok h, Die.feOf_setBytes, Die.feOf_sramUse]

/-! ### The ends of windows -/

/-- What a tide-plane window or a departure takes from its source: zeros for poisoned bytes (log entry 65). -/
def Die.sourceBytes (d : Die) (t op n : Nat) : List Byte :=
  if d.endPoison t op then zeros n else d.bytesAt (d.rgnAddr t (op / 2 ^ 24) (op % 2 ^ 24)) n

theorem Die.sourceBytes_length (d : Die) (t op n : Nat) : (d.sourceBytes t op n).length = n := by
  unfold Die.sourceBytes
  split
  · exact List.length_replicate
  · exact d.bytesAt_length _ n

/-- A tide-plane window that nothing refuses (R215, R233). -/
theorem Die.tpMove_ok {w : TpWin} {n : Nat} (hp : portTile w.tile w.port = some n)
    (hr : d.engRefuses w.tile (w.src / 2 ^ 24) (w.src % 2 ^ 24) w.bytes rightTP = none) :
    d.tpMove w = ((((d.sramUse w.tile (d.rgnOff w.tile (w.src / 2 ^ 24) + w.src % 2 ^ 24) w.bytes).tpWrite n w.dst
      (d.sourceBytes w.tile w.src w.bytes)).taintEnd (d.endPoison w.tile w.src) n w.dst).emptyEnd (bit w.flags 0) w.tile w.src).fullEnd
      (bit w.flags 1) n w.dst (d.endPoison w.tile w.src) := by
  unfold Die.tpMove
  rw [hp]
  dsimp only
  rw [Die.tpRead_ok hr]
  rfl

theorem Die.tpMove_landed {w : TpWin} {n : Nat} (hp : portTile w.tile w.port = some n)
    (hr : d.engRefuses w.tile (w.src / 2 ^ 24) (w.src % 2 ^ 24) w.bytes rightTP = none)
    (hw : d.engRefuses n (w.dst / 2 ^ 24) (w.dst % 2 ^ 24) w.bytes rightTP = none) :
    Landed (d.rgnAddr n (w.dst / 2 ^ 24) (w.dst % 2 ^ 24)) (d.sourceBytes w.tile w.src w.bytes) d (d.tpMove w) ∧
    (bit w.flags 1 = true → d.rgnFE n (w.dst / 2 ^ 24) = true → d.isPoison n (w.dst / 2 ^ 24) = false →
      (d.tpMove w).feOf n (w.dst / 2 ^ 24) = (true, d.endPoison w.tile w.src)) := by
  have huse := d.sramUse_tilesOnly w.tile (d.rgnOff w.tile (w.src / 2 ^ 24) + w.src % 2 ^ 24) w.bytes
  have hfe := d.feOf_sramUse w.tile (d.rgnOff w.tile (w.src / 2 ^ 24) + w.src % 2 ^ 24) w.bytes n (w.dst / 2 ^ 24)
  rw [Die.tpMove_ok hp hr]
  generalize d.sramUse w.tile (d.rgnOff w.tile (w.src / 2 ^ 24) + w.src % 2 ^ 24) w.bytes = e at huse hfe ⊢
  have hwrite : e.engRefuses n (w.dst / 2 ^ 24) (w.dst % 2 ^ 24) (d.sourceBytes w.tile w.src w.bytes).length rightTP = none := by
    rw [d.sourceBytes_length, Die.engRefuses_of_regs huse.regs, hw]
  have hwritten := Die.tpWrite_landed hwrite
  rw [Die.rgnAddr_of_regs huse.regs] at hwritten
  have hlanded : Landed (d.rgnAddr n (w.dst / 2 ^ 24) (w.dst % 2 ^ 24)) (d.sourceBytes w.tile w.src w.bytes) d
      (e.tpWrite n w.dst (d.sourceBytes w.tile w.src w.bytes)) :=
    ⟨hwritten.regs.trans huse.regs, hwritten.tide.trans huse.tide, hwritten.links.trans huse.links, hwritten.bytes,
      fun c hc => (hwritten.others c hc).trans (huse.mem c)⟩
  have hemptied := (hlanded.tilesOnly (Die.taintEnd_tilesOnly _ (d.endPoison w.tile w.src) n w.dst)).tilesOnly
    (Die.emptyEnd_tilesOnly _ (bit w.flags 0) w.tile w.src)
  refine ⟨hemptied.tilesOnly (Die.fullEnd_tilesOnly _ _ _ _ _), fun hfull hrgn hclean => ?_⟩
  rw [hfull, Die.feOf_fullEnd _ _ ((Die.rgnFE_of_regs hemptied.regs _ _).trans hrgn)]
  cases hpoison : d.endPoison w.tile w.src with
  | true => rfl
  | false =>
    have hkept : (((e.tpWrite n w.dst (d.sourceBytes w.tile w.src w.bytes)).taintEnd false n w.dst).emptyEnd (bit w.flags 0)
        w.tile w.src).feOf n (w.dst / 2 ^ 24) = d.feOf n (w.dst / 2 ^ 24) := by
      rw [Die.feOf_emptyEnd_ne _ _ _ _ (portTile_ne hp)]
      exact (Die.feOf_tpWrite hwrite _ _).trans hfe
    unfold Die.isPoison at hclean ⊢
    rw [hkept, hclean]
    rfl

/-- A departure that nothing refuses puts its burst behind the others in the transmit buffer (R234). -/
theorem Die.depart_ok {w : LinkWin} (hr : d.engRefuses w.tile (w.buf / 2 ^ 24) (w.buf % 2 ^ 24) w.bytes rightTP = none) :
    (d.depart w).regs = d.regs ∧ SameMem d (d.depart w) ∧ ((d.depart w).link w.link).txBursts = (d.link w.link).txBursts ++
      [{ stream := w.stream, total := w.bytes, data := d.sourceBytes w.tile w.buf w.bytes }] := by
  have huse := d.sramUse_tilesOnly w.tile (d.rgnOff w.tile (w.buf / 2 ^ 24) + w.buf % 2 ^ 24) w.bytes
  unfold Die.depart
  rw [Die.tpRead_ok hr]
  extract_lets p bad burst d1
  have hsent : d1.regs = d.regs ∧ SameMem d d1 ∧ (d1.link w.link).txBursts = (d.link w.link).txBursts ++ [burst] := by
    have hempty := Die.emptyEnd_tilesOnly (p.1.modLink w.link (fun l => { l with txBursts := l.txBursts ++ [burst] })) (bit w.flags 0)
      w.tile w.buf
    refine ⟨hempty.regs.trans ((Die.modLink_regs _ _ _).trans huse.regs), fun a => (hempty.mem a).trans (huse.mem a), ?_⟩
    rw [Die.link_of_links hempty.links, Die.link_modLink_same, Die.link_of_links huse.links]
  split
  · exact hsent
  · exact hsent

/-- Memory and the bursts that wait on link `k` are as they were. -/
structure KeepsBursts (k : Nat) (d e : Die) : Prop where
  mem : SameMem d e
  rx : (e.link k).rxBursts = (d.link k).rxBursts

theorem KeepsBursts.trans {k : Nat} (h : KeepsBursts k d e) (h' : KeepsBursts k e f) : KeepsBursts k d f :=
  ⟨fun a => (h'.mem a).trans (h.mem a), h'.rx.trans h.rx⟩

theorem keepsBursts_of_eq {k : Nat} (hm : SameMem d e) (hl : e.links = d.links) : KeepsBursts k d e :=
  ⟨hm, congrArg Link.rxBursts (Die.link_of_links hl k)⟩

theorem Die.modLink_keepsBursts (d : Die) (k j : Nat) {g : Link → Link} (hg : ∀ l, (g l).rxBursts = l.rxBursts) :
    KeepsBursts k d (d.modLink j g) := by
  refine ⟨fun _ => rfl, ?_⟩
  by_cases h : k = j
  · rw [h, Die.link_modLink_same, hg]
  · rw [Die.link_modLink_ne _ _ h]

theorem Die.freeRx_keepsBursts (d : Die) (k j i n : Nat) : KeepsBursts k d (d.freeRx j i n) ∧ (d.freeRx j i n).regs = d.regs := by
  have hmod : ∀ (e : Die) (g : Link → Link), (∀ l, (g l).rxBursts = l.rxBursts) → KeepsBursts k e (e.modLink j g) :=
    fun e _ h => e.modLink_keepsBursts k j h
  unfold Die.freeRx Die.sendControl
  dsimp only
  refine iteInduction (motive := fun e => KeepsBursts k d e ∧ e.regs = d.regs) (fun _ => ⟨?_, by simp only [Die.modLink_regs]⟩)
    fun _ => ⟨?_, Die.modLink_regs _ _ _⟩
  · refine KeepsBursts.trans (KeepsBursts.trans (hmod _ _ ?_) (hmod _ _ ?_)) (hmod _ _ ?_)
    · exact fun _ => rfl
    · exact fun _ => rfl
    · exact fun _ => rfl
  · refine hmod _ _ ?_
    exact fun _ => rfl

theorem Die.sendMark_keepsBursts (d : Die) (k j : Nat) (stop fault : Bool) (cause coord : Nat) :
    KeepsBursts k d (d.sendMark j stop fault cause coord) := by
  have hemit : ∀ (e : Die) (o : Out), KeepsBursts k e (e.emit o) := fun _ _ => keepsBursts_of_eq (fun _ => rfl) rfl
  unfold Die.sendMark
  refine KeepsBursts.trans (d.modLink_keepsBursts k j ?_) (hemit _ _)
  exact fun _ => rfl

theorem Die.faultStop_keepsBursts (d : Die) (k cause coord : Nat) : KeepsBursts k d (d.faultStop cause coord) := by
  have hrefl : KeepsBursts k d d := keepsBursts_of_eq (fun _ => rfl) rfl
  have hmarks : ∀ e : Die, KeepsBursts k e (e.sendMarks true true cause coord) := fun e =>
    List.foldlRecOn (motive := fun f => KeepsBursts k e f) _ _ (keepsBursts_of_eq (fun _ => rfl) rfl) fun f hf j _ =>
      hf.trans (f.sendMark_keepsBursts k j _ _ _ _)
  have hrecord : ∀ e : Die, KeepsBursts k e (e.record 0x05 5 96 0xFFFF [cause, coord]) := fun e =>
    keepsBursts_of_eq (e.record_logsOnly _ _ _ _ _).sameMem (e.record_logsOnly _ _ _ _ _).links
  have hclear : ∀ (e : Die) (t : Nat), KeepsBursts k e (e.setEnable t false) := fun e t => by
    have hput : ∀ g, KeepsBursts k e (e.clear g) := fun _ => keepsBursts_of_eq (fun _ => rfl) rfl
    have htile : ∀ (f : Die) g, KeepsBursts k f (f.modTile t g) := fun _ _ => keepsBursts_of_eq (fun _ => rfl) rfl
    unfold Die.setEnable
    rw [if_neg Bool.false_ne_true]
    exact (hput _).trans (htile _ _)
  have henables : ∀ e : Die, KeepsBursts k e (e.enableAll false) := fun e =>
    List.foldlRecOn (motive := fun f => KeepsBursts k e f) _ _ (keepsBursts_of_eq (fun _ => rfl) rfl) fun f hf t _ =>
      hf.trans (hclear f t)
  have hset : ∀ t : Tide, KeepsBursts k d { d with tide := t } := fun _ => keepsBursts_of_eq (fun _ => rfl) rfl
  unfold Die.faultStop
  dsimp only
  split
  · exact (((hset _).trans (hmarks _)).trans (hrecord _)).trans (henables _)
  · exact hrefl

/-- The die once its oldest burst has landed, before a DIVERGE (R215, R234). -/
def Die.burstLanded (d : Die) (w : LinkWin) (b : RxBurst) (r : List RxBurst) (wrong : Bool) : Die :=
  ((((d.modLink w.link (fun l => { l with rxBursts := r })).freeRx w.link 3 b.total).tpWrite w.tile w.buf
    (b.data.take w.bytes)).taintEnd wrong w.tile w.buf).fullEnd (bit w.flags 1) w.tile w.buf wrong

section
variable {w : LinkWin} {b : RxBurst} {r : List RxBurst}

theorem Die.landBurst_expected (h : (d.link w.link).rxBursts = b :: r) (hs : b.stream = w.stream) (ht : b.total = w.bytes) :
    d.landBurst w false = d.burstLanded w b r false := by
  unfold Die.landBurst
  rw [h]
  simp [hs, ht, Die.burstLanded]

theorem Die.landBurst_bad (h : (d.link w.link).rxBursts = b :: r) :
    d.landBurst w true = (((d.burstLanded w b r true).raise Reg.TIDE_STATUS_DIVERGE).record 0x05 3 96 0xFFFF [w.link, b.stream]).faultStop 3
      (d.burstLanded w b r true).coord := by
  unfold Die.landBurst Die.burstLanded
  rw [h]
  simp only [Bool.true_or, if_true]

/-- The oldest burst leaves the receive buffer, and its bytes, no others, land (R234). -/
theorem Die.burstLanded_lands (hlen : b.data.length = w.bytes)
    (hr : d.engRefuses w.tile (w.buf / 2 ^ 24) (w.buf % 2 ^ 24) w.bytes rightTP = none) (wrong : Bool) :
    (d.burstLanded w b r wrong).regs = d.regs ∧
    (d.burstLanded w b r wrong).bytesAt (d.rgnAddr w.tile (w.buf / 2 ^ 24) (w.buf % 2 ^ 24)) w.bytes = b.data ∧
    SameMemBut (d.rgnAddr w.tile (w.buf / 2 ^ 24) (w.buf % 2 ^ 24)) w.bytes d (d.burstLanded w b r wrong) ∧
    ((d.burstLanded w b r wrong).link w.link).rxBursts = r := by
  obtain ⟨hkept, hregs⟩ := (d.modLink w.link (fun l => { l with rxBursts := r })).freeRx_keepsBursts w.link w.link 3 b.total
  unfold Die.burstLanded
  rw [List.take_of_length_le hlen.le]
  generalize (d.modLink w.link (fun l => { l with rxBursts := r })).freeRx w.link 3 b.total = f at hkept hregs
  have hsame : f.regs = d.regs := hregs
  have hrefuse : f.engRefuses w.tile (w.buf / 2 ^ 24) (w.buf % 2 ^ 24) b.data.length rightTP = none := by
    rw [hlen, Die.engRefuses_of_regs hsame, hr]
  have hlanded := ((Die.tpWrite_landed hrefuse).tilesOnly (Die.taintEnd_tilesOnly _ wrong w.tile w.buf)).tilesOnly
    (Die.fullEnd_tilesOnly _ (bit w.flags 1) w.tile w.buf wrong)
  rw [Die.rgnAddr_of_regs hsame] at hlanded
  refine ⟨hlanded.regs.trans hsame, hlen ▸ hlanded.bytes, fun c hc => ?_, ?_⟩
  · exact (hlanded.others c (hlen ▸ hc)).trans (hkept.mem c)
  · rw [Die.link_of_links hlanded.links, hkept.rx, Die.link_modLink_same]

/-- A burst with an uncorrectable error is a DIVERGE (R466), and takes its place all the same. -/
theorem Die.landBurst_diverges (h : (d.link w.link).rxBursts = b :: r) (hlen : b.data.length = w.bytes)
    (hr : d.engRefuses w.tile (w.buf / 2 ^ 24) (w.buf % 2 ^ 24) w.bytes rightTP = none) :
    (d.landBurst w true).get Reg.TIDE_STATUS_DIVERGE = 1 ∧ ((d.landBurst w true).link w.link).rxBursts = r ∧
    SameMemBut (d.rgnAddr w.tile (w.buf / 2 ^ 24) (w.buf % 2 ^ 24)) w.bytes d (d.landBurst w true) := by
  obtain ⟨-, -, hothers, hrx⟩ := Die.burstLanded_lands (r := r) hlen hr true
  rw [Die.landBurst_bad h]
  generalize d.burstLanded w b r true = e at hothers hrx
  have hrecord := (e.raise Reg.TIDE_STATUS_DIVERGE).record_logsOnly 0x05 3 96 0xFFFF [w.link, b.stream]
  have hwords := ((e.raise Reg.TIDE_STATUS_DIVERGE).record_keepsTide 0x05 3 96 0xFFFF [w.link, b.stream]).trans
    (Die.faultStop_keepsTide _ 3 e.coord)
  have hbursts := (keepsBursts_of_eq (k := w.link) hrecord.sameMem hrecord.links).trans (Die.faultStop_keepsBursts _ w.link 3 e.coord)
  refine ⟨?_, hbursts.rx.trans hrx, fun c hc => (hbursts.mem c).trans (hothers c hc)⟩
  rw [Die.get_of_getW (hwords.words Reg.TIDE_STATUS (by decide))]
  exact e.get_put_same Reg.TIDE_STATUS_DIVERGE 1 (by decide)

end

/-! ### Checks and freezes -/

theorem Die.tpInject_of_idle (h : d.ptbActive 0 = false) (i : Nat) (x : Win) : d.tpInject i x = d := by
  unfold Die.tpInject
  split
  · simp [h]
  · rfl

theorem Die.modTide_regs (d : Die) (g : Tide → Tide) : (d.modTide g).regs = d.regs := rfl
theorem Die.modTide_getW (d : Die) (g : Tide → Tide) (a : Nat) : (d.modTide g).getW a = d.getW a := Die.getW_of_regs (d.modTide_regs g) a

/-- TIDE_STATUS.FROZEN cleared, whatever else happens to the tide block. -/
theorem Die.thaw (d : Die) (g : Tide → Tide) : ((d.clear Reg.TIDE_STATUS_FROZEN).modTide g).on Reg.TIDE_STATUS_FROZEN = false ∧
    OtherBits Reg.TIDE_STATUS_FROZEN d ((d.clear Reg.TIDE_STATUS_FROZEN).modTide g) ∧
    SameMem d ((d.clear Reg.TIDE_STATUS_FROZEN).modTide g) ∧
    OnlyRegs [Reg.TIDE_STATUS] d ((d.clear Reg.TIDE_STATUS_FROZEN).modTide g) := by
  have hword := (d.clear Reg.TIDE_STATUS_FROZEN).modTide_getW g
  have hzero : ((d.clear Reg.TIDE_STATUS_FROZEN).modTide g).get Reg.TIDE_STATUS_FROZEN = 0 :=
    (Die.get_of_getW (hword _)).trans (d.get_put_same Reg.TIDE_STATUS_FROZEN 0 (by decide))
  refine ⟨?_, fun h ha hh => ?_, fun a => ?_, fun a ha => ?_⟩
  · unfold Die.on
    rw [hzero]
    rfl
  · exact (Die.get_of_getW (hword _)).trans (otherBits_put d Reg.TIDE_STATUS_FROZEN 0 (by decide) h ha hh)
  · exact (d.put_keepsWork Reg.TIDE_STATUS_FROZEN 0).mem a
  · exact (hword a).trans (onlyRegs_put (rs := [Reg.TIDE_STATUS]) d (f := Reg.TIDE_STATUS_FROZEN) 0 List.mem_cons_self a ha)

theorem stallFreeze_ne_status (c : Nat) :
    Reg.TIDE_STALL_FREEZE_LO c ≠ Reg.TIDE_STATUS ∧ Reg.TIDE_STALL_FREEZE_LO c + 4 ≠ Reg.TIDE_STATUS := by
  unfold Reg.TIDE_STATUS Reg.TIDE_STALL_FREEZE_LO
  omega

/-- A freeze that ends is charged to its cause (R210, R227). -/
theorem Die.scResume_charges (d : Die) : d.scResume.on Reg.TIDE_STATUS_FROZEN = false ∧ d.scResume.tide.freeze = 0 ∧
    d.scResume.get64 (Reg.TIDE_STALL_FREEZE_LO d.freezeCharge) =
      (d.get64 (Reg.TIDE_STALL_FREEZE_LO d.freezeCharge) + d.tide.freeze) % 2 ^ 64 ∧
    OtherBits Reg.TIDE_STATUS_FROZEN d d.scResume ∧ SameMem d d.scResume ∧
    OnlyRegs [Reg.TIDE_STATUS, Reg.TIDE_STALL_FREEZE_LO d.freezeCharge, Reg.TIDE_STALL_FREEZE_LO d.freezeCharge + 4] d d.scResume := by
  obtain ⟨hlo, hhi⟩ := stallFreeze_ne_status d.freezeCharge
  have hcharge : OnlyRegs [Reg.TIDE_STALL_FREEZE_LO d.freezeCharge, Reg.TIDE_STALL_FREEZE_LO d.freezeCharge + 4] d
      (d.bump64 (Reg.TIDE_STALL_FREEZE_LO d.freezeCharge) d.tide.freeze) := d.put64_onlyRegs _ _
  have hstatus := hcharge Reg.TIDE_STATUS (by
    rw [List.mem_pair]
    exact not_or.2 ⟨hlo.symm, hhi.symm⟩)
  have hsum := d.get64_put64 (Reg.TIDE_STALL_FREEZE_LO d.freezeCharge)
    (d.get64 (Reg.TIDE_STALL_FREEZE_LO d.freezeCharge) + d.tide.freeze)
  obtain ⟨hthawed, hbits, hmem, hregs⟩ := (d.bump64 (Reg.TIDE_STALL_FREEZE_LO d.freezeCharge) d.tide.freeze).thaw
    (fun t => { t with freeze := 0, freezeCause := d.freezeCharge })
  unfold Die.scResume
  refine ⟨hthawed, rfl, ?_, fun g ha hg => ?_, fun a => ?_, ?_⟩
  · refine (hregs.get64 ?_ ?_).trans hsum
    · exact fun h => hlo (List.mem_singleton.1 h)
    · exact fun h => hhi (List.mem_singleton.1 h)
  · exact (hbits g ha hg).trans (Die.get_of_getW (ha ▸ hstatus))
  · exact (hmem a).trans ((d.bump64_keepsWork _ _).mem a)
  · exact (hcharge.mono fun a ha => List.mem_cons_of_mem _ ha).trans (hregs.mono fun a ha => List.mem_cons.2 (.inl (List.mem_singleton.1 ha)))

end Sys2Proof.Machine
end

section
/-! PROOFS. The commands of boundaries and windows (R206, R209, R210, R233, R234). -/
namespace Sys2Proof.Machine
variable {d e f : Die}

/-! ### The commands -/

section
variable {s : State} {i : Nat} (hl : s.die.live = true) (hc : s.die.computeHeld = false)
include hl hc

/-- A command of the tide plane whose conditions hold has its effect. -/
theorem tideCmd_ok {ok : Die → Bool} {g : Die → Die} (h : ok s.die = true) :
    mainCmd (fun d => !d.computeHeld && ok d) g s = .next { s with die := g s.die } :=
  mainCmd_ok hl (by simp [hc, h])

theorem exec_tideBoundary_due (h : s.die.boundaryDue = true) :
    exec .tideBoundary s = .next { s with die := s.die.takeBoundary } := tideCmd_ok (ok := Die.boundaryDue) hl hc h

theorem exec_windowCheck {x : Win} (hx : s.die.winNow i = some x) (h : s.die.checkDue i x = true) :
    exec (.windowCheck i) s = .next { s with die := s.die.windowCheck i x } := by
  show execWindowCheck i s = _
  unfold execWindowCheck
  rw [mainCmd_ok hl (by simp [hc, hx, h]), hx]

theorem exec_scResume (hf : s.die.on Reg.TIDE_STATUS_FROZEN = true) (hb : s.die.settleWindows.scBlocked = false) :
    exec .scResume s = .next { s with die := s.die.settleWindows.scResume } := by
  show execScResume s = _
  unfold execScResume
  exact mainCmd_ok hl (by simp [hc, hf, hb])

/-- A window's end runs whenever COMPUTE is not held. -/
theorem exec_tpWindowComplete : exec (.tpWindowComplete i) s = .next { s with die := s.die.endWindow i 0 false } := by
  show execTpWindowComplete i s = _
  unfold execTpWindowComplete
  exact mainCmd_ok hl (by simp [hc])

theorem exec_linkDeparture : exec (.linkDeparture i) s = .next { s with die := s.die.endWindow i 1 false } := by
  show execLinkDeparture i s = _
  unfold execLinkDeparture
  exact mainCmd_ok hl (by simp [hc])

theorem exec_linkLanding (bad : Bool) : exec (.linkLanding i bad) s = .next { s with die := s.die.endWindow i 2 bad } := by
  show execLinkLanding i bad s = _
  unfold execLinkLanding
  exact mainCmd_ok hl (by simp [hc])

end

theorem exec_tideBoundary_notDue {s : State} (h : s.die.boundaryDue = false) : exec .tideBoundary s = .next s := by
  show execTideBoundary s = _
  unfold execTideBoundary mainCmd
  exact dieCmd_not (by simp [h])

/-! ### The end of each kind of window -/

/-- Window `i` is done, and nothing else has happened yet. -/
def Die.windowDone (d : Die) (i : Nat) : Die := d.modTide (fun t => { t with done := t.done ++ [i] })

section
variable {i : Nat}

theorem Die.endWindow_tp {w : TpWin} (hx : d.winNow i = some (.tp w)) (h : d.overDue i (.tp w) = true) :
    d.endWindow i 0 false = (d.windowDone i).tpMove w := by
  unfold Die.endWindow
  rw [hx]
  exact if_pos ⟨rfl, h⟩

theorem Die.endWindow_departure {w : LinkWin} (hx : d.winNow i = some (.link w)) (hk : w.kind = 0) (h : d.overDue i (.link w) = true) :
    d.endWindow i 1 false = (d.windowDone i).depart w := by
  unfold Die.endWindow
  rw [hx]
  exact (if_pos ⟨if_pos hk, h⟩).trans (if_pos hk)

theorem Die.endWindow_landing {w : LinkWin} (hx : d.winNow i = some (.link w)) (hk : w.kind ≠ 0) (h : d.overDue i (.link w) = true)
    (bad : Bool) : d.endWindow i 2 bad = (d.windowDone i).landBurst w bad := by
  unfold Die.endWindow
  rw [hx]
  exact (if_pos ⟨if_neg hk, h⟩).trans (if_neg hk)

end

theorem Die.windowCheck_of_idle (h : d.ptbActive 0 = false) {i : Nat} {x : Win} : d.windowCheck i x =
    if d.winCauses i x = [] then d.modTide (fun t => { t with checked := t.checked ++ [i] })
    else d.modTide (fun t => { t with checked := t.checked ++ [i], failed := t.failed ++ [(i, lowest (d.winCauses i x), none)] }) := by
  unfold Die.windowCheck
  rw [Die.tpInject_of_idle h]
  dsimp only
  split
  · next hmet => rw [if_pos hmet]
  · next hfails => rw [if_neg hfails]

/-- Settles O37: the boundary's work after its new tide keeps the counts, and each window's end moves its own bytes. -/
theorem boundariesAndWindowsMoveTheTide : Obligations.BoundariesAndWindowsMoveTheTide := by
  unfold Obligations.BoundariesAndWindowsMoveTheTide
  intro s hl hc
  refine ⟨fun hdue => ?boundary, exec_tideBoundary_notDue, fun i x hx hcheck hidle hmet => ?met, fun i x hx hcheck hidle hfails => ?fails,
    fun c hf hb hcause => ?resume, fun i w n hx hover hport hr hw => ?move, fun i w hx hkind hover hr => ?depart,
    fun i w b r hx hkind hover hrx hlen hr => ?land, exec_tideBoundary_due hl hc, fun _ _ => exec_windowCheck hl hc,
    fun _ => exec_tpWindowComplete hl hc, fun _ => exec_linkDeparture hl hc, fun _ => exec_linkLanding hl hc⟩
  case boundary =>
    obtain ⟨tb, hcounts⟩ := s.die.takeBoundary_counts
    obtain ⟨-, hcounts⟩ := Prod.mk.inj hcounts
    obtain ⟨hw, hcounts⟩ := Prod.mk.inj hcounts
    obtain ⟨hsc, hcounts⟩ := Prod.mk.inj hcounts
    obtain ⟨hchecked, hcounts⟩ := Prod.mk.inj hcounts
    obtain ⟨hdone, hfailed⟩ := Prod.mk.inj hcounts
    exact ⟨_, exec_tideBoundary_due hl hc hdue, hw, hsc, hchecked, hdone, hfailed, rfl, rfl, Die.takeBoundary_of_noTable⟩
  case met => rw [exec_windowCheck hl hc hx hcheck, Die.windowCheck_of_idle hidle, if_pos hmet]
  case fails => rw [exec_windowCheck hl hc hx hcheck, Die.windowCheck_of_idle hidle, if_neg hfails]
  case resume =>
    subst hcause
    exact ⟨_, exec_scResume hl hc hf hb, s.die.settleWindows.scResume_charges⟩
  case move =>
    obtain ⟨⟨hregs, htide, -, hbytes, hothers⟩, hfe⟩ := Die.tpMove_landed (d := s.die.windowDone i) hport hr hw
    rw [Die.sourceBytes_length] at hbytes hothers
    refine ⟨_, exec_tpWindowComplete hl hc, ?_⟩
    rw [Die.endWindow_tp hx hover]
    exact ⟨hregs, congrArg Tide.done htide, hbytes, hothers, hfe⟩
  case depart =>
    refine ⟨_, exec_linkDeparture hl hc, ?_⟩
    rw [Die.endWindow_departure hx hkind hover]
    exact Die.depart_ok (d := s.die.windowDone i) hr
  case land =>
    constructor
    · intro hstream htotal
      refine ⟨_, exec_linkLanding hl hc false, ?_⟩
      rw [Die.endWindow_landing hx hkind hover, Die.landBurst_expected (d := s.die.windowDone i) hrx hstream htotal]
      exact Die.burstLanded_lands (d := s.die.windowDone i) hlen hr false
    · refine ⟨_, exec_linkLanding hl hc true, ?_⟩
      rw [Die.endWindow_landing hx hkind hover]
      exact Die.landBurst_diverges (d := s.die.windowDone i) hrx hlen hr

end Sys2Proof.Machine
end

section
/-! SUPPORT. What relay load shares: its messages on links, and the failure and the progress of a load (R262 to R265). -/
namespace Sys2Proof.Machine
variable (d : Die)

/-- The die with another state of the relay. -/
def Die.setRelay (d : Die) (r : Relay) : Die := { d with relay := r }

/-- The die with other packets on their way and other things sent. -/
def Die.sent (d : Die) (m : Mesh) (o : List Out) : Die := { d with mesh := m, out := o }

section
variable (r : Relay) (m : Mesh) (o : List Out) (a : Nat)

@[simp] theorem Die.setRelay_relay : (d.setRelay r).relay = r := rfl
@[simp] theorem Die.setRelay_regs : (d.setRelay r).regs = d.regs := rfl
@[simp] theorem Die.setRelay_out : (d.setRelay r).out = d.out := rfl
@[simp] theorem Die.setRelay_strand : (d.setRelay r).strand = d.strand := rfl
@[simp] theorem Die.setRelay_clock : (d.setRelay r).clock = d.clock := rfl
@[simp] theorem Die.setRelay_host : (d.setRelay r).host = d.host := rfl
@[simp] theorem Die.setRelay_getW : (d.setRelay r).getW a = d.getW a := rfl
@[simp] theorem Die.setRelay_byteAt : (d.setRelay r).byteAt a = d.byteAt a := rfl
@[simp] theorem Die.sent_relay : (d.sent m o).relay = d.relay := rfl
@[simp] theorem Die.sent_regs : (d.sent m o).regs = d.regs := rfl
@[simp] theorem Die.sent_out : (d.sent m o).out = o := rfl
@[simp] theorem Die.sent_strand : (d.sent m o).strand = d.strand := rfl
@[simp] theorem Die.sent_clock : (d.sent m o).clock = d.clock := rfl
@[simp] theorem Die.sent_host : (d.sent m o).host = d.host := rfl
@[simp] theorem Die.sent_getW : (d.sent m o).getW a = d.getW a := rfl
@[simp] theorem Die.sent_byteAt : (d.sent m o).byteAt a = d.byteAt a := rfl
theorem Die.sent_relayRel : (d.sent m o).relayRel = d.relayRel := rfl
theorem Die.sent_sent (m' : Mesh) (o' : List Out) : (d.sent m o).sent m' o' = d.sent m' o' := rfl

end

/-! ### Messages and shards on links -/

/-- Bytes for a neighbour enter the packet plane, and nothing else moves. -/
theorem Die.toLink_eq (src : MeshUnit) (k vc tenant : Nat) (sys : Bool) (route : Option Nat) (bs : List Byte) :
    ∃ m : Mesh, d.toLink src k vc tenant sys route bs = d.sent m d.out := by
  unfold Die.toLink
  split
  · refine List.foldlRecOn (motive := fun e : Die => ∃ m : Mesh, e = d.sent m d.out) _ _ ⟨d.mesh, rfl⟩ ?_
    rintro _ ⟨m, rfl⟩ c -
    exact ⟨_, rfl⟩
  · exact ⟨d.mesh, rfl⟩

theorem Die.tellLink_eq (k kind : Nat) (words : List Nat) :
    ∃ m : Mesh, d.tellLink k kind words = d.sent m (.linkMsg k kind words :: d.out) := by
  unfold Die.tellLink
  obtain ⟨m, hm⟩ := d.toLink_eq (.edge 1 0) k 1 0 true none ((kind :: words).map (natLe 8)).flatten
  exact ⟨m, by rw [hm]; rfl⟩

theorem Die.sendShard_eq (k seq : Nat) (sh : List Byte) (tenant : Nat) (sys : Bool) (route : Option Nat) :
    ∃ m : Mesh, d.sendShard k seq sh tenant sys route = d.sent m (.shard k seq sh :: d.out) := by
  unfold Die.sendShard
  obtain ⟨m, hm⟩ := d.toLink_eq (.edge 0 1) k 0 tenant sys route sh
  exact ⟨m, by rw [hm]; rfl⟩

/-- An acknowledgement goes to the upstream neighbour, where there is one. -/
theorem Die.relayAckUp_eq (seq : Nat) : ∃ (m : Mesh) (o : List Out), d.relayAckUp seq = d.sent m o ∧
    (d.relay.upLink < 6 → o = .linkMsg d.relay.upLink lmRelayAck [seq] :: d.out) := by
  unfold Die.relayAckUp
  by_cases hup : d.relay.upLink < 6
  · obtain ⟨m, hm⟩ := d.tellLink_eq d.relay.upLink lmRelayAck [seq]
    exact ⟨m, _, (if_pos hup).trans hm, fun _ => rfl⟩
  · exact ⟨d.mesh, d.out, if_neg hup, fun h => absurd h hup⟩

theorem Die.relayAborts_eq : ∃ (m : Mesh) (o : List Out), d.relayAborts = d.sent m o := by
  have htell : ∀ (p : Prop) [Decidable p] (e : Die) (k : Nat), (∃ (m : Mesh) (o : List Out), e = d.sent m o) →
      ∃ (m : Mesh) (o : List Out), (if p then e.tellLink k lmRelayAbort [] else e) = d.sent m o := by
    rintro p _ _ k ⟨m, o, rfl⟩
    split
    · obtain ⟨n, hn⟩ := (d.sent m o).tellLink_eq k lmRelayAbort []
      exact ⟨n, _, hn⟩
    · exact ⟨m, o, rfl⟩
  exact htell _ _ _ (htell _ _ _ ⟨d.mesh, d.out, rfl⟩)

/-! ### Mailboxes beside events and records -/

theorem Die.putSession_boxes (slot : Nat) (x : Session) : (d.putSession slot x).host.boxes = d.host.boxes := rfl

theorem Die.event_boxes (slot kind : Nat) (body : List Byte) : (d.event slot kind body).host.boxes = d.host.boxes := by
  unfold Die.event
  cases d.session slot with
  | none => exact congrArg _ (Die.bump_host _ _)
  | some x =>
    dsimp only
    split
    · exact d.putSession_boxes _ _
    · exact (congrArg _ (Die.bump_host _ _)).trans (d.putSession_boxes _ _)

theorem Die.eventAll_boxes (kind : Nat) (body : List Byte) : (d.eventAll kind body).host.boxes = d.host.boxes := by
  unfold Die.eventAll
  split
  · exact congrArg _ (Die.bump_host _ _)
  · exact List.foldlRecOn (motive := fun e : Die => e.host.boxes = d.host.boxes) _ _ rfl fun e he slot _ =>
      (e.event_boxes slot kind body).trans he

theorem Die.alert_boxes (b : Nat) : (d.alert b).host.boxes = d.host.boxes := by
  unfold Die.alert
  dsimp only
  split
  · rw [Die.put_host]
  · rw [Die.eventAll_boxes]
    split
    · rw [Die.emit_host, Die.put_host]
    · rw [Die.put_host]

theorem Die.record_boxes (src ev dom sub : Nat) (det : List Nat) :
    (d.record src ev dom sub det).host.boxes = d.host.boxes := by
  by_cases h : d.strand.queue.length < 512
  · rw [show d.record src ev dom sub det = d.accept (d.mkRec src ev dom sub det false) from if_pos h]
    unfold Die.accept
    rw [Die.putW_host]
  · obtain ⟨x, hx, heq⟩ : ∃ x : Die, x.host = d.host ∧ d.record src ev dom sub det =
        ((x.bump Reg.STL_LOST_COUNT 1).raise Reg.STL_STATUS_QFULL).alert alLost :=
      ⟨{ d with strand := { d.strand with dropped := d.strand.dropped + 1 } }, rfl, if_neg h⟩
    rw [heq, Die.alert_boxes, Die.raise_eq, Die.put_host, Die.bump_host, hx]

/-! ### The failure of a load (R265) -/

/-- A load has failed with a code: the relay says so, one record tells it, and only registers that records move, events and
messages have moved. -/
structure LoadFailed (code : Nat) (d e : Die) : Prop where
  relay : e.relay = { d.relay with state := rsFailed, code := code }
  recorded : Recorded 0x20 3 0xFF 0xFFFF d e
  regs : OnlyRegs logRegs d e
  mem : SameMem d e
  boxes : e.host.boxes = d.host.boxes

variable {d} in
theorem LogsOnly.relay {e : Die} (h : LogsOnly d e) : e.relay = d.relay := by rw [h]

variable {d} in
/-- An event after the failure changes nothing of it. -/
theorem LoadFailed.eventAll {code : Nat} {e : Die} (h : LoadFailed code d e) (kind : Nat) (body : List Byte) :
    LoadFailed code d (e.eventAll kind body) where
  relay := (e.eventAll_logsOnly kind body).relay.trans h.relay
  recorded := h.recorded.frame ⟨rfl, rfl, rfl⟩ ⟨e.eventAll_strand kind body, e.eventAll_getW_ne kind body (by decide)⟩
  regs := h.regs.trans ((e.eventAll_onlyRegs kind body).mono (by decide))
  mem := fun a => ((e.eventAll_logsOnly kind body).sameMem a).trans (h.mem a)
  boxes := (e.eventAll_boxes kind body).trans h.boxes

variable {d} in
/-- The record of the failure of a load, sent once its messages are on their way. -/
theorem LoadFailed.ofRecord {code : Nat} {m : Mesh} {o : List Out} {e : Die}
    (he : e = (d.setRelay { d.relay with state := rsFailed, code := code }).sent m o) (det : List Nat) :
    LoadFailed code d (e.record 0x20 3 0xFF 0xFFFF det) where
  relay := (e.record_logsOnly _ _ _ _ _).relay.trans (by rw [he]; rfl)
  recorded := (e.record_recorded 0x20 3 0xFF 0xFFFF det).frame (by rw [he]; exact ⟨rfl, rfl, rfl⟩) ⟨rfl, rfl⟩
  regs := OnlyRegs.trans (e := e) (fun _ _ => by rw [he]; rfl) (e.record_onlyRegs _ _ _ _ _)
  mem := fun a => ((e.record_logsOnly _ _ _ _ _).sameMem a).trans (by rw [he]; rfl)
  boxes := (e.record_boxes _ _ _ _ _).trans (by rw [he]; rfl)

theorem Die.relayFail_failed (code : Nat) : LoadFailed code d (d.relayFail code) := by
  obtain ⟨m, o, haborts⟩ := (d.setRelay { d.relay with state := rsFailed, code := code }).relayAborts_eq
  unfold Die.relayFail
  dsimp only
  split
  · exact (LoadFailed.ofRecord haborts _).eventAll _ _
  · exact LoadFailed.ofRecord haborts _

/-! ### Progress (R262) -/

/-- Progress moves the relay state alone. -/
theorem Die.relayProgress_eq : ∃ st : Nat, d.relayProgress = d.setRelay { d.relay with state := st } := by
  unfold Die.relayProgress Die.relayCheck
  dsimp only
  split
  · split <;> exact ⟨_, rfl⟩
  · exact ⟨d.relay.state, rfl⟩

/-- A load does not go on while a forwarded shard has not been acknowledged. -/
theorem Die.relayProgress_of_forwarding {seq : Nat} {sh : List Byte} (h : look d.relay.fwd seq = some sh) : d.relayProgress = d := by
  refine if_neg fun ⟨_, _, _, hempty⟩ => ?_
  rw [List.isEmpty_iff.1 hempty] at h
  exact absurd h (by simp [look])

/-! ### Resends (R264) -/

/-- The relay after one more resend of a shard. -/
def Relay.resent (r : Relay) (seq : Nat) : Relay :=
  { r with resends := r.resends + 1, per := amSet 0 r.per seq (amGet 0 r.per seq + 1) }

theorem Relay.resent_per (r : Relay) (seq : Nat) : amGet 0 (r.resent seq).per seq = amGet 0 r.per seq + 1 :=
  (congrArg (amGet 0 · seq) rfl).trans (amGet_amSet_same 0 r.per seq (amGet 0 r.per seq + 1))

theorem Die.askAgain_of_third {seq : Nat} (h : 3 ≤ amGet 0 d.relay.per seq) (kind code : Nat) :
    d.askAgain seq kind code = d.relayFail code := if_pos h

/-- A shard asked for again counts as a resend, and the upstream neighbour is told. -/
theorem Die.askAgain_upstream {seq : Nat} (h : amGet 0 d.relay.per seq < 3) (hup : d.relay.upLink < 6) (kind code : Nat) :
    ∃ m : Mesh, d.askAgain seq kind code =
      (d.setRelay (d.relay.resent seq)).sent m (.linkMsg d.relay.upLink kind [seq] :: d.out) := by
  obtain ⟨m, hm⟩ := (d.countResend seq).tellLink_eq d.relay.upLink kind [seq]
  refine ⟨m, Eq.trans ?_ hm⟩
  unfold Die.askAgain
  rw [if_neg (Nat.not_le.2 h)]
  exact if_pos hup

theorem Die.sendAgain_of_third {seq : Nat} (h : 3 ≤ amGet 0 d.relay.per seq) (kind code : Nat) :
    d.sendAgain seq kind code = d.relayFail code := by
  unfold Die.sendAgain
  split
  · exact if_pos h
  · exact d.askAgain_of_third h kind code

/-- A shard in the forward buffer is sent again from there. -/
theorem Die.sendAgain_of_held {seq : Nat} {sh : List Byte} (hsh : look d.relay.fwd seq = some sh) (h : amGet 0 d.relay.per seq < 3)
    (kind code : Nat) : ∃ m : Mesh, d.sendAgain seq kind code =
      (d.setRelay (d.relay.resent seq)).sent m (.shard d.relay.downLink seq sh :: d.out) := by
  obtain ⟨m, hm⟩ := (d.countResend seq).sendShard_eq d.relay.downLink seq sh 0 true none
  refine ⟨m, Eq.trans ?_ hm⟩
  unfold Die.sendAgain
  rw [hsh]
  exact if_neg (Nat.not_le.2 h)

theorem Die.sendAgain_of_absent {seq : Nat} (hsh : look d.relay.fwd seq = none) (kind code : Nat) :
    d.sendAgain seq kind code = d.askAgain seq kind code := by
  unfold Die.sendAgain
  rw [hsh]

end Sys2Proof.Machine
end

section
/-! PROOFS. Shards of a relay load: refused, corrupt, duplicate, out of range, waiting, forwarded and kept (R252, R255, R258, R259,
R262 to R266). -/
namespace Sys2Proof.Machine

/-! ### The commands -/

section
variable {s : State} (hl : s.die.live = true) (hf : s.die.fwRuns = true)
include hl hf

theorem exec_shardReceive (m : ShardIn) : exec (.shardReceive m) s = .next { s with die := s.die.shardReceive m.link m.bytes } :=
  mainCmd_ok (ok := fun d => d.fwRuns) (f := fun d => d.shardReceive m.link m.bytes) hl hf

theorem exec_relayAck {seq : Nat} {sh : List Byte} (hr : s.die.relay.state = rsReceiving) (hsh : look s.die.relay.fwd seq = some sh) :
    exec (.relayAck seq) s = .next { s with die := (s.die.setRelay { s.die.relay with
      acked := addOnce s.die.relay.acked seq, fwd := amErase s.die.relay.fwd seq }).relayProgress } :=
  mainCmd_ok (ok := fun d => d.fwRuns && d.relay.state == rsReceiving && (look d.relay.fwd seq).isSome)
    (f := fun d => (d.setRelay { d.relay with
      acked := addOnce d.relay.acked seq, fwd := amErase d.relay.fwd seq }).relayProgress) hl (by simp [hf, hr, hsh])

theorem exec_relayNak (hr : s.die.relay.state = rsReceiving) (m : NakIn) :
    exec (.relayNak m) s = .next { s with die := s.die.sendAgain m.seq lmRelayNak (if m.refused then 5 else 6) } :=
  mainCmd_ok (ok := fun d => d.fwRuns && d.relay.state == rsReceiving)
    (f := fun d => d.sendAgain m.seq lmRelayNak (if m.refused then 5 else 6)) hl (by simp [hf, hr])

theorem exec_relayReq (hr : s.die.relay.state = rsReceiving) (seq : Nat) :
    exec (.relayReq seq) s = .next { s with die := s.die.sendAgain seq lmRelayReq 5 } :=
  mainCmd_ok (ok := fun d => d.fwRuns && d.relay.state == rsReceiving) (f := fun d => d.sendAgain seq lmRelayReq 5) hl
    (by simp [hf, hr])

theorem exec_shardTimeout {seq : Nat} (hr : s.die.relay.state = rsReceiving) (ho : s.die.relay.overdue seq = true) :
    exec (.shardTimeout seq) s = .next { s with die := s.die.askAgain seq lmRelayReq 5 } :=
  mainCmd_ok (ok := fun d => d.fwRuns && d.relay.state == rsReceiving && d.relay.overdue seq)
    (f := fun d => d.askAgain seq lmRelayReq 5) hl (by simp [hf, hr, ho])

theorem exec_relayAbort {down : Bool} (hr : s.die.relay.state = rsReceiving ∨ s.die.relay.state = rsProgramming)
    (hlink : if down then s.die.relay.downLink < 6 else s.die.relay.upLink < 6) :
    exec (.relayAbort down) s = .next { s with die := s.die.relayFail 10 } := by
  refine mainCmd_ok (ok := fun d => d.fwRuns && (d.relay.state == rsReceiving || d.relay.state == rsProgramming) &&
      (if down then decide (d.relay.downLink < 6) else decide (d.relay.upLink < 6))) (f := fun d => d.relayFail 10) hl ?_
  cases down <;> simpa [hf, hr] using hlink

end

/-! ### A shard that is not kept -/

variable {d : Die} {lk : Nat} {sh : List Byte}

theorem addOnce_contains {α : Type} [DecidableEq α] (l : List α) (x : α) : (addOnce l x).contains x = true := by
  unfold addOnce
  split
  · assumption
  · simp

/-- Outside RECEIVING the neighbour that sent the shard is told (R264). -/
theorem Die.shardReceive_of_not_receiving (hr : d.relay.state ≠ rsReceiving) (hlk : lk < 6) : ∃ m : Mesh, d.shardReceive lk sh =
    (d.setRelay (d.relay.resent (leAt sh 4 4))).sent m (.linkMsg lk lmRelayRefused [leAt sh 4 4] :: d.out) := by
  obtain ⟨m, hm⟩ := (d.countResend (leAt sh 4 4)).tellLink_eq lk lmRelayRefused [leAt sh 4 4]
  exact ⟨m, (if_pos hr).trans ((if_pos hlk).trans hm)⟩

section
variable (hr : d.relay.state = rsReceiving)
include hr

theorem Die.shardReceive_of_corrupt (hok : shardOk sh = false) : d.shardReceive lk sh =
    (d.setRelay { d.relay with corrupt := addOnce d.relay.corrupt (leAt sh 4 4) }).askAgain (leAt sh 4 4) lmRelayNak 6 := by
  unfold Die.shardReceive
  rw [if_neg (not_not.2 hr), if_pos (by rw [hok]; rfl)]
  rfl

variable (hok : shardOk sh = true)
include hok

theorem Die.shardReceive_of_duplicate (hgot : d.relay.got.contains (leAt sh 4 4) = true) : d.shardReceive lk sh =
    (d.setRelay { d.relay with dups := d.relay.dups + 1 }).relayAckUp (leAt sh 4 4) := by
  unfold Die.shardReceive
  rw [if_neg (not_not.2 hr), if_neg (by rw [hok]; decide), if_pos hgot]
  rfl

variable (hgot : d.relay.got.contains (leAt sh 4 4) = false)
include hgot

theorem Die.shardReceive_of_outside (hout : d.relay.outside sh = true) : d.shardReceive lk sh =
    (d.record 0x20 2 0xFF 0xFFFF [leAt sh 4 4, leAt sh 9 3]).relayAckUp (leAt sh 4 4) := by
  unfold Die.shardReceive
  rw [if_neg (not_not.2 hr), if_neg (by rw [hok]; decide), if_neg (by rw [hgot]; decide), if_pos hout]

variable (hin : d.relay.outside sh = false)
include hin

theorem Die.shardReceive_of_full (hfull : d.relay.full sh.length = true) : d.shardReceive lk sh = d := by
  unfold Die.shardReceive
  rw [if_neg (not_not.2 hr), if_neg (by rw [hok]; decide), if_neg (by rw [hgot]; decide), if_neg (by rw [hin]; decide), if_pos hfull]

variable (hroom : d.relay.full sh.length = false)
include hroom

theorem Die.shardReceive_of_preamble (hkind : leAt sh 8 1 = 0) : d.shardReceive lk sh =
    (((d.forwardShard (leAt sh 4 4) sh).relayAckUp (leAt sh 4 4)).preShard (leAt sh 4 4) sh).relayProgress := by
  unfold Die.shardReceive
  rw [if_neg (not_not.2 hr), if_neg (by rw [hok]; decide), if_neg (by rw [hgot]; decide), if_neg (by rw [hin]; decide),
    if_neg (by rw [hroom]; decide), if_pos hkind]

theorem Die.shardReceive_of_item (hkind : leAt sh 8 1 ≠ 0) : d.shardReceive lk sh =
    ((d.relayAckUp (leAt sh 4 4)).goodShard (leAt sh 4 4) sh).relayProgress := by
  unfold Die.shardReceive
  rw [if_neg (not_not.2 hr), if_neg (by rw [hok]; decide), if_neg (by rw [hgot]; decide), if_neg (by rw [hin]; decide),
    if_neg (by rw [hroom]; decide), if_neg hkind]

end

/-- A shard of the preamble lies in every expected range (R263). -/
theorem Relay.not_outside_of_preamble {r : Relay} (h : leAt sh 8 1 = 0) : r.outside sh = false := by
  simp [Relay.outside, h]

theorem Relay.outside_of_range {r : Relay} (hkind : leAt sh 8 1 ≠ 0) (h : leAt sh 4 4 < r.first ∨ r.last < leAt sh 4 4 ∨
    (r.preDone = true ∧ r.targets.contains (leAt sh 9 3) = false)) : r.outside sh = true := by
  rcases h with h | h | ⟨hdone, htarget⟩
  · simp [Relay.outside, hkind, h]
  · simp [Relay.outside, hkind, h]
  · simp only [Relay.outside, hdone, htarget]
    simp [hkind]

/-! ### A shard that is kept or forwarded -/

/-- Forwarding changes the lists of what has been forwarded and what waits to be acknowledged, and what has been sent. -/
theorem Die.forwardShard_eq (d : Die) (seq : Nat) (sh : List Byte) :
    ∃ (f : List Nat) (w : List (Nat × List Byte)) (m : Mesh) (o : List Out),
    d.forwardShard seq sh = (d.setRelay { d.relay with forwarded := f, fwd := w }).sent m o ∧
    (d.relay.downLink < 6 → w = keep d.relay.fwd seq sh ∧ o = .shard d.relay.downLink seq sh :: d.out) := by
  unfold Die.forwardShard
  split
  · obtain ⟨m, hm⟩ := (d.setRelay { d.relay with
      forwarded := addOnce d.relay.forwarded seq, fwd := keep d.relay.fwd seq sh }).sendShard_eq d.relay.downLink seq sh 0 true none
    exact ⟨_, _, m, _, hm, fun _ => ⟨rfl, rfl⟩⟩
  · next hno => exact ⟨_, _, d.mesh, d.out, rfl, fun h => absurd h hno⟩

/-- A shard of the preamble beyond shard 0, while the length of the preamble is not known, is kept with those before it (R259). -/
theorem Die.preShard_of_unknown {seq : Nat} (hseq : seq ≠ 0) (hn : d.relay.nPre = 0) : d.preShard seq sh =
    d.setRelay { d.relay with
      pre := keep d.relay.pre seq ((sh.drop 32).take (leAt sh 12 4)), got := addOnce d.relay.got seq,
      kept := addOnce d.relay.kept seq, corrupt := without d.relay.corrupt seq } := by
  unfold Die.preShard
  dsimp only
  rw [if_neg hseq, hn, if_neg (fun h => hseq h.1), if_neg (fun h => h.1 rfl), ← hn]
  rfl

/-- TARGET names this module, field by field. -/
theorem Die.ownTarget_eq (d : Die) (sh : List Byte) :
    (leAt sh 9 1 == d.relayRel.1 && leAt sh 10 1 == d.relayRel.2.1 && leAt sh 11 1 == d.relayRel.2.2) =
      decide ((leAt sh 9 1, leAt sh 10 1, leAt sh 11 1) = d.relayRel) := by
  rw [Bool.eq_iff_iff]
  simp [Prod.ext_iff, and_assoc]

theorem Die.goodShard_of_other {seq : Nat} (h : (leAt sh 9 1, leAt sh 10 1, leAt sh 11 1) ≠ d.relayRel) : d.goodShard seq sh =
    (d.setRelay { d.relay with
      got := addOnce d.relay.got seq, corrupt := without d.relay.corrupt seq }).forwardShard seq sh := by
  unfold Die.goodShard
  dsimp only
  rw [d.ownTarget_eq sh, decide_eq_false h]
  rfl

theorem Die.goodShard_of_own {seq : Nat} (h : (leAt sh 9 1, leAt sh 10 1, leAt sh 11 1) = d.relayRel) (hdone : d.relay.preDone = true) :
    d.goodShard seq sh = (d.setRelay { d.relay with
      got := addOnce d.relay.got seq, corrupt := without d.relay.corrupt seq, kept := addOnce d.relay.kept seq }).storeShard sh := by
  unfold Die.goodShard
  dsimp only
  rw [d.ownTarget_eq sh, decide_eq_true h, if_pos rfl, hdone]
  rfl

/-- Good factor blocks are written to the factor area of the golden copy (R257 to R259). -/
theorem Die.storeShard_of_factors (hkind : leAt sh 8 1 = 2) (hlen : leAt sh 16 8 + leAt sh 12 4 ≤ 0xF000000)
    (hok : factorsOk (leAt sh 12 4 / 32 + 1) ((sh.drop 32).take (leAt sh 12 4)) = true) :
    d.storeShard sh = d.setBytes (goldFactors + leAt sh 16 8) ((sh.drop 32).take (leAt sh 12 4)) := by
  unfold Die.storeShard
  dsimp only
  rw [if_neg (by rw [hkind]; decide), if_neg (Nat.not_lt.2 hlen), if_pos hok]

/-! ### What a shard that is received leaves -/

/-- An acknowledgement moves neither relay, registers nor memory. -/
theorem Die.relayAckUp_keeps (d : Die) (seq : Nat) :
    (d.relayAckUp seq).relay = d.relay ∧ (d.relayAckUp seq).strand = d.strand ∧ (d.relayAckUp seq).regs = d.regs ∧
    SameMem d (d.relayAckUp seq) := by
  obtain ⟨m, o, hack, -⟩ := d.relayAckUp_eq seq
  rw [hack]
  exact ⟨rfl, rfl, rfl, fun _ => rfl⟩

/-- A shard out of range is recorded, and nothing of the load changes (R263). -/
theorem Die.shardReceive_outside_effect (hr : d.relay.state = rsReceiving) (hok : shardOk sh = true)
    (hgot : d.relay.got.contains (leAt sh 4 4) = false) (hout : d.relay.outside sh = true) :
    (d.shardReceive lk sh).relay = d.relay ∧ Recorded 0x20 2 0xFF 0xFFFF d (d.shardReceive lk sh) ∧
    OnlyRegs logRegs d (d.shardReceive lk sh) ∧ SameMem d (d.shardReceive lk sh) := by
  rw [Die.shardReceive_of_outside hr hok hgot hout]
  have hlogs := d.record_logsOnly 0x20 2 0xFF 0xFFFF [leAt sh 4 4, leAt sh 9 3]
  obtain ⟨hrelay, hstrand, hregs, hmem⟩ := (d.record 0x20 2 0xFF 0xFFFF [leAt sh 4 4, leAt sh 9 3]).relayAckUp_keeps (leAt sh 4 4)
  have hget := Die.getW_of_regs hregs
  exact ⟨hrelay.trans hlogs.relay, (d.record_recorded _ _ _ _ _).frame ⟨rfl, rfl, rfl⟩ ⟨hstrand, hget _⟩,
    fun a ha => (hget a).trans (d.record_onlyRegs _ _ _ _ _ a ha), fun a => (hmem a).trans (hlogs.sameMem a)⟩

/-- A shard of the preamble beyond shard 0 is kept among those that wait for the preamble's length (R252, R259). -/
theorem Die.shardReceive_preamble_effect (hr : d.relay.state = rsReceiving) (hok : shardOk sh = true)
    (hgot : d.relay.got.contains (leAt sh 4 4) = false) (hroom : d.relay.full sh.length = false) (hkind : leAt sh 8 1 = 0)
    (hseq : leAt sh 4 4 ≠ 0) (hn : d.relay.nPre = 0) :
    look (d.shardReceive lk sh).relay.pre (leAt sh 4 4) = some ((sh.drop 32).take (leAt sh 12 4)) ∧
    (d.shardReceive lk sh).relay.got.contains (leAt sh 4 4) = true ∧ (d.shardReceive lk sh).regs = d.regs ∧
    SameMem d (d.shardReceive lk sh) := by
  rw [Die.shardReceive_of_preamble hr hok hgot (Relay.not_outside_of_preamble hkind) hroom hkind]
  obtain ⟨r, m, o, hsent, hnr⟩ : ∃ (r : Relay) (m : Mesh) (o : List Out),
      (d.forwardShard (leAt sh 4 4) sh).relayAckUp (leAt sh 4 4) = (d.setRelay r).sent m o ∧ r.nPre = 0 := by
    obtain ⟨f, w, m, o, hforward, -⟩ := d.forwardShard_eq (leAt sh 4 4) sh
    obtain ⟨m', o', hack, -⟩ := (d.forwardShard (leAt sh 4 4) sh).relayAckUp_eq (leAt sh 4 4)
    refine ⟨_, m', o', hack.trans (by rw [hforward, Die.sent_sent]), ?_⟩
    exact hn
  rw [hsent, Die.preShard_of_unknown (d := (d.setRelay r).sent m o) hseq hnr]
  generalize hkept : ((d.setRelay r).sent m o).setRelay _ = e
  obtain ⟨st, hst⟩ := e.relayProgress_eq
  rw [hst, ← hkept]
  exact ⟨look_keep_same _ _ _, addOnce_contains _ _, rfl, fun _ => rfl⟩

/-- A shard for another module is forwarded, and held until it is acknowledged (R263). -/
theorem Die.shardReceive_forward_effect (hr : d.relay.state = rsReceiving) (hok : shardOk sh = true)
    (hgot : d.relay.got.contains (leAt sh 4 4) = false) (hin : d.relay.outside sh = false) (hroom : d.relay.full sh.length = false)
    (hkind : leAt sh 8 1 ≠ 0) (hother : (leAt sh 9 1, leAt sh 10 1, leAt sh 11 1) ≠ d.relayRel) (hdown : d.relay.downLink < 6) :
    (d.shardReceive lk sh).relay.got.contains (leAt sh 4 4) = true ∧
    look (d.shardReceive lk sh).relay.fwd (leAt sh 4 4) = some sh ∧
    (d.shardReceive lk sh).out.head? = some (.shard d.relay.downLink (leAt sh 4 4) sh) ∧
    (d.shardReceive lk sh).regs = d.regs ∧ SameMem d (d.shardReceive lk sh) := by
  obtain ⟨m, o, hack, -⟩ := d.relayAckUp_eq (leAt sh 4 4)
  rw [Die.shardReceive_of_item hr hok hgot hin hroom hkind, hack, Die.goodShard_of_other (d := d.sent m o) hother]
  obtain ⟨f, w, m', o', hforward, hsent⟩ := ((d.sent m o).setRelay { (d.sent m o).relay with
    got := addOnce (d.sent m o).relay.got (leAt sh 4 4),
    corrupt := without (d.sent m o).relay.corrupt (leAt sh 4 4) }).forwardShard_eq (leAt sh 4 4) sh
  obtain ⟨rfl, rfl⟩ := hsent hdown
  rw [hforward, Die.relayProgress_of_forwarding _ (sh := sh) (look_keep_same _ _ _)]
  exact ⟨addOnce_contains _ _, look_keep_same _ _ _, rfl, rfl, fun _ => rfl⟩

/-- Factors of this module's own share go to the golden copy, and nowhere else (R259). -/
theorem Die.shardReceive_own_effect (hr : d.relay.state = rsReceiving) (hok : shardOk sh = true)
    (hgot : d.relay.got.contains (leAt sh 4 4) = false) (hin : d.relay.outside sh = false) (hroom : d.relay.full sh.length = false)
    (hown : (leAt sh 9 1, leAt sh 10 1, leAt sh 11 1) = d.relayRel) (hdone : d.relay.preDone = true) (hkind : leAt sh 8 1 = 2)
    (hlen : leAt sh 16 8 + leAt sh 12 4 ≤ 0xF000000) {a : Nat} (ha : goldFactors + leAt sh 16 8 = a) {pay : List Byte}
    (hpay : (sh.drop 32).take (leAt sh 12 4) = pay) (hfactors : factorsOk (leAt sh 12 4 / 32 + 1) pay = true) :
    (d.shardReceive lk sh).relay.kept.contains (leAt sh 4 4) = true ∧ (d.shardReceive lk sh).bytesAt a pay.length = pay ∧
    SameMemBut a pay.length d (d.shardReceive lk sh) ∧ (d.shardReceive lk sh).regs = d.regs := by
  subst ha hpay
  obtain ⟨m, o, hack, -⟩ := d.relayAckUp_eq (leAt sh 4 4)
  rw [Die.shardReceive_of_item hr hok hgot hin hroom (by rw [hkind]; decide), hack, Die.goodShard_of_own (d := d.sent m o) hown hdone,
    Die.storeShard_of_factors hkind hlen hfactors]
  generalize hnoted : (d.sent m o).setRelay _ = e
  have hkept : e.relay.kept.contains (leAt sh 4 4) = true := hnoted ▸ addOnce_contains _ _
  obtain ⟨st, hst⟩ := (e.setBytes (goldFactors + leAt sh 16 8) ((sh.drop 32).take (leAt sh 12 4))).relayProgress_eq
  rw [hst]
  refine ⟨?_, Die.bytesAt_setBytes _ _ _, fun c hc => ?_, ?_⟩
  · rw [Die.setRelay_relay, Die.setBytes_relay]
    exact hkept
  · rw [Die.setRelay_byteAt, Die.byteAt_setBytes_out _ _ _ _ hc, ← hnoted]
    rfl
  · rw [Die.setRelay_regs, Die.setBytes_regs, ← hnoted]
    rfl

/-! ### Shards sent again -/

/-- A shard that downstream asks for, by the message `i` of kind `kind`, is sent again from the forward buffer, or else asked for
upstream; at the third resend the load has failed with `code` (R264). -/
theorem resend_effect {i : Instr} {s : State} {seq kind code : Nat}
    (hexec : exec i s = .next { s with die := s.die.sendAgain seq kind code }) :
    (amGet 0 s.die.relay.per seq < 3 →
      (∀ x, look s.die.relay.fwd seq = some x → ∃ u : State, exec i s = .next u ∧ u.die.relay = s.die.relay.resent seq ∧
        u.die.regs = s.die.regs ∧ u.die.out = .shard s.die.relay.downLink seq x :: s.die.out) ∧
      (look s.die.relay.fwd seq = none → s.die.relay.upLink < 6 → ∃ u : State, exec i s = .next u ∧
        u.die.relay = s.die.relay.resent seq ∧ u.die.regs = s.die.regs ∧
        u.die.out = .linkMsg s.die.relay.upLink kind [seq] :: s.die.out)) ∧
    (3 ≤ amGet 0 s.die.relay.per seq → ∃ u : State, exec i s = .next u ∧ u.die.relay.state = rsFailed ∧
      u.die.relay.code = code ∧ Recorded 0x20 3 0xFF 0xFFFF s.die u.die ∧ SameMem s.die u.die) := by
  refine ⟨fun hper => ⟨fun x hx => ⟨_, hexec, ?_⟩, fun hx hup => ⟨_, hexec, ?_⟩⟩, fun hper => ⟨_, hexec, ?_⟩⟩
  · obtain ⟨m, hm⟩ := s.die.sendAgain_of_held hx hper kind code
    rw [hm]
    exact ⟨rfl, rfl, rfl⟩
  · obtain ⟨m, hm⟩ := s.die.askAgain_upstream hper hup kind code
    rw [Die.sendAgain_of_absent _ hx, hm]
    exact ⟨rfl, rfl, rfl⟩
  · have hfailed := s.die.relayFail_failed code
    rw [Die.sendAgain_of_third _ hper]
    exact ⟨congrArg Relay.state hfailed.relay, congrArg Relay.code hfailed.relay, hfailed.recorded, hfailed.mem⟩

/-! ### The statement -/

/-- Settles O39: each way a shard can arrive is one branch of its receipt, and every message that asks for one is a resend. -/
theorem shardsAreKeptForwardedOrAskedAgain : Obligations.ShardsAreKeptForwardedOrAskedAgain := by
  intro s hl hf
  refine ⟨?shard, fun seq x hr hx => ⟨_, exec_relayAck hl hf hr hx, ?ack⟩, ?resend, fun seq hr hover => ⟨fun hper hup => ?timeout,
    fun hper => ?third⟩, fun down hr hlink => ⟨_, exec_relayAbort hl hf hr hlink, ?abort⟩, exec_shardReceive hl hf,
    fun m hr => exec_relayNak hl hf hr m, fun seq hr => exec_relayReq hl hf hr seq, fun seq hr hover => exec_shardTimeout hl hf hr hover⟩
  case shard =>
    rintro sh lk seq rfl
    have hexec := exec_shardReceive hl hf ⟨sh, lk⟩
    refine ⟨fun hr hlk => ⟨_, hexec, ?refused⟩, fun hr hok hper hup => ⟨_, hexec, ?corrupt⟩,
      fun hr hok hper => ⟨_, hexec, ?lost⟩, fun hr hok hgot hin hfull => hexec.trans ?full, fun hr hok =>
      ⟨fun hgot => ⟨_, hexec, ?duplicate⟩, fun hgot hkind hout => ⟨_, hexec,
      Die.shardReceive_outside_effect hr hok hgot (Relay.outside_of_range hkind hout)⟩, fun hgot hroom hkind hseq hn => ⟨_, hexec,
      Die.shardReceive_preamble_effect hr hok hgot hroom hkind hseq hn⟩, fun hgot hroom hkind hin => ⟨fun hother hdown => ⟨_, hexec,
      Die.shardReceive_forward_effect hr hok hgot hin hroom hkind hother hdown⟩, fun a pay hown hdone hfactors hlen ha hpay hgood =>
      ⟨_, hexec, Die.shardReceive_own_effect hr hok hgot hin hroom hown hdone hfactors hlen ha hpay hgood⟩⟩⟩⟩
    case refused =>
      obtain ⟨m, hm⟩ := Die.shardReceive_of_not_receiving (sh := sh) hr hlk
      rw [hm]
      exact ⟨rfl, rfl, fun _ => rfl, rfl⟩
    case corrupt =>
      rw [Die.shardReceive_of_corrupt hr hok]
      obtain ⟨m, hm⟩ := Die.askAgain_upstream (s.die.setRelay { s.die.relay with
        corrupt := addOnce s.die.relay.corrupt (leAt sh 4 4) }) hper hup lmRelayNak 6
      rw [hm]
      exact ⟨addOnce_contains _ _, rfl, Relay.resent_per _ _, rfl, rfl, fun _ => rfl⟩
    case lost =>
      rw [Die.shardReceive_of_corrupt hr hok, Die.askAgain_of_third _ (by exact hper)]
      have hfailed := Die.relayFail_failed (s.die.setRelay { s.die.relay with
        corrupt := addOnce s.die.relay.corrupt (leAt sh 4 4) }) 6
      exact ⟨congrArg Relay.state hfailed.relay, congrArg Relay.code hfailed.relay,
        hfailed.recorded.frame ⟨rfl, rfl, rfl⟩ ⟨rfl, rfl⟩, hfailed.regs, hfailed.mem⟩
    case full => rw [Die.shardReceive_of_full hr hok hgot hin hfull]
    case duplicate =>
      rw [Die.shardReceive_of_duplicate hr hok hgot]
      obtain ⟨m, o, hack, hout⟩ := (s.die.setRelay { s.die.relay with dups := s.die.relay.dups + 1 }).relayAckUp_eq (leAt sh 4 4)
      rw [hack]
      exact ⟨rfl, rfl, fun _ => rfl, hout⟩
  case ack =>
    obtain ⟨st, hst⟩ := (s.die.setRelay { s.die.relay with
      acked := addOnce s.die.relay.acked seq, fwd := amErase s.die.relay.fwd seq }).relayProgress_eq
    rw [hst]
    exact ⟨rfl, addOnce_contains _ _, rfl, fun _ => rfl, rfl⟩
  case resend =>
    rintro k (rfl | rfl | rfl) seq hr
    · exact resend_effect (exec_relayNak hl hf hr ⟨seq, false⟩)
    · exact resend_effect (exec_relayNak hl hf hr ⟨seq, true⟩)
    · exact resend_effect (exec_relayReq hl hf hr seq)
  case timeout =>
    obtain ⟨m, hm⟩ := s.die.askAgain_upstream hper hup lmRelayReq 5
    refine ⟨_, exec_shardTimeout hl hf hr hover, ?_⟩
    rw [hm]
    exact ⟨rfl, rfl, rfl⟩
  case third =>
    have hfailed := s.die.relayFail_failed 5
    refine ⟨_, exec_shardTimeout hl hf hr hover, ?_⟩
    rw [Die.askAgain_of_third _ hper]
    exact ⟨congrArg Relay.state hfailed.relay, congrArg Relay.code hfailed.relay, hfailed.recorded⟩
  case abort =>
    have hfailed := s.die.relayFail_failed 10
    exact ⟨hfailed.relay, hfailed.recorded, hfailed.regs, hfailed.mem⟩

end Sys2Proof.Machine
end

section
/-! PROOFS. The chart commands of relay load (R261, R262, R265, R581). -/
namespace Sys2Proof.Machine
variable {d e : Die} {box : Nat}

/-- The bytes of CHART_STATUS (R581): the state and the code of the load first. -/
def Relay.statusBytes (r : Relay) : List Byte :=
  natLe 1 r.state ++ natLe 1 r.code ++ zeros 2 ++ natLe 4 r.got.length ++ natLe 4 r.kept.length ++
    natLe 4 r.forwarded.length ++ natLe 4 r.resends ++ natLe 4 r.listed.length ++ natLe 4 (min r.listed.length 256) ++
    ((r.listed.take 256).map (natLe 4)).flatten

/-! ### The commands -/

section
variable {s : State} (h : s.die.boxReady box = true)
include h

theorem exec_chartRelay (p : RelayParams) : exec (.chartRelay box p) s = .next { s with
    die := if p = relayParamsOf (s.die.relayBytes box) then s.die.chartRelay box p else s.die } :=
  fwCmd_ok (f := fun d => if p = relayParamsOf (d.relayBytes box) then d.chartRelay box p else d) h

theorem exec_chartStatus :
    exec (.chartStatus box) s = .next { s with die := s.die.reply box rcOk s.die.relay.statusBytes } := by
  show execChartStatus box s = _
  unfold execChartStatus
  rw [fwCmd_ok h]
  rfl

theorem exec_chartAbort : exec (.chartAbort box) s = .next { s with
    die := if s.die.relay.state = rsReceiving ∨ s.die.relay.state = rsProgramming then (s.die.relayFail 10).reply box rcOk []
      else s.die.relayRefused box 0x0212 } := by
  show execChartAbort box s = _
  unfold execChartAbort
  rw [fwCmd_ok h]

theorem exec_chartDiscard : exec (.chartDiscard box) s = .next { s with
    die := if s.die.relay.state = rsReady ∨ s.die.relay.state = rsFailed then (s.die.unmapAll.setRelay {}).reply box rcOk []
      else s.die.relayRefused box 0x0213 } := by
  show execChartDiscard box s = _
  unfold execChartDiscard
  rw [fwCmd_ok h]
  rfl

/-- GOLDEN_CHECK in READY answers how many images are bad, and fails the load where one is. -/
theorem exec_goldenCheck (hr : s.die.relay.state = rsReady) : ∃ bs : List Byte, exec (.goldenCheck box) s = .next { s with
    die := (if s.die.badImages.isEmpty then s.die else s.die.relayFail 2).reply box rcOk
      (natLe 4 s.die.badImages.length ++ bs) } := by
  refine ⟨natLe 4 (min s.die.badImages.length 256) ++
    ((s.die.badImages.take 256).map (fun x => natLe 1 (x / 256) ++ natLe 1 (x % 256) ++ zeros 2)).flatten, ?_⟩
  show execGoldenCheck box s = _
  unfold execGoldenCheck
  rw [fwCmd_ok h, if_neg (not_not.2 hr)]
  dsimp only
  rw [List.append_assoc]

theorem exec_goldenCheck_refused (hr : s.die.relay.state ≠ rsReady) :
    exec (.goldenCheck box) s = .next { s with die := s.die.relayRefused box 0x0214 } := by
  show execGoldenCheck box s = _
  unfold execGoldenCheck
  rw [fwCmd_ok h, if_pos hr]

end

/-! ### Answers -/

/-- A reply stands in its box after any work that leaves the boxes alone. -/
theorem Replied.ofBoxes (h : d.boxReady box = true) (he : e.host.boxes = d.host.boxes) (code : Nat) (bs : List Byte) :
    Replied box code bs (e.reply box code bs) := by
  have hbox : e.box box = d.box box := by unfold Die.box; rw [he]
  unfold Replied
  rw [Die.box_reply_same, hbox]
  exact ⟨rfl, boxReady_busy h⟩

/-- A command that the relay state does not allow answers STATE and leaves one record (R261). -/
theorem Die.relayRefused_effect (h : d.boxReady box = true) (cmd : Nat) :
    Replied box rcState [] (d.relayRefused box cmd) ∧ (d.relayRefused box cmd).relay = d.relay ∧
    Recorded 0x20 1 0xFF 0xFFFF d (d.relayRefused box cmd) ∧ OnlyRegs logRegs d (d.relayRefused box cmd) ∧
    SameMem d (d.relayRefused box cmd) := by
  have hlogs := d.record_logsOnly 0x20 1 0xFF 0xFFFF [cmd, d.relay.state]
  exact ⟨Replied.ofBoxes h (d.record_boxes _ _ _ _ _) _ _, hlogs.relay,
    (d.record_recorded _ _ _ _ _).frame ⟨rfl, rfl, rfl⟩ ⟨rfl, rfl⟩, d.record_onlyRegs _ _ _ _ _, hlogs.sameMem⟩

/-! ### The numbers in answers -/

theorem leNat_natLe (n v : Nat) : leNat (natLe n v) = v % 256 ^ n := by
  induction n generalizing v with
  | zero => simp [natLe, leNat, Nat.mod_one]
  | succ n ih =>
    rw [natLe, leNat, ih, pow_succ', Nat.mod_mul]
    simp [b8]

/-- A number at the front of an answer reads back. -/
theorem leAt_natLe_front (n v : Nat) (bs : List Byte) : leAt (natLe n v ++ bs) 0 n = v % 256 ^ n := by
  unfold leAt
  rw [List.drop_zero, List.take_left' (natLe_length n v), leNat_natLe]

/-- What follows a number of `n` bytes stands at offset `n`. -/
theorem leAt_behind_natLe (n v m : Nat) (bs : List Byte) : leAt (natLe n v ++ bs) n m = leAt bs 0 m := by
  unfold leAt
  rw [List.drop_left' (natLe_length n v), List.drop_zero]

theorem flatten_natLe_length (n : Nat) (l : List Nat) : ((l.map (natLe n)).flatten).length = n * l.length := by
  simp [List.length_flatten, Function.comp_def, natLe_length, Nat.mul_comm]

theorem Relay.statusBytes_state (r : Relay) : leAt r.statusBytes 0 1 = r.state % 256 := by
  unfold Relay.statusBytes
  simp only [List.append_assoc]
  exact leAt_natLe_front 1 _ _

theorem Relay.statusBytes_code (r : Relay) : leAt r.statusBytes 1 1 = r.code % 256 := by
  unfold Relay.statusBytes
  simp only [List.append_assoc]
  exact (leAt_behind_natLe 1 _ 1 _).trans (leAt_natLe_front 1 _ _)

theorem Relay.statusBytes_length (r : Relay) : r.statusBytes.length = 28 + 4 * min r.listed.length 256 := by
  unfold Relay.statusBytes
  simp only [List.length_append, natLe_length, flatten_natLe_length, List.length_take, zeros, List.length_replicate]
  rw [Nat.min_comm]

/-! ### The map withdrawn (R261) -/

/-- One logical array withdrawn: its entry is unmapped at the boundary, and a MAP that waits for it is dropped. -/
def Die.withdraw (d : Die) (t l : Nat) : Die :=
  if d.on (Reg.TILE_AMAP_VALID t l) then d.putPending t l 0x1FF .unmap
  else if d.on (Reg.TILE_AMAP_PEND t l) then d.unmapEntry t l else d

/-- Every logical array of a tile withdrawn. -/
def Die.withdrawTile (d : Die) (t : Nat) : Die := (List.range 256).foldl (fun e l => e.withdraw t l) d

/-- Work on the images of the golden copy dropped (R321). -/
def Die.dropImages (d : Die) : Die :=
  { d with upkeep := { d.upkeep with
    due := [], deferred := [], refreshes := [], claims := [], aligned := false,
    cal := d.upkeep.cal.map (fun (p : Nat × ArrCal) => (p.1, { p.2 with holds := none })) } }

theorem Die.unmapAll_eq (d : Die) : d.unmapAll = d.enabledTiles.foldl (fun e t => e.withdrawTile t) d.dropImages := rfl

/-- Boxes and memory are as they were. -/
def KeepsBoxes (d e : Die) : Prop := e.host.boxes = d.host.boxes ∧ SameMem d e

theorem KeepsBoxes.trans {f : Die} (h : KeepsBoxes d e) (k : KeepsBoxes e f) : KeepsBoxes d f :=
  ⟨k.1.trans h.1, fun a => (k.2 a).trans (h.2 a)⟩

theorem KeepsBoxes.foldl {β : Type} {f : Die → β → Die} (hf : ∀ e x, KeepsBoxes e (f e x)) (l : List β) (d : Die) :
    KeepsBoxes d (l.foldl f d) :=
  List.foldlRecOn (motive := fun e => KeepsBoxes d e) l f ⟨rfl, SameMem.refl d⟩ fun e he x _ => he.trans (hf e x)

theorem Die.unmapEntry_effect (d : Die) (t l : Nat) :
    KeepsBoxes d (d.unmapEntry t l) ∧ OnlyRegs [Reg.TILE_AMAP t l] d (d.unmapEntry t l) := by
  have hmap : ∀ (e : Die) (m : List (Nat × MapKind)), KeepsBoxes e { e with mapPend := m } ∧
      OnlyRegs [Reg.TILE_AMAP t l] e { e with mapPend := m } := fun _ _ => ⟨⟨rfl, fun _ => rfl⟩, fun _ _ => rfl⟩
  have hput : ∀ (a : Nat) (w : Word), KeepsBoxes d (d.putW a w) := fun a w => ⟨by rw [Die.putW_host], Die.putW_byteAt d a w⟩
  unfold Die.unmapEntry
  exact ⟨(hput _ _).trans (hmap _ _).1, (onlyRegs_putW d _ (List.mem_singleton_self _)).trans (hmap _ _).2⟩

theorem Die.putPending_host (d : Die) (t l next : Nat) (k : MapKind) : (d.putPending t l next k).host = d.host := by
  unfold Die.putPending
  dsimp only
  rw [Die.put_host, Die.raise_eq, Die.put_host]

/-- Withdrawing a logical array moves its own entry alone. -/
theorem Die.withdraw_effect (d : Die) (t l : Nat) :
    KeepsBoxes d (d.withdraw t l) ∧ OnlyRegs [Reg.TILE_AMAP t l] d (d.withdraw t l) := by
  unfold Die.withdraw
  split
  · obtain ⟨-, -, -, -, -, -, hregs, hmem⟩ := d.putPending_effect t l 0x1FF .unmap (by decide)
    exact ⟨⟨by rw [Die.putPending_host], hmem⟩, hregs⟩
  · split
    · exact d.unmapEntry_effect t l
    · exact ⟨⟨rfl, SameMem.refl d⟩, OnlyRegs.refl _ d⟩

theorem Die.unmapAll_keepsBoxes (d : Die) : KeepsBoxes d d.unmapAll := by
  rw [Die.unmapAll_eq]
  exact KeepsBoxes.foldl (fun e t => KeepsBoxes.foldl (fun g l => (g.withdraw_effect t l).1) _ e) _ d.dropImages

/-- The entry of a mapped logical array, withdrawn: it is still mapped, and its change to nothing is put down. -/
structure Withdrawn (n l : Nat) (d : Die) : Prop where
  valid : d.on (Reg.TILE_AMAP_VALID n l) = true
  pend : d.on (Reg.TILE_AMAP_PEND n l) = true
  next : d.get (Reg.TILE_AMAP_NEXT n l) = 0x1FF

theorem Die.withdraw_withdrawn {n l : Nat} (hv : d.on (Reg.TILE_AMAP_VALID n l) = true) : Withdrawn n l (d.withdraw n l) := by
  obtain ⟨hpend, hnext, -, hvalid, -⟩ := d.putPending_effect n l 0x1FF .unmap (by decide)
  unfold Die.withdraw
  rw [if_pos hv]
  exact ⟨hvalid.trans hv, hpend, hnext⟩

/-- Withdrawing any logical array leaves the entry of `l` as it was, or withdraws it. -/
theorem Die.withdraw_entry (d : Die) (n l t k : Nat) :
    (d.withdraw t k).getW (Reg.TILE_AMAP n l) = d.getW (Reg.TILE_AMAP n l) ∨
    (d.on (Reg.TILE_AMAP_VALID n l) = true → Withdrawn n l (d.withdraw t k)) := by
  by_cases haddr : Reg.TILE_AMAP n l = Reg.TILE_AMAP t k
  · right
    intro hv
    have hfields : ∀ lo w, (⟨Reg.TILE_AMAP n l, lo, w⟩ : Fld) = ⟨Reg.TILE_AMAP t k, lo, w⟩ := fun lo w => by rw [haddr]
    have hvalid : Reg.TILE_AMAP_VALID n l = Reg.TILE_AMAP_VALID t k := hfields 31 1
    have hpend : Reg.TILE_AMAP_PEND n l = Reg.TILE_AMAP_PEND t k := hfields 30 1
    have hnext : Reg.TILE_AMAP_NEXT n l = Reg.TILE_AMAP_NEXT t k := hfields 16 9
    obtain ⟨hvalid', hpend', hnext'⟩ := Die.withdraw_withdrawn (d := d) (n := t) (l := k) (by rw [← hvalid, hv])
    exact ⟨by rw [hvalid, hvalid'], by rw [hpend, hpend'], by rw [hnext, hnext']⟩
  · exact .inl ((d.withdraw_effect t k).2 _ (by simpa using haddr))

theorem Die.withdraw_valid {n l : Nat} (t k : Nat) (hv : d.on (Reg.TILE_AMAP_VALID n l) = true) :
    (d.withdraw t k).on (Reg.TILE_AMAP_VALID n l) = true := by
  rcases d.withdraw_entry n l t k with h | h
  · unfold Die.on at hv ⊢
    rwa [Die.get_of_getW h]
  · exact (h hv).valid

theorem Withdrawn.withdraw {n l : Nat} (h : Withdrawn n l d) (t k : Nat) : Withdrawn n l (d.withdraw t k) := by
  obtain ⟨hvalid, hpend, hnext⟩ := h
  rcases d.withdraw_entry n l t k with hsame | hset
  · unfold Die.on at hvalid hpend
    exact ⟨by unfold Die.on; rwa [Die.get_of_getW hsame], by unfold Die.on; rwa [Die.get_of_getW hsame],
      (Die.get_of_getW hsame).trans hnext⟩
  · exact hset hvalid

/-- What one step of a fold brings about where `V` holds, and every step keeps, holds after the fold. -/
theorem foldl_of_mem {β : Type} {f : Die → β → Die} {V P : Die → Prop} {l : List β} {x : β} (hx : x ∈ l)
    (hV : ∀ e y, V e → V (f e y)) (hP : ∀ e y, P e → P (f e y)) (hset : ∀ e, V e → P (f e x)) (hd : V d) : P (l.foldl f d) := by
  obtain ⟨l₁, l₂, rfl⟩ := List.append_of_mem hx
  rw [List.foldl_append, List.foldl_cons]
  have hbefore : V (l₁.foldl f d) := List.foldlRecOn (motive := V) _ _ hd fun e he y _ => hV e y he
  exact List.foldlRecOn (motive := P) _ _ (hset _ hbefore) fun e he y _ => hP e y he

/-- CHART_RELAY and CHART_DISCARD withdraw every mapped logical array of an enabled tile (R261). -/
theorem Die.unmapAll_withdrawn {n l : Nat} (hn : d.enabled n = true) (hl : l < 256)
    (hv : d.on (Reg.TILE_AMAP_VALID n l) = true) : Withdrawn n l d.unmapAll := by
  have htile : n ∈ d.enabledTiles := List.mem_filter.2 ⟨List.mem_range.2 (Die.lt_of_enabled hn), hn⟩
  rw [Die.unmapAll_eq]
  refine foldl_of_mem (V := fun e => e.on (Reg.TILE_AMAP_VALID n l) = true) htile (fun e t he => ?_) (fun e t he => ?_)
    (fun e he => ?_) hv
  · exact List.foldlRecOn (motive := fun g : Die => g.on (Reg.TILE_AMAP_VALID n l) = true) _ _ he fun g hg k _ => Die.withdraw_valid t k hg
  · exact List.foldlRecOn (motive := fun g : Die => Withdrawn n l g) _ _ he fun g hg k _ => hg.withdraw t k
  · exact foldl_of_mem (V := fun g => g.on (Reg.TILE_AMAP_VALID n l) = true) (List.mem_range.2 hl)
      (fun g k => Die.withdraw_valid n k) (fun g k hg => hg.withdraw n k) (fun g => Die.withdraw_withdrawn) he

/-! ### CHART_RELAY -/

/-- The relay as CHART_RELAY starts it (R261). -/
def Relay.ofParams (p : RelayParams) : Relay :=
  { state := rsReceiving, role := p.role, upLink := p.upLink, downLink := p.downLink, org := p.org, first := p.first
    last := p.last, explicit := p.placement }

section
variable {p : RelayParams}

theorem Die.chartRelay_of_loading (hr : d.relay.state = rsReceiving ∨ d.relay.state = rsProgramming) :
    d.chartRelay box p = d.relayRefused box 0x0210 := if_pos hr

variable (hr : ¬(d.relay.state = rsReceiving ∨ d.relay.state = rsProgramming))
include hr

theorem Die.chartRelay_of_busy (ht : d.tideState ≠ 0) : d.chartRelay box p = d.reply box rcBusy [] := by
  unfold Die.chartRelay
  rw [if_neg hr, if_pos ht]

variable (ht : d.tideState = 0)
include ht

theorem Die.chartRelay_of_bad (hp : (relayParamsOk p && relayZeros (d.relayBytes box)) = false) :
    d.chartRelay box p = d.reply box rcRange [] := by
  unfold Die.chartRelay
  rw [if_neg hr, if_neg (not_not.2 ht), if_pos (by rw [← Bool.not_and, hp]; rfl)]

theorem Die.chartRelay_of_good (hp : (relayParamsOk p && relayZeros (d.relayBytes box)) = true) :
    d.chartRelay box p =
      (d.unmapAll.setRelay (Relay.ofParams p)).reply box rcOk (natLe 8 (if p.role = 0 then Config.inbox else 0)) := by
  unfold Die.chartRelay
  rw [if_neg hr, if_neg (not_not.2 ht), if_neg (by rw [← Bool.not_and, hp]; decide)]
  rfl

end

/-! ### The statement -/

/-- Settles O40: each chart command is one answer per relay state, and the map is withdrawn entry by entry. -/
theorem chartCommandsFollowTheRelayState : Obligations.ChartCommandsFollowTheRelayState := by
  intro s box h
  refine ⟨?refused, fun p hp => ?foreign, fun p hp hr => ⟨_, exec_chartRelay h p, ?loading⟩, fun p hp hrec hprog =>
    ⟨fun ht => ⟨_, exec_chartRelay h p, ?busy⟩, fun ht hbad => ⟨_, exec_chartRelay h p, ?bad⟩,
      fun ht hgood => ⟨_, exec_chartRelay h p, ?good⟩⟩,
    ⟨_, exec_chartStatus h, ⟨_, replied_reply h _ _, Relay.statusBytes_state _, Relay.statusBytes_code _, Relay.statusBytes_length _⟩,
      rfl, rfl, fun _ => rfl⟩,
    fun hr => ⟨_, exec_chartAbort h, ?abort⟩, fun hr => ⟨_, exec_chartDiscard h, ?discard⟩, fun hr => ?golden⟩
  case refused =>
    intro k hk hno
    simp only [List.mem_cons, List.not_mem_nil, or_false] at hk
    rcases hk with rfl | rfl | rfl
    · exact ⟨_, (exec_chartAbort h).trans (by rw [if_neg (by simpa using hno)]), Die.relayRefused_effect h 0x0212⟩
    · exact ⟨_, (exec_chartDiscard h).trans (by rw [if_neg (by simpa using hno)]), Die.relayRefused_effect h 0x0213⟩
    · exact ⟨_, exec_goldenCheck_refused h (by simpa using hno), Die.relayRefused_effect h 0x0214⟩
  case foreign => rw [exec_chartRelay h, if_neg hp]
  case loading =>
    rw [if_pos hp, Die.chartRelay_of_loading hr]
    exact Die.relayRefused_effect h 0x0210
  case busy =>
    rw [if_pos hp, Die.chartRelay_of_busy (not_or.2 ⟨hrec, hprog⟩) ht]
    exact ⟨replied_reply h _ _, rfl, rfl, fun _ => rfl⟩
  case bad =>
    rw [if_pos hp, Die.chartRelay_of_bad (not_or.2 ⟨hrec, hprog⟩) ht hbad]
    exact ⟨replied_reply h _ _, rfl, rfl, fun _ => rfl⟩
  case good =>
    obtain ⟨hboxes, hmem⟩ := s.die.unmapAll_keepsBoxes
    rw [if_pos hp, Die.chartRelay_of_good (not_or.2 ⟨hrec, hprog⟩) ht hgood]
    refine ⟨Replied.ofBoxes (e := s.die.unmapAll.setRelay (Relay.ofParams p)) h hboxes _ _, rfl, hmem, fun n l hn hl hv => ?_⟩
    obtain ⟨-, hpend, hnext⟩ := Die.unmapAll_withdrawn hn hl hv
    exact ⟨hpend, hnext⟩
  case abort =>
    have hfailed := s.die.relayFail_failed 10
    rw [if_pos hr]
    exact ⟨Replied.ofBoxes h hfailed.boxes _ _, hfailed.relay, hfailed.mem,
      hfailed.recorded.frame ⟨rfl, rfl, rfl⟩ ⟨rfl, rfl⟩, hfailed.regs⟩
  case discard =>
    obtain ⟨hboxes, hmem⟩ := s.die.unmapAll_keepsBoxes
    rw [if_pos hr]
    exact ⟨Replied.ofBoxes (e := s.die.unmapAll.setRelay {}) h hboxes _ _, rfl, hmem⟩
  case golden =>
    obtain ⟨bs, hexec⟩ := exec_goldenCheck h hr
    have hcount := leAt_natLe_front 4 s.die.badImages.length bs
    by_cases hbad : s.die.badImages = []
    · rw [if_pos (List.isEmpty_iff.2 hbad)] at hexec
      exact ⟨_, hexec, ⟨_, replied_reply h _ _, hcount⟩, fun _ => rfl, OnlyRegs.refl _ _, fun _ => rfl, fun hne => absurd hbad hne⟩
    · rw [if_neg (fun hempty => hbad (List.isEmpty_iff.1 hempty))] at hexec
      have hfailed := s.die.relayFail_failed 2
      exact ⟨_, hexec, ⟨_, Replied.ofBoxes h hfailed.boxes _ _, hcount⟩, hfailed.mem, hfailed.regs, fun hnil => absurd hnil hbad,
        fun _ => hfailed.relay⟩

end Sys2Proof.Machine
end

section
/-! SUPPORT. What the firmware's reports, its stop of a table and its refresh queue leave alone (R271, R278, R318 to R320, R325). -/
namespace Sys2Proof.Machine
variable {d e f : Die} {rs ss : List Nat}

/-! ### Registers alone, and no memory -/

/-- Only these registers move, and no byte of memory. -/
structure MovesRegs (rs : List Nat) (d e : Die) : Prop where
  regs : OnlyRegs rs d e
  mem : SameMem d e

theorem MovesRegs.refl (rs : List Nat) (d : Die) : MovesRegs rs d d := ⟨OnlyRegs.refl rs d, SameMem.refl d⟩

theorem MovesRegs.trans (h : MovesRegs rs d e) (k : MovesRegs rs e f) : MovesRegs rs d f :=
  ⟨h.regs.trans k.regs, fun a => (k.mem a).trans (h.mem a)⟩

theorem MovesRegs.mono (h : MovesRegs rs d e) (k : ∀ a ∈ rs, a ∈ ss) : MovesRegs ss d e := ⟨h.regs.mono k, h.mem⟩

theorem MovesRegs.foldl {β : Type} {g : Die → β → Die} {l : List β} (hg : ∀ e, ∀ x ∈ l, MovesRegs rs e (g e x)) (d : Die) :
    MovesRegs rs d (l.foldl g d) :=
  List.foldlRecOn (motive := fun e => MovesRegs rs d e) _ _ (MovesRegs.refl rs d) fun e h x hx => h.trans (hg e x hx)

theorem Die.putW_moves (d : Die) {a : Nat} (w : Word) (h : a ∈ rs) : MovesRegs rs d (d.putW a w) :=
  ⟨onlyRegs_putW d w h, Die.putW_byteAt d a w⟩

theorem Die.put_moves (d : Die) {g : Fld} (v : Nat) (h : g.addr ∈ rs) : MovesRegs rs d (d.put g v) := d.putW_moves _ h

theorem Die.record_moves (d : Die) (src ev dom sub : Nat) (det : List Nat) : MovesRegs logRegs d (d.record src ev dom sub det) :=
  ⟨d.record_onlyRegs _ _ _ _ _, (d.record_logsOnly _ _ _ _ _).sameMem⟩

theorem Die.eventAll_moves (d : Die) (kind : Nat) (body : List Byte) : MovesRegs logRegs d (d.eventAll kind body) :=
  ⟨(d.eventAll_onlyRegs kind body).mono (by decide), (d.eventAll_logsOnly kind body).sameMem⟩

/-! ### What the firmware keeps -/

/-- The die with other upkeep. -/
def Die.setUpkeepTo (d : Die) (u : Upkeep) : Die := { d with upkeep := u }

theorem Die.setUpkeepTo_upkeep (d : Die) (u : Upkeep) : (d.setUpkeepTo u).upkeep = u := rfl
theorem Die.setUpkeepTo_getW (d : Die) (u : Upkeep) (a : Nat) : (d.setUpkeepTo u).getW a = d.getW a := rfl
theorem Die.setUpkeepTo_moves (d : Die) (u : Upkeep) (rs : List Nat) : MovesRegs rs d (d.setUpkeepTo u) :=
  ⟨fun _ _ => rfl, fun _ => rfl⟩

theorem LogsOnly.upkeep (h : LogsOnly d e) : e.upkeep = d.upkeep := h.keepsWork.upkeep

/-- The reports that are kept and the calibration records of the arrays are as they were, and only registers that records move have
moved. -/
structure KeepsReports (d e : Die) : Prop where
  reports : e.upkeep.reports = d.upkeep.reports
  cal : e.upkeep.cal = d.upkeep.cal
  moves : MovesRegs logRegs d e

theorem KeepsReports.refl (d : Die) : KeepsReports d d := ⟨rfl, rfl, MovesRegs.refl _ d⟩

theorem KeepsReports.trans (h : KeepsReports d e) (k : KeepsReports e f) : KeepsReports d f :=
  ⟨k.reports.trans h.reports, k.cal.trans h.cal, h.moves.trans k.moves⟩

theorem KeepsReports.ite {p : Prop} [Decidable p] (h : KeepsReports d e) (k : KeepsReports d f) :
    KeepsReports d (if p then e else f) := by
  split
  · exact h
  · exact k

theorem Die.sendReport_keepsReports (d : Die) (bs : List Byte) : KeepsReports d (d.sendReport bs) := by
  have hrate : ∀ r, KeepsReports d (d.setUpkeepTo { d.upkeep with rate := r }) := fun r => ⟨rfl, rfl, d.setUpkeepTo_moves _ _⟩
  have hevent : ∀ (e : Die) body, KeepsReports e (e.eventAll 4 body) := fun e body => by
    have hup := (e.eventAll_logsOnly 4 body).upkeep
    exact ⟨by rw [hup], by rw [hup], e.eventAll_moves 4 body⟩
  unfold Die.sendReport
  exact ((hrate _).trans (hevent _ _)).ite (hrate _)

/-! ### Reports (R318 to R320) -/

theorem leAt_splice_first (l new : List Byte) {off : Nat} (hoff : 0 < off) (hl : l ≠ []) : leAt (splice l off new) 0 1 = leAt l 0 1 := by
  obtain ⟨k, rfl⟩ : ∃ k, off = k + 1 := ⟨off - 1, by omega⟩
  cases l with
  | nil => exact absurd rfl hl
  | cons x r => simp [leAt, splice]

/-- A report begins with its kind (R319). -/
theorem Die.reportBytes_front (d : Die) (r : Report) : ∃ bs, d.reportBytes r = natLe 1 r.kind ++ bs := by
  unfold Die.reportBytes
  simp only [List.append_assoc]
  exact ⟨_, rfl⟩

theorem Die.reportBytes_kind (d : Die) (r : Report) : leAt (d.reportBytes r) 0 1 = r.kind % 256 := by
  obtain ⟨bs, hbs⟩ := d.reportBytes_front r
  rw [hbs]
  exact leAt_natLe_front 1 _ _

/-- Its readings put in later leave the kind. -/
theorem Die.withReadings_kind (d : Die) (r : Report) (diode core : Nat) :
    leAt (withReadings (d.reportBytes r) diode core) 0 1 = r.kind % 256 := by
  obtain ⟨bs, hbs⟩ := d.reportBytes_front r
  have hne : d.reportBytes r ≠ [] := by rw [hbs]; simp [natLe]
  have hne' : splice (d.reportBytes r) 64 (natLe 2 diode) ≠ [] := by simp [splice, hne]
  unfold withReadings
  rw [leAt_splice_first _ _ (by decide) hne', leAt_splice_first _ _ (by decide) hne, d.reportBytes_kind]

/-- Reports that waited get their readings where they stand (R320). -/
theorem Die.finishReports_effect (d : Die) (diode core : Nat) :
    (d.finishReports diode core).upkeep.reports = (d.upkeep.reports.take d.upkeep.unsent).map (fun bs => withReadings bs diode core) ++
      d.upkeep.reports.drop d.upkeep.unsent ∧
    (d.finishReports diode core).upkeep.cal = d.upkeep.cal ∧ MovesRegs logRegs d (d.finishReports diode core) := by
  have hhang : (d.finishHang diode core).upkeep = d.upkeep ∧ MovesRegs logRegs d (d.finishHang diode core) := by
    unfold Die.finishHang
    split
    · exact ⟨rfl, MovesRegs.refl _ d⟩
    · exact ⟨rfl, fun _ _ => rfl, fun _ => rfl⟩
  obtain ⟨hup, hmoves⟩ := hhang
  unfold Die.finishReports
  dsimp only
  generalize d.finishHang diode core = e at hup hmoves
  have hsent : ∀ l : List (List Byte), ∀ g : Die, KeepsReports g (l.foldl (fun e bs => e.sendReport bs) g) := fun l g =>
    List.foldlRecOn (motive := fun e => KeepsReports g e) _ _ (KeepsReports.refl g) fun e h bs _ => h.trans (e.sendReport_keepsReports bs)
  obtain ⟨hreports, hcal, hregs⟩ := hsent ((e.upkeep.reports.take e.upkeep.unsent).map (fun bs => withReadings bs diode core)).reverse
    (e.setUpkeepTo { e.upkeep with
      reports := (e.upkeep.reports.take e.upkeep.unsent).map (fun bs => withReadings bs diode core) ++
        e.upkeep.reports.drop e.upkeep.unsent,
      unsent := 0, readings := (none, none) })
  rw [hup] at hreports hcal hregs
  rw [hup]
  exact ⟨hreports, hcal, hmoves.trans ((e.setUpkeepTo_moves _ _).trans hregs)⟩

theorem Die.triggerOn_upkeep (d : Die) (c src : Nat) : (d.triggerOn c src).upkeep = d.upkeep := by
  rw [Die.triggerOn_eq]

theorem Die.trigger_upkeep (d : Die) (src : Nat) : (d.trigger src).upkeep = d.upkeep :=
  (Die.triggerOn_upkeep _ _ _).trans (d.triggerOn_upkeep _ _)

/-- The die with one more report, its record made (R318). -/
def Die.addReport (d : Die) (t : Nat) (bs : List Byte) : Die :=
  (d.setUpkeepTo { d.upkeep with
    reports := (bs :: d.upkeep.reports).take 1024, unsent := min 1024 (d.upkeep.unsent + 1) }).record 0x12 1 t 0xFFFF (wordsOf bs 8)

theorem Die.addReport_upkeep (d : Die) (t : Nat) (bs : List Byte) : (d.addReport t bs).upkeep = { d.upkeep with
    reports := bs :: d.upkeep.reports.take 1023, unsent := min 1023 d.upkeep.unsent + 1 } := by
  unfold Die.addReport
  rw [(Die.record_logsOnly _ _ _ _ _ _).upkeep, Die.setUpkeepTo_upkeep, List.take_succ_cons, Nat.add_min_add_right 1023 _ 1]

theorem Die.addReport_moves (d : Die) (t : Nat) (bs : List Byte) : MovesRegs logRegs d (d.addReport t bs) :=
  (d.setUpkeepTo_moves _ _).trans (Die.record_moves _ _ _ _ _ _)

theorem Die.report_eq (d : Die) (r : Report) : d.report r =
    if (d.addReport r.tile (d.reportBytes r)).canMeasure then (d.addReport r.tile (d.reportBytes r)).trigger 2
    else (d.addReport r.tile (d.reportBytes r)).finishReports (d.addReport r.tile (d.reportBytes r)).diode
      (d.addReport r.tile (d.reportBytes r)).vCore := rfl

/-- A report of this kind is made: it stands first, the calibration records stay, and only registers of records and of the monitor
move. -/
structure ReportMade (kind : Nat) (d e : Die) : Prop where
  reported : Reported kind d e
  cal : e.upkeep.cal = d.upkeep.cal
  moves : MovesRegs (Reg.MON_STATUS :: logRegs) d e

/-- What stands behind the newest of the reports that have got their readings. -/
theorem Reported.of_reports {kind n : Nat} {bs : List Byte} {g : List Byte → List Byte}
    (hreports : e.upkeep.reports = bs :: (((d.upkeep.reports.take 1023).take n).map g ++ (d.upkeep.reports.take 1023).drop n))
    (hkind : leAt bs 0 1 = kind) (hn : d.upkeep.unsent = 0 → n = 0) : Reported kind d e := by
  refine ⟨bs, _, hreports, hkind, ?_, fun hunsent => ?_⟩
  · rw [List.length_append, List.length_map, ← List.length_append, List.take_append_drop, List.length_take]
  · rw [hn hunsent]
    rfl

theorem Die.report_made (d : Die) {r : Report} (hk : r.kind < 256) : ReportMade r.kind d (d.report r) := by
  have hkind := d.reportBytes_kind r
  have hread := d.withReadings_kind r
  rw [Nat.mod_eq_of_lt hk] at hkind
  rw [Die.report_eq]
  generalize d.reportBytes r = bs at hkind hread
  have hup := d.addReport_upkeep r.tile bs
  have hmoves := d.addReport_moves r.tile bs
  generalize d.addReport r.tile bs = e at hup hmoves
  split
  · obtain ⟨-, hmem, hregs⟩ := e.trigger_frame 2
    refine ⟨.of_reports (bs := bs) (n := 0) (g := id) ?_ hkind fun _ => rfl, ?_, ?_⟩
    · rw [Die.trigger_upkeep, hup]
      rfl
    · rw [Die.trigger_upkeep, hup]
    · exact (hmoves.mono (by simp +contextual)).trans ⟨hregs.mono (by simp), hmem⟩
  · obtain ⟨hreports, hcal, hfinish⟩ := e.finishReports_effect e.diode e.vCore
    rw [hup, List.take_succ_cons, List.drop_succ_cons, List.map_cons, List.cons_append] at hreports
    refine ⟨.of_reports hreports ?_ fun hunsent => by rw [hunsent]; rfl, ?_, ?_⟩
    · rw [hread, Nat.mod_eq_of_lt hk]
    · rw [hcal, hup]
    · exact (hmoves.trans hfinish).mono (by simp +contextual)

/-- A report stays the newest while those kept stay. -/
theorem Reported.frame {kind : Nat} {d' e' : Die} (h : Reported kind d e)
    (hd : d'.upkeep.reports = d.upkeep.reports ∧ d'.upkeep.unsent = d.upkeep.unsent) (he : e'.upkeep.reports = e.upkeep.reports) :
    Reported kind d' e' := by
  obtain ⟨hreports, hunsent⟩ := hd
  unfold Reported at h ⊢
  rwa [hreports, hunsent, he]

theorem ReportMade.cal_eq {kind : Nat} (h : ReportMade kind d e) (t a : Nat) : e.cal t a = d.cal t a := by
  unfold Die.cal
  rw [h.cal]

end Sys2Proof.Machine
end

section
/-! SUPPORT. What each firmware event on a calibration does to the die (R271, R278, R289, R292, R294 to R297, R312, R315, R325). -/
namespace Sys2Proof.Machine
variable {d e : Die} {t a l : Nat}

/-! ### SNAP on a serving array (R271) -/

theorem Die.calSnap_of_barred (h : d.snapBarred t a = true) (ag : Agent) :
    d.calSnap ag t a = (d.recordA 0x11 4 t a ag (Reg.CAL_CTRL t a) 2 stOk).answer ag stOk := if_pos h

theorem Die.calSnap_of_free (h : d.snapBarred t a = false) (ag : Agent) :
    d.calSnap ag t a = (d.raise (Reg.CAL_CTRL_SNAP t a)).answer ag stOk := if_neg (by rw [h]; decide)

theorem Die.calSnap_barred_effect (h : d.snapBarred t a = true) (ag : Agent) :
    Recorded 0x11 4 t a d (d.calSnap ag t a) ∧ OnlyRegs logRegs d (d.calSnap ag t a) ∧ SameMem d (d.calSnap ag t a) ∧
      (d.calSnap ag t a).out.head? = some (.status ag stOk) := by
  rw [Die.calSnap_of_barred h]
  exact ⟨(d.recordA_recorded _ _ _ _ _ _ _ _).frame ⟨rfl, rfl, rfl⟩ ⟨rfl, rfl⟩, (d.recordA_onlyRegs _ _ _ _ _ _ _ _).answer _ _,
    fun c => (d.recordA_logsOnly _ _ _ _ _ _ _ _).sameMem c, rfl⟩

/-! ### The refresh queue (R295) -/

/-- The due array, in its place of the queue. -/
def Die.queueDue (d : Die) (x : Due) : Die :=
  d.setUpkeepTo { d.upkeep with due := insertDue (d.upkeep.due.filter (fun y => !(y.tile == x.tile && y.logical == x.logical))) x }

theorem Die.addDue_eq (d : Die) (x : Due) : d.addDue x = (d.queueDue x).deferDue x.tile x.logical := rfl
theorem Die.queueDue_pool (d : Die) (x : Due) (t : Nat) : (d.queueDue x).pool t = d.pool t := rfl
theorem Die.queueDue_windowCovers (d : Die) (x : Due) (t l : Nat) : (d.queueDue x).windowCovers t l = d.windowCovers t l := rfl

/-- The time a refresh was first put off, kept under its entry. -/
def Die.setDeferred (d : Die) (m : List (Nat × Nat)) : Die := d.setUpkeepTo { d.upkeep with deferred := m }

theorem Die.deferDue_of_open (h : (d.pool t).isEmpty = false ∨ d.windowCovers t l = true) :
    d.deferDue t l = d.setDeferred (amErase d.upkeep.deferred (256 * t + l)) := by
  unfold Die.deferDue
  rw [if_neg (by rcases h with h | h <;> simp [h])]
  rfl

theorem Die.deferDue_of_seen (hp : (d.pool t).isEmpty = true) (hw : d.windowCovers t l = false)
    (hd : (look d.upkeep.deferred (256 * t + l)).isSome = true) : d.deferDue t l = d := by
  unfold Die.deferDue
  rw [if_pos (by simp [hp, hw]), if_pos hd]

theorem Die.deferDue_of_new (hp : (d.pool t).isEmpty = true) (hw : d.windowCovers t l = false)
    (hd : look d.upkeep.deferred (256 * t + l) = none) :
    d.deferDue t l = (d.setDeferred (keep d.upkeep.deferred (256 * t + l) (d.now / 1000000000))).record 0x12 2 t
      ((d.serving t l).getD 0xFFFF) [l] := by
  unfold Die.deferDue
  rw [if_pos (by simp [hp, hw]), if_neg (by simp [hd])]
  rfl

/-- Putting a refresh off leaves the queue and, but for registers that a record moves, the die. -/
theorem Die.deferDue_keeps (d : Die) (t l : Nat) : (d.deferDue t l).upkeep.due = d.upkeep.due ∧ MovesRegs logRegs d (d.deferDue t l) := by
  rcases Bool.eq_false_or_eq_true (d.pool t).isEmpty with hp | hp
  · rcases Bool.eq_false_or_eq_true (d.windowCovers t l) with hw | hw
    · rw [Die.deferDue_of_open (.inr hw)]
      exact ⟨rfl, d.setUpkeepTo_moves _ _⟩
    · cases hd : look d.upkeep.deferred (256 * t + l) with
      | some since =>
        rw [Die.deferDue_of_seen hp hw (by rw [hd]; rfl)]
        exact ⟨rfl, MovesRegs.refl _ d⟩
      | none =>
        rw [Die.deferDue_of_new hp hw hd]
        exact ⟨by rw [(Die.record_logsOnly _ _ _ _ _ _).upkeep]; rfl, (d.setUpkeepTo_moves _ _).trans (Die.record_moves _ _ _ _ _ _)⟩
  · rw [Die.deferDue_of_open (.inl hp)]
    exact ⟨rfl, d.setUpkeepTo_moves _ _⟩

theorem Die.addDue_keeps (d : Die) (x : Due) : (d.addDue x).upkeep.due =
      insertDue (d.upkeep.due.filter (fun y => !(y.tile == x.tile && y.logical == x.logical))) x ∧ MovesRegs logRegs d (d.addDue x) := by
  obtain ⟨hdue, hmoves⟩ := (d.queueDue x).deferDue_keeps x.tile x.logical
  exact ⟨hdue, (d.setUpkeepTo_moves _ _).trans hmoves⟩

/-- With a free array or a window that covers it, a refresh waits without a word. -/
theorem Die.addDue_regs_of_open {x : Due} (h : (d.pool x.tile).isEmpty = false ∨ d.windowCovers x.tile x.logical = true) :
    (d.addDue x).regs = d.regs := by
  rw [Die.addDue_eq, Die.deferDue_of_open (by rwa [Die.queueDue_pool, Die.queueDue_windowCovers])]
  rfl

theorem Die.deferDue_deferred (hp : (d.pool t).isEmpty = true) (hw : d.windowCovers t l = false)
    (hd : look d.upkeep.deferred (256 * t + l) = none) :
    Recorded 0x12 2 t ((d.serving t l).getD 0xFFFF) d (d.deferDue t l) ∧
      look (d.deferDue t l).upkeep.deferred (256 * t + l) = some (d.now / 1000000000) := by
  rw [Die.deferDue_of_new hp hw hd]
  have hrec := Die.record_recorded (d.setDeferred (keep d.upkeep.deferred (256 * t + l) (d.now / 1000000000))) 0x12 2 t
    ((d.serving t l).getD 0xFFFF) [l]
  refine ⟨hrec.frame ⟨rfl, rfl, rfl⟩ ⟨rfl, rfl⟩, ?_⟩
  rw [(Die.record_logsOnly _ _ _ _ _ _).upkeep]
  exact look_keep_same _ _ _

theorem Die.addDue_deferred {x : Due} (hp : (d.pool x.tile).isEmpty = true) (hw : d.windowCovers x.tile x.logical = false)
    (hd : look d.upkeep.deferred (256 * x.tile + x.logical) = none) :
    Recorded 0x12 2 x.tile ((d.serving x.tile x.logical).getD 0xFFFF) d (d.addDue x) ∧
      look (d.addDue x).upkeep.deferred (256 * x.tile + x.logical) = some (d.now / 1000000000) := by
  obtain ⟨hrec, hlook⟩ := Die.deferDue_deferred (d := d.queueDue x) hp hw hd
  rw [Die.addDue_eq]
  exact ⟨hrec.frame ⟨rfl, rfl, rfl⟩ ⟨rfl, rfl⟩, hlook⟩

/-! ### An overdue refresh stops the table (R278, R296) -/

theorem Die.setEnable_false (d : Die) (t : Nat) : d.setEnable t false = (d.clear (Reg.ENG_CTRL_ENABLE t)).modTile t (fun x => { x with
    stopping := x.stopping || x.dispatching, enableDeferred := false }) := if_neg (by decide)

/-- The registers that a fault's stop moves: those of records and the enables of the engines. -/
def stopRegs : List Nat := logRegs ++ (List.range 64).map Reg.ENG_CTRL

theorem engCtrl_mem_stopRegs (ht : t < 64) : Reg.ENG_CTRL t ∈ stopRegs :=
  List.mem_append_right _ (List.mem_map_of_mem (List.mem_range.2 ht))

/-- What a stop leaves of the firmware's records, and the registers it moves. -/
structure Stops (d e : Die) : Prop where
  upkeep : e.upkeep = d.upkeep
  moves : MovesRegs stopRegs d e

theorem Stops.refl (d : Die) : Stops d d := ⟨rfl, MovesRegs.refl _ d⟩

theorem Stops.trans {f : Die} (h : Stops d e) (k : Stops e f) : Stops d f := ⟨k.upkeep.trans h.upkeep, h.moves.trans k.moves⟩

theorem Stops.foldl {β : Type} {g : Die → β → Die} {l : List β} (hg : ∀ e, ∀ x ∈ l, Stops e (g e x)) (d : Die) :
    Stops d (l.foldl g d) :=
  List.foldlRecOn (motive := fun e => Stops d e) _ _ (Stops.refl d) fun e h x hx => h.trans (hg e x hx)

theorem Die.setEnable_false_stops (d : Die) (ht : t < 64) : Stops d (d.setEnable t false) := by
  rw [Die.setEnable_false]
  refine ⟨by rw [Die.modTile_upkeep]; exact Die.put_upkeep _ _ _, ?_, fun c => ?_⟩
  · exact OnlyRegs.trans (onlyRegs_put d 0 (engCtrl_mem_stopRegs ht)) fun c _ => Die.modTile_getW _ _ _ _
  · rw [Die.modTile_byteAt]
    exact Die.put_byteAt _ _ _ _

theorem Die.enableAll_false_stops (d : Die) : Stops d (d.enableAll false) := by
  refine Stops.foldl (fun e t ht => e.setEnable_false_stops ?_) d
  exact List.mem_range.1 (List.mem_filter.1 ht).1

theorem Die.sendMark_stops (d : Die) (k : Nat) (stop fault : Bool) (cause coord : Nat) : Stops d (d.sendMark k stop fault cause coord) :=
  ⟨rfl, fun _ _ => rfl, fun _ => rfl⟩

theorem Die.sendMarks_stops (d : Die) (stop fault : Bool) (cause coord : Nat) : Stops d (d.sendMarks stop fault cause coord) :=
  Stops.foldl (fun e k _ => e.sendMark_stops k stop fault cause coord) d

theorem Die.record_stops (d : Die) (src ev dom sub : Nat) (det : List Nat) : Stops d (d.record src ev dom sub det) :=
  ⟨(d.record_logsOnly _ _ _ _ _).upkeep, (d.record_moves _ _ _ _ _).mono fun _ h => List.mem_append_left _ h⟩

theorem Die.faultStop_stops (d : Die) (cause coord : Nat) : Stops d (d.faultStop cause coord) := by
  unfold Die.faultStop
  dsimp only
  split
  · refine (Stops.trans (Stops.trans (Stops.trans ?_ (Die.sendMarks_stops _ _ _ _ _)) (Die.record_stops _ _ _ _ _ _))
      (Die.enableAll_false_stops _))
    exact ⟨rfl, fun _ _ => rfl, fun _ => rfl⟩
  · exact Stops.refl d

theorem Die.stopNowFw_stops (d : Die) : Stops d d.stopNowFw := d.faultStop_stops _ _

theorem tileSpare_not_mem (t : Nat) : Reg.TILE_SPARE t ∉ Reg.MON_STATUS :: logRegs := by
  refine fun h => (List.mem_cons.1 h).elim ?_ (not_mem_logRegs (Nat.le_add_right _ _))
  unfold Reg.TILE_SPARE Reg.MON_STATUS tileAddr
  omega

theorem tileSpare_not_mem_stopRegs (t : Nat) : Reg.TILE_SPARE t ∉ stopRegs := by
  refine fun h => (List.mem_append.1 h).elim (not_mem_logRegs (Nat.le_add_right _ _)) fun h => ?_
  obtain ⟨n, -, hn⟩ := List.mem_map.1 h
  unfold Reg.TILE_SPARE Reg.ENG_CTRL tileAddr at hn
  omega

/-- An overdue refresh is reported and stops the table, where the policy does not serve on degraded. -/
theorem Die.exhausted_stops {kind : Nat} (h8 : kind ≠ 8) (hdeg : d.upkeep.set.degraded = false) (t l : Nat)
    (x : Option Nat) : ∃ r : Report, r.kind = kind ∧ d.exhausted t l x kind = (d.report r).stopNowFw := by
  unfold Die.exhausted
  dsimp only
  simp only [hdeg, Bool.false_and, Bool.false_eq_true, if_false, h8, false_and, and_false]
  cases x with
  | none => exact ⟨_, rfl, rfl⟩
  | some y => exact ⟨_, rfl, rfl⟩

end Sys2Proof.Machine
end

section
/-! SUPPORT. What the estimates, the end of a watch and the scope of a neap calibration do to the die (R289, R291, R292, R312). -/
namespace Sys2Proof.Machine
variable {d e : Die} {t a n : Nat}

/-! ### The end of a watch (R312, R315) -/

theorem Die.endWatch_of_some {w : Nat × Nat} (hw : (d.cal t a).watch = some w) :
    d.endWatch t a = if (d.modCal t a (fun c => { c with watch := none })).watched t a then d.modCal t a (fun c => { c with watch := none })
      else (d.modCal t a (fun c => { c with watch := none })).put (Reg.SND_CFG_FRAC t a) w.2 := by
  unfold Die.endWatch
  rw [hw]
  rfl

/-- With no watch on an array, only a degraded or suspect one is sounded more. -/
theorem Die.watched_of_ended : (d.modCal t a (fun c => { c with watch := none })).watched t a =
    ((d.cal t a).degraded || d.on (Reg.CAL_QF_SUSPECT t a)) := by
  unfold Die.watched
  rw [Die.cal_modCal_same]
  rfl

theorem Die.endWatch_effect {w : Nat × Nat} (hw : (d.cal t a).watch = some w) :
    (d.endWatch t a).get (Reg.SND_CFG_FRAC t a) =
      (if (d.cal t a).degraded || d.on (Reg.CAL_QF_SUSPECT t a) then d.get (Reg.SND_CFG_FRAC t a) else w.2 % 16) ∧
    (d.endWatch t a).cal t a = { d.cal t a with watch := none } ∧ OnlyRegs [Reg.SND_CFG t a] d (d.endWatch t a) ∧
    SameMem d (d.endWatch t a) := by
  rw [Die.endWatch_of_some hw, Die.watched_of_ended]
  split
  · exact ⟨rfl, Die.cal_modCal_same _ _ _ _, fun _ _ => rfl, fun _ => rfl⟩
  · refine ⟨Die.get_put_same _ (Reg.SND_CFG_FRAC t a) _ (Nat.le_of_ble_eq_true rfl), ?_, ?_, fun c => Die.put_byteAt _ _ _ _⟩
    · rw [Die.put_cal, Die.cal_modCal_same]
    · exact OnlyRegs.trans (e := d.modCal t a (fun c => { c with watch := none })) (fun _ _ => rfl)
        (onlyRegs_put _ _ (List.mem_singleton_self _))

/-! ### The figures of a tile (R289, R291) -/

/-- The word of CAL_TILE_TEMP that holds the estimate and the one of the last calibration. -/
def figureWord (est last : Nat) : Word := w32 (last % 2 ^ 16 * 2 ^ 16 + est % 2 ^ 16)

theorem figureWord_est (est last : Nat) : bits (figureWord est last).toNat 0 16 = est % 2 ^ 16 := by
  unfold figureWord bits
  rw [w32_toNat]
  omega

theorem figureWord_last (est last : Nat) : bits (figureWord est last).toNat 16 16 = last % 2 ^ 16 := by
  unfold figureWord bits
  rw [w32_toNat]
  omega

theorem Die.setFigures_eq (d : Die) (t est last : Nat) : d.setFigures t est last =
    (d.setUpkeepTo { d.upkeep with figures := keep d.upkeep.figures t (est, last) }).putW (Reg.CAL_TILE_TEMP t) (figureWord est last) := rfl

theorem Die.setFigures_moves (d : Die) (t est last : Nat) : MovesRegs [Reg.CAL_TILE_TEMP t] d (d.setFigures t est last) := by
  rw [Die.setFigures_eq]
  exact (d.setUpkeepTo_moves _ _).trans (Die.putW_moves _ _ (List.mem_singleton_self _))

theorem Die.setFigures_word (d : Die) (t est last : Nat) :
    (d.setFigures t est last).getW (Reg.CAL_TILE_TEMP t) = figureWord est last := by
  rw [Die.setFigures_eq, Die.getW_putW_same]

theorem Die.setFigures_est (d : Die) (t est last : Nat) : (d.setFigures t est last).get (Reg.CAL_TILE_TEMP_EST t) = est % 2 ^ 16 := by
  unfold Die.get
  rw [show (Reg.CAL_TILE_TEMP_EST t).addr = Reg.CAL_TILE_TEMP t from rfl, Die.setFigures_word]
  exact figureWord_est est last

theorem Die.setFigures_last (d : Die) (t est last : Nat) : (d.setFigures t est last).get (Reg.CAL_TILE_TEMP_LASTCAL t) = last % 2 ^ 16 := by
  unfold Die.get
  rw [show (Reg.CAL_TILE_TEMP_LASTCAL t).addr = Reg.CAL_TILE_TEMP t from rfl, Die.setFigures_word]
  exact figureWord_last est last

theorem Die.springDue_moves (d : Die) (t a : Nat) (suspect : Bool) : MovesRegs logRegs d (d.springDue t a suspect) := by
  unfold Die.springDue
  split
  · exact MovesRegs.refl _ d
  · split
    · exact MovesRegs.refl _ d
    · exact (d.addDue_keeps _).2

theorem Die.springFar_moves (d : Die) (t : Nat) : MovesRegs logRegs d (d.springFar t) := by
  unfold Die.springFar
  split
  · exact MovesRegs.refl _ d
  · exact MovesRegs.foldl (fun e x _ => e.springDue_moves t x false) d

/-- An estimate as the register holds it: 0x8000 stands for none (R291). -/
def estCode (o : Option Int) : Nat :=
  match o with
  | some x => enc 16 x
  | none => 0x8000

theorem estCode_mod (o : Option Int) : estCode o % 2 ^ 16 = estCode o := by
  cases o with
  | none => rfl
  | some x => exact Nat.mod_eq_of_lt (enc_lt 16 x)

theorem Die.tileEstimate_eq (d : Die) (t : Nat) :
    d.tileEstimate t = (d.setFigures t (estCode (d.tileEst t)) (d.figures t).2).springFar t := by
  unfold Die.tileEstimate estCode
  rfl

theorem Die.tileEstimate_effect (d : Die) (t : Nat) : SameMem d (d.tileEstimate t) ∧
    (d.tileEstimate t).get (Reg.CAL_TILE_TEMP_EST t) = estCode (d.tileEst t) := by
  rw [Die.tileEstimate_eq]
  have hset := d.setFigures_moves t (estCode (d.tileEst t)) (d.figures t).2
  have hfar := Die.springFar_moves (d.setFigures t (estCode (d.tileEst t)) (d.figures t).2) t
  refine ⟨fun c => (hfar.mem c).trans (hset.mem c), ?_⟩
  rw [hfar.regs.get (not_mem_logRegs (t := t) (Nat.le_add_right _ _)), Die.setFigures_est, estCode_mod]

/-! ### The neap calibration (R291, R292) -/

/-- An array that its own drift names alone. -/
theorem Die.neapNamed_single (ht : d.tempTrigger t = false) (hd : d.driftTrigger t a = true) (hs : (d.cal t a).spring.isSome = true)
    (ha : a < 272) : d.neapNamed t a = [a] := by
  have hone : d.neapNamed t a = (List.range 272).filter (fun x => x == a) := by
    refine List.filter_congr fun x _ => ?_
    rw [ht, Bool.false_and, Bool.false_or, Die.ownTrigger, hd, Bool.true_or, Bool.and_true]
    by_cases hx : x = a
    · rw [hx, hs, Bool.and_true]
    · simp [hx]
  rw [hone, List.filter_beq, List.count_eq_one_of_mem List.nodup_range (List.mem_range.2 ha)]
  rfl

theorem Die.stale_of_neapLeftOut (h : d.neapLeftOut t a = false) : (d.cal t a).stale = false := by
  unfold Die.neapLeftOut at h
  simp only [Bool.or_eq_false_iff] at h
  exact h.1.1.1

/-- With one array in scope the tile's neap calibration is that array's. -/
theorem Die.neap_of_single (hn : d.neapNamed t a = [a]) (hl : d.neapLeftOut t a = false) :
    d.neap t a = if (d.neapOne t a).2 then (d.neapOne t a).1.setFigures t (d.figures t).1 (enc 16 (d.estimate t))
      else (d.neapOne t a).1 := by
  have hscope : d.neapScope t a = [a] := by
    unfold Die.neapScope
    rw [hn, List.filter_cons_of_pos (by rw [hl]; rfl), List.filter_nil]
  unfold Die.neap
  rw [hscope, hn, List.filter_cons_of_neg (by rw [Die.stale_of_neapLeftOut hl]; decide), List.filter_nil]
  simp only [List.foldl_nil, List.foldl_cons, Bool.true_and, List.isEmpty_cons, Bool.not_false, Bool.and_true]

theorem Die.neapMay_of_drift (hs : d.arrState t a = asServing) (hd : d.driftTrigger t a = true) : d.neapMay t a = true := by
  unfold Die.neapMay Die.ownTrigger
  rw [hd, hs]
  simp

end Sys2Proof.Machine
end

section
/-! SUPPORT. An accepted and a rejected neap calibration, and the alignment of the estimates (R289, R291, R292, R294). -/
namespace Sys2Proof.Machine
variable {d e : Die} {t a n : Nat}

/-! ### Accepted or rejected (R292, R294) -/

theorem Die.neapOne_of_values {r : SpringRec} {avg : Int} (hs : (d.cal t a).spring = some r) (hg : (d.cal t a).rgAvg = some avg)
    (hpos : 0 < avg) {v : List Int × List Int × Int × Bool}
    (hv : neapValues (d.cal t a) r (arrIx t a) (d.estimate t) avg d.upkeep.set.neapRes = v) :
    d.neapOne t a = if d.neapReason t a v.1 v.2.1 v.2.2.1 v.2.2.2 = 0 then (d.neapAccept t a v.1 v.2.1 v.2.2.1 avg, true)
      else (d.neapReject t a (d.neapReason t a v.1 v.2.1 v.2.2.1 v.2.2.2) v.1 v.2.2.1, false) := by
  unfold Die.neapOne
  dsimp only
  rw [hs, hg]
  dsimp only
  rw [if_neg (Int.not_le.2 hpos), hv]

theorem Die.writeOffsets_sameMem (d : Die) (t a : Nat) (trims residuals : List Int) : SameMem d (d.writeOffsets t a trims residuals) :=
  SameMem.foldl d (fun e _ c => (Die.putW_byteAt _ _ _ c).trans (e.putW_byteAt _ _ c)) _

theorem Die.neapAccept_effect (d : Die) (t a : Nat) (tgt res : List Int) (gain avg : Int) :
    (d.neapAccept t a tgt res gain avg).get (Reg.CAL_GAIN_TGT t a) = enc 8 gain ∧
    (d.neapAccept t a tgt res gain avg).get (Reg.CAL_QF_REJECTS t a) = 0 ∧
    ((d.neapAccept t a tgt res gain avg).cal t a).rgAccepted = avg ∧ ((d.neapAccept t a tgt res gain avg).cal t a).neapDue = false ∧
    SameMem d (d.neapAccept t a tgt res gain avg) := by
  have hmem := d.writeOffsets_sameMem t a tgt res
  have hqf : (Reg.CAL_QF_REJECTS t a).addr ≠ (Reg.SND_CFG_SPREAD t a).addr := by
    simp only [Reg.CAL_QF_REJECTS, Reg.SND_CFG_SPREAD, Reg.CAL_QF, Reg.SND_CFG]
    omega
  have hgain : (Reg.CAL_GAIN_TGT t a).addr ≠ (Reg.SND_CFG_SPREAD t a).addr ∧
      (Reg.CAL_GAIN_TGT t a).addr ≠ (Reg.CAL_QF_REJECTS t a).addr := by
    simp only [Reg.CAL_QF_REJECTS, Reg.SND_CFG_SPREAD, Reg.CAL_GAIN_TGT, Reg.CAL_QF, Reg.SND_CFG, Reg.CAL_GAIN]
    omega
  unfold Die.neapAccept
  generalize d.writeOffsets t a tgt res = e at hmem
  dsimp only
  refine ⟨?_, ?_, ?_, ?_, fun c => ?_⟩
  · rw [Die.modCal_get, Die.get_put_addr _ _ _ _ hgain.1, Die.clear_eq, Die.get_put_addr _ _ _ _ hgain.2,
      Die.get_put_same _ (Reg.CAL_GAIN_TGT t a) _ (Nat.le_of_ble_eq_true rfl)]
    exact Nat.mod_eq_of_lt (enc_lt 8 gain)
  · rw [Die.modCal_get, Die.get_put_addr _ _ _ _ hqf, Die.clear_eq,
      Die.get_put_same _ (Reg.CAL_QF_REJECTS t a) _ (Nat.le_of_ble_eq_true rfl), Nat.zero_mod]
  · rw [Die.cal_modCal_same]
  · rw [Die.cal_modCal_same]
  · rw [Die.modCal_byteAt, Die.put_byteAt, Die.clear_eq, Die.put_byteAt, Die.put_byteAt]
    exact hmem c

theorem Die.neapReject_eq (hr : d.get (Reg.CAL_QF_REJECTS t a) < 2) (reason : Nat) (tgt : List Int) (gain : Int) :
    ∃ r : Report, r.kind = 3 ∧ d.neapReject t a reason tgt gain =
      ((d.put (Reg.CAL_QF_REJECTS t a) (d.get (Reg.CAL_QF_REJECTS t a) + 1)).report r).modCal t a
        (fun c => { c with neapDue := false }) := by
  have hn : min 3 (d.get (Reg.CAL_QF_REJECTS t a) + 1) = d.get (Reg.CAL_QF_REJECTS t a) + 1 := by omega
  unfold Die.neapReject
  dsimp only
  rw [hn, if_neg (by omega)]
  exact ⟨_, rfl, rfl⟩

theorem not_mem_reportRegs {c : Nat} (h : tileAddr t ≤ c) : c ∉ Reg.MON_STATUS :: logRegs := by
  refine fun hm => (List.mem_cons.1 hm).elim (fun hc => ?_) (not_mem_logRegs h)
  subst hc
  revert h
  unfold Reg.MON_STATUS tileAddr
  omega

/-- A rejected calibration that is not the third in a row is counted and reported (R292). -/
theorem Die.neapReject_effect (hr : d.get (Reg.CAL_QF_REJECTS t a) < 2) (reason : Nat) (tgt : List Int) (gain : Int) :
    Reported 3 d (d.neapReject t a reason tgt gain) ∧
    (d.neapReject t a reason tgt gain).get (Reg.CAL_QF_REJECTS t a) = d.get (Reg.CAL_QF_REJECTS t a) + 1 ∧
    (d.neapReject t a reason tgt gain).getW (Reg.CAL_GAIN t a) = d.getW (Reg.CAL_GAIN t a) ∧
    ((d.neapReject t a reason tgt gain).cal t a).neapDue = false ∧ SameMem d (d.neapReject t a reason tgt gain) := by
  have harr := tileAddr_le_arrAddr t a
  have hqf : Reg.CAL_QF t a ∉ Reg.MON_STATUS :: logRegs := not_mem_reportRegs (t := t) (harr.trans (Nat.le_add_right _ _))
  have hgain : Reg.CAL_GAIN t a ∉ Reg.MON_STATUS :: logRegs := not_mem_reportRegs (t := t) (harr.trans (Nat.le_add_right _ _))
  have hne : Reg.CAL_GAIN t a ≠ Reg.CAL_QF t a := by
    unfold Reg.CAL_GAIN Reg.CAL_QF
    omega
  obtain ⟨r, hkind, heq⟩ := Die.neapReject_eq hr reason tgt gain
  have hmade := Die.report_made (d.put (Reg.CAL_QF_REJECTS t a) (d.get (Reg.CAL_QF_REJECTS t a) + 1)) (r := r) (by rw [hkind]; decide)
  rw [hkind] at hmade
  rw [heq]
  refine ⟨hmade.reported.frame (d' := d) ⟨by rw [Die.put_upkeep], by rw [Die.put_upkeep]⟩ rfl, ?_, ?_, ?_, fun c => ?_⟩
  · rw [Die.modCal_get, hmade.moves.regs.get hqf, Die.get_put_same _ (Reg.CAL_QF_REJECTS t a) _ (Nat.le_of_ble_eq_true rfl)]
    exact Nat.mod_eq_of_lt (show _ < 16 by omega)
  · rw [Die.modCal_getW, hmade.moves.regs _ hgain]
    exact Die.getW_putW_ne _ _ hne
  · rw [Die.cal_modCal_same]
  · rw [Die.modCal_byteAt, hmade.moves.mem c, Die.put_byteAt]

/-! ### The alignment of the estimates (R289, R291) -/

/-- The estimate of a tile brought to the diode's reading. -/
def Die.alignTile (d : Die) (dio : Int) (t : Nat) : Die :=
  match d.tileEst t with
  | none => d
  | some x => (d.setUpkeepTo { d.upkeep with toff := amSet 0 d.upkeep.toff t (amGet 0 d.upkeep.toff t + dio - x) }).setFigures t
      (enc 16 dio) (d.figures t).2

theorem Die.align_eq (d : Die) : d.align =
    (d.enabledTiles.foldl (fun e t => e.alignTile (sx 16 d.diode) t) d).setUpkeepTo
      { (d.enabledTiles.foldl (fun e t => e.alignTile (sx 16 d.diode) t) d).upkeep with
        alignDue := false, alignAsk := false, aligned := true, diodeFresh := false } := rfl

theorem Die.alignTile_moves (d : Die) (dio : Int) (t : Nat) : MovesRegs [Reg.CAL_TILE_TEMP t] d (d.alignTile dio t) := by
  unfold Die.alignTile
  split
  · exact MovesRegs.refl _ d
  · exact (d.setUpkeepTo_moves _ _).trans (Die.setFigures_moves _ _ _ _)

theorem Die.alignTile_est {x : Int} (dio : Int) (h : d.tileEst t = some x) :
    (d.alignTile dio t).get (Reg.CAL_TILE_TEMP_EST t) = enc 16 dio := by
  unfold Die.alignTile
  rw [h]
  exact (Die.setFigures_est _ _ _ _).trans (Nat.mod_eq_of_lt (enc_lt 16 dio))

/-- A tile's estimate rests on its arrays' records, their states and flags, and the tile's own offset. -/
theorem Die.arrTemp_congr (hnv : e.nv = d.nv) (hcal : e.upkeep.cal = d.upkeep.cal)
    (hstate : e.getW (Reg.ARR_STATE t a) = d.getW (Reg.ARR_STATE t a)) (hqf : e.getW (Reg.CAL_QF t a) = d.getW (Reg.CAL_QF t a)) :
    e.arrTemp t a = d.arrTemp t a := by
  have hc : e.cal t a = d.cal t a := by
    unfold Die.cal
    rw [hcal]
  have hs : e.arrState t a = d.arrState t a := by
    unfold Die.arrState Die.enabled
    rw [hnv, Die.get_of_getW (f := Reg.ARR_STATE_STATE t a) hstate]
  have hq : e.on (Reg.CAL_QF_SUSPECT t a) = d.on (Reg.CAL_QF_SUSPECT t a) := by
    unfold Die.on
    rw [Die.get_of_getW (f := Reg.CAL_QF_SUSPECT t a) hqf]
  have hb : e.rgBase t a = d.rgBase t a := by
    unfold Die.rgBase
    rw [hc]
  unfold Die.arrTemp
  rw [hc, hs, hq, hb]

theorem Die.tileEst_congr (hnv : e.nv = d.nv) (hcal : e.upkeep.cal = d.upkeep.cal)
    (htoff : amGet 0 e.upkeep.toff t = amGet 0 d.upkeep.toff t)
    (hregs : ∀ a < 272, e.getW (Reg.ARR_STATE t a) = d.getW (Reg.ARR_STATE t a) ∧ e.getW (Reg.CAL_QF t a) = d.getW (Reg.CAL_QF t a)) :
    e.tileEst t = d.tileEst t := by
  have htemps : (List.range 272).filterMap (fun a => e.arrTemp t a) = (List.range 272).filterMap (fun a => d.arrTemp t a) :=
    List.filterMap_congr fun a ha => by
      obtain ⟨hstate, hqf⟩ := hregs a (List.mem_range.1 ha)
      exact Die.arrTemp_congr hnv hcal hstate hqf
  unfold Die.tileEst
  rw [htemps, htoff]

theorem arrReg_ne_calTileTemp {t m a : Nat} (ha : a < 272) (off : Nat) (h : off < 0x1000) : arrAddr t a + off ≠ Reg.CAL_TILE_TEMP m := by
  unfold arrAddr Reg.CAL_TILE_TEMP tileAddr
  omega

theorem Die.setFigures_nv (d : Die) (t est last : Nat) : (d.setFigures t est last).nv = d.nv := by
  rw [Die.setFigures_eq, Die.putW_nv]
  rfl

theorem Die.setFigures_upkeep (d : Die) (t est last : Nat) :
    (d.setFigures t est last).upkeep = { d.upkeep with figures := keep d.upkeep.figures t (est, last) } := by
  rw [Die.setFigures_eq, Die.putW_upkeep, Die.setUpkeepTo_upkeep]

/-- Aligning one tile leaves the estimate of another. -/
theorem Die.alignTile_tileEst_ne (dio : Int) {m : Nat} (h : n ≠ m) : (d.alignTile dio m).tileEst n = d.tileEst n := by
  have hregs := (d.alignTile_moves dio m).regs
  have hkept : (d.alignTile dio m).nv = d.nv ∧ (d.alignTile dio m).upkeep.cal = d.upkeep.cal ∧
      amGet 0 (d.alignTile dio m).upkeep.toff n = amGet 0 d.upkeep.toff n := by
    unfold Die.alignTile
    split
    · exact ⟨rfl, rfl, rfl⟩
    · rw [Die.setFigures_nv, Die.setFigures_upkeep]
      exact ⟨rfl, rfl, amGet_amSet_ne _ _ _ _ h⟩
  obtain ⟨hnv, hcal, htoff⟩ := hkept
  refine Die.tileEst_congr hnv hcal htoff fun a ha => ⟨hregs _ ?_, hregs _ ?_⟩
  · exact fun hm => arrReg_ne_calTileTemp ha 8 (by decide) (List.mem_singleton.1 hm)
  · exact fun hm => arrReg_ne_calTileTemp ha 0x58c (by decide) (List.mem_singleton.1 hm)

theorem calTileTemp_injective : Function.Injective Reg.CAL_TILE_TEMP := fun m n h => by
  unfold Reg.CAL_TILE_TEMP tileAddr at h
  omega

theorem Die.foldl_alignTile_moves (d : Die) (dio : Int) (l : List Nat) :
    MovesRegs (l.map Reg.CAL_TILE_TEMP) d (l.foldl (fun e t => e.alignTile dio t) d) :=
  MovesRegs.foldl (fun e _ ht => (e.alignTile_moves dio _).mono fun c hc => by
    rw [List.mem_singleton.1 hc]
    exact List.mem_map_of_mem ht) d

/-- Every tile that has an estimate is aligned, whatever tiles are aligned before and after it. -/
theorem Die.foldl_alignTile_est (dio : Int) {l : List Nat} (hl : l.Nodup) (hn : n ∈ l) {x : Int} (d : Die) (hx : d.tileEst n = some x) :
    (l.foldl (fun e t => e.alignTile dio t) d).get (Reg.CAL_TILE_TEMP_EST n) = enc 16 dio := by
  induction l generalizing d with
  | nil => exact absurd hn List.not_mem_nil
  | cons m r ih =>
    obtain ⟨hm, hr⟩ := List.nodup_cons.1 hl
    rw [List.foldl_cons]
    by_cases h : n = m
    · subst h
      have hkept : (Reg.CAL_TILE_TEMP_EST n).addr ∉ r.map Reg.CAL_TILE_TEMP := fun hc => hm (by
        obtain ⟨k, hk, heq⟩ := List.mem_map.1 hc
        rwa [← calTileTemp_injective heq])
      rw [(Die.foldl_alignTile_moves _ dio r).regs.get hkept, Die.alignTile_est dio hx]
    · exact ih hr ((List.mem_cons.1 hn).resolve_left h) _ ((Die.alignTile_tileEst_ne dio h).trans hx)

theorem enc_sx {v : Nat} (h : v < 2 ^ 16) : enc 16 (sx 16 v) = v := by
  unfold enc sx
  split <;> omega

theorem Die.diode_lt (d : Die) : d.diode < 2 ^ 16 := by
  unfold Die.diode
  split
  · exact d.get_lt Reg.THM_DIODE_TEMP
  · decide

theorem Die.align_effect (d : Die) : d.align.upkeep.alignDue = false ∧ d.align.upkeep.aligned = true ∧ SameMem d d.align ∧
    OnlyRegs (d.enabledTiles.map Reg.CAL_TILE_TEMP) d d.align ∧
    ∀ n x, d.enabled n = true → d.tileEst n = some x → d.align.get (Reg.CAL_TILE_TEMP_EST n) = d.diode := by
  obtain ⟨hregs, hmem⟩ := d.foldl_alignTile_moves (sx 16 d.diode) d.enabledTiles
  rw [Die.align_eq]
  refine ⟨rfl, rfl, hmem, hregs, fun n x hen hx => ?_⟩
  have hmem : n ∈ d.enabledTiles := List.mem_filter.2 ⟨List.mem_range.2 (Die.lt_of_enabled hen), hen⟩
  exact (Die.foldl_alignTile_est _ (List.nodup_range.filter _) hmem d hx).trans (enc_sx d.diode_lt)

end Sys2Proof.Machine
end

section
/-! PROOFS. Snapshots, refresh, sounding and repair events keep their rules (R271, R278, R282, R287 to R325). -/
namespace Sys2Proof.Machine

section
variable {d e : Die} {m g n : Nat} {x : RankUse}

/-! ### A repair rank's slot (R324) -/

theorem Die.rankIn_key (h : d.rankIn m g n = some x) : x.matrix = m ∧ x.group = g ∧ x.slot = n := by
  have hkey := List.find?_some h
  simpa [and_assoc] using hkey

/-- Filling a slot moves memory alone. -/
theorem Die.fillSlot_keeps (d : Die) (l : List (Nat × Nat)) (data : List Byte) : (d.fillSlot l data).regs = d.regs ∧
    (d.fillSlot l data).upkeep = d.upkeep ∧ (d.fillSlot l data).serve = d.serve := by
  induction l generalizing d data with
  | nil => exact ⟨rfl, rfl, rfl⟩
  | cons p r ih =>
    obtain ⟨hregs, hupkeep, hserve⟩ := ih (d.setBytes p.1 (data.take p.2)) (data.drop p.2)
    exact ⟨hregs.trans (Die.setBytes_regs _ _ _), hupkeep.trans (Die.setBytes_upkeep _ _ _), hserve.trans (Die.setBytes_serve _ _ _)⟩

theorem Die.fillSlot_byteAt_out {l : List (Nat × Nat)} {c : Nat} (h : ∀ q ∈ l, c < q.1 ∨ q.1 + q.2 ≤ c) (d : Die)
    (data : List Byte) : (d.fillSlot l data).byteAt c = d.byteAt c := by
  induction l generalizing d data with
  | nil => rfl
  | cons p r ih =>
    have hlen := List.length_take_le p.2 data
    have hout : c < p.1 ∨ p.1 + (data.take p.2).length ≤ c := (h p List.mem_cons_self).imp_right (by omega)
    exact (ih (fun q hq => h q (List.mem_cons_of_mem p hq)) _ _).trans (Die.byteAt_setBytes_out _ _ _ _ hout)

/-- A slot of one span holds the data that fit it. -/
theorem Die.fillSlot_single (d : Die) (p : Nat × Nat) {data : List Byte} (h : data.length = p.2) :
    (d.fillSlot [p] data).bytesAt p.1 p.2 = data := by
  have hset := d.bytesAt_setBytes p.1 data
  rw [h] at hset
  rwa [show d.fillSlot [p] data = d.setBytes p.1 data by simp only [Die.fillSlot, ← h, List.take_length]]

theorem Die.rankData_length_single {p : Nat × Nat} (h : d.slotSpans x.matrix x.group x.slot = [p]) : (d.rankData x).length = p.2 := by
  unfold Die.rankData
  rw [h]
  simp [zeros]

theorem Die.serveInputs_of_none (h : d.serve.inputs = []) : d.serveInputs = d := by
  unfold Die.serveInputs
  split
  · rfl
  · rw [h, List.foldl_nil]

theorem Die.writeRank_eq (h : d.serve.inputs = []) (x : RankUse) (data : List Byte) : d.writeRank x data =
    (d.fillSlot (d.slotSpans x.matrix x.group x.slot) data).setUpkeepTo { d.upkeep with
      ranks := d.upkeep.ranks.map (fun r => if r = x then { x with written := true } else r) } := by
  obtain ⟨-, hupkeep, hserve⟩ := d.fillSlot_keeps (d.slotSpans x.matrix x.group x.slot) data
  unfold Die.writeRank
  generalize d.fillSlot (d.slotSpans x.matrix x.group x.slot) data = e at hupkeep hserve
  dsimp only
  rw [hupkeep]
  refine Die.serveInputs_of_none ?_
  rw [← h, ← hserve]

end

/-! ### The operations -/

section
variable {d : Die} {t a : Nat}

theorem Die.refreshDue_eq (d : Die) (t l a : Nat) (drift : Bool) (age : Nat) : d.refreshDue t l a drift age =
    d.addDue { tile := t, logical := l, byDrift := drift, fall := d.drift t a, age := age } := rfl

theorem Die.refreshDue_effect {l x : Nat} (hx : d.serving t l = some x) (drift : Bool) (age : Nat) :
    SameMem d (d.refreshDue t l ((d.serving t l).getD 0) drift age) ∧
    (d.refreshDue t l ((d.serving t l).getD 0) drift age).upkeep.due =
      insertDue (d.upkeep.due.filter (fun y => !(y.tile == t && y.logical == l)))
        { tile := t, logical := l, byDrift := drift, fall := d.drift t x, age := age } ∧
    ((d.pool t).isEmpty = false ∨ d.windowCovers t l = true → (d.refreshDue t l ((d.serving t l).getD 0) drift age).regs = d.regs) ∧
    ((d.pool t).isEmpty = true → d.windowCovers t l = false → look d.upkeep.deferred (256 * t + l) = none →
      Recorded 0x12 2 t x d (d.refreshDue t l ((d.serving t l).getD 0) drift age) ∧
      look (d.refreshDue t l ((d.serving t l).getD 0) drift age).upkeep.deferred (256 * t + l) = some (d.now / 1000000000) ∧
      OnlyRegs logRegs d (d.refreshDue t l ((d.serving t l).getD 0) drift age)) := by
  rw [hx, Option.getD_some, Die.refreshDue_eq]
  obtain ⟨hdue, hmoves⟩ := d.addDue_keeps { tile := t, logical := l, byDrift := drift, fall := d.drift t x, age := age }
  refine ⟨hmoves.mem, hdue, fun h => Die.addDue_regs_of_open h, fun hp hw hd => ?_⟩
  obtain ⟨hrec, hlook⟩ := Die.addDue_deferred
    (x := { tile := t, logical := l, byDrift := drift, fall := d.drift t x, age := age }) hp hw hd
  rw [hx] at hrec
  exact ⟨hrec, hlook, hmoves.regs⟩

theorem Die.overdue_effect (hdeg : d.upkeep.set.degraded = false) (t l : Nat) :
    ((d.raise (Reg.TILE_SPARE_OVERDUE t)).exhausted t l (d.serving t l) 9).get (Reg.TILE_SPARE_OVERDUE t) = 1 ∧
    Reported 9 d ((d.raise (Reg.TILE_SPARE_OVERDUE t)).exhausted t l (d.serving t l) 9) ∧
    SameMem d ((d.raise (Reg.TILE_SPARE_OVERDUE t)).exhausted t l (d.serving t l) 9) := by
  rw [Die.raise_eq]
  obtain ⟨r, hkind, heq⟩ := Die.exhausted_stops (d := d.put (Reg.TILE_SPARE_OVERDUE t) 1) (kind := 9) (by decide)
    (by rwa [Die.put_upkeep]) t l (d.serving t l)
  have hmade := Die.report_made (d.put (Reg.TILE_SPARE_OVERDUE t) 1) (r := r) (by rw [hkind]; decide)
  obtain ⟨hup, hmoves⟩ := Die.stopNowFw_stops ((d.put (Reg.TILE_SPARE_OVERDUE t) 1).report r)
  rw [hkind] at hmade
  rw [heq]
  refine ⟨?_, hmade.reported.frame ⟨by rw [Die.put_upkeep], by rw [Die.put_upkeep]⟩ (by rw [hup]), fun c => ?_⟩
  · rw [hmoves.regs.get (tileSpare_not_mem_stopRegs t), hmade.moves.regs.get (tileSpare_not_mem t),
      Die.get_put_same _ (Reg.TILE_SPARE_OVERDUE t) _ (Nat.le_of_ble_eq_true rfl)]
    rfl
  · rw [hmoves.mem, hmade.moves.mem, Die.put_byteAt]

/-- The report of a calibration whose reference stroke is too old (R287). -/
def Die.staleReport (d : Die) (t a : Nat) : Report :=
  { kind := 11, tile := t, phys := a, logical := (d.mappedTo t a).getD 0, matrix := d.matrixAt t a }

theorem Die.refStale_effect (d : Die) (t a : Nat) :
    ((d.modCal t a (fun c => { c with stale := true })).report (d.staleReport t a)).cal t a = { d.cal t a with stale := true } ∧
    Reported 11 d ((d.modCal t a (fun c => { c with stale := true })).report (d.staleReport t a)) ∧
    SameMem d ((d.modCal t a (fun c => { c with stale := true })).report (d.staleReport t a)) := by
  have hmade : ReportMade 11 _ _ := Die.report_made (d.modCal t a (fun c => { c with stale := true })) (r := d.staleReport t a)
    (show 11 < 256 by decide)
  exact ⟨(hmade.cal_eq t a).trans (Die.cal_modCal_same _ _ _ _), hmade.reported.frame ⟨rfl, rfl⟩ rfl, hmade.moves.mem⟩

theorem Die.neap_effect (ha : a < 272) (htemp : d.tempTrigger t = false) (hdrift : d.driftTrigger t a = true)
    (hleft : d.neapLeftOut t a = false) {r : SpringRec} {avg : Int} (hspring : (d.cal t a).spring = some r)
    (havg : (d.cal t a).rgAvg = some avg) (hpos : 0 < avg) {v : List Int × List Int × Int × Bool}
    (hv : neapValues (d.cal t a) r (arrIx t a) (d.estimate t) avg d.upkeep.set.neapRes = v) :
    (d.neapReason t a v.1 v.2.1 v.2.2.1 v.2.2.2 = 0 → (d.neap t a).get (Reg.CAL_GAIN_TGT t a) = enc 8 v.2.2.1 ∧
      (d.neap t a).get (Reg.CAL_QF_REJECTS t a) = 0 ∧ ((d.neap t a).cal t a).rgAccepted = avg ∧
      ((d.neap t a).cal t a).neapDue = false ∧ (d.neap t a).get (Reg.CAL_TILE_TEMP_LASTCAL t) = enc 16 (d.estimate t) ∧
      SameMem d (d.neap t a)) ∧
    (d.neapReason t a v.1 v.2.1 v.2.2.1 v.2.2.2 ≠ 0 → d.get (Reg.CAL_QF_REJECTS t a) < 2 → Reported 3 d (d.neap t a) ∧
      (d.neap t a).get (Reg.CAL_QF_REJECTS t a) = d.get (Reg.CAL_QF_REJECTS t a) + 1 ∧
      (d.neap t a).getW (Reg.CAL_GAIN t a) = d.getW (Reg.CAL_GAIN t a) ∧ ((d.neap t a).cal t a).neapDue = false ∧
      SameMem d (d.neap t a)) := by
  have hone := Die.neapOne_of_values hspring havg hpos hv
  rw [Die.neap_of_single (Die.neapNamed_single htemp hdrift (by rw [hspring]; rfl) ha) hleft]
  refine ⟨fun hzero => ?_, fun hbad hfew => ?_⟩
  · rw [if_pos hzero] at hone
    rw [hone, if_pos rfl]
    obtain ⟨hgain, hrejects, haccepted, hdue, hmem⟩ := d.neapAccept_effect t a v.1 v.2.1 v.2.2.1 avg
    generalize d.neapAccept t a v.1 v.2.1 v.2.2.1 avg = e at hgain hrejects haccepted hdue hmem
    obtain ⟨hregs, hkept⟩ := e.setFigures_moves t (d.figures t).1 (enc 16 (d.estimate t))
    have hcal : (e.setFigures t (d.figures t).1 (enc 16 (d.estimate t))).cal t a = e.cal t a := by
      unfold Die.cal
      rw [Die.setFigures_upkeep]
    refine ⟨?_, ?_, ?_, ?_, ?_, fun c => (hkept c).trans (hmem c)⟩
    · rw [hregs.get (fun h => arrReg_ne_calTileTemp ha 0x580 (by decide) (List.mem_singleton.1 h)), hgain]
    · rw [hregs.get (fun h => arrReg_ne_calTileTemp ha 0x58c (by decide) (List.mem_singleton.1 h)), hrejects]
    · rw [hcal, haccepted]
    · rw [hcal, hdue]
    · rw [Die.setFigures_last]
      exact Nat.mod_eq_of_lt (enc_lt 16 _)
  · rw [if_neg hbad] at hone
    rw [hone, if_neg Bool.false_ne_true]
    exact Die.neapReject_effect hfew _ _ _

theorem Die.writeRank_effect {m g n : Nat} {x : RankUse} (hin : d.serve.inputs = []) (hx : d.rankIn m g n = some x) :
    (d.writeRank x (d.rankData x)).regs = d.regs ∧ (d.writeRank x (d.rankData x)).upkeep = { d.upkeep with
      ranks := d.upkeep.ranks.map (fun r => if r = x then { x with written := true } else r) } ∧
    (∀ p, d.slotSpans m g n = [p] → (d.writeRank x (d.rankData x)).bytesAt p.1 p.2 = d.rankData x) ∧
    ∀ c, (∀ q ∈ d.slotSpans m g n, c < q.1 ∨ q.1 + q.2 ≤ c) → (d.writeRank x (d.rankData x)).byteAt c = d.byteAt c := by
  obtain ⟨rfl, rfl, rfl⟩ := Die.rankIn_key hx
  rw [Die.writeRank_eq hin]
  refine ⟨(d.fillSlot_keeps _ _).1, rfl, fun p hp => ?_, fun c hc => Die.fillSlot_byteAt_out hc _ _⟩
  rw [hp]
  exact d.fillSlot_single p (Die.rankData_length_single hp)

end

/-! ### The commands -/

theorem mainCmd_not {ok : Die → Bool} {f : Die → Die} {s : State} (h : ok s.die = false) : mainCmd ok f s = .next s :=
  dieCmd_not (by rw [h, Bool.and_false])

section
variable {s : State} {t a l : Nat} (hl : s.die.live = true) (hf : s.die.fwRuns = true)
include hl

theorem exec_calSnap (ha : a < 272) {ag : Agent} (hw : s.die.tileWrite ag t = true) :
    exec (.calSnap ag t a) s = .next { s with die := s.die.calSnap ag t a } := tileCmd_ok hl hw (by simpa using ha)

theorem exec_sndCntClr {ag : Agent} (hw : s.die.tileWrite ag t = true) :
    exec (.sndCntClr ag t) s = .next { s with die := (s.die.raise (Reg.SND_TILE_CTRL_CNT_CLR t)).answer ag stOk } :=
  tileCmd_ok hl hw rfl

include hf

theorem exec_refreshDue (he : s.die.enabled t = true) (hlog : l < 256) {byDrift : Bool} {age : Nat}
    (hd : s.die.isDue t l byDrift age = true) :
    exec (.refreshDue t l byDrift age) s = .next { s with
      die := s.die.refreshDue t l ((s.die.serving t l).getD 0) byDrift age } :=
  mainCmd_ok (ok := fun d => d.fwRuns && d.enabled t && decide (l < 256) && d.isDue t l byDrift age)
    (f := fun d => d.refreshDue t l ((d.serving t l).getD 0) byDrift age) hl (by simp [hf, he, hlog, hd])

theorem exec_refreshOverdue (he : s.die.enabled t = true) (hlog : l < 256) (ho : s.die.overdue t l = true) :
    exec (.refreshOverdue t l) s = .next { s with
      die := (s.die.raise (Reg.TILE_SPARE_OVERDUE t)).exhausted t l (s.die.serving t l) 9 } :=
  mainCmd_ok (ok := fun d => d.fwRuns && d.overdue t l && decide (l < 256) && d.enabled t)
    (f := fun d => (d.raise (Reg.TILE_SPARE_OVERDUE t)).exhausted t l (d.serving t l) 9) hl (by simp [hf, he, hlog, ho])

omit hl hf in
theorem exec_refreshOverdue_early (ho : s.die.overdue t l = false) : exec (.refreshOverdue t l) s = .next s :=
  mainCmd_not (ok := fun d => d.fwRuns && d.overdue t l && decide (l < 256) && d.enabled t)
    (f := fun d => (d.raise (Reg.TILE_SPARE_OVERDUE t)).exhausted t l (d.serving t l) 9) (by simp [ho])

theorem exec_refStale (he : s.die.enabled t = true) (ha : a < 272)
    (hstate : s.die.arrState t a = asServing ∨ s.die.arrState t a = asReady)
    (hstale : (s.die.cal t a).stale = false) (hage : (s.die.cal t a).lastRef + 65536 ≤ s.die.tideNum) :
    exec (.refStale t a) s = .next { s with
      die := (s.die.modCal t a (fun c => { c with stale := true })).report (s.die.staleReport t a) } :=
  mainCmd_ok (ok := fun d => d.fwRuns && d.enabled t && decide (a < 272) && (d.arrState t a == asServing || d.arrState t a == asReady) &&
      !(d.cal t a).stale && decide ((d.cal t a).lastRef + 65536 ≤ d.tideNum))
    (f := fun d => (d.modCal t a (fun c => { c with stale := true })).report (d.staleReport t a)) hl
    (by simp [hf, he, ha, hstale, hage, hstate])

theorem exec_watchExpiry (he : s.die.enabled t = true) (ha : a < 272) (hw : s.die.watchOver t a = true) :
    exec (.watchExpiry t a) s = .next { s with die := s.die.endWatch t a } :=
  mainCmd_ok (ok := fun d => d.fwRuns && d.enabled t && decide (a < 272) && d.watchOver t a) (f := fun d => d.endWatch t a) hl
    (by simp [hf, he, ha, hw])

theorem exec_tileEstimate (hr : s.die.tileRuns t = true) : exec (.tileEstimate t) s = .next { s with die := s.die.tileEstimate t } :=
  mainCmd_ok (ok := fun d => d.fwRuns && d.tileRuns t) (f := fun d => d.tileEstimate t) hl (by simp [hf, hr])

theorem exec_neapTrigger (hr : s.die.tileRuns t = true) (ha : a < 272) (hm : s.die.neapMay t a = true) :
    exec (.neapTrigger t a) s = .next { s with die := s.die.neap t a } :=
  mainCmd_ok (ok := fun d => d.fwRuns && d.tileRuns t && decide (a < 272) && d.neapMay t a) (f := fun d => d.neap t a) hl
    (by simp [hf, hr, ha, hm])

theorem exec_tempAlign (harm : s.die.armed = false) (ho : s.die.alignOpen = true) (hfresh : s.die.upkeep.diodeFresh = true) :
    exec .tempAlign s = .next { s with die := s.die.align } :=
  mainCmd_ok (ok := fun d => d.fwRuns && !d.armed && d.alignOpen && d.upkeep.diodeFresh) (f := fun d => d.align) hl
    (by simp [hf, harm, ho, hfresh])

theorem exec_repairRankWrite {m g n : Nat} {x : RankUse} (hfull : s.die.outsFull = true) (hx : s.die.rankIn m g n = some x)
    (hdue : s.die.rankDue x = true) :
    exec (.repairRankWrite m g n (s.die.rankData x)) s = .next { s with die := s.die.writeRank x (s.die.rankData x) } := by
  have hexec : exec (.repairRankWrite m g n (s.die.rankData x)) s = execRepairRankWrite m g n (s.die.rankData x) s := rfl
  rw [hexec, execRepairRankWrite, mainCmd_ok hl (by simp [hf, hfull, hx, hdue]), hx]

omit hl hf in
theorem exec_repairRankWrite_other {m g n : Nat} {x : RankUse} {data : List Byte} (hx : s.die.rankIn m g n = some x)
    (hdata : data ≠ s.die.rankData x) : exec (.repairRankWrite m g n data) s = .next s := by
  have hexec : exec (.repairRankWrite m g n data) s = execRepairRankWrite m g n data s := rfl
  rw [hexec, execRepairRankWrite]
  exact mainCmd_not (by simp [hx, hdata])

end

/-- Settles O43: each command is one operation of the firmware, and what that operation does is stated of the die alone. -/
theorem calibrationEventsKeepTheirRules : Obligations.CalibrationEventsKeepTheirRules := by
  intro s t a hl ha
  refine ⟨fun ag hw => ⟨fun hbar => ⟨_, exec_calSnap hl ha hw, Die.calSnap_barred_effect hbar ag⟩,
      fun hfree => ⟨_, exec_calSnap hl ha hw, ?snap⟩,
      _, exec_sndCntClr hl hw, ?clear⟩,
    fun hf he => ⟨fun l x drift age hlog hdue hx => ⟨_, exec_refreshDue hl hf he hlog hdue, ?due⟩,
      fun l _ ho => exec_refreshOverdue_early ho, fun l hlog ho hdeg => ⟨_, exec_refreshOverdue hl hf he hlog ho, ?overdue⟩,
      fun hstate hstale hage => ⟨_, exec_refStale hl hf he ha hstate hstale hage, ?stale⟩,
      fun w hw hend hcond => ⟨_, exec_watchExpiry hl hf he ha ?expired, Die.endWatch_effect hw⟩⟩,
    fun hf hr => ⟨⟨_, exec_tileEstimate hl hf hr, ?estimate⟩,
      fun r avg v hserv htemp hdrift hleft hspring havg hpos hv => ?neap⟩,
    fun hf harm ho hfresh => ⟨_, exec_tempAlign hl hf harm ho hfresh, s.die.align_effect⟩,
    fun m g n x data _ hx hdata => exec_repairRankWrite_other hx hdata,
    fun m g n x data hf hfull hx hdue hdata hin => ?rank,
    fun l drift age hf he hlog hdue => exec_refreshDue hl hf he hlog hdue,
    fun l hf ho hlog he => exec_refreshOverdue hl hf he hlog ho,
    fun hf hr hm => exec_neapTrigger hl hf hr ha hm,
    fun hf he hw => exec_watchExpiry hl hf he ha hw,
    fun m g n x hf hfull hx hdue => exec_repairRankWrite hl hf hfull hx hdue⟩
  case snap =>
    obtain ⟨hget, hregs, hmem, hother⟩ := s.die.raise_answer_effect (Reg.CAL_CTRL_SNAP t a) ag stOk rfl (Nat.le_of_ble_eq_true rfl)
    rw [Die.calSnap_of_free hfree]
    exact ⟨hget, hother, hregs, hmem⟩
  case clear =>
    obtain ⟨hget, hregs, hmem, hother⟩ := s.die.raise_answer_effect (Reg.SND_TILE_CTRL_CNT_CLR t) ag stOk rfl
      (Nat.le_of_ble_eq_true rfl)
    exact ⟨hget, hother, hregs, hmem⟩
  case due => exact Die.refreshDue_effect hx drift age
  case overdue => exact Die.overdue_effect hdeg t l
  case stale => exact Die.refStale_effect s.die t a
  case expired =>
    unfold Die.watchOver
    rw [hw]
    simp [hend, hcond]
  case estimate => exact s.die.tileEstimate_effect t
  case neap =>
    obtain ⟨haccept, hreject⟩ := Die.neap_effect ha htemp hdrift hleft hspring havg hpos hv
    have hexec := exec_neapTrigger hl hf hr ha (Die.neapMay_of_drift hserv hdrift)
    exact ⟨fun hzero => ⟨_, hexec, haccept hzero⟩, fun hbad hfew => ⟨_, hexec, hreject hbad hfew⟩⟩
  case rank =>
    subst hdata
    exact ⟨_, exec_repairRankWrite hl hf hfull hx hdue, Die.writeRank_effect hin hx⟩

end Sys2Proof.Machine
end

section
/-! SUPPORT. What the upkeep commands of the mailbox do to the die (R292, R299, R306, R315, R324, R326). -/
namespace Sys2Proof.Machine
variable {d : Die} {box t a l : Nat}

/-! ### Settings for the next boundary (R326) -/

section
variable (h : d.boxReady box = true)
include h

/-- A settings command keeps its values for the next boundary, or refuses them with RANGE. -/
theorem Die.ranged_setUpkeep_effect (ok : Bool) (f : UpkeepSet → UpkeepSet) :
    Replied box (if ok then rcOk else rcRange) [] (d.ranged box ok (fun e => e.setUpkeep f)) ∧
    (d.ranged box ok (fun e => e.setUpkeep f)).regs = d.regs ∧
    (d.ranged box ok (fun e => e.setUpkeep f)).upkeep =
      (if ok then { d.upkeep with next := f d.upkeep.next } else d.upkeep) ∧
    SameMem d (d.ranged box ok (fun e => e.setUpkeep f)) := by
  cases ok with
  | false => exact ⟨replied_reply h _ _, rfl, rfl, fun _ => rfl⟩
  | true => exact ⟨Replied.ofBoxes (e := d.setUpkeep f) h rfl _ _, rfl, rfl, fun _ => rfl⟩

/-- The same reply, beside which bytes go to OUT_ADDR. -/
theorem replied_replyOut (code : Nat) (bs os : List Byte) : Replied box code bs (d.replyOut box code bs os) := by
  unfold Replied Die.replyOut
  rw [Die.box_setBox_same]
  exact ⟨rfl, boxReady_busy h⟩

end

/-! ### The tiles and arrays a command names (R294, R299) -/

theorem Die.tilesOf_some (he : d.enabled t = true) : d.tilesOf (some t) = [t] := if_pos he

theorem Die.scopeOk_array (he : d.enabled t = true) (ha : a < 272) : d.scopeOk (.array t a) = true := by
  simp [Die.scopeOk, he, ha]

theorem Die.scopeOk_disabled (he : d.enabled t = false) : d.scopeOk (.array t a) = false := by
  simp [Die.scopeOk, he]

theorem Die.calTargets_array (he : d.enabled t = true) (ha : a < 272) (hs : d.arrState t a = asServing) :
    d.calTargets (.array t a) = [(t, a)] := by
  simp [Die.calTargets, he, ha, hs]

/-! ### CAL_REQUEST (R292, R326) -/

theorem Die.calRequest_neap_eq (d : Die) (box : Nat) (sc : CalScope) : d.calRequest box (.neap sc) =
    if d.scopeOk sc then ((d.calTargets sc).foldl (fun g p => g.modCal p.1 p.2 (fun c => { c with neapDue := true })) d).reply box rcOk []
    else d.reply box rcRange [] := rfl

theorem Die.calRequest_spring_eq (d : Die) (box : Nat) (sc : CalScope) : d.calRequest box (.spring sc) =
    if d.scopeOk sc then ((d.calTargets sc).foldl (fun g p => g.springDue p.1 p.2 false) d).reply box rcOk []
    else d.reply box rcRange [] := rfl

theorem Die.calRequest_neap_serving (he : d.enabled t = true) (ha : a < 272) (hs : d.arrState t a = asServing) :
    d.calRequest box (.neap (.array t a)) = (d.modCal t a (fun c => { c with neapDue := true })).reply box rcOk [] := by
  rw [Die.calRequest_neap_eq, if_pos (Die.scopeOk_array he ha), Die.calTargets_array he ha hs]
  rfl

theorem Die.calRequest_spring_serving (he : d.enabled t = true) (ha : a < 272) (hs : d.arrState t a = asServing) :
    d.calRequest box (.spring (.array t a)) = (d.springDue t a false).reply box rcOk [] := by
  rw [Die.calRequest_spring_eq, if_pos (Die.scopeOk_array he ha), Die.calTargets_array he ha hs]
  rfl

theorem Die.calRequest_neap_disabled (he : d.enabled t = false) :
    d.calRequest box (.neap (.array t a)) = d.reply box rcRange [] := by
  rw [Die.calRequest_neap_eq, Die.scopeOk_disabled he]
  rfl

theorem Die.calRequest_diode_armed (h : d.armed = true) : d.calRequest box .diode = d.reply box rcBusy [] := if_pos h

/-! ### A spring calibration asked for joins the refresh queue (R299) -/

/-- The queue is as it was, or the array's entry has joined it. -/
theorem Die.springDue_cases (d : Die) (t a : Nat) (suspect : Bool) : d.springDue t a suspect = d ∨
    ∃ x : Due, x.tile = t ∧ d.mappedTo t a = some x.logical ∧ d.springDue t a suspect = d.addDue x := by
  unfold Die.springDue
  cases d.mappedTo t a with
  | none => exact .inl rfl
  | some l =>
    dsimp only
    split
    · exact .inl rfl
    · exact .inr ⟨_, rfl, rfl, rfl⟩

theorem Die.deferDue_boxes (d : Die) (t l : Nat) : (d.deferDue t l).host.boxes = d.host.boxes := by
  unfold Die.deferDue
  split
  · split
    · rfl
    · exact Die.record_boxes _ _ _ _ _ _
  · rfl

theorem Die.springDue_boxes (d : Die) (t a : Nat) (suspect : Bool) : (d.springDue t a suspect).host.boxes = d.host.boxes := by
  obtain h | ⟨x, -, -, h⟩ := d.springDue_cases t a suspect
  · rw [h]
  · rw [h, Die.addDue_eq]
    exact Die.deferDue_boxes _ _ _

/-- With a free array or a window that covers it, the array joins the queue without a record. -/
theorem Die.springDue_regs_of_open (hl : d.mappedTo t a = some l)
    (hopen : (d.pool t).isEmpty = false ∨ d.windowCovers t l = true) (suspect : Bool) :
    (d.springDue t a suspect).regs = d.regs := by
  obtain h | ⟨x, htile, hmap, h⟩ := d.springDue_cases t a suspect
  · rw [h]
  · have hlogical : x.logical = l := Option.some.inj (hmap.symm.trans hl)
    rw [h]
    exact Die.addDue_regs_of_open (by rwa [htile, hlogical])

/-! ### UPKEEP_STATUS (R326; log entry 33) -/

theorem Die.enabledTiles_length_le (d : Die) : d.enabledTiles.length ≤ 64 :=
  (List.length_filter_le _ _).trans_eq List.length_range

/-- The answer is twelve bytes, the number of enabled tiles first, and the rest goes to OUT_ADDR. -/
theorem Die.upkeepStatus_answer (d : Die) (box : Nat) (arrays reports : Bool) : ∃ bs os : List Byte,
    d.upkeepStatus box arrays reports = d.replyOut box rcOk bs os ∧ bs.length = 12 ∧
    leAt bs 0 4 = d.enabledTiles.length := by
  refine ⟨_, _, rfl, ?_, ?_⟩
  · simp only [List.length_append, natLe_length]
  · rw [List.append_assoc, leAt_natLe_front]
    exact Nat.mod_eq_of_lt (d.enabledTiles_length_le.trans_lt (by decide))

/-! ### REPAIR_SLOTS (R324, R326) -/

/-- The slots lie in ranges that exist. -/
def slotsOk (l : List RepairSlot) : Bool :=
  l.all (fun x => decide (x.slots ≤ 4) && decide (x.tile < 64) && decide (x.region < 255))

theorem slotsOk_iff (l : List RepairSlot) : slotsOk l = true ↔ ∀ x ∈ l, x.slots ≤ 4 ∧ x.tile < 64 ∧ x.region < 255 := by
  simp [slotsOk, and_assoc]

/-- The repair slots that the host names, beside the row groups of the loaded table. -/
def Die.placeSlots (d : Die) (l : List RepairSlot) : Die :=
  d.setUpkeepTo { d.upkeep with
    slots := l, groups := match d.tide.table with | some tb => d.rowGroups tb | none => [] }

end Sys2Proof.Machine
end

section
/-! PROOFS. The upkeep commands (R292, R306, R315, R326). -/
namespace Sys2Proof.Machine

/-! ### The commands run in a box that is ready -/

section
variable {s : State} {box : Nat} (h : s.die.boxReady box = true)
include h

theorem exec_calCfg (neapTrig10 neapRes qfLim springDist : Nat) :
    exec (.calCfg box neapTrig10 neapRes qfLim springDist) s = .next { s with
      die := s.die.ranged box (inR 5 100 neapTrig10 && inR 2 64 neapRes && inR 2 32 qfLim && inR 10 60 springDist)
        (fun e => e.setUpkeep (fun u => { u with
          neapTrig10 := neapTrig10, neapRes := neapRes, qfLim := qfLim, springDist := springDist })) } := by
  show execCalCfg box neapTrig10 neapRes qfLim springDist s = _
  unfold execCalCfg
  rw [fwCmd_ok h]

theorem exec_refreshCfg (drift10 hours : Nat) :
    exec (.refreshCfg box drift10 hours) s = .next { s with
      die := s.die.ranged box (inR 10 100 drift10 && inR 1 168 hours)
        (fun e => e.setUpkeep (fun u => { u with drift10 := drift10, hours := hours })) } := by
  show execRefreshCfg box drift10 hours s = _
  unfold execRefreshCfg
  rw [fwCmd_ok h]

theorem exec_upkeepPolicy (degraded : Bool) (repairLim100 : Nat) :
    exec (.upkeepPolicy box degraded repairLim100) s = .next { s with
      die := s.die.ranged box (inR 10 500 repairLim100)
        (fun e => e.setUpkeep (fun u => { u with degraded := degraded, repairLim100 := repairLim100 })) } := by
  show execUpkeepPolicy box degraded repairLim100 s = _
  unfold execUpkeepPolicy
  rw [fwCmd_ok h]

theorem exec_soundCfg (tile : Option Nat) (frac k4 sysGain offAllow seed : Nat) :
    exec (.soundCfg box tile frac k4 sysGain offAllow seed) s = .next { s with
      die := s.die.ranged box (!(s.die.tilesOf tile).isEmpty && inR 0 5 frac && inR 12 60 k4 && inR 0 255 sysGain &&
          inR 0 15 offAllow && inR 1 (2 ^ 32 - 1) seed)
        (fun e => (e.tilesOf tile).foldl (fun g t => g.soundSet t frac k4 sysGain offAllow seed) e) } := by
  show execSoundCfg box tile frac k4 sysGain offAllow seed s = _
  unfold execSoundCfg
  rw [fwCmd_ok h]

/-- SOUND_CFG of one enabled tile is judged by its values alone. -/
theorem exec_soundCfg_tile {t : Nat} (he : s.die.enabled t = true) (frac k4 sysGain offAllow seed : Nat) :
    exec (.soundCfg box (some t) frac k4 sysGain offAllow seed) s = .next { s with
      die := if inR 0 5 frac && inR 12 60 k4 && inR 0 255 sysGain && inR 0 15 offAllow && inR 1 (2 ^ 32 - 1) seed then
          (s.die.soundSet t frac k4 sysGain offAllow seed).reply box rcOk []
        else s.die.reply box rcRange [] } := by
  rw [exec_soundCfg h]
  unfold Die.ranged
  dsimp only
  rw [Die.tilesOf_some he]
  rfl

theorem exec_calRequest (req : CalReq) :
    exec (.calRequest box req) s = .next { s with die := s.die.calRequest box req } := by
  show execCalRequest box req s = _
  unfold execCalRequest
  rw [fwCmd_ok h]

theorem exec_upkeepStatus (arrays reports : Bool) :
    exec (.upkeepStatus box arrays reports) s = .next { s with die := s.die.upkeepStatus box arrays reports } := by
  show execUpkeepStatus box arrays reports s = _
  unfold execUpkeepStatus
  rw [fwCmd_ok h]

theorem exec_repairSlots_early (l : List RepairSlot) (hs : s.die.tideState ≠ 2) :
    exec (.repairSlots box l) s = .next { s with die := s.die.reply box rcState [] } := by
  show execRepairSlots box l s = _
  unfold execRepairSlots
  rw [fwCmd_ok h, if_pos hs]

theorem exec_repairSlots_loaded (l : List RepairSlot) (hs : s.die.tideState = 2) :
    exec (.repairSlots box l) s = .next { s with die := s.die.ranged box (slotsOk l) (fun e => e.placeSlots l) } := by
  show execRepairSlots box l s = _
  unfold execRepairSlots
  rw [fwCmd_ok h, if_neg (not_not.2 hs)]
  rfl

end

/-! ### The statement -/

/-- Settles O44: each command is one operation on a box that is ready, and a command out of range is its refusal alone. -/
theorem upkeepCommandsAnswerInRange : Obligations.UpkeepCommandsAnswerInRange := by
  intro s box h
  refine ⟨?settings, fun t frac k4 g off seed he => ⟨fun hin => ⟨_, exec_soundCfg_tile h he .., ?sound⟩,
      fun hout => ⟨_, exec_soundCfg_tile h he .., ?soundRefused⟩⟩,
    fun t a he ha hs => ⟨⟨_, exec_calRequest h _, ?neap⟩, ⟨_, exec_calRequest h _, ?spring⟩⟩,
    fun t a he => ⟨_, exec_calRequest h _, ?disabled⟩,
    fun harmed => ⟨_, exec_calRequest h _, ?armed⟩,
    fun arrs reps => ⟨_, exec_upkeepStatus h arrs reps, ?status⟩,
    fun l hs => ⟨_, exec_repairSlots_early h l hs, replied_reply h _ _, rfl, rfl⟩,
    fun l hs hl => ⟨_, exec_repairSlots_loaded h l hs, ?slots⟩,
    exec_soundCfg h, exec_calRequest h,
    fun l hs hl => ⟨_, exec_repairSlots_loaded h l hs, ?slotsRefused⟩⟩
  case settings =>
    rintro c ok x (⟨n, r, q, dist, rfl, rfl, rfl⟩ | ⟨drift, hours, rfl, rfl, rfl⟩ | ⟨degraded, lim, rfl, rfl, rfl⟩)
    · exact ⟨_, exec_calCfg h n r q dist, Die.ranged_setUpkeep_effect h _ _⟩
    · exact ⟨_, exec_refreshCfg h drift hours, Die.ranged_setUpkeep_effect h _ _⟩
    · exact ⟨_, exec_upkeepPolicy h degraded lim, Die.ranged_setUpkeep_effect h _ _⟩
  case sound =>
    rw [if_pos hin]
    exact ⟨Replied.ofBoxes (e := s.die.soundSet t frac k4 g off seed) h rfl _ _, rfl, rfl, rfl, fun _ => rfl⟩
  case soundRefused =>
    rw [if_neg (Bool.eq_false_iff.1 hout)]
    exact ⟨replied_reply h _ _, rfl⟩
  case neap =>
    rw [Die.calRequest_neap_serving he ha hs]
    exact ⟨Replied.ofBoxes (e := s.die.modCal t a _) h rfl _ _, by rw [Die.reply_cal, Die.cal_modCal_same], rfl⟩
  case spring =>
    rw [Die.calRequest_spring_serving he ha hs]
    exact ⟨Replied.ofBoxes h (s.die.springDue_boxes t a false) _ _, rfl, fun l hl hopen => Die.springDue_regs_of_open hl hopen false⟩
  case disabled =>
    rw [Die.calRequest_neap_disabled he]
    exact ⟨replied_reply h _ _, rfl, rfl⟩
  case armed =>
    rw [Die.calRequest_diode_armed harmed]
    exact ⟨replied_reply h _ _, rfl, rfl⟩
  case status =>
    obtain ⟨bs, os, heq, hlength, hcount⟩ := s.die.upkeepStatus_answer box arrs reps
    rw [heq]
    exact ⟨⟨bs, replied_replyOut h _ _ _, hlength, hcount⟩, rfl, rfl, fun _ => rfl⟩
  case slots =>
    rw [(slotsOk_iff l).2 hl]
    exact ⟨Replied.ofBoxes (e := s.die.placeSlots l) h rfl _ _, rfl, rfl⟩
  case slotsRefused =>
    rw [Bool.eq_false_iff.2 (mt (slotsOk_iff l).1 hl)]
    exact ⟨replied_reply h _ _, rfl, rfl⟩

end Sys2Proof.Machine
end

section
/-! SUPPORT. What messages to other modules and to the host leave alone: contexts, tenancy, memory, mailboxes and the front (R327 to
R329, R351, R466). -/
namespace Sys2Proof.Machine
variable {d e f : Die}

/-- Serving, tenancy, memory, device time, mailboxes and coordinates are as they were: what a message moves lies elsewhere. -/
structure WireOnly (d e : Die) : Prop where
  serve : e.serve = d.serve
  tenancy : e.tenancy = d.tenancy
  clock : e.clock = d.clock
  mem : SameMem d e
  boxes : e.host.boxes = d.host.boxes
  coord : e.getW Reg.GLB_COORD = d.getW Reg.GLB_COORD

theorem WireOnly.refl (d : Die) : WireOnly d d := ⟨rfl, rfl, rfl, SameMem.refl d, rfl, rfl⟩

theorem WireOnly.trans (h : WireOnly d e) (k : WireOnly e f) : WireOnly d f :=
  ⟨k.serve.trans h.serve, k.tenancy.trans h.tenancy, k.clock.trans h.clock, fun a => (k.mem a).trans (h.mem a),
    k.boxes.trans h.boxes, k.coord.trans h.coord⟩

theorem WireOnly.ite {p : Prop} [Decidable p] (h : WireOnly d e) (k : WireOnly d f) : WireOnly d (if p then e else f) := by
  split
  · exact h
  · exact k

theorem WireOnly.foldl {β : Type} {g : Die → β → Die} (hg : ∀ e x, WireOnly e (g e x)) (l : List β) (d : Die) :
    WireOnly d (l.foldl g d) :=
  List.foldlRecOn (motive := fun e => WireOnly d e) _ _ (WireOnly.refl d) fun e h x _ => h.trans (hg e x)

/-- The front of the slice is named by STEP_CFG and the coordinates (R327). -/
theorem Die.isFront_of_eq (hs : e.serve.stepCfg = d.serve.stepCfg) (hc : e.getW Reg.GLB_COORD = d.getW Reg.GLB_COORD) :
    e.isFront = d.isFront := by
  unfold Die.isFront Die.frontAt Die.here Die.coord
  rw [hs, hc]

theorem WireOnly.ctx (h : WireOnly d e) (n : Nat) : e.ctx n = d.ctx n := by unfold Die.ctx; rw [h.serve]
theorem WireOnly.now (h : WireOnly d e) : e.now = d.now := by unfold Die.now; rw [h.clock]
theorem WireOnly.isFront (h : WireOnly d e) : e.isFront = d.isFront := Die.isFront_of_eq (by rw [h.serve]) h.coord

/-! ### Registers, records and packets -/

theorem Die.putW_wireOnly (d : Die) {a : Nat} (w : Word) (h : Reg.GLB_COORD ≠ a) : WireOnly d (d.putW a w) :=
  ⟨rfl, rfl, rfl, Die.putW_byteAt d a w, rfl, Die.getW_putW_ne d w h⟩

theorem Die.put_wireOnly (d : Die) {g : Fld} (v : Nat) (h : Reg.GLB_COORD ≠ g.addr) : WireOnly d (d.put g v) := d.putW_wireOnly _ h

theorem Die.bump_wireOnly (d : Die) {g : Fld} (v : Nat) (h : Reg.GLB_COORD ≠ g.addr) : WireOnly d (d.bump g v) := d.put_wireOnly _ h

theorem Die.record_wireOnly (d : Die) (src ev dom sub : Nat) (det : List Nat) : WireOnly d (d.record src ev dom sub det) := by
  have hlogs := d.record_logsOnly src ev dom sub det
  refine ⟨?_, ?_, hlogs.clock, hlogs.sameMem, d.record_boxes src ev dom sub det, d.record_onlyRegs src ev dom sub det _ (by decide)⟩ <;>
    rw [hlogs]

/-- Packets on their way and what has been sent are not kept with serving. -/
theorem Die.sent_wireOnly (d : Die) (m : Mesh) (o : List Out) : WireOnly d (d.sent m o) :=
  ⟨rfl, rfl, rfl, fun _ => rfl, rfl, rfl⟩

theorem Die.emit_wireOnly (d : Die) (o : Out) : WireOnly d (d.emit o) := d.sent_wireOnly d.mesh _

theorem Die.tellLink_wireOnly (d : Die) (k kind : Nat) (words : List Nat) : WireOnly d (d.tellLink k kind words) := by
  obtain ⟨m, hm⟩ := d.tellLink_eq k kind words
  rw [hm]
  exact d.sent_wireOnly _ _

theorem Die.toFront_wireOnly (d : Die) (kind : Nat) (words : List Nat) : WireOnly d (d.toFront kind words) := by
  unfold Die.toFront
  split
  · exact d.tellLink_wireOnly _ kind words
  · exact WireOnly.refl d

/-! ### The fault stop and messages to the children (R329, R466) -/

theorem Die.sendMark_wireOnly (d : Die) (k : Nat) (stop fault : Bool) (cause coord : Nat) :
    WireOnly d (d.sendMark k stop fault cause coord) := ⟨rfl, rfl, rfl, fun _ => rfl, rfl, rfl⟩

theorem Die.modTile_wireOnly (d : Die) (t : Nat) (g : Tile1 → Tile1) : WireOnly d (d.modTile t g) :=
  ⟨rfl, rfl, rfl, fun _ => rfl, rfl, rfl⟩

/-- The coordinates lie below the windows of the tiles. -/
theorem glbCoord_ne_tileReg (t k : Nat) : Reg.GLB_COORD ≠ tileAddr t + k := by
  unfold tileAddr Reg.GLB_COORD
  omega

theorem Die.setEnable_wireOnly (d : Die) (t : Nat) (en : Bool) : WireOnly d (d.setEnable t en) := by
  have hctrl : Reg.GLB_COORD ≠ (Reg.ENG_CTRL_ENABLE t).addr := glbCoord_ne_tileReg t _
  unfold Die.setEnable
  exact ((d.modTile_wireOnly t _).ite (d.put_wireOnly 1 hctrl)).ite ((d.put_wireOnly 0 hctrl).trans (Die.modTile_wireOnly _ t _))

theorem Die.sendMarks_wireOnly (d : Die) (stop fault : Bool) (cause coord : Nat) :
    WireOnly d (d.sendMarks stop fault cause coord) := WireOnly.foldl (fun e k => e.sendMark_wireOnly k stop fault cause coord) _ d

theorem Die.enableAll_wireOnly (d : Die) (en : Bool) : WireOnly d (d.enableAll en) :=
  WireOnly.foldl (fun e t => e.setEnable_wireOnly t en) _ d

theorem Die.faultStop_wireOnly (d : Die) (cause coord : Nat) : WireOnly d (d.faultStop cause coord) := by
  unfold Die.faultStop
  have hflags : WireOnly d { d with tide := { d.tide with stopNow := true, stopFlag := true, fault := some (cause, coord) } } :=
    ⟨rfl, rfl, rfl, fun _ => rfl, rfl, rfl⟩
  exact (((hflags.trans (Die.sendMarks_wireOnly _ true true cause coord)).trans (Die.record_wireOnly _ _ _ _ _ _)).trans
    (Die.enableAll_wireOnly _ false)).ite (WireOnly.refl d)

theorem Die.toChildren_wireOnly (d : Die) (kind : Nat) (words : List Nat) : WireOnly d (d.toChildren kind words) :=
  WireOnly.foldl (fun e k => (e.tellLink_wireOnly k kind words).ite (e.faultStop_wireOnly 1 e.coord)) _ d

theorem Die.tellCtx_wireOnly (d : Die) (n : Nat) : WireOnly d (d.tellCtx n) := by
  unfold Die.tellCtx
  exact (d.toChildren_wireOnly _ _).ite (WireOnly.refl d)

theorem Die.tellFree_wireOnly (d : Die) : WireOnly d d.tellFree := by
  unfold Die.tellFree
  exact (WireOnly.refl d).ite (d.toFront_wireOnly _ _)

/-! ### The stream to the host (R351) -/

theorem Die.send_wireOnly (d : Die) (p : Nat) (o : Out) : WireOnly d (d.send p o) := by
  have hnow : WireOnly d (d.sendNow o) := by
    exact (d.bump_wireOnly 1 (by decide)).trans (Die.emit_wireOnly _ o)
  unfold Die.send
  exact WireOnly.ite ⟨rfl, rfl, rfl, fun _ => rfl, rfl, rfl⟩ hnow

theorem Die.sayTo_wireOnly (d : Die) (slot : Nat) (x : Session) (flags opcode status reqSeq : Nat) (payload : List Byte) :
    WireOnly d (d.sayTo slot x flags opcode status reqSeq payload) := by
  have hput : ∀ y, WireOnly d (d.putSession slot y) := fun _ => ⟨rfl, rfl, rfl, fun _ => rfl, rfl, rfl⟩
  exact (hput _).trans (Die.send_wireOnly _ _ _)

theorem Die.sendStream_wireOnly (fuel : Nat) (d : Die) (l : List StreamOut) : WireOnly d (Die.sendStream fuel d l) := by
  induction fuel generalizing d l with
  | zero => exact WireOnly.refl d
  | succ k ih =>
    unfold Die.sendStream
    refine (WireOnly.refl d).ite (WireOnly.trans ?_ (ih _ _))
    split
    · exact d.bump_wireOnly 1 (by decide)
    · split
      · exact WireOnly.refl d
      · exact d.sayTo_wireOnly _ _ _ _ _ _ _

/-- The die with other entries waiting to be streamed. -/
def Die.setOutBuf (d : Die) (b : List StreamOut) : Die := { d with serve := { d.serve with outBuf := b } }

/-- An entry joins those that wait, and they leave where no step is part retired. -/
theorem Die.entry_wireOnly (d : Die) (x : StreamOut) : ∃ b, WireOnly (d.setOutBuf b) (d.entry x) := by
  unfold Die.entry Die.flushStream
  split
  · exact ⟨_, WireOnly.refl _⟩
  · exact ⟨[], Die.sendStream_wireOnly _ _ _⟩

end Sys2Proof.Machine
end

section
/-! SUPPORT. What changes of pages, of the tree of prefixes and of contexts leave alone: the front, device time and the mailboxes, and where a
context is not meant, every context (R328, R333, R336, R337, R371 to R378). -/
namespace Sys2Proof.Machine
variable {d e f : Die} {n : Nat}

/-- The front, device time and the mailboxes are as they were. -/
structure KeepsFront (d e : Die) : Prop where
  stepCfg : e.serve.stepCfg = d.serve.stepCfg
  clock : e.clock = d.clock
  boxes : e.host.boxes = d.host.boxes
  coord : e.getW Reg.GLB_COORD = d.getW Reg.GLB_COORD

/-- And so are the contexts. -/
structure KeepsCtxs (d e : Die) : Prop extends KeepsFront d e where
  ctxs : e.serve.ctxs = d.serve.ctxs

theorem KeepsFront.refl (d : Die) : KeepsFront d d := ⟨rfl, rfl, rfl, rfl⟩
theorem KeepsCtxs.refl (d : Die) : KeepsCtxs d d := ⟨KeepsFront.refl d, rfl⟩

theorem KeepsFront.trans (h : KeepsFront d e) (k : KeepsFront e f) : KeepsFront d f :=
  ⟨k.stepCfg.trans h.stepCfg, k.clock.trans h.clock, k.boxes.trans h.boxes, k.coord.trans h.coord⟩

theorem KeepsCtxs.trans (h : KeepsCtxs d e) (k : KeepsCtxs e f) : KeepsCtxs d f :=
  ⟨h.toKeepsFront.trans k.toKeepsFront, k.ctxs.trans h.ctxs⟩

theorem KeepsFront.ite {p : Prop} [Decidable p] (h : KeepsFront d e) (k : KeepsFront d f) :
    KeepsFront d (if p then e else f) := by
  split
  · exact h
  · exact k

theorem KeepsCtxs.ite {p : Prop} [Decidable p] (h : KeepsCtxs d e) (k : KeepsCtxs d f) : KeepsCtxs d (if p then e else f) := by
  split
  · exact h
  · exact k

theorem KeepsCtxs.foldl {β : Type} {g : Die → β → Die} (hg : ∀ e x, KeepsCtxs e (g e x)) (l : List β) (d : Die) :
    KeepsCtxs d (l.foldl g d) :=
  List.foldlRecOn (motive := fun e => KeepsCtxs d e) _ _ (KeepsCtxs.refl d) fun e h x _ => h.trans (hg e x)

theorem KeepsFront.isFront (h : KeepsFront d e) : e.isFront = d.isFront := Die.isFront_of_eq h.stepCfg h.coord
theorem KeepsFront.now (h : KeepsFront d e) : e.now = d.now := by unfold Die.now; rw [h.clock]
theorem KeepsCtxs.ctx (h : KeepsCtxs d e) (n : Nat) : e.ctx n = d.ctx n := by unfold Die.ctx; rw [h.ctxs]

theorem WireOnly.keepsCtxs (h : WireOnly d e) : KeepsCtxs d e := by
  refine ⟨⟨?_, h.clock, h.boxes, h.coord⟩, ?_⟩ <;> rw [h.serve]

/-- The die with other contents of serving and tenancy. -/
def Die.setServe (d : Die) (x : Serve) (y : Tenancy) : Die := { d with serve := x, tenancy := y }

theorem Die.setServe_keepsCtxs (d : Die) {x : Serve} (y : Tenancy) (hs : x.stepCfg = d.serve.stepCfg) (hc : x.ctxs = d.serve.ctxs) :
    KeepsCtxs d (d.setServe x y) := ⟨⟨hs, rfl, rfl, rfl⟩, hc⟩

/-! ### A context's record -/

theorem Die.setBytes_keepsCtxs (d : Die) (a : Nat) (bs : List Byte) : KeepsCtxs d (d.setBytes a bs) := by
  rw [Die.setBytes_eq d bs a]
  exact ⟨⟨rfl, rfl, rfl, rfl⟩, rfl⟩

/-- A context reads back as it was put. -/
@[simp] theorem Die.ctx_putCtx_same (d : Die) (n : Nat) (c : Ctx) : (d.putCtx n c).ctx n = c := by
  unfold Die.putCtx Die.ctx
  rw [Die.setBytes_serve]
  exact amGet_amSet_same _ _ _ _

@[simp] theorem Die.ctx_modCtx_same (d : Die) (n : Nat) (g : Ctx → Ctx) : (d.modCtx n g).ctx n = g (d.ctx n) :=
  d.ctx_putCtx_same n _

theorem Die.putCtx_keepsFront (d : Die) (n : Nat) (c : Ctx) : KeepsFront d (d.putCtx n c) :=
  KeepsFront.trans (e := { d with serve := { d.serve with ctxs := amSet {} d.serve.ctxs n c } }) ⟨rfl, rfl, rfl, rfl⟩
    (Die.setBytes_keepsCtxs _ _ _).toKeepsFront

theorem Die.modCtx_keepsFront (d : Die) (n : Nat) (g : Ctx → Ctx) : KeepsFront d (d.modCtx n g) := d.putCtx_keepsFront n _

/-- The record of a context goes to memory, and no register moves. -/
@[simp] theorem Die.putCtx_regs (d : Die) (n : Nat) (c : Ctx) : (d.putCtx n c).regs = d.regs := Die.setBytes_regs _ _ _
@[simp] theorem Die.modCtx_regs (d : Die) (n : Nat) (g : Ctx → Ctx) : (d.modCtx n g).regs = d.regs := d.putCtx_regs n _
@[simp] theorem Die.putCtx_host (d : Die) (n : Nat) (c : Ctx) : (d.putCtx n c).host = d.host := Die.setBytes_host _ _ _
@[simp] theorem Die.modCtx_host (d : Die) (n : Nat) (g : Ctx → Ctx) : (d.modCtx n g).host = d.host := d.putCtx_host n _
@[simp] theorem Die.putCtx_out (d : Die) (n : Nat) (c : Ctx) : (d.putCtx n c).out = d.out := Die.setBytes_out _ _ _
@[simp] theorem Die.modCtx_out (d : Die) (n : Nat) (g : Ctx → Ctx) : (d.modCtx n g).out = d.out := d.putCtx_out n _
@[simp] theorem Die.putCtx_tenancy (d : Die) (n : Nat) (c : Ctx) : (d.putCtx n c).tenancy = d.tenancy := Die.setBytes_tenancy _ _ _
@[simp] theorem Die.modCtx_tenancy (d : Die) (n : Nat) (g : Ctx → Ctx) : (d.modCtx n g).tenancy = d.tenancy := d.putCtx_tenancy n _
@[simp] theorem Die.putCtx_clock (d : Die) (n : Nat) (c : Ctx) : (d.putCtx n c).clock = d.clock := Die.setBytes_clock _ _ _
@[simp] theorem Die.modCtx_clock (d : Die) (n : Nat) (g : Ctx → Ctx) : (d.modCtx n g).clock = d.clock := d.putCtx_clock n _

/-- Only the contexts of serving change with a record. -/
theorem Die.putCtx_serve (d : Die) (n : Nat) (c : Ctx) :
    (d.putCtx n c).serve = { d.serve with ctxs := amSet {} d.serve.ctxs n c } := Die.setBytes_serve _ _ _

/-! ### Pages and nodes of the tree of prefixes -/

theorem Die.putNode_keepsCtxs (d : Die) (i : Nat) (x : Node) : KeepsCtxs d (d.putNode i x) := d.setServe_keepsCtxs _ rfl rfl

theorem Die.dropPage_keepsCtxs (d : Die) (u : Nat) : KeepsCtxs d (d.dropPage u) := by
  unfold Die.dropPage
  exact (KeepsCtxs.refl d).ite (d.setServe_keepsCtxs d.tenancy rfl rfl)

theorem Die.modMeter_keepsCtxs (d : Die) (t : Nat) (g : Meter → Meter) : KeepsCtxs d (d.modMeter t g) := d.setServe_keepsCtxs _ rfl rfl

theorem Die.addPageTime_keepsCtxs (d : Die) (t : Nat) (ns : Nat × Nat) : KeepsCtxs d (d.addPageTime t ns) :=
  d.setServe_keepsCtxs _ rfl rfl

theorem Die.accrueCtx_keepsFront (d : Die) (n : Nat) : KeepsFront d (d.accrueCtx n) := by
  unfold Die.accrueCtx
  exact (d.addPageTime_keepsCtxs _ _).toKeepsFront.trans (Die.modCtx_keepsFront _ n _)

theorem Die.addChild_keepsCtxs (d : Die) (parent : Option Nat) (more : Bool) : KeepsCtxs d (d.addChild parent more) := by
  unfold Die.addChild
  split
  · exact KeepsCtxs.refl d
  · split
    · exact KeepsCtxs.refl d
    · exact d.putNode_keepsCtxs _ _

theorem Die.deleteNode_keepsCtxs (d : Die) (i : Nat) : KeepsCtxs d (d.deleteNode i) := by
  unfold Die.deleteNode
  split
  · exact KeepsCtxs.refl d
  · have hnodes : KeepsCtxs d { d with tenancy := { d.tenancy with nodes := amErase d.tenancy.nodes i } } :=
      d.setServe_keepsCtxs _ rfl rfl
    exact (hnodes.trans (Die.addChild_keepsCtxs _ _ false)).trans (Die.dropPage_keepsCtxs _ _)

theorem Die.dropRef_keepsCtxs (d : Die) (i : Nat) : KeepsCtxs d (d.dropRef i) := by
  unfold Die.dropRef
  split
  · exact KeepsCtxs.refl d
  · exact ((d.putNode_keepsCtxs i _).trans (Die.deleteNode_keepsCtxs _ i)).ite (d.putNode_keepsCtxs i _)

theorem Die.modHeld_keepsFront (d : Die) (n : Nat) (g : Ctx → Ctx) : KeepsFront d (d.modHeld n g) := by
  unfold Die.modHeld
  exact KeepsFront.ite ⟨rfl, rfl, rfl, rfl⟩ (d.modCtx_keepsFront n g)

/-- At the front the record that a change of the tree means is the context's. -/
theorem Die.modHeld_of_front (h : d.isFront = true) (n : Nat) (g : Ctx → Ctx) : d.modHeld n g = d.modCtx n g := by
  unfold Die.modHeld
  rw [h, Bool.not_true, Bool.false_and, if_neg Bool.false_ne_true]

/-! ### A context leaves pages (R333, R376) -/

/-- Behind the change of the context's own record a leave moves pages, leaf tables and records that wait, and no context. -/
theorem Die.leaveFrom_keepsCtxs (d : Die) (n page : Nat) : ∃ (gone : List Nat) (g : Ctx → Ctx),
    (∀ x, (g x).pages = x.pages.take page) ∧
    KeepsCtxs ((gone.foldl (fun e i => e.dropRef i) d).modHeld n g) (d.leaveFrom n page) := by
  have hleaving : ∀ (e : Die) (l : List (Nat × Ctx)), KeepsCtxs e { e with serve := { e.serve with leaving := l } } :=
    fun e _ => e.setServe_keepsCtxs e.tenancy rfl rfl
  unfold Die.leaveFrom
  extract_lets c gone k d1 d2 d3 d4
  refine ⟨gone, fun x => { x with
    pages := x.pages.take page, leaves := x.leaves.take k, nodes := x.nodes.filter (fun i => !gone.contains i), gone := x.gone || page == 0 },
    fun _ => rfl, ?_⟩
  have hleaf : KeepsCtxs d2 d3 := by
    unfold d3
    split
    · exact (KeepsCtxs.refl d2).ite (d2.setBytes_keepsCtxs _ _)
    · exact KeepsCtxs.refl d2
  exact (hleaf.trans ((hleaving d3 _).ite (KeepsCtxs.refl d3))).trans (KeepsCtxs.foldl (fun e u => e.dropPage_keepsCtxs u) _ _)

theorem Die.leaveFrom_keepsFront (d : Die) (n page : Nat) : KeepsFront d (d.leaveFrom n page) := by
  obtain ⟨gone, g, -, h⟩ := d.leaveFrom_keepsCtxs n page
  exact ((KeepsCtxs.foldl (fun e i => e.dropRef_keepsCtxs i) gone d).toKeepsFront.trans (Die.modHeld_keepsFront _ n g)).trans
    h.toKeepsFront

/-- At the front the context keeps the pages before those it leaves. -/
theorem Die.leaveFrom_pages (h : d.isFront = true) (n page : Nat) :
    ((d.leaveFrom n page).ctx n).pages = (d.ctx n).pages.take page := by
  obtain ⟨gone, g, hg, hleft⟩ := d.leaveFrom_keepsCtxs n page
  have hrefs := KeepsCtxs.foldl (fun e i => e.dropRef_keepsCtxs i) gone d
  rw [hleft.ctx, Die.modHeld_of_front (hrefs.isFront.trans h), Die.ctx_modCtx_same, hg, hrefs.ctx]

/-! ### Changes of the tree of prefixes (R371) -/

theorem Die.sendOps_keepsCtxs (d : Die) : KeepsCtxs d d.sendOps := by
  have hserve : ∀ (l : List PrefixOp) (p : Option StepPlan), KeepsCtxs d { d with serve := { d.serve with planOps := l, heldPlan := p } } :=
    fun _ _ => d.setServe_keepsCtxs d.tenancy rfl rfl
  unfold Die.sendOps
  exact (KeepsCtxs.refl d).ite ((hserve _ _).trans (Die.toChildren_wireOnly _ _ _).keepsCtxs)

/-- Behind the change itself only its way to the other modules remains. -/
theorem Die.prefixDo_keepsCtxs (d : Die) (o : PrefixOp) : KeepsCtxs (d.prefixOp o) (d.prefixDo o) := by
  have hops : ∀ (e : Die) (l : List PrefixOp), KeepsCtxs e { e with serve := { e.serve with planOps := l } } :=
    fun e _ => e.setServe_keepsCtxs e.tenancy rfl rfl
  unfold Die.prefixDo
  exact (KeepsCtxs.refl _).ite ((hops _ _).ite ((hops _ _).trans (Die.sendOps_keepsCtxs _)))

theorem Die.evictOne_keepsCtxs (h : d.evictOne = some e) : KeepsCtxs d e := by
  unfold Die.evictOne at h
  split at h
  · cases h
  · next i hi =>
    rw [← Option.some.inj h]
    have hdel : KeepsCtxs d (d.prefixDo (.delete i)) := (d.deleteNode_keepsCtxs i).trans (d.prefixDo_keepsCtxs (.delete i))
    exact hdel.trans (Die.setServe_keepsCtxs _ _ rfl rfl)

theorem Die.evictWhile_keepsCtxs (fuel : Nat) (more : Die → Bool) (d : Die) : KeepsCtxs d (Die.evictWhile fuel more d) := by
  induction fuel generalizing d with
  | zero => exact KeepsCtxs.refl d
  | succ k ih =>
    unfold Die.evictWhile
    split
    · split
      · exact KeepsCtxs.refl d
      · next e he => exact (Die.evictOne_keepsCtxs he).trans (ih e)
    · exact KeepsCtxs.refl d

theorem Die.trimTree_keepsCtxs (d : Die) : KeepsCtxs d d.trimTree := by
  unfold Die.trimTree
  split
  · exact KeepsCtxs.refl d
  · exact Die.evictWhile_keepsCtxs _ _ d

theorem Die.treeOut_keepsCtxs (d : Die) (old : List (Nat × Node)) : KeepsCtxs d (d.treeOut old) := by
  have htwo : ∀ (e : Die) (a b : Nat) (bs cs : List Byte), KeepsCtxs e ((e.setBytes a bs).setBytes b cs) := fun e a b bs cs =>
    (e.setBytes_keepsCtxs a bs).trans (Die.setBytes_keepsCtxs _ b cs)
  unfold Die.treeOut
  split
  · exact KeepsCtxs.refl d
  · exact (KeepsCtxs.foldl (fun e q => htwo e _ _ _ _) _ d).trans (KeepsCtxs.foldl (fun e q => htwo e _ _ _ _) _ _)

/-- Writing the tree out changes no context. -/
theorem Die.withTree_keepsCtxs {g : Die → Die} (h : KeepsCtxs f (g d)) : KeepsCtxs f (d.withTree g) := by
  unfold Die.withTree
  exact h.ite (h.trans (Die.treeOut_keepsCtxs _ _))

/-! ### A context's state (R333) -/

theorem Die.entry_keepsCtxs (d : Die) (x : StreamOut) : KeepsCtxs d (d.entry x) := by
  obtain ⟨b, hwire⟩ := d.entry_wireOnly x
  have hbuf : KeepsCtxs d (d.setOutBuf b) := d.setServe_keepsCtxs d.tenancy rfl rfl
  exact hbuf.trans hwire.keepsCtxs

theorem Die.tellCtx_keepsCtxs (d : Die) (n : Nat) : KeepsCtxs d (d.tellCtx n) := (d.tellCtx_wireOnly n).keepsCtxs

/-- A context moved to a state. -/
theorem Die.ctx_ctxTo (d : Die) (n state reason : Nat) :
    (d.ctxTo n state reason).ctx n = { d.ctx n with state := state, reason := reason, since := d.now } := by
  unfold Die.ctxTo
  rw [(Die.tellCtx_keepsCtxs _ n).ctx, Die.ctx_modCtx_same]

theorem Die.ctxTo_keepsFront (d : Die) (n state reason : Nat) : KeepsFront d (d.ctxTo n state reason) :=
  (d.modCtx_keepsFront n _).trans (Die.tellCtx_keepsCtxs _ n).toKeepsFront

/-- A context parked: the state it left is kept. -/
theorem Die.ctx_parkCtx (d : Die) (n reason : Nat) : (d.parkCtx n reason).ctx n =
    { d.ctx n with state := csParked, reason := reason, left := (d.ctx n).state, since := d.now } := by
  unfold Die.parkCtx
  rw [Die.ctx_ctxTo, Die.ctx_modCtx_same, (d.modCtx_keepsFront n _).now]

theorem Die.parkCtx_keepsFront (d : Die) (n reason : Nat) : KeepsFront d (d.parkCtx n reason) :=
  (d.modCtx_keepsFront n _).trans (Die.ctxTo_keepsFront _ n _ reason)

/-- A context that has ended: its state and reason, with nothing reserved. -/
structure Ended (n state reason : Nat) (e : Die) : Prop where
  state : (e.ctx n).state = state
  reason : (e.ctx n).reason = reason
  reserve : (e.ctx n).reserve = 0

/-- The pages that an ending context leaves, and the tree written out. -/
def Die.leaveAll (d : Die) (n : Nat) : Die := (d.accrueCtx n).withTree (fun e => (e.prefixDo (.leave n 0)).trimTree)

theorem Die.leaveAll_keepsCtxs (d : Die) (n : Nat) : KeepsCtxs ((d.accrueCtx n).leaveFrom n 0) (d.leaveAll n) := by
  unfold Die.leaveAll
  generalize d.accrueCtx n = e
  have hleave : KeepsCtxs (e.leaveFrom n 0) (e.prefixDo (.leave n 0)) := e.prefixDo_keepsCtxs (.leave n 0)
  exact Die.withTree_keepsCtxs (hleave.trans (Die.trimTree_keepsCtxs _))

theorem Die.leaveAll_keepsFront (d : Die) (n : Nat) : KeepsFront d (d.leaveAll n) :=
  ((d.accrueCtx_keepsFront n).trans (Die.leaveFrom_keepsFront _ n 0)).trans (d.leaveAll_keepsCtxs n).toKeepsFront

theorem Die.ctx_ctxOver (d : Die) (n state reason : Nat) : (d.ctxOver n state reason).ctx n =
    { (d.leaveAll n).ctx n with reserve := 0, pend := 0, state := state, reason := reason, since := d.now } := by
  have hover : d.ctxOver n state reason = ((d.leaveAll n).modCtx n (fun c => { c with reserve := 0, pend := 0 })).ctxTo n state reason :=
    rfl
  rw [hover, Die.ctx_ctxTo, Die.ctx_modCtx_same, (Die.modCtx_keepsFront _ n _).now, (d.leaveAll_keepsFront n).now]

theorem Die.ctxOver_keepsFront (d : Die) (n state reason : Nat) : KeepsFront d (d.ctxOver n state reason) :=
  ((d.leaveAll_keepsFront n).trans (Die.modCtx_keepsFront _ n _)).trans (Die.ctxTo_keepsFront _ n state reason)

/-- Behind its end the context's last entry leaves. -/
theorem Die.endCtx_keepsCtxs (d : Die) (n state reason : Nat) : KeepsCtxs (d.ctxOver n state reason) (d.endCtx n state reason) :=
  (Die.entry_keepsCtxs _ _).ite (KeepsCtxs.refl _)

theorem Die.endCtx_keepsFront (d : Die) (n state reason : Nat) : KeepsFront d (d.endCtx n state reason) :=
  (d.ctxOver_keepsFront n state reason).trans (d.endCtx_keepsCtxs n state reason).toKeepsFront

theorem Die.endCtx_ended (d : Die) (n state reason : Nat) : Ended n state reason (d.endCtx n state reason) := by
  constructor <;> rw [(d.endCtx_keepsCtxs n state reason).ctx, Die.ctx_ctxOver]

/-- At the front it has left all its pages. -/
theorem Die.endCtx_pages (h : d.isFront = true) (n state reason : Nat) : ((d.endCtx n state reason).ctx n).pages = [] := by
  rw [(d.endCtx_keepsCtxs n state reason).ctx, Die.ctx_ctxOver]
  dsimp only
  rw [(d.leaveAll_keepsCtxs n).ctx, Die.leaveFrom_pages ((d.accrueCtx_keepsFront n).isFront.trans h), List.take_zero]

/-- Behind the empty record a release drops it from the cache and tells the slice. -/
theorem Die.freeRecord_keepsCtxs (d : Die) (n : Nat) : KeepsCtxs (d.putCtx n {}) (d.freeRecord n) := by
  have hcache : ∀ (e : Die) (l : List Nat), KeepsCtxs e { e with serve := { e.serve with cache := l } } :=
    fun e _ => e.setServe_keepsCtxs e.tenancy rfl rfl
  unfold Die.freeRecord
  exact (Die.tellCtx_keepsCtxs _ n).trans (hcache _ _)

/-- A record that has become FREE is empty and out of the cache. -/
theorem Die.freeRecord_free (d : Die) (n : Nat) : (d.freeRecord n).ctx n = {} ∧ (d.freeRecord n).serve.cache.contains n = false :=
  ⟨by rw [(d.freeRecord_keepsCtxs n).ctx, Die.ctx_putCtx_same], by simp [Die.freeRecord, without]⟩

theorem Die.freeRecord_boxes (d : Die) (n : Nat) : (d.freeRecord n).host.boxes = d.host.boxes :=
  ((d.putCtx_keepsFront n {}).trans (d.freeRecord_keepsCtxs n).toKeepsFront).boxes

end Sys2Proof.Machine
end

section
/-! PROOFS. Commands on contexts (R328, R330, R331, R333, R337, R347, R357, R571). -/
namespace Sys2Proof.Machine
variable {s : State} {box n : Nat}

@[simp] theorem Die.reply_ctx (d : Die) (k c : Nat) (bs : List Byte) (n : Nat) : (d.reply k c bs).ctx n = d.ctx n := rfl

/-! ### A command on a context -/

section
variable (h : s.die.boxReady box = true)
include h

theorem exec_ctxCancel (n : Nat) : exec (.ctxCancel box n) s = .next { s with
    die := s.die.ctxCmd box 0x0311 n (fun c => c.live) (fun e => e.cancelCtx n) } :=
  fwCmd_ok (f := fun d => d.ctxCmd box 0x0311 n (fun c => c.live) (fun e => e.cancelCtx n)) h

theorem exec_ctxPark (n : Nat) : exec (.ctxPark box n) s = .next { s with
    die := s.die.ctxCmd box 0x0312 n (fun c => decide (1 ≤ c.state) && decide (c.state ≤ 3)) (fun e => e.parkCmd n) } :=
  fwCmd_ok (f := fun d => d.ctxCmd box 0x0312 n (fun c => decide (1 ≤ c.state) && decide (c.state ≤ 3)) (fun e => e.parkCmd n)) h

theorem exec_ctxResume (n : Nat) : exec (.ctxResume box n) s = .next { s with
    die := s.die.ctxCmd box 0x0313 n (fun c => c.state == csParked && c.reason == 32) (fun e => e.resumeCtx n) } :=
  fwCmd_ok (f := fun d => d.ctxCmd box 0x0313 n (fun c => c.state == csParked && c.reason == 32) (fun e => e.resumeCtx n)) h

theorem exec_ctxRelease (n : Nat) : exec (.ctxRelease box n) s = .next { s with
    die := s.die.ctxCmd box 0x0315 n (fun c => c.state == csDone || c.state == csFailed) (fun e => e.freeRecord n) } :=
  fwCmd_ok (f := fun d => d.ctxCmd box 0x0315 n (fun c => c.state == csDone || c.state == csFailed) (fun e => e.freeRecord n)) h

/-- A command refused for the context's state leaves one record and answers STATE (R333, R571). -/
theorem Die.stateRefused_effect (code n : Nat) :
    Replied box rcState [] (s.die.stateRefused box code n) ∧ (s.die.stateRefused box code n).serve = s.die.serve ∧
    Recorded 0x21 1 92 0xFFFF s.die (s.die.stateRefused box code n) ∧ OnlyRegs logRegs s.die (s.die.stateRefused box code n) ∧
    SameMem s.die (s.die.stateRefused box code n) := by
  have hwire := s.die.record_wireOnly 0x21 1 92 0xFFFF [code, n, (s.die.ctx n).state]
  exact ⟨Replied.ofBoxes h hwire.boxes _ _, hwire.serve, (s.die.record_recorded _ _ _ _ _).frame ⟨rfl, rfl, rfl⟩ ⟨rfl, rfl⟩,
    s.die.record_onlyRegs _ _ _ _ _, hwire.mem⟩

variable {c : Instr} {code : Nat} {ok : Ctx → Bool} {f : Die → Die}
  (he : exec c s = .next { s with die := s.die.ctxCmd box code n ok f })
include he

/-- Away from the front, on a number out of range and in a state it does not allow, the command is its refusal alone. -/
theorem ctxCmd_refused :
    (s.die.isFront = false → ∃ u : State, exec c s = .next u ∧ Replied box rcNotFront [] u.die ∧
      u.die.serve = s.die.serve ∧ u.die.regs = s.die.regs) ∧
    (s.die.isFront = true → ctxCount ≤ n → ∃ u : State, exec c s = .next u ∧ Replied box rcRange [] u.die ∧
      u.die.serve = s.die.serve ∧ u.die.regs = s.die.regs) ∧
    (s.die.isFront = true → n < ctxCount → ok (s.die.ctx n) = false → ∃ u : State, exec c s = .next u ∧ Replied box rcState [] u.die ∧
      u.die.serve = s.die.serve ∧ Recorded 0x21 1 92 0xFFFF s.die u.die ∧ OnlyRegs logRegs s.die u.die ∧ SameMem s.die u.die) := by
  refine ⟨fun hf => ⟨_, he, ?notFront⟩, fun hf hn => ⟨_, he, ?range⟩, fun hf hn hok => ⟨_, he, ?state⟩⟩
  case notFront =>
    rw [Die.ctxCmd, if_pos (by rw [hf]; rfl)]
    exact ⟨replied_reply h _ _, rfl, rfl⟩
  case range =>
    rw [Die.ctxCmd, if_neg (by rw [hf]; decide), if_pos hn]
    exact ⟨replied_reply h _ _, rfl, rfl⟩
  case state =>
    rw [Die.ctxCmd, if_neg (by rw [hf]; decide), if_neg (Nat.not_le.2 hn), if_neg (Bool.eq_false_iff.1 hok)]
    exact Die.stateRefused_effect h code n

/-- At the front, in a state it allows, the command acts and answers OK. -/
theorem ctxCmd_acts (hf : s.die.isFront = true) (hn : n < ctxCount) (hok : ok (s.die.ctx n) = true)
    (hboxes : (f s.die).host.boxes = s.die.host.boxes) :
    ∃ u : State, exec c s = .next u ∧ Replied box rcOk [] u.die ∧ u.die = (f s.die).reply box rcOk [] := by
  refine ⟨_, he, ?_⟩
  rw [Die.ctxCmd, if_neg (by rw [hf]; decide), if_neg (Nat.not_le.2 hn), if_pos hok]
  exact ⟨Replied.ofBoxes h hboxes _ _, rfl⟩

end

/-! ### What each command does where it acts -/

section
variable (h : s.die.boxReady box = true) (hf : s.die.isFront = true) (hn : n < ctxCount)
include h hf hn

theorem ctxCancel_waits (hl : (s.die.ctx n).live = true) (hb : s.die.holdsBerth n = true) : ∃ u : State,
    exec (.ctxCancel box n) s = .next u ∧ Replied box rcOk [] u.die ∧ u.die.ctx n = { s.die.ctx n with pend := 1 } ∧
    u.die.regs = s.die.regs := by
  have hcancel : s.die.cancelCtx n = s.die.modCtx n (fun c => c.await 1) := if_pos hb
  obtain ⟨u, hexec, hreplied, hu⟩ := ctxCmd_acts h (exec_ctxCancel h n) hf hn hl (by rw [hcancel, Die.modCtx_host])
  refine ⟨u, hexec, hreplied, ?_, ?_⟩ <;> rw [hu, hcancel]
  · rw [Die.reply_ctx, Die.ctx_modCtx_same]
    rfl
  · rw [Die.reply_regs, Die.modCtx_regs]

theorem ctxCancel_ends (hl : (s.die.ctx n).live = true) (hb : s.die.holdsBerth n = false) : ∃ u : State,
    exec (.ctxCancel box n) s = .next u ∧ Replied box rcOk [] u.die ∧ (u.die.ctx n).state = csDone ∧ (u.die.ctx n).reason = 4 ∧
    (u.die.ctx n).pages = [] ∧ (u.die.ctx n).reserve = 0 := by
  have hcancel : s.die.cancelCtx n = s.die.endCtx n csDone 4 := if_neg (Bool.eq_false_iff.1 hb)
  have hended := s.die.endCtx_ended n csDone 4
  obtain ⟨u, hexec, hreplied, hu⟩ := ctxCmd_acts h (exec_ctxCancel h n) hf hn hl
    (by rw [hcancel, (s.die.endCtx_keepsFront n csDone 4).boxes])
  refine ⟨u, hexec, hreplied, ?_⟩
  rw [hu, hcancel, Die.reply_ctx]
  exact ⟨hended.state, hended.reason, Die.endCtx_pages hf n csDone 4, hended.reserve⟩

theorem ctxPark_waits (h1 : 1 ≤ (s.die.ctx n).state) (h3 : (s.die.ctx n).state ≤ 3) (hb : s.die.holdsBerth n = true) : ∃ u : State,
    exec (.ctxPark box n) s = .next u ∧ Replied box rcOk [] u.die ∧ u.die.ctx n = { s.die.ctx n with
      pend := if (s.die.ctx n).pend = 0 then 2 else (s.die.ctx n).pend } ∧ u.die.regs = s.die.regs := by
  have hpark : s.die.parkCmd n = s.die.modCtx n (fun c => c.await 2) := if_pos hb
  obtain ⟨u, hexec, hreplied, hu⟩ := ctxCmd_acts h (exec_ctxPark h n) hf hn (by simp [h1, h3]) (by rw [hpark, Die.modCtx_host])
  refine ⟨u, hexec, hreplied, ?_, ?_⟩ <;> rw [hu, hpark]
  · rw [Die.reply_ctx, Die.ctx_modCtx_same]
    rfl
  · rw [Die.reply_regs, Die.modCtx_regs]

theorem ctxPark_parks (h1 : 1 ≤ (s.die.ctx n).state) (h3 : (s.die.ctx n).state ≤ 3) (hb : s.die.holdsBerth n = false) : ∃ u : State,
    exec (.ctxPark box n) s = .next u ∧ Replied box rcOk [] u.die ∧ u.die.ctx n = { s.die.ctx n with
      state := csParked, reason := 32, left := (s.die.ctx n).state, since := s.die.now } := by
  have hpark : s.die.parkCmd n = s.die.parkCtx n 32 := if_neg (Bool.eq_false_iff.1 hb)
  obtain ⟨u, hexec, hreplied, hu⟩ := ctxCmd_acts h (exec_ctxPark h n) hf hn (by simp [h1, h3])
    (by rw [hpark, (s.die.parkCtx_keepsFront n 32).boxes])
  exact ⟨u, hexec, hreplied, by rw [hu, hpark, Die.reply_ctx, Die.ctx_parkCtx]⟩

theorem ctxResume_resumes (hp : (s.die.ctx n).state = csParked) (hr : (s.die.ctx n).reason = 32) : ∃ u : State,
    exec (.ctxResume box n) s = .next u ∧ Replied box rcOk [] u.die ∧ u.die.ctx n = { s.die.ctx n with
      state := (s.die.ctx n).left, reason := 0, since := s.die.now } := by
  obtain ⟨u, hexec, hreplied, hu⟩ := ctxCmd_acts h (exec_ctxResume h n) hf hn (by simp [hp, hr])
    (by rw [Die.resumeCtx, (s.die.ctxTo_keepsFront n _ 0).boxes])
  exact ⟨u, hexec, hreplied, by rw [hu, Die.reply_ctx, Die.resumeCtx, Die.ctx_ctxTo]⟩

theorem ctxRelease_frees (hs : (s.die.ctx n).state = csDone ∨ (s.die.ctx n).state = csFailed) : ∃ u : State,
    exec (.ctxRelease box n) s = .next u ∧ Replied box rcOk [] u.die ∧ u.die.ctx n = {} ∧ u.die.serve.cache.contains n = false := by
  obtain ⟨u, hexec, hreplied, hu⟩ := ctxCmd_acts h (exec_ctxRelease h n) hf hn (by simpa using hs) (s.die.freeRecord_boxes n)
  refine ⟨u, hexec, hreplied, ?_⟩
  rw [hu, Die.reply_ctx, Die.reply_serve]
  exact s.die.freeRecord_free n

end

/-! ### Status and logs -/

/-- What stands in an answer behind a number of `n` bytes. -/
theorem leAt_past_natLe (n v k m : Nat) (bs : List Byte) : leAt (natLe n v ++ bs) (n + k) m = leAt bs k m := by
  unfold leAt
  rw [← List.drop_drop, List.drop_left' (natLe_length n v)]

/-- The five counts of KV_STATUS: pages in the pool, free, reserved, held, and contexts parked for pages. -/
def kvCounts (pool free reserved held parked : Nat) : List Byte :=
  natLe 4 pool ++ natLe 4 free ++ natLe 4 reserved ++ natLe 4 held ++ natLe 4 parked

theorem kvCounts_length (pool free reserved held parked : Nat) : (kvCounts pool free reserved held parked).length = 20 := by
  simp [kvCounts, natLe_length]

theorem kvCounts_free (pool free reserved held parked : Nat) :
    leAt (kvCounts pool free reserved held parked) 4 4 = free % 2 ^ 32 := by
  unfold kvCounts
  simp only [List.append_assoc]
  rw [leAt_behind_natLe, leAt_natLe_front, show 256 ^ 4 = 2 ^ 32 from rfl]

theorem kvCounts_reserved (pool free reserved held parked : Nat) :
    leAt (kvCounts pool free reserved held parked) 8 4 = reserved % 2 ^ 32 := by
  unfold kvCounts
  simp only [List.append_assoc]
  rw [show (8 : Nat) = 4 + 4 from rfl, leAt_past_natLe, leAt_behind_natLe, leAt_natLe_front, show 256 ^ 4 = 2 ^ 32 from rfl]

section
variable (h : s.die.boxReady box = true)
include h

theorem exec_ctxStatus (n : Nat) : exec (.ctxStatus box n) s = .next { s with
    die := if !s.die.isFront then s.die.reply box rcNotFront []
      else if ctxCount ≤ n then s.die.reply box rcRange []
      else if (s.die.ctx n).state = csFree then s.die.reply box rcNoRecord []
      else s.die.reply box rcOk ((ctxBytes n (s.die.ctx n)).take 120 ++ (ctxBytes n (s.die.ctx n)).drop 184) } := by
  show execCtxStatus box n s = _
  unfold execCtxStatus
  rw [fwCmd_ok h]

/-- STEP_LOG answers at the front with the steps it has, none where there are none. -/
theorem stepLog_answers (hf : s.die.isFront = true) : ∃ u : State, exec (.stepLog box) s = .next u ∧
    (∃ bs, Replied box rcOk bs u.die ∧ (s.die.serve.steps = [] → s.die.serve.log = [] → bs = [])) ∧
    u.die.serve = s.die.serve ∧ u.die.regs = s.die.regs := by
  show ∃ u : State, execStepLog box s = .next u ∧ _
  unfold execStepLog
  rw [fwCmd_ok h, hf, Bool.not_true, if_neg Bool.false_ne_true]
  exact ⟨_, rfl, ⟨_, replied_reply h _ _, fun hsteps hlog => by rw [hsteps, hlog]; rfl⟩, rfl, rfl⟩

theorem stepLog_notFront (hf : s.die.isFront = false) : ∃ u : State, exec (.stepLog box) s = .next u ∧
    Replied box rcNotFront [] u.die ∧ u.die.serve = s.die.serve := by
  show ∃ u : State, execStepLog box s = .next u ∧ _
  unfold execStepLog
  rw [fwCmd_ok h, hf, Bool.not_false, if_pos rfl]
  exact ⟨_, rfl, replied_reply h _ _, rfl⟩

theorem kvStatus_answers : ∃ u : State, exec (.kvStatus box) s = .next u ∧ (∃ bs, Replied box rcOk bs u.die ∧ bs.length = 20 ∧
    leAt bs 4 4 = s.die.freePages % 2 ^ 32 ∧ leAt bs 8 4 = s.die.reserved % 2 ^ 32) ∧ u.die.serve = s.die.serve ∧
    u.die.regs = s.die.regs ∧ SameMem s.die u.die := by
  show ∃ u : State, execKvStatus box s = .next u ∧ _
  unfold execKvStatus
  rw [fwCmd_ok h]
  exact ⟨_, rfl, ⟨_, replied_reply h _ _, kvCounts_length _ _ _ _ _, kvCounts_free _ _ _ _ _, kvCounts_reserved _ _ _ _ _⟩, rfl, rfl,
    fun _ => rfl⟩

end

/-! ### Times that pass (R333) -/

section
variable (hl : s.die.live = true) (hfw : s.die.fwRuns = true) (hf : s.die.isFront = true)
include hl hfw hf

theorem ctxHoldExpiry_frees (hs : (s.die.ctx n).state = csDone ∨ (s.die.ctx n).state = csFailed)
    (ht : (s.die.ctx n).since + 1000000 * s.die.holdMs ≤ s.die.now) : ∃ u : State,
    exec (.ctxHoldExpiry n) s = .next u ∧ u.die.ctx n = {} ∧ u.die.serve.cache.contains n = false := by
  have hok : (s.die.fwRuns && s.die.isFront && ((s.die.ctx n).state == csDone || (s.die.ctx n).state == csFailed) &&
      s.die.stood n s.die.holdMs) = true := by
    simpa [hfw, hf, Die.stood, ht] using hs
  have hexec : exec (.ctxHoldExpiry n) s = .next { s with die := s.die.freeRecord n } := by
    show execCtxHoldExpiry n s = _
    exact mainCmd_ok hl hok
  exact ⟨_, hexec, s.die.freeRecord_free n⟩

theorem parkLimitExpiry_ends (hs : (s.die.ctx n).state = csParked) (hr : (s.die.ctx n).reason = 33)
    (ht : (s.die.ctx n).since + 1000000 * s.die.parkMs ≤ s.die.now) : ∃ u : State,
    exec (.parkLimitExpiry n) s = .next u ∧ (u.die.ctx n).state = csFailed ∧ (u.die.ctx n).reason = 18 ∧ (u.die.ctx n).pages = [] := by
  have hok : (s.die.fwRuns && s.die.isFront && (s.die.ctx n).state == csParked && (s.die.ctx n).reason == 33 &&
      s.die.stood n s.die.parkMs) = true := by
    simp [hfw, hf, hs, hr, Die.stood, ht]
  have hexec : exec (.parkLimitExpiry n) s = .next { s with die := s.die.endCtx n csFailed 18 } := by
    show execParkLimitExpiry n s = _
    exact mainCmd_ok hl hok
  have hended := s.die.endCtx_ended n csFailed 18
  exact ⟨_, hexec, hended.state, hended.reason, Die.endCtx_pages hf n csFailed 18⟩

end

/-! ### The statement -/

/-- Settles O46: each command on a context is one operation behind the checks of the front, the number and the state. -/
theorem contextCommandsFollowTheContextState : Obligations.ContextCommandsFollowTheContextState := by
  intro s n
  refine ⟨fun box h => ⟨fun k hk => ?refused, fun hf hn => ⟨ctxCancel_waits h hf hn, ctxCancel_ends h hf hn, ctxPark_waits h hf hn,
      ctxPark_parks h hf hn, ctxResume_resumes h hf hn, ctxRelease_frees h hf hn, fun hs => ⟨_, exec_ctxStatus h n, ?status⟩,
      fun hs => ⟨_, exec_ctxStatus h n, ?free⟩⟩, stepLog_notFront h, stepLog_answers h, kvStatus_answers h⟩,
    fun hl hfw hf => ⟨ctxHoldExpiry_frees hl hfw hf, parkLimitExpiry_ends hl hfw hf⟩, fun box h hout => ⟨_, exec_ctxStatus h n, ?out⟩⟩
  case refused =>
    simp only [List.mem_cons, List.not_mem_nil, or_false] at hk
    rcases hk with rfl | rfl | rfl | rfl
    · exact ctxCmd_refused h (exec_ctxCancel h n)
    · exact ctxCmd_refused h (exec_ctxPark h n)
    · exact ctxCmd_refused h (exec_ctxResume h n)
    · exact ctxCmd_refused h (exec_ctxRelease h n)
  case status =>
    rw [hf, Bool.not_true, if_neg Bool.false_ne_true, if_neg (Nat.not_le.2 hn), if_neg hs]
    exact ⟨replied_reply h _ _, rfl, rfl⟩
  case free =>
    rw [hf, Bool.not_true, if_neg Bool.false_ne_true, if_neg (Nat.not_le.2 hn), if_pos hs]
    exact ⟨replied_reply h _ _, rfl, rfl⟩
  case out =>
    cases hf : s.die.isFront with
    | false => exact ⟨replied_reply h _ _, rfl, rfl⟩
    | true =>
      have hn : ctxCount ≤ n := hout.resolve_left (by rw [hf]; decide)
      rw [Bool.not_true, if_neg Bool.false_ne_true, if_pos hn, if_neg (by decide)]
      exact ⟨replied_reply h _ _, rfl, rfl⟩

end Sys2Proof.Machine
end

section
/-! PROOFS. Step configuration and CTX_SUBMIT (R327, R330, R333, R335, R337, R352, R354, R357, R362, R363). -/
namespace Sys2Proof.Machine
variable {s : State} {box : Nat}

@[simp] theorem Die.reply_bytesAt (d : Die) (k c : Nat) (bs : List Byte) (a n : Nat) :
    (d.reply k c bs).bytesAt a n = d.bytesAt a n := rfl

/-! ### KV_CFG, STEP_CFG, KV_ROUTE -/

/-- A configuration takes force in LOADED alone, and where its parameters are in range. -/
def Die.configure (d : Die) (box : Nat) (ok : Bool) (x : Serve) : Die :=
  if !d.isLoaded then d.reply box rcBusy []
  else if !ok then d.reply box rcRange []
  else { d with serve := x }.reply box rcOk []

/-- KV_ROUTE's parameters in range (R352, R354). -/
def routeOk (p : RouteParams) : Bool :=
  inR 1 1000 (p.tmo.getD 20) && decide (p.org.1 < 32) && decide (p.org.2.1 < 32) && decide (p.org.2.2 < 32)

theorem routeOk_iff (p : RouteParams) : routeOk p = false ↔
    shipTmoMs p < 1 ∨ 1000 < shipTmoMs p ∨ 32 ≤ p.org.1 ∨ 32 ≤ p.org.2.1 ∨ 32 ≤ p.org.2.2 := by
  simp only [routeOk, shipTmoMs, inR, Bool.and_eq_false_iff, decide_eq_false_iff_not, Nat.not_le, Nat.not_lt, or_assoc]

section
variable (h : s.die.boxReady box = true)
include h

theorem exec_kvCfg (p : KvParams) : exec (.kvCfg box p) s = .next { s with
    die := s.die.configure box (s.die.kvOk p) { s.die.serve with kv := some p } } := by
  show execKvCfg box p s = _
  unfold execKvCfg
  rw [fwCmd_ok h]
  rfl

theorem exec_stepCfg (p : StepParams) : exec (.stepCfg box p) s = .next { s with
    die := s.die.configure box (stepCfgOk p) { s.die.serve with stepCfg := some p } } := by
  show execStepCfg box p s = _
  unfold execStepCfg
  rw [fwCmd_ok h]
  rfl

theorem exec_kvRoute (p : RouteParams) : exec (.kvRoute box p) s = .next { s with
    die := s.die.configure box (routeOk p) { s.die.serve with route := some p } } := by
  show execKvRoute box p s = _
  unfold execKvRoute Die.configure
  rw [fwCmd_ok h]
  cases hok : routeOk p with
  | false => simp only [(routeOk_iff p).1 hok, if_true, Bool.not_false]
  | true =>
    have hin := mt (routeOk_iff p).2 (by rw [hok]; decide)
    simp only [hin, if_false, Bool.not_true, Bool.false_eq_true]

/-- What a configuration answers and moves. -/
theorem configure_effect {c : Instr} {ok : Bool} {x : Serve} (he : exec c s = .next { s with die := s.die.configure box ok x }) :
    (s.die.tideState ≠ 2 → ∃ u : State, exec c s = .next u ∧ Replied box rcBusy [] u.die ∧ u.die.serve = s.die.serve ∧
      u.die.regs = s.die.regs ∧ SameMem s.die u.die) ∧
    (s.die.tideState = 2 → ∃ u : State, exec c s = .next u ∧ Replied box (if ok then rcOk else rcRange) [] u.die ∧
      u.die.serve = (if ok then x else s.die.serve) ∧ u.die.regs = s.die.regs ∧ SameMem s.die u.die) := by
  refine ⟨fun ht => ⟨_, he, ?busy⟩, fun ht => ⟨_, he, ?loaded⟩⟩
  case busy =>
    rw [Die.configure, Die.isLoaded, decide_eq_false ht, Bool.not_false, if_pos rfl]
    exact ⟨replied_reply h _ _, rfl, rfl, fun _ => rfl⟩
  case loaded =>
    rw [Die.configure, Die.isLoaded, decide_eq_true ht, Bool.not_true, if_neg Bool.false_ne_true]
    cases ok with
    | false => exact ⟨replied_reply h _ _, rfl, rfl, fun _ => rfl⟩
    | true => exact ⟨Replied.ofBoxes h rfl _ _, rfl, rfl, fun _ => rfl⟩

end

/-! ### An admitted context (R330, R363) -/

/-- The record with which an admitted context begins. -/
def Die.admitted (d : Die) (p : SubmitParams) : Ctx :=
  { state := if p.shipIn then csShipping else csQueued, tenant := p.tenant, reqId := p.reqId,
    flags := b2n p.sample + 2 * b2n p.shipOut + 4 * b2n p.shipIn, promptLen := p.promptLen, maxOut := p.maxOut,
    reserve := pagesFor (p.promptLen + min p.maxOut (d.tenant p.tenant).resvOut), invTemp := p.invTemp,
    rng := if p.seed = 0 then 0x6D2B79F5 else p.seed, stop := p.stop, dlFirst := p.dlFirst, dlGap := p.dlGap, dlEnd := p.dlEnd,
    tSubmit := d.now, peer := p.peer, since := d.now, accrued := d.now }

/-- The die once pages are free for the context. -/
def Die.madeRoom (d : Die) (p : SubmitParams) : Die :=
  d.withTree (fun e => e.evictFor (pagesFor (p.promptLen + min p.maxOut (d.tenant p.tenant).resvOut)))

theorem Die.admitCtx_eq (d : Die) (box n : Nat) (p : SubmitParams) : d.admitCtx box n p =
    ((((d.madeRoom p).putCtx n (d.admitted p)).cacheCtx n).tellCtx n).reply box rcOk (natLe 4 n) := rfl

/-- The cache alone changes with a fetch. -/
theorem Die.cacheCtx_eq (d : Die) (n : Nat) : ∃ l, d.cacheCtx n = { d with serve := { d.serve with cache := l } } := by
  unfold Die.cacheCtx
  dsimp only
  split
  · exact ⟨d.serve.cache, rfl⟩
  · split
    · exact ⟨_, rfl⟩
    · split
      · exact ⟨_, rfl⟩
      · exact ⟨d.serve.cache, rfl⟩

theorem Die.cacheCtx_keepsCtxs (d : Die) (n : Nat) : KeepsCtxs d (d.cacheCtx n) := by
  obtain ⟨l, hl⟩ := d.cacheCtx_eq n
  rw [hl]
  exact d.setServe_keepsCtxs d.tenancy rfl rfl

theorem Die.cacheCtx_mem (d : Die) (n : Nat) : SameMem d (d.cacheCtx n) := by
  obtain ⟨l, hl⟩ := d.cacheCtx_eq n
  rw [hl]
  exact fun _ => rfl

/-- The record of a context lies in the context area as R331 has it. -/
theorem Die.bytesAt_putCtx (d : Die) (n : Nat) (c : Ctx) :
    (d.putCtx n c).bytesAt (ctxArea + 256 * n) (ctxBytes n c).length = ctxBytes n c := Die.bytesAt_setBytes _ _ _

theorem Die.madeRoom_keepsCtxs (d : Die) (p : SubmitParams) : KeepsCtxs d (d.madeRoom p) :=
  Die.withTree_keepsCtxs (Die.evictWhile_keepsCtxs _ _ d)

/-- An admitted context stands in its record, in memory too, and its number is the answer. -/
theorem Die.admitCtx_effect (h : s.die.boxReady box = true) (n : Nat) (p : SubmitParams) :
    Replied box rcOk (natLe 4 n) (s.die.admitCtx box n p) ∧ (s.die.admitCtx box n p).ctx n = s.die.admitted p ∧
    (s.die.admitCtx box n p).bytesAt (ctxArea + 256 * n) (ctxBytes n (s.die.admitted p)).length = ctxBytes n (s.die.admitted p) := by
  rw [Die.admitCtx_eq]
  have hroom := s.die.madeRoom_keepsCtxs p
  generalize s.die.madeRoom p = d1 at hroom
  have hput := d1.ctx_putCtx_same n (s.die.admitted p)
  have hbytes := d1.bytesAt_putCtx n (s.die.admitted p)
  have hboxes := (d1.putCtx_keepsFront n (s.die.admitted p)).boxes.trans hroom.boxes
  generalize d1.putCtx n (s.die.admitted p) = d2 at hput hbytes hboxes
  have htold := (d2.cacheCtx n).tellCtx_wireOnly n
  have hkept : KeepsCtxs d2 ((d2.cacheCtx n).tellCtx n) := (d2.cacheCtx_keepsCtxs n).trans htold.keepsCtxs
  have hmem : SameMem d2 ((d2.cacheCtx n).tellCtx n) := fun a => (htold.mem a).trans (d2.cacheCtx_mem n a)
  refine ⟨Replied.ofBoxes h (hkept.boxes.trans hboxes) _ _, ?_, ?_⟩
  · rw [Die.reply_ctx, hkept.ctx, hput]
  · rw [Die.reply_bytesAt, hmem.bytesAt, hbytes]

/-! ### CTX_SUBMIT -/

/-- Where the front is this module, or none is named, a submission is not refused for its place. -/
theorem Die.submit_of_front {d : Die} (hfront : d.serve.stepCfg.isNone = true ∨ d.isFront = true) :
    (d.serve.stepCfg.isSome && !d.isFront) = false := by
  rcases hfront with hc | hf
  · rw [Option.isNone_iff_eq_none.1 hc]
    rfl
  · rw [hf, Bool.not_true, Bool.and_false]

section
variable (h : s.die.boxReady box = true) (p : SubmitParams)
include h

theorem exec_ctxSubmit : exec (.ctxSubmit box p) s = .next { s with die := s.die.submit box p } :=
  fwCmd_ok (f := fun d => d.submit box p) h

theorem ctxSubmit_notFront (hc : s.die.serve.stepCfg.isSome = true) (hf : s.die.isFront = false) : ∃ u : State,
    exec (.ctxSubmit box p) s = .next u ∧ Replied box rcNotFront [] u.die ∧ u.die.serve = s.die.serve ∧ u.die.regs = s.die.regs ∧
    SameMem s.die u.die := by
  refine ⟨_, exec_ctxSubmit h p, ?_⟩
  rw [Die.submit, hc, hf, Bool.not_false, Bool.and_true, if_pos rfl]
  exact ⟨replied_reply h _ _, rfl, rfl, fun _ => rfl⟩

variable (hfront : s.die.serve.stepCfg.isNone = true ∨ s.die.isFront = true)
include hfront

theorem ctxSubmit_range (hp : submitOk p = false) : ∃ u : State, exec (.ctxSubmit box p) s = .next u ∧
    Replied box rcRange [] u.die ∧ u.die.serve = s.die.serve ∧ u.die.regs = s.die.regs ∧ SameMem s.die u.die := by
  refine ⟨_, exec_ctxSubmit h p, ?_⟩
  rw [Die.submit, Die.submit_of_front hfront, if_neg Bool.false_ne_true, hp, Bool.not_false, if_pos rfl]
  exact ⟨replied_reply h _ _, rfl, rfl, fun _ => rfl⟩

variable (hp : submitOk p = true)
include hp

/-- A check of the breakwater that fails is the answer, with the quantities, and counts as a refusal of the tenant. -/
theorem ctxSubmit_refused {code need avail : Nat} (hb : s.die.breakwater p = some (code, need, avail)) : ∃ u : State,
    exec (.ctxSubmit box p) s = .next u ∧ Replied box code (natLe 8 need ++ natLe 8 avail) u.die ∧ u.die.serve = s.die.serve ∧
    (u.die.meter p.tenant).refusals = (s.die.meter p.tenant).refusals + 1 ∧ u.die.regs = s.die.regs ∧ SameMem s.die u.die := by
  refine ⟨_, exec_ctxSubmit h p, ?_⟩
  rw [Die.submit, Die.submit_of_front hfront, if_neg Bool.false_ne_true, hp, Bool.not_true, if_neg Bool.false_ne_true, hb]
  refine ⟨Replied.ofBoxes h rfl _ _, rfl, ?_, rfl, fun _ => rfl⟩
  exact congrArg Meter.refusals (amGet_amSet_same _ _ _ _)

theorem ctxSubmit_admits {n : Nat} (hb : s.die.breakwater p = none) (hn : s.die.freeCtx = some n) :
    exec (.ctxSubmit box p) s = .next { s with die := s.die.admitCtx box n p } := by
  rw [exec_ctxSubmit h p, Die.submit, Die.submit_of_front hfront, if_neg Bool.false_ne_true, hp, Bool.not_true,
    if_neg Bool.false_ne_true, hb, hn]

end

/-! ### The statement -/

/-- Settles O45: a configuration is checked against the state and its range; a submission passes the front, its range and the
breakwater, and then takes its record. -/
theorem configurationAndSubmissionAnswerByRule : Obligations.ConfigurationAndSubmissionAnswerByRule := by
  intro s box h
  refine ⟨?configurations, fun p => ⟨ctxSubmit_notFront h p, fun hfront => ⟨ctxSubmit_range h p hfront,
    fun code need avail hp hb => ctxSubmit_refused h p hfront hp hb, fun n hp hb hn => ⟨_, ctxSubmit_admits h p hfront hp hb hn, ?admitted⟩⟩⟩,
    exec_ctxSubmit h⟩
  case configurations =>
    rintro c ok x (⟨p, rfl, rfl, rfl⟩ | ⟨p, rfl, rfl, rfl⟩ | ⟨p, rfl, rfl, rfl⟩)
    · exact configure_effect h (exec_kvCfg h p)
    · exact configure_effect h (exec_stepCfg h p)
    · exact configure_effect h (exec_kvRoute h p)
  case admitted =>
    obtain ⟨hreplied, hctx, hbytes⟩ := Die.admitCtx_effect h n p
    rw [hctx]
    exact ⟨hreplied, rfl, rfl, rfl, rfl, rfl, rfl, hbytes⟩

end Sys2Proof.Machine
end

section
/-! SUPPORT. A request that passes the checks of the port, and what its response and the stream leave of its session (R425, R427 to R431,
R542). -/
namespace Sys2Proof.Machine
variable {d e f : Die} {slot : Nat}

/-- The host port's queues and counts move; sessions, mailboxes and everything outside the port stay. -/
structure PortOnly (d e : Die) : Prop where
  logs : LogsOnly d e
  regs : OnlyRegs [Reg.HP_TX_FRAMES] d e
  sessions : e.host.sessions = d.host.sessions
  boxes : e.host.boxes = d.host.boxes

theorem PortOnly.refl (d : Die) : PortOnly d d := ⟨LogsOnly.refl d, OnlyRegs.refl _ d, rfl, rfl⟩

theorem PortOnly.trans (h : PortOnly d e) (k : PortOnly e f) : PortOnly d f :=
  ⟨h.logs.trans k.logs, h.regs.trans k.regs, k.sessions.trans h.sessions, k.boxes.trans h.boxes⟩

theorem PortOnly.ite {p : Prop} [Decidable p] (h : PortOnly d e) (k : PortOnly d f) : PortOnly d (if p then e else f) := by
  split
  · exact h
  · exact k

theorem PortOnly.session (h : PortOnly d e) (n : Nat) : e.session n = d.session n := by unfold Die.session; rw [h.sessions]

theorem PortOnly.wireOnly (h : PortOnly d e) : WireOnly d e := by
  refine ⟨?_, ?_, h.logs.clock, h.logs.sameMem, h.boxes, h.regs _ (by decide)⟩ <;> rw [h.logs]

/-- Low-water mode and the security state do not move with the port's queues. -/
theorem PortOnly.portLow (h : PortOnly d e) : e.portLow = d.portLow := by
  unfold Die.portLow Die.lowWater Die.stage
  rw [h.regs.get (by decide), h.regs.get (by decide)]

theorem PortOnly.fwRuns (h : PortOnly d e) : e.fwRuns = d.fwRuns := by
  unfold Die.fwRuns Die.stage Die.computeHeld
  rw [h.regs.get (by decide), h.logs.boot]

theorem Die.sendNow_portOnly (d : Die) (o : Out) : PortOnly d (d.sendNow o) := by
  have hhost : (d.sendNow o).host = d.host := by
    unfold Die.sendNow
    rw [Die.emit_host, Die.bump_host]
  exact ⟨d.sendNow_logsOnly o, d.sendNow_onlyRegs o, by rw [hhost], by rw [hhost]⟩

theorem Die.send_portOnly (d : Die) (p : Nat) (o : Out) : PortOnly d (d.send p o) := by
  unfold Die.send
  exact PortOnly.ite ⟨rfl, fun _ _ => rfl, rfl, rfl⟩ (d.sendNow_portOnly o)

/-- A frame that leaves its receive buffer (R425). -/
theorem Die.drain_portOnly (d : Die) (n : Nat) : PortOnly d (d.drain n) := by
  unfold Die.drain
  split
  · exact PortOnly.refl d
  · dsimp only
    have hqueue : ∀ l, PortOnly d { d with host := { d.host with rxQueue := l } } := fun _ => ⟨rfl, fun _ _ => rfl, rfl, rfl⟩
    have hpause : ∀ (g : Die) q, PortOnly g (g.setPause q false) := fun _ _ => ⟨rfl, fun _ _ => rfl, rfl, rfl⟩
    exact PortOnly.ite (((hqueue _).trans (hpause _ _)).trans (Die.sendNow_portOnly _ _)) (hqueue _)

/-- A tagged message ends the run of its source (R542). -/
theorem Die.authPass_portOnly (d : Die) (src : Source) : PortOnly d (d.authPass src) := by
  unfold Die.authPass
  exact (PortOnly.refl d).ite ⟨rfl, fun _ _ => rfl, rfl, rfl⟩

/-! ### The gate (R429 to R431) -/

/-- What a request that passes the gate has done before it is carried out: its SEQ is noted. -/
structure Passed (m : MsgHead) (d e : Die) : Prop where
  session : ∃ x, d.session m.slot = some x ∧ e.session m.slot = some (noteSeq x m.seq)
  wire : WireOnly d e
  fwRuns : e.fwRuns = d.fwRuns

/-- A request that the port accepts passes the gate (R429). -/
theorem Die.requestGate_passes {m : MsgHead} {opcode role : Nat} (h : d.accepts m opcode role = true)
    (hop : hostOpcodes.contains opcode = true) (say : Bool) :
    ∃ e x, d.requestGate m opcode role true say = (e, some x) ∧ Passed m d e := by
  simp only [Die.accepts, Bool.and_eq_true] at h
  obtain ⟨⟨-, -⟩, hsession⟩ := h
  cases hx : d.session m.slot with
  | none => simp [hx] at hsession
  | some x =>
    simp only [hx, Bool.and_eq_true, decide_eq_true_eq, Bool.not_eq_true', Bool.or_eq_true] at hsession
    obtain ⟨⟨⟨hseq, hspace⟩, hlow⟩, hrole⟩ := hsession
    have hdrain := d.drain_portOnly (m.len + 48)
    have hxd := (hdrain.session m.slot).trans hx
    unfold Die.requestGate
    generalize d.drain (m.len + 48) = d1 at hdrain hxd
    have hpass := (d1.putSession m.slot (noteSeq x m.seq)).authPass_portOnly x.src
    have hnoted := (hpass.session m.slot).trans (d1.session_putSession_same m.slot (noteSeq x m.seq))
    have hput : WireOnly d1 (d1.putSession m.slot (noteSeq x m.seq)) := ⟨rfl, rfl, rfl, fun _ => rfl, rfl, rfl⟩
    have hputLow : (d1.putSession m.slot (noteSeq x m.seq)).portLow = d1.portLow := rfl
    have hputFw : (d1.putSession m.slot (noteSeq x m.seq)).fwRuns = d1.fwRuns := rfl
    refine ⟨(d1.putSession m.slot (noteSeq x m.seq)).authPass x.src, noteSeq x m.seq, ?_, ⟨x, hx, hnoted⟩,
      (hdrain.wireOnly.trans hput).trans hpass.wireOnly, hpass.fwRuns.trans (hputFw.trans hdrain.fwRuns)⟩
    rw [← hdrain.portLow, ← hputLow, ← hpass.portLow] at hlow
    unfold Die.yctGate
    rw [hxd]
    dsimp only
    rw [if_pos hseq, if_neg (Nat.not_le.2 hspace), hop, if_neg (by decide), hlow, if_neg (by decide), if_neg, if_neg (by decide)]
    rintro ⟨hlt, hnone⟩
    rcases hrole with hge | hbit
    · exact absurd hge (Nat.not_le.2 hlt)
    · exact absurd hbit (by rw [hnone]; decide)

/-- A response goes to the session of the request (R427). -/
theorem Passed.responded {m : MsgHead} (h : Passed m d e) (opcode status : Nat) (bs : List Byte) :
    Responded m opcode status bs d (e.respond m.slot opcode status m.seq bs) := by
  obtain ⟨x, hx, hnoted⟩ := h.session
  exact ⟨x, hx, Die.respond_told hnoted opcode status m.seq bs⟩

theorem Die.respondIf_wireOnly (d : Die) (say : Bool) (slot opcode status seq : Nat) (bs : List Byte) :
    WireOnly d (d.respondIf say slot opcode status seq bs) := by
  unfold Die.respondIf Die.respond
  refine WireOnly.ite ?_ (WireOnly.refl d)
  split
  · exact WireOnly.refl d
  · exact d.sayTo_wireOnly _ _ _ _ _ _ _

/-! ### The session while entries stream (R431, R435) -/

/-- Of a session only the count of the device's messages goes on. -/
def SaysOn (slot : Nat) (d e : Die) : Prop :=
  ∀ x, d.session slot = some x → ∃ q, x.devSeq ≤ q ∧ e.session slot = some { x with devSeq := q }

theorem SaysOn.ofEq (h : e.host.sessions = d.host.sessions) : SaysOn slot d e := by
  intro x hx
  refine ⟨x.devSeq, Nat.le_refl _, ?_⟩
  unfold Die.session at hx ⊢
  rw [h, hx]

theorem SaysOn.refl (d : Die) : SaysOn slot d d := SaysOn.ofEq rfl

theorem SaysOn.trans (h : SaysOn slot d e) (k : SaysOn slot e f) : SaysOn slot d f := by
  intro x hx
  obtain ⟨q, hq, hxe⟩ := h x hx
  obtain ⟨r, hr, hxf⟩ := k _ hxe
  exact ⟨r, Nat.le_trans hq hr, hxf⟩

theorem SaysOn.foldl {β : Type} {g : Die → β → Die} (hg : ∀ e x, SaysOn slot e (g e x)) (l : List β) (d : Die) :
    SaysOn slot d (l.foldl g d) :=
  List.foldlRecOn (motive := fun e => SaysOn slot d e) _ _ (SaysOn.refl d) fun e h x _ => h.trans (hg e x)

/-- A key reads as before a value is put under another. -/
theorem look_keep_ne {α : Type} (m : List (Nat × α)) {k j : Nat} (v : α) (h : j ≠ k) : look (keep m k v) j = look m j := by
  unfold keep
  induction m with
  | nil => simp [amErase, amInsert, look, Ne.symm h]
  | cons p r ih =>
    by_cases hp : p.1 = k
    · simp [amErase, hp, ih, look, Ne.symm h]
    · by_cases hlt : k < p.1
      · simp only [amErase, hp, if_false, amInsert, hlt, if_true, look, Ne.symm h]
        by_cases hj : p.1 = j
        · simp [hj]
        · simp only [hj, if_false]
          clear ih
          induction r with
          | nil => rfl
          | cons q r ih =>
            by_cases hq : q.1 = k
            · simpa [amErase, hq, look, Ne.symm h] using ih
            · simp [amErase, hq, look, ih]
      · simp [amErase, hp, amInsert, hlt, look, ih]

theorem Die.session_putSession_ne (d : Die) {n : Nat} (x : Session) (h : slot ≠ n) : (d.putSession n x).session slot = d.session slot :=
  look_keep_ne _ _ h

/-- A message of a session moves its own count on, and no other session. -/
theorem Die.sayTo_saysOn (d : Die) {n : Nat} {y : Session} (hy : d.session n = some y) (flags opcode status seq : Nat)
    (bs : List Byte) : SaysOn slot d (d.sayTo n y flags opcode status seq bs) := by
  have hput : SaysOn slot d (d.putSession n { y with devSeq := y.devSeq + 1 }) := by
    by_cases hn : slot = n
    · subst hn
      intro x hx
      obtain rfl : y = x := Option.some.inj (hy.symm.trans hx)
      exact ⟨y.devSeq + 1, Nat.le_succ _, d.session_putSession_same _ _⟩
    · exact fun x hx => ⟨x.devSeq, Nat.le_refl _, (d.session_putSession_ne _ hn).trans hx⟩
  exact hput.trans (SaysOn.ofEq (Die.send_portOnly _ _ _).sessions)

theorem Die.sendStream_saysOn (fuel : Nat) (d : Die) (l : List StreamOut) : SaysOn slot d (Die.sendStream fuel d l) := by
  induction fuel generalizing d l with
  | zero => exact SaysOn.refl d
  | succ k ih =>
    unfold Die.sendStream
    split
    · exact SaysOn.refl d
    · refine SaysOn.trans ?_ (ih _ _)
      split
      · exact SaysOn.ofEq (by rw [Die.bump_host])
      · split
        · exact SaysOn.refl d
        · next n _ _ x hx => exact d.sayTo_saysOn hx _ _ _ _ _

theorem Die.entry_saysOn (d : Die) (x : StreamOut) : SaysOn slot d (d.entry x) := by
  unfold Die.entry Die.flushStream
  split
  · exact SaysOn.ofEq rfl
  · exact SaysOn.trans (e := d.setOutBuf []) (SaysOn.ofEq rfl) (Die.sendStream_saysOn _ _ _)

end Sys2Proof.Machine
end

section
/-! PROOFS. STREAM_IN: prompt tokens are placed by offset (R334, R350). -/
namespace Sys2Proof.Machine
variable {s : State} {d e : Die}

/-! ### Prompt tokens (R350) -/

/-- One token of an entry goes to its place, if none is there and the prompt has not been received so far. -/
def placeToken (rcvd off : Nat) (l : List (Nat × Nat)) (q : Nat × Nat) : List (Nat × Nat) :=
  if off + q.1 < rcvd ∨ (look l (off + q.1)).isSome = true then l else keep l (off + q.1) q.2

/-- The tokens of an entry in their places. -/
def placeTokens (rcvd off : Nat) (tokens : List Nat) (l : List (Nat × Nat)) : List (Nat × Nat) :=
  ((List.range tokens.length).zip tokens).foldl (placeToken rcvd off) l

/-- A token that is there stays. -/
theorem look_placeToken_of_some {rcvd off k v : Nat} {l : List (Nat × Nat)} (h : look l k = some v) (q : Nat × Nat) :
    look (placeToken rcvd off l q) k = some v := by
  unfold placeToken
  split
  · exact h
  · next hfree =>
    have hk : k ≠ off + q.1 := by
      rintro rfl
      exact hfree (.inr (by rw [h]; rfl))
    rw [look_keep_ne _ _ hk, h]

/-- A token goes to its own place alone. -/
theorem look_placeToken_ne {rcvd off k : Nat} {q : Nat × Nat} (h : k ≠ off + q.1) (l : List (Nat × Nat)) :
    look (placeToken rcvd off l q) k = look l k := by
  unfold placeToken
  split
  · rfl
  · exact look_keep_ne _ _ h

theorem look_placeToken_same {rcvd off : Nat} {q : Nat × Nat} {l : List (Nat × Nat)} (hr : rcvd ≤ off + q.1)
    (h : look l (off + q.1) = none) : look (placeToken rcvd off l q) (off + q.1) = some q.2 := by
  unfold placeToken
  rw [if_neg (by simp [h, Nat.not_lt.2 hr]), look_keep_same]

/-- Of tokens among which one has offset `i`, that one is found at its place. -/
theorem look_foldl_placeToken {rcvd off i t : Nat} (hr : rcvd ≤ off + i) (P : List (Nat × Nat)) :
    ∀ l, (∀ q ∈ P, q.1 = i → q.2 = t) → look l (off + i) = some t ∨ look l (off + i) = none ∧ (i, t) ∈ P →
      look (P.foldl (placeToken rcvd off) l) (off + i) = some t := by
  induction P with
  | nil =>
    rintro l - (h | ⟨-, hmem⟩)
    · exact h
    · cases hmem
  | cons q P ih =>
    intro l huniq h
    refine ih _ (fun p hp => huniq p (List.mem_cons_of_mem _ hp)) ?_
    rcases h with h | ⟨hnone, hmem⟩
    · exact .inl (look_placeToken_of_some h q)
    · by_cases hq : q.1 = i
      · subst hq
        exact .inl ((look_placeToken_same hr hnone).trans (congrArg some (huniq q List.mem_cons_self rfl)))
      · refine .inr ⟨(look_placeToken_ne (fun hk => hq (Nat.add_left_cancel hk).symm) l).trans hnone, ?_⟩
        exact (List.mem_cons.1 hmem).resolve_left (fun heq => hq (congrArg Prod.fst heq).symm)

/-- Each token whose place is free is found there. -/
theorem look_placeTokens {rcvd off i : Nat} {tokens : List Nat} {l : List (Nat × Nat)} (hi : i < tokens.length) (hr : rcvd ≤ off + i)
    (h : look l (off + i) = none) : look (placeTokens rcvd off tokens l) (off + i) = tokens[i]? := by
  rw [List.getElem?_eq_getElem hi]
  refine look_foldl_placeToken hr _ l ?_ (.inr ⟨h, ?_⟩)
  · intro q hq hqi
    obtain ⟨k, hk, rfl⟩ := List.mem_iff_getElem.1 hq
    simp only [List.getElem_zip, List.getElem_range] at hqi ⊢
    simp only [hqi]
  · exact List.mem_iff_getElem.2 ⟨i, by simpa using hi, by simp⟩

/-! ### Entries (R334, R350) -/

/-- The mark of a complete prompt is a flag alone. -/
theorem Ctx.flagIf_keeps (b : Bool) (c : Ctx) :
    (if b then c.setFlag cfPromptFinal else c).state = c.state ∧
    (if b then c.setFlag cfPromptFinal else c).prompt = c.prompt := by
  cases b
  · exact ⟨rfl, rfl⟩
  · exact ⟨rfl, rfl⟩

/-- An entry that is taken changes its context's prompt, which stays in its state, and a meter. -/
theorem Die.takeEntry_of_none {x : StreamEntry} (h : d.entryRefused x = none) : ∃ c g, c.state = (d.ctx x.ctx).state ∧
    c.prompt = placeTokens (d.ctx x.ctx).promptRcvd x.offset x.tokens (d.ctx x.ctx).prompt ∧
    d.takeEntry x = (d.putCtx x.ctx c).modMeter (d.ctx x.ctx).tenant g := by
  unfold Die.takeEntry
  rw [h]
  extract_lets c l r pend c1 c2
  have hkeeps := Ctx.flagIf_keeps (pend == some r) c1
  exact ⟨c2, _, hkeeps.1, hkeeps.2, rfl⟩

/-- One that is refused is answered in the stream. -/
theorem Die.takeEntry_of_some {x : StreamEntry} {r : Nat} (h : d.entryRefused x = some r) : d.takeEntry x =
    d.entry { ctx := x.ctx, index := 0, token := 0xFFFFFFFF, flags := 8, reason := r, time := d.now } := by
  unfold Die.takeEntry
  rw [h]

theorem WireOnly.entryRefused (h : WireOnly d e) (x : StreamEntry) : e.entryRefused x = d.entryRefused x := by
  unfold Die.entryRefused
  rw [h.ctx, h.serve]

theorem Die.takeEntry_saysOn {slot : Nat} (d : Die) (x : StreamEntry) : SaysOn slot d (d.takeEntry x) := by
  cases h : d.entryRefused x with
  | some r =>
    rw [Die.takeEntry_of_some h]
    exact d.entry_saysOn _
  | none =>
    obtain ⟨c, g, -, -, htake⟩ := Die.takeEntry_of_none h
    have hhost : (d.takeEntry x).host = (d.putCtx x.ctx c).host := by rw [htake, Die.modMeter]
    exact SaysOn.ofEq (by rw [hhost, Die.putCtx_host])

/-! ### The command -/

/-- STREAM_IN that the port accepts passes the gate and is carried out. -/
theorem exec_streamIn {m : MsgHead} {l : List StreamEntry} {ack : Bool} (ha : s.die.accepts m 0x50 2 = true)
    (hlen : ∀ e ∈ l, 1 ≤ e.tokens.length ∧ e.tokens.length ≤ 2048) :
    ∃ e, Passed m s.die e ∧ exec (.streamIn m l ack) s = .next { s with die := e.streamIn m l ack } := by
  obtain ⟨e, x, hgate, hpass⟩ := Die.requestGate_passes ha (by decide) ack
  refine ⟨e, hpass, ?_⟩
  have hall : l.all (fun e => decide (1 ≤ e.tokens.length) && decide (e.tokens.length ≤ 2048)) = true := by
    simpa using hlen
  have hreq : s.die.request m 0x50 2 true (fun e _ => e.streamIn m l ack) ack = e.streamIn m l ack := by
    unfold Die.request
    rw [hgate]
  have hcan : s.die.live = true ∧ s.die.canRequest m = true := by
    simp only [Die.accepts, Bool.and_eq_true] at ha
    obtain ⟨⟨hl, hup⟩, hs⟩ := ha
    refine ⟨hl, ?_⟩
    cases hx : s.die.session m.slot with
    | none => simp [hx] at hs
    | some y => simp [Die.canRequest, hup, hx]
  show execStreamIn m l ack s = _
  unfold execStreamIn
  rw [mainCmd_ok hcan.1 hcan.2, hall, hreq]

/-- Without a request for an answer STREAM_IN only notes its SEQ where it is refused. -/
theorem Passed.quiet {m : MsgHead} (h : Passed m d e) {x : Session} (hx : d.session m.slot = some x) :
    ∃ y, e.session m.slot = some y ∧ y.devSeq = x.devSeq ∧ y.cache = x.cache := by
  obtain ⟨y, hy, hnoted⟩ := h.session
  obtain rfl : x = y := Option.some.inj (hx.symm.trans hy)
  exact ⟨_, hnoted, rfl, rfl⟩

section
variable {m : MsgHead} {l : List StreamEntry} {ack : Bool}

theorem Die.streamIn_noFirmware (h : d.fwRuns = false) :
    d.streamIn m l ack = d.respondIf ack m.slot 0x50 stNoFirmware m.seq [] := by
  unfold Die.streamIn
  rw [h, Bool.not_false, if_pos rfl]

theorem Die.streamIn_notFront (h : d.fwRuns = true) (hf : d.isFront = false) :
    d.streamIn m l ack = d.respondIf ack m.slot 0x50 stNotFront m.seq [] := by
  unfold Die.streamIn
  rw [h, hf, Bool.not_true, if_neg Bool.false_ne_true, Bool.not_false, if_pos rfl]

theorem Die.streamIn_front (h : d.fwRuns = true) (hf : d.isFront = true) :
    d.streamIn m l ack = (l.foldl (fun e x => e.takeEntry x) d).respondIf ack m.slot 0x50 stOk m.seq [] := by
  unfold Die.streamIn
  rw [h, hf, Bool.not_true, if_neg Bool.false_ne_true, if_neg Bool.false_ne_true]

/-- A refusal is answered where an answer is asked for, and moves nothing outside the port. -/
theorem Passed.refused {st : Nat} (h : Passed m d e) (hr : e.streamIn m l ack = e.respondIf ack m.slot 0x50 st m.seq []) :
    (ack = true → Responded m 0x50 st [] d (e.streamIn m l ack)) ∧
    (ack = false → e.streamIn m l ack = e) ∧
    (e.streamIn m l ack).serve = d.serve ∧ SameMem d (e.streamIn m l ack) := by
  rw [hr]
  have hwire := h.wire.trans (e.respondIf_wireOnly ack m.slot 0x50 st m.seq [])
  refine ⟨?_, ?_, hwire.serve, hwire.mem⟩
  · rintro rfl
    exact h.responded 0x50 st []
  · rintro rfl
    rfl

/-- The entries taken, the answer carries the session's next SEQ. -/
theorem Passed.streamed (h : Passed m d e) (hf : e.fwRuns = true) (hfront : e.isFront = true) :
    ∃ (x : Session) (q : Nat), d.session m.slot = some x ∧ x.devSeq ≤ q ∧
      Told x.src 0x50 (({ x with devSeq := q } : Session).message 1 0x50 stOk m.seq []) (e.streamIn m l true) := by
  obtain ⟨x, hx, hnoted⟩ := h.session
  obtain ⟨q, hq, hsays⟩ := SaysOn.foldl (fun e y => Die.takeEntry_saysOn e y) l e _ hnoted
  refine ⟨x, q, hx, hq, ?_⟩
  rw [Die.streamIn_front hf hfront]
  exact Die.respond_told hsays 0x50 stOk m.seq []

/-- One entry that is taken. -/
theorem Passed.entryTaken (h : Passed m d e) (hf : e.fwRuns = true) (hfront : e.isFront = true) {x : StreamEntry}
    (hx : d.entryRefused x = none) : ((e.streamIn m [x] ack).ctx x.ctx).state = (d.ctx x.ctx).state ∧
    ((e.streamIn m [x] ack).ctx x.ctx).prompt =
      placeTokens (d.ctx x.ctx).promptRcvd x.offset x.tokens (d.ctx x.ctx).prompt := by
  obtain ⟨c, g, hstate, hprompt, htake⟩ := Die.takeEntry_of_none ((h.wire.entryRefused x).trans hx)
  have hctx : (e.streamIn m [x] ack).ctx x.ctx = c := by
    rw [Die.streamIn_front hf hfront, (Die.respondIf_wireOnly _ _ _ _ _ _ _).ctx, List.foldl_cons, List.foldl_nil, htake,
      (Die.modMeter_keepsCtxs _ _ _).ctx, Die.ctx_putCtx_same]
  rw [h.wire.ctx] at hstate hprompt
  rw [hctx]
  exact ⟨hstate, hprompt⟩

/-- One entry that is refused changes no context and no memory. -/
theorem Passed.entryRefused (h : Passed m d e) (hf : e.fwRuns = true) (hfront : e.isFront = true) {x : StreamEntry} {r : Nat}
    (hx : d.entryRefused x = some r) :
    (e.streamIn m [x] ack).serve.ctxs = d.serve.ctxs ∧ SameMem d (e.streamIn m [x] ack) := by
  rw [Die.streamIn_front hf hfront, List.foldl_cons, List.foldl_nil, Die.takeEntry_of_some ((h.wire.entryRefused x).trans hx)]
  obtain ⟨b, hentry⟩ := e.entry_wireOnly { ctx := x.ctx, index := 0, token := 0xFFFFFFFF, flags := 8, reason := r, time := e.now }
  have hall := hentry.trans (Die.respondIf_wireOnly _ ack m.slot 0x50 stOk m.seq [])
  refine ⟨?_, fun a => (hall.mem a).trans (h.wire.mem a)⟩
  rw [hall.serve, ← h.wire.serve]
  rfl

end
end Sys2Proof.Machine
end

section
/-! PROOFS. Pages of a shipped context: sent, acknowledged, asked for again, lost, and received (R352 to R355, R363). -/
namespace Sys2Proof.Machine
variable {s : State} {d e : Die} {n page k : Nat}

theorem contains_addOnce (l : List Nat) (x : Nat) : (addOnce l x).contains x = true := by
  unfold addOnce
  split
  · assumption
  · simp

/-! ### The way of a page (R352, R457) -/

/-- A context's record has no part in the way of its pages. -/
theorem Die.shipDest_modCtx (d : Die) (n : Nat) (g : Ctx → Ctx) : (d.modCtx n g).shipDest = d.shipDest := by
  have hroute : (d.modCtx n g).serve.route = d.serve.route := by
    unfold Die.modCtx
    rw [Die.putCtx_serve]
  have htide : (d.modCtx n g).tide = d.tide := by
    unfold Die.modCtx Die.putCtx
    rw [Die.setBytes_tide]
  unfold Die.shipDest Die.relTo Die.torusSize Die.here Die.coord Die.get Die.getW
  rw [hroute, htide, Die.modCtx_regs]

theorem Die.nextLink_modCtx (d : Die) (n : Nat) (g : Ctx → Ctx) (dst : Nat) : (d.modCtx n g).nextLink dst = d.nextLink dst := by
  unfold Die.nextLink Die.torusSize Die.coord Die.get Die.getW
  rw [Die.modCtx_regs]

/-! ### A page goes out (R353) -/

/-- A page sent: it leaves on its link, and the record notes it. -/
theorem Die.shipPage_eq {dst : Nat} (hd : d.shipDest = some dst) (hk : d.nextLink dst = some k) (n page : Nat) :
    ∃ m, d.shipPage n page = (d.sent m (.shard k page (d.shipBytes n page) :: d.out)).modCtx n
      (fun c => { c with shipGot := addOnce c.shipGot page }) := by
  obtain ⟨m, hm⟩ := d.sendShard_eq k page (d.shipBytes n page) (d.ctx n).tenant false (some (dst + 2 ^ 15))
  refine ⟨m, ?_⟩
  unfold Die.shipPage
  rw [hd]
  dsimp only
  rw [hk]
  dsimp only
  rw [hm]

theorem Die.shipPage_shipped {dst : Nat} (hd : d.shipDest = some dst) (hk : d.nextLink dst = some k) (n page : Nat) :
    (d.shipPage n page).out = .shard k page (d.shipBytes n page) :: d.out ∧ (d.shipPage n page).regs = d.regs ∧
    (d.shipPage n page).ctx n = { d.ctx n with shipGot := addOnce (d.ctx n).shipGot page } := by
  obtain ⟨m, hm⟩ := Die.shipPage_eq hd hk n page
  rw [hm, Die.modCtx_out, Die.modCtx_regs, Die.ctx_modCtx_same]
  exact ⟨rfl, rfl, rfl⟩

/-! ### It is acknowledged, sent again or lost (R354, R355) -/

/-- An acknowledgement that is not the last is noted. -/
theorem Die.pageAck_more (h : (addOnce (d.ctx n).shipAcked page).length ≠ ((d.ctx n).promptLen + 63) / 64) :
    d.pageAck n page = d.modCtx n (fun c => { c with shipAcked := addOnce c.shipAcked page }) := by
  unfold Die.pageAck
  dsimp only
  rw [Die.ctx_modCtx_same, if_neg h, ite_self]

/-- The first three troubles of a page are counted. -/
theorem Die.resendPage_again (h : (look (d.ctx n).shipResends page).getD 0 < 3) (g : Die → Die) :
    d.resendPage n page g = g (d.modCtx n (fun x =>
      { x with shipResends := keep x.shipResends page ((look (d.ctx n).shipResends page).getD 0 + 1) })) := by
  unfold Die.resendPage
  exact if_neg (Nat.not_le.2 h)

/-- The fourth loses it: under FAIL the context ends. -/
theorem Die.resendPage_lost (h : 3 ≤ (look (d.ctx n).shipResends page).getD 0) (hf : d.isFront = true) (hr : d.reprefill = false)
    (g : Die → Die) : d.resendPage n page g = d.endCtx n csFailed 19 := by
  unfold Die.resendPage
  rw [if_pos h]
  unfold Die.pageLost
  rw [hf, hr, Bool.not_true, if_neg Bool.false_ne_true, Bool.not_false, if_pos rfl]

/-- A page sent again: it leaves once more, and the record counts it. -/
theorem Die.resendPage_shipped (h : (look (d.ctx n).shipResends page).getD 0 < 3) {dst : Nat} (hd : d.shipDest = some dst)
    (hk : d.nextLink dst = some k) : ∃ e, d.resendPage n page (fun e => e.shipPage n page) = e ∧
      (∃ bs, e.out = .shard k page bs :: d.out) ∧
      look (e.ctx n).shipResends page = some ((look (d.ctx n).shipResends page).getD 0 + 1) ∧ e.regs = d.regs := by
  refine ⟨_, Die.resendPage_again h _, ?_⟩
  obtain ⟨hout, hregs, hctx⟩ := Die.shipPage_shipped ((d.shipDest_modCtx n _).trans hd) ((d.nextLink_modCtx n _ dst).trans hk) n page
  rw [hout, hregs, hctx, Die.modCtx_out, Die.modCtx_regs, Die.ctx_modCtx_same]
  exact ⟨⟨_, rfl⟩, look_keep_same _ _ _, rfl⟩

/-- A page asked for: the message leaves on the link of its last shard, and the record counts it and notes the time. -/
theorem Die.askPage_asked (hl : (d.ctx n).shipLink = some k) (h : (look (d.ctx n).shipResends page).getD 0 < 3) (kind : Nat) :
    (d.askPage n page kind).out = .linkMsg k kind [n, page] :: d.out ∧ (d.askPage n page kind).regs = d.regs ∧
    (d.askPage n page kind).ctx n = { d.ctx n with
      shipClock := keep (d.ctx n).shipClock page d.now,
      shipResends := keep (d.ctx n).shipResends page ((look (d.ctx n).shipResends page).getD 0 + 1) } := by
  obtain ⟨m, hm⟩ := (d.modCtx n (fun c => { c with shipClock := keep c.shipClock page d.now })).tellLink_eq k kind [n, page]
  have hlinks : d.askLinks n = [k] := by
    unfold Die.askLinks
    rw [hl]
  have hctx : ((d.modCtx n (fun c => { c with shipClock := keep c.shipClock page d.now })).sent m
      (.linkMsg k kind [n, page] :: d.out)).ctx n = { d.ctx n with shipClock := keep (d.ctx n).shipClock page d.now } := by
    rw [(Die.sent_wireOnly _ _ _).ctx, Die.ctx_modCtx_same]
  rw [Die.modCtx_out] at hm
  unfold Die.askPage
  rw [hlinks, List.foldl_cons, List.foldl_nil, hm, Die.resendPage_again (by rw [hctx]; exact h)]
  dsimp only [id]
  rw [Die.modCtx_out, Die.modCtx_regs, Die.ctx_modCtx_same, hctx, Die.sent_out, Die.sent_regs, Die.modCtx_regs]
  exact ⟨rfl, rfl, rfl⟩

/-! ### A page arrives (R353, R354, R363) -/

/-- A bad shard is asked for again on the link it came over. -/
theorem Die.pageReceive_bad {m : PageShard} (hg : m.good = false) (h : (look (d.ctx m.ctx).shipResends m.page).getD 0 < 3) :
    (d.pageReceive m).out = .linkMsg m.link lmPageNak [m.ctx, m.page] :: d.out ∧ (d.pageReceive m).regs = d.regs ∧
    ((d.pageReceive m).ctx m.ctx).shipGot = (d.ctx m.ctx).shipGot := by
  have hctx := d.ctx_modCtx_same m.ctx (fun c => { c with shipLink := some m.link })
  obtain ⟨hout, hregs, hasked⟩ := Die.askPage_asked (page := m.page) (congrArg Ctx.shipLink hctx) (by rw [hctx]; exact h) lmPageNak
  unfold Die.pageReceive
  rw [hg, Bool.not_false, if_pos rfl, hout, hregs, hasked, hctx, Die.modCtx_out, Die.modCtx_regs]
  exact ⟨rfl, rfl, rfl⟩

/-- What a good shard notes in the record. -/
def Ctx.gotPage (c : Ctx) (m : PageShard) (now : Nat) : Ctx :=
  { c with
    shipLink := some m.link, shipGot := addOnce c.shipGot m.page, shipTotal := m.npages, shipToken := some m.firstToken,
    shipClock := keep c.shipClock (m.page + 1) ((look c.shipClock (m.page + 1)).getD now) }

/-- A good shard that is not the last goes into its page, is noted and acknowledged. -/
theorem Die.pageReceive_good {m : PageShard} (hg : m.good = true)
    (he : d.addPages m.ctx (m.page + 1 - (d.ctx m.ctx).pages.length) = some e)
    (hmore : (addOnce (e.ctx m.ctx).shipGot m.page).length ≠ m.npages) : d.pageReceive m =
      ((e.setBytes (4096 * (e.ctx m.ctx).pages.getD m.page 0) m.payload).modCtx m.ctx (fun c => c.gotPage m d.now)).tellLink m.link
        lmPageAck [m.ctx, m.page] := by
  have hctx : ∀ bs, ((((e.setBytes (4096 * (e.ctx m.ctx).pages.getD m.page 0) bs).modCtx m.ctx (fun c => c.gotPage m d.now)).tellLink
      m.link lmPageAck [m.ctx, m.page]).ctx m.ctx).shipGot = addOnce (e.ctx m.ctx).shipGot m.page := by
    intro bs
    rw [(Die.tellLink_wireOnly _ _ _ _).ctx, Die.ctx_modCtx_same, (Die.setBytes_keepsCtxs e _ _).ctx]
    rfl
  unfold Die.pageReceive
  dsimp only
  rw [hg, Bool.not_true, if_neg Bool.false_ne_true, he]
  dsimp only
  exact (ite_congr rfl (fun _ => rfl) (fun _ => if_neg (by rw [← hctx m.payload] at hmore; exact hmore))).trans (ite_self _)

/-- Memory below the context area is not a record's. -/
theorem Die.bytesAt_modCtx_below {a len : Nat} (h : a + len ≤ ctxArea) (d : Die) (n : Nat) (g : Ctx → Ctx) :
    (d.modCtx n g).bytesAt a len = d.bytesAt a len := by
  refine Die.bytesAt_congr fun c _ hc => ?_
  have hbelow : c < ctxArea + 256 * n := by omega
  exact Die.byteAt_setBytes_out _ _ _ c (.inl hbelow)

theorem Die.pageReceive_acked {m : PageShard} {a : Nat} (hg : m.good = true)
    (he : d.addPages m.ctx (m.page + 1 - (d.ctx m.ctx).pages.length) = some e) (ha : 4096 * (e.ctx m.ctx).pages.getD m.page 0 = a)
    (hbelow : a + m.payload.length ≤ ctxArea) (hmore : (addOnce (e.ctx m.ctx).shipGot m.page).length ≠ m.npages) :
    (d.pageReceive m).out.head? = some (.linkMsg m.link lmPageAck [m.ctx, m.page]) ∧
    ((d.pageReceive m).ctx m.ctx).shipGot.contains m.page = true ∧ (d.pageReceive m).bytesAt a m.payload.length = m.payload := by
  rw [Die.pageReceive_good hg he hmore, ha]
  generalize hd : (e.setBytes a m.payload).modCtx m.ctx (fun c => c.gotPage m d.now) = d3
  have hwire := d3.tellLink_wireOnly m.link lmPageAck [m.ctx, m.page]
  obtain ⟨q, hq⟩ := d3.tellLink_eq m.link lmPageAck [m.ctx, m.page]
  refine ⟨by rw [hq]; rfl, ?_, ?_⟩
  · rw [hwire.ctx, ← hd, Die.ctx_modCtx_same]
    exact contains_addOnce _ _
  · rw [hwire.mem.bytesAt, ← hd, Die.bytesAt_modCtx_below hbelow, Die.bytesAt_setBytes]

/-! ### The commands -/

section
variable (hl : s.die.live = true) (hf : s.die.fwRuns = true)
include hl hf

theorem exec_kvShipPage (ho : (s.die.ctx n).outgoing = true) (hlen : (s.die.ctx n).shipGot.length = page)
    (hp : page < ((s.die.ctx n).promptLen + 63) / 64) :
    exec (.kvShipPage n page) s = .next { s with die := s.die.shipPage n page } := by
  show execKvShipPage n page s = _
  exact mainCmd_ok hl (by simp [hf, ho, hlen, hp])

theorem exec_kvPageAck (ho : (s.die.ctx n).outgoing = true) (hg : (s.die.ctx n).shipGot.contains page = true) :
    exec (.kvPageAck n page) s = .next { s with die := s.die.pageAck n page } := by
  show execKvPageAck n page s = _
  exact mainCmd_ok hl (by rw [hf, ho, hg]; rfl)

theorem exec_kvPageNak (ho : (s.die.ctx n).outgoing = true) (hg : (s.die.ctx n).shipGot.contains page = true) :
    exec (.kvPageNak n page) s = .next { s with die := s.die.resendPage n page (fun e => e.shipPage n page) } := by
  show execKvPageNak n page s = _
  exact mainCmd_ok hl (by rw [hf, ho, hg]; rfl)

theorem exec_kvPageReceive {m : PageShard} {kv : KvParams} (hst : (s.die.ctx m.ctx).state = csShipping)
    (hin : (s.die.ctx m.ctx).flag cfShipIn = true) (hp : m.page < m.npages) (hkv : s.die.serve.kv = some kv)
    (hlen : m.payload.length = pageBytes kv) :
    exec (.kvPageReceive m) s = .next { s with die := s.die.pageReceive m } := by
  show execKvPageReceive m s = _
  exact mainCmd_ok hl (by simp [hf, hst, hin, hp, hkv, hlen])

theorem exec_kvShipTimeout (ht : s.die.shipLate n page = true) :
    exec (.kvShipTimeout n page) s = .next { s with die := s.die.askPage n page lmPageReq } := by
  show execKvShipTimeout n page s = _
  exact mainCmd_ok hl (by rw [hf, ht]; rfl)

end

/-- A page is late (R354). -/
theorem Die.shipLate_of {x : Nat} (hst : (d.ctx n).state = csShipping) (hin : (d.ctx n).flag cfShipIn = true)
    (hp : page < ((d.ctx n).promptLen + 63) / 64) (hg : (d.ctx n).shipGot.contains page = false)
    (hx : look (d.ctx n).shipClock page = some x ∨ look (d.ctx n).shipClock page = none ∧ page = 0 ∧ x = (d.ctx n).since)
    (ht : x + d.shipTmoNs ≤ d.now) : d.shipLate n page = true := by
  unfold Die.shipLate
  dsimp only
  rcases hx with hx | ⟨hx, h0, hs⟩
  · rw [hst, hin, hg, hx]
    simp [hp, ht]
  · subst h0 hs
    rw [hst, hin, hg, hx]
    simp [hp, ht]

end Sys2Proof.Machine
end

section
/-! PROOFS. Slice messages, and the family of prompts, pages and slice messages as a whole (R329, R350, R352 to R355). -/
namespace Sys2Proof.Machine
variable {s : State} {d : Die} {n k : Nat}

/-! ### Slice messages (R329) -/

theorem exec_sliceMessage (hl : s.die.live = true) (hf : s.die.fwRuns = true) (ha : s.die.frontAt.isSome = true) (m : SliceMsg) :
    exec (.sliceMessageReceive m) s = .next { s with die := s.die.sliceMsg m } := by
  show execSliceMessageReceive m s = _
  exact mainCmd_ok hl (by rw [hf, ha]; rfl)

/-- At the front a message is acted on. -/
theorem Die.sliceMsg_front (h : d.isFront = true) (m : SliceMsg) : d.sliceMsg m = d.frontMsg m := by
  unfold Die.sliceMsg
  exact if_pos h

/-- Elsewhere a message toward the front goes to the parent. -/
theorem Die.toFront_parent (h : d.parentLink = some k) (kind : Nat) (words : List Nat) :
    d.toFront kind words = d.tellLink k kind words := by
  unfold Die.toFront
  rw [h]

theorem Die.sliceMsg_freePages (h : d.isFront = false) (hk : d.parentLink = some k) (m n : Nat) :
    d.sliceMsg (.freePages m n) = d.tellLink k lmFreePages [m, n] := by
  unfold Die.sliceMsg
  dsimp only
  rw [h, if_neg Bool.false_ne_true, Die.toFront_parent hk]
  rfl

theorem Die.sliceMsg_ctxLost (h : d.isFront = false) (hk : d.parentLink = some k) (n st r pd oc : Nat) :
    d.sliceMsg (.ctxLost n st r pd oc) = d.tellLink k lmCtxLost [n, st, r, pd, oc] := by
  unfold Die.sliceMsg
  dsimp only
  rw [h, if_neg Bool.false_ne_true, Die.toFront_parent hk]
  rfl

/-- A record from the front goes to every child, and this module's copy follows it. -/
theorem Die.sliceMsg_ctxState (h : d.isFront = false) (n : Nat) (c : CtxCopy) :
    ∃ e, WireOnly d e ∧ d.sliceMsg (.ctxState n c) = e.followCtx n c := by
  refine ⟨_, d.toChildren_wireOnly (sliceWords (.ctxState n c)).1 (sliceWords (.ctxState n c)).2, ?_⟩
  unfold Die.sliceMsg
  dsimp only
  rw [h, if_neg Bool.false_ne_true]

/-- The copy of a record that has become FREE is empty. -/
theorem Die.followCtx_free {c : CtxCopy} (h : c.state = csFree) (d : Die) (n : Nat) : (d.followCtx n c).ctx n = {} := by
  unfold Die.followCtx
  extract_lets _ ended d1 d2
  rw [if_pos h]
  have hput : d2.ctx n = {} := d1.ctx_putCtx_same n {}
  have hleaving : ∀ (e : Die) (l : List (Nat × Ctx)), KeepsCtxs e { e with serve := { e.serve with leaving := l } } :=
    fun e _ => e.setServe_keepsCtxs e.tenancy rfl rfl
  exact (((KeepsCtxs.refl d2).ite (hleaving d2 _)).ctx n).trans hput

/-- The copy of a record that is queued, decodes or is parked takes the record over. -/
theorem Die.followCtx_same {c : CtxCopy} (h : c.state = csQueued ∨ c.state = csDecode ∨ c.state = csParked) (d : Die) (n : Nat) :
    (d.followCtx n c).ctx n = (d.ctx n).follow c d.now := by
  have hstates : ∀ x ∈ [csDone, csFailed, csFree, csPrefill], c.state ≠ x := by
    rcases h with h | h | h <;> rw [h] <;> decide
  simp only [List.mem_cons, List.not_mem_nil, or_false, forall_eq_or_imp, forall_eq] at hstates
  obtain ⟨hdone, hfailed, hfree, hprefill⟩ := hstates
  unfold Die.followCtx
  simp only [hdone, hfailed, hfree, hprefill, decide_false, Bool.or_false, Bool.false_and, Bool.false_eq_true, if_false, false_and,
    Die.ctx_modCtx_same]

/-! ### The obligation -/

/-- STREAM_IN (R334, R350). -/
theorem streamIn_effect {m : MsgHead} {l : List StreamEntry} {ack : Bool} (ha : s.die.accepts m 0x50 2 = true)
    (hlen : ∀ e ∈ l, 1 ≤ e.tokens.length ∧ e.tokens.length ≤ 2048) :
    (s.die.fwRuns = false → ∃ u : State, exec (.streamIn m l ack) s = .next u ∧ (ack = true → Responded m 0x50 stNoFirmware [] s.die u.die) ∧
      (ack = false → ∀ x, s.die.session m.slot = some x → ∃ y, u.die.session m.slot = some y ∧ y.devSeq = x.devSeq ∧ y.cache = x.cache) ∧
      u.die.serve = s.die.serve ∧ SameMem s.die u.die) ∧
    (s.die.fwRuns = true → s.die.isFront = false → ∃ u : State, exec (.streamIn m l ack) s = .next u ∧
      (ack = true → Responded m 0x50 stNotFront [] s.die u.die) ∧ u.die.serve = s.die.serve ∧ SameMem s.die u.die) ∧
    (s.die.fwRuns = true → s.die.isFront = true →
      (ack = true → ∃ u : State, exec (.streamIn m l ack) s = .next u ∧ ∃ (x : Session) (q : Nat), s.die.session m.slot = some x ∧
        x.devSeq ≤ q ∧ Told x.src 0x50 (({ x with devSeq := q } : Session).message 1 0x50 stOk m.seq []) u.die) ∧
      (∀ e, l = [e] → s.die.entryRefused e = none → ∃ u : State, exec (.streamIn m l ack) s = .next u ∧
        (u.die.ctx e.ctx).state = (s.die.ctx e.ctx).state ∧ ∀ i, i < e.tokens.length →
          (s.die.ctx e.ctx).promptRcvd ≤ e.offset + i → look (s.die.ctx e.ctx).prompt (e.offset + i) = none →
          look (u.die.ctx e.ctx).prompt (e.offset + i) = e.tokens[i]?) ∧
      (∀ e r, l = [e] → s.die.entryRefused e = some r → ∃ u : State, exec (.streamIn m l ack) s = .next u ∧
        u.die.serve.ctxs = s.die.serve.ctxs ∧ SameMem s.die u.die)) := by
  obtain ⟨d1, hpass, hexec⟩ := exec_streamIn ha hlen (ack := ack)
  refine ⟨fun hf => ?_, fun hf hn => ?_, fun hf hn => ⟨?_, ?_, ?_⟩⟩
  · obtain ⟨hyes, hno, hserve, hmem⟩ := hpass.refused (l := l) (ack := ack) (Die.streamIn_noFirmware (hpass.fwRuns.trans hf))
    refine ⟨_, hexec, hyes, fun hq x hx => ?_, hserve, hmem⟩
    dsimp only
    rw [hno hq]
    exact hpass.quiet hx
  · obtain ⟨hyes, -, hserve, hmem⟩ := hpass.refused (l := l) (ack := ack)
      (Die.streamIn_notFront (hpass.fwRuns.trans hf) (hpass.wire.isFront.trans hn))
    exact ⟨_, hexec, hyes, hserve, hmem⟩
  · rintro rfl
    exact ⟨_, hexec, hpass.streamed (hpass.fwRuns.trans hf) (hpass.wire.isFront.trans hn)⟩
  · rintro e rfl he
    obtain ⟨hstate, hprompt⟩ := hpass.entryTaken (ack := ack) (hpass.fwRuns.trans hf) (hpass.wire.isFront.trans hn) he
    refine ⟨_, hexec, hstate, fun i hi hr hnone => ?_⟩
    dsimp only
    rw [hprompt]
    exact look_placeTokens hi hr hnone
  · rintro e r rfl he
    exact ⟨_, hexec, hpass.entryRefused (hpass.fwRuns.trans hf) (hpass.wire.isFront.trans hn) he⟩

section
variable (hl : s.die.live = true) (hf : s.die.fwRuns = true)
include hl hf

/-- The pages of an outgoing context (R353 to R355). -/
theorem kvPage_effect {page : Nat} (ho : (s.die.ctx n).outgoing = true) :
    (∀ dst k, (s.die.ctx n).shipGot.length = page → page < ((s.die.ctx n).promptLen + 63) / 64 → s.die.shipDest = some dst →
      s.die.nextLink dst = some k → ∃ u : State, exec (.kvShipPage n page) s = .next u ∧
      u.die.out = .shard k page (s.die.shipBytes n page) :: s.die.out ∧ u.die.regs = s.die.regs ∧
      u.die.ctx n = { s.die.ctx n with shipGot := addOnce (s.die.ctx n).shipGot page }) ∧
    ((s.die.ctx n).shipGot.contains page = true →
      ((addOnce (s.die.ctx n).shipAcked page).length ≠ ((s.die.ctx n).promptLen + 63) / 64 → ∃ u : State,
        exec (.kvPageAck n page) s = .next u ∧ u.die.ctx n = { s.die.ctx n with
          shipAcked := addOnce (s.die.ctx n).shipAcked page } ∧ u.die.regs = s.die.regs) ∧
      (∀ dst k, (look (s.die.ctx n).shipResends page).getD 0 < 3 → s.die.shipDest = some dst → s.die.nextLink dst = some k →
        ∃ u : State, exec (.kvPageNak n page) s = .next u ∧ (∃ bs, u.die.out = .shard k page bs :: s.die.out) ∧
        look (u.die.ctx n).shipResends page = some ((look (s.die.ctx n).shipResends page).getD 0 + 1) ∧
        u.die.regs = s.die.regs) ∧
      (3 ≤ (look (s.die.ctx n).shipResends page).getD 0 → s.die.isFront = true → s.die.reprefill = false → ∃ u : State,
        exec (.kvPageNak n page) s = .next u ∧ (u.die.ctx n).state = csFailed ∧ (u.die.ctx n).reason = 19)) := by
  refine ⟨fun dst k hlen hp hd hk => ?_, fun hg => ⟨fun hmore => ?_, fun dst k h3 hd hk => ?_, fun h3 hn hr => ?_⟩⟩
  · exact ⟨_, exec_kvShipPage hl hf ho hlen hp, Die.shipPage_shipped hd hk n page⟩
  · refine ⟨_, exec_kvPageAck hl hf ho hg, ?_⟩
    dsimp only
    rw [Die.pageAck_more hmore, Die.ctx_modCtx_same, Die.modCtx_regs]
    exact ⟨rfl, rfl⟩
  · obtain ⟨e, he, hout, hcount, hregs⟩ := Die.resendPage_shipped h3 hd hk
    refine ⟨_, exec_kvPageNak hl hf ho hg, ?_⟩
    dsimp only
    rw [he]
    exact ⟨hout, hcount, hregs⟩
  · refine ⟨_, exec_kvPageNak hl hf ho hg, ?_⟩
    dsimp only
    rw [Die.resendPage_lost h3 hn hr]
    have hended := s.die.endCtx_ended n csFailed 19
    exact ⟨hended.state, hended.reason⟩

/-- Slice messages (R329). -/
theorem sliceMessage_effect (ha : s.die.frontAt.isSome = true) :
    (∀ m, s.die.isFront = true → exec (.sliceMessageReceive (.freePages m n)) s = .next { s with
      die := { s.die with serve := { s.die.serve with others := keep s.die.serve.others m n } } }) ∧
    (s.die.isFront = true → ∃ u : State, exec (.sliceMessageReceive (.packMissing n)) s = .next u ∧
      u.die.serve.packMissing.contains n = true ∧ u.die.regs = s.die.regs) ∧
    (∀ k m, s.die.isFront = false → s.die.parentLink = some k → exec (.sliceMessageReceive (.freePages m n)) s = .next { s with
      die := s.die.tellLink k lmFreePages [m, n] }) ∧
    (∀ k, s.die.isFront = false → k.state = csFree → ∃ u : State, exec (.sliceMessageReceive (.ctxState n k)) s = .next u ∧
      u.die.ctx n = {}) ∧
    (∀ k, s.die.isFront = false → k.state = csQueued ∨ k.state = csDecode ∨ k.state = csParked → ∃ u : State,
      exec (.sliceMessageReceive (.ctxState n k)) s = .next u ∧ u.die.ctx n = (s.die.ctx n).follow k s.die.now) ∧
    (∀ k st r pd oc, s.die.isFront = false → s.die.parentLink = some k →
      exec (.sliceMessageReceive (.ctxLost n st r pd oc)) s = .next { s with
        die := s.die.tellLink k lmCtxLost [n, st, r, pd, oc] }) := by
  refine ⟨fun m h => ?_, fun h => ?_, fun k m h hk => ?_, fun c h hc => ?_, fun c h hc => ?_, fun k st r pd oc h hk => ?_⟩
  · rw [exec_sliceMessage hl hf ha, Die.sliceMsg_front h]
    rfl
  · refine ⟨_, exec_sliceMessage hl hf ha _, ?_⟩
    dsimp only
    rw [Die.sliceMsg_front h]
    exact ⟨contains_addOnce _ _, rfl⟩
  · rw [exec_sliceMessage hl hf ha, Die.sliceMsg_freePages h hk]
  · obtain ⟨e, -, he⟩ := Die.sliceMsg_ctxState h n c
    refine ⟨_, exec_sliceMessage hl hf ha _, ?_⟩
    dsimp only
    rw [he, Die.followCtx_free hc]
  · obtain ⟨e, hwire, he⟩ := Die.sliceMsg_ctxState h n c
    refine ⟨_, exec_sliceMessage hl hf ha _, ?_⟩
    dsimp only
    rw [he, Die.followCtx_same hc, hwire.ctx, hwire.now]
  · rw [exec_sliceMessage hl hf ha, Die.sliceMsg_ctxLost h hk]

end

/-- Settles O47: the prompt by the fold over an entry's tokens, pages by the one link they take, slice messages by their kinds. -/
theorem promptsPagesAndSliceMessagesArrive : Obligations.PromptsPagesAndSliceMessagesArrive := by
  unfold Obligations.PromptsPagesAndSliceMessagesArrive
  refine fun s => ⟨fun m l ack ha hlen => streamIn_effect ha hlen, fun hl hf => ⟨fun n page ho => kvPage_effect hl hf ho, ?_, ?_, ?_⟩,
    fun m hl hf ha => exec_sliceMessage hl hf ha m, fun n page hl hf ho hlen hp => exec_kvShipPage hl hf ho hlen hp, ?_,
    fun n page hl hf ho hg => exec_kvPageAck hl hf ho hg, fun n page hl hf ho hg => exec_kvPageNak hl hf ho hg,
    fun n page hl hf ht => exec_kvShipTimeout hl hf ht, ?_⟩
  · intro m kv hst hin hp hkv hlen _
    have hexec := exec_kvPageReceive hl hf hst hin hp hkv hlen
    exact ⟨fun hg h3 => ⟨_, hexec, Die.pageReceive_bad hg h3⟩,
      fun e a hg he haddr hbelow hmore => ⟨_, hexec, Die.pageReceive_acked hg he haddr hbelow hmore⟩⟩
  · intro n page k x hst hin hp hg h3 hx ht hk
    obtain ⟨hout, hregs, hctx⟩ := Die.askPage_asked hk h3 lmPageReq
    refine ⟨_, exec_kvShipTimeout hl hf (Die.shipLate_of hst hin hp hg hx ht), hout, ?_, ?_, hregs⟩
    · dsimp only
      rw [hctx]
      exact look_keep_same _ _ _
    · dsimp only
      rw [hctx]
      exact look_keep_same _ _ _
  · exact fun n ha => sliceMessage_effect hl hf ha
  · intro m hl hf hst hin hp hlen
    cases hkv : s.die.serve.kv with
    | none => simp [hkv] at hlen
    | some kv => exact exec_kvPageReceive hl hf hst hin hp hkv (by simpa [hkv] using hlen)
  · intro m entries ack hl hcan
    show execStreamIn m entries ack s = _
    exact mainCmd_ok hl hcan

end Sys2Proof.Machine
end

section
/-! SUPPORT. What filling a step and taking a plan leave of the tide: its table stays (R339, R343). -/
namespace Sys2Proof.Machine
variable {d e : Die}

theorem KeepsTide.table (h : KeepsTide d e) : e.tide.table = d.tide.table := congrArg Prod.fst h.counts

/-! ### Pages (R337) -/

theorem Die.takePage_keepsTide {u : Nat} (h : d.takePage = some (u, e)) : KeepsTide d e := by
  unfold Die.takePage at h
  split at h
  · cases h
  · split at h
    · cases h
    · obtain ⟨-, rfl⟩ := Prod.mk.inj (Option.some.inj h)
      exact keepsTide_of_eq rfl rfl

theorem Die.appendPage_keepsTide {n u : Nat} (h : d.appendPage n u = some e) : KeepsTide d e := by
  unfold Die.appendPage at h
  extract_lets p withLeaf at h
  have hleaf : ∀ x, withLeaf = some x → KeepsTide d x := by
    intro x hx
    unfold withLeaf at hx
    split at hx
    · split at hx
      · cases hx
      · next l y hy =>
        rw [← Option.some.inj hx]
        exact (Die.takePage_keepsTide hy).trans (Die.modCtx_keepsTide _ n _)
    · rw [← Option.some.inj hx]
      exact KeepsTide.refl d
  clear_value withLeaf
  cases withLeaf with
  | none => cases h
  | some x =>
    have hpage := (hleaf x rfl).trans (x.modCtx_keepsTide n (fun c => { c with pages := c.pages ++ [u], reserve := c.reserve - 1 }))
    dsimp only at h
    split at h
    · rw [← Option.some.inj h]
      exact hpage
    · rw [← Option.some.inj h]
      exact hpage.trans (Die.setBytes_keepsTide _ _ _)

theorem Die.addPage_keepsTide {n : Nat} (h : d.addPage n = some e) : KeepsTide d e := by
  unfold Die.addPage at h
  split at h
  · cases h
  · next u x hx => exact (Die.takePage_keepsTide hx).trans (Die.appendPage_keepsTide h)

theorem Die.addPages_keepsTide {n k : Nat} (h : d.addPages n k = some e) : KeepsTide d e := by
  induction k generalizing d with
  | zero =>
    rw [← Option.some.inj h]
    exact KeepsTide.refl d
  | succ m ih =>
    unfold Die.addPages at h
    split at h
    · cases h
    · next x hx => exact (Die.addPage_keepsTide hx).trans (ih h)

/-! ### Before a fill places anything (R337, R349, R373) -/

theorem Die.dropLate_keepsTide (d : Die) (n : Nat) : KeepsTide d (d.dropLate n) := by
  have hmeter : ∀ (e : Die) (t : Nat) (g : Meter → Meter), KeepsTide e (e.modMeter t g) := fun _ _ _ => keepsTide_of_eq rfl rfl
  unfold Die.dropLate
  exact ((d.endCtx_keepsTide n csDone 5).trans (hmeter _ _ _)).ite (KeepsTide.refl d)

theorem Die.resumePages_keepsTide (d : Die) (t : Table) (n : Nat) : KeepsTide d (d.resumePages t n) := by
  unfold Die.resumePages
  exact ((d.ctxTo_keepsTide n _ 0).ite (KeepsTide.refl d)).ite (KeepsTide.refl d)

theorem Die.matchPages_keepsTide (fuel : Nat) (d : Die) (n : Nat) : KeepsTide d (Die.matchPages fuel d n) := by
  have hcount : ∀ (e : Die) (k t : Nat) (g : Meter → Meter),
      KeepsTide e ({ e with tenancy := { e.tenancy with matched := k } }.modMeter t g) := fun _ _ _ _ => keepsTide_of_eq rfl rfl
  induction fuel generalizing d with
  | zero => exact KeepsTide.refl d
  | succ k ih =>
    unfold Die.matchPages
    refine (KeepsTide.refl d).ite ?_
    dsimp only
    split
    · exact KeepsTide.refl d
    · split
      · exact KeepsTide.refl d
      · next e he =>
        refine KeepsTide.trans ((Die.appendPage_keepsTide he).trans ?_) (ih _)
        exact ((e.prefixDo_keepsTide _).trans (Die.modCtx_keepsTide _ n _)).trans (hcount _ _ _ _)

theorem Die.matchCtx_keepsTide (d : Die) (n : Nat) : KeepsTide d (d.matchCtx n) := by
  have hlookup : ∀ k, KeepsTide d { d with tenancy := { d.tenancy with lookups := k } } := fun _ => keepsTide_of_eq rfl rfl
  unfold Die.matchCtx
  exact (KeepsTide.refl d).ite ((hlookup _).trans (Die.matchPages_keepsTide _ _ n))

theorem Die.beforeFill_keepsTide (d : Die) (t : Table) : KeepsTide d (d.beforeFill t) := by
  have hlate : ∀ (e : Die) (l : List Nat), KeepsTide e (l.foldl (fun e n => if e.holdsBerth n then e else e.dropLate n) e) := fun e _ =>
    KeepsTide.foldl (fun e n _ => (KeepsTide.refl e).ite (e.dropLate_keepsTide n)) e
  have hresume : ∀ (e : Die) (l : List Nat), KeepsTide e (l.foldl (fun e n => e.resumePages t n) e) := fun e _ =>
    KeepsTide.foldl (fun e n _ => e.resumePages_keepsTide t n) e
  have hmatch : ∀ (e : Die) (l : List Nat),
      KeepsTide e (l.foldl (fun e n => if (e.ctx n).state = csQueued then e.matchCtx n else e) e) := fun e _ =>
    KeepsTide.foldl (fun e n _ => (e.matchCtx_keepsTide n).ite (KeepsTide.refl e)) e
  unfold Die.beforeFill
  exact ((hlate _ _).trans (hresume _ _)).trans (hmatch _ _)

/-! ### A fill (R339, R366) -/

/-- A fill goes on: its step and the tide stay. -/
structure FillsOn (f g : Fill) : Prop where
  die : KeepsTide f.die g.die
  step : g.step = f.step

/-- Only the die, the berths placed, the budget and the free berths move. -/
theorem fillsOn_set {f : Fill} {e : Die} (h : KeepsTide f.die e) (placed : List PlanBerth) (attn : Nat) (free : List Nat) :
    FillsOn f ⟨e, f.step, placed, attn, free⟩ := ⟨h, rfl⟩

theorem FillsOn.refl (f : Fill) : FillsOn f f := ⟨KeepsTide.refl _, rfl⟩
theorem FillsOn.trans {f g h : Fill} (a : FillsOn f g) (b : FillsOn g h) : FillsOn f h := ⟨a.die.trans b.die, b.step.trans a.step⟩

theorem FillsOn.ite {p : Prop} [Decidable p] {f g h : Fill} (a : FillsOn f g) (b : FillsOn f h) : FillsOn f (if p then g else h) := by
  split
  · exact a
  · exact b

theorem Die.setCredit_keepsTide (d : Die) (t kind : Nat) (v : Int) : KeepsTide d (d.setCredit t kind v) := keepsTide_of_eq rfl rfl

theorem Die.shareCredits_keepsTide (d : Die) (kind n : Nat) (back : List Nat) : KeepsTide d (d.shareCredits kind n back) := by
  unfold Die.shareCredits
  refine KeepsTide.trans (KeepsTide.foldl (fun e t _ => ?_) d) (KeepsTide.foldl (fun e t _ => ?_) _)
  · exact e.setCredit_keepsTide t kind 0
  · exact e.setCredit_keepsTide t kind _

theorem Fill.tryPlace_fillsOn (f : Fill) (t : Table) (kind n : Nat) (steer : Bool) : FillsOn f (f.tryPlace t kind n steer) := by
  unfold Fill.tryPlace
  extract_lets c q len apt need extra d1 got
  refine (FillsOn.refl f).ite ?_
  have hevict : KeepsTide f.die d1 := by
    unfold d1
    exact (KeepsTide.refl _).ite (Die.withTree_keepsTide (Die.evictWhile_keepsTide _ _ _))
  have hpages : ∀ d2, got = some d2 → KeepsTide d1 d2 := by
    intro d2 hgot
    unfold got at hgot
    split at hgot
    · exact Die.addPages_keepsTide hgot
    · cases hgot
  clear_value got d1
  cases got with
  | none => exact fillsOn_set (hevict.trans (d1.parkCtx_keepsTide n 33)) _ _ _
  | some d2 =>
    have hmod := fun g => (hevict.trans (hpages d2 rfl)).trans (d2.modCtx_keepsTide n g)
    exact fillsOn_set (((hmod _).trans (Die.ctxTo_keepsTide _ n _ 0)).ite (hmod _)) _ _ _

theorem Fill.pass_fillsOn (f : Fill) (t : Table) (kind : Nat) (first : Bool) (l : List Nat) : FillsOn f (f.pass t kind first l) := by
  unfold Fill.pass
  refine List.foldlRecOn (motive := fun g => FillsOn f g) _ _ (FillsOn.refl f) fun g hg n _ => hg.trans ?_
  have hplace := g.tryPlace_fillsOn t kind n true
  exact (FillsOn.refl g).ite (hplace.ite ⟨hplace.die.trans (Die.setCredit_keepsTide _ _ _ _), hplace.step⟩)

theorem Fill.kind_fillsOn (f : Fill) (t : Table) (kind : Nat) (berths : List Nat) : FillsOn f (f.kind t kind berths) := by
  have hshare : ∀ n back, FillsOn f { f with die := f.die.shareCredits kind n back, free := berths } := fun n back =>
    ⟨f.die.shareCredits_keepsTide kind n back, rfl⟩
  unfold Fill.kind
  exact ((hshare _ _).trans (Fill.pass_fillsOn _ t kind true _)).trans (Fill.pass_fillsOn _ t kind false _)

/-- The whole fill is of the next step, and the table stays. -/
theorem Die.fillStep_fillsOn (d : Die) (t : Table) : KeepsTide d (d.fillStep t).die ∧ (d.fillStep t).step = d.serve.nextStep := by
  have hkinds : ∀ f : Fill, FillsOn f ((f.kind t 1 (List.range t.decode)).kind t 2 ((List.range t.chunk).map (· + t.decode))) :=
    fun f => (f.kind_fillsOn t 1 _).trans (Fill.kind_fillsOn _ t 2 _)
  have hbefore : KeepsTide d (d.withTree (fun e => e.beforeFill t)) := Die.withTree_keepsTide (d.beforeFill_keepsTide t)
  unfold Die.fillStep
  extract_lets d1 f
  exact ⟨KeepsTide.trans (e := f.die) hbefore (hkinds f).die, (hkinds f).step⟩

theorem Die.decidePlan_keepsTide (d : Die) (t : Table) : KeepsTide d (d.decidePlan t).2 := by
  have hsent : ∀ (e : Die) (x : Serve) (y : Tenancy), KeepsTide e (e.setServe x y) := fun _ _ _ => keepsTide_of_eq rfl rfl
  exact (d.fillStep_fillsOn t).1.trans (hsent _ _ _)

/-! ### A plan received (R328, R343) -/

theorem Die.prefixFollow_keepsTide (d : Die) (o : PrefixOp) : KeepsTide d (d.prefixFollow o) := by
  have hop := d.prefixOp_keepsTide o
  cases o with
  | hold n i =>
    dsimp only [Die.prefixFollow]
    split
    · exact hop
    · refine (hop.trans (Die.modHeld_keepsTide _ n _)).ite (KeepsTide.ite ?_ hop)
      refine hop.trans ?_
      generalize d.prefixOp (.hold n i) = e
      cases hpage : e.appendPage n _ with
      | none => exact KeepsTide.refl e
      | some x => exact Die.appendPage_keepsTide hpage
  | leave n page =>
    dsimp only [Die.prefixFollow]
    exact ((d.accrueCtx_keepsTide n).ite (KeepsTide.refl d)).trans (Die.prefixOp_keepsTide _ _)
  | make i n page key parent tenant pack => exact hop
  | delete i => exact hop
  | publish i key parent => exact hop
  | unkey i => exact hop

theorem Die.cacheCtx_keepsTide (d : Die) (n : Nat) : KeepsTide d (d.cacheCtx n) := by
  obtain ⟨l, hl⟩ := d.cacheCtx_eq n
  rw [hl]
  exact keepsTide_of_eq rfl rfl

theorem Die.copyBerth_keepsTide (d : Die) (b : PlanBerth) : KeepsTide d (d.copyBerth b) := by
  unfold Die.copyBerth
  extract_lets c d1
  have hcopy : KeepsTide d d1 := (d.cacheCtx_keepsTide b.ctx).trans (Die.modCtx_keepsTide _ b.ctx _)
  split
  · next e he => exact hcopy.trans (Die.addPages_keepsTide he)
  · exact hcopy

end Sys2Proof.Machine
end

section
/-! SUPPORT. What writing berth inputs leaves of the steps in flight: a fault may mark one, and its number and berths stay (R342, R345,
R369). -/
namespace Sys2Proof.Machine
variable {d e f : Die}

/-- The step number of the next fill, the plan that waits, the steering copies that run, and every step with its berths. -/
structure KeepsSteps (d e : Die) : Prop where
  nextStep : e.serve.nextStep = d.serve.nextStep
  heldPlan : e.serve.heldPlan = d.serve.heldPlan
  steerWait : e.serve.steerWait = d.serve.steerWait
  steps : ∀ x ∈ d.serve.steps, ∃ y ∈ e.serve.steps, y.step = x.step ∧ y.berths = x.berths

theorem KeepsSteps.ofServe (h : e.serve = d.serve) : KeepsSteps d e := by
  refine ⟨?_, ?_, ?_, fun x hx => ⟨x, ?_, rfl, rfl⟩⟩
  · rw [h]
  · rw [h]
  · rw [h]
  · rw [h]
    exact hx

theorem KeepsSteps.refl (d : Die) : KeepsSteps d d := KeepsSteps.ofServe rfl

theorem KeepsSteps.trans (h : KeepsSteps d e) (k : KeepsSteps e f) : KeepsSteps d f := by
  refine ⟨k.nextStep.trans h.nextStep, k.heldPlan.trans h.heldPlan, k.steerWait.trans h.steerWait, fun x hx => ?_⟩
  obtain ⟨y, hy, hstep, hberths⟩ := h.steps x hx
  obtain ⟨z, hz, hstep', hberths'⟩ := k.steps y hy
  exact ⟨z, hz, hstep'.trans hstep, hberths'.trans hberths⟩

theorem KeepsSteps.ite {p : Prop} [Decidable p] (h : KeepsSteps d e) (k : KeepsSteps d f) : KeepsSteps d (if p then e else f) := by
  split
  · exact h
  · exact k

theorem KeepsSteps.foldl {β : Type} {g : Die → β → Die} (hg : ∀ e x, KeepsSteps e (g e x)) (l : List β) (d : Die) :
    KeepsSteps d (l.foldl g d) :=
  List.foldlRecOn (motive := fun e => KeepsSteps d e) _ _ (KeepsSteps.refl d) fun e h x _ => h.trans (hg e x)

theorem WireOnly.keepsSteps (h : WireOnly d e) : KeepsSteps d e := KeepsSteps.ofServe h.serve
theorem TilesOnly.keepsSteps (h : TilesOnly d e) : KeepsSteps d e := KeepsSteps.ofServe (by rw [h])

/-! ### A write through the packet plane (R185, R186, R345) -/

/-- A mark on a step leaves its number and berths. -/
theorem Die.modStep_keepsSteps (d : Die) (n : Nat) {g : StepRec → StepRec} (hs : ∀ x, (g x).step = x.step)
    (hb : ∀ x, (g x).berths = x.berths) : KeepsSteps d (d.modStep n g) := by
  refine ⟨rfl, rfl, rfl, fun x hx => ⟨_, List.mem_map_of_mem hx, ?_⟩⟩
  split
  · exact ⟨hs x, hb x⟩
  · exact ⟨rfl, rfl⟩

theorem Die.stepFault_keepsSteps (d : Die) : KeepsSteps d d.stepFault := by
  have hmark : ∀ n, KeepsSteps d (d.modStep n (fun x => { x with faulted := true })) := fun n =>
    d.modStep_keepsSteps n (fun _ => rfl) (fun _ => rfl)
  unfold Die.stepFault Die.stepFaultAt
  exact ((hmark _).trans (Die.toFront_wireOnly _ _ _).keepsSteps).ite (KeepsSteps.refl d)

theorem Die.tileFault_keepsSteps (d : Die) (t kind thread opcode region offset tag : Nat) :
    KeepsSteps d (d.tileFault t kind thread opcode region offset tag) := by
  have hlatch : ∀ a b c w0 w1 w2 (on : Bool), KeepsSteps d (if on then d else ((d.putW a w0).putW b w1).putW c w2) :=
    fun _ _ _ _ _ _ _ => (KeepsSteps.refl d).ite (KeepsSteps.ofServe rfl)
  have hcount : ∀ (e : Die) (cnt status : Fld) (ev : Nat) (words : List Nat),
      KeepsSteps e (((e.bump cnt 1).raise status).record 0x10 ev t 0xFFFF words) := fun e cnt status ev words =>
    KeepsSteps.trans (e := (e.bump cnt 1).raise status) (KeepsSteps.ofServe rfl) (Die.record_wireOnly _ _ _ _ _ _).keepsSteps
  unfold Die.tileFault
  extract_lets d1 words d2
  have hboth : KeepsSteps d d2 := (hlatch _ _ _ _ _ _ _).trans ((hcount _ _ _ _ _).ite (hcount _ _ _ _ _))
  exact (hboth.trans (d2.emit_wireOnly _).keepsSteps).trans (Die.stepFault_keepsSteps _)

theorem Die.opWrite_keepsSteps (d : Die) (t word : Nat) (bs : List Byte) : KeepsSteps d (d.opWrite t word bs) := by
  have hset : ∀ (e : Die) (a : Nat), KeepsSteps e (e.setBytes a bs) := fun e a => KeepsSteps.ofServe (e.setBytes_serve a bs)
  unfold Die.opWrite
  exact ((d.sramUse_tilesOnly t _ _).keepsSteps.trans (hset _ _)).ite (d.tileFault_keepsSteps t _ _ _ _ _ _)

/-! ### Slots, lists and packs of a berth (R338, R342, R369) -/

theorem Die.copySteer_keepsSteps (d : Die) (base : Nat) (x : SteerEntry) (pack slot : Nat) :
    KeepsSteps d (d.copySteer base x pack slot) := by
  unfold Die.copySteer
  split
  · exact KeepsSteps.refl d
  · split
    · exact KeepsSteps.refl d
    · exact d.opWrite_keepsSteps _ _ _

theorem Die.copyPack_keepsSteps (d : Die) (tenant pack step : Nat) : KeepsSteps d (d.copyPack tenant pack step) := by
  refine KeepsSteps.foldl (fun e q => (KeepsSteps.refl e).ite ?_) _ d
  split
  · exact KeepsSteps.refl e
  · exact e.copySteer_keepsSteps _ _ _ _

theorem Die.fillPin_keepsSteps (d : Die) (q : Nat × SteerEntry) (tenant pack : Nat) : KeepsSteps d (d.fillPin q tenant pack) := by
  have hpinned : ∀ l, KeepsSteps d { d with tenancy := { d.tenancy with pinned := l } } := fun _ => KeepsSteps.ofServe rfl
  unfold Die.fillPin
  split
  · exact KeepsSteps.refl d
  · exact (hpinned _).trans (Die.copySteer_keepsSteps _ _ _ _ _)

/-- Pinned slots are kept with the tenants. -/
theorem Die.pinSlots_serve {t : Nat} {l : List (Nat × SteerEntry)} (h : d.pinSlots t l = some e) : e.serve = d.serve := by
  induction l generalizing d with
  | nil => rw [← Option.some.inj h]
  | cons q r ih =>
    unfold Die.pinSlots at h
    split at h
    · exact ih h
    · split at h
      · cases h
      · exact (ih h).trans rfl

theorem Die.pinSlots_getD_serve (d : Die) (t : Nat) (l : List (Nat × SteerEntry)) : ((d.pinSlots t l).getD d).serve = d.serve := by
  cases h : d.pinSlots t l with
  | none => rfl
  | some e => exact Die.pinSlots_serve h

theorem Die.pinCopies_keepsSteps (d : Die) (b : PlanBerth) : KeepsSteps d (d.pinCopies b) := by
  unfold Die.pinCopies
  refine (KeepsSteps.refl d).ite ((KeepsSteps.ofServe (d.pinSlots_getD_serve b.tenant d.steerEntries)).trans ?_)
  exact KeepsSteps.foldl (fun e q => (e.fillPin_keepsSteps q b.tenant b.pack).ite (KeepsSteps.refl e)) _ _

theorem Die.writeSlot_keepsSteps (d : Die) (base : Nat) (b : PlanBerth) (ps : List Patch) (tile slot : Nat) :
    KeepsSteps d (d.writeSlot base b ps tile slot) := by
  unfold Die.writeSlot
  dsimp only
  split
  · exact KeepsSteps.refl d
  · exact d.opWrite_keepsSteps _ _ _

theorem Die.writeSlots_keepsSteps (d : Die) (b : PlanBerth) : KeepsSteps d (d.writeSlots b) := by
  unfold Die.writeSlots
  split
  · exact KeepsSteps.refl d
  · exact KeepsSteps.foldl (fun e (q : Nat × Nat) => e.writeSlot_keepsSteps _ b _ q.1 q.2) _ d

theorem Die.writeLists_keepsSteps (d : Die) (b : PlanBerth) : KeepsSteps d (d.writeLists b) := by
  unfold Die.writeLists
  split
  · exact KeepsSteps.refl d
  · exact (KeepsSteps.refl d).ite (KeepsSteps.foldl (fun e q => e.opWrite_keepsSteps _ _ _) _ d)

theorem Die.writePacks_keepsSteps (d : Die) (b : PlanBerth) (step : Nat) : KeepsSteps d (d.writePacks b step) :=
  KeepsSteps.foldl (fun e _ => e.opWrite_keepsSteps _ _ _) _ d

theorem Die.writeInput_keepsSteps (d : Die) (t : Table) (x : BerthEnt) (step : Nat) (b : PlanBerth) :
    KeepsSteps d (d.writeInput t x step b) := by
  have hparts := (((d.writeSlots_keepsSteps b).trans (Die.writeLists_keepsSteps _ b)).trans (Die.pinCopies_keepsSteps _ b)).trans
    (Die.writePacks_keepsSteps _ b step)
  unfold Die.writeInput
  exact (hparts.trans (Die.opWrite_keepsSteps _ _ _ _)).trans (Die.mark_tilesOnly _ _ _ _ _).keepsSteps

/-- Writing the inputs that are ready (R342). -/
theorem Die.serveInputs_keepsSteps (d : Die) : KeepsSteps d d.serveInputs := by
  have htaken : ∀ (e : Die) l k, KeepsSteps e { e with serve := { e.serve with inputs := l, inStep := k } } :=
    fun _ _ _ => ⟨rfl, rfl, rfl, fun x hx => ⟨x, hx, rfl, rfl⟩⟩
  unfold Die.serveInputs
  split
  · exact KeepsSteps.refl d
  · next t ht =>
    refine KeepsSteps.foldl (fun e q => ?_) _ d
    dsimp only
    split
    · exact KeepsSteps.refl e
    · exact (htaken e _ _).trans (Die.writeInput_keepsSteps _ t _ q.1 q.2)

/-! ### Tenant changes of a plan (R358) -/

theorem Die.bktProgram_serve (d : Die) : d.bktProgram.serve = d.serve := by
  unfold Die.bktProgram
  dsimp only
  split
  · exact List.foldlRecOn (motive := fun (e : Die) => e.serve = d.serve) _ _ rfl fun _ h _ _ => h
  · rfl

theorem Die.tenantsChange_serve (d : Die) (l : List (Nat × TenantParams)) : (d.tenantsChange l).serve = d.serve := by
  have hacting : ∀ e : Die, (l.foldl (fun e p => { e with tenancy := { e.tenancy with
      acting := amSet defaultTenant e.tenancy.acting p.1 p.2 } }) e).serve = e.serve := fun e =>
    List.foldlRecOn (motive := fun (x : Die) => x.serve = e.serve) _ _ rfl fun _ h _ _ => h
  have hpins : ∀ e : Die, (l.foldl (fun (e : Die) p => if p.2.packId = 0 then e else (e.pinSlots p.1 e.steerEntries).getD e) e).serve =
      e.serve := fun e => by
    refine List.foldlRecOn (motive := fun (x : Die) => x.serve = e.serve) _ _ rfl fun x h p _ => ?_
    split
    · exact h
    · exact (x.pinSlots_getD_serve p.1 _).trans h
  unfold Die.tenantsChange
  split
  · rfl
  · exact ((Die.bktProgram_serve _).trans (hpins _)).trans (hacting d)

/-! ### A plan acted on (R343) -/

/-- The die with one more step in flight, whose inputs and copies wait. -/
def Die.addStep (d : Die) (x : StepRec) (inputs : List (Nat × PlanBerth)) (wait : List Nat) : Die :=
  { d with serve := { d.serve with
    steps := d.serve.steps ++ [x], inputs := d.serve.inputs ++ inputs, steerWait := d.serve.steerWait ++ wait } }

/-- A plan's step as it begins. -/
def plannedStep (p : StepPlan) : StepRec := { step := p.step, berths := sortBy (fun b => [b.berth]) (p.berths.map keptBerth) }

theorem Die.actPlan_eq {t : Table} (ht : d.tide.table = some t) (p : StepPlan) :
    ∃ inputs wait, d.actPlan p = (d.addStep (plannedStep p) inputs wait).serveInputs := by
  unfold Die.actPlan
  rw [ht]
  exact ⟨_, _, rfl⟩

/-- A module that acts on a plan has its step, with the plan's berths in order. -/
theorem Die.actPlan_step {t : Table} (ht : d.tide.table = some t) (p : StepPlan) :
    (∃ x ∈ (d.actPlan p).serve.steps, x.step = p.step ∧ x.berths = sortBy (fun b => [b.berth]) (p.berths.map keptBerth)) ∧
    (d.actPlan p).serve.nextStep = d.serve.nextStep ∧ (d.actPlan p).serve.heldPlan = d.serve.heldPlan := by
  obtain ⟨inputs, wait, hact⟩ := Die.actPlan_eq ht p
  have hserved := (d.addStep (plannedStep p) inputs wait).serveInputs_keepsSteps
  rw [hact]
  exact ⟨hserved.steps (plannedStep p) (List.mem_append_right _ (List.mem_singleton_self _)), hserved.nextStep, hserved.heldPlan⟩

end Sys2Proof.Machine
end

section
/-! PROOFS. Steps fill their berths, run on the slice and retire (R330, R339, R340, R343 to R345, R369, R377). -/
namespace Sys2Proof.Machine
variable {s : State} {d e : Die} {t : Table}

/-! ### Fills and plans (R330, R339, R343) -/

/-- A plan with a record that is not cached waits. -/
theorem Die.sendPlan_held {p : StepPlan} (h : ∃ b ∈ p.berths, d.serve.cache.contains b.ctx = false) :
    d.sendPlan p = { d with serve := { d.serve with heldPlan := some p } } := by
  obtain ⟨b, hb, hc⟩ := h
  unfold Die.sendPlan
  exact if_pos (List.any_eq_true.2 ⟨b, hb, by rw [hc]; rfl⟩)

/-- The die once a plan goes out. -/
def Die.planOut (d : Die) (n : Nat) : Die := { d with serve := { d.serve with nextStep := n, heldPlan := none } }

/-- A plan whose records are all cached goes out, and the front acts on it. -/
theorem Die.sendPlan_cached {p : StepPlan} (ht : d.tide.table = some t) (h : ∀ b ∈ p.berths, d.serve.cache.contains b.ctx = true) :
    (d.sendPlan p).serve.nextStep = p.step + 1 ∧ (d.sendPlan p).serve.heldPlan = none ∧
    ∃ x ∈ (d.sendPlan p).serve.steps, x.step = p.step ∧ x.berths = sortBy (fun b => [b.berth]) (p.berths.map keptBerth) := by
  have hcached : p.berths.any (fun b => !d.serve.cache.contains b.ctx) = false := by
    simpa using h
  have hsend : ∃ q : StepPlan, q.step = p.step ∧ q.berths = p.berths ∧
      d.sendPlan p = (((d.planOut (q.step + 1)).toChildren lmPlan (planWords q)).actPlan q).tenantsChange q.tenants := by
    unfold Die.sendPlan
    rw [hcached, if_neg Bool.false_ne_true]
    exact ⟨{ p with ctxs := d.liveCtxs.map (fun (q : Nat × Ctx) => (q.1, q.2.copy)) }, rfl, rfl, rfl⟩
  obtain ⟨q, hstep, hberths, hq⟩ := hsend
  have hwire := (d.planOut (q.step + 1)).toChildren_wireOnly lmPlan (planWords q)
  have htable := ((d.planOut (q.step + 1)).toChildren_keepsTide lmPlan (planWords q)).table.trans ht
  obtain ⟨hsteps, hnext, hheld⟩ := Die.actPlan_step htable q
  rw [hq, Die.tenantsChange_serve, hnext, hheld, hwire.serve, ← hstep, ← hberths]
  exact ⟨rfl, rfl, hsteps⟩

/-- A module that receives a plan has its step. -/
theorem Die.planReceive_step (ht : d.tide.table = some t) (p : StepPlan) : ∃ x ∈ (d.planReceive p).serve.steps,
    x.step = p.step ∧ x.berths = sortBy (fun b => [b.berth]) (p.berths.map keptBerth) := by
  have hcfg : ∀ e : Die, KeepsTide e (p.tenants.foldl (fun e q => { e with tenancy := { e.tenancy with
      cfg := amSet defaultTenant e.tenancy.cfg q.1 q.2 } }) e) := fun e => by
    refine KeepsTide.foldl (fun x q _ => ?_) e
    exact keepsTide_of_eq rfl rfl
  have hfollow : ∀ e : Die, KeepsTide e (p.ctxs.foldl (fun e q => e.modCtx q.1 (fun c => c.follow q.2 d.now)) e) := fun e => by
    refine KeepsTide.foldl (fun x q _ => ?_) e
    exact x.modCtx_keepsTide q.1 _
  have hcopy : ∀ e : Die, KeepsTide e (p.berths.foldl (fun e b => e.copyBerth b) e) := fun e =>
    KeepsTide.foldl (fun e b _ => e.copyBerth_keepsTide b) e
  have htree : ∀ e : Die, KeepsTide e (e.withTree (fun e => p.prefixes.foldl (fun x o => x.prefixFollow o) e)) := fun e =>
    Die.withTree_keepsTide (KeepsTide.foldl (fun e o _ => e.prefixFollow_keepsTide o) e)
  have hlack : ∀ (e : Die) (l : List (Nat × TenantParams)), KeepsTide e (l.foldl (fun e q => e.toFront lmPackMissing [q.1]) e) :=
    fun e l => KeepsTide.foldl (fun e _ _ => e.toFront_keepsTide _ _) e
  unfold Die.planReceive
  extract_lets d1 d2 d3 d4 lacking d5
  have hall : KeepsTide d d5 :=
    (((((d.toChildren_keepsTide lmPlan (planWords p)).trans (htree d1)).trans (hcopy d2)).trans (hfollow _)).trans (hcfg d3)).trans
      (hlack d4 lacking)
  rw [(Die.tellFree_wireOnly _).serve, Die.tenantsChange_serve]
  exact (Die.actPlan_step (hall.table.trans ht) p).1

/-- The streamed copies of a berth are complete (R369). -/
theorem Die.steerDone_steerWait (d : Die) (b : Nat) : (d.steerDone b).serve.steerWait = without d.serve.steerWait b := by
  unfold Die.steerDone
  extract_lets d1
  have hcopied : KeepsSteps d d1 := by
    unfold d1
    split
    · exact d.copyPack_keepsSteps _ _ _
    · exact KeepsSteps.refl d
  rw [(Die.serveInputs_keepsSteps _).steerWait]
  exact congrArg (without · b) hcopied.steerWait

/-! ### The context cache (R330) -/

/-- A record is fetched where the cache has it, has room, or holds one that may leave. -/
theorem Die.cacheCtx_contains {n : Nat} (h : d.serve.cache.contains n = true ∨ d.serve.cache.length < 16384 ∨
    ∃ m ∈ d.serve.cache, d.holdsBerth m = false ∧ (d.ctx m).state ≠ csShipping) :
    (d.cacheCtx n).serve.cache.contains n = true := by
  have hput : ∀ l : List Nat, (l ++ [n]).contains n = true := fun l => by simp
  unfold Die.cacheCtx
  by_cases hin : d.serve.cache.contains n = true
  · rw [if_pos hin]
    exact hin
  · rw [if_neg hin]
    by_cases hroom : d.serve.cache.length < 16384
    · rw [if_pos hroom]
      exact hput _
    · obtain ⟨m, hm, hb, hs⟩ := (h.resolve_left hin).resolve_left hroom
      rw [if_neg hroom]
      cases hfind : d.serve.cache.find? (fun m => !d.holdsBerth m && (d.ctx m).state != csShipping) with
      | none => exact absurd (List.find?_eq_none.1 hfind m hm) (by simp [hb, hs])
      | some k => exact hput _

/-! ### Results (R344, R195) -/

/-- The tiles have no part in the tree of the slice. -/
theorem TilesOnly.parentLink (h : TilesOnly d e) : e.parentLink = d.parentLink := by
  rw [h]
  rfl

/-- At the front a FULL result is taken for its berth. -/
theorem Die.berthResult_front (hf : d.isFront = true) (hin : d.serve.inputs = []) (b : BerthEnt) :
    d.berthResult b = (d.mark b.outTile (b.outOp / 2 ^ 24 % 256) false false).putValue b.berth
      (d.bytesAt (d.rgnAddr b.outTile (b.outOp / 2 ^ 24 % 256) (b.outOp % 2 ^ 24)) 16) (d.isPoison b.outTile (b.outOp / 2 ^ 24 % 256)) := by
  unfold Die.berthResult
  dsimp only
  rw [if_pos hf]
  exact Die.serveInputs_of_none hin

/-- Elsewhere it goes to the parent. -/
theorem Die.berthResult_toParent {k : Nat} (hf : d.isFront = false) (hk : d.parentLink = some k) (hin : d.serve.inputs = []) (b : BerthEnt) :
    d.berthResult b = (d.mark b.outTile (b.outOp / 2 ^ 24 % 256) false false).tellLink k lmResult (resultWords b.berth
      (d.bytesAt (d.rgnAddr b.outTile (b.outOp / 2 ^ 24 % 256) (b.outOp % 2 ^ 24)) 16) (d.isPoison b.outTile (b.outOp / 2 ^ 24 % 256))) := by
  have hmark := d.mark_tilesOnly b.outTile (b.outOp / 2 ^ 24 % 256) false false
  unfold Die.berthResult
  dsimp only
  rw [hf, if_neg Bool.false_ne_true, Die.toFront_parent (hmark.parentLink.trans hk)]
  refine Die.serveInputs_of_none ?_
  rw [(Die.tellLink_wireOnly _ _ _ _).serve]
  exact hin

/-- A result is noted at its berth in the step it belongs to. -/
theorem Die.putResult_steps {b n token : Nat} {poison : Bool} (hn : (look d.serve.outSeen b).getD 0 = n) {x : StepRec}
    (hx : x ∈ d.serve.steps) (hs : x.step = n) {y : Berth} (hy : y ∈ x.berths) (hb : y.berth = b) :
    ∃ x' ∈ (d.putResult b token poison).serve.steps, x'.step = n ∧
      ∃ y' ∈ x'.berths, y'.ctx = y.ctx ∧ y'.result = some (token, poison) := by
  unfold Die.putResult
  rw [hn]
  refine ⟨_, List.mem_map_of_mem hx, ?_⟩
  rw [if_pos hs]
  refine ⟨hs, _, List.mem_map_of_mem hy, ?_⟩
  rw [if_pos hb]
  exact ⟨rfl, rfl⟩

end Sys2Proof.Machine
end

section
/-! PROOFS. Berths retire (R344, R345), and the family of steps as a whole. -/
namespace Sys2Proof.Machine
variable {s : State} {d e : Die} {t : Table} {n token : Nat} {poison : Bool} {x : StepRec} {b : Berth}

/-! ### A berth retires (R344, R345) -/

/-- The die with other steps in flight. -/
def Die.setSteps (d : Die) (l : List StepRec) : Die := { d with serve := { d.serve with steps := l } }

/-- A berth that is not the last of its step: its context alone is acted on. -/
theorem Die.berthRetire_eq (hx : d.serve.steps.find? (fun y => !y.done) = some x) (hb : x.berths[x.retired]? = some b)
    (hr : b.result = some (token, poison)) (hmore : x.retired + 1 < x.berths.length) : ∃ l, d.berthRetire b.berth =
      if poison || x.faulted then (d.setSteps l).retireBad x b poison else (d.setSteps l).retireGood x b token := by
  unfold Die.berthRetire
  rw [hx]
  dsimp only
  rw [hb]
  dsimp only
  rw [hr]
  dsimp only
  rw [if_pos rfl]
  unfold Die.retire
  dsimp only
  rw [if_neg (Nat.ne_of_lt hmore)]
  exact ⟨_, rfl⟩

/-- Berths retire in berth order: another one waits. -/
theorem Die.berthRetire_other (hx : d.serve.steps.find? (fun y => !y.done) = some x) (hb : x.berths[x.retired]? = some b)
    {k : Nat} (hk : k ≠ b.berth) : d.berthRetire k = d := by
  unfold Die.berthRetire
  rw [hx]
  dsimp only
  rw [hb]
  dsimp only
  split
  · rfl
  · exact if_neg (Ne.symm hk)

/-! ### A token is delivered (R344, R346, R349) -/

/-- The record with a token delivered. -/
def Ctx.delivered (c : Ctx) (token : Nat) (degraded : Bool) (now : Nat) : Ctx :=
  let c1 := { c with
    lastTokens := keep c.lastTokens (c.outCount % 16) token, outCount := c.outCount + 1, tLast := now, rng := xorshift32 c.rng }
  if degraded then c1.setFlag cfDegraded else c1

/-- The mark of a degraded step is a flag alone. -/
theorem Ctx.delivered_keeps (c : Ctx) (token : Nat) (degraded : Bool) (now : Nat) :
    (c.delivered token degraded now).outCount = c.outCount + 1 ∧ (c.delivered token degraded now).state = c.state ∧
    (c.delivered token degraded now).rng = xorshift32 c.rng ∧ (c.delivered token degraded now).tLast = now ∧
    (c.delivered token degraded now).lastTokens = keep c.lastTokens (c.outCount % 16) token := by
  cases degraded
  · exact ⟨rfl, rfl, rfl, rfl, rfl⟩
  · exact ⟨rfl, rfl, rfl, rfl, rfl⟩

/-- A token in time that ends nothing: the record takes it, it is counted, and it leaves in the stream. -/
theorem Die.deliver_plain (hlate : (d.ctx n).lateAt d.now = false) (hstop : (d.ctx n).stop.contains token = false)
    (hmax : (d.ctx n).outCount + 1 ≠ (d.ctx n).maxOut) (hlen : (d.ctx n).promptLen + (d.ctx n).outCount + 1 ≠ 1048576)
    (degraded : Bool) : ∃ o g, (∀ m : Meter, (g m).tokensOut = m.tokensOut + 1) ∧ d.deliver n token degraded =
      ((d.putCtx n ((d.ctx n).delivered token degraded d.now)).modMeter (d.ctx n).tenant g).entry o := by
  unfold Die.deliver
  dsimp only
  rw [hlate, hstop, Bool.false_and, if_neg Bool.false_ne_true, if_neg Bool.false_ne_true, if_neg Bool.false_ne_true, if_neg hmax,
    if_neg hlen, if_pos rfl]
  exact ⟨_, _, fun _ => rfl, rfl⟩

theorem Die.meter_modMeter_same (d : Die) (t : Nat) (g : Meter → Meter) : (d.modMeter t g).meter t = g (d.meter t) :=
  amGet_amSet_same _ _ _ _

/-- An entry of the stream is no part of tenancy. -/
theorem Die.entry_tenancy (d : Die) (o : StreamOut) : (d.entry o).tenancy = d.tenancy := by
  obtain ⟨l, hwire⟩ := d.entry_wireOnly o
  exact hwire.tenancy

theorem Die.meter_of_tenancy (h : e.tenancy = d.tenancy) (t : Nat) : e.meter t = d.meter t := by
  unfold Die.meter
  rw [h]

/-- What a token delivered leaves: the record that took it, and the tenant's count. -/
theorem Die.deliver_effect (hlate : (d.ctx n).lateAt d.now = false) (hstop : (d.ctx n).stop.contains token = false)
    (hmax : (d.ctx n).outCount + 1 ≠ (d.ctx n).maxOut) (hlen : (d.ctx n).promptLen + (d.ctx n).outCount + 1 ≠ 1048576)
    (degraded : Bool) : (d.deliver n token degraded).ctx n = (d.ctx n).delivered token degraded d.now ∧
      ((d.deliver n token degraded).meter (d.ctx n).tenant).tokensOut = (d.meter (d.ctx n).tenant).tokensOut + 1 := by
  obtain ⟨o, g, hg, hdeliver⟩ := Die.deliver_plain hlate hstop hmax hlen degraded
  rw [hdeliver, (Die.entry_keepsCtxs _ o).ctx, (Die.modMeter_keepsCtxs _ _ _).ctx, Die.ctx_putCtx_same,
    Die.meter_of_tenancy (Die.entry_tenancy _ o), Die.meter_modMeter_same, hg, Die.meter_of_tenancy (Die.putCtx_tenancy _ _ _)]
  exact ⟨rfl, rfl⟩

/-! ### A troubled berth (R345) -/

/-- The record of a context that is tried again. -/
def Ctx.retried (c : Ctx) (now : Nat) : Ctx := { c.setFlag cfRetried with trouble := some now }

theorem Ctx.retried_flag (c : Ctx) (now : Nat) : (c.retried now).flag cfRetried = true := by
  have hbit : bits (setBits c.flags cfRetried 1 1) cfRetried 1 = 1 := bits_setBits_same _ _ _ _
  exact decide_eq_true hbit

/-- A deadline that has not passed drops nothing. -/
theorem Die.dropLate_inTime (h : (d.ctx n).lateAt d.now = false) : d.dropLate n = d := by
  unfold Die.dropLate
  dsimp only
  rw [h, Bool.and_false, Bool.false_and, if_neg Bool.false_ne_true]

/-- The first trouble of a context in time, where the policy is to retry, is noted. -/
theorem Die.retireBad_again {p : StepParams} (hst : (d.ctx b.ctx).state = csDecode) (ht : (d.ctx b.ctx).trouble = none)
    (hlate : (d.ctx b.ctx).lateAt d.now = false) (hp : d.serve.stepCfg = some p) (hpol : p.failPolicy ≠ some true) :
    d.retireBad x b poison = d.modCtx b.ctx (fun c => c.retried (d.serve.base + x.step)) := by
  have hretry : p.failPolicy.getD false = false := by
    cases hq : p.failPolicy with
    | none => rfl
    | some v => cases v with
      | false => rfl
      | true => exact absurd hq hpol
  have hstate : ¬ ((d.ctx b.ctx).state ≠ csPrefill ∧ (d.ctx b.ctx).state ≠ csDecode) := fun h => h.2 hst
  unfold Die.retireBad
  dsimp only
  rw [if_neg hstate, hp, ht]
  dsimp only
  rw [if_neg (by rw [hretry]; decide)]
  refine Die.dropLate_inTime ?_
  rw [Die.ctx_modCtx_same, (d.modCtx_keepsFront b.ctx _).now]
  exact hlate

/-! ### The commands, and what each leaves -/

/-- The plan that a fill decides: the berths it placed, in order, for the next step. -/
theorem Die.decidePlan_plan (d : Die) (t : Table) :
    (d.decidePlan t).1.berths = sortBy (fun b => [b.berth]) (d.fillStep t).placed ∧ (d.decidePlan t).1.step = (d.fillStep t).step := by
  unfold Die.decidePlan
  generalize d.fillStep t = f
  exact ⟨rfl, rfl⟩

theorem exec_stepFill (hl : s.die.live = true) (hm : s.die.mayFill = true) : exec .stepFill s = .next { s with die := s.die.stepFill } := by
  show execStepFill s = _
  exact mainCmd_ok hl hm

/-- A fill that decides a plan (R330, R339, R343). -/
theorem stepFill_decides {p : StepPlan} (hl : s.die.live = true) (hm : s.die.mayFill = true) (ht : s.die.tide.table = some t)
    (hnone : s.die.serve.heldPlan = none) (hp : s.die.decidePlan t = (p, e)) :
    p.berths = sortBy (fun b => [b.berth]) (s.die.fillStep t).placed ∧ p.step = s.die.serve.nextStep ∧
    ((∃ b ∈ p.berths, e.serve.cache.contains b.ctx = false) → exec .stepFill s = .next { s with
      die := { e with serve := { e.serve with heldPlan := some p } } }) ∧
    ((∀ b ∈ p.berths, e.serve.cache.contains b.ctx = true) → ∃ u : State, exec .stepFill s = .next u ∧
      u.die.serve.nextStep = p.step + 1 ∧ ∃ x ∈ u.die.serve.steps, x.step = p.step ∧
      x.berths = sortBy (fun b => [b.berth]) (p.berths.map keptBerth)) := by
  have htable : e.tide.table = some t := by
    have hkeeps := (s.die.decidePlan_keepsTide t).table
    rw [hp] at hkeeps
    exact hkeeps.trans ht
  have hfill : s.die.stepFill = e.sendPlan p := by
    unfold Die.stepFill
    rw [hnone, ht]
    dsimp only
    rw [hp]
  have hexec := exec_stepFill hl hm
  rw [hfill] at hexec
  obtain ⟨hberths, hstep⟩ := s.die.decidePlan_plan t
  rw [hp] at hberths hstep
  refine ⟨hberths, hstep.trans (s.die.fillStep_fillsOn t).2, fun hmiss => ?_, fun hall => ?_⟩
  · rw [hexec, Die.sendPlan_held hmiss]
  · obtain ⟨hnext, -, hstep⟩ := Die.sendPlan_cached htable hall
    exact ⟨_, hexec, hnext, hstep⟩

/-- A fill while a plan waits (R330). -/
theorem stepFill_held {p : StepPlan} (hl : s.die.live = true) (hm : s.die.mayFill = true) (ht : s.die.tide.table = some t)
    (hp : s.die.serve.heldPlan = some p) :
    ((∃ b ∈ p.berths, s.die.serve.cache.contains b.ctx = false) → exec .stepFill s = .next s) ∧
    ((∀ b ∈ p.berths, s.die.serve.cache.contains b.ctx = true) → ∃ u : State, exec .stepFill s = .next u ∧
      u.die.serve.nextStep = p.step + 1 ∧ u.die.serve.heldPlan = none ∧ ∃ x ∈ u.die.serve.steps, x.step = p.step ∧
      x.berths = sortBy (fun b => [b.berth]) (p.berths.map keptBerth)) := by
  have hfill : s.die.stepFill = s.die.sendPlan p := by
    unfold Die.stepFill
    rw [hp]
  have hexec := exec_stepFill hl hm
  rw [hfill] at hexec
  refine ⟨fun hmiss => ?_, fun hall => ⟨_, hexec, Die.sendPlan_cached ht hall⟩⟩
  rw [hexec, Die.sendPlan_held hmiss, ← hp]

section
variable (hl : s.die.live = true) (hf : s.die.fwRuns = true)
include hl hf

theorem exec_stepPlanReceive (hn : s.die.isFront = false) (hp : s.die.parentLink.isSome = true) (p : StepPlan) :
    exec (.stepPlanReceive p) s = .next { s with die := s.die.planReceive p } := by
  show execStepPlanReceive p s = _
  exact mainCmd_ok hl (by rw [hf, hn, hp]; rfl)

theorem exec_steerCopyDone {k : Nat} (hw : s.die.serve.steerWait.contains k = true) :
    exec (.steerCopyDone k) s = .next { s with die := s.die.steerDone k } := by
  show execSteerCopyDone k s = _
  exact mainCmd_ok hl (by rw [hf, hw]; rfl)

theorem exec_contextFetch (hn : n < ctxCount) : exec (.contextFetch n) s = .next { s with die := s.die.cacheCtx n } := by
  show execContextFetch n s = _
  exact mainCmd_ok hl (by rw [hf, decide_eq_true hn]; rfl)

theorem exec_berthResult {y : BerthEnt} (ht : s.die.tide.table = some t) (hy : t.berths.find? (fun x => x.berth == y.berth) = some y)
    (hfull : s.die.isFull y.outTile (y.outOp / 2 ^ 24 % 256) = true) :
    exec (.berthResult y.berth) s = .next { s with die := s.die.berthResult y } := by
  have hany : t.berths.any (fun x => x.berth == y.berth && s.die.isFull x.outTile (x.outOp / 2 ^ 24 % 256)) = true :=
    List.any_eq_true.2 ⟨y, List.mem_of_find?_eq_some hy, by rw [hfull, beq_self_eq_true]; rfl⟩
  show execBerthResult y.berth s = _
  unfold execBerthResult
  rw [mainCmd_ok hl (by rw [hf, ht]; exact hany), ht]
  dsimp only
  rw [hy]

theorem exec_berthRetire (hn : s.die.isFront = true) (k : Nat) :
    exec (.berthRetire k) s = .next { s with die := s.die.berthRetire k } := by
  show execBerthRetire k s = _
  exact mainCmd_ok hl (by rw [hf, hn]; rfl)

/-- A FULL result (R344, R195). -/
theorem berthResult_effect {y : BerthEnt} {r : Nat} {v : List Byte} (ht : s.die.tide.table = some t)
    (hy : t.berths.find? (fun x => x.berth == y.berth) = some y) (hr : y.outOp / 2 ^ 24 % 256 = r)
    (hfull : s.die.isFull y.outTile r = true) (hin : s.die.serve.inputs = [])
    (hv : s.die.bytesAt (s.die.rgnAddr y.outTile r (y.outOp % 2 ^ 24)) 16 = v) {bad : Bool} (hbad : s.die.isPoison y.outTile r = bad)
    (hn : (look s.die.serve.outSeen y.berth).getD 0 = n) :
    (s.die.isFront = true → ∃ u : State, exec (.berthResult y.berth) s = .next u ∧ u.die.feOf y.outTile r = (false, false) ∧
      look u.die.serve.outSeen y.berth = some (n + 1) ∧ u.die.regs = s.die.regs ∧ SameMem s.die u.die ∧
      ∀ x ∈ s.die.serve.steps, x.step = n → ∀ z ∈ x.berths, z.berth = y.berth → ∃ x' ∈ u.die.serve.steps, x'.step = n ∧
        ∃ z' ∈ x'.berths, z'.ctx = z.ctx ∧ z'.result = some (leAt v 0 4, bit (leAt v 8 4) 0 || bad)) ∧
    (∀ k, s.die.isFront = false → s.die.parentLink = some k → ∃ u : State, exec (.berthResult y.berth) s = .next u ∧
      u.die.feOf y.outTile r = (false, false) ∧ u.die.regs = s.die.regs ∧
      u.die.out = .linkMsg k lmResult [y.berth, leAt v 0 8, leAt v 8 8, b2n bad] :: s.die.out) := by
  subst hr
  have hempty := s.die.feOf_mark_same y.outTile (y.outOp / 2 ^ 24 % 256) false false
  have hmark := s.die.mark_tilesOnly y.outTile (y.outOp / 2 ^ 24 % 256) false false
  refine ⟨fun hfront => ?_, fun k hfront hk => ?_⟩
  · refine ⟨_, exec_berthResult hl hf ht hy hfull, ?_⟩
    dsimp only
    rw [Die.berthResult_front hfront hin, hv, hbad]
    generalize hd : s.die.mark y.outTile (y.outOp / 2 ^ 24 % 256) false false = d1 at hempty hmark
    have hserve : d1.serve = s.die.serve := by rw [hmark]
    refine ⟨hempty, ?_, hmark.regs, hmark.mem, fun x hx hs z hz hb => ?_⟩
    · rw [← hn, ← hserve]
      exact look_keep_same _ _ _
    · rw [← hserve] at hn hx
      exact Die.putResult_steps hn hx hs hz hb
  · refine ⟨_, exec_berthResult hl hf ht hy hfull, ?_⟩
    dsimp only
    rw [Die.berthResult_toParent hfront hk hin, hv, hbad]
    generalize hd : s.die.mark y.outTile (y.outOp / 2 ^ 24 % 256) false false = d1 at hempty hmark
    obtain ⟨m, hm⟩ := d1.tellLink_eq k lmResult (resultWords y.berth v bad)
    have hout : d1.out = s.die.out := by rw [hmark]
    rw [hm, Die.sent_regs, Die.sent_out, hout]
    exact ⟨hempty, hmark.regs, rfl⟩

/-- A berth retires, in berth order (R344, R345). -/
theorem berthRetire_effect {c : Ctx} (hn : s.die.isFront = true) (hx : s.die.serve.steps.find? (fun y => !y.done) = some x)
    (hb : x.berths[x.retired]? = some b) (hr : b.result = some (token, poison)) (hmore : x.retired + 1 < x.berths.length)
    (hc : s.die.ctx b.ctx = c) (hst : c.state = csDecode) (hkind : b.kind = 1) :
    ((poison || x.faulted) = false → c.lateAt s.die.now = false → c.stop.contains token = false → c.outCount + 1 ≠ c.maxOut →
      c.promptLen + c.outCount + 1 ≠ 1048576 → ∃ u : State, exec (.berthRetire b.berth) s = .next u ∧
      (u.die.ctx b.ctx).outCount = c.outCount + 1 ∧ (u.die.ctx b.ctx).state = csDecode ∧
      (u.die.ctx b.ctx).rng = xorshift32 c.rng ∧ (u.die.ctx b.ctx).tLast = s.die.now ∧
      look (u.die.ctx b.ctx).lastTokens (c.outCount % 16) = some token ∧
      (u.die.meter c.tenant).tokensOut = (s.die.meter c.tenant).tokensOut + 1) ∧
    (∀ p, (poison || x.faulted) = true → c.trouble = none → c.lateAt s.die.now = false → s.die.serve.stepCfg = some p →
      p.failPolicy ≠ some true → ∃ u : State,
      exec (.berthRetire b.berth) s = .next u ∧ (u.die.ctx b.ctx).outCount = c.outCount ∧
      (u.die.ctx b.ctx).state = csDecode ∧ (u.die.ctx b.ctx).flag cfRetried = true ∧
      (u.die.ctx b.ctx).trouble = some (s.die.serve.base + x.step)) ∧
    (∀ k, k ≠ b.berth → exec (.berthRetire k) s = .next s) := by
  subst hc
  obtain ⟨l, hretire⟩ := Die.berthRetire_eq hx hb hr hmore
  have hexec := exec_berthRetire hl hf hn b.berth
  rw [hretire] at hexec
  refine ⟨fun hgood hlate hstop hmax hlen => ?_, fun p hbad htr hlate hp hpol => ?_, fun k hk => ?_⟩
  · rw [hgood, if_neg Bool.false_ne_true] at hexec
    have hgoes : (s.die.setSteps l).retireGood x b token = (s.die.setSteps l).deliver b.ctx token x.degraded := by
      unfold Die.retireGood
      exact (if_pos hkind).trans (if_pos hst)
    obtain ⟨hctx, hmeter⟩ := Die.deliver_effect (d := s.die.setSteps l) hlate hstop hmax hlen x.degraded
    obtain ⟨hcount, hstate, hrng, hlast, htokens⟩ := (s.die.ctx b.ctx).delivered_keeps token x.degraded s.die.now
    refine ⟨_, hexec, ?_⟩
    dsimp only
    rw [hgoes, hctx]
    refine ⟨hcount, hstate.trans hst, hrng, hlast, ?_, hmeter⟩
    exact (congrArg (look · _) htokens).trans (look_keep_same _ _ _)
  · rw [hbad, if_pos rfl] at hexec
    have hagain := Die.retireBad_again (d := s.die.setSteps l) (x := x) (poison := poison) hst htr hlate hp hpol
    refine ⟨_, hexec, ?_⟩
    dsimp only
    rw [hagain, Die.ctx_modCtx_same]
    exact ⟨rfl, hst, Ctx.retried_flag _ _, rfl⟩
  · rw [exec_berthRetire hl hf hn k, Die.berthRetire_other hx hb hk]

end

/-- Settles O48: a fill keeps the tide's table, so that its plan makes the step; writing inputs keeps every step's number and berths. -/
theorem stepsFillRunAndRetire : Obligations.StepsFillRunAndRetire := by
  unfold Obligations.StepsFillRunAndRetire
  refine fun s hl hf => ⟨fun t hm ht => ⟨fun p e hnone hp => stepFill_decides hl hm ht hnone hp, fun p hp => stepFill_held hl hm ht hp⟩,
    fun p t hn hp ht => ⟨_, exec_stepPlanReceive hl hf hn hp p, Die.planReceive_step ht p⟩,
    fun b hw => ⟨_, exec_steerCopyDone hl hf hw, s.die.steerDone_steerWait b⟩, fun n hn h => ?_,
    fun t y r v n bad ht hy hr hfull hin hv hbad hseen => berthResult_effect hl hf ht hy hr hfull hin hv hbad hseen,
    fun x b token poison c hn hx hb hr hmore hc hst hkind => berthRetire_effect hl hf hn hx hb hr hmore hc hst hkind,
    fun p hn hp => exec_stepPlanReceive hl hf hn hp p, fun t y ht hy hfull => exec_berthResult hl hf ht hy hfull,
    fun k hn => exec_berthRetire hl hf hn k, fun n hn => exec_contextFetch hl hf hn⟩
  obtain ⟨l, hcache⟩ := s.die.cacheCtx_eq n
  refine ⟨_, exec_contextFetch hl hf hn, Die.cacheCtx_contains h, (s.die.cacheCtx_keepsCtxs n).ctxs, ?_, s.die.cacheCtx_mem n⟩
  dsimp only
  rw [hcache]

end Sys2Proof.Machine
end
